-- ==== Sys2Proof/Word.lean ====
section
/-! DEFINITION. Word: bytes and byte strings. -/

namespace Sys2Proof

/-- One byte. -/
abbrev Byte := BitVec 8

/-- A byte string, the first byte at the lowest address (00_scope.md R4). -/
abbrev Bytes := List Byte

end Sys2Proof
end

