-- ==== Sys2Proof/Syntax.lean ====
section
/-! DEFINITION. Syntax: the commands of the block, one constructor per row of spec/opcode_table.json, and the operand records they carry. -/

namespace Sys2Proof

/-- A datagram as it arrives at a data port (16_courier_ports.md R407-R410): the port, the source address and UDP port,
the source MAC address, and the UDP payload. -/
structure Dgram where
  port : Nat
  ip : Nat
  udp : Nat
  mac : Nat
  bytes : Bytes
  deriving DecidableEq, Repr

/-- A remote request that arrives over the fabric (10_memory_tiers_and_streaming.md R256): its requester, the requester's
number for it, its postmark, and its kind (0 read, 1 write, 2 free of an object). -/
structure RemoteReq where
  src : Nat
  tag : Nat
  postmark : Nat
  kind : Nat
  addr : Nat
  len : Nat
  data : Bytes
  deriving DecidableEq, Repr

/-- A Control Hello (12_fabric_links.md R313 step 5). `node` 0xFFFF means that the sender has no node id in force. -/
structure Hello where
  node : Nat
  port : Nat
  lanes : Nat
  expectSeq : Nat
  credits : List Nat
  deriving DecidableEq, Repr

/-- The partition of a node that sent a packet, and its postmark (12_fabric_links.md R306, 19_faults_and_recovery.md R503). -/
structure Sender where
  part : Nat
  postmark : Nat
  deriving DecidableEq, Repr

/-- Which packet of a bulk collective it is (13_collectives.md R330, R340, R341): its kind, 0 the exchange before the data, with what
the members must agree on, 1 a chunk, 2 its acknowledgement, 3 the request for its repeat; and the chunk's stage, ring direction and
number, and whether it is the last. -/
structure PacketHead where
  kind : Nat
  stage : Nat
  neg : Bool
  number : Nat
  last : Bool
  deriving DecidableEq, Repr

/-- A packet of a bulk collective from a neighbour: the group and the place in its order, the node and the partition that sent it, their
postmark, what the members must agree on, its head and its bytes. -/
structure Chunk where
  group : Nat
  ord : Nat
  src : Nat
  part : Nat
  postmark : Nat
  kind : Nat
  sig : Nat
  stage : Nat
  neg : Bool
  number : Nat
  last : Bool
  data : Bytes
  deriving DecidableEq, Repr

/-- A result handed to this module for delivery (16_courier_ports.md R421 step 1). -/
structure ResultReq where
  node : Nat
  client : Nat
  jobId : Nat
  session : Nat
  ref : Nat
  status : Nat
  deriving DecidableEq, Repr

/-- One EtherCAT datagram of a frame (17_object_dictionary.md R429): addressing mode (0 auto-increment, 1 configured
station address, 2 broadcast, 3 logical), the ADP word or logical address, the ESC offset, the bytes written (empty for a
read) and the number of bytes read. -/
structure EscDgram where
  mode : Nat
  adp : Nat
  ado : Nat
  data : Bytes
  readLen : Nat
  deriving DecidableEq, Repr

/-- The commands of the block, one per row of spec/opcode_table.json; the docstring of each names the rule the row cites. -/
inductive Instr where
  /-- NEW_TAIL (R56). A doorbell write proposes a new Tail for a context's command ring, which is accepted or ignored by the distance rules. -/
  | newTail (ctx : Nat) (width : Nat) (value : Nat)
  /-- RESUME (R57). The Resume bit of a doorbell write returns a Halted queue to Running, or is kept for the restore of a Pre-empted queue. -/
  | resume (ctx : Nat) (value : Nat)
  /-- MMA (R98). A matrix multiply-accumulate is checked, tiled into panes, accumulated in FP32 and converted to D. -/
  | mma (ctx : Nat) (idx : Nat)
  /-- MMAS (R127). A matrix multiply with B in 2:4 or block-mapped form treats skipped positions as structural zeros. -/
  | mmas (ctx : Nat) (idx : Nat)
  /-- CONV (R207). A 3-D convolution runs as a matrix product over output positions, Cout and kernel taps. -/
  | conv (ctx : Nat) (idx : Nat)
  /-- POOL (R214). Maximum or average pooling runs over windows of a feature map. -/
  | pool (ctx : Nat) (idx : Nat)
  /-- ATTF (R155). Forward attention runs over masked key blocks, with history expanded from latents where a view is given. -/
  | attf (ctx : Nat) (idx : Nat)
  /-- ATTB (R160). Backward attention recomputes probabilities from saved statistics and writes dQ, dK and dV. -/
  | attb (ctx : Nat) (idx : Nat)
  /-- LATX (R166). Latent store positions are expanded into key and value tensors through an up-projection. -/
  | latx (ctx : Nat) (idx : Nat)
  /-- KVAP (R170). New latents are appended to a latent store, and optionally to a fallback store. -/
  | kvap (ctx : Nat) (idx : Nat)
  /-- SFN (R188). A special function is applied to every element, with an optional bias before it and a scale after it. -/
  | sfn (ctx : Nat) (idx : Nat)
  /-- NORM (R192). Layer or RMS normalisation runs over sets with compensated variance. -/
  | norm (ctx : Nat) (idx : Nat)
  /-- SMAX (R196). A softmax or log-softmax is computed along each line. -/
  | smax (ctx : Nat) (idx : Nat)
  /-- SAMP (R230). One category is drawn from each line of scores by Gumbel-max, or chosen greedily at zero temperature. -/
  | samp (ctx : Nat) (idx : Nat)
  /-- RAND (R227). A tensor is filled with uniform, normal, Bernoulli or raw random values from the compute generators. -/
  | rand (ctx : Nat) (idx : Nat)
  /-- QNT (R581). A tensor is quantised at the start rung, with a carry plane, and converted to the output format. -/
  | qnt (ctx : Nat) (idx : Nat)
  /-- ROUTE (R142). Experts are selected for each token, and the dispatch lists, gates and counts are written. -/
  | route (ctx : Nat) (idx : Nat)
  /-- GATH (R73). Table rows named by indices are copied into destination rows. -/
  | gath (ctx : Nat) (idx : Nat)
  /-- SCAT (R74). Rows are written or added into the table rows named by indices. -/
  | scat (ctx : Nat) (idx : Nat)
  /-- COPY (R75). A tensor or a manifest stream is copied unchanged. -/
  | copy (ctx : Nat) (idx : Nat)
  /-- COLL (R335). A bulk collective runs over rings along the torus axes of a group box. -/
  | coll (ctx : Nat) (idx : Nat)
  /-- POST (R344). A small collective of up to 64 bytes runs over the postcard path. -/
  | post (ctx : Nat) (idx : Nat)
  /-- WAIT (R78). Later instructions of the queue are held until a local semaphore meets a condition. -/
  | wait (ctx : Nat) (idx : Nat)
  /-- SIGNAL (R78). After earlier work and its remote writes are complete, an atomic operation is applied to a semaphore. -/
  | signal (ctx : Nat) (idx : Nat)
  /-- FENCE (R81). The queue is ordered behind all earlier instructions, including remote acknowledgements when Scope is 1. -/
  | fence (ctx : Nat) (idx : Nat)
  /-- STILL (R135). The current input is compared with a reference, a still mask is written and moving rows are copied. -/
  | still (ctx : Nat) (idx : Nat)
  /-- ARGMX (R217). The index of the largest channel is written for each line. -/
  | argmx (ctx : Nat) (idx : Nat)
  /-- NOP (R68). The instruction does nothing and keeps its place in ordering. -/
  | nop (ctx : Nat) (idx : Nat)
  /-- CODEC_OPEN_ENCODER (R389). A CODEC job opens an encoder stream context and binds its frame buffer slots. -/
  | codecOpenEncoder (ctx : Nat) (idx : Nat)
  /-- CODEC_OPEN_DECODER (R389). A CODEC job opens a decoder stream context and binds its frame buffer slots. -/
  | codecOpenDecoder (ctx : Nat) (idx : Nat)
  /-- CODEC_ENCODE (R397). An encode job codes input frames into the bitstream buffer until the frames or the buffer run out. -/
  | codecEncode (ctx : Nat) (idx : Nat)
  /-- CODEC_DECODE (R398). A decode job consumes whole access or temporal units and writes frames in display order. -/
  | codecDecode (ctx : Nat) (idx : Nat)
  /-- CODEC_CLOSE (R397). A close job flushes the Held frames, ends the stream and frees its slots. -/
  | codecClose (ctx : Nat) (idx : Nat)
  /-- INTK_TEXT (R363). A text intake job tokenises the samples of a batch into rows of tokens. -/
  | intkText (ctx : Nat) (idx : Nat)
  /-- INTK_IMAGE (R369). An image intake job crops, warps, corrects, samples and augments the samples of a batch into feature maps. -/
  | intkImage (ctx : Nat) (idx : Nat)
  /-- INTK_INSTALL (R359). An install job checks a dictionary image and builds the engine's lookup structure for a dictionary slot. -/
  | intkInstall (ctx : Nat) (idx : Nat)
  /-- INSTRUCTION_COMPLETE (R79). An instruction completes: its record is written, Retired advances, and on failure the queue halts. -/
  | instructionComplete (ctx : Nat) (idx : Nat)
  /-- WAIT_SATISFIED (R78). A waiting WAIT reads a semaphore value that meets its condition, and completes. -/
  | waitSatisfied (ctx : Nat) (idx : Nat)
  /-- WAIT_TIMEOUT (R78). A WAIT's limit passes, and the semaphore is read once more before the WAIT completes with success or 0x0401. -/
  | waitTimeout (ctx : Nat) (idx : Nat)
  /-- REMOTE_ACK (R78). The acknowledgement of a remote write or SIGNAL arrives and releases the instructions waiting on it. -/
  | remoteAck (req : Nat)
  /-- REMOTE_ACK_TIMEOUT (R82). RemoteAckLimit passes without an acknowledgement, and one waiting SIGNAL, FENCE or read fails with 0x0703. -/
  | remoteAckTimeout (req : Nat)
  /-- REFUSE_RECEIVE (R78). A Refuse flit comes back to the requester, and the request fails with the code it carries. -/
  | refuseReceive (req : Nat) (code : Nat)
  /-- TASK_TAKE (R284). A task in a cell ends, and the cell takes the next task from its pigeonholes by priority and sequence. -/
  | taskTake (cell : Nat) (which : Nat)
  /-- CHAIN_HOP_TIMEOUT (R113). A chain member waits for, or cannot forward, a chunk for longer than ChainHopLimit, and falls back to the weight cache. -/
  | chainHopTimeout (ctx : Nat) (idx : Nat) (cell : Nat) (fwd : Bool)
  /-- HISTORY_FETCH_ARRIVAL (R173). A history block fetch arrives or fails, and the block's path is decided, or a late reply is discarded. -/
  | historyFetchArrival (ctx : Nat) (idx : Nat) (block : Nat) (ok : Bool) (data : Bytes)
  /-- HISTORY_DEADLINE (R173). A history block's deadline passes, and the block takes the resolved recompute, reduced-window or fail path. -/
  | historyDeadline (ctx : Nat) (idx : Nat) (block : Nat)
  /-- RESEED (R223). A compute generator's reseed falls due and is taken from the TRNG. -/
  | reseed (cell : Nat)
  /-- SCRUB (R242). A controller reads a row during its scrub period, writes back corrected codewords and logs uncorrectable ones. -/
  | scrub (channel : Nat) (corrected : Nat) (bad : List Nat)
  /-- WCB_AGE_RETIRE (R251). A write-combining entry older than WcbAgeLimit retires by read-modify-write. -/
  | wcbAgeRetire (channel : Nat)
  /-- UNMAPPED_ACCESS (R245). A master access outside every window completes without effect and is counted. -/
  | unmappedAccess (addr : Nat) (write : Bool)
  /-- REMOTE_ACCESS (R256). A remote read or write request arrives at its home and is served, refused, answered with poison, or refused by the router during a reset. -/
  | remoteAccess (r : RemoteReq)
  /-- REMOTE_SIGNAL (R76). A remote SIGNAL arrives, and its Op is applied or it is refused with 0x0702. -/
  | remoteSignal (src : Nat) (postmark : Nat) (addr : Nat) (op : Nat) (operand : Nat)
  /-- REMOTE_ALLOC (R254). A cache peer receives a remote allocation request and grants it or reports that it lacks room. -/
  | remoteAlloc (src : Nat) (postmark : Nat) (record : Bytes)
  /-- WRITE_BACK_TIMEOUT (R261). A write-back is not acknowledged within RemoteAckLimit, and the copy stays dirty. -/
  | writeBackTimeout (req : Nat)
  /-- GRANULE_ZEROING (R255). The background zeroing of a freed or lost granule completes, and the granule becomes free. -/
  | granuleZeroing (granule : Nat)
  /-- RETRAIN_DUE (R266). A channel's retraining session falls due by interval, temperature or CRC retries. -/
  | retrainDue (channel : Nat)
  /-- RETRAIN_REQUEST (R266). A write to RetrainRequest asks for a live retraining session of a channel. -/
  | retrainRequest (value : Nat)
  /-- RETRAIN_TIMEOUT (R268). Training does not succeed within 0.9 ms, the previous values are restored and the session counts as failed. -/
  | retrainTimeout (channel : Nat)
  /-- SUBMIT (R420). A courier Submit is checked and the job is accepted into a context or refused. -/
  | submit (d : Dgram)
  /-- SLOT_GRANT (R281). A freed sequence slot goes to the waiting sequence with the highest priority, whose contexts become Live. -/
  | slotGrant
  /-- PREEMPT_WAIT_EXPIRY (R286). A higher-priority task's wait passes PreemptWait, and the lower-priority context is suspended. -/
  | preemptWaitExpiry (cell : Nat) (ctx : Nat) (idx : Nat) (task : Nat)
  /-- SUSPEND_CONTEXT (R286). A write to SuspendContext suspends one Live context with Held set. -/
  | suspendContext (value : Nat)
  /-- SUSPEND_PARTITION (R286). A write to SuspendPartition suspends every Live context of a partition with Held set. -/
  | suspendPartition (value : Nat)
  /-- RESUME_CONTEXT (R295). A write to ResumeContext clears Held on a Suspended context so that it can be restored. -/
  | resumeContext (value : Nat)
  /-- SAVE_COMPLETE (R287). The last records are written, and the header is completed and the context marked Suspended. -/
  | saveComplete (ctx : Nat)
  /-- RESTORE (R295). A Suspended context is checked, its tasks are redealt and its records reloaded, and it returns to Live. -/
  | restore (ctx : Nat)
  /-- QUOTA_COMMIT (R280). A client's job quota pair is committed, or rejected while the previous entry stays in force. -/
  | quotaCommit (value : Nat)
  /-- FLIT_TRANSMIT (R309). At a flit boundary, the sender chooses the next flit by type, class and credit. -/
  | flitTransmit (port : Nat)
  /-- FLIT_RECEIVE (R307). A flit arrives and is accepted in sequence, or discarded with a Nak, and its acknowledgement and credits are taken. -/
  | flitReceive (port : Nat) (fecOk : Bool) (bytes : Bytes)
  /-- NAK_RECEIVE (R310). A Nak arrives, and the sender replays every unacknowledged flit after AckSeq. -/
  | nakReceive (port : Nat) (ackSeq : Nat)
  /-- REPLAY_TIMEOUT (R310). The oldest unacknowledged flit waits past ReplayTimeout, and the sender replays. -/
  | replayTimeout (port : Nat)
  /-- SIGNAL_DETECT (R313). A port detects a signal and starts bring-up through training and alignment. -/
  | signalDetect (port : Nat) (lanes : Nat)
  /-- BRING_UP_TIMEOUT (R315). A port does not reach Exchanging within 500 ms, returns to Down and retries after 100 ms. -/
  | bringUpTimeout (port : Nat)
  /-- HELLO_RECEIVE (R313). A Control Hello arrives, the width is agreed and the neighbour is checked against the torus. -/
  | helloReceive (port : Nat) (h : Hello)
  /-- HELLO_TIMER (R315). A port held in Exchanging sends a Hello every 1 ms. -/
  | helloTimer (port : Nat)
  /-- HELLO_TIMEOUT (R315). No Hello arrives for 10 ms, and the held port returns to Down. -/
  | helloTimeout (port : Nat)
  /-- LANE_FAULT (R316). A lane loses signal or lock, or gives repeated uncorrectable codewords, is removed, and the port narrows its width. -/
  | laneFault (port : Nat) (lane : Nat) (cause : Nat)
  /-- LANE_RETRAIN_DUE (R317). A lane's retraining falls due by interval or error rate, and the port runs on the other lane pair. -/
  | laneRetrainDue (port : Nat) (lane : Nat)
  /-- LANE_RETRAIN_REQUEST (R317). A write to LaneRetrainRequest asks for a live retraining of one lane. -/
  | laneRetrainRequest (value : Nat)
  /-- LANE_RETRAIN_DONE (R317). The retrained lanes lock and deskew, and the port returns to width 4. -/
  | laneRetrainDone (port : Nat)
  /-- LANE_RETRAIN_TIMEOUT (R317). Lane training fails or passes 150 ms, the port stays at width 2 and the lane counts as removed. -/
  | laneRetrainTimeout (port : Nat)
  /-- NODE_COMMIT (R319). The NodeId and TorusDims pair is committed, taking effect at once or at the next router domain reset. -/
  | nodeCommit (value : Nat)
  /-- ROUTE_COMMIT (R321). A routing entry pair is committed into the router. -/
  | routeCommit (value : Nat)
  /-- ROUTE_DEFAULTS (R320). Every routing entry is refilled with its default. -/
  | routeDefaults (value : Nat)
  /-- ROUTER_RESET (R323). The router domain is reset: every port goes to Down and its flits are discarded. -/
  | routerReset (value : Nat)
  /-- PORT_ENABLE (R325). A write to PortEnable enables or disables fabric ports at once. -/
  | portEnable (value : Nat)
  /-- PORT_DOWN_LIMIT (R321). A flit held for a port that is not Active passes PortDownLimit and is discarded. -/
  | portDownLimit (port : Nat)
  /-- RESPONSE_RECEIVE (R504). A response arrives and is matched to its request, or is dropped for a stale postmark. -/
  | responseReceive (req : Nat) (postmark : Nat) (poisoned : List Nat) (data : Bytes)
  /-- CHUNK_RECEIVE (R340). A collective chunk arrives, is checked and added or placed, and is repeated once on a failure. -/
  | chunkReceive (group : Nat) (ord : Nat) (src : Nat) (sender : Sender) (sig : Nat) (head : PacketHead) (residue : Bool) (data : Bytes)
  /-- COLL_TIMEOUT (R348). A COLL or POST makes no progress for CollProgressLimit, and fails with 0x04B0. -/
  | collTimeout (ctx : Nat) (idx : Nat)
  /-- POSTCARD_RECEIVE (R344). A postcard unit receives a postcard, combines it into its value and relays it. -/
  | postcardReceive (group : Nat) (ord : Nat) (axis : Nat) (pos : Nat) (sender : Sender) (sig : Nat) (payload : Bytes)
  /-- CTRL_BROADCAST (R346). A control collective delivers CtrlPayload to every node of the torus. -/
  | ctrlBroadcast (initiator : Nat) (payload : Bytes)
  /-- CTRL_SNAPSHOT (R347). A control collective combines every node's status record. -/
  | ctrlSnapshot (initiator : Nat) (others : Bytes)
  /-- CTRL_GROUP_RESET (R346). A control collective ends every collective of a GroupId on every node, with 0x07B0. -/
  | ctrlGroupReset (initiator : Nat) (group : Nat)
  /-- SAMPLE_TAKE (R366). A pipe takes a sample, checks it and starts its time budget, or voids the slot. -/
  | sampleTake (pipe : Nat)
  /-- SAMPLE_COMPLETE (R369). A pipe finishes a sample's output and takes the next sample. -/
  | sampleComplete (pipe : Nat)
  /-- SAMPLE_BUDGET_EXPIRY (R367). A sample passes its budget, is abandoned and voided with 0x06C6. -/
  | sampleBudgetExpiry (pipe : Nat)
  /-- DICT_REPLACE (R359). Once no running text job uses the slot, an install replaces the slot's dictionary and tag in one step. -/
  | dictReplace (slot : Nat)
  /-- FRAME_TAKE (R382). A codec pipe takes the next frame of a stream, switching streams if needed. -/
  | frameTake (pipe : Nat)
  /-- FRAME_COMPLETE (R400). A pipe finishes coding or decoding a frame, and writes the frame with its status and slot marks. -/
  | frameComplete (pipe : Nat)
  /-- FRAME_BUDGET_EXPIRY (R401). A frame passes FrameBudget, is stopped and concealed. -/
  | frameBudgetExpiry (pipe : Nat)
  /-- INVALID_DATAGRAM (R412). A datagram that is shorter than a header, or whose Length disagrees, is dropped and counted. -/
  | invalidDatagram (d : Dgram)
  /-- OPEN (R413). A courier Open creates a session, or returns the number of a repeated session. -/
  | openSession (d : Dgram)
  /-- CLOSE (R413). A courier Close ends a session once its earlier messages are complete. -/
  | closeSession (d : Dgram)
  /-- ACK (R414). An acknowledgement releases sent messages, and a repeated Ack triggers a resend. -/
  | ack (d : Dgram)
  /-- ALLOC (R254). An allocation request is placed by Tier and answered with a global address. -/
  | alloc (d : Dgram)
  /-- FREE (R256). A free request releases a live object, forwarded to the home when it is remote. -/
  | free (d : Dgram)
  /-- WRITE (R417). A courier Write places data at a local address. -/
  | write (d : Dgram)
  /-- READ (R417). A courier Read returns data in Data messages followed by a Reply. -/
  | read (d : Dgram)
  /-- IMPORT (R297). An exported save area is imported into a new context and save slot. -/
  | importJob (d : Dgram)
  /-- CONTROL_DOORBELL (R422). A courier Control applies a doorbell to a job, optionally sealing it. -/
  | controlDoorbell (d : Dgram)
  /-- CONTROL_SUSPEND (R422). A courier Control suspends a job's context as SuspendContext does. -/
  | controlSuspend (d : Dgram)
  /-- CONTROL_RESUME (R422). A courier Control resumes a job's context as ResumeContext does. -/
  | controlResume (d : Dgram)
  /-- CONTROL_CANCEL (R422). A courier Control cancels a job, ending its instructions with 0x0403. -/
  | controlCancel (d : Dgram)
  /-- CONTROL_EXPORT (R422). A courier Control returns the save area address of a Suspended job. -/
  | controlExport (d : Dgram)
  /-- CONTROL_REBIND (R422). A courier Control rebinds a job's result to another session. -/
  | controlRebind (d : Dgram)
  /-- CONTROL_QUERY (R422). A courier Control asks for a Progress of a job. -/
  | controlQuery (d : Dgram)
  /-- ARP_REQUEST (R408). An ARP request for the module's IPv4 address is answered. -/
  | arpRequest (port : Nat) (target : Nat) (senderIp : Nat) (senderMac : Nat)
  /-- NEIGHBOUR_SOLICITATION (R408). An IPv6 neighbour discovery message for the module's address is answered. -/
  | neighbourSolicitation (port : Nat) (target : Nat) (senderIp : Nat) (senderMac : Nat)
  /-- ECHO_REQUEST (R408). An ICMPv4 or ICMPv6 echo request is answered. -/
  | echoRequest (port : Nat) (v6 : Bool) (dst : Nat) (src : Nat) (payload : Bytes)
  /-- RETRANSMIT_TIMEOUT (R415). The oldest unacknowledged courier message waits past RetransmitTimeout, and the module resends or ends the session. -/
  | retransmitTimeout (session : Nat)
  /-- ACK_TIMER (R414). An owed acknowledgement reaches 20 µs or 16 messages, and the module sends an Ack. -/
  | ackTimer (session : Nat)
  /-- RESULT_REQUEST (R421). A delivering module receives a result, checks its manifest and sends Result messages and ResultEnd. -/
  | resultRequest (r : ResultReq)
  /-- RESULT_HOLD_EXPIRY (R421). A result waits past ResultHoldLimit for its session, and is dropped with 0x07E0. -/
  | resultHoldExpiry (result : Nat)
  /-- HALT_LIMIT_EXPIRY (R423). A job's queue stays Halted past HaltLimit, and the job is cancelled. -/
  | haltLimitExpiry (ctx : Nat)
  /-- PORT_LINK_LOSS (R425). A data port loses its link, and messages in flight are resent on the port the client uses next. -/
  | portLinkLoss (port : Nat)
  /-- ETHERCAT_FRAME (R430). An EtherCAT frame is processed on the fly and forwarded. -/
  | ethercatFrame (port : Nat) (dgs : List EscDgram)
  /-- ETHERCAT_LINK_LOSS (R431). An EtherCAT port loses its link, and the loop is closed. -/
  | ethercatLinkLoss (port : Nat)
  /-- AL_STATE_REQUEST (R432). The MainDevice requests an AL state change, which is made or refused. -/
  | alStateRequest (state : Nat)
  /-- SDO_DOWNLOAD (R435). An SDO download writes a dictionary entry, applied when the response is placed. -/
  | sdoDownload (index : Nat) (sub : Nat) (complete : Bool) (bytes : Bytes)
  /-- SDO_UPLOAD (R446). An SDO upload reads a dictionary entry, or is aborted. -/
  | sdoUpload (index : Nat) (sub : Nat) (complete : Bool)
  /-- SDO_INFORMATION (R436). An SDO information request returns object and entry descriptions. -/
  | sdoInformation (op : Nat) (index : Nat) (sub : Nat)
  /-- SDO_TRANSFER_TIMEOUT (R435). A segmented transfer receives no segment for 1 s, and is abandoned. -/
  | sdoTransferTimeout
  /-- MAILBOX_UNSUPPORTED (R429). A mailbox request of an unsupported protocol is answered with mailbox error 0x0002. -/
  | mailboxUnsupported (protocol : Nat)
  /-- SM2_WATCHDOG (R443). The SM2 watchdog expires in Op, and the module goes to SafeOp. -/
  | sm2Watchdog
  /-- PDO_REFRESH (R441). SM3 is refreshed with one reading of each mapped entry. -/
  | pdoRefresh
  /-- PDO_MAPPING (R440). A write to the configurable PDO or its assignment is checked and applied. -/
  | pdoMapping (index : Nat) (entries : List Nat)
  /-- STORE_ALL (R449). Writing save to StoreAll forces a journal commit. -/
  | storeAll (value : Nat)
  /-- RESTORE_DEFAULTS (R449). Writing load to RestoreDefaults sets persistent entries to their defaults at the next chip reset. -/
  | restoreDefaults (value : Nat)
  /-- LAYOUT_COMMIT (R451). The partition layout and role pair is committed for the next resets. -/
  | layoutCommit (value : Nat)
  /-- DICT_WRITE (R446). A write to an entry without a row of its own is range-checked and takes effect as the entry states. -/
  | dictWrite (index : Nat) (sub : Nat) (bytes : Bytes)
  /-- FOE_WRITE_FIRMWARE (R484). An FoE write of the file firmware receives, verifies and places a new image. -/
  | foeWriteFirmware (password : Nat) (readBack : Nat) (image : Bytes)
  /-- FOE_READ (R444). An FoE read returns a cullet or a last-post record. -/
  | foeRead (password : Nat) (name : Bytes)
  /-- ACTIVATE_FIRMWARE (R485). A write to ActivateFirmware activates the pending image live. -/
  | activateFirmware (value : Nat)
  /-- FAULT_CLEAR (R514). A write to FaultClear clears the latched FaultSummary bits it names. -/
  | faultClear (value : Nat)
  /-- FENCE_UNIT (R518). The fence pair with action 1 fences a unit manually. -/
  | fenceUnit (value : Nat)
  /-- CLEAR_FENCE (R518). The fence pair with action 2 clears a fence at the next chip reset or bring-up. -/
  | clearFence (value : Nat)
  /-- RESET_PARTITION (R500). ResetRequest 0x10 to 0x13 resets one partition. -/
  | resetPartition (value : Nat)
  /-- RESET_CHIP (R501). ResetRequest 0x20 performs a chip reset. -/
  | resetChip (value : Nat)
  /-- RESET_CHIP_CULLET (R501). ResetRequest 0x21 performs a chip reset with a cullet. -/
  | resetChipCullet (value : Nat)
  /-- RESET_POWER_CYCLE (R502). ResetRequest 0x30 asks the tray for a power cycle. -/
  | resetPowerCycle (value : Nat)
  /-- RAISE_SECURITY_VERSION (R532). A write to RaiseSecurityVersion blows fuses up to the running image's security version. -/
  | raiseSecurityVersion (value : Nat) (blowOk : Bool)
  /-- CHALLENGE (R533). A read of Challenge returns and replaces the 32-byte challenge. -/
  | challenge
  /-- CHALLENGE_LOCKOUT_END (R533). The challenge lockout after 8 refused tokens ends. -/
  | challengeLockoutEnd
  /-- UNLOCK_OBSERVE (R536). A token of operation 1 raises the debug level to Observe. -/
  | unlockObserve (token : Bytes)
  /-- UNLOCK_FULL (R536). A token of operation 2 raises the debug level to Full. -/
  | unlockFull (token : Bytes)
  /-- TO_FIELD (R538). A token of operation 3 moves the lifecycle to Field. -/
  | toField (token : Bytes) (blowOk : Bool)
  /-- TO_RETURNED (R538). A token of operation 4 moves the lifecycle to Returned. -/
  | toReturned (token : Bytes) (blowOk : Bool)
  /-- TO_SCRAPPED (R538). A token of operation 5 moves the lifecycle to Scrapped. -/
  | toScrapped (token : Bytes) (blowOk : Bool)
  /-- REVOKE (R536). A token of operation 6 revokes a vendor key slot. -/
  | revoke (token : Bytes) (blowOk : Bool)
  /-- PROVISION (R539). Provision 1 in Blank generates and wraps the identity key and blows Provisioned. -/
  | provision (value : Nat) (blowOk : Bool)
  /-- PROVISION_SCRAP (R538). Provision 2 in Blank moves the module to Scrapped. -/
  | provisionScrap (value : Nat) (blowOk : Bool)
  /-- ROTATE_IDENTITY (R541). A write to RotateIdentity replaces the identity key with a signed new generation. -/
  | rotateIdentity (value : Nat)
  /-- ATTEST_NONCE (R544). A write to AttestNonce starts the signing of an attestation report. -/
  | attestNonce (nonce : Bytes)
  /-- ATTEST_REPORT_READY (R544). The report is signed, and AttestState becomes ready. -/
  | attestReportReady
  /-- RELOCK (R545). A write to Relock returns the debug level to Locked. -/
  | relock (value : Nat)
  /-- DEBUG_DATA_READ (R547). A read of DebugData reads 64 B at DebugAddress. -/
  | debugDataRead
  /-- DEBUG_DATA_WRITE (R547). A write of DebugData writes 64 B at DebugAddress. -/
  | debugDataWrite (data : Bytes)
  /-- POWER_FULL (R550). A power commit with target Full powers every region again. -/
  | powerFull (value : Nat)
  /-- POWER_TRIM (R550). A power commit with target Trim powers down whole partitions' regions. -/
  | powerTrim (value : Nat)
  /-- POWER_HOLD (R550). A power commit with target Hold ends sessions, takes the ports down and puts GDDR7 into self-refresh. -/
  | powerHold (value : Nat)
  /-- EXTEST (R546). The JTAG instruction EXTEST drives the pins from the boundary register. -/
  | extest (boundary : Nat)
  /-- IDCODE (R546). The JTAG instruction IDCODE shifts out the 32-bit IDCODE. -/
  | idcode
  /-- SAMPLE_PRELOAD (R546). The JTAG instruction SAMPLE/PRELOAD acts as IEEE 1149.1 gives. -/
  | samplePreload (boundary : Nat)
  /-- SCANREAD (R546). The JTAG instruction SCANREAD reads a unit's control state through the scan path. -/
  | scanread (unit : Nat)
  /-- SCANWRITE (R546). The JTAG instruction SCANWRITE writes a unit's control state. -/
  | scanwrite (unit : Nat) (data : Bytes)
  /-- COREHALT (R546). The JTAG instruction COREHALT halts or resumes a control core. -/
  | corehalt (core : Nat) (halt : Bool)
  /-- BYPASS (R546). The JTAG instruction BYPASS, or any instruction that is not granted, selects the bypass register. -/
  | bypass (code : Nat) (tdi : Bool)
  /-- TAP_RESET (R546). A TAP reset selects IDCODE. -/
  | tapReset
  /-- TRNG_HEALTH_FAIL (R526). A TRNG health test fails: its output is withheld and FaultSummary bit 19 is set. -/
  | trngHealthFail
  /-- TRNG_RESUME (R526). 1,024 samples in a row pass, and the TRNG resumes its output. -/
  | trngResume
  /-- COMMIT_TIMER (R469). Two seconds pass after an uncommitted change, and the store starts a commit. -/
  | commitTimer
  /-- ALLOWANCE_TICK (R470). The journal allowance grows by 64 KiB every 2 s, up to 64 MiB. -/
  | allowanceTick
  /-- POWER_FALL (R472). The input falls below 33 V, and the power-loss sequence commits and copies the last-post records. -/
  | powerFall
  /-- POWER_RETURN (R474). The input returns above 36 V during the power-loss sequence, which completes before a chip reset. -/
  | powerReturn
  /-- POWER_ON (R569). The input rises above 35 V, and the module starts through regulators, boot ROM, training and store rebuild. -/
  | powerOn (nandOk : Bool) (failedChannels : List Nat)
  /-- NAND_SCRUB (R479). A written NAND page is read in its scrub period and relocated or repaired. -/
  | nandScrub (block : Nat) (finding : Nat)
  /-- WINDOW_ROLL (R481). A new 2^48-cycle window of the NAND controller restarts the object write limits. -/
  | windowRoll
  /-- FENCE_WINDOW (R517). A fence window ends and restarts the counts toward automatic fences. -/
  | fenceWindow (region : Nat)
  /-- CELL_WATCHDOG (R494). A cell's progress watchdog expires, and the cell is engine reset. -/
  | cellWatchdog (cell : Nat)
  /-- ENGINE_WATCHDOG (R494). A stream engine, pipe or GDDR7 controller watchdog expires, and the unit is engine reset. -/
  | engineWatchdog (unit : Nat)
  /-- PARTITION_WATCHDOG (R494). A partition unit watchdog expires, and the partition is reset. -/
  | partitionWatchdog (region : Nat)
  /-- CORE_WATCHDOG (R494). A control core watchdog expires, and a chip reset runs with the control complex hung. -/
  | coreWatchdog (core : Nat)
  /-- UNCORRECTABLE_CELL_STATE (R499). An uncorrectable error in a cell's scratchpad or accumulator leads to an engine reset. -/
  | uncorrectableCellState (cell : Nat) (laneGroup : Nat)
  /-- ENGINE_RESET_OVERRUN (R497). An engine reset misses its target, and the unit is fenced. -/
  | engineResetOverrun (unit : Nat)
  /-- ANNEAL_COMPLETE (R500). The anneal's drain ends, records are written, the units are reset and the partition restarts. -/
  | annealComplete (partition : Nat)
  /-- ANNEAL_OVERRUN (R497). An anneal overruns its target, and a chip reset follows. -/
  | annealOverrun (partition : Nat)
  /-- CHIP_RESET_TIMEOUT (R497). The firmware is not serving within the chip reset target: a second reset follows, or a power cycle is requested. -/
  | chipResetTimeout
  /-- PERST (R570). PERST_N is asserted: a chip reset runs without a cullet and the router domain is reset. -/
  | perst
  /-- PERST_RELEASE (R570). The release of PERST_N continues the start from island clock lock. -/
  | perstRelease
  /-- REFCLK156_LOSS (R568). The SerDes reference is lost, and every fabric and data port goes Down. -/
  | refclk156Loss
  /-- REFCLK156_RETURN (R568). The SerDes reference returns, and the ports bring themselves up. -/
  | refclk156Return
  /-- REFCLK100_LOSS (R568). The 100 MHz reference is lost, and every island stops until PERST_N or a power cycle. -/
  | refclk100Loss
  /-- THERMAL_WARNING (R573). The die or a GDDR7 device crosses 95 °C, and FaultSummary bit 17 is set or cleared. -/
  | thermalWarning (die : Nat) (device : Nat)
  /-- THROTTLE_STEP (R573). While over temperature or power, compute clocks fall one step every 100 µs, and later rise one step every 1 ms. -/
  | throttleStep (die : Nat) (device : Nat) (power : Nat)
  /-- THERMAL_TRIP (R573). Temperature exceeds the trip limit for 1 ms, and the module saves and turns off its rails. -/
  | thermalTrip (die : Nat) (device : Nat)
  /-- CHANNEL_TRAINING_DONE (R267). Training of a GDDR7 channel in a live session succeeds, so the controller resumes access, serves held reads and writes and drains the detour, and the session ends. -/
  | channelTrainingDone (channel : Nat)
  /-- PORT_ALIGNED (R313). A fabric port finishes link training, FEC lock and deskew of its lanes, chooses its width and enters Exchanging. -/
  | portAligned (port : Nat) (lanes : Nat)
  /-- DATA_PORT_LINK_UP (R407). A data port completes 802.3 link training and auto-negotiation and its link comes up. -/
  | dataPortLinkUp (port : Nat)
  /-- ETHERCAT_LINK_UP (R429). An EtherCAT port regains its link and the loop closed on that port opens again. -/
  | ethercatLinkUp (port : Nat)
  /-- INPUT_VOLTAGE_OUT_OF_RANGE (R557). The input voltage leaves or re-enters the 36 V to 48 V range without crossing 33 V, and FaultSummary bit 18 follows it. -/
  | inputVoltageOutOfRange (millivolts : Nat)
  deriving DecidableEq, Repr

end Sys2Proof
end

