-- ==== Sys2Proof/Config.lean ====
section
/-! DEFINITION. Config: what the spec leaves open or supplies outside its text, as constants with no body. -/

namespace Sys2Proof

/-- A free 32-bit value, by the epoch of the step that draws it and an index within the step (free values). -/
opaque Config.freeWord : Nat → Nat → BitVec 32

/-- A free 64-bit local cycle count, by epoch (01 R14: every log entry carries the count of the island that wrote it, and
the module has no machine-wide time base). -/
opaque Config.freeCycle : Nat → BitVec 64

/-- The 16 check bits of the (144,128) code for 128 data bits (10 R239: the spec names the code by what it corrects and detects,
and gives no matrix). -/
opaque Config.checkBits : Nat → BitVec 16

/-- The FP32 coefficients of the native special-function unit: by function code, segment and power of t (07 R183: they are in a
table outside the spec). -/
opaque Config.sfnCoef : Nat → Nat → Nat → BitVec 32

/-- The OPW-2406 special-function unit (07 R197: its table is outside the spec). -/
opaque Config.sfnCompat : Nat → BitVec 32 → BitVec 32

/-- A codec's own state after a frame or a unit, by its state before and the bytes taken (15 R383: it lives in the system
reserve, in a layout of its own). -/
opaque Config.codecNext : Nat → Bytes → Nat

/-- The slots that a codec keeps for prediction, by its state: bit i stands for slot i (15 R385). -/
opaque Config.codecRefs : Nat → Nat

/-- The parameters of a stream fit its Level: an encoder's (15 R390), and a decoder's width and height (R380). The limits of the levels are
those of the standards. -/
opaque Config.levelFits : Bytes → Bool

/-- The coded frame that the encoder writes: by the parameters object, the codec's state, whether the frame is a random access
point, and the frame's code values, two bytes each (15 R381, R395: the bits are the encoder's own). -/
opaque Config.encodeFrame : Bytes → Nat → Bool → Bytes → Bytes

/-- A coded frame at QpMax breaks the rate control buffer (15 R395). -/
opaque Config.rateBroken : Bytes → Nat → Bytes → Bool

/-- The bits a codec ends its stream with at a close (15 R397). -/
opaque Config.encodeEnd : Bytes → Nat → Bytes

/-- The unit at the front of a bitstream (15 R398, R400, R401), by the parameters object, the codec's state and the rest of the
bitstream: its bytes (0: none is complete), its kind (0 an ordinary frame, 1 a random access point, 2 a leading picture of the
first random access point, 3 beyond the open parameters), its frame's width and height, and 1 where its syntax or data are
damaged, 2 where a reference is missing. The HEVC and AV1 decoding processes are outside the spec. -/
opaque Config.decodeUnit : Bytes → Nat → Bytes → Nat × Nat × Nat × Nat × Nat

/-- What that unit needs (15 R380, R401): its chroma format (0 monochrome, 1 4:2:0, 2 another), its bit depth, its level and its slots. -/
opaque Config.unitForm : Bytes → Nat → Bytes → Nat × Nat × Nat × Nat

/-- The film grain that AV1 puts on an output frame, and on no reference (15 R380). -/
opaque Config.filmGrain : Bytes → Nat → Bytes → List Nat → List Nat

/-- Where the stream contexts stand in the system reserve (15 R383: their place is not given). -/
opaque Config.codecTable : BitVec 32

/-- The code values of the frame of that unit, and the slots it predicts from. -/
opaque Config.decodeFrame : Bytes → Nat → Bytes → List Nat
opaque Config.unitRefs : Bytes → Nat → Bytes → Nat

/-- The place in display order of the frame of that unit, and how many Held frames are due for output in a state (15 R398). -/
opaque Config.displayRank : Bytes → Nat → Bytes → Nat
opaque Config.outputDue : Nat → Nat

/-- The control state of a unit that the scan path reads (19 R509, 20 R546: its layout is not given), by unit code and
epoch. -/
opaque Config.scanState : Nat → Nat → Bytes

/-- Which revision the part is, as its letter and digit count from A and 0 (00 R2). One part, fixed for its life. -/
opaque Config.revision : Nat × Nat

/-- The revision's capital letter, in ASCII, and its digit, as the label prints them and 0x1009 gives them (00 R2). -/
def Config.revisionLetter : Nat := 65 + Config.revision.1 % 26
def Config.revisionDigit : Nat := Config.revision.2 % 10

/-- The router's hash of SrcNode and DestNode (12 R321: the function is not given). -/
opaque Config.routeHash : Nat → Nat → Nat

/-- Where the contexts table stands in the system reserve (11 R273: its place is not given). -/
opaque Config.contextTable : BitVec 32

/-- Where the tokeniser's lookup structures stand in the system reserve (14 R359: their place is not given). -/
opaque Config.dictTable : BitVec 32

/-- The text of a firmware version (17 R452: 0x100A gives it, in a form of its own). -/
opaque Config.versionText : Nat → Bytes

/-- The emulated EEPROM contents of the SubDevice (17 R429: 2 KiB, outside the spec). -/
opaque Config.sii : Nat → BitVec 8

/-- MAC addresses of the data ports (16 R426), set outside the spec. -/
opaque Config.macAddress : Nat → BitVec 48

end Sys2Proof
end

