-- ==== Sys2Proof/Machine/Float.lean ====
section
/-! DEFINITION. Float: exact values, the element formats of 02 R24 to R27, and every rounding of 02 R31 to R35. -/

namespace Sys2Proof.Machine
open Sys2Proof

/-- An exact value: a NaN, an infinity, or ± `m` × 2^`e`. -/
inductive Num where
  | nan
  | inf (neg : Bool)
  | fin (neg : Bool) (m : Nat) (e : Int)
  deriving DecidableEq, Repr

namespace Num

def zero : Num := .fin false 0 0
def negZero : Num := .fin true 0 0
def one : Num := .fin false 1 0
def ofNat (n : Nat) : Num := .fin false n 0
def ofInt (i : Int) : Num := .fin (i < 0) i.natAbs 0

def isNan : Num → Bool
  | .nan => true
  | _ => false
def isInf : Num → Bool
  | .inf _ => true
  | _ => false
def isFin : Num → Bool
  | .fin _ _ _ => true
  | _ => false
def isZero : Num → Bool
  | .fin _ m _ => m == 0
  | _ => false
def sign : Num → Bool
  | .nan => false
  | .inf n => n
  | .fin n _ _ => n
def neg : Num → Num
  | .nan => .nan
  | .inf n => .inf (!n)
  | .fin n m e => .fin (!n) m e
def abs : Num → Num
  | .nan => .nan
  | .inf _ => .inf false
  | .fin _ m e => .fin false m e

/-- Two finite magnitudes at one exponent: the smaller exponent and both integers. -/
def align (m1 : Nat) (e1 : Int) (m2 : Nat) (e2 : Int) : Nat × Nat × Int :=
  if e1 ≤ e2 then (m1, m2 * 2 ^ (e2 - e1).toNat, e1) else (m1 * 2 ^ (e1 - e2).toNat, m2, e2)

/-- The exact signed integer of a finite value at exponent `e` no larger than its own. -/
def signed (n : Bool) (m : Nat) : Int := if n then -(m : Int) else (m : Int)

/-- Exact sum; an exact zero sum is +0 unless both terms are −0 (02 R34). -/
def add : Num → Num → Num
  | .nan, _ => .nan
  | _, .nan => .nan
  | .inf a, .inf b => if a == b then .inf a else .nan
  | .inf a, _ => .inf a
  | _, .inf b => .inf b
  | .fin n1 m1 e1, .fin n2 m2 e2 =>
    if m1 == 0 && m2 == 0 then .fin (n1 && n2) 0 0
    else
      let (a, b, e) := align m1 e1 m2 e2
      let t := signed n1 a + signed n2 b
      .fin (t < 0) t.natAbs e

def sub (a b : Num) : Num := add a (neg b)

/-- Exact product. -/
def mul : Num → Num → Num
  | .nan, _ => .nan
  | _, .nan => .nan
  | .inf a, .inf b => .inf (a != b)
  | .inf a, .fin n m _ => if m == 0 then .nan else .inf (a != n)
  | .fin n m _, .inf a => if m == 0 then .nan else .inf (a != n)
  | .fin n1 m1 e1, .fin n2 m2 e2 => .fin (n1 != n2) (m1 * m2) (e1 + e2)

/-- `x` × 2^`k`. -/
def scale (x : Num) (k : Int) : Num :=
  match x with
  | .fin n m e => .fin n m (e + k)
  | y => y

/-- Order of two values that are not NaN: x < y, −0 and +0 equal. -/
def lt : Num → Num → Bool
  | .nan, _ => false
  | _, .nan => false
  | .inf true, .inf true => false
  | .inf true, _ => true
  | _, .inf true => false
  | .inf false, _ => false
  | _, .inf false => true
  | .fin n1 m1 e1, .fin n2 m2 e2 =>
    let (a, b, _) := align m1 e1 m2 e2
    decide (signed n1 a < signed n2 b)

/-- Numerical equality: +0 equals −0; a NaN equals nothing. -/
def eqv (x y : Num) : Bool := !x.isNan && !y.isNan && !lt x y && !lt y x
def le (x y : Num) : Bool := lt x y || eqv x y

/-- floor(log2 |x|) of a non-zero finite value. -/
def log2 : Num → Int
  | .fin _ m e => (Nat.log2 m : Int) + e
  | _ => 0

/-- A quotient with a sticky bit: at least 40 significant bits, the last one set where the division is inexact, so that any
rounding of it to FP32 is that of the exact quotient. -/
def quotient : Num → Num → Num
  | .nan, _ => .nan
  | _, .nan => .nan
  | .inf _, .inf _ => .nan
  | .inf a, y => .inf (a != y.sign)
  | x, .inf b => .fin (x.sign != b) 0 0
  | .fin n1 m1 e1, .fin n2 m2 e2 =>
    if m2 == 0 then (if m1 == 0 then .nan else .inf (n1 != n2))
    else if m1 == 0 then .fin (n1 != n2) 0 0
    else
      let k := 40 + Nat.log2 m2
      let q := m1 * 2 ^ k / m2
      let r := m1 * 2 ^ k % m2
      .fin (n1 != n2) (2 * q + (if r == 0 then 0 else 1)) (e1 - e2 - (k : Int) - 1)

/-- Integer square root by bisection over `f` bits. -/
def isqrt (n : Nat) : Nat → Nat → Nat
  | 0, r => r
  | f + 1, r => if (r + 2 ^ f) * (r + 2 ^ f) ≤ n then isqrt n f (r + 2 ^ f) else isqrt n f r

/-- A square root with a sticky bit. Of −0 it is −0; of a negative value it is a NaN. -/
def sqrt : Num → Num
  | .nan => .nan
  | .inf true => .nan
  | .inf false => .inf false
  | .fin n m e =>
    if m == 0 then .fin n 0 0
    else if n then .nan
    else
      let (m, e) := if e % 2 == 0 then (m, e) else (2 * m, e - 1)
      let m := m * 2 ^ 80
      let r := isqrt m (Nat.log2 m / 2 + 1) 0
      .fin false (2 * r + (if r * r == m then 0 else 1)) (e / 2 - 40 - 1)

end Num

/-! ## Formats -/

/-- Format codes of 02 R24. -/
def fFP32 : Nat := 0
def fBF16 : Nat := 1
def fE4M3 : Nat := 2
def fE5M2 : Nat := 3
def fE2M3 : Nat := 4
def fE3M2 : Nat := 5
def fFP4 : Nat := 6
def fU16 : Nat := 8
def fU32 : Nat := 9
def fI32 : Nat := 10
def fU8 : Nat := 11

/-- A code of 02 R24 that is not reserved. -/
def fmtKnown (f : Nat) : Bool := decide (f ≤ 6) || decide (8 ≤ f ∧ f ≤ 11)

/-- Floating-point formats. -/
def fmtFloat (f : Nat) : Bool := decide (f ≤ 6)

/-- Formats with MX block scales. -/
def fmtNarrow (f : Nat) : Bool := decide (2 ≤ f ∧ f ≤ 6)

/-- Bits per element (02 R24). -/
def fmtBits (f : Nat) : Nat :=
  match f with
  | 0 => 32 | 1 => 16 | 2 => 8 | 3 => 8 | 4 => 6 | 5 => 6 | 6 => 4 | 8 => 16 | 9 => 32 | 10 => 32 | 11 => 8 | _ => 8

/-- Exponent width, mantissa width and bias of a floating-point format (02 R25). -/
def fmtShape (f : Nat) : Nat × Nat × Nat :=
  match f with
  | 0 => (8, 23, 127)
  | 1 => (8, 7, 127)
  | 2 => (4, 3, 7)
  | 3 => (5, 2, 15)
  | 4 => (2, 3, 1)
  | 5 => (3, 2, 3)
  | _ => (2, 1, 1)

/-- The format's largest unbiased exponent (02 R25). -/
def fmtEmax (f : Nat) : Nat :=
  match f with
  | 2 => 8 | 3 => 15 | 4 => 2 | 5 => 4 | 6 => 2 | _ => 127

/-- The format's largest finite value (02 R25). -/
def fmtMax (f : Nat) : Num :=
  match f with
  | 2 => .fin false 7 6        -- 448
  | 3 => .fin false 7 13       -- 57,344
  | 4 => .fin false 15 (-1)    -- 7.5
  | 5 => .fin false 7 2        -- 28
  | 6 => .fin false 3 1        -- 6
  | 1 => .fin false 255 120
  | _ => .fin false 16777215 104

/-- The value of an element's bits, without its block scale (02 R25). -/
def decodeFloat (f v : Nat) : Num :=
  let (ew, mw, bias) := fmtShape f
  let s := bit v (ew + mw)
  let ex := bits v mw ew
  let ma := bits v 0 mw
  let top := 2 ^ ew - 1
  if ex == top && (decide (f ≤ 1) || f == 3) then (if ma == 0 then .inf s else .nan)
  else if ex == top && f == 2 && ma == 7 then .nan
  else if ex == 0 then .fin s ma (1 - (bias : Int) - (mw : Int))
  else .fin s (2 ^ mw + ma) ((ex : Int) - (bias : Int) - (mw : Int))

/-- The value of an element of any format (02 R24). -/
def decodeElem (f v : Nat) : Num :=
  if fmtFloat f then decodeFloat f v
  else if f == fI32 then .ofInt (if v < 2 ^ 31 then (v : Int) else (v : Int) - 2 ^ 32)
  else .ofNat v

/-- The canonical NaN of a format (02 R27). -/
def canonNan (f : Nat) : Nat :=
  match f with
  | 0 => 0x7FC00000 | 1 => 0x7FC0 | 2 => 0x7F | 3 => 0x7F | _ => 0

/-- The bits of an exactly representable value of a format. -/
def encodeFloat (f : Nat) (x : Num) : Nat :=
  let (ew, mw, bias) := fmtShape f
  let sg (n : Bool) : Nat := if n then 2 ^ (ew + mw) else 0
  match x with
  | .nan => canonNan f
  | .inf n => if f == 2 then canonNan f else sg n + (2 ^ ew - 1) * 2 ^ mw
  | .fin n m e =>
    if m == 0 then sg n
    else
      let ex := max (Num.log2 (.fin n m e)) (1 - (bias : Int))
      let sh := e - (ex - (mw : Int))
      let ma := if sh < 0 then m / 2 ^ (-sh).toNat else m * 2 ^ sh.toNat
      if ma < 2 ^ mw then sg n + ma
      else sg n + (ex + (bias : Int)).toNat * 2 ^ mw + (ma - 2 ^ mw)

/-! ## Rounding -/

/-- Rounding modes (02 R31), stochastic with its 16-bit draw (R32). -/
inductive Round where
  | rne
  | zero
  | stochastic (r : Nat)
  deriving DecidableEq, Repr

/-- `m` × 2^−`k` rounded to an integer. -/
def roundShift (md : Round) (m k : Nat) : Nat :=
  let q := m / 2 ^ k
  let r := m % 2 ^ k
  if r == 0 then q
  else
    match md with
    | .rne => if 2 * r < 2 ^ k then q else if 2 * r > 2 ^ k then q + 1 else q + q % 2
    | .zero => q
    | .stochastic d => if r * 2 ^ 16 / 2 ^ k + d ≥ 2 ^ 16 then q + 1 else q

/-- `x` rounded to `mw` mantissa bits with smallest normal exponent `emin`, without an upper bound. -/
def roundTo (md : Round) (mw : Nat) (emin : Int) (x : Num) : Num :=
  match x with
  | .fin n m e =>
    if m == 0 then .fin n 0 0
    else
      let q := max (Num.log2 x) emin - (mw : Int)
      if q ≤ e then x else .fin n (roundShift md m (q - e).toNat) q
  | y => y

/-- A value rounded to FP32 (02 R31: RNE): beyond the largest finite value it is an infinity. -/
def round32 (x : Num) : Num :=
  match roundTo .rne 23 (-126) x with
  | .fin n m e => if Num.lt (fmtMax 0) (.fin false m e) then .inf n else .fin n m e
  | y => y

/-- FP32 arithmetic under RNE. -/
def fadd (x y : Num) : Num := round32 (x.add y)
def fsub (x y : Num) : Num := round32 (x.sub y)
def fmul (x y : Num) : Num := round32 (x.mul y)
def fdiv (x y : Num) : Num := round32 (x.quotient y)
def fsqrt (x : Num) : Num := round32 x.sqrt

/-- FP32 to BF16 (02 R33): judged on the rounded result. Stochastic rounding between the largest finite value a and
b = 2^128 has the quantum 2^120 = b − a, so the general rounding already decides between them. -/
def toBf16 (md : Round) (x : Num) : Num :=
  match roundTo md 7 (-126) x with
  | .fin n m e =>
    if Num.lt (fmtMax 1) (.fin false m e) then (if md == .zero then .fin n 255 120 else .inf n) else .fin n m e
  | y => y

/-- A finite value scaled into a narrow format: the element value and whether it saturated (02 R33: judged on the exact
scaled value). NaN and infinities follow the table of R33; for FP4 and FP6 their whole block is handled by the caller. -/
def toNarrow (f : Nat) (md : Round) (x : Num) : Num × Bool :=
  match x with
  | .nan => (.nan, false)
  | .inf n => (if f == 3 then .inf n else .nan, false)
  | .fin n m e =>
    if Num.lt (fmtMax f) (.fin false m e) then ((if n then (fmtMax f).neg else fmtMax f), true)
    else
      let (_, mw, bias) := fmtShape f
      (roundTo md mw (1 - (bias : Int)) x, false)

/-! ## MX block scales (02 R28 to R30) -/

/-- The largest finite magnitude of a block; zero where it has none. -/
def amaxOf (l : List Num) : Num :=
  l.foldl (fun a x => match x with
    | .fin _ m e => if Num.lt a (.fin false m e) then .fin false m e else a
    | _ => a) Num.zero

/-- The scale exponent k of a block for an element format (02 R30), before the clamp. -/
def scaleExp (floorRule : Bool) (f : Nat) (amax : Num) : Int :=
  if floorRule then amax.log2 - (fmtEmax f : Int)
  else
    -- the smallest k with amax ÷ 2^k ≤ maxnorm
    let k := amax.log2 - (fmtEmax f : Int)
    if Num.le (amax.scale (-k)) (fmtMax f) then k else k + 1

/-- k clamped to −127 … 127 (02 R30), zero for a block with no non-zero finite value. -/
def blockExp (floorRule : Bool) (f : Nat) (l : List Num) : Int :=
  let a := amaxOf l
  if a.isZero then 0 else max (-127) (min 127 (scaleExp floorRule f a))

/-- A block of FP4 or FP6 with a NaN or infinity gets the scale byte 0xFF and all its elements +0 (02 R33). -/
def blockPoisoned (f : Nat) (l : List Num) : Bool := decide (4 ≤ f) && l.any (fun x => !x.isFin)

/-- The value of a scale byte: none is NaN (02 R28). -/
def scaleVal (b : Nat) : Option Int := if b == 0xFF then none else some ((b : Int) - 127)

/-- An element times its block's scale (02 R28). -/
def scaled (x : Num) (b : Nat) : Num :=
  match scaleVal b with
  | none => .nan
  | some k => x.scale k

/-- FP32 bits of a value already in FP32. -/
def bits32 (x : Num) : Nat := encodeFloat 0 x

end Sys2Proof.Machine
end

