-- ==== Sys2Proof/Machine/DictTable.lean ====
section
/-! DEFINITION. DictTable: the object dictionary's entries as the chapters of spec/ give them. -/

namespace Sys2Proof.Machine
open Sys2Proof

/-- Access of an entry (00 R6). -/
inductive Acc where
  | ro | rw | wo
  deriving DecidableEq, Repr

/-- Type class of an entry (17 R437): unsigned number, INT16, OCTET_STRING, VISIBLE_STRING. -/
inductive Ty where
  | num | int | oct | vis
  deriving DecidableEq, Repr

/-- Who applies a write: a plain value, a trigger with a command row of its own, or a pair member (17 R450). -/
inductive Own where
  | plain | trigger | member
  deriving DecidableEq, Repr

/-- One entry: index and subindex, width in bytes, type, access, default, persistence, range, kind of write, name. -/
structure Entry where
  idx : Nat
  sub : Nat
  width : Nat
  ty : Ty
  acc : Acc
  dflt : Nat
  keep : Bool
  lo : Nat
  hi : Nat
  own : Own
  name : String
  deriving DecidableEq, Repr

/-- Telemetry entries of one index: UINT64, RO, from subindex `n`. -/
def teleRows (idx : Nat) (keep : Bool) : Nat → List String → List Entry
  | _, [] => []
  | n, name :: l => ⟨idx, n, 8, .num, .ro, 0, keep, 0, 0xFFFFFFFFFFFFFFFF, .plain, name⟩ :: teleRows idx keep (n + 1) l


/-- No upper bound: the entry is a byte string. -/
def wide : Nat := 2 ^ 4096

/-- Entries of 0x1000 to 0x1FFF. -/
def dictComm : List Entry :=
  [⟨0x1000, 0, 4, .num, .ro, 0, false, 0, 0xffffffff, .plain, "DeviceType"⟩] ++
  [⟨0x1008, 0, 11, .vis, .ro, 0, false, 0, wide, .plain, "DeviceName"⟩] ++
  [⟨0x1009, 0, 2, .vis, .ro, 0, false, 0, wide, .plain, "HardwareVersion"⟩] ++
  [⟨0x100A, 0, 16, .vis, .ro, 0, false, 0, wide, .plain, "SoftwareVersion"⟩] ++
  [⟨0x1010, 1, 4, .num, .rw, 0, false, 0, 0xffffffff, .trigger, "StoreAll"⟩] ++
  [⟨0x1011, 1, 4, .num, .rw, 0, false, 0, 0xffffffff, .trigger, "RestoreDefaults"⟩] ++
  [⟨0x1018, 1, 4, .num, .ro, 0, false, 0, 0xffffffff, .plain, "VendorId"⟩,
    ⟨0x1018, 2, 4, .num, .ro, 0, false, 0, 0xffffffff, .plain, "ProductCode"⟩,
    ⟨0x1018, 3, 4, .num, .ro, 0, false, 0, 0xffffffff, .plain, "RevisionNumber"⟩,
    ⟨0x1018, 4, 4, .num, .ro, 0, false, 0, 0xffffffff, .plain, "SerialNumber"⟩]

/-- Entries of 0x2000 to 0x2FFF. -/
def dictConfig : List Entry :=
  [⟨0x2010, 1, 8, .num, .rw, 0, false, 0, 0xffffffffffffffff, .plain, "TimeOfDay"⟩] ++
  [⟨0x2011, 1, 2, .num, .rw, 0, true, 0, 0xffff, .plain, "StationAlias"⟩] ++
  [⟨0x2300, 1, 1, .num, .rw, 1, true, 0, 255, .member, "PartitionLayout"⟩,
    ⟨0x2300, 2, 1, .num, .rw, 2, true, 0, 3, .member, "Role0"⟩,
    ⟨0x2300, 3, 1, .num, .rw, 0, true, 0, 3, .member, "Role1"⟩,
    ⟨0x2300, 4, 1, .num, .rw, 0, true, 0, 3, .member, "Role2"⟩,
    ⟨0x2300, 5, 1, .num, .rw, 0, true, 0, 3, .member, "Role3"⟩,
    ⟨0x2300, 6, 1, .num, .wo, 0, false, 1, 1, .trigger, "LayoutCommit"⟩] ++
  [⟨0x2301, 1, 1, .num, .ro, 0, false, 0, 255, .plain, "LayoutInForce"⟩,
    ⟨0x2301, 2, 1, .num, .ro, 0, false, 0, 255, .plain, "RoleInForce0"⟩,
    ⟨0x2301, 3, 1, .num, .ro, 0, false, 0, 255, .plain, "RoleInForce1"⟩,
    ⟨0x2301, 4, 1, .num, .ro, 0, false, 0, 255, .plain, "RoleInForce2"⟩,
    ⟨0x2301, 5, 1, .num, .ro, 0, false, 0, 255, .plain, "RoleInForce3"⟩] ++
  [⟨0x2310, 1, 4, .num, .rw, 1221, true, 1, 0xffffffff, .plain, "RemoteAckLimit"⟩] ++
  [⟨0x2320, 1, 4, .num, .rw, 0x10000, true, 1, 0xffffffff, .plain, "ChainHopLimit"⟩] ++
  [⟨0x2330, 1, 4, .num, .rw, 305, true, 1, 0xffffffff, .plain, "HistoryDeadline"⟩,
    ⟨0x2330, 2, 1, .num, .rw, 1, true, 1, 3, .plain, "LateHistoryPath"⟩] ++
  [⟨0x2340, 1, 1, .num, .rw, 0, true, 0, 1, .plain, "InterleaveMode"⟩,
    ⟨0x2340, 2, 4, .num, .rw, 0x1000, true, 1, 0xffffffff, .plain, "WcbAgeLimit"⟩,
    ⟨0x2340, 3, 4, .num, .rw, 0x20be, true, 0, 0xffffffff, .plain, "RetrainInterval"⟩,
    ⟨0x2340, 4, 1, .num, .rw, 8, true, 1, 255, .plain, "RetrainTempStep"⟩,
    ⟨0x2340, 5, 4, .num, .rw, 256, true, 1, 0xffffffff, .plain, "RetrainCrcLimit"⟩,
    ⟨0x2340, 6, 1, .num, .wo, 0, false, 0, 23, .trigger, "RetrainRequest"⟩,
    ⟨0x2340, 7, 8, .num, .ro, 0, false, 0, 0xffffffffffffffff, .plain, "WindowBytes"⟩,
    ⟨0x2340, 8, 8, .num, .ro, 0, false, 0, 0xffffffffffffffff, .plain, "ReserveBase"⟩] ++
  [⟨0x2341, 1, 2, .num, .rw, 0xffff, true, 0, 0xffff, .plain, "CachePeer1"⟩,
    ⟨0x2341, 2, 2, .num, .rw, 0xffff, true, 0, 0xffff, .plain, "CachePeer2"⟩,
    ⟨0x2341, 3, 2, .num, .rw, 0xffff, true, 0, 0xffff, .plain, "CachePeer3"⟩,
    ⟨0x2341, 4, 2, .num, .rw, 0xffff, true, 0, 0xffff, .plain, "CachePeer4"⟩,
    ⟨0x2341, 5, 2, .num, .rw, 0xffff, true, 0, 0xffff, .plain, "CachePeer5"⟩,
    ⟨0x2341, 6, 2, .num, .rw, 0xffff, true, 0, 0xffff, .plain, "CachePeer6"⟩,
    ⟨0x2341, 7, 2, .num, .rw, 0xffff, true, 0, 0xffff, .plain, "CachePeer7"⟩,
    ⟨0x2341, 8, 2, .num, .rw, 0xffff, true, 0, 0xffff, .plain, "CachePeer8"⟩] ++
  [⟨0x2350, 1, 4, .num, .rw, 0x10000, true, 1, 0xffffffff, .plain, "PreemptWait"⟩,
    ⟨0x2350, 2, 1, .num, .rw, 2, true, 1, 8, .plain, "SaveSlots"⟩,
    ⟨0x2350, 3, 4, .num, .rw, 0x100000, true, 0, 0x100000, .plain, "DefaultJobQuota"⟩,
    ⟨0x2350, 4, 4, .num, .wo, 0, false, 0, 0xffffffff, .trigger, "SuspendContext"⟩,
    ⟨0x2350, 5, 4, .num, .wo, 0, false, 0, 0xffffffff, .trigger, "ResumeContext"⟩,
    ⟨0x2350, 6, 1, .num, .wo, 0, false, 0, 3, .trigger, "SuspendPartition"⟩,
    ⟨0x2350, 7, 8, .num, .ro, 0, false, 0, 0xffffffffffffffff, .plain, "ContextTableBase"⟩] ++
  [⟨0x2351, 1, 2, .num, .rw, 0, true, 0, 0xffff, .member, "QuotaClient"⟩,
    ⟨0x2351, 2, 4, .num, .rw, 0xffffffff, true, 0, 0xffffffff, .member, "QuotaJobs"⟩,
    ⟨0x2351, 3, 1, .num, .wo, 0, false, 1, 1, .trigger, "QuotaCommit"⟩] ++
  [⟨0x2360, 1, 2, .num, .rw, 0xffff, true, 0, 0xffff, .member, "NodeId"⟩,
    ⟨0x2360, 2, 2, .num, .rw, 0, true, 0, 0xffff, .member, "TorusDims"⟩,
    ⟨0x2360, 3, 1, .num, .wo, 0, false, 1, 1, .trigger, "NodeCommit"⟩,
    ⟨0x2360, 4, 2, .num, .ro, 0, false, 0, 0xffff, .plain, "NodeInForce"⟩,
    ⟨0x2360, 5, 4, .num, .rw, 0x1388, true, 1, 0xffffffff, .plain, "ReplayTimeout"⟩,
    ⟨0x2360, 6, 4, .num, .rw, 611, true, 1, 0xffffffff, .plain, "PortDownLimit"⟩,
    ⟨0x2360, 7, 1, .num, .wo, 0, false, 1, 1, .trigger, "RouterReset"⟩] ++
  [⟨0x2361, 1, 2, .num, .rw, 0, false, 0, 0xffff, .member, "RouteNode"⟩,
    ⟨0x2361, 2, 2, .num, .rw, 0, false, 0, 0xffff, .member, "RouteMask"⟩,
    ⟨0x2361, 3, 1, .num, .wo, 0, false, 1, 1, .trigger, "RouteCommit"⟩,
    ⟨0x2361, 4, 1, .num, .wo, 0, false, 1, 1, .trigger, "RouteDefaults"⟩] ++
  [⟨0x2362, 1, 4, .num, .rw, 0x20be, true, 0, 0xffffffff, .plain, "LaneRetrainInterval"⟩,
    ⟨0x2362, 2, 4, .num, .rw, 0xf4240, true, 1, 0xffffffff, .plain, "LaneSerLimit"⟩,
    ⟨0x2362, 3, 1, .num, .wo, 0, false, 0, 255, .trigger, "LaneRetrainRequest"⟩,
    ⟨0x2362, 4, 2, .num, .rw, 4095, true, 0, 0xffff, .trigger, "PortEnable"⟩] ++
  [⟨0x2370, 1, 4, .num, .rw, 0x17d8, true, 1, 0xffffffff, .plain, "CollProgressLimit"⟩] ++
  [⟨0x2371, 1, 64, .oct, .rw, 0, false, 0, wide, .plain, "CtrlPayload"⟩,
    ⟨0x2371, 2, 2, .num, .rw, 0, false, 0, 0xffff, .plain, "CtrlGroup"⟩,
    ⟨0x2371, 3, 1, .num, .wo, 0, false, 0, 255, .trigger, "CtrlStart"⟩] ++
  [⟨0x2380, 1, 4, .num, .rw, 0x17d8, true, 1, 0xffffffff, .plain, "SampleBudget"⟩] ++
  [⟨0x2390, 1, 4, .num, .rw, 0x7736, true, 1, 0xffffffff, .plain, "FrameBudget"⟩] ++
  [⟨0x23A0, 1, 2, .num, .rw, 0xa10e, true, 1, 0xffff, .plain, "UdpPort"⟩,
    ⟨0x23A0, 2, 2, .num, .rw, 64, true, 1, 1024, .plain, "ReceiveWindow"⟩,
    ⟨0x23A0, 3, 4, .num, .rw, 611, true, 1, 0xffffffff, .plain, "RetransmitTimeout"⟩,
    ⟨0x23A0, 4, 1, .num, .rw, 8, true, 1, 255, .plain, "RetryLimit"⟩,
    ⟨0x23A0, 5, 4, .num, .rw, 0x5d21dc, true, 0, 0xffffffff, .plain, "HaltLimit"⟩,
    ⟨0x23A0, 6, 4, .num, .rw, 0x22ecb26, true, 1, 0xffffffff, .plain, "ResultHoldLimit"⟩] ++
  [⟨0x23A1, 1, 4, .num, .rw, 0, true, 0, 0xffffffff, .plain, "Ipv4Address0"⟩,
    ⟨0x23A1, 2, 4, .num, .rw, 0, true, 0, 0xffffffff, .plain, "Ipv4Address1"⟩,
    ⟨0x23A1, 3, 2, .num, .rw, 0, true, 0, 4094, .plain, "VlanId"⟩,
    ⟨0x23A1, 4, 6, .oct, .ro, 0, false, 0, wide, .plain, "MacAddress0"⟩,
    ⟨0x23A1, 5, 6, .oct, .ro, 0, false, 0, wide, .plain, "MacAddress1"⟩] ++
  [⟨0x23A2, 1, 16, .oct, .rw, 0, true, 0, wide, .plain, "Ipv6Address0"⟩,
    ⟨0x23A2, 2, 16, .oct, .rw, 0, true, 0, wide, .plain, "Ipv6Address1"⟩]

/-- Entries of 0x3000 to 0x3FFF. -/
def dictTelemetry : List Entry :=
  [⟨0x3000, 1, 2, .int, .ro, 0, false, 0, 0xffff, .plain, "DieTempMax"⟩,
    ⟨0x3000, 2, 2, .num, .ro, 0, false, 0, 0xffff, .plain, "InputVoltage"⟩,
    ⟨0x3000, 3, 2, .num, .ro, 0, false, 0, 0xffff, .plain, "InputPower"⟩] ++
  [⟨0x3001, 1, 2, .num, .ro, 0, false, 0, 0xffff, .plain, "StatusWord"⟩,
    ⟨0x3001, 2, 4, .num, .ro, 0, false, 0, 0xffffffff, .plain, "JobsTotal"⟩,
    ⟨0x3001, 3, 8, .num, .ro, 0, false, 0, 0xffffffffffffffff, .plain, "FirmwareVersion"⟩] ++
  teleRows 0x3140 false 1 ["PanesRun", "WidenedToFp6", "WidenedToFp8", "WidenedToBf16", "TopRungTrouble", "SaturatedElements", "CarryDiscards", "ShadowPanes", "ShadowDiffPanes"] ++
  teleRows 0x3150 false 1 ["Completed", "Rejected", "Failed", "DoorbellsIgnored", "WaitTimeouts", "HazardStalls"] ++
  teleRows 0x3160 false 1 ["TasksDealt", "TasksRedealt", "SheetLoads", "ChainLeaves", "ChainFallbackBytes", "SplitKTrees"] ++
  teleRows 0x3170 false 1 ["GroupsSkipped", "StillRowsMarked", "StillRowsSkipped", "ExpanderWaitCycles", "ZrBlocksDecoded", "ZrRawBlocks", "RouteKept", "RouteDropped"] ++
  teleRows 0x3180 false 1 ["HistoryBlocksPrimary", "HistoryBlocksRecomputed", "HistoryBlocksDropped", "HistoryFailures", "LateReplies", "KvapRows", "AttnPanes", "EmptyRows"] ++
  teleRows 0x3190 false 1 ["SfnElements", "NormSets", "SmaxLines", "NonFiniteSets", "FlatSets", "CompatInstructions"] ++
  teleRows 0x31A0 false 1 ["ConvPanes", "ZrLinesWritten", "ZrLinesPlain", "PadGroups", "PoolEmptyWindows", "ArgmxLines"] ++
  teleRows 0x31B0 false 1 ["RandElements", "SampLines", "StochasticDraws", "Reseeds", "ReseedsDeferred", "GeneratorWaitCycles"] ++
  teleRows 0x31C0 false 1 ["ReadBytes", "WriteBytes", "CorrectedErrors", "UncorrectableErrors", "PoisonWrites", "CrcRetries", "WcbMerges", "WcbReadModifyWrites", "Retrainings", "RetrainFailures", "DetourBytes", "HeldReadMax", "CopyEvictions", "LostDirtyGranules", "WriteBackFailures", "UnmappedAccesses", "BulkEngines"] ++
  teleRows 0x31C1 false 1 ["CorrectedCh0", "CorrectedCh1", "CorrectedCh2", "CorrectedCh3", "CorrectedCh4", "CorrectedCh5", "CorrectedCh6", "CorrectedCh7", "CorrectedCh8", "CorrectedCh9", "CorrectedCh10", "CorrectedCh11", "CorrectedCh12", "CorrectedCh13", "CorrectedCh14", "CorrectedCh15", "CorrectedCh16", "CorrectedCh17", "CorrectedCh18", "CorrectedCh19", "CorrectedCh20", "CorrectedCh21", "CorrectedCh22", "CorrectedCh23"] ++
  teleRows 0x31D0 false 1 ["JobsAccepted", "JobsRefusedQuota", "Suspensions", "Restores", "SavedBytes", "TasksTaken", "DescriptorFetches", "ContextsLive", "ContextsSuspended", "SequencesWaiting"] ++
  teleRows 0x31E0 false 1 ["SamplesTaken", "SlotsValid", "SlotsVoid", "BudgetVoids", "TokensWritten", "PixelsWritten", "DictInstalls", "SampleRestarts"] ++
  [⟨0x31E1, 1, 4, .num, .ro, 0, false, 0, 0xffffffff, .plain, "DictSlotTag0"⟩,
    ⟨0x31E1, 2, 4, .num, .ro, 0, false, 0, 0xffffffff, .plain, "DictSlotTag1"⟩,
    ⟨0x31E1, 3, 4, .num, .ro, 0, false, 0, 0xffffffff, .plain, "DictSlotTag2"⟩,
    ⟨0x31E1, 4, 4, .num, .ro, 0, false, 0, 0xffffffff, .plain, "DictSlotTag3"⟩] ++
  teleRows 0x31F0 false 1 ["FramesEncoded", "FramesDecoded", "FramesConcealed", "FramesTainted", "BudgetStops", "BitBytesOut", "BitBytesIn", "StreamSwitches", "FrameRestarts"] ++
  teleRows 0x31F1 false 1 ["StreamsOpen", "SlotsInUse"] ++
  [⟨0x3200, 1, 2, .num, .rw, 0, false, 0, 0xffff, .plain, "ClientSelect"⟩,
    ⟨0x3200, 2, 4, .num, .ro, 0, false, 0, 0xffffffff, .plain, "JobsInFlight"⟩,
    ⟨0x3200, 3, 8, .num, .ro, 0, true, 0, 0xffffffffffffffff, .plain, "LifetimeJobs"⟩,
    ⟨0x3200, 4, 4, .num, .ro, 0, false, 0, 0xffffffff, .plain, "EffectiveQuota"⟩] ++
  teleRows 0x3210 false 1 ["FlitsSent", "FlitsReplayed", "CrcDiscards", "FecUncorrectable", "FlitsDiscarded", "LaneRemovals", "LaneRetrainings", "LaneRetrainFailures", "BringUps", "RefusesSent"] ++
  [⟨0x3220, 1, 2, .num, .ro, 0, false, 0, 0xffff, .plain, "PortState0"⟩,
    ⟨0x3220, 2, 2, .num, .ro, 0, false, 0, 0xffff, .plain, "PortState1"⟩,
    ⟨0x3220, 3, 2, .num, .ro, 0, false, 0, 0xffff, .plain, "PortState2"⟩,
    ⟨0x3220, 4, 2, .num, .ro, 0, false, 0, 0xffff, .plain, "PortState3"⟩,
    ⟨0x3220, 5, 2, .num, .ro, 0, false, 0, 0xffff, .plain, "PortState4"⟩,
    ⟨0x3220, 6, 2, .num, .ro, 0, false, 0, 0xffff, .plain, "PortState5"⟩,
    ⟨0x3220, 7, 2, .num, .ro, 0, false, 0, 0xffff, .plain, "PortState6"⟩,
    ⟨0x3220, 8, 2, .num, .ro, 0, false, 0, 0xffff, .plain, "PortState7"⟩,
    ⟨0x3220, 9, 2, .num, .ro, 0, false, 0, 0xffff, .plain, "PortState8"⟩,
    ⟨0x3220, 10, 2, .num, .ro, 0, false, 0, 0xffff, .plain, "PortState9"⟩,
    ⟨0x3220, 11, 2, .num, .ro, 0, false, 0, 0xffff, .plain, "PortState10"⟩,
    ⟨0x3220, 12, 2, .num, .ro, 0, false, 0, 0xffff, .plain, "PortState11"⟩] ++
  [⟨0x3221, 1, 2, .num, .ro, 0, false, 0, 0xffff, .plain, "NeighbourNode0"⟩,
    ⟨0x3221, 2, 2, .num, .ro, 0, false, 0, 0xffff, .plain, "NeighbourNode1"⟩,
    ⟨0x3221, 3, 2, .num, .ro, 0, false, 0, 0xffff, .plain, "NeighbourNode2"⟩,
    ⟨0x3221, 4, 2, .num, .ro, 0, false, 0, 0xffff, .plain, "NeighbourNode3"⟩,
    ⟨0x3221, 5, 2, .num, .ro, 0, false, 0, 0xffff, .plain, "NeighbourNode4"⟩,
    ⟨0x3221, 6, 2, .num, .ro, 0, false, 0, 0xffff, .plain, "NeighbourNode5"⟩,
    ⟨0x3221, 7, 2, .num, .ro, 0, false, 0, 0xffff, .plain, "NeighbourNode6"⟩,
    ⟨0x3221, 8, 2, .num, .ro, 0, false, 0, 0xffff, .plain, "NeighbourNode7"⟩,
    ⟨0x3221, 9, 2, .num, .ro, 0, false, 0, 0xffff, .plain, "NeighbourNode8"⟩,
    ⟨0x3221, 10, 2, .num, .ro, 0, false, 0, 0xffff, .plain, "NeighbourNode9"⟩,
    ⟨0x3221, 11, 2, .num, .ro, 0, false, 0, 0xffff, .plain, "NeighbourNode10"⟩,
    ⟨0x3221, 12, 2, .num, .ro, 0, false, 0, 0xffff, .plain, "NeighbourNode11"⟩] ++
  teleRows 0x3230 false 1 ["CollCompleted", "WireBytes", "ChunkRepeats", "FlushedValues", "PostcardsRelayed", "StalePostmarkDrops", "CtrlCompleted", "CtrlUndelivered"] ++
  [⟨0x3231, 1, 1, .num, .ro, 0, false, 0, 255, .plain, "CtrlState"⟩,
    ⟨0x3231, 2, 64, .oct, .ro, 0, false, 0, wide, .plain, "CtrlResult"⟩,
    ⟨0x3231, 3, 2, .num, .ro, 0, false, 0, 0xffff, .plain, "CtrlSource"⟩] ++
  teleRows 0x3240 false 1 ["MessagesIn", "MessagesOut", "Resent", "Dropped", "SessionsLost", "ResultsDropped", "SessionsOpen"] ++
  teleRows 0x3250 false 1 ["SdoServed", "SdoAborts", "EmergenciesSent", "EmergenciesLost", "FoeBytes", "WatchdogExpiries"]

/-- Entries of 0x4000 to 0x4FFF. -/
def dictFault : List Entry :=
  [⟨0x4000, 1, 8, .num, .ro, 0, false, 0, 0xffffffffffffffff, .plain, "FaultSummary"⟩,
    ⟨0x4000, 2, 8, .num, .rw, 0xffffffffffffffff, true, 0, 0xffffffffffffffff, .plain, "AlertMask"⟩,
    ⟨0x4000, 3, 8, .num, .wo, 0, false, 0, 0xffffffffffffffff, .trigger, "FaultClear"⟩] ++
  [⟨0x4001, 1, 4, .num, .ro, 0, false, 0, 0xffffffff, .plain, "LastAbortEntry"⟩,
    ⟨0x4001, 2, 4, .num, .ro, 0, false, 0, 0xffffffff, .plain, "LastAbortCode"⟩,
    ⟨0x4001, 3, 2, .num, .ro, 0, false, 0, 0xffff, .plain, "LastAbortDetail"⟩] ++
  [⟨0x4002, 1, 4, .num, .ro, 0, false, 0, 0xffffffff, .plain, "LogNewest"⟩,
    ⟨0x4002, 2, 4, .num, .rw, 0, false, 0, 0xffffffff, .plain, "LogSelect"⟩,
    ⟨0x4002, 3, 64, .oct, .ro, 0, false, 0, wide, .plain, "LogEntry"⟩] ++
  teleRows 0x4003 true 1 ["ContextAborts", "EngineResets", "PartitionResets", "ChipResets", "StaleReplies", "CulletsCollected", "UnreadableUnits", "PowerCycleRequests"] ++
  [⟨0x4010, 1, 2, .num, .rw, 0, false, 0, 0xffff, .member, "FenceUnit"⟩,
    ⟨0x4010, 2, 1, .num, .rw, 0, false, 0, 255, .member, "FenceAction"⟩,
    ⟨0x4010, 3, 1, .num, .wo, 0, false, 1, 1, .trigger, "FenceCommit"⟩] ++
  [⟨0x4011, 1, 2, .num, .ro, 0, false, 0, 0xffff, .plain, "FenceCount"⟩,
    ⟨0x4011, 2, 2, .num, .rw, 0, false, 0, 0xffff, .plain, "FenceIndex"⟩,
    ⟨0x4011, 3, 32, .oct, .ro, 0, false, 0, wide, .plain, "FenceRecord"⟩] ++
  [⟨0x4020, 1, 4, .num, .rw, 1221, true, 1, 0xffffffff, .plain, "CellWatchdog"⟩,
    ⟨0x4020, 2, 4, .num, .rw, 611, true, 1, 0xffffffff, .plain, "EngineWatchdog"⟩,
    ⟨0x4020, 3, 4, .num, .rw, 611, true, 1, 0xffffffff, .plain, "PartitionWatchdog"⟩,
    ⟨0x4020, 4, 4, .num, .rw, 0x17d8, true, 1, 0xffffffff, .plain, "CoreWatchdog"⟩] ++
  [⟨0x4030, 1, 2, .num, .rw, 0x1000, true, 1, 0xffff, .plain, "ScanTimeout"⟩] ++
  [⟨0x4040, 1, 1, .num, .wo, 0, false, 0, 255, .trigger, "ResetRequest"⟩,
    ⟨0x4040, 2, 2, .num, .ro, 0, false, 0, 0xffff, .plain, "LastResetCause"⟩]

/-- Entries of 0x5000 to 0x5FFF. -/
def dictSecurity : List Entry :=
  [⟨0x5000, 1, 1, .num, .ro, 0, false, 0, 255, .plain, "Lifecycle"⟩,
    ⟨0x5000, 2, 1, .num, .ro, 0, false, 0, 255, .plain, "RevokedSlots"⟩,
    ⟨0x5000, 3, 1, .num, .ro, 0, false, 0, 255, .plain, "SecurityVersion"⟩,
    ⟨0x5000, 4, 64, .oct, .ro, 0, false, 0, wide, .plain, "KeyHash0"⟩,
    ⟨0x5000, 5, 64, .oct, .ro, 0, false, 0, wide, .plain, "KeyHash1"⟩,
    ⟨0x5000, 6, 64, .oct, .ro, 0, false, 0, wide, .plain, "KeyHash2"⟩,
    ⟨0x5000, 7, 64, .oct, .ro, 0, false, 0, wide, .plain, "KeyHash3"⟩,
    ⟨0x5000, 8, 1, .num, .wo, 0, false, 1, 1, .trigger, "RaiseSecurityVersion"⟩,
    ⟨0x5000, 9, 1, .num, .ro, 0, false, 0, 255, .plain, "ImageKeySlot"⟩] ++
  [⟨0x5001, 1, 133, .oct, .ro, 0, false, 0, wide, .plain, "IdentityPublicKey"⟩,
    ⟨0x5001, 2, 2, .num, .ro, 0, true, 0, 0xffff, .plain, "IdentityGeneration"⟩,
    ⟨0x5001, 3, 1, .num, .wo, 0, false, 1, 1, .trigger, "RotateIdentity"⟩,
    ⟨0x5001, 4, 2, .num, .rw, 0, false, 0, 0xffff, .plain, "RotationIndex"⟩,
    ⟨0x5001, 5, 272, .oct, .ro, 0, false, 0, wide, .plain, "RotationRecord"⟩,
    ⟨0x5001, 6, 1, .num, .wo, 0, false, 1, 2, .trigger, "Provision"⟩] ++
  [⟨0x5002, 1, 32, .oct, .wo, 0, false, 0, wide, .trigger, "AttestNonce"⟩,
    ⟨0x5002, 2, 1, .num, .ro, 0, false, 0, 255, .plain, "AttestState"⟩,
    ⟨0x5002, 3, 320, .oct, .ro, 0, false, 0, wide, .plain, "AttestReport"⟩] ++
  [⟨0x5020, 1, 32, .oct, .ro, 0, false, 0, wide, .plain, "Challenge"⟩,
    ⟨0x5020, 2, 384, .oct, .wo, 0, false, 0, wide, .trigger, "Token"⟩,
    ⟨0x5020, 3, 1, .num, .ro, 0, false, 0, 255, .plain, "TokenState"⟩,
    ⟨0x5020, 4, 2, .num, .ro, 0, false, 0, 0xffff, .plain, "TokenResult"⟩] ++
  [⟨0x5030, 1, 1, .num, .ro, 0, false, 0, 255, .plain, "DebugLevel"⟩,
    ⟨0x5030, 2, 1, .num, .wo, 0, false, 1, 1, .trigger, "Relock"⟩] ++
  [⟨0x5031, 1, 8, .num, .rw, 0, false, 0, 0xffffffffffffffff, .plain, "DebugAddress"⟩,
    ⟨0x5031, 2, 64, .oct, .rw, 0, false, 0, wide, .trigger, "DebugData"⟩] ++
  [⟨0x5040, 1, 1, .num, .rw, 0, true, 0, 255, .member, "PowerTarget"⟩,
    ⟨0x5040, 2, 1, .num, .rw, 0, true, 0, 255, .member, "TrimRegions"⟩,
    ⟨0x5040, 3, 1, .num, .wo, 0, false, 1, 1, .trigger, "PowerCommit"⟩,
    ⟨0x5040, 4, 1, .num, .ro, 0, false, 0, 255, .plain, "PowerInForce"⟩,
    ⟨0x5040, 5, 1, .num, .ro, 0, false, 0, 255, .plain, "TrimInForce"⟩] ++
  teleRows 0x5050 false 1 ["TokensAccepted", "TokensRefused", "Reports", "Rotations", "HoldEntries"] ++
  [⟨0x5100, 1, 1, .num, .wo, 0, false, 1, 1, .trigger, "ActivateFirmware"⟩,
    ⟨0x5100, 2, 8, .num, .ro, 0, false, 0, 0xffffffffffffffff, .plain, "PendingVersion"⟩,
    ⟨0x5100, 3, 8, .num, .ro, 0, false, 0, 0xffffffffffffffff, .plain, "ImageVersion"⟩] ++
  [⟨0x5110, 1, 4, .num, .ro, 0, false, 0, 0xffffffff, .plain, "RatedCycles"⟩,
    ⟨0x5110, 2, 4, .num, .ro, 0, true, 0, 0xffffffff, .plain, "EraseCountMax"⟩,
    ⟨0x5110, 3, 4, .num, .ro, 0, true, 0, 0xffffffff, .plain, "EraseCountMean"⟩,
    ⟨0x5110, 4, 2, .num, .ro, 0, true, 0, 0xffff, .plain, "FactoryBadBlocks"⟩,
    ⟨0x5110, 5, 2, .num, .ro, 0, true, 0, 0xffff, .plain, "GrownBadBlocks"⟩,
    ⟨0x5110, 6, 2, .num, .ro, 0, false, 0, 0xffff, .plain, "FreeBlocks"⟩,
    ⟨0x5110, 7, 8, .num, .ro, 0, true, 0, 0xffffffffffffffff, .plain, "NandBytesWritten"⟩,
    ⟨0x5110, 8, 2, .num, .ro, 0, false, 0, 0xffff, .plain, "LifeUsed"⟩,
    ⟨0x5110, 9, 1, .num, .ro, 0, false, 0, 255, .plain, "StoreState"⟩,
    ⟨0x5110, 10, 8, .num, .ro, 0, false, 0, 0xffffffffffffffff, .plain, "CommitSeq"⟩] ++
  teleRows 0x5111 false 1 ["Commits", "ForcedCommits", "PowerLossSequences", "CommitsDiscarded", "CorrectedPages", "ReadRetries", "Relocations", "ObjectsNotStored", "LostCommits", "LogEntriesNotStored"]

/-- The whole dictionary, in index and subindex order. -/
def dictTable : List Entry := dictComm ++ dictConfig ++ dictTelemetry ++ dictFault ++ dictSecurity

/-- The entry at an index and subindex. -/
def findEntry (idx sub : Nat) : Option Entry := dictTable.find? (fun e => e.idx == idx && e.sub == sub)

/-- The number of an entry in the state's numbered registers. -/
def dkey (idx sub : Nat) : Nat := idx * 256 + sub

/-- The default of an entry, zero where there is none. -/
def dictDefault (key : Nat) : Nat :=
  match findEntry (key / 256) (key % 256) with
  | some e => e.dflt
  | none => 0

end Sys2Proof.Machine
end

