-- ==== Sys2Proof/Machine/State.lean ====
section
/-! DEFINITION. State: everything the spec gives the module, as plain data, and the machine right after reset. -/

namespace Sys2Proof.Machine
open Sys2Proof

/-- Why the machine stops with a fault. -/
inductive Fault where
  /-- Raised by nothing: the spec reports every failure as a status code and the module goes on (00 R8-R11). Safe. -/
  | neverRaised
  deriving DecidableEq, Repr

/-- Why a command has no meaning. -/
inductive Refusal where
  /-- Raised by an arm of exec whose command has no meaning yet. Safe: the model stops. -/
  | notModelled (mnemonic : String)
  deriving DecidableEq, Repr

/-- Numbered registers with a sparse home: (number, value) pairs, numbers strictly rising. -/
abbrev KV := List (Nat × Nat)

/-- The states of a command queue (03 R53). -/
inductive QState where
  | idle | running | halted | preempted
  deriving DecidableEq, Repr

/-- The states of a context (11 R274); Free contexts are not listed. -/
inductive CtxState where
  | waiting | live | suspended | ending
  deriving DecidableEq, Repr

/-- A queue block (03 R53). -/
structure Queue where
  ringBase : Nat
  ringLog2 : Nat
  compBase : Nat
  tail : Nat
  retired : Nat
  descBase : Nat
  qs : QState
  deriving DecidableEq, Repr

/-- What a context keeps of its courier job (16 R419-R424). `status` is the code R93 chooses so far, `haltRec` the record
that halted the queue, `submitSession` 0 is none. -/
structure Job where
  kind : Nat
  isSealed : Bool
  resultNode : Nat
  resultSession : Nat
  resultRef : Nat
  submitSession : Nat
  status : Nat
  haltRec : Option Bytes
  delivering : Bool
  deriving DecidableEq, Repr

/-- A context descriptor with its job (11 R274). `order` is the order of acceptance (R281). -/
structure Ctx where
  number : Nat
  state : CtxState
  priority : Nat
  held : Bool
  partition : Nat
  wasHalted : Bool
  client : Nat
  seqTag : Nat
  jobId : Nat
  saveSlot : Option Nat
  saveBytes : Nat
  preemptions : Nat
  cellCycles : Nat
  order : Nat
  suspending : Bool
  queue : Queue
  job : Job
  deriving DecidableEq, Repr

/-- Where an instruction in flight stands: waiting on a semaphore (WAIT), fetching remote operands or history, running on
its units, or ended and owed its completion record. -/
inductive Phase where
  | waiting | fetching | running | ended
  deriving DecidableEq, Repr

/-- An instruction in flight (03 R59, R79, R85, R88). `rejected` instructions ended without starting. `outs` and `ins` are its
extents (R80) as (start, length), remote bytes at their global addresses. `hist` is the decided path of each history block (06
R173-R175), with 8 added where the path map had decided it, `histWait` the blocks still undecided, `latePath` the
LateHistoryPath it was checked with. `endWrites` are its results, and `counts` its telemetry, both taken into account as it
completes, `draws` the stochastic draws of each pane. A failure leaves the runs of `spare` as they are, and then writes
`failWrites`: the header of a carry plane keeps State = 10 (03 R85). `spoiled`: another master has written bytes that it reads,
which are those of `reads` (04 R115). `carryThen`: at the start of its work its carry was usable, and was discarded (02 R40). -/
structure InFlight where
  ctx : Nat
  idx : Nat
  opcode : Nat
  flags : Nat
  tag : Nat
  partition : Nat
  slot : Bytes
  phase : Phase
  rejected : Bool
  status : Nat
  detail : Nat
  rung : Nat
  outs : List (Nat × Nat)
  ins : List (Nat × Nat)
  hist : KV
  histWait : List Nat
  stopped : Bool
  endWrites : List (Nat × Bytes)
  spare : List (Nat × Nat)
  failWrites : List (Nat × Bytes)
  counts : List (Nat × Nat)
  draws : KV
  latePath : Nat
  spoiled : Bool
  reads : List (Nat × Nat)
  carryThen : Option (Bool × Bool)
  deriving DecidableEq, Repr

/-- What a remote request is for. `history` fetches a history block under a deadline, its block in `seq` (06 R172). -/
inductive ReqKind where
  | read | history | write | signal | alloc | free | writeBack | copyFetch | result
  deriving DecidableEq, Repr

/-- A remote request that has been sent and not yet answered (03 R78, R82, 19 R504), or a read's answer held for its
instruction. -/
structure Req where
  id : Nat
  ctx : Nat
  idx : Nat
  kind : ReqKind
  node : Nat
  addr : Nat
  len : Nat
  data : Bytes
  poisoned : List Nat
  postmark : Nat
  partition : Nat
  answered : Bool
  session : Nat
  seq : Nat
  deriving DecidableEq, Repr

/-- Where a tile task stands (11 R283, R284, R287): not yet posted, in a pigeonhole, in a cell, or in a save area, not
started or stopped. -/
inductive TaskPhase where
  | unposted | posted | running | withdrawn | stopped
  deriving DecidableEq, Repr

/-- How far a stopped task came (11 R292, R293): its rung, saturations at that rung, whether the non-finite signal was seen, its
next step, and what its record holds of it. -/
structure Progress where
  rung : Nat
  sats : Nat
  nonFinite : Bool
  pos : Nat
  data : Bytes
  deriving DecidableEq, Repr

/-- A tile task that has not ended: pane and slice of an instruction, dealt to a cell (04 R97, R109). `redealt` is the fault that
sent it from another cell, 0 for none (19 R499). `done` is where it stands in a save area, or where it went on from since (11
R295 step 4); none for a task that began in its cell. `marred`: its cell met an uncorrectable error in what it holds of the
task as it saves it (R298). -/
structure Task where
  ctx : Nat
  idx : Nat
  pane : Nat
  slice : Nat
  cell : Nat
  col : Nat
  prio : Nat
  order : Nat
  phase : TaskPhase
  redealt : Nat
  done : Option Progress
  marred : Bool
  deriving DecidableEq, Repr

/-- A record of an imported save area whose instruction has not yet started here (11 R295 step 3, R297). -/
structure Loaded where
  ctx : Nat
  idx : Nat
  kind : Nat
  task : Nat
  slice : Nat
  done : Progress
  deriving DecidableEq, Repr

/-- A cell (01 R12, 11 R284, 19 R494-R499): lost lane groups, engine resets in the fence window, deferred reseeds in a row,
lane-state errors, and for each priority the sequence slot it last served. -/
structure Cell where
  id : Nat
  fenced : Bool
  lanesFenced : Nat
  resets : Nat
  laneErrors : KV
  deferred : Nat
  lastServed : KV
  deriving DecidableEq, Repr

/-- An allocation (10 R253-R256). Home 0xFFFF is local. -/
structure Obj where
  base : Nat
  size : Nat
  client : Nat
  home : Nat
  localCopy : Bool
  set : Nat
  deriving DecidableEq, Repr

/-- A local copy of one 4 KiB granule of a remote object (10 R257-R261), least recently accessed first in its list. `data` holds
bytes written here before the home's contents arrive; `whole` once they have. `writers` are the contexts whose write-back is not
yet acknowledged, `job` the context that made it. `poison` are its uncorrectable units (10 R582), `failed` a write-back that the
home did not acknowledge (R261), `leaving` an eviction that waits for its write-back (R260). -/
structure Copy where
  node : Nat
  addr : Nat
  data : List Host.Cell
  whole : Bool
  dirty : Bool
  writers : List Nat
  job : Nat
  req : Nat
  poison : List Nat
  failed : Bool
  leaving : Bool
  deriving DecidableEq, Repr

/-- A write-combining entry (10 R251): an aligned 64-byte line of a controller and the addresses of the bytes enabled in
it; their values already stand in memory, since every read returns the merged bytes (R252). -/
structure Wcb where
  channel : Nat
  line : Nat
  enabled : List Nat
  deriving DecidableEq, Repr

/-- A GDDR7 channel and its controller (10 R237-R269). `session` is the step of a live retraining (0 none, 4 training),
`viaReset` marks a controller engine reset run as a session (19 R499). -/
structure Chan where
  id : Nat
  active : Bool
  fenced : Bool
  marked : Bool
  session : Nat
  viaReset : Bool
  due : Bool
  training : Nat
  trainingPrev : Nat
  failedRow : Nat
  failedResets : Nat
  uncorrectableReads : Nat
  detour : List Host.Cell
  heldWrites : List Host.Cell
  deriving DecidableEq, Repr

/-- Memory of the module (10 R243-R261): bytes over the local address map, uncorrectable 16-byte units, granule ranges not
yet zeroed, objects, copies, write-combining entries and channels. -/
structure MemSys where
  cells : List Host.Cell
  poison : List Nat
  unzeroed : List (Nat × Nat)
  objects : List Obj
  copies : List Copy
  wcb : List Wcb
  chans : List Chan
  interleave : Nat
  saveSlots : Nat
  bulk : Bool
  deriving DecidableEq, Repr

/-- The sorting office (11 R273-R301). `yielding` are contexts that a priority trigger suspended (R282), `saveBases` the address of
each saved context's save area (the SaveBase of R274), `saveSums` its Crc as it was written. -/
structure Office where
  ctxs : List Ctx
  accepts : Nat
  seqSlots : List (Option (Nat × Nat))
  quotas : KV
  lifetime : KV
  saveUsed : List (Nat × Nat)
  tasks : List Task
  taskOrder : Nat
  cells : List Cell
  triggers : List (Nat × Nat)
  layout : Nat
  roles : List Nat
  stopped : List Nat
  notStarted : List Nat
  yielding : List Nat
  saveBases : KV
  saveSums : KV
  loaded : List Loaded
  deriving DecidableEq, Repr

/-- The sheets of one operand that a region weight cache holds for a context (04 R107): the region, the address of the
operand's descriptor, how its columns and K are cut, the batch, and the operand's extent. -/
structure SheetSet where
  ctx : Nat
  region : Nat
  desc : Nat
  cols : Nat
  cuts : Nat
  batch : Nat
  extent : List (Nat × Nat)
  deriving DecidableEq, Repr

/-- Command-stream state shared by all queues: instructions in flight, indexes completed out of order above Retired,
hazard stalls already counted, remote requests, write failures not yet charged (03 R82). `grids` are the cells of each
instruction's grid, by column (04 R108). `chainLeft` are members that have left their chain (04 R113), as context, index and
cell. `sheets` are the sheets that region weight caches hold (04 R107). -/
structure Stream where
  flight : List InFlight
  done : List (Nat × Nat)
  stalled : List (Nat × Nat)
  reqs : List Req
  nextReq : Nat
  failedWrites : List (Nat × Nat)
  chainLeft : List (Nat × Nat × Nat)
  grids : List (Nat × Nat × Nat × Nat)
  sheets : List SheetSet
  deriving DecidableEq, Repr

/-- States of a fabric port (12 R312). -/
inductive PState where
  | disabled | down | training | aligning | exchanging | active | changing
  deriving DecidableEq, Repr

/-- A flit (12 R306), its payload without the padding. Inside this module, `place` is the port and receive buffer that a transit flit
still occupies (R308), and `req` the request of this module that it belongs to, 0 for none. -/
structure Flit where
  type : Nat
  cls : Nat
  vlane : Nat
  last : Bool
  seq : Nat
  ackSeq : Nat
  creditBuf : Nat
  creditCount : Nat
  dest : Nat
  src : Nat
  postmark : Nat
  payload : Bytes
  place : Option (Nat × Nat)
  req : Nat
  deriving DecidableEq, Repr

/-- A fabric port (12 R302-R317). Lane sets are 4-bit masks. `credits` and `owed` are per receive buffer. `retrain` is the
lane under live retraining. `peerLanes` are those the neighbour last said it has; `agreeing`: a width change of this end awaits the
neighbour's Control flit (R316). -/
structure Port where
  id : Nat
  st : PState
  width : Nat
  lanes : Nat
  aligned : Nat
  removed : Nat
  miswired : Bool
  neighbour : Nat
  neighbourPort : Nat
  nextSeq : Nat
  expectSeq : Nat
  ackIn : Nat
  nakSent : Bool
  nakDue : Bool
  replays : Nat
  credits : List Nat
  owed : List Nat
  ctlDue : Bool
  sendQ : List Flit
  replay : List Flit
  recv : List Flit
  rr : Nat
  fecErrs : KV
  retrain : Option Nat
  retrainDue : List Nat
  peerLanes : Nat
  agreeing : Bool
  deriving DecidableEq, Repr

/-- The fabric router and its reset domain (12 R302-R327). `held` are flits no port of whose entry is Active (R321), `out`
the bytes of the flits sent, with their port. -/
structure Router where
  ports : List Port
  nodeInForce : Nat
  torusInForce : Nat
  committed : Option (Nat × Nat)
  routes : KV
  laneFailures : KV
  laneRemovals : KV
  held : List Flit
  out : List (Nat × Bytes)
  deriving DecidableEq, Repr

/-- A chunk that this member sends, kept until its receiver acknowledges it (13 R341): the node it goes to, its stage, ring direction,
number, and whether it has been sent. -/
structure Parcel where
  dest : Nat
  stage : Nat
  neg : Bool
  number : Nat
  last : Bool
  data : Bytes
  sent : Bool
  deriving DecidableEq, Repr

/-- A collective in flight at this node (13 R328-R352): what its members agree on (`sig`), and its place in its group's order. `ready`:
its operands are at hand; `met`: the neighbours that have agreed; `begun`: its data move; `stage`: the stage it is at, and `opened`:
that stage's sends are made. `value` are the values this member holds so far, `vs` and `qs` what its narrowing was given and sent
(2^32: not narrowed), `buf` the bytes of a postcard collective, `parcels` the chunks it sends, `inbox` those that have come for the
stage it is at and later ones, `failed` those that failed a check once, `marks` the postmarks that its peers have shown. -/
structure Coll where
  ctx : Nat
  idx : Nat
  group : Nat
  post : Bool
  sig : Nat
  order : Nat
  ready : Bool
  met : List Nat
  begun : Bool
  stage : Nat
  opened : Bool
  repeated : Bool
  carryOk : Bool
  discard : Bool
  value : List Nat
  vs : List Nat
  qs : List Nat
  buf : Bytes
  parcels : List Parcel
  inbox : List Chunk
  failed : List (Nat × Bool × Nat)
  marks : KV
  deriving DecidableEq, Repr

/-- A postcard that has arrived and is not yet used (13 R344): its group and place in the group's order, the axis and position
it comes from, its sender's partition, what its sender's members agree on, and its bytes. -/
structure Card where
  group : Nat
  order : Nat
  axis : Nat
  pos : Nat
  part : Nat
  sig : Nat
  payload : Bytes
  deriving DecidableEq, Repr

/-- A control collective that this node takes part in (13 R346): what its postcards agree on, the axis it is at, and this node's value. -/
structure Ctrl where
  sig : Nat
  stage : Nat
  value : Bytes
  deriving DecidableEq, Repr

/-- Collectives and the postcard unit (13 R330, R344-R347). `calls` are exchanges that came before this node's own collective started;
`ctrls` the control collectives held; `ctrlCode` the code with which this node's own last one failed. -/
structure Collectives where
  flight : List Coll
  orders : KV
  marks : KV
  calls : List Chunk
  cards : List Card
  ctrls : List Ctrl
  ctrlState : Nat
  ctrlCode : Nat
  ctrlResult : Bytes
  ctrlSource : Nat
  deriving DecidableEq, Repr

/-- A pipe of the intake engine or the codec complex: the job and the slot or frame it works on. -/
structure Pipe where
  id : Nat
  fenced : Bool
  resets : Nat
  job : Option (Nat × Nat × Nat)
  lastStream : Nat
  deriving DecidableEq, Repr

/-- A dictionary slot of the tokeniser (14 R359): tag, ByteBase, UnknownToken and entries. -/
structure DictSlot where
  tag : Option Nat
  byteBase : Nat
  unknown : Nat
  entries : List Bytes
  deriving DecidableEq, Repr

/-- An intake job in progress (14 R353): its job block, the dictionary that a text job has bound (R359), where its samples' bytes stand,
its next slot, the slots to take again after a pipe was fenced, the codes of the slots finished, and the slots whose sample bytes have
been written meanwhile (R376). -/
structure IntakeJob where
  ctx : Nat
  idx : Nat
  block : Bytes
  dict : DictSlot
  samples : List (Nat × Nat)
  next : Nat
  again : List Nat
  results : KV
  spoiled : List Nat
  deriving DecidableEq, Repr

/-- The intake engine (14). -/
structure Intake where
  pipes : List Pipe
  dicts : List DictSlot
  jobs : List IntakeJob
  deriving DecidableEq, Repr

/-- States of a codec stream that is not Closed (15 R383). -/
inductive StreamState where
  | opened | errored
  deriving DecidableEq, Repr

/-- A frame in a frame buffer slot that is Held (15 R385): its slot, its place in display order, its size, the status it is
written with, and its code values, plane by plane. -/
structure Frame where
  slot : Nat
  rank : Nat
  width : Nat
  height : Nat
  status : Nat
  codes : List Nat
  deriving DecidableEq, Repr

/-- A codec stream context (15 R383-R389) that is not Closed. `state` stands for the codec's own state, `since` counts frames
since the last random access point, `refs` and `taint` are masks of the slots kept for prediction and of those that hold a
concealed frame or one that depends on it, `current` the slot at work, `due` how many Held frames are due for output, `last`
the last frame output. -/
structure Codec where
  id : Nat
  st : StreamState
  encoder : Bool
  ctx : Nat
  params : Bytes
  state : Nat
  since : Nat
  seenKey : Bool
  refs : Nat
  taint : Nat
  current : Option Nat
  held : List Frame
  due : Nat
  last : Option Frame
  deriving DecidableEq, Repr

/-- A codec job in progress: its job block, bitstream bytes moved, frames done, frames written to a bitstream, frames damaged
and skipped, and its notes. -/
structure CodecJob where
  ctx : Nat
  idx : Nat
  block : Bytes
  bitBytes : Nat
  framesDone : Nat
  written : Nat
  damaged : Nat
  skipped : Nat
  notes : List Nat
  deriving DecidableEq, Repr

/-- The codec complex (15). -/
structure CodecComplex where
  pipes : List Pipe
  streams : List Codec
  jobs : List CodecJob
  deriving DecidableEq, Repr

/-- A sequenced courier message the module keeps until it is acknowledged (16 R415). -/
structure SentMsg where
  seq : Nat
  type : Nat
  status : Nat
  postmark : Nat
  body : Bytes
  deriving DecidableEq, Repr

/-- A courier session (16 R409-R415). -/
structure Session where
  id : Nat
  client : Nat
  port : Nat
  ip : Nat
  udp : Nat
  mac : Nat
  openIp : Nat
  openUdp : Nat
  nonce : Nat
  rxNext : Nat
  txNext : Nat
  lastAck : Nat
  peerWindow : Nat
  owed : Nat
  resends : Nat
  carried : Bool
  closing : Bool
  sent : List SentMsg
  queued : List SentMsg
  deriving DecidableEq, Repr

/-- A datagram the module has put on a data port. -/
structure OutDgram where
  port : Nat
  ip : Nat
  udp : Nat
  mac : Nat
  bytes : Bytes
  deriving DecidableEq, Repr

/-- A result held for delivery (16 R421): its job, or the remote module it came from, and the context to free. `endSeq` is
the Seq of its ResultEnd once sent. -/
structure Result where
  id : Nat
  node : Nat
  ctx : Nat
  client : Nat
  jobId : Nat
  session : Nat
  ref : Nat
  status : Nat
  endSeq : Option Nat
  deriving DecidableEq, Repr

/-- The data ports (16). -/
structure Courier where
  linkUp : List Bool
  sessions : List Session
  nextSession : Nat
  results : List Result
  nextResult : Nat
  out : List OutDgram
  raw : List (Nat × Nat × Bytes)
  udpPort : Nat
  deriving DecidableEq, Repr

/-- The EtherCAT SubDevice (17 R429-R444). AL states: 1 Init, 2 PreOp, 3 Bootstrap, 4 SafeOp, 8 Op. `esc` are the registers
and buffers that the MainDevice wrote, SM0 among them; `sm1` the mailbox responses placed and not yet fetched, `lastSm1` the one
fetched last, `replies` the bytes read into the datagrams of the last frame. -/
structure EtherCat where
  al : Nat
  alStatus : Nat
  linkUp : List Bool
  loopClosed : List Bool
  station : Nat
  stationAlias : Nat
  esc : List Host.Cell
  sm1 : List Bytes
  lastSm1 : Bytes
  replies : List Bytes
  emergencies : List Bytes
  segmented : Option (Nat × Nat)
  sm3 : Bytes
  pdo1A01 : List Nat
  assign2 : List Nat
  assign3 : List Nat
  forwarded : Nat
  lastAbort : Nat × Nat × Nat
  deriving DecidableEq, Repr

/-- A journal record (18 R466, R467): type, key, payload. -/
structure Rec where
  type : Nat
  key : Nat
  data : Bytes
  deriving DecidableEq, Repr

/-- A firmware image placed in the store (18 R483-R485). -/
structure Image where
  bytes : Bytes
  blocks : List Nat
  deriving DecidableEq, Repr

/-- A cullet or a saved last-post set (18 R464, 19 R510, R512): bytes and blocks. -/
structure Extent where
  id : Nat
  kind : Nat
  bytes : Bytes
  parts : List Bytes
  blocks : List Nat
  deriving DecidableEq, Repr

/-- A NAND block in use or bad (18 R464): area 1 anchor, 2 journal, 3 snapshot, 4 image, 5 cullet, 6 last-post, 7 bad from
the factory, 8 grown bad; blocks not listed are free. -/
structure NBlock where
  id : Nat
  area : Nat
  erases : Nat
  pages : Nat
  deriving DecidableEq, Repr

/-- A programmed NAND page (18 R462, R463): where it lies, the fields of its tag that the page does not fix, and its main data up to
its last byte that is not a filling zero. -/
structure NPage where
  block : Nat
  page : Nat
  kind : Nat
  seq : Nat
  erases : Nat
  extent : Nat
  index : Nat
  data : Bytes
  deriving DecidableEq, Repr

/-- The Restante store (18). `nand` lists the programmed pages of its blocks, oldest first. `pending` are records not yet
committed, `durable` the newest committed record of each key. -/
structure Store where
  answers : Bool
  image : Option Image
  running : Bytes
  gddrImage : Bool
  pendingImage : Option Bytes
  anchorSeq : Nat
  commitSeq : Nat
  snapshotCommit : Nat
  pageSeq : Nat
  journalBytes : Nat
  durable : List Rec
  pending : List Rec
  allowance : Int
  blocks : List NBlock
  nand : List NPage
  eraseBase : KV
  nandBytes : Nat
  cullets : List Extent
  lastPosts : List Extent
  nextExtent : Nat
  windowCounts : Nat × Nat × Nat
  imageBad : Bool
  restorePending : Bool
  deriving DecidableEq, Repr

/-- A fence record (19 R519): state 1 fenced, 2 marked for the next chip reset, 3 cleared at the next chip reset. -/
structure Fence where
  unit : Nat
  state : Nat
  origin : Nat
  cause : Nat
  cycle : Nat
  tod : Nat
  deriving DecidableEq, Repr

/-- An error log entry (19 R506). -/
structure LogEntry where
  number : Nat
  unit : Nat
  cycle : Nat
  tod : Nat
  status : Nat
  severity : Nat
  partition : Nat
  postmark : Nat
  detail : Nat
  deriving DecidableEq, Repr

/-- A last-post event (19 R511). -/
structure PostEvent where
  cycle : Nat
  tod : Nat
  unit : Nat
  event : Nat
  status : Nat
  postmark : Nat
  detail : Nat
  deriving DecidableEq, Repr

/-- Faults and recovery (19). `postmarks` stand in the router domain (R503). `annealing` are partitions in reset. `counts`
are the fence counts of units other than cells and channels; `logged` the units with a corrected-error entry. -/
structure Faults where
  postmarks : List Nat
  latched : Nat
  levels : Nat
  alertForced : Bool
  log : List LogEntry
  logNext : Nat
  memLog : List LogEntry
  rings : List (List PostEvent)
  fences : List Fence
  counts : KV
  annealing : List Nat
  lastCause : Nat
  resetTries : Nat
  pwrReq : Bool
  deriving DecidableEq, Repr

/-- The fuse array (20 R527). Key hashes, serial number and secret are numbers, byte 0 least significant. -/
structure Fuses where
  keyHash : List Nat
  revoked : Nat
  secVer : Nat
  lifecycle : Nat
  secretKilled : Bool
  serial : Nat
  secret : Nat
  deriving DecidableEq, Repr

/-- The identity key (20 R539-R541): generation, IV, wrapped key with tag, public key. -/
structure Identity where
  generation : Nat
  iv : Bytes
  wrapped : Bytes
  gcmTag : Bytes
  pub : Bytes
  deriving DecidableEq, Repr

/-- Security, debug and JTAG (20). `level` 0 Locked, 1 Observe, 2 Full. -/
structure Security where
  fuses : Fuses
  identity : Option Identity
  rotations : List (Nat × Bytes)
  challenge : Option Bytes
  refusals : Nat
  lockedOut : Bool
  tokenState : Nat
  tokenResult : Nat
  level : Nat
  attState : Nat
  attNonce : Bytes
  attReport : Bytes
  trngFail : Bool
  tapIr : Nat
  tapOut : Bytes
  boundary : Nat
  bypassBit : Bool
  scan : List (Nat × Bytes)
  coreHalted : List Nat
  deriving DecidableEq, Repr

/-- The board (21). Phases of the supply and of the start. -/
inductive PowerPhase where
  /-- No input power. -/
  | off
  /-- Held at step 2 of R569 while PERST_N stays low. -/
  | heldInReset
  /-- The firmware serves. -/
  | serving
  /-- Bootstrap: the boot ROM serves FoE only (18 R488). -/
  | bootstrap
  /-- The power-loss sequence has run and the module waits for power to fail (18 R472 step 6). -/
  | powerLoss
  /-- Every island has stopped (21 R568), or no firmware runs (20 R552). -/
  | stopped
  /-- The rails are off after a thermal trip (21 R573). -/
  | tripped
  /-- Waiting for the tray to cycle power (21 R572). -/
  | awaitingCycle
  deriving DecidableEq, Repr

/-- Supply, references, sensors and pins (21), and the power pair in force (20 R549). Temperatures are in 1/16 of a degree,
as 0x3000:01 gives them. -/
structure Board where
  phase : PowerPhase
  millivolts : Nat
  watts : Nat
  dieTemp : Int
  deviceTemp : Int
  clockSteps : Nat
  perstLow : Bool
  ref156 : Bool
  ref100 : Bool
  power : Nat
  trim : Nat
  warned : Bool
  deriving DecidableEq, Repr

/-- The whole module. `pending` is the queue of waiting commands, first in first out; `epoch` is the model's own counter of
steps that draw free values. `dict` holds the numbered dictionary entries that software writes (number index × 256 +
subindex), `staged` the staged pair members (17 R450), `tele` the counters of telemetry. -/
structure State where
  pending : List Instr
  epoch : Nat
  dict : KV
  staged : KV
  tele : KV
  mem : MemSys
  office : Office
  cs : Stream
  fabric : Router
  coll : Collectives
  intake : Intake
  codec : CodecComplex
  net : Courier
  ecat : EtherCat
  store : Store
  faults : Faults
  sec : Security
  board : Board
  deriving DecidableEq, Repr

/-- Cell `i` after reset. -/
def Cell.init (i : Nat) : Cell := ⟨i, false, 0, 0, [], 0, []⟩

/-- Channel `i` after reset: active and trained. -/
def Chan.init (i : Nat) : Chan := ⟨i, true, false, false, 0, false, false, 0, 0, 0, 0, 0, [], []⟩

/-- Port `i` after a reset of the router domain: Down (12 R323), no lane aligned. -/
def Port.init (i : Nat) : Port :=
  ⟨i, .down, 0, 0, 0, 0, false, 0xFFFF, 0xFFFF, 0, 0, 0xFFFF, false, false, 0, List.replicate 8 0, List.replicate 8 0,
    false, [], [], [], 0, [], none, [], 15, false⟩

/-- Pipe `i` after reset. -/
def Pipe.init (i : Nat) : Pipe := ⟨i, false, 0, none, 0xFFFF⟩

/-- An empty dictionary slot (14 R359). -/
def DictSlot.empty : DictSlot := ⟨none, 0, 0, []⟩

/-- Memory after a start: 24 channels active, and no granule of the window yet zeroed (10 R255). -/
def MemSys.init : MemSys := ⟨[], [], [(0, 180388626432)], [], [], [], (List.range 24).map Chan.init, 0, 2, false⟩

/-- The sorting office after a start: one partition in generation role (17 R452 defaults), no context. -/
def Office.init : Office :=
  ⟨[], 0, List.replicate 8 none, [], [], [], [], 0, (List.range 256).map Cell.init, [], 1, [2, 0, 0, 0], [], [], [], [], [], []⟩

def Stream.init : Stream := ⟨[], [], [], [], 1, [], [], [], []⟩

/-- The router domain after its reset: no node id in force (12 R319), every port Down. -/
def Router.init : Router := ⟨(List.range 12).map Port.init, 0xFFFF, 0, none, [], [], [], [], []⟩

def Collectives.init : Collectives := ⟨[], [], [], [], [], [], 0, 0, List.replicate 64 0, 0xFFFF⟩

def Intake.init : Intake := ⟨(List.range 4).map Pipe.init, List.replicate 4 DictSlot.empty, []⟩

def CodecComplex.init : CodecComplex := ⟨(List.range 4).map Pipe.init, [], []⟩

/-- The data ports after a start: link training of R569 step 9 is not yet done. -/
def Courier.init : Courier := ⟨[false, false], [], 1, [], 1, [], [], 41230⟩

/-- The SubDevice at power-on: Init (21 R569 step 2), loops closed on ports without a link. -/
def EtherCat.init : EtherCat :=
  ⟨1, 0, [false, false], [true, true], 0, 0, [], [], [], [], [], none, [], [], [0x1600], [], 0, (0, 0, 0)⟩

/-- The store of a module fresh from manufacture: nothing journalled beyond defaults, the allowance at 64 MiB (18 R470). -/
def Store.init : Store :=
  ⟨true, some ⟨[], []⟩, [], true, none, 1, 0, 0, 0, 0, [], [], 67108864,
    [⟨0, 1, 0, 0⟩, ⟨1, 1, 0, 0⟩, ⟨2, 1, 0, 0⟩, ⟨3, 1, 0, 0⟩], [], [], 0, [], [], 1, (0, 0, 0), false, false⟩

/-- No fault latched; the level bits that hold: ports not at width 4 nor Active, no node id in force (19 R513). -/
def Faults.init : Faults :=
  ⟨[0, 0, 0, 0], 0, 0x2000300, false, [], 0, [], List.replicate 4 [], [], [], [], 0, 0, false⟩

/-- Fuses of the modelled module: lifecycle Field, every other field zero where the spec states no value. -/
def Fuses.init : Fuses := ⟨[0, 0, 0, 0], 0, 0, 2, false, 0, 0⟩

def Security.init : Security :=
  ⟨Fuses.init, none, [], none, 0, false, 0, 0, 0, 0, [], [], false, 1, [], 0, false, [], []⟩

/-- The board after a start at the nominal input of 42 V (21 R556). -/
def Board.init : Board := ⟨.serving, 42000, 0, 0, 0, 0, false, true, true, 0, 0, false⟩

/-- The module right after its start: the end of step 8 of R569 with factory defaults and no command waiting. -/
def State.reset : State :=
  ⟨[], 0, [], [], [], MemSys.init, Office.init, Stream.init, Router.init, Collectives.init, Intake.init,
    CodecComplex.init, Courier.init, EtherCat.init, Store.init, Faults.init, Security.init, Board.init⟩

end Sys2Proof.Machine
end

