-- ==== Sys2Proof/Machine/Ops.lean ====
section
/-! DEFINITION. Ops: the named operations over numbered registers, counters, memory, channels and partitions. -/

namespace Sys2Proof.Machine
open Sys2Proof

/-! ## Numbered registers -/

/-- The value of a numbered register, `d` where none is listed. -/
def kvGet (k d : Nat) : KV → Nat
  | [] => d
  | (k', v) :: l => if k' == k then v else kvGet k d l

/-- `m` with register `k` at `v`, numbers strictly rising. -/
def kvSet (k v : Nat) : KV → KV
  | [] => [(k, v)]
  | (k', v') :: l => if k < k' then (k, v) :: (k', v') :: l else if k' == k then (k, v) :: l else (k', v') :: kvSet k v l

/-- `m` without register `k`. -/
def kvDel (k : Nat) (m : KV) : KV := m.filter (fun e => e.1 != k)

def kvHas (k : Nat) (m : KV) : Bool := m.any (fun e => e.1 == k)

/-- The value in force of a dictionary entry (17 R446, R450). -/
def State.dget (s : State) (idx sub : Nat) : Nat := kvGet (dkey idx sub) (dictDefault (dkey idx sub)) s.dict

/-- The staged value of a pair member (17 R450). -/
def State.staging (s : State) (idx sub : Nat) : Nat := kvGet (dkey idx sub) (s.dget idx sub) s.staged

/-- Set a dictionary entry. -/
def State.dset (s : State) (idx sub v : Nat) : State := { s with dict := kvSet (dkey idx sub) v s.dict }

/-- A telemetry counter (UINT64). -/
def State.count (s : State) (idx sub : Nat) : Nat := kvGet (dkey idx sub) 0 s.tele

/-- Raise a telemetry counter by `n`, modulo 2^64. -/
def State.bump (s : State) (idx sub n : Nat) : State :=
  { s with tele := kvSet (dkey idx sub) ((s.count idx sub + n) % 2 ^ 64) s.tele }

/-- Set a telemetry value that is not a count (10 R272 :0C and :11). -/
def State.setCount (s : State) (idx sub n : Nat) : State := { s with tele := kvSet (dkey idx sub) (n % 2 ^ 64) s.tele }

/-- Raise a list of counters, each as (index × 256 + subindex, amount). -/
def State.bumps (s : State) (l : List (Nat × Nat)) : State :=
  l.foldl (fun s e => s.bump (e.1 / 256) (e.1 % 256) e.2) s

/-! ## Status codes -/

/-- A code that came from another module, as this one returns it: classes 0x09 to 0xFF are reserved and are not returned, so
0x0702 (fabric) stands for them (00 R8, R10; DESIGN CHOICE: the spec does not say what such a code becomes). -/
def returnable (code : Nat) : Nat := if code < 0x900 then code else 0x0702

/-! ## Free values -/

/-- The `i`-th free 32-bit value of this step. -/
def State.free (s : State) (i : Nat) : Nat := (Config.freeWord s.epoch i).toNat

/-- The step has drawn free values: later steps draw others. -/
def State.drew (s : State) : State := { s with epoch := s.epoch + 1 }

/-- `n` free bytes of this step from index `i`. -/
def State.freeBytes (s : State) (i : Nat) : Nat → Bytes
  | 0 => []
  | n + 1 => BitVec.ofNat 8 (s.free i) :: s.freeBytes (i + 1) n

/-- A free local cycle count (01 R14). -/
def State.cycle (s : State) : Nat := (Config.freeCycle s.epoch).toNat

/-! ## Memory as data -/

/-- The byte at an address in canonical memory; an unlisted byte is zero (10 R255). -/
def memGet (a : Nat) : List Host.Cell → Byte
  | [] => 0
  | (a', v) :: l => if a' == a then v else memGet a l

/-- Put a byte, keeping the canonical form. -/
def memPut (a : Nat) (v : Byte) : List Host.Cell → List Host.Cell
  | [] => if v == 0 then [] else [(a, v)]
  | (a', v') :: l =>
    if a < a' then (if v == 0 then (a', v') :: l else (a, v) :: (a', v') :: l)
    else if a' == a then (if v == 0 then l else (a, v) :: l)
    else (a', v') :: memPut a v l

/-- Put a run of bytes. -/
def memPuts (a : Nat) : Bytes → List Host.Cell → List Host.Cell
  | [], m => m
  | b :: bs, m => memPuts (a + 1) bs (memPut a b m)

/-- A run of `n` bytes. -/
def memGets (a : Nat) (m : List Host.Cell) : Nat → Bytes
  | 0 => []
  | n + 1 => memGet a m :: memGets (a + 1) m n

/-- Every entry of `m` stands above `a` and is not zero, and addresses strictly rise. -/
def memWfFrom (a : Nat) : List Host.Cell → Bool
  | [] => true
  | (a', v) :: l => decide (a ≤ a') && v != 0 && memWfFrom (a' + 1) l

/-- The canonical form of memory: addresses strictly rising, no entry zero. -/
def Memory.wf (m : List Host.Cell) : Bool := memWfFrom 0 m

/-- Put a byte in an overlay, zero or not, addresses strictly rising. -/
def layPut (a : Nat) (v : Byte) : List Host.Cell → List Host.Cell
  | [] => [(a, v)]
  | (a', v') :: l =>
    if a < a' then (a, v) :: (a', v') :: l else if a' == a then (a, v) :: l else (a', v') :: layPut a v l

/-- The byte of an overlay, if it has one. -/
def layGet (a : Nat) (m : List Host.Cell) : Option Byte := (m.find? (fun c => c.1 == a)).map (fun c => c.2)

/-! ## Partitions, cells and channels -/

/-- How many partitions the layout in force has (01 R17). -/
def State.nParts (s : State) : Nat := s.office.layout

/-- The partition of a region (01 R17). -/
def State.partOfRegion (s : State) (r : Nat) : Nat := r * s.office.layout / 4

/-- The regions of a partition. -/
def State.regionsOf (s : State) (p : Nat) : List Nat := (List.range 4).filter (fun r => s.partOfRegion r == p)

def State.partExists (s : State) (p : Nat) : Bool := decide (p < s.office.layout)

/-- The role in force of a partition (01 R18): 0 absent, 1 prompt, 2 generation, 3 cache. -/
def State.role (s : State) (p : Nat) : Nat := s.office.roles.getD p 0

def State.cell (s : State) (i : Nat) : Cell := s.office.cells.getD i (Cell.init i)

def State.setCell (s : State) (i : Nat) (f : Cell → Cell) : State :=
  { s with office := { s.office with cells := modifyAt f i s.office.cells } }

/-- The partition of a cell (01 R12, R17). -/
def State.partOfCell (s : State) (i : Nat) : Nat := s.partOfRegion (i / 64)

/-- The active cells of a partition, in ascending order: those not fenced. -/
def State.activeCells (s : State) (p : Nat) : List Nat :=
  (List.range 256).filter (fun i => s.partOfCell i == p && !(s.cell i).fenced)

def State.chan (s : State) (i : Nat) : Chan := s.mem.chans.getD i (Chan.init i)

def State.setChan (s : State) (i : Nat) (f : Chan → Chan) : State :=
  { s with mem := { s.mem with chans := modifyAt f i s.mem.chans } }

/-- The partition of a channel (01 R13, R17). -/
def State.partOfChan (s : State) (i : Nat) : Nat := s.partOfRegion (i / 6)

/-- The active channels (10 R243), in ascending order. -/
def MemSys.activeChans (m : MemSys) : List Nat := (m.chans.filter (fun c => c.active)).map (fun c => c.id)

/-- The postmark of a partition (19 R503). -/
def State.postmark (s : State) (p : Nat) : Nat := s.faults.postmarks.getD p 0

/-- The node id in force (12 R319), 0xFFFF for none. -/
def State.node (s : State) : Nat := s.fabric.nodeInForce

/-- EXTEST is in force: its instruction is selected, and the level and the lifecycle grant it (20 R545, R546). Every link
and GDDR7 channel then fails. -/
def State.extestOn (s : State) : Bool :=
  s.sec.tapIr == 0 && s.sec.level == 2 && (s.sec.fuses.lifecycle == 0 || s.sec.fuses.lifecycle == 3)

/-- The SerDes have their reference, and their pins (20 R546, 21 R568). -/
def State.serdesUp (s : State) : Bool := s.board.ref156 && !s.extestOn

/-! ## The address map (10 R243 to R248) -/

/-- Size of the GDDR protected window (10 R243). -/
def MemSys.windowBytes (m : MemSys) : Nat := 7 * 2 ^ 30 * m.activeChans.length

/-- First address of the system reserve (10 R243). -/
def MemSys.reserveBase (m : MemSys) : Nat := m.windowBytes - 4 * 2 ^ 30

/-- The window a local address lies in: 0 none, 1 GDDR, 0x100 + cell used part of a scratchpad slot, 0x300 + region a
weight cache, 4 control registers, 5 the unused part of a slot (10 R243 to R245). -/
def MemSys.window (m : MemSys) (a : Nat) : Nat :=
  if a < m.windowBytes then 1
  else if 0x8000000000 ≤ a ∧ a < 0x8000000000 + 0x200000 * 256 then
    (if (a - 0x8000000000) % 0x200000 < 0x1C0000 then 0x100 + (a - 0x8000000000) / 0x200000 else 5)
  else if 0x9000000000 ≤ a ∧ a < 0x9000000000 + 0x1000000 * 4 then 0x300 + (a - 0x9000000000) / 0x1000000
  else if 0xF000000000 ≤ a ∧ a ≤ 0xFFFFFFFFFF then 4
  else 0

/-- Every byte of a run lies in one window; its number, 0 where it does not. -/
def MemSys.windowRun (m : MemSys) (a n : Nat) : Nat :=
  if m.window a == m.window (a + n - 1) then m.window a else 0

/-- A master may read a window's bytes with effect (10 R245). -/
def windowReadable (w : Nat) : Bool := w == 1 || decide (0x100 ≤ w)

/-- A master may write a window's bytes with effect (10 R245). -/
def windowWritable (w : Nat) : Bool := w == 1 || (decide (0x100 ≤ w) && decide (w < 0x200))

/-- The interleave set of an address: its start and its channels (10 R247). -/
def State.setOf (s : State) (a : Nat) : Nat × List Nat :=
  if s.mem.interleave == 0 then (0, s.mem.activeChans)
  else
    (List.range s.office.layout).foldl
      (fun acc p =>
        let cs := s.mem.activeChans.filter (fun c => s.partOfChan c == p)
        let size := 7 * 2 ^ 30 * cs.length
        if acc.2 == [] ∧ acc.1 ≤ a ∧ a < acc.1 + size then (acc.1, cs)
        else if acc.2 == [] then (acc.1 + size, [])
        else acc) (0, [])

/-- The channel that holds a GDDR address (10 R248). -/
def State.chanOf (s : State) (a : Nat) : Nat :=
  let st := s.setOf a
  let n := st.2.length
  let g := (a - st.1) / 4096
  let q := g / n
  let r := g % n
  let h := bits q 0 6 ^^^ bits q 6 6 ^^^ bits q 12 6 ^^^ bits q 18 6
  st.2.getD ((r + h) % n) 0

/-- The data offset of a GDDR address in its channel (10 R248). -/
def State.chanOffset (s : State) (a : Nat) : Nat :=
  let st := s.setOf a
  (a - st.1) / 4096 / st.2.length * 4096 + a % 4096

/-- The partition whose part of the window holds an address: under one set, the layout's partitions share it (10 R247). -/
def State.partOfAddr (s : State) (a : Nat) : Option Nat :=
  if s.mem.interleave == 0 then none else some (s.partOfChan (s.chanOf a))

/-! ## Reading and writing local memory -/

/-- The byte at a local address as every master sees it: a detour entry of a channel in training goes first (10 R267). -/
def MemSys.byte (m : MemSys) (a : Nat) : Byte :=
  match m.chans.findSome? (fun c => layGet a (c.detour ++ c.heldWrites)) with
  | some v => v
  | none => memGet a m.cells

/-- A master's read of one byte (10 R245): zero outside every window. -/
def State.readByte (s : State) (a : Nat) : Byte :=
  if windowReadable (s.mem.window a) then s.mem.byte a else 0

/-- A master's read of a run. -/
def State.readBytes (s : State) (a : Nat) : Nat → Bytes
  | 0 => []
  | n + 1 => s.readByte a :: s.readBytes (a + 1) n

/-- The 16-byte units of a run that are uncorrectable (10 R239). -/
def MemSys.poisonIn (m : MemSys) (a n : Nat) : List Nat :=
  if n == 0 then [] else m.poison.filter (fun u => decide (a / 16 ≤ u) && decide (u ≤ (a + n - 1) / 16))

/-- The channel in training that owns an address, if any (10 R267 step 3). -/
def State.trainingOwner (s : State) (a : Nat) : Option Nat :=
  if s.mem.window a == 1 then
    (s.mem.chans.find? (fun c => c.session != 0 && c.id == s.chanOf a)).map (fun c => c.id)
  else none

/-- How many 64-byte lines a detour holds (10: at most 1,572,864). -/
def linesOf (l : List Host.Cell) : Nat := (l.map (fun c => c.1 / 64)).eraseDups.length

/-- Store one byte where a master's write has effect: into the partner's detour while its channel trains, held when the
detour is full (10 R267 step 3), otherwise in place. -/
def State.storeByte (s : State) (a : Nat) (v : Byte) : State :=
  if windowWritable (s.mem.window a) then
    match s.trainingOwner a with
    | some n =>
      if linesOf (layPut a v (s.chan n).detour) ≤ 1572864 then
        (s.setChan n (fun c => { c with detour := layPut a v c.detour })).bump 0x31C0 0x0B 1
      else s.setChan n (fun c => { c with heldWrites := layPut a v c.heldWrites })
    | none => { s with mem := { s.mem with cells := memPut a v s.mem.cells } }
  else s

def State.storeBytes (s : State) (a : Nat) : Bytes → State
  | [] => s
  | b :: bs => (s.storeByte a b).storeBytes (a + 1) bs

/-- Clear the poison of the units wholly among `addrs`. -/
def MemSys.heal (m : MemSys) (addrs : List Nat) : MemSys :=
  { m with poison := m.poison.filter (fun u => !((List.range 16).all (fun i => addrs.contains (16 * u + i)))) }

/-- Retire a write-combining entry by read-modify-write (10 R251): a partly covered uncorrectable codeword is written with
poison. -/
def State.retireWcb (s : State) (e : Wcb) : State :=
  let bad := (s.mem.poison.filter (fun u => e.enabled.any (fun a => a / 16 == u))).length
  (({ s with mem := { s.mem with wcb := s.mem.wcb.filter (fun x => x.line != e.line) } } : State).bump 0x31C0 8 1).bump
    0x31C0 5 bad

/-- The addresses of a line that wait in a channel's detour, or are held. -/
def Chan.waiting (c : Chan) (line : Nat) : List Nat :=
  ((c.detour ++ c.heldWrites).map (fun x => x.1)).filter (fun a => a / 64 == line)

/-- Take a write of bytes `addrs` of one 64-byte line (10 R251). A line of a channel in training goes to the detour alone, and a
codeword that the detour covers whole is served from there (R267). -/
def State.mergeLine (s : State) (line : Nat) (addrs : List Nat) : State :=
  let ch := s.chanOf (64 * line)
  if (s.trainingOwner (64 * line)).isSome then { s with mem := s.mem.heal ((s.chan ch).waiting line ++ addrs) }
  else
  match s.mem.wcb.find? (fun x => x.line == line) with
  | some e =>
    let en := addrs.foldl (fun l a => insertNat a l) e.enabled
    let rest := s.mem.wcb.filter (fun x => x.line != line)
    let m := s.mem.heal en
    if addrs.length == 64 then { s with mem := { m with wcb := rest } }
    else if en.length == 64 then ({ s with mem := { m with wcb := rest } } : State).bump 0x31C0 7 1
    else
      ({ s with mem := { m with wcb := s.mem.wcb.map (fun x => if x.line == line then { x with enabled := en } else x) } }
        : State).bump 0x31C0 7 1
  | none =>
    if addrs.length == 64 then { s with mem := s.mem.heal addrs }
    else
      let mine := s.mem.wcb.filter (fun x => x.channel == ch)
      let s := if mine.length < 128 then s else
        match mine with
        | [] => s
        | e :: _ => s.retireWcb e
      { s with mem := { s.mem.heal addrs with wcb := s.mem.wcb ++ [⟨ch, line, addrs⟩] } }

/-- The lines that a run touches, by fuel. -/
def State.mergeLines (s : State) (a n : Nat) : Nat → State
  | 0 => s
  | f + 1 =>
    if n == 0 then s
    else
      let k := min n (64 - a % 64)
      (s.mergeLine (a / 64) ((List.range k).map (fun i => a + i))).mergeLines (a + k) (n - k) f

/-- Two runs share a byte. -/
def runsMeet (x y : Nat × Nat) : Bool := x.2 != 0 && y.2 != 0 && decide (x.1 < y.1 + y.2) && decide (y.1 < x.1 + x.2)

/-- Opcodes whose work ends by an event of its own: COLL, POST, SIGNAL, CODEC, INTK. -/
def ownEnd (o : Nat) : Bool := o == 0x13 || o == 0x14 || o == 0x16 || o == 0x1A || o == 0x1B

/-- The slots of an intake job whose sample bytes a write meets, and that are not finished (14 R376). -/
def IntakeJob.meets (j : IntakeJob) (a n : Nat) : List Nat :=
  (List.range j.samples.length).filter (fun i => runsMeet (j.samples.getD i (0, 0)) (a, n) && !kvHas i j.results)

/-- A run is written while instructions that read it are at work: their results are undefined (04 R115); of an INTK those of the slots
whose sample bytes it meets (14 R376). -/
def State.spoil (s : State) (a n : Nat) : State :=
  let hit := fun (f : InFlight) => f.phase == .running && !ownEnd f.opcode && f.reads.any (fun x => runsMeet x (a, n))
  { s with
    cs := { s.cs with flight := modifyWhere hit (fun f => { f with spoiled := true }) s.cs.flight }
    intake := { s.intake with
      jobs := s.intake.jobs.map (fun j => { j with spoiled := (j.meets a n).foldl (fun l i => insertNat i l) j.spoiled }) } }

/-- A master's write of a run: bytes in writable windows change, others are ignored (10 R245, R251). -/
def State.writeBytes (s : State) (a : Nat) (bs : Bytes) : State :=
  let n := bs.length
  let s := s.spoil a n
  let t := s.storeBytes a bs
  if s.mem.window a == 1 then (t.mergeLines a n (n / 64 + 2)).bump 0x31C0 2 n
  else { t with mem := t.mem.heal ((List.range n).map (fun i => a + i)) }

/-- Write bytes and mark 16-byte units of them poisoned (10 R241). -/
def State.poisonUnits (s : State) (us : List Nat) : State :=
  ({ s with mem := { s.mem with poison := us.foldl (fun l u => insertNat u l) s.mem.poison } } : State).bump 0x31C0 5
    us.length

/-- Memory whose bytes in a run of addresses read as zero, with no uncorrectable unit: neither a cell, a detour nor a held write
has them. -/
def State.clearRun (s : State) (a n : Nat) : State :=
  let out := fun (l : List Host.Cell) => l.filter (fun c => decide (c.1 < a) || decide (a + n ≤ c.1))
  { s with mem := { s.mem with
      cells := out s.mem.cells
      poison := s.mem.poison.filter (fun u => decide (16 * u < a) || decide (a + n ≤ 16 * u))
      chans := s.mem.chans.map (fun c => { c with detour := out c.detour, heldWrites := out c.heldWrites }) } }

/-- A run of local addresses meets a channel that is marked for fencing. -/
def State.onMarked (s : State) (x : Nat × Nat) : Bool :=
  s.mem.window x.1 == 1 && (List.range ((x.1 % 4096 + x.2 + 4095) / 4096)).any (fun i => (s.chan (s.chanOf (x.1 + 4096 * i))).marked)

/-- An access to runs of local addresses meets a channel marked for fencing that cannot serve it, and fails with 0x0381 (10 R249).
Which accesses such a channel cannot serve is not given, so that is free. -/
def State.unserved (s : State) (l : List (Nat × Nat)) : Bool :=
  s.mem.chans.any (fun c => c.marked) && l.any (fun x => s.onMarked x && s.free (2 ^ 88 + x.1) % 2 == 1)

/-! ## Global addresses (10 R246) -/

/-- Bit 63 of a global address. -/
def gRemote (g : Nat) : Bool := bit g 63
def gNode (g : Nat) : Nat := bits g 48 15
def gLocal (g : Nat) : Nat := bits g 0 40

/-- A global address that this module serves itself: a local form, or its own node id (10 R246). -/
def State.gHere (s : State) (g : Nat) : Bool := !gRemote g || (gNode g == s.node)

/-- The local address that a global address served here names; a local form with bits [62:40] set lies outside every
window. -/
def gAddr (g : Nat) : Nat := if gRemote g then gLocal g else g % 2 ^ 63

/-- Runs of global addresses that this module serves meet a channel marked for fencing that cannot serve them. -/
def State.unservedRuns (s : State) (l : List (Nat × Nat)) : Bool :=
  s.unserved ((l.filter (fun x => s.gHere (x.1 % 2 ^ 64))).map (fun x => (gAddr (x.1 % 2 ^ 64), x.2)))

/-- The global address of a local address on a node. -/
def gMake (node a : Nat) : Nat := 2 ^ 63 + node * 2 ^ 48 + a % 2 ^ 40

end Sys2Proof.Machine
end

