-- ==== Sys2Proof/Machine/Operands.lean ====
section
/-! DEFINITION. Operands: macro-instruction fields, references, tensor descriptors, their checks, and reading and writing
tensors (03 R60 to R67, R86, R579). -/

namespace Sys2Proof.Machine
open Sys2Proof

/-- What a macro-instruction sees while it is checked and run: the module, its 64-byte slot, DescBase, its context and
partition, the bytes of any global address (local memory, local copies, and fetched remote bytes) and whether they are
uncorrectable, the decided path of each history block (06 R173), and the LateHistoryPath in force at its check (06 R176). -/
structure Env where
  s : State
  slot : Bytes
  descBase : Nat
  ctx : Nat
  idx : Nat
  part : Nat
  view : Nat → Byte
  bad : Nat → Bool
  hist : KV
  latePath : Nat
  carryThen : Option (Bool × Bool)

def Env.opcode (e : Env) : Nat := leAt e.slot 0 1
def Env.flags (e : Env) : Nat := leAt e.slot 1 1
def Env.tag (e : Env) : Nat := leAt e.slot 2 2
/-- Reference slot S`i`, 1 to 7 (03 R60). -/
def Env.S (e : Env) (i : Nat) : Nat := leAt e.slot (4 * i) 4
/-- Word W`i`, 1 to 4 (03 R60). -/
def Env.W (e : Env) (i : Nat) : Nat := leAt e.slot (24 + 8 * i) 8

/-- `n` bytes at a global address. -/
def Env.bytes (e : Env) (a n : Nat) : Bytes := (List.range n).map (fun i => e.view (a + i))
/-- A little-endian number of `n` bytes at a global address. -/
def Env.le (e : Env) (a n : Nat) : Nat := leNat (e.bytes a n)

/-- The address of the object that a reference locates (03 R62). -/
def Env.obj (e : Env) (r : Nat) : Nat := e.descBase + 64 * r

/-- The free word of one draw (09 R221: one consumer per word): elements lie below 2^256, so no two stages share a word. -/
def Env.drawWord (e : Env) (stage elem : Nat) : Nat := e.s.free (2 ^ 256 * (stage + 1) + elem)
/-- A 16-bit random draw, by stage and element (02 R32, 09 R222: free). -/
def Env.draw16 (e : Env) (stage elem : Nat) : Nat := e.drawWord stage elem % 2 ^ 16

/-! ## Tensor descriptors (03 R64) -/

structure Desc where
  base : Nat
  dims : List Nat
  strides : List Nat
  scaleBase : Nat
  fmt : Nat
  rank : Nat
  axis : Nat
  layout : Nat
  tier : Nat
  reserved : Bool
  deriving DecidableEq, Repr

/-- The descriptor that 64 bytes spell. `dims` has five lengths, `strides` five strides with the element as stride 0. -/
def Desc.parse (b : Bytes) : Desc :=
  { base := leAt b 0 8
    dims := (List.range 5).map (fun i => leAt b (8 + 4 * i) 4)
    strides := 0 :: (List.range 4).map (fun i => leAt b (28 + 5 * i) 5)
    scaleBase := leAt b 48 8
    fmt := bits (leAt b 56 1) 0 4
    rank := bits (leAt b 56 1) 4 3
    axis := bits (leAt b 57 1) 0 3
    layout := bits (leAt b 57 1) 4 2
    tier := leAt b 58 1
    reserved := bit (leAt b 56 1) 7 || bit (leAt b 57 1) 3 || bits (leAt b 57 1) 6 2 != 0 ||
      bits (leAt b 58 1) 4 4 != 0 || leAt b 59 5 != 0 }

/-- The descriptor that a reference locates. -/
def Env.desc (e : Env) (r : Nat) : Desc := Desc.parse (e.bytes (e.obj r) 64)

def Desc.dim (d : Desc) (i : Nat) : Nat := d.dims.getD i 0
def Desc.stride (d : Desc) (i : Nat) : Nat := d.strides.getD i 0
/-- The lengths of the tensor's own dimensions. -/
def Desc.shape (d : Desc) : List Nat := d.dims.take d.rank
def Desc.empty (d : Desc) : Bool := d.shape.any (fun n => n == 0)
def Desc.count (d : Desc) : Nat := d.shape.foldl (· * ·) 1
def Desc.narrow (d : Desc) : Bool := fmtNarrow d.fmt
def Desc.remote (d : Desc) : Bool := gRemote d.base

/-- Length of dimension `i`, padded where MX blocks run along it (02 R29). -/
def Desc.padDim (d : Desc) (i : Nat) : Nat :=
  if d.narrow && d.axis == i then roundUp (d.dim i) 32 else d.dim i

/-- Bytes of a line's elements (03, Lines and padding). -/
def Desc.lineElems (d : Desc) : Nat :=
  if d.narrow && d.axis != 0 then
    (if d.fmt == fFP4 then ceilDiv (d.dim 0) 2 else if d.fmt == fE2M3 || d.fmt == fE3M2 then ceilDiv (d.dim 0) 4 * 3
     else d.dim 0)
  else d.padDim 0 * fmtBits d.fmt / 8

/-- Bytes of a line with its lined scales (03 R65). -/
def Desc.lineSize (d : Desc) : Nat :=
  if d.layout == 1 then roundUp (d.lineElems + ceilDiv (d.dim 0) 32) 16 else d.lineElems

/-- Number of planar scale bytes (03 R65). -/
def Desc.scaleDims (d : Desc) : List Nat :=
  (List.range d.rank).map (fun i => if i == d.axis then ceilDiv (d.dim i) 32 else d.dim i)
def Desc.planar (d : Desc) : Bool := d.narrow && d.layout == 0
def Desc.scaleCount (d : Desc) : Nat := d.scaleDims.foldl (· * ·) 1

/-- All index lists of given lengths, dimension 0 fastest. -/
def indices : List Nat → List (List Nat)
  | [] => [[]]
  | n :: ns => (indices ns).flatMap (fun t => (List.range n).map (fun i => i :: t))

/-- The densely packed position of an index, dimension 0 fastest. -/
def linear : List Nat → List Nat → Nat
  | _, [] => 0
  | [], _ => 0
  | n :: ns, i :: is => i + n * linear ns is

/-- The outer indices of the lines, padding lines included, each as an index with dimension 0 at zero. -/
def Desc.lines (d : Desc) : List (List Nat) :=
  (indices ((List.range (d.rank - 1)).map (fun i => d.padDim (i + 1)))).map (fun t => 0 :: t)

/-- The address of the line that an index lies in. -/
def Desc.lineAddr (d : Desc) (ix : List Nat) : Nat :=
  d.base + total ((List.range (d.rank - 1)).map (fun i => ix.getD (i + 1) 0 * d.stride (i + 1)))

/-- An index inside the tensor, not in its padding. -/
def Desc.inside (d : Desc) (ix : List Nat) : Bool := (List.range d.rank).all (fun i => decide (ix.getD i 0 < d.dim i))

/-- The members of the MX block that holds an index: the block axis positions inside the tensor. -/
def Desc.blockOf (d : Desc) (ix : List Nat) : List (List Nat) :=
  let b := ix.getD d.axis 0 / 32
  ((List.range 32).map (fun j => ix.set d.axis (32 * b + j))).filter (fun j => d.inside j)

/-- The stored bits of an element. -/
def Env.elemBits (e : Env) (d : Desc) (ix : List Nat) : Nat :=
  let w := fmtBits d.fmt
  let p := ix.getD 0 0 * w
  let a := d.lineAddr ix + p / 8
  e.le a (ceilDiv (p % 8 + w) 8) / 2 ^ (p % 8) % 2 ^ w

/-- The address of an element's scale byte (03 R65). -/
def Desc.scaleAddr (d : Desc) (ix : List Nat) : Nat :=
  if d.layout == 1 then d.lineAddr ix + d.lineElems + ix.getD 0 0 / 32
  else d.scaleBase + linear d.scaleDims
    ((List.range d.rank).map (fun i => if i == d.axis then ix.getD i 0 / 32 else ix.getD i 0))

def Env.scaleByte (e : Env) (d : Desc) (ix : List Nat) : Nat := if d.narrow then e.le (d.scaleAddr ix) 1 else 0x7F

/-- The value of an element: its element value times its block's scale; padding reads as zero (02 R28, R29). -/
def Env.value (e : Env) (d : Desc) (ix : List Nat) : Num :=
  if d.inside ix then
    let v := decodeElem d.fmt (e.elemBits d ix)
    if d.narrow then scaled v (e.scaleByte d ix) else v
  else Num.zero

/-- The value of an integer element. -/
def Env.uint (e : Env) (d : Desc) (ix : List Nat) : Nat := e.elemBits d ix

/-- An element the instruction reads is a NaN, an infinity, or has the scale 0xFF. -/
def Env.nonFinite (e : Env) (d : Desc) (ix : List Nat) : Bool :=
  d.inside ix && (!(e.value d ix).isFin || (d.narrow && e.scaleByte d ix == 0xFF))

/-! ## Extents (03 R80) -/

/-- The byte runs of a tensor: its lines with lined scales, and its planar scales. A zero length has an empty extent. -/
def Desc.extent (d : Desc) : List (Nat × Nat) :=
  if d.empty then []
  else d.lines.map (fun ix => (d.lineAddr ix, d.lineSize)) ++
    (if d.planar then [(d.scaleBase, d.scaleCount)] else [])

/-- Two extents share a byte. -/
def extentsMeet (l m : List (Nat × Nat)) : Bool := l.any (fun x => m.any (fun y => runsMeet x y))

/-- The home of a global address, past any local copy of it (10 R262 Home): bit 64 set. -/
def homeOf (g : Nat) : Nat := 2 ^ 64 + g

/-- A run of global addresses with this module's own node id turned into its local form (10 R246). -/
def State.homeRun (s : State) (x : Nat × Nat) : Nat × Nat :=
  let g := x.1 % 2 ^ 64
  if s.gHere g then (gAddr g, x.2) else (g, x.2)
def State.homeRuns (s : State) (l : List (Nat × Nat)) : List (Nat × Nat) := l.map s.homeRun

/-! ## Staging areas (13 R341) -/

/-- The staging cell of a block: its active cell with the highest id. -/
def State.stagingCell (s : State) (block : Nat) : Option Nat :=
  ((List.range 8).reverse.map (fun i => 8 * block + i)).find? (fun c => !(s.cell c).fenced)

/-- The staging areas, as byte runs. -/
def State.stagingAreas (s : State) : List (Nat × Nat) :=
  (List.range 32).filterMap (fun b => (s.stagingCell b).map (fun c => (0x8000000000 + 0x200000 * c + 0x160000, 0x20000)))

/-! ## Descriptor checks (03 R66) -/

/-- The window that every local byte from `a` to `b` inclusive lies in, as a tensor may use it, staging areas aside: 0 where there is
none. -/
def State.useWindow (s : State) (out : Bool) (a b : Nat) : Nat :=
  let w := s.mem.window a
  if w == s.mem.window b && (if out then windowWritable w else windowReadable w) then w else 0

/-- The window that a run of local bytes from `a` to `b` inclusive may be used in: 0 where there is none, or where the run touches a
staging area. -/
def State.tensorWindow (s : State) (out : Bool) (a b : Nat) : Nat :=
  if s.stagingAreas.any (fun r => runsMeet r (a, b - a + 1)) then 0 else s.useWindow out a b

/-- The extent check of R66 on a hull of bytes from a global address `g`; `n` 0 tests only the address. -/
def State.hullOk (s : State) (out : Bool) (g n : Nat) : Bool :=
  if s.gHere g then
    bits g 40 8 == 0 && s.tensorWindow out (gAddr g) (gAddr g + (n - 1)) != 0
  else bits g 40 8 == 0

/-- The same on the hull of a strided tensor, whose lines may lie on both sides of a staging area. -/
def State.windowOk (s : State) (out : Bool) (g n : Nat) : Bool :=
  if s.gHere g then bits g 40 8 == 0 && s.useWindow out (gAddr g) (gAddr g + (n - 1)) != 0 else bits g 40 8 == 0

/-- A run of global addresses touches a staging area of this module. -/
def State.inStaging (s : State) (x : Nat × Nat) : Bool :=
  s.gHere x.1 && s.stagingAreas.any (fun r => runsMeet r (gAddr x.1, x.2))

/-- Bytes from a tensor's Base to the end of its last line. -/
def Desc.hull (d : Desc) : Nat :=
  total ((List.range (d.rank - 1)).map (fun i => (d.padDim (i + 1) - 1) * d.stride (i + 1))) + d.lineSize

/-- An output's strides nest (03 R66, rule 7). -/
def Desc.nested (d : Desc) : Bool :=
  (List.range (d.rank - 1)).all (fun i =>
    let k := i + 1
    d.stride k != 0 &&
      (if k == 1 then decide (d.lineSize ≤ d.stride 1) else decide (d.stride (k - 1) * d.padDim (k - 1) ≤ d.stride k)))

/-- The runs that the extent check of R66 looks at: elements, and planar scales; of an empty tensor its Base and ScaleBase. -/
def Desc.hulls (d : Desc) : List (Nat × Nat) :=
  (d.base, if d.empty then 1 else d.hull) :: (if d.planar then [(d.scaleBase, if d.empty then 1 else d.scaleCount)] else [])

/-- Elements and planar scales each lie in one window that the tensor may use, staging areas aside (03 R66, rule 8). -/
def State.tensorOk (s : State) (out : Bool) (d : Desc) : Bool := d.hulls.all (fun x => s.windowOk out x.1 x.2)

/-- A byte of a tensor's lines or of its planar scales lies in a staging area (03 R66). -/
def State.touchesStaging (s : State) (d : Desc) : Bool :=
  d.hulls.any s.inStaging && (d.empty || d.extent.any s.inStaging)

/-- The checks of R66 in their order: 0 or the code of the first rule broken. -/
def State.checkDesc (s : State) (out : Bool) (d : Desc) : Nat :=
  let es := if d.fmt == fU8 then 1 else if fmtBits d.fmt == 32 then 4 else if fmtBits d.fmt == 16 then 2 else 1
  if d.reserved then 0x0102
  else if !fmtKnown d.fmt then 0x0110
  else if d.rank == 0 || decide (5 < d.rank) || decide (d.rank ≤ d.axis) ||
      (List.range 5).any (fun i => decide (d.rank ≤ i) && (d.dim i != 0 || d.stride i != 0)) then 0x0108
  else if decide (2 ≤ d.layout) then 0x010B
  else if d.narrow && d.layout == 0 && d.scaleBase == 0 then 0x010B
  else if d.layout == 1 && (!d.narrow || d.axis != 0 || d.scaleBase != 0 ||
      (decide (2 ≤ d.rank) && decide (d.stride 1 < d.lineSize) && (out || d.stride 1 != 0))) then 0x010B
  else if !d.narrow && d.scaleBase != 0 then 0x010B
  else if bit d.tier 0 && bit d.tier 1 then 0x010C
  else if d.base % es != 0 || d.strides.any (fun x => x % es != 0) then 0x010D
  else if out && !d.nested then 0x0109
  else if !s.tensorOk out d || s.touchesStaging d then 0x010A
  else 0

/-! ## References (03 R63, R579) -/

/-- How an opcode uses a reference: a tensor it reads, a tensor it writes, a header, manifest or job block that it is checked
by, or an object that is operand data, with `extra` bytes behind its first 64. -/
inductive RefKind where
  | tin
  | tout
  | hdr (extra : Nat)
  | obj (extra : Nat)
  deriving DecidableEq, Repr

/-- A reference of an instruction, with whether its opcode always requires it. -/
structure Ref where
  val : Nat
  required : Bool
  kind : RefKind
  deriving DecidableEq, Repr

/-- An object of `n` bytes at a local address lies wholly in the GDDR protected window (03 R63). -/
def State.inGddr (s : State) (a n : Nat) : Bool := decide (a + n ≤ s.mem.windowBytes)

/-- Step 4 of R86 on one reference. -/
def Env.checkRef (e : Env) (r : Ref) : Nat :=
  if r.val == 0 then (if r.required then 0x0103 else 0)
  else
    let extra := match r.kind with
      | .obj n => n
      | .hdr n => n
      | _ => 0
    if e.s.inGddr (e.obj r.val) (64 + extra) then 0 else 0x0103

/-- The uncorrectable units of the object that a reference locates, where the checks read it. -/
def Env.refBad (e : Env) (r : Ref) : List Nat :=
  if r.val == 0 then []
  else
    match r.kind with
    | .obj _ => []
    | .hdr n => e.s.mem.poisonIn (e.obj r.val) (64 + n)
    | _ => e.s.mem.poisonIn (e.obj r.val) 64

/-- The uncorrectable units of the 64 bytes at some references, absent ones left out. -/
def Env.objsBad (e : Env) (l : List Nat) : List Nat := (l.filter (fun r => r != 0)).flatMap (fun r => e.s.mem.poisonIn (e.obj r) 64)

/-- An uncorrectable error in an object that a reference locates (03 R92, 0x0301). -/
def Env.refUnreadable (e : Env) (r : Ref) : Bool := e.refBad r != []

/-- Step 5 of R86 on one reference. -/
def Env.checkRefDesc (e : Env) (r : Ref) : Nat :=
  if r.val == 0 then 0
  else
    match r.kind with
    | .tin => e.s.checkDesc false (e.desc r.val)
    | .tout => e.s.checkDesc true (e.desc r.val)
    | _ => 0

/-- The first code of a list of checks that is not zero (03 R93: the first check that fails). -/
def firstCode : List Nat → Nat
  | [] => 0
  | c :: l => if c == 0 then firstCode l else c

/-- A check: its code where it is broken. -/
def rule (broken : Bool) (code : Nat) : Nat := if broken then code else 0

/-! ## Writing tensors -/

/-- Elements of `w` bits each, element 0 lowest, as bytes (02 R26). -/
def packElems (w : Nat) (l : List Nat) : Bytes :=
  leBytes (ceilDiv (l.length * w) 8) (l.foldr (fun x acc => x + 2 ^ w * acc) 0)

/-- Runs of the bytes that are given, from an address on. -/
def segments (a : Nat) : List (Option Byte) → List (Nat × Bytes)
  | [] => []
  | none :: l => segments (a + 1) l
  | some v :: l =>
    match segments (a + 1) l with
    | [] => [(a, [v])]
    | (b, bs) :: r => if b == a + 1 then (a, v :: bs) :: r else (a, [v]) :: (b, bs) :: r

/-- An element of a line is written: one inside the tensor where `on` says so, a padding element with its block, and what
pads a line's storage with the line's last element. -/
def Desc.live (d : Desc) (on : List Nat → Bool) (ix : List Nat) : Bool :=
  let jx := if d.narrow && d.axis == 0 then ix else ix.set 0 (min (ix.getD 0 0) (d.dim 0 - 1))
  if d.inside jx then on jx else (d.blockOf jx).any on

/-- The writes of a tensor: `code` gives each element's bits and `sc` each block's scale byte, for indices inside the tensor;
none keeps what stands there. Padding elements, and the padding of lined lines, are written as zero with the block or line
that they pad. A byte that holds kept elements only is not written. -/
def Env.tensorWrites (e : Env) (d : Desc) (code : List Nat → Option Nat) (sc : List Nat → Option Nat) :
    List (Nat × Bytes) :=
  if d.empty then []
  else
    let w := fmtBits d.fmt
    let n := d.lineElems * 8 / w
    let line := fun ix : List Nat =>
      let es := (List.range n).map (fun i => i :: ix.drop 1)
      let lives := es.map (d.live (fun j => (code j).isSome))
      let elems := fit d.lineElems (packElems w (es.map (fun j =>
        if d.inside j then (match code j with
          | some v => v
          | none => e.elemBits d j) else 0)))
      let tail : List (Option Byte) :=
        if d.layout == 1 then
          (List.range (d.lineSize - d.lineElems)).map (fun b =>
            if b < ceilDiv (d.dim 0) 32 then (sc (32 * b :: ix.drop 1)).map (BitVec.ofNat 8)
            else if lives.any id then some 0 else none)
        else []
      segments (d.lineAddr ix) (elems.zipIdx.map (fun (v, j) =>
        if (List.range (ceilDiv (8 * j % w + 8) w)).any (fun i => lives.getD (8 * j / w + i) false) then some v
        else none) ++ tail)
    d.lines.flatMap line ++
      (if d.planar then
        (indices d.scaleDims).filterMap (fun j =>
          let ix := (List.range d.rank).map (fun i => if i == d.axis then 32 * j.getD i 0 else j.getD i 0)
          (sc ix).map (fun v => (d.scaleAddr ix, [BitVec.ofNat 8 v])))
      else [])

/-! ## Dealing (04 R108, R109) -/

/-- The grid of R108: rows and columns, from the task rows and columns and the number of active cells. -/
def gridOf (gridCols pr pc c : Nat) : Nat × Nat :=
  if gridCols == 0 then
    (if c ≤ pr then (c, 1) else (pr, min pc (c / max 1 pr)))
  else
    let gn := min gridCols (min pc c)
    (min pr (c / max 1 gn), gn)

/-- The tasks of a grid of `pr` task rows and `pc` task columns, each as (pane, slice, grid column, cell); `s` slices make
`s` task columns of one pane column (04 R109). -/
def dealGrid (gridCols pr pc s : Nat) (cells : List Nat) : List (Nat × Nat × Nat × Nat) :=
  let (gm, gn) := gridOf gridCols pr pc cells.length
  (List.range pr).flatMap (fun r => (List.range pc).map (fun c =>
    (r * (pc / s) + c / s, c % s, c % gn, cells.getD ((r % gm) * gn + c % gn) 0)))

/-- The tasks of `n` panes in one task column (06 R151, 07 R189). -/
def dealRows (n : Nat) (cells : List Nat) : List (Nat × Nat × Nat × Nat) := dealGrid 0 n 1 1 cells

/-- The active cells that run this instruction. -/
def Env.cells (e : Env) : List Nat := e.s.activeCells e.part

/-! ## What an instruction leaves behind -/

/-- The outcome of an instruction's work: bytes for memory in order, notes, the first failure, HighestRung, Detail, counters
of what it completes, the tile tasks it is cut into (pane, slice, grid column, cell), the runs it reads (none: its input
extents), counters of what happens whatever it ends with, the sheets that it leaves in weight caches, bytes written as it
begins, the stochastic draws of each pane, bytes written only without a failure, and whether it draws from the cells'
generators. -/
structure OpOut where
  writes : List (Nat × Bytes) := []
  notes : List Nat := []
  fail : Nat := 0
  failKeeps : Bool := false
  rung : Nat := 0
  detail : Nat := 0
  counts : List (Nat × Nat) := []
  tasks : List (Nat × Nat × Nat × Nat) := []
  reads : Option (List (Nat × Nat)) := none
  events : List (Nat × Nat) := []
  sheets : Option (List SheetSet) := none
  begins : List (Nat × Bytes) := []
  paneDraws : KV := []
  endWrites : List (Nat × Bytes) := []
  draws : Bool := false
  deriving DecidableEq, Repr

/-- Zero lengths: success, and nothing read or written (03, Zero and absent values). -/
def OpOut.idle : OpOut := { reads := some [] }

/-- Telemetry key and amount. -/
def tick (idx sub n : Nat) : Nat × Nat := (dkey idx sub, n)

/-- The checks and the work of an opcode. `dash` are the slots (1 to 7) and words (11 to 14) that must be zero, `early` the
control word read at step 3, `refs` every reference in order, `rules` the opcode's own rules, `ins` and `outs` its extents,
`run` its work, `more` the unreadable units of objects that its objects name, `gate` places that its checks
look at, for which it waits before them, `guide` what it must have read to know
what else it reads, `fetch` what it brings from other nodes, `idle` that a zero length leaves it nothing to do, `paced` the remote transfers of each
of some stream engines, of which only a few may be outstanding. -/
structure Op where
  dash : Env → List Nat
  early : Env → Nat := fun _ => 0
  refs : Env → List Ref
  rules : Env → Nat
  ins : Env → List (Nat × Nat)
  outs : Env → List (Nat × Nat)
  run : Env → OpOut
  more : Env → List Nat := fun _ => []
  gate : Env → List (Nat × Nat) := fun _ => []
  guide : Env → List (Nat × Nat) := fun _ => []
  fetch : Env → List (Nat × Nat) := ins
  idle : Env → Bool := fun _ => false
  paced : Env → Nat → List (List (Nat × Nat)) := fun _ _ => []

/-- Steps 3 to 6 of R86 (03 R86, R579). An unreadable referenced object is found after every reference check of step 4 and
before every descriptor check of step 5, one that is named within such an object before the opcode's own rules (DESIGN CHOICE: the
lists of R86 do not place 0x0301). -/
def Op.check (o : Op) (e : Env) : Nat :=
  let rs := o.refs e
  firstCode ([rule ((o.dash e).any (fun i => if i < 10 then e.S i != 0 else e.W (i - 10) != 0)) 0x0102, o.early e] ++
    rs.map e.checkRef ++ [rule (rs.any e.refUnreadable) 0x0301] ++ rs.map e.checkRefDesc ++ [rule (o.more e != []) 0x0301, o.rules e])

/-- Extents of the tensors that references locate, absent ones left out. -/
def Env.tensors (e : Env) (l : List Nat) : List (Nat × Nat) :=
  l.flatMap (fun r => if r == 0 then [] else (e.desc r).extent)

end Sys2Proof.Machine
end

