-- ==== Sys2Proof/Machine/Flags.lean ====
section
/-! DEFINITION. Flags: what a status code says: its class, and the choice among the notes of a successful instruction (00 R9,
03 R93, R578). A block has no condition flags; its summary flags are in Events. -/

namespace Sys2Proof.Machine
open Sys2Proof

/-- The notes of the module, highest rank first. -/
def noteRanks : List Nat :=
  [0x0041, 0x0040, 0x0043, 0x0042, 0x0011, 0x0013, 0x0010, 0x0012, 0x0030, 0x0031, 0x0051, 0x0052, 0x0053, 0x0050, 0x0060,
   0x0061, 0x0071, 0x00C0, 0x00D0, 0x00D2, 0x00D5, 0x00D3, 0x00D1, 0x00B0, 0x0020, 0x0001]

/-- The highest-ranked of a list of notes, 0 where there is none. -/
def topNote (l : List Nat) : Nat := (noteRanks.find? (fun n => l.contains n)).getD 0

/-- A class 0x00 code (00 R9). -/
def isSuccess (code : Nat) : Bool := decide (code < 0x100)

/-- The status of an instruction (03 R93): a failure in place of every note. -/
def OpOut.status (o : OpOut) : Nat := if o.fail != 0 then o.fail else topNote o.notes

end Sys2Proof.Machine
end

