-- ==== Sys2Proof/Machine/Precision.lean ====
section
/-! DEFINITION. Precision: the precision word, block quantisation, carry planes, the widening ladder, shadow mode and the
choice among notes (02 R29 to R52, 03 R578). -/

namespace Sys2Proof.Machine
open Sys2Proof

/-! ## The precision word (02 R36) -/

structure Prec where
  w : Nat
  deriving DecidableEq, Repr

def Prec.startRung (p : Prec) : Nat := bits p.w 0 2
def Prec.topRung (p : Prec) : Nat := bits p.w 2 2
def Prec.roundMode (p : Prec) : Nat := bits p.w 6 2
def Prec.floorRule (p : Prec) : Bool := bit p.w 8
def Prec.carryEn (p : Prec) : Bool := bit p.w 9
def Prec.widenEn (p : Prec) : Bool := bit p.w 10
def Prec.shadowEn (p : Prec) : Bool := bit p.w 11
def Prec.reserved (p : Prec) : Bool := bits p.w 12 4 != 0
def Prec.satLimit (p : Prec) : Nat := bits p.w 16 16
def Prec.carryThreshold (p : Prec) : Nat := bits p.w 32 8
def Prec.shadowStride (p : Prec) : Nat := bits p.w 40 8
def Prec.pass (p : Prec) : Nat := bits p.w 48 16

/-- The element format of a rung (02 R36). -/
def Prec.rungFmt (p : Prec) (r : Nat) : Nat :=
  match r with
  | 0 => fFP4
  | 1 => if bit p.w 4 then fE3M2 else fE2M3
  | 2 => if bit p.w 5 then fE5M2 else fE4M3
  | _ => fBF16

def Env.prec (e : Env) : Prec := ⟨e.W 1⟩

/-- A conversion to a narrower format (02 R31): the target cannot hold every element value of the source. DEDUCED: between two
formats neither of which holds the other, a conversion that can round counts as narrowing (log entry 41). -/
def fmtNarrows (src dst : Nat) : Bool :=
  let (_, ms, bs) := fmtShape src
  let (_, md, bd) := fmtShape dst
  src != dst && (decide (md < ms) || Num.lt (fmtMax dst) (fmtMax src) || decide (bd + md < bs + ms))

/-- The rounding mode of a conversion: the word's for a narrower target, otherwise RNE (02 R31). RNE then changes nothing, but
for a narrow operand's value that the BF16 rung cannot hold, its scale being extreme: that value is rounded by RNE whatever
RoundMode (DESIGN CHOICE: R31 gives the mode to conversions to a narrower format, and names no mode for others). -/
def Prec.convMode (p : Prec) (src dst : Nat) : Nat := if fmtNarrows src dst then p.roundMode else 0

/-- The format that the ladder operand is quantised from: FP32 once c_old is added (02 R39). -/
def Prec.ladFmt (p : Prec) (fmt : Nat) : Nat := if p.carryEn then 0 else fmt

/-- The rounding of one element: stage and element choose the draw (02 R31, R32). -/
def Env.round (e : Env) (mode stage elem : Nat) : Round :=
  if mode == 1 then .zero else if mode == 2 then .stochastic (e.draw16 stage elem) else .rne

/-- Conditions 3 to 8 that the precision set of an opcode checks first (02 R31, R37, 03 R580 items 2 to 4). -/
def Env.checkPrec (e : Env) : List Nat :=
  let p := e.prec
  [rule (p.roundMode == 3) 0x0111,
   rule (p.startRung > p.topRung) 0x0112,
   rule ((p.carryEn && e.S 5 == 0) || (p.shadowEn && (e.S 6 == 0 || e.S 7 == 0))) 0x0114]

/-- The shadow tensor matches the output (02 R37). -/
def Env.checkShadow (e : Env) (d : Desc) : Nat :=
  if e.prec.shadowEn then
    let h := e.desc (e.S 6)
    rule (h.rank != d.rank || h.dims != d.dims || h.fmt != d.fmt || h.axis != d.axis) 0x0116
  else 0

/-! ## Blocks -/

/-- A quantised block: element values with their scale applied, the elements' own values, the scale exponent (none: the
scale byte 0xFF) and the number of saturations. -/
structure QBlock where
  q : List Num
  elem : List Num
  k : Option Int
  sats : Nat
  deriving DecidableEq, Repr

/-- Quantise one block to a narrow format (02 R30 to R33). `rnd` gives each element's rounding. -/
def quantBlock (f : Nat) (floorRule : Bool) (rnd : Nat → Round) (l : List Num) : QBlock :=
  if blockPoisoned f l then ⟨l.map (fun _ => .nan), l.map (fun _ => Num.zero), none, 0⟩
  else
    let k := blockExp floorRule f l
    let rs := (l.zipIdx).map (fun (x, i) => toNarrow f (rnd i) (x.scale (-k)))
    ⟨rs.map (fun r => r.1.scale k), rs.map (fun r => r.1), some k, (rs.filter (fun r => r.2)).length⟩

/-- Convert one block to the element format of a rung: BF16 element by element, otherwise an MX block (02 R37). -/
def rungBlock (f : Nat) (floorRule : Bool) (rnd : Nat → Round) (l : List Num) : QBlock :=
  if f == fBF16 then
    let q := (l.zipIdx).map (fun (x, i) => toBf16 (rnd i) x)
    ⟨q, q, some 0, 0⟩
  else quantBlock f floorRule rnd l

/-- The scale byte of a block. -/
def QBlock.scaleByte (b : QBlock) : Nat :=
  match b.k with
  | none => 0xFF
  | some k => (k + 127).toNat

/-- A value converted to an output format that has no block scale (02 R33). -/
def plainCode (f : Nat) (rnd : Round) (x : Num) : Nat :=
  if f == fBF16 then encodeFloat f (toBf16 rnd x) else encodeFloat f (round32 x)

/-! ## Output tensors -/

/-- How a written element is obtained: values over the whole tensor, floor or fitted rule, rounding mode, draw stage. -/
structure OutConv where
  val : List Nat → Num
  floorRule : Bool
  mode : Nat
  stage : Nat

/-- The quantised block of an output element. -/
def Env.outBlock (e : Env) (d : Desc) (c : OutConv) (ix : List Nat) : QBlock :=
  let l := d.blockOf ix
  quantBlock d.fmt c.floorRule (fun i => e.round c.mode c.stage (linear d.dims (l.getD i []))) (l.map c.val)

/-- The bits of an output element. -/
def Env.outCode (e : Env) (d : Desc) (c : OutConv) (ix : List Nat) : Nat :=
  if d.narrow then encodeFloat d.fmt ((e.outBlock d c ix).elem.getD (ix.getD d.axis 0 % 32) Num.zero)
  else plainCode d.fmt (e.round c.mode c.stage (linear d.dims ix)) (c.val ix)

/-- The scale byte of an output block. -/
def Env.outScale (e : Env) (d : Desc) (c : OutConv) (ix : List Nat) : Nat := (e.outBlock d c ix).scaleByte

/-- The value that an output element holds once written. -/
def Env.outValue (e : Env) (d : Desc) (c : OutConv) (ix : List Nat) : Num :=
  let x := decodeFloat d.fmt (e.outCode d c ix)
  if d.narrow then scaled x (e.outScale d c ix) else x

/-- An output element saturated (02 R33). -/
def Env.outSat (e : Env) (d : Desc) (c : OutConv) (ix : List Nat) : Bool :=
  d.narrow && (let b := e.outBlock d c ix
    match b.k with
    | none => false
    | some k => match (c.val ix).scale (-k) with
      | .fin _ m x => Num.lt (fmtMax d.fmt) (.fin false m x)
      | _ => false)

/-- Write a whole tensor of converted values. -/
def Env.writeTensor (e : Env) (d : Desc) (c : OutConv) : List (Nat × Bytes) :=
  e.tensorWrites d (fun ix => some (e.outCode d c ix)) (fun ix => some (e.outScale d c ix))

/-- Write a whole tensor of integers. -/
def Env.writeInts (e : Env) (d : Desc) (v : List Nat → Option Nat) : List (Nat × Bytes) :=
  e.tensorWrites d v (fun _ => none)

/-! ## Carry planes (02 R38 to R42) -/

structure Carry where
  addr : Nat
  dims : List Nat
  axis : Nat
  usable : Bool
  deriving DecidableEq, Repr

def Env.carryState (e : Env) : Nat := bits (e.le (e.obj (e.S 5)) 8) 48 2
def Env.carryPass (e : Env) : Nat := bits (e.le (e.obj (e.S 5)) 8) 32 16
def Env.carryCount (e : Env) : Nat := e.le (e.obj (e.S 5) + 8) 8
def Env.carryReserved (e : Env) : Bool :=
  bits (e.le (e.obj (e.S 5)) 8) 50 14 != 0 || e.le (e.obj (e.S 5) + 16) 48 != 0

/-- The lengths of a plane: the ladder operand's, its block axis padded (02 R38). -/
def padAxis (dims : List Nat) (axis : Nat) : List Nat :=
  dims.zipIdx.map (fun (n, i) => if i == axis then roundUp n 32 else n)

/-- Bytes behind the header of a carry plane for a ladder operand of these lengths (02 R38). -/
def carryBytes (dims : List Nat) (axis : Nat) : Nat :=
  let n := (padAxis dims axis).foldl (· * ·) 1
  roundUp n 64 + n / 32

/-- A carry is usable when Valid and one pass old, as the instruction's work begins (02 R40). -/
def Env.carryUsable (e : Env) : Bool :=
  match e.carryThen with
  | some c => c.1
  | none => e.carryState == 1 && e.carryPass == (e.prec.pass + 2 ^ 16 - 1) % 2 ^ 16

/-- The carry plane of this instruction for its ladder operand. -/
def Env.carry (e : Env) (dims : List Nat) (axis : Nat) : Carry := ⟨e.obj (e.S 5), dims, axis, e.carryUsable⟩

/-- The carry is discarded (02 R40). -/
def Env.carryGone (e : Env) : Bool :=
  match e.carryThen with
  | some c => c.2
  | none => e.carryState != 0 && !e.carryUsable

/-- The same, of the plane that an instruction uses. -/
def Env.carryDiscarded (e : Env) (_ : Carry) : Bool := e.carryGone

def Carry.elemAddr (c : Carry) (ix : List Nat) : Nat := c.addr + 64 + linear (padAxis c.dims c.axis) ix
def Carry.scaleAddr (c : Carry) (ix : List Nat) : Nat :=
  let p := padAxis c.dims c.axis
  c.addr + 64 + roundUp (p.foldl (· * ·) 1) 64 +
    linear (p.zipIdx.map (fun (n, i) => if i == c.axis then n / 32 else n))
      (ix.zipIdx.map (fun (n, i) => if i == c.axis then n / 32 else n))

/-- c_old of an element: −0 where the plane is not usable (02 R39 step 1). -/
def Env.cOld (e : Env) (c : Carry) (ix : List Nat) : Num :=
  if c.usable then scaled (decodeFloat fE4M3 (e.le (c.elemAddr ix) 1)) (e.le (c.scaleAddr ix) 1) else Num.negZero

/-- v of an element (02 R39 step 2). -/
def Env.carried (e : Env) (c : Option Carry) (ix : List Nat) (x : Num) : Num :=
  match c with
  | some c => if c.usable then fadd x (e.cOld c ix) else x
  | none => x

/-- Steps 3 to 5 of R39 on one block: the residual encoded, as elements and scale byte (02 R39). -/
def residual (v : List Num) (b : QBlock) : List Nat × Nat :=
  let r := (v.zip b.q).map (fun (x, y) => round32 (x.sub y))
  let c := quantBlock fE4M3 false (fun _ => .rne) r
  (c.elem.map (encodeFloat fE4M3), c.scaleByte)

/-- The writes of one block's carry, its 32 elements with zero padding along the block axis, and its scale byte. -/
def Carry.blockWrites (c : Carry) (blk : List (List Nat)) (first : List Nat) (codes : List Nat) (sc : Nat) :
    List (Nat × Bytes) :=
  (blk.zip codes).map (fun (ix, v) => (c.elemAddr ix, [BitVec.ofNat 8 v])) ++
    (List.range (32 - blk.length)).map (fun j =>
      (c.elemAddr (first.set c.axis (first.getD c.axis 0 + blk.length + j)), [(0 : Byte)])) ++
    [(c.scaleAddr first, [BitVec.ofNat 8 sc])]

/-- The carry header with a State and this instruction's pass (02 R39 steps 1 and 7). -/
def Env.carryHeader (e : Env) (state : Nat) : List (Nat × Bytes) :=
  [(e.obj (e.S 5) + 4, leBytes 2 e.prec.pass), (e.obj (e.S 5) + 6, [BitVec.ofNat 8 state])]

/-- The carry plane's checks (02 R37, R38). -/
def Env.checkCarryReserved (e : Env) : Nat := if e.prec.carryEn && e.S 5 != 0 then rule e.carryReserved 0x0102 else 0
def Env.checkCarry (e : Env) (count : Nat) : Nat :=
  if e.prec.carryEn then rule (e.carryCount != count) 0x0113 else 0

/-! ## The ladder (02 R43 to R47) -/

/-- What one attempt of a pane shows: saturations, a non-finite value that its inputs do not explain, a carry above the
threshold. -/
structure Attempt where
  sats : Nat
  nonFinite : Bool
  carry : Bool
  deriving DecidableEq, Repr

/-- A pane computed at a rung is in trouble (02 R43). -/
def Prec.trouble (p : Prec) (a : Attempt) : Bool :=
  (p.satLimit != 0xFFFF && decide (p.satLimit < a.sats)) || a.nonFinite || a.carry

/-- The rung a pane ends on (02 R44), by fuel. -/
def Prec.climb (p : Prec) (at_ : Nat → Attempt) : Nat → Nat → Nat
  | 0, r => r
  | f + 1, r => if p.widenEn && decide (r < p.topRung) && p.trouble (at_ r) then p.climb at_ f (r + 1) else r

/-- u of a block at StartRung (02 R43): 2^k × 2^(emax − m). -/
def Prec.unit (p : Prec) (k : Int) : Num :=
  let f := p.rungFmt p.startRung
  .fin false 1 (k + (fmtEmax f : Int) - ((fmtShape f).2.1 : Int))

/-- The carry signal of one block (02 R43): max |c_old| over its values that are not NaN. A block whose scale byte is 0xFF has
no k, and raises no signal (DESIGN CHOICE: R43 gives no u for it). -/
def Prec.carrySignal (p : Prec) (k : Option Int) (cs : List Num) : Bool :=
  p.carryThreshold != 0 && (match k with
    | none => false
    | some k => Num.lt ((p.unit k).mul (.fin false p.carryThreshold (-4))) (amaxOf cs))

/-- The sampled panes of shadow mode (02 R36 ShadowStride). -/
def Prec.sampled (p : Prec) (pane : Nat) : Bool := p.shadowEn && pane % (p.shadowStride + 1) == 0

/-- What the ladder of an instruction shows, pane by pane: the rung reached and the attempts made. -/
structure PaneRun where
  pane : Nat
  judged : Bool
  final : Nat
  attempts : List Attempt
  deriving DecidableEq, Repr

/-- Run the ladder of one pane (02 R44). -/
def Prec.runPane (p : Prec) (pane : Nat) (judged : Bool) (at_ : Nat → Attempt) : PaneRun :=
  if judged then
    let f := p.climb at_ 3 p.startRung
    ⟨pane, true, f, (List.range (f - p.startRung + 1)).map (fun i => at_ (p.startRung + i))⟩
  else ⟨pane, false, p.startRung, []⟩

/-- One differing pair of shadow mode (02 R49): |narrow − shadow| where both are finite. -/
structure Diff where
  differs : Bool
  absDiff : Option Num
  deriving DecidableEq, Repr

def diffOf (x y : Num) : Diff :=
  ⟨!(Num.eqv x y) && !(x.isNan && y.isNan),
   if x.isFin && y.isFin then some (fsub x y).abs else none⟩

/-- The largest finite difference and its pane, none where no pair is finite (02 R49): of equal pairs, the lowest pane. -/
def maxDiff (ps : List (Nat × List Diff)) : Option (Num × Nat) :=
  ps.foldl (fun acc x => x.2.foldl (fun acc d =>
    match d.absDiff, acc with
    | none, _ => acc
    | some v, none => some (v, x.1)
    | some v, some b => if Num.lt b.1 v || (Num.eqv b.1 v && decide (x.1 < b.2)) then some (v, x.1) else acc) acc) none

/-- The 32-byte shadow summary (02 R49) from the sampled panes' pairs. DESIGN CHOICE (R49 does not say): where no pair is
finite, MaxAbsDiff is 0 and MaxDiffPane the first sampled pane; a differing pair of two non-finite values counts in
NonFiniteDiffs too. -/
def shadowSummary (ps : List (Nat × List Diff)) : Bytes :=
  let all := ps.flatMap (fun x => x.2)
  let best := (maxDiff ps).getD (Num.zero, match ps with
    | [] => 0
    | x :: _ => x.1)
  leBytes 8 ps.length ++ leBytes 8 (all.filter (fun d => d.differs)).length ++ leBytes 4 (bits32 best.1) ++
    leBytes 4 best.2 ++ leBytes 4 (all.filter (fun d => d.differs && d.absDiff.isNone)).length ++ leBytes 4 0

/-- Notes, failure, rung, detail and counters of an instruction with a precision word (02 R47, R50, R51, 03 R88).
`diffs` are the sampled panes' pairs. -/
def ladderOut (p : Prec) (runs : List PaneRun) (discarded : Bool) (diffs : List (Nat × List Diff)) : OpOut :=
  let judged := runs.filter (fun r => r.judged)
  let last (r : PaneRun) : Attempt := r.attempts.getLastD ⟨0, false, false⟩
  let repeated := (judged.filter (fun r => p.startRung < r.final)).length
  let bad := judged.filter (fun r => (last r).nonFinite)
  let left := judged.filter (fun r => p.trouble (last r))
  let differ := (diffs.filter (fun x => x.2.any (fun d => d.differs))).length
  let climbs (k : Nat) := (judged.filter (fun r => p.startRung < k ∧ k ≤ r.final)).length
  let notes := (if left.any (fun r => p.trouble { last r with nonFinite := false }) then [0x0011] else []) ++
      (if differ != 0 then [0x0013] else []) ++ (if repeated != 0 then [0x0010] else []) ++
      (if discarded then [0x0012] else [])
  { notes := notes
    fail := if bad == [] then 0 else 0x0311
    failKeeps := true
    rung := judged.foldl (fun a r => max a r.final) 0
    detail := match bad with
      | r :: _ => r.pane
      | [] => if topNote notes == 0x0010 then repeated else 0
    counts := [tick 0x3140 1 runs.length, tick 0x3140 2 (climbs 1), tick 0x3140 3 (climbs 2), tick 0x3140 4 (climbs 3),
      tick 0x3140 5 left.length,
      tick 0x3140 6 (total (judged.map (fun r => total (r.attempts.map (fun a => a.sats))))),
      tick 0x3140 8 diffs.length, tick 0x3140 9 differ]
    events := [tick 0x3140 7 (if discarded then 1 else 0)] }

/-! ## QNT (02 R581) -/

/-- The logical lines of QNT in walking order, padding lines included, as indices with dimension 0 at zero. -/
def qntLines (d : Desc) : List (List Nat) :=
  if d.axis == 0 then (indices (d.shape.drop 1)).map (fun t => 0 :: t)
  else
    -- most significant first: outer dimensions, block, inner dimensions, position in the block
    let blocks := ceilDiv (d.dim d.axis) 32
    let outer := indices ((List.range d.rank).map (fun i => if i ≤ d.axis then 1 else d.dim i))
    let inner := indices ((List.range d.rank).map (fun i => if i == 0 || d.axis ≤ i then 1 else d.dim i))
    outer.flatMap (fun o => (List.range blocks).flatMap (fun b => inner.flatMap (fun n => (List.range 32).map (fun j =>
      (List.range d.rank).map (fun i => if i == d.axis then 32 * b + j else o.getD i 0 + n.getD i 0)))))

/-- The pane of a line of QNT: its position in walking order over 128. -/
def qntPanes (d : Desc) : List (List (List Nat)) := chunks 128 (qntLines d)

/-- The blocks of the ladder operand that a set of lines holds, each by its first index. -/
def blocksOf (d : Desc) (ls : List (List Nat)) : List (List Nat) :=
  if d.axis == 0 then
    ls.flatMap (fun l => (List.range (ceilDiv (d.dim 0) 32)).map (fun b => (32 * b) :: l.drop 1))
  else
    (ls.filter (fun l => l.getD d.axis 0 % 32 == 0)).flatMap (fun l => (List.range (d.dim 0)).map (fun i => i :: l.drop 1))

def Env.qntCarry (e : Env) : Option Carry :=
  if e.prec.carryEn then some (e.carry (e.desc (e.S 1)).shape (e.desc (e.S 1)).axis) else none

/-- v over the block that holds an index. -/
def Env.qntV (e : Env) (blk : List (List Nat)) : List Num :=
  blk.map (fun ix => e.carried e.qntCarry ix (e.value (e.desc (e.S 1)) ix))

/-- The quantised block at StartRung. -/
def Env.qntBlock (e : Env) (ix : List Nat) : QBlock :=
  let d := e.desc (e.S 1)
  let blk := d.blockOf ix
  let p := e.prec
  rungBlock (p.rungFmt p.startRung) p.floorRule
    (fun i => e.round (p.convMode (p.ladFmt d.fmt) (p.rungFmt p.startRung)) 1 (linear d.dims (blk.getD i []))) (e.qntV blk)

/-- q at the rung, for an index. -/
def Env.qntQ (e : Env) (ix : List Nat) : Num :=
  (e.qntBlock ix).q.getD (ix.getD (e.desc (e.S 1)).axis 0 % 32) Num.zero

/-- The conversion of q to the Output with RoundMode and ScaleRule (02 R581): exact wherever a wider Output can hold q. -/
def Env.qntConv (e : Env) : OutConv := ⟨e.qntQ, e.prec.floorRule, e.prec.roundMode, 2⟩

/-- Draws of QNT per element (02 R32): one in each conversion to a narrower format. -/
def Env.qntDraws (e : Env) : Nat :=
  let d := e.desc (e.S 1)
  let p := e.prec
  (if p.convMode (p.ladFmt d.fmt) (p.rungFmt p.startRung) == 2 then 1 else 0) +
    (if p.convMode (p.rungFmt p.startRung) (e.desc (e.S 4)).fmt == 2 then 1 else 0)

/-- The shadow value: BF16 under RNE without the carry (02 R48). -/
def Env.qntShadow (e : Env) : OutConv :=
  ⟨fun ix => toBf16 .rne (e.value (e.desc (e.S 1)) ix), e.prec.floorRule, 0, 3⟩

/-- One pane of QNT judged. -/
def Env.qntAttempt (e : Env) (ls : List (List Nat)) : Attempt :=
  let d := e.desc (e.S 1)
  let o := e.desc (e.S 4)
  let p := e.prec
  let bs := blocksOf d ls
  let elems := bs.flatMap (fun b => d.blockOf b)
  { sats := total (bs.map (fun b => (e.qntBlock b).sats)) + (elems.filter (fun ix => e.outSat o e.qntConv ix)).length
    nonFinite := elems.any (fun ix => !(e.qntQ ix).isFin || !(e.outValue o e.qntConv ix).isFin) &&
      !(elems.any (fun ix => e.nonFinite d ix || (match e.qntCarry with
        | some c => !(e.cOld c ix).isFin
        | none => false)))
    carry := p.carryEn && p.startRung != 3 && bs.any (fun b =>
      p.carrySignal (e.qntBlock b).k ((d.blockOf b).map (fun ix => match e.qntCarry with
        | some c => e.cOld c ix
        | none => Num.zero))) }

/-- QNT has nothing to do. -/
def Env.qntEmpty (e : Env) : Bool := (e.desc (e.S 1)).empty

def qntRun (e : Env) : OpOut :=
  let d := e.desc (e.S 1)
  let o := e.desc (e.S 4)
  let p := e.prec
  if e.qntEmpty then OpOut.idle
  else
    let panes := (qntPanes d).zipIdx
    let runs := panes.map (fun (ls, i) => { p with w := setBit p.w 10 false }.runPane i true (fun _ => e.qntAttempt ls))
    let sampled := panes.filter (fun x => p.sampled x.2)
    let diffs := sampled.map (fun (ls, i) => (i, ((blocksOf d ls).flatMap (fun b => d.blockOf b)).map (fun ix =>
      diffOf (e.outValue o e.qntConv ix) (e.outValue (e.desc (e.S 6)) e.qntShadow ix))))
    let disc := match e.qntCarry with
      | some c => e.carryDiscarded c
      | none => false
    let r := ladderOut p runs disc diffs
    let carryW := match e.qntCarry with
      | some c => (blocksOf d (qntLines d)).flatMap (fun b =>
          let blk := d.blockOf b
          let (codes, sc) := residual (e.qntV blk) (e.qntBlock b)
          c.blockWrites blk b codes sc)
      | none => []
    let shadowIn := fun ix => sampled.any (fun x => (blocksOf d x.1).any (fun b => (d.blockOf b).contains ix))
    let draws := panes.map (fun (ls, i) =>
      (i, e.qntDraws * ((blocksOf d ls).flatMap (fun b => d.blockOf b)).length))
    { r with
      begins := if p.carryEn then e.carryHeader 2 else []
      writes := e.writeTensor o e.qntConv ++ carryW ++
        (if p.shadowEn then
          e.tensorWrites (e.desc (e.S 6)) (fun ix => if shadowIn ix then some (e.outCode (e.desc (e.S 6)) e.qntShadow ix) else none)
            (fun ix => if shadowIn ix then some (e.outScale (e.desc (e.S 6)) e.qntShadow ix) else none)
        else [])
      endWrites := (if p.carryEn then e.carryHeader 1 else []) ++
        (if p.shadowEn then [(e.obj (e.S 7), shadowSummary diffs)] else [])
      draws := e.qntDraws != 0
      paneDraws := if e.qntDraws == 0 then [] else draws
      tasks := dealRows panes.length e.cells
      counts := r.counts ++ [tick 0x31B0 3 (e.qntDraws * d.count)] }

/-- The references of the precision set: S5 with its elements when CarryEn, S6, S7 (03 R68, R579). -/
def Env.precRefs (e : Env) (dims : List Nat) (axis : Nat) : List Ref :=
  let p := e.prec
  [⟨e.S 5, false, .obj (if p.carryEn then carryBytes dims axis else 0)⟩,
   ⟨e.S 6, false, if p.shadowEn then .tout else .obj 0⟩, ⟨e.S 7, false, .obj 0⟩]

/-- The extent of the carry plane in use; an instruction with a zero length (`idle`) touches none (02 R42). -/
def Env.carryExtent (e : Env) (idle : Bool) (dims : List Nat) (axis : Nat) : List (Nat × Nat) :=
  if e.prec.carryEn && !idle then [(e.obj (e.S 5), 64 + carryBytes dims axis)] else []

/-- The extents that the precision set adds: the carry plane is read and written, shadow tensor and summary are written; with a
zero length there is no summary (03 R87). -/
def Env.precExtent (e : Env) (idle : Bool) (dims : List Nat) (axis : Nat) : List (Nat × Nat) :=
  e.carryExtent idle dims axis ++
    (if e.prec.shadowEn then (e.desc (e.S 6)).extent ++ (if idle then [] else [(e.obj (e.S 7), 32)]) else [])

def opQnt : Op where
  dash := fun _ => [2, 3, 12, 13, 14]
  refs := fun e =>
    let d := e.desc (e.S 1)
    [⟨e.S 1, true, .tin⟩, ⟨e.S 4, true, .tout⟩] ++ e.precRefs d.shape d.axis
  rules := fun e =>
    let d := e.desc (e.S 1)
    let o := e.desc (e.S 4)
    firstCode ([rule e.prec.reserved 0x0102, e.checkCarryReserved] ++ e.checkPrec ++
      [rule (o.rank != d.rank || o.dims != d.dims || (o.narrow && o.axis != d.axis)) 0x0105,
       rule (!fmtFloat d.fmt || !fmtFloat o.fmt) 0x0106,
       rule (extentsMeet (e.s.homeRuns d.extent) (e.s.homeRuns o.extent)) 0x0107,
       e.checkCarry d.count, e.checkShadow o])
  ins := fun e => (e.desc (e.S 1)).extent ++ e.carryExtent e.qntEmpty (e.desc (e.S 1)).shape (e.desc (e.S 1)).axis
  outs := fun e => (e.desc (e.S 4)).extent ++ e.precExtent e.qntEmpty (e.desc (e.S 1)).shape (e.desc (e.S 1)).axis
  run := qntRun
  idle := Env.qntEmpty

end Sys2Proof.Machine
end

