-- ==== Sys2Proof/Machine/Marver.lean ====
section
/-! DEFINITION. Marver: panes, TileControl, sheets, the grid that tasks are dealt over, and the fixed orders of reduction
(04 R94 to R111). -/

namespace Sys2Proof.Machine
open Sys2Proof

/-! ## TileControl (04 R103, R104) -/

structure Tile where
  w : Nat
  deriving DecidableEq, Repr

def Tile.sheetOrder (t : Tile) : Nat := bits t.w 0 2
def Tile.paneOrder (t : Tile) : Nat := bits t.w 2 2
def Tile.beadOrder (t : Tile) : Nat := bits t.w 4 2
def Tile.paneMField (t : Tile) : Nat := bits t.w 8 4
def Tile.paneNField (t : Tile) : Nat := bits t.w 12 4
def Tile.gridCols (t : Tile) : Nat := bits t.w 16 4
def Tile.chainOff (t : Tile) : Bool := bit t.w 23
def Tile.splitLog2 (t : Tile) : Nat := bits t.w 20 3
def Tile.sheetCols (t : Tile) : Nat := bits t.w 24 4
def Tile.reserved (t : Tile) : Bool := bits t.w 6 2 != 0 || bits t.w 28 36 != 0

/-- The geometry of an instruction that the marver walks: batches, rows, columns, reduction length, beads per pane, slices. -/
structure Geo where
  batch : Nat
  m : Nat
  n : Nat
  k : Nat
  paneM : Nat
  paneN : Nat
  slices : Nat
  deriving DecidableEq, Repr

/-- PaneN and PaneM with the defaults of R95. -/
def Tile.paneN (t : Tile) (n : Nat) : Nat := if t.paneNField == 0 then min 4 (ceilDiv n 64) else t.paneNField
def Tile.paneM (t : Tile) (m n : Nat) : Nat :=
  if t.paneMField == 0 then min (8 / t.paneN n) (ceilDiv m 128) else t.paneMField

def Geo.pm (g : Geo) : Nat := ceilDiv g.m (128 * g.paneM)
def Geo.pn (g : Geo) : Nat := ceilDiv g.n (64 * g.paneN)
/-- The number of output panes (04 R96). -/
def Geo.panes (g : Geo) : Nat := g.batch * g.pm * g.pn
/-- K groups (04 R98). -/
def Geo.groups (g : Geo) : Nat := ceilDiv g.k 32
/-- The logical index of the pane that holds an output (04 R96). -/
def Geo.paneOf (g : Geo) (b m n : Nat) : Nat := (b * g.pm + m / (128 * g.paneM)) * g.pn + n / (64 * g.paneN)
def Geo.paneBatch (g : Geo) (p : Nat) : Nat := p / g.pn / g.pm
def Geo.paneRow (g : Geo) (p : Nat) : Nat := p / g.pn % g.pm
def Geo.paneCol (g : Geo) (p : Nat) : Nat := p % g.pn
/-- The rows and columns of a pane. -/
def Geo.rowsOf (g : Geo) (p : Nat) : List Nat :=
  ((List.range (128 * g.paneM)).map (fun i => g.paneRow p * 128 * g.paneM + i)).filter (fun i => i < g.m)
def Geo.colsOf (g : Geo) (p : Nat) : List Nat :=
  ((List.range (64 * g.paneN)).map (fun i => g.paneCol p * 64 * g.paneN + i)).filter (fun i => i < g.n)

/-- The largest power of two that is at most `n`, by fuel. -/
def powerBelow (n : Nat) : Nat → Nat
  | 0 => 1
  | f + 1 => if 2 ^ (f + 1) ≤ n then 2 ^ (f + 1) else powerBelow n f

/-- S of SPLITK (04 R99). With fewer than 16 panes no power of two from 1 to 16 reaches 256 / P, and S is 16 (DESIGN CHOICE:
R99 gives no S there). -/
def splitSlices (log2 panes k : Nat) : Nat :=
  let s := if log2 != 0 then 2 ^ log2
    else ((List.range 5).map (fun i => 2 ^ i)).find? (fun s => 256 ≤ panes * s) |>.getD 16
  min s (powerBelow (ceilDiv k 32) 32)

/-- The first and one past the last group of a slice (04 R99). -/
def Geo.sliceGroups (g : Geo) (s : Nat) : Nat × Nat :=
  let l := ceilDiv g.groups g.slices
  (min (s * l) g.groups, min ((s + 1) * l) g.groups)

/-- Combine neighbours once; an operand with no partner passes up. -/
def pairUp (f : Num → Num → Num) : List Num → List Num
  | a :: b :: r => f a b :: pairUp f r
  | r => r

/-- The fixed binary tree of R99 over the partials of a pane's slices, by levels. -/
def splitTree : Nat → List Num → Num
  | 0, l => l.headD Num.negZero
  | f + 1, l =>
    match l with
    | [] => Num.negZero
    | [x] => x
    | l => splitTree f (pairUp fadd l)

/-! ## Vector reductions (04 R102) -/

/-- The tree over one run of at most 128 elements. -/
def runTree (f : Num → Num → Num) : Nat → List Num → Option Num
  | 0, l => l.head?
  | n + 1, l =>
    match l with
    | [] => none
    | [x] => some x
    | l => runTree f n (pairUp f l)

/-- A reduction in the order of R102; none over no elements. -/
def reduce102 (f : Num → Num → Num) (l : List Num) : Option Num :=
  match (chunks 128 l).filterMap (runTree f 8) with
  | [] => none
  | x :: r => some (r.foldl f x)

/-- A sum in the order of R102, +0 over no elements. -/
def sum102 (l : List Num) : Num := (reduce102 fadd l).getD Num.zero

/-- A maximum of two: a NaN stays, +0 ranks above −0. -/
def fmax (x y : Num) : Num :=
  if x.isNan || y.isNan then .nan
  else if Num.lt x y then y
  else if Num.lt y x then x
  else if x.sign then y else x

def max102 (l : List Num) : Option Num := reduce102 fmax l

/-! ## Sheets (04 R105) -/

/-- 8 MiB. -/
def sheetMax : Nat := 8 * 2 ^ 20

/-- The sheeted operand: bytes of one column over a K length, scales and index words included, bytes of block map for 64 columns
over a K length, its column and batch counts, its Stream and Cache flags, the address of its descriptor, and its extent. -/
structure Sheeted where
  colBytes : Nat → Nat
  mapBytes : Nat → Nat
  cols : Nat
  batches : Nat
  stream : Bool
  cache : Bool
  desc : Nat
  extent : List (Nat × Nat)

/-- Bytes of `w` columns over a K length. -/
def Sheeted.paneCol (h : Sheeted) (w k : Nat) : Nat := min w h.cols * h.colBytes k + ceilDiv (min w h.cols) 64 * h.mapBytes k

/-- The number of K-sheets: 1 when a pane column fits whole, otherwise the fewest equal lengths in multiples of 32 that
fit. -/
def Sheeted.kSheets (h : Sheeted) (g : Geo) : Nat :=
  if h.paneCol (64 * g.paneN) g.k ≤ sheetMax then 1
  else ((List.range g.groups).find? (fun i =>
    h.paneCol (64 * g.paneN) (32 * ceilDiv g.groups (i + 1)) ≤ sheetMax)).getD g.groups + 1

/-- The bytes of a sheet of `c` pane columns over the whole K. -/
def Sheeted.sheetBytes (h : Sheeted) (g : Geo) (c : Nat) : Nat := h.paneCol (c * 64 * g.paneN) g.k

/-- Rule 5 of R104. It is checked whether or not the operand carries the Stream flag, though R105 then gives it no sheets
(DESIGN CHOICE: R104 names no exception). -/
def Sheeted.colsBroken (h : Sheeted) (g : Geo) (t : Tile) : Bool :=
  if t.sheetCols == 0 || g.paneN == 0 then false
  else
    let c := min t.sheetCols g.pn
    if h.kSheets g == 1 then decide (sheetMax < h.sheetBytes g c) else c != 1

/-- SheetCols in force (04 R105). -/
def Sheeted.sheetCols (h : Sheeted) (g : Geo) (t : Tile) : Nat :=
  if h.kSheets g != 1 then 1
  else if t.sheetCols != 0 then min t.sheetCols g.pn
  else (((List.range g.pn).reverse.map (· + 1)).find? (fun c => h.sheetBytes g c ≤ sheetMax)).getD 1

/-- The sheets of one batch of the operand, K-sheets counted. -/
def Sheeted.sheets (h : Sheeted) (g : Geo) (t : Tile) : Nat :=
  if h.stream then 0 else ceilDiv g.pn (max 1 (h.sheetCols g t)) * h.kSheets g

/-- The SheetOrder in force is M-outer: the default where one sheet holds the whole operand (04 R106). -/
def Sheeted.mOuter (h : Sheeted) (g : Geo) (t : Tile) : Bool :=
  if t.sheetOrder == 0 then decide (h.sheets g t * h.batches ≤ 1) else t.sheetOrder == 2

/-- The rules of R104 in their order; `split` holds for MMA and MMAS with SPLITK. -/
def Tile.check (t : Tile) (m n : Nat) (split : Bool) (sheet : Option (Sheeted × Geo)) : Nat :=
  firstCode [rule t.reserved 0x0102,
    rule (t.sheetOrder == 3 || t.paneOrder == 3 || t.beadOrder == 3 || decide (8 < t.paneMField) ||
      decide (8 < t.paneNField) || decide (4 < t.splitLog2)) 0x0120,
    rule (decide (8 < t.paneM m n * t.paneN n)) 0x0121,
    rule (t.splitLog2 != 0 && !split) 0x0122,
    rule (match sheet with
      | some (h, g) => h.colsBroken g t
      | none => false) 0x0123]

/-! ## Dealing (04 R108, R109) -/

/-- Tasks of rows `rs` and columns `cs` within one sheet: N-fast finishes a row first, M-fast a column (04 R106). -/
def paneLoop {α : Type} (mFast : Bool) (rs cs : List Nat) (task : Nat → Nat → α) : List α :=
  if mFast then cs.flatMap (fun c => rs.map (fun r => task r c)) else rs.flatMap (fun r => cs.map (fun c => task r c))

/-- The tasks of a pane geometry, in the order that the sheet and pane loops give (04 R106, R109, 11 R283). -/
def Geo.deal (g : Geo) (t : Tile) (sheet : Option Sheeted) (cells : List Nat) : List (Nat × Nat × Nat × Nat) :=
  let pr := g.batch * g.pm
  let pc := g.pn * g.slices
  let (gm, gn) := gridOf t.gridCols pr pc cells.length
  let task := fun (r c : Nat) =>
    (r * g.pn + c / g.slices, c % g.slices, c % gn, cells.getD ((r % gm) * gn + c % gn) 0)
  let width := match sheet with
    | some h => if h.stream then g.pn else h.sheetCols g t
    | none => g.pn
  let mOuter := match sheet with
    | some h => h.mOuter g t
    | none => false
  let rounds := if mOuter then chunks (max 1 gm) (List.range pr) else [List.range pr]
  let sheets := chunks (max 1 (width * g.slices)) (List.range pc)
  if mOuter then rounds.flatMap (fun rs => sheets.flatMap (fun cs => paneLoop (t.paneOrder == 2) rs cs task))
  else sheets.flatMap (fun cs => rounds.flatMap (fun rs => paneLoop (t.paneOrder == 2) rs cs task))

/-- The regions whose cells hold tasks. -/
def regionsOfTasks (tasks : List (Nat × Nat × Nat × Nat)) : List Nat := (tasks.map (fun x => x.2.2.2 / 64)).eraseDups

/-- The sheets of one batch of the operand that a region holds (04 R105, R107). -/
def Env.sheetSet (e : Env) (g : Geo) (t : Tile) (h : Sheeted) (region batch : Nat) : SheetSet :=
  ⟨e.ctx, region, h.desc, h.sheetCols g t, h.kSheets g, batch, e.s.homeRuns h.extent⟩

/-- The task rows of a region's cells. -/
def Geo.regionRows (g : Geo) (tasks : List (Nat × Nat × Nat × Nat)) (region : Nat) : List Nat :=
  ((tasks.filter (fun x => x.2.2.2 / 64 == region)).map (fun x => x.1 / g.pn)).eraseDups

/-- The operand's batch that a task row reads. -/
def Sheeted.batchOf (h : Sheeted) (g : Geo) (row : Nat) : Nat := if h.batches ≤ 1 then 0 else row / g.pm

/-- The batches of the operand that a region's cells read. -/
def Sheeted.batchesOf (h : Sheeted) (g : Geo) (tasks : List (Nat × Nat × Nat × Nat)) (region : Nat) : List Nat :=
  ((g.regionRows tasks region).map (h.batchOf g)).eraseDups

/-- A weight cache can hold every sheet that a region's cells read, of `k` batches. DESIGN CHOICE: a context's two halves of a
weight cache keep the last two sheets, so that an operand of more sheets leaves none that a later instruction finds in time. -/
def Sheeted.fits (h : Sheeted) (g : Geo) (t : Tile) (k : Nat) : Bool :=
  !h.stream && decide (h.sheets g t * k ≤ 2)

/-- The sheets that an instruction leaves held, region by region (04 R107). -/
def Env.heldSheets (e : Env) (g : Geo) (t : Tile) (h : Sheeted) : List SheetSet :=
  let tasks := g.deal t (some h) e.cells
  (regionsOfTasks tasks).flatMap (fun r =>
    let bs := h.batchesOf g tasks r
    if h.fits g t bs.length then bs.map (e.sheetSet g t h r) else [])

/-- Sheets loaded by one region (04 R106, R107, R112). Where a weight cache holds all that the region reads, each batch's sheets
are loaded once, and not at all where they are still held and the descriptor has the Cache flag. Otherwise N-outer loads a
sheet once for all its task rows; M-outer, and an operand cut into K-sheets, loads every sheet again for each round of the
grid, unless one sheet holds the whole operand. -/
def Env.regionLoads (e : Env) (g : Geo) (t : Tile) (h : Sheeted) (tasks : List (Nat × Nat × Nat × Nat)) (region : Nat) : Nat :=
  let n := h.sheets g t
  let gm := (gridOf t.gridCols (g.batch * g.pm) (g.pn * g.slices) e.cells.length).1
  let rows := g.regionRows tasks region
  let bs := h.batchesOf g tasks region
  if h.fits g t bs.length then
    n * (bs.filter (fun b => !(h.cache && e.s.cs.sheets.contains (e.sheetSet g t h region b)))).length
  else if decide (1 < n) && (h.mOuter g t || decide (1 < h.kSheets g)) then
    n * ((rows.map (fun r => (r / max 1 gm, h.batchOf g r))).eraseDups).length
  else n * bs.length

/-- Sheets loaded: each region whose cells hold tasks loads its own copies (04 R112). -/
def Env.loads (e : Env) (g : Geo) (t : Tile) (h : Sheeted) : Nat :=
  let tasks := g.deal t (some h) e.cells
  total ((regionsOfTasks tasks).map (e.regionLoads g t h tasks))

end Sys2Proof.Machine
end

