-- ==== Sys2Proof/Machine/Matrix.lean ====
section
/-! DEFINITION. Matrix: the product of 04 R98 with panes, ladder, carry, shadow and SPLITK, and the opcodes MMA and MMAS
(03 R70, R71, 05 R122 to R138). -/

namespace Sys2Proof.Machine
open Sys2Proof

/-- What the product engine is given. `blk b m g` is the ladder operand's block of K group g in row m, as indices by
position, none where the tap reads padding (08 R208); `terms b n g` are the present products of that group, as position and
B value, none for a structural +0 (05 R127), in ascending K; `single` tells whether a rung multiplies element by element
(02 R35, 05 R120); `init` starts the accumulator; `post` follows it (08 R208); `moving` are the rows computed. -/
structure Product where
  geo : Geo
  lad : Desc
  ladVal : List Nat → Num
  ladBad : List Nat → Bool
  blk : Nat → Nat → Nat → Option (List (Option (List Nat)))
  terms : Nat → Nat → Nat → Bool → List (Option (Nat × Num))
  colBad : Nat → Nat → Bool
  bFmt : Nat
  init : Nat → Nat → Nat → Num
  initBad : Nat → Nat → Nat → Bool
  post : Num → Num
  moving : Nat → Nat → Bool
  out : Desc
  outIx : Nat → Nat → Nat → List Nat
  ixOut : List Nat → Nat × Nat × Nat
  carry : Option Carry

/-- A rung at work: its element format, the rounding mode of a conversion from FP32, that of the ladder operand's conversion,
the draw stage, and whether c_old is added. -/
structure Rung where
  fmt : Nat
  mode : Nat
  ladMode : Nat
  stage : Nat
  carried : Bool

/-- Rung `r` in pane `p`, for a ladder operand stored in format `lad`. -/
def Env.rungOf (e : Env) (lad p r : Nat) : Rung :=
  ⟨e.prec.rungFmt r, e.prec.roundMode, e.prec.convMode (e.prec.ladFmt lad) (e.prec.rungFmt r), 16 * p + 2 * r, true⟩
/-- The shadow run: BF16 under RNE without the carry (02 R48). -/
def wideRung : Rung := ⟨fBF16, 0, 0, 0, false⟩

/-- v over the indices of a block. -/
def Env.blockV (e : Env) (x : Product) (g : Rung) (ixs : List (List Nat)) : List Num :=
  ixs.map (fun ix => if g.carried then e.carried x.carry ix (x.ladVal ix) else x.ladVal ix)

/-- A block of the ladder operand at a rung. -/
def Env.ladBlock (e : Env) (x : Product) (g : Rung) (ixs : List (List Nat)) : QBlock :=
  rungBlock g.fmt e.prec.floorRule (fun i => e.round g.ladMode g.stage (linear x.lad.dims (ixs.getD i [])))
    (e.blockV x g ixs)

/-- q of each position of a block, +0 at padding positions. -/
def Env.ladRow (e : Env) (x : Product) (g : Rung) (pos : List (Option (List Nat))) : List Num :=
  let ixs := pos.filterMap id
  let q := (e.ladBlock x g ixs).q
  pos.map (fun o => match o with
    | some ix => q.getD (ixs.idxOf ix) Num.zero
    | none => Num.zero)

/-- One product, exact; a structural zero is +0 whatever it meets (05 R127). -/
def termProd (row : List Num) (t : Option (Nat × Num)) : Num :=
  match t with
  | some (i, v) => (row.getD i Num.zero).mul v
  | none => Num.zero

/-- Add one K group to the accumulator (02 R35): the exact group sum with one rounding, or one product at a time. -/
def addGroup (single : Bool) (acc : Num) (row : List Num) (ts : List (Option (Nat × Num))) : Num :=
  if single then ts.foldl (fun a t => fadd a (termProd row t)) acc
  else fadd acc (ts.foldl (fun a t => a.add (termProd row t)) Num.negZero)

/-- Products are added one at a time when either operand is BF16 or FP32 (02 R35, 05 R120). -/
def singleMode (rungFmt bFmt : Nat) : Bool := !(fmtNarrow rungFmt && fmtNarrow bFmt)

/-- The accumulator of an output after a slice's K groups up to `hi` (04 R98, R99). -/
def Env.groupsAcc (e : Env) (x : Product) (g : Rung) (b m n s hi : Nat) : Num :=
  let lo := (x.geo.sliceGroups s).1
  let single := singleMode g.fmt x.bFmt
  ((List.range (hi - lo)).map (· + lo)).foldl (fun acc k =>
    match x.blk b m k with
    | some pos => addGroup single acc (e.ladRow x g pos) (x.terms b n k single)
    | none => fadd acc Num.zero) (if s == 0 then x.init b m n else Num.negZero)

/-- The accumulator of an output over a whole slice. -/
def Env.sliceAcc (e : Env) (x : Product) (g : Rung) (b m n s : Nat) : Num :=
  e.groupsAcc x g b m n s (x.geo.sliceGroups s).2

/-- The accumulator of an output after its whole K, the SPLITK tree included (04 R98, R99). -/
def Env.accOf (e : Env) (x : Product) (g : Rung) (b m n : Nat) : Num :=
  splitTree 5 ((List.range x.geo.slices).map (fun s => e.sliceAcc x g b m n s))

/-- The conversion of an output by a pane at a rung. -/
def Env.prodConv (e : Env) (x : Product) (g : Rung) : OutConv :=
  ⟨fun ix => let (b, m, n) := x.ixOut ix
    x.post (e.accOf x g b m n), e.prec.floorRule, g.mode, g.stage + 1⟩

/-- The moving rows of a pane's band. -/
def Product.bandRows (x : Product) (p : Nat) : List Nat :=
  (x.geo.rowsOf p).filter (fun m => x.moving (x.geo.paneBatch p) m)

/-- The outputs of a pane, as indices of D. -/
def Product.paneOuts (x : Product) (p : Nat) : List (List Nat) :=
  (x.bandRows p).flatMap (fun m => (x.geo.colsOf p).map (fun n => x.outIx (x.geo.paneBatch p) m n))

/-- The ladder blocks that a pane reads, once each. -/
def Product.paneBlocks (x : Product) (p : Nat) : List (List (List Nat)) :=
  ((x.bandRows p).flatMap (fun m => (List.range x.geo.groups).filterMap (fun g =>
    (x.blk (x.geo.paneBatch p) m g).map (fun pos => pos.filterMap id)))).eraseDups

/-- A NaN, an infinity or a 0xFF scale is present in what a pane reads (02 R43). -/
def Env.paneReadsBad (e : Env) (x : Product) (p : Nat) : Bool :=
  let b := x.geo.paneBatch p
  (x.paneBlocks p).any (fun ixs => ixs.any (fun ix => x.ladBad ix || (match x.carry with
    | some c => !(e.cOld c ix).isFin
    | none => false))) ||
    (x.geo.colsOf p).any (fun n => x.colBad b n || (x.bandRows p).any (fun m => x.initBad b m n))

/-- What a pane shows at a rung (02 R43, 04 R100). -/
def Env.prodAttempt (e : Env) (x : Product) (p r : Nat) : Attempt :=
  let g := e.rungOf x.lad.fmt p r
  let c := e.prodConv x g
  let outs := x.paneOuts p
  let bs := x.paneBlocks p
  { sats := total (bs.map (fun ixs => (e.ladBlock x g ixs).sats)) + (outs.filter (fun ix => e.outSat x.out c ix)).length
    nonFinite := outs.any (fun ix =>
        let (b, m, n) := x.ixOut ix
        !(e.accOf x g b m n).isFin || !(e.outValue x.out c ix).isFin) && !(e.paneReadsBad x p)
    carry := e.prec.carryEn && r == e.prec.startRung && r != 3 && bs.any (fun ixs =>
      e.prec.carrySignal (e.ladBlock x g ixs).k (ixs.map (fun ix => match x.carry with
        | some cp => e.cOld cp ix
        | none => Num.zero))) }

/-- The ladder over every pane. -/
def Env.prodRuns (e : Env) (x : Product) : List PaneRun :=
  (List.range x.geo.panes).map (fun p => e.prec.runPane p (x.bandRows p != []) (e.prodAttempt x p))

/-- The rung a pane ends on. -/
def finalRung (runs : List PaneRun) (start p : Nat) : Nat :=
  match runs.find? (fun r => r.pane == p) with
  | some r => r.final
  | none => start

/-- The final rung at work in the pane of an output. -/
def Env.finalOf (e : Env) (x : Product) (runs : List PaneRun) (ix : List Nat) : Rung :=
  let (b, m, n) := x.ixOut ix
  let p := x.geo.paneOf b m n
  e.rungOf x.lad.fmt p (finalRung runs e.prec.startRung p)

/-- The conversion that wrote an output: each element's value is that of its own pane at its final rung. A block along the
batch dimension spans panes; it is quantised as one, and a pane is judged as if the block's other elements had its own rung
(DESIGN CHOICE: R45 does not say how panes share a block). -/
def Env.prodOut (e : Env) (x : Product) (runs : List PaneRun) (ix : List Nat) : OutConv :=
  { e.prodConv x (e.finalOf x runs ix) with val := fun j => (e.prodConv x (e.finalOf x runs j)).val j }

/-- Carry writes: the blocks of a band from the pane in pane column 0, at its final rung (04 R101); a block that several
panes of column 0 read takes the residual of the lowest. -/
def Env.prodCarry (e : Env) (x : Product) (runs : List PaneRun) : List (Nat × Bytes) :=
  match x.carry with
  | none => []
  | some c =>
    let panes := (List.range x.geo.panes).filter (fun p => x.geo.paneCol p == 0)
    panes.reverse.flatMap (fun p =>
      let g := e.rungOf x.lad.fmt p (finalRung runs e.prec.startRung p)
      (x.paneBlocks p).flatMap (fun ixs =>
        match ixs with
        | [] => []
        | first :: _ =>
          let (codes, sc) := residual (e.blockV x g ixs) (e.ladBlock x g ixs)
          c.blockWrites ixs first codes sc))

/-- The draws of each pane's attempts (02 R32): per attempt `conv` elements converted from FP32, and `lad` elements of the
ladder operand where its conversion is to a narrower format. -/
def Env.ladderDraws (e : Env) (fmt : Nat) (runs : List PaneRun) (lad conv : Nat → Nat) : KV :=
  if e.prec.roundMode == 2 then
    runs.map (fun r => (r.pane, total ((List.range r.attempts.length).map (fun i =>
      conv r.pane + (if (e.rungOf fmt r.pane (e.prec.startRung + i)).ladMode == 2 then lad r.pane else 0)))))
  else []

/-- What draws under stochastic rounding leave in an outcome: the draws of each pane, and their count. -/
def OpOut.drawing (o : OpOut) (d : KV) : OpOut :=
  let n := total (d.map (fun x => x.2))
  { o with
    draws := o.draws || n != 0
    paneDraws := o.paneDraws ++ d
    counts := o.counts ++ [tick 0x31B0 3 n] }

/-- Draws under stochastic rounding of a product. -/
def Env.prodDraws (e : Env) (x : Product) (runs : List PaneRun) : KV :=
  e.ladderDraws x.lad.fmt runs (fun p => total ((x.paneBlocks p).map (fun b => b.length)))
    (fun p => if x.out.fmt == 0 then 0 else (x.paneOuts p).length)

/-- The sampled panes' pairs (02 R48, R49). A sampled pane with no moving row is not run and not compared (DESIGN CHOICE: R49
counts 'sampled panes', and R138 gives such a pane no work). -/
def Env.prodDiffs (e : Env) (x : Product) (runs : List PaneRun) : List (Nat × List Diff) :=
  ((List.range x.geo.panes).filter (fun p => e.prec.sampled p && x.bandRows p != [])).map (fun p =>
    (p, (x.paneOuts p).map (fun ix =>
      diffOf (e.outValue x.out (e.prodOut x runs ix) ix) (e.outValue (e.desc (e.S 6)) (e.prodConv x wideRung) ix))))

/-- An index of the output that this instruction writes. -/
def Product.writes (x : Product) (ix : List Nat) : Bool := let (b, m, _) := x.ixOut ix; x.moving b m

/-- The output of a product, each pane's elements from its final rung. -/
def Env.prodMain (e : Env) (x : Product) (runs : List PaneRun) : List (Nat × Bytes) :=
  e.tensorWrites x.out (fun ix => if x.writes ix then some (e.outCode x.out (e.prodOut x runs ix) ix) else none)
    (fun ix => if x.writes ix then some (e.outScale x.out (e.prodOut x runs ix) ix) else none)

/-- Everything that a product writes and reports, but for the instruction's own counters; `main` writes its output. A shadow tensor
is written plain, also where the output is zero-run coded (DESIGN CHOICE, log entry 163: 02 R48 does not say). -/
def Env.prodRun (e : Env) (x : Product) (t : Tile) (h : Sheeted) (main : List PaneRun → List (Nat × Bytes)) : OpOut :=
  let p := e.prec
  let runs := e.prodRuns x
  let diffs := e.prodDiffs x runs
  let disc := match x.carry with
    | some c => e.carryDiscarded c
    | none => false
  let o := ladderOut p runs disc diffs
  let sh := e.desc (e.S 6)
  let wide := e.prodConv x wideRung
  let shadowed : List Nat → Bool := fun ix => let (b, m, n) := x.ixOut ix
    p.sampled (x.geo.paneOf b m n) && x.moving b m
  -- a scale byte is written with any sampled element of its block
  let scaled := fun ix => (sh.blockOf ix).any shadowed
  { o.drawing (e.prodDraws x runs) with
    begins := if p.carryEn then e.carryHeader 2 else []
    writes :=
      main runs ++ e.prodCarry x runs ++
      (if p.shadowEn then
        e.tensorWrites sh (fun ix => if shadowed ix then some (e.outCode sh wide ix) else none)
          (fun ix => if scaled ix then some (e.outScale sh wide ix) else none)
      else [])
    endWrites := (if p.carryEn then e.carryHeader 1 else []) ++
      (if p.shadowEn then [(e.obj (e.S 7), shadowSummary diffs)] else [])
    counts := (o.drawing (e.prodDraws x runs)).counts ++
      [tick 0x3160 6 (if x.geo.slices == 1 then 0 else total (runs.map (fun r => r.attempts.length))),
       tick 0x3160 3 (e.loads x.geo t h)]
    sheets := some (e.heldSheets x.geo t h)
    tasks := x.geo.deal t (some h) e.cells }

/-! ## MMA (03 R70, R71) -/

def Env.transA (e : Env) : Bool := bit (e.W 3) 0
def Env.transB (e : Env) : Bool := bit (e.W 3) 1
def Env.splitK (e : Env) : Bool := bit (e.W 3) 2
def Env.tile (e : Env) : Tile := ⟨e.W 2⟩
def Env.stillRef (e : Env) : Nat := bits (e.W 4) 0 32
def Env.metaRef (e : Env) : Nat := bits (e.W 4) 32 32

/-- Lengths of the product: K and M from A, N and batch from D. -/
def Env.mmaK (e : Env) : Nat := (e.desc (e.S 1)).dim (if e.transA then 1 else 0)
def Env.mmaM (e : Env) : Nat := (e.desc (e.S 1)).dim (if e.transA then 0 else 1)
def Env.mmaN (e : Env) : Nat := (e.desc (e.S 4)).dim 0
def batchOf (d : Desc) : Nat := if d.rank == 3 then d.dim 2 else 1

def Env.mmaGeo (e : Env) : Geo :=
  let t := e.tile
  let g : Geo := ⟨batchOf (e.desc (e.S 4)), e.mmaM, e.mmaN, e.mmaK, t.paneM e.mmaM e.mmaN, t.paneN e.mmaN, 1⟩
  if e.splitK then { g with slices := splitSlices t.splitLog2 g.panes g.k } else g

/-- An index of a rank-2 or rank-3 matrix. -/
def matIx (d : Desc) (i j b : Nat) : List Nat := if d.rank == 3 then [i, j, b] else [i, j]

def Env.aIx (e : Env) (b m k : Nat) : List Nat :=
  matIx (e.desc (e.S 1)) (if e.transA then m else k) (if e.transA then k else m) b
/-- B's batch index: a batch of 1 is shared (03 R71). -/
def Env.bBatch (e : Env) (b : Nat) : Nat := if batchOf (e.desc (e.S 2)) == 1 then 0 else b
def Env.bIx (e : Env) (b k n : Nat) : List Nat :=
  matIx (e.desc (e.S 2)) (if e.transB then n else k) (if e.transB then k else n) (e.bBatch b)

/-- The still mask's bit of a row (05 R137). -/
def Env.still (e : Env) (r : Nat) : Bool :=
  if e.stillRef == 0 then false else bit (e.uint (e.desc e.stillRef) [r / 32]) (r % 32)

/-- The carry plane of the instruction, when CarryEn. -/
def Env.carryFor (e : Env) (d : Desc) : Option Carry := if e.prec.carryEn then some (e.carry d.shape d.axis) else none

/-- MMA's product. -/
def Env.mmaProduct (e : Env) : Product :=
  let a := e.desc (e.S 1)
  let b := e.desc (e.S 2)
  let c := e.desc (e.S 3)
  let d := e.desc (e.S 4)
  let k := e.mmaK
  { geo := e.mmaGeo
    lad := a
    ladVal := e.value a
    ladBad := e.nonFinite a
    blk := fun bb m g => some ((List.range 32).map (fun i =>
      if 32 * g + i < k then some (e.aIx bb m (32 * g + i)) else none))
    terms := fun bb n g single => (List.range 32).filterMap (fun i =>
      let kk := 32 * g + i
      if kk < k then some (some (i, e.value b (e.bIx bb kk n))) else if single then none else some none)
    colBad := fun bb n => (List.range k).any (fun kk => e.nonFinite b (e.bIx bb kk n))
    bFmt := b.fmt
    init := fun bb m n => if e.S 3 == 0 then Num.negZero else e.value c (matIx c n m bb)
    initBad := fun bb m n => e.S 3 != 0 && e.nonFinite c (matIx c n m bb)
    post := id
    moving := fun bb m => !(e.still (bb * e.mmaM + m))
    out := d
    outIx := fun bb m n => matIx d n m bb
    ixOut := fun ix => (ix.getD 2 0, ix.getD 1 0, ix.getD 0 0)
    carry := e.carryFor a }

/-- The operand of slot S2 as the sheeted one (04 R105): a column's storage over a K length, padded where blocks run along it
(02 R29), with its scales and further bytes `extra`, and the bytes `map` of 64 columns; `stored` is how much of a K length is
stored. -/
def Env.sheeted (e : Env) (cols : Nat) (stored extra map : Nat → Nat) (areas : List (Nat × Nat)) : Sheeted :=
  let b := e.desc (e.S 2)
  ⟨fun k => (if b.narrow then roundUp (stored k) 32 else stored k) * fmtBits b.fmt / 8 +
      (if b.narrow then ceilDiv (stored k) 32 else 0) + extra k, map,
    cols, if b.rank == 3 then b.dim 2 else 1, bit b.tier 1, bit b.tier 0, e.obj (e.S 2), b.extent ++ areas⟩

/-- B as MMA's sheeted operand. -/
def Env.mmaSheet (e : Env) : Sheeted := e.sheeted e.mmaN id (fun _ => 0) (fun _ => 0) []

/-- Still rows skipped (05 R148). -/
def Env.stillRows (e : Env) : Nat :=
  ((List.range (batchOf (e.desc (e.S 4)) * e.mmaM)).filter (fun r => e.still r)).length

/-- The form of MMA's operands (03 R71): 0x0105 then 0x0106. `dense` compares B's K and N here; MMAS compares them under
0x0137 (05 R123). An operand of rank 2 counts as a batch of 1, also beside operands of rank 3 (DESIGN CHOICE, log entry 164: R71
speaks of the batch of rank-3 operands only). -/
def Env.mmaForm (e : Env) (dense : Bool) : List Nat :=
  let a := e.desc (e.S 1)
  let b := e.desc (e.S 2)
  let c := e.desc (e.S 3)
  let d := e.desc (e.S 4)
  let rk := fun x : Desc => x.rank == 2 || x.rank == 3
  let bd := batchOf d
  [rule (!rk a || !rk b || !rk d || (e.S 3 != 0 && !rk c) ||
      d.dim 1 != e.mmaM ||
      (dense && (b.dim (if e.transB then 1 else 0) != e.mmaK || b.dim (if e.transB then 0 else 1) != e.mmaN)) ||
      batchOf a != bd || (batchOf b != bd && batchOf b != 1) ||
      (e.S 3 != 0 && (c.dim 0 != d.dim 0 || c.dim 1 != d.dim 1 || batchOf c != bd))) 0x0105,
   rule (!fmtFloat a.fmt || !fmtFloat b.fmt || !fmtFloat d.fmt || (e.S 3 != 0 && !(decide (c.fmt ≤ 1)))) 0x0106]

/-- The ladder operand is quantised in MX blocks (02 R29). -/
def Env.ladderBound (e : Env) (a : Desc) : Bool := a.narrow || e.prec.startRung != 3 || e.prec.carryEn

/-- K is the block axis of every bound operand (02 R29). -/
def Env.mmaAxes (e : Env) : Nat :=
  let a := e.desc (e.S 1)
  let b := e.desc (e.S 2)
  rule ((e.ladderBound a && a.axis != (if e.transA then 1 else 0)) ||
    (b.narrow && b.axis != (if e.transB then 1 else 0))) 0x0115

/-- The still mask's rules (05 R137). -/
def Env.checkStill (e : Env) : Nat :=
  if e.stillRef == 0 then 0
  else
    let k := e.desc e.stillRef
    let d := e.desc (e.S 4)
    let c := e.desc (e.S 3)
    let a := e.desc (e.S 1)
    let ext := e.s.homeRuns k.extent
    rule (k.fmt != fU32 || k.rank != 1 || decide (k.dim 0 < ceilDiv (batchOf d * e.mmaM) 32) ||
      extentsMeet ext (e.s.homeRuns d.extent) || (e.S 3 != 0 && extentsMeet ext (e.s.homeRuns c.extent)) ||
      (e.prec.carryEn && extentsMeet ext [(e.obj (e.S 5), 64 + carryBytes a.shape a.axis)]) ||
      (d.narrow && d.axis != 0) || (e.S 3 != 0 && c.narrow && c.axis != 0)) 0x013A

/-- Items 1 to 10 of R580. -/
def Env.mmaRules (e : Env) (dense : Bool) (w4 : Nat) (h : Sheeted) : List Nat :=
  [rule (bits (e.W 3) 3 61 != 0 || w4 != 0 || e.prec.reserved) 0x0102, e.checkCarryReserved] ++ e.checkPrec ++
    e.mmaForm dense ++
    [e.mmaAxes, e.checkCarry (e.desc (e.S 1)).count, e.checkShadow (e.desc (e.S 4)),
     e.tile.check e.mmaM e.mmaN e.splitK (some (h, e.mmaGeo))]

def Env.mmaEmpty (e : Env) : Bool := (e.desc (e.S 4)).empty || e.mmaK == 0

/-- The references of MMA and MMAS (03 R68). -/
def Env.mmaRefs (e : Env) (more : List Ref) : List Ref :=
  let a := e.desc (e.S 1)
  [⟨e.S 1, true, .tin⟩, ⟨e.S 2, true, .tin⟩, ⟨e.S 3, false, .tin⟩, ⟨e.S 4, true, .tout⟩] ++ e.precRefs a.shape a.axis ++
    [⟨e.stillRef, false, .tin⟩] ++ more

def Env.mmaIns (e : Env) : List (Nat × Nat) :=
  e.tensors [e.S 1, e.S 2, e.S 3, e.stillRef] ++ e.carryExtent e.mmaEmpty (e.desc (e.S 1)).shape (e.desc (e.S 1)).axis
def Env.mmaOuts (e : Env) : List (Nat × Nat) :=
  e.tensors [e.S 4] ++ e.precExtent e.mmaEmpty (e.desc (e.S 1)).shape (e.desc (e.S 1)).axis

/-- The bytes that hold an element, and its scale byte. -/
def Desc.elemRuns (d : Desc) (ix : List Nat) : List (Nat × Nat) :=
  let w := fmtBits d.fmt
  let p := ix.getD 0 0 * w
  (d.lineAddr ix + p / 8, ceilDiv (p % 8 + w) 8) :: (if d.narrow then [(d.scaleAddr ix, 1)] else [])

/-- The line of an index, with its scales. -/
def Desc.lineRuns (d : Desc) (ix : List Nat) : List (Nat × Nat) :=
  (d.lineAddr ix, d.lineSize) ::
    (if d.planar then [(d.scaleAddr (0 :: ix.drop 1), if d.axis == 0 then ceilDiv (d.dim 0) 32 else d.dim 0)] else [])

/-- The rows that a product computes, as batch and row. -/
def Env.movingRows (e : Env) : List (Nat × Nat) :=
  ((List.range (batchOf (e.desc (e.S 4)))).flatMap (fun b => (List.range e.mmaM).map (fun m => (b, m)))).filter (fun r =>
    !(e.still (r.1 * e.mmaM + r.2)))

/-- The carry entries of a row over K from `lo` to `hi`. -/
def Env.rowCarry (e : Env) (r : Nat × Nat) (lo hi : Nat) : List (Nat × Nat) :=
  let a := e.desc (e.S 1)
  let cp := e.carry a.shape a.axis
  if e.prec.carryEn then
    ((List.range (hi - lo)).map (fun k => e.aIx r.1 r.2 (lo + k))).flatMap (fun ix => [(cp.elemAddr ix, 1), (cp.scaleAddr ix, 1)])
  else []

/-- The bytes of the ladder operand over K from `lo` to `hi` in one row. -/
def Env.rowRuns (e : Env) (r : Nat × Nat) (lo hi : Nat) : List (Nat × Nat) :=
  let a := e.desc (e.S 1)
  let w := fmtBits a.fmt
  let ks := ((List.range (hi - lo)).map (fun k => e.aIx r.1 r.2 (lo + k)))
  if e.transA then ks.flatMap a.elemRuns
  else if lo == 0 && hi == e.mmaK then a.lineRuns (e.aIx r.1 r.2 0)
  else if a.planar then
    (a.lineAddr (e.aIx r.1 r.2 0) + lo * w / 8, ceilDiv ((hi - lo) * w) 8) ::
      (if a.axis == 0 then [(a.scaleAddr (e.aIx r.1 r.2 lo), ceilDiv (hi - lo) 32)] else ks.map (fun ix => (a.scaleAddr ix, 1)))
  else ks.flatMap a.elemRuns

/-- Half a cell's scratchpad of 1.5 MiB (10 R244). -/
def halfScratchpad : Nat := 786432

/-- A cell keeps a band of `rows` rows and `ks` positions of K quantised at StartRung (04 R106): the pane loop is N-fast, and the
band fits in half the scratchpad. -/
def Env.bandKept (e : Env) (rows ks : Nat) : Bool :=
  let w := fmtBits (e.prec.rungFmt e.prec.startRung)
  e.tile.paneOrder != 2 &&
    decide (rows * (ceilDiv (roundUp ks 32 * w) 8 + (if e.prec.startRung == 3 then 0 else ceilDiv ks 32)) ≤ halfScratchpad)

/-- The K positions of a slice. -/
def Geo.sliceK (g : Geo) (s : Nat) : Nat × Nat := (32 * (g.sliceGroups s).1, min g.k (32 * (g.sliceGroups s).2))

/-- How often the cells read each band of A, as its task row, its slice and a number of times (04 R106): a cell that keeps a band
reads it once for all its pane columns, and again for each further attempt of a pane; another reads it for every pane and
attempt. -/
def Env.bandReads (e : Env) (g : Geo) (h : Sheeted) (tries : Nat → Nat) : List (Nat × Nat × Nat) :=
  let tasks := g.deal e.tile (some h) e.cells
  let keys := (tasks.map (fun k => (k.2.2.2, k.1 / g.pn, k.2.1))).eraseDups
  keys.map (fun key =>
    let mine := tasks.filter (fun k => (k.2.2.2, k.1 / g.pn, k.2.1) == key)
    let n := total (mine.map (fun k => tries k.1))
    let ks := g.sliceK key.2.2
    let rows := (g.rowsOf (key.2.1 * g.pn)).length
    (key.2.1, key.2.2, if e.bandKept rows (ks.2 - ks.1) then n + 1 - min n mine.length else n))

/-- The bytes that MMA and MMAS read but for B: the mask, the carry plane's header, A and the carry entries as often as their bands
are read, and C, of the moving rows alone (05 R138); `row` are the bytes of one row of A over some of K. -/
def Env.mmaRowReads (e : Env) (h : Sheeted) (row : Nat × Nat → Nat → Nat → List (Nat × Nat)) (tries : Nat → Nat) : List (Nat × Nat) :=
  let g := e.mmaGeo
  let c := e.desc (e.S 3)
  let rowsAt := fun (row : Nat) => ((g.rowsOf (row * g.pn)).map (fun m => (row / max 1 g.pm, m))).filter (fun r =>
    !(e.still (r.1 * e.mmaM + r.2)))
  e.tensors [e.stillRef] ++ (if e.prec.carryEn then [(e.obj (e.S 5), 64)] else []) ++
    (e.bandReads g h tries).flatMap (fun b =>
      let ks := g.sliceK b.2.1
      (List.replicate b.2.2 ((rowsAt b.1).flatMap (fun r => row r ks.1 ks.2 ++ e.rowCarry r ks.1 ks.2))).flatten) ++
    (if e.S 3 == 0 then [] else e.movingRows.flatMap (fun r => c.lineRuns (matIx c 0 r.2 r.1)))

/-- The attempts of a pane. -/
def triesOf (runs : List PaneRun) (p : Nat) : Nat := ((runs.find? (fun r => r.pane == p)).map (fun r => r.attempts.length)).getD 0

/-- What MMA reads. -/
def Env.mmaReads (e : Env) (tries : Nat → Nat) : List (Nat × Nat) := e.tensors [e.S 2] ++ e.mmaRowReads e.mmaSheet e.rowRuns tries

def mmaRun (e : Env) : OpOut :=
  if e.mmaEmpty then OpOut.idle
  else
    let o := e.prodRun e.mmaProduct e.tile e.mmaSheet (e.prodMain e.mmaProduct)
    { o with
      reads := some (e.mmaReads (triesOf (e.prodRuns e.mmaProduct)))
      counts := o.counts ++ [tick 0x3170 3 e.stillRows] }

def opMma : Op where
  dash := fun _ => []
  refs := fun e => e.mmaRefs []
  rules := fun e => firstCode (e.mmaRules true (bits (e.W 4) 32 32) e.mmaSheet ++
    [e.checkStill])
  ins := Env.mmaIns
  outs := Env.mmaOuts
  run := mmaRun
  guide := fun e => e.tensors [e.stillRef]
  fetch := fun e => e.mmaReads (fun _ => 1)
  idle := Env.mmaEmpty

/-! ## MMAS (05 R122 to R131) -/

/-- The sparsity header (05 R122). -/
def Env.shdr (e : Env) (o n : Nat) : Nat := e.le (e.obj e.metaRef + o) n
def Env.indexBase (e : Env) : Nat := e.shdr 0 8
def Env.mapBase (e : Env) : Nat := e.shdr 8 8
def Env.lineMapBase (e : Env) : Nat := e.shdr 16 8
def Env.logicalK (e : Env) : Nat := e.shdr 24 4
def Env.pattern (e : Env) : Nat := bits (e.shdr 28 1) 0 2
def Env.blockMap (e : Env) : Bool := bit (e.shdr 28 1) 2
def Env.zrA (e : Env) : Bool := bit (e.shdr 28 1) 3
def Env.shdrReserved (e : Env) : Bool := bits (e.shdr 28 1) 4 4 != 0 || e.shdr 29 35 != 0

/-- The stored K (05 R124). -/
def Env.storedK (e : Env) : Nat := if e.pattern == 1 then 2 * ceilDiv e.logicalK 4 else e.logicalK

/-- The 2:4 index of a stored element of a column (05 R125). -/
def Env.spIndex (e : Env) (b n j : Nat) : Nat :=
  let words := ceilDiv e.storedK 16
  bits (e.le (e.indexBase + 4 * ((n + e.mmaN * b) * words + j / 16)) 4) (2 * (j % 16)) 2

/-- Block (g, q) of B is present (05 R126). -/
def Env.blockPresent (e : Env) (b g q : Nat) : Bool :=
  !e.blockMap ||
    bit (e.le (e.mapBase + 4 * ((q + ceilDiv e.mmaN 64 * b) * ceilDiv (ceilDiv e.logicalK 32) 32 + g / 32)) 4) (g % 32)

/-- The products of a K group of MMAS in ascending logical K: stored elements at their positions, structural zeros
elsewhere (05 R127). -/
def Env.mmasTerms (e : Env) (b n g : Nat) (single : Bool) : List (Option (Nat × Num)) :=
  let d := e.desc (e.S 2)
  let bb := e.bBatch b
  if !e.blockPresent bb g (n / 64) then [none]
  else if e.pattern == 1 then
    (List.range 32).flatMap (fun i =>
      let kk := 32 * g + i
      let js := [2 * (kk / 4), 2 * (kk / 4) + 1].filter (fun j => j < e.storedK && e.spIndex bb n j == kk % 4)
      match js with
      | [] => if single && e.logicalK ≤ kk then [] else [none]
      | js => js.map (fun j => some (i, e.value d (matIx d j n bb))))
  else
    (List.range 32).filterMap (fun i =>
      let kk := 32 * g + i
      if kk < e.logicalK then some (some (i, e.value d (e.bIx b kk n))) else if single then none else some none)

/-- The result of decoding a zero-run line: its elements' bits, or malformed (05 R130, R131). -/
structure ZrLine where
  elems : List Nat
  ok : Bool
  raw : Nat
  deriving DecidableEq, Repr

/-- Decode the coded elements of a block entry: `n` runs and elements in a little-endian bit stream. -/
def zrElems (w v : Nat) : Nat → Nat → Nat → List (Nat × Nat)
  | 0, _, _ => []
  | n + 1, k, pos =>
    let run := bits v (k * (5 + w)) 5
    let p := pos + run
    (p, bits v (k * (5 + w) + 5) w) :: zrElems w v n (k + 1) (p + 1)

/-- Decode `n` block entries of a line's code (05 R130). -/
def zrBlocks (w : Nat) : Nat → Bytes → ZrLine
  | 0, rest => ⟨[], rest == [], 0⟩
  | n + 1, code =>
    match code with
    | [] => ⟨List.replicate (32 * (n + 1)) 0, false, 0⟩
    | h :: t =>
      let nz := bits h.toNat 0 6
      let raw := bit h.toNat 7
      if bit h.toNat 6 || decide (32 < nz) || (raw && nz != 0) then ⟨List.replicate (32 * (n + 1)) 0, false, 0⟩
      else if raw then
        let body := t.take (4 * w)
        let r := zrBlocks w n (t.drop (4 * w))
        ⟨(List.range 32).map (fun i => bits (leNat body) (i * w) w) ++ r.elems, r.ok && body.length == 4 * w, r.raw + 1⟩
      else
        let len := ceilDiv (nz * (5 + w)) 8
        let body := t.take len
        let v := leNat body
        let es := zrElems w v nz 0 0
        let r := zrBlocks w n (t.drop len)
        ⟨(List.range 32).map (fun i => match es.find? (fun x => x.1 == i) with
            | some x => x.2
            | none => 0) ++ r.elems,
          r.ok && body.length == len && es.all (fun x => x.1 < 32) && v < 2 ^ (nz * (5 + w)), r.raw⟩

/-- A line of a ZR operand (05 R129): its line map entry and, where it is coded, its decoded elements. -/
def Env.zrLine (e : Env) (d : Desc) (map line : Nat) (ix : List Nat) : Option ZrLine :=
  let l := e.le (map + 4 * line) 4
  if l == 0 then none
  else if d.stride 1 < l && 2 ≤ d.rank then some ⟨[], false, 0⟩
  else some (zrBlocks (fmtBits d.fmt) (ceilDiv (d.dim 0) 32) (e.bytes (d.lineAddr ix) l))

/-- The bytes of a line of a ZR operand (05 R129, R131): its code, none of one longer than Stride1, or its storage, and its
scales. -/
def Env.zrRuns (e : Env) (d : Desc) (map line : Nat) (ix : List Nat) : List (Nat × Nat) :=
  let l := e.le (map + 4 * line) 4
  (d.lineAddr ix, if l == 0 then d.lineSize else if d.stride 1 < l && 2 ≤ d.rank then 0 else l) :: (d.lineRuns ix).drop 1

/-- The value of an element of a ZR operand. -/
def Env.zrValue (e : Env) (d : Desc) (map line : Nat) (ix : List Nat) : Num :=
  match e.zrLine d map line ix with
  | none => e.value d ix
  | some z => if d.inside ix then scaled (decodeFloat d.fmt (z.elems.getD (ix.getD 0 0) 0)) (e.scaleByte d ix) else Num.zero

/-- Line number of A's line, b × M + m (05 R129). -/
def Env.aLine (e : Env) (ix : List Nat) : Nat := ix.getD 2 0 * e.mmaM + ix.getD 1 0

/-- The bytes of a row of A that MMAS reads over K from `lo` to `hi`: a coded line is decoded whole. -/
def Env.mmasRow (e : Env) (r : Nat × Nat) (lo hi : Nat) : List (Nat × Nat) :=
  let ix := e.aIx r.1 r.2 0
  if e.zrA then e.zrRuns (e.desc (e.S 1)) e.lineMapBase (e.aLine ix) ix else e.rowRuns r lo hi

def Env.mmasVal (e : Env) (ix : List Nat) : Num :=
  let a := e.desc (e.S 1)
  if e.zrA then e.zrValue a e.lineMapBase (e.aLine ix) ix else e.value a ix

def Env.mmasProduct (e : Env) : Product :=
  let a := e.desc (e.S 1)
  let b := e.desc (e.S 2)
  let x := e.mmaProduct
  { x with
    ladVal := e.mmasVal
    ladBad := fun ix => a.inside ix && (!(e.mmasVal ix).isFin || (a.narrow && e.scaleByte a ix == 0xFF))
    terms := e.mmasTerms
    colBad := fun bb n => (List.range e.storedK).any (fun j =>
      e.blockPresent (e.bBatch bb) (if e.pattern == 1 then j / 16 else j / 32) (n / 64) &&
        e.nonFinite b (if e.pattern == 1 then matIx b j n (e.bBatch bb) else e.bIx bb j n)) }

/-- The moving lines of A that are coded, decoded. -/
def Env.mmasLines (e : Env) (p : Nat) : List ZrLine :=
  let x := e.mmasProduct
  let b := x.geo.paneBatch p
  (x.bandRows p).filterMap (fun m => e.zrLine (e.desc (e.S 1)) e.lineMapBase (b * e.mmaM + m) (e.aIx b m 0))

/-- Bead K-group steps skipped for absent blocks in one attempt of a pane (05 R148). -/
def Env.mmasSkipped (e : Env) (p : Nat) : Nat :=
  let x := e.mmasProduct
  let qs := ((x.geo.colsOf p).map (fun n => n / 64)).eraseDups
  ceilDiv (x.bandRows p).length 128 *
    total (qs.map (fun q => ((List.range x.geo.groups).filter (fun g =>
      !(e.blockPresent (e.bBatch (x.geo.paneBatch p)) g q))).length))

/-- Bytes of an input area of the sparsity header lie where inputs may (05 R123). -/
def Env.areaBroken (e : Env) (a n : Nat) : Bool := a % 4 != 0 || !(e.s.hullOk false a n)

def Env.mmasIndexBytes (e : Env) : Nat := 4 * ceilDiv e.storedK 16 * e.mmaN * batchOf (e.desc (e.S 2))
def Env.mmasMapBytes (e : Env) : Nat :=
  4 * ceilDiv (ceilDiv e.logicalK 32) 32 * ceilDiv e.mmaN 64 * batchOf (e.desc (e.S 2))
def Env.mmasLineMapBytes (e : Env) : Nat := 4 * e.mmaM * batchOf (e.desc (e.S 1))

/-- The metadata areas in use, as byte runs. -/
def Env.mmasAreas (e : Env) : List (Nat × Nat) :=
  (if e.pattern == 1 then [(e.indexBase, e.mmasIndexBytes)] else []) ++
    (if e.blockMap then [(e.mapBase, e.mmasMapBytes)] else []) ++
    (if e.zrA then [(e.lineMapBase, e.mmasLineMapBytes)] else [])

def mmasSheet (e : Env) : Sheeted :=
  let stored := fun k => if e.pattern == 1 then 2 * ceilDiv k 4 else k
  e.sheeted e.mmaN stored (fun k => if e.pattern == 1 then 4 * ceilDiv (stored k) 16 else 0)
    (fun k => if e.blockMap then 4 * ceilDiv (ceilDiv k 32) 32 else 0) e.mmasAreas

/-- The 32-byte sectors of a run that meet one of some runs, cut to it. -/
def sectorsOf (x : Nat × Nat) (used : List (Nat × Nat)) : List (Nat × Nat) :=
  ((List.range ((x.1 + x.2 - 1) / 32 + 1 - x.1 / 32)).map (fun i => x.1 / 32 + i)).filterMap (fun s =>
    let lo := max x.1 (32 * s)
    let hi := min (x.1 + x.2) (32 * s + 32)
    if used.any (fun u => runsMeet u (32 * s, 32)) then some (lo, hi - lo) else none)

/-- What MMAS reads of B (05 R126): no 32-byte sector that holds only absent blocks. -/
def Env.mmasB (e : Env) : List (Nat × Nat) :=
  let b := e.desc (e.S 2)
  if !e.blockMap then b.extent
  else
    let w := fmtBits b.fmt
    let per := if e.pattern == 1 then 16 else 32
    let here := fun (bb n : Nat) => (List.range (ceilDiv e.logicalK 32)).filter (fun g => e.blockPresent bb g (n / 64))
    let elems := fun ix : List Nat => (here (ix.getD 2 0) (ix.getD 1 0)).map (fun g =>
      (b.lineAddr ix + per * g * w / 8, per * w / 8))
    let scales := fun ix : List Nat => (here (ix.getD 2 0) (ix.getD 1 0)).map (fun g =>
      (b.scaleAddr ((per * g) :: ix.drop 1), 1))
    b.lines.flatMap (fun ix => sectorsOf (b.lineAddr ix, b.lineSize) (elems ix ++ (if b.layout == 1 then scales ix else []))) ++
      (if b.planar then sectorsOf (b.scaleBase, b.scaleCount) (b.lines.flatMap scales) else [])

/-- MMAS. The wide run of a sampled shadow pane counts no skipped step and no decoded entry (DESIGN CHOICE, log entry 165: 05 R148
does not say whether it does). -/
def mmasRun (e : Env) : OpOut :=
  if e.mmaEmpty then OpOut.idle
  else
    let x := e.mmasProduct
    let runs := e.prodRuns x
    let lines := fun p => if e.zrA then e.mmasLines p else []
    let o := e.prodRun x e.tile (mmasSheet e) (e.prodMain x)
    let attempts := runs.map (fun r => (r.pane, r.attempts.length))
    let coded := attempts.any (fun r => r.2 != 0 && (lines r.1) != [])
    let bad := e.zrA && attempts.any (fun r => r.2 != 0 && (lines r.1).any (fun z => !z.ok))
    { o with
      fail := if bad then 0x0330 else o.fail
      failKeeps := !bad && o.failKeeps
      detail := if bad then ((attempts.find? (fun r => (lines r.1).any (fun z => !z.ok))).map (fun r => r.1)).getD 0
        else o.detail
      reads := some (e.mmasB ++ e.mmaRowReads (mmasSheet e) e.mmasRow (triesOf runs) ++ e.mmasAreas)
      counts := o.counts ++ [tick 0x3170 3 e.stillRows, tick 0x3170 4 (if coded then e.s.free (2 ^ 83) else 0),
        tick 0x3170 1 (total (attempts.map (fun r => r.2 * e.mmasSkipped r.1))),
        tick 0x3170 5 (total (attempts.map (fun r => r.2 * total ((lines r.1).map (fun z => z.elems.length / 32))))),
        tick 0x3170 6 (total (attempts.map (fun r => r.2 * total ((lines r.1).map (fun z => z.raw)))))] }

def opMmas : Op where
  dash := fun _ => []
  refs := fun e => e.mmaRefs [⟨e.metaRef, true, .hdr 0⟩]
  rules := fun e =>
    let a := e.desc (e.S 1)
    firstCode (e.mmaRules false 0 (mmasSheet e) ++
      [rule e.shdrReserved 0x0102,
       rule (decide (2 ≤ e.pattern) || (e.indexBase != 0) != (e.pattern == 1) || (e.mapBase != 0) != e.blockMap ||
         (e.lineMapBase != 0) != e.zrA) 0x0136,
       rule (e.logicalK != e.mmaK || (e.desc (e.S 2)).dim (if e.transB then 1 else 0) != e.storedK ||
         (e.desc (e.S 2)).dim (if e.transB then 0 else 1) != e.mmaN ||
         (e.transB && (e.pattern == 1 || e.blockMap))) 0x0137,
       rule (e.zrA && (!a.narrow || a.axis != 0 || a.layout != 0 || e.transA)) 0x0138,
       rule (e.mmasAreas.any (fun r => e.areaBroken r.1 r.2)) 0x0139,
       e.checkStill])
  ins := fun e => e.mmaIns ++ e.mmasAreas
  outs := Env.mmaOuts
  run := mmasRun
  guide := fun e => e.tensors [e.stillRef] ++ e.mmasAreas
  fetch := fun e => e.mmasB ++ e.mmaRowReads (mmasSheet e) e.mmasRow (fun _ => 1) ++ e.mmasAreas
  idle := Env.mmaEmpty

end Sys2Proof.Machine
end

