-- ==== Sys2Proof/Machine/Sfu.lean ====
section
/-! DEFINITION. Sfu: the special-function unit: its reductions, segments and cubics, what R182 and R184 hold them to, the fixed
results, the functions built from others, and the OPW-2406 unit (07 R180 to R185, R197). -/

namespace Sys2Proof.Machine
open Sys2Proof

/-! ## Exact values (07 R182: what errors are measured from), in fixed point with 256 fractional bits -/

def fixOne : Int := 2 ^ 256
def fixMul (a b : Int) : Int := a * b / fixOne
def fixDiv (a b : Int) : Int := a * fixOne / b
def fixOf (x : Num) : Int :=
  match x with
  | .fin n m e => if 0 ≤ e + 256 then Num.signed n m * 2 ^ (e + 256).toNat else Num.signed n m / 2 ^ (-(e + 256)).toNat
  | _ => 0
def ofFix (x : Int) : Num := .fin (x < 0) x.natAbs (-256)

def fixLn2 : Int := 80260960185991308862233904206310070533990667611589946606122867505419956976171
def fixPi : Int := 363771576891766324280234942777729862653393377328392429958772151117938894466185

/-- 1 + r/k × (1 + r/(k + 1) × …), by fuel. -/
def fixExpSeries (r : Int) : Nat → Int → Int
  | 0, _ => fixOne
  | f + 1, k => fixOne + fixMul r (fixExpSeries r f (k + 1)) / k

/-- 1/k + z/(k + 2) + z²/(k + 4) + …, by fuel. -/
def fixOddSeries (z : Int) : Nat → Int → Int
  | 0, _ => 0
  | f + 1, k => fixOne / k + fixMul z (fixOddSeries z f (k + 2))

/-- The sum of terms that each follow from the one before, by fuel. -/
def fixSum (next : Int → Int → Int) (part : Int → Int → Int) : Nat → Int → Int → Int
  | 0, _, _ => 0
  | f + 1, k, t => part k t + fixSum next part f (k + 1) (next k t)

def exactExp (x : Num) : Num :=
  let v := fixOf x
  let n := v / fixLn2
  (ofFix (fixExpSeries (v - n * fixLn2) 70 1)).scale n

def exactLog (x : Num) : Num :=
  let k := x.log2
  let y := fixOf (x.scale (-k))
  let z := fixDiv (y - fixOne) (y + fixOne)
  ofFix (2 * fixMul z (fixOddSeries (fixMul z z) 90 1) + k * fixLn2)

def exactExp2 (x : Num) : Num := exactExp (ofFix (fixMul (fixOf x) fixLn2))
def exactLog2 (x : Num) : Num := ofFix (fixDiv (fixOf (exactLog x)) fixLn2)
def exactRecip (x : Num) : Num := ofFix (fixDiv fixOne (fixOf (x.scale (-x.log2)))) |>.scale (-x.log2)
def exactRsqrt (x : Num) : Num :=
  let k := x.log2 / 2
  (ofFix (fixDiv fixOne (Int.ofNat (Nat.sqrt (2 ^ 256 * (fixOf (x.scale (-2 * k))).toNat))))).scale (-k)
def exactSigmoid (x : Num) : Num := ofFix (fixDiv fixOne (fixOne + fixOf (exactExp x.neg)))
def exactTanh (x : Num) : Num :=
  let t := fixOf (exactExp (x.scale 1))
  ofFix (fixDiv (t - fixOne) (t + fixOne))
/-- log(1 + exp(x)), for an x between −17 and 16. -/
def exactSoftplus (x : Num) : Num := exactLog (ofFix (fixOne + fixOf (exactExp x)))
/-- 2 ÷ √π × Σ (−1)^j x^(2j + 1) ÷ (j! (2j + 1)). -/
def exactErf (x : Num) : Num :=
  let v := fixOf x
  let s := fixSum (fun j t => fixMul (fixMul t v) v / (-(j + 1))) (fun j t => t / (2 * j + 1)) 180 0 v
  ofFix (fixDiv (2 * s) (Int.ofNat (Nat.sqrt (2 ^ 256 * fixPi.toNat))))
/-- The Taylor series of sine (k = 1 from x) and of cosine (k = 0 from 1), past whole turns. -/
def exactSin (x : Num) : Num :=
  let v := fixOf x % (2 * fixPi)
  ofFix (fixSum (fun j t => fixMul (fixMul t v) v / (-((2 * j + 2) * (2 * j + 3)))) (fun _ t => t) 80 0 v)
def exactCos (x : Num) : Num :=
  let v := fixOf x % (2 * fixPi)
  ofFix (fixSum (fun j t => fixMul (fixMul t v) v / (-((2 * j + 1) * (2 * j + 2)))) (fun _ t => t) 80 0 fixOne)

/-- A composite x × g(x) away from 0, where g is 1 (above) or 0 (below) to far within the bounds of R182. -/
def exactGated (limit : Nat) (x : Num) (g : Num → Num) : Num :=
  if Num.le (.ofNat limit) x.abs then (if x.sign then Num.zero else x) else ofFix (fixMul (fixOf x) (fixOf (g x)))

def exactSilu (x : Num) : Num := exactGated 120 x exactSigmoid
/-- 0.5 (1 + tanh(0.797885 (x + 0.044715 x³))). -/
def exactGeluTanh (x : Num) : Num :=
  exactGated 20 x (fun x =>
    let v := fixOf x
    let a := (v + fixMul (fixMul v v) v * 44715 / 1000000) * 797885 / 1000000
    ofFix ((fixOne + fixOf (exactTanh (ofFix a))) / 2))
/-- 0.5 (1 + erf(x ÷ √2)). -/
def exactGeluErf (x : Num) : Num :=
  exactGated 8 x (fun x =>
    let r := Int.ofNat (Nat.sqrt (2 * (2 ^ 256) ^ 2))
    ofFix ((fixOne + fixOf (exactErf (ofFix (fixDiv (fixOf x) r)))) / 2))

/-! ## Cubics (07 R183)

R183 fixes the reductions and reconstructions for each function and keeps them, with the coefficients, in a table outside the spec. The
roundings inside them are a DESIGN CHOICE (log entry 161): the product x × log2 e is taken as its FP32 part and the FP32 part of the rest,
and the two are added exactly; the reduced argument is rounded once to FP32; Log2 adds its exponent with one rounding; Log multiplies by
ln 2 as an FP32 part with a fused multiply-add over the product with the rest. -/

/-- A fused multiply-add with one RNE rounding. -/
def ffma (a b c : Num) : Num := round32 ((a.mul b).add c)

/-- ((c3 × t + c2) × t + c1) × t + c0 on a segment of a function; the coefficients are in a table outside the spec. -/
def cubic (code seg : Nat) (t : Num) : Num :=
  let c := fun k => decodeFloat 0 (Config.sfnCoef code seg k).toNat
  ffma (ffma (ffma (c 3) t (c 2)) t (c 1)) t (c 0)

def floorNum : Num → Int
  | .fin n m e => if 0 ≤ e then Num.signed n m * 2 ^ e.toNat else Num.signed n m / 2 ^ (-e).toNat
  | _ => 0

/-- A cubic on the segment that holds `x`, for seams at multiples of 1/`d`: the segment that the largest seam at or below x
begins, and t = x less that seam. -/
def onSeams (code : Nat) (seams : List Int) (d : Nat) (x : Num) : Num :=
  let below := seams.filter (fun s => Num.le (.ofInt s) (x.mul (.ofNat d)))
  let start := (Num.ofInt (below.getLastD 0)).quotient (.ofNat d)
  cubic code (below.length - 1) (round32 (x.sub start))

/-- A cubic on equal segments of 1/2^`b` from `a` on. -/
def onGrid (code b : Nat) (x : Num) : Num :=
  let k := floorNum (x.scale b)
  cubic code k.toNat (round32 (x.sub ((Num.ofInt k).scale (-(b : Int)))))

def sigmoidSeams : List Int :=
  [-32, -28, -24, -20] ++ (List.range 16).map (fun (k : Nat) => (k : Int) - 16) ++ (List.range 16).map (fun (k : Nat) => (k : Int) + 1) ++
    [20, 24, 28, 32]
def tanhSeams : List Int := [0, 1, 2, 3, 4, 5, 6, 7, 8, 10, 12, 16, 20, 24, 28, 32]
def erfSeams : List Int := (List.range 16).map (fun (k : Nat) => (k : Int))

/-- Exp2: x = n + f, on 32 segments of f. -/
def rawExp2 (x : Num) : Num :=
  let n := floorNum x
  round32 ((onGrid 0x08 5 (x.sub (.ofInt n))).scale n)
/-- x × log2 e as a two-term FP32 product, then as Exp2. -/
def rawExp (x : Num) : Num :=
  let y := x.mul (ofFix (fixDiv fixOne fixLn2))
  let hi := round32 y
  rawExp2 (hi.add (round32 (y.sub hi)))
/-- Log2: x = 2^e × m, on 32 segments of m − 1. -/
def rawLog2 (x : Num) : Num :=
  fadd (.ofInt x.log2) (onGrid 0x0A 5 ((x.scale (-x.log2)).sub Num.one))
/-- Log2 times ln 2 as a two-term product. -/
def rawLog (x : Num) : Num :=
  let hi := round32 (ofFix fixLn2)
  let l := rawLog2 x
  ffma l hi (fmul l (round32 ((ofFix fixLn2).sub hi)))
def rawRecip (x : Num) : Num :=
  round32 ((onGrid 0x0B 5 ((x.scale (-x.log2)).sub Num.one)).scale (-x.log2))
/-- Rsqrt: x = 4^e × m, on 48 segments of m − 1. -/
def rawRsqrt (x : Num) : Num :=
  let k := x.log2 / 2
  round32 ((onGrid 0x0C 4 ((x.scale (-2 * k)).sub Num.one)).scale (-k))
/-- Sin and Cos: reduction by π ÷ 2 with a 96-bit constant, then the quadrant's 16 segments. -/
def rawTurn (code : Nat) (x : Num) : Num :=
  let c := roundTo .rne 95 (-200) (ofFix (fixPi / 2))
  let q := fixOf x / fixOf c
  let r := x.sub ((Num.ofInt q).mul c)
  let k := min 15 (fixOf r * 32 / fixPi).toNat
  cubic code (16 * (q % 4).toNat + k) (round32 (r.sub (ofFix (k * fixPi / 32))))

/-! ## Bounds and order (07 R182, R184) -/

def pow2 (k : Int) : Num := .fin false 1 k
def numMax (x y : Num) : Num := if Num.lt x y then y else x
def numMin (x y : Num) : Num := if Num.lt y x then y else x

/-- The FP32 values next to a magnitude: at or below it, and at or above it. -/
def magDown (x : Num) : Num := roundTo .zero 23 (-126) x
def magUp (x : Num) : Num :=
  let y := magDown x
  if Num.lt y x then decodeFloat 0 (bits32 y + 1) else y
def numDown (x : Num) : Num := if x.sign then (magUp x.neg).neg else magDown x
def numUp (x : Num) : Num := if x.sign then (magDown x.neg).neg else magUp x

/-- An ulp: the spacing of FP32 values at an exact result. -/
def ulpOf (x : Num) : Num := pow2 (max x.log2 (-126) - 23)

/-- A value brought into a closed range; a NaN goes to its lower end. -/
def intoRange (lo hi x : Num) : Num := if x.isNan || Num.lt x lo then lo else if Num.lt hi x then hi else x

/-- A cubic's magnitude brought within `n` ulps of the exact one, and between the results that R182 fixes around it. -/
def ulpsOf (n : Nat) (exact lo hi x : Num) : Num :=
  if (round32 exact).isInf then .inf false
  else
    let u := (ulpOf exact).mul (.ofNat n)
    let a := exact.sub u
    intoRange (numMax lo (if a.sign then Num.zero else magUp a)) (numMin hi (numMin (fmtMax 0) (magDown (exact.add u)))) x

/-- The largest value of a function over the bit patterns from `a` to `a` + n: what keeps results in order (07 R184). Each value lies
within its bounds, which rise with the exact result, so that the largest lies within the bounds of the last exact result. -/
def mostOf (f : Nat → Num) (a : Nat) : Nat → Num
  | 0 => f a
  | n + 1 => numMax (mostOf f a n) (f (a + n + 1))

/-- A monotone native function by argument bits, whose result's magnitude rises with the argument's from `a` on: `f` gives it within its
bounds, and no result lies below an earlier one. Of a table that is in order already, it is the table's own value. -/
def rising (a : Nat) (x : Num) (f : Num → Num) : Num := mostOf (fun b => f (decodeFloat 0 b)) a (bits32 x.abs - a)

/-- One whose result's magnitude falls as the argument's rises to `b`: no result lies below a later one. -/
def falling (b : Nat) (x : Num) (f : Num → Num) : Num :=
  let i := bits32 x.abs
  mostOf (fun b => f (decodeFloat 0 b)) i (b - i)

def signOf (n : Bool) (x : Num) : Num := if n then x.neg else x

/-- A result within a bound of the exact value. -/
def boundTo (exact b r : Num) : Num := intoRange (numUp (exact.sub b)) (numDown (exact.add b)) r

/-- A function that is not monotone within its bound: `n` ulps or 2^`k`, whichever is larger. -/
def looseTo (n : Nat) (k : Int) (exact r : Num) : Num := boundTo exact (numMax ((ulpOf exact).mul (.ofNat n)) (pow2 k)) r

/-- Sin or Cos within its bound: 2 ulps or 2^−24, and 2^−20 beyond |x| = 2^20. -/
def turnWithin (exact x r : Num) : Num :=
  if Num.le x.abs (pow2 20) then looseTo 2 (-24) exact r else boundTo exact (pow2 (-20)) r

/-- 2 ÷ √π to 60 decimal places. -/
def twoOverRootPi : Num :=
  (Num.ofNat 1128379167095512573896158903121545171688101258657997713688171).quotient (.ofNat (10 ^ 60))

/-- Exp away from its fixed results. -/
def nativeExp (x : Num) : Num :=
  if x.sign then falling 0x42D00000 x (fun y => ulpsOf 2 (exactExp y.neg) Num.zero Num.one (rawExp y.neg))
  else rising 1 x (fun y => ulpsOf 2 (exactExp y) Num.one (fmtMax 0) (rawExp y))

/-- The unit's own evaluation of a function away from its fixed results (07 R182 to R184). R182's bounds and R184's order are
held whatever the coefficients are: a result out of bounds is brought to the bound, and one that would step backward takes the value of
the result that it would pass. -/
def sfuNative (code : Nat) (x : Num) : Num :=
  match code with
  | 0x05 =>
    if x.sign then
      -- at and below −16 stands Exp(x) − Exp(2x)
      falling 0x417FFFFF x (fun y => ulpsOf 2 (exactSigmoid y.neg) (fsub (nativeExp (.ofInt (-16))) (nativeExp (.ofInt (-32)))) (pow2 (-1))
        (onSeams 0x05 sigmoidSeams 2 y.neg))
    else rising 1 x (fun y => ulpsOf 2 (exactSigmoid y) (pow2 (-1)) Num.one (onSeams 0x05 sigmoidSeams 2 y))
  | 0x06 =>
    signOf x.sign (rising 0x39800000 x (fun y => ulpsOf 2 (exactTanh y) (decodeFloat 0 0x397FFFFF) Num.one
      (onSeams 0x06 tanhSeams 4 y)))
  | 0x07 => nativeExp x
  | 0x08 =>
    let f := fun y => ulpsOf 1 (exactExp2 y) (pow2 (floorNum y)) (pow2 (floorNum y + 1)) (rawExp2 y)
    if x.sign then falling 0x43160000 x (fun y => f y.neg) else rising 1 x f
  | 0x09 =>
    if Num.lt x Num.one then
      (falling 0x3F7FFFFF x (fun y => ulpsOf 2 (exactLog y).abs Num.zero (fmtMax 0) (rawLog y).neg)).neg
    else rising 0x3F800001 x (fun y => ulpsOf 2 (exactLog y) Num.zero (fmtMax 0) (rawLog y))
  | 0x0A =>
    if Num.lt x Num.one then
      (falling 0x3F7FFFFF x (fun y => ulpsOf 2 (exactLog2 y).abs (.ofInt (-1 - y.log2)) (.ofInt (-y.log2)) (rawLog2 y).neg)).neg
    else rising 0x3F800001 x (fun y => ulpsOf 2 (exactLog2 y) (.ofInt y.log2) (.ofInt (y.log2 + 1)) (rawLog2 y))
  | 0x0B =>
    signOf x.sign (falling 0x7F7FFFFF x (fun y => ulpsOf 1 (exactRecip y) (pow2 (-1 - y.log2)) (pow2 (-y.log2)) (rawRecip y)))
  | 0x0C =>
    falling 0x7F7FFFFF x (fun y => ulpsOf 1 (exactRsqrt y) (pow2 (-1 - y.log2 / 2)) (pow2 (-(y.log2 / 2))) (rawRsqrt y))
  | 0x0E => turnWithin (exactSin x) x (rawTurn 0x0E x)
  | 0x0F => turnWithin (exactCos x) x (rawTurn 0x0F x)
  | _ =>
    -- below 2^−12 stands x × 2 ÷ √π
    signOf x.sign (rising 0x39800000 x (fun y => ulpsOf 2 (exactErf y) (round32 ((decodeFloat 0 0x397FFFFF).mul twoOverRootPi)) Num.one
      (onSeams 0x11 erfSeams 4 y)))

/-! ## Fixed results and composite functions (07 R181 to R185) -/

/-- A rational constant in FP32. -/
def const32 (n d : Nat) : Num := fdiv (.ofNat n) (.ofNat d)

/-- x ≥ `n` ÷ `d` for a finite x. -/
def geq (x : Num) (n : Int) (d : Nat) : Bool := Num.le (.ofInt n) (x.mul (.ofNat d))

/-- An integer value, if it is one. -/
def asInt : Num → Option Int
  | .fin n m e =>
    if e < 0 then (if m % 2 ^ (-e).toNat == 0 then some (Num.signed n (m / 2 ^ (-e).toNat)) else none)
    else some (Num.signed n (m * 2 ^ e.toNat))
  | _ => none

/-- The exponent of a positive power of two. -/
def asPow2 : Num → Option Int
  | .fin false m e => if m != 0 && m == 2 ^ Nat.log2 m then some ((Nat.log2 m : Int) + e) else none
  | _ => none

def sfuExp (x : Num) : Num :=
  match x with
  | .nan => .nan
  | .inf n => if n then Num.zero else .inf false
  | _ =>
    if x.isZero then Num.one
    else if Num.lt (.ofNat 8872284) (x.mul (.ofNat 100000)) then .inf false
    else if Num.lt x (.ofInt (-104)) then Num.zero
    else nativeExp x

def sfuLog (x : Num) : Num :=
  match x with
  | .nan => .nan
  | .inf n => if n then .nan else .inf false
  | .fin n _ _ =>
    if x.isZero then .inf true else if n then .nan else if Num.eqv x Num.one then Num.zero else sfuNative 0x09 x

/-- Log of an exact value that FP32 may not hold: within its bound, and between the results of the FP32 values next to it. -/
def sfuLogOf (x : Num) : Num :=
  if Num.eqv (round32 x) x then sfuLog x
  else
    let u := (ulpOf (exactLog x)).scale 1
    intoRange (sfuLog (magDown x)) (sfuLog (magUp x)) (boundTo (exactLog x) u (rawLog x))

def sfuRsqrt (x : Num) : Num :=
  match x with
  | .nan => .nan
  | .inf n => if n then .nan else Num.zero
  | .fin n _ _ =>
    if x.isZero then .inf n
    else if n then .nan
    else match asPow2 x with
      | some k => if k % 2 == 0 then round32 (pow2 (-(k / 2))) else sfuNative 0x0C x
      | none => sfuNative 0x0C x

def sfuSigmoid (x : Num) : Num :=
  match x with
  | .nan => .nan
  | .inf n => if n then Num.zero else Num.one
  | _ =>
    if x.isZero then .fin false 1 (-1)
    else if geq x 17 1 then Num.one
    else if Num.le x (.ofInt (-16)) then fsub (sfuExp x) (sfuExp (fmul (.ofNat 2) x))
    else sfuNative 0x05 x

def sfuTanh (x : Num) : Num :=
  match x with
  | .nan => .nan
  | .inf n => signOf n Num.one
  | .fin n _ _ =>
    if Num.lt x.abs (.fin false 1 (-12)) then x
    else if geq x.abs 91 10 then signOf n Num.one
    else sfuNative 0x06 x

def sfuErf (x : Num) : Num :=
  match x with
  | .nan => .nan
  | .inf n => signOf n Num.one
  | .fin n _ _ =>
    if x.isZero then x
    else if Num.lt x.abs (.fin false 1 (-12)) then round32 (x.mul twoOverRootPi)
    else if geq x.abs 4 1 then signOf n Num.one
    else sfuNative 0x11 x

/-- Softplus between −17 and 16, from Exp and Log (07 R183), in its bound and its order: Exp(−17) stands at −17, and 16 at 16. -/
def sfuSoftplus (x : Num) : Num :=
  let half := decodeFloat 0 0x3F317218
  let f := fun (y : Num) => sfuLog (fadd Num.one (sfuExp y))
  if x.sign then falling 0x4187FFFF x (fun y => ulpsOf 3 (exactSoftplus y.neg) (sfuExp (.ofInt (-17))) half (f y.neg))
  else rising 1 x (fun y => ulpsOf 3 (exactSoftplus y) half (.ofNat 16) (f y))

/-- The native special-function unit on an FP32 argument (07 R181, R182, R185); composite functions evaluate their parts in
the order of their formulas (R183), and a result out of its bound is brought to it (R182). -/
def sfu (code : Nat) (x : Num) : Num :=
  if x.isNan then .nan
  else
    let half : Num := .fin false 1 (-1)
    match code with
    | 0x00 => x
    | 0x01 => if Num.lt Num.zero x then x else Num.zero
    | 0x02 => match x with
      | .inf n => if n then Num.negZero else .inf false
      | _ => if x.isZero then x else looseTo 3 (-24) (exactSilu x) (fmul x (sfuSigmoid x))
    | 0x03 => match x with
      | .inf n => if n then Num.negZero else .inf false
      | _ =>
        if x.isZero then x
        else
          let t3 := fmul (fmul x x) x
          let inner := fmul (const32 797885 1000000) (fadd x (fmul (const32 44715 1000000) t3))
          looseTo 4 (-23) (exactGeluTanh x) (fmul (fmul half x) (fadd Num.one (sfuTanh inner)))
    | 0x04 => match x with
      | .inf n => if n then Num.negZero else .inf false
      | _ =>
        if x.isZero then x
        else looseTo 4 (-23) (exactGeluErf x) (fmul (fmul half x) (fadd Num.one (sfuErf (fdiv x (fsqrt (.ofNat 2))))))
    | 0x05 => sfuSigmoid x
    | 0x06 => sfuTanh x
    | 0x07 => sfuExp x
    | 0x08 => match x with
      | .inf n => if n then Num.zero else .inf false
      | _ =>
        if geq x 128 1 then .inf false
        else if Num.lt x (.ofInt (-150)) then Num.zero
        else match asInt x with
          | some k => round32 (pow2 k)
          | none => sfuNative 0x08 x
    | 0x09 => sfuLog x
    | 0x0A => match x with
      | .inf n => if n then .nan else .inf false
      | .fin n _ _ =>
        if x.isZero then .inf true else if n then .nan
        else match asPow2 x with
          | some k => .ofInt k
          | none => sfuNative 0x0A x
      | .nan => .nan
    | 0x0B => match x with
      | .inf n => .fin n 0 0
      | .fin n _ _ =>
        if x.isZero then .inf n
        else match asPow2 x.abs with
          | some k => round32 (signOf n (pow2 (-k)))
          | none => sfuNative 0x0B x
      | .nan => .nan
    | 0x0C => sfuRsqrt x
    | 0x0D => fsqrt x
    | 0x0E => if x.isInf then .nan else if x.isZero then x else sfuNative 0x0E x
    | 0x0F => if x.isInf then .nan else if x.isZero then Num.one else sfuNative 0x0F x
    | 0x10 => match x with
      | .inf n => if n then Num.zero else .inf false
      | _ =>
        if x.isZero then decodeFloat 0 0x3F317218
        else if geq x 16 1 then x
        else if Num.le x (.ofInt (-17)) then sfuExp x
        else sfuSoftplus x
    | _ => sfuErf x

/-- A subnormal FP32 value. -/
def subnormal32 (x : Num) : Bool := x.isFin && !x.isZero && Num.lt x.abs (.fin false 1 (-126))

/-- A result that R181 or R185 gives whatever the table holds: of Identity, of ReLU, at a zero or an infinity, and of a negative
argument of Log or Rsqrt. -/
def fixedResult (code : Nat) (x : Num) : Bool :=
  code == 0x00 || code == 0x01 || x.isInf || x.isZero || (x.sign && (code == 0x09 || code == 0x0C))

/-- The OPW-2406 unit (07 R197): a subnormal argument is a zero of its sign, a subnormal result is +0, R181 and R185 hold, and
everything else is its own table. -/
def sfuCompat (code : Nat) (x : Num) : Num :=
  if x.isNan then .nan
  else
    let y := if subnormal32 x then .fin x.sign 0 0 else x
    let r := if fixedResult code y then sfu code y else decodeFloat 0 (Config.sfnCompat code (BitVec.ofNat 32 (bits32 y))).toNat
    if subnormal32 r then Num.zero else r

end Sys2Proof.Machine
end

