-- ==== Sys2Proof/Machine/Special.lean ====
section
/-! DEFINITION. Special: the opcodes SFN, NORM and SMAX (07 R186 to R200). -/

namespace Sys2Proof.Machine
open Sys2Proof

/-- The unit that an instruction uses (07 R197). -/
def Env.unit (e : Env) (code : Nat) (x : Num) : Num := if bit e.flags 2 then sfuCompat code x else sfu code x

/-- The functions that the OPW-2406 had (07 R197). -/
def compatFunc (code : Nat) : Bool := [0x00, 0x01, 0x05, 0x06, 0x07, 0x09, 0x0B, 0x0C, 0x03].contains code

/-! ## Shared operand rules -/

/-- S1 and S4 as R187 gives: same Rank and lengths, floating point, narrow output with BlockAxis 0. -/
def sfnShape (d o : Desc) : Bool :=
  d.rank == o.rank && d.dims == o.dims && fmtFloat d.fmt && fmtFloat o.fmt && (!o.narrow || o.axis == 0)

/-- An optional FP32 or BF16 vector of a length. -/
def Env.vecOk (e : Env) (r n : Nat) : Bool :=
  r == 0 || (let v := e.desc r
    decide (v.fmt ≤ 1) && v.rank == 1 && v.dim 0 == n)

/-- Identical extents, which S1 and S4 may name (07 R187). -/
def sameExtent (d o : Desc) : Bool :=
  d.base == o.base && d.dims == o.dims && d.strides == o.strides && d.fmt == o.fmt && d.layout == o.layout &&
    d.scaleBase == o.scaleBase && d.rank == o.rank && d.extent == o.extent

/-- No two of a list of extents share a byte. -/
def disjoint : List (List (Nat × Nat)) → Bool
  | [] => true
  | x :: l => l.all (fun y => !extentsMeet x y) && disjoint l

/-- Overlap as R187 gives: S1 and S4 may be identical; nothing else may meet. -/
def Env.overlapBroken (e : Env) (refs : List Nat) : Bool :=
  let d := e.desc (e.S 1)
  let o := e.desc (e.S 4)
  let ext := fun r : Nat => if r == 0 then [] else e.s.homeRuns (e.desc r).extent
  let others := refs.map ext
  if sameExtent d o then !(disjoint (ext (e.S 4) :: others)) else !(disjoint (ext (e.S 1) :: ext (e.S 4) :: others))

/-- Number of lines. -/
def Desc.lineCount (d : Desc) : Nat := (d.shape.drop 1).foldl (· * ·) 1
/-- The lines of a tensor in ascending order. -/
def Desc.rows (d : Desc) : List (List Nat) := (indices (d.shape.drop 1)).map (fun t => 0 :: t)
/-- The number of a line. -/
def Desc.rowNo (d : Desc) (ix : List Nat) : Nat := linear (d.dims.drop 1) (ix.drop 1)

/-- Tasks of panes of 128 lines (07 R189). -/
def Env.lineTasks (e : Env) (d : Desc) : List (Nat × Nat × Nat × Nat) := dealRows (ceilDiv d.lineCount 128) e.cells

/-- Counters of a converted output: saturations, and draws under stochastic rounding. -/
def Env.convCounts (e : Env) (o : Desc) (c : OutConv) : List (Nat × Nat) :=
  [tick 0x3140 6 ((indices o.shape).filter (fun ix => e.outSat o c ix)).length,
   tick 0x31B0 3 (if c.mode == 2 && o.fmt != 0 then o.count else 0)]

/-! ## SFN -/

/-- The value of an element of SFN before conversion (07 R188). A narrow element beyond FP32 is an infinity where nothing is added to
it, and exact where a bias is (DESIGN CHOICE, log entry 171: 07 R180 gives FP32 operations no such operand). -/
def Env.sfnVal (e : Env) (ix : List Nat) : Num :=
  let d := e.desc (e.S 1)
  let c := ix.getD 0 0
  let x := e.value d ix
  let t := if e.S 2 == 0 then round32 x else fadd x (e.value (e.desc (e.S 2)) [c])
  let a := e.unit (bits (e.W 2) 0 5) t
  if e.S 3 == 0 then a
  else fmul a (e.value (e.desc (e.S 3)) [if bit (e.W 2) 11 then d.rowNo ix else c])

def Env.sfnConv (e : Env) : OutConv := ⟨e.sfnVal, bit (e.W 2) 10, bits (e.W 2) 8 2, 1⟩

def opSfn : Op where
  dash := fun _ => [5, 6, 7, 11, 13, 14]
  refs := fun e => [⟨e.S 1, true, .tin⟩, ⟨e.S 2, false, .tin⟩, ⟨e.S 3, false, .tin⟩, ⟨e.S 4, true, .tout⟩]
  rules := fun e =>
    let d := e.desc (e.S 1)
    let o := e.desc (e.S 4)
    let w := e.W 2
    firstCode [rule (bits w 5 3 != 0 || bits w 12 52 != 0) 0x0102,
      rule (decide (0x12 ≤ bits w 0 5) || bits w 8 2 == 3) 0x0150,
      rule (bit e.flags 2 && !compatFunc (bits w 0 5)) 0x0152,
      rule (!sfnShape d o || !e.vecOk (e.S 2) (d.dim 0) ||
        !e.vecOk (e.S 3) (if bit w 11 then d.lineCount else d.dim 0)) 0x0151,
      rule (e.overlapBroken [e.S 2, e.S 3]) 0x0155]
  ins := fun e => e.tensors [e.S 1, e.S 2, e.S 3]
  outs := fun e => e.tensors [e.S 4]
  run := fun e =>
    let d := e.desc (e.S 1)
    let o := e.desc (e.S 4)
    if d.empty then OpOut.idle
    else
      { writes := e.writeTensor o e.sfnConv
        tasks := e.lineTasks d
        draws := bits (e.W 2) 8 2 == 2 && o.fmt != 0
        counts := e.convCounts o e.sfnConv ++ [tick 0x3190 1 d.count] }
  idle := fun e => (e.desc (e.S 1)).empty

/-! ## NORM -/

/-- What NORM forms for one set (07 R192): non-finite, flat, μ, r, v + Epsilon = +0, v = +inf, and the dᵢ. -/
structure NormSet where
  bad : Bool
  flat : Bool
  mu : Num
  r : Num
  degenerate : Bool
  overflow : Bool
  d : List Num
  deriving DecidableEq, Repr

def fmin (x y : Num) : Num := (fmax x.neg y.neg).neg

/-- Steps 1 to 7 of R192 on the elements of a set. -/
def normSet (rsqrt : Num → Num) (rms : Bool) (eps : Num) (x : List Num) : NormSet :=
  if x.any (fun v => !v.isFin) then ⟨true, false, .nan, .nan, false, false, x.map (fun _ => .nan)⟩
  else
    let n := Num.ofNat x.length
    let mn := (reduce102 fmin x).getD Num.zero
    let mx := (reduce102 fmax x).getD Num.zero
    let flat := !rms && Num.eqv mn mx
    let sum := sum102 x
    let mean :=
      if sum.isInf then
        (fdiv (sum102 (x.map (fun v => round32 (v.scale (-64))))) n).scale 64 |> round32
      else fdiv sum n
    let mu := if rms then Num.zero else if flat then mn else fmax mn (fmin mx mean)
    let d := if rms then x else if flat then x.map (fun _ => Num.zero) else x.map (fun v => fsub v mu)
    let s1 := if rms then Num.zero else sum102 d
    let s2 := sum102 (d.map (fun v => fmul v v))
    let v0 := fdiv (fsub s2 (fdiv (fmul s1 s1) n)) n
    let v := if flat then Num.zero
      else if s2.isInf then .inf false
      else if Num.le v0 Num.zero then Num.zero else v0
    let ve := fadd v eps
    ⟨false, flat, mu, if v.isInf then Num.zero else rsqrt ve, ve.isZero, v.isInf, d⟩

def Env.normLen (e : Env) : Nat :=
  if bits (e.W 2) 12 19 == 0 then (e.desc (e.S 1)).dim 0 else bits (e.W 2) 12 19

def Env.normEps (e : Env) : Num := (decodeFloat 0 (bits (e.W 2) 32 32)).abs

/-- The set that an element lies in, each element rounded to FP32 first (DESIGN CHOICE, log entry 171). -/
def Env.normOf (e : Env) (ix : List Nat) : NormSet :=
  let d := e.desc (e.S 1)
  let n := e.normLen
  let s := ix.getD 0 0 / n
  normSet (e.unit 0x0C) (bits (e.W 2) 0 2 == 1) e.normEps
    ((List.range n).map (fun i => round32 (e.value d ((s * n + i) :: ix.drop 1))))

/-- The value of an element of NORM before conversion (07 R193). -/
def Env.normVal (e : Env) (ix : List Nat) : Num :=
  let c := ix.getD 0 0
  let t := e.normOf ix
  if t.bad then .nan
  else
    let u := if t.degenerate || t.overflow then Num.zero else fmul (t.d.getD (c % e.normLen) Num.zero) t.r
    let g := if e.S 2 == 0 then u else fmul u (e.value (e.desc (e.S 2)) [c])
    if e.S 3 == 0 then g else fadd g (e.value (e.desc (e.S 3)) [c])

def Env.normConv (e : Env) : OutConv := ⟨e.normVal, bit (e.W 2) 10, bits (e.W 2) 8 2, 1⟩

/-- The statistics of NORM (07 R194). -/
def Env.normStat (e : Env) (ix : List Nat) : Nat :=
  let t := e.normOf ((ix.getD 0 0 / 2 * e.normLen) :: ix.drop 1)
  bits32 (if ix.getD 0 0 % 2 == 0 then t.mu else t.r)

def opNorm : Op where
  dash := fun _ => [6, 7, 11, 13, 14]
  refs := fun e => [⟨e.S 1, true, .tin⟩, ⟨e.S 2, false, .tin⟩, ⟨e.S 3, false, .tin⟩, ⟨e.S 4, true, .tout⟩,
    ⟨e.S 5, false, .tout⟩]
  rules := fun e =>
    let d := e.desc (e.S 1)
    let o := e.desc (e.S 4)
    let st := e.desc (e.S 5)
    let w := e.W 2
    let n := e.normLen
    let ep := decodeFloat 0 (bits w 32 32)
    firstCode [rule (bits w 2 6 != 0 || bit w 11 || bit w 31) 0x0102,
      rule (decide (2 ≤ bits w 0 2) || bits w 8 2 == 3) 0x0150,
      rule (!sfnShape d o || !e.vecOk (e.S 2) (d.dim 0) || !e.vecOk (e.S 3) (d.dim 0)) 0x0151,
      rule (n == 0 || decide (262144 < n) || d.dim 0 % n != 0) 0x0153,
      rule (!ep.isFin || (ep.sign && !ep.isZero)) 0x0154,
      rule (e.S 5 != 0 && (st.fmt != fFP32 || st.rank != d.rank || st.dim 0 != 2 * (d.dim 0 / n) ||
        st.dims.drop 1 != d.dims.drop 1)) 0x0151,
      rule (e.overlapBroken [e.S 2, e.S 3, e.S 5]) 0x0155]
  ins := fun e => e.tensors [e.S 1, e.S 2, e.S 3]
  outs := fun e => e.tensors [e.S 4, e.S 5]
  run := fun e =>
    let d := e.desc (e.S 1)
    let o := e.desc (e.S 4)
    if d.empty then OpOut.idle
    else
      let sets := d.rows.flatMap (fun l => (List.range (d.dim 0 / e.normLen)).map (fun s =>
        e.normOf ((s * e.normLen) :: l.drop 1)))
      { writes := e.writeTensor o e.normConv ++
          (if e.S 5 == 0 then [] else e.writeInts (e.desc (e.S 5)) (fun ix => some (e.normStat ix)))
        notes := (if sets.any (fun t => t.bad) then [0x0051] else []) ++
          (if sets.any (fun t => !t.bad && t.overflow) then [0x0052] else []) ++
          (if sets.any (fun t => !t.bad && t.degenerate) then [0x0050] else [])
        tasks := e.lineTasks d
        draws := bits (e.W 2) 8 2 == 2 && o.fmt != 0
        counts := e.convCounts o e.normConv ++ [tick 0x3190 2 sets.length,
          tick 0x3190 4 (sets.filter (fun t => t.bad)).length, tick 0x3190 5 (sets.filter (fun t => t.flat)).length] }
  idle := fun e => (e.desc (e.S 1)).empty

/-! ## SMAX -/

/-- What SMAX forms for one line (07 R196): non-finite, no finite score, m, l, and the shifted scores. -/
structure SmaxLine where
  bad : Bool
  none : Bool
  m : Num
  l : Num
  s : List Num
  deriving DecidableEq, Repr

def smaxLine (exp : Num → Num) (scale : Num) (x : List Num) : SmaxLine :=
  let s := x.map (fun v => fmul v scale)
  if s.any (fun v => v.isNan || v == .inf false) then ⟨true, false, .nan, .nan, s⟩
  else
    let m := (max102 s).getD (.inf true)
    if m.isInf then ⟨false, true, .inf true, Num.zero, s⟩
    else
      let m := if m.isZero then Num.zero else m
      let t := s.map (fun v => fsub v m)
      ⟨false, false, m, sum102 (t.map exp), t⟩

def Env.smaxScale (e : Env) : Num :=
  let b := bits (e.W 2) 32 32
  if b == 0 then Num.one else decodeFloat 0 b

/-- The line that an element lies in, its elements exact before the scale (DESIGN CHOICE, log entry 171). -/
def Env.smaxOf (e : Env) (ix : List Nat) : SmaxLine :=
  let d := e.desc (e.S 1)
  smaxLine (e.unit 0x07) e.smaxScale ((List.range (d.dim 0)).map (fun i => e.value d (i :: ix.drop 1)))

def Env.smaxVal (e : Env) (ix : List Nat) : Num :=
  let t := e.smaxOf ix
  let i := ix.getD 0 0
  let log := bit (e.W 2) 0
  if t.bad then .nan
  else if t.none then (if log then .inf true else Num.zero)
  else if log then fsub (t.s.getD i Num.zero) (e.unit 0x09 t.l)
  else fdiv (e.unit 0x07 (t.s.getD i Num.zero)) t.l

def Env.smaxConv (e : Env) : OutConv := ⟨e.smaxVal, bit (e.W 2) 10, bits (e.W 2) 8 2, 1⟩

def opSmax : Op where
  dash := fun _ => [2, 3, 6, 7, 11, 13, 14]
  refs := fun e => [⟨e.S 1, true, .tin⟩, ⟨e.S 4, true, .tout⟩, ⟨e.S 5, false, .tout⟩]
  rules := fun e =>
    let d := e.desc (e.S 1)
    let o := e.desc (e.S 4)
    let st := e.desc (e.S 5)
    let w := e.W 2
    let sc := decodeFloat 0 (bits w 32 32)
    firstCode [rule (bits w 1 7 != 0 || bits w 11 21 != 0) 0x0102,
      rule (bits w 8 2 == 3) 0x0150,
      rule (!sfnShape d o) 0x0151,
      rule (d.dim 0 == 0 || decide (262144 < d.dim 0)) 0x0153,
      rule (bits w 32 32 != 0 && (!sc.isFin || sc.sign || sc.isZero)) 0x0154,
      rule (e.S 5 != 0 && (st.fmt != fFP32 || st.rank != d.rank || st.dim 0 != 2 ||
        st.dims.drop 1 != d.dims.drop 1)) 0x0151,
      rule (e.overlapBroken [e.S 5]) 0x0155]
  ins := fun e => e.tensors [e.S 1]
  outs := fun e => e.tensors [e.S 4, e.S 5]
  run := fun e =>
    let d := e.desc (e.S 1)
    let o := e.desc (e.S 4)
    if d.empty then OpOut.idle
    else
      let ls := d.rows.map e.smaxOf
      { writes := e.writeTensor o e.smaxConv ++
          (if e.S 5 == 0 then [] else e.writeInts (e.desc (e.S 5)) (fun ix =>
            let t := e.smaxOf ix
            some (bits32 (if ix.getD 0 0 == 0 then t.m else t.l))))
        notes := (if ls.any (fun t => t.bad) then [0x0051] else []) ++ (if ls.any (fun t => t.none) then [0x0053] else [])
        tasks := e.lineTasks d
        draws := bits (e.W 2) 8 2 == 2 && o.fmt != 0
        counts := e.convCounts o e.smaxConv ++ [tick 0x3190 3 ls.length,
          tick 0x3190 4 (ls.filter (fun t => t.bad)).length] }
  idle := fun e => (e.desc (e.S 1)).empty

end Sys2Proof.Machine
end

