-- ==== Sys2Proof/Machine/History.lean ====
section
/-! DEFINITION. History: masks, latent stores, path maps, expansion, and the opcodes LATX and KVAP (06 R152 to R154, R162 to
R176). -/

namespace Sys2Proof.Machine
open Sys2Proof

/-! ## Path maps (06 R175) -/

/-- The 2-bit code of block `b` in the path map at `base`. -/
def Env.pathCode (e : Env) (base b : Nat) : Nat := bits (e.le (base + b / 4) 1) (2 * (b % 4)) 2

/-- The writes that set codes in a path map: blocks share bytes, so each touched byte is written once. -/
def Env.pathWrites (e : Env) (base : Nat) (codes : KV) : List (Nat × Bytes) :=
  (codes.map (fun c => c.1 / 4)).eraseDups.map (fun i =>
    let v := (codes.filter (fun c => c.1 / 4 == i)).foldl (fun v c => setBits v (2 * (c.1 % 4)) 2 c.2) (e.le (base + i) 1)
    (base + i, [BitVec.ofNat 8 v]))

/-! ## Latent stores (06 R162 to R164) -/

structure LStore where
  data : Nat
  scales : Nat
  map : Nat
  cap : Nat
  fmt : Nat
  rank : Nat
  groups : Nat
  tier : Nat
  reserved : Bool
  deriving DecidableEq, Repr

def LStore.parse (b : Bytes) : LStore :=
  { data := leAt b 0 8, scales := leAt b 8 8, map := leAt b 16 5, cap := bits (leAt b 24 4) 0 26,
    fmt := bits (leAt b 28 1) 0 4, rank := 64 * 2 ^ bits (leAt b 28 1) 4 2, groups := bits (leAt b 29 1) 0 4 + 1,
    tier := leAt b 30 1
    reserved := leAt b 21 3 != 0 || bits (leAt b 24 4) 26 6 != 0 || bits (leAt b 28 1) 6 2 != 0 ||
      bits (leAt b 29 1) 4 4 != 0 || bits (leAt b 30 1) 4 4 != 0 || leAt b 31 33 != 0 }

def Env.store (e : Env) (r : Nat) : LStore := LStore.parse (e.bytes (e.obj r) 64)

def LStore.lineBytes (s : LStore) : Nat := s.rank * fmtBits s.fmt / 8
def LStore.dataBytes (s : LStore) : Nat := s.cap * s.groups * s.lineBytes
def LStore.scaleBytes (s : LStore) : Nat := s.cap * s.groups * (s.rank / 32)
def LStore.elemAddr (s : LStore) (pos g : Nat) : Nat := s.data + (pos * s.groups + g) * s.lineBytes
def LStore.scaleAddr (s : LStore) (pos g : Nat) : Nat := s.scales + (pos * s.groups + g) * (s.rank / 32)
def LStore.mapBytes (s : LStore) : Nat := 4 * ceilDiv s.cap 2048

/-- The value of a component of a position (06 R163). -/
def Env.latent (e : Env) (s : LStore) (pos g r : Nat) : Num :=
  let w := fmtBits s.fmt
  let p := r * w
  let v := e.le (s.elemAddr pos g + p / 8) (ceilDiv (p % 8 + w) 8) / 2 ^ (p % 8) % 2 ^ w
  scaled (decodeFloat s.fmt v) (e.le (s.scaleAddr pos g + r / 32) 1)

/-- A run lies in the GDDR protected window of its node (06 R164). A remote node's own window is not seen from here: the run must
lie in the largest window that a node can have, 24 channels of 7 GiB (10 R243), and the node itself refuses the rest. -/
def State.nodeRunOk (s : State) (g n : Nat) : Bool :=
  bits g 40 8 == 0 && (if s.gHere g then s.inGddr (gAddr g) n else decide (gLocal g + n ≤ 7 * 2 ^ 30 * 24))

/-- Two global addresses lie on one node. -/
def State.sameNode (s : State) (g h : Nat) : Bool :=
  if s.gHere g then s.gHere h else !s.gHere h && gNode g == gNode h

/-- R162 to R164 on a store header. -/
def Env.storeBroken (e : Env) (s : LStore) (primary : Bool) : Bool :=
  s.reserved || s.cap == 0 || decide (2 ^ 25 < s.cap) || decide (s.fmt < 2) || decide (6 < s.fmt) ||
    (primary && decide (s.rank < 256)) || (bit s.tier 0 && bit s.tier 1) ||
    !e.s.nodeRunOk s.data s.dataBytes || !e.s.nodeRunOk s.scales s.scaleBytes ||
    !e.s.sameNode s.data s.scales ||
    (s.map != 0 && !e.s.inGddr s.map s.mapBytes) || (!primary && !e.s.gHere s.data)

/-- A fallback store matches its primary (06 R163). -/
def fallbackMatches (p f : LStore) : Bool := f.groups == p.groups && decide (f.rank ≤ p.rank) && decide (p.cap ≤ f.cap)

/-- The rules of a fallback store: absent while the path is recompute, illegal, or mismatched (06 R164, R166). -/
def Env.checkFallback (e : Env) (p : LStore) (ref path : Nat) : Nat :=
  if ref == 0 then rule (path == 1) 0x0144
  else firstCode [rule (e.storeBroken (e.store ref) false) 0x0140, rule (!fallbackMatches p (e.store ref)) 0x0144]

/-- A path field, 00 resolved by the dictionary value in force at the check (06 R166, R176): 1 recompute, 2 reduced window,
3 fail. -/
def Env.resolvePath (e : Env) (f : Nat) : Nat := if f == 0 then e.latePath else f

/-- Reads of a primary store that have a deadline (06 R172). -/
def Env.hasDeadline (e : Env) (s : LStore) : Bool := !e.s.gHere s.data && bit s.tier 3

/-! ## History blocks of an instruction -/

/-- The history that an instruction expands: its store, fallback reference, up-projection, first store block, positions
expanded, path, and the store blocks it needs. -/
structure Hist where
  store : LStore
  fallback : Nat
  up : Nat
  first : Nat
  count : Nat
  path : Nat
  blocks : List Nat
  deriving DecidableEq, Repr

/-- The code that a block's path map holds before the instruction decides (06 R175). -/
def Env.mapCode (e : Env) (h : Hist) (b : Nat) : Nat := if h.store.map == 0 then 0 else e.pathCode h.store.map b

/-- The path that a block is on, decided once for the whole instruction (06 R173 to R175): 1 primary, 2 recompute, 3 reduced
window, 4 fail; 0 where the fail path of another block left it undecided. The map's own 10 or 11 stand as 8 more. -/
def Env.blockPath (e : Env) (b : Nat) : Nat := kvGet b 0 e.hist % 8

/-- The block's path was decided by its fetch, not by the map. -/
def Env.fetched (e : Env) (b : Nat) : Bool := decide (kvGet b 0 e.hist < 8)

/-- The byte runs of a block in a store. -/
def LStore.blockRuns (s : LStore) (b : Nat) : List (Nat × Nat) :=
  let n := min 128 (s.cap - 128 * b)
  [(s.elemAddr (128 * b) 0, n * s.groups * s.lineBytes), (s.scaleAddr (128 * b) 0, n * s.groups * (s.rank / 32))]

/-- The store that a block is read from. A path map may hold code 2 while the instruction names no fallback; the reference 0 is then
read as a header (DESIGN CHOICE, log entry 169: 06 R175 does not say what such a block is read from). -/
def Env.blockStore (e : Env) (h : Hist) (b : Nat) : LStore :=
  if e.blockPath b == 2 then e.store h.fallback else h.store

/-- An FP32 dot product in the order of R98 from −0: exact sums of 32-element groups, or one product at a time. -/
def dot98 (single : Bool) (x y : List Num) : Num :=
  ((chunks 32 x).zip (chunks 32 y)).foldl (fun acc (a, b) =>
    let ps := (a.zip b).map (fun (u, v) => u.mul v)
    if single then ps.foldl fadd acc else fadd acc (ps.foldl Num.add Num.negZero)) Num.negZero

/-- The value of an expanded key or value element at a position (06 R165). -/
def Env.expand (e : Env) (h : Hist) (d hkv : Nat) (isVal : Bool) (pos t elem : Nat) : Num :=
  let s := e.blockStore h (pos / 128)
  let u := e.desc h.up
  let hpg := hkv / h.store.groups
  let g := t / hpg
  let col := ((if isVal then hpg else 0) + t % hpg) * d + elem
  dot98 (!u.narrow) ((List.range s.rank).map (fun r => e.value u [r, col, g]))
    ((List.range s.rank).map (fun r => e.latent s pos g r))

/-- The up-projection's form (06 R165). A block axis other than 0 breaks it, and so has its code, 0x0145 (DESIGN CHOICE, log entry
168: R165 asks for the axis, R166's codes do not name it). -/
def Env.upBroken (e : Env) (h : Hist) (d hkv : Nat) : Bool :=
  let u := e.desc h.up
  u.rank != 3 || !fmtFloat u.fmt || u.dim 0 != h.store.rank || (u.narrow && u.axis != 0) || hkv % h.store.groups != 0 ||
    u.dim 1 != 2 * (hkv / h.store.groups) * d || u.dim 2 != h.store.groups

/-- The words of the path map that hold the codes of an instruction's blocks. -/
def Hist.mapRuns (h : Hist) : List (Nat × Nat) :=
  if h.store.map == 0 then [] else ((h.blocks.map (fun b => b / 16)).eraseDups).map (fun w => (h.store.map + 4 * w, 4))

/-- Failures, notes, detail and map writes of an instruction's history (06 R173, R175, R177, R179). Its reads are the
words of the path map, the blocks of the primary store and, recomputed, of the fallback store. A block that the map already held as
dropped counts among the dropped ones (DESIGN CHOICE, log entry 170: R179 counts blocks dropped and does not say by which
instruction). -/
def Env.histOut (e : Env) (h : Hist) : OpOut :=
  let used := h.blocks.map (fun b => (b, e.blockPath b))
  let rec_ := (used.filter (fun x => x.2 == 2)).length
  let drop := (used.filter (fun x => x.2 == 3)).length
  let failed := used.any (fun x => x.2 == 4)
  let fb := e.store h.fallback
  let badFb := used.any (fun x => x.2 == 2 && (fb.blockRuns x.1).any (fun r => e.s.mem.poisonIn (gAddr r.1) r.2 != []))
  let decided := used.filter (fun x => e.fetched x.1 && x.2 != 0)
  { writes := if h.store.map == 0 then [] else e.pathWrites h.store.map (decided.filter (fun x => x.2 != 4))
    notes := (if drop != 0 then [0x0041] else []) ++ (if rec_ != 0 then [0x0040] else [])
    fail := if failed then 0x0440 else if badFb then 0x0340 else 0
    detail := if failed || badFb then 0xFFFFFFFF else if drop != 0 then drop else rec_
    reads := some (h.mapRuns ++ used.flatMap (fun x =>
      if x.2 == 1 then h.store.blockRuns x.1 else if x.2 == 2 then fb.blockRuns x.1 else [])) }

/-! ## LATX (06 R166) -/

def Env.latxFirst (e : Env) : Nat := bits (e.W 2) 0 19
def Env.latxValueRef (e : Env) : Nat := bits (e.W 2) 32 32
def Env.latxFallback (e : Env) : Nat := bits (e.W 3) 32 32

def Env.latxHist (e : Env) : Hist :=
  let n := (e.desc (e.S 4)).dim 1
  ⟨e.store (e.S 1), e.latxFallback, e.S 2, e.latxFirst, n, e.resolvePath (bits (e.W 3) 24 2),
    (List.range (ceilDiv n 128)).map (fun i => e.latxFirst + i)⟩

/-- The conversion of expanded keys or values; blocks along elements for keys, along positions for values. -/
def Env.latxConv (e : Env) (h : Hist) (d hkv : Nat) (isVal : Bool) : OutConv :=
  ⟨fun ix => e.expand h d hkv isVal (128 * h.first + ix.getD 1 0) (ix.getD 2 0) (ix.getD 0 0), false, 0, 0⟩

def Env.latxOut (e : Env) (h : Hist) (o : Desc) (isVal : Bool) : List (Nat × Bytes) :=
  let c := e.latxConv h (o.dim 0) (o.dim 2) isVal
  let live := fun ix : List Nat => e.blockPath (h.first + ix.getD 1 0 / 128) != 3
  e.tensorWrites o (fun ix => if live ix then some (e.outCode o c ix) else none)
    (fun ix => if live ix then some (e.outScale o c ix) else none)

/-- The runs that a history may read: its blocks in both stores, its up-projection and its path map. -/
def Env.histIns (e : Env) (h : Hist) : List (Nat × Nat) :=
  e.tensors [h.up] ++ h.blocks.flatMap (fun b => h.store.blockRuns b ++
    (if h.fallback == 0 then [] else (e.store h.fallback).blockRuns b)) ++
    (if h.store.map == 0 then [] else [(h.store.map, h.store.mapBytes)])

def Env.latxIns (e : Env) : List (Nat × Nat) := e.histIns e.latxHist

def opLatx : Op where
  dash := fun _ => [3, 5, 6, 7, 11, 14]
  refs := fun e => [⟨e.S 1, true, .hdr 0⟩, ⟨e.S 2, true, .tin⟩, ⟨e.S 4, true, .tout⟩, ⟨e.latxValueRef, true, .tout⟩,
    ⟨e.latxFallback, false, .hdr 0⟩]
  rules := fun e =>
    let h := e.latxHist
    let o := e.desc (e.S 4)
    let v := e.desc e.latxValueRef
    firstCode [rule (bits (e.W 2) 19 13 != 0 || bits (e.W 3) 26 6 != 0) 0x0102,
      rule (e.storeBroken h.store true) 0x0140,
      rule (decide (h.store.cap < 128 * h.first + h.count)) 0x0141,
      rule (o.rank != 3 || !fmtFloat o.fmt || (o.narrow && o.axis != 0) || v.rank != 3 || v.dims != o.dims ||
        !fmtFloat v.fmt || (v.narrow && v.axis != 1) || e.upBroken h (o.dim 0) (o.dim 2)) 0x0145,
      e.checkFallback h.store h.fallback h.path]
  ins := Env.latxIns
  idle := fun e => (e.desc (e.S 4)).empty
  outs := fun e =>
    let h := e.latxHist
    e.tensors [e.S 4, e.latxValueRef] ++ (if h.store.map == 0 then [] else [(h.store.map, h.store.mapBytes)])
  run := fun e =>
    let h := e.latxHist
    let o := e.desc (e.S 4)
    if o.empty then OpOut.idle
    else
      let r := e.histOut h
      { r with
        writes := e.latxOut h o false ++ e.latxOut h (e.desc e.latxValueRef) true ++ r.writes
        reads := some (r.reads.getD [] ++ e.tensors [e.S 2])
        tasks := dealRows h.blocks.length e.cells }

/-! ## KVAP (06 R169, R170) -/

def Env.kvapFallback (e : Env) : Nat := bits (e.W 2) 32 32
def Env.kvapPos (e : Env) (i : Nat) : Nat := e.uint (e.desc (e.S 2)) [i]
def Env.kvapIx (e : Env) (r i g : Nat) : List Nat := if (e.desc (e.S 1)).rank == 3 then [r, i, g] else [r, i]

/-- The rows of KVAP that lie below Capacity, in ascending order. -/
def Env.kvapRows (e : Env) : List Nat :=
  (List.range ((e.desc (e.S 1)).dim 1)).filter (fun i => e.kvapPos i < (e.store (e.S 4)).cap)

/-- The line that one row and group writes to the primary store, unchanged. -/
def Env.kvapLine (e : Env) (i g : Nat) : List (Nat × Bytes) :=
  let d := e.desc (e.S 1)
  let s := e.store (e.S 4)
  let ix := e.kvapIx 0 i g
  [(s.elemAddr (e.kvapPos i) g, e.bytes (d.lineAddr ix) s.lineBytes),
   (s.scaleAddr (e.kvapPos i) g, (List.range (s.rank / 32)).map (fun b =>
     BitVec.ofNat 8 (e.scaleByte d (e.kvapIx (32 * b) i g))))]

/-- The line that one row and group writes to the fallback store, requantised by the fitted rule and RNE. -/
def Env.kvapFallbackLine (e : Env) (i g : Nat) : List (Nat × Bytes) :=
  let d := e.desc (e.S 1)
  let f := e.store e.kvapFallback
  let bs := (List.range (f.rank / 32)).map (fun b => quantBlock f.fmt false (fun _ => .rne)
    ((List.range 32).map (fun j => e.value d (e.kvapIx (32 * b + j) i g))))
  [(f.elemAddr (e.kvapPos i) g, packElems (fmtBits f.fmt) (bs.flatMap (fun b => b.elem.map (encodeFloat f.fmt)))),
   (f.scaleAddr (e.kvapPos i) g, bs.map (fun b => BitVec.ofNat 8 b.scaleByte))]

def Env.kvapWrites (e : Env) : List (Nat × Bytes) :=
  let s := e.store (e.S 4)
  e.kvapRows.flatMap (fun i => (List.range s.groups).flatMap (fun g =>
    e.kvapLine i g ++ (if e.kvapFallback == 0 then [] else e.kvapFallbackLine i g)))

/-- KVAP. A line counts in 0x3180:06 once for each row that writes it (DESIGN CHOICE, log entry 170: R179 counts lines written). -/
def opKvap : Op where
  dash := fun _ => [3, 5, 6, 7, 11, 13, 14]
  refs := fun e => [⟨e.S 1, true, .tin⟩, ⟨e.S 2, true, .tin⟩, ⟨e.S 4, true, .hdr 0⟩, ⟨e.kvapFallback, false, .hdr 0⟩]
  rules := fun e =>
    let d := e.desc (e.S 1)
    let p := e.desc (e.S 2)
    let s := e.store (e.S 4)
    firstCode [rule (e.storeBroken s true) 0x0140,
      rule (bits (e.W 2) 0 32 != 0 || d.fmt != s.fmt || d.axis != 0 || !(d.rank == 3 || (d.rank == 2 && s.groups == 1)) || d.dim 0 != s.rank ||
        (d.rank == 3 && d.dim 2 != s.groups) || p.fmt != fU32 || p.rank != 1 || p.dim 0 != d.dim 1) 0x0146,
      e.checkFallback s e.kvapFallback 0]
  ins := fun e => e.tensors [e.S 1, e.S 2]
  outs := fun e => e.kvapWrites.map (fun x => (x.1, x.2.length))
  run := fun e =>
    let d := e.desc (e.S 1)
    if d.empty then OpOut.idle
    else
      let n := (e.store (e.S 4)).groups * e.kvapRows.length
      { writes := e.kvapWrites
        notes := if e.kvapRows.length < d.dim 1 then [0x0042] else []
        tasks := e.lineTasks d
        counts := [tick 0x3180 6 (if e.kvapFallback == 0 then n else 2 * n)] }
  idle := fun e => (e.desc (e.S 1)).empty

/-! ## Masks (06 R152 to R154) -/

structure Mask where
  offsets : Nat
  list : Nat
  map : Nat
  qb : Nat
  kb : Nat
  histFirst : Nat
  histBlocks : Nat
  perHead : Bool
  reserved : Bool
  deriving DecidableEq, Repr

def Mask.parse (b : Bytes) : Mask :=
  { offsets := leAt b 0 5, list := leAt b 8 5, map := leAt b 16 5, qb := bits (leAt b 24 4) 0 19, kb := bits (leAt b 28 4) 0 19,
    histFirst := bits (leAt b 32 4) 0 19, histBlocks := bits (leAt b 36 4) 0 19, perHead := bit (leAt b 40 1) 0
    reserved := leAt b 5 3 != 0 || leAt b 13 3 != 0 || leAt b 21 3 != 0 || bits (leAt b 24 4) 19 13 != 0 ||
      bits (leAt b 28 4) 19 13 != 0 || bits (leAt b 32 4) 19 13 != 0 || bits (leAt b 36 4) 19 13 != 0 ||
      bits (leAt b 40 1) 1 7 != 0 || leAt b 41 23 != 0 }

def Env.mask (e : Env) : Mask := Mask.parse (e.bytes (e.obj (bits (e.W 3) 0 32)) 64)

def Env.maskOffset (e : Env) (set i : Nat) : Nat := e.le (e.mask.offsets + 4 * (set * (e.mask.qb + 1) + i)) 4
/-- The key blocks that query block `i` of head `h` attends (06 R153). -/
def Env.maskList (e : Env) (h i : Nat) : List Nat :=
  let set := if e.mask.perHead then h else 0
  let lo := e.maskOffset set i
  (List.range (e.maskOffset set (i + 1) - lo)).map (fun j => e.le (e.mask.list + 4 * (lo + j)) 4)

/-- A list rises strictly and lies below a bound. -/
def risesBelow (n : Nat) : List Nat → Bool
  | [] => true
  | [x] => x < n
  | x :: y :: l => x < y && x < n && risesBelow n (y :: l)

/-- 0x0142 and 0x0143 of R153; `hist` history blocks come from a view. A misaligned OffsetBase or ListBase is 0x0143, and ListBase
may lie anywhere while every list is empty (DESIGN CHOICE, log entry 166: R153 names no code for the first and no bytes of a list
for the second). -/
def Env.checkMask (e : Env) (nq nk heads hist : Nat) (view : Bool) : List Nat :=
  let m := e.mask
  let sets := if m.perHead then heads else 1
  let last := total ((List.range sets).map (fun s => e.maskOffset s m.qb))
  let top := ((List.range sets).map (fun s => e.maskOffset s m.qb)).foldl max 0
  [rule (m.reserved || m.qb != ceilDiv nq 128 || m.kb != ceilDiv nk 128 + hist || decide (m.kb < m.histBlocks) ||
      (view && m.histBlocks != 0) || (m.map != 0) != decide (0 < m.histBlocks)) 0x0142,
   rule (m.offsets % 4 != 0 || m.list % 4 != 0 || !e.s.inGddr m.offsets (4 * sets * (m.qb + 1)) ||
      (last != 0 && !e.s.inGddr m.list (4 * top)) ||
      (m.map != 0 && !e.s.inGddr m.map (4 * ceilDiv (m.histFirst + m.histBlocks) 16)) ||
      (List.range sets).any (fun s => (List.range m.qb).any (fun i =>
        decide (e.maskOffset s (i + 1) < e.maskOffset s i) || !risesBelow m.kb (e.maskList s i)))) 0x0143]

end Sys2Proof.Machine
end

