-- ==== Sys2Proof/Machine/Attention.lean ====
section
/-! DEFINITION. Attention: the opcodes ATTF and ATTB (06 R149 to R161, R167, R168). -/

namespace Sys2Proof.Machine
open Sys2Proof

/-! ## Shared operands -/

/-- An index of a tensor of rank 3 or 4. -/
def attIx (d : Desc) (i j h b : Nat) : List Nat := if d.rank == 4 then [i, j, h, b] else [i, j, h]
def attBatch (d : Desc) : Nat := if d.rank == 4 then d.dim 3 else 1

def Env.statsRef (e : Env) : Nat := bits (e.W 3) 32 32
def Env.latentRef (e : Env) : Nat := bits (e.W 4) 0 32

/-- A field of the latent view (06 R167). -/
def Env.viewAt (e : Env) (o n : Nat) : Nat := e.le (e.obj e.latentRef + o) n
def Env.viewFirst (e : Env) : Nat := bits (e.viewAt 12 4) 0 19
def Env.viewCount (e : Env) : Nat := if e.latentRef == 0 then 0 else bits (e.viewAt 16 4) 0 19

/-- The history of a view: the blocks that some list names (06 R167, R173). -/
def Env.viewHist (e : Env) (heads : Nat) : Hist :=
  let s := e.store (e.viewAt 0 4)
  let n := e.viewCount
  let m := e.mask
  let named := ((List.range (if m.perHead then heads else 1)).flatMap (fun h =>
    (List.range m.qb).flatMap (fun i => (e.maskList h i).filter (fun j => j < n)))).eraseDups
  ⟨s, e.viewAt 8 4, e.viewAt 4 4, e.viewFirst, min (128 * n) (s.cap - 128 * e.viewFirst),
    e.resolvePath (bits (e.viewAt 23 1) 0 2),
    ((List.range n).filter (fun j => named.contains j && decide (128 * (e.viewFirst + j) < s.cap))).map (fun j =>
      e.viewFirst + j)⟩

/-- Geometry of an attention instruction: head width, query tokens, query heads, key tokens, key heads, batch, history
blocks. -/
structure Att where
  d : Nat
  nq : Nat
  hq : Nat
  nk : Nat
  hkv : Nat
  batch : Nat
  hb : Nat
  deriving DecidableEq, Repr

def Env.att (e : Env) (view : Bool) : Att :=
  let q := e.desc (e.S 1)
  let k := e.desc (e.S 2)
  ⟨q.dim 0, q.dim 1, q.dim 2, k.dim 1, k.dim 2, attBatch q, if view then e.viewCount else 0⟩

def Att.qb (a : Att) : Nat := ceilDiv a.nq 128
def Att.kb (a : Att) : Nat := ceilDiv a.nk 128
/-- Key/value head of a query head (06 R149). -/
def Att.kvHead (a : Att) (h : Nat) : Nat := h / (a.hq / a.hkv)
/-- Pane p = (b × Hq + h) × QB + i (06 R151). -/
def Att.pane (a : Att) (b h i : Nat) : Nat := (b * a.hq + h) * a.qb + i
def Att.panes (a : Att) : Nat := a.batch * a.hq * a.qb
def Att.paneBlock (a : Att) (p : Nat) : Nat := p % a.qb
def Att.paneHead (a : Att) (p : Nat) : Nat := p / a.qb % a.hq
def Att.paneBatch (a : Att) (p : Nat) : Nat := p / a.qb / a.hq
def Att.paneRows (a : Att) (p : Nat) : List Nat :=
  ((List.range 128).map (fun i => 128 * a.paneBlock p + i)).filter (fun n => n < a.nq)

/-- ScoreScale (06 R150). -/
def Env.scoreScale (e : Env) (d : Nat) : Num :=
  let b := bits (e.W 2) 0 32
  if b == 0 then round32 (Num.one.quotient (Num.ofNat d).sqrt) else decodeFloat 0 b

/-- Key block `j` is attended: a history block of a view by its path, one of a mask by its map's code (06 R175). -/
def Env.attended (e : Env) (a : Att) (h : Hist) (j : Nat) : Bool :=
  if j < a.hb then h.blocks.contains (h.first + j) && e.blockPath (h.first + j) != 3
  else if j < e.mask.histBlocks then
    (let c := e.pathCode e.mask.map (e.mask.histFirst + j)
     c == 1 || c == 2)
  else true

/-- The keys of a block that are not padding (06 R154). -/
def Att.keysOf (a : Att) (h : Hist) (j : Nat) : List Nat :=
  ((List.range 128).map (fun i => 128 * j + i)).filter (fun k =>
    if k < 128 * a.hb then k < h.count else k - 128 * a.hb < a.nk)

/-- A virtual tensor of expanded history, in the format of K or V (06 R168). -/
def histDesc (o : Desc) (n : Nat) : Desc := { o with rank := 3, dims := [o.dim 0, n, o.dim 2, 0, 0] }

/-- An element of a key or a value by key index (06 R154, R168). -/
def Env.kvElem (e : Env) (a : Att) (h : Hist) (isVal : Bool) (b t k i : Nat) : Num :=
  let o := e.desc (e.S (if isVal then 3 else 2))
  if k < 128 * a.hb then
    let v := histDesc o h.count
    e.outValue v (e.latxConv h (o.dim 0) (o.dim 2) isVal) [i, k, t]
  else e.value o (attIx o i (k - 128 * a.hb) t b)

def Env.kvRow (e : Env) (a : Att) (h : Hist) (isVal : Bool) (b t k : Nat) : List Num :=
  (List.range a.d).map (e.kvElem a h isVal b t k)

/-- The 32 positions along dimension 0 of block `b` of a line, those inside the tensor. -/
def Desc.lineBlock (d : Desc) (b : Nat) (ix : List Nat) : List (List Nat) :=
  ((List.range 32).map (fun j => (32 * b + j) :: ix.drop 1)).filter (fun j => d.inside j)

/-- v over a block of the ladder operand. -/
def Env.attV (e : Env) (o : Desc) (c : Option Carry) (g : Rung) (ixs : List (List Nat)) : List Num :=
  ixs.map (fun j => if g.carried then e.carried c j (e.value o j) else e.value o j)

/-- One MX block along dimension 0 of the ladder operand at a rung (06 R151). -/
def Env.attBlock (e : Env) (o : Desc) (c : Option Carry) (g : Rung) (ixs : List (List Nat)) : QBlock :=
  rungBlock g.fmt e.prec.floorRule (fun i => e.round g.ladMode g.stage (linear o.dims (ixs.getD i []))) (e.attV o c g ixs)

/-- The blocks of a line. -/
def Desc.lineBlocks (d : Desc) (ix : List Nat) : List (List (List Nat)) :=
  (List.range (ceilDiv (d.dim 0) 32)).map (fun b => d.lineBlock b ix)

/-- A line of the ladder operand at a rung. -/
def Env.attLine (e : Env) (o : Desc) (c : Option Carry) (g : Rung) (ix : List Nat) : List Num :=
  (o.lineBlocks ix).flatMap (fun b => (e.attBlock o c g b).q)

/-- A vector quantised at a rung without a carry, in runs of 32 (06 R151); `tag` separates its draws. -/
def Env.quantVec (e : Env) (g : Rung) (tag : Nat) (l : List Num) : List QBlock :=
  (chunks 32 l).zipIdx.map (fun (b, i) =>
    rungBlock g.fmt e.prec.floorRule (fun j => e.round g.mode (2 ^ 124 + g.stage) (tag * 2 ^ 32 + 32 * i + j)) b)

/-- Add products in 32-element groups to an accumulator (02 R35); the zeros that fill a short group count. -/
def addProducts (single : Bool) (acc : Num) (ps : List Num) : Num :=
  (chunks 32 ps).foldl (fun acc l =>
    if single then l.foldl fadd acc
    else fadd acc ((l ++ (if l.length < 32 then [Num.zero] else [])).foldl Num.add Num.negZero)) acc

/-- Add the products of two vectors, element by element. -/
def addGroups (single : Bool) (acc : Num) (x y : List Num) : Num :=
  addProducts single acc ((x.zip y).map (fun (u, v) => u.mul v))

/-- No history. -/
def noHist : Hist := ⟨LStore.parse [], 0, 0, 0, 0, 0, []⟩

/-! ## ATTF (06 R155 to R157) -/

/-- What one query row forms: its maximum, its sum, its accumulators, a score that is NaN or +infinity, a score or score
accumulator that is not finite, an attended key, and its saturations. -/
structure AttRow where
  m : Num
  l : Num
  acc : List Num
  bad : Bool
  odd : Bool
  any : Bool
  sats : Nat
  deriving DecidableEq, Repr

/-- One key block of a row (06 R155). -/
def Env.attStep (e : Env) (a : Att) (h : Hist) (g : Rung) (tag : Nat) (q : List Num) (b t : Nat) (r : AttRow) (j : Nat) :
    AttRow :=
  let ks := a.keysOf h j
  if !e.attended a h j || ks == [] then r
  else
    let kf := (e.desc (e.S 2)).fmt
    let vf := (e.desc (e.S 3)).fmt
    let dots := ks.map (fun k => dot98 (singleMode g.fmt kf) q (e.kvRow a h false b t k))
    let s := dots.map (fmul (e.scoreScale a.d))
    let mn := fmax r.m ((max102 s).getD (.inf true))
    let low := mn == .inf true
    let al := if low || Num.eqv r.m mn then Num.one else sfuExp (fsub r.m mn)
    let p := s.map (fun x => if low then Num.zero else sfuExp (fsub x mn))
    let pq := e.quantVec g (tag * 2 ^ 20 + j) p
    let pv := pq.flatMap (fun x => x.q)
    { m := mn
      l := fadd (fmul r.l al) (sum102 p)
      acc := r.acc.zipIdx.map (fun (x, i) =>
        addGroups (singleMode g.fmt vf) (fmul x al) pv (ks.map (fun k => e.kvElem a h true b t k i)))
      bad := r.bad || s.any (fun x => x.isNan || x == .inf false)
      odd := r.odd || (dots ++ s).any (fun x => !x.isFin)
      any := true
      sats := r.sats + total (pq.map (fun x => x.sats)) }

def Env.attfCarry (e : Env) : Option Carry := e.carryFor (e.desc (e.S 1))

/-- A query row of a pane at a rung, after some key blocks of its list. -/
def Env.attfRowOver (e : Env) (a : Att) (h : Hist) (g : Rung) (b hd n : Nat) (js : List Nat) : AttRow :=
  let q := e.desc (e.S 1)
  let ix := attIx q 0 n hd b
  js.foldl (e.attStep a h g (linear q.dims ix) (e.attLine q e.attfCarry g ix) b (a.kvHead hd))
    ⟨.inf true, Num.zero, List.replicate a.d Num.negZero, false, false, false, 0⟩

/-- A query row of a pane at a rung. -/
def Env.attfRow (e : Env) (a : Att) (h : Hist) (g : Rung) (b hd n : Nat) : AttRow :=
  e.attfRowOver a h g b hd n (e.maskList hd (n / 128))

/-- An output element of ATTF before conversion (06 R155, R156). -/
def attOut (r : AttRow) (i : Nat) : Num :=
  if !r.any then Num.zero else if r.bad then .nan else fdiv (r.acc.getD i Num.zero) r.l

def Env.attfConv (e : Env) (a : Att) (h : Hist) (g : Rung) : OutConv :=
  ⟨fun ix => attOut (e.attfRow a h g (ix.getD 3 0) (ix.getD 2 0) (ix.getD 1 0)) (ix.getD 0 0), e.prec.floorRule, g.mode,
    g.stage + 1⟩

/-- The outputs of a pane of ATTF. -/
def Att.outs (a : Att) (o : Desc) (p : Nat) : List (List Nat) :=
  (a.paneRows p).flatMap (fun n => (List.range a.d).map (fun i => attIx o i n (a.paneHead p) (a.paneBatch p)))

/-- A NaN, infinity or 0xFF scale in what a pane reads (02 R43). -/
def Env.attReadsBad (e : Env) (a : Att) (h : Hist) (lad : Desc) (c : Option Carry) (p : Nat) : Bool :=
  let b := a.paneBatch p
  let t := a.kvHead (a.paneHead p)
  (a.paneRows p).any (fun n => (List.range a.d).any (fun i =>
    let ix := attIx lad i n (a.paneHead p) b
    e.nonFinite lad ix || (match c with
      | some cp => !(e.cOld cp ix).isFin
      | none => false))) ||
  (e.maskList (a.paneHead p) (a.paneBlock p)).any (fun j => e.attended a h j && (a.keysOf h j).any (fun k =>
    (List.range a.d).any (fun i => !(e.kvElem a h false b t k i).isFin || !(e.kvElem a h true b t k i).isFin)))

/-- The carry signal of a pane's ladder blocks (02 R43). -/
def Env.attCarrySignal (e : Env) (a : Att) (lad : Desc) (c : Option Carry) (g : Rung) (p r : Nat) : Bool :=
  e.prec.carryEn && r == e.prec.startRung && r != 3 && (a.paneRows p).any (fun n =>
    (lad.lineBlocks (attIx lad 0 n (a.paneHead p) (a.paneBatch p))).any (fun ixs =>
      e.prec.carrySignal (e.attBlock lad c g ixs).k (ixs.map (fun ix => match c with
        | some cp => e.cOld cp ix
        | none => Num.zero))))

/-- Saturations of a pane's ladder rows. -/
def Env.attLadSats (e : Env) (a : Att) (lad : Desc) (c : Option Carry) (g : Rung) (p : Nat) : Nat :=
  total ((a.paneRows p).map (fun n => total ((lad.lineBlocks (attIx lad 0 n (a.paneHead p) (a.paneBatch p))).map (fun ixs =>
    (e.attBlock lad c g ixs).sats))))

def Env.attfAttempt (e : Env) (a : Att) (h : Hist) (p r : Nat) : Attempt :=
  let o := e.desc (e.S 4)
  let q := e.desc (e.S 1)
  let g := e.rungOf q.fmt p r
  let c := e.attfConv a h g
  let rows := (a.paneRows p).map (fun n => e.attfRow a h g (a.paneBatch p) (a.paneHead p) n)
  let outs := Att.outs a o p
  { sats := e.attLadSats a q e.attfCarry g p + total (rows.map (fun x => x.sats)) +
      (outs.filter (fun ix => e.outSat o c ix)).length
    nonFinite := (rows.any (fun x => x.any && (x.odd || x.acc.any (fun v => !v.isFin))) ||
      outs.any (fun ix => !(e.outValue o c ix).isFin)) && !(e.attReadsBad a h q e.attfCarry p)
    carry := e.attCarrySignal a q e.attfCarry g p r }

/-- Carry writes of a pane's ladder rows at its final rung. -/
def Env.attCarryWrites (e : Env) (a : Att) (lad : Desc) (c : Option Carry) (g : Rung) (p : Nat) : List (Nat × Bytes) :=
  match c with
  | none => []
  | some cp =>
    (a.paneRows p).flatMap (fun n =>
      (lad.lineBlocks (attIx lad 0 n (a.paneHead p) (a.paneBatch p))).flatMap (fun ixs =>
        match ixs with
        | [] => []
        | first :: _ =>
          let (codes, sc) := residual (e.attV lad c g ixs) (e.attBlock lad c g ixs)
          cp.blockWrites ixs first codes sc))

/-- The detail that belongs to the note an instruction reports (03 R88, 06 R177). -/
def noteDetail (o : OpOut) (hist repeated : Nat) : Nat :=
  if o.fail != 0 then o.detail
  else if o.status == 0x0041 || o.status == 0x0040 then hist
  else if o.status == 0x0010 then repeated
  else 0

/-- An instruction's outcome with that of its history, whose failures are found first, before any pane runs (06 R173). -/
def OpOut.join (x hist : OpOut) : OpOut :=
  { x with
    writes := x.writes ++ hist.writes
    notes := x.notes ++ hist.notes
    fail := if hist.fail != 0 then hist.fail else x.fail
    failKeeps := hist.fail == 0 && x.failKeeps
    detail := if hist.fail != 0 then hist.detail else x.detail
    counts := x.counts ++ hist.counts
    events := x.events ++ hist.events }

/-- History key blocks that the mask's map makes an instruction skip (06 R175). -/
def Env.maskSkipped (e : Env) (a : Att) : Nat :=
  let m := e.mask
  ((List.range m.histBlocks).filter (fun j =>
    (let c := e.pathCode m.map (m.histFirst + j)
     !(c == 1 || c == 2)) &&
    (List.range (if m.perHead then a.hq else 1)).any (fun h => (List.range m.qb).any (fun i =>
      (e.maskList h i).contains j)))).length

/-- Coefficients that a row of a pane quantises: the keys of its attended blocks. -/
def Env.rowKeys (e : Env) (a : Att) (h : Hist) (p : Nat) : Nat :=
  total (((e.maskList (a.paneHead p) (a.paneBlock p)).filter (e.attended a h)).map (fun j => (a.keysOf h j).length))

/-- Draws of ATTF: Q at a rung, the p of every attended key, and the output (02 R32). -/
def Env.attfDraws (e : Env) (a : Att) (h : Hist) (runs : List PaneRun) : KV :=
  e.ladderDraws (e.desc (e.S 1)).fmt runs (fun p => (a.paneRows p).length * a.d)
    (fun p => (a.paneRows p).length * (e.rowKeys a h p + (if (e.desc (e.S 4)).fmt == 0 then 0 else a.d)))

/-- The lines of K and V that lie in a block which some list of their group's heads names and which is attended. -/
def Env.kvReads (e : Env) (a : Att) (h : Hist) : List (Nat × Nat) :=
  let k := e.desc (e.S 2)
  let v := e.desc (e.S 3)
  (List.range a.hkv).flatMap (fun t =>
    let named := ((List.range a.hq).filter (fun hd => a.kvHead hd == t)).flatMap (fun hd =>
      (List.range a.qb).flatMap (fun i => e.maskList hd i))
    ((named.eraseDups.filter (fun j => decide (a.hb ≤ j) && e.attended a h j)).flatMap (a.keysOf h)).flatMap (fun x =>
      (List.range a.batch).flatMap (fun b =>
        k.lineRuns (attIx k 0 (x - 128 * a.hb) t b) ++ v.lineRuns (attIx v 0 (x - 128 * a.hb) t b))))

/-- Offsets, lists and path map of the mask as input runs. -/
def Env.maskIns (e : Env) (heads : Nat) : List (Nat × Nat) :=
  let m := e.mask
  let sets := if m.perHead then heads else 1
  [(m.offsets, 4 * sets * (m.qb + 1)),
   (m.list, 4 * ((List.range sets).map (fun s => e.maskOffset s m.qb)).foldl max 0)] ++
    (if m.map == 0 then [] else [(m.map, 4 * ceilDiv (m.histFirst + m.histBlocks) 16)])

/-- The history that ATTF attends through its latent view. -/
def Env.attfHist (e : Env) (a : Att) : Hist := if e.latentRef == 0 then noHist else e.viewHist a.hq

/-- ATTF has nothing to do: a zero length, unless K and V alone are empty and a view supplies history (06 R149). -/
def Env.attfEmpty (e : Env) : Bool :=
  let a := e.att (e.latentRef != 0)
  (e.desc (e.S 1)).empty || (e.desc (e.S 4)).empty || (a.nk == 0 && a.hb == 0) || a.hkv == 0

def attfRun (e : Env) : OpOut :=
  let a := e.att (e.latentRef != 0)
  let q := e.desc (e.S 1)
  let o := e.desc (e.S 4)
  let h := e.attfHist a
  if e.attfEmpty then OpOut.idle
  else
    let p := e.prec
    let runs := (List.range a.panes).map (fun i => p.runPane i true (e.attfAttempt a h i))
    let fin := fun i => e.rungOf q.fmt i (finalRung runs p.startRung i)
    let pane := fun ix : List Nat => a.pane (ix.getD 3 0) (ix.getD 2 0) (ix.getD 1 0 / 128)
    let conv := fun ix => e.attfConv a h (fin (pane ix))
    let wide := e.attfConv a h wideRung
    let sh := e.desc (e.S 6)
    let diffs := ((List.range a.panes).filter (fun i => p.sampled i)).map (fun i => (i, (Att.outs a o i).map (fun ix =>
      diffOf (e.outValue o (conv ix) ix) (e.outValue sh wide ix))))
    let disc := match e.attfCarry with
      | some c => e.carryDiscarded c
      | none => false
    let row := fun ix : List Nat => e.attfRow a h (fin (pane ix)) (ix.getD 3 0) (ix.getD 2 0) (ix.getD 1 0)
    let empties := ((indices ((o.shape.set 0 1))).filter (fun ix => !(row ix).any)).length
    let l := ladderOut p runs disc diffs
    let skipped := if e.latentRef == 0 then e.maskSkipped a else 0
    let hr : OpOut := if e.latentRef == 0 then { notes := if skipped != 0 then [0x0041] else [], detail := skipped } else e.histOut h
    let l' := l.drawing (e.attfDraws a h runs)
    let r := OpOut.join { l' with
      begins := if p.carryEn then e.carryHeader 2 else []
      writes := e.tensorWrites o (fun ix => some (e.outCode o (conv ix) ix)) (fun ix => some (e.outScale o (conv ix) ix)) ++
        (if e.statsRef == 0 then [] else e.writeInts (e.desc e.statsRef) (fun ix =>
          some (bits32 (if ix.getD 0 0 == 0 then (row ix).m else (row ix).l)))) ++
        (List.range a.panes).flatMap (fun i => e.attCarryWrites a q e.attfCarry (fin i) i) ++
        (if p.shadowEn then
          e.tensorWrites sh (fun ix => if p.sampled (pane ix) then some (e.outCode sh wide ix) else none)
            (fun ix => if p.sampled (pane ix) then some (e.outScale sh wide ix) else none)
        else [])
      endWrites := (if p.carryEn then e.carryHeader 1 else []) ++
        (if p.shadowEn then [(e.obj (e.S 7), shadowSummary diffs)] else [])
      notes := l.notes ++ (if empties != 0 then [0x0043] else [])
      tasks := dealRows a.panes e.cells
      counts := l'.counts ++ [tick 0x3180 7 a.panes, tick 0x3180 8 empties] } hr
    { r with
      detail := noteDetail r hr.detail l.detail
      reads := some (e.tensors [e.S 1] ++ e.kvReads a h ++ e.maskIns a.hq ++ e.carryExtent false q.shape q.axis ++
        (if e.latentRef == 0 then [] else e.tensors [h.up] ++ hr.reads.getD [])) }

/-- R149 on Q, K, V and the query-shaped operand S4: 0x0145. Of no key/value heads, only Hq = 0 is a multiple. -/
def Env.attForm (e : Env) (hist : Bool) : Bool :=
  let q := e.desc (e.S 1)
  let k := e.desc (e.S 2)
  let v := e.desc (e.S 3)
  let o := e.desc (e.S 4)
  !(q.rank == 3 || q.rank == 4) || q.dim 0 % 32 != 0 || q.dim 0 == 0 || decide (256 < q.dim 0) || k.rank != q.rank ||
    k.dim 0 != q.dim 0 || attBatch k != attBatch q || q.dim 2 % k.dim 2 != 0 ||
    v.rank != k.rank || v.dims != k.dims || o.rank != q.rank || o.dims != q.dims ||
    [q, k, v, o].any (fun d => !fmtFloat d.fmt) || (hist && attBatch q != 1)

/-- The block axes of R149 and R29: 0x0115. -/
def Env.attAxes (e : Env) (lad : Desc) : Bool :=
  let q := e.desc (e.S 1)
  let k := e.desc (e.S 2)
  let v := e.desc (e.S 3)
  let o := e.desc (e.S 4)
  [q, k, o].any (fun d => d.narrow && d.axis != 0) || (v.narrow && v.axis != 1) || (e.ladderBound lad && lad.axis != 0)

/-- The statistics tensor (06 R149). -/
def Env.statsBroken (e : Env) : Bool :=
  let q := e.desc (e.S 1)
  let t := e.desc e.statsRef
  t.fmt != fFP32 || t.rank != q.rank || t.dim 0 != 2 || t.dims.drop 1 != q.dims.drop 1

/-- A latent view that breaks R167: 0x0141, its stores 0x0140, its up-projection, its fallback. -/
def Env.checkView (e : Env) (a : Att) : List Nat :=
  if e.latentRef == 0 then []
  else
    let h := e.viewHist a.hq
    let refOk := fun r : Nat => r != 0 && e.s.inGddr (e.obj r) 64
    [rule (bits (e.viewAt 12 4) 19 13 != 0 || bits (e.viewAt 16 4) 19 13 != 0 || bits (e.viewAt 23 1) 2 6 != 0 ||
        e.viewAt 24 40 != 0 || !refOk (e.viewAt 0 4) || !refOk (e.viewAt 4 4) ||
        (e.viewAt 8 4 != 0 && !refOk (e.viewAt 8 4)) ||
        (e.viewCount != 0 && decide (h.store.cap ≤ 128 * e.viewFirst))) 0x0141,
     rule (e.storeBroken h.store true) 0x0140, e.s.checkDesc false (e.desc h.up), rule (e.upBroken h a.d a.hkv) 0x0145,
     e.checkFallback h.store h.fallback h.path]

/-- ScoreScale is +0, or finite and positive (06 R150). -/
def Env.scaleBroken (e : Env) : Bool :=
  let b := bits (e.W 2) 0 32
  let v := decodeFloat 0 b
  b != 0 && (!v.isFin || v.sign || v.isZero)

/-- The input runs of ATTF. -/
def Env.attfIns (e : Env) : List (Nat × Nat) :=
  let a := e.att (e.latentRef != 0)
  e.tensors [e.S 1, e.S 2, e.S 3] ++ e.maskIns a.hq ++ (if e.latentRef == 0 then [] else e.histIns (e.viewHist a.hq)) ++
    e.carryExtent e.attfEmpty (e.desc (e.S 1)).shape (e.desc (e.S 1)).axis

/-- What ATTF brings from other nodes: of K and V the blocks that it attends, of history both stores. -/
def Env.attfFetch (e : Env) : List (Nat × Nat) :=
  let a := e.att (e.latentRef != 0)
  let h := e.attfHist a
  e.tensors [e.S 1] ++ e.kvReads a h ++ (if e.latentRef == 0 then [] else e.histIns h)

def opAttf : Op where
  dash := fun _ => []
  refs := fun e =>
    let q := e.desc (e.S 1)
    [⟨e.S 1, true, .tin⟩, ⟨e.S 2, true, .tin⟩, ⟨e.S 3, true, .tin⟩, ⟨e.S 4, true, .tout⟩] ++ e.precRefs q.shape q.axis ++
      [⟨bits (e.W 3) 0 32, true, .hdr 0⟩, ⟨e.statsRef, false, .tout⟩, ⟨e.latentRef, false, .hdr 0⟩]
  rules := fun e =>
    let a := e.att (e.latentRef != 0)
    let q := e.desc (e.S 1)
    firstCode ([rule (bits (e.W 2) 32 32 != 0 || bits (e.W 4) 32 32 != 0 || e.prec.reserved) 0x0102, e.checkCarryReserved] ++
      e.checkPrec ++ [rule e.scaleBroken 0x0148,
        rule (e.attForm (e.latentRef != 0) || (e.statsRef != 0 && e.statsBroken)) 0x0145, rule (e.attAxes q) 0x0115] ++
      e.checkView a ++ e.checkMask a.nq a.nk a.hq a.hb (e.latentRef != 0) ++
      [e.checkCarry q.count, e.checkShadow (e.desc (e.S 4))])
  ins := Env.attfIns
  fetch := Env.attfFetch
  more := fun e => if e.latentRef == 0 then [] else e.objsBad [e.viewAt 0 4, e.viewAt 4 4, e.viewAt 8 4]
  idle := Env.attfEmpty
  outs := fun e =>
    let q := e.desc (e.S 1)
    e.tensors [e.S 4, e.statsRef] ++ e.precExtent e.attfEmpty q.shape q.axis ++
      (if e.latentRef == 0 then [] else
        let h := e.viewHist (e.att true).hq
        if h.store.map == 0 then [] else [(h.store.map, h.store.mapBytes)])
  run := attfRun

/-! ## ATTB (06 R159 to R161) -/

/-- A reference of the GradSet object: 0 O, 1 dQ, 2 dK, 3 dV. -/
def Env.gradRef (e : Env) (i : Nat) : Nat := e.le (e.obj (bits (e.W 4) 0 32) + 4 * i) 4

def Env.attbCarry (e : Env) : Option Carry := e.carryFor (e.desc (e.S 4))

/-- p and dS of one row and key at a rung (06 R160), and whether a score or its accumulator is not finite. -/
structure Grad where
  p : Num
  ds : Num
  odd : Bool
  deriving DecidableEq, Repr

/-- The saved statistics of a row: m at index 0, l at index 1. -/
def Env.savedStat (e : Env) (i b hd n : Nat) : Num :=
  let t := e.desc e.statsRef
  e.value t (attIx t i n hd b)

/-- A row whose saved l is +0: it contributes +0 to every gradient (06 R160). -/
def Env.deadRow (e : Env) (b hd n : Nat) : Bool :=
  let l := e.savedStat 1 b hd n
  l.isZero && !l.sign

/-- D of a row: Σ dO × O in the order of R102, with dO as it is stored (DESIGN CHOICE, log entry 167: R160 quantises dO for its
products and does not say so of D). -/
def Env.attbD (e : Env) (a : Att) (b hd n : Nat) : Num :=
  let go := e.desc (e.S 4)
  let o := e.desc (e.gradRef 0)
  sum102 ((List.range a.d).map (fun i => fmul (e.value go (attIx go i n hd b)) (e.value o (attIx o i n hd b))))

def Env.attbGrad (e : Env) (a : Att) (g : Rung) (b hd n k : Nat) : Grad :=
  let q := e.desc (e.S 1)
  let go := e.desc (e.S 4)
  let t := a.kvHead hd
  if e.deadRow b hd n then ⟨Num.zero, Num.zero, false⟩
  else
    let dot := dot98 (singleMode q.fmt (e.desc (e.S 2)).fmt)
      ((List.range a.d).map (fun i => e.value q (attIx q i n hd b))) (e.kvRow a noHist false b t k)
    let s := fmul (e.scoreScale a.d) dot
    let p := fdiv (sfuExp (fsub s (e.savedStat 0 b hd n))) (e.savedStat 1 b hd n)
    let dp := dot98 (singleMode g.fmt (e.desc (e.S 3)).fmt) (e.attLine go e.attbCarry g (attIx go 0 n hd b))
      (e.kvRow a noHist true b t k)
    ⟨p, fmul p (fsub dp (e.attbD a b hd n)), !dot.isFin || !s.isFin⟩

/-- A quantised contraction of coefficients with rows of values, in groups of 32 from an accumulator, with its saturations;
a dead row's product is +0. -/
def Env.contract (e : Env) (g : Rung) (tag fmt : Nat) (acc : Num) (xs ys : List Num) (dead : List Bool) : Num × Nat :=
  let q := e.quantVec g tag xs
  (addProducts (singleMode g.fmt fmt) acc
    (((q.flatMap (fun x => x.q)).zip (ys.zip dead)).map (fun (u, v, x) => if x then Num.zero else u.mul v)),
   total (q.map (fun x => x.sats)))

/-- The accumulator of one element of dQ after some key blocks, with its saturations (06 R160). -/
def Env.attbQOver (e : Env) (a : Att) (g : Rung) (b hd n i : Nat) (js : List Nat) : Num × Nat :=
  let tag := ((b * a.hq + hd) * a.nq + n) * 2 ^ 20
  js.foldl (fun (acc : Num × Nat) j =>
    if e.attended a noHist j then
      let ks := a.keysOf noHist j
      let c := e.contract g (tag + j) (e.desc (e.S 2)).fmt acc.1 (ks.map (fun k => (e.attbGrad a g b hd n k).ds))
        (ks.map (fun k => e.kvElem a noHist false b (a.kvHead hd) k i)) (ks.map (fun _ => false))
      (c.1, acc.2 + c.2)
    else acc) (Num.negZero, 0)

/-- dQ of one element: over the row's list, in list order (06 R160). -/
def Env.attbQ (e : Env) (a : Att) (g : Rung) (b hd n i : Nat) : Num × Nat :=
  if e.deadRow b hd n then (Num.zero, 0)
  else
    let r := e.attbQOver a g b hd n i (e.maskList hd (n / 128))
    (fmul (e.scoreScale a.d) r.1, r.2)

/-- The accumulator of one element of dK (or dV) after some query blocks: those that list the key's block, and within each the
heads of the group in ascending order (06 R160). -/
def Env.attbKVOver (e : Env) (a : Att) (g : Rung) (isVal : Bool) (b t k i : Nat) (qbs : List Nat) : Num × Nat :=
  let q := e.desc (e.S 1)
  let go := e.desc (e.S 4)
  let heads := (List.range a.hq).filter (fun h => a.kvHead h == t)
  qbs.foldl (fun (acc : Num × Nat) qb =>
    heads.foldl (fun (acc : Num × Nat) hd =>
      if (e.maskList hd qb).contains (k / 128) && e.attended a noHist (k / 128) then
        let ns := ((List.range 128).map (fun x => 128 * qb + x)).filter (fun n => n < a.nq)
        let tag := (((b * a.hkv + t) * a.nk + k) * a.qb + qb) * a.hq + hd
        let c := e.contract g (2 * tag + (if isVal then 1 else 0)) (if isVal then g.fmt else q.fmt) acc.1
          (ns.map (fun n => let r := e.attbGrad a g b hd n k
            if isVal then r.p else r.ds))
          (ns.map (fun n => if isVal then (e.attLine go e.attbCarry g (attIx go 0 n hd b)).getD i Num.zero
            else e.value q (attIx q i n hd b)))
          (ns.map (fun n => e.deadRow b hd n))
        (c.1, acc.2 + c.2)
      else acc) acc) (Num.negZero, 0)

/-- dK (or dV) of one element, over the query blocks in ascending order; the sum starts at −0, as every accumulator of 04 R98 does
(DESIGN CHOICE, log entry 167: R160 gives no first value). -/
def Env.attbKV (e : Env) (a : Att) (g : Rung) (isVal : Bool) (b t k i : Nat) : Num × Nat :=
  let r := e.attbKVOver a g isVal b t k i (List.range a.qb)
  (if isVal then r.1 else fmul (e.scoreScale a.d) r.1, r.2)

def Env.attbConvQ (e : Env) (a : Att) (g : Rung) : OutConv :=
  ⟨fun ix => (e.attbQ a g (ix.getD 3 0) (ix.getD 2 0) (ix.getD 1 0) (ix.getD 0 0)).1, e.prec.floorRule, g.mode, g.stage + 1⟩
def Env.attbConvKV (e : Env) (a : Att) (g : Rung) (isVal : Bool) : OutConv :=
  ⟨fun ix => (e.attbKV a g isVal (ix.getD 3 0) (ix.getD 2 0) (ix.getD 1 0) (ix.getD 0 0)).1, e.prec.floorRule, g.mode,
    g.stage + (if isVal then 2 ^ 121 else 2 ^ 122)⟩

/-- The rung parameters of a dK/dV pane: its draws stand apart from those of the dQ panes. -/
def Env.rungKV (e : Env) (p r : Nat) : Rung := { e.rungOf (e.desc (e.S 4)).fmt p r with stage := 2 ^ 120 + 16 * p + 2 * r }

/-- dK/dV pane (b × Hkv + t) × KB + j. -/
def Att.kvPanes (a : Att) : Nat := a.batch * a.hkv * a.kb
def Att.kvOuts (a : Att) (o : Desc) (p : Nat) : List (List Nat) :=
  (((List.range 128).map (fun x => 128 * (p % a.kb) + x)).filter (fun k => k < a.nk)).flatMap (fun k =>
    (List.range a.d).map (fun i => attIx o i k (p / a.kb % a.hkv) (p / a.kb / a.hkv)))

/-- A gradient tensor's outputs at a rung: saturations, and a non-finite value. -/
def Env.gradShow (e : Env) (o : Desc) (c : OutConv) (outs : List (List Nat)) : Nat × Bool :=
  ((outs.filter (fun ix => e.outSat o c ix)).length, outs.any (fun ix => !(c.val ix).isFin || !(e.outValue o c ix).isFin))

/-- A NaN, an infinity or a 0xFF scale in what a pane of ATTB reads of a query row (02 R43): Q, dO and its carry, O, l, and m
where p is formed (DEDUCED: a row whose l is +0 needs no m). -/
def Env.attbRowBad (e : Env) (a : Att) (b hd n : Nat) : Bool :=
  (List.range a.d).any (fun i =>
    let bad := fun r : Nat => e.nonFinite (e.desc r) (attIx (e.desc r) i n hd b)
    bad (e.S 1) || bad (e.S 4) || bad (e.gradRef 0) || (match e.attbCarry with
      | some c => !(e.cOld c (attIx (e.desc (e.S 4)) i n hd b)).isFin
      | none => false)) ||
    !(e.savedStat 1 b hd n).isFin || (!e.deadRow b hd n && !(e.savedStat 0 b hd n).isFin)

/-- The same of a key: its lines of K and V. -/
def Env.attbKeyBad (e : Env) (a : Att) (b t k : Nat) : Bool :=
  (List.range a.d).any (fun i => [e.S 2, e.S 3].any (fun r => e.nonFinite (e.desc r) (attIx (e.desc r) i k t b)))

/-- What query rows (head and token) and keys show in a pane of ATTB: a score that is not finite, and an input that explains
what is not finite. -/
def Env.attbScan (e : Env) (a : Att) (g : Rung) (b t : Nat) (rows : List (Nat × Nat)) (keys : List Nat) : Bool × Bool :=
  (rows.any (fun r => keys.any (fun k => (e.attbGrad a g b r.1 r.2 k).odd)),
   rows.any (fun r => e.attbRowBad a b r.1 r.2) || keys.any (e.attbKeyBad a b t))

def Env.attbAttemptQ (e : Env) (a : Att) (p r : Nat) : Attempt :=
  let go := e.desc (e.S 4)
  let g := e.rungOf go.fmt p r
  let o := e.desc (e.gradRef 1)
  let s := e.gradShow o (e.attbConvQ a g) (Att.outs a o p)
  let b := a.paneBatch p
  let hd := a.paneHead p
  let q := total ((a.paneRows p).map (fun n => (e.attbQ a g b hd n 0).2))
  let keys := ((e.maskList hd (a.paneBlock p)).filter (e.attended a noHist)).flatMap (a.keysOf noHist)
  let scan := e.attbScan a g b (a.kvHead hd) ((a.paneRows p).map (fun n => (hd, n))) keys
  ⟨e.attLadSats a go e.attbCarry g p + q + s.1, (s.2 || scan.1) && !scan.2, e.attCarrySignal a go e.attbCarry g p r⟩

/-- The query panes whose list holds the key block of a dK/dV pane, where it is attended. -/
def Env.kvQueries (e : Env) (a : Att) (p : Nat) : List Nat :=
  (List.range a.panes).filter (fun i => a.kvHead (a.paneHead i) == p / a.kb % a.hkv && a.paneBatch i == p / a.kb / a.hkv &&
    (e.maskList (a.paneHead i) (a.paneBlock i)).contains (p % a.kb) && e.attended a noHist (p % a.kb))

def Env.attbAttemptKV (e : Env) (a : Att) (p r : Nat) : Attempt :=
  let g := e.rungKV p r
  let t := p / a.kb % a.hkv
  let b := p / a.kb / a.hkv
  let side := fun (ref : Nat) (isVal : Bool) =>
    if ref == 0 then (0, false)
    else
      let o := e.desc ref
      let s := e.gradShow o (e.attbConvKV a g isVal) (a.kvOuts o p)
      let q := total (((List.range 128).map (fun x => 128 * (p % a.kb) + x)).filter (fun k => k < a.nk) |>.map (fun k =>
        (e.attbKV a g isVal b t k 0).2))
      (s.1 + q, s.2)
  let k := side (e.gradRef 2) false
  let v := side (e.gradRef 3) true
  let qps := e.kvQueries a p
  let rows := qps.flatMap (fun i => (a.paneRows i).map (fun n => (a.paneHead i, n)))
  let scan := e.attbScan a g b t rows (if qps == [] then [] else a.keysOf noHist (p % a.kb))
  ⟨k.1 + v.1 + total (qps.map (e.attLadSats a (e.desc (e.S 4)) e.attbCarry g)), (k.2 || v.2 || scan.1) && !scan.2,
    qps.any (fun i => e.attCarrySignal a (e.desc (e.S 4)) e.attbCarry g i r)⟩

/-- Draws of ATTB: dO at a rung, the coefficients of each contraction once per row or key, and BF16 gradients (02 R32). -/
def Env.attbDraws (e : Env) (a : Att) (qRuns kRuns : List PaneRun) : KV :=
  let fmt := (e.desc (e.S 4)).fmt
  let wide := fun i => if (e.desc (e.gradRef i)).fmt == 0 then 0 else a.d
  let rows := fun p => total ((e.kvQueries a p).map (fun i => (a.paneRows i).length))
  let keys := fun p => if e.attended a noHist (p % a.kb) then (a.keysOf noHist (p % a.kb)).length else 0
  e.ladderDraws fmt qRuns (fun p => (a.paneRows p).length * a.d)
      (fun p => ((a.paneRows p).filter (fun n => !e.deadRow (a.paneBatch p) (a.paneHead p) n)).length * e.rowKeys a noHist p +
        (a.paneRows p).length * wide 1) ++
    (e.ladderDraws fmt kRuns (fun p => rows p * a.d) (fun p => total ([2, 3].map (fun i =>
      if e.gradRef i == 0 then 0 else keys p * rows p + (a.kvOuts (e.desc (e.gradRef i)) p).length / max 1 a.d * wide i)))).map
      (fun x => (qRuns.length + x.1, x.2))

/-- ATTB has nothing to do. -/
def Env.attbEmpty (e : Env) : Bool := (e.desc (e.S 1)).empty || (e.desc (e.S 2)).empty

/-- ATTB. The carry of dO is written once per block, from the final rung of the dQ pane that reads it, and from StartRung where
dQ is not computed (DESIGN CHOICE: R39 and R160 do not say which of the panes that read a block of dO writes its carry). Shadow
mode samples the dQ panes, and the shadow tensor holds dQ; without dQ, ShadowEn is rejected with 0x0116 (DESIGN CHOICE: R48
names one output). The two sets of panes are dealt each from the grid's first row, dQ first (06 R160). -/
def attbRun (e : Env) : OpOut :=
  let a := e.att false
  let go := e.desc (e.S 4)
  if e.attbEmpty then OpOut.idle
  else
    let p := e.prec
    let hasQ := e.gradRef 1 != 0
    let hasKV := e.gradRef 2 != 0 || e.gradRef 3 != 0
    let qRuns := if hasQ then (List.range a.panes).map (fun i => p.runPane i true (e.attbAttemptQ a i)) else []
    let kRuns := if hasKV then (List.range a.kvPanes).map (fun i => p.runPane i true (e.attbAttemptKV a i)) else []
    let finQ := fun i => e.rungOf go.fmt i (finalRung qRuns p.startRung i)
    let finK := fun i => e.rungKV i (finalRung kRuns p.startRung i)
    let paneQ := fun ix : List Nat => a.pane (ix.getD 3 0) (ix.getD 2 0) (ix.getD 1 0 / 128)
    let paneK := fun ix : List Nat => (ix.getD 3 0 * a.hkv + ix.getD 2 0) * a.kb + ix.getD 1 0 / 128
    let sh := e.desc (e.S 6)
    let wide := e.attbConvQ a wideRung
    let dq := e.desc (e.gradRef 1)
    let diffs := if hasQ then ((List.range a.panes).filter (fun i => p.sampled i)).map (fun i =>
      (i, (Att.outs a dq i).map (fun ix => diffOf (e.outValue dq (e.attbConvQ a (finQ (paneQ ix))) ix)
        (e.outValue sh wide ix)))) else []
    let disc := match e.attbCarry with
      | some c => e.carryDiscarded c
      | none => false
    let l := (ladderOut p (qRuns ++ kRuns) disc diffs).drawing (e.attbDraws a qRuns kRuns)
    let skipped := e.maskSkipped a
    let grad := fun (ref : Nat) (conv : List Nat → OutConv) =>
      if ref == 0 then [] else
        let o := e.desc ref
        e.tensorWrites o (fun ix => some (e.outCode o (conv ix) ix)) (fun _ => none)
    let r : OpOut := { l with
      begins := if p.carryEn then e.carryHeader 2 else []
      writes := grad (e.gradRef 1) (fun ix => e.attbConvQ a (finQ (paneQ ix))) ++
        grad (e.gradRef 2) (fun ix => e.attbConvKV a (finK (paneK ix)) false) ++
        grad (e.gradRef 3) (fun ix => e.attbConvKV a (finK (paneK ix)) true) ++
        (List.range a.panes).flatMap (fun i => e.attCarryWrites a go e.attbCarry (finQ i) i) ++
        (if p.shadowEn then
          e.tensorWrites sh (fun ix => if p.sampled (paneQ ix) then some (e.outCode sh wide ix) else none) (fun _ => none)
        else [])
      endWrites := (if p.carryEn then e.carryHeader 1 else []) ++
        (if p.shadowEn then [(e.obj (e.S 7), shadowSummary diffs)] else [])
      notes := l.notes ++ (if skipped != 0 then [0x0041] else [])
      reads := some (e.tensors [e.S 1, e.S 4, e.statsRef, e.gradRef 0] ++ e.kvReads a noHist ++ e.maskIns a.hq ++
        e.carryExtent false go.shape go.axis)
      tasks := dealRows qRuns.length e.cells ++
        (dealRows kRuns.length e.cells).map (fun t => (qRuns.length + t.1, t.2))
      counts := l.counts ++ [tick 0x3180 7 (qRuns.length + kRuns.length)] }
    { r with detail := noteDetail r skipped l.detail }

def opAttb : Op where
  dash := fun _ => []
  refs := fun e =>
    let go := e.desc (e.S 4)
    [⟨e.S 1, true, .tin⟩, ⟨e.S 2, true, .tin⟩, ⟨e.S 3, true, .tin⟩, ⟨e.S 4, true, .tin⟩] ++ e.precRefs go.shape go.axis ++
      [⟨bits (e.W 3) 0 32, true, .hdr 0⟩, ⟨e.statsRef, true, .tin⟩, ⟨bits (e.W 4) 0 32, true, .hdr 0⟩]
  rules := fun e =>
    let a := e.att false
    let q := e.desc (e.S 1)
    let k := e.desc (e.S 2)
    let go := e.desc (e.S 4)
    let refOk := fun r : Nat => e.s.inGddr (e.obj r) 64
    let like := fun (r : Nat) (d : Desc) => r == 0 || (let o := e.desc r
      decide (o.fmt ≤ 1) && o.rank == d.rank && o.dims == d.dims)
    let o := e.desc (e.gradRef 0)
    firstCode ([rule (bits (e.W 2) 32 32 != 0 || bits (e.W 4) 32 32 != 0 || e.prec.reserved) 0x0102, e.checkCarryReserved] ++
      e.checkPrec ++ [rule e.scaleBroken 0x0148, rule (e.attForm false || e.statsBroken) 0x0145, rule (e.attAxes go) 0x0115,
        rule (e.le (e.obj (bits (e.W 4) 0 32) + 16) 48 != 0 || e.gradRef 0 == 0 ||
          (List.range 4).any (fun i => e.gradRef i != 0 && !refOk (e.gradRef i))) 0x0147] ++
      [e.s.checkDesc false o] ++
      ((List.range 3).map (fun i => if e.gradRef (i + 1) == 0 then 0 else e.s.checkDesc true (e.desc (e.gradRef (i + 1))))) ++
      [rule (!fmtFloat o.fmt || o.rank != q.rank || o.dims != q.dims || !like (e.gradRef 1) q || !like (e.gradRef 2) k ||
        !like (e.gradRef 3) k) 0x0147] ++
      e.checkMask a.nq a.nk a.hq 0 false ++
      [e.checkCarry go.count, if e.prec.shadowEn then
        (if e.gradRef 1 == 0 then 0x0116 else e.checkShadow (e.desc (e.gradRef 1))) else 0])
  ins := fun e =>
    let go := e.desc (e.S 4)
    e.tensors [e.S 1, e.S 2, e.S 3, e.S 4, e.statsRef, e.gradRef 0] ++ e.maskIns (e.att false).hq ++
      e.carryExtent e.attbEmpty go.shape go.axis
  outs := fun e =>
    let go := e.desc (e.S 4)
    e.tensors [e.gradRef 1, e.gradRef 2, e.gradRef 3] ++ e.precExtent e.attbEmpty go.shape go.axis
  run := attbRun
  fetch := fun e => e.tensors [e.S 1, e.S 4, e.statsRef, e.gradRef 0] ++ e.kvReads (e.att false) noHist
  more := fun e => e.objsBad ((List.range 4).map e.gradRef)
  idle := Env.attbEmpty

end Sys2Proof.Machine
end

