-- ==== Sys2Proof/Machine/Crc.lean ====
section
/-! DEFINITION. Crc: CRC-32C (Castagnoli) as the chapters of spec/ use it. -/

namespace Sys2Proof.Machine
open Sys2Proof

/-- `n` shifts of the reflected CRC-32C register. -/
def crcShift : Nat → Nat → Nat
  | 0, c => c
  | n + 1, c => crcShift n (if c % 2 == 1 then (c / 2) ^^^ 0x82F63B78 else c / 2)

/-- CRC-32C of a byte string. -/
def crc32c (bs : Bytes) : Nat :=
  (bs.foldl (fun c b => crcShift 8 (c ^^^ b.toNat)) 0xFFFFFFFF) ^^^ 0xFFFFFFFF

end Sys2Proof.Machine
end

