-- ==== Sys2Proof/Machine/Crypto.lean ====
section
/-! DEFINITION. Crypto: SHA-512, HMAC, ECDSA over P-521 with the nonce of RFC 6979, and AES-256-GCM, as chapter 20 uses them
(20 R530, R534, R539, R542, R543). -/

namespace Sys2Proof.Machine
open Sys2Proof

/-! ## SHA-512 -/

/-- The round constants. -/
def shaK : List Nat :=
  [0x428A2F98D728AE22, 0x7137449123EF65CD, 0xB5C0FBCFEC4D3B2F, 0xE9B5DBA58189DBBC] ++
  [0x3956C25BF348B538, 0x59F111F1B605D019, 0x923F82A4AF194F9B, 0xAB1C5ED5DA6D8118] ++
  [0xD807AA98A3030242, 0x12835B0145706FBE, 0x243185BE4EE4B28C, 0x550C7DC3D5FFB4E2] ++
  [0x72BE5D74F27B896F, 0x80DEB1FE3B1696B1, 0x9BDC06A725C71235, 0xC19BF174CF692694] ++
  [0xE49B69C19EF14AD2, 0xEFBE4786384F25E3, 0x0FC19DC68B8CD5B5, 0x240CA1CC77AC9C65] ++
  [0x2DE92C6F592B0275, 0x4A7484AA6EA6E483, 0x5CB0A9DCBD41FBD4, 0x76F988DA831153B5] ++
  [0x983E5152EE66DFAB, 0xA831C66D2DB43210, 0xB00327C898FB213F, 0xBF597FC7BEEF0EE4] ++
  [0xC6E00BF33DA88FC2, 0xD5A79147930AA725, 0x06CA6351E003826F, 0x142929670A0E6E70] ++
  [0x27B70A8546D22FFC, 0x2E1B21385C26C926, 0x4D2C6DFC5AC42AED, 0x53380D139D95B3DF] ++
  [0x650A73548BAF63DE, 0x766A0ABB3C77B2A8, 0x81C2C92E47EDAEE6, 0x92722C851482353B] ++
  [0xA2BFE8A14CF10364, 0xA81A664BBC423001, 0xC24B8B70D0F89791, 0xC76C51A30654BE30] ++
  [0xD192E819D6EF5218, 0xD69906245565A910, 0xF40E35855771202A, 0x106AA07032BBD1B8] ++
  [0x19A4C116B8D2D0C8, 0x1E376C085141AB53, 0x2748774CDF8EEB99, 0x34B0BCB5E19B48A8] ++
  [0x391C0CB3C5C95A63, 0x4ED8AA4AE3418ACB, 0x5B9CCA4F7763E373, 0x682E6FF3D6B2B8A3] ++
  [0x748F82EE5DEFB2FC, 0x78A5636F43172F60, 0x84C87814A1F0AB72, 0x8CC702081A6439EC] ++
  [0x90BEFFFA23631E28, 0xA4506CEBDE82BDE9, 0xBEF9A3F7B2C67915, 0xC67178F2E372532B] ++
  [0xCA273ECEEA26619C, 0xD186B8C721C0C207, 0xEADA7DD6CDE0EB1E, 0xF57D4F7FEE6ED178] ++
  [0x06F067AA72176FBA, 0x0A637DC5A2C898A6, 0x113F9804BEF90DAE, 0x1B710B35131C471B] ++
  [0x28DB77F523047D84, 0x32CAAB7B40C72493, 0x3C9EBE0A15C9BEBC, 0x431D67C49C100D4C] ++
  [0x4CC5D4BECB3E42B6, 0x597F299CFC657E2A, 0x5FCB6FAB3AD6FAEC, 0x6C44198C4A475817]

/-- The initial chaining value. -/
def shaInit : List Nat :=
  [0x6A09E667F3BCC908, 0xBB67AE8584CAA73B, 0x3C6EF372FE94F82B, 0xA54FF53A5F1D36F1] ++
  [0x510E527FADE682D1, 0x9B05688C2B3E6C1F, 0x1F83D9ABFB41BD6B, 0x5BE0CD19137E2179]

def rotr64 (x n : Nat) : Nat := x / 2 ^ n + x % 2 ^ n * 2 ^ (64 - n)
def add64 (l : List Nat) : Nat := total l % 2 ^ 64

/-- The message schedule, newest word first, by fuel. -/
def shaWords : Nat → List Nat → List Nat
  | 0, ws => ws
  | f + 1, ws =>
    let a := ws.getD 14 0
    let b := ws.getD 1 0
    let s0 := rotr64 a 1 ^^^ rotr64 a 8 ^^^ (a / 2 ^ 7)
    let s1 := rotr64 b 19 ^^^ rotr64 b 61 ^^^ (b / 2 ^ 6)
    shaWords f (add64 [ws.getD 15 0, s0, ws.getD 6 0, s1] :: ws)

/-- One round over the eight working words. -/
def shaRound (v : List Nat) (k w : Nat) : List Nat :=
  let a := v.getD 0 0
  let b := v.getD 1 0
  let c := v.getD 2 0
  let e := v.getD 4 0
  let f := v.getD 5 0
  let g := v.getD 6 0
  let s1 := rotr64 e 14 ^^^ rotr64 e 18 ^^^ rotr64 e 41
  let ch := (e &&& f) ^^^ ((2 ^ 64 - 1 - e) &&& g)
  let t1 := add64 [v.getD 7 0, s1, ch, k, w]
  let s0 := rotr64 a 28 ^^^ rotr64 a 34 ^^^ rotr64 a 39
  let maj := (a &&& b) ^^^ (a &&& c) ^^^ (b &&& c)
  [add64 [t1, s0, maj], a, b, c, add64 [v.getD 3 0, t1], e, f, g]

/-- The compression of one block of 128 bytes. -/
def shaBlock (h : List Nat) (b : Bytes) : List Nat :=
  let ws := (shaWords 64 ((chunks 8 b).map beNat).reverse).reverse
  List.zipWith (fun x y => (x + y) % 2 ^ 64) h ((List.zip shaK ws).foldl (fun v kw => shaRound v kw.1 kw.2) h)

/-- SHA-512 of a byte string. -/
def sha512 (m : Bytes) : Bytes :=
  let z := (239 - m.length % 128) % 128
  ((chunks 128 (m ++ [0x80] ++ List.replicate z 0 ++ beBytes 16 (8 * m.length))).foldl shaBlock shaInit).flatMap (beBytes 8)

/-- HMAC with SHA-512, for keys of at most 128 bytes. -/
def hmac512 (key m : Bytes) : Bytes :=
  let k := fit 128 key
  sha512 (k.map (fun x => x ^^^ 0x5C) ++ sha512 (k.map (fun x => x ^^^ 0x36) ++ m))

/-! ## P-521 -/

def p521P : Nat := 2 ^ 521 - 1
def p521B : Nat :=
  0x0051953EB9618E1C9A1F929A21A0B68540EEA2DA725B99B315F3B8B489918EF109E156193951EC7E937B1652C0BD3BB1BF073573DF883D2C34F1EF451FD46B503F00
def p521N : Nat :=
  0x01FFFFFFFFFFFFFFFFFFFFFFFFFFFFFFFFFFFFFFFFFFFFFFFFFFFFFFFFFFFFFFFFFA51868783BF2F966B7FCC0148F709A5D03BB5C9B8899C47AEBB6FB71E91386409
def p521G : Nat × Nat :=
  (0x00C6858E06B70404E9CD9E3ECB662395B4429C648139053FB521F828AF606B4D3DBAA14B5E77EFE75928FE1DC127A2FFA8DE3348B3C1856A429BF97E7E31C2E5BD66,
   0x011839296A789A3BC0045C8A5FB42C7D1BD998F54449579B446817AFBD17273E662C97EE72995EF42640C550B9013FAD0761353C7086A272C24088BE94769FD16650)

/-- Powers modulo `m`, by fuel: one step for each bit of the exponent. -/
def powMod (m : Nat) : Nat → Nat → Nat → Nat
  | 0, _, _ => 1 % m
  | f + 1, b, e =>
    if e == 0 then 1 % m
    else
      let r := powMod m f (b * b % m) (e / 2)
      if e % 2 == 1 then r * b % m else r

/-- The inverse modulo a prime of at most 521 bits. -/
def invMod (m x : Nat) : Nat := powMod m 521 (x % m) (m - 2)

/-- A point of the curve, none at infinity. -/
abbrev Point := Option (Nat × Nat)

/-- The sum of two points. -/
def pointAdd (a b : Point) : Point :=
  match a, b with
  | none, _ => b
  | _, none => a
  | some (x1, y1), some (x2, y2) =>
    if x1 == x2 && (y1 + y2) % p521P == 0 then none
    else
      let l :=
        if x1 == x2 then (3 * x1 * x1 + (p521P - 3)) * invMod p521P (2 * y1) % p521P
        else (y2 + (p521P - y1)) * invMod p521P (x2 + (p521P - x1)) % p521P
      let x3 := (l * l + (p521P - x1) + (p521P - x2)) % p521P
      some (x3, (l * (x1 + (p521P - x3)) + (p521P - y1)) % p521P)

/-- A multiple of a point, by fuel. -/
def pointMul : Nat → Nat → Point → Point
  | 0, _, _ => none
  | f + 1, k, p =>
    if k == 0 then none
    else
      let h := pointMul f (k / 2) (pointAdd p p)
      if k % 2 == 1 then pointAdd p h else h

def onCurve (x y : Nat) : Bool :=
  decide (x < p521P) && decide (y < p521P) && (y * y) % p521P == (x * x * x + (p521P - 3) * x + p521B) % p521P

/-- A SEC 1 uncompressed point of 133 bytes. -/
def pointOf (b : Bytes) : Point :=
  let x := beAt b 1 66
  let y := beAt b 67 66
  if b.length == 133 && leAt b 0 1 == 4 && onCurve x y then some (x, y) else none

def pointBytes : Point → Bytes
  | none => List.replicate 133 0
  | some (x, y) => [0x04] ++ beBytes 66 x ++ beBytes 66 y

/-- An ECDSA signature over the SHA-512 of a message verifies. -/
def ecdsaVerify (pub m : Bytes) (r s : Nat) : Bool :=
  match pointOf pub with
  | none => false
  | some q =>
    if r == 0 || s == 0 || decide (p521N ≤ r) || decide (p521N ≤ s) then false
    else
      let w := invMod p521N s
      match pointAdd (pointMul 521 (beNat (sha512 m) * w % p521N) (some p521G)) (pointMul 521 (r * w % p521N) (some q)) with
      | none => false
      | some (x, _) => x % p521N == r

/-- The signature with nonce `k`. -/
def ecdsaWith (d k : Nat) (m : Bytes) : Nat × Nat :=
  let r := (pointMul 521 k (some p521G)).elim 0 (fun p => p.1 % p521N)
  (r, invMod p521N k * (beNat (sha512 m) + r * d) % p521N)

/-- The search of RFC 6979, clause 3.2, by fuel. -/
def rfcSearch (d : Nat) (m : Bytes) : Nat → Bytes → Bytes → Nat × Nat
  | 0, _, _ => (0, 0)
  | f + 1, key, v =>
    let v1 := hmac512 key v
    let v2 := hmac512 key v1
    let k := beNat (v1 ++ v2) / 2 ^ (1024 - 521)
    let sig := ecdsaWith d k m
    if k != 0 && decide (k < p521N) && sig.1 != 0 && sig.2 != 0 then sig
    else
      let key := hmac512 key (v2 ++ [0x00])
      rfcSearch d m f key (hmac512 key v2)

/-- The deterministic signature of RFC 6979 (20 R543). -/
def ecdsaSign (d : Nat) (m : Bytes) : Nat × Nat :=
  let tail := beBytes 66 d ++ beBytes 66 (beNat (sha512 m) % p521N)
  let v0 := List.replicate 64 (0x01 : Byte)
  let k1 := hmac512 (List.replicate 64 0x00) (v0 ++ [0x00] ++ tail)
  let v1 := hmac512 k1 v0
  let k2 := hmac512 k1 (v1 ++ [0x01] ++ tail)
  rfcSearch d m 128 k2 (hmac512 k2 v1)

/-- The public key of a private key. -/
def ecdsaPublic (d : Nat) : Bytes := pointBytes (pointMul 521 d (some p521G))

/-! ## AES-256-GCM -/

/-- The product in the field of GCM, from the bits of `x` above `i`. -/
def gcmMul (x : Nat) : Nat → Nat → Nat → Nat
  | 0, _, z => z
  | i + 1, v, z =>
    gcmMul x i (if v % 2 == 1 then (v / 2) ^^^ (0xE1 * 2 ^ 120) else v / 2) (if bit x i then z ^^^ v else z)

def gcmPad (b : Bytes) : Bytes := b ++ List.replicate ((16 - b.length % 16) % 16) 0

/-- GHASH over whole blocks. -/
def ghash (h : Nat) (b : Bytes) : Nat := (chunks 16 b).foldl (fun y x => gcmMul (y ^^^ beNat x) 128 h 0) 0

/-- Encipher or decipher under a 12-byte IV: counter blocks from 2. -/
def gcmCrypt (ks : List (List Nat)) (iv b : Bytes) : Bytes :=
  ((List.range (ceilDiv b.length 16)).flatMap (fun i =>
    List.zipWith (fun x y => x ^^^ y) (sub b (16 * i) 16) (aesBlockWith ks (iv ++ beBytes 4 (i + 2)))))

/-- The tag of a ciphertext with its associated data. -/
def gcmTagOf (ks : List (List Nat)) (iv aad b : Bytes) : Bytes :=
  let h := beNat (aesBlockWith ks (List.replicate 16 0))
  let y := ghash h (gcmPad aad ++ gcmPad b ++ beBytes 8 (8 * aad.length) ++ beBytes 8 (8 * b.length))
  beBytes 16 (y ^^^ beNat (aesBlockWith ks (iv ++ beBytes 4 1)))

end Sys2Proof.Machine
end

