-- ==== Sys2Proof/Machine/Journal.lean ====
section
/-! DEFINITION. Journal: blocks, records, commits, snapshots and wear of the Restante store (18 R464 to R482). -/

namespace Sys2Proof.Machine
open Sys2Proof

/-! ## Blocks -/

/-- Free good blocks: those in no area and not bad (18 R464). -/
def Store.freeBlocks (t : Store) : Nat := 4096 - t.blocks.length

def Store.grownBad (t : Store) : Nat := (t.blocks.filter (fun b => b.area == 8)).length
def Store.factoryBad (t : Store) : Nat := (t.blocks.filter (fun b => b.area == 7)).length

/-- StoreState (18 R482): 0 Normal, 1 Low, 2 Read-only. -/
def Store.condition (t : Store) : Nat :=
  if decide (t.freeBlocks < 24) || decide (120 < t.grownBad) then 2 else if t.freeBlocks < 64 then 1 else 0

def Store.listed (t : Store) (b : Nat) : Bool := t.blocks.any (fun x => x.id == b)

/-- The first block from `n` that is free and was never erased, by fuel. -/
def Store.firstFresh (t : Store) : Nat → Nat → Option Nat
  | 0, _ => none
  | f + 1, n => if !t.listed n && !kvHas n t.eraseBase then some n else t.firstFresh f (n + 1)

/-- The entry with the lowest value, first among equals. -/
def kvLowest : KV → Option (Nat × Nat)
  | [] => none
  | e :: l =>
    match kvLowest l with
    | some x => if x.2 < e.2 then some x else some e
    | none => some e

/-- The erased free block with the lowest EraseCount (18 R478). -/
def Store.pick (t : Store) : Option Nat :=
  match t.firstFresh 4092 4 with
  | some b => some b
  | none => (kvLowest (t.eraseBase.filter (fun e => !t.listed e.1))).map (fun e => e.1)

/-- Take an erased block for an area. -/
def Store.take (t : Store) (area : Nat) : Store :=
  match t.pick with
  | some b => { t with
      blocks := t.blocks ++ [⟨b, area, kvGet b 0 t.eraseBase, 0⟩]
      eraseBase := kvDel b t.eraseBase }
  | none => t

/-- The pages of some blocks hold nothing any more. -/
def Store.dropPages (t : Store) (ids : List Nat) : Store :=
  { t with nand := t.nand.filter (fun p => !ids.contains p.block) }

/-- The blocks of `ids` return to the free pool, erased once more. -/
def Store.giveBack (t : Store) (ids : List Nat) : Store :=
  { t.dropPages ids with
    blocks := t.blocks.filter (fun b => !ids.contains b.id)
    eraseBase := (t.blocks.filter (fun b => ids.contains b.id)).foldl (fun m b => kvSet b.id (b.erases + 1) m) t.eraseBase }

/-- Blocks of an area. -/
def Store.area (t : Store) (a : Nat) : List Nat := (t.blocks.filter (fun b => b.area == a)).map (fun b => b.id)

/-- `n` blocks for an area: those it takes, and the store with them. -/
def Store.takeBlocks (t : Store) (area n : Nat) : List Nat × Store :=
  let u := (List.range n).foldl (fun t _ => t.take area) t
  ((u.area area).filter (fun b => !(t.area area).contains b), u)

/-! ## Pages (18 R462, R463) -/

/-- The main data of a page, filled with zeros. -/
def NPage.main (p : NPage) : Bytes := p.data ++ List.replicate (16384 - p.data.length) 0

/-- The 64-byte tag of a page (18 R463). -/
def NPage.tag (p : NPage) : Bytes :=
  let body := leBytes 1 p.kind ++ [1, 0, 0] ++ leBytes 8 p.seq ++ leBytes 4 p.erases ++ leBytes 4 p.extent ++ leBytes 4 p.index ++
    leBytes 4 (crc32c p.main) ++ List.replicate 32 0
  body ++ leBytes 4 (crc32c body)

/-- The check bytes of a run of 16-byte codewords, two for each (10 R239). -/
def checkBytes (b : Bytes) : Bytes :=
  (List.range (b.length / 16)).flatMap (fun i => leBytes 2 (Config.checkBits (leAt b (16 * i) 16)).toNat)

/-- The 2,304 spare bytes of a page: Marker, Tag, TagCheck, zeros and DataCheck (18 R462). -/
def NPage.spare (p : NPage) : Bytes :=
  [0xFF, 0xFF] ++ p.tag ++ checkBytes p.tag ++ List.replicate 182 0 ++ checkBytes p.main

/-- The 18,688 bytes of a page: main data, then spare. -/
def NPage.bytes (p : NPage) : Bytes := p.main ++ p.spare

/-- What the store reads of a page is valid (18 R463): every codeword decodes, both CRCs match, and Kind and Format are
recognised. -/
def pageValid (b : Bytes) : Bool :=
  let m := b.take 16384
  let t := sub b 16386 64
  checkBytes m == sub b 16640 2048 && checkBytes t == sub b 16450 8 && crc32c m == leAt t 24 4 &&
    crc32c (t.take 60) == leAt t 60 4 && decide (1 ≤ leAt t 0 1) && decide (leAt t 0 1 ≤ 6) && leAt t 1 1 == 1

/-- Program the next page of a block; PageSeq rises by one with each page and never repeats (18 R463). -/
def Store.program (t : Store) (block kind extent index : Nat) (data : Bytes) : Store :=
  match t.blocks.find? (fun b => b.id == block) with
  | some b => { t with
      nand := t.nand ++ [⟨block, b.pages, kind, t.pageSeq, b.erases, extent, index, data⟩]
      blocks := modifyWhere (fun x => x.id == block) (fun x => { x with pages := x.pages + 1 }) t.blocks
      pageSeq := t.pageSeq + 1
      nandBytes := t.nandBytes + 16384 }
  | none => t

/-- Program the pages of an extent, page `i` into the block that `place` names; no block is numbered 4096. -/
def Store.programExtent (t : Store) (kind extent : Nat) (place : Nat → Option Nat) (pages : List Bytes) : Store :=
  (pages.zipIdx).foldl (fun t x => t.program ((place x.2).getD 4096) kind extent x.2 x.1) t

/-- Bytes cut into pages' main data. -/
def pageCuts (b : Bytes) : List Bytes := (List.range (ceilDiv b.length 16384)).map (fun i => sub b (16384 * i) 16384)

/-- Store an extent page after page, 64 pages to a block: the blocks it takes and the store after. An area's extents have the
page Kind of its number. -/
def Store.putExtent (t : Store) (area extent : Nat) (pages : List Bytes) : List Nat × Store :=
  let r := t.takeBlocks area (ceilDiv pages.length 64)
  (r.1, r.2.programExtent area extent (fun i => r.1[i / 64]?) pages)

/-! ## Records (18 R466, R467) -/

/-- Bytes of a record on a journal page. -/
def Rec.size (r : Rec) : Nat := 16 + roundUp r.data.length 16

/-- A record: its 16-byte header and its payload, padded with zeros (18 R466). -/
def Rec.bytes (r : Rec) : Bytes :=
  leBytes 2 r.type ++ leBytes 2 r.data.length ++ leBytes 4 r.key ++ List.replicate 8 0 ++ r.data ++
    List.replicate (roundUp r.data.length 16 - r.data.length) 0

/-- The pages that records fill; no record crosses a page, and the zeros behind the last one are a Pad record (18 R466, R467). -/
def packRecs (l : List Rec) : List Bytes :=
  let r := l.foldl (fun (acc : List Bytes × Bytes) (x : Rec) =>
    if acc.2.length + x.size ≤ 16384 then (acc.1, acc.2 ++ x.bytes) else (acc.1 ++ [acc.2], x.bytes)) ([], [])
  r.1 ++ [r.2]

/-- Put a record as the newest of its type and key. -/
def putRec (l : List Rec) (r : Rec) : List Rec := l.filter (fun x => x.type != r.type || x.key != r.key) ++ [r]

/-- Keep the newest `n` records of a type. -/
def capRecs (type n : Nat) (l : List Rec) : List Rec :=
  if n < (l.filter (fun r => r.type == type)).length then l.eraseP (fun r => r.type == type) else l

/-- Apply a committed record: an ExtentFree drops its extent; PowerLoss and SnapshotDone leave nothing; the newest 16,384 log
entries and 16 rotation records are kept (19 R506, 20 R542). -/
def applyRec (l : List Rec) (r : Rec) : List Rec :=
  if r.type == 8 then l.filter (fun x => x.type != 7 || x.key != r.key)
  else if r.type == 0xB || r.type == 0xC then l
  else capRecs 0xD 16 (capRecs 6 16384 (putRec l r))

def recBytes (l : List Rec) : Nat := total (l.map Rec.size)

/-- The record of a type and key that holds now: pending before committed. -/
def Store.newest (t : Store) (type key : Nat) : Option Rec :=
  (t.durable ++ t.pending).reverse.find? (fun r => r.type == type && r.key == key)

/-! ## Commits (18 R468 to R471, R478) -/

/-- The journal block with a page left. -/
def Store.openJournal (t : Store) : Option Nat :=
  (t.blocks.find? (fun b => b.area == 2 && decide (b.pages < 64))).map (fun b => b.id)

/-- Program one journal page into the open journal block, or into an erased block of the free pool. -/
def Store.journalPage (t : Store) (data : Bytes) : Store :=
  let u := if t.openJournal.isSome then t else t.take 2
  u.program (u.openJournal.getD 4096) 2 0 0 data

/-- The Commit record that ends a commit of `recs` (18 R467, R468). -/
def Store.commitRec (t : Store) (recs : List Rec) : Rec :=
  ⟨0xF0, 0, leBytes 8 (t.commitSeq + 1) ++ leBytes 8 t.pageSeq ++ leBytes 4 recs.length ++
    leBytes 4 (crc32c (recs.flatMap Rec.bytes)) ++ List.replicate 8 0⟩

/-- Write one commit of `recs`: pages, allowance, CommitSeq, and the records in force. -/
def Store.writeCommit (t : Store) (recs : List Rec) : Store :=
  let pages := packRecs (recs ++ [t.commitRec recs])
  let n := pages.length
  { pages.foldl Store.journalPage t with
    commitSeq := t.commitSeq + 1
    journalBytes := t.journalBytes + 16384 * n
    allowance := t.allowance - (16384 * n : Nat)
    durable := recs.foldl applyRec t.durable }

/-- `n` block numbers of two bytes each, 0xFFFF where there is none. -/
def blockNumbers (n : Nat) (l : List Nat) : Bytes := (List.range n).flatMap (fun i => leBytes 2 (l.getD i 0xFFFF))

/-- The main data of the anchor that the store would write now (18 R465). -/
def Store.anchorData (t : Store) : Bytes :=
  let image := t.image.elim [] (fun i => i.bytes)
  let blocks := t.image.elim [] (fun i => i.blocks)
  leBytes 8 (t.anchorSeq + 1) ++ leBytes 4 image.length ++ leBytes 2 blocks.length ++ blockNumbers 32 blocks ++ sha512 image ++
    leBytes 8 t.snapshotCommit ++ leBytes 2 (t.area 3).length ++ blockNumbers 4 (t.area 3) ++ leBytes 2 ((t.area 2).headD 0xFFFF)

/-- Write an anchor to the next page of blocks 0 to 3; a block is erased just before its first page is written (18 R465). -/
def Store.writeAnchor (t : Store) : Store :=
  let block := (t.anchorSeq - 1) / 64 % 4
  let u := if (t.anchorSeq - 1) % 64 != 0 then t
    else { t.dropPages [block] with
      blocks := modifyWhere (fun b => b.id == block) (fun b => { b with erases := b.erases + 1, pages := 0 }) t.blocks }
  { u.program block 1 0 0 t.anchorData with anchorSeq := t.anchorSeq + 1 }

/-- Write a snapshot when the journal since the last one exceeds 64 blocks, then SnapshotDone and an anchor (18 R471). -/
def Store.snapshot (t : Store) : Store :=
  let old := t.area 3
  let full := (t.blocks.filter (fun b => b.area == 2 && b.pages == 64)).map (fun b => b.id)
  let u := (t.putExtent 3 t.nextExtent (packRecs t.durable)).2
  let covered := u.commitSeq
  let v := { u with nextExtent := u.nextExtent + 1 }.writeCommit [⟨0xC, 0, leBytes 4 u.nextExtent ++ leBytes 4 0 ++
    leBytes 8 covered⟩]
  { v.giveBack (old ++ full) with snapshotCommit := covered, journalBytes := 0 }.writeAnchor

/-- Highest and lowest EraseCount among good blocks outside the anchor (18 R478). -/
def Store.eraseRange (t : Store) : Nat × Nat :=
  let used := (t.blocks.filter (fun b => decide (2 ≤ b.area) && decide (b.area ≤ 6))).map (fun b => b.erases)
  let free := t.eraseBase.map (fun e => e.2)
  let hi := (used ++ free).foldl max 0
  let lo := if (t.firstFresh 4092 4).isSome then 0 else (used ++ free).foldl min hi
  (hi, lo)

def Store.eraseMean (t : Store) : Nat :=
  let used := (t.blocks.filter (fun b => decide (2 ≤ b.area) && decide (b.area ≤ 6))).map (fun b => b.erases)
  (total used + total (t.eraseBase.map (fun e => e.2))) /
    (4096 - 4 - (t.blocks.filter (fun b => decide (7 ≤ b.area))).length)

/-- Move a block's valid pages to a fresh block (18 R478, R479). -/
def Store.relocate (t : Store) (id : Nat) : Store :=
  match t.blocks.find? (fun b => b.id == id), t.pick with
  | some b, some n =>
    let swap := fun x => if x == id then n else x
    let held := t.nand.filter (fun p => p.block == id)
    let u := held.foldl (fun u p => u.program n p.kind p.extent p.index p.data) ((t.take b.area).giveBack [id])
    { u with
      image := u.image.map (fun i => { i with blocks := i.blocks.map swap })
      cullets := u.cullets.map (fun x => { x with blocks := x.blocks.map swap })
      lastPosts := u.lastPosts.map (fun x => { x with blocks := x.blocks.map swap }) }
  | _, _ => t

/-- The data block with the lowest EraseCount. -/
def Store.coldest (t : Store) : Option Nat :=
  (kvLowest ((t.blocks.filter (fun b => decide (2 ≤ b.area) && decide (b.area ≤ 6))).map (fun b => (b.id, b.erases)))).map
    (fun e => e.1)

/-- Wear levelling after a commit (18 R478). -/
def State.wearLevel (s : State) : State :=
  let r := s.store.eraseRange
  if r.2 + 1000 < r.1 then
    match s.store.coldest with
    | some b => ({ s with store := s.store.relocate b } : State).bump 0x5111 7 1
    | none => s
  else s

/-- The persistent counters 0x4003 that have changed since their last commit (19 R523, 17 R448). -/
def State.countRecs (s : State) : List Rec :=
  ((List.range 8).map (fun i => (⟨1, dkey 0x4003 (i + 1), leBytes 8 (s.count 0x4003 (i + 1))⟩ : Rec))).filter (fun r =>
    match s.store.durable.find? (fun x => x.type == 1 && x.key == r.key) with
    | some x => x.data != r.data
    | none => leNat r.data != 0)

/-- One commit of the pending records and changed counters, with those of `extra` first; nothing is written in Read-only
(18 R482). -/
def State.commitWith (s : State) (extra : List Rec) : State :=
  if s.store.condition == 2 then s
  else
    let t := { s.store.writeCommit (extra ++ s.countRecs ++ s.store.pending) with pending := [] }
    let s := ({ s with store := t } : State).bump 0x5111 1 1
    if 67108864 < s.store.journalBytes then (({ s with store := s.store.snapshot } : State).bump 0x5111 1 1).wearLevel
    else s.wearLevel

/-- Commit what is pending, if anything is. -/
def State.commit (s : State) : State := if s.store.pending == [] && s.countRecs == [] then s else s.commitWith []

/-- A commit under the third case of R469: a fence changed, an image was placed, or StoreAll was written (18 R469, R491). -/
def State.forceCommit (s : State) : State :=
  if s.store.condition == 2 then s else (s.bump 0x5111 2 1).commitWith []

/-- The allowance is spent (18 R470). -/
def State.spent (s : State) : Bool := decide (s.store.allowance ≤ 0)

/-- Make a record pending (18 R467, R469, R470). A record that `must` be kept starts a commit where a spent allowance would
let the pending records exceed 64 KiB; otherwise a commit starts when they reach it. -/
def State.journal (s : State) (must : Bool) (r : Rec) : State :=
  if s.store.condition == 2 then s
  else
    let s := if must && s.spent && decide (65536 < recBytes (putRec s.store.pending r)) then s.commitWith [] else s
    let s : State := { s with store := { s.store with pending := putRec s.store.pending r } }
    if !s.spent && decide (65536 ≤ recBytes s.store.pending) then s.commitWith [] else s

/-- A client's JobCount record can join the pending records (18 R470). -/
def State.canJoin (s : State) (r : Rec) : Bool :=
  !s.spent || s.store.condition == 2 || s.store.pending.any (fun x => x.type == r.type && x.key == r.key) ||
    decide (recBytes (putRec s.store.pending r) ≤ 65536)

end Sys2Proof.Machine
end

