-- ==== Sys2Proof/Machine/Events.lean ====
section
/-! DEFINITION. Events: last-post events, the error log, FaultSummary with its emergencies and ALERT_N (17 R438, R455, 19
R506 to R514). -/

namespace Sys2Proof.Machine
open Sys2Proof

/-! ## Unit codes (19 R507) -/

def unitCell (i : Nat) : Nat := 0x1000 + i
def unitLane (i g : Nat) : Nat := 0x2000 + 4 * i + g
def unitSwitch (b : Nat) : Nat := 0x3000 + b
def unitEngine (b : Nat) : Nat := 0x4000 + b
def unitRegion (r : Nat) : Nat := 0x5000 + r
def unitPart (r : Nat) : Nat := 0x6000 + r
def unitChan (n : Nat) : Nat := 0x7000 + n
def unitFabric (port lane : Nat) : Nat := 0x8000 + 4 * port + lane
def unitCore (n : Nat) : Nat := 0x9000 + n
def unitCodec (n : Nat) : Nat := 0xA000 + n
def unitIntake (n : Nat) : Nat := 0xB000 + n
def unitChip (n : Nat) : Nat := 0xC000 + n

/-- The region of a unit; units of the chip and of the ports belong to none. -/
def regionOfUnit (u : Nat) : Option Nat :=
  let n := u % 4096
  match u / 4096 with
  | 1 => some (n / 64)
  | 2 => some (n / 256)
  | 3 => some (n / 8)
  | 4 => some (n / 8)
  | 5 => some n
  | 6 => some n
  | 7 => some (n / 6)
  | _ => none

/-- The partition of a unit, 0xFF where it belongs to none. -/
def State.partOfUnit (s : State) (u : Nat) : Nat :=
  match regionOfUnit u with
  | some r => s.partOfRegion r
  | none => 0xFF

/-- The time-of-day word (01 R14). -/
def State.tod (s : State) : Nat := s.dget 0x2010 1

/-! ## Last-post rings (19 R511) -/

/-- Add an event to a ring of 32,768. -/
def ringAdd (l : List PostEvent) (e : PostEvent) : List PostEvent :=
  (if 32768 ≤ l.length then l.drop 1 else l) ++ [e]

/-- Write a last-post event. A unit that belongs to no region writes to the rings of all four. -/
def State.post (s : State) (unit event status detail : Nat) : State :=
  let part := s.partOfUnit unit
  let e : PostEvent := ⟨s.cycle, s.tod, unit, event, status, if part == 0xFF then 0 else s.postmark part, detail⟩
  let rings := match regionOfUnit unit with
    | some r => modifyAt (fun l => ringAdd l e) r s.faults.rings
    | none => s.faults.rings.map (fun l => ringAdd l e)
  { s.drew with faults := { s.faults with rings := rings } }

/-! ## Error log (19 R506) -/

/-- The 64 bytes of an entry. -/
def LogEntry.bytes (e : LogEntry) : Bytes :=
  leBytes 4 e.number ++ leBytes 2 2 ++ leBytes 2 e.unit ++ leBytes 8 e.cycle ++ leBytes 8 e.tod ++ leBytes 2 e.status ++
    leBytes 1 e.severity ++ leBytes 1 e.partition ++ leBytes 2 e.postmark ++ leBytes 2 0 ++ leBytes 32 e.detail

def newestOf {α : Type} (n : Nat) (l : List α) : List α := l.drop (l.length - n)

/-- Log an event. Of corrected errors at most one per unit in 2^30 local cycles is logged; while the allowance is spent,
Severity 0 to 2 stays in memory (18 R470). -/
def State.log (s : State) (unit status severity part detail : Nat) : State :=
  let c := s.cycle
  let s := s.drew
  let pm := if part == 0xFF then 0 else s.postmark part
  let e : LogEntry := ⟨s.faults.logNext, unit, c, s.tod, status, severity, part, pm, detail⟩
  let recent := s.faults.log.any (fun x => x.severity == 0 && x.unit == unit && decide (c < x.cycle + 2 ^ 30))
  if severity == 0 && recent then s
  else
    let f := { s.faults with logNext := (s.faults.logNext + 1) % 2 ^ 32 }
    if s.spent && decide (severity ≤ 2) then
      ({ s with faults := { f with memLog := newestOf 16384 (f.memLog ++ [e]) } } : State).bump 0x5111 0xA 1
    else
      ({ s with faults := { f with log := newestOf 16384 (f.log ++ [e]) } } : State).journal (decide (3 ≤ severity))
        ⟨6, e.number, e.bytes⟩

/-! ## FaultSummary (19 R513) -/

/-- The level bits that hold now. -/
def State.levelBits (s : State) : List (Nat × Bool) :=
  let ps := s.fabric.ports
  [(4, s.faults.fences.any (fun f => f.state == 1 || f.state == 3)),
   (5, s.faults.fences.any (fun f => f.state == 2)),
   (8, ps.any (fun p => p.st != .disabled && decide (p.width < 4))),
   (9, ps.any (fun p => p.st != .disabled && p.st != .active && p.st != .changing)),
   (10, ps.any (fun p => p.miswired)),
   (13, s.store.condition == 1),
   (14, s.store.condition == 2),
   (16, s.store.imageBad),
   (17, s.board.warned),
   (18, decide (s.board.millivolts < 36000) || decide (48000 < s.board.millivolts)),
   (19, s.sec.trngFail),
   (23, s.office.notStarted != []),
   (25, s.node == 0xFFFF),
   (28, s.faults.fences.any (fun f => f.state == 3))]

def State.levels (s : State) : Nat := total (s.levelBits.map (fun b => if b.2 then 2 ^ b.1 else 0))

/-- 0x4000:01 FaultSummary. -/
def State.faultSummary (s : State) : Nat := s.faults.latched ||| s.levels

/-- The level of ALERT_N, 1 when asserted (17 R442, R455, 19 R501). -/
def State.alert (s : State) : Bool := s.faults.alertForced || (s.faultSummary &&& s.dget 0x4000 2) != 0

/-! ## Emergencies (17 R438) -/

/-- A mailbox frame: the 6-byte header with type CoE (3), and its data. -/
def mailbox (type : Nat) (data : Bytes) : Bytes :=
  leBytes 2 data.length ++ leBytes 2 0 ++ leBytes 1 0 ++ leBytes 1 type ++ data

/-- A CoE mailbox of a service (17 R434). -/
def coeMailbox (service : Nat) (data : Bytes) : Bytes := mailbox 3 (leBytes 2 (service * 4096) ++ data)

/-- The mailbox is served: the firmware serves and the AL state has it (17 R430, R432). -/
def State.mailboxUp (s : State) : Bool := s.board.phase == .serving && (s.ecat.al == 2 || s.ecat.al == 4 || s.ecat.al == 8)

/-- Place waiting emergencies in SM1 while it is empty. -/
def State.flushEmergency (s : State) : State :=
  if s.mailboxUp && s.ecat.sm1 == [] then
    match s.ecat.emergencies with
    | [] => s
    | m :: l => ({ s with ecat := { s.ecat with sm1 := [m], emergencies := l } } : State).bump 0x3250 3 1
  else s

/-- Send an emergency for a FaultSummary bit that rose. -/
def State.emergency (s : State) (bitNo status : Nat) : State :=
  if s.ecat.al == 2 || s.ecat.al == 4 || s.ecat.al == 8 then
    let m := coeMailbox 1 (leBytes 2 0xFF00 ++ leBytes 1 0x81 ++ leBytes 1 bitNo ++ leBytes 2 status ++ leBytes 2 0)
    if s.ecat.emergencies.length < 16 then
      ({ s with ecat := { s.ecat with emergencies := s.ecat.emergencies ++ [m] } } : State).flushEmergency
    else s.bump 0x3250 4 1
  else s

/-- Set a latched bit; a rise is announced. -/
def State.raise (s : State) (bitNo status : Nat) : State :=
  if bit s.faults.latched bitNo then s
  else ({ s with faults := { s.faults with latched := setBit s.faults.latched bitNo true } } : State).emergency bitNo status

/-- Announce the level bits that have risen since they were last looked at. -/
def State.watch (s : State) (status : Nat) : State :=
  let old := s.faults.levels
  let now := s.levels
  let s : State := { s with faults := { s.faults with levels := now } }
  (List.range 29).foldl (fun s i => if bit now i && !bit old i then s.emergency i status else s) s

/-- A free detail of an event whose layout the spec leaves open. -/
def State.anyDetail (s : State) : Nat := s.free 7

end Sys2Proof.Machine
end

