-- ==== Sys2Proof/Machine/Wire.lean ====
section
/-! DEFINITION. Wire: routing and sending of flits (12 R318 to R324), remote requests, and the memory pool with its local
copies (10 R253 to R261, 11 R290). -/

namespace Sys2Proof.Machine
open Sys2Proof

/-! ## Torus and routes (12 R318 to R322) -/

/-- Length of an axis: 0 X, 1 Y, 2 Z. -/
def axisLen (dims a : Nat) : Nat := bits dims (5 * a) 5 + 1
def coord (node a : Nat) : Nat := bits node (5 * a) 5

/-- Every coordinate of a node id lies below its dimension (12 R318). -/
def inTorus (dims node : Nat) : Bool :=
  decide (node < 2 ^ 15) && (List.range 3).all (fun a => decide (coord node a < axisLen dims a))

/-- The default entry of a destination (12 R320): a mask of ports. -/
def defaultRoute (dims own dest : Nat) : Nat :=
  match (List.range 3).find? (fun a => coord dest a != coord own a) with
  | none => 0
  | some a =>
    let n := axisLen dims a
    let f := (coord dest a + n - coord own a) % n
    if f ≤ n - f then 3 * 2 ^ (4 * a) else 3 * 2 ^ (4 * a + 2)

/-- The routing entry of a node. -/
def Router.entry (r : Router) (node : Nat) : Nat :=
  kvGet node (defaultRoute r.torusInForce r.nodeInForce node) r.routes

def Port.carries (p : Port) : Bool := p.st == .active || p.st == .changing

/-- The Active ports of an entry. -/
def Router.openPorts (r : Router) (node : Nat) : List Nat :=
  (r.ports.filter (fun p => bit (r.entry node) p.id && p.carries)).map (fun p => p.id)

/-- Virtual lane on which a flit leaves by a port: 0 on entering an axis, 1 past the axis's dateline (12 R322). -/
def Router.vlane (r : Router) (port : Nat) (from_ : Option (Nat × Nat)) : Nat :=
  let a := port / 4
  let c := coord r.nodeInForce a
  let start := match from_ with
    | some x => if x.1 == a then x.2 else 0
    | none => 0
  if (if port / 2 % 2 == 0 then c == axisLen r.torusInForce a - 1 else c == 0) then 1 else start

def State.setPort (s : State) (i : Nat) (f : Port → Port) : State :=
  { s with fabric := { s.fabric with ports := modifyAt f i s.fabric.ports } }

def State.port (s : State) (i : Nat) : Port := s.fabric.ports.getD i (Port.init i)

/-- The axis and the virtual lane on which a transit flit came. -/
def Flit.came (f : Flit) : Option (Nat × Nat) := f.place.map (fun x => (x.1 / 4, x.2 % 2))

/-- A transit flit leaves its receive buffer: a credit is owed to the port that it came by (12 R308). -/
def State.freePlace (s : State) (f : Flit) : State :=
  match f.place with
  | none => s
  | some x => s.setPort x.1 (fun p => { p with owed := modifyAt (fun k => k + 1) x.2 p.owed })

/-- Route one flit onward: queued at a port, held where no port of its entry is Active, discarded and counted outside the
torus. A held flit keeps the virtual lane of the axis that it came by (12 R322). -/
def State.routeFlit (s : State) (f : Flit) : State :=
  if !inTorus s.fabric.torusInForce f.dest then (s.freePlace f).bump 0x3210 5 1
  else
    let ps := s.fabric.openPorts f.dest
    if ps == [] then { s with fabric := { s.fabric with held := s.fabric.held ++ [f] } }
    else
      let p := ps.getD (Config.routeHash f.src f.dest % ps.length) 0
      s.setPort p (fun q => { q with sendQ := q.sendQ ++ [{ f with vlane := s.fabric.vlane p f.came }] })

/-- Route the held flits again, after a port became Active. -/
def State.rerouteHeld (s : State) : State :=
  s.fabric.held.foldl (fun s f => s.routeFlit f) { s with fabric := { s.fabric with held := [] } }

/-- The flits of a packet: fragments of 236 bytes, the last one marked. -/
def packetFlits (type cls src dest post req : Nat) (payload : Bytes) : List Flit :=
  let cs := if payload == [] then [[]] else chunks 236 payload
  (List.range cs.length).map (fun i => ⟨type, cls, 0, i + 1 == cs.length, 0, 0, 0, 0, dest, src, post, cs.getD i [], none, req⟩)

/-- Send a Data packet of a class: 0 postcard, 1 request, 2 response, 3 bulk. -/
def State.sendPacket (s : State) (cls dest post : Nat) (payload : Bytes) : State :=
  (packetFlits 1 cls s.node dest post 0 payload).foldl (fun s f => s.routeFlit f) s

/-- Send a response on behalf of a partition, whose postmark its flits carry (12 R306): its first two bytes echo the request's
postmark, big-endian (19 R504). -/
def State.respond (s : State) (part dest post : Nat) (payload : Bytes) : State :=
  s.sendPacket 2 dest (s.postmark part) (beBytes 2 (post % 1024) ++ payload)

/-- Send a Refuse flit with a status code, on behalf of a partition (12 R307). -/
def State.refuse (s : State) (part dest code : Nat) : State :=
  (packetFlits 2 2 s.node dest (s.postmark part) 0 (beBytes 2 code)).foldl (fun s f => s.routeFlit f) s

/-- The partition on whose behalf a remote access is answered: that of the object at the address, or of the address's interleave set,
and the first where neither names one (DESIGN CHOICE: R306 has a flit carry its source partition's postmark, and does not say which
partition answers there). -/
def State.homePart (s : State) (a : Nat) : Nat :=
  match s.mem.objects.find? (fun o => o.home == 0xFFFF && decide (o.base ≤ a) && decide (a < o.base + o.size)) with
  | some o => o.set
  | none => (s.partOfAddr a).getD 0

/-! ## Requests -/

/-- Why a remote access cannot leave this module: no node id in force (12 R319), a node outside the torus (03 R78); 0 where
it can. -/
def State.unreachable (s : State) (node : Nat) : Nat :=
  if s.node == 0xFFFF then 0x07A0 else if !inTorus s.fabric.torusInForce node then 0x0701 else 0

/-- Send a remote request and remember it until it is answered. -/
def State.request (s : State) (kind : ReqKind) (ctx idx part node addr len : Nat) (data : Bytes) (session seq : Nat) :
    State :=
  let id := s.cs.nextReq
  let pm := s.postmark part
  let r : Req := ⟨id, ctx, idx, kind, node, addr, len, data, [], pm, part, false, session, seq⟩
  let s : State := { s with cs := { s.cs with reqs := s.cs.reqs ++ [r], nextReq := id + 1 } }
  (packetFlits 1 1 s.node node pm id (beBytes 4 id ++ beBytes 8 addr ++ beBytes 4 len ++ data)).foldl (fun s f => s.routeFlit f) s

def State.dropReqs (s : State) (p : Req → Bool) : State :=
  { s with cs := { s.cs with reqs := s.cs.reqs.filter (fun r => !p r) } }

def State.req? (s : State) (id : Nat) : Option Req := s.cs.reqs.find? (fun r => r.id == id && !r.answered)

/-! ## Pool (10 R247, R253 to R255, 11 R290) -/

/-- Bytes of one save slot of a partition (11 R290). -/
def State.slotBytes (s : State) (p : Nat) : Nat := 117444608 * (s.regionsOf p).length

/-- The interleave set that serves a partition: start and size (10 R247). -/
def State.setRange (s : State) (p : Nat) : Nat × Nat :=
  if s.mem.interleave == 0 then (0, s.mem.windowBytes)
  else
    let size := fun q => 7 * 2 ^ 30 * (s.mem.activeChans.filter (fun c => s.partOfChan c == q)).length
    (total ((List.range p).map size), size p)

/-- Bytes at the top of a partition's set that are not pool: the system reserve in its set, and the save region. -/
def State.setTop (s : State) (p : Nat) : Nat :=
  (if s.mem.interleave == 0 || p + 1 == s.nParts then 4 * 2 ^ 30 else 0) +
    (if s.mem.interleave == 0 then s.mem.saveSlots * 4 * 117444608 else s.mem.saveSlots * s.slotBytes p)

/-- Where a partition's save slots start (11 R290). -/
def State.saveBase (s : State) (p : Nat) : Nat :=
  let r := s.setRange p
  r.1 + r.2 - s.setTop p +
    (if s.mem.interleave == 0 then s.mem.saveSlots * total ((List.range p).map s.slotBytes) else 0)

/-- The address of a save slot. -/
def State.slotAddr (s : State) (p i : Nat) : Nat := s.saveBase p + i * s.slotBytes p

/-- The pool of a partition's set, as (start, end). -/
def State.pool (s : State) (p : Nat) : Nat × Nat :=
  let r := s.setRange p
  (r.1, r.1 + (r.2 - s.setTop p))

/-- Objects whose home is this module. -/
def MemSys.localObjs (m : MemSys) : List Obj := m.objects.filter (fun o => o.home == 0xFFFF)

/-- The first place at or after `a` where `n` bytes meet none of `used`, by fuel. -/
def fitAfter (used : List (Nat × Nat)) (n stop : Nat) : Nat → Nat → Option Nat
  | 0, _ => none
  | f + 1, a =>
    if stop < a + n then none
    else
      match used.find? (fun u => runsMeet1 u (a, n)) with
      | some u => fitAfter used n stop f (u.1 + u.2)
      | none => some a
where
  runsMeet1 (x y : Nat × Nat) : Bool := decide (x.1 < y.1 + y.2) && decide (y.1 < x.1 + x.2)

/-- A place for an object of `n` bytes in a partition's set. -/
def State.place (s : State) (p n : Nat) (zeroed : Bool) : Option Nat :=
  let objs := s.mem.localObjs.map (fun o => (o.base, o.size))
  let used := if zeroed then objs ++ s.mem.unzeroed else objs
  fitAfter used n (s.pool p).2 (used.length + 1) (s.pool p).1

/-- Free zeroed bytes of the pools. The granule of a copy that is being evicted counts as free at once (DESIGN CHOICE: what needs it
would wait for the copy's write-back, 10 R260). -/
def State.freeBytesPool (s : State) : Nat :=
  let size := total ((if s.mem.interleave == 0 then [0] else List.range s.nParts).map
    (fun p => (s.pool p).2 - (s.pool p).1))
  size - total (s.mem.localObjs.map (fun o => o.size)) - total (s.mem.unzeroed.map (fun u => u.2)) -
    4096 * (s.mem.copies.filter (fun c => !c.leaving)).length

/-! ## Local copies (10 R257 to R261) -/

/-- This module may copy the granule of a remote address. -/
def State.copyable (s : State) (g : Nat) : Bool :=
  s.mem.objects.any (fun o => o.home == gNode g && o.localCopy && decide (o.base ≤ gLocal g) &&
    decide (gLocal g < o.base + o.size))

/-- The copy of the granule that holds a remote address. -/
def MemSys.copyOf (m : MemSys) (g : Nat) : Option Copy :=
  m.copies.find? (fun c => c.node == gNode g && c.addr == gLocal g / 4096 * 4096)

/-- A remote address lies in a copy that holds its unit as poison (10 R582). -/
def MemSys.copyBad (m : MemSys) (g : Nat) : Bool :=
  (m.copyOf g).any (fun c => c.poison.contains (gLocal g / 16))

/-- The byte that a copy holds of a remote address: a byte written here, or one of the home's contents. -/
def MemSys.copyByte (m : MemSys) (g : Nat) : Option Byte :=
  match m.copyOf g with
  | none => none
  | some c =>
    match layGet (gLocal g) c.data with
    | some v => some v
    | none => if c.whole then some 0 else none

/-- The partition on whose behalf an object with a remote home was allocated: its postmark goes on the fabric requests for it
(10 R253). -/
def State.objPart (s : State) (node a : Nat) : Nat :=
  match s.mem.objects.find? (fun o => o.home == node && decide (o.base ≤ a) && decide (a < o.base + o.size)) with
  | some o => o.set
  | none => 0

/-- This copy, among others. -/
def Copy.is (c x : Copy) : Bool := x.node == c.node && x.addr == c.addr

def State.dropCopy (s : State) (c : Copy) : State :=
  { s with mem := { s.mem with copies := s.mem.copies.filter (fun x => !c.is x) } }

/-- Charge a write that failed to the first SIGNAL or FENCE of Scope 1 that starts afterwards (03 R82). -/
def State.chargeWrite (s : State) (ctx code : Nat) : State :=
  { s with cs := { s.cs with failedWrites := s.cs.failedWrites ++ [(ctx, returnable code)] } }

/-- A write-back has failed (10 R261): the copy stays dirty and is kept, and each queue that wrote it is charged. -/
def State.lostBack (s : State) (node addr code : Nat) : State :=
  match s.mem.copies.find? (fun c => c.node == node && c.addr == addr) with
  | none => s
  | some c =>
    let s := c.writers.foldl (fun s w => s.chargeWrite w code) s
    { s with mem := { s.mem with
        copies := modifyWhere (fun x => x.node == node && x.addr == addr) (fun x => { x with failed := true, leaving := false })
          s.mem.copies } }

/-- The fetch of a copy's contents has failed: its writes are charged, and there is no copy. -/
def State.lostFetch (s : State) (node addr code : Nat) : State :=
  let s := (s.mem.copies.filter (fun c => c.node == node && c.addr == addr)).foldl (fun s c =>
    c.writers.foldl (fun s w => s.chargeWrite w code) s) s
  { s with mem := { s.mem with copies := s.mem.copies.filter (fun c => c.node != node || c.addr != addr) } }

/-- Write a dirty copy back to its home as one 4 KiB write (10 R258), once the home's contents have arrived. Its uncorrectable
units follow the bytes, so that they arrive as poison (R241). -/
def State.writeBack (s : State) (c : Copy) : State :=
  if !c.whole || s.cs.reqs.any (fun r => r.kind == .writeBack && r.node == c.node && r.addr == c.addr && !r.answered) then s
  else if s.unreachable c.node != 0 then s.lostBack c.node c.addr (s.unreachable c.node)
  else s.request .writeBack c.job 0 (s.objPart c.node c.addr) c.node c.addr 4096
    ((List.range 4096).map (fun i => (layGet (c.addr + i) c.data).getD 0) ++ c.poison.flatMap (fun u => beBytes 8 u)) 0 0

/-- Evict a copy (10 R260): a clean one is dropped, a dirty one written back and dropped when that is acknowledged. -/
def State.evict (s : State) (c : Copy) : State :=
  if c.dirty then
    ({ s with mem := { s.mem with copies := modifyWhere c.is (fun x => { x with leaving := true }) s.mem.copies } } : State).writeBack c
  else (s.dropCopy c).bump 0x31C0 0xD 1

/-- An instruction that is fetching operands, or running, accesses a copy (10 R260). -/
def State.copyInUse (s : State) (c : Copy) : Bool :=
  s.cs.flight.any (fun f => (f.phase == .fetching || f.phase == .running) && (f.ins ++ f.outs).any (fun x =>
    decide (x.1 < 2 ^ 64) && gRemote x.1 && gNode x.1 == c.node && runsMeet (gLocal x.1, x.2) (c.addr, 4096)))

/-- The copy that is evicted next (10 R260, R261): the least recently accessed, passing over one whose home's contents are still
awaited, one already leaving, one whose write-back failed, and one in use. -/
def State.oldest (s : State) : Option Copy := s.mem.copies.find? (fun c => c.whole && !c.failed && !c.leaving && !s.copyInUse c)

/-- Make room in the pool for `n` bytes: free zeroed granules first, then copies are evicted, least recently accessed first
(10 R260), by fuel. -/
def State.makeRoom (s : State) (n : Nat) : Nat → State
  | 0 => s
  | f + 1 =>
    if n ≤ s.freeBytesPool then s
    else
      match s.oldest with
      | some c => (s.evict c).makeRoom n f
      | none => s

/-- Room for one more copy, false where nothing can be evicted. -/
def State.copyRoom (s : State) : State × Bool :=
  let s := s.makeRoom 4096 (s.mem.copies.length + 1)
  (s, decide (4096 ≤ s.freeBytesPool))

/-- The copies that runs of global addresses access become the most recently accessed (10 R260). -/
def MemSys.touch (m : MemSys) (l : List (Nat × Nat)) : MemSys :=
  let hit := fun (c : Copy) => l.any (fun x => decide (x.1 < 2 ^ 64) && gRemote x.1 && gNode x.1 == c.node &&
    runsMeet (gLocal x.1, x.2) (c.addr, 4096))
  { m with copies := m.copies.filter (fun c => !hit c) ++ m.copies.filter hit }

/-- Put bytes of one granule into its copy, making one if there is room; false where there is none. A unit written whole is
poison no longer (10 R241). -/
def State.copyWrite (s : State) (ctx g : Nat) (bs : Bytes) : State × Bool :=
  let a := gLocal g
  let put := fun (c : Copy) => { c with
    data := (List.range bs.length).foldl (fun l i => layPut (a + i) (bs.getD i 0) l) c.data
    dirty := true
    writers := insertNat ctx c.writers
    poison := c.poison.filter (fun u => !(decide (a ≤ 16 * u) && decide (16 * u + 16 ≤ a + bs.length)))
    leaving := false }
  match s.mem.copyOf g with
  | some c => ({ s with mem := { s.mem with copies := s.mem.copies.filter (fun x => !c.is x) ++ [put c] } }, true)
  | none =>
    let r := s.copyRoom
    if r.2 then
      let s := r.1
      let c : Copy := ⟨gNode g, a / 4096 * 4096, [], bs.length == 4096, true, [], ctx, s.cs.nextReq, [], false, false⟩
      let s : State := { s with mem := { s.mem with copies := s.mem.copies ++ [put c] } }
      (if c.whole then s
       else if s.unreachable c.node != 0 then s.lostFetch c.node c.addr (s.unreachable c.node)
       else s.request .copyFetch ctx 0 (s.objPart c.node c.addr) c.node c.addr 4096 [] 0 0, true)
    else (r.1, false)

/-- Cut a run at 4 KiB granules, by fuel. -/
def granules (a : Nat) (bs : Bytes) : Nat → List (Nat × Bytes)
  | 0 => []
  | f + 1 =>
    if bs == [] then []
    else
      let k := 4096 - a % 4096
      (a, bs.take k) :: granules (a + k) (bs.drop k) f

/-- One write of an instruction to a global address: here, into local copies, or to its home (10 R246, R257). -/
def State.writeGlobal (s : State) (ctx idx part : Nat) (w : Nat × Bytes) : State :=
  let g := w.1 % 2 ^ 64
  if s.gHere g then s.writeBytes (gAddr g) w.2
  else
    (granules g w.2 (w.2.length / 4096 + 2)).foldl (fun s x =>
      let direct := fun (s : State) =>
        let code := s.unreachable (gNode x.1)
        if code != 0 then s.chargeWrite ctx code
        else s.request .write ctx idx part (gNode x.1) (gLocal x.1) x.2.length x.2 0 0
      if w.1 < 2 ^ 64 && s.copyable x.1 then
        let r := s.copyWrite ctx x.1 x.2
        if r.2 then r.1 else direct r.1
      else direct s) s

end Sys2Proof.Machine
end

