-- ==== Sys2Proof/Machine/Dict.lean ====
section
/-! DEFINITION. Dict: how a write to the object dictionary is answered (17 R434 to R459), and fences as records (19 R517 to
R519). -/

namespace Sys2Proof.Machine
open Sys2Proof

/-! ## Answers -/

/-- The abort code of a status code (17 R456); `commit` where a pair's commit entry was written. -/
def abortCode (commit : Bool) (detail : Nat) : Nat :=
  if detail == 0x01F2 then 0x06040041
  else if detail / 256 == 1 then (if commit && (detail == 0x01F1 || detail == 0x01A0) then 0x06040043 else 0x06090030)
  else if detail / 256 == 2 || detail / 256 == 4 || detail / 256 == 7 then 0x08000020
  else if detail / 256 == 5 then 0x08000021
  else 0x06060000

/-- Put a CoE response into SM1: the firmware serves, so the last chip reset has not timed out (19 R497). -/
def State.placeSm1 (s : State) (m : Bytes) : State :=
  { s with
    ecat := { s.ecat with sm1 := s.ecat.sm1 ++ [m] }
    faults := { s.faults with resetTries := 0 } }

/-- Answer with an abort, and record its cause (17 R456, R457). -/
def State.abort (s : State) (idx sub code detail : Nat) : State :=
  (((({ s with ecat := { s.ecat with lastAbort := (dkey idx sub, code, detail) } } : State).bump 0x3250 1 1).bump 0x3250 2
    1)).placeSm1 (coeMailbox 3 (leBytes 1 0x80 ++ leBytes 2 idx ++ leBytes 1 sub ++ leBytes 4 code))

/-- What a write leaves: the machine after it and 0, or a status code for which nothing changed. -/
abbrev Applied := State × Nat

/-- Answer a write that has been judged: an abort, or the success of 17 R435, with a last-post event (19 R511). -/
def State.answerWrite (s : State) (idx sub : Nat) (commit : Bool) (r : Applied) : State :=
  if r.2 != 0 then s.abort idx sub (abortCode commit r.2) r.2
  else ((r.1.post (unitChip 4) 9 0 (dkey idx sub)).bump 0x3250 1 1).placeSm1
    (coeMailbox 3 (leBytes 1 0x60 ++ leBytes 2 idx ++ leBytes 1 sub ++ leBytes 4 0))

/-- Answer an upload with an entry's bytes (17 R434): at most four go in the first mailbox, expedited; none exceeds a mailbox. -/
def State.upload (s : State) (idx sub : Nat) (data : Bytes) : State :=
  let n := data.length
  (s.bump 0x3250 1 1).placeSm1 (coeMailbox 3 (
    if n ≤ 4 then leBytes 1 (0x43 + 4 * (4 - n)) ++ leBytes 2 idx ++ leBytes 1 sub ++ fit 4 data
    else leBytes 1 0x41 ++ leBytes 2 idx ++ leBytes 1 sub ++ leBytes 4 n ++ data))

/-- A write to an entry that triggers an action: answered while the mailbox is served. A value outside `lo` to `hi` is
refused with 0x01F0 (17 R446, R450). -/
def State.trigger (s : State) (idx sub : Nat) (commit : Bool) (lo hi value : Nat) (f : State → Applied) : State :=
  if !s.mailboxUp then s
  else s.answerWrite idx sub commit (if decide (value < lo) || decide (hi < value) then (s, 0x01F0) else f s)

/-- Why a persistent value cannot be kept now: the allowance is spent, or the store is Read-only (18 R470, R482); else 0. -/
def State.keepRefused (s : State) : Nat :=
  if s.store.condition == 2 then 0x08F4 else if s.spent then 0x02F6 else 0

/-- Put a persistent value into the dictionary and its journal record (17 R448). -/
def State.keep (s : State) (idx sub width v : Nat) : State :=
  (s.dset idx sub v).journal false ⟨1, dkey idx sub, leBytes width v⟩

/-! ## Fence records (19 R519) -/

def Fence.bytes (f : Fence) : Bytes :=
  leBytes 2 f.unit ++ leBytes 1 f.state ++ leBytes 1 f.origin ++ leBytes 2 f.cause ++ leBytes 2 0 ++ leBytes 8 f.cycle ++
    leBytes 8 f.tod ++ leBytes 8 0

/-- The fence record of a unit. -/
def State.fenceOf (s : State) (unit : Nat) : Option Fence := s.faults.fences.find? (fun f => f.unit == unit)

/-- A unit is fenced now: fenced, or with a clear that awaits a chip reset. -/
def State.isFenced (s : State) (unit : Nat) : Bool :=
  match s.fenceOf unit with
  | some f => f.state != 2
  | none => false

/-- Write a fence record and commit it at once (18 R469), with its last-post event and log entry. -/
def State.putFence (s : State) (unit state origin cause : Nat) : State :=
  let f : Fence := ⟨unit, state, origin, cause, s.cycle, s.tod⟩
  let s := s.drew
  let s : State := { s with faults := { s.faults with fences := s.faults.fences.filter (fun x => x.unit != unit) ++ [f] } }
  let s := (s.journal true ⟨3, unit, f.bytes⟩).forceCommit
  ((s.post unit 4 cause s.anyDetail).log unit cause 7 (s.partOfUnit unit) 0).watch cause

/-- A cleared fence goes: its record is journalled with State 0 and committed at once. -/
def State.dropFence (s : State) (unit : Nat) : State :=
  match s.fenceOf unit with
  | none => s
  | some f =>
    let s : State := { s with faults := { s.faults with fences := s.faults.fences.filter (fun x => x.unit != unit) } }
    ((s.journal true ⟨3, unit, { f with state := 0 }.bytes⟩).forceCommit).watch 0

/-- Mark a channel for fencing at the next chip reset (10 R268, 19 R517). -/
def State.markChannel (s : State) (n origin cause : Nat) : State :=
  if (s.chan n).fenced || (s.chan n).marked then s
  else (s.setChan n (fun c => { c with marked := true })).putFence (unitChan n) 2 origin cause

/-- Uncorrectable device reads of a channel: 16 in a fence window mark it (19 R517). -/
def State.badReads (s : State) (n k : Nat) : State :=
  let s := s.setChan n (fun c => { c with uncorrectableReads := c.uncorrectableReads + k })
  if 16 ≤ (s.chan n).uncorrectableReads then s.markChannel n 0 0x0302 else s

end Sys2Proof.Machine
end

