-- ==== Sys2Proof/Machine/Moves.lean ====
section
/-! DEFINITION. Moves: the opcodes GATH, SCAT and COPY, and manifests (03 R72 to R75, 10 R262, R263). -/

namespace Sys2Proof.Machine
open Sys2Proof

/-- R72 on a table, a rows tensor and an index tensor. -/
def Env.rowsRules (e : Env) (table rows ind : Desc) (add : Bool) : List Nat :=
  let x := fun d : Desc => e.s.homeRuns d.extent
  [rule (table.rank != 2 || rows.rank != 2 || ind.rank != 1 || rows.dim 0 != table.dim 0 || rows.dim 1 != ind.dim 0) 0x0105,
   rule (table.fmt != rows.fmt || ind.fmt != fU32) 0x0106,
   rule (add && decide (1 < table.fmt)) 0x0106,
   rule (table.narrow && (table.axis != 0 || rows.axis != 0 || table.dim 0 % 32 != 0)) 0x0107,
   rule (!disjoint [x table, x rows, x ind]) 0x0107]

/-! ## GATH (03 R73) -/

def Env.index (e : Env) (i : Nat) : Nat := e.uint (e.desc (e.S 2)) [i]

def opGath : Op where
  dash := fun _ => [3, 5, 6, 7, 11, 12, 13, 14]
  refs := fun e => [⟨e.S 1, true, .tin⟩, ⟨e.S 2, true, .tin⟩, ⟨e.S 4, true, .tout⟩]
  rules := fun e => firstCode (e.rowsRules (e.desc (e.S 1)) (e.desc (e.S 4)) (e.desc (e.S 2)) false)
  ins := fun e => e.tensors [e.S 1, e.S 2]
  outs := fun e => e.tensors [e.S 4]
  run := fun e =>
    let t := e.desc (e.S 1)
    let o := e.desc (e.S 4)
    if t.empty || o.empty then OpOut.idle
    else
      let ok := fun i => e.index i < t.dim 1
      { writes := e.tensorWrites o
          (fun ix => some (if ok (ix.getD 1 0) then e.elemBits t [ix.getD 0 0, e.index (ix.getD 1 0)] else 0))
          (fun ix => some (if ok (ix.getD 1 0) then e.scaleByte t [ix.getD 0 0, e.index (ix.getD 1 0)] else 0x7F))
        notes := if (List.range (o.dim 1)).all ok then [] else [0x0001]
        tasks := e.lineTasks o }
  idle := fun e => (e.desc (e.S 1)).empty || (e.desc (e.S 4)).empty

/-! ## SCAT (03 R74) -/

/-- The positions that name a table row, in ascending order. -/
def Env.scatAt (e : Env) (row : Nat) : List Nat :=
  (List.range ((e.desc (e.S 2)).dim 0)).filter (fun i => e.index i == row)

/-- One addition rounded by RNE in the table's format. -/
def addIn (fmt : Nat) (x y : Num) : Num := if fmt == fBF16 then toBf16 .rne (x.add y) else fadd x y

def opScat : Op where
  dash := fun _ => [3, 5, 6, 7, 11, 12, 14]
  refs := fun e => [⟨e.S 1, true, .tin⟩, ⟨e.S 2, true, .tin⟩, ⟨e.S 4, true, .tout⟩]
  rules := fun e => firstCode (rule (bits (e.W 3) 1 63 != 0) 0x0102 ::
    e.rowsRules (e.desc (e.S 4)) (e.desc (e.S 1)) (e.desc (e.S 2)) (bit (e.W 3) 0))
  ins := fun e => e.tensors ([e.S 1, e.S 2] ++ if bit (e.W 3) 0 then [e.S 4] else [])
  outs := fun e => e.tensors [e.S 4]
  run := fun e =>
    let r := e.desc (e.S 1)
    let t := e.desc (e.S 4)
    if r.empty || t.empty then OpOut.idle
    else
      { writes :=
          if bit (e.W 3) 0 then
            e.tensorWrites t (fun ix => match e.scatAt (ix.getD 1 0) with
              | [] => none
              | l => some (encodeFloat t.fmt (l.foldl (fun a i => addIn t.fmt a (e.value r [ix.getD 0 0, i])) (e.value t ix))))
              (fun _ => none)
          else
            e.tensorWrites t (fun ix => (e.scatAt (ix.getD 1 0)).getLast?.map (fun i => e.elemBits r [ix.getD 0 0, i]))
              (fun ix => (e.scatAt (ix.getD 1 0)).getLast?.map (fun i => e.scaleByte r [ix.getD 0 0, i]))
        notes := if (List.range (r.dim 1)).all (fun i => e.index i < t.dim 1) then [] else [0x0001]
        tasks := e.lineTasks r }
  idle := fun e => (e.desc (e.S 1)).empty || (e.desc (e.S 4)).empty

/-! ## Manifests (10 R262, R263) -/

/-- One block: its global address and length, and whether it goes to the object's home. -/
structure MBlock where
  addr : Nat
  len : Nat
  home : Bool
  reserved : Bool
  deriving DecidableEq, Repr

def Env.manCount (e : Env) (a : Nat) : Nat := e.le a 4
/-- Bytes of blocks behind a manifest's header, 0 where BlockCount is illegal. -/
def Env.manExtra (e : Env) (r : Nat) : Nat :=
  if 2 ^ 22 < e.manCount (e.obj r) then 0 else 16 * e.manCount (e.obj r)

def Env.manBlocks (e : Env) (a : Nat) : List MBlock :=
  if 2 ^ 22 < e.manCount a then []
  else (List.range (e.manCount a)).map (fun i =>
    let b := a + 64 + 16 * i
    ⟨e.le b 8, e.le (b + 8) 4, bit (e.le (b + 12) 1) 0, bits (e.le (b + 12) 4) 2 30 != 0⟩)

def manTotal (l : List MBlock) : Nat := total (l.map (fun b => b.len))

/-- R263: the codes of a manifest checked whole, in order. -/
def Env.checkManifest (e : Env) (out : Bool) (a : Nat) : Nat :=
  let bs := e.manBlocks a
  firstCode [
    rule (e.le (a + 4) 4 != 0 || e.le (a + 16) 48 != 0 || decide (2 ^ 22 < e.manCount a) ||
      !e.s.inGddr a (64 + 16 * e.manCount a) || bs.any (fun b => b.reserved)) 0x0183,
    rule (e.le (a + 8) 8 != manTotal bs) 0x0184,
    rule (bs.any (fun b => b.len != 0 && !e.s.hullOk out b.addr b.len)) 0x010A]

/-- The byte runs of a manifest. -/
def manRuns (bs : List MBlock) : List (Nat × Nat) :=
  (bs.filter (fun b => b.len != 0)).map (fun b => (if b.home then homeOf b.addr else b.addr, b.len))

/-- The bytes of a manifest's stream. -/
def Env.manBytes (e : Env) (bs : List MBlock) : Bytes := (manRuns bs).flatMap (fun r => e.bytes r.1 r.2)

/-- The transfers of a stream engine from source runs to destination runs (10 R264), each as the two addresses and the bytes: at
most 1 KiB, across no 1 KiB boundary of either address, and across no multiple of 64 KiB of the stream, whose byte `at_` is the
next. By fuel. -/
def cutTransfers : Nat → Nat → List (Nat × Nat) → List (Nat × Nat) → List (Nat × Nat × Nat)
  | 0, _, _, _ => []
  | _, _, [], _ => []
  | _, _, _, [] => []
  | f + 1, at_, (a, n) :: src, (b, m) :: dst =>
    let k := min (min n m) (min (65536 - at_ % 65536) (min (1024 - a % 1024) (1024 - b % 1024)))
    (a, b, k) :: cutTransfers f (at_ + k) (if n == k then src else (a + k, n - k) :: src)
      (if m == k then dst else (b + k, m - k) :: dst)

/-- The transfers of a stream: one ends wherever a run or a 1 KiB block ends on either side, or 64 KiB of the stream. -/
def transfers (src dst : List (Nat × Nat)) : List (Nat × Nat × Nat) :=
  cutTransfers (total ((src ++ dst).map (fun r => r.2 / 1024 + r.2 / 65536 + 3)) + 1) 0 src dst

/-- Each transfer with the place of its first byte in the stream. -/
def placed : Nat → List (Nat × Nat × Nat) → List (Nat × Nat × Nat × Nat)
  | _, [] => []
  | at_, t :: l => (at_, t) :: placed (at_ + t.2.2) l

/-- The source runs of the transfers of each of `n` stream engines: run j of 64 KiB goes to engine j mod n (10 R264). -/
def engineRuns (n : Nat) (l : List (Nat × Nat × Nat)) : List (List (Nat × Nat)) :=
  (List.range n).map (fun i => ((placed 0 l).filter (fun t => t.1 / 65536 % n == i)).map (fun t => (t.2.1, t.2.2.2)))

/-! ## COPY (03 R75) -/

def Env.copyMan (e : Env) : Bool := bit (e.W 3) 0

/-- The transfers of a manifest-form COPY, in stream order (10 R262, R264). -/
def Env.copyTransfers (e : Env) : List (Nat × Nat × Nat) :=
  transfers (manRuns (e.manBlocks (e.obj (e.S 1)))) (manRuns (e.manBlocks (e.obj (e.S 4))))
def Env.copySrc (e : Env) : List (Nat × Nat) :=
  if e.copyMan then manRuns (e.manBlocks (e.obj (e.S 1))) else e.tensors [e.S 1]
def Env.copyDst (e : Env) : List (Nat × Nat) :=
  if e.copyMan then manRuns (e.manBlocks (e.obj (e.S 4))) else e.tensors [e.S 4]

def opCopy : Op where
  dash := fun _ => [2, 3, 5, 6, 7, 11, 12, 14]
  early := fun e => rule (bits (e.W 3) 1 63 != 0) 0x0102
  refs := fun e =>
    if e.copyMan then [⟨e.S 1, true, .hdr (e.manExtra (e.S 1))⟩, ⟨e.S 4, true, .hdr (e.manExtra (e.S 4))⟩]
    else [⟨e.S 1, true, .tin⟩, ⟨e.S 4, true, .tout⟩]
  rules := fun e =>
    let a := e.desc (e.S 1)
    let o := e.desc (e.S 4)
    let meet := extentsMeet (e.s.homeRuns (e.copySrc.filter (fun r => e.s.gHere (r.1 % 2 ^ 64))))
      (e.s.homeRuns (e.copyDst.filter (fun r => e.s.gHere (r.1 % 2 ^ 64))))
    if e.copyMan then
      firstCode [e.checkManifest false (e.obj (e.S 1)), e.checkManifest true (e.obj (e.S 4)),
        rule (manTotal (e.manBlocks (e.obj (e.S 1))) != manTotal (e.manBlocks (e.obj (e.S 4)))) 0x0107, rule meet 0x0107]
    else
      firstCode [rule (a.rank != o.rank || a.dims != o.dims) 0x0105, rule (a.fmt != o.fmt) 0x0106,
        rule (a.narrow && a.axis != o.axis) 0x0105, rule meet 0x0107]
  ins := Env.copySrc
  outs := Env.copyDst
  run := fun e =>
    if e.copyMan then
      { writes := e.copyTransfers.map (fun t => (t.2.1, e.bytes t.1 t.2.2)) }
    else
      let a := e.desc (e.S 1)
      let o := e.desc (e.S 4)
      if a.empty then OpOut.idle
      else
        { writes := e.tensorWrites o (fun ix => some (e.elemBits a ix)) (fun ix => some (e.scaleByte a ix))
          tasks := e.lineTasks a }
  fetch := fun e => if e.copyMan then e.copyTransfers.map (fun t => (t.1, t.2.2)) else e.copySrc
  idle := fun e => !e.copyMan && (e.desc (e.S 1)).empty
  paced := fun e n => if e.copyMan then engineRuns n e.copyTransfers else []

end Sys2Proof.Machine
end

