-- ==== Sys2Proof/Machine/Contexts.lean ====
section
/-! DEFINITION. Contexts: contexts and sequence slots (11 R273 to R281), the messages a courier session sends (16 R409 to
R415), Progress (R424) and the delivery of results (R421). -/

namespace Sys2Proof.Machine
open Sys2Proof

/-- What a command answers. -/
abbrev Out := Host.Outcome State Fault Refusal

/-! ## Contexts -/

def State.ctx? (s : State) (c : Nat) : Option Ctx := s.office.ctxs.find? (fun x => x.number == c)

def State.setCtx (s : State) (c : Nat) (f : Ctx → Ctx) : State :=
  { s with office := { s.office with ctxs := modifyWhere (fun x => x.number == c) f s.office.ctxs } }

def State.setQueue (s : State) (c : Nat) (f : Queue → Queue) : State :=
  s.setCtx c (fun x => { x with queue := f x.queue })

def State.setJob (s : State) (c : Nat) (f : Job → Job) : State := s.setCtx c (fun x => { x with job := f x.job })

/-- The context of a client's job in flight (16 R422). -/
def State.jobOf (s : State) (client job : Nat) : Option Ctx :=
  s.office.ctxs.find? (fun x => x.client == client && x.jobId == job)

/-- A client's jobs in flight (11 R277). -/
def State.jobsInFlight (s : State) (client : Nat) : Nat :=
  (s.office.ctxs.filter (fun x => x.client == client)).length

/-- A client's quota (11 R277). -/
def State.quota (s : State) (client : Nat) : Nat := kvGet client (s.dget 0x2350 3) s.office.quotas

/-- The entry of an instruction in flight. -/
def State.flight? (s : State) (c i : Nat) : Option InFlight := s.cs.flight.find? (fun f => f.ctx == c && f.idx == i)

def State.setFlight (s : State) (c i : Nat) (f : InFlight → InFlight) : State :=
  { s with cs := { s.cs with flight := modifyWhere (fun x => x.ctx == c && x.idx == i) f s.cs.flight } }

/-! ## What an instruction sees of memory -/

/-- The byte of an answered request at a global address. -/
def reqByte (l : List Req) (g : Nat) : Option Byte :=
  (l.find? (fun r => r.answered && r.node == gNode g && decide (r.addr ≤ gLocal g) &&
    decide (gLocal g < r.addr + r.data.length))).map (fun r => r.data.getD (gLocal g - r.addr) 0)

/-- The byte at a global address: local memory, a local copy unless the home is asked for (bit 64), or what a read brought
(10 R246, R257). -/
def State.viewByte (s : State) (arrived : List Req) (g : Nat) : Byte :=
  let a := g % 2 ^ 64
  if s.gHere a then s.readByte (gAddr a)
  else
    match (if g < 2 ^ 64 then s.mem.copyByte a else none) with
    | some v => v
    | none => (reqByte arrived a).getD 0

/-- The 16-byte unit at a global address is uncorrectable, here or as its home answered (10 R239, R582). -/
def State.viewBad (s : State) (arrived : List Req) (g : Nat) : Bool :=
  let a := g % 2 ^ 64
  if s.gHere a then s.mem.poison.contains (gAddr a / 16)
  else if decide (g < 2 ^ 64) && (s.mem.copyByte a).isSome then s.mem.copyBad a
  else arrived.any (fun r => r.answered && r.node == gNode a && r.poisoned.contains (gLocal a / 16))

/-- Every byte of a remote run stands in local copies. -/
def State.copied (s : State) (x : Nat × Nat) : Bool :=
  decide (x.1 < 2 ^ 64) && (List.range x.2).all (fun i => (s.mem.copyByte (x.1 + i)).isSome)

/-- A run meets an uncorrectable unit of a local copy (10 R582). -/
def State.copiedBad (s : State) (x : Nat × Nat) : Bool :=
  decide (x.1 < 2 ^ 64) && !s.gHere x.1 && s.mem.copies.any (fun c => c.node == gNode x.1 &&
    c.poison.any (fun u => runsMeet (16 * u, 16) (gLocal x.1, x.2)))

/-- Bytes of some runs that stand in this module's GDDR. -/
def State.gddrBytes (s : State) (l : List (Nat × Nat)) : Nat :=
  total ((l.filter (fun x => s.gHere (x.1 % 2 ^ 64) && s.mem.window (gAddr (x.1 % 2 ^ 64)) == 1)).map (fun x => x.2))

/-- What reading GDDR may show besides the data: bursts retried after a CRC or parity error (10 R238), and single-bit errors
corrected, by channel and in the other stores (10 R239), each a free amount: the errors are the devices' own. -/
def State.readEvents (s : State) (n : Nat) : List (Nat × Nat) :=
  if n == 0 then []
  else
    let per := (List.range 24).map (fun c => s.free (2 ^ 84 + c))
    [tick 0x31C0 6 (s.free (2 ^ 84 + 24)), tick 0x31C0 3 (total per + s.free (2 ^ 84 + 25))] ++
      per.zipIdx.map (fun x => tick 0x31C1 (x.2 + 1) x.1)

/-- Runs are read: their bytes in GDDR are counted, with what the devices show (10 R238, R239, R272), and the local copies
among them become the most recently accessed (10 R260). -/
def State.readRuns (s : State) (l : List (Nat × Nat)) : State :=
  let n := s.gddrBytes l
  let s := if n == 0 then s else ((s.bumps (s.readEvents n)).bump 0x31C0 1 n).drew
  { s with mem := s.mem.touch l }

/-- The uncorrectable units of local copies that a run meets. -/
def State.copiedUnits (s : State) (x : Nat × Nat) : Nat :=
  if decide (x.1 < 2 ^ 64) && !s.gHere x.1 then
    total ((s.mem.copies.filter (fun c => c.node == gNode x.1)).map (fun c =>
      (c.poison.filter (fun u => runsMeet (16 * u, 16) (gLocal x.1, x.2))).length))
  else 0

/-- A run in pieces that end at every multiple of `k`, by fuel. -/
def pieces (k a n : Nat) : Nat → List (Nat × Nat)
  | 0 => []
  | f + 1 =>
    if n == 0 then []
    else
      let m := min n (k - a % k)
      (a, m) :: pieces k (a + m) (n - m) f


/-- An instruction resumes from an imported save area. Its carry plane's header stands at State = 10 since its first start, so
whether its carry was usable there, or discarded, is free (DESIGN CHOICE: no record of 11 R293 says it). -/
def State.carryThen (s : State) (c idx : Nat) : Option (Bool × Bool) :=
  if s.office.loaded.any (fun l => l.ctx == c && l.idx == idx) then
    some (s.free (2 ^ 94) % 2 == 1, s.free (2 ^ 94) % 2 == 0 && s.free (2 ^ 94 + 1) % 2 == 1)
  else none

/-- What a macro-instruction of a context sees. -/
def State.env (s : State) (c : Ctx) (idx : Nat) (slot : Bytes) (arrived : List Req) (hist : KV) : Env :=
  ⟨s, slot, c.queue.descBase, c.number, idx, c.partition, s.viewByte arrived, s.viewBad arrived, hist, s.dget 0x2330 2,
    s.carryThen c.number idx⟩

/-- An Env for work that belongs to no instruction. -/
def State.bareEnv (s : State) (arrived : List Req) : Env :=
  ⟨s, [], 0, 0, 0, 0, s.viewByte arrived, s.viewBad arrived, [], 0, none⟩

/-! ## Courier messages (16 R410 to R415) -/

/-- A datagram: the 24-byte header of R410 and its body. -/
def courierBytes (type session seq ack window status post : Nat) (body : Bytes) : Bytes :=
  beBytes 1 1 ++ beBytes 1 type ++ beBytes 2 0 ++ beBytes 4 session ++ beBytes 4 seq ++ beBytes 4 ack ++ beBytes 2 window ++
    beBytes 2 body.length ++ beBytes 2 status ++ beBytes 2 (post % 1024) ++ body

def State.session? (s : State) (id : Nat) : Option Session := s.net.sessions.find? (fun x => x.id == id)

def State.setSession (s : State) (id : Nat) (f : Session → Session) : State :=
  { s with net := { s.net with sessions := modifyWhere (fun x => x.id == id) f s.net.sessions } }

/-- Put a datagram on a port that has a link. -/
def State.putDgram (s : State) (d : OutDgram) : State :=
  if s.net.linkUp.getD d.port false then { s with net := { s.net with out := s.net.out ++ [d] } } else s

/-- Put one message of a session on the wire; it carries the session's Ack, so no acknowledgement is owed afterwards. -/
def State.emit (s : State) (x : Session) (m : SentMsg) : State :=
  (s.putDgram ⟨x.port, x.ip, x.udp, x.mac, courierBytes m.type x.id m.seq ((x.rxNext + 2 ^ 32 - 1) % 2 ^ 32)
    (s.dget 0x23A0 2) m.status m.postmark m.body⟩).setSession x.id (fun x => { x with owed := 0 })

/-- Send a sequenced message on a session, at once or when its Window opens. -/
def State.sendMsg (s : State) (id type status post : Nat) (body : Bytes) : State :=
  match s.session? id with
  | none => s
  | some x =>
    let m : SentMsg := ⟨x.txNext, type, status, post, body⟩
    let s := (s.setSession id (fun x => { x with txNext := (x.txNext + 1) % 2 ^ 32 })).bump 0x3240 2 1
    if x.sent.length < x.peerWindow && x.queued == [] then
      (s.setSession id (fun x => { x with sent := x.sent ++ [m] })).emit x m
    else s.setSession id (fun x => { x with queued := x.queued ++ [m] })

/-- Send an unsequenced message on a session. -/
def State.sendLoose (s : State) (id type status : Nat) (body : Bytes) : State :=
  match s.session? id with
  | none => s
  | some x => (s.emit x ⟨0, type, status, 0, body⟩).bump 0x3240 2 1

/-- The body of a Reply (16 R411). -/
def replyBody (seq value : Nat) : Bytes := beBytes 4 seq ++ beBytes 4 0 ++ beBytes 8 value

/-- Results whose delivery ends with a session wait again (16 R421, R425). -/
def undelivered (ended : Session → Bool) (sessions : List Session) (l : List Result) : List Result :=
  l.map (fun r => if (sessions.filter ended).any (fun x => x.id == r.session) then { r with endSeq := none } else r)

/-- A session that has received a Close ends once every earlier request of it is complete (16 R413). -/
def State.endClosing (s : State) (id : Nat) : State :=
  match s.session? id with
  | none => s
  | some x =>
    if x.closing && !s.cs.reqs.any (fun r => r.session == id && !r.answered && (r.kind == .alloc || r.kind == .free)) then
      { s with net := { s.net with
          sessions := s.net.sessions.filter (fun y => y.id != id)
          results := undelivered (fun y => y.id == id) s.net.sessions s.net.results } }
    else s

/-- Reply to a sequenced request of a session. -/
def State.reply (s : State) (id seq status post value : Nat) : State :=
  (s.sendMsg id 0x80 (returnable status) post (replyBody seq value)).endClosing id

/-- The code of a context state (11 R274). -/
def ctxStateCode : CtxState → Nat
  | .waiting => 1
  | .live => 2
  | .suspended => 3
  | .ending => 4

/-- Send a Progress of a job on the session that submitted it (16 R424). -/
def State.progress (s : State) (c : Nat) : State :=
  match s.ctx? c with
  | none => s
  | some x =>
    if x.job.submitSession == 0 then s
    else
      s.sendMsg x.job.submitSession 0x84 0 (s.postmark x.partition)
        (beBytes 4 x.jobId ++ beBytes 4 x.number ++
          beBytes 1 (ctxStateCode x.state + (if x.queue.qs == .halted then 16 else 0)) ++ beBytes 3 0 ++
          beBytes 4 x.queue.retired ++ beBytes 4 0 ++ fit 12 (x.job.haltRec.getD []))

/-- The unit that runs a partition's queues: the partition unit of its first region. -/
def State.partUnit (s : State) (p : Nat) : Nat := unitPart ((s.regionsOf p).headD 0)

/-- Enter a context state: a last-post event and a Progress (19 R511, 16 R424). -/
def State.enter (s : State) (c : Nat) (st : CtxState) : State :=
  match s.ctx? c with
  | none => s
  | some x =>
    ((s.setCtx c (fun x => { x with state := st })).post (s.partUnit x.partition) 5 0 s.anyDetail).progress c

/-! ## Sequence slots (11 R281) -/

def State.holdsSlot (s : State) (x : Ctx) : Bool := s.office.seqSlots.contains (some (x.client, x.seqTag))

/-- Context `x`, as it stood before, is no longer Live or no longer awaits its restore: its sequence's slot is freed unless
another context of the sequence is Live, or was given the slot for its restore. -/
def State.dropSlot (s : State) (x : Ctx) : State :=
  let mates := s.office.ctxs.filter (fun y => y.client == x.client && y.seqTag == x.seqTag && y.number != x.number)
  if mates.any (fun y => y.state == .live) || (x.state != .live && mates.any (fun y => y.state == .suspended && !y.held)) then s
  else
    let slots := s.office.seqSlots.map (fun q => if q == some (x.client, x.seqTag) then none else q)
    { s with office := { s.office with seqSlots := slots } }

/-- A Waiting context whose sequence holds a slot becomes Live, and its queue runs. -/
def State.goLive (s : State) (c : Nat) : State :=
  (s.setQueue c (fun q => { q with qs := .running })).enter c .live

/-! ## Save slots and the start of a suspension (11 R286, R287) -/

/-- A save slot of a partition is free: no context has claimed it, and no save area of another layout, kept over a chip reset (10
R249, 11 R296), lies in it. -/
def State.slotFree (s : State) (p i : Nat) : Bool :=
  !s.office.saveUsed.contains (p, i) && !s.office.ctxs.any (fun x =>
    runsMeet (kvGet x.number 0 s.office.saveBases, if kvHas x.number s.office.saveBases then x.saveBytes else 0)
      (s.slotAddr p i, s.slotBytes p))

/-- A free save slot of a partition. -/
def State.freeSlot (s : State) (p : Nat) : Option Nat := (List.range s.mem.saveSlots).find? (s.slotFree p)

/-- Where a context's save area stands: its SaveBase, set as its suspension ends (11 R274, R287 step 6), or the address of its save
slot while that is not yet set. -/
def State.savedAt (s : State) (x : Ctx) (i : Nat) : Nat := kvGet x.number (s.slotAddr x.partition i) s.office.saveBases

/-- A context gives up its save slot. -/
def State.dropSave (s : State) (c : Nat) : State :=
  match s.ctx? c with
  | none => s
  | some x =>
    match x.saveSlot with
    | none => s
    | some i =>
      let used := s.office.saveUsed.filter (fun u => u != (x.partition, i))
      ({ s with office := { s.office with
        saveUsed := used, saveBases := kvDel c s.office.saveBases, saveSums := kvDel c s.office.saveSums } } : State).setCtx c
        (fun x => { x with saveSlot := none, saveBytes := 0 })

/-- An instruction that a suspension stops (11 R287 step 5): COLL, POST, SIGNAL and FENCE run on, and one that has ended owes
its record only. -/
def InFlight.stops (f : InFlight) : Bool :=
  !(f.opcode == 0x13 || f.opcode == 0x14 || f.opcode == 0x16 || f.opcode == 0x17 || f.phase == .ended)

/-- Steps 1 to 3 and 5 of R287: the queue is Pre-empted, a save slot claimed, tasks withdrawn and stopped. -/
def State.suspendStart (s : State) (c : Nat) (held : Bool) : State :=
  match s.ctx? c with
  | none => s
  | some x =>
    match s.freeSlot x.partition with
    | none => s
    | some i =>
      let stop := fun (t : Task) => { t with phase := if t.phase == .running then .stopped else .withdrawn }
      let tasks := modifyWhere (fun t => t.ctx == c) stop s.office.tasks
      let flight := modifyWhere (fun f => f.ctx == c && f.stops) (fun f => { f with stopped := true }) s.cs.flight
      let s : State := { s with
        office := { s.office with
          tasks := tasks
          saveUsed := s.office.saveUsed ++ [(x.partition, i)]
          yielding := if held then s.office.yielding.filter (fun y => y != c) else insertNat c s.office.yielding }
        cs := { s.cs with flight := flight } }
      s.setCtx c (fun x => { x with
        wasHalted := x.queue.qs == .halted
        suspending := true
        held := held
        saveSlot := some i
        queue := { x.queue with qs := .preempted } })

/-- Triggers that wait, the one that has waited longest first: each takes a slot of its partition if one is free. -/
def State.runTriggersOf (s : State) : List (Nat × Nat) → State
  | [] => s
  | t :: l =>
    match s.ctx? t.2 with
    | none => s.runTriggersOf l
    | some x =>
      if x.state != .live || x.suspending then s.runTriggersOf l
      else if (s.freeSlot x.partition).isSome then (s.suspendStart t.2 false).runTriggersOf l
      else ({ s with office := { s.office with triggers := s.office.triggers ++ [t] } } : State).runTriggersOf l

def State.runTriggers (s : State) : State :=
  ({ s with office := { s.office with triggers := [] } } : State).runTriggersOf s.office.triggers

/-! ## End of a job (16 R421, 11 R276) -/

/-- Copies of an ended job: clean ones are dropped, dirty ones written back first (10 R258). -/
def State.endCopies (s : State) (c : Nat) : State :=
  let s := (s.mem.copies.filter (fun x => x.job == c && x.dirty)).foldl (fun s x => s.writeBack x) s
  { s with mem := { s.mem with copies := s.mem.copies.filter (fun x => x.job != c || x.dirty) } }

/-- What a context's streams, samples and collectives leave when it ends: the pipes drop its work (14 R376, 15 R402). -/
def State.dropWork (s : State) (c : Nat) : State :=
  let idle := fun (p : Pipe) => match p.job with
    | some j => if j.1 == c then { p with job := none } else p
    | none => p
  { s with
    coll := { s.coll with flight := s.coll.flight.filter (fun x => x.ctx != c) }
    intake := { s.intake with
      pipes := s.intake.pipes.map idle
      jobs := s.intake.jobs.filter (fun j => j.ctx != c) }
    codec := { s.codec with
      streams := modifyWhere (fun x => x.ctx == c) (fun x => { x with current := none }) s.codec.streams
      pipes := s.codec.pipes.map idle
      jobs := s.codec.jobs.filter (fun j => j.ctx != c) } }

/-- The requests that a context leaves as it returns to Free: its own are forgotten, so that no later job is charged with them or
waits for them (03 R82); write-backs and fetches of copies go on in no context's name, and history fetches until they end
(06 R174). -/
def orphaned (c : Nat) (l : List Req) : List Req :=
  modifyWhere (fun r => r.ctx == c && (r.kind == .writeBack || r.kind == .copyFetch)) (fun r => { r with ctx := 2 ^ 33 })
    (l.filter (fun r => r.ctx != c || !(r.kind == .read || r.kind == .write || r.kind == .signal)))

/-- The context returns to Free (11 R276): with it go its instructions, tasks, save slot, codec streams (15 R402), requests and
sheets. -/
def State.freeCtx (s : State) (c : Nat) : State :=
  let s := (s.dropSave c).dropWork c
  let copies := modifyWhere (fun (x : Copy) => x.job == c) (fun x => { x with job := 2 ^ 33 })
    (s.mem.copies.map (fun x => { x with writers := x.writers.filter (fun w => w != c) }))
  ({ s with
    mem := { s.mem with copies := copies }
    office := { s.office with
      ctxs := s.office.ctxs.filter (fun x => x.number != c)
      yielding := s.office.yielding.filter (fun y => y != c)
      saveBases := kvDel c s.office.saveBases
      saveSums := kvDel c s.office.saveSums
      loaded := s.office.loaded.filter (fun l => l.ctx != c)
      tasks := s.office.tasks.filter (fun t => t.ctx != c) }
    codec := { s.codec with streams := s.codec.streams.filter (fun x => x.ctx != c) }
    cs := { s.cs with
      flight := s.cs.flight.filter (fun f => f.ctx != c)
      done := s.cs.done.filter (fun d => d.1 != c)
      stalled := s.cs.stalled.filter (fun d => d.1 != c)
      reqs := orphaned c s.cs.reqs
      failedWrites := s.cs.failedWrites.filter (fun d => d.1 != c)
      grids := s.cs.grids.filter (fun g => g.1 != c)
      sheets := s.cs.sheets.filter (fun h => h.ctx != c) } } : State).runTriggers

/-- A delivery has failed: it is counted and reported in a Progress, and the context is freed (16 R421). -/
def State.failDelivery (s : State) (r : Result) : State :=
  let s := ({ s with net := { s.net with results := s.net.results.filter (fun x => x.id != r.id) } } : State).bump 0x3240 6 1
  if r.node == 0xFFFF then (s.progress r.ctx).freeCtx r.ctx
  else s.refuse 0 r.node 0x07E0

/-- Result messages of at most 8,912 bytes, in rising Offset. -/
def State.sendResults (s : State) (sess job post : Nat) : Nat → List Bytes → State
  | _, [] => s
  | off, b :: l =>
    (s.sendMsg sess 0x85 0 post (beBytes 4 job ++ beBytes 4 0 ++ beBytes 8 off ++ b)).sendResults sess job post
      (off + b.length) l

/-- The postmark of a result's messages: its partition's, 0 for another module's job. A job that has ended in failure holds no
context any more, and its result names its partition instead (11 R276). -/
def State.resultPost (s : State) (r : Result) : Nat :=
  if r.node != 0xFFFF then 0
  else if 2 ^ 32 ≤ r.ctx then s.postmark (r.ctx - 2 ^ 32)
  else
    match s.ctx? r.ctx with
    | some x => s.postmark x.partition
    | none => 0

/-- Send a result whose bytes are all at hand, then ResultEnd (16 R421 step 3). -/
def State.sendResult (s : State) (r : Result) (stream : Bytes) : State :=
  match s.session? r.session with
  | none => s
  | some _ =>
    let post := s.resultPost r
    let s := s.sendResults r.session r.jobId post 0 (chunks 8912 stream)
    let seq := (s.session? r.session).elim 0 (fun x => x.txNext)
    let s := s.sendMsg r.session 0x86 (returnable r.status) post (beBytes 4 r.jobId ++ beBytes 4 (crc32c stream) ++ beBytes 8 stream.length)
    { s with
      net := { s.net with results := modifyWhere (fun x => x.id == r.id) (fun x => { x with endSeq := some seq }) s.net.results }
      cs := { s.cs with reqs := s.cs.reqs.filter (fun q => q.kind != .result || q.session != r.id) } }

/-- The reads that brought remote blocks of a result's stream. -/
def State.resultReads (s : State) (id : Nat) : List Req :=
  s.cs.reqs.filter (fun q => q.kind == .result && q.session == id && q.node != 0xFFFF && q.seq == 1)

/-- The bytes of a run that a local copy holds, kept as an answered read of a result's stream: the access to the copy is over. -/
def State.keepRead (s : State) (e : Env) (id : Nat) (q : Nat × Nat) : State :=
  let n := s.cs.nextReq
  let r : Req := ⟨n, 0, 0, .result, gNode q.1, gLocal q.1, q.2, e.bytes q.1 q.2, [], 0, 0, true, id, 1⟩
  { s with cs := { s.cs with reqs := s.cs.reqs ++ [r], nextReq := n + 1 } }

/-- A read of a result's stream covers a run. -/
def Req.covers (q : Nat × Nat) (r : Req) : Bool :=
  r.node == gNode q.1 && decide (r.addr ≤ gLocal q.1) && decide (gLocal q.1 + q.2 ≤ r.addr + r.len)

/-- Deliver a result: when its session is open, its manifest passes R263 and every remote block has arrived (16 R421 steps
2 and 3). A failure is reported; a session that is not open is waited for. One stream engine moves the stream, with at most 4
transfers outstanding (10 R264; DESIGN CHOICE: how many engines serve a courier payload is not given). -/
def State.deliver (s : State) (r : Result) : State :=
  match s.session? r.session with
  | none => s
  | some x =>
    if x.client != r.client then s
    else if r.ref == 0 || !isSuccess r.status then s.sendResult r []
    else
      let e := s.bareEnv (s.resultReads r.id)
      let bs := e.manBlocks r.ref
      let got := s.resultReads r.id
      let far := ((manRuns bs).filter (fun q => !s.gHere (q.1 % 2 ^ 64))).flatMap (fun q => pieces 1024 q.1 q.2 (q.2 / 1024 + 2))
      let new := (far.filter (fun q => !got.any (Req.covers q))).eraseDups
      let (near, need) := new.partition s.copied
      if e.checkManifest false r.ref != 0 then s.failDelivery r
      else if (manRuns bs).any (fun q => s.gHere (q.1 % 2 ^ 64) && s.mem.poisonIn (gAddr (q.1 % 2 ^ 64)) q.2 != []) ||
          near.any s.copiedBad || got.any (fun q => q.poisoned != []) then
        s.failDelivery r
      else if need == [] && got.all (fun q => q.answered) then (s.readRuns (manRuns bs)).sendResult r (e.manBytes bs)
      else if need.any (fun q => s.unreachable (gNode q.1) != 0) then s.failDelivery r
      else
        let s := near.foldl (fun s q => s.keepRead e r.id q) (s.readRuns near)
        (need.take ((if s.mem.bulk then 256 else 4) - (got.filter (fun q => !q.answered)).length)).foldl (fun s q =>
          s.request .result 0 0 0 (gNode q.1) (gLocal q.1) q.2 [] r.id 1) s

/-- Hold a result here and deliver it as soon as may be. -/
def State.holdResult (s : State) (node ctx client job sess ref status : Nat) : State :=
  let r : Result := ⟨s.net.nextResult, node, ctx, client, job, sess, ref, status, none⟩
  ({ s with net := { s.net with results := s.net.results ++ [r], nextResult := r.id + 1 } } : State).deliver r

/-- A job ends with a status: its context enters Ending, and its result goes to the delivering module (16 R421 step 1). The context
of a job that ended in failure is Free at once, for its last record has been written; its result is delivered all the same
(11 R276, which 16 R421 step 4 refers to). -/
def State.endJob (s : State) (c status : Nat) : State :=
  match s.ctx? c with
  | none => s
  | some x =>
    if x.job.delivering then s
    else
      let s := (((s.setJob c (fun j => { j with delivering := true, status := status })).enter c .ending).endCopies c).dropSlot x
      let j := x.job
      let n := if isSuccess status then c else 2 ^ 32 + x.partition
      let s :=
        if j.resultNode == 0xFFFF || j.resultNode == s.node then
          s.holdResult 0xFFFF n x.client x.jobId j.resultSession j.resultRef status
        else if s.unreachable j.resultNode != 0 then ((s.bump 0x3240 6 1).progress c).freeCtx c
        else s.request .result n 0 x.partition j.resultNode 0 0 (beBytes 2 x.client ++ beBytes 4 x.jobId ++
          beBytes 4 j.resultSession ++ beBytes 5 j.resultRef ++ beBytes 2 status) 0 0
      if isSuccess status then s else s.freeCtx c

/-- The code that R93 chooses among two. -/
def joinStatus (old new : Nat) : Nat :=
  if !isSuccess old then old else if !isSuccess new then new else topNote [old, new]

/-- A job that is Sealed, with Retired equal to Tail and its queue not Halted, is finished (16 R421). -/
def State.finishJob (s : State) (c : Nat) : State :=
  match s.ctx? c with
  | none => s
  | some x =>
    if x.job.isSealed && x.queue.retired == x.queue.tail && x.queue.qs != .halted && x.state == .live && !x.suspending then
      s.endJob c x.job.status
    else s

end Sys2Proof.Machine
end

