-- ==== Sys2Proof/Machine/Random.lean ====
section
/-! DEFINITION. Random: the opcodes RAND and SAMP, and the keyed intake generators (09 R221 to R236). The compute generators'
bits are free values (R223, R233). -/

namespace Sys2Proof.Machine
open Sys2Proof

/-- A 24-bit draw of a compute generator (09 R222): free. -/
def Env.draw24 (e : Env) (stage elem : Nat) : Nat := e.drawWord stage elem % 2 ^ 24

/-- (r + 0.5) × 2^−24, exactly: in FP32 the largest would be 1, where R230 has every u lie in [2^−25, 1 − 2^−25] (log entry 162). -/
def halfUnit (r : Nat) : Num := .fin false (2 * r + 1) (-25)

/-! ## RAND -/

def Env.randA (e : Env) : Num := decodeFloat 0 (bits (e.W 2) 32 32)
def Env.randB (e : Env) : Num := decodeFloat 1 (bits (e.W 2) 16 16)
def Env.randDist (e : Env) : Nat := bits (e.W 2) 0 2

/-- A floating-point element of RAND before conversion (09 R227); a ParamB of +0 writes A under uniform and normal. -/
def Env.randVal (e : Env) (ix : List Nat) : Num :=
  let i := linear (e.desc (e.S 4)).dims ix
  let a := e.randA
  let b := e.randB
  if e.randDist ≤ 1 && bits (e.W 2) 16 16 == 0 then a
  else match e.randDist with
  | 0 => fadd a (fmul b (.fin false (e.draw24 1 i) (-24)))
  | 1 =>
    let u1 := halfUnit (e.draw24 1 (i / 2 * 2))
    let u2 : Num := .fin false (e.draw24 1 (i / 2 * 2 + 1)) (-24)
    let rho := fsqrt (fmul (.ofInt (-2)) (sfuLogOf u1))
    let th := fmul (decodeFloat 0 0x40C90FDB) u2
    fadd a (fmul b (fmul rho (sfu (if i % 2 == 0 then 0x0F else 0x0E) th)))
  | _ =>
    if Num.lt (.fin false (e.draw24 1 i) (-24)) a then
      (if bits (e.W 2) 16 16 == 0 then fdiv Num.one a else b) else Num.zero

def Env.randConv (e : Env) : OutConv := ⟨e.randVal, bit (e.W 2) 8, 0, 2⟩

def opRand : Op where
  dash := fun _ => [1, 2, 3, 5, 6, 7, 11, 13, 14]
  refs := fun e => [⟨e.S 4, true, .tout⟩]
  rules := fun e =>
    let o := e.desc (e.S 4)
    let w := e.W 2
    let fa := e.randA
    let fb := e.randB
    firstCode [rule (bits w 2 6 != 0 || bits w 9 7 != 0) 0x0102,
      rule (if e.randDist == 3 then !([fU8, fU16, fU32].contains o.fmt) else !fmtFloat o.fmt || (o.narrow && o.axis != 0))
        0x0170,
      rule (match e.randDist with
        | 3 => bits w 16 48 != 0
        | 2 => !(fa.isFin && Num.lt Num.zero fa && Num.le fa Num.one && fb.isFin)
        | _ => !(fa.isFin && fb.isFin && (!fb.sign))) 0x0170]
  ins := fun _ => []
  outs := fun e => e.tensors [e.S 4]
  run := fun e =>
    let o := e.desc (e.S 4)
    if o.empty then OpOut.idle
    else
      { writes := if e.randDist == 3 then
            e.writeInts o (fun ix => some (e.drawWord 1 (linear o.dims ix) % 2 ^ fmtBits o.fmt))
          else e.writeTensor o e.randConv
        tasks := e.lineTasks o
        draws := true
        counts := [tick 0x31B0 1 o.count] ++ (if e.randDist == 3 then [] else e.convCounts o e.randConv) }
  idle := fun e => (e.desc (e.S 4)).empty

/-! ## SAMP -/

def Env.sampT (e : Env) : Num := (decodeFloat 0 (bits (e.W 2) 0 32)).abs

/-- The index of the value that wins by `gt`, among (index, value) pairs in ascending index. -/
def argMax (gt : Num → Num → Bool) : List (Nat × Num) → Option Nat
  | [] => none
  | x :: l => some (l.foldl (fun (best : Nat × Num) y => if gt y.2 best.2 then y else best) x).1

/-- The choice of a line (09 R230), none where no score is eligible. -/
def Env.sampLine (e : Env) (ix : List Nat) : Option Nat :=
  let d := e.desc (e.S 1)
  let all := (List.range (d.dim 0)).map (fun i => (i, e.value d (i :: ix.drop 1)))
  let ok := all.filter (fun x => !(x.2.isNan || x.2 == .inf true))
  match ok.find? (fun x => x.2 == .inf false) with
  | some x => some x.1
  | none =>
    if e.sampT.isZero then argMax (fun a b => Num.lt b a) ok
    else
      argMax (fun a b => Num.lt b a) (ok.map (fun x =>
        let u := halfUnit (e.draw24 1 (linear d.dims (x.1 :: ix.drop 1)))
        (x.1, fadd (fdiv x.2 e.sampT) (sfuLog (sfuLogOf u).neg).neg)))

def opSamp : Op where
  dash := fun _ => [2, 3, 5, 6, 7, 11, 13, 14]
  refs := fun e => [⟨e.S 1, true, .tin⟩, ⟨e.S 4, true, .tout⟩]
  rules := fun e =>
    let d := e.desc (e.S 1)
    let o := e.desc (e.S 4)
    let t := decodeFloat 0 (bits (e.W 2) 0 32)
    firstCode [rule (bits (e.W 2) 32 32 != 0) 0x0102,
      rule (!fmtFloat d.fmt || (d.narrow && d.axis != 0) || d.dim 0 == 0 || decide (262144 < d.dim 0) ||
        !([fU32, fU16].contains o.fmt) || o.rank != d.rank || o.dim 0 != 1 || o.dims.drop 1 != d.dims.drop 1 ||
        (o.fmt == fU16 && decide (65535 < d.dim 0)) ||
        extentsMeet (e.s.homeRuns d.extent) (e.s.homeRuns o.extent) ||
        !t.isFin || (t.sign && !t.isZero)) 0x0171]
  ins := fun e => e.tensors [e.S 1]
  outs := fun e => e.tensors [e.S 4]
  run := fun e =>
    let d := e.desc (e.S 1)
    let o := e.desc (e.S 4)
    if d.empty then OpOut.idle
    else
      { writes := e.writeInts o (fun ix => some ((e.sampLine ix).getD (2 ^ fmtBits o.fmt - 1)))
        notes := if d.rows.any (fun l => (e.sampLine l).isNone) then [0x0071] else []
        tasks := e.lineTasks d
        draws := !e.sampT.isZero
        counts := [tick 0x31B0 2 d.lineCount] }
  idle := fun e => (e.desc (e.S 1)).empty

end Sys2Proof.Machine
end

