-- ==== Sys2Proof/Machine/Convolution.lean ====
section
/-! DEFINITION. Convolution: the opcodes CONV, POOL and ARGMX (08 R201 to R219). -/

namespace Sys2Proof.Machine
open Sys2Proof

/-- One axis of a window: input length, kernel length, stride, dilation, paddings (08 R205). -/
structure Axis where
  len : Nat
  k : Nat
  stride : Nat
  dil : Nat
  lo : Nat
  hi : Nat
  deriving DecidableEq, Repr

/-- E of R205; 0 when E < 1. -/
def Axis.out (a : Axis) : Nat :=
  if a.len + a.lo + a.hi + a.dil < a.dil * a.k + 1 then 0
  else (a.len + a.lo + a.hi + a.dil - (a.dil * a.k + 1)) / a.stride + 1

/-- The input position that output position `o` reads for kernel position `j`, none where it is padding (08 R205). -/
def Axis.pos (a : Axis) (o j : Nat) : Option Nat :=
  let p := o * a.stride + j * a.dil
  if p < a.lo then none else if p - a.lo < a.len then some (p - a.lo) else none

/-- The paddings of ConvPad (08 R204). -/
def convPads (w4 : Nat) : List (Nat × Nat) :=
  (List.range 3).map (fun i => (bits w4 (6 * i) 3, bits w4 (6 * i + 3) 3))

/-- The axes W, H and T of CONV. -/
def Env.convAxes (e : Env) : List Axis :=
  let d := e.desc (e.S 1)
  let k := e.desc (e.S 2)
  let w := e.W 3
  (List.range 3).map (fun i =>
    let p := (convPads (e.W 4)).getD i (0, 0)
    ⟨d.dim (i + 1), k.dim (i + 2), bits w (2 * i) 2 + 1, bits w (6 + 2 * i) 2 + 1, p.1, p.2⟩)

/-- The axes W, H and T of POOL (08 R213). -/
def Env.poolAxes (e : Env) : List Axis :=
  let d := e.desc (e.S 1)
  let w := e.W 3
  (List.range 3).map (fun i =>
    let p := (convPads (e.W 4)).getD i (0, 0)
    ⟨d.dim (i + 1), bits w (3 * i) 3, bits w (9 + 2 * i) 2 + 1, 1, p.1, p.2⟩)

def ax (l : List Axis) (i : Nat) : Axis := l.getD i ⟨0, 0, 1, 1, 0, 0⟩

/-- The position of a feature map's line (08 R201). -/
def fmPos (d : Desc) (m : Nat) : List Nat :=
  [m % d.dim 1, m / d.dim 1 % d.dim 2, m / d.dim 1 / d.dim 2 % d.dim 3, m / d.dim 1 / d.dim 2 / d.dim 3]
/-- The line of an index of a feature map (08 R201). -/
def fmLine (d : Desc) (ix : List Nat) : Nat :=
  ((ix.getD 4 0 * d.dim 3 + ix.getD 3 0) * d.dim 2 + ix.getD 2 0) * d.dim 1 + ix.getD 1 0
def fmLines (d : Desc) : Nat := d.dim 1 * d.dim 2 * d.dim 3 * d.dim 4

/-- The line map of a ZR feature map (08 R211). -/
def fmMap (d : Desc) : Nat := roundUp (d.scaleBase + fmLines d * ceilDiv (d.dim 0) 32) 64

def Env.zrIn (e : Env) : Bool := bit (e.W 3) 13
def Env.zrOut (e : Env) : Bool := bit (e.W 3) 14
def Env.rectify (e : Env) : Bool := bit (e.W 3) 12

def Env.convIn (e : Env) (ix : List Nat) : Num :=
  let d := e.desc (e.S 1)
  if e.zrIn then e.zrValue d (fmMap d) (fmLine d ix) ix else e.value d ix

/-- The tap of a K group, and its first channel (08 R207). -/
def Env.convTap (e : Env) (g : Nat) : Nat × Nat × Nat × Nat :=
  let k := e.desc (e.S 2)
  let cb := ceilDiv (k.dim 0) 32
  let t := g / cb
  (t % k.dim 2, t / k.dim 2 % k.dim 3, t / k.dim 2 / k.dim 3, 32 * (g % cb))

def Env.convGeo (e : Env) : Geo :=
  let k := e.desc (e.S 2)
  let o := e.desc (e.S 4)
  let m := fmLines o
  let n := o.dim 0
  ⟨1, m, n, k.dim 4 * k.dim 3 * k.dim 2 * (32 * ceilDiv (k.dim 0) 32), e.tile.paneM m n, e.tile.paneN n, 1⟩

/-- The input position that an output line reads for a tap. -/
def Env.convPos (e : Env) (m g : Nat) : Option (List Nat) :=
  let o := e.desc (e.S 4)
  let p := fmPos o m
  let (kw, kh, kt, _) := e.convTap g
  match (ax e.convAxes 0).pos (p.getD 0 0) kw, (ax e.convAxes 1).pos (p.getD 1 0) kh, (ax e.convAxes 2).pos (p.getD 2 0) kt with
  | some w, some h, some t => some [w, h, t, p.getD 3 0]
  | _, _, _ => none

/-- CONV's product (08 R207, R208). Its blocks and its carry plane run along the channels, whatever BlockAxis an FP32 or BF16
Input's descriptor names (DESIGN CHOICE: R38 lays the plane by the ladder operand's block axis, which R201 fixes for a narrow
map only). -/
def Env.convProduct (e : Env) : Product :=
  let d := e.desc (e.S 1)
  let k := e.desc (e.S 2)
  let b := e.desc (e.S 3)
  let o := e.desc (e.S 4)
  let kIx := fun (g i n : Nat) => let (kw, kh, kt, c) := e.convTap g
    [c + i, n, kw, kh, kt]
  { geo := e.convGeo
    lad := d
    ladVal := e.convIn
    ladBad := fun ix => d.inside ix && (!(e.convIn ix).isFin || (d.narrow && e.scaleByte d ix == 0xFF))
    blk := fun _ m g => (e.convPos m g).map (fun p => (List.range 32).map (fun i =>
      let c := (e.convTap g).2.2.2 + i
      if c < d.dim 0 then some (c :: p) else none))
    terms := fun _ n g _ => (List.range 32).map (fun i =>
      if (e.convTap g).2.2.2 + i < k.dim 0 then some (i, e.value k (kIx g i n)) else none)
    colBad := fun _ n => (List.range e.convGeo.groups).any (fun g => (List.range 32).any (fun i => e.nonFinite k (kIx g i n)))
    bFmt := k.fmt
    init := fun _ _ n => if e.S 3 == 0 then Num.negZero else e.value b [n]
    initBad := fun _ _ n => e.S 3 != 0 && e.nonFinite b [n]
    post := fun a => if e.rectify then (if a.isNan then .nan else if Num.lt Num.zero a then a else Num.zero) else a
    moving := fun _ _ => true
    out := o
    outIx := fun _ m n => n :: fmPos o m
    ixOut := fun ix => (0, fmLine o ix, ix.getD 0 0)
    carry := if e.prec.carryEn then some (e.carry d.shape 0) else none }

/-- The ZR code of a block of element bits (08 R212). -/
def zrBlockCode (w : Nat) (l : List Nat) : Bytes :=
  let nz := (l.zipIdx).filter (fun x => x.1 != 0)
  let len := ceilDiv (nz.length * (5 + w)) 8
  if 1 + len < 1 + 4 * w then
    let v := (nz.zipIdx).foldl (fun (acc : Nat × Nat) x =>
      let run := x.1.2 - acc.2
      (acc.1 + (run + 32 * x.1.1) * 2 ^ (x.2 * (5 + w)), x.1.2 + 1)) (0, 0)
    BitVec.ofNat 8 nz.length :: leBytes len v.1
  else (0x80 : Byte) :: packElems w (l ++ List.replicate (32 - l.length) 0)

/-- A line of element bits coded (08 R212): its line map entry and its bytes. -/
def zrLineCode (w : Nat) (l : List Nat) : Nat × Bytes :=
  let code := (chunks 32 l).flatMap (zrBlockCode w)
  let plain := ceilDiv l.length 32 * 4 * w
  if code.length < plain then (code.length, code) else (0, fit plain (packElems w l))

/-- The writes of a ZR output: each line's code or plain storage, its scales, its line map entry. -/
def zrWrites (o : Desc) (code sc : List Nat → Nat) : List (Nat × Bytes) :=
  o.rows.flatMap (fun l =>
    let z := zrLineCode (fmtBits o.fmt) ((List.range (o.dim 0)).map (fun i => code (i :: l.drop 1)))
    [(o.lineAddr l, z.2), (fmMap o + 4 * fmLine o l, leBytes 4 z.1)]) ++
  (indices o.scaleDims).map (fun j =>
    let ix := (32 * j.getD 0 0) :: j.drop 1
    (o.scaleAddr ix, [BitVec.ofNat 8 (sc ix)]))

/-- An operand with its line map (08 R211). -/
def fmExtent (d : Desc) (zr : Bool) : List (Nat × Nat) :=
  d.extent ++ (if zr && !d.empty then [(fmMap d, 4 * fmLines d)] else [])

/-- CONV has nothing to do. -/
def Env.convEmpty (e : Env) : Bool := (e.desc (e.S 4)).empty || (e.desc (e.S 1)).empty || (e.desc (e.S 2)).empty

def Env.convIns (e : Env) : List (Nat × Nat) :=
  fmExtent (e.desc (e.S 1)) e.zrIn ++ e.tensors [e.S 2, e.S 3] ++ e.carryExtent e.convEmpty (e.desc (e.S 1)).shape 0
def Env.convOuts (e : Env) : List (Nat × Nat) :=
  fmExtent (e.desc (e.S 4)) e.zrOut ++ e.precExtent e.convEmpty (e.desc (e.S 1)).shape 0

/-- The Kernel as CONV's sheeted operand: of a K length over padded channels, a kernel without blocks stores its own channels
only. -/
def Env.convSheet (e : Env) : Sheeted :=
  let k := e.desc (e.S 2)
  let cp := 32 * ceilDiv (k.dim 0) 32
  e.sheeted ((e.desc (e.S 4)).dim 0)
    (fun n => if k.narrow then n else n / cp * k.dim 0 + min (n % cp) (k.dim 0)) (fun _ => 0) (fun _ => 0) []

/-- The Input positions that a pane's windows touch, and the K groups that read each output position there. -/
def Env.paneTaps (e : Env) (p : Nat) : List (List Nat) :=
  let x := e.convProduct
  (x.bandRows p).flatMap (fun m => (List.range x.geo.groups).filterMap (fun g => e.convPos m g))

/-- The lines of a ZR Input that a pane decodes, each by its position. -/
def Env.paneZr (e : Env) (ps : List (List Nat)) : List (List Nat × ZrLine) :=
  let d := e.desc (e.S 1)
  if !e.zrIn then []
  else ps.eraseDups.filterMap (fun p => (e.zrLine d (fmMap d) (fmLine d (0 :: p)) (0 :: p)).map (fun z => (p, z)))

/-- The bytes of an Input line that CONV reads: the code of a coded line, else its storage; its scales, and its line map
entry (05 R129). -/
def Env.convLine (e : Env) (p : List Nat) : List (Nat × Nat) :=
  let d := e.desc (e.S 1)
  if e.zrIn then
    e.zrRuns d (fmMap d) (fmLine d (0 :: p)) (0 :: p) ++ [(fmMap d + 4 * fmLine d (0 :: p), 4)]
  else d.lineRuns (0 :: p)

/-- Runs of consecutive numbers of a rising list. -/
def consecutive : List Nat → List (List Nat)
  | [] => []
  | n :: l =>
    match consecutive l with
    | (m :: r) :: rest => if m == n + 1 then (n :: m :: r) :: rest else [n] :: (m :: r) :: rest
    | other => [n] :: other

/-- What CONV reads (08 R209): for each run of consecutive task rows that a region's cells hold, each Input line that its
windows touch, once; the Kernel, the Bias and the carry plane. -/
def Env.convReads (e : Env) : List (Nat × Nat) :=
  let x := e.convProduct
  let tasks := x.geo.deal e.tile (some e.convSheet) e.cells
  let rows := fun (r : Nat) => (List.range x.geo.pm).filter (fun i => tasks.any (fun t => t.2.2.2 / 64 == r && t.1 / x.geo.pn == i))
  (regionsOfTasks tasks).flatMap (fun r => (consecutive (rows r)).flatMap (fun run =>
    ((run.flatMap (fun i => e.paneTaps (i * x.geo.pn))).eraseDups).flatMap e.convLine)) ++
  e.tensors [e.S 2, e.S 3] ++ e.carryExtent false (e.desc (e.S 1)).shape 0

def convRun (e : Env) : OpOut :=
  let d := e.desc (e.S 1)
  let o := e.desc (e.S 4)
  if e.convEmpty then OpOut.idle
  else
    let x := e.convProduct
    let runs := e.prodRuns x
    let zrout := fun rs => zrWrites o (fun ix => e.outCode o (e.prodOut x rs ix) ix)
      (fun ix => e.outScale o (e.prodOut x rs ix) ix)
    let r := e.prodRun x e.tile e.convSheet (if e.zrOut then zrout else e.prodMain x)
    -- per pane: its attempts, the taps that its rows read, and the coded lines among them
    let decoded := runs.map (fun r => let taps := e.paneTaps r.pane; (r, taps, e.paneZr taps))
    let bad := decoded.find? (fun x => x.2.2.any (fun z => !z.2.ok))
    let entries := fun (f : ZrLine → Nat) => total (decoded.map (fun x => x.1.attempts.length *
      total (x.2.2.map (fun z => (x.2.1.filter (fun p => p == z.1)).length * f z.2 / ceilDiv (d.dim 0) 32))))
    let zr := fun l => zrLineCode (fmtBits o.fmt) ((List.range (o.dim 0)).map (fun i =>
      e.outCode o (e.prodOut x runs (i :: l.drop 1)) (i :: l.drop 1)))
    let coded := if e.zrOut then (o.rows.filter (fun l => (zr l).1 != 0)).length else 0
    let pads := total (runs.map (fun r => r.attempts.length *
      total ((x.bandRows r.pane).map (fun m => ((List.range x.geo.groups).filter (fun g => (e.convPos m g).isNone)).length))))
    { r with
      fail := if bad.isSome then 0x0330 else r.fail
      failKeeps := bad.isNone && r.failKeeps
      detail := (bad.map (fun x => x.1.pane)).getD r.detail
      reads := some e.convReads
      counts := r.counts ++ [tick 0x3170 4 (if decoded.any (fun x => x.2.2 != []) then e.s.free (2 ^ 83) else 0),
        tick 0x31A0 1 runs.length, tick 0x31A0 2 coded, tick 0x31A0 3 (if e.zrOut then fmLines o - coded else 0),
        tick 0x31A0 4 pads,
        tick 0x3170 5 (entries (fun z => z.elems.length / 32)), tick 0x3170 6 (entries (fun z => z.raw))] }

/-- A feature map (08 R201). -/
def featureMap (d : Desc) : Bool := d.rank == 5 && fmtFloat d.fmt && (!d.narrow || d.axis == 0)

/-- The ZR condition of an operand (08 R211). -/
def zrForm (d : Desc) : Bool := d.narrow && d.axis == 0 && d.layout == 0

def opConv : Op where
  dash := fun _ => []
  refs := fun e =>
    let d := e.desc (e.S 1)
    [⟨e.S 1, true, .tin⟩, ⟨e.S 2, true, .tin⟩, ⟨e.S 3, false, .tin⟩, ⟨e.S 4, true, .tout⟩] ++ e.precRefs d.shape 0
  rules := fun e =>
    let d := e.desc (e.S 1)
    let k := e.desc (e.S 2)
    let b := e.desc (e.S 3)
    let o := e.desc (e.S 4)
    let as := e.convAxes
    let g := e.convGeo
    firstCode ([rule (bits (e.W 3) 15 49 != 0 || bits (e.W 4) 18 46 != 0 || e.prec.reserved) 0x0102,
      e.checkCarryReserved] ++ e.checkPrec ++
      [rule (!featureMap d || !featureMap o || k.rank != 5 || !fmtFloat k.fmt || (k.narrow && k.axis != 0) ||
          (List.range 3).any (fun i => k.dim (i + 2) == 0 || decide (7 < k.dim (i + 2))) || k.dim 0 != d.dim 0 ||
          o.dim 0 != k.dim 1 || o.dim 4 != d.dim 4 ||
          (e.S 3 != 0 && (decide (1 < b.fmt) || b.rank != 1 || b.dim 0 != o.dim 0))) 0x0160,
       rule ((List.range 3).any (fun i => o.dim (i + 1) != (ax as i).out)) 0x0161,
       rule ((e.zrIn && !zrForm d) || (e.zrOut && (!zrForm o || !e.rectify))) 0x0162,
       rule ((e.zrIn && e.areaBroken (fmMap d) (4 * fmLines d)) ||
         (e.zrOut && (fmMap o % 4 != 0 || !e.s.hullOk true (fmMap o) (4 * fmLines o)))) 0x0163,
       rule (!(disjoint ([fmExtent d e.zrIn, k.extent, if e.S 3 == 0 then [] else b.extent, fmExtent o e.zrOut,
         e.carryExtent false d.shape 0,
         if e.prec.shadowEn then (e.desc (e.S 6)).extent else [],
         if e.prec.shadowEn then [(e.obj (e.S 7), 32)] else []].map e.s.homeRuns))) 0x0165,
       e.checkCarry d.count, e.checkShadow o,
       e.tile.check g.m g.n false (some (e.convSheet, g))])
  ins := Env.convIns
  outs := Env.convOuts
  run := convRun
  guide := fun e => if e.zrIn then [(fmMap (e.desc (e.S 1)), 4 * fmLines (e.desc (e.S 1)))] else []
  fetch := Env.convReads
  idle := Env.convEmpty

/-! ## POOL (08 R213 to R215) -/

/-- The values of a window's non-padding positions, in ascending t, then h, then w, widened to FP32 (08 R214). -/
def Env.poolWindow (e : Env) (ix : List Nat) : List Num :=
  let d := e.desc (e.S 1)
  let as := e.poolAxes
  (List.range (ax as 2).k).flatMap (fun t => (List.range (ax as 1).k).flatMap (fun h =>
    (List.range (ax as 0).k).filterMap (fun w =>
      match (ax as 0).pos (ix.getD 1 0) w, (ax as 1).pos (ix.getD 2 0) h, (ax as 2).pos (ix.getD 3 0) t with
      | some x, some y, some z => some (round32 (e.value d [ix.getD 0 0, x, y, z, ix.getD 4 0]))
      | _, _, _ => none)))

def Env.poolVal (e : Env) (ix : List Nat) : Num :=
  let l := e.poolWindow ix
  let as := e.poolAxes
  if l == [] then Num.zero
  else match bits (e.W 3) 15 2 with
    | 0 => (max102 l).getD Num.zero
    | 1 => fdiv (sum102 l) (.ofNat ((ax as 0).k * (ax as 1).k * (ax as 2).k))
    | _ => fdiv (sum102 l) (.ofNat l.length)

def Env.poolConv (e : Env) : OutConv := ⟨e.poolVal, false, 0, 1⟩

def Env.poolGeo (e : Env) : Geo :=
  let o := e.desc (e.S 4)
  ⟨1, fmLines o, o.dim 0, 0, e.tile.paneM (fmLines o) (o.dim 0), e.tile.paneN (o.dim 0), 1⟩

def opPool : Op where
  dash := fun _ => [2, 3, 5, 6, 7, 11]
  refs := fun e => [⟨e.S 1, true, .tin⟩, ⟨e.S 4, true, .tout⟩]
  rules := fun e =>
    let d := e.desc (e.S 1)
    let o := e.desc (e.S 4)
    let as := e.poolAxes
    firstCode [rule (bits (e.W 3) 17 47 != 0 || bits (e.W 4) 18 46 != 0) 0x0102,
      rule (!featureMap d || !featureMap o || d.dim 0 != o.dim 0 || d.dim 4 != o.dim 4) 0x0160,
      rule ((List.range 3).any (fun i => o.dim (i + 1) != (ax as i).out)) 0x0161,
      rule (extentsMeet (e.s.homeRuns d.extent) (e.s.homeRuns o.extent)) 0x0165,
      rule ((List.range 3).any (fun i => (ax as i).k == 0) || bits (e.W 3) 15 2 == 3) 0x0166,
      e.tile.check (fmLines o) (o.dim 0) false none]
  ins := fun e => e.tensors [e.S 1]
  outs := fun e => e.tensors [e.S 4]
  run := fun e =>
    let d := e.desc (e.S 1)
    let o := e.desc (e.S 4)
    if o.empty || d.empty then OpOut.idle
    else
      let g := e.poolGeo
      let none_ := ((indices o.shape).filter (fun ix => e.poolWindow ix == [])).length
      { writes := e.writeTensor o e.poolConv
        notes := if none_ != 0 then [0x0060] else []
        tasks := g.deal e.tile none e.cells
        counts := e.convCounts o e.poolConv ++ [tick 0x31A0 5 none_] }
  idle := fun e => (e.desc (e.S 4)).empty || (e.desc (e.S 1)).empty

/-! ## ARGMX (08 R216, R217) -/

/-- The winning channel of a line, none where it holds only NaN. -/
def Env.argmx (e : Env) (ix : List Nat) : Option Nat :=
  let d := e.desc (e.S 1)
  let l := ((List.range (d.dim 0)).map (fun i => (i, e.value d (i :: ix.drop 1)))).filter (fun x => !x.2.isNan)
  argMax (fun a b => if bit (e.W 2) 0 then Num.le b a else Num.lt b a) l

def opArgmx : Op where
  dash := fun _ => [2, 3, 5, 6, 7, 11, 13, 14]
  refs := fun e => [⟨e.S 1, true, .tin⟩, ⟨e.S 4, true, .tout⟩]
  rules := fun e =>
    let d := e.desc (e.S 1)
    let o := e.desc (e.S 4)
    firstCode [rule (bits (e.W 2) 1 63 != 0) 0x0102,
      rule (!fmtFloat d.fmt || (d.narrow && d.axis != 0) || decide (65535 < d.dim 0) || o.fmt != fU16 ||
        o.rank != d.rank || o.dim 0 != 1 || o.dims.drop 1 != d.dims.drop 1 ||
        extentsMeet (e.s.homeRuns d.extent) (e.s.homeRuns o.extent)) 0x0167]
  ins := fun e => e.tensors [e.S 1]
  outs := fun e => e.tensors [e.S 4]
  run := fun e =>
    let d := e.desc (e.S 1)
    let o := e.desc (e.S 4)
    if d.empty then OpOut.idle
    else
      { writes := e.writeInts o (fun ix => some ((e.argmx ix).getD 0xFFFF))
        notes := if d.rows.any (fun l => (e.argmx l).isNone) then [0x0061] else []
        tasks := e.lineTasks d
        counts := [tick 0x31A0 6 d.lineCount] }
  idle := fun e => (e.desc (e.S 1)).empty

end Sys2Proof.Machine
end

