-- ==== Sys2Proof/Machine/Stream.lean ====
section
/-! DEFINITION. Stream: doorbells, starting and completing macro-instructions, tile tasks, WAIT, SIGNAL, FENCE and NOP
(03 R53 to R93, 11 R283, R284). -/

namespace Sys2Proof.Machine
open Sys2Proof

/-! ## Doorbells (03 R55 to R57) -/

/-- What a doorbell value does to a queue (03 R56): 0 ignored, 1 Tail unchanged, 2 Tail set. -/
def bellAction (q : Queue) (value : Nat) : Nat :=
  let new := value % 2 ^ 32
  let d := (new + 2 ^ 32 - q.tail) % 2 ^ 32
  let u := (new + 2 ^ 32 - q.retired) % 2 ^ 32
  if bits value 33 31 != 0 || decide (2 ^ 64 ≤ value) then 0
  else if d == 0 then 1
  else if d ≤ 2 ^ 31 && u ≤ 2 ^ q.ringLog2 then 2
  else 0

def State.bellIgnored (s : State) : State := s.bump 0x3150 4 1

/-- A doorbell of a context whose descriptor is not on die waits for its fetch (11 R273, R301). Which 8,192 descriptors stand on die is not
given, so the count is free. -/
def State.bellFetch (s : State) (c : Nat) : State :=
  match s.ctx? c with
  | none => s
  | some _ => (s.bump 0x31D0 7 (s.free (2 ^ 90) % 2)).drew

/-- The Tail part of a doorbell write. -/
def State.bellTail (s : State) (c value : Nat) : State :=
  match s.ctx? c with
  | none => s.bellIgnored
  | some x =>
    match bellAction x.queue value with
    | 0 => s.bellIgnored
    | 1 => s
    | _ => s.setQueue c (fun q => { q with tail := value % 2 ^ 32 })

/-- Resume on a queue (03 R57): a Halted one runs on, a Pre-empted one keeps it for its restore. -/
def Ctx.resume (x : Ctx) : Ctx :=
  match x.queue.qs with
  | .halted => { x with queue := { x.queue with qs := .running }, job := { x.job with haltRec := none } }
  | .preempted => { x with wasHalted := false }
  | _ => x

/-- The Resume part of a doorbell write. -/
def State.bellResume (s : State) (c value : Nat) : State :=
  match s.ctx? c with
  | none => s
  | some x => if bit value 32 && bellAction x.queue value != 0 then s.setCtx c Ctx.resume else s

/-! ## Tile tasks (11 R283, R284) -/

/-- The sequence slot that a task's context runs in. -/
def State.slotOfCtx (s : State) (c : Nat) : Nat :=
  match s.ctx? c with
  | none => 8
  | some x => s.office.seqSlots.idxOf (some (x.client, x.seqTag))

/-- Post unposted tasks, each instruction's in order, while their pigeonhole has fewer than 32 entries. -/
def postTasks : List (Nat × Nat) → List (Nat × Nat) → List Task → List Task
  | _, _, [] => []
  | full, blocked, t :: l =>
    match t.phase with
    | .posted => t :: postTasks ((t.cell, t.prio) :: full) blocked l
    | .running => t :: postTasks full blocked l
    | .withdrawn => t :: postTasks full blocked l
    | .stopped => t :: postTasks full blocked l
    | .unposted =>
      if !blocked.contains (t.ctx, t.idx) && decide ((full.filter (fun x => x == (t.cell, t.prio))).length < 32) then
        { t with phase := .posted } :: postTasks ((t.cell, t.prio) :: full) blocked l
      else t :: postTasks full ((t.ctx, t.idx) :: blocked) l

/-- Posted entries first, so that the 32 places count every entry. An entry is as old as its posting (11 R284). -/
def State.postAll (s : State) : State :=
  let n := s.office.taskOrder
  let held := (s.office.tasks.filter (fun t => t.phase == .posted)).map (fun t => (t.cell, t.prio))
  let go := postTasks held [] (s.office.tasks.filter (fun t => t.phase == .unposted))
  { s with office := { s.office with
      tasks := s.office.tasks.filter (fun t => t.phase != .unposted) ++ go.zipIdx.map (fun t => { t.1 with order := n + t.2 })
      taskOrder := n + go.length } }

/-- The task that a cell takes next (11 R284): the highest pigeonhole that is not empty, the next sequence after the one
last served there, the oldest entry. -/
def State.nextTask (s : State) (cell : Nat) : Option Task :=
  let mine := s.office.tasks.filter (fun t => t.cell == cell && t.phase == .posted)
  match (List.range 8).reverse.find? (fun p => mine.any (fun t => t.prio == p)) with
  | none => none
  | some p =>
    let ts := mine.filter (fun t => t.prio == p)
    let last := kvGet p 7 (s.cell cell).lastServed
    match ((List.range 9).map (fun k => (last + 1 + k) % 9)).find? (fun q => ts.any (fun t => s.slotOfCtx t.ctx == q)) with
    | none => none
    | some q =>
      let us := ts.filter (fun t => s.slotOfCtx t.ctx == q)
      us.find? (fun t => us.all (fun v => decide (t.order ≤ v.order)))

/-- A cell takes tasks until it holds two, by fuel. Whether a context's descriptor must be fetched for its task is free: which
8,192 descriptors stand on die is not given (11 R273). -/
def State.cellTake (s : State) (cell : Nat) : Nat → State
  | 0 => s
  | f + 1 =>
    if 2 ≤ (s.office.tasks.filter (fun t => t.cell == cell && t.phase == .running)).length || (s.cell cell).fenced then s
    else
      match s.nextTask cell with
      | none => s
      | some t =>
        let q := s.slotOfCtx t.ctx
        let s : State := { s with office := { s.office with
          tasks := modifyWhere (fun x => x == t) (fun x => { x with phase := .running }) s.office.tasks } }
        (((s.setCell cell (fun c => { c with lastServed := kvSet t.prio q c.lastServed })).bump 0x31D0 6 1).bump 0x31D0 7
          (s.free (2 ^ 87 + s.count 0x31D0 6) % 2)).cellTake cell f

/-- Post what can be posted; the cells that hold fewer than two tasks take some. -/
def State.serveTasks (s : State) : State :=
  let s := s.postAll
  ((s.office.tasks.filter (fun t => t.phase == .posted)).map (fun t => t.cell)).eraseDups.foldl (fun s c => s.cellTake c 2) s

/-- Keep the grid that an instruction's tasks are dealt over (04 R108): its cells by column. -/
def State.setGrid (s : State) (c idx : Nat) (l : List (Nat × Nat × Nat × Nat)) : State :=
  let mine := (l.map (fun t => (c, idx, t.2.2.1, t.2.2.2))).eraseDups
  { s with cs := { s.cs with grids := s.cs.grids.filter (fun g => g.1 != c || g.2.1 != idx) ++ mine } }

/-- Deal an instruction's tasks: each is a pane, a slice, a grid column and a cell; a task goes on from where `done` says. -/
def State.deal (s : State) (c idx prio : Nat) (l : List (Nat × Nat × Nat × Nat)) (done : Nat → Nat → Option Progress) : State :=
  let ts := l.map (fun t => (⟨c, idx, t.1, t.2.1, t.2.2.2, t.2.2.1, prio, 0, .unposted, 0, done t.1 t.2.1, false⟩ : Task))
  (({ s with office := { s.office with tasks := s.office.tasks ++ ts } } : State).bump 0x3160 1 l.length).serveTasks

/-! ## Completion (03 R79, R88 to R93) -/

/-- The 16 bytes of a completion record (03 R88). -/
def recordBytes (status tag idx opcode rung post detail : Nat) : Bytes :=
  leBytes 2 status ++ leBytes 2 tag ++ leBytes 4 idx ++ leBytes 1 opcode ++ leBytes 1 rung ++ leBytes 2 (post % 1024) ++
    leBytes 4 detail

/-- Retired moves across the unbroken run of completed instructions, by fuel. -/
def State.retire (s : State) (c : Nat) : Nat → State
  | 0 => s
  | f + 1 =>
    match s.ctx? c with
    | none => s
    | some x =>
      let r := x.queue.retired
      if s.cs.done.contains (c, r) then
        (({ s with cs := { s.cs with done := s.cs.done.filter (fun d => d != (c, r)),
                                     stalled := s.cs.stalled.filter (fun d => d != (c, r)) } } : State).setQueue c
          (fun q => { q with retired := (r + 1) % 2 ^ 32 })).retire c f
      else s

/-- A queue halts after a failure: at once, or at its restore while its context is being suspended (03 R79, 11 R287). -/
def State.haltQueue (s : State) (c : Nat) (record : Bytes) : State :=
  match s.ctx? c with
  | none => s
  | some x =>
    if x.suspending then s.setCtx c (fun x => { x with wasHalted := true, job := { x.job with haltRec := some (record.take 12) } })
    else if x.queue.qs == .running then
      (s.setCtx c (fun x => { x with queue := { x.queue with qs := .halted },
                                     job := { x.job with haltRec := some (record.take 12) } })).progress c
    else s

/-- Telemetry of a completed instruction (03 R90). -/
def completionCounter (f : InFlight) : Nat := if isSuccess f.status then 1 else if f.rejected then 2 else 3

/-- The progress that some records give a task (11 R295 steps 3 and 4). -/
def taskRecord (l : List Loaded) (idx pane slice : Nat) : Option Progress :=
  (l.find? (fun r => r.idx == idx && r.task == pane && r.slice == slice && (r.kind == 1 || r.kind == 5))).map (fun r => r.done)

/-- An instruction that has ended leaves the stream: its tasks, records, reads, chains and grid go, and the sheets of what it wrote are
no longer held (04 R107). Free values are drawn anew after it. -/
def State.leaveStream (s : State) (f : InFlight) : State :=
  { s with
    epoch := s.epoch + 1
    office := { s.office with
      tasks := s.office.tasks.filter (fun t => t.ctx != f.ctx || t.idx != f.idx)
      loaded := s.office.loaded.filter (fun l => l.ctx != f.ctx || l.idx != f.idx) }
    cs := { s.cs with
      flight := s.cs.flight.filter (fun g => g.ctx != f.ctx || g.idx != f.idx)
      done := s.cs.done ++ [(f.ctx, f.idx)]
      reqs := s.cs.reqs.filter (fun r => r.ctx != f.ctx || r.idx != f.idx || r.kind != .read)
      chainLeft := s.cs.chainLeft.filter (fun l => l.1 != f.ctx || l.2.1 != f.idx)
      grids := s.cs.grids.filter (fun g => g.1 != f.ctx || g.2.1 != f.idx)
      sheets := s.cs.sheets.filter (fun h => !extentsMeet h.extent f.outs) } }

/-- The results that an instruction writes as it completes; undefined bytes in their place where its inputs were written
meanwhile (04 R115). -/
def State.results (s : State) (f : InFlight) : List (Nat × Bytes) :=
  if f.spoiled then f.endWrites.map (fun w => (w.1, s.freeBytes (2 ^ 81 + w.1) w.2.length)) else f.endWrites

/-- Telemetry of what an instruction did. One that fails with its outputs undefined may have done any part of it, so each
counter rises by a free part (DESIGN CHOICE: the spec does not say how far it came). -/
def State.countWork (s : State) (f : InFlight) : State :=
  if isSuccess f.status || f.status == 0x0311 then s.bumps f.counts
  else if f.counts == [] then s
  else (s.bumps (List.zipWith (fun i x => (x.1, s.free (2 ^ 82 + i) % (x.2 + 1))) (List.range f.counts.length) f.counts)).drew

/-- Opcodes that take the precision set: MMA, MMAS, CONV, ATTF, ATTB, QNT. -/
def ladderOpcode (o : Nat) : Bool := (decide (1 ≤ o) && decide (o ≤ 6) && o != 4) || o == 0x0E

/-- The carry plane that an instruction updates, as a run of its extents. -/
def InFlight.plane (f : InFlight) : Option (Nat × Nat) :=
  match f.failWrites with
  | [] => none
  | w :: _ => f.outs.find? (fun x => x.1 + 4 == w.1)

/-- The writes of an instruction to its carry plane do not spoil another that uses the same plane (02 R41): `t` is `s` after
them. -/
def State.unspoil (s t : State) (f : InFlight) : State :=
  if f.plane.isNone then t
  else
    { t with cs := { t.cs with flight := t.cs.flight.map (fun g =>
        if g.plane == f.plane then { g with spoiled := ((s.flight? g.ctx g.idx).map (fun x => x.spoiled)).getD g.spoiled } else g) } }

/-- One result is written. -/
def State.putResult (s : State) (f : InFlight) (w : Nat × Bytes) : State :=
  let t := s.writeGlobal f.ctx f.idx f.partition w
  if f.plane.any (fun p => runsMeet p (w.1, w.2.length)) then s.unspoil t f else t

/-- What the record of an instruction shows whose inputs were written meanwhile: its HighestRung and the Detail of note 0x0010 are
undefined too (04 R114, R115). -/
def State.blurred (s : State) (f : InFlight) : InFlight :=
  if f.spoiled then
    { f with
      rung := if ladderOpcode f.opcode then s.free (2 ^ 90) % 4 else f.rung
      detail := if f.status == 0x0010 then s.free (2 ^ 90 + 1) else f.detail }
  else f

/-- An instruction completes in compatibility mode (07 R200). -/
def InFlight.compat (f : InFlight) : Nat :=
  if bit f.flags 2 && !f.rejected && decide (9 ≤ f.opcode) && decide (f.opcode ≤ 0xB) then 1 else 0

/-- What every completion does: its results, the record, Retired, counters, the job's status, the log. -/
def State.settle (s : State) (x : Ctx) (f : InFlight) : State :=
  let good := isSuccess f.status
  let s := s.leaveStream f
  let s := (s.results f).foldl (fun s w => s.putResult f w) s
  let s := (s.countWork f).bump 0x3190 6 f.compat
  let rec_ := recordBytes f.status f.tag f.idx f.opcode f.rung (s.postmark f.partition) f.detail
  let a := x.queue.compBase + 16 * (f.idx % 2 ^ x.queue.ringLog2)
  let s := if bit f.flags 0 || f.status != 0 then s.writeBytes a rec_ else s
  let s := (s.bump 0x3150 (completionCounter f) 1).retire f.ctx 16
  let s := s.setJob f.ctx (fun j => { j with status := joinStatus j.status f.status })
  if good then s else s.log (s.partUnit f.partition) f.status 1 f.partition (f.ctx + 2 ^ 32 * f.idx)

/-- The record of an instruction as it completes. -/
def State.recordOf (s : State) (f : InFlight) : Bytes :=
  recordBytes f.status f.tag f.idx f.opcode f.rung (s.postmark f.partition) f.detail

/-- An instruction completes: a failure halts the queue unless Continue = 1; a finished job ends. -/
def State.completeNow (s : State) (x : Ctx) (f : InFlight) : State :=
  let f := s.blurred f
  let r := s.recordOf f
  let s := s.settle x f
  let s := if isSuccess f.status || bit f.flags 3 then s else s.haltQueue f.ctx r
  (s.serveTasks).finishJob f.ctx

/-- An instruction in flight has nothing left to wait for. -/
def InFlight.ready (f : InFlight) : Bool :=
  !f.stopped && (f.phase == .ended || (f.phase == .running && !ownEnd f.opcode))

/-- A manifest-form COPY at work, which stream engines serve. -/
def InFlight.streams (f : InFlight) : Bool := f.opcode == 0x12 && f.phase == .running && !f.stopped && bit (leAt f.slot 48 8) 0

/-- The Priority of an instruction's context. -/
def State.prioOf (s : State) (f : InFlight) : Nat := (s.ctx? f.ctx).elim 0 (fun x => x.priority)

/-- A manifest-form COPY's stream engines have others of its partition to serve first: those of higher Priority, and of equal
Priority those started earlier (11 R285). -/
def State.engineBusy (s : State) (f : InFlight) : Bool :=
  let earlier := s.cs.flight.takeWhile (fun g => g.ctx != f.ctx || g.idx != f.idx)
  f.streams && (s.cs.flight.any (fun g => g.streams && g.partition == f.partition && decide (s.prioOf f < s.prioOf g)) ||
    earlier.any (fun g => g.streams && g.partition == f.partition && s.prioOf g == s.prioOf f))

/-- An instruction still at work has tasks in its partition's cells (11 R284), or stream engines that serve others first. -/
def State.tasksLeft (s : State) (f : InFlight) : Bool :=
  (f.phase == .running && s.office.tasks.any (fun t => t.ctx == f.ctx && t.idx == f.idx)) || s.engineBusy f

/-- INSTRUCTION_COMPLETE where it has its occasion. -/
def State.complete (s : State) (c idx : Nat) : State :=
  match s.ctx? c, s.flight? c idx with
  | some x, some f =>
    if f.ready && !s.tasksLeft f && x.state != .ending && !s.office.stopped.contains x.partition then s.completeNow x f else s
  | _, _ => s

/-! ## Start (03 R59, R79 to R86) -/

/-- An instruction of the precision set has a zero length: it touches no carry plane and no shadow summary (02 R42, 03 R87). -/
def Env.nothing (e : Env) : Bool :=
  match e.opcode with
  | 0x01 | 0x02 => e.mmaEmpty
  | 0x03 => e.convEmpty
  | 0x05 => e.attfEmpty
  | 0x06 => e.attbEmpty
  | _ => e.qntEmpty

/-- The header of the carry plane that an instruction updates, and the pass that it writes there (02 R39, 13 R332). -/
def Env.carrySite (e : Env) : Option (Nat × Nat) :=
  if ladderOpcode e.opcode then (if e.prec.carryEn && !e.nothing then some (e.obj (e.S 5), e.prec.pass) else none)
  else if e.opcode == 0x13 && bits (e.W 2) 32 32 != 0 then some (e.obj (bits (e.W 2) 32 32), bits (e.W 2) 16 16)
  else none

/-- What a failure leaves as it is: a carry plane's header, and a shadow summary (03 R85). -/
def Env.spared (e : Env) : List (Nat × Nat) :=
  (match e.carrySite with
   | some c => [(c.1, 64)]
   | none => []) ++ (if ladderOpcode e.opcode && e.prec.shadowEn && !e.nothing then [(e.obj (e.S 7), 32)] else [])

/-- State = 10 and the pass, in a carry plane's header. -/
def Env.failWrites (e : Env) : List (Nat × Bytes) :=
  match e.carrySite with
  | some c => [(c.1 + 4, leBytes 2 c.2), (c.1 + 6, [2])]
  | none => []

/-- An instruction in flight as it starts. -/
def Env.entry (e : Env) : InFlight :=
  ⟨e.ctx, e.idx, e.opcode, e.flags, e.tag, e.part, e.slot, .running, false, 0, 0, 0, [], [], [], [], false, [],
    e.spared, e.failWrites, [], [], e.latePath, false, [], none⟩

def State.addFlight (s : State) (f : InFlight) : State := { s with cs := { s.cs with flight := s.cs.flight ++ [f] } }

/-- An instruction ends without starting: its record is owed (03 R86, R90). -/
def State.reject (s : State) (f : InFlight) (code : Nat) : State :=
  s.addFlight { f with phase := .ended, rejected := true, status := code, detail := 0xFFFFFFFF }

/-- The running instruction has gather chains (04 R103, R105, R112): it has a sheeted operand without the Stream flag, and ChainOff
is 0. -/
def State.chained (s : State) (f : InFlight) : Bool :=
  (f.opcode == 0x01 || f.opcode == 0x02 || f.opcode == 0x03) && !bit (leAt f.slot 40 8) 23 &&
    match s.ctx? f.ctx with
    | none => false
    | some x =>
      let e := s.env x f.idx f.slot [] []
      !bit (e.desc (e.S 2)).tier 1

/-- Opcodes of R68. -/
def opcodeListed (o : Nat) : Bool := (decide (1 ≤ o) && decide (o ≤ 0x1B)) || o == 0x1F

/-- How far an index lies from Retired. -/
def Ctx.dist (x : Ctx) (idx : Nat) : Nat := (idx + 2 ^ 32 - x.queue.retired) % 2 ^ 32

/-- An instruction has started, or has completed, above Retired. -/
def State.begun (s : State) (c idx : Nat) : Bool := (s.flight? c idx).isSome || s.cs.done.contains (c, idx)

/-- An instruction may be considered: its context is Live and its queue runs, it is in the issue window and available, every
earlier one has started, no earlier WAIT or FENCE is incomplete, and none has ended in a failure that halts the queue (03 R59,
R79, R81). -/
def State.startable (s : State) (x : Ctx) (idx : Nat) : Bool :=
  let p := x.dist idx
  x.state == .live && x.queue.qs == .running && decide (idx < 2 ^ 32) && decide (p < 16) &&
    decide (p < x.dist x.queue.tail) && !s.begun x.number idx &&
    (List.range p).all (fun k => s.begun x.number ((x.queue.retired + k) % 2 ^ 32)) &&
    !s.office.stopped.contains x.partition && s.board.phase == .serving &&
    !s.cs.flight.any (fun f => f.ctx == x.number && (f.opcode == 0x15 || f.opcode == 0x17 ||
      (f.phase == .ended && !isSuccess f.status && !bit f.flags 3)))

/-- A remote write of a queue is not yet acknowledged. -/
def State.writesOut (s : State) (c : Nat) : Bool :=
  s.cs.reqs.any (fun r => r.ctx == c && !r.answered && (r.kind == .write || r.kind == .writeBack || r.kind == .signal))

/-- Dirty copies that a queue wrote, and that what starts now waits for (10 R258): not one whose write-back has failed while that
failure is still to be reported (R261). -/
def State.dirtyOf (s : State) (c : Nat) : List Copy :=
  s.mem.copies.filter (fun x => x.dirty && x.writers.contains c && !(x.failed && s.cs.failedWrites.any (fun w => w.1 == c)))

/-- An instruction waits for earlier ones regardless of extents (03 R81), a SIGNAL also for the contents of a local copy that holds
its semaphore (10 R257). -/
def State.held (s : State) (e : Env) : Bool :=
  let earlier := s.cs.flight.any (fun f => f.ctx == e.ctx)
  let fabric := e.opcode == 0x16 || (e.opcode == 0x17 && bit (e.W 3) 0)
  (earlier && (bit e.flags 1 || e.opcode == 0x16 || e.opcode == 0x17)) ||
    (fabric && (s.writesOut e.ctx || s.dirtyOf e.ctx != [])) ||
    (e.opcode == 0x16 && !s.gHere (e.W 1) && (s.mem.copyOf (e.W 1)).any (fun c => !c.whole))

/-- Write back what a SIGNAL, or a FENCE of Scope 1, waits for. -/
def State.heldWriteBack (s : State) (e : Env) : State :=
  if (e.opcode == 0x16 || (e.opcode == 0x17 && bit (e.W 3) 0)) && !s.cs.flight.any (fun f => f.ctx == e.ctx) then
    (s.dirtyOf e.ctx).foldl (fun s x => s.writeBack x) s
  else s

/-- Extents that overlap as R80 forbids. -/
def State.hazard (s : State) (c : Nat) (ins outs : List (Nat × Nat)) : Bool :=
  s.cs.flight.any (fun f => f.ctx == c && (extentsMeet f.outs (ins ++ outs) || extentsMeet f.ins outs))

/-- An opcode's row: its checks, which slots of the opcode are its own, whether it runs as cell tasks, how it starts
where it does not simply run, and when it waits for its unit. -/
structure Macro where
  opcode : Nat
  op : Op
  mine : Env → Bool := fun _ => true
  cells : Env → Bool := fun _ => false
  start : Option (State → Env → InFlight → State) := none
  waits : State → Env → Bool := fun _ _ => false

/-- Steps 1 to 6 of R86. -/
def Macro.check (m : Macro) (e : Env) : Nat :=
  firstCode [rule (bits e.flags 4 4 != 0) 0x0102,
    rule (bit e.flags 2 && !(e.opcode == 0x09 || e.opcode == 0x0A || e.opcode == 0x0B)) 0x0104, m.op.check e]

/-! ## Running an opcode -/

/-- Uncorrectable units were read: they are counted and raise bit 6 or 7 (10 R239, 19 R513). -/
def State.sawPoison (s : State) (us : List Nat) : State :=
  let s := s.bump 0x31C0 4 us.length
  let s := us.foldl (fun s u => if s.mem.window (16 * u) == 1 then s.badReads (s.chanOf (16 * u)) 1 else s) s
  let s := if us.any (fun u => s.mem.window (16 * u) == 1) then s.raise 6 0x0302 else s
  if us.any (fun u => s.mem.window (16 * u) != 1) then s.raise 7 0x0302 else s

/-- Local uncorrectable units of a run. -/
def State.badLocal (s : State) (x : Nat × Nat) : List Nat :=
  if s.gHere (x.1 % 2 ^ 64) then s.mem.poisonIn (gAddr (x.1 % 2 ^ 64)) x.2 else []

/-- A remote run meets a unit that its home answered as poisoned, and of which no local copy stands here, or one that a local
copy holds as poison (10 R582). -/
def State.badRemote (s : State) (arrived : List Req) (x : Nat × Nat) : Bool :=
  arrived.any (fun r => r.node == gNode x.1 && bit x.1 63 && r.poisoned.any (fun u =>
    runsMeet (16 * u, 16) (gLocal x.1, x.2) && !(decide (x.1 < 2 ^ 64) && (s.mem.copyByte (gMake r.node (16 * u))).isSome))) ||
  s.copiedBad x

/-- Reads of an instruction that have been answered. -/
def State.arrived (s : State) (c idx : Nat) : List Req :=
  s.cs.reqs.filter (fun r => r.ctx == c && r.idx == idx && (r.kind == .read || r.kind == .history) && r.answered)

/-- The output extents of a failed instruction hold undefined bytes, but for what it spares (03 R85). -/
def State.scramble (s : State) (f : InFlight) : State :=
  let kept := f.spare.map (fun x => (gAddr x.1, s.readBytes (gAddr x.1) x.2))
  let t := f.outs.foldl (fun s x => if s.gHere (x.1 % 2 ^ 64) then
    s.writeBytes (gAddr (x.1 % 2 ^ 64)) (s.freeBytes (2 ^ 80 + x.1) x.2) else s) s
  let t := if f.outs == [] then t else kept.foldl (fun s x => s.writeBytes x.1 x.2) t
  (f.failWrites.foldl (fun s w => s.writeBytes w.1 w.2) t).drew

/-- Hold the sheets that an instruction leaves in weight caches, in place of those of its context (04 R107). -/
def State.holdSheets (s : State) (c : Nat) (l : Option (List SheetSet)) : State :=
  match l with
  | none => s
  | some l => { s with cs := { s.cs with sheets := s.cs.sheets.filter (fun h => h.ctx != c) ++ l } }

/-- The rung in the record of an instruction that ends in failure: of one at work, any that a pane of it may have reached (03
R88). -/
def State.failRung (s : State) (f : InFlight) : Nat :=
  if isSuccess f.status && f.phase == .running then s.free (2 ^ 91) % (f.rung + 1) else f.rung

/-- Work out what an instruction does and leave it running: its results are written, and its record, as it completes. Of
failures found at this one moment, a history path that fails or an unreadable fallback goes before uncorrectable operands, those
before an access that a channel marked for fencing cannot serve, that before a generator that cannot be reseeded, and that
before the opcode's other failure (DESIGN CHOICE: R93 reports the first detected, and gives no order among these). -/
def State.finishRun (s : State) (o : Op) (e : Env) (f : InFlight) : State :=
  let got := s.arrived f.ctx f.idx
  let r := o.run e
  let reads := r.reads.getD (o.ins e)
  let outs := if o.idle e then [] else o.outs e
  let bad := reads.flatMap s.badLocal
  let dry := r.draws && r.tasks.any (fun t => decide (16 ≤ (s.cell t.2.2.2).deferred))
  let code :=
    if r.fail == 0x0440 || r.fail == 0x0340 then r.fail
    else if bad != [] || reads.any (s.badRemote got) then 0x0302
    else if s.unservedRuns (reads ++ outs) then 0x0381
    else if dry then 0x0570
    else r.fail
  let keeps := code == 0 || (code == r.fail && r.failKeeps)
  let s := if bad == [] then s else s.sawPoison bad.eraseDups
  let s := (s.bump 0x31C0 4 (total (reads.map s.copiedUnits))).readRuns reads
  let s := s.bumps r.events
  let s := s.unspoil (r.begins.foldl (fun s w => s.writeBytes w.1 w.2) s) f
  let s := (if keeps then s.drew else s.scramble f).holdSheets f.ctx r.sheets
  let prio := match s.ctx? f.ctx with
    | some x => x.priority
    | none => 0
  let g : InFlight := { f with
    phase := .running
    status := if code != 0 then code else topNote r.notes
    detail := if code == r.fail then r.detail else 0xFFFFFFFF
    rung := r.rung
    counts := r.counts ++ (if r.draws then [tick 0x31B0 6 (s.free (2 ^ 86))] else [])
    draws := r.paneDraws
    carryThen := if ladderOpcode e.opcode && e.prec.carryEn && !o.idle e then some (e.carryUsable, e.carryGone) else none
    reads := s.homeRuns reads
    endWrites := (if keeps then r.writes else []) ++ (if code == 0 then r.endWrites else []) }
  let s := s.setFlight f.ctx f.idx (fun _ => g)
  (s.setGrid f.ctx f.idx r.tasks).deal f.ctx f.idx prio r.tasks (taskRecord (s.office.loaded.filter (fun l => l.ctx == f.ctx)) f.idx)

/-- The failure that an instruction's record reports: the first detected (03 R93). -/
def InFlight.firstFailure (f : InFlight) (code : Nat) : Nat := if isSuccess f.status then returnable code else f.status

/-- A collective is in flight no longer. -/
def State.dropColl (s : State) (c idx : Nat) : State :=
  { s with coll := { s.coll with flight := s.coll.flight.filter (fun x => x.ctx != c || x.idx != idx) } }

/-- End an instruction that has started with a failure: outputs undefined, its reads dropped, and a collective with it. -/
def State.failInstr (s : State) (c idx code : Nat) : State :=
  match s.flight? c idx with
  | none => s
  | some f =>
    (((s.scramble f).dropColl c idx).dropReqs (fun r => r.ctx == c && r.idx == idx && r.kind == .read)).setFlight c idx (fun f =>
      { f with
        phase := .ended
        status := f.firstFailure code
        detail := if isSuccess f.status then 0xFFFFFFFF else f.detail
        rung := s.failRung f
        histWait := []
        endWrites := [] })

/-- The history that an instruction reads (06 R166, R167). -/
def Env.history (e : Env) : Option Hist :=
  if e.opcode == 0x07 then (if (e.desc (e.S 4)).empty then none else some e.latxHist)
  else if e.opcode == 0x05 && e.latentRef != 0 then (if e.attfEmpty then none else some (e.viewHist (e.att true).hq))
  else none

/-- The paths that a history's blocks take at once (06 R173, R175): 8 and the code where the path map holds 10 or 11; the missed
path of those in `lost`; the primary store where a block is not among those in `wait`, which are fetched under a deadline. -/
def Env.mapped (e : Env) (h : Hist) (wait lost : List Nat) : KV :=
  h.blocks.foldl (fun m b =>
    if e.mapCode h b == 2 || e.mapCode h b == 3 then kvSet b (8 + e.mapCode h b) m
    else if lost.contains b then kvSet b (h.path + 1) m
    else if wait.contains b then m else kvSet b 1 m) []

/-- History blocks to fetch under a deadline (06 R172), and those that miss at once: their node is unreachable, or a local copy
holds poison of theirs (06 R173, 10 R582). -/
def State.histPlan (s : State) (e : Env) : List Nat × List Nat :=
  match e.history with
  | none => ([], [])
  | some h =>
    let todo := if e.hasDeadline h.store then h.blocks.filter (fun b => e.mapCode h b != 2 && e.mapCode h b != 3) else []
    let bad := todo.filter (fun b => (h.store.blockRuns b).any s.copiedBad)
    let far := (todo.filter (fun b => !bad.contains b)).filter (fun b => (h.store.blockRuns b).any (fun r => !s.copied r))
    if s.unreachable (gNode h.store.data) == 0x0701 then ([], bad ++ far) else (far, bad)

/-- A block's path is decided, and counted (06 R179). -/
def State.countPath (s : State) (deadline : Bool) (path : Nat) : State :=
  match path % 8 with
  | 1 => if deadline then s.bump 0x3180 1 1 else s
  | 2 => s.bump 0x3180 2 1
  | 3 => s.bump 0x3180 3 1
  | 4 => s.bump 0x3180 4 1
  | _ => s

/-- The paths decided as an instruction starts: each is counted, and a miss writes a last-post event (06 R173, R179). -/
def State.startPaths (s : State) (e : Env) (f : InFlight) (lost : List Nat) : State :=
  match e.history with
  | none => s
  | some h =>
    let s := f.hist.foldl (fun s b => s.countPath (e.hasDeadline h.store) b.2) s
    lost.foldl (fun s _ => s.post (s.partUnit f.partition) 8 0 s.anyDetail) s

/-- Send for the history blocks that have a deadline (06 R172): a request for each of a block's runs, with the block in `seq`. -/
def State.sendHistory (s : State) (e : Env) (f : InFlight) (blocks : List Nat) : State :=
  match e.history with
  | none => s
  | some h => blocks.foldl (fun s b => ((h.store.blockRuns b).filter (fun r => r.2 != 0)).foldl (fun s r =>
      s.request .history f.ctx f.idx f.partition (gNode r.1) (gLocal r.1) r.2 [] 0 b) s) s

/-- A request for a run of an instruction's operands, or its answer. -/
def Req.brings (f : InFlight) (x : Nat × Nat) (r : Req) : Bool :=
  r.ctx == f.ctx && r.idx == f.idx && r.kind == .read && r.seq == 0 && r.node == gNode x.1 && decide (r.addr ≤ gLocal x.1) &&
    decide (gLocal x.1 + x.2 ≤ r.addr + r.len)

/-- The runs of primary stores that an instruction does not read in the ordinary way: those of blocks that are not on the primary
path, or not yet decided. -/
def Env.unread (e : Env) : List (Nat × Nat) :=
  match e.history with
  | none => []
  | some h => (h.blocks.filter (fun b => e.blockPath b != 1)).flatMap h.store.blockRuns

/-- Of some runs, those of other nodes that are not at hand: neither in a local copy nor answered. -/
def State.lacking (s : State) (e : Env) (f : InFlight) (l : List (Nat × Nat)) : List (Nat × Nat) :=
  (l.filter (fun r => !s.gHere (r.1 % 2 ^ 64) && r.2 != 0 && !e.unread.contains r && !s.copied r &&
    !s.cs.reqs.any (fun q => q.answered && q.brings f r))).eraseDups

/-- What an instruction still lacks of other nodes' memory: first what tells it what else it reads. A local copy that was evicted
meanwhile is read from its home (10 R257). -/
def State.needs (s : State) (o : Op) (e : Env) (f : InFlight) : List (Nat × Nat) :=
  match s.lacking e f (o.guide e) with
  | [] => s.lacking e f (o.fetch e)
  | l => l

/-- Stream engines of a partition that serve a manifest-form COPY (10 R264). -/
def State.enginesOf (s : State) (p : Nat) : Nat :=
  ((List.range 32).filter (fun b => !s.isFenced (unitEngine b) && s.partOfRegion (b / 8) == p)).length

/-- Transfers that a stream engine keeps outstanding: 4, and 256 in bulk mode (10 R264, R265). -/
def State.engineLimit (s : State) : Nat := if s.mem.bulk then 256 else 4

/-- Of what an instruction lacks, what it asks for now: all that is not asked for, or what its stream engines may have
outstanding. -/
def State.sendable (s : State) (o : Op) (e : Env) (f : InFlight) (need : List (Nat × Nat)) : List (Nat × Nat) :=
  let open_ := fun r : Nat × Nat => s.cs.reqs.any (fun q => !q.answered && q.brings f r)
  let todo := need.filter (fun r => !open_ r)
  match o.paced e (s.enginesOf f.partition) with
  | [] => todo
  | lanes => (lanes.flatMap (fun l => (l.filter todo.contains).take (s.engineLimit - (l.filter open_).length))).eraseDups

/-- Ask for what an instruction in flight still lacks; with nothing lacking and every history block decided, `go` does its work. -/
def State.bring (s : State) (o : Op) (e : Env) (f : InFlight) (go : State → InFlight → State) : State :=
  match s.needs o e f with
  | [] => if f.histWait == [] then go s f else s
  | need =>
    let send := s.sendable o e f need
    let code := firstCode (send.map (fun r => s.unreachable (gNode r.1)))
    if code != 0 then s.failInstr f.ctx f.idx code
    else send.foldl (fun s r => s.request .read f.ctx f.idx f.partition (gNode r.1) (gLocal r.1) r.2 [] 0 0) s

/-- Without a node id in force, an instruction that has operands on other nodes fails (12 R319). -/
def State.noNode (s : State) (o : Op) (e : Env) : Bool :=
  s.node == 0xFFFF && (o.guide e ++ o.fetch e ++ o.outs e).any (fun r => !s.gHere (r.1 % 2 ^ 64) && r.2 != 0)

/-- Start an opcode: what it reads from other nodes is fetched first, and then `go` does its work; a zero length has nothing to
fetch. -/
def State.launchTo (s : State) (o : Op) (e : Env) (f : InFlight) (go : State → InFlight → State) : State :=
  if o.idle e then go (s.addFlight f) f
  else
    let plan := s.histPlan e
    let f := { f with hist := (e.history.map (fun h => e.mapped h plan.1 plan.2)).getD [], histWait := plan.1 }
    let e := { e with hist := f.hist }
    if s.noNode o e then (s.addFlight f).failInstr f.ctx f.idx 0x07A0
    else
      let s := s.startPaths e f plan.2
      if f.hist.any (fun b => b.2 == 4) then (s.addFlight f).failInstr f.ctx f.idx 0x0440
      else if f.histWait == [] && s.needs o e f == [] then go (s.addFlight f) f
      else
        let f := { f with phase := .fetching }
        ((s.addFlight f).sendHistory e f plan.1).bring o e f go

/-- Start an opcode whose work is done at one moment. -/
def State.launch (s : State) (o : Op) (e : Env) (f : InFlight) : State :=
  s.launchTo o e f (fun s f => s.finishRun o { e with hist := f.hist } f)

/-- An instruction is held back by an earlier one of its queue (03 R80): counted once. -/
def State.stall (s : State) (c idx : Nat) : State :=
  if s.cs.stalled.contains (c, idx) then s
  else ({ s with cs := { s.cs with stalled := s.cs.stalled ++ [(c, idx)] } } : State).bump 0x3150 6 1

/-- The slot of an instruction that starts or is rejected is read, and with one that starts the descriptors and objects that it names
(10 R272). How much of them a rejected one reads is not given: its slot only (DESIGN CHOICE). -/
def State.slotRead (s : State) (a : Nat) (o : Op) (e : Env) (all : Bool) : State :=
  let runs := (o.refs e).filterMap (fun r => if r.val == 0 then none else
    match r.kind with
    | .obj n => some (e.obj r.val, 64 + n)
    | _ => some (e.obj r.val, 64))
  s.readRuns ((a, 64) :: (if all then runs else []))

/-- A row of R68 where it has its occasion: the instruction is checked, and rejected, held back, or started. -/
def State.startMacro (s : State) (m : Macro) (c idx : Nat) : State :=
  match s.ctx? c with
  | none => s
  | some x =>
    if !s.startable x idx then s
    else
      let a := x.queue.ringBase + 64 * (idx % 2 ^ x.queue.ringLog2)
      if s.mem.poisonIn a 64 != [] then
        (s.sawPoison (s.mem.poisonIn a 64)).reject ⟨c, idx, 0, 0, 0, x.partition, [], .ended, true, 0, 0, 0, [], [], [], [],
          false, [], [], [], [], [], 0, false, [], none⟩ 0x0301
      else
        let e := s.env x idx (s.readBytes a 64) [] []
        let code := m.check e
        let f := { e.entry with ins := s.homeRuns (m.op.ins e), outs := s.homeRuns (m.op.outs e) }
        let r := s.slotRead a m.op e false
        if !opcodeListed e.opcode then r.reject e.entry 0x0101
        else if e.opcode != m.opcode || !m.mine e then s
        else if s.hazard c (s.homeRuns (m.op.gate e)) [] then s.stall c idx
        else if code == 0x0301 then (r.sawPoison ((m.op.refs e).flatMap e.refBad ++ m.op.more e).eraseDups).reject e.entry code
        else if code != 0 then r.reject e.entry code
        else if m.cells e && s.activeCells x.partition == [] then r.reject e.entry 0x0220
        else if s.held e then s.heldWriteBack e
        else if s.hazard c f.ins f.outs then s.stall c idx
        else if m.waits s e then s
        else
          let s := s.slotRead a m.op e true
          match m.start with
          | some go => go s e f
          | none => s.launch m.op e f

/-! ## WAIT, SIGNAL, FENCE, NOP (03 R76 to R82) -/

/-- A semaphore's local form: eight aligned bytes of the GDDR protected window. -/
def State.semHere (s : State) (g : Nat) : Bool :=
  s.gHere g && bits g 40 8 == 0 && gAddr g % 8 == 0 && decide (gAddr g + 8 ≤ s.mem.windowBytes)

/-- The condition of a WAIT on a value (03 R77). -/
def condMet (control value operand : Nat) : Bool :=
  match control % 4 with
  | 0 => decide (operand ≤ value)
  | 1 => value == operand
  | _ => value != operand

/-- A SIGNAL's operation on a value (03 R77). -/
def signalOp (op value operand : Nat) : Nat :=
  match op % 4 with
  | 0 => (value + operand) % 2 ^ 64
  | 1 => operand
  | _ => max value operand

def opWait : Op where
  dash := fun _ => [1, 2, 3, 4, 5, 6, 7, 14]
  refs := fun _ => []
  rules := fun e => firstCode [rule (bits (e.W 3) 2 30 != 0 || bits (e.W 3) 56 8 != 0) 0x0102,
    rule (!e.s.semHere (e.W 1)) 0x010E, rule (bits (e.W 3) 0 2 == 3) 0x010F]
  ins := fun e => [(e.W 1, 8)]
  outs := fun _ => []
  run := fun _ => {}

def opSignal : Op where
  dash := fun _ => [1, 2, 3, 4, 5, 6, 7, 14]
  refs := fun _ => []
  rules := fun e => firstCode [rule (bits (e.W 3) 2 62 != 0) 0x0102,
    rule (if e.s.gHere (e.W 1) then !e.s.semHere (e.W 1) else bits (e.W 1) 40 8 != 0 || e.W 1 % 8 != 0) 0x010E,
    rule (bits (e.W 3) 0 2 == 3) 0x010F]
  ins := fun _ => []
  outs := fun e => [(e.W 1, 8)]
  run := fun _ => {}

def opFence : Op where
  dash := fun _ => [1, 2, 3, 4, 5, 6, 7, 11, 12, 14]
  refs := fun _ => []
  rules := fun e => rule (bits (e.W 3) 1 63 != 0) 0x0102
  ins := fun _ => []
  outs := fun _ => []
  run := fun _ => {}

def opNop : Op where
  dash := fun _ => [1, 2, 3, 4, 5, 6, 7, 11, 12, 13, 14]
  refs := fun _ => []
  rules := fun _ => 0
  ins := fun _ => []
  outs := fun _ => []
  run := fun _ => {}

/-- The value of a local semaphore. -/
def State.semRead (s : State) (g : Nat) : Nat := leNat (s.readBytes (gAddr g) 8)

/-- End with a status. -/
def InFlight.end_ (f : InFlight) (code : Nat) : InFlight :=
  { f with phase := .ended, status := returnable code, detail := if isSuccess code then 0 else 0xFFFFFFFF }

/-- A WAIT reads its semaphore as it starts, and waits where its condition is not met. -/
def startWait (s : State) (e : Env) (f : InFlight) : State :=
  let bad := s.mem.poisonIn (gAddr (e.W 1)) 8
  if bad != [] then (s.sawPoison bad).addFlight (f.end_ 0x0302)
  else if s.unserved [(gAddr (e.W 1), 8)] then s.drew.addFlight (f.end_ 0x0381)
  else if condMet (e.W 3) (s.semRead (e.W 1)) (e.W 2) then s.addFlight (f.end_ 0)
  else s.addFlight { f with phase := .waiting }

/-- Write failures charged to a queue, taken by the instruction that starts now (03 R82). -/
def State.takeFailed (s : State) (c : Nat) : Nat × State :=
  (((s.cs.failedWrites.find? (fun x => x.1 == c)).map (fun x => x.2)).getD 0,
   { s with cs := { s.cs with failedWrites := s.cs.failedWrites.filter (fun x => x.1 != c) } })

/-- Apply a SIGNAL's operation to a local semaphore; an add of zero writes nothing (03 R78). -/
def State.semApply (s : State) (a op operand : Nat) : State :=
  if op % 4 == 0 && operand == 0 then s
  else s.writeBytes a (leBytes 8 (signalOp op (leNat (s.readBytes a 8)) operand))

/-- A SIGNAL on a semaphore whose granule has a local copy acts on the copy (10 R257). -/
def State.signalCopy (s : State) (e : Env) (f : InFlight) : State :=
  let g := e.W 1
  let op := bits (e.W 3) 0 2
  let old := leNat ((List.range 8).map (fun i => (s.mem.copyByte (g + i)).getD 0))
  if s.mem.copyBad g && op != 1 then s.addFlight (f.end_ 0x0302)
  else if op == 0 && e.W 2 == 0 then s.addFlight (f.end_ 0)
  else ((s.copyWrite f.ctx g (leBytes 8 (signalOp op old (e.W 2)))).1).addFlight (f.end_ 0)

/-- A SIGNAL on a semaphore: one that fails leaves the eight bytes of a local semaphore undefined (03 R85). -/
def startSignal (s : State) (e : Env) (f : InFlight) : State :=
  let t := s.takeFailed f.ctx
  if t.1 != 0 then (t.2.scramble f).addFlight (f.end_ t.1)
  else if s.gHere (e.W 1) then
    let bad := s.mem.poisonIn (gAddr (e.W 1)) 8
    if bad != [] && bits (e.W 3) 0 2 != 1 then ((s.sawPoison bad).scramble f).addFlight (f.end_ 0x0302)
    else if s.unserved [(gAddr (e.W 1), 8)] then (s.scramble f).addFlight (f.end_ 0x0381)
    else (s.semApply (gAddr (e.W 1)) (e.W 3) (e.W 2)).addFlight (f.end_ 0)
  else if (s.mem.copyOf (e.W 1)).isSome then s.signalCopy e f
  else
    let code := s.unreachable (gNode (e.W 1))
    if code != 0 then s.addFlight (f.end_ code)
    else
      (s.addFlight f).request .signal f.ctx f.idx f.partition (gNode (e.W 1)) (gLocal (e.W 1)) 8
        (beBytes 1 (bits (e.W 3) 0 2) ++ beBytes 8 (e.W 2)) 0 0

def startFence (s : State) (e : Env) (f : InFlight) : State :=
  if bit (e.W 3) 0 then
    let t := s.takeFailed f.ctx
    t.2.addFlight (f.end_ t.1)
  else s.addFlight (f.end_ 0)

def startNop (s : State) (_ : Env) (f : InFlight) : State := s.addFlight (f.end_ 0)

def cellMacro (opcode : Nat) (o : Op) : Macro := { opcode := opcode, op := o, cells := fun _ => true }

/-- The rows whose work is done on operands as they start. -/
def mWait : Macro := { opcode := 0x15, op := opWait, start := some startWait }
def mSignal : Macro := { opcode := 0x16, op := opSignal, start := some startSignal }
def mFence : Macro := { opcode := 0x17, op := opFence, start := some startFence }
def mNop : Macro := { opcode := 0x1F, op := opNop, start := some startNop }

/-- A WAIT that waits, in a resident context. -/
def State.waiting? (s : State) (c idx : Nat) : Option InFlight :=
  match s.flight? c idx with
  | some f => if f.phase == .waiting && !f.stopped then some f else none
  | none => none

/-- The semaphore of a waiting WAIT is read (03 R78): the code that the WAIT ends with, none where its condition is not met. -/
def State.waitRead (s : State) (f : InFlight) : Option Nat :=
  let g := leAt f.slot 32 8
  if s.mem.poisonIn (gAddr g) 8 != [] then some 0x0302
  else if s.unserved [(gAddr g, 8)] then some 0x0381
  else if condMet (leAt f.slot 48 8) (s.semRead g) (leAt f.slot 40 8) then some 0
  else none

/-- A waiting WAIT ends with a code; an uncorrectable codeword is counted as it is read (10 R239). -/
def State.endWait (s : State) (f : InFlight) (code : Nat) : State :=
  let bad := s.mem.poisonIn (gAddr (leAt f.slot 32 8)) 8
  let s := if bad == [] then s else s.sawPoison bad
  ((if s.mem.chans.any (fun c => c.marked) then s.drew else s).setFlight f.ctx f.idx (fun f => f.end_ code)).complete f.ctx f.idx

end Sys2Proof.Machine
end

