-- ==== Sys2Proof/Machine/Intake.lean ====
section
/-! DEFINITION. Intake: INTK jobs, the tokeniser, the image pipeline and the pipes of the intake engine (14 R353 to R379, 09
R231, R232). -/

namespace Sys2Proof.Machine
open Sys2Proof

/-! ## Job blocks (14 R354, R355) -/

def intkKind (b : Bytes) : Nat := bits (leAt b 0 1) 0 4
def intkBorder (b : Bytes) : Bool := bit (leAt b 0 1) 4
def intkSlot (b : Bytes) : Nat := bits (leAt b 1 1) 0 2
def intkStep (b : Bytes) : Nat := leAt b 2 2 + 1
def intkBatch (b : Bytes) : Nat := leAt b 4 4
def intkSeed (b : Bytes) : Nat := leAt b 8 8
def intkBase (b : Bytes) : Nat := leAt b 16 6
def intkTable (b : Bytes) : Nat := leAt b 24 4
def intkOut (b : Bytes) : Nat := leAt b 28 4
def intkMask (b : Bytes) : Nat := leAt b 32 4
def intkStatus (b : Bytes) : Nat := leAt b 36 4
def intkAux (b : Bytes) : Nat := leAt b 40 4
def intkWord (b : Bytes) : Nat := leAt b 44 4
def intkWarpW (b : Bytes) : Nat := leAt b 44 2
def intkWarpH (b : Bytes) : Nat := leAt b 46 2
def intkPad (b : Bytes) : Nat := leAt b 52 4

/-- Reserved bits of a job block. -/
def intkReserved (b : Bytes) : Bool := bits (leAt b 0 1) 5 3 != 0 || bits (leAt b 1 1) 2 6 != 0 || leAt b 22 2 != 0 || leAt b 56 8 != 0

/-- A field that a Kind leaves zero is not, or an index lies beyond 2^48 (R357). -/
def intkFieldsBad (b : Bytes) : Bool :=
  let image := intkBorder b || leAt b 2 2 != 0 || intkSeed b != 0
  decide (2 < intkKind b) || decide (2 ^ 48 < intkBase b + intkBatch b) ||
    (intkKind b == 0 && image) || (intkKind b == 1 && (intkSlot b != 0 || intkPad b != 0)) ||
    (intkKind b == 2 && (image || intkBatch b != 0 || intkTable b != 0 || intkOut b != 0 || intkMask b != 0 ||
      intkStatus b != 0 || intkPad b != 0))

/-- The job block of an INTK. -/
def Env.intkBlock (e : Env) : Bytes := e.bytes (e.obj (e.S 1)) 64

/-- Pipes that a PipeMask allows (R354). -/
def State.intkPipes (s : State) (mask : Nat) : List Pipe :=
  s.intake.pipes.filter (fun p => !p.fenced && (mask % 16 == 0 || bit mask p.id))

/-! ## Checks before the start (14 R357, R358, R362, R368) -/

/-- A tensor that a field of a job block names, absent where that is allowed, breaks R66 or `form`. -/
def Env.tensorBad (e : Env) (r : Nat) (optional : Bool) (form : Desc → Bool) : Bool :=
  if r == 0 then !optional
  else !e.s.inGddr (e.obj r) 64 || e.s.checkDesc true (e.desc r) != 0 || !form (e.desc r)

/-- The tensors of a text or image job. -/
def intkTensors (b : Bytes) : List Nat :=
  [intkOut b, intkMask b, intkStatus b] ++ (if intkKind b == 0 then [intkAux b] else [])

/-- The sample table of a job. -/
def Env.intkTableRun (e : Env) (b : Bytes) : Nat × Nat := (e.obj (intkTable b), 32 * intkBatch b)

/-- Extents share a byte pairwise. -/
def anyMeet : List (List (Nat × Nat)) → Bool
  | [] => false
  | x :: l => l.any (fun y => extentsMeet x y) || anyMeet l

def Env.intkFormsBad (e : Env) (b : Bytes) : Bool :=
  let n := intkBatch b
  let out := fun (d : Desc) =>
    if intkKind b == 0 then d.fmt == fU32 && d.rank == 2 && d.dim 0 != 0 && d.dim 1 == n
    else fmtFloat d.fmt && d.rank == 5 && (!d.narrow || d.axis == 0) && d.dim 0 == 3 && d.dim 1 != 0 && d.dim 2 != 0 &&
      d.dim 3 != 0 && d.dim 4 == n && n != 0
  e.tensorBad (intkOut b) false out ||
    e.tensorBad (intkMask b) false (fun d => d.fmt == fU32 && d.rank == 1 && decide (ceilDiv n 32 ≤ d.dim 0)) ||
    e.tensorBad (intkStatus b) true (fun d => d.fmt == fU16 && d.rank == 1 && decide (n ≤ d.dim 0)) ||
    (intkKind b == 0 && e.tensorBad (intkAux b) false (fun d => d.fmt == fU32 && d.rank == 1 && decide (n ≤ d.dim 0))) ||
    anyMeet ([e.intkTableRun b] :: (intkTensors b).map (fun r => e.s.homeRuns (e.tensors [r])))

/-- FP32 value `i` of an object. -/
def f32At (o : Bytes) (i : Nat) : Num := decodeFloat 0 (leAt o (4 * i) 4)

def within (lo hi x : Num) : Bool := x.isFin && Num.le lo x && Num.le x hi

/-- The image parameters object breaks R368. -/
def paramsBad (o : Bytes) : Bool :=
  let v := f32At o
  bits (leAt o 0 4) 4 28 != 0 || leAt o 60 4 != 0 ||
    !(within Num.zero Num.one (v 1) && Num.lt Num.zero (v 1)) || !within (v 1) Num.one (v 2) ||
    !((v 3).isFin && Num.lt Num.zero (v 3)) || !((v 4).isFin && Num.le (v 3) (v 4)) ||
    !within Num.zero Num.one (v 5) || !within Num.zero Num.one (v 6) || !within Num.zero Num.one (v 7) ||
    !within Num.zero Num.one (v 8) || (List.range 6).any (fun i => !(v (9 + i)).isFin)

def Env.intkParams (e : Env) (b : Bytes) : Bytes := e.bytes (e.obj (intkAux b)) 64

def Env.intkImageBad (e : Env) (b : Bytes) : Bool :=
  let size := fun n => decide (1 ≤ n) && decide (n ≤ 16384)
  intkAux b == 0 || !e.s.inGddr (e.obj (intkAux b)) 64 || paramsBad (e.intkParams b) ||
    !size (intkWarpW b) || !size (intkWarpH b)

/-- An entry of a dictionary image breaks R361. -/
def dictEntryBad (o : Bytes) : Bool :=
  let n := leAt o 0 1
  n == 0 || decide (48 < n) || leAt o 1 15 != 0 || leNat (o.drop (16 + n)) != 0

/-- Bytes of a dictionary image. -/
def Env.dictImageBytes (e : Env) (a : Nat) : Nat := 64 + 64 * e.le a 4

/-- A dictionary image breaks R362. -/
def Env.dictImageBad (e : Env) (a : Nat) : Bool :=
  let n := e.le a 4
  let base := e.le (a + 8) 4
  !e.s.inGddr a 64 || n == 0 || decide (262144 < n) || !e.s.inGddr a (64 + 64 * n) || e.le (a + 12) 52 != 0 ||
    (base != 0xFFFFFFFF && decide (0xFFFFFFFF < base + 255)) ||
    (List.range n).any (fun i => dictEntryBad (e.bytes (a + 64 + 64 * i) 64))

def State.dictSlot (s : State) (k : Nat) : DictSlot := s.intake.dicts.getD k DictSlot.empty

def intkRules (e : Env) : Nat :=
  let b := e.intkBlock
  let a := e.obj (intkAux b)
  firstCode [rule (bits (e.W 2) 4 60 != 0 || intkReserved b) 0x0102, rule (intkFieldsBad b) 0x01C0,
    rule (intkKind b != 2 && (intkTable b == 0 || !e.s.inGddr (e.intkTableRun b).1 (e.intkTableRun b).2)) 0x0103,
    rule (intkKind b != 2 && e.intkFormsBad b) 0x01C1, rule (intkKind b == 1 && e.intkImageBad b) 0x01C2,
    rule (intkKind b == 0 && (e.s.dictSlot (intkSlot b)).tag != some (intkWord b)) 0x01C4,
    rule (intkKind b == 2 && (intkAux b == 0 || e.dictImageBad a)) 0x01C5,
    rule (e.s.intkPipes (e.W 2) == []) 0x02C0]

/-! ## Sample table entries (14 R364, R365) -/

/-- A sample table entry. -/
structure Sample where
  addr : Nat
  len : Nat
  width : Nat
  height : Nat
  frames : Nat
  fmt : Nat
  reserved : Bool
  crcEn : Bool
  crc : Nat
  geom : Nat
  deriving DecidableEq, Repr

def Sample.parse (o : Bytes) : Sample :=
  ⟨leAt o 0 8, leAt o 8 4, leAt o 12 2, leAt o 14 2, leAt o 16 2, bits (leAt o 18 1) 0 4,
    bits (leAt o 18 1) 4 4 != 0 || bits (leAt o 19 1) 1 7 != 0 || leAt o 28 4 != 0, bit (leAt o 19 1) 0, leAt o 20 4,
    leAt o 24 4⟩

def Env.sample (e : Env) (b : Bytes) (slot : Nat) : Sample := Sample.parse (e.bytes ((e.intkTableRun b).1 + 32 * slot) 32)

/-- Bytes of one frame. -/
def Sample.frameBytes (x : Sample) : Nat :=
  let n := x.width * x.height
  let c := ceilDiv x.width 2 * ceilDiv x.height 2
  match x.fmt with
  | 1 => 3 * n
  | 2 => 4 * n
  | 3 => 6 * n
  | 4 => n + 2 * c
  | _ => 2 * (n + 2 * c)

/-- The run of a sample's bytes, as its home. -/
def State.sampleRun (s : State) (x : Sample) : Nat × Nat := s.homeRun (x.addr, x.len)

/-! ## Geometry (14 R370, R371) -/

def geomLens (o : Bytes) : Bool := bit (leAt o 36 1) 0
def geomMesh (o : Bytes) : Bool := bit (leAt o 36 1) 1
def geomCols (o : Bytes) : Nat := leAt o 37 1
def geomRows (o : Bytes) : Nat := leAt o 38 1
def geomBase (o : Bytes) : Nat := leAt o 40 5
def meshBytes (o : Bytes) : Nat := 8 * (geomCols o + 1) * (geomRows o + 1)

/-- A geometry object breaks R370. -/
def Env.geomBad (e : Env) (r : Nat) : Bool :=
  let o := e.bytes (e.obj r) 64
  let v := f32At o
  !e.s.inGddr (e.obj r) 64 || bits (leAt o 36 1) 2 6 != 0 || leAt o 39 1 != 0 || leAt o 45 19 != 0 ||
    (geomLens o && ((List.range 9).any (fun i => !(v i).isFin) || !Num.lt Num.zero (v 0) || !Num.lt Num.zero (v 1))) ||
    (if geomMesh o then
      geomCols o == 0 || decide (128 < geomCols o) || geomRows o == 0 || decide (128 < geomRows o) ||
        !e.s.inGddr (geomBase o) (meshBytes o) ||
        (List.range (meshBytes o / 4)).any (fun i => !(decodeFloat 0 (e.le (geomBase o + 4 * i) 4)).isFin)
    else geomCols o != 0 || geomRows o != 0 || geomBase o != 0)

/-- Objects of a sample's geometry. -/
def Env.geomRuns (e : Env) (r : Nat) : List (Nat × Nat) :=
  if r == 0 || !e.s.inGddr (e.obj r) 64 then []
  else
    let o := e.bytes (e.obj r) 64
    (e.obj r, 64) :: (if geomMesh o && e.s.inGddr (geomBase o) (meshBytes o) then [(geomBase o, meshBytes o)] else [])

/-! ## The tokeniser (14 R363) -/

/-- Continuation bytes at the front of a string. -/
def contBytes : Bytes → Nat
  | [] => 0
  | c :: l => if c.toNat / 64 == 2 then contBytes l + 1 else 0

/-- Valid UTF-8 (RFC 3629), by fuel. -/
def utf8Ok : Nat → Bytes → Bool
  | 0, _ => false
  | _ + 1, [] => true
  | f + 1, c :: l =>
    let n := c.toNat
    let c1 := (l.headD 0).toNat
    let k := contBytes (l.take 3)
    if n < 0x80 then utf8Ok f l
    else if n < 0xC2 then false
    else if n < 0xE0 then decide (1 ≤ k) && utf8Ok f (l.drop 1)
    else if n < 0xF0 then
      decide (2 ≤ k) && (n != 0xE0 || decide (0xA0 ≤ c1)) && (n != 0xED || decide (c1 < 0xA0)) && utf8Ok f (l.drop 2)
    else if n < 0xF5 then
      decide (3 ≤ k) && (n != 0xF0 || decide (0x90 ≤ c1)) && (n != 0xF4 || decide (c1 < 0x90)) && utf8Ok f (l.drop 3)
    else false

/-- Bytes of the UTF-8 character at the front of a valid text; inside a character, those left of it. -/
def charBytes (t : Bytes) : Nat :=
  match t with
  | [] => 1
  | c :: l => if c.toNat / 64 == 2 then contBytes (c :: l) else 1 + contBytes l

/-- The longest entry that begins a text, lowest number among equals: number and length. -/
def DictSlot.find (d : DictSlot) (t : Bytes) : Option (Nat × Nat) :=
  (List.range d.entries.length).foldl (fun best i =>
    let x := d.entries.getD i []
    if x.isPrefixOf t && decide ((best.elim 0 (fun b => b.2)) < x.length) then some (i, x.length) else best) none

/-- The tokens of a text, by fuel. -/
def DictSlot.tokens (d : DictSlot) : Nat → Bytes → List Nat
  | 0, _ => []
  | _ + 1, [] => []
  | f + 1, c :: l =>
    match d.find (c :: l) with
    | some x => x.1 :: d.tokens f ((c :: l).drop x.2)
    | none =>
      if d.byteBase == 0xFFFFFFFF then d.unknown :: d.tokens f ((c :: l).drop (charBytes (c :: l)))
      else (d.byteBase + c.toNat) :: d.tokens f l

/-- An installed dictionary, from its image. -/
def Env.dictOf (e : Env) (a tag : Nat) : DictSlot :=
  ⟨some tag, e.le (a + 8) 4, e.le (a + 4) 4,
    (List.range (e.le a 4)).map (fun i => e.bytes (a + 64 + 64 * i + 16) (e.le (a + 64 + 64 * i) 1))⟩

/-! ## Augmentation (09 R231, 14 R373) -/

/-- Word `k` of an intake generator. -/
def intkDraw (seed index stream k : Nat) : Nat :=
  leAt (aesBlock (beBytes 8 seed ++ beBytes 6 index ++ beBytes 2 stream) (beBytes 16 (k / 4))) (4 * (k % 4)) 4

/-- u_k of a stage. -/
def intkU (seed index stream k : Nat) : Num := .fin false (intkDraw seed index stream k % 2 ^ 24) (-24)

def minNat (x y : Num) : Num := if Num.lt y x then y else x

/-- What an image sample's augmentation draws: CropX, CropY, CropW, CropH; flip; b, c, sat; FirstFrame. -/
structure Aug where
  cx : Num
  cy : Num
  cw : Num
  ch : Num
  flip : Bool
  bri : Num
  con : Num
  sat : Num
  first : Nat
  deriving DecidableEq, Repr

def Env.augment (e : Env) (b : Bytes) (slot frames outT : Nat) : Aug :=
  let o := e.intkParams b
  let v := f32At o
  let u := intkU (intkSeed b) (intkBase b + slot)
  let w := Num.ofNat (intkWarpW b)
  let h := Num.ofNat (intkWarpH b)
  let s := fadd (v 1) (fmul (fsub (v 2) (v 1)) (u 0 0))
  let a := fadd (v 3) (fmul (fsub (v 4) (v 3)) (u 0 1))
  let crop := bit (leAt o 0 1) 0
  let cw := if crop then minNat w (fmul w (fsqrt (fmul s a))) else w
  let ch := if crop then minNat h (fmul h (fsqrt (fdiv s a))) else h
  let jit := fun (r : Num) (k : Nat) => fadd Num.one (fmul r (fsub (fmul (.ofNat 2) (u 2 k)) Num.one))
  let span := frames - (outT - 1) * intkStep b
  ⟨if crop then fmul (fsub w cw) (u 0 2) else Num.zero, if crop then fmul (fsub h ch) (u 0 3) else Num.zero, cw, ch,
    bit (leAt o 0 1) 1 && Num.lt (u 1 0) (v 5), jit (v 6) 0, jit (v 7) 1, jit (v 8) 2,
    if bit (leAt o 0 1) 3 then min (span - 1) (floorNum (fmul (u 3 0) (.ofNat span))).toNat else 0⟩

/-! ## The image pipeline (14 R369, R371, R372) -/

/-- A decimal constant, `n` / `d`, rounded to FP32. -/
def dec (n d : Nat) : Num := fdiv (.ofNat n) (.ofNat d)

/-- Bilinear interpolation, in the form of step 4. -/
def bilinear (p00 p10 p01 p11 wx wy : Num) : Num :=
  let ux := fsub Num.one wx
  fadd (fmul (fadd (fmul p00 ux) (fmul p10 wx)) (fsub Num.one wy)) (fmul (fadd (fmul p01 ux) (fmul p11 wx)) wy)

/-- An axis of a mesh: the node below a position, and the position past it. -/
def meshAt (a : Num) (cells warp : Nat) : Nat × Num :=
  let g := fdiv (fmul a (.ofNat cells)) (.ofNat warp)
  let i := min (floorNum g).toNat (cells - 1)
  (i, fsub g (.ofNat i))

/-- Steps 1 and 2: the position of an output pixel in source pixels. -/
def Env.warp (e : Env) (b : Bytes) (x : Sample) (o : Bytes) (g : Aug) (outW outH xo yo : Nat) : Num × Num :=
  let half := dec 1 2
  let rx := fdiv (fmul (fadd (.ofNat xo) half) g.cw) (.ofNat outW)
  let ax := if g.flip then fsub (fadd g.cx g.cw) rx else fadd g.cx rx
  let ay := fadd g.cy (fdiv (fmul (fadd (.ofNat yo) half) g.ch) (.ofNat outH))
  if x.geom != 0 && geomMesh o then
    let mx := meshAt ax (geomCols o) (intkWarpW b)
    let my := meshAt ay (geomRows o) (intkWarpH b)
    let node := fun (k i j : Nat) =>
      decodeFloat 0 (e.le (geomBase o + 8 * (j * (geomCols o + 1) + i) + 4 * k) 4)
    let at_ := fun (k : Nat) =>
      bilinear (node k mx.1 my.1) (node k (mx.1 + 1) my.1) (node k mx.1 (my.1 + 1)) (node k (mx.1 + 1) (my.1 + 1)) mx.2 my.2
    (at_ 0, at_ 1)
  else
    (fdiv (fmul ax (.ofNat x.width)) (.ofNat (intkWarpW b)), fdiv (fmul ay (.ofNat x.height)) (.ofNat (intkWarpH b)))

/-- Step 3: the lens. -/
def lens (o : Bytes) (p : Num × Num) : Num × Num :=
  let v := f32At o
  let two := Num.ofNat 2
  let x := fdiv (fsub p.1 (v 2)) (v 0)
  let y := fdiv (fsub p.2 (v 3)) (v 1)
  let xx := fmul x x
  let yy := fmul y y
  let xy := fmul x y
  let r2 := fadd xx yy
  let rad := fadd (fmul (fadd (fmul (fadd (fmul (v 6) r2) (v 5)) r2) (v 4)) r2) Num.one
  let xd := fadd (fadd (fmul x rad) (fmul (fmul two (v 7)) xy)) (fmul (v 8) (fadd r2 (fmul two xx)))
  let yd := fadd (fadd (fmul y rad) (fmul (v 7) (fadd r2 (fmul two yy)))) (fmul (fmul two (v 8)) xy)
  (fadd (fmul (v 0) xd) (v 2), fadd (fmul (v 1) yd) (v 3))

/-- The addresses of a source pixel's components: (address, bytes) of each. -/
def Sample.pixelRuns (x : Sample) (f px py : Nat) : List (Nat × Nat) :=
  let base := x.addr + f * x.frameBytes
  let i := py * x.width + px
  let n := x.width * x.height
  let cw := ceilDiv x.width 2
  let c := cw * ceilDiv x.height 2
  let ci := py / 2 * cw + px / 2
  match x.fmt with
  | 1 => (List.range 3).map (fun k => (base + 3 * i + k, 1))
  | 2 => (List.range 3).map (fun k => (base + 4 * i + k, 1))
  | 3 => (List.range 3).map (fun k => (base + 6 * i + 2 * k, 2))
  | 4 => [(base + i, 1), (base + n + ci, 1), (base + n + c + ci, 1)]
  | _ => [(base + 2 * i, 2), (base + 2 * (n + ci), 2), (base + 2 * (n + c + ci), 2)]

/-- A source pixel as R, G, B (R372). -/
def Env.pixel (e : Env) (x : Sample) (f px py : Nat) : List Num :=
  let v := (x.pixelRuns f px py).map (fun r => e.le r.1 r.2)
  if x.fmt ≤ 3 then v.map (fun c => fdiv (.ofNat c) (.ofNat (if x.fmt == 3 then 65535 else 255)))
  else
    let k := if x.fmt == 4 then 1 else 4
    let at_ := fun (i : Nat) => (v.getD i 0 % (256 * k) : Nat)
    let y := fdiv (.ofInt ((at_ 0 : Int) - 16 * k)) (.ofNat (219 * k))
    let cb := fdiv (.ofInt ((at_ 1 : Int) - 128 * k)) (.ofNat (224 * k))
    let cr := fdiv (.ofInt ((at_ 2 : Int) - 128 * k)) (.ofNat (224 * k))
    [fadd y (fmul (dec 15748 10000) cr),
      fsub (fsub y (fmul (dec 1873 10000) cb)) (fmul (dec 4681 10000) cr), fadd y (fmul (dec 18556 10000) cb)]

/-- The source pixel that a coordinate reads: none outside the frame under BorderMode 0. -/
def bordered (clamp : Bool) (n : Nat) (i : Int) : Option Nat :=
  if 0 ≤ i ∧ i < n then some i.toNat else if clamp then some (if i < 0 then 0 else n - 1) else none

/-- The four source pixels of a position with its weights; none where the position is not finite. -/
def corners (clamp : Bool) (x : Sample) (p : Num × Num) : Option (List (Option (Nat × Nat)) × Num × Num) :=
  if !p.1.isFin || !p.2.isFin then none
  else
    let sx := fsub p.1 (dec 1 2)
    let sy := fsub p.2 (dec 1 2)
    let i := floorNum sx
    let j := floorNum sy
    let px := fun (di dj : Int) =>
      match bordered clamp x.width (i + di), bordered clamp x.height (j + dj) with
      | some a, some b => some (a, b)
      | _, _ => none
    some ([px 0 0, px 1 0, px 0 1, px 1 1], fsub sx (.ofInt i), fsub sy (.ofInt j))

/-- The position in source pixels that an output pixel samples (steps 1 to 3). -/
def Env.position (e : Env) (b : Bytes) (x : Sample) (g : Aug) (outW outH xo yo : Nat) : Num × Num :=
  let o := if x.geom == 0 then List.replicate 64 0 else e.bytes (e.obj x.geom) 64
  let p := e.warp b x o g outW outH xo yo
  if x.geom != 0 && geomLens o then lens o p else p

/-- Step 4: R, G, B of an output pixel before colour. -/
def Env.sampled (e : Env) (b : Bytes) (x : Sample) (f : Nat) (p : Num × Num) : List Num :=
  match corners (intkBorder b) x p with
  | none => [Num.zero, Num.zero, Num.zero]
  | some c =>
    let ps := c.1.map (fun q => match q with
      | some a => e.pixel x f a.1 a.2
      | none => [Num.zero, Num.zero, Num.zero])
    (List.range 3).map (fun k =>
      let v := fun i => (ps.getD i []).getD k Num.zero
      bilinear (v 0) (v 1) (v 2) (v 3) c.2.1 c.2.2)

/-- Step 5: the colour jitter. -/
def jitter (g : Aug) (l : List Num) : List Num :=
  let half := dec 1 2
  let m := l.map (fun y => fadd (fmul (fsub (fmul y g.bri) half) g.con) half)
  let v := fun i => m.getD i Num.zero
  let grey := fadd (fadd (fmul (dec 299 1000) (v 0)) (fmul (dec 587 1000) (v 1))) (fmul (dec 114 1000) (v 2))
  m.map (fun y => fadd grey (fmul (fsub y grey) g.sat))

/-- Step 6 up to the conversion. -/
def finishPixel (o : Bytes) (k : Nat) (y : Num) : Num :=
  let c := if Num.lt y Num.zero then Num.zero else if Num.lt Num.one y then Num.one else y
  fmul (fsub c (f32At o (9 + k))) (f32At o (12 + k))

/-- An element of an image slot's output. -/
def Env.imageValue (e : Env) (b : Bytes) (x : Sample) (g : Aug) (d : Desc) (ix : List Nat) : Num :=
  let o := e.intkParams b
  let p := e.position b x g (d.dim 1) (d.dim 2) (ix.getD 1 0) (ix.getD 2 0)
  let l := e.sampled b x (g.first + ix.getD 3 0 * intkStep b) p
  let m := if bit (leAt o 0 1) 2 then jitter g l else l
  finishPixel o (ix.getD 0 0) (m.getD (ix.getD 0 0) Num.zero)

/-- The source bytes that an image slot's output reads. -/
def Env.imageReads (e : Env) (b : Bytes) (x : Sample) (g : Aug) (d : Desc) : List (Nat × Nat) :=
  (indices [d.dim 1, d.dim 2, d.dim 3]).flatMap (fun t =>
    match corners (intkBorder b) x (e.position b x g (d.dim 1) (d.dim 2) (t.getD 0 0) (t.getD 1 0)) with
    | none => []
    | some c => c.1.flatMap (fun q => match q with
      | some a => x.pixelRuns (g.first + t.getD 2 0 * intkStep b) a.1 a.2
      | none => []))

/-! ## Checks of a sample (14 R366) -/

/-- Steps 1 to 5, before any sample byte is read. -/
def Env.sampleCheck (e : Env) (b : Bytes) (x : Sample) : Nat :=
  let text := intkKind b == 0
  let d := e.desc (intkOut b)
  let dims := fun n => decide (1 ≤ n) && decide (n ≤ 16384)
  let pieces := e.geomRuns x.geom
  firstCode [
    rule (x.reserved || decide (5 < x.fmt) || (text != (x.fmt == 0)) ||
      (text && (x.width != 0 || x.height != 0 || x.frames != 0 || x.geom != 0))) 0x06C8,
    rule (if text then decide (1048576 < x.len)
      else !dims x.width || !dims x.height || x.frames == 0 || decide (8192 < x.frames)) 0x06C0,
    rule (!text && x.len != x.frames * x.frameBytes) 0x06C2,
    rule (pieces.any (fun r => e.s.mem.poisonIn r.1 r.2 != [])) 0x06C7,
    rule (x.geom != 0 && e.geomBad x.geom) 0x06C9,
    rule (!text && decide (x.frames < (d.dim 3 - 1) * intkStep b + 1)) 0x06C5]

/-- A byte of a run is unreadable. -/
def Env.runBad (e : Env) (r : Nat × Nat) : Bool := (List.range r.2).any (fun i => e.bad (r.1 + i))

/-- The source bytes that a sample's work reads: all of them for text or for the CRC, else the pixels that its output needs. -/
def Env.sampleReads (e : Env) (b : Bytes) (slot : Nat) (x : Sample) : List (Nat × Nat) :=
  let d := e.desc (intkOut b)
  if intkKind b == 0 || x.crcEn then [(x.addr, x.len)] else e.imageReads b x (e.augment b slot x.frames (d.dim 3)) d

/-- Steps 6 to 8, with the sample's bytes at hand; `dict` is the dictionary that the job has bound. A byte on a channel that cannot serve
it is unreadable too (10 R249). -/
def Env.sampleJudge (e : Env) (b : Bytes) (dict : DictSlot) (slot : Nat) (x : Sample) : Nat :=
  let text := intkKind b == 0
  let d := e.desc (intkOut b)
  let t := if text || x.crcEn then e.bytes x.addr x.len else []
  let reads := e.sampleReads b slot x
  firstCode [rule (reads.any e.runBad || e.s.unservedRuns reads) 0x06C7, rule (x.crcEn && crc32c t != x.crc) 0x06C3,
    rule (text && !utf8Ok (t.length + 1) t) 0x06C1,
    rule (text && decide (d.dim 0 < (dict.tokens t.length t).length)) 0x06C4]

/-! ## What a slot's sample writes (14 R363, R369, R375) -/

/-- The writes of a text row. -/
def Env.textWrites (e : Env) (b : Bytes) (slot : Nat) (toks : List Nat) : List (Nat × Bytes) :=
  e.writeInts (e.desc (intkOut b)) (fun ix => if ix.getD 1 0 == slot then some (toks.getD (ix.getD 0 0) (intkPad b)) else none) ++
    e.writeInts (e.desc (intkAux b)) (fun ix => if ix.getD 0 0 == slot then some toks.length else none)

/-- The writes of a void image slot. -/
def Env.voidImage (e : Env) (b : Bytes) (slot : Nat) : List (Nat × Bytes) :=
  let mine := fun (ix : List Nat) => ix.getD 4 0 == slot
  e.tensorWrites (e.desc (intkOut b)) (fun ix => if mine ix then some 0 else none) (fun ix => if mine ix then some 0x7F else none)

/-- The writes of a valid image slot. -/
def Env.imageWrites (e : Env) (b : Bytes) (slot : Nat) (x : Sample) : List (Nat × Bytes) :=
  let d := e.desc (intkOut b)
  let c : OutConv := ⟨e.imageValue b x (e.augment b slot x.frames (d.dim 3)) d, false, 0, 2⟩
  let mine := fun (ix : List Nat) => ix.getD 4 0 == slot
  e.tensorWrites d (fun ix => if mine ix then some (e.outCode d c ix) else none)
    (fun ix => if mine ix then some (e.outScale d c ix) else none)

/-- The writes of a slot with a code, 0 where it is valid. -/
def Env.slotWrites (e : Env) (b : Bytes) (dict : DictSlot) (slot code : Nat) (x : Sample) : List (Nat × Bytes) :=
  if intkKind b == 0 then
    let t := e.bytes x.addr x.len
    e.textWrites b slot (if code == 0 then dict.tokens t.length t else [])
  else if code == 0 then e.imageWrites b slot x
  else e.voidImage b slot

/-- What a job writes at its end: the mask and, where present, the status of each slot. -/
def Env.endWrites (e : Env) (b : Bytes) (res : KV) : List (Nat × Bytes) :=
  let n := intkBatch b
  let isVoid := fun i => decide (i < n) && kvGet i 0 res != 0
  e.writeInts (e.desc (intkMask b)) (fun ix =>
      some (total ((List.range 32).map (fun k => if isVoid (32 * ix.getD 0 0 + k) then 2 ^ k else 0)))) ++
    (if intkStatus b == 0 then []
     else e.writeInts (e.desc (intkStatus b)) (fun ix =>
      let i := ix.getD 0 0
      if i < n then some (kvGet i 0 res) else none))

/-! ## Jobs and pipes (14 R353, R356, R376) -/

/-- The place that stands for a dictionary slot among extents. -/
def dictRun (slot : Nat) : Nat × Nat := (0xE000000000 + slot, 1)

def intkIns (e : Env) : List (Nat × Nat) :=
  let b := e.intkBlock
  let samples := (List.range (intkBatch b)).flatMap (fun i =>
    let x := e.sample b i
    (x.addr, x.len) :: e.geomRuns x.geom)
  if intkKind b == 2 then [(e.obj (intkAux b), e.dictImageBytes (e.obj (intkAux b))), dictRun (intkSlot b)]
  else e.intkTableRun b :: samples ++
    (if intkKind b == 0 then [dictRun (intkSlot b)] else [(e.obj (intkAux b), 64)])

def intkOuts (e : Env) : List (Nat × Nat) :=
  let b := e.intkBlock
  if intkKind b == 2 then [dictRun (intkSlot b)]
  else e.tensors (intkTensors b) ++ (if intkKind b == 0 then [dictRun (intkSlot b)] else [])

def opIntk : Op where
  dash := fun _ => [2, 3, 4, 5, 6, 7, 11, 13, 14]
  refs := fun e => [⟨e.S 1, true, .hdr 0⟩]
  rules := intkRules
  ins := intkIns
  outs := intkOuts
  run := fun _ => {}
  gate := fun e => if intkKind e.intkBlock == 0 then [dictRun (intkSlot e.intkBlock)] else []
  more := fun e =>
    let b := e.intkBlock
    if intkKind b == 2 then e.s.mem.poisonIn (e.obj (intkAux b)) (e.dictImageBytes (e.obj (intkAux b)))
    else e.objsBad (intkTensors b ++ (if intkKind b == 1 then [intkAux b] else []))

/-- The intake job of an instruction. -/
def State.intkJob (s : State) (c idx : Nat) : Option IntakeJob := s.intake.jobs.find? (fun j => j.ctx == c && j.idx == idx)

def State.setIntk (s : State) (c idx : Nat) (f : IntakeJob → IntakeJob) : State :=
  { s with intake := { s.intake with jobs := modifyWhere (fun j => j.ctx == c && j.idx == idx) f s.intake.jobs } }

def State.dropIntk (s : State) (c idx : Nat) : State :=
  { s with intake := { s.intake with jobs := s.intake.jobs.filter (fun j => j.ctx != c || j.idx != idx) } }

def State.setIntkPipe (s : State) (p : Nat) (f : Pipe → Pipe) : State :=
  { s with intake := { s.intake with pipes := modifyAt f p s.intake.pipes } }

/-- What an intake job sees. -/
def State.intkEnv (s : State) (c idx : Nat) : Option (Env × InFlight) :=
  match s.ctx? c, s.flight? c idx with
  | some x, some f => some (s.env x idx f.slot (s.arrived c idx) [], f)
  | _, _ => none

/-- What a job reads as it starts: its image parameters, or the dictionary image. -/
def Env.intkStartReads (e : Env) (b : Bytes) : List (Nat × Nat) :=
  if intkKind b == 1 then [(e.obj (intkAux b), 64)]
  else if intkKind b == 2 then [(e.obj (intkAux b), e.dictImageBytes (e.obj (intkAux b)))]
  else []

/-- Where the bytes of a job's samples stand. -/
def Env.intkSamples (e : Env) (b : Bytes) : List (Nat × Nat) :=
  (List.range (intkBatch b)).map (fun i => e.s.sampleRun (e.sample b i))

/-- An INTK that starts: an empty batch is complete at once (03 R87), any other job is listed, a text job with the dictionary that its
slot holds (14 R359). -/
def startIntk (s : State) (e : Env) (f : InFlight) : State :=
  let b := e.intkBlock
  let t := if e.s.node == 0xFFFF && (opIntk.outs e).any (fun r => !s.gHere (r.1 % 2 ^ 64)) then 0x07A0 else 0
  if t != 0 then (s.addFlight f).failInstr f.ctx f.idx t
  else if intkKind b == 0 && intkBatch b == 0 then s.addFlight (f.end_ 0)
  else if s.unservedRuns (e.intkStartReads b ++ (if intkKind b == 2 then [] else e.intkTableRun b :: e.tensors (intkTensors b))) then
    (s.addFlight f).failInstr f.ctx f.idx 0x0381
  else
    let s := (s.readRuns (e.intkStartReads b)).addFlight f
    { s with intake := { s.intake with
        jobs := s.intake.jobs ++ [⟨f.ctx, f.idx, b, s.dictSlot (intkSlot b), e.intkSamples b, 0, [], [], []⟩] } }

def mIntkText : Macro := { opcode := 0x1B, op := opIntk, mine := fun e => intkKind e.intkBlock != 1 && intkKind e.intkBlock != 2,
                           start := some startIntk }
def mIntkImage : Macro := { opcode := 0x1B, op := opIntk, mine := fun e => intkKind e.intkBlock == 1, start := some startIntk }
def mIntkInstall : Macro := { opcode := 0x1B, op := opIntk, mine := fun e => intkKind e.intkBlock == 2, start := some startIntk }

/-- A job whose slots are all finished writes its mask and status, and its record is owed. -/
def State.intkEnd (s : State) (c idx : Nat) : State :=
  match s.intkJob c idx, s.intkEnv c idx with
  | some j, some (e, f) =>
    if intkBatch j.block ≤ j.results.length then
      let s := (e.endWrites j.block j.results).foldl (fun s w => s.writeGlobal c idx f.partition w) s
      (s.dropIntk c idx).setFlight c idx (fun f => f.end_ (if j.results.any (fun r => r.2 != 0) then 0x00C0 else 0))
    else s
  | _, _ => s

/-- Tokens or pixels of a valid slot, counted; tokens of undefined contents are any number that the row holds. -/
def State.countSlot (s : State) (e : Env) (j : IntakeJob) (slot : Nat) (x : Sample) : State :=
  let d := e.desc (intkOut j.block)
  let t := e.bytes x.addr x.len
  if intkKind j.block == 0 then
    s.bump 0x31E0 5 (if j.spoiled.contains slot then s.free (2 ^ 89) % (d.dim 0 + 1) else (j.dict.tokens t.length t).length)
  else s.bump 0x31E0 6 (d.dim 1 * d.dim 2 * d.dim 3)

/-- What a slot's sample writes: undefined bytes in a valid slot whose sample bytes were written meanwhile (14 R376). -/
def State.slotResults (s : State) (e : Env) (j : IntakeJob) (slot code : Nat) (x : Sample) : List (Nat × Bytes) :=
  let l := e.slotWrites j.block j.dict slot code x
  if code == 0 && j.spoiled.contains slot then l.map (fun w => (w.1, s.freeBytes (2 ^ 81 + w.1) w.2.length)) else l

/-- A pipe finishes a slot with a code: its bytes are written, the pipe is free, and the job may end. -/
def State.slotDone (s : State) (pipe c idx slot code : Nat) : State :=
  match s.intkJob c idx, s.intkEnv c idx with
  | some j, some (e, f) =>
    let x := e.sample j.block slot
    let s := if code == 0 then ((s.readRuns (e.sampleReads j.block slot x)).countSlot e j slot x).bump 0x31E0 2 1
      else s.bump 0x31E0 3 1
    let bad := s.badLocal (x.addr, x.len)
    let s := if code == 0x06C7 && bad != [] then s.sawPoison bad.eraseDups else s
    let s := (s.slotResults e j slot code x).foldl (fun s w => s.writeGlobal c idx f.partition w) s
    let s := (s.dropReqs (fun r => r.ctx == c && r.idx == idx && r.kind == .read && r.seq == slot + 1)).setIntkPipe pipe
      (fun p => { p with job := none })
    (s.setIntk c idx (fun j => { j with results := kvSet slot code j.results })).intkEnd c idx
  | _, _ => s

/-- The place of a slot's lookup structure in the system reserve (14 R359). Where it lies and how long it is are not given: an opaque offset,
and the length of the longest image (DESIGN CHOICE). -/
def State.dictPlace (s : State) (slot : Nat) : Nat × Nat :=
  (s.mem.reserveBase + Config.dictTable.toNat % (4 * 2 ^ 30 - 2 ^ 27) + slot * 2 ^ 25, 64 + 64 * 262144)

/-- An installed dictionary cannot be read (14 R376): its slot is emptied, and the text job fails with 0x03C0. -/
def State.dictLost (s : State) (j : IntakeJob) : State :=
  let k := intkSlot j.block
  let at_ := s.dictPlace k
  let s := s.sawPoison (s.mem.poisonIn at_.1 at_.2)
  let s : State := { s with intake := { s.intake with
    dicts := modifyAt (fun _ => DictSlot.empty) k s.intake.dicts
    pipes := s.intake.pipes.map (fun p => if p.job.any (fun w => w.1 == j.ctx && w.2.1 == j.idx) then { p with job := none } else p) } }
  (s.dropIntk j.ctx j.idx).failInstr j.ctx j.idx 0x03C0

/-- A sample has been judged. A text whose tokens were sought has read its dictionary. -/
def State.slotJudged (s : State) (pipe : Nat) (j : IntakeJob) (slot code : Nat) : State :=
  let at_ := s.dictPlace (intkSlot j.block)
  if intkKind j.block == 0 && (code == 0 || code == 0x06C4) && s.mem.poisonIn at_.1 at_.2 != [] then s.dictLost j
  else s.slotDone pipe j.ctx j.idx slot code

/-- The next slot of a job. -/
def IntakeJob.slot (j : IntakeJob) : Option Nat :=
  match j.again with
  | k :: _ => some k
  | [] => if j.next < intkBatch j.block then some j.next else none

/-- The job's next slot has been taken. -/
def IntakeJob.advance (j : IntakeJob) : IntakeJob :=
  match j.again with
  | _ :: l => { j with again := l }
  | [] => { j with next := j.next + 1 }

/-- The job whose sample a pipe takes next: of the highest Priority, the one that started first (11 R285). -/
def State.intkNext (s : State) (pipe : Nat) : Option IntakeJob :=
  let can := s.intake.jobs.filter (fun j => intkKind j.block != 2 && j.slot.isSome &&
    (match s.flight? j.ctx j.idx with
     | some f => !f.stopped && (s.intkPipes (leAt f.slot 40 8)).any (fun p => p.id == pipe)
     | none => false))
  let prio := fun (j : IntakeJob) => (s.ctx? j.ctx).elim 0 (fun x => x.priority)
  can.find? (fun j => can.all (fun k => decide (prio k ≤ prio j)))

/-- A pipe takes a sample: it is checked and voided, or its bytes are asked for (14 R366). -/
def State.takeSample (s : State) (pipe : Nat) : State :=
  match s.intake.pipes[pipe]? with
  | none => s
  | some p =>
    if p.fenced || p.job.isSome || s.board.phase != .serving then s
    else
      match s.intkNext pipe with
      | none => s
      | some j =>
        match j.slot, s.intkEnv j.ctx j.idx with
        | some slot, some (e, f) =>
          let x := e.sample j.block slot
          let row := ((e.intkTableRun j.block).1 + 32 * slot, 32)
          let far := !s.gHere (x.addr % 2 ^ 64)
          let code := if s.mem.poisonIn row.1 row.2 != [] then 0x06C7 else e.sampleCheck j.block x
          let s := (((s.readRuns [row]).setIntk j.ctx j.idx IntakeJob.advance).bump 0x31E0 1 1).setIntkPipe pipe
            (fun p => { p with job := some (j.ctx, j.idx, slot) })
          if code != 0 then s.slotDone pipe j.ctx j.idx slot code
          else if far then
            let run := s.sampleRun x
            if x.len == 0 then s
            else if s.unreachable (gNode x.addr) != 0 then s.slotDone pipe j.ctx j.idx slot 0x06C7
            else s.request .read f.ctx f.idx f.partition (gNode run.1) (gLocal run.1) run.2 [] 0 (slot + 1)
          else
            let judged := e.sampleJudge j.block j.dict slot x
            if judged != 0 then s.slotJudged pipe j slot judged else s
        | _, _ => s

/-- The reads of a sample have all been answered. -/
def State.sampleHere (s : State) (c idx slot : Nat) : Bool :=
  !s.cs.reqs.any (fun r => r.ctx == c && r.idx == idx && r.kind == .read && r.seq == slot + 1 && !r.answered)

/-- A read of a sample's bytes has failed: its slot is void (14 R366 step 7). -/
def State.sampleLost (s : State) (c idx slot : Nat) : State :=
  match s.intake.pipes.find? (fun p => p.job == some (c, idx, slot)) with
  | some p => s.slotDone p.id c idx slot 0x06C7
  | none => s

/-- A pipe leaves its sample, which a pipe takes again: another one where this one was fenced, which is counted where one is left; where
none is, the job fails (14 R376, R379). -/
def State.restartSample (s : State) (pipe : Nat) : State :=
  match (s.intake.pipes.getD pipe (Pipe.init pipe)).job with
  | none => s
  | some (c, idx, slot) =>
    let again := (s.intake.pipes.getD pipe (Pipe.init pipe)).fenced &&
      (s.flight? c idx).any (fun f => s.intkPipes (leAt f.slot 40 8) != [])
    let s := (s.dropReqs (fun r => r.ctx == c && r.idx == idx && r.kind == .read && r.seq == slot + 1)).setIntkPipe pipe
      (fun p => { p with job := none })
    (s.setIntk c idx (fun j => { j with again := insertNat slot j.again })).bump 0x31E0 8 (if again then 1 else 0)

/-- Jobs that no pipe may run any more fail (14 R376, R378). -/
def State.intkStarved (s : State) : State :=
  (s.intake.jobs.filter (fun j => match s.flight? j.ctx j.idx with
    | some f => s.intkPipes (leAt f.slot 40 8) == []
    | none => false)).foldl (fun s j => (s.dropIntk j.ctx j.idx).failInstr j.ctx j.idx 0x02C1) s

/-! ## Meanings -/

/-- INTK_TEXT (14 R353 to R367, R375, R376). A block of a reserved Kind is rejected by this row too. -/
def execIntkText (c idx : Nat) (s : State) : Out := .next (s.startMacro mIntkText c idx)

/-- INTK_IMAGE (14 R364 to R376). -/
def execIntkImage (c idx : Nat) (s : State) : Out := .next (s.startMacro mIntkImage c idx)

/-- INTK_INSTALL (14 R359 to R362). -/
def execIntkInstall (c idx : Nat) (s : State) : Out := .next (s.startMacro mIntkInstall c idx)

/-- SAMPLE_TAKE (14 R353, R366). -/
def execSampleTake (pipe : Nat) (s : State) : Out := .next (s.takeSample pipe)

/-- SAMPLE_COMPLETE (14 R363, R366, R369): the slot is written, or voided by a check of its bytes, and the pipe takes the next
sample. -/
def execSampleComplete (pipe : Nat) (s : State) : Out :=
  .next (match (s.intake.pipes.getD pipe (Pipe.init pipe)).job with
    | none => s
    | some (c, idx, slot) =>
      if !s.sampleHere c idx slot then s
      else
        match s.intkJob c idx, s.intkEnv c idx with
        | some j, some (e, _) =>
          (s.slotJudged pipe j slot (e.sampleJudge j.block j.dict slot (e.sample j.block slot))).takeSample pipe
        | _, _ => s)

/-- SAMPLE_BUDGET_EXPIRY (14 R367). -/
def execSampleBudgetExpiry (pipe : Nat) (s : State) : Out :=
  .next (match (s.intake.pipes.getD pipe (Pipe.init pipe)).job with
    | none => s
    | some (c, idx, slot) => ((s.bump 0x31E0 4 1).slotDone pipe c idx slot 0x06C6).takeSample pipe)

/-- DICT_REPLACE (14 R359): the oldest install into the slot takes effect once no running text job uses the slot. -/
def execDictReplace (slot : Nat) (s : State) : Out :=
  .next (
    let mine := s.intake.jobs.filter (fun j => intkSlot j.block == slot)
    if mine.any (fun j => intkKind j.block == 0) then s
    else
      match mine.find? (fun j => intkKind j.block == 2 && (s.flight? j.ctx j.idx).any (fun f => !f.stopped)) with
      | none => s
      | some j =>
        match s.intkEnv j.ctx j.idx with
        | none => s
        | some (e, _) =>
          let d := e.dictOf (e.obj (intkAux j.block)) (intkWord j.block)
          let at_ := s.dictPlace slot
          -- the structure is written anew, so that no unit of its place is poison any longer
          let s : State := { s with
            mem := { s.mem with poison := s.mem.poison.filter (fun u => !(s.mem.poisonIn at_.1 at_.2).contains u) }
            intake := { s.intake with dicts := modifyAt (fun _ => d) slot s.intake.dicts } }
          ((s.dropIntk j.ctx j.idx).setFlight j.ctx j.idx (fun f => f.end_ 0)).bump 0x31E0 7 1)

end Sys2Proof.Machine
end

