-- ==== Sys2Proof/Machine/Codec.lean ====
section
/-! DEFINITION. Codec: CODEC jobs, stream contexts, frame buffer slots and the pipes of the codec complex (15 R380 to R406). The
HEVC and AV1 processes themselves are constants of Config. -/

namespace Sys2Proof.Machine
open Sys2Proof

/-! ## Job blocks and parameters (15 R387 to R389) -/

def cdcKind (b : Bytes) : Nat := bits (leAt b 0 1) 0 4
def cdcForce (b : Bytes) : Bool := bit (leAt b 0 1) 4
def cdcGrey (b : Bytes) : Bool := bit (leAt b 0 1) 5
def cdcStream (b : Bytes) : Nat := leAt b 1 1
def cdcParam (b : Bytes) : Nat := leAt b 8 4
def cdcPixel (b : Bytes) : Nat := leAt b 12 4
def cdcBit (b : Bytes) : Nat := leAt b 16 4
def cdcStatus (b : Bytes) : Nat := leAt b 20 4
def cdcResult (b : Bytes) : Nat := leAt b 24 4
def cdcReserved (b : Bytes) : Bool := bits (leAt b 0 1) 6 2 != 0 || leAt b 2 6 != 0 || leAt b 28 36 != 0

def prmAv1 (p : Bytes) : Bool := bits (leAt p 0 1) 0 2 == 1
def prmDepth (p : Bytes) : Nat := if bit (leAt p 0 1) 2 then 10 else 8
def prmSlots (p : Bytes) : Nat := bits (leAt p 0 1) 3 5
def prmLevel (p : Bytes) : Nat := leAt p 1 1
def prmW (p : Bytes) : Nat := leAt p 2 2
def prmH (p : Bytes) : Nat := leAt p 4 2
def prmGop (p : Bytes) : Nat := leAt p 6 2
def prmMode (p : Bytes) : Nat := bits (leAt p 8 1) 0 2
def prmB (p : Bytes) : Nat := bits (leAt p 8 1) 2 2
def prmBase (p : Bytes) : Nat := leAt p 34 5

/-- Bytes of a frame buffer slot (R384). -/
def prmSlotBytes (p : Bytes) : Nat :=
  let w := 64 * ceilDiv (prmW p) 64
  let h := 64 * ceilDiv (prmH p) 64
  roundUp (w * h * 3 * (if prmDepth p == 10 then 2 else 1) / 2 + w / 64 * (h / 64) * 1024) 4096

/-- The reference area of a stream. -/
def prmArea (p : Bytes) : Nat × Nat := (prmBase p, prmSlots p * prmSlotBytes p)

/-- Parameters that R380, R389 and R390 forbid, for an encoder or a decoder. -/
def paramsIllegal (enc : Bool) (p : Bytes) (windowBytes : Nat) : Bool :=
  let av1 := prmAv1 p
  let top := if av1 then 255 else 51
  let size := fun n => decide (64 ≤ n) && decide (n ≤ 4096) && n % 2 == 0
  let rated := prmMode p != 0
  let vbr := prmMode p == 2
  decide (1 < bits (leAt p 0 1) 0 2) || decide (prmSlots p < 2) || decide (17 < prmSlots p) ||
    !Config.levelFits p || prmBase p % 4096 != 0 || decide (windowBytes < (prmArea p).1 + (prmArea p).2) ||
    (if enc then
      !size (prmW p) || !size (prmH p) || decide (8912896 < prmW p * prmH p) ||
        decide ((if av1 then 15 else 156) < prmLevel p) || prmMode p == 3 ||
        (List.range 5).any (fun i => decide (top < leAt p (9 + i) 1)) || decide (leAt p 13 1 < leAt p 12 1) ||
        (rated && (leAt p 14 4 == 0 || leAt p 22 4 == 0)) || (vbr && decide (leAt p 18 4 < leAt p 14 4)) ||
        leAt p 26 4 == 0 || leAt p 30 4 == 0 || decide (prmSlots p < prmB p + 3)
    else
      prmW p == 0 || prmH p == 0 || decide (8192 < prmW p) || decide (8192 < prmH p) ||
        decide ((if av1 then 19 else 186) < prmLevel p) || prmGop p != 0 || bits (leAt p 8 1) 0 4 != 0 || leAt p 9 25 != 0 ||
        (av1 && decide (prmSlots p < 9)))

/-- Reserved bits of a parameters object. -/
def prmReserved (p : Bytes) : Bool := bits (leAt p 8 1) 4 4 != 0 || leAt p 39 25 != 0

/-! ## Streams and slots (15 R383 to R385) -/

def State.stream? (s : State) (i : Nat) : Option Codec := s.codec.streams.find? (fun x => x.id == i)

def State.setStream (s : State) (i : Nat) (f : Codec → Codec) : State :=
  { s with codec := { s.codec with streams := modifyWhere (fun x => x.id == i) f s.codec.streams } }

/-- Marks of a frame buffer slot (R385). -/
inductive Mark where
  | free | current | reference | held
  deriving DecidableEq, Repr

/-- The mark of a slot of a stream. -/
def Codec.mark (x : Codec) (i : Nat) : Mark :=
  if x.current == some i then .current
  else if bit x.refs i then .reference
  else if x.held.any (fun f => f.slot == i) then .held
  else .free

def Codec.slotCount (x : Codec) : Nat := prmSlots x.params

/-- Slots of a stream that are not Free. -/
def Codec.slotsUsed (x : Codec) : Nat := ((List.range x.slotCount).filter (fun i => x.mark i != .free)).length

/-- The lowest Free slot of a stream. -/
def Codec.freeSlot (x : Codec) : Option Nat := (List.range x.slotCount).find? (fun i => x.mark i == .free)

/-- Pool slots bound to streams. -/
def State.poolBound (s : State) : Nat := total (s.codec.streams.map (fun x => x.slotCount))

/-- A stream becomes Errored: what it held is lost. -/
def Codec.err (x : Codec) : Codec := { x with st := .errored, current := none, held := [], due := 0 }

/-- Samples of a frame in YUV 4:2:0. -/
def yuvCount (w h : Nat) : Nat := w * h + 2 * (ceilDiv w 2 * ceilDiv h 2)

/-! ## Checks (15 R390, R391) -/

def Env.cdcBlock (e : Env) : Bytes := e.bytes (e.obj (e.S 1)) 64
def Env.cdcParams (e : Env) (b : Bytes) : Bytes := e.bytes (e.obj (cdcParam b)) 64

/-- Pipes of the complex that a PipeMask allows (R387). -/
def State.cdcPipes (s : State) (mask : Nat) : List Pipe :=
  s.codec.pipes.filter (fun p => !p.fenced && (mask % 16 == 0 || bit mask p.id))

/-- The job encodes: an encode, or the close of an encoder. -/
def cdcEncodes (b : Bytes) (x : Option Codec) : Bool := cdcKind b == 2 || (cdcKind b == 4 && (x.elim false (fun x => x.encoder)))

/-- Fields of the block that its Kind leaves zero are not, or a required reference is absent (R388). -/
def cdcFieldsBad (b : Bytes) (x : Option Codec) : Bool :=
  let k := cdcKind b
  let opens := decide (k < 2)
  let closeEnc := k == 4 && x.elim false (fun x => x.encoder)
  let closeDec := k == 4 && x.elim false (fun x => !x.encoder)
  decide (4 < k) || (k != 2 && cdcForce b) || (k != 3 && cdcGrey b) || (!opens && cdcParam b != 0) ||
    ((opens || closeEnc) && cdcPixel b != 0) || ((opens || closeDec) && cdcBit b != 0) || (!opens && cdcResult b == 0)

/-- The stream is in the wrong state or direction, or not of this context. -/
def cdcStreamBad (b : Bytes) (x : Option Codec) (ctx : Nat) : Bool :=
  match x with
  | none => decide (2 ≤ cdcKind b)
  | some x =>
    if cdcKind b < 2 then true
    else x.ctx != ctx || (cdcKind b != 4 && (x.st != .opened || x.encoder != (cdcKind b == 2)))

/-- A pixel operand breaks R391. -/
def pixelForm (p : Bytes) (d : Desc) (encode counted : Bool) : Bool :=
  let n := yuvCount (prmW p) (prmH p)
  if d.rank == 5 then
    fmtFloat d.fmt && (!d.narrow || d.axis == 0) && d.dim 0 == 3 && d.dim 4 == 1 && (!counted || d.dim 3 != 0) &&
      d.dim 1 != 0 && d.dim 2 != 0 && (!encode || (d.dim 1 == prmW p && d.dim 2 == prmH p))
  else
    d.rank == 1 && d.fmt == (if prmDepth p == 10 then fU16 else fU8) && n != 0 && d.dim 0 % n == 0 && (!counted || d.dim 0 != 0)

/-- Frame slots of a pixel operand. -/
def pixelFrames (p : Bytes) (d : Desc) : Nat := if d.rank == 5 then d.dim 3 else d.dim 0 / yuvCount (prmW p) (prmH p)

def Env.cdcOperandBad (e : Env) (r : Nat) (out : Bool) (form : Desc → Bool) : Bool :=
  r == 0 || !e.s.inGddr (e.obj r) 64 || e.s.checkDesc out (e.desc r) != 0 || !form (e.desc r)

/-- The extents of a job that may not overlap. -/
def Env.cdcExtents (e : Env) (b : Bytes) (p : Bytes) : List (List (Nat × Nat)) :=
  let t := fun r => if r == 0 then [] else e.s.homeRuns (e.desc r).extent
  [t (cdcPixel b), t (cdcBit b), t (cdcStatus b), if cdcResult b == 0 then [] else [(e.obj (cdcResult b), 64)], [prmArea p]]

def Env.cdcOperandsBad (e : Env) (b : Bytes) (x : Codec) : Bool :=
  let k := cdcKind b
  let enc := cdcEncodes b (some x)
  let p := x.params
  let frames := pixelFrames p (e.desc (cdcPixel b))
  let usesStatus := k == 2 || k == 3
  ((k == 2 || k == 3 || !x.encoder) &&
      e.cdcOperandBad (cdcPixel b) (k != 2) (fun d => pixelForm p d (k == 2) (k != 4))) ||
    ((k == 2 || k == 3 || x.encoder) && e.cdcOperandBad (cdcBit b) enc (fun d => d.fmt == fU8 && d.rank == 1)) ||
    (usesStatus && cdcStatus b != 0 && e.cdcOperandBad (cdcStatus b) true (fun d =>
      d.fmt == (if k == 2 then fU32 else fU16) && d.rank == 1 && decide (frames ≤ d.dim 0))) ||
    !e.s.inGddr (e.obj (cdcResult b)) 64 || anyMeet (e.cdcExtents b p)

def cdcRules (e : Env) : Nat :=
  let b := e.cdcBlock
  let x := e.s.stream? (cdcStream b)
  let p := e.cdcParams b
  let opens := decide (cdcKind b < 2)
  let held := cdcParam b != 0 && e.s.inGddr (e.obj (cdcParam b)) 64
  firstCode [rule (bits (e.W 2) 4 60 != 0 || cdcReserved b || (opens && held && prmReserved p)) 0x0102,
    rule (cdcFieldsBad b x) 0x01D0,
    rule (opens && (!held || paramsIllegal (cdcKind b == 0) p e.s.mem.windowBytes)) 0x01D1,
    rule (cdcStreamBad b x e.ctx) 0x01D2,
    rule (!opens && x.elim false (fun x => e.cdcOperandsBad b x)) 0x01D3,
    rule (opens && decide (256 < e.s.poolBound + prmSlots p)) 0x02D0,
    rule (e.s.cdcPipes (e.W 2) == []) 0x02D2]

/-! ## Extents (15 R393) -/

/-- The place that stands for a stream among extents. -/
def streamRun (i : Nat) : Nat × Nat := (0xE100000000 + i, 1)

def cdcIns (e : Env) : List (Nat × Nat) :=
  let b := e.cdcBlock
  (if cdcKind b == 2 then e.tensors [cdcPixel b] else if cdcKind b == 3 then e.tensors [cdcBit b] else []) ++
    (if cdcKind b < 2 then [(e.obj (cdcParam b), 64)] else [])

def cdcOuts (e : Env) : List (Nat × Nat) :=
  let b := e.cdcBlock
  let x := e.s.stream? (cdcStream b)
  let area := if cdcKind b < 2 then prmArea (e.cdcParams b) else x.elim (0, 0) (fun x => prmArea x.params)
  (if cdcKind b < 2 then []
   else (if cdcKind b == 2 then e.tensors [cdcBit b] else if cdcKind b == 3 then e.tensors [cdcPixel b]
     else e.tensors [cdcPixel b, cdcBit b]) ++
    (if cdcKind b == 4 then [] else e.tensors [cdcStatus b]) ++ [(e.obj (cdcResult b), 64)]) ++ [area, streamRun (cdcStream b)]

def opCodec : Op where
  dash := fun _ => [2, 3, 4, 5, 6, 7, 11, 13, 14]
  refs := fun e => [⟨e.S 1, true, .hdr 0⟩]
  rules := cdcRules
  ins := cdcIns
  outs := cdcOuts
  run := fun _ => {}
  more := fun e =>
    let b := e.cdcBlock
    e.objsBad (if cdcKind b < 2 then [cdcParam b] else [cdcPixel b, cdcBit b, cdcStatus b])

/-! ## Pixels (15 R394, R398, 14 R372) -/

/-- R, G, B clamped as the encoder takes them. -/
def clampRgb (x : Num) : Num :=
  if x.isNan then Num.zero else if Num.lt x Num.zero then Num.zero else if Num.lt Num.one x then Num.one else x

/-- Y′, Cb′ and Cr′ of a pixel. -/
def toYuv (r g b : Num) : Num × Num × Num :=
  let y := fadd (fadd (fmul (dec 2126 10000) r) (fmul (dec 7152 10000) g)) (fmul (dec 722 10000) b)
  (y, fdiv (fsub b y) (dec 18556 10000), fdiv (fsub r y) (dec 15748 10000))

/-- A value rounded to an integer by RNE and clamped to `n` bits. -/
def toCode (n : Nat) (x : Num) : Nat :=
  let lo := floorNum x
  let part := x.sub (.ofInt lo)
  let half := Num.fin false 1 (-1)
  let v := if Num.lt half part || (Num.eqv half part && lo % 2 != 0) then lo + 1 else lo
  min (2 ^ n - 1) v.toNat

/-- The codes of input frame `f` of an encode. -/
def Env.inputFrame (e : Env) (p : Bytes) (d : Desc) (f : Nat) : List Nat :=
  let w := prmW p
  let h := prmH p
  let n := prmDepth p
  if d.rank != 5 then (List.range (yuvCount w h)).map (fun i => e.uint d [f * yuvCount w h + i])
  else
    let k := 2 ^ (n - 8)
    let at_ := fun (x y : Nat) =>
      let c := fun i => clampRgb (e.value d [i, min x (w - 1), min y (h - 1), f, 0])
      toYuv (c 0) (c 1) (c 2)
    let luma := (indices [w, h]).map (fun t =>
      toCode n (fadd (.ofNat (16 * k)) (fmul (.ofNat (219 * k)) (at_ (t.getD 0 0) (t.getD 1 0)).1)))
    let chroma := fun (pick : Num × Num × Num → Num) => (indices [ceilDiv w 2, ceilDiv h 2]).map (fun t =>
      let x := 2 * t.getD 0 0
      let y := 2 * t.getD 1 0
      let v := fun i j => pick (at_ (x + i) (y + j))
      let a := fmul (fadd (fadd (v 0 0) (v 1 0)) (fadd (v 0 1) (v 1 1))) (dec 1 4)
      toCode n (fadd (.ofNat (128 * k)) (fmul (.ofNat (224 * k)) a)))
    luma ++ chroma (fun t => t.2.1) ++ chroma (fun t => t.2.2)

/-- Codes as bytes, two each. -/
def codeBytes (l : List Nat) : Bytes := l.flatMap (fun v => leBytes 2 v)

/-- A frame's pixel as R, G, B (14 R372). -/
def Frame.rgb (g : Frame) (n x y c : Nat) : Num :=
  let k : Nat := 2 ^ (n - 8)
  let cw := ceilDiv g.width 2
  let ci := y / 2 * cw + x / 2
  let v := fun i => (g.codes.getD i 0 : Nat)
  let part := fun (i off range : Nat) => fdiv (.ofInt ((v i : Int) - (off * k : Nat))) (.ofNat (range * k))
  let luma := part (y * g.width + x) 16 219
  let chroma := fun i => part i 128 224
  let cb := chroma (g.width * g.height + ci)
  let cr := chroma (g.width * g.height + cw * ceilDiv g.height 2 + ci)
  if c == 0 then fadd luma (fmul (dec 15748 10000) cr)
  else if c == 1 then fsub (fsub luma (fmul (dec 1873 10000) cb)) (fmul (dec 4681 10000) cr)
  else fadd luma (fmul (dec 18556 10000) cb)

/-- The writes of an output frame at place `f` of a pixel operand. -/
def Env.frameWrites (e : Env) (p : Bytes) (d : Desc) (f : Nat) (g : Frame) : List (Nat × Bytes) :=
  if d.rank != 5 then
    let n := yuvCount (prmW p) (prmH p)
    let w := fmtBits d.fmt / 8
    [(d.base + f * n * w, (List.range n).flatMap (fun i => leBytes w (g.codes.getD i 0)))]
  else
    let c : OutConv := ⟨fun ix => g.rgb (prmDepth p) (ix.getD 1 0) (ix.getD 2 0) (ix.getD 0 0), false, 0, 2⟩
    let mine := fun (ix : List Nat) => ix.getD 3 0 == f
    e.tensorWrites d (fun ix => if mine ix then some (e.outCode d c ix) else none)
      (fun ix => if mine ix then some (e.outScale d c ix) else none)

/-- A frame has the size that a pixel operand takes. -/
def pixelFits (p : Bytes) (d : Desc) (g : Frame) : Bool :=
  if d.rank == 5 then g.width == d.dim 1 && g.height == d.dim 2 else g.width == prmW p && g.height == prmH p

/-! ## Jobs -/

def State.cdcJob (s : State) (c idx : Nat) : Option CodecJob := s.codec.jobs.find? (fun j => j.ctx == c && j.idx == idx)

def State.setCdc (s : State) (c idx : Nat) (f : CodecJob → CodecJob) : State :=
  { s with codec := { s.codec with jobs := modifyWhere (fun j => j.ctx == c && j.idx == idx) f s.codec.jobs } }

def State.dropCdc (s : State) (c idx : Nat) : State :=
  { s with codec := { s.codec with jobs := s.codec.jobs.filter (fun j => j.ctx != c || j.idx != idx) } }

def State.setCdcPipe (s : State) (p : Nat) (f : Pipe → Pipe) : State :=
  { s with codec := { s.codec with pipes := modifyAt f p s.codec.pipes } }

/-- What a codec job sees. -/
def State.cdcEnv (s : State) (c idx : Nat) : Option (Env × InFlight) :=
  match s.ctx? c, s.flight? c idx with
  | some x, some f => some (s.env x idx f.slot (s.arrived c idx) [], f)
  | _, _ => none

/-- A pipe leaves its frame. -/
def State.idleCdc (s : State) (c idx : Nat) : State :=
  { s with codec := { s.codec with pipes := s.codec.pipes.map (fun p => match p.job with
      | some j => if j.1 == c && j.2.1 == idx then { p with job := none } else p
      | none => p) } }

/-- A job fails after its start: its stream is Errored (R402, R404). -/
def State.failCdc (s : State) (j : CodecJob) (code : Nat) : State :=
  (((s.dropCdc j.ctx j.idx).idleCdc j.ctx j.idx).setStream (cdcStream j.block) Codec.err).failInstr j.ctx j.idx code

/-- The result record (R392). -/
def CodecJob.record (j : CodecJob) (held : Nat) : Bytes :=
  leBytes 8 j.bitBytes ++ leBytes 4 j.framesDone ++ leBytes 4 held ++ leBytes 4 j.damaged ++ leBytes 4 j.skipped ++ leBytes 40 0

/-- A job ends: its result record is written, and its record is owed. A close that came to its end frees the stream. -/
def State.endCdc (s : State) (c idx : Nat) (closed : Bool) : State :=
  match s.cdcJob c idx, s.cdcEnv c idx with
  | some j, some (e, f) =>
    let i := cdcStream j.block
    let held := (s.stream? i).elim 0 (fun x => x.held.length)
    let s := s.writeGlobal c idx f.partition (e.obj (cdcResult j.block), j.record held)
    let notes := j.notes ++ (if j.damaged != 0 then [0x00D0] else []) ++ (if j.skipped != 0 then [0x00D1] else [])
    let s := ((s.dropCdc c idx).idleCdc c idx).setFlight c idx (fun f => f.end_ (topNote notes))
    if closed then { s with codec := { s.codec with streams := s.codec.streams.filter (fun x => x.id != i) } } else s
  | _, _ => s

/-! ## Encoding (15 R394 to R397) -/

/-- Masks of slots limited to `n` slots out of a list. -/
def maskOf (l : List Nat) : Nat := total (l.eraseDups.map (fun i => 2 ^ i))

/-- The slots that a stream keeps for prediction after a frame: among those kept before and the new one, at most `room`. -/
def keptRefs (x : Codec) (new room : Nat) (st : Nat) : Nat :=
  maskOf (((List.range x.slotCount).filter (fun i => (bit x.refs i || i == new) && bit (Config.codecRefs st) i)).take room)

/-- Coded frames of a list of frames, each with the codec's state after it. -/
def encodeFrames (p : Bytes) : Nat → List (Bool × List Nat) → List Bytes × Nat × Bool
  | st, [] => ([], st, false)
  | st, x :: l =>
    let c := codeBytes x.2
    let r := encodeFrames p (Config.codecNext st c) l
    (Config.encodeFrame p st x.1 c :: r.1, r.2.1, Config.rateBroken p st c || r.2.2)

/-- Write coded frames to BitRef, with their sizes to StatusRef. -/
def State.putCoded (s : State) (e : Env) (j : CodecJob) (part : Nat) (l : List Bytes) : State :=
  let d := e.desc (cdcBit j.block)
  let s := s.writeGlobal j.ctx j.idx part (d.base + j.bitBytes, l.flatten)
  let t := e.desc (cdcStatus j.block)
  let s := if cdcStatus j.block == 0 || cdcKind j.block != 2 then s else
    (List.range l.length).foldl (fun s i =>
      if j.written + i < t.dim 0 then
        s.writeGlobal j.ctx j.idx part (t.base + 4 * (j.written + i), leBytes 4 (l.getD i []).length) else s) s
  let n := total (l.map (fun b => b.length))
  ((s.setCdc j.ctx j.idx (fun j => { j with bitBytes := j.bitBytes + n, written := j.written + l.length })).bump 0x31F0 6
    n).bump 0x31F0 1 l.length

/-- An encoder's next frame is coded: held for its turn, or written with the frames it releases, or left where they do not
fit. -/
def State.encodeNext (s : State) (x : Codec) (j : CodecJob) (e : Env) (part : Nat) : State :=
  let p := x.params
  let codes := e.inputFrame p (e.desc (cdcPixel j.block)) j.framesDone
  let key := !x.seenKey || (prmGop p != 0 && decide (prmGop p ≤ x.since)) || (cdcForce j.block && j.framesDone == 0)
  let since := if key then 0 else x.since
  let slot := x.current.getD 0
  let took := fun (s : State) => s.setCdc j.ctx j.idx (fun j => { j with framesDone := j.framesDone + 1 })
  if !key && since % (prmB p + 1) != 0 then
    let g : Frame := ⟨slot, 0, prmW p, prmH p, 0, codes⟩
    (took s).setStream x.id (fun x => { x with held := x.held ++ [g], current := none, since := since + 1 })
  else
    let r := encodeFrames p x.state ((key, codes) :: x.held.map (fun g => (false, g.codes)))
    if (e.desc (cdcBit j.block)).dim 0 < j.bitBytes + total (r.1.map (fun b => b.length)) then
      ((s.setStream x.id (fun x => { x with current := none })).setCdc j.ctx j.idx (fun j =>
        { j with notes := j.notes ++ [0x00D5] })).endCdc j.ctx j.idx false
    else
      let s := took (s.putCoded e j part r.1)
      let s := if r.2.2 then s.setCdc j.ctx j.idx (fun j => { j with notes := j.notes ++ [0x00D2] }) else s
      s.setStream x.id (fun x => { x with
        state := r.2.1
        held := []
        current := none
        seenKey := true
        since := since + 1
        refs := keptRefs x slot (x.slotCount - prmB p - 1) r.2.1 })

/-! ## Decoding (15 R398 to R401) -/

/-- The bitstream that a decode has left. -/
def Env.bitRest (e : Env) (j : CodecJob) : Bytes :=
  let d := e.desc (cdcBit j.block)
  e.bytes (d.base + j.bitBytes) (d.dim 0 - j.bitBytes)

/-- Put a frame among those that are Held, in display order. -/
def insertFrame (g : Frame) : List Frame → List Frame
  | [] => [g]
  | h :: l => if g.rank < h.rank then g :: h :: l else h :: insertFrame g l

/-- Output the first Held frame at the next place of PixelRef. -/
def State.outputFrame (s : State) (x : Codec) (j : CodecJob) (e : Env) (part : Nat) (g : Frame) : State :=
  let s := (e.frameWrites x.params (e.desc (cdcPixel j.block)) j.framesDone g).foldl (fun s w =>
    s.writeGlobal j.ctx j.idx part w) s
  let s := if cdcStatus j.block == 0 || cdcKind j.block != 3 then s else
    s.writeGlobal j.ctx j.idx part ((e.desc (cdcStatus j.block)).base + 2 * j.framesDone, leBytes 2 g.status)
  let s := s.bump 0x31F0 2 1
  let s := if g.status == 0x06D3 then s.bump 0x31F0 4 1 else if g.status != 0 then s.bump 0x31F0 3 1 else s
  (s.setCdc j.ctx j.idx (fun j => { j with
    framesDone := j.framesDone + 1
    damaged := j.damaged + (if g.status == 0 then 0 else 1) })).setStream x.id (fun x => { x with
      held := x.held.drop 1
      due := x.due - 1
      last := some g })

/-- A unit needs more than its stream's open parameters or R380 allow (15 R401): a larger picture, a greater depth or level, another
chroma format, or more slots. -/
def Codec.beyond (x : Codec) (rest : Bytes) : Bool :=
  let u := Config.decodeUnit x.params x.state rest
  let v := Config.unitForm x.params x.state rest
  u.2.1 == 3 || decide (prmW x.params < u.2.2.1) || decide (prmH x.params < u.2.2.2.1) || decide (1 < v.1) ||
    (v.1 == 0 && !prmAv1 x.params) || decide (prmDepth x.params < v.2.1) || decide (prmLevel x.params < v.2.2.1) ||
    decide (x.slotCount < v.2.2.2)

/-- Go on with a decode between frames, by fuel: due frames are output, frames before the first random access point skipped, and
the job ends where nothing is left or no place is. -/
def State.decodeOn (s : State) (c idx : Nat) : Nat → State
  | 0 => s
  | fuel + 1 =>
    match s.cdcJob c idx, s.cdcEnv c idx with
    | some j, some (e, f) =>
      match s.stream? (cdcStream j.block) with
      | none => s
      | some x =>
        let d := e.desc (cdcPixel j.block)
        let full := decide (pixelFrames x.params d ≤ j.framesDone)
        let stop := fun (s : State) => (s.setCdc c idx (fun j => { j with notes := j.notes ++ [0x00D3] })).endCdc c idx false
        match (if x.due == 0 then none else x.held.head?) with
        | some g => if full || !pixelFits x.params d g then stop s else (s.outputFrame x j e f.partition g).decodeOn c idx fuel
        | none =>
          if cdcKind j.block == 4 then s.endCdc c idx true
          else
            let rest := e.bitRest j
            let u := Config.decodeUnit x.params x.state rest
            let n := min u.1 rest.length
            if n == 0 then s.endCdc c idx false
            else if x.beyond rest then s.failCdc j 0x06D4
            else if (!x.seenKey && u.2.1 != 1) || u.2.1 == 2 then
              ((s.setStream x.id (fun x => { x with state := Config.codecNext x.state (rest.take n) })).setCdc c idx (fun j =>
                { j with bitBytes := j.bitBytes + n, skipped := j.skipped + 1 })).bump 0x31F0 7 n |>.decodeOn c idx fuel
            else if full then stop s
            else s
    | _, _ => s

/-- A slot that a frame predicts from holds an uncorrectable error. -/
def State.refsBad (s : State) (x : Codec) (mask : Nat) : Bool :=
  (List.range x.slotCount).any (fun i => bit mask i && bit x.refs i &&
    s.mem.poisonIn (prmBase x.params + i * prmSlotBytes x.params) (prmSlotBytes x.params) != [])

/-- A decoder's next frame is decoded, or concealed; `late` where it passed its budget. -/
def State.decodeNext (s : State) (x : Codec) (j : CodecJob) (e : Env) (late : Bool) : State :=
  let rest := e.bitRest j
  let u := Config.decodeUnit x.params x.state rest
  let n := min u.1 rest.length
  let uses := Config.unitRefs x.params x.state rest
  let slot := x.current.getD 0
  let depth := prmDepth x.params
  let damage := u.2.2.2.2
  let status :=
    if late then 0x06D2
    else if damage == 1 then 0x06D0
    else if damage == 2 || s.refsBad x uses then 0x06D1
    else if (List.range x.slotCount).any (fun i => bit uses i && bit x.refs i && bit x.taint i) then 0x06D3
    else 0
  let concealed := status != 0 && status != 0x06D3
  let w := u.2.2.1
  let h := u.2.2.2.1
  let rank := Config.displayRank x.params x.state rest
  let grey : Frame := ⟨slot, rank, w, h, status, List.replicate (yuvCount w h) (2 ^ (depth - 1))⟩
  let g : Frame :=
    if concealed then
      (if cdcGrey j.block then grey
       else
        match x.last with
        | some l => { l with slot := slot, rank := rank, status := status }
        | none => grey)
    else
      let plain := Config.decodeFrame x.params x.state rest
      let codes := if prmAv1 x.params then Config.filmGrain x.params x.state rest plain else plain
      -- monochrome AV1 has every chroma code at its middle (R398)
      let mono := prmAv1 x.params && (Config.unitForm x.params x.state rest).1 == 0
      { grey with codes := (List.range (yuvCount w h)).map (fun i =>
          if mono && decide (w * h ≤ i) then 2 ^ (depth - 1) else codes.getD i 0 % 2 ^ depth) }
  let st := Config.codecNext x.state (rest.take n ++ leBytes 2 status)
  let held := insertFrame g x.held
  let refs := keptRefs x slot x.slotCount st
  let taint := maskOf ((List.range x.slotCount).filter (fun i => bit refs i && (if i == slot then status != 0 else bit x.taint i)))
  let area := prmBase x.params + slot * prmSlotBytes x.params
  let s := (s.writeBytes area (s.freeBytes (2 ^ 80) (prmSlotBytes x.params))).drew
  ((s.setStream x.id (fun x => { x with
    state := st
    held := held
    due := min held.length (Config.outputDue st)
    current := none
    seenKey := true
    refs := refs
    taint := taint })).setCdc j.ctx j.idx (fun j => { j with bitBytes := j.bitBytes + n })).bump 0x31F0 7 n

/-! ## Starts -/

/-- A close of an encoder: every Held frame is coded and the stream ended, or the job stops (R397). -/
def State.closeEncoder (s : State) (x : Codec) (j : CodecJob) (e : Env) (part : Nat) : State :=
  let r := encodeFrames x.params x.state (x.held.map (fun g => (false, g.codes)))
  let tail := if x.st == .opened then Config.encodeEnd x.params r.2.1 else []
  if (e.desc (cdcBit j.block)).dim 0 < total (r.1.map (fun b => b.length)) + tail.length then
    (s.setCdc j.ctx j.idx (fun j => { j with notes := j.notes ++ [0x00D5] })).endCdc j.ctx j.idx false
  else
    let s := s.putCoded e j part r.1
    let n := total (r.1.map (fun b => b.length))
    let s := s.writeGlobal j.ctx j.idx part ((e.desc (cdcBit j.block)).base + n, tail)
    let s := (s.setCdc j.ctx j.idx (fun j => { j with
      bitBytes := n + tail.length
      notes := if r.2.2 then [0x00D2] else [] })).bump 0x31F0 6 tail.length
    (s.setStream x.id (fun x => { x with held := [] })).endCdc j.ctx j.idx true

/-- The place of a stream's state in the system reserve (15 R383): an opaque table of 64 KiB each (DESIGN CHOICE: its place and size are not
given). -/
def State.streamPlace (s : State) (i : Nat) : Nat × Nat :=
  (s.mem.reserveBase + Config.codecTable.toNat % (4 * 2 ^ 30 - 2 ^ 24) + i * 65536, 65536)

/-- The units of a stream's state that cannot be read (15 R402). -/
def State.streamBad (s : State) (i : Nat) : List Nat := s.mem.poisonIn (s.streamPlace i).1 (s.streamPlace i).2

/-- A CODEC job whose operands are at hand begins. -/
def State.goCodec (s : State) (e : Env) (f : InFlight) : State :=
  let b := e.cdcBlock
  let i := cdcStream b
  let bad := (cdcIns e).flatMap s.badLocal
  let j : CodecJob := ⟨f.ctx, f.idx, b, 0, 0, 0, 0, 0, []⟩
  let s : State := { s with codec := { s.codec with jobs := s.codec.jobs ++ [j] } }
  let s := s.setFlight f.ctx f.idx (fun f => { f with phase := .running })
  if bad != [] || (cdcIns e).any (s.badRemote (s.arrived f.ctx f.idx)) then (s.sawPoison bad.eraseDups).failCdc j 0x0302
  else if s.unservedRuns (cdcIns e ++ cdcOuts e) then s.failCdc j 0x0381
  else if s.streamBad i != [] then (s.sawPoison (s.streamBad i)).failCdc j 0x03D0
  else
    let s := s.readRuns (cdcIns e)
    match s.stream? i with
    | none => s
    | some x =>
      if cdcKind b == 2 then s
      else if cdcKind b == 4 && x.encoder then s.closeEncoder x j e f.partition
      else
        let s := if cdcKind b == 4 then s.setStream i (fun x => { x with due := x.held.length }) else s
        s.decodeOn f.ctx f.idx ((e.desc (cdcBit b)).dim 0 + x.held.length + 2)

/-- An open job binds a stream (R383, R384). -/
def startOpen (s : State) (e : Env) (f : InFlight) : State :=
  let b := e.cdcBlock
  let x : Codec := ⟨cdcStream b, .opened, cdcKind b == 0, e.ctx, e.cdcParams b, 0, 0, false, 0, 0, none, [], 0, none⟩
  if s.unservedRuns (cdcIns e) then (s.addFlight f).failInstr f.ctx f.idx 0x0381
  else
    let s := s.readRuns (cdcIns e)
    -- the stream's state is written anew, so that no unit of its place is poison any longer
    ({ s with
      mem := { s.mem with poison := s.mem.poison.filter (fun u => !(s.streamBad (cdcStream b)).contains u) }
      codec := { s.codec with streams := s.codec.streams ++ [x] } } : State).addFlight (f.end_ 0)

def startCodec (s : State) (e : Env) (f : InFlight) : State :=
  if cdcKind e.cdcBlock < 2 then startOpen s e f else s.launchTo opCodec e f (fun s f => s.goCodec e f)

def cdcMacro (mine : Nat → Bool) : Macro :=
  { opcode := 0x1A, op := opCodec, mine := fun e => mine (cdcKind e.cdcBlock), start := some startCodec }

/-! ## Pipes (15 R382, R393) -/

/-- A job has a frame for a pipe: an input frame to encode, or a decode that waits for its next unit. -/
def State.cdcWork (s : State) (j : CodecJob) : Bool :=
  match s.cdcEnv j.ctx j.idx, s.stream? (cdcStream j.block) with
  | some (e, f), some x =>
    !f.stopped && f.phase == .running && x.current.isNone && x.st == .opened &&
      (if cdcKind j.block == 2 then decide (j.framesDone < pixelFrames x.params (e.desc (cdcPixel j.block)))
       else cdcKind j.block == 3)
  | _, _ => false

/-- The job whose frame a pipe takes next: of the highest Priority, the one that started first (11 R285). -/
def State.cdcNext (s : State) (pipe : Nat) : Option CodecJob :=
  let can := s.codec.jobs.filter (fun j => s.cdcWork j && (match s.flight? j.ctx j.idx with
    | some f => (s.cdcPipes (leAt f.slot 40 8)).any (fun p => p.id == pipe)
    | none => false))
  let prio := fun (j : CodecJob) => (s.ctx? j.ctx).elim 0 (fun x => x.priority)
  can.find? (fun j => can.all (fun k => decide (prio k ≤ prio j)))

/-- A pipe takes the next frame: its slot is Current. A stream without a Free slot needs more than it has (R401). -/
def State.takeFrame (s : State) (pipe : Nat) : State :=
  match s.codec.pipes[pipe]? with
  | none => s
  | some p =>
    if p.fenced || p.job.isSome || s.board.phase != .serving then s
    else
      match s.cdcNext pipe with
      | none => s
      | some j =>
        match s.stream? (cdcStream j.block) with
        | none => s
        | some x =>
          if s.streamBad x.id != [] then (s.sawPoison (s.streamBad x.id)).failCdc j 0x03D0 else
          match x.freeSlot with
          | none => s.failCdc j 0x06D4
          | some k =>
            let s := if p.lastStream == x.id || p.lastStream == 0xFFFF then s else s.bump 0x31F0 8 1
            (s.setCdcPipe pipe (fun p => { p with job := some (j.ctx, j.idx, j.framesDone), lastStream := x.id })).setStream x.id
              (fun x => { x with current := some k })

/-- An encode that has taken every frame ends (R397). -/
def State.encodeOn (s : State) (c idx : Nat) : State :=
  match s.cdcJob c idx, s.cdcEnv c idx with
  | some j, some (e, _) =>
    match s.stream? (cdcStream j.block) with
    | none => s
    | some x =>
      if pixelFrames x.params (e.desc (cdcPixel j.block)) ≤ j.framesDone then s.endCdc c idx false else s
  | _, _ => s

/-- A pipe finishes its frame. -/
def State.frameDone (s : State) (pipe : Nat) (late : Bool) : State :=
  match (s.codec.pipes.getD pipe (Pipe.init pipe)).job with
  | none => s
  | some (c, idx, _) =>
    match s.cdcJob c idx, s.cdcEnv c idx with
    | some j, some (e, f) =>
      match s.stream? (cdcStream j.block) with
      | none => s
      | some x =>
        let t := s.setCdcPipe pipe (fun p => { p with job := none })
        if cdcKind j.block == 2 then
          (if late then s else (t.encodeNext x j e f.partition).encodeOn c idx)
        else
          let t := if late then t.bump 0x31F0 5 1 else t
          (t.decodeNext x j e late).decodeOn c idx ((e.desc (cdcBit j.block)).dim 0 + x.held.length + 3)
    | _, _ => s

/-- A pipe leaves its frame, which a pipe takes again: another one where this one was fenced, which is counted where one is left
(R402, R406). -/
def State.restartFrame (s : State) (pipe : Nat) : State :=
  match (s.codec.pipes.getD pipe (Pipe.init pipe)).job with
  | none => s
  | some (c, idx, _) =>
    let again := (s.codec.pipes.getD pipe (Pipe.init pipe)).fenced &&
      (s.flight? c idx).any (fun f => s.cdcPipes (leAt f.slot 40 8) != [])
    let s := s.setCdcPipe pipe (fun p => { p with job := none, lastStream := 0xFFFF })
    match s.cdcJob c idx with
    | none => s
    | some j =>
      (s.setStream (cdcStream j.block) (fun x => { x with current := none })).bump 0x31F0 9 (if again then 1 else 0)

/-- Jobs that no pipe may run any more fail (R402). -/
def State.cdcStarved (s : State) : State :=
  (s.codec.jobs.filter (fun j => match s.flight? j.ctx j.idx with
    | some f => s.cdcPipes (leAt f.slot 40 8) == []
    | none => false)).foldl (fun s j => s.failCdc j 0x02D3) s

/-- Telemetry 0x31F1: streams Open or Errored, and pool slots that are not Free (R406). -/
def State.streamsOpen (s : State) : Nat := s.codec.streams.length
def State.slotsInUse (s : State) : Nat := total (s.codec.streams.map (fun x => x.slotsUsed))

/-! ## Meanings -/

/-- CODEC_OPEN_ENCODER (15 R383, R384, R389, R390). A block of a reserved Kind is rejected by this row too. -/
def execCodecOpenEncoder (c idx : Nat) (s : State) : Out :=
  .next (s.startMacro (cdcMacro (fun k => k == 0 || decide (4 < k))) c idx)

/-- CODEC_OPEN_DECODER (15 R383, R384, R389, R390). -/
def execCodecOpenDecoder (c idx : Nat) (s : State) : Out := .next (s.startMacro (cdcMacro (fun k => k == 1)) c idx)

/-- CODEC_ENCODE (15 R394 to R397). -/
def execCodecEncode (c idx : Nat) (s : State) : Out := .next (s.startMacro (cdcMacro (fun k => k == 2)) c idx)

/-- CODEC_DECODE (15 R398 to R401). -/
def execCodecDecode (c idx : Nat) (s : State) : Out := .next (s.startMacro (cdcMacro (fun k => k == 3)) c idx)

/-- CODEC_CLOSE (15 R397, R398). -/
def execCodecClose (c idx : Nat) (s : State) : Out := .next (s.startMacro (cdcMacro (fun k => k == 4)) c idx)

/-- FRAME_TAKE (15 R382, R385). -/
def execFrameTake (pipe : Nat) (s : State) : Out := .next (s.takeFrame pipe)

/-- FRAME_COMPLETE (15 R385, R394 to R401). -/
def execFrameComplete (pipe : Nat) (s : State) : Out := .next (s.frameDone pipe false)

/-- FRAME_BUDGET_EXPIRY (15 R401): a decoder's frame is stopped and concealed. -/
def execFrameBudgetExpiry (pipe : Nat) (s : State) : Out := .next (s.frameDone pipe true)

end Sys2Proof.Machine
end

