-- ==== Sys2Proof/Machine/Ring.lean ====
section
/-! DEFINITION. Ring: COLL and POST: groups, rings, wire formats, the exponent code and postcards (13 R328 to R345). -/

namespace Sys2Proof.Machine
open Sys2Proof

/-! ## Groups (13 R328, R329) -/

/-- A group box in the torus in force: its lengths, the origin, the dimensions, this node's position, root and rank. -/
structure Group where
  word : Nat
  dims : List Nat
  own : List Nat
  deriving DecidableEq, Repr

def Group.id (g : Group) : Nat := bits g.word 0 16
def Group.origin (g : Group) (a : Nat) : Nat := bits g.word (16 + 5 * a) 5
def Group.len (g : Group) (a : Nat) : Nat := bits g.word (31 + 5 * a) 5 + 1
def Group.root (g : Group) : Nat := bits g.word 46 15
def Group.reserved (g : Group) : Bool := bits g.word 61 3 != 0
def Group.dim (g : Group) (a : Nat) : Nat := g.dims.getD a 1
/-- The number of members. -/
def Group.size (g : Group) : Nat := g.len 0 * g.len 1 * g.len 2
/-- This node's position along an axis of the box. -/
def Group.pos (g : Group) (a : Nat) : Nat := (g.own.getD a 0 + g.dim a - g.origin a % g.dim a) % g.dim a
def Group.rankOf (g : Group) (p : List Nat) : Nat := p.getD 0 0 + g.len 0 * (p.getD 1 0 + g.len 1 * p.getD 2 0)
def Group.rank (g : Group) : Nat := g.rankOf [g.pos 0, g.pos 1, g.pos 2]
/-- The position of a rank along an axis. -/
def Group.posOf (g : Group) (r a : Nat) : Nat :=
  if a == 0 then r % g.len 0 else if a == 1 then r / g.len 0 % g.len 1 else r / g.len 0 / g.len 1
/-- A full axis carries two rings. -/
def Group.full (g : Group) (a : Nat) : Bool := g.len a == g.dim a
/-- The axes that take part. -/
def Group.axes (g : Group) : List Nat := (List.range 3).filter (fun a => g.len a != 1)

/-- A length exceeds its dimension, or the root is no rank (13 R329). -/
def Group.wrong (g : Group) : Bool :=
  (List.range 3).any (fun a => decide (g.dim a < g.len a)) || decide (g.size ≤ g.root)

/-- This node lies in the box. -/
def Group.member (g : Group) : Bool := (List.range 3).all (fun a => decide (g.pos a < g.len a))

/-- The box breaks R329. -/
def Group.bad (g : Group) : Bool := g.wrong || !g.member

/-- A group word as this node sees it. -/
def State.group (s : State) (word : Nat) : Group :=
  ⟨word, (List.range 3).map (axisLen s.fabric.torusInForce), (List.range 3).map (coord s.node)⟩

/-- A box breaks R329 at this node. While no node id is in force no node is known to be a member or none, and the collective fails with
0x07A0 at its start (R334). -/
def State.boxBad (s : State) (g : Group) : Bool := g.wrong || (s.node != 0xFFFF && !g.member)

/-- The node at this node's place but for position `p` along axis `a`. -/
def Group.nodeAt (g : Group) (a p : Nat) : Nat :=
  total ((List.range 3).map (fun b =>
    (if b == a then (g.origin b + p) % g.dim b else g.own.getD b 0) * 2 ^ (5 * b)))

/-! ## Rings (13 R335, R336) -/

/-- A bulk collective: its group, operation, reduction, wire format, Compress and source count. -/
structure Bulk where
  g : Group
  op : Nat
  red : Nat
  wire : Nat
  compress : Bool
  n : Nat
  deriving DecidableEq, Repr

/-- Elements that travel: the source's, or every member's under all-gather. -/
def Bulk.count (b : Bulk) : Nat := if b.op == 2 then b.g.size * b.n else b.n

/-- The rank that owns an element. -/
def Bulk.owner (b : Bulk) (e : Nat) : Nat :=
  if b.op == 1 then e / (b.n / b.g.size) else if b.op == 2 then e / b.n else e / (256 * ceilDiv b.n (256 * b.g.size))

/-- An element travels the negative ring of an axis. -/
def Bulk.negative (b : Bulk) (a e : Nat) : Bool := b.g.full a && e / 256 % 2 == 1

/-- A step of a collective: its phase (false reduce-scatter, true all-gather), axis, number from 1, and the other axes on which
an element's owner stands where this member stands. -/
structure Hop where
  gather : Bool
  axis : Nat
  t : Nat
  fixed : List Nat
  deriving DecidableEq, Repr

/-- The steps of a phase along an axis. -/
def Group.hops (g : Group) (gather : Bool) (a : Nat) (fixed : List Nat) : List Hop :=
  (List.range (g.len a - 1)).map (fun t => ⟨gather, a, t + 1, fixed⟩)

/-- Every step of a collective, in order: reductions along X, Y, Z and back along Z, Y, X; an all-gather along X, Y, Z. -/
def Bulk.hops (b : Bulk) : List Hop :=
  let ax := b.g.axes
  let rs := ax.flatMap (fun a => b.g.hops false a (ax.filter (fun c => decide (c < a))))
  let back := ax.reverse.flatMap (fun a => b.g.hops true a (ax.filter (fun c => decide (c < a))))
  if b.op == 0 || b.op == 4 then rs ++ back
  else if b.op == 1 then rs
  else if b.op == 2 then ax.flatMap (fun a => b.g.hops true a (ax.filter (fun c => decide (a < c))))
  else if b.g.rank == b.g.root then [] else [⟨true, 0, 0, []⟩]

/-- Elements whose owner stands `k` places behind this member along the step's axis, in the direction of its ring. -/
def Bulk.behind (b : Bulk) (h : Hop) (neg : Bool) (k : Nat) : List Nat :=
  let n := b.g.len h.axis
  let at_ := if neg then (b.g.pos h.axis + k) % n else (b.g.pos h.axis + n - k % n) % n
  (List.range b.count).filter (fun e =>
    b.negative h.axis e == neg && b.g.posOf (b.owner e) h.axis == at_ &&
      h.fixed.all (fun a => b.g.posOf (b.owner e) a == b.g.pos a))

/-- The elements that a step sends along one ring. -/
def Bulk.sends (b : Bulk) (h : Hop) (neg : Bool) : List Nat := b.behind h neg (if h.gather then h.t - 1 else h.t)

/-- The elements that a step receives by one ring; a broadcast brings them all at once. -/
def Bulk.takes (b : Bulk) (h : Hop) (neg : Bool) : List Nat :=
  if b.op == 3 then (if neg then [] else List.range b.n) else b.behind h neg (if h.gather then h.t else h.t + 1)

/-- The members next to this one on the rings, with which it exchanges before any data (13 R330). -/
def Group.neighbours (g : Group) : List Nat :=
  (g.axes.flatMap (fun a => [g.nodeAt a ((g.pos a + 1) % g.len a), g.nodeAt a ((g.pos a + g.len a - 1) % g.len a)])).eraseDups

/-! ## Wire formats (13 R337 to R339) -/

/-- Elements in the runs that share a scale byte: `key` names an element's block. -/
def blockRuns {α : Type} (key : α → Nat) (es : List α) : List (List α) := es.splitBy (fun x y => key x == key y)

/-- Values as they travel uncoded: each run's elements packed, with the scale byte of a narrow run behind it. The order of codes and
scale bytes on the wire is a DESIGN CHOICE. -/
def packWire (fmt : Nat) (runs : List (List (Nat × Nat))) : Bytes :=
  runs.flatMap (fun c => packElems (fmtBits fmt) (c.map (fun x => x.1)) ++
    (if fmtNarrow fmt then leBytes 1 ((c.headD (0, 0)).2) else []))

/-- The element codes and scale bytes of runs, whose lengths are given. -/
def unpackWire (fmt : Nat) : List Nat → Bytes → List (Nat × Nat)
  | [], _ => []
  | k :: ks, b =>
    let w := fmtBits fmt
    let len := ceilDiv (k * w) 8
    let v := leNat (b.take len)
    let sc := if fmtNarrow fmt then leAt b len 1 else 0x7F
    (List.range k).map (fun i => (v / 2 ^ (w * i) % 2 ^ w, sc)) ++ unpackWire fmt ks (b.drop (len + (if fmtNarrow fmt then 1 else 0)))

/-- The value of a wire element. -/
def wireValue (fmt : Nat) (x : Nat × Nat) : Num :=
  if fmtNarrow fmt then scaled (decodeFloat fmt x.1) x.2 else decodeFloat fmt x.1

/-- Values of runs of up to 32 consecutive elements narrowed to an uncoded wire format: codes by run, the values they stand for, and
saturations (13 R337 step 2). -/
def narrowTo (fmt : Nat) (runs : List (List Num)) : List (List (Nat × Nat)) × List Num × Nat :=
  if fmtNarrow fmt then
    let bs := runs.map (fun c => quantBlock fmt false (fun _ => .rne) c)
    (bs.map (fun b => b.elem.map (fun x => (encodeFloat fmt x, b.scaleByte))), bs.flatMap (fun b => b.q), total (bs.map (fun b => b.sats)))
  else
    let cs := runs.map (fun c => c.map (fun x => plainCode fmt .rne x))
    (cs.map (fun r => r.map (fun c => (c, 0x7F))), cs.flatMap (fun r => r.map (decodeFloat fmt)), 0)

/-- Mantissa bits of a coded wire format. -/
def mantBits (fmt : Nat) : Nat := if fmt == 1 then 7 else 23

/-- One group of the exponent code: its base and fields (13 R338). -/
def codeGroup (fmt : Nat) (l : List Nat) : Nat × List Nat :=
  let w := mantBits fmt
  let ex := fun v => bits v w 8
  let b := (l.map ex).foldl max 0
  (b, l.map (fun v0 =>
    let v := if ex v0 == 255 && v0 % 2 ^ w != 0 then canonNan fmt else v0
    let m := v % 2 ^ w
    let sign := bit v (w + 8)
    if (ex v == 0 && m == 0) || ex v + 7 < b then
      (if 7 ≤ b then 7 + 2 ^ (w + 3) else b)
    else b - ex v + m * 8 + (if sign then 2 ^ (w + 3) else 0)))

/-- The pattern that a field of a group stands for. -/
def decodeField (fmt base field : Nat) : Nat :=
  let w := mantBits fmt
  let delta := field % 8
  let m := bits field 3 w
  let sign := bit field (w + 3)
  if delta == 7 && sign && m == 0 then 0
  else (base - delta) * 2 ^ w + m + (if sign then 2 ^ (w + 8) else 0)

/-- Values that the code flushes to zero. -/
def flushedIn (fmt : Nat) (l : List Nat) : Nat :=
  let w := mantBits fmt
  let b := (l.map (fun v => bits v w 8)).foldl max 0
  (l.filter (fun v => v % 2 ^ (w + 8) != 0 && decide (bits v w 8 + 7 < b))).length

/-- Blocks of 256 values: base bytes, fields, CRC-32C (13 R339). A short block is filled with zeros. -/
def codeBlocks (fmt : Nat) (l : List Nat) : Bytes :=
  (chunks 256 l).flatMap (fun blk =>
    let gs := (chunks 32 (blk ++ List.replicate (256 - blk.length) 0)).map (codeGroup fmt)
    let body := gs.flatMap (fun g => leBytes 1 g.1) ++ packElems (mantBits fmt + 4) (gs.flatMap (fun g => g.2))
    body ++ leBytes 4 (crc32c body))

/-- Bytes of a coded block. -/
def codeBlockBytes (fmt : Nat) : Nat := 8 + 32 * (mantBits fmt + 4) + 4

/-- The base and field of each value of a coded block. -/
def blockFields (fmt : Nat) (k : Bytes) : List (Nat × Nat) :=
  let w := mantBits fmt + 4
  let v := leNat (sub k 8 (32 * w))
  (List.range 256).map (fun i => (leAt k (i / 32) 1, v / 2 ^ (w * i) % 2 ^ w))

/-- A coded block whose CRC fails, or that holds a field with delta above its base, is treated as a failed chunk (13 R339). A zero in a
group whose base lies below 7 is coded with the base for its delta (DESIGN CHOICE: R338's pattern has delta 7, and has no field with
delta above the base be produced). -/
def blockBad (fmt : Nat) (k : Bytes) : Bool :=
  let size := codeBlockBytes fmt
  k.length != size || leAt k (size - 4) 4 != crc32c (k.take (size - 4)) || (blockFields fmt k).any (fun x => decide (x.1 < x.2 % 8))

/-- The patterns of coded blocks. -/
def decodeBlocks (fmt n : Nat) (b : Bytes) : List Nat :=
  ((chunks (codeBlockBytes fmt) b).flatMap (fun k => (blockFields fmt k).map (fun x => decodeField fmt x.1 x.2))).take n

/-- The block of a reduction's element (13 R337 step 2). -/
def Bulk.key (_ : Bulk) (e : Nat) : Nat := e / 32

/-- A reduction's values as they are sent: the bytes, the values they stand for, saturations and flushed values. -/
def Bulk.narrow (b : Bulk) (es : List Nat) (l : List Num) : Bytes × List Num × Nat × Nat :=
  let runs := ((blockRuns (fun x => b.key x.1) (es.zip l))).map (fun r => r.map (fun x => x.2))
  let r := narrowTo b.wire runs
  if b.compress then
    let codes := r.1.flatMap (fun c => c.map (fun x => x.1))
    let bytes := codeBlocks b.wire codes
    (bytes, (decodeBlocks b.wire codes.length bytes).map (decodeFloat b.wire), r.2.2, total ((chunks 32 codes).map (flushedIn b.wire)))
  else (packWire b.wire r.1, r.2.1, r.2.2, 0)

/-- A reduction's values as they arrive. -/
def Bulk.widen (b : Bulk) (es : List Nat) (data : Bytes) : List Num :=
  if b.compress then (decodeBlocks b.wire es.length data).map (decodeFloat b.wire)
  else (unpackWire b.wire ((blockRuns b.key es).map List.length) data).map (wireValue b.wire)

/-- The wire is narrower than the sum: values are narrowed before they are sent. -/
def Bulk.narrows (b : Bulk) : Bool := b.op != 2 && b.op != 3 && (b.wire != 0 || b.compress)

/-- FP32 maximum and minimum: NaN gives NaN, +0 ranks above −0. -/
def maxNum (x y : Num) : Num :=
  if x.isNan || y.isNan then .nan
  else if x.isZero && y.isZero then (if x.sign then y else x)
  else if Num.lt x y then y else x

def minNum (x y : Num) : Num :=
  if x.isNan || y.isNan then .nan
  else if x.isZero && y.isZero then (if x.sign then x else y)
  else if Num.lt y x then y else x

/-- A reduction of two contributions. -/
def Bulk.join (b : Bulk) (x y : Num) : Num := if b.red == 0 then fadd x y else if b.red == 1 then maxNum x y else minNum x y

/-! ## COLL's operands (13 R332 to R334) -/

def Env.collRef (e : Env) : Nat := bits (e.W 2) 32 32
def Env.coll (e : Env) : Bulk :=
  ⟨e.s.group (e.W 3), bits (e.W 2) 0 4, bits (e.W 2) 4 2, bits (e.W 2) 6 3, bit (e.W 2) 9, (e.desc (e.S 1)).count⟩

/-- The carry plane of a COLL (13 R333: blocks along dimension 0 of the source). -/
def Env.collCarry (e : Env) : Carry :=
  let h := e.le (e.obj e.collRef) 8
  ⟨e.obj e.collRef, (e.desc (e.S 1)).shape, 0,
    bits h 48 2 == 1 && bits h 32 16 == (bits (e.W 2) 16 16 + 2 ^ 16 - 1) % 2 ^ 16⟩

/-- A descriptor's code at step 5 of R86, the touching of a staging area left for R334. -/
def Env.descStaged (e : Env) (out : Bool) (r : Nat) : Nat :=
  let c := if r == 0 then 0 else e.s.checkDesc out (e.desc r)
  if c == 0x010A && e.s.tensorOk out (e.desc r) then 0 else c

/-- Source and destination overlap where they may not. -/
def Env.collOverlap (e : Env) : Bool :=
  let x := e.s.homeRuns (e.desc (e.S 1)).extent
  let y := e.s.homeRuns (e.desc (e.S 4)).extent
  let same := (e.coll.op == 0 || e.coll.op == 3) && x == y
  !same && extentsMeet x y

def Env.collOperandsBad (e : Env) : Bool :=
  let b := e.coll
  let x := e.desc (e.S 1)
  let y := e.desc (e.S 4)
  let axes := (x.narrow && x.axis != 0) || (y.narrow && y.axis != 0)
  let forms :=
    if b.op == 0 || b.op == 4 then fmtFloat x.fmt && fmtFloat y.fmt && y.count == b.n
    else if b.op == 1 then fmtFloat x.fmt && fmtFloat y.fmt && b.n % b.g.size == 0 && y.count == b.n / b.g.size
    else if b.op == 2 then y.fmt == x.fmt && y.count == b.g.size * b.n && (!x.narrow || b.n % 32 == 0)
    else y.fmt == x.fmt && y.count == b.n
  axes || !forms || e.collOverlap

def opColl : Op where
  dash := fun _ => [2, 3, 5, 6, 7, 11, 14]
  refs := fun e => [⟨e.S 1, true, .hdr 0⟩, ⟨e.S 4, true, .hdr 0⟩,
    ⟨e.collRef, false, .obj (if e.collRef == 0 then 0 else carryBytes (e.desc (e.S 1)).shape 0)⟩]
  rules := fun e =>
    let b := e.coll
    let control := bits (e.W 2) 10 6 != 0 || b.g.reserved ||
      (e.collRef != 0 && (bits (e.le (e.obj e.collRef) 8) 50 14 != 0 || e.le (e.obj e.collRef + 16) 48 != 0))
    let move := b.op == 2 || b.op == 3
    let illegal := decide (4 < b.op) || b.red == 3 || b.wire == 7 || (move && (b.red != 0 || b.wire != 0)) ||
      (b.compress && (b.red != 0 || decide (1 < b.wire) || move)) ||
      (e.collRef != 0 && (b.red != 0 || (b.wire == 0 && !b.compress)))
    firstCode [e.descStaged false (e.S 1), e.descStaged true (e.S 4), rule control 0x0102, rule illegal 0x01B0,
      rule (e.s.boxBad b.g) 0x01B1, rule e.collOperandsBad 0x01B2,
      rule (e.s.touchesStaging (e.desc (e.S 1)) || e.s.touchesStaging (e.desc (e.S 4))) 0x01B4,
      rule (e.collRef != 0 && e.le (e.obj e.collRef + 8) 8 != b.n) 0x0113]
  ins := fun e =>
    (if e.coll.op == 3 && e.coll.g.rank != e.coll.g.root then [] else (e.desc (e.S 1)).extent) ++
      (if e.collRef == 0 then [] else [(e.obj e.collRef, 64 + carryBytes (e.desc (e.S 1)).shape 0)])
  outs := fun e =>
    (if e.coll.op == 4 && e.coll.g.rank != e.coll.g.root then [] else (e.desc (e.S 4)).extent) ++
      (if e.collRef == 0 then [] else [(e.obj e.collRef, 64 + carryBytes (e.desc (e.S 1)).shape 0)])
  run := fun _ => {}

/-- What the members of a COLL must agree on: group, box, Op, counts, formats, wire and Root (13 R330). -/
def Env.collSig (e : Env) : Nat :=
  e.W 3 + e.W 2 % 2 ^ 10 * 2 ^ 64 + (e.desc (e.S 1)).count * 2 ^ 80 + (e.desc (e.S 1)).fmt * 2 ^ 160 +
    (e.desc (e.S 4)).fmt * 2 ^ 164

/-! ## POST's operands (13 R342, R343) -/

def Env.postKind (e : Env) : Nat := bits (e.W 2) 0 2
def Env.postRef (e : Env) : Nat := bits (e.W 2) 32 32
def Env.postGroup (e : Env) : Group := e.s.group (e.le (e.obj e.postRef) 8)
def Env.laneOp (e : Env) (i : Nat) : Nat := bits (e.W 2) (8 + 3 * i) 3

def Env.postBad (e : Env) : Bool :=
  let p := e.desc (e.S 1)
  let r := e.desc (e.S 4)
  let n := p.dim 0
  e.postKind == 3 || bits (e.W 2) 2 6 != 0 || (e.postKind != 1 && bits (e.W 2) 8 24 != 0) || p.fmt != fU8 || p.rank != 1 ||
    (if e.postKind == 0 then decide (64 < n) else if e.postKind == 1 then n != 64 else n == 0 || decide (64 < n)) ||
    (e.S 4 != 0 && (r.fmt != fU8 || r.rank != 1 || r.dim 0 != n ||
      extentsMeet (e.s.homeRuns p.extent) (e.s.homeRuns r.extent)))

def opPost : Op where
  dash := fun _ => [2, 3, 5, 6, 7, 11, 13, 14]
  refs := fun e => [⟨e.S 1, true, .hdr 0⟩, ⟨e.S 4, false, .hdr 0⟩, ⟨e.postRef, true, .hdr 0⟩]
  rules := fun e =>
    firstCode [e.descStaged false (e.S 1), e.descStaged true (e.S 4), rule e.postBad 0x01B3,
      rule (e.postGroup.reserved || e.bytes (e.obj e.postRef + 8) 56 != List.replicate 56 0 ||
        e.s.boxBad e.postGroup) 0x01B1,
      rule (e.s.touchesStaging (e.desc (e.S 1)) || (e.S 4 != 0 && e.s.touchesStaging (e.desc (e.S 4)))) 0x01B4]
  ins := fun e => if e.postKind == 1 || (e.postKind == 2 && e.postGroup.rank == e.postGroup.root) then (e.desc (e.S 1)).extent else []
  outs := fun e => if e.S 4 == 0 then [] else (e.desc (e.S 4)).extent
  run := fun _ => {}

def Env.postSig (e : Env) : Nat :=
  e.le (e.obj e.postRef) 8 + e.W 2 % 2 ^ 32 * 2 ^ 64 + (e.desc (e.S 1)).dim 0 * 2 ^ 96

/-- One lane of two payloads (13 R342, R343). -/
def laneJoin (op x y : Nat) : Nat :=
  let pair := fun (f : Num → Num → Num) =>
    bits32 (f (decodeFloat 0 (x % 2 ^ 32)) (decodeFloat 0 (y % 2 ^ 32))) +
      2 ^ 32 * bits32 (f (decodeFloat 0 (x / 2 ^ 32)) (decodeFloat 0 (y / 2 ^ 32)))
  match op with
  | 0 => 0
  | 1 => (x + y) % 2 ^ 64
  | 2 => max x y
  | 3 => min x y
  | 4 => x ||| y
  | 5 => x &&& y
  | 6 => pair maxNum
  | _ => pair minNum

/-- Two payloads of 64 bytes joined lane by lane. -/
def joinCards (op : Nat → Nat) (x y : Bytes) : Bytes :=
  (List.range 8).flatMap (fun i => leBytes 8 (laneJoin (op i) (leAt x (8 * i) 8) (leAt y (8 * i) 8)))

/-! ## Collectives in flight -/

def State.coll? (s : State) (c idx : Nat) : Option Coll := s.coll.flight.find? (fun x => x.ctx == c && x.idx == idx)

def State.setColl (s : State) (c idx : Nat) (f : Coll → Coll) : State :=
  { s with coll := { s.coll with flight := modifyWhere (fun x => x.ctx == c && x.idx == idx) f s.coll.flight } }

/-- The instruction of a collective, with what it sees. -/
def State.collEnv (s : State) (c idx : Nat) : Option (Env × InFlight) :=
  match s.ctx? c, s.flight? c idx with
  | some x, some f => some (s.env x idx f.slot (s.arrived c idx) [], f)
  | _, _ => none

/-- A collective fails after its start: its outputs are undefined, unless the members disagree (13 R330, R350). -/
def State.failColl (s : State) (c idx code : Nat) : State :=
  let s := s.dropColl c idx
  if code == 0x07B1 then s.setFlight c idx (fun f => { f.end_ code with endWrites := [] })
  else s.failInstr c idx code

/-- A collective completes: its writes, its notes, and its record is owed. -/
def State.endColl (s : State) (x : Coll) (e : Env) (f : InFlight) (writes : List (Nat × Bytes)) : State :=
  let s := (writes.foldl (fun s w => s.writeGlobal f.ctx f.idx f.partition w) s).dropColl x.ctx x.idx
  let note := topNote ((if x.repeated then [0x00B0] else []) ++ (if x.discard then [0x0012] else []))
  let s := if x.discard then s.bump 0x3140 7 1 else s
  let s := if x.post then s else s.bump 0x3230 1 1
  s.setFlight x.ctx x.idx (fun f => { f.end_ note with endWrites := match e.carrySite with
    | some c => if x.post then [] else [(c.1 + 4, leBytes 2 c.2), (c.1 + 6, [1])]
    | none => [] })

/-! ## COLL at work -/

/-- The values of a source, dimension 0 fastest: FP32 patterns of a reduction, or codes with their scale bytes above bit 32. -/
def Env.collSource (e : Env) (b : Bulk) : List Nat :=
  let d := e.desc (e.S 1)
  (indices d.shape).map (fun ix => if b.op == 2 || b.op == 3 then e.elemBits d ix + 2 ^ 32 * e.scaleByte d ix
    else bits32 (e.value d ix))

/-- The values that a member starts with. -/
def Env.collStart (e : Env) (b : Bulk) : List Nat :=
  if b.op == 2 then
    let src := e.collSource b
    (List.range b.count).map (fun i => if i / b.n == b.g.rank then src.getD (i % b.n) 0 else 0)
  else if b.op == 3 && b.g.rank != b.g.root then List.replicate b.n 0
  else e.collSource b

/-- The index of an element of the source. -/
def Desc.indexOf (d : Desc) (i : Nat) : List Nat :=
  (List.range d.rank).map (fun k => i / ((d.shape.take k).foldl (· * ·) 1) % d.dim k)

/-- Narrow elements before they are first sent: v = p + c_old, and q as it travels (13 R337). -/
def State.narrowElems (s : State) (x : Coll) (e : Env) (b : Bulk) (es : List Nat) : State × Bytes :=
  let c := e.collCarry
  let d := e.desc (e.S 1)
  let p := fun i => decodeFloat 0 (x.value.getD i 0)
  let v := es.map (fun i => if e.collRef != 0 && x.carryOk then fadd (p i) (e.cOld { c with usable := true } (d.indexOf i)) else p i)
  let r := b.narrow es v
  let put := fun (l : List Nat) (new : List Num) =>
    (es.zip new).foldl (fun (l : List Nat) y => l.set y.1 (bits32 y.2)) l
  let s := s.setColl x.ctx x.idx (fun x => { x with value := put x.value r.2.1, vs := put x.vs v, qs := put x.qs r.2.1 })
  ((s.bump 0x3140 6 r.2.2.1).bump 0x3230 4 r.2.2.2, r.1)

/-- Send one packet of a collective to a neighbour: its kind, stage, ring direction and number, and its bytes. The layout of these
packets is a DESIGN CHOICE. -/
def State.sendBulk (s : State) (f : InFlight) (x : Coll) (node kind stage : Nat) (neg : Bool) (number : Nat) (last : Bool)
    (data : Bytes) : State :=
  s.sendPacket 3 node (s.postmark f.partition) (beBytes 2 x.group ++ beBytes 4 x.order ++ beBytes 1 f.partition ++ beBytes 1 kind ++
    beBytes 2 stage ++ beBytes 1 ((if neg then 1 else 0) + (if last then 2 else 0)) ++ beBytes 4 number ++ data)

/-- Chunks of a hop carry a CRC-32C: those that no member on the way changes (13 R340). The all-gather phases of a reduction are of
these where no exponent code protects them (DEDUCED: no adder touches them). -/
def Bulk.sealed (b : Bulk) (gather : Bool) : Bool := gather && !b.compress

/-- The chunks of a hop's wire bytes, 32 KiB each (13 R341). Each is sealed anew with the CRC-32C of its bytes, which no member
changes. -/
def Bulk.parcels (b : Bulk) (dest stage : Nat) (neg gather : Bool) (data : Bytes) : List Parcel :=
  let cs := chunks 32768 data
  cs.zipIdx.map (fun c => ⟨dest, stage, neg, c.2, c.2 + 1 == cs.length,
    c.1 ++ (if b.sealed gather then leBytes 4 (crc32c c.1) else []), false⟩)

/-- Chunks that a collective may send now: each ring direction has 4 chunk buffers, held until they are acknowledged (13 R341). -/
def Coll.due (x : Coll) : List Parcel :=
  (x.parcels.zipIdx.filter (fun p => !p.1.sent &&
    decide (((x.parcels.take p.2).filter (fun q => q.dest == p.1.dest && q.neg == p.1.neg)).length < 4))).map (fun p => p.1)

/-- Send the chunks of a collective that may go. -/
def State.pump (s : State) (f : InFlight) (c idx : Nat) : State :=
  match s.coll? c idx with
  | none => s
  | some x =>
    let go := x.due
    let s := s.setColl c idx (fun x => { x with parcels := x.parcels.map (fun p => if go.contains p then { p with sent := true } else p) })
    go.foldl (fun s p => (s.sendBulk f x p.dest 1 p.stage p.neg p.number p.last p.data).bump 0x3230 2 p.data.length) s

/-- The block of a moved element: its narrow block along dimension 0 of its member's source (13 R333). -/
def Env.moveKey (e : Env) (b : Bulk) (i : Nat) : Nat :=
  let d := e.desc (e.S 1)
  let j := i % b.n
  (i / b.n * 2 ^ 32 + j / d.dim 0) * 2 ^ 32 + j % d.dim 0 / 32

/-- The wire form of elements that are held. -/
def Coll.wireOf (x : Coll) (e : Env) (b : Bulk) (es : List Nat) : Bytes :=
  if b.op == 2 || b.op == 3 then
    packWire (e.desc (e.S 1)).fmt ((blockRuns (e.moveKey b) es).map (fun r =>
      r.map (fun i => (x.value.getD i 0 % 2 ^ 32, x.value.getD i 0 / 2 ^ 32))))
  else (b.narrow es (es.map (fun i => decodeFloat 0 (x.value.getD i 0)))).1

/-- Put what a step sends along one ring with the chunks to send. -/
def State.sendHop (s : State) (c idx : Nat) (e : Env) (b : Bulk) (h : Hop) (neg : Bool) : State :=
  match s.coll? c idx with
  | none => s
  | some x =>
    let es := b.sends h neg
    let n := b.g.len h.axis
    let dest := b.g.nodeAt h.axis (if neg then (b.g.pos h.axis + n - 1) % n else (b.g.pos h.axis + 1) % n)
    if es == [] then s
    else
      let r := if !h.gather && b.narrows then s.narrowElems x e b es else (s, x.wireOf e b es)
      r.1.setColl c idx (fun y => { y with parcels := y.parcels ++ b.parcels dest x.stage neg h.gather r.2 })

/-- The neighbours that a broadcast goes on to: along each axis from the one it came by, up to the root's place. -/
def Bulk.relays (b : Bulk) : List Nat :=
  let from_ := ((List.range 3).filter (fun a => b.g.pos a != b.g.posOf b.g.root a)).getLast?.getD 0
  (b.g.axes.filter (fun a => decide (from_ ≤ a))).filterMap (fun a =>
    let next := (b.g.pos a + 1) % b.g.len a
    if next == b.g.posOf b.g.root a then none else some (b.g.nodeAt a next))

/-- The owned elements are narrowed at the start of the all-gather phases (13 R337). -/
def State.narrowOwn (s : State) (c idx : Nat) (e : Env) (b : Bulk) : State :=
  match s.coll? c idx with
  | none => s
  | some x =>
    let es := (List.range b.count).filter (fun i => b.owner i == b.g.rank)
    if b.narrows && b.op != 1 && es != [] then (s.narrowElems x e b es).1 else s

/-- A carry plane's blocks as a collective leaves them: every block in which an element was narrowed (13 R337 step 3). -/
def Coll.carryWrites (x : Coll) (e : Env) : List (Nat × Bytes) :=
  let d := e.desc (e.S 1)
  let c := e.collCarry
  let at_ := fun (ix : List Nat) => linear d.shape ix
  (blocksOf { d with axis := 0 } ((indices (d.shape.drop 1)).map (fun t => 0 :: t))).flatMap (fun first =>
    let blk := { d with axis := 0 }.blockOf first
    if blk.all (fun ix => x.vs.getD (at_ ix) (2 ^ 32) == 2 ^ 32) then []
    else
      let val := fun (l : List Nat) ix =>
        let v := l.getD (at_ ix) (2 ^ 32)
        if v == 2 ^ 32 then Num.zero else decodeFloat 0 v
      let r := residual (blk.map (val x.vs)) ⟨blk.map (val x.qs), [], none, 0⟩
      c.blockWrites blk first r.1 r.2)

/-- What a member writes at the end (13 R333, R336). -/
def Coll.result (x : Coll) (e : Env) (b : Bulk) : List (Nat × Bytes) :=
  let d := e.desc (e.S 4)
  let off := if b.op == 1 then b.g.rank * d.count else 0
  let v := fun (ix : List Nat) => x.value.getD (off + linear d.shape ix) 0
  if b.op == 4 && b.g.rank != b.g.root then []
  else if b.op == 2 || b.op == 3 then
    e.tensorWrites d (fun ix => some (v ix % 2 ^ 32)) (fun ix => some (v ix / 2 ^ 32))
  else e.writeTensor d ⟨fun ix => decodeFloat 0 (v ix), false, 0, 0⟩

/-- Chunks of a ring direction of a stage that have come, from the first to the last; none while one is missing. -/
def Coll.stream (x : Coll) (stage : Nat) (neg : Bool) : Option Bytes :=
  let mine := x.inbox.filter (fun k => k.stage == stage && k.neg == neg)
  match mine.find? (fun k => k.last) with
  | none => none
  | some z =>
    if (List.range (z.number + 1)).all (fun i => mine.any (fun k => k.number == i)) then
      some ((List.range (z.number + 1)).flatMap (fun i => ((mine.find? (fun k => k.number == i)).map (fun k => k.data)).getD []))
    else none

/-- The values that a stage brought by one ring are added or placed. -/
def Coll.take (x : Coll) (e : Env) (b : Bulk) (h : Hop) (neg : Bool) : Coll :=
  let es := b.takes h neg
  let data := (x.stream x.stage neg).getD []
  let vals := if b.op == 2 || b.op == 3 then
      (unpackWire (e.desc (e.S 1)).fmt ((blockRuns (e.moveKey b) es).map List.length) data).map (fun v => v.1 + 2 ^ 32 * v.2)
    else (b.widen es data).map bits32
  { x with value := (es.zip vals).foldl (fun (l : List Nat) y =>
      if b.op == 2 || b.op == 3 || h.gather then l.set y.1 y.2
      else l.set y.1 (bits32 (b.join (decodeFloat 0 y.2) (decodeFloat 0 (l.getD y.1 0))))) x.value }

/-- All that a stage brings has come; a ring that brings nothing is passed over (13 R335: shards may be empty). -/
def Coll.whole (x : Coll) (b : Bulk) (h : Hop) : Bool :=
  [false, true].all (fun neg => b.takes h neg == [] || (x.stream x.stage neg).isSome)

/-- Acknowledge a chunk. -/
def State.ackChunk (s : State) (f : InFlight) (x : Coll) (k : Chunk) : State :=
  s.sendBulk f x k.src 2 k.stage k.neg k.number false []

/-- The sends of the stage that a collective is at; those of a broadcast follow its one stage. Chunks that came before the stage are
acknowledged now, as it takes them. -/
def State.openStage (s : State) (c idx : Nat) (e : Env) (f : InFlight) (b : Bulk) (x : Coll) : State :=
  let s := s.setColl c idx (fun x => { x with opened := true })
  let s := if x.stage == b.hops.findIdx (fun h => h.gather) then s.narrowOwn c idx e b else s
  let s := match b.hops[x.stage]? with
    | some h =>
      let s := if b.op == 3 then s else (s.sendHop c idx e b h false).sendHop c idx e b h true
      (x.inbox.filter (fun (k : Chunk) => k.stage == x.stage)).foldl (fun (s : State) (k : Chunk) => s.ackChunk f x k) s
    | none =>
      if b.op == 3 then
        s.setColl c idx (fun y => { y with
          parcels := y.parcels ++ b.relays.flatMap (fun dest => b.parcels dest 0 false true (y.wireOf e b (List.range b.n))) })
      else s
  s.pump f c idx

/-- Go on with a COLL from the stage that it is at, by fuel: its sends, and once all that it brings has come the next one; after the
last its results, when every chunk that it sent has been acknowledged. -/
def State.runColl (s : State) (c idx : Nat) : Nat → State
  | 0 => s
  | fuel + 1 =>
    match s.collEnv c idx, s.coll? c idx with
    | some (e, f), some x =>
      let b := e.coll
      if !x.begun then s
      else
        let s := if x.opened then s else s.openStage c idx e f b x
        match s.coll? c idx with
        | none => s
        | some x =>
          match b.hops[x.stage]? with
          | some h =>
            if x.whole b h then
              (s.setColl c idx (fun y =>
                let z := (y.take e b h false).take e b h true
                { z with stage := y.stage + 1, opened := false, inbox := y.inbox.filter (fun k => k.stage != y.stage) })).runColl c idx fuel
            else s
          | none =>
            if x.parcels == [] then s.endColl x e f (x.result e b ++ (if e.collRef == 0 then [] else x.carryWrites e)) else s
    | _, _ => s

/-- Fuel for every stage of a collective. -/
def Bulk.fuel (b : Bulk) : Nat := b.hops.length + 2

/-- Data move once this member's operands are at hand and all its neighbours have agreed (13 R330): the carry plane is marked, and the
first stage begins. -/
def State.beginColl (s : State) (c idx : Nat) : State :=
  match s.collEnv c idx, s.coll? c idx with
  | some (e, f), some x =>
    if !x.ready || x.begun || !e.coll.g.neighbours.all x.met.contains then s
    else
      ((f.failWrites.foldl (fun s w => s.writeBytes w.1 w.2) s).setColl c idx (fun x => { x with begun := true })).runColl c idx
        e.coll.fuel
  | _, _ => s

/-- A COLL whose operands are at hand. -/
def State.goColl (s : State) (e : Env) (f : InFlight) : State :=
  let b := e.coll
  let bad := (opColl.ins e).flatMap s.badLocal
  let disc := e.collRef != 0 && !e.collCarry.usable && bits (e.le (e.obj e.collRef) 8) 48 2 != 0
  let none_ := List.replicate b.count (2 ^ 32)
  if bad != [] then (s.sawPoison bad.eraseDups).failInstr f.ctx f.idx 0x0302
  else if s.unservedRuns (opColl.ins e ++ opColl.outs e) then s.failInstr f.ctx f.idx 0x0381
  else
    let s := (s.readRuns (opColl.ins e)).setColl f.ctx f.idx (fun x => { x with
      ready := true
      carryOk := e.collCarry.usable
      discard := disc
      value := e.collStart b
      vs := none_
      qs := none_ })
    (s.setFlight f.ctx f.idx (fun f => { f with phase := .running })).beginColl f.ctx f.idx

/-! ## Chunks (13 R330, R335, R339, R340, R341, R348) -/

/-- A partition of a node, as the postmarks of peers are kept (19 R503: each partition has its own). -/
def peerKey (node part : Nat) : Nat := node + 2 ^ 15 * part

/-- A peer's postmark: 0 as known or first seen, 1 older than known, 2 changed within this collective. -/
def State.peerMark (s : State) (seen : KV) (src part post : Nat) : Nat :=
  let known := kvGet (peerKey src part) post s.coll.marks
  if 512 ≤ (post + 1024 - known) % 1024 then 1
  else if seen.any (fun m => m.1 % 2 ^ 15 == src && (m.1 != peerKey src part || m.2 != post)) then 2
  else 0

/-- A peer's postmark is known now. -/
def State.knowMark (s : State) (src part post : Nat) : State :=
  { s with coll := { s.coll with marks := kvSet (peerKey src part) post s.coll.marks } }

/-- A chunk fails a check: its repeat is asked for, and the collective fails at its second failure (13 R340). -/
def State.badChunk (s : State) (f : InFlight) (x : Coll) (k : Chunk) (code : Nat) : State :=
  let name := (k.stage, k.neg, k.number)
  if x.failed.contains name then s.failColl x.ctx x.idx code
  else
    ((s.setColl x.ctx x.idx (fun x => { x with failed := x.failed ++ [name], repeated := true })).bump 0x3230 3 1).sendBulk f x k.src 3
      k.stage k.neg k.number false []

/-- The first coded block of a stream's bytes so far that is bad; only whole blocks are judged. -/
def badBlock (fmt : Nat) (b : Bytes) (whole : Bool) : Option Nat :=
  let n := codeBlockBytes fmt
  (chunks n b).findIdx? (fun k => (whole || k.length == n) && blockBad fmt k)

/-- The chunks of a ring direction that have come without a gap, as bytes. -/
def prefixBytes (mine : List Chunk) : Nat → Nat → Bytes
  | 0, _ => []
  | fuel + 1, i =>
    match mine.find? (fun k => k.number == i) with
    | some k => k.data ++ prefixBytes mine fuel (i + 1)
    | none => []

/-- Why a chunk is no good, 0 where it is: a residue that its adder finds (13 R340, the adders of a reduction without the exponent
code), the CRC that it carries, or the coded block that ends in it (R339). -/
def Coll.chunkBad (x : Coll) (b : Bulk) (h : Hop) (k : Chunk) (residue : Bool) : Nat :=
  if residue && !h.gather && !b.compress then 0x03B1
  else if b.sealed h.gather then
    (if k.data.length < 4 || leAt k.data (k.data.length - 4) 4 != crc32c (k.data.take (k.data.length - 4)) then 0x03B0 else 0)
  else if b.compress then
    let mine := x.inbox.filter (fun c => c.stage == k.stage && c.neg == k.neg) ++ [k]
    let got := prefixBytes mine (mine.length + 1) 0
    (if (badBlock b.wire got (mine.any (fun c => c.last) && decide (got.length = total (mine.map (fun c => c.data.length))))).isSome
     then 0x03B0 else 0)
  else 0

/-- A chunk as the stage uses it: without the CRC that it carried. -/
def Bulk.open (b : Bulk) (h : Hop) (k : Chunk) : Chunk :=
  if b.sealed h.gather then { k with data := k.data.take (k.data.length - 4) } else k

/-- A chunk for a COLL in flight: it is checked, kept, and acknowledged when its stage takes it. One that comes again is acknowledged
again. -/
def State.gotChunk (s : State) (x : Coll) (e : Env) (f : InFlight) (k : Chunk) (residue : Bool) : State :=
  let b := e.coll
  match b.hops[k.stage]? with
  | none => s
  | some h =>
    if decide (k.stage < x.stage) || x.inbox.any (fun c => c.stage == k.stage && c.neg == k.neg && c.number == k.number) then
      s.ackChunk f x k
    else
      let code := x.chunkBad b h k residue
      if code != 0 then s.badChunk f x k code
      else
        let s := s.setColl x.ctx x.idx (fun x => { x with inbox := x.inbox ++ [b.open h k] })
        if x.begun && k.stage == x.stage then (s.ackChunk f x k).runColl x.ctx x.idx b.fuel else s

/-- The exchange of a neighbour (13 R330): where the members disagree the collective fails with 0x07B1, with nothing written. -/
def State.gotCall (s : State) (x : Coll) (k : Chunk) : State :=
  if k.sig != x.sig then s.failColl x.ctx x.idx 0x07B1
  else (s.setColl x.ctx x.idx (fun x => { x with met := insertNat k.src x.met })).beginColl x.ctx x.idx

/-- The COLL of a group that is in flight at a place in its order. -/
def State.collOf (s : State) (group order : Nat) : Option Coll :=
  s.coll.flight.find? (fun x => !x.post && x.group == group && x.order == order)

/-- A packet of a bulk collective: dropped and counted where its postmark is old; an exchange that comes before this node's own
collective started is kept for it. -/
def State.bulk (s : State) (k : Chunk) (residue : Bool) : State :=
  match s.collOf k.group k.ord with
  | none =>
    if s.peerMark [] k.src k.part k.postmark == 1 then s.bump 0x3230 6 1
    else if k.kind == 0 && decide (kvGet k.group 0 s.coll.orders < k.ord) then
      { s with coll := { s.coll with calls := s.coll.calls ++ [k] } }
    else s
  | some x =>
    let mark := s.peerMark x.marks k.src k.part k.postmark
    if mark == 1 then s.bump 0x3230 6 1
    else if mark == 2 then s.failColl x.ctx x.idx 0x07B2
    else
      let s := (s.knowMark k.src k.part k.postmark).setColl x.ctx x.idx
        (fun x => { x with marks := kvSet (peerKey k.src k.part) k.postmark x.marks })
      match s.coll? x.ctx x.idx, s.collEnv x.ctx x.idx with
      | some x, some (e, f) =>
        let named := fun (p : Parcel) => p.dest == k.src && p.stage == k.stage && p.neg == k.neg && p.number == k.number
        match k.kind with
        | 0 => s.gotCall x k
        | 1 => s.gotChunk x e f k residue
        | 2 =>
          ((s.setColl x.ctx x.idx (fun x => { x with parcels := x.parcels.filter (fun p => !(p.sent && named p)) })).pump f x.ctx
            x.idx).runColl x.ctx x.idx e.coll.fuel
        | _ =>
          (x.parcels.filter (fun p => p.sent && named p)).foldl (fun s p =>
            (s.sendBulk f x p.dest 1 p.stage p.neg p.number p.last p.data).bump 0x3230 2 p.data.length) s
      | _, _ => s

/-! ## Start of COLL (13 R330, R331, R334) -/

/-- A collective of a group is in use by another queue of the node (13 R331). -/
def State.groupUsed (s : State) (group ctx : Nat) : Bool := s.coll.flight.any (fun x => x.group == group && x.ctx != ctx)

/-- A collective takes the next place in its group's order as it starts. -/
def State.joinOrder (s : State) (f : InFlight) (group sig : Nat) (post : Bool) : State :=
  let n := kvGet group 0 s.coll.orders + 1
  let x : Coll := ⟨f.ctx, f.idx, group, post, sig, n, false, [], false, 0, false, false, false, false, [], [], [], [], [], [], [], []⟩
  { s with coll := { s.coll with flight := s.coll.flight ++ [x], orders := kvSet group n s.coll.orders } }

/-- A COLL joins its group's order and tells its neighbours what it is. -/
def State.joinColl (s : State) (e : Env) (f : InFlight) : State :=
  let s := s.joinOrder f e.coll.g.id e.collSig false
  match s.coll? f.ctx f.idx with
  | none => s
  | some x => e.coll.g.neighbours.foldl (fun s n => s.sendBulk f x n 0 0 false 0 false (leBytes 24 x.sig)) s

/-- The neighbours that told before this node's own collective started are heard. -/
def State.hearCalls (s : State) (group : Nat) : State :=
  let early := fun (k : Chunk) => k.group == group && decide (k.ord ≤ kvGet group 0 s.coll.orders)
  (s.coll.calls.filter early).foldl (fun s k => s.bulk k false)
    { s with coll := { s.coll with calls := s.coll.calls.filter (fun k => !early k) } }

/-- COLL starts: empty counts complete at once; a group that another queue uses is refused (13 R330, R331, R334). -/
def startColl (s : State) (e : Env) (f : InFlight) : State :=
  let b := e.coll
  if b.n == 0 then (s.bump 0x3230 1 1).addFlight (f.end_ 0)
  else if s.node == 0xFFFF then (s.addFlight f).failInstr f.ctx f.idx 0x07A0
  else if s.groupUsed b.g.id f.ctx then s.reject f 0x02B0
  else ((s.joinColl e f).launchTo opColl e f (fun s f => s.goColl e f)).hearCalls b.g.id
def mColl : Macro := { opcode := 0x13, op := opColl, start := some startColl }

/-! ## POST at work (13 R344) -/

/-- The positions next along an axis to which a member's own postcard goes first, one by each tree. -/
def Group.firstHops (g : Group) (a : Nat) : List Nat :=
  let n := g.len a
  let p := g.pos a
  if g.full a then (if n == 2 then [(p + 1) % n] else [(p + 1) % n, (p + n - 1) % n])
  else (if p + 1 < n then [p + 1] else []) ++ (if 0 < p then [p - 1] else [])

/-- Send a postcard on to a position of its axis. The layout of a postcard is a DESIGN CHOICE. -/
def State.sendCard (s : State) (g : Group) (k : Card) (post q : Nat) : State :=
  s.sendPacket 0 (g.nodeAt k.axis q) post (beBytes 2 k.group ++ beBytes 4 k.order ++ beBytes 1 k.axis ++ beBytes 1 k.pos ++
    beBytes 1 k.part ++ beBytes 20 k.sig ++ k.payload)

/-- Send a member's own postcard of an axis, by both trees. -/
def State.sendCards (s : State) (f : InFlight) (x : Coll) (g : Group) (a : Nat) (payload : Bytes) : State :=
  (g.firstHops a).foldl (fun s q =>
    s.sendCard g ⟨x.group, x.order, a, g.pos a, f.partition, x.sig, payload⟩ (s.postmark f.partition) q) s

/-- A member's bytes after an axis: every position's joined lane by lane, or the root's under broadcast. -/
def Env.cardJoin (e : Env) (g : Group) (a : Nat) (own : Bytes) (cards : List Card) : Bytes :=
  if e.postKind == 1 then cards.foldl (fun v k => joinCards e.laneOp v (fit 64 k.payload)) own
  else if e.postKind == 2 then
    (match cards.find? (fun k => k.pos == g.posOf g.root a) with
     | some k => if g.pos a == g.posOf g.root a then own else fit 64 k.payload
     | none => own)
  else own

/-- The postcards of an axis that this member waits for have all arrived. -/
def Group.allCards (g : Group) (a : Nat) (cards : List Card) : Bool :=
  (List.range (g.len a)).all (fun p => p == g.pos a || cards.any (fun k => k.pos == p))

/-- What a POST writes once its value is settled: lanes that no operation joins are zero, and a NaN of an FP32 pair lane is the
canonical one in a group of one member too (a lane joined with itself by max stays as it is). -/
def Env.postWrites (e : Env) (val : Bytes) : List (Nat × Bytes) :=
  let lanes := if e.postKind == 1 then joinCards (fun i => if e.laneOp i < 6 then 2 else e.laneOp i) (fit 64 val) (fit 64 val) else val
  let out := fun i => if e.postKind == 1 && e.laneOp (i / 8) == 0 then 0 else leAt lanes i 1
  if e.S 4 == 0 || e.postKind == 0 then [] else e.writeInts (e.desc (e.S 4)) (fun ix => some (out (ix.getD 0 0)))

/-- Go on with a POST while the postcards of its axis are at hand, by fuel. -/
def State.runPost (s : State) (c idx : Nat) : Nat → State
  | 0 => s
  | fuel + 1 =>
    match s.coll? c idx, s.collEnv c idx with
    | some x, some (e, f) =>
      let g := e.postGroup
      let val := x.buf
      if !x.ready then s else
      match g.axes[x.stage]? with
      | none => s.endColl x e f (e.postWrites val)
      | some a =>
        let mine := s.coll.cards.filter (fun k => k.group == x.group && k.order == x.order && k.axis == a)
        if mine.any (fun k => k.sig != x.sig) then s.failColl c idx 0x07B1
        else if g.allCards a mine then
          let s : State := { s with coll := { s.coll with
            cards := s.coll.cards.filter (fun k => k.group != x.group || k.order != x.order || k.axis != a) } }
          let v := e.cardJoin g a val mine
          let s := s.setColl c idx (fun x => { x with stage := x.stage + 1, buf := v })
          (match g.axes[x.stage + 1]? with
           | some b => s.sendCards f x g b v
           | none => s).runPost c idx fuel
        else s
    | _, _ => s

/-- The bytes that a member of a postcard collective starts with: a barrier carries none (13 R344). -/
def Env.postOwn (e : Env) : Bytes :=
  let d := e.desc (e.S 1)
  if e.postKind == 0 then []
  else if opPost.ins e == [] then List.replicate 64 0
  else fit 64 ((List.range (d.dim 0)).map (fun i => BitVec.ofNat 8 (e.uint d [i])))

/-- A POST whose payload is at hand sends its first postcards, and goes on with those that have come. -/
def State.goPost (s : State) (e : Env) (f : InFlight) : State :=
  let g := e.postGroup
  let bad := (opPost.ins e).flatMap s.badLocal
  if bad != [] then (s.sawPoison bad.eraseDups).failInstr f.ctx f.idx 0x0302
  else if s.unservedRuns (opPost.ins e ++ opPost.outs e) then s.failInstr f.ctx f.idx 0x0381
  else
    let s := (s.readRuns (opPost.ins e)).setColl f.ctx f.idx (fun x => { x with ready := true, begun := true, buf := e.postOwn })
    let s := s.setFlight f.ctx f.idx (fun f => { f with phase := .running })
    match s.coll? f.ctx f.idx with
    | none => s
    | some x =>
      (match g.axes[0]? with
       | some a => s.sendCards f x g a x.buf
       | none => s).runPost f.ctx f.idx 4

/-- POST and control collectives that the postcard unit holds (13 R345). -/
def State.cardsHeld (s : State) : Nat := (s.coll.flight.filter (fun x => x.post)).length + s.coll.ctrls.length

/-- A POST beyond what the postcard unit holds waits to start (13 R345). -/
def postWaits (s : State) (e : Env) : Bool :=
  s.node != 0xFFFF && !s.groupUsed e.postGroup.id e.ctx && decide (64 ≤ s.cardsHeld)

/-- POST starts (13 R331): it takes its place in its group's order. -/
def startPost (s : State) (e : Env) (f : InFlight) : State :=
  let g := e.postGroup
  if s.node == 0xFFFF then (s.addFlight f).failInstr f.ctx f.idx 0x07A0
  else if s.groupUsed g.id f.ctx then s.reject f 0x02B0
  else (s.joinOrder f g.id e.postSig true).launchTo opPost e f (fun s f => s.goPost e f)

def mPost : Macro := { opcode := 0x14, op := opPost, start := some startPost, waits := postWaits }

end Sys2Proof.Machine
end

