-- ==== Sys2Proof/Machine/Routing.lean ====
section
/-! DEFINITION. Routing: the opcodes STILL and ROUTE (05 R133 to R147). -/

namespace Sys2Proof.Machine
open Sys2Proof

/-! ## STILL (05 R133 to R137) -/

def Env.stillThreshold (e : Env) : Num := decodeFloat 0 (bits (e.W 2) 0 32)

/-- A row is still: every channel is finite in both tensors and its exact difference lies below Threshold (05 R135). -/
def Env.rowStill (e : Env) (ix : List Nat) : Bool :=
  let a := e.desc (e.S 1)
  let b := e.desc (e.S 2)
  (List.range (a.dim 0)).all (fun i =>
    let x := e.value a (i :: ix.drop 1)
    let y := e.value b (i :: ix.drop 1)
    x.isFin && y.isFin && Num.lt (x.sub y).abs e.stillThreshold.abs)

def opStill : Op where
  dash := fun _ => [3, 5, 6, 7, 11, 13, 14]
  refs := fun e => [⟨e.S 1, true, .tin⟩, ⟨e.S 2, true, if bit (e.W 2) 32 then .tin else .tout⟩, ⟨e.S 4, true, .tout⟩]
  rules := fun e =>
    let a := e.desc (e.S 1)
    let b := e.desc (e.S 2)
    let k := e.desc (e.S 4)
    let t := e.stillThreshold
    let xa := e.s.homeRuns a.extent
    let xb := e.s.homeRuns b.extent
    let xk := e.s.homeRuns k.extent
    firstCode [rule (bits (e.W 2) 33 31 != 0) 0x0102,
      rule (t.isNan || (t.sign && !t.isZero)) 0x013B,
      rule (a.fmt != b.fmt || a.rank != b.rank || a.dims != b.dims || !(a.rank == 2 || a.rank == 3) ||
        (a.narrow && (a.axis != 0 || b.axis != 0)) || extentsMeet xa xb) 0x013B,
      rule (k.fmt != fU32 || k.rank != 1 || decide (k.dim 0 < ceilDiv a.lineCount 32) || extentsMeet xk xa ||
        extentsMeet xk xb) 0x013A]
  ins := fun e => e.tensors [e.S 1, e.S 2]
  outs := fun e => e.tensors ([e.S 4] ++ if bit (e.W 2) 32 then [] else [e.S 2])
  run := fun e =>
    let a := e.desc (e.S 1)
    let b := e.desc (e.S 2)
    let k := e.desc (e.S 4)
    if a.empty then OpOut.idle
    else
      let rows := a.rows
      let stills := rows.map e.rowStill
      let word := fun i => total ((List.range 32).map (fun j => if stills.getD (32 * i + j) false then 2 ^ j else 0))
      let moving := fun ix : List Nat => !(stills.getD (a.rowNo ix) false)
      let n := (stills.filter id).length
      { writes := e.writeInts k (fun ix => if ix.getD 0 0 < ceilDiv rows.length 32 then some (word (ix.getD 0 0)) else none) ++
          (if bit (e.W 2) 32 then [] else
            e.tensorWrites b (fun ix => if moving ix then some (e.elemBits a ix) else none)
              (fun ix => if moving ix then some (e.scaleByte a ix) else none))
        detail := min n 0xFFFFFFFF
        tasks := e.lineTasks a
        counts := [tick 0x3170 2 n] }
  idle := fun e => (e.desc (e.S 1)).empty

/-! ## ROUTE (05 R140 to R145) -/

def Env.routeK (e : Env) : Nat := bits (e.W 2) 0 4
def Env.routeMode (e : Env) : Nat := bits (e.W 2) 4 2
def Env.routeE (e : Env) : Nat := (e.desc (e.S 1)).dim 0
def Env.routeT (e : Env) : Nat := (e.desc (e.S 1)).dim 1

/-- A larger score comes first; NaN comes below every number (05 R142). -/
def scoreGt (x y : Num) : Bool := if x.isNan then false else if y.isNan then true else Num.lt y x

/-- One assignment: token, expert, rank, score and gate. -/
structure Assign where
  token : Nat
  expert : Nat
  rank : Nat
  score : Num
  gate : Num
  deriving DecidableEq, Repr

/-- The assignments of a token in rank order, gates computed (05 R142, R144). -/
def Env.routeToken (e : Env) (t : Nat) : List Assign :=
  let d := e.desc (e.S 1)
  let all := (List.range e.routeE).map (fun i => (i, e.value d [i, t]))
  let sel := (sortBy (fun x y => scoreGt x.2 y.2) all).take e.routeK
  let s0 := (sel.headD (0, Num.zero)).2
  let ex := fun s => sfuExp (fsub s s0)
  let den := if e.routeMode == 0 then (match sel.map (fun x => ex x.2) with
      | [] => Num.zero
      | y :: r => r.foldl fadd y)
    else sum102 (all.map (fun x => ex x.2))
  sel.zipIdx.map (fun (x, r) => ⟨t, x.1, r, x.2, if e.routeMode == 2 then x.2 else fdiv (ex x.2) den⟩)

def Env.routeAll (e : Env) : List Assign := (List.range e.routeT).flatMap e.routeToken

/-- The assignments that an expert keeps, in ascending token index (05 R143). -/
def routeKept (all : List Assign) (cap ex : Nat) : List Assign :=
  let mine := sortBy (fun x y => x.rank < y.rank || (x.rank == y.rank && scoreGt x.score y.score))
    (all.filter (fun x => x.expert == ex))
  sortBy (fun x y => x.token < y.token) (mine.take cap)

def opRoute : Op where
  dash := fun _ => [2, 3, 6, 7, 11, 13, 14]
  refs := fun e => [⟨e.S 1, true, .tin⟩, ⟨e.S 4, true, .tout⟩, ⟨e.S 5, false, .tout⟩]
  rules := fun e =>
    let d := e.desc (e.S 1)
    let o := e.desc (e.S 4)
    let c := e.desc (e.S 5)
    firstCode [rule (bits (e.W 2) 6 58 != 0) 0x0102,
      rule (decide (256 < e.routeE) || decide (8 < e.routeK) || decide (e.routeE < e.routeK) || e.routeMode == 3) 0x013C,
      rule (decide (1 < d.fmt) || d.rank != 2 || o.fmt != fU32 || o.rank != 3 || o.dim 1 != 3 || o.dim 2 != e.routeE ||
        (e.S 5 != 0 && (c.fmt != fU32 || c.rank != 2 || c.dim 0 != e.routeE || c.dim 1 != 2))) 0x013D]
  ins := fun e => e.tensors [e.S 1]
  outs := fun e => e.tensors [e.S 4, e.S 5]
  run := fun e =>
    let d := e.desc (e.S 1)
    let o := e.desc (e.S 4)
    if d.empty || o.empty || e.routeK == 0 then OpOut.idle
    else
      let all := e.routeAll
      let cap := o.dim 0
      let kept := (List.range e.routeE).map (fun x => routeKept all cap x)
      let made := fun x => (all.filter (fun y => y.expert == x)).length
      let nKept := total (kept.map (fun l => l.length))
      let mask := fun (x i : Nat) => total ((List.range 32).map (fun j =>
        if (kept.getD x []).length ≤ 32 * i + j && 32 * i + j < cap then 2 ^ j else 0))
      { writes := e.writeInts o (fun ix =>
            let i := ix.getD 0 0
            let k := kept.getD (ix.getD 2 0) []
            match ix.getD 1 0 with
            | 0 => some ((k[i]?.map (fun y => y.token)).getD 0xFFFFFFFF)
            | 1 => some ((k[i]?.map (fun y => bits32 y.gate)).getD 0)
            | _ => if i < ceilDiv cap 32 then some (mask (ix.getD 2 0) i) else none) ++
          (if e.S 5 == 0 then [] else e.writeInts (e.desc (e.S 5)) (fun ix =>
            some (if ix.getD 1 0 == 0 then made (ix.getD 0 0) else (kept.getD (ix.getD 0 0) []).length)))
        notes := (if nKept < all.length then [0x0030] else []) ++
          (if all.any (fun x => x.score.isNan) then [0x0031] else [])
        tasks := e.lineTasks d
        counts := [tick 0x3170 7 nKept, tick 0x3170 8 (all.length - nKept)] }
  idle := fun e => (e.desc (e.S 1)).empty || (e.desc (e.S 4)).empty || e.routeK == 0

end Sys2Proof.Machine
end

