-- ==== Sys2Proof/Machine/Instructions.lean ====
section
/-! DEFINITION. Instructions: the macro-instruction rows that run on operands, what brings their remote operands, and their
completion. -/

namespace Sys2Proof.Machine
open Sys2Proof

/-! ## The rows of R68 that run as cell tasks or stream transfers -/

def mMma : Macro := cellMacro 0x01 opMma
def mMmas : Macro := cellMacro 0x02 opMmas
def mConv : Macro := cellMacro 0x03 opConv
def mPool : Macro := cellMacro 0x04 opPool
def mAttf : Macro := cellMacro 0x05 opAttf
def mAttb : Macro := cellMacro 0x06 opAttb
def mLatx : Macro := cellMacro 0x07 opLatx
def mKvap : Macro := cellMacro 0x08 opKvap
def mSfn : Macro := cellMacro 0x09 opSfn
def mNorm : Macro := cellMacro 0x0A opNorm
def mSmax : Macro := cellMacro 0x0B opSmax
def mSamp : Macro := cellMacro 0x0C opSamp
def mRand : Macro := cellMacro 0x0D opRand
def mQnt : Macro := cellMacro 0x0E opQnt
def mRoute : Macro := cellMacro 0x0F opRoute
def mGath : Macro := cellMacro 0x10 opGath
def mScat : Macro := cellMacro 0x11 opScat
def mCopy : Macro := { opcode := 0x12, op := opCopy, cells := fun e => !e.copyMan }
def mStill : Macro := cellMacro 0x18 opStill
def mArgmx : Macro := cellMacro 0x19 opArgmx

/-- The opcodes whose work is done at one moment. -/
def runMacros : List Macro :=
  [mMma, mMmas, mConv, mPool, mAttf, mAttb, mLatx, mKvap, mSfn, mNorm, mSmax, mSamp, mRand, mQnt, mRoute, mGath, mScat, mCopy,
   mStill, mArgmx]

def opOf (opcode : Nat) : Option Op := (runMacros.find? (fun m => m.opcode == opcode)).map (fun m => m.op)

/-! ## Arrival of operands -/

/-- What an instruction in flight sees: its LateHistoryPath is the one it was checked with (06 R166, R176). -/
def State.lateEnv (s : State) (x : Ctx) (f : InFlight) (arrived : List Req) : Env :=
  let e := s.env x f.idx f.slot arrived f.hist
  { e with latePath := f.latePath, carryThen := if f.carryThen.isSome then f.carryThen else e.carryThen }

/-- The operands of an opcode that may stand on other nodes. -/
def fetchOp (opcode : Nat) : Option Op :=
  if opcode == 0x13 then some opColl
  else if opcode == 0x14 then some opPost
  else if opcode == 0x1A then some opCodec
  else opOf opcode

/-- An instruction whose operands are at hand does its work. -/
def State.goOn (s : State) (o : Op) (e : Env) (f : InFlight) : State :=
  if f.opcode == 0x13 then s.goColl e f
  else if f.opcode == 0x14 then s.goPost e f
  else if f.opcode == 0x1A then s.goCodec e f
  else s.finishRun o e f

/-- Send again for the runs of undecided history blocks that are no longer asked for: a reset drops requests that are not yet
answered (19 R500 step 3), and a restored instruction goes on from where it was (06 R174). -/
def State.askHistory (s : State) (c idx : Nat) : State :=
  match s.ctx? c, s.flight? c idx with
  | some x, some f =>
    match (s.lateEnv x f []).history with
    | none => s
    | some h =>
      (f.histWait.flatMap (fun b => ((h.store.blockRuns b).filter (fun r => r.2 != 0 && !s.cs.reqs.any (fun q =>
        q.kind == .history && q.ctx == c && q.idx == idx && q.seq == b && q.addr == gLocal r.1))).map (fun r => (b, r)))).foldl
        (fun s y => s.request .history c idx f.partition (gNode y.2.1) (gLocal y.2.1) y.2.2 [] 0 y.1) s
  | _, _ => s

/-- An instruction that fetches goes on: it asks for what it lacks, or does its work. -/
def State.resumeRun (s : State) (c idx : Nat) : State :=
  match s.ctx? c, s.flight? c idx with
  | some x, some f =>
    match fetchOp f.opcode with
    | none => s
    | some o =>
      if f.phase == .fetching && !f.stopped then
        let e := s.lateEnv x f (s.arrived c idx)
        s.bring o e f (fun s f => s.goOn o e f)
      else s
  | _, _ => s

/-- A history block's path is decided (06 R173): 1 primary, 2 recompute, 3 reduced window, 4 fail, which ends the instruction. A
miss writes a last-post event. -/
def State.decideBlock (s : State) (f : InFlight) (block path : Nat) : State :=
  let s := (if path == 1 then s else s.post (s.partUnit f.partition) 8 0 s.anyDetail).countPath true path
  let s := s.setFlight f.ctx f.idx (fun f => { f with
    hist := kvSet block path f.hist
    histWait := f.histWait.filter (fun b => b != block) })
  if path == 4 then s.failInstr f.ctx f.idx 0x0440 else s.resumeRun f.ctx f.idx

/-- The history of an instruction in flight, as it stands. -/
def State.historyOf (s : State) (f : InFlight) : Option Hist :=
  match s.ctx? f.ctx with
  | none => none
  | some x => (s.lateEnv x f []).history

/-- The path that a missed block takes. -/
def Hist.missPath (h : Hist) : Nat := h.path + 1

/-- A block's bytes arrive: each of its runs is held as an answered read. -/
def State.holdBlock (s : State) (f : InFlight) (runs : List (Nat × Nat)) (data : Bytes) : State :=
  match runs with
  | [] => s
  | r :: l =>
    let id := s.cs.nextReq
    let q : Req := ⟨id, f.ctx, f.idx, .read, gNode r.1, gLocal r.1, r.2, data.take r.2, [], 0, f.partition, true, 0, 0⟩
    ({ s with cs := { s.cs with reqs := s.cs.reqs ++ [q], nextReq := id + 1 } } : State).holdBlock f l (data.drop r.2)

/-- A request for a history block. -/
def Req.fetches (c idx block : Nat) (r : Req) : Bool := r.kind == .history && r.ctx == c && r.idx == idx && r.seq == block

/-- A history block's fetch comes to an end (06 R173, R174): a reply that comes after its path was decided, or its instruction
completed, is late, but a failure of the request is no reply. -/
def State.historyArrival (s : State) (c idx block : Nat) (ok reply : Bool) (data : Bytes) : State :=
  let gone := s.dropReqs (Req.fetches c idx block)
  let late := if reply then gone.bump 0x3180 5 1 else gone
  match s.flight? c idx with
  | none => if s.cs.reqs.any (Req.fetches c idx block) then late else if reply then s.bump 0x4003 5 1 else s
  | some f =>
    if !f.histWait.contains block then late
    else
      match s.historyOf f with
      | none => s
      | some h =>
        let runs := h.store.blockRuns block
        if ok && data.length == total (runs.map (fun r => r.2)) then (gone.holdBlock f runs data).decideBlock f block 1
        else gone.decideBlock f block h.missPath

/-- A history block's deadline passes (06 R173). -/
def State.historyLate (s : State) (c idx block : Nat) : State :=
  match s.flight? c idx with
  | none => s
  | some f =>
    if !f.histWait.contains block then s
    else
      match s.historyOf f with
      | none => s
      | some h => s.decideBlock f block h.missPath

/-! ## Meanings: doorbells -/

/-- NEW_TAIL (03 R55, R56): narrower writes are ignored and counted. -/
def execNewTail (c width value : Nat) (s : State) : Out :=
  .next (if width == 8 then (s.bellFetch c).bellTail c value else s.bellIgnored)

/-- RESUME (03 R57, R79): a job that now meets 16 R421 is finished. -/
def execResume (c value : Nat) (s : State) : Out := .next (((s.bellFetch c).bellResume c value).finishJob c)

/-! ## Meanings: macro-instructions -/

/-- MMA (03 R70, R71; 04; 05 R119). -/
def execMma (c idx : Nat) (s : State) : Out := .next (s.startMacro mMma c idx)
/-- MMAS (05 R123 to R132). -/
def execMmas (c idx : Nat) (s : State) : Out := .next (s.startMacro mMmas c idx)
/-- CONV (08 R202 to R212). -/
def execConv (c idx : Nat) (s : State) : Out := .next (s.startMacro mConv c idx)
/-- POOL (08 R213 to R215). -/
def execPool (c idx : Nat) (s : State) : Out := .next (s.startMacro mPool c idx)
/-- ATTF (06 R149 to R158, R167). -/
def execAttf (c idx : Nat) (s : State) : Out := .next (s.startMacro mAttf c idx)
/-- ATTB (06 R159 to R161). -/
def execAttb (c idx : Nat) (s : State) : Out := .next (s.startMacro mAttb c idx)
/-- LATX (06 R162 to R166). -/
def execLatx (c idx : Nat) (s : State) : Out := .next (s.startMacro mLatx c idx)
/-- KVAP (06 R169 to R171). -/
def execKvap (c idx : Nat) (s : State) : Out := .next (s.startMacro mKvap c idx)
/-- SFN (07 R181 to R189). -/
def execSfn (c idx : Nat) (s : State) : Out := .next (s.startMacro mSfn c idx)
/-- NORM (07 R190 to R194). -/
def execNorm (c idx : Nat) (s : State) : Out := .next (s.startMacro mNorm c idx)
/-- SMAX (07 R195, R196). -/
def execSmax (c idx : Nat) (s : State) : Out := .next (s.startMacro mSmax c idx)
/-- SAMP (09 R228 to R230). -/
def execSamp (c idx : Nat) (s : State) : Out := .next (s.startMacro mSamp c idx)
/-- RAND (09 R225 to R227). -/
def execRand (c idx : Nat) (s : State) : Out := .next (s.startMacro mRand c idx)
/-- QNT (02 R581). -/
def execQnt (c idx : Nat) (s : State) : Out := .next (s.startMacro mQnt c idx)
/-- ROUTE (05 R140 to R145). -/
def execRoute (c idx : Nat) (s : State) : Out := .next (s.startMacro mRoute c idx)
/-- GATH (03 R72, R73). -/
def execGath (c idx : Nat) (s : State) : Out := .next (s.startMacro mGath c idx)
/-- SCAT (03 R72, R74). -/
def execScat (c idx : Nat) (s : State) : Out := .next (s.startMacro mScat c idx)
/-- COPY (03 R75, 10 R262 to R264). -/
def execCopy (c idx : Nat) (s : State) : Out := .next (s.startMacro mCopy c idx)
/-- STILL (05 R133 to R136). -/
def execStill (c idx : Nat) (s : State) : Out := .next (s.startMacro mStill c idx)
/-- ARGMX (08 R216, R217). -/
def execArgmx (c idx : Nat) (s : State) : Out := .next (s.startMacro mArgmx c idx)
/-- WAIT (03 R76 to R78). -/
def execWait (c idx : Nat) (s : State) : Out := .next (s.startMacro mWait c idx)
/-- SIGNAL (03 R76 to R78, R81, R82; 10 R258). -/
def execSignal (c idx : Nat) (s : State) : Out := .next (s.startMacro mSignal c idx)
/-- FENCE (03 R81, R82; 10 R258). -/
def execFence (c idx : Nat) (s : State) : Out := .next (s.startMacro mFence c idx)
/-- NOP (03 R68, R86). -/
def execNop (c idx : Nat) (s : State) : Out := .next (s.startMacro mNop c idx)

/-! ## Meanings: completion -/

/-- INSTRUCTION_COMPLETE (03 R79, R88 to R93; 16 R421, R424). -/
def execInstructionComplete (c idx : Nat) (s : State) : Out := .next (s.complete c idx)

/-- WAIT_SATISFIED (03 R78, R92, 10 R239): the semaphore is read, and the WAIT ends where its condition is met or it cannot be
read. -/
def execWaitSatisfied (c idx : Nat) (s : State) : Out :=
  .next (match s.waiting? c idx with
    | some f =>
      match s.waitRead f with
      | some code => s.endWait f code
      | none => s
    | none => s)

/-- WAIT_TIMEOUT (03 R78, R90): the semaphore is read once more; a Timeout of zero is no limit. -/
def execWaitTimeout (c idx : Nat) (s : State) : Out :=
  .next (match s.waiting? c idx with
    | some f =>
      if bits (leAt f.slot 48 8) 32 24 == 0 then s
      else
        match s.waitRead f with
        | some code => s.endWait f code
        | none => ((s.bump 0x3150 5 1).setFlight c idx (fun f => f.end_ 0x0401)).complete c idx
    | none => s)

/-! ## Meanings: tasks, chains and history -/

/-- The running tasks of a cell, in the order it took them. -/
def State.runningIn (s : State) (cell : Nat) : List Task :=
  s.office.tasks.filter (fun t => t.cell == cell && t.phase == .running)

/-- TASK_TAKE (11 R284): the cell's task `which` ends; its cycles are charged to its context, and the cell takes the next. -/
def execTaskTake (cell which : Nat) (s : State) : Out :=
  .next (if 256 ≤ cell then s else
    match (s.runningIn cell)[which]? with
    | none => s.serveTasks
    | some t =>
      let n := s.cycle
      (((({ s.drew with office := { s.office with tasks := s.office.tasks.filter (fun x => x != t) } } : State).setCtx t.ctx
        (fun x => { x with cellCycles := (x.cellCycles + n) % 2 ^ 64 })).serveTasks)))

/-- The gather chain of an instruction that a cell belongs to: the cells of its grid column in its region, in ascending cell id; the
first is the head (04 R112). -/
def State.chainOf (s : State) (c idx cell : Nat) : List Nat :=
  match s.cs.grids.find? (fun g => g.1 == c && g.2.1 == idx && g.2.2.2 == cell) with
  | none => []
  | some h => sortBy (fun x y => decide (x < y))
      ((s.cs.grids.filter (fun g => g.1 == c && g.2.1 == idx && g.2.2.1 == h.2.2.1 && g.2.2.2 / 64 == cell / 64)).map (fun g => g.2.2.2))

/-- The bytes of chunks that a member reads from the weight cache once it has left: a part, that depends on when it left and so is
free, of the sheeted operand for each task row of its cell. -/
def State.fallbackBytes (s : State) (f : InFlight) (cell : Nat) : Nat :=
  match s.ctx? f.ctx with
  | none => 0
  | some x =>
    let e := s.lateEnv x f []
    let rows := ((s.office.tasks.filter (fun t => t.ctx == f.ctx && t.idx == f.idx && t.cell == cell)).map (fun t => t.pane)).length
    s.free 0 % (rows * total ((e.desc (e.S 2)).extent.map (fun r => r.2)) + 1)

/-- CHAIN_HOP_TIMEOUT (04 R113): a member of a running instruction's chain leaves it for the rest of the instruction; one that
waited reads what remains from the weight cache. The head waits for no chunk, and the last member forwards none. -/
def execChainHopTimeout (c idx cell : Nat) (fwd : Bool) (s : State) : Out :=
  .next (match s.flight? c idx with
    | none => s
    | some f =>
      let l := s.chainOf c idx cell
      if !s.chained f || !l.contains cell || (if fwd then l.getLast? else l.head?) == some cell || f.phase != .running ||
          s.cs.chainLeft.contains (c, idx, cell) then s
      else
        let s : State := { s with cs := { s.cs with chainLeft := s.cs.chainLeft ++ [(c, idx, cell)] } }
        let s := s.bump 0x3160 4 1
        if fwd then s else (s.bump 0x3160 5 (s.fallbackBytes f cell)).drew)

/-- HISTORY_FETCH_ARRIVAL (06 R173, R174). -/
def execHistoryFetchArrival (c idx block : Nat) (ok : Bool) (data : Bytes) (s : State) : Out :=
  .next (s.historyArrival c idx block ok true data)

/-- HISTORY_DEADLINE (06 R173). -/
def execHistoryDeadline (c idx block : Nat) (s : State) : Out := .next (s.historyLate c idx block)

/-- A task of an instruction draws from the generator of a cell in which 16 reseeds in a row have been deferred. -/
def State.dry (s : State) (f : InFlight) : Bool :=
  f.phase == .running && isSuccess f.status && s.office.tasks.any (fun t => t.ctx == f.ctx && t.idx == f.idx &&
    (t.phase == .unposted || t.phase == .posted || t.phase == .running) && kvGet t.pane 0 f.draws != 0 &&
    decide (16 ≤ (s.cell t.cell).deferred))

/-- Instructions with such a task fail with 0x0570 (09 R224). -/
def State.failDry (s : State) : State := (s.cs.flight.filter s.dry).foldl (fun s f => s.failInstr f.ctx f.idx 0x0570) s

/-- A cell's generator is reseeded, or its reseed deferred while the TRNG withholds its output (09 R223, R224). -/
def State.reseedCell (s : State) (cell : Nat) : State :=
  if s.sec.trngFail then ((s.setCell cell (fun c => { c with deferred := c.deferred + 1 })).bump 0x31B0 5 1).failDry
  else (s.setCell cell (fun c => { c with deferred := 0 })).bump 0x31B0 4 1

/-- RESEED (09 R223, R224): of any cell, fenced or not. -/
def execReseed (cell : Nat) (s : State) : Out := .next (if 256 ≤ cell then s else s.reseedCell cell)

end Sys2Proof.Machine
end

