-- ==== Sys2Proof/Machine/Memory.lean ====
section
/-! DEFINITION. Memory: scrubbing, write combining, remote service, allocation, zeroing, live retraining (10), and the answers
to remote requests (03 R78, R82, 19 R504). -/

namespace Sys2Proof.Machine
open Sys2Proof

/-! ## Scrub, write combining, unmapped accesses -/

/-- SCRUB (10 R242, R272): corrected codewords are counted and logged; uncorrectable ones are left as they are, counted and
logged. `bad` are the numbers of their 16-byte units. -/
def execScrub (channel corrected : Nat) (bad : List Nat) (s : State) : Out :=
  .next (if decide (24 ≤ channel) || !(s.chan channel).active || s.board.power == 2 then s
    else
      let s := (s.bump 0x31C0 3 corrected).bump 0x31C1 (channel + 1) corrected
      let s := if corrected == 0 then s else s.log (unitChan channel) 0 0 (s.partOfUnit (unitChan channel)) corrected
      let us := (bad.filter (fun u => s.mem.window (16 * u) == 1 && s.chanOf (16 * u) == channel)).eraseDups
      if us == [] then s
      else
        let s : State := { s with mem := { s.mem with poison := us.foldl (fun l u => insertNat u l) s.mem.poison } }
        let s := ((s.bump 0x31C0 4 us.length).raise 6 0x0302).badReads channel us.length
        us.foldl (fun s u => s.log (unitChan channel) 0x0302 1 (s.partOfUnit (unitChan channel)) (16 * u)) s)

/-- WCB_AGE_RETIRE (10 R251): the oldest entry of a controller retires. -/
def execWcbAgeRetire (channel : Nat) (s : State) : Out :=
  .next (match s.mem.wcb.find? (fun e => e.channel == channel) with
    | some e => s.retireWcb e
    | none => s)

/-- An access that R245 completes without effect. -/
def State.unmapped (s : State) (a : Nat) (write : Bool) : Bool :=
  let w := s.mem.window a
  w == 0 || w == 5 || (write && decide (0x300 ≤ w)) ||
    (w == 4 && !(decide (0xF001000000 ≤ a) && decide (a < 0xF001000000 + 8 * 2 ^ 20)))

/-- UNMAPPED_ACCESS (10 R245, R272). -/
def execUnmappedAccess (addr : Nat) (write : Bool) (s : State) : Out :=
  .next (if s.unmapped addr write then s.bump 0x31C0 0x10 1 else s)

/-! ## Objects -/

/-- The checks of an allocation record (10 R253). -/
def State.checkAlloc (s : State) (r : Bytes) : Nat :=
  let size := leAt r 0 8
  if size == 0 || decide (164 * 2 ^ 30 < size) then 0x0180
  else if bits (leAt r 8 4) 21 11 != 0 || leAt r 12 20 != 0 || bits (leAt r 8 4) 16 2 == 3 ||
      !s.partExists (bits (leAt r 8 4) 19 2) then 0x0181
  else 0

/-- Room for an allocation, by evicting copies (10 R260). -/
def State.allocRoom (s : State) (size : Nat) : State := s.makeRoom (roundUp size 4096) (s.mem.copies.length + 1)

/-- Place an object here (10 R254, R255): its base, or the code of a refusal, which evicts no copy and changes nothing. Its bytes read
as zero, whatever was written to the free granules. -/
def State.allocHere (s : State) (p size client : Nat) : State × Nat × Nat :=
  let n := roundUp size 4096
  let t := s.allocRoom size
  let waiting := total (s.mem.unzeroed.map (fun u => u.2))
  match s.place p n true with
  | some a =>
    if t.freeBytesPool < n then (s, if n ≤ t.freeBytesPool + waiting then 0x0281 else 0x0280, 0)
    else
      let t := t.clearRun a n
      ({ t with mem := { t.mem with objects := t.mem.objects ++ [⟨a, n, client, 0xFFFF, false, p⟩] } }, 0, a)
  | none => (s, if (s.place p n false).isSome then 0x0281 else 0x0280, 0)

/-- Ask the next cache peer after number `k` (10 R254), or answer: 0x0280 where a peer answered, else 0x0780. -/
def State.askPeer (s : State) (sess seq : Nat) (record : Bytes) (answered : Bool) (k : Nat) : Nat → State
  | 0 => s
  | f + 1 =>
    if 8 ≤ k then s.reply sess seq (if answered then 0x0280 else 0x0780) 0 0
    else
      let node := s.dget 0x2341 (k + 1)
      if node == 0xFFFF || s.unreachable node != 0 then s.askPeer sess seq record answered (k + 1) f
      else s.request .alloc 0 (if answered then 1 else 0) (bits (leAt record 8 4) 19 2) node 0 (k + 1) record sess seq

/-- Serve an allocation request of a session (10 R253 to R255): its reply is sent now, or when a peer has answered. -/
def State.allocate (s : State) (sess seq : Nat) (r : Bytes) : State :=
  let code := s.checkAlloc r
  let tier := bits (leAt r 8 4) 16 2
  let remote := fun (s : State) =>
    if (List.range 8).all (fun k => s.dget 0x2341 (k + 1) == 0xFFFF) then s.reply sess seq 0x0182 0 0
    else s.askPeer sess seq r false 0 10
  if code != 0 then s.reply sess seq code 0 0
  else if tier == 2 then remote s
  else
    let t := s.allocHere (bits (leAt r 8 4) 19 2) (leAt r 0 8) (leAt r 8 2)
    if t.2.1 == 0 then t.1.reply sess seq 0 0 t.2.2
    else if tier == 1 then remote t.1
    else t.1.reply sess seq t.2.1 0 0

/-- A peer granted an allocation: the object is listed with its home (10 R254). -/
def State.granted (s : State) (q : Req) (base : Nat) : State :=
  let o : Obj := ⟨base, roundUp (leAt q.data 0 8) 4096, leAt q.data 8 2, q.node, bit (leAt q.data 8 4) 18,
    bits (leAt q.data 8 4) 19 2⟩
  ({ s with mem := { s.mem with objects := s.mem.objects ++ [o] } } : State).reply q.session q.seq 0 0 (gMake q.node base)

/-- Drop a local object: its granules wait to be zeroed (10 R255, R256). -/
def State.dropObj (s : State) (o : Obj) : State :=
  { s with mem := { s.mem with
      objects := s.mem.objects.filter (fun x => x != o)
      unzeroed := s.mem.unzeroed ++ [(o.base, o.size)] } }

/-- Serve a free request of a session (10 R256): forwarded where the home is remote, which says whether it is a live object's base. -/
def State.freeObj (s : State) (sess seq g : Nat) : State :=
  if s.gHere g then
    match s.mem.localObjs.find? (fun o => o.base == gAddr g) with
    | some o => (s.dropObj o).reply sess seq 0 0 0
    | none => s.reply sess seq 0x0185 0 0
  else
    let code := s.unreachable (gNode g)
    if code != 0 then s.reply sess seq code 0 0
    else s.request .free 0 0 (s.objPart (gNode g) (gLocal g)) (gNode g) (gLocal g) 0 [] sess seq

/-- Remote addresses that stand in no live object are refused by a partition in cache role; under one set, where every
partition of the layout is in that role (10 R256). -/
def State.cacheOnly (s : State) (a : Nat) : Bool :=
  match s.partOfAddr a with
  | some p => s.role p == 3
  | none => (List.range s.nParts).all (fun p => s.role p == 3)

/-- The partition that serves a remote access is in reset: the one of an object that holds the address, or of the address's
set (19 R500 step 1). -/
def State.stoppedAt (s : State) (a : Nat) : Bool :=
  match s.mem.localObjs.find? (fun o => decide (o.base ≤ a) && decide (a < o.base + o.size)) with
  | some o => s.office.stopped.contains o.set
  | none =>
    match s.partOfAddr a with
    | some p => s.office.stopped.contains p
    | none => false

/-- A granule of a run lies in no live object, where its partition refuses that. -/
def State.cacheGap (s : State) (a n : Nat) : Bool :=
  (List.range ((a + n - 1) / 4096 + 1 - a / 4096)).any (fun i =>
    let g := 4096 * (a / 4096 + i)
    s.cacheOnly g && !s.mem.localObjs.any (fun o => decide (o.base ≤ g) && decide (g < o.base + o.size)))

/-- Why a remote read or write of `n` bytes is refused, 0 where it is served (10 R256, 12 R324, 20 R550). -/
def State.remoteCode (s : State) (write : Bool) (a n : Nat) : Nat :=
  if s.board.phase != .serving || s.stoppedAt a then 0x0701
  else if s.board.power == 2 then 0x07FC
  else if decide (2 ^ 40 ≤ a) || s.tensorWindow write a (a + (n - 1)) == 0 then 0x0702
  else if s.mem.window a == 1 && decide (s.mem.reserveBase < a + n) then 0x0702
  else if s.mem.window a == 1 && s.cacheGap a n then 0x0702
  else if s.unserved [(a, n)] then 0x0381
  else 0

/-- Refuse a request: flits refused by the router for a unit in reset are counted (12 R324, R327). -/
def State.refuseRequest (s : State) (part src code : Nat) : State :=
  let s := if code == 0x0701 then s.bump 0x3210 0xA 1 else s
  s.refuse part src code

/-- REMOTE_ACCESS (10 R256, R582). -/
def execRemoteAccess (r : RemoteReq) (s : State) : Out :=
  .next (
    let head := beBytes 4 r.tag
    if r.kind == 2 then
      let code := if s.board.phase != .serving then 0x0701 else if s.board.power == 2 then 0x07FC else 0
      if code != 0 then s.refuseRequest (s.homePart r.addr) r.src code
      else
        match s.mem.localObjs.find? (fun o => o.base == r.addr) with
        | some o => (s.dropObj o).respond o.set r.src r.postmark head
        | none => s.refuse (s.homePart r.addr) r.src 0x0185
    else
      let write := r.kind == 1
      let n := if write then r.data.length else r.len
      let code := if n == 0 then 0 else s.remoteCode write r.addr n
      if code != 0 then s.refuseRequest (s.homePart r.addr) r.src code
      else if write then (s.writeBytes r.addr r.data).respond (s.homePart r.addr) r.src r.postmark head
      else
        let us := s.mem.poisonIn r.addr n
        let t := if us == [] then s else s.sawPoison us
        (t.readRuns [(r.addr, n)]).respond (s.homePart r.addr) r.src r.postmark
          (head ++ beBytes 2 us.length ++ us.flatMap (fun u => beBytes 8 u) ++ s.readBytes r.addr n))

/-- REMOTE_SIGNAL (03 R76, R78): an address that is not aligned, not in the window, or refused under R256 changes nothing. -/
def execRemoteSignal (src postmark addr op operand : Nat) (s : State) : Out :=
  .next (
    let code := s.remoteCode true addr 8
    if code == 0x0701 || code == 0x07FC then s.refuseRequest (s.homePart addr) src code
    else if code == 0x0702 || addr % 8 != 0 || decide (s.mem.windowBytes < addr + 8) || op % 4 == 3 then
      s.refuse (s.homePart addr) src 0x0702
    else if code != 0 then s.refuse (s.homePart addr) src code
    else (s.semApply addr op (operand % 2 ^ 64)).respond (s.homePart addr) src postmark [])

/-- REMOTE_ALLOC (10 R254): the lowest-numbered cache-role partition with room grants it. The answer carries the base, or
nothing for a lack of room. -/
def execRemoteAlloc (src postmark : Nat) (record : Bytes) (s : State) : Out :=
  .next (
    if s.board.phase != .serving then s.refuseRequest 0 src 0x0701
    else if s.board.power == 2 then s.refuse 0 src 0x07FC
    else
      let n := leAt record 0 8
      match (List.range s.nParts).find? (fun p => s.role p == 3 && (s.allocHere p n 0).2.1 == 0) with
      | some p =>
        let t := s.allocHere p n (leAt record 8 2)
        t.1.respond p src postmark (beBytes 8 t.2.2)
      | none => s.respond 0 src postmark [])

/-! ## Zeroing (10 R255) -/

/-- A run without the granule at `a`. -/
def cutGranule (a : Nat) (r : Nat × Nat) : List (Nat × Nat) :=
  if r.1 ≤ a && a < r.1 + r.2 then
    (if r.1 < a then [(r.1, a - r.1)] else []) ++
      (if a + 4096 < r.1 + r.2 then [(a + 4096, r.1 + r.2 - (a + 4096))] else [])
  else [r]

/-- GRANULE_ZEROING (10 R255): the granule reads as zero and becomes free. -/
def execGranuleZeroing (granule : Nat) (s : State) : Out :=
  .next (
    let a := 4096 * granule
    if s.mem.unzeroed.any (fun r => decide (r.1 ≤ a) && decide (a < r.1 + r.2)) then
      let s := s.clearRun a 4096
      { s with mem := { s.mem with unzeroed := s.mem.unzeroed.flatMap (cutGranule a) } }
    else s)

/-! ## Live retraining (10 R266 to R269) -/

/-- Channel n's partner (10, Live retraining). -/
def partner (n : Nat) : Nat := if n % 2 == 0 then n + 1 else n - 1

/-- A live session of a channel is possible (10 R266). -/
def State.trainable (s : State) (n : Nat) : Bool :=
  (s.chan n).active && (s.chan (partner n)).active && (s.chan n).detour == []

def State.sessionRunning (s : State) : Bool := s.mem.chans.any (fun c => c.session != 0)

/-- Steps 1 to 5 of a session (10 R267): the controller's write-combining entries are drained, and training begins. -/
def State.startSession (s : State) (n : Nat) (viaReset : Bool) : State :=
  let s := (s.mem.wcb.filter (fun e => e.channel == n)).foldl (fun s e => s.retireWcb e) s
  (s.setChan n (fun c => { c with session := 4, viaReset := viaReset, due := false })).post (unitChan n) 7 0 s.anyDetail

/-- A session falls due: it starts, waits for the running one to end, the channel's own among them (10 R269), or waits for the next
chip reset (R266). -/
def State.dueSession (s : State) (n : Nat) (viaReset : Bool) : State :=
  if decide (24 ≤ n) || !(s.chan n).active then s
  else if (s.chan n).session != 0 then s.setChan n (fun c => { c with due := true })
  else if s.sessionRunning || !(s.trainable n || viaReset) || s.board.power == 2 then s.setChan n (fun c => { c with due := true, viaReset := viaReset })
  else s.startSession n viaReset

/-- The lines of a channel's detour, and of the writes that it holds. -/
def Chan.lines (c : Chan) : List Nat := ((c.detour ++ c.heldWrites).map (fun x => x.1 / 64)).eraseDups

/-- The 16-byte units of a line that a drain writes with poison (10 R267, R269): those it covers in part whose old contents are
uncorrectable, and all of them where the detour's own entry is, which is the store's own error and so free. -/
def State.drainBad (s : State) (c : Chan) (line : Nat) : List Nat :=
  let us := (List.range 4).map (fun i => 4 * line + i)
  if s.free (2 ^ 92 + line) == 0 then us
  else us.filter (fun u => s.mem.poison.contains u && (c.waiting line).any (fun a => a / 16 == u))

/-- Steps 6 and 7: detour entries and held writes go into the channel (10 R267). -/
def State.drainDetour (s : State) (n : Nat) : State :=
  let c := s.chan n
  let bad := c.lines.flatMap (s.drainBad c)
  let s := s.setChan n (fun c => { c with session := 0, viaReset := false, detour := [], heldWrites := [] })
  let s : State := { s with mem := { s.mem with cells := (c.detour ++ c.heldWrites).foldl (fun m x => memPut x.1 x.2 m) s.mem.cells } }
  if bad == [] then s else s.poisonUnits bad

/-- Step 8: the session ends. -/
def State.closeSession (s : State) (n : Nat) : State :=
  let s := (s.drainDetour n).post (unitChan n) 7 0 s.anyDetail
  s.drew.setCount 0x31C0 0xC (max (s.count 0x31C0 0xC) (s.free 3))

/-- The session ends, and another channel that is due follows (10 R266). -/
def State.endSession (s : State) (n : Nat) : State :=
  let s := s.closeSession n
  match s.mem.chans.find? (fun c => c.due && (s.trainable c.id || c.viaReset)) with
  | some c => s.startSession c.id c.viaReset
  | none => s

/-- A session's training succeeds: its values are recorded (18 R467 Calibration). -/
def State.trained (s : State) (n : Nat) : State :=
  let v := if (s.chan n).viaReset then (s.chan n).training else s.free 4
  let s := s.drew.setChan n (fun c => { c with trainingPrev := c.training, training := v, failedRow := 0 })
  (s.journal true ⟨4, n, leBytes 4 v⟩).bump 0x31C0 9 1

/-- CHANNEL_TRAINING_DONE (10 R267). -/
def execChannelTrainingDone (channel : Nat) (s : State) : Out :=
  .next (
    if decide (24 ≤ channel) || (s.chan channel).session == 0 then s else (s.trained channel).endSession channel)

/-- RETRAIN_TIMEOUT (10 R268, 19 R517): the previous values are restored, and the session counts as failed. -/
def execRetrainTimeout (channel : Nat) (s : State) : Out :=
  .next (
    if decide (24 ≤ channel) || (s.chan channel).session == 0 then s
    else
      let via := (s.chan channel).viaReset
      let s := (s.setChan channel (fun c =>
        if via then { c with failedResets := c.failedResets + 1 }
        else { c with failedRow := c.failedRow + 1 })).bump 0x31C0 0xA 1
      let s := (s.endSession channel).raise 21 0
      if decide (2 ≤ (s.chan channel).failedRow) || decide (2 ≤ (s.chan channel).failedResets) then s.markChannel channel 0 0
      else s)

/-- RETRAIN_DUE (10 R266). -/
def execRetrainDue (channel : Nat) (s : State) : Out := .next (s.dueSession channel false)

/-- The write of RetrainRequest (10 R266, R270). -/
def applyRetrain (value : Nat) (s : State) : Applied :=
  if s.trainable value then (s.dueSession value false, 0) else (s, 0x0186)

/-- RETRAIN_REQUEST (10 R266, R270, R271). -/
def execRetrainRequest (value : Nat) (s : State) : Out :=
  .next (s.trigger 0x2340 6 false 0 23 value (applyRetrain value))

/-! ## Answers to remote requests -/

/-- A write-back is acknowledged: no failure stands any more (R261), and the copy is clean unless it was written again, and goes with its job (10 R258), or as it is
evicted (R260). -/
def State.wroteBack (s : State) (q : Req) : State :=
  let same := fun (c : Copy) =>
    (List.range 4096).map (fun i => (layGet (c.addr + i) c.data).getD 0) == q.data.take 4096
  let mine := fun (c : Copy) => c.node == q.node && c.addr == q.addr
  let copies := modifyWhere (fun c => mine c && same c) (fun c => { c with dirty := false, writers := [] })
    (modifyWhere mine (fun c => { c with failed := false }) s.mem.copies)
  let ended := match s.ctx? q.ctx with
    | some x => x.state == .ending
    | none => true
  let gone := (copies.filter (fun c => mine c && !c.dirty && c.leaving)).length
  ({ s with mem := { s.mem with copies := copies.filter (fun c => !(mine c && !c.dirty && (ended || c.leaving))) } } : State).bump
    0x31C0 0xD gone

/-- A remote request is acknowledged. -/
def State.acked (s : State) (q : Req) : State :=
  let s := s.dropReqs (fun r => r.id == q.id)
  match q.kind with
  | .signal => s.setFlight q.ctx q.idx (fun f => f.end_ 0)
  | .writeBack => s.wroteBack q
  | .free =>
    ({ s with mem := { s.mem with
        objects := s.mem.objects.filter (fun o => o.home != q.node || o.base != q.addr)
        copies := s.mem.copies.filter (fun c => c.node != q.node || !s.mem.objects.any (fun o => o.home == q.node &&
          o.base == q.addr && decide (o.base ≤ c.addr) && decide (c.addr < o.base + o.size))) } } : State).reply q.session
      q.seq 0 0 0
  | .result => if q.seq == 0 then s.freeCtx q.ctx else s
  | _ => s

/-- Requests that an acknowledgement alone answers. -/
def ReqKind.ackOnly : ReqKind → Bool
  | .write | .signal | .writeBack | .free => true
  | .result => true
  | _ => false

/-- A remote request fails with a code (03 R78, R82, 10 R254, R261, 16 R421). -/
def State.failReq (s : State) (q : Req) (code : Nat) : State :=
  let s := s.dropReqs (fun r => r.id == q.id)
  match q.kind with
  | .read => if q.seq == 0 then s.failInstr q.ctx q.idx code else s.sampleLost q.ctx q.idx (q.seq - 1)
  | .history => s.historyArrival q.ctx q.idx q.seq false (code != 0x0703) []
  | .write => s.chargeWrite q.ctx code
  | .signal => s.setFlight q.ctx q.idx (fun f => f.end_ code)
  | .alloc => s.askPeer q.session q.seq q.data (q.idx == 1) q.len 10
  | .free => s.reply q.session q.seq code 0 0
  | .writeBack => s.lostBack q.node q.addr code
  | .copyFetch => s.lostFetch q.node q.addr code
  | .result =>
    if q.seq == 0 then ((s.bump 0x3240 6 1).progress q.ctx).freeCtx q.ctx
    else
      let s := s.dropReqs (fun r => r.kind == .result && r.session == q.session)
      match s.net.results.find? (fun r => r.id == q.session) with
      | some r => s.failDelivery r
      | none => s

/-- The home's contents arrive for a copy: bytes written here stand (10 R257), and a unit that the home answered as poisoned is
poison here unless it was written whole (R582). The copy of a job that has ended is written back now (R258). -/
def State.fillCopy (s : State) (q : Req) (poisoned : List Nat) (data : Bytes) : State :=
  let mine := fun (c : Copy) => c.node == q.node && c.addr == q.addr
  let fill := fun (c : Copy) => { c with
    data := (List.range 4096).foldl (fun l i => if (layGet (c.addr + i) l).isSome then l
      else layPut (c.addr + i) (data.getD i 0) l) c.data
    poison := (poisoned.filter (fun u => decide (c.addr ≤ 16 * u) && decide (16 * u < c.addr + 4096) &&
      !(List.range 16).all (fun i => (layGet (16 * u + i) c.data).isSome))).eraseDups
    whole := true }
  let s := s.dropReqs (fun r => r.id == q.id)
  let s : State := { s with mem := { s.mem with copies := modifyWhere mine fill s.mem.copies } }
  -- the home's poison is stored here (R241)
  let s := s.bump 0x31C0 5 (total ((s.mem.copies.filter mine).map (fun c => c.poison.length)))
  let ended : Bool := match s.ctx? q.ctx with
    | some x => x.state == .ending
    | none => true
  if ended then (s.mem.copies.filter (fun c => mine c && c.dirty)).foldl (fun s c => s.writeBack c) s else s

/-- An answer with data arrives for a request. -/
def State.answered (s : State) (q : Req) (poisoned : List Nat) (data : Bytes) : State :=
  let put := fun (s : State) =>
    let rs := modifyWhere (fun r => r.id == q.id)
      (fun (r : Req) => { r with answered := true, data := fit r.len data, poisoned := poisoned }) s.cs.reqs
    { s with cs := { s.cs with reqs := rs } }
  match q.kind with
  | .read => (put s).resumeRun q.ctx q.idx
  | .history => s
  | .copyFetch => s.fillCopy q poisoned data
  | .alloc =>
    let s := s.dropReqs (fun r => r.id == q.id)
    if data == [] then s.askPeer q.session q.seq q.data true q.len 10 else s.granted q (beAt data 0 8)
  | .result =>
    if q.seq == 0 then s.acked q
    else
      let s := put s
      match s.net.results.find? (fun r => r.id == q.session) with
      | some r => s.deliver r
      | none => s
  | _ => s.acked q

/-- REMOTE_ACK (03 R78, R81). -/
def execRemoteAck (req : Nat) (s : State) : Out :=
  .next (match s.req? req with
    | some q => if q.kind.ackOnly && (q.kind != .result || q.seq == 0) then s.acked q else s
    | none => s)

/-- REMOTE_ACK_TIMEOUT (03 R78, R82, 19 R495). A write-back has a row of its own. -/
def execRemoteAckTimeout (req : Nat) (s : State) : Out :=
  .next (match s.req? req with
    | some q => if q.kind == .writeBack then s else s.failReq q 0x0703
    | none => s)

/-- The code that a refused request ends with. An allocation and a free take the code of the Refuse; every other request has one of
R78's: 0x0701 where the home's unit was in reset, 0x0381 of a channel marked for fencing (10 R249), 0x07FC of a node in Hold (20 R550), and
otherwise 0x0702. -/
def refusedCode (kind : ReqKind) (code : Nat) : Nat :=
  if kind == .alloc || kind == .free || kind == .result then returnable code
  else if [0x0701, 0x0381, 0x07FC].contains code then code else 0x0702

/-- REFUSE_RECEIVE (03 R78, R91, 12 R307, R324). -/
def execRefuseReceive (req code : Nat) (s : State) : Out :=
  .next (match s.req? req with
    | some q => s.failReq q (refusedCode q.kind code)
    | none => s)

/-- WRITE_BACK_TIMEOUT (10 R261). -/
def execWriteBackTimeout (req : Nat) (s : State) : Out :=
  .next (match s.req? req with
    | some q => if q.kind == .writeBack then (s.bump 0x31C0 0xF 1).failReq q 0x0703 else s
    | none => s)

/-- RESPONSE_RECEIVE (19 R504): dropped and counted where the echoed postmark is not the partition's, or nothing waits for
it. -/
def execResponseReceive (req postmark : Nat) (poisoned : List Nat) (data : Bytes) (s : State) : Out :=
  .next (match s.req? req with
    | some q => if postmark == s.postmark q.partition then s.answered q poisoned data else s.bump 0x4003 5 1
    | none => s.bump 0x4003 5 1)

end Sys2Proof.Machine
end

