-- ==== Sys2Proof/Machine/Session.lean ====
section
/-! DEFINITION. Session: how a courier datagram is received (16 R408 to R417). -/

namespace Sys2Proof.Machine
open Sys2Proof

/-! ## Messages (16 R410) -/

/-- A courier header with its body. -/
structure Msg where
  version : Nat
  type : Nat
  reserved : Bool
  session : Nat
  seq : Nat
  ack : Nat
  window : Nat
  body : Bytes
  deriving DecidableEq, Repr

def Msg.parse (b : Bytes) : Msg :=
  ⟨beAt b 0 1, beAt b 1 1, beAt b 2 2 != 0 || bits (beAt b 22 2) 10 6 != 0, beAt b 4 4, beAt b 8 4, beAt b 12 4, beAt b 16 2,
    b.drop 24⟩

/-- A datagram that R412 drops: shorter than a header, or with a Length that disagrees. -/
def dgramBad (b : Bytes) : Bool :=
  decide (b.length < 24) || beAt b 18 2 != b.length - 24

/-- Types that a client sends (16 R411). -/
def clientTypes : List Nat := [0x01, 0x02, 0x03, 0x10, 0x11, 0x12, 0x13, 0x20, 0x21, 0x22]

/-- Types that are sequenced. -/
def sequenced (t : Nat) : Bool := t != 0x01 && t != 0x03

def Msg.headerBad (m : Msg) : Bool := m.version != 1 || !clientTypes.contains m.type || m.reserved

/-- The length and form that a type requires of its body (16 R411). -/
def bodyOk (type : Nat) (b : Bytes) : Bool :=
  if type == 0x01 then b.length == 8 && beAt b 2 2 == 0
  else if type == 0x02 || type == 0x03 then b.length == 0
  else if type == 0x10 then b.length == 32
  else if type == 0x11 then b.length == 8
  else if type == 0x12 then decide (16 ≤ b.length) && decide (b.length ≤ 8928) && beAt b 8 8 == 0
  else if type == 0x13 then b.length == 16 && beAt b 12 4 == 0
  else if type == 0x20 then b.length == 64
  else if type == 0x21 then b.length == 16 && beAt b 5 3 == 0
  else b.length == 72

/-- A data port takes datagrams: its link is up, the firmware serves, the module is not in Hold, and the lifecycle enables
data ports (20 R552). -/
def State.dataPort (s : State) (p : Nat) : Bool :=
  s.net.linkUp.getD p false && s.board.phase == .serving && s.board.power != 2 &&
    (s.sec.fuses.lifecycle == 1 || s.sec.fuses.lifecycle == 2)

/-- Answer a datagram whose session is not open, or an Open: an unsequenced Reply to its source. -/
def State.replyRaw (s : State) (d : Dgram) (session seq status : Nat) : State :=
  (s.putDgram ⟨d.port, d.ip, d.udp, d.mac, courierBytes 0x80 session 0 0 (s.dget 0x23A0 2) status 0
    (replyBody seq 0)⟩).bump 0x3240 2 1

/-! ## Acknowledgements (16 R414, R415) -/

/-- `a` covers sequence number `n`. -/
def covers (a n : Nat) : Bool := decide ((a + 2 ^ 32 - n) % 2 ^ 32 < 2 ^ 31)

/-- Resend every unacknowledged message, or end the session after RetryLimit resends in a row (16 R415). -/
def State.resend (s : State) (id : Nat) : State :=
  match s.session? id with
  | none => s
  | some x =>
    if x.sent == [] then s
    else if s.dget 0x23A0 4 ≤ x.resends then
      ({ s with net := { s.net with
          sessions := s.net.sessions.filter (fun y => y.id != id)
          results := undelivered (fun y => y.id == id) s.net.sessions s.net.results } } : State).bump 0x3240 5 1
    else
      let s := s.setSession id (fun x => { x with resends := x.resends + 1 })
      (x.sent.foldl (fun s m => s.emit x m) s).bump 0x3240 3 x.sent.length

/-- Messages that waited for the Window go out while it is open, by fuel. -/
def State.drainQueue (s : State) (id : Nat) : Nat → State
  | 0 => s
  | f + 1 =>
    match s.session? id with
    | none => s
    | some x =>
      match x.queued with
      | [] => s
      | m :: l =>
        if x.sent.length < x.peerWindow then
          ((s.setSession id (fun x => { x with sent := x.sent ++ [m], queued := l })).emit x m).drainQueue id f
        else s

/-- Contexts and results whose ResultEnd has been acknowledged (16 R421 step 4). -/
def State.deliveredBy (s : State) (id ack : Nat) : State :=
  (s.net.results.filter (fun r => r.session == id && (match r.endSeq with
      | some q => covers ack q
      | none => false))).foldl (fun s r =>
    let s : State := { s with net := { s.net with results := s.net.results.filter (fun x => x.id != r.id) } }
    if r.node == 0xFFFF then s.freeCtx r.ctx else s.respond 0 r.node 0 []) s

/-- Take a message's Ack and Window; an Ack message that repeats the last value that advanced resends (16 R415). -/
def State.takeAck (s : State) (x : Session) (m : Msg) : State :=
  let rest := x.sent.filter (fun q => !covers m.ack q.seq)
  let moved := rest.length != x.sent.length
  let again := m.type == 0x03 && x.lastAck == m.ack && rest != []
  let s := s.setSession x.id (fun y => { y with
    sent := rest
    peerWindow := m.window
    lastAck := if moved then m.ack else y.lastAck
    resends := if moved then 0 else y.resends })
  let s := (s.deliveredBy x.id m.ack).drainQueue x.id (x.queued.length + 1)
  if again then s.resend x.id else s

/-- Send an Ack (16 R411, R414). -/
def State.sendAck (s : State) (id : Nat) : State := s.sendLoose id 0x03 0 []

/-- A message owes an acknowledgement; at 16 it is sent at once (16 R414). -/
def State.owe (s : State) (id : Nat) : State :=
  let s := s.setSession id (fun x => { x with owed := x.owed + 1 })
  match s.session? id with
  | some x => if 16 ≤ x.owed then s.sendAck id else s
  | none => s

/-! ## Reception -/

/-- What a message's session must do before its body is looked at (16 R409, R412, R414). -/
def State.accept (s : State) (d : Dgram) (x : Session) (m : Msg) : State :=
  let s := (s.setSession x.id (fun y => { y with port := d.port, ip := d.ip, udp := d.udp, mac := d.mac })).bump 0x3240 1 1
  match s.session? x.id with
  | some y => s.takeAck y m
  | none => s

/-- Receive a datagram that a row of type `type` handles: `mine` picks the row's own bodies among those of the type. Illegal
datagrams and messages are answered whichever row brings them; a message of another row changes nothing. -/
def State.courier (s : State) (d : Dgram) (type : Nat) (mine : Bytes → Bool)
    (handle : State → Session → Nat → Bytes → State) : State :=
  if !s.dataPort d.port then s
  else if dgramBad d.bytes then s.bump 0x3240 4 1
  else
    let m := Msg.parse d.bytes
    match s.session? m.session with
    | none =>
      if m.headerBad then s.replyRaw d m.session m.seq 0x01E0
      else if m.type == 0x01 && m.session == 0 then s
      else s.replyRaw d m.session m.seq 0x01E1
    | some x =>
      if m.type == 0x01 then s.replyRaw d m.session m.seq (if m.headerBad then 0x01E0 else 0x01E1)
      else if m.headerBad then
        (if sequenced m.type && clientTypes.contains m.type && m.seq == x.rxNext then
          ((s.setSession x.id (fun y => { y with rxNext := (y.rxNext + 1) % 2 ^ 32 })).owe x.id).reply x.id m.seq 0x01E0 0 0
        else if sequenced m.type && clientTypes.contains m.type then s.sendAck x.id
        else s.reply x.id m.seq 0x01E0 0 0)
      else if m.type != type then s
      else if bodyOk m.type m.body && !mine m.body then s
      else
        let s := s.accept d x m
        if !sequenced m.type then
          (if bodyOk m.type m.body then handle s x m.seq m.body else s.reply x.id m.seq 0x01E2 0 0)
        else if m.seq != x.rxNext then s.sendAck x.id
        else
          let s := (s.setSession x.id (fun y => { y with rxNext := (y.rxNext + 1) % 2 ^ 32, carried := true })).owe x.id
          if bodyOk m.type m.body then handle s x m.seq m.body else s.reply x.id m.seq 0x01E2 0 0

end Sys2Proof.Machine
end

