-- ==== Sys2Proof/Machine/Saving.lean ====
section
/-! DEFINITION. Saving: how far a stopped task came, the records of a save area, and a save area's form (11 R290 to R295). -/

namespace Sys2Proof.Machine
open Sys2Proof

/-! ## The walk of a task (04 R106, 11 R287 step 3) -/

/-- The steps of a task of MMA, MMAS or CONV: each K group of its slice applied to each bead of its pane. -/
structure Walk where
  first : Nat
  groups : Nat
  beads : Nat
  beadOuter : Bool
  deriving DecidableEq, Repr

def Walk.steps (w : Walk) : Nat := w.groups * w.beads

/-- The K group and the bead of a step: bead-outer runs a bead's whole K before the next bead. -/
def Walk.at_ (w : Walk) (st : Nat) : Nat × Nat :=
  if w.beadOuter then (w.first + st % max 1 w.groups, st / max 1 w.groups)
  else (w.first + st / max 1 w.beads, st % max 1 w.beads)

/-- The step of a Position (11 R292). -/
def Walk.stepOf (w : Walk) (pos : Nat) : Nat :=
  if w.beadOuter then pos % 8 * w.groups + (pos / 8 - w.first) else (pos / 8 - w.first) * w.beads + pos % 8

/-- One past the last K group that bead `b` has had before step `st`. -/
def Walk.had (w : Walk) (st b : Nat) : Nat :=
  let p := w.at_ st
  if w.beadOuter then (if b < p.2 then w.first + w.groups else if b == p.2 then p.1 else w.first)
  else if b < p.2 then p.1 + 1 else p.1

/-- The product of MMA, MMAS and CONV. -/
def Env.product (e : Env) : Product :=
  if e.opcode == 0x01 then e.mmaProduct else if e.opcode == 0x02 then e.mmasProduct else e.convProduct

/-- An opcode of the product engine. -/
def productOpcode (o : Nat) : Bool := o == 0x01 || o == 0x02 || o == 0x03

/-- The beads of a pane in logical order: its moving rows packed 128 at a time (05 R138), by 64 columns (04 R94, R95). -/
def Product.beads (x : Product) (p : Nat) : List (List Nat × List Nat) :=
  (chunks 128 (x.bandRows p)).flatMap (fun r => (chunks 64 (x.geo.colsOf p)).map (fun c => (r, c)))

/-- The walk of a task of the product engine. -/
def Env.walk (e : Env) (x : Product) (pane slice : Nat) : Walk :=
  let r := x.geo.sliceGroups slice
  ⟨r.1, r.2 - r.1, (x.beads pane).length, e.tile.beadOrder == 2⟩

/-! ## Data of records -/

/-- FP32 values. -/
def fp32Bytes (l : List Num) : Bytes := l.flatMap (fun v => leBytes 4 (bits32 v))

/-- Elements of `w` bits each, packed. -/
def packBits (w : Nat) (l : List Nat) : Bytes :=
  leBytes (ceilDiv (l.length * w) 8) (l.zipIdx.foldl (fun a x => a + x.1 * 2 ^ (w * x.2)) 0)

/-- Data in a length that is a multiple of 16 bytes (11 R292). -/
def pad16 (b : Bytes) : Bytes := fit (roundUp b.length 16) b

/-- Quantised blocks: their elements, then their scale bytes; BF16 has no scales. -/
def blockBytes (f : Nat) (l : List QBlock) : Bytes :=
  if f == fBF16 then packBits 16 (l.flatMap (fun b => b.q.map (encodeFloat f)))
  else packBits (fmtBits f) (l.flatMap (fun b => b.elem.map (encodeFloat f))) ++ l.map (fun b => BitVec.ofNat 8 b.scaleByte)

/-- Accumulators bead by bead, each row by row with N fastest (11 R293). -/
def beadBytes (rows : List Nat) (cols : Nat) (acc : Nat → Nat → Num) : Bytes :=
  (chunks 64 (List.range cols)).flatMap (fun cs => rows.flatMap (fun n => fp32Bytes (cs.map (acc n))))

/-! ## How far a stopped task came -/

/-- The ladder blocks that a task of the product engine has used before step `st`, once each. -/
def Product.used (x : Product) (w : Walk) (p st : Nat) : List (List (List Nat)) :=
  (((x.beads p).zipIdx).flatMap (fun bd => bd.1.1.flatMap (fun m =>
    (List.range (w.had st bd.2 - w.first)).filterMap (fun k =>
      (x.blk (x.geo.paneBatch p) m (w.first + k)).map (fun pos => pos.filterMap id))))).eraseDups

/-- The progress of a task of MMA, MMAS or CONV whose next step is `st` of its walk. -/
def Env.productAt (e : Env) (x : Product) (pane slice rung st : Nat) : Progress :=
  let g := e.rungOf x.lad.fmt pane rung
  let w := e.walk x pane slice
  let p := w.at_ st
  let vals := ((x.beads pane).zipIdx).flatMap (fun bd => bd.1.1.flatMap (fun m => bd.1.2.map (fun n =>
    e.groupsAcc x g (x.geo.paneBatch pane) m n slice (w.had st bd.2))))
  ⟨rung, min 0xFFFF (total ((x.used w pane st).map (fun ixs => (e.ladBlock x g ixs).sats))),
    vals.any (fun v => !v.isFin) && !(e.paneReadsBad x pane), 8 * p.1 + p.2, pad16 (fp32Bytes vals)⟩

/-- The progress of a task of ATTF after `pos` places of its list: accumulators, m and l of its rows, and Q at the rung (DESIGN
CHOICE: m of every row stands before l of every row, and Q's elements before its scales; 11 R293 gives neither order). -/
def Env.attfAt (e : Env) (pane rung pos : Nat) : Progress :=
  let a := e.att (e.latentRef != 0)
  let h := e.attfHist a
  let q := e.desc (e.S 1)
  let g := e.rungOf q.fmt pane rung
  let hd := a.paneHead pane
  let b := a.paneBatch pane
  let rows := a.paneRows pane
  let row := fun n => e.attfRowOver a h g b hd n ((e.maskList hd (a.paneBlock pane)).take pos)
  let rs := rows.map row
  ⟨rung, min 0xFFFF (e.attLadSats a q e.attfCarry g pane + total (rs.map (fun r => r.sats))),
    rs.any (fun r => r.any && (r.odd || r.acc.any (fun v => !v.isFin))) && !(e.attReadsBad a h q e.attfCarry pane), pos,
    pad16 (beadBytes rows a.d (fun n i => (row n).acc.getD i Num.zero) ++ fp32Bytes (rs.map (fun r => r.m)) ++
      fp32Bytes (rs.map (fun r => r.l)) ++
      blockBytes g.fmt (rows.flatMap (fun n => (q.lineBlocks (attIx q 0 n hd b)).map (e.attBlock q e.attfCarry g))))⟩

/-- The progress of a task of ATTB after `pos` places: key blocks of its list for a dQ pane, query blocks for a dK/dV pane, which
holds dK's accumulators and then dV's (DESIGN CHOICE: 11 R292 and R293 describe only a list of key blocks). -/
def Env.attbAt (e : Env) (pane rung pos : Nat) : Progress :=
  let a := e.att false
  let go := e.desc (e.S 4)
  let nq := if e.gradRef 1 != 0 then a.panes else 0
  if pane < nq then
    let g := e.rungOf go.fmt pane rung
    let hd := a.paneHead pane
    let b := a.paneBatch pane
    let js := (e.maskList hd (a.paneBlock pane)).take pos
    let acc := fun n i => e.attbQOver a g b hd n i js
    let rows := a.paneRows pane
    let keys := (js.filter (e.attended a noHist)).flatMap (a.keysOf noHist)
    let scan := e.attbScan a g b (a.kvHead hd) (rows.map (fun n => (hd, n))) keys
    ⟨rung, min 0xFFFF (e.attLadSats a go e.attbCarry g pane + total (rows.map (fun n => (acc n 0).2))), scan.1 && !scan.2, pos,
      pad16 (beadBytes rows a.d (fun n i => (acc n i).1))⟩
  else
    let p := pane - nq
    let g := e.rungKV p rung
    let t := p / a.kb % a.hkv
    let b := p / a.kb / a.hkv
    let ks := ((List.range 128).map (fun x => 128 * (p % a.kb) + x)).filter (fun k => k < a.nk)
    let side := fun (ref : Nat) (isVal : Bool) =>
      if ref == 0 then ([], 0)
      else
        let acc := fun k i => e.attbKVOver a g isVal b t k i (List.range pos)
        (beadBytes ks a.d (fun k i => (acc k i).1), total (ks.map (fun k => (acc k 0).2)))
    let dk := side (e.gradRef 2) false
    let dv := side (e.gradRef 3) true
    let qps := (e.kvQueries a p).filter (fun i => a.paneBlock i < pos)
    let rows := qps.flatMap (fun i => (a.paneRows i).map (fun n => (a.paneHead i, n)))
    let scan := e.attbScan a g b t rows (if qps == [] then [] else a.keysOf noHist (p % a.kb))
    ⟨rung, min 0xFFFF (total (qps.map (e.attLadSats a go e.attbCarry g)) + dk.2 + dv.2), scan.1 && !scan.2, pos, pad16 (dk.1 ++ dv.1)⟩

/-- Places of a task of ATTF or ATTB. -/
def Env.attPlaces (e : Env) (pane : Nat) : Nat :=
  let a := e.att (e.opcode == 0x05 && e.latentRef != 0)
  let nq := if e.opcode == 0x05 || e.gradRef 1 != 0 then a.panes else 0
  if pane < nq then (e.maskList (a.paneHead pane) (a.paneBlock pane)).length else a.qb

/-- The rung that a pane of an instruction ends on. -/
def Env.endRung (e : Env) (pane : Nat) : Nat :=
  let a := e.att (e.opcode == 0x05 && e.latentRef != 0)
  let at_ : Nat → Attempt :=
    if productOpcode e.opcode then e.prodAttempt e.product pane
    else if e.opcode == 0x05 then e.attfAttempt a (e.attfHist a) pane
    else
      let nq := if e.gradRef 1 != 0 then a.panes else 0
      if pane < nq then e.attbAttemptQ a pane else e.attbAttemptKV a (pane - nq)
  (e.prec.runPane pane true at_).final

/-- A place among `n` from `lo`, free. -/
def upFrom (lo n f : Nat) : Nat := lo + f % max 1 (n - lo)

/-- How far a task came by the time it stopped: its pane's rung, at least the one it resumed at and at most the one its pane ends
on, and its next step there are free, for the spec gives the cells' times only as bounds; what it then holds follows. A vector
task's buffer, its saturations and its signal are free (DESIGN CHOICE: 11 R293 names a vector task's data and gives no form). -/
def State.stopped (s : State) (n : Nat) (e : Env) (t : Task) : Progress :=
  let rungs := fun (lo : Nat) => lo + s.free (2 ^ 61 + 2 ^ 30 * n + t.pane) % (e.endRung t.pane - lo + 1)
  let f := s.free (2 ^ 62 + 2 ^ 40 * n + 16 * t.pane + t.slice)
  let lo := (t.done.map (fun d => d.rung)).getD e.prec.startRung
  if productOpcode e.opcode then
    let r := rungs lo
    let w := e.walk e.product t.pane t.slice
    let had := match t.done with
      | some d => if d.rung == r then w.stepOf d.pos else 0
      | none => 0
    e.productAt e.product t.pane t.slice r (upFrom had w.steps f)
  else if e.opcode == 0x05 || e.opcode == 0x06 then
    let r := rungs lo
    let had := match t.done with
      | some d => if d.rung == r then d.pos else 0
      | none => 0
    let pos := upFrom had (e.attPlaces t.pane) f
    if e.opcode == 0x05 then e.attfAt t.pane r pos else e.attbAt t.pane r pos
  else
    let pos := (t.done.map (fun d => d.pos)).getD 0 + f % 2 ^ 25
    let qnt := e.opcode == 0x0E
    let at_ := e.qntAttempt ((qntPanes (e.desc (e.S 1))).getD t.pane [])
    ⟨if qnt then e.prec.startRung else 0, if qnt then min 0xFFFF (s.free (2 ^ 63 + f) % (at_.sats + 1)) else 0,
      qnt && at_.nonFinite && s.free (2 ^ 63 + f + 1) % 2 == 1, pos,
      s.freeBytes (2 ^ 63 + f + 2) (16 * (s.free (2 ^ 63 + f + 3) % 32769))⟩

/-! ## Records (11 R292, R293) -/

/-- A record to be saved; `marred`: its data holds an uncorrectable codeword (11 R298). -/
structure SaveItem where
  idx : Nat
  task : Nat
  slice : Nat
  kind : Nat
  ref : Nat
  done : Progress
  marred : Bool

/-- The order of R294. -/
def SaveItem.le (x y : SaveItem) : Bool :=
  decide (x.idx < y.idx) || (x.idx == y.idx && (decide (x.task < y.task) || (x.task == y.task &&
    (decide (x.slice < y.slice) || (x.slice == y.slice && decide (x.kind ≤ y.kind))))))

/-- Opcodes whose tasks are vector tasks, saved as Kind 5 records (11 R293). -/
def vectorTask (opcode : Nat) : Bool := !(productOpcode opcode || opcode == 0x05 || opcode == 0x06)

/-- A record. Rung is shown by Kinds 1 to 3 of a ladder opcode and by QNT's tasks; SatCount and NonFinite by tasks. -/
def SaveItem.bytes (x : SaveItem) : Bytes :=
  leBytes 4 (x.kind + x.done.rung * 16 + (if x.done.nonFinite then 64 else 0) + x.slice % 256 * 256 + x.done.sats % 65536 * 65536) ++
    leBytes 4 x.idx ++ leBytes 4 x.task ++ leBytes 4 x.done.pos ++ leBytes 4 x.done.data.length ++ leBytes 4 x.ref ++
    leBytes 8 0 ++ x.done.data

/-- A band of the ladder operand over a slice at a rung: its blocks, and the c_old blocks read with them (11 R293 Kind 3). -/
def Env.bandBytes (e : Env) (x : Product) (band slice rung : Nat) : Bytes :=
  let pane := band * x.geo.pn
  let g := e.rungOf x.lad.fmt pane rung
  let r := x.geo.sliceGroups slice
  let bs := ((x.bandRows pane).flatMap (fun m => (List.range (r.2 - r.1)).filterMap (fun k =>
    (x.blk (x.geo.paneBatch pane) m (r.1 + k)).map (fun pos => pos.filterMap id)))).eraseDups
  let old := match x.carry with
    | none => []
    | some c => bs.flatMap (fun b => b.map (fun ix => e.view (c.elemAddr ix))) ++
        bs.flatMap (fun b => (b.take 1).map (fun ix => e.view (c.scaleAddr ix)))
  pad16 (blockBytes g.fmt (bs.map (e.ladBlock x g)) ++ old)

/-- A pane of the output in the tensor's format: its elements, then the scale byte of each block that begins in it (11 R293 Kind
4). -/
def Env.paneBytes (e : Env) (c : OutConv) (outs : List (List Nat)) : Bytes :=
  let d := e.desc (e.S 4)
  pad16 (packBits (fmtBits d.fmt) (outs.map (e.outCode d c)) ++
    (if d.narrow then (outs.filter (fun ix => ix.getD d.axis 0 % 32 == 0)).map (fun ix => BitVec.ofNat 8 (e.outScale d c ix))
     else []))

/-- The finished pane of a product or of ATTF, as its cell keeps it under the Resident flag. -/
def Env.residentBytes (e : Env) (p : Nat) : Bytes :=
  if e.opcode == 0x05 then
    let a := e.att (e.latentRef != 0)
    e.paneBytes (e.attfConv a (e.attfHist a) (e.rungOf (e.desc (e.S 1)).fmt p (e.endRung p))) (Att.outs a (e.desc (e.S 4)) p)
  else
    let x := e.product
    e.paneBytes (e.prodConv x (e.rungOf x.lad.fmt p (e.endRung p))) (x.paneOuts p)

/-- What the cells and units hold of one stopped instruction (11 R293): a record for each started task; each finished slice of a
pane that still has others at work, at the pane's rung; each band that is kept quantised (04 R106) and still needed where it is;
finished panes under the Resident flag, of which the cells still hold some (free: 03 R67 and 10 give a pane no length of stay);
a stream. -/
def State.savedOf (s : State) (n : Nat) (e : Env) (f : InFlight) (all : List (Nat × Nat × Nat × Nat)) : List SaveItem :=
  let left := s.office.tasks.filter (fun t => t.ctx == f.ctx && t.idx == f.idx)
  let at_ := fun (rung : Nat) (data : Bytes) => (⟨rung, 0, false, 0, data⟩ : Progress)
  let started := (left.filter (fun t => t.phase == .stopped)).filterMap (fun t => t.done.map (fun d =>
    (⟨f.idx, t.pane, t.slice, if vectorTask f.opcode then 5 else 1, 0, d, t.marred⟩ : SaveItem)))
  let rungAt := fun (p : Nat → Bool) => ((left.filter (fun t => p t.pane)).filterMap (fun t => t.done)).foldl
    (fun a d => max a d.rung) e.prec.startRung
  let ended := if left == [] then [] else all.filter (fun t => !left.any (fun u => u.pane == t.1 && u.slice == t.2.1))
  let slices := (ended.filter (fun t => left.any (fun u => u.pane == t.1))).map (fun t =>
    let x := e.product
    let r := rungAt (fun p => p == t.1)
    (⟨f.idx, t.1, t.2.1, 2, 0, at_ r (e.productAt x t.1 t.2.1 r (e.walk x t.1 t.2.1).steps).data, false⟩ : SaveItem))
  let bands := if !productOpcode f.opcode then [] else
    let x := e.product
    let pn := max 1 x.geo.pn
    let kept := (left.filter (fun t =>
      let ks := x.geo.sliceK t.slice
      e.bandKept (x.bandRows t.pane).length (ks.2 - ks.1) && (t.phase == .stopped ||
        ended.any (fun u => u.1 / pn == t.pane / pn && u.2.1 == t.slice && u.2.2.2 == t.cell)))).map (fun t => (t.pane / pn, t.slice))
    kept.eraseDups.map (fun b =>
      let r := rungAt (fun p => p / pn == b.1)
      (⟨f.idx, b.1, b.2, 3, 0, at_ r (e.bandBytes x b.1 b.2 r), false⟩ : SaveItem))
  let panes := if bit (e.desc (e.S 4)).tier 2 && (productOpcode f.opcode || f.opcode == 0x05) then
      (((ended.map (fun t => t.1)).eraseDups.filter (fun p => !left.any (fun u => u.pane == p))).filter (fun p =>
        s.free (2 ^ 60 + 2 ^ 30 * n + p) % 2 == 1)).map (fun p =>
          (⟨f.idx, p, 0, 4, e.S 4, at_ 0 (e.residentBytes p), false⟩ : SaveItem)) else []
  let l := e.copyTransfers.map (fun t => t.2.2)
  let stream := if f.opcode == 0x12 && e.copyMan then
    [(⟨f.idx, 0, 0, 6, 0, ⟨0, 0, false, total (l.take (s.free (2 ^ 60 + 2 ^ 30 * n) % (l.length + 1))), []⟩, false⟩ : SaveItem)] else []
  started ++ slices ++ bands ++ panes ++ stream

/-- The instructions of a context that its suspension stopped, each with what it sees and the tasks it was dealt. -/
def State.stoppedOf (s : State) (x : Ctx) : List (InFlight × Env × List (Nat × Nat × Nat × Nat)) :=
  (s.cs.flight.filter (fun f => f.ctx == x.number && f.stopped)).map (fun f =>
    let e := s.lateEnv x f (s.arrived f.ctx f.idx)
    (f, e, match opOf f.opcode with
      | some o => if f.phase == .running then (o.run e).tasks else []
      | none => []))

/-- Each stopped task of a context stands where it came to. -/
def State.stopTasks (s : State) (x : Ctx) : State :=
  (s.stoppedOf x).zipIdx.foldl (fun t y => { t with office := { t.office with
    tasks := modifyWhere (fun k => k.ctx == y.1.1.ctx && k.idx == y.1.1.idx && k.phase == .stopped)
      (fun k => { k with done := some (s.stopped y.2 y.1.2.1 k) }) t.office.tasks } }) s

/-- The records of a save area, in the order of R294, while they fit in a save slot (R290). -/
def State.savedRecords (s : State) (x : Ctx) : List (Bytes × Bool) :=
  let items := sortBy (fun a b => !b.le a) ((s.stoppedOf x).zipIdx.flatMap (fun y => s.savedOf y.2 y.1.2.1 y.1.1 y.1.2.2))
  ((items.map (fun i => (i.bytes, i.marred))).foldl (fun (acc : List (Bytes × Bool) × Nat) r =>
    if acc.2 + r.1.length ≤ s.slotBytes x.partition then (acc.1 ++ [r], acc.2 + r.1.length) else acc) ([], 192)).1

/-! ## The area (11 R290, R291) -/

/-- The queue block (03 R53), as a number of 256 bits. -/
def Queue.block (q : Queue) : Nat :=
  q.ringBase + q.ringLog2 * 2 ^ 40 + q.compBase * 2 ^ 64 + q.tail * 2 ^ 128 + q.retired * 2 ^ 160 + q.descBase * 2 ^ 192 +
    (match q.qs with
     | .idle => 0
     | .running => 1
     | .halted => 2
     | .preempted => 3) * 2 ^ 232

/-- The context descriptor (11 R274). -/
def Ctx.descriptor (x : Ctx) (saveBase : Nat) : Bytes :=
  leBytes 128 (x.number + ctxStateCode x.state * 2 ^ 20 + x.priority * 2 ^ 24 + (if x.held then 2 ^ 27 else 0) +
    x.partition * 2 ^ 28 + (if x.wasHalted then 2 ^ 30 else 0) + x.client * 2 ^ 32 + x.seqTag * 2 ^ 64 + x.jobId * 2 ^ 96 +
    saveBase * 2 ^ 128 + x.saveBytes * 2 ^ 192 + x.preemptions * 2 ^ 224 + x.queue.block * 2 ^ 512 +
    x.cellCycles % 2 ^ 64 * 2 ^ 768)

/-- A save area of some records. Its copy of the descriptor has no SaveBase: that is set only at step 6 of R287, and R294 keeps
every byte of a save area from depending on where it stands. -/
def State.saveArea (s : State) (x : Ctx) (recs : List Bytes) : Bytes :=
  let data := recs.flatten
  let head := leBytes 4 1 ++ leBytes 4 recs.length ++ leBytes 8 (192 + data.length) ++
    leBytes 44 (x.number + s.postmark x.partition * 2 ^ 20 + ((s.activeCells x.partition).length - 1) % 256 * 2 ^ 32 +
      s.mem.activeChans.length % 256 * 2 ^ 40 + 2 ^ 48)
  let rest := x.descriptor 0 ++ data
  head ++ leBytes 4 (crc32c (head ++ leBytes 4 0 ++ rest)) ++ rest

/-- Units of a save area that are written as uncorrectable (11 R298): a free codeword of each record whose cell state met an
uncorrectable error, and those that a channel marked for fencing did not take, which are free too. -/
def State.unsavedUnits (s : State) (a : Nat) (recs : List (Bytes × Bool)) (n : Nat) : List Nat :=
  let mars := (recs.foldl (fun (acc : Nat × List Nat) r =>
    (acc.1 + r.1.length, if r.2 then acc.2 ++ [acc.1 / 16 + s.free (2 ^ 92 + acc.1) % max 1 (r.1.length / 16)] else acc.2))
    (a + 192, [])).2
  let lost := if s.mem.chans.any (fun c => c.marked) then
      ((List.range (ceilDiv n 16)).filter (fun u => s.unserved [(a + 16 * u, 16)])).map (fun u => a / 16 + u) else []
  mars ++ lost

/-- A save area is whole: Format, Complete, length and Crc, with no unreadable unit (11 R291, R295 step 1). -/
def areaGood (area : Bytes) : Bool :=
  leAt area 0 4 == 1 && bit (leAt area 22 1) 0 && leAt area 8 8 == area.length && decide (192 ≤ area.length) &&
    leAt area 60 4 == crc32c (area.take 60 ++ leBytes 4 0 ++ area.drop 64)

/-- As many records as the header counts, behind byte 192 of an area and with nothing after them; none where they do not fit
(11 R291, R292). -/
def parseRecords (c : Nat) : Nat → Bytes → Option (List Loaded)
  | 0, b => if b == [] then some [] else none
  | f + 1, b =>
    if b == [] then none
    else
      let n := leAt b 16 4
      let w := leAt b 0 4
      if b.length < 32 + n || n % 16 != 0 then none
      else (parseRecords c f (b.drop (32 + n))).map (fun l =>
        (⟨c, leAt b 4 4, bits w 0 4, leAt b 8 4, bits w 8 8, ⟨bits w 4 2, bits w 16 16, bit w 6, leAt b 12 4, sub b 32 n⟩⟩ : Loaded) :: l)

/-- The records of an area for context `c`. -/
def areaRecords (c : Nat) (area : Bytes) : List Loaded := (parseRecords c (leAt area 4 4) (area.drop 192)).getD []

end Sys2Proof.Machine
end

