-- ==== Sys2Proof/Machine/Office.lean ====
section
/-! DEFINITION. Office: accepting jobs, sequence slots, suspension, restore, import and context abort (11 R273 to R301, 16
R419 to R422, 19 R498). -/

namespace Sys2Proof.Machine
open Sys2Proof

/-! ## Job records (16 R419, R420) -/

/-- A job record, read big-endian. -/
structure JobRec where
  jobId : Nat
  seqTag : Nat
  kind : Nat
  priority : Nat
  partition : Nat
  isSealed : Bool
  reserved : Bool
  ringLog2 : Nat
  ringBase : Nat
  compBase : Nat
  descBase : Nat
  tail : Nat
  resultNode : Nat
  resultSession : Nat
  resultRef : Nat
  deriving DecidableEq, Repr

def JobRec.parse (b : Bytes) : JobRec :=
  let n := beNat (b.take 64)
  ⟨bits n 480 32, bits n 448 32, bits n 444 4, bits n 441 3, bits n 439 2, bit n 438,
    bits n 429 9 != 0 || bits n 0 184 != 0, bits n 424 5, bits n 384 40, bits n 344 40, bits n 304 40, bits n 272 32,
    bits n 256 16, bits n 224 32, bits n 184 40⟩

/-- A partition has a region without power (20 R549, R550). -/
def State.trimmed (s : State) (p : Nat) : Bool :=
  s.board.power == 2 || (s.board.power == 1 && (s.regionsOf p).any (fun r => bit s.board.trim r))

/-- A role accepts a job kind (01 R18, R19). -/
def roleAccepts (role kind : Nat) : Bool := (role == 1 && kind == 1) || (role == 2 && kind == 2)

/-- The form of a job record (16 R420). -/
def State.recordForm (s : State) (imported : Bool) (r : JobRec) : Bool :=
  !r.reserved && (r.kind == 1 || r.kind == 2) && s.partExists r.partition &&
    (if imported then r.ringLog2 == 0 && r.ringBase == 0 && r.compBase == 0 && r.descBase == 0 && r.tail == 0
     else r.ringBase % 64 == 0 && r.descBase % 64 == 0 && r.compBase % 16 == 0 && decide (r.tail ≤ 2 ^ r.ringLog2))

/-- The first three rules of R420, and 20 R550. -/
def State.checkRecord (s : State) (imported : Bool) (client : Nat) (r : JobRec) : Nat :=
  firstCode [rule (!s.recordForm imported r) 0x01E2, rule (!roleAccepts (s.role r.partition) r.kind) 0x01E3,
    rule (s.trimmed r.partition) 0x02FE, rule (s.jobOf client r.jobId).isSome 0x01E4]

/-- The queue block rule of R275. -/
def State.checkQueue (s : State) (log2 ring comp : Nat) : Nat :=
  if log2 < 6 ∨ 20 < log2 then 0x0102
  else if s.mem.windowBytes < ring + 64 * 2 ^ log2 ∨ s.mem.windowBytes < comp + 16 * 2 ^ log2 then 0x0103
  else 0

/-- A partition accepts no job and starts nothing: it is in reset, or was not started (19 R500, R518). -/
def State.partStopped (s : State) (p : Nat) : Bool := s.office.stopped.contains p || s.office.notStarted.contains p

/-- The JobCount record that the next acceptance of a client makes (11 R279, 18 R467). -/
def State.jobCountRec (s : State) (client : Nat) : Rec :=
  ⟨2, client, leBytes 8 (kvGet client 0 s.office.lifetime + 1)⟩

/-- The lowest-numbered Free context (11 R275). -/
def State.freeCtxNumber (s : State) : Option Nat :=
  if 2 ^ 20 ≤ s.office.ctxs.length then none
  else (List.range (s.office.ctxs.length + 1)).find? (fun n => (s.ctx? n).isNone)

/-- The rules of R275 that do not look at the queue block. -/
def State.checkQuota (s : State) (client : Nat) : Nat :=
  firstCode [rule (decide (s.quota client ≤ s.jobsInFlight client)) 0x0290, rule s.freeCtxNumber.isNone 0x0291]

/-- Refuse a job: quota refusals are counted (11 R301). -/
def State.refuseJob (s : State) (sess seq code : Nat) : State :=
  (if code == 0x0290 then s.bump 0x31D0 2 1 else s).reply sess seq code 0 0

/-- A Waiting context whose sequence holds a slot becomes Live; a job that has nothing to run is then finished. -/
def State.startCtx (s : State) (c : Nat) : State :=
  match s.ctx? c with
  | none => s
  | some x =>
    if x.state == .waiting && s.holdsSlot x && !s.partStopped x.partition then (s.goLive c).finishJob c else s

/-- Accept a job into its context, answer it, and report its first State (11 R275, 16 R424). -/
def State.acceptCtx (s : State) (sess seq : Nat) (x : Ctx) : State :=
  let s : State := { s with office := { s.office with ctxs := s.office.ctxs ++ [x], accepts := s.office.accepts + 1 } }
  ((s.bump 0x31D0 1 1).reply sess seq 0 (s.postmark x.partition) x.number).enter x.number x.state

/-- The job that a record asks for, submitted on a session. -/
def JobRec.job (r : JobRec) (sess : Nat) : Job :=
  ⟨r.kind, r.isSealed, r.resultNode, r.resultSession, r.resultRef, sess, 0, none, false⟩

/-- SUBMIT's body (16 R420, 11 R275, R279). -/
def State.submitJob (s : State) (sess client seq : Nat) (body : Bytes) : State :=
  let r := JobRec.parse body
  let code := firstCode [s.checkRecord false client r, s.checkQuota client, s.checkQueue r.ringLog2 r.ringBase r.compBase,
    rule (!s.canJoin (s.jobCountRec client)) 0x02F6]
  if code != 0 then s.refuseJob sess seq code
  else
    let n := s.freeCtxNumber.getD 0
    let s := ({ s with office := { s.office with
      lifetime := kvSet client (kvGet client 0 s.office.lifetime + 1) s.office.lifetime } } : State).journal false
        (s.jobCountRec client)
    let q : Queue := ⟨r.ringBase, r.ringLog2, r.compBase, r.tail, 0, r.descBase, .idle⟩
    (s.acceptCtx sess seq ⟨n, .waiting, r.priority, false, r.partition, false, client, r.seqTag, r.jobId, none, 0, 0, 0,
      s.office.accepts, false, q, r.job sess⟩).startCtx n

/-! ## Sequence slots (11 R281, R282) -/

/-- A context that a priority trigger suspended is held back: one of higher Priority of its partition is Live or Waiting
(11 R282). -/
def State.yields (s : State) (x : Ctx) : Bool :=
  x.state == .suspended && !x.held && s.office.yielding.contains x.number &&
    s.office.ctxs.any (fun y => y.partition == x.partition && decide (x.priority < y.priority) &&
      (y.state == .live || y.state == .waiting))

/-- A context that competes for a slot: Waiting, or Suspended and not held, of a sequence in which none is held back (11 R281,
R282). -/
def State.competes (s : State) (x : Ctx) : Bool :=
  !s.partStopped x.partition && !s.holdsSlot x && (x.state == .waiting || (x.state == .suspended && !x.held)) &&
    !s.office.ctxs.any (fun y => y.client == x.client && y.seqTag == x.seqTag && s.yields y)

/-- `x` goes before `y`: higher Priority, then earlier acceptance. -/
def Ctx.before (x y : Ctx) : Bool := decide (y.priority < x.priority) || (x.priority == y.priority && decide (x.order ≤ y.order))

/-- The context whose sequence takes a free slot next. -/
def State.nextSequence (s : State) : Option Ctx :=
  let l := s.office.ctxs.filter s.competes
  l.find? (fun x => l.all (fun y => x.before y))

/-- Give the lowest free slot to the sequence that goes first. -/
def State.grantSlot (s : State) : State :=
  if !s.office.seqSlots.contains none then s
  else
    match s.nextSequence with
    | none => s
    | some x =>
      let i := s.office.seqSlots.idxOf none
      let slots := modifyAt (fun _ => some (x.client, x.seqTag)) i s.office.seqSlots
      let s : State := { s with office := { s.office with seqSlots := slots } }
      (s.office.ctxs.filter (fun y => y.client == x.client && y.seqTag == x.seqTag && y.state == .waiting)).foldl
        (fun s y => s.startCtx y.number) s

/-! ## The end of a suspension (11 R287) -/

/-- A context's suspension is over in its units: each instruction that runs on has ended, and no pipe works on its frames or
samples (11 R287 step 5). -/
def State.quiet (s : State) (c : Nat) : Bool :=
  (s.cs.flight.filter (fun f => f.ctx == c)).all (fun f => f.stopped) &&
    !(s.intake.pipes ++ s.codec.pipes).any (fun p => match p.job with
      | some j => j.1 == c
      | none => false)

/-- Steps 4 and 6 of R287. -/
def State.saveDone (s : State) (c : Nat) : State :=
  match s.ctx? c with
  | none => s
  | some x =>
    match x.saveSlot with
    | none => s
    | some i =>
      if !x.suspending || x.state != .live || !s.quiet c then s
      else
        let s := s.stopTasks x
        let recs := s.savedRecords x
        let area := s.saveArea x (recs.map (fun r => r.1))
        let a := s.slotAddr x.partition i
        let bad := s.unsavedUnits a recs area.length
        let s := s.writeBytes a area
        let s := (if bad == [] then s else s.poisonUnits bad).drew
        let s : State := { s with office := { s.office with
          saveBases := kvSet c a s.office.saveBases
          saveSums := kvSet c (leAt area 60 4) s.office.saveSums } }
        let s := s.setCtx c (fun x => { x with suspending := false, saveBytes := area.length, preemptions := x.preemptions + 1 })
        let s := ((s.bump 0x31D0 3 1).bump 0x31D0 5 area.length).post (s.partUnit x.partition) 6 0 s.anyDetail
        ((s.enter c .suspended).dropSlot x).serveTasks

/-! ## Context abort (19 R498) -/

/-- Instructions in flight complete with a code, or with the failure detected first (03 R93). One that has ended and owes its
record only keeps its own status (DESIGN CHOICE: R84 gives 0x0404 to every instruction in flight, and does not say whether
one that has ended still is), as does a COPY whose transfers are under way where `copies` holds. -/
def State.endAll (s : State) (c code : Nat) (copies : Bool) : State :=
  match s.ctx? c with
  | none => s
  | some x =>
    (s.cs.flight.filter (fun f => f.ctx == c)).foldl (fun s f =>
      if f.phase == .ended || (copies && !f.stopped && f.opcode == 0x12 && f.phase == .running) then s.settle x f
      else (s.scramble f).settle x
        { f with
          status := f.firstFailure code
          detail := if isSuccess f.status then 0xFFFFFFFF else f.detail
          rung := s.failRung f
          endWrites := [] }) s

/-- The context's codec streams become Errored (15 R402). -/
def State.errorStreams (s : State) (c : Nat) : State :=
  { s with codec := { s.codec with
      streams := modifyWhere (fun x => x.ctx == c) Codec.err s.codec.streams } }

/-- Abort a context with a code for its instructions; `own` where the module started the abort (19 R498, R513). -/
def State.abortCtx (s : State) (c code : Nat) (own : Bool) : State :=
  match s.ctx? c with
  | none => s
  | some x =>
    if x.state == .ending then s
    else
      let s := s.post (s.partUnit x.partition) 3 code s.anyDetail
      let s := s.endAll c code true
      let s := (s.dropReqs (fun r => r.ctx == c && r.kind == .read)).errorStreams c
      let s := ({ s with office := { s.office with tasks := s.office.tasks.filter (fun t => t.ctx != c) } } : State).dropWork c
      let s := ((s.dropSave c).setCtx c (fun x => { x with suspending := false })).bump 0x4003 1 1
      let s := s.log (s.partUnit x.partition) code 2 x.partition c
      let s := if own then s.raise 0 code else s
      (s.endJob c (match x.job.haltRec with
        | some r => leAt r 0 2
        | none => code)).serveTasks.runTriggers

/-! ## Restore (11 R295 to R298) -/

/-- Deal again what is left of a stopped instruction, over the cells active now; a task with a record goes on from it, one without
begins anew (11 R295 steps 2 to 4). -/
def State.redealAll (s : State) (x : Ctx) (recs : List Loaded) (f : InFlight) : State :=
  match opOf f.opcode with
  | none => s
  | some o =>
    let left := s.office.tasks.filter (fun t => t.ctx == f.ctx && t.idx == f.idx)
    let all := (o.run (s.lateEnv x f (s.arrived f.ctx f.idx))).tasks
    let todo := all.filter (fun t => left.any (fun u => u.pane == t.1 && u.slice == t.2.1))
    let tasks := s.office.tasks.filter (fun t => t.ctx != f.ctx || t.idx != f.idx)
    (({ s with office := { s.office with tasks := tasks } } : State).setGrid f.ctx f.idx all).deal f.ctx f.idx x.priority
      todo (taskRecord recs f.idx)

/-- An area that no longer has the Crc it was saved with was written meanwhile: the results of what it holds are undefined (04
R115). Records of instructions that have not started here are kept until they do (R297). -/
def State.takeArea (s : State) (c : Nat) (area : Bytes) : State :=
  let own := fun (i : Nat) => s.cs.flight.any (fun f => f.ctx == c && f.idx == i)
  let changed := kvGet c (leAt area 60 4) s.office.saveSums != leAt area 60 4
  { s with
    office := { s.office with loaded := s.office.loaded ++ (areaRecords c area).filter (fun r => !own r.idx) }
    cs := { s.cs with
      flight := modifyWhere (fun f => f.ctx == c && f.stopped) (fun f => { f with spoiled := f.spoiled || changed }) s.cs.flight } }

/-- The restore of a context whose sequence holds a slot; one that is held back gives the slot up (11 R281, R282). -/
def State.restoreCtx (s : State) (c : Nat) : State :=
  match s.ctx? c with
  | none => s
  | some x =>
    match x.saveSlot with
    | none => s
    | some i =>
      if x.state != .suspended || x.held || !s.holdsSlot x || s.partStopped x.partition then s
      else if s.yields x then s.dropSlot x
      else
        let a := s.savedAt x i
        let s := s.readRuns [(a, x.saveBytes)]
        if !areaGood (s.readBytes a x.saveBytes) || s.mem.poisonIn a x.saveBytes != [] then
          let t := if s.mem.poisonIn a x.saveBytes == [] then s else s.sawPoison (s.mem.poisonIn a x.saveBytes)
          ((t.setJob c (fun j => { j with status := joinStatus j.status 0x0391 })).setQueue c (fun q =>
            { q with qs := .halted })).abortCtx c 0x0391 true
        else
          let area := s.readBytes a x.saveBytes
          let s := s.takeArea c area
          let stopped := s.cs.flight.filter (fun f => f.ctx == c && f.stopped)
          let s := stopped.foldl (fun s f => s.redealAll x (areaRecords c area) f) s
          let s := stopped.foldl (fun s f => s.setFlight c f.idx (fun f => { f with stopped := false })) s
          let s : State := { s with office := { s.office with yielding := s.office.yielding.filter (fun y => y != c) } }
          let s := (s.dropSave c).setCtx c (fun x => { x with
            wasHalted := false
            queue := { x.queue with qs := if x.wasHalted then .halted else .running } })
          let s := (s.bump 0x31D0 4 1).post (s.partUnit x.partition) 6 0 s.anyDetail
          let s := s.enter c .live
          let s := stopped.foldl (fun s f => (s.askHistory c f.idx).resumeRun c f.idx) s.failDry
          (s.serveTasks.finishJob c).runTriggers

/-! ## Requests to suspend and resume (11 R286, R295) -/

/-- A request to suspend a context: the code that refuses it, or the machine after it. -/
def State.suspendReq (s : State) (c : Nat) : Applied :=
  match s.ctx? c with
  | none => (s, 0x0191)
  | some x =>
    if x.state != .live then (s, 0x0191)
    else if x.suspending then
      (({ s with office := { s.office with yielding := s.office.yielding.filter (fun y => y != c) } } : State).setCtx c
        (fun x => { x with held := true }), 0)
    else if (s.freeSlot x.partition).isNone then (s, 0x0292)
    else (s.suspendStart c true, 0)

/-- A request to resume a context. -/
def State.resumeReq (s : State) (c : Nat) : Applied :=
  match s.ctx? c with
  | none => (s, 0x0191)
  | some x => if x.state != .suspended then (s, 0x0191) else (s.setCtx c (fun x => { x with held := false }), 0)

/-- A request to suspend every Live context of a partition, or none (11 R286). -/
def State.suspendPart (s : State) (p : Nat) : Applied :=
  let live := s.office.ctxs.filter (fun x => x.partition == p && x.state == .live)
  let free := ((List.range s.mem.saveSlots).filter (s.slotFree p)).length
  if !s.partExists p then (s, 0x01F0)
  else if free < live.length then (s, 0x0292)
  else
    (live.foldl (fun s x => if x.suspending then (s.suspendReq x.number).1 else s.suspendStart x.number true) s, 0)

/-! ## Import (11 R297) -/

/-- A save area's header breaks R291. -/
def headerIllegal (h : Bytes) (limit : Nat) : Bool :=
  leAt h 0 4 != 1 || bits (leAt h 16 4) 30 2 != 0 || !bit (leAt h 22 1) 0 || bits (leAt h 22 1) 1 7 != 0 ||
    leAt h 23 37 != 0 || decide (leAt h 8 8 < 192) || decide (limit < leAt h 8 8)

/-- RecordCount is that of the records that follow (11 R291). -/
def recordsGood (area : Bytes) : Bool := (parseRecords 0 (leAt area 4 4) (area.drop 192)).isSome

/-- IMPORT's body: a job record and the address of a save area. -/
def State.importCtx (s : State) (sess client seq : Nat) (body : Bytes) : State :=
  let r := JobRec.parse body
  let a := beAt body 64 8
  let here := decide (a + 64 ≤ s.mem.windowBytes)
  let h := if here then s.readBytes a 64 else []
  let n := leAt h 8 8
  let area := if here && decide (a + n ≤ s.mem.windowBytes) then s.readBytes a n else []
  let qb := leAt area 128 32
  let code := firstCode [s.checkRecord true client r, s.checkQuota client, rule (s.freeSlot r.partition).isNone 0x0292,
    rule (!here || s.mem.poisonIn a 64 != [] || headerIllegal h (s.slotBytes r.partition) ||
      decide (s.mem.windowBytes < a + n)) 0x0190,
    rule (s.mem.poisonIn a n != [] || !areaGood area) 0x0390, rule (!recordsGood area) 0x0190,
    s.checkQueue (bits qb 40 5) (bits qb 0 40) (bits qb 64 40)]
  if code != 0 then s.refuseJob sess seq code
  else
    let c := s.freeCtxNumber.getD 0
    let i := (s.freeSlot r.partition).getD 0
    let s := ((s.readRuns [(a, n)]).writeBytes (s.slotAddr r.partition i) area).bump 0x31D0 5 n
    let s : State := { s with office := { s.office with
      saveUsed := s.office.saveUsed ++ [(r.partition, i)]
      saveSums := kvSet c (leAt area 60 4) s.office.saveSums
      saveBases := kvSet c (s.slotAddr r.partition i) s.office.saveBases } }
    let q : Queue := ⟨bits qb 0 40, bits qb 40 5, bits qb 64 40, bits qb 128 32, bits qb 160 32, bits qb 192 40, .preempted⟩
    s.acceptCtx sess seq ⟨c, .suspended, r.priority, false, r.partition, bit (leAt area 67 1) 6, client, r.seqTag, r.jobId,
      some i, n, leAt area 92 4, leAt area 160 8, s.office.accepts, false, q, r.job sess⟩

/-! ## Meanings -/

/-- SLOT_GRANT (11 R281, R282). -/
def execSlotGrant (s : State) : Out := .next s.grantSlot

/-- The context that a priority trigger suspends (11 R286): of the two tasks in a cell, the one of lower Priority, or of equal
Priority the one whose instruction started later. -/
def State.victim (s : State) (cell prio : Nat) : Option Nat :=
  match s.runningIn cell with
  | [t, u] =>
    let at_ := fun (x : Task) => s.cs.flight.findIdx (fun f => f.ctx == x.ctx && f.idx == x.idx)
    if prio ≤ t.prio || prio ≤ u.prio then none
    else if t.prio < u.prio then some t.ctx
    else if u.prio < t.prio then some u.ctx
    else if at_ t < at_ u then some u.ctx
    else some t.ctx
  | _ => none

/-- PREEMPT_WAIT_EXPIRY (11 R286, R287): the wait of a task of instruction `idx` in a cell's pigeonhole has passed
PreemptWait. -/
def execPreemptWaitExpiry (cell ctx idx task : Nat) (s : State) : Out :=
  .next (
    match s.office.tasks.find? (fun t => t.cell == cell && t.ctx == ctx && t.idx == idx && t.pane == task &&
        t.phase == .posted) with
    | none => s
    | some t =>
      if s.dget 0x2350 1 == 0xFFFFFFFF then s
      else
        match s.victim cell t.prio with
        | none => s
        | some c =>
          match s.ctx? c with
          | none => s
          | some x =>
            if x.state != .live || x.suspending || s.office.triggers.any (fun g => g.2 == c) then s
            else if (s.freeSlot x.partition).isSome then s.suspendStart c false
            else { s with office := { s.office with triggers := s.office.triggers ++ [(x.partition, c)] } })

/-- SUSPEND_CONTEXT (11 R286, R299). -/
def execSuspendContext (value : Nat) (s : State) : Out :=
  .next (s.trigger 0x2350 4 false 0 0xFFFFFFFF value (fun s => s.suspendReq value))

/-- SUSPEND_PARTITION (11 R286, R299). -/
def execSuspendPartition (value : Nat) (s : State) : Out :=
  .next (s.trigger 0x2350 6 false 0 3 value (fun s => s.suspendPart value))

/-- RESUME_CONTEXT (11 R295, R299). -/
def execResumeContext (value : Nat) (s : State) : Out :=
  .next (s.trigger 0x2350 5 false 0 0xFFFFFFFF value (fun s => s.resumeReq value))

/-- SAVE_COMPLETE (11 R287 steps 4 to 6). -/
def execSaveComplete (c : Nat) (s : State) : Out := .next (s.saveDone c)

/-- RESTORE (11 R295 to R298). -/
def execRestore (c : Nat) (s : State) : Out := .next (s.restoreCtx c)

/-- The key of the DictValue record that keeps a client's explicit quota. -/
def quotaKey (client : Nat) : Nat := dkey 0x2351 2 + 2 ^ 24 * (client + 1)

/-- The quota pair's commit (11 R280). -/
def applyQuota (s : State) : Applied :=
  let client := s.staging 0x2351 1
  let jobs := s.staging 0x2351 2
  let put := fun (s : State) => ((s.keep 0x2351 1 2 client).keep 0x2351 2 4 jobs).journal false
    ⟨1, quotaKey client, leBytes 4 jobs⟩
  if decide (0x100000 < jobs) && jobs != 0xFFFFFFFF then (s, 0x0192)
  else if s.keepRefused != 0 then (s, s.keepRefused)
  else if jobs == 0xFFFFFFFF then
    let s := put s
    ({ s with office := { s.office with quotas := kvDel client s.office.quotas } }, 0)
  else if !kvHas client s.office.quotas && decide (4096 ≤ s.office.quotas.length) then (s, 0x0293)
  else
    let s := put s
    ({ s with office := { s.office with quotas := kvSet client jobs s.office.quotas } }, 0)

/-- QUOTA_COMMIT (11 R277, R280). -/
def execQuotaCommit (value : Nat) (s : State) : Out := .next (s.trigger 0x2351 3 true 1 1 value applyQuota)

/-- What is illegal in a request for a job itself: the record, a kind that the role refuses, a job in flight, the queue block, a save
area's header. -/
def State.jobIllegal (s : State) (imported : Bool) (client : Nat) (body : Bytes) : Nat :=
  let r := JobRec.parse body
  firstCode [rule (!s.recordForm imported r) 0x01E2, rule (!roleAccepts (s.role r.partition) r.kind) 0x01E3,
    rule (s.jobOf client r.jobId).isSome 0x01E4,
    if imported then
      let a := beAt body 64 8
      let h := s.readBytes a 64
      rule (s.mem.windowBytes < a + 64 || headerIllegal h (s.slotBytes r.partition) || decide (s.mem.windowBytes < a + leAt h 8 8)) 0x0190
    else s.checkQueue r.ringLog2 r.ringBase r.compBase]

/-- A legal message of an open session that asks for a job in a stopped partition is not taken (19 R500 step 1, R518). An illegal one
is answered like any other (00 R7, R11). -/
def State.notTaken (s : State) (d : Dgram) (type : Nat) (imported : Bool) : Bool :=
  let m := Msg.parse d.bytes
  let r := JobRec.parse m.body
  m.type == type && !m.headerBad && bodyOk type m.body && s.partStopped r.partition &&
    (match s.session? m.session with
     | some x => s.jobIllegal imported x.client m.body == 0
     | none => false)

/-- SUBMIT (16 R419, R420; 11 R275, R279). -/
def execSubmit (d : Dgram) (s : State) : Out :=
  .next (
    if s.notTaken d 0x20 false then s
    else s.courier d 0x20 (fun _ => true) (fun s x seq body => s.submitJob x.id x.client seq body))

/-- IMPORT (11 R297, 16 R420). -/
def execImportJob (d : Dgram) (s : State) : Out :=
  .next (
    if s.notTaken d 0x22 true then s
    else s.courier d 0x22 (fun _ => true) (fun s x seq body => s.importCtx x.id x.client seq body))

end Sys2Proof.Machine
end

