-- ==== Sys2Proof/Machine/Courier.lean ====
section
/-! DEFINITION. Courier: the courier rows of sessions, payloads, controls and results, and the answers of the data ports below
UDP (16 R407 to R428). -/

namespace Sys2Proof.Machine
open Sys2Proof

/-! ## Datagrams and sessions -/

/-- INVALID_DATAGRAM (16 R408, R412). -/
def execInvalidDatagram (d : Dgram) (s : State) : Out := .next (if s.dataPort d.port then s.bump 0x3240 4 1 else s)

/-- The session that an Open repeats (16 R413). -/
def State.reopened (s : State) (d : Dgram) (nonce : Nat) : Option Session :=
  s.net.sessions.find? (fun x => x.openIp == d.ip && x.openUdp == d.udp && x.nonce == nonce && !x.carried)

/-- A legal Open: the session it repeats, a new one, or none left (16 R413). -/
def State.openFor (s : State) (d : Dgram) (m : Msg) : State :=
  if m.body.length != 8 || beAt m.body 2 2 != 0 then s.replyRaw d 0 m.seq 0x01E2
  else
    let s := s.bump 0x3240 1 1
    match s.reopened d (beAt m.body 4 4) with
    | some x => s.replyRaw d x.id m.seq 0
    | none =>
      if 1024 ≤ s.net.sessions.length then s.replyRaw d 0 m.seq 0x02E0
      else
        let id := s.net.nextSession
        let x : Session := ⟨id, beAt m.body 0 2, d.port, d.ip, d.udp, d.mac, d.ip, d.udp, beAt m.body 4 4, 1, 1, 0, m.window,
          0, 0, false, false, [], []⟩
        ({ s with net := { s.net with sessions := s.net.sessions ++ [x], nextSession := id % 0xFFFFFFFF + 1 } } : State).replyRaw d id m.seq 0

/-- OPEN (16 R413). -/
def execOpenSession (d : Dgram) (s : State) : Out :=
  .next (
    let m := Msg.parse d.bytes
    if s.dataPort d.port && !dgramBad d.bytes && !m.headerBad && m.type == 0x01 && m.session == 0 then s.openFor d m
    else s.courier d 0x01 (fun _ => true) (fun s _ _ _ => s))

/-- CLOSE (16 R413): acknowledged, and the session ends once its earlier messages are complete. -/
def execCloseSession (d : Dgram) (s : State) : Out :=
  .next (s.courier d 0x02 (fun _ => true) (fun s x _ _ =>
    ((s.sendAck x.id).setSession x.id (fun x => { x with closing := true })).endClosing x.id))

/-- ACK (16 R414, R415, R421): what an acknowledgement covers is done as every message's Ack is taken. -/
def execAck (d : Dgram) (s : State) : Out := .next (s.courier d 0x03 (fun _ => true) (fun s _ _ _ => s))

/-- RETRANSMIT_TIMEOUT (16 R415). -/
def execRetransmitTimeout (session : Nat) (s : State) : Out := .next (s.resend session)

/-- ACK_TIMER (16 R414). -/
def execAckTimer (session : Nat) (s : State) : Out :=
  .next (match s.session? session with
    | some x => if x.owed == 0 then s else s.sendAck session
    | none => s)

/-- PORT_LINK_LOSS (16 R425). -/
def execPortLinkLoss (port : Nat) (s : State) : Out :=
  .next { s with net := { s.net with linkUp := modifyAt (fun _ => false) port s.net.linkUp } }

/-- Data ports are enabled: by the lifecycle, out of Hold, with the firmware serving (20 R550, R552, 21 R569 step 9). -/
def State.portsEnabled (s : State) : Bool :=
  s.board.phase == .serving && s.board.power != 2 && s.serdesUp &&
    (s.sec.fuses.lifecycle == 1 || s.sec.fuses.lifecycle == 2)

/-- DATA_PORT_LINK_UP (21 R569 step 9, 16 R407). -/
def execDataPortLinkUp (port : Nat) (s : State) : Out :=
  .next (if s.portsEnabled then { s with net := { s.net with linkUp := modifyAt (fun _ => true) port s.net.linkUp } } else s)

/-! ## Payloads (16 R417) -/

/-- Bytes that lie wholly in the GDDR protected window below the system reserve. -/
def State.courierRange (s : State) (a n : Nat) : Bool := decide (a + n ≤ s.mem.reserveBase)

/-- ALLOC (10 R253 to R255, R260). -/
def execAlloc (d : Dgram) (s : State) : Out :=
  .next (s.courier d 0x10 (fun _ => true) (fun s x seq body => s.allocate x.id seq body))

/-- FREE (10 R256). -/
def execFree (d : Dgram) (s : State) : Out :=
  .next (s.courier d 0x11 (fun _ => true) (fun s x seq body => s.freeObj x.id seq (beNat body)))

/-- WRITE (16 R416, R417). -/
def execWrite (d : Dgram) (s : State) : Out :=
  .next (s.courier d 0x12 (fun _ => true) (fun s x seq body =>
    let a := beAt body 0 8
    if !s.courierRange a (body.drop 16).length then s.reply x.id seq 0x01E6 0 0
    else if s.unserved [(a, (body.drop 16).length)] then s.reply x.id seq 0x0381 0 0
    else s.writeBytes a (body.drop 16)))

/-- Data messages of at most 8,912 bytes, in rising Offset. -/
def State.sendData (s : State) (sess seq : Nat) : Nat → List Bytes → State
  | _, [] => s
  | off, b :: l =>
    (s.sendMsg sess 0x83 0 0 (beBytes 4 seq ++ beBytes 4 0 ++ beBytes 8 off ++ b)).sendData sess seq (off + b.length) l

/-- A Read's answer: Data and then a Reply, or a Reply alone. -/
def State.readFor (s : State) (sess seq a n : Nat) : State :=
  if !s.courierRange a n then s.reply sess seq 0x01E6 0 0
  else if s.mem.poisonIn a n != [] then (s.sawPoison (s.mem.poisonIn a n)).reply sess seq 0x0302 0 0
  else if s.unserved [(a, n)] then s.reply sess seq 0x0381 0 0
  else ((s.readRuns [(a, n)]).sendData sess seq 0 (chunks 8912 (s.readBytes a n))).reply sess seq 0 0 0

/-- READ (16 R417). -/
def execRead (d : Dgram) (s : State) : Out :=
  .next (s.courier d 0x13 (fun _ => true) (fun s x seq body => s.readFor x.id seq (beAt body 0 8) (beAt body 8 4)))

/-! ## Control (16 R422) -/

/-- What a Control action answers: the machine after it, a status code and a value. -/
abbrev Controlled := State × Nat × Nat

/-- A Control datagram whose row is action `k`. A Control that names no job of the client, or an action that is not listed, is
answered with 0x01E5. -/
def State.control (s : State) (d : Dgram) (k : Nat) (f : State → Ctx → Nat → Controlled) : State :=
  s.courier d 0x21 (fun b => beAt b 4 1 == k || beAt b 4 1 == 0 || decide (7 < beAt b 4 1)) (fun s x seq body =>
    match s.jobOf x.client (beAt body 0 4) with
    | none => s.reply x.id seq 0x01E5 0 0
    | some c =>
      if beAt body 4 1 != k || (c.state == .ending && k != 6 && k != 7) then s.reply x.id seq 0x01E5 0 0
      else
        let r := f s c (beAt body 8 8)
        r.1.reply x.id seq r.2.1 (s.postmark c.partition) r.2.2)

/-- CONTROL_DOORBELL (16 R422, 03 R56, R57): Value[33] seals the job at a NewTail that is not ignored. One that R56 ignores is answered
with a code, as 00 R11 asks: 0x01E2 for bits above 33, 0x01E5 for a NewTail that the queue does not take (DESIGN CHOICE: which
code is not given). -/
def execControlDoorbell (d : Dgram) (s : State) : Out :=
  .next (s.control d 1 (fun s c v =>
    let bell := setBit v 33 false
    let sealed := bit v 33 && bellAction c.queue bell != 0
    let s := ((s.bellFetch c.number).bellTail c.number bell).bellResume c.number bell
    let s := if sealed then s.setJob c.number (fun j => { j with isSealed := true }) else s
    let code := if bellAction c.queue bell != 0 then 0 else if bits bell 33 31 != 0 then 0x01E2 else 0x01E5
    (s.finishJob c.number, code, 0)))

/-- A refusal for the state of a context, as a Control answers it. -/
def controlled (r : Applied) : Controlled := (r.1, if r.2 == 0x0191 then 0x01E5 else r.2, 0)

/-- CONTROL_SUSPEND (16 R422, 11 R286). -/
def execControlSuspend (d : Dgram) (s : State) : Out :=
  .next (s.control d 2 (fun s c _ => controlled (s.suspendReq c.number)))

/-- CONTROL_RESUME (16 R422, 11 R295). -/
def execControlResume (d : Dgram) (s : State) : Out :=
  .next (s.control d 3 (fun s c _ => controlled (s.resumeReq c.number)))

/-- CONTROL_CANCEL (16 R422, 19 R498). -/
def execControlCancel (d : Dgram) (s : State) : Out :=
  .next (s.control d 4 (fun s c _ => (s.abortCtx c.number 0x0403 false, 0, 0)))

/-- A Suspended context with its save area, exported: it stays Suspended until a Resume or a Cancel, and gives up a sequence slot that
it was granted for its restore (11 R281); one with an Open or Errored codec stream is refused (16 R422, 15 R402). -/
def State.exportReq (s : State) (c : Ctx) : Controlled :=
  match c.saveSlot with
  | none => (s, 0x01E5, 0)
  | some i =>
    if c.state != .suspended then (s, 0x01E5, 0)
    else if s.codec.streams.any (fun x => x.ctx == c.number) then (s, 0x01D4, 0)
    else ((s.setCtx c.number (fun x => { x with held := true })).dropSlot c, 0, s.savedAt c i)

/-- CONTROL_EXPORT (16 R422, R418). -/
def execControlExport (d : Dgram) (s : State) : Out := .next (s.control d 5 (fun s c _ => s.exportReq c))

/-- Rebind a job's result: one held here is delivered now if it may be (16 R421, R422). Progress of a job that outlived its
sessions goes to the session that rebinds it (R425). -/
def State.rebind (s : State) (sess : Nat) (c : Ctx) (v : Nat) : State :=
  let s := s.setJob c.number (fun j => { j with
    resultSession := v % 2 ^ 32
    submitSession := if j.submitSession == 0 then sess else j.submitSession })
  match s.net.results.find? (fun r => r.node == 0xFFFF && r.ctx == c.number && r.endSeq.isNone) with
  | none => s
  | some r =>
    let t : State := { s with net := { s.net with
      results := modifyWhere (fun x => x.id == r.id) (fun x => { x with session := v % 2 ^ 32 }) s.net.results } }
    t.deliver { r with session := v % 2 ^ 32 }

/-- CONTROL_REBIND (16 R422, R425). -/
def execControlRebind (d : Dgram) (s : State) : Out :=
  .next (s.control d 6 (fun s c v => (s.rebind (Msg.parse d.bytes).session c v, 0, 0)))

/-- CONTROL_QUERY (16 R422, R424). -/
def execControlQuery (d : Dgram) (s : State) : Out := .next (s.control d 7 (fun s c _ => (s.progress c.number, 0, 0)))

/-! ## Results and limits (16 R421, R423) -/

/-- RESULT_REQUEST (16 R421): a result arrives here for delivery. -/
def execResultRequest (r : ResultReq) (s : State) : Out :=
  .next (
    if s.board.phase != .serving then s.refuseRequest 0 r.node 0x0701
    else if s.board.power == 2 then s.refuse 0 r.node 0x07FC
    else s.holdResult r.node 0 r.client r.jobId r.session r.ref r.status)

/-- RESULT_HOLD_EXPIRY (16 R421): a result whose session is still not open is dropped with 0x07E0. -/
def execResultHoldExpiry (result : Nat) (s : State) : Out :=
  .next (match s.net.results.find? (fun r => r.id == result) with
    | none => s
    | some r =>
      match s.session? r.session with
      | none => s.failDelivery r
      | some x => if x.client == r.client then s else s.failDelivery r)

/-- HALT_LIMIT_EXPIRY (16 R423): zero is no limit. -/
def execHaltLimitExpiry (c : Nat) (s : State) : Out :=
  .next (match s.ctx? c with
    | none => s
    | some x =>
      if s.dget 0x23A0 5 != 0 && x.state == .live && x.queue.qs == .halted then s.abortCtx c 0x0403 true else s)

/-! ## Below UDP (16 R408) -/

/-- The IPv4 address of a port, 0 for none. -/
def State.ipv4 (s : State) (port : Nat) : Nat := s.dget 0x23A1 (port + 1)

/-- The IPv6 address of a port, 0 for none. -/
def State.ipv6 (s : State) (port : Nat) : Nat := s.dget 0x23A2 (port + 1)

def State.putRaw (s : State) (port dest : Nat) (b : Bytes) : State :=
  { s with net := { s.net with raw := s.net.raw ++ [(port, dest, b)] } }

/-- The MAC address of a port. -/
def macOf (port : Nat) : Bytes := beBytes 6 (Config.macAddress port).toNat

/-- The Internet checksum of a byte string. -/
def inetSum (b : Bytes) : Nat :=
  let t := total ((chunks 2 b).map (fun p => beNat (fit 2 p)))
  let u := t % 65536 + t / 65536
  65535 - (u % 65536 + u / 65536) % 65536

/-- An ICMPv4 message with its checksum. -/
def icmp4 (type : Nat) (rest : Bytes) : Bytes :=
  beBytes 2 (type * 256) ++ beBytes 2 (inetSum (beBytes 2 (type * 256) ++ beBytes 2 0 ++ rest)) ++ rest

/-- An ICMPv6 message with its checksum over the pseudo-header. -/
def icmp6 (src dst type : Nat) (rest : Bytes) : Bytes :=
  let pseudo := beBytes 16 src ++ beBytes 16 dst ++ beBytes 4 (rest.length + 4) ++ beBytes 4 58
  beBytes 2 (type * 256) ++ beBytes 2 (inetSum (pseudo ++ beBytes 2 (type * 256) ++ beBytes 2 0 ++ rest)) ++ rest

/-- ARP_REQUEST (16 R408): answered for the port's own address. -/
def execArpRequest (port target senderIp senderMac : Nat) (s : State) : Out :=
  .next (
    if !s.dataPort port || s.ipv4 port == 0 || target != s.ipv4 port then s
    else s.putRaw port senderMac (beBytes 2 1 ++ beBytes 2 0x0800 ++ beBytes 1 6 ++ beBytes 1 4 ++ beBytes 2 2 ++ macOf port ++
      beBytes 4 target ++ beBytes 6 senderMac ++ beBytes 4 senderIp))

/-- NEIGHBOUR_SOLICITATION (16 R408): answered for the port's own address. -/
def execNeighbourSolicitation (port target senderIp senderMac : Nat) (s : State) : Out :=
  .next (
    if !s.dataPort port || s.ipv6 port == 0 || target != s.ipv6 port then s
    else s.putRaw port senderMac (icmp6 target senderIp 136 (beBytes 4 0x60000000 ++ beBytes 16 target ++ beBytes 2 0x0201 ++
      macOf port)))

/-- ECHO_REQUEST (16 R408): answered to its source. -/
def execEchoRequest (port : Nat) (v6 : Bool) (dst src : Nat) (payload : Bytes) (s : State) : Out :=
  .next (
    let own := if v6 then s.ipv6 port else s.ipv4 port
    if !s.dataPort port || own == 0 || dst != own then s
    else s.putRaw port src (if v6 then icmp6 own src 129 payload else icmp4 0 payload))

end Sys2Proof.Machine
end

