-- ==== Sys2Proof/Machine/Fabric.lean ====
section
/-! DEFINITION. Fabric: ports, flits, replay, bring-up, lane degrade and retraining, node ids and routes (12 R302 to R327). -/

namespace Sys2Proof.Machine
open Sys2Proof

/-! ## Flits (12 R306 to R308) -/

/-- A flit read from its 256 bytes; PayloadLen cuts the payload. -/
def Flit.parse (b : Bytes) : Flit :=
  let n := beNat (b.take 16)
  ⟨bits n 124 4, bits n 122 2, bits n 121 1, bit n 120, bits n 104 16, bits n 88 16, bits n 85 3, bits n 77 8, bits n 54 15,
    bits n 39 15, bits n 29 10, (b.drop 16).take (min 236 (bits n 69 8)), none, 0⟩

/-- The 256 bytes of a flit: header, payload with zero padding, CRC-32C (12 R306). -/
def Flit.bytes (f : Flit) : Bytes :=
  let head := f.type % 16 * 2 ^ 124 + f.cls % 4 * 2 ^ 122 + f.vlane % 2 * 2 ^ 121 + (if f.last then 2 ^ 120 else 0) +
    f.seq % 2 ^ 16 * 2 ^ 104 + f.ackSeq % 2 ^ 16 * 2 ^ 88 + f.creditBuf % 8 * 2 ^ 85 + f.creditCount % 256 * 2 ^ 77 +
    f.payload.length % 256 * 2 ^ 69 + f.dest % 2 ^ 15 * 2 ^ 54 + f.src % 2 ^ 15 * 2 ^ 39 + f.postmark % 1024 * 2 ^ 29
  let b := beBytes 16 head ++ fit 236 f.payload
  b ++ beBytes 4 (crc32c b)

/-- A flit that R307 discards: wrong length, a reserved Type or field, PayloadLen above 236, or a CRC mismatch. -/
def flitBad (b : Bytes) : Bool :=
  let n := beNat (b.take 16)
  b.length != 256 || decide (4 < bits n 124 4) || bits n 0 29 != 0 || decide (236 < bits n 69 8) ||
    beAt b 252 4 != crc32c (b.take 252)

/-- Sequenced types. -/
def Flit.sequenced (f : Flit) : Bool := f.type == 1 || f.type == 2

/-- The receive buffer of a flit: Class × 2 + VLane. -/
def Flit.buf (f : Flit) : Nat := 2 * f.cls + f.vlane

/-! ## Ports -/

/-- The width and lanes of a set of usable lanes (12 R303, R313 step 4). -/
def chooseLanes (mask : Nat) : Nat × Nat :=
  if mask % 16 == 15 then (4, 15)
  else if bits mask 0 2 == 3 then (2, 3)
  else if bits mask 2 2 == 3 then (2, 12)
  else
    match (List.range 4).find? (fun i => bit mask i) with
    | some i => (1, 2 ^ i)
    | none => (0, 0)

/-- A lane is fenced (19 R517: left out of bring-up and retraining). -/
def State.laneFenced (s : State) (port lane : Nat) : Bool := s.isFenced (unitFabric port lane)

/-- Lanes of a mask that are not fenced. -/
def State.goodLanes (s : State) (port mask : Nat) : Nat :=
  total ((List.range 4).map (fun i => if bit mask i && !s.laneFenced port i then 2 ^ i else 0))

/-- Fabric ports are enabled by the lifecycle (20 R552). -/
def State.fabricOn (s : State) : Bool := s.sec.fuses.lifecycle != 0 && s.sec.fuses.lifecycle != 4

/-- Put a flit on the wire of a port. -/
def State.wire (s : State) (port : Nat) (f : Flit) : State :=
  { s with fabric := { s.fabric with out := s.fabric.out ++ [(port, f.bytes)] } }

/-- The credits that the next flit returns: the first receive buffer that owes any. -/
def Port.giveCredits (p : Port) : Nat × Nat × Port :=
  match (List.range 8).find? (fun i => p.owed.getD i 0 != 0) with
  | none => (0, 0, p)
  | some i =>
    let n := min 255 (p.owed.getD i 0)
    (i, n, { p with owed := modifyAt (fun k => k - n) i p.owed })

/-- AckSeq of a port: the last Seq accepted. -/
def Port.ackSeq (p : Port) : Nat := (p.expectSeq + 2 ^ 16 - 1) % 2 ^ 16

/-- Send a flit of a port, with its acknowledgement and credits. -/
def State.sendFlit (s : State) (port : Nat) (f : Flit) : State :=
  let p := s.port port
  let c := p.giveCredits
  (s.setPort port (fun _ => c.2.2)).wire port { f with ackSeq := p.ackSeq, creditBuf := c.1, creditCount := c.2.1 }

def Flit.bare (type node : Nat) (payload : Bytes) : Flit := ⟨type, 0, 0, true, 0, 0, 0, 0, 0, node % 2 ^ 15, 0, payload, none, 0⟩

/-- The depths of a port's receive buffers (12 R308). -/
def bufDepths : List Nat := [16, 16, 64, 64, 64, 64, 128, 128]

/-- Flits that still occupy a receive buffer of a port: held by the router, or waiting at another port. -/
def State.inBuffer (s : State) (port buf : Nat) : Nat :=
  ((s.fabric.held ++ s.fabric.ports.flatMap (fun p => p.sendQ)).filter (fun f => f.place == some (port, buf))).length

/-- Free places of each receive buffer of a port. -/
def State.freePlaces (s : State) (port : Nat) : List Nat :=
  bufDepths.zipIdx.map (fun d => d.1 - s.inBuffer port d.2)

/-- The lanes that a port offers: the pair it runs on while a lane is retrained, else those it has aligned. -/
def Port.offers (p : Port) : Nat := if p.retrain.isSome then p.lanes else p.aligned

/-- The payload of a Control flit: a Hello (12 R313 step 5), in an order of fields that R313 does not give (DESIGN CHOICE). The
exchanges of R316 and R317 use the same payload (DESIGN CHOICE: their contents are not given). -/
def State.helloBody (s : State) (p : Port) : Bytes :=
  beBytes 2 s.node ++ beBytes 1 p.id ++ beBytes 1 p.offers ++ beBytes 2 p.expectSeq ++
    (s.freePlaces p.id).flatMap (fun n => beBytes 2 n)

/-- The flit of the send queue that R309 chooses: of a class, the first for which there is a credit. -/
def Port.nextFlit (p : Port) : Option Flit :=
  let ok := fun (f : Flit) => decide (p.credits.getD f.buf 0 ≠ 0)
  if 512 ≤ p.replay.length then none
  else
    match p.sendQ.find? (fun f => f.cls == 0 && ok f) with
    | some f => some f
    | none =>
      let order := (List.range 3).map (fun k => 1 + (p.rr + k) % 3)
      (order.findSome? (fun c =>
        p.sendQ.find? (fun f => f.cls == c && ok f)))

/-- A port's next flit time (12 R309). -/
def State.transmit (s : State) (port : Nat) : State :=
  let p := s.port port
  if !p.carries && p.st != .exchanging then s
  else if p.nakDue then
    (s.sendFlit port (Flit.bare 3 s.node [])).setPort port (fun p => { p with nakDue := false })
  else if p.ctlDue then
    -- a Hello states every free place, so no credit is owed besides
    (s.sendFlit port (Flit.bare 4 s.node (s.helloBody p))).setPort port (fun q =>
      { q with ctlDue := false, owed := if p.st == .exchanging then List.replicate 8 0 else q.owed })
  else if !p.carries then s
  else
    match p.nextFlit with
    | none => s.sendFlit port (Flit.bare 0 s.node [])
    | some f =>
      let g := { f with seq := p.nextSeq, place := none }
      let s := ((s.freePlace f).setPort port (fun p => { p with
        nextSeq := (p.nextSeq + 1) % 2 ^ 16
        sendQ := p.sendQ.erase f
        replay := p.replay ++ [g]
        credits := modifyAt (fun k => k - 1) f.buf p.credits
        rr := if f.cls == 0 then p.rr else f.cls % 3 })).bump 0x3210 1 1
      s.sendFlit port g

/-! ## Replay (12 R310) -/

/-- `a` covers Seq `n`, modulo 2^16. -/
def acked16 (a n : Nat) : Bool := decide ((a + 2 ^ 16 - n) % 2 ^ 16 < 2 ^ 15)

/-- Take an AckSeq. -/
def State.takeAckSeq (s : State) (port a : Nat) : State :=
  s.setPort port (fun p =>
    let rest := p.replay.filter (fun f => !acked16 a f.seq)
    { p with replay := rest, ackIn := a, replays := if rest.length == p.replay.length then p.replays else 0 })

/-- A port with no link left: no width, no lanes. -/
def Port.fallen (p : Port) : Port := { p with st := .down, width := 0, lanes := 0, retrain := none, agreeing := false, ctlDue := false }

/-- A port goes to Down. A retraining that it ends has failed (12 R327). -/
def State.portFall (s : State) (port : Nat) : State :=
  ((if (s.port port).retrain.isSome then s.bump 0x3210 8 1 else s).setPort port Port.fallen).watch 0

/-- Resend every unacknowledged flit; after 8 replays in a row without an advance the port leaves Active. -/
def State.replayPort (s : State) (port : Nat) : State :=
  let p := s.port port
  if p.replay == [] then s
  else if 8 ≤ p.replays then (s.portFall port).setPort port (fun p => { p with replays := 0 })
  else
    let s := s.setPort port (fun p => { p with replays := p.replays + 1 })
    (p.replay.foldl (fun s f => s.sendFlit port f) s).bump 0x3210 2 p.replay.length

/-- A flit is discarded on receipt, or arrives out of order: one Nak becomes due. -/
def State.oweNak (s : State) (port : Nat) : State :=
  s.setPort port (fun p => if p.nakSent then p else { p with nakSent := true, nakDue := true })

/-! ## Reception -/

/-- A place in a receive buffer is free again. -/
def State.oweCredit (s : State) (port : Nat) (f : Flit) : State :=
  s.setPort port (fun p => { p with owed := modifyAt (fun k => k + 1) f.buf p.owed })

/-- A flit for this node (12 R324, 20 R550): taken, refused, or discarded and counted. A packet is whole at its last flit. A Refuse of
the router itself carries the postmark of the first partition (DESIGN CHOICE: no partition answers). -/
def State.takeFlit (s : State) (port : Nat) (f : Flit) : State :=
  let s := s.oweCredit port f
  if f.cls == 0 then s
  else if s.board.phase != .serving then
    (if f.cls == 1 && f.type == 1 then (s.bump 0x3210 0xA 1).refuse 0 f.src 0x0701 else s.bump 0x3210 5 1)
  else if s.board.power == 2 && f.cls == 1 && f.type == 1 then s.refuse 0 f.src 0x07FC
  else if f.last then
    s.setPort port (fun p => { p with recv := p.recv.filter (fun g => g.src != f.src || g.cls != f.cls) })
  else s.setPort port (fun p => { p with recv := p.recv ++ [f] })

/-- An accepted Data or Refuse flit: for this node, or in transit, when it keeps its place in the receive buffer until it is sent
on (12 R308). -/
def State.acceptFlit (s : State) (port : Nat) (f : Flit) : State :=
  let s := s.setPort port (fun p => { p with expectSeq := (p.expectSeq + 1) % 2 ^ 16, nakSent := false })
  if f.dest == s.node then s.takeFlit port f else s.routeFlit { f with place := some (port, f.buf) }

/-- The neighbour of a carrying port changes the width, or answers a change of this end (12 R316, R317): the lanes that both ends
offer carry the port. Of two retrainings asked for at once that of the lower node id goes first, and the other falls due again. -/
def State.gotControl (s : State) (port : Nat) (payload : Bytes) : State :=
  let p := s.port port
  let theirs := bits (beAt payload 3 1) 0 4
  let yield_ := p.agreeing && p.retrain.isSome && theirs &&& p.lanes != p.lanes && decide (p.neighbour < s.node)
  let p : Port := if yield_ then { p with retrain := none, retrainDue := p.retrain.toList ++ p.retrainDue } else p
  let mine := if p.retrain.isSome then p.lanes else p.aligned
  let w := if p.retrain.isSome then (p.width, p.lanes) else chooseLanes (mine &&& theirs)
  if !p.carries then s
  else if w.1 == 0 then s.portFall port
  else
    (s.setPort port (fun _ => { p with
      peerLanes := theirs
      width := w.1
      lanes := w.2
      agreeing := false
      ctlDue := !p.agreeing || yield_
      st := if p.retrain.isSome then .changing else .active })).watch 0

/-- A valid flit: its acknowledgement and credits are taken first. -/
def State.gotFlit (s : State) (port : Nat) (f : Flit) : State :=
  let s := (s.takeAckSeq port f.ackSeq).setPort port (fun p =>
    { p with credits := modifyAt (fun k => k + f.creditCount) f.creditBuf p.credits })
  if f.type == 3 then s.replayPort port
  else if f.type == 4 then s.gotControl port f.payload
  else if !f.sequenced then s
  else if f.seq == (s.port port).expectSeq then s.acceptFlit port f
  else s.oweNak port

/-! ## Bring-up (12 R312 to R315) -/

/-- The neighbour agrees with the torus (12 R314). -/
def Router.neighbourOk (r : Router) (p : Port) : Bool :=
  let a := p.id / 4
  let n := axisLen r.torusInForce a
  let step := if p.id / 2 % 2 == 0 then (coord r.nodeInForce a + 1) % n else (coord r.nodeInForce a + n - 1) % n
  n != 1 && inTorus r.torusInForce p.neighbour &&
    (List.range 3).all (fun b => coord p.neighbour b == (if b == a then step else coord r.nodeInForce b)) &&
    p.neighbourPort / 2 == (if p.id / 2 % 2 == 0 then p.id / 2 + 1 else p.id / 2 - 1)

/-- Both ends have a node id in force. -/
def Router.bothNamed (r : Router) (p : Port) : Bool := r.nodeInForce != 0xFFFF && p.neighbour != 0xFFFF

/-- Step 7 of R313: the check of R314, for a port whose neighbour has said Hello. -/
def State.checkPort (s : State) (port : Nat) : State :=
  let p := s.port port
  if p.st != .exchanging || !s.fabric.bothNamed p then s
  else if s.fabric.neighbourOk p then
    -- the flits resumed take places again, which the Hello stated as free
    let spend := fun (l : List Nat) (f : Flit) => modifyAt (fun k => k - 1) f.buf l
    let s := (s.setPort port (fun p => { p with
      st := .active, miswired := false, replays := 0, credits := p.replay.foldl spend p.credits })).bump 0x3210 9 1
    let s := (p.replay.foldl (fun s f => s.sendFlit port f) s).bump 0x3210 2 p.replay.length
    (s.rerouteHeld).watch 0
  else (s.setPort port (fun p => { p with miswired := true })).watch 0

/-- The check again at every port, when a node id in force has changed. -/
def State.recheckPorts (s : State) : State := (List.range 12).foldl (fun s i => s.checkPort i) s

/-! ## Lanes (12 R316, R317) -/

/-- Fence a lane, of itself (19 R517). -/
def State.fenceLane (s : State) (port lane : Nat) : State :=
  if s.laneFenced port lane then s else s.putFence (unitFabric port lane) 1 0 0

/-- Remove a lane: the port goes on with what remains; three removals in a fence window fence the lane. -/
def State.removeLane (s : State) (port lane : Nat) : State :=
  let k := 4 * port + lane
  let n := kvGet k 0 s.fabric.laneRemovals + 1
  let s : State := { s with fabric := { s.fabric with laneRemovals := kvSet k n s.fabric.laneRemovals } }
  let s := (s.setPort port (fun p => { p with
    removed := setBit p.removed lane true
    aligned := setBit p.aligned lane false })).bump 0x3210 6 1
  let s := s.post (unitFabric port lane) 1 0 s.anyDetail
  if 3 ≤ n then s.fenceLane port lane else s

/-- Change to the widest width that a set of lanes allows: a port that carries traffic tells the neighbour and stays in Changing until
its Control flit answers; no lane takes the port to Down. A retraining that this ends has failed. -/
def State.reWidth (s : State) (port mask : Nat) : State :=
  let w := chooseLanes mask
  if w.1 == 0 then s.portFall port
  else
    let s := if (s.port port).retrain.isSome then s.bump 0x3210 8 1 else s
    let s := s.setPort port (fun p => { p with
      width := w.1
      lanes := w.2
      retrain := none
      agreeing := p.carries
      ctlDue := p.ctlDue || p.carries
      st := if p.carries then .changing else p.st })
    let s := if (s.port port).carries then
        (let q := (s.port port).replay
         (q.foldl (fun s f => s.sendFlit port f) s).bump 0x3210 2 q.length)
      else s
    s.watch 0

/-- The other pair of a lane is whole. -/
def otherPair (lane : Nat) : Nat := if lane < 2 then 12 else 3

/-- A retraining of a lane can run on a port now (12 R317). -/
def State.laneCan (s : State) (port lane : Nat) : Bool :=
  let p := s.port port
  !s.laneFenced port lane && p.st == .active &&
    (p.width == 4 || (bit p.removed lane && p.width == 2 && p.lanes == otherPair lane))

def State.laneBusy (s : State) : Bool := s.fabric.ports.any (fun p => p.retrain.isSome)

/-- Start a retraining: the port runs on the other pair. -/
def State.startLane (s : State) (port lane : Nat) : State :=
  (s.setPort port (fun p => { p with
    st := .changing
    width := 2
    lanes := otherPair lane
    retrain := some lane
    agreeing := true
    ctlDue := true
    retrainDue := p.retrainDue.filter (fun l => l != lane) })).watch 0

/-- A retraining falls due: it starts, or waits. -/
def State.dueLane (s : State) (port lane : Nat) : State :=
  if s.laneCan port lane && !s.laneBusy then s.startLane port lane
  else s.setPort port (fun p => { p with retrainDue := insertNat lane p.retrainDue })

/-- The next retraining that waits and can run. -/
def State.nextLane (s : State) : State :=
  if s.laneBusy then s
  else
    match (s.fabric.ports.flatMap (fun p => p.retrainDue.map (fun l => (p.id, l)))).find? (fun x => s.laneCan x.1 x.2) with
    | some x => s.startLane x.1 x.2
    | none => s

/-! ## Router domain (12 R319, R323) -/

/-- The router after its reset, with a pair in force; disabled ports stay so. -/
def Router.fresh (node dims enable : Nat) : Router :=
  { Router.init with
    ports := (List.range 12).map (fun i => { Port.init i with st := if bit enable i then .down else .disabled })
    nodeInForce := node
    torusInForce := dims }

/-- A flit of this module's own that its router discards fails the request that it belongs to, as unreachable (03 R78, R82); a
history block then misses, with no reply (06 R173). -/
def State.lostFlit (s : State) (f : Flit) : State :=
  match s.req? f.req with
  | none => s
  | some q => if q.kind == .history then s.historyArrival q.ctx q.idx q.seq false false [] else s.failReq q 0x0701

/-- Flits are discarded and counted (12 R318, R321, R583); a transit flit leaves its receive buffer. -/
def State.discard (s : State) (l : List Flit) : State :=
  (l.foldl (fun s f => (s.freePlace f).lostFlit f) s).bump 0x3210 5 l.length

/-- The requests of flits that the router's reset discards are unreachable; the counters start anew. -/
def State.lostFlits (s : State) (l : List Flit) : State := l.foldl (fun s f => s.lostFlit f) s

/-- Flits that this module still holds unsent. -/
def Router.waiting (r : Router) : List Flit := r.held ++ r.ports.flatMap (fun p => p.sendQ)

/-- Reset the router domain: the committed pair comes into force, ports are Down, flits are gone, postmarks are 0, and its counters
start anew (12 R319, R323, R327, 13 R352, 19 R503). -/
def State.resetRouter (s : State) : State :=
  let fresh := Router.fresh (s.dget 0x2360 1) (s.dget 0x2360 2) (if s.fabricOn then s.dget 0x2362 4 else 0)
  let s := ({ s with
    fabric := { fresh with out := s.fabric.out }
    coll := { s.coll with
      calls := []
      cards := []
      ctrls := []
      marks := []
      ctrlState := 0
      ctrlCode := 0
      ctrlResult := List.replicate 64 0
      ctrlSource := 0xFFFF }
    faults := { s.faults with postmarks := [0, 0, 0, 0] } } : State).lostFlits s.fabric.waiting
  { s with tele := s.tele.filter (fun e => e.1 / 256 != 0x3210 && !(e.1 / 256 == 0x3230 && decide (5 ≤ e.1 % 256))) }.watch 0

/-! ## Meanings -/

/-- FLIT_TRANSMIT (12 R308, R309). -/
def execFlitTransmit (port : Nat) (s : State) : Out := .next (s.transmit port)

/-- FLIT_RECEIVE (12 R306, R307, R310, R318, R321, R322, R324). -/
def execFlitReceive (port : Nat) (fecOk : Bool) (bytes : Bytes) (s : State) : Out :=
  .next (
    if !(s.port port).carries && (s.port port).st != .exchanging then s
    else if !fecOk then (s.bump 0x3210 4 1).oweNak port
    else if flitBad bytes then (s.bump 0x3210 3 1).oweNak port
    else s.gotFlit port (Flit.parse bytes))

/-- NAK_RECEIVE (12 R310). -/
def execNakReceive (port ackSeq : Nat) (s : State) : Out :=
  .next (if (s.port port).carries then (s.takeAckSeq port (ackSeq % 2 ^ 16)).replayPort port else s)

/-- REPLAY_TIMEOUT (12 R310). -/
def execReplayTimeout (port : Nat) (s : State) : Out := .next (if (s.port port).carries then s.replayPort port else s)

/-- A bring-up of a port takes back lanes whose fences were cleared (19 R518). -/
def State.clearLanes (s : State) (port : Nat) : State :=
  (List.range 4).foldl (fun s i =>
    match s.fenceOf (unitFabric port i) with
    | some f => if f.state == 3 then s.dropFence f.unit else s
    | none => s) s

/-- SIGNAL_DETECT (12 R313 steps 1 and 2): fenced lanes are left out. -/
def execSignalDetect (port lanes : Nat) (s : State) : Out :=
  .next (
    let t := s.clearLanes port
    let good := t.goodLanes port lanes
    if (s.port port).st != .down || good == 0 || !s.fabricOn || !s.serdesUp then s
    else t.setPort port (fun p => { p with
      st := .training
      aligned := good
      removed := 0
      lanes := 0
      width := 0
      miswired := false
      neighbour := 0xFFFF
      neighbourPort := 0xFFFF }))

/-- PORT_ALIGNED (12 R313 steps 3 and 4): lanes that failed are removed. -/
def execPortAligned (port lanes : Nat) (s : State) : Out :=
  .next (
    let p := s.port port
    if p.st != .training && p.st != .aligning then s
    else
      let bad := (List.range 4).filter (fun i => bit p.aligned i && !bit lanes i)
      let s := bad.foldl (fun s i => s.removeLane port i) s
      let w := chooseLanes (s.port port).aligned
      (s.setPort port (fun p => { p with
        width := w.1
        lanes := w.2
        st := if w.1 == 0 then .down else .exchanging
        ctlDue := w.1 != 0 })).watch 0)

/-- BRING_UP_TIMEOUT (12 R315). -/
def execBringUpTimeout (port : Nat) (s : State) : Out :=
  .next (
    if (s.port port).st == .training || (s.port port).st == .aligning then
      (s.setPort port (fun p => { p with st := .down })).watch 0
    else s)

/-- A port that holds no flit from earlier goes on at the neighbour's expected Seq (12 R313 steps 5 and 7). -/
def State.meetSeq (s : State) (port n : Nat) : State :=
  s.setPort port (fun p => if p.replay == [] then { p with nextSeq := n } else p)

/-- HELLO_RECEIVE (12 R313 steps 5 to 7, R314): the width is agreed, and the neighbour checked. -/
def execHelloReceive (port : Nat) (h : Hello) (s : State) : Out :=
  .next (
    if (s.port port).st != .exchanging then s
    else
      let w := chooseLanes ((s.port port).aligned &&& h.lanes)
      if w.1 == 0 then s.portFall port
      else
        ((s.setPort port (fun p => { p with
          neighbour := h.node
          neighbourPort := h.port
          peerLanes := h.lanes % 16
          width := w.1
          lanes := w.2
          credits := (List.range 8).map (fun i => h.credits.getD i 0) })).takeAckSeq port
            ((h.expectSeq + 2 ^ 16 - 1) % 2 ^ 16)).meetSeq port h.expectSeq |>.checkPort port |>.nextLane)

/-- HELLO_TIMER (12 R315): a port held in Exchanging sends a Hello. -/
def execHelloTimer (port : Nat) (s : State) : Out :=
  .next (if (s.port port).st == .exchanging then s.setPort port (fun p => { p with ctlDue := true }) else s)

/-- HELLO_TIMEOUT (12 R315). -/
def execHelloTimeout (port : Nat) (s : State) : Out :=
  .next (
    if (s.port port).st == .exchanging then s.portFall port else s)

/-- Flits that have been held past PortDownLimit for a port that is not Active: those queued at it, and those that the router holds
for it. One whose entry names no port waits for none, and goes with any port's limit (DESIGN CHOICE: R321 gives it the limit, and no
port). -/
def State.overdue (s : State) (port : Nat) : List Flit :=
  let down := !(s.port port).carries
  (if down then (s.port port).sendQ else []) ++ s.fabric.held.filter (fun f => s.fabric.openPorts f.dest == [] &&
    ((down && bit (s.fabric.entry f.dest) port) || s.fabric.entry f.dest == 0))

/-- PORT_DOWN_LIMIT (12 R315, R318, R321): flits held for a port that is not Active are discarded and counted. -/
def execPortDownLimit (port : Nat) (s : State) : Out :=
  .next (
    let l := s.overdue port
    if l == [] then s
    else
      let t : State := { s with fabric := { s.fabric with held := s.fabric.held.filter (fun f => !l.contains f) } }
      (if (s.port port).carries then t else t.setPort port (fun p => { p with sendQ := [] })).discard l)

/-- A lane of a port is lost: it is removed, and the port takes the width that is left (12 R316). -/
def State.laneLost (s : State) (port lane : Nat) : State :=
  let p := s.port port
  if decide (4 ≤ lane) || !bit p.aligned lane || p.st == .down || p.st == .disabled then s
  else
    let s := s.removeLane port lane
    let left := (s.port port).aligned &&& (if p.carries then p.peerLanes else 15)
    if !p.carries && p.st != .exchanging then (if left == 0 then s.portFall port else s)
    else if p.retrain.isSome then s.reWidth port (left &&& p.lanes)
    else s.reWidth port left

/-- LANE_FAULT (12 R316, 19 R517). -/
def execLaneFault (port lane _cause : Nat) (s : State) : Out := .next (s.laneLost port lane)

/-- LANE_RETRAIN_DUE (12 R317). -/
def execLaneRetrainDue (port lane : Nat) (s : State) : Out :=
  .next (if decide (12 ≤ port) || decide (4 ≤ lane) then s else s.dueLane port lane)

/-- The write of LaneRetrainRequest (12 R317, R326). -/
def applyLaneRetrain (value : Nat) (s : State) : Applied :=
  if 48 ≤ value then (s, 0x01A2)
  else if s.laneCan (value / 4) (value % 4) then (s.dueLane (value / 4) (value % 4), 0)
  else (s, 0x01A2)

/-- LANE_RETRAIN_REQUEST (12 R317). -/
def execLaneRetrainRequest (value : Nat) (s : State) : Out :=
  .next (s.trigger 0x2362 3 false 0 255 value (applyLaneRetrain value))

/-- LANE_RETRAIN_DONE (12 R317 step 5): both lanes of the pair return, and the values are recorded (18 R467). -/
def execLaneRetrainDone (port : Nat) (s : State) : Out :=
  .next (match (s.port port).retrain with
    | none => s
    | some lane =>
      let s : State := { s with fabric := { s.fabric with laneFailures := kvDel (4 * port + lane) s.fabric.laneFailures } }
      let s := (s.setPort port (fun p => { p with
        st := .active
        width := 4
        lanes := 15
        aligned := 15
        removed := 0
        peerLanes := 15
        ctlDue := true
        agreeing := false
        retrain := none })).bump 0x3210 7 1
      let s := s.journal true ⟨4, 0x100 + 4 * port + lane, leBytes 4 (s.free 4)⟩
      (s.drew.watch 0).nextLane)

/-- LANE_RETRAIN_TIMEOUT (12 R317, 19 R513, R517). -/
def execLaneRetrainTimeout (port : Nat) (s : State) : Out :=
  .next (match (s.port port).retrain with
    | none => s
    | some lane =>
      let k := 4 * port + lane
      let n := kvGet k 0 s.fabric.laneFailures + 1
      let s : State := { s with fabric := { s.fabric with laneFailures := kvSet k n s.fabric.laneFailures } }
      let s := (s.setPort port (fun p => { p with st := .active, retrain := none, agreeing := false, ctlDue := true })).bump 0x3210 8 1
      let s := (s.removeLane port lane).raise 22 0
      let s := if 2 ≤ n then s.fenceLane port lane else s
      (s.watch 0).nextLane)

/-- The node pair's commit (12 R319). -/
def applyNode (s : State) : Applied :=
  let node := s.staging 0x2360 1
  let dims := s.staging 0x2360 2
  if bit dims 15 || (node != 0xFFFF && (bit node 15 || !inTorus dims node)) then (s, 0x01A0)
  else if s.keepRefused != 0 then (s, s.keepRefused)
  else
    let s := (s.keep 0x2360 1 2 node).keep 0x2360 2 2 dims
    if s.node == 0xFFFF then
      let s : State := { s with fabric := { s.fabric with nodeInForce := node, torusInForce := dims, routes := [], committed := none } }
      ((s.recheckPorts.watch 0).nextLane, 0)
    else ({ s with fabric := { s.fabric with committed := some (node, dims) } }, 0)

/-- NODE_COMMIT (12 R314, R319, R320). -/
def execNodeCommit (value : Nat) (s : State) : Out := .next (s.trigger 0x2360 3 true 1 1 value applyNode)

/-- The route pair's commit (12 R321). -/
def applyRoute (s : State) : Applied :=
  let node := s.staging 0x2361 1
  let mask := s.staging 0x2361 2
  let thin := (List.range 12).any (fun p => bit mask p && axisLen s.fabric.torusInForce (p / 4) == 1)
  if !inTorus s.fabric.torusInForce node || decide (4096 ≤ mask) || (node == s.node && mask != 0) || thin then (s, 0x01A1)
  else
    let s := (s.dset 0x2361 1 node).dset 0x2361 2 mask
    (({ s with fabric := { s.fabric with routes := kvSet node mask s.fabric.routes } } : State).rerouteHeld, 0)

/-- ROUTE_COMMIT (12 R321). -/
def execRouteCommit (value : Nat) (s : State) : Out := .next (s.trigger 0x2361 3 true 1 1 value applyRoute)

/-- The write of RouteDefaults (12 R320). -/
def applyRouteDefaults (s : State) : Applied :=
  (({ s with fabric := { s.fabric with routes := [] } } : State).rerouteHeld, 0)

/-- ROUTE_DEFAULTS (12 R320). -/
def execRouteDefaults (value : Nat) (s : State) : Out := .next (s.trigger 0x2361 4 false 1 1 value applyRouteDefaults)

/-- ROUTER_RESET (12 R319, R323). -/
def execRouterReset (value : Nat) (s : State) : Out :=
  .next (s.trigger 0x2360 7 false 1 1 value (fun s => (s.resetRouter, 0)))

/-- Ports take a PortEnable value: those without their bit, and all where the lifecycle disables them, are Disabled. -/
def State.setEnable (s : State) (value : Nat) : State :=
  let off := fun (p : Port) => !bit value p.id || !s.fabricOn
  let step := fun (p : Port) =>
    if off p then { p.fallen with st := .disabled }
    else if p.st == .disabled then { p with st := .down }
    else p
  let s := s.bump 0x3210 8 (s.fabric.ports.filter (fun p => off p && p.retrain.isSome)).length
  ({ s with fabric := { s.fabric with ports := s.fabric.ports.map step } } : State).watch 0

/-- Every port that is not Disabled goes to Down, and its flits are discarded (21 R568) and counted (12 R583): those not yet sent, and
those sent and not acknowledged, which may have arrived. -/
def State.portsDown (s : State) : State :=
  let down := fun (p : Port) =>
    if p.st == .disabled then p else { Port.init p.id with retrainDue := p.retrainDue, fecErrs := p.fecErrs }
  let up := s.fabric.ports.filter (fun p => p.st != .disabled)
  let s := s.bump 0x3210 8 (up.filter (fun p => p.retrain.isSome)).length
  let t := ({ s with fabric := { s.fabric with ports := s.fabric.ports.map down } } : State).discard (up.flatMap (fun p => p.sendQ))
  (t.bump 0x3210 5 (total (up.map (fun p => p.replay.length)))).watch 0

/-- The write of PortEnable (12 R325). -/
def applyPortEnable (value : Nat) (s : State) : Applied :=
  if bits value 12 4 != 0 then (s, 0x01A3)
  else if s.keepRefused != 0 then (s, s.keepRefused)
  else
    ((s.keep 0x2362 4 2 value).setEnable value, 0)

/-- PORT_ENABLE (12 R325, R326). -/
def execPortEnable (value : Nat) (s : State) : Out := .next (s.trigger 0x2362 4 false 0 0xFFFF value (applyPortEnable value))

end Sys2Proof.Machine
end

