-- ==== Sys2Proof/Machine/Collectives.lean ====
section
/-! DEFINITION. Collectives: the collective rows: COLL, POST, chunks, postcards, limits, and the control collectives of the
fabric manager (13 R328 to R352). -/

namespace Sys2Proof.Machine
open Sys2Proof

/-! ## Postcards (13 R344, R345, R348) -/

/-- A postcard from position `p` of an axis goes on past this member, and to whom. -/
def Group.onward (g : Group) (a p : Nat) : Option Nat :=
  let n := g.len a
  let me := g.pos a
  if g.full a then
    let d := (me + n - p % n) % n
    let back := n - d
    if d == 0 then none
    else if d ≤ n / 2 then (if d < n / 2 then some ((me + 1) % n) else none)
    else if back < ceilDiv n 2 - 1 then some ((me + n - 1) % n)
    else none
  else if p < me then (if me + 1 < n then some (me + 1) else none)
  else if me < p && me != 0 then some (me - 1)
  else none

/-- Relay a postcard along its tree. -/
def State.relayCard (s : State) (k : Card) (post : Nat) : State :=
  let g := s.group (k.sig % 2 ^ 64)
  match g.onward k.axis k.pos with
  | none => s
  | some p => (s.sendCard g k post p).bump 0x3230 5 1

/-- The POST of a group that is in flight at a place in its order. -/
def State.postOf (s : State) (group order : Nat) : Option Coll :=
  s.coll.flight.find? (fun x => x.post && x.group == group && x.order == order)

/-- A postcard is taken: dropped where its postmark is old or its collective is over, else kept for its POST. -/
def State.takeCard (s : State) (k : Card) (post : Nat) : State :=
  let src := (s.group (k.sig % 2 ^ 64)).nodeAt k.axis k.pos
  let now := s.postOf k.group k.order
  let mark := s.peerMark ((now.map (fun x => x.marks)).getD []) src k.part post
  if mark == 1 then s.bump 0x3230 6 1
  else if mark == 2 then
    match now with
    | some x => s.failColl x.ctx x.idx 0x07B2
    | none => s
  else
    let s := s.knowMark src k.part post
    if now.isNone && decide (k.order ≤ kvGet k.group 0 s.coll.orders) then s
    else
      let s : State := { s with coll := { s.coll with cards := s.coll.cards ++ [k] } }
      match now with
      | none => s
      | some x =>
        (s.setColl x.ctx x.idx (fun x => { x with marks := kvSet (peerKey src k.part) post x.marks })).runPost x.ctx x.idx 4

/-! ## Control collectives (13 R346, R347) -/

/-- The context number under which the limit of a control collective is given: no context has it. -/
def ctrlCtx : Nat := 0x100000

/-- The control collective that this node started is running with a kind. -/
def State.ctrlRuns (s : State) (kind : Nat) : Bool := s.coll.ctrlState == 1 && s.dget 0x2371 3 == kind

/-- This node started a control collective, and it is done. -/
def State.ctrlDone (s : State) : State := { s with coll := { s.coll with ctrlState := 2 } }

/-- Allocatable free bytes of a partition. -/
def State.freeOfPart (s : State) (p : Nat) : Nat :=
  if s.mem.interleave == 0 then s.freeBytesPool
  else
    let r := s.pool p
    let inside := fun (a : Nat) => decide (r.1 ≤ a) && decide (a < r.2)
    r.2 - r.1 - total ((s.mem.localObjs.filter (fun o => inside o.base)).map (fun o => o.size)) -
      total ((s.mem.unzeroed.filter (fun u => inside u.1)).map (fun u => u.2))

/-- The lesser of a list of numbers, 2^64 − 1 where it is empty. -/
def leastOf (l : List Nat) : Nat := l.foldl min (2 ^ 64 - 1)

/-- Units that are fenced now. -/
def State.fencedUnits (s : State) : Nat := (s.faults.fences.filter (fun f => f.state != 2)).length

/-- The firmware version in force: the Version of the running image's header (18 R483). -/
def State.firmwareVersion (s : State) : Nat := leAt s.store.running 8 8

/-- This node's status record, by lanes. -/
def State.statusLanes (s : State) : List Nat :=
  if s.board.phase == .serving then
    [1, 0, s.faultSummary, s.office.ctxs.length, s.board.dieTemp.toNat, s.fencedUnits,
      leastOf ((List.range s.nParts).map s.freeOfPart), s.firmwareVersion]
  else [1, 1, 0, 0, 0, 0, 2 ^ 64 - 1, 2 ^ 64 - 1]

/-- The lane operations of a Snapshot. -/
def snapshotOp (i : Nat) : Nat := [1, 1, 4, 1, 2, 1, 3, 3].getD i 1

/-- What the postcards of a control collective agree on (DESIGN CHOICE: a postcard's layout is not given): the box of the whole torus with
the GroupId of a GroupReset and the initiator for its root, and the kind above a Kind that no POST has. -/
def State.ctrlSig (s : State) (init kind group : Nat) : Nat :=
  let dims := s.fabric.torusInForce
  let l := fun a => axisLen dims a
  let root := coord init 0 + l 0 * (coord init 1 + l 1 * coord init 2)
  (if kind == 3 then group % 2 ^ 16 else 0) + total ((List.range 3).map (fun a => (l a - 1) % 32 * 2 ^ (31 + 5 * a))) + root * 2 ^ 46 + 2 ^ 64 * (3 + 4 * kind)

/-- A postcard belongs to a control collective. -/
def isCtrl (sig : Nat) : Bool := sig / 2 ^ 64 % 4 == 3
def ctrlKind (sig : Nat) : Nat := sig / 2 ^ 66

/-- What this node contributes: the initiator's payload, its status record, or nothing (13 R346, R347). -/
def State.ctrlOwn (s : State) (sig : Nat) : Bytes :=
  let g := s.group (sig % 2 ^ 64)
  if ctrlKind sig == 1 then (if g.rank == g.root then leBytes 64 (s.dget 0x2371 1) else [])
  else if ctrlKind sig == 2 then s.statusLanes.flatMap (fun v => leBytes 8 v)
  else []

/-- Send this node's own postcard of a control collective along an axis. -/
def State.ctrlCards (s : State) (x : Ctrl) (a : Nat) : State :=
  let g := s.group (x.sig % 2 ^ 64)
  (g.firstHops a).foldl (fun s q => s.sendCard g ⟨g.id, ctrlKind x.sig, a, g.pos a, 0, x.sig, x.value⟩ 0 q) s

def State.ctrl? (s : State) (sig : Nat) : Option Ctrl := s.coll.ctrls.find? (fun x => x.sig == sig)

/-- This node takes part in a control collective, where its postcard unit has room (13 R345, R346). -/
def State.joinCtrl (s : State) (sig : Nat) : State :=
  if (s.ctrl? sig).isSome || decide (64 ≤ s.cardsHeld) then s
  else
    let x : Ctrl := ⟨sig, 0, s.ctrlOwn sig⟩
    let s : State := { s with coll := { s.coll with ctrls := s.coll.ctrls ++ [x] } }
    match (s.group (sig % 2 ^ 64)).axes[0]? with
    | some a => s.ctrlCards x a
    | none => s

/-- A value after an axis of a control collective. -/
def Ctrl.join (x : Ctrl) (g : Group) (a : Nat) (cards : List Card) : Bytes :=
  if ctrlKind x.sig == 2 then cards.foldl (fun v k => joinCards snapshotOp v (fit 64 k.payload)) x.value
  else
    match cards.find? (fun k => k.pos == g.posOf g.root a) with
    | some k => k.payload
    | none => x.value

/-- Go on with a control collective while the postcards of its axis are at hand, by fuel. -/
def State.runCtrl (s : State) (sig : Nat) : Nat → State
  | 0 => s
  | fuel + 1 =>
    match s.ctrl? sig with
    | none => s
    | some x =>
      let g := s.group (sig % 2 ^ 64)
      match g.axes[x.stage]? with
      | none => s
      | some a =>
        let mine := s.coll.cards.filter (fun k => k.sig == sig && k.axis == a)
        if g.allCards a mine then
          let y : Ctrl := { x with stage := x.stage + 1, value := x.join g a mine }
          let s : State := { s with coll := { s.coll with
            cards := s.coll.cards.filter (fun k => k.sig != sig || k.axis != a)
            ctrls := modifyWhere (fun z => z.sig == sig) (fun _ => y) s.coll.ctrls } }
          (match g.axes[y.stage]? with
           | some b => s.ctrlCards y b
           | none => s).runCtrl sig fuel
        else s

/-- A postcard of a control collective: this node joins it, relays the card, and combines it. A unit without room leaves it. -/
def State.takeCtrl (s : State) (k : Card) (post : Nat) : State :=
  let s := s.joinCtrl k.sig
  if (s.ctrl? k.sig).isNone then s
  else
    let s := s.relayCard k post
    ({ s with coll := { s.coll with cards := s.coll.cards ++ [k] } } : State).runCtrl k.sig 4

/-- A control collective is over at this node: it leaves the postcard unit. -/
def State.ctrlOver (s : State) (sig : Nat) : State :=
  { s with coll := { s.coll with
      ctrls := s.coll.ctrls.filter (fun x => x.sig != sig)
      cards := s.coll.cards.filter (fun k => k.sig != sig) } }

/-- A Snapshot's result: what this node holds, its own record and those that came by postcards here, joined with the others'. -/
def State.snapshotOf (s : State) (sig : Nat) (others : Bytes) : Bytes :=
  joinCards snapshotOp ((s.ctrl? sig).elim (s.ctrlOwn sig) (fun x => x.value)) (fit 64 others)

/-- The write of CtrlStart (13 R346, R349). -/
def applyCtrlStart (kind : Nat) (s : State) : Applied :=
  if kind == 0 || decide (3 < kind) then (s, 0x01B5)
  else if s.coll.ctrlState == 1 then (s, 0x02B1)
  else
    let s := s.dset 0x2371 3 kind
    (({ s with coll := { s.coll with ctrlState := 1, ctrlCode := 0 } } : State).joinCtrl (s.ctrlSig s.node kind (s.dget 0x2371 2)), 0)

/-! ## Meanings -/

/-- COLL (13 R328 to R341). -/
def execColl (c idx : Nat) (s : State) : Out := .next (s.startMacro mColl c idx)

/-- POST (13 R342 to R345). -/
def execPost (c idx : Nat) (s : State) : Out := .next (s.startMacro mPost c idx)

/-- CHUNK_RECEIVE (13 R330, R335 to R341, R348, R352): a packet of a bulk collective from a neighbour. `residue`: the adder that takes
the chunk finds a residue wrong. -/
def execChunkReceive (group ord src : Nat) (sender : Sender) (sig : Nat) (head : PacketHead) (residue : Bool) (data : Bytes)
    (s : State) : Out :=
  .next (s.bulk ⟨group, ord, src, sender.part, sender.postmark, head.kind, sig, head.stage, head.neg, head.number, head.last, data⟩ residue)

/-- COLL_TIMEOUT (13 R346, R348, R350): a collective makes no progress; the control collective of this node fails with 0x04B0. -/
def execCollTimeout (c idx : Nat) (s : State) : Out :=
  .next (
    if c == ctrlCtx then
      (if s.coll.ctrlState == 1 then
         ({ s with coll := { s.coll with ctrlState := 3, ctrlCode := 0x04B0 } } : State).ctrlOver
           (s.ctrlSig s.node (s.dget 0x2371 3) (s.dget 0x2371 2))
       else s)
    else
      match s.coll? c idx with
      | some _ => s.failColl c idx 0x04B0
      | none => s)

/-- POSTCARD_RECEIVE (13 R344, R345, R346, R348, R352): the unit of the router relays in a chip reset too. -/
def execPostcardReceive (group ord axis pos : Nat) (sender : Sender) (sig : Nat) (payload : Bytes) (s : State) : Out :=
  .next (
    let k : Card := ⟨group, ord, axis, pos, sender.part, sig, payload⟩
    let postmark := sender.postmark
    let g := s.group (sig % 2 ^ 64)
    if s.node == 0xFFFF || g.bad || decide (3 ≤ axis) || decide (g.len axis ≤ pos) || g.pos axis == pos || g.id != group then s
    else if isCtrl sig then s.takeCtrl k postmark
    else
      let s := s.relayCard k postmark
      if s.board.phase == .serving then s.takeCard k postmark else s)

/-- CTRL_BROADCAST (13 R346, R348, R352): a broadcast completes at this node, from `initiator`. -/
def execCtrlBroadcast (initiator : Nat) (payload : Bytes) (s : State) : Out :=
  .next (
    let put := fun (s : State) (p : Bytes) =>
      ({ s with coll := { s.coll with ctrlResult := fit 64 p, ctrlSource := initiator % 2 ^ 16 } } : State).bump 0x3230 7 1
    let t := s.ctrlOver (s.ctrlSig initiator 1 0)
    if s.node == 0xFFFF then s
    else if s.board.phase != .serving then t.bump 0x3230 8 1
    else if initiator == s.node then
      (if s.ctrlRuns 1 then (put t (leBytes 64 (s.dget 0x2371 1))).ctrlDone else s)
    else put t payload)

/-- CTRL_SNAPSHOT (13 R346 to R348): a Snapshot completes at this node, in a chip reset too; `others` joins the records of the nodes
whose postcards did not come as commands of their own. -/
def execCtrlSnapshot (initiator : Nat) (others : Bytes) (s : State) : Out :=
  .next (
    let sig := s.ctrlSig initiator 2 0
    if s.node == 0xFFFF || (initiator == s.node && !s.ctrlRuns 2) then s
    else
      let t := (({ s with coll := { s.coll with ctrlResult := s.snapshotOf sig others } } : State).ctrlOver sig).bump 0x3230 7 1
      if initiator == s.node then t.ctrlDone else t)

/-- Every collective of a group ends here, and its next one matches from order 1. -/
def State.groupReset (s : State) (group : Nat) : State :=
  let s := (s.coll.flight.filter (fun x => x.group == group)).foldl (fun s x => s.failColl x.ctx x.idx 0x07B0) s
  { s with coll := { s.coll with
      orders := kvDel group s.coll.orders
      calls := s.coll.calls.filter (fun k => k.group != group)
      cards := s.coll.cards.filter (fun k => k.group != group || isCtrl k.sig) } }

/-- CTRL_GROUP_RESET (13 R346, R348): a GroupReset completes at this node; the initiator's names its own CtrlGroup. -/
def execCtrlGroupReset (initiator group : Nat) (s : State) : Out :=
  .next (
    let own := initiator == s.node
    let id := if own then s.dget 0x2371 2 else group
    if s.node == 0xFFFF || (own && !s.ctrlRuns 3) then s
    else
      let t := ((s.ctrlOver (s.ctrlSig initiator 3 id)).groupReset id).bump 0x3230 7 1
      if own then t.ctrlDone else t)

end Sys2Proof.Machine
end

