-- ==== Sys2Proof/Machine/Keeping.lean ====
section
/-! DEFINITION. Keeping: what the Restante store does beside its commits: images, cullets, last-post sets, scrub and the rows of
its timers (18 R464 to R488, 19 R509 to R512, 20 R529 to R531). -/

namespace Sys2Proof.Machine
open Sys2Proof

/-! ## The firmware image (18 R483, 20 R529 to R531) -/

def imgVersion (b : Bytes) : Nat := leAt b 8 8
def imgLength (b : Bytes) : Nat := leAt b 16 4
def imgState (b : Bytes) : Nat := leAt b 20 4
def imgLiveFrom (b : Bytes) : Nat := leAt b 24 4
def imgSlot (b : Bytes) : Nat := leAt b 28 1
def imgTargets (b : Bytes) : Nat := leAt b 29 1
def imgSecVer (b : Bytes) : Nat := leAt b 32 4
def imgSerial (b : Bytes) : Nat := leAt b 36 4

/-- The header meets R483. -/
def imgHeaderOk (b : Bytes) : Bool :=
  leAt b 0 4 == 0x4F505734 && leAt b 4 4 == 1 && decide (4096 ≤ imgLength b) && decide (imgLength b ≤ 33554432) &&
    imgLength b == b.length

/-- The header's signing fields and the trailer's zero bytes meet R529 and R530. -/
def imgSigningOk (b : Bytes) : Bool :=
  let t := b.drop (b.length - 512)
  decide (imgSlot b ≤ 3) && bits (imgTargets b) 5 3 == 0 && leAt b 30 2 == 0 && decide (imgSecVer b ≤ 64) &&
    leAt b 40 88 == 0 && leAt t 133 3 == 0 && leAt t 268 244 == 0

/-- A vendor key slot can sign: not revoked, and its hash is not all zeros (20 R527, R531). -/
def Fuses.slotLive (f : Fuses) (i : Nat) : Bool := !bit f.revoked i && f.keyHash.getD i 0 != 0

/-- A public key is the one whose hash a slot holds. -/
def Fuses.slotKey (f : Fuses) (i : Nat) (pub : Bytes) : Bool := leNat (sha512 pub) == f.keyHash.getD i 0

/-- The checks of R531: 0, or the first code. -/
def Fuses.checkImage (f : Fuses) (b : Bytes) : Nat :=
  let t := b.drop (b.length - 512)
  let i := imgSlot b
  firstCode [rule (!imgHeaderOk b || !imgSigningOk b) 0x01F4, rule (!f.slotLive i) 0x05FC,
    rule (!f.slotKey i (sub t 0 133)) 0x05FC,
    rule (!ecdsaVerify (sub t 0 133) (b.take (b.length - 512)) (beAt t 136 66) (beAt t 202 66)) 0x05FC,
    rule (decide (imgSecVer b < f.secVer)) 0x05FD, rule (!bit (imgTargets b) f.lifecycle) 0x05FD,
    rule (imgSerial b != 0 && imgSerial b != f.serial) 0x05FD]

/-- The lines of an ExtentMap record (18 R467). -/
def extentMap (id kind bytes : Nat) (blocks : List Nat) : Rec :=
  ⟨7, id, leBytes 1 kind ++ leBytes 3 0 ++ leBytes 4 bytes ++ leBytes 2 blocks.length ++ leBytes 6 0 ++
    blocks.flatMap (leBytes 2)⟩

/-- Blocks become grown bad blocks, each with its record (18 R478). -/
def State.growBad (s : State) (ids : List Nat) : State :=
  let s : State := { s with store := { s.store.dropPages ids with
    blocks := modifyWhere (fun b => ids.contains b.id) (fun b => { b with area := 8 }) s.store.blocks } }
  (ids.foldl (fun s b => s.journal true ⟨9, b, []⟩) s).watch 0

/-- Steps 4 to 6 of R484, with `tries` read-backs that fail: 0, or 0x03F4 after two. The image extent keeps id 0. -/
def State.placeImage (s : State) (b : Bytes) : Nat → Nat → State × Nat
  | 0, _ => (s, 0x03F4)
  | f + 1, tries =>
    let r := s.store.putExtent 4 0 (pageCuts b)
    let s : State := { s with store := r.2 }
    if tries != 0 then (s.growBad r.1).placeImage b f (tries - 1)
    else
      let old := (s.store.image.elim [] (fun i => i.blocks))
      let s := ((s.journal true (extentMap 0 4 b.length r.1)).forceCommit)
      let s : State := { s with store := { s.store with image := some ⟨b, r.1⟩, imageBad := false }.writeAnchor }
      let s : State := { s with store := s.store.giveBack old }
      (s.watch 0, 0)

/-! ## Cullets and last-post sets (18 R481, 19 R509 to R512) -/

/-- An object is not stored: its window's limit is reached, or the store is Low or Read-only (18 R481, R482). -/
def State.notStored (s : State) : State := (s.bump 0x5111 8 1).raise 12 0

/-- Drop the oldest extents beyond `n`, with their records. -/
def State.freeExtents (s : State) (l : List Extent) : State :=
  l.foldl (fun s x => ({ s with store := s.store.giveBack x.blocks } : State).journal true ⟨8, x.id, []⟩) s

/-- Store a cullet (18 R464, R481, 19 R509): the newest 16 are kept. -/
def State.storeCullet (s : State) (b : Bytes) : State :=
  if s.store.condition != 0 || decide (16 ≤ s.store.windowCounts.1) then s.notStored
  else
    let id := s.store.nextExtent
    let r := s.store.putExtent 5 id (pageCuts b)
    let all := r.2.cullets ++ [⟨id, 5, b, [], r.1⟩]
    let s : State := { s with store := { r.2 with
      cullets := newestOf 16 all
      nextExtent := id + 1
      windowCounts := (r.2.windowCounts.1 + 1, r.2.windowCounts.2) } }
    (((s.freeExtents (all.take (all.length - 16))).journal true (extentMap id 5 b.length r.1)).commitWith []).raise 11 0

/-- An event of a ring (19 R511). -/
def PostEvent.bytes (e : PostEvent) : Bytes :=
  leBytes 8 e.cycle ++ leBytes 8 e.tod ++ leBytes 2 e.unit ++ leBytes 2 e.event ++ leBytes 2 e.status ++
    leBytes 2 e.postmark ++ leBytes 8 e.detail

/-- A region's part of a set: a header of 64 bytes and its newest `n` events, oldest first (19 R512). -/
def State.ringPart (s : State) (region n : Nat) : Bytes :=
  let l := newestOf n (s.faults.rings.getD region [])
  leBytes 1 region ++ leBytes 4 l.length ++ leBytes 2 (s.postmark (s.partOfRegion region)) ++ leBytes 8 s.cycle ++
    List.replicate 49 0 ++ l.flatMap PostEvent.bytes

/-- The store's blocks for a set: its pages lie in eight blocks, so that eight program at a time (18 R464, R472). -/
def Store.takeEight (t : Store) (extent : Nat) (pages : List Bytes) : List Nat × Store :=
  let r := t.takeBlocks 6 8
  (r.1, r.2.programExtent 6 extent (fun i => r.1[i % 8]?) pages)

/-- The pages of a region's part of a set with at most `n` events: 32·`n` bytes of it. -/
def partPages (n : Nat) (part : Bytes) : List Bytes :=
  (List.range (n / 512)).map (fun i => sub part (16384 * i) 16384)

/-- Save a last-post set of some regions, with the newest `n` events of each; two sets are kept (18 R472, 19 R512). -/
def State.storePosts (s : State) (regions : List Nat) (n : Nat) : State :=
  if s.store.condition != 0 || decide (16 ≤ s.store.windowCounts.2.1) then s.notStored
  else
    let parts := (List.range 4).map (fun r => if regions.contains r then s.ringPart r n else [])
    let id := s.store.nextExtent
    let r := s.store.takeEight id ((parts.filter (fun p => p != [])).flatMap (partPages n))
    let all := r.2.lastPosts ++ [⟨id, 6, [], parts, r.1⟩]
    let s : State := { s.drew with store := { r.2 with
      lastPosts := newestOf 2 all
      nextExtent := id + 1
      windowCounts := (r.2.windowCounts.1, r.2.windowCounts.2.1 + 1, r.2.windowCounts.2.2) } }
    ((s.freeExtents (all.take (all.length - 2))).journal true (extentMap id 6 (32 * n * regions.length) r.1)).commitWith []

/-! ## What the store brings back at a start (18 R476, R477) -/

/-- A fence record read back (19 R519). -/
def fenceOfBytes (b : Bytes) : Fence := ⟨leAt b 0 2, leAt b 2 1, leAt b 3 1, leAt b 4 2, leAt b 8 8, leAt b 16 8⟩

/-- An error log entry read back (19 R506). -/
def logOfBytes (b : Bytes) : LogEntry :=
  ⟨leAt b 0 4, leAt b 6 2, leAt b 8 8, leAt b 16 8, leAt b 24 2, leAt b 26 1, leAt b 27 1, leAt b 28 2, leAt b 32 32⟩

/-- An identity key read back (20 R540). -/
def identityOfBytes (b : Bytes) : Identity := ⟨leAt b 0 2, sub b 4 12, sub b 16 66, sub b 82 16, sub b 98 133⟩

def Store.recs (t : Store) (type : Nat) : List Rec := t.durable.filter (fun r => r.type == type)

/-- The state that the newest commits hold: changes that no commit holds are lost (18 R448, R474, R476). -/
def State.reload (s : State) : State :=
  let t : Store := { s.store with pending := [] }
  let dicts := (t.recs 1).filter (fun r => decide (r.key < 2 ^ 24) && r.key / 256 != 0x4003)
  let counts := (t.recs 1).filter (fun r => r.key / 256 == 0x4003)
  let quotas := (t.recs 1).filter (fun r => decide (2 ^ 24 ≤ r.key) && leNat r.data != 0xFFFFFFFF)
  let log := newestOf 16384 ((t.recs 6).map (fun r => logOfBytes r.data))
  let trained := (t.recs 4).filter (fun r => decide (r.key < 24))
  { s with
    dict := dicts.foldl (fun m r => kvSet r.key (leNat r.data) m) []
    staged := []
    tele := counts.foldl (fun m r => kvSet r.key (leNat r.data) m) (s.tele.filter (fun e => e.1 / 256 != 0x4003))
    mem := { s.mem with
      chans := s.mem.chans.map (fun c =>
        match trained.find? (fun r => r.key == c.id) with
        | some r => { c with training := leNat r.data }
        | none => c) }
    office := { s.office with
      lifetime := (t.recs 2).foldl (fun m r => kvSet r.key (leNat r.data) m) []
      quotas := quotas.foldl (fun m r => kvSet (r.key / 2 ^ 24 - 1) (leNat r.data) m) [] }
    store := t
    faults := { s.faults with
      fences := ((t.recs 3).map (fun r => fenceOfBytes r.data)).filter (fun f => f.state != 0)
      log := log
      logNext := (match log.getLast? with
        | some e => (e.number + 1) % 2 ^ 32
        | none => 0) }
    sec := { s.sec with
      identity := ((t.recs 5).find? (fun r => r.key == 0)).map (fun r => identityOfBytes r.data)
      rotations := (t.recs 0xD).map (fun r => (r.key, r.data)) } }

/-! ## Meanings -/

/-- The store works: the firmware serves it. -/
def State.storeUp (s : State) : Bool := s.board.phase == .serving

/-- COMMIT_TIMER (18 R468, R469, R471, R478). -/
def execCommitTimer (s : State) : Out := .next (if s.storeUp then s.commit else s)

/-- ALLOWANCE_TICK (18 R470): 64 KiB, up to 64 MiB. -/
def execAllowanceTick (s : State) : Out :=
  .next (if s.storeUp then { s with store := { s.store with allowance := min 67108864 (s.store.allowance + 65536) } } else s)

/-- WINDOW_ROLL (18 R481). -/
def execWindowRoll (s : State) : Out :=
  .next (if s.storeUp then { s with store := { s.store with windowCounts := (0, 0, 0) } } else s)

/-- An uncorrectable page of a block (18 R479). -/
def State.pageLost (s : State) (b : NBlock) : State :=
  if b.area == 4 then
    match s.store.image with
    | some i =>
      if s.store.gddrImage then (s.placeImage i.bytes 1 0).1
      else
        (({ s with store := { s.store with imageBad := true } } : State).log (unitChip 1) 0x0302 5 0xFF b.id).watch 0x0302
    | none => s
  else if b.area == 2 then
    if s.store.journalBytes == 0 || s.store.condition == 2 then s
    else ({ s with store := s.store.snapshot } : State).bump 0x5111 1 1
  else if b.area == 5 || b.area == 6 then
    let hit := fun (x : Extent) => x.blocks.contains b.id
    let gone := (s.store.cullets ++ s.store.lastPosts).filter hit
    let s : State := { s with store := { s.store with
      cullets := s.store.cullets.filter (fun x => !hit x)
      lastPosts := s.store.lastPosts.filter (fun x => !hit x) } }
    (s.freeExtents gone).log (unitChip 1) 0x0302 3 0xFF b.id
  else s

/-- NAND_SCRUB (18 R479): what the read of a block's page finds: 0 nothing, 1 one corrected codeword, 2 two or more, 3 readable
only by read retry, else uncorrectable. -/
def execNandScrub (block finding : Nat) (s : State) : Out :=
  .next (
    match s.store.blocks.find? (fun b => b.id == block && decide (1 ≤ b.area) && decide (b.area ≤ 6)) with
    | none => s
    | some b =>
      if !s.storeUp || finding == 0 then s
      else if finding == 1 then s.bump 0x5111 5 1
      else if finding == 2 || finding == 3 then
        let s := s.bump 0x5111 (if finding == 2 then 5 else 6) 1
        if b.area == 1 || s.store.condition == 2 || s.store.pick.isNone then s
        else ({ s with store := s.store.relocate block } : State).bump 0x5111 7 1
      else s.pageLost b)

/-- The write of StoreAll (17 R449, 18 R470, R482). -/
def applyStoreAll (value : Nat) (s : State) : Applied :=
  if value != 0x65766173 then (s, 0x01F3)
  else if s.keepRefused != 0 then (s, s.keepRefused)
  else (s.forceCommit, 0)

/-- The write of RestoreDefaults (17 R449). -/
def applyRestore (value : Nat) (s : State) : Applied :=
  if value != 0x64616F6C then (s, 0x01F3) else ({ s with store := { s.store with restorePending := true } }, 0)

/-- STORE_ALL (17 R449, 18 R469, R470). -/
def execStoreAll (value : Nat) (s : State) : Out :=
  .next (s.trigger 0x1010 1 false 0 0xFFFFFFFF value (applyStoreAll value))

/-- RESTORE_DEFAULTS (17 R449). -/
def execRestoreDefaults (value : Nat) (s : State) : Out :=
  .next (s.trigger 0x1011 1 false 0 0xFFFFFFFF value (applyRestore value))

end Sys2Proof.Machine
end

