-- ==== Sys2Proof/Machine/Recovery.lean ====
section
/-! DEFINITION. Recovery: the escalation ladder, fences, cullets and the start of the firmware (19 R492 to R523, 04 R110, 10 R249,
11 R296, R298, 18 R475 to R477, 20 R549). -/

namespace Sys2Proof.Machine
open Sys2Proof

/-! ## Redealing the tasks of a cell (04 R110) -/

/-- The cells that take a column's tasks from `cell`: those of its grid column, else those of its partition, else itself. -/
def State.heirs (s : State) (cell c idx col : Nat) : List Nat :=
  let act := (s.activeCells (s.partOfCell cell)).filter (fun x => x != cell)
  let near := act.filter (fun x => s.cs.grids.contains (c, idx, col, x))
  if near != [] then near else if act != [] then act else [cell]

/-- Move one grid column's tasks of an instruction away from `cell`, round-robin in ascending logical index. They are dealt once
more (R118), and a pane that had begun draws its stochastic bits anew (02 R46). -/
def State.redealColumn (s : State) (cell fault : Nat) (g : Nat × Nat × Nat) (ts : List Task) : State :=
  let heirs := s.heirs cell g.1 g.2.1 g.2.2
  let n := s.office.taskOrder
  let moved := List.zipWith (fun i (t : Task) => { t with
    cell := heirs.getD (i % heirs.length) cell
    order := n + i
    redealt := if fault != 0 && t.phase == .running then fault else t.redealt
    phase := .unposted
    done := none }) (List.range ts.length) ts
  let rest := s.office.tasks.filter (fun t => !ts.contains t)
  let again := (s.flight? g.1 g.2.1).elim 0 (fun f => total ((ts.filter (fun t => t.phase == .running)).map (fun t => kvGet t.pane 0 f.draws)))
  let s : State := { s with office := { s.office with tasks := rest ++ moved, taskOrder := n + ts.length } }
  ((((s.bump 0x3160 1 ts.length).bump 0x3160 2 ts.length).bump 0x31B0 3 again).setFlight g.1 g.2.1 (fun f => { f with
    status := if isSuccess f.status then topNote [f.status, 0x0020] else f.status })).failDry

/-- A fenced cell leaves the chains that it is a member of (04 R113). -/
def State.leaveChains (s : State) (cell : Nat) : State :=
  (s.cs.flight.filter (fun f => f.phase == .running && s.chained f && (s.chainOf f.ctx f.idx cell).contains cell &&
      !s.cs.chainLeft.contains (f.ctx, f.idx, cell))).foldl (fun s f =>
    ({ s with cs := { s.cs with chainLeft := s.cs.chainLeft ++ [(f.ctx, f.idx, cell)] } } : State).bump 0x3160 4 1) s

/-- Redeal every task of a cell that is not in a save area. -/
def State.redealCell (s : State) (cell fault : Nat) : State :=
  let mine := sortBy (fun (x y : Task) => decide (x.pane < y.pane) || (x.pane == y.pane && decide (x.slice < y.slice)))
    (s.office.tasks.filter (fun t => t.cell == cell && (t.phase == .unposted || t.phase == .posted || t.phase == .running)))
  ((mine.map (fun t => (t.ctx, t.idx, t.col))).eraseDups).foldl (fun s g =>
    s.redealColumn cell fault g (mine.filter (fun t => t.ctx == g.1 && t.idx == g.2.1 && t.col == g.2.2))) s

/-- An instruction whose redealt task meets the same fault again fails with 0x0402 (19 R499). -/
def State.metAgain (s : State) (cell fault : Nat) : State :=
  let ts := s.office.tasks.filter (fun t => t.cell == cell && t.phase == .running && t.redealt == fault)
  ts.foldl (fun s t =>
    let s := s.failInstr t.ctx t.idx 0x0402
    { s with office := { s.office with tasks := s.office.tasks.filter (fun u => u.ctx != t.ctx || u.idx != t.idx) } }) s

/-- A cell's scratchpad is cleared and its generator reseeded (19 R499). -/
def State.clearCell (s : State) (cell : Nat) : State :=
  (s.clearRun (0x8000000000 + 0x200000 * cell) 0x200000).reseedCell cell

/-! ## Fences (19 R517, R518) -/

/-- Automatic fences left a partition without cells, or a region of it without channels (19 R518). -/
def State.barren (s : State) (p : Nat) : Bool :=
  (s.activeCells p == [] && s.faults.fences.any (fun f => f.unit / 4096 == 1 && s.partOfCell (f.unit % 4096) == p &&
      f.origin != 1)) || (s.regionsOf p).any (fun r => !s.mem.chans.any (fun c => c.active && c.id / 6 == r))

/-- A partition that has lost its last cell to automatic fences is no longer started. -/
def State.checkBarren (s : State) (p : Nat) : State :=
  if s.barren p then { s with office := { s.office with notStarted := insertNat p s.office.notStarted } } else s

def State.setIntakePipe (s : State) (i : Nat) (f : Pipe → Pipe) : State :=
  { s with intake := { s.intake with pipes := modifyAt f i s.intake.pipes } }

def State.setCodecPipe (s : State) (i : Nat) (f : Pipe → Pipe) : State :=
  { s with codec := { s.codec with pipes := modifyAt f i s.codec.pipes } }

/-- Fence a unit that is not fenced, at once or, for a channel, by a mark. -/
def State.fenceNow (s : State) (unit origin cause : Nat) : State :=
  let n := unit % 4096
  if s.isFenced unit then s
  else
    match unit / 4096 with
    | 1 =>
      let s := (((s.leaveChains n).setCell n (fun c => { c with fenced := true })).putFence unit 1 origin cause).redealCell n 0
      let lost := modifyWhere (fun (t : Task) => t.cell == n && t.phase == .stopped && (match s.ctx? t.ctx with
        | some x => x.suspending
        | none => false)) (fun t => { t with phase := .withdrawn, done := none }) s.office.tasks
      (({ s with office := { s.office with tasks := lost } } : State).checkBarren (s.partOfCell n)).serveTasks.watch cause
    | 2 => (s.setCell (n / 4) (fun c => { c with lanesFenced := setBit c.lanesFenced (n % 4) true })).putFence unit 1 origin
      cause
    | 4 => s.putFence unit 1 origin cause
    | 7 => s.markChannel n origin cause
    | 8 => (s.putFence unit 1 origin cause).laneLost (n / 4) (n % 4)
    | 0xA =>
      let s := (s.setCodecPipe n (fun p => { p with fenced := true })).putFence unit 1 origin cause
      (s.restartFrame n).cdcStarved
    | 0xB =>
      let s := (s.setIntakePipe n (fun p => { p with fenced := true })).putFence unit 1 origin cause
      (s.restartSample n).intkStarved
    | _ => s

/-- A unit code that can be fenced: its kind, and its number in the kind's range (19 R507). -/
def fenceable (unit : Nat) : Bool :=
  let n := unit % 4096
  match unit / 4096 with
  | 1 => decide (n < 256)
  | 2 => decide (n < 1024)
  | 4 => decide (n < 32)
  | 7 => decide (n < 24)
  | 8 => decide (n < 48)
  | 0xA => decide (n < 4)
  | 0xB => decide (n < 4)
  | _ => false

/-- A fence of a channel would leave its region with no active channel. -/
def State.lastChannel (s : State) (unit : Nat) : Bool :=
  unit / 4096 == 7 && !s.mem.chans.any (fun c => c.id != unit % 4096 && c.id / 6 == unit % 4096 / 6 && c.active && !c.marked)

/-- The fence pair's commit (17 R451, 18 R470, 19 R518). -/
def applyFence (s : State) : Applied :=
  let unit := s.staging 0x4010 1
  let act := s.staging 0x4010 2
  if !fenceable unit || !(act == 1 || act == 2) then (s, 0x01F8)
  else if act == 1 && !s.isFenced unit && s.lastChannel unit then (s, 0x02F8)
  else if s.keepRefused != 0 then (s, s.keepRefused)
  else
    let s := (s.dset 0x4010 1 unit).dset 0x4010 2 act
    if act == 1 then (s.fenceNow unit 1 0, 0)
    else
      match s.fenceOf unit with
      | some f => if f.state == 1 then (s.putFence unit 3 1 0, 0) else (s, 0)
      | none => (s, 0)

/-! ## Engine resets (19 R497, R499, R517) -/

/-- Engine resets of a stream engine, a codec pipe or an intake pipe in this fence window, after one more. -/
def State.countReset (s : State) (unit : Nat) : State × Nat :=
  let n := unit % 4096
  match unit / 4096 with
  | 1 => (s.setCell n (fun c => { c with resets := c.resets + 1 }), (s.cell n).resets + 1)
  | 0xA => (s.setCodecPipe n (fun p => { p with resets := p.resets + 1 }), (s.codec.pipes.getD n (Pipe.init n)).resets + 1)
  | 0xB => (s.setIntakePipe n (fun p => { p with resets := p.resets + 1 }), (s.intake.pipes.getD n (Pipe.init n)).resets + 1)
  | _ =>
    let k := kvGet unit 0 s.faults.counts + 1
    ({ s with faults := { s.faults with counts := kvSet unit k s.faults.counts } }, k)

/-- What becomes of a unit's work in its engine reset. -/
def State.resetWork (s : State) (unit cause : Nat) : State :=
  let n := unit % 4096
  match unit / 4096 with
  | 1 => (((s.metAgain n cause).redealCell n cause).clearCell n).serveTasks
  | 7 => s.dueSession n true
  | 0xA => s.restartFrame n
  | 0xB => s.restartSample n
  | _ => s

/-- An engine reset: counted, announced and logged; the third in a fence window fences its unit (19 R499, R517). -/
def State.engineReset (s : State) (unit cause : Nat) : State :=
  let s := ((s.bump 0x4003 2 1).raise 1 cause).post unit 3 cause s.anyDetail
  let s := s.log unit cause 3 (s.partOfUnit unit) 0
  -- the work of a pipe that is fenced now restarts with its fence
  let pipe := unit / 4096 == 0xA || unit / 4096 == 0xB
  let s := if pipe && decide (3 ≤ (s.countReset unit).2) then s else s.resetWork unit cause
  if unit / 4096 == 7 then s
  else
    let r := s.countReset unit
    if 3 ≤ r.2 then r.1.fenceNow unit 0 cause else r.1

/-- Region power: the module is in Full, or in Trim with the region kept (20 R548). -/
def State.powered (s : State) (region : Nat) : Bool :=
  s.board.phase == .serving && (s.board.power == 0 || (s.board.power == 1 && !bit s.board.trim region))

/-! ## Partition reset (19 R500) -/

/-- Steps 1 and 2: the postmark advances, the partition stops, and its cells discard their tasks. -/
def State.resetPart (s : State) (p cause : Nat) : State :=
  if s.office.stopped.contains p || !s.partExists p then s
  else
    let live := (s.office.ctxs.filter (fun x => x.partition == p && x.state != .suspended)).map (fun x => x.number)
    let s : State := { s with
      office := { s.office with
        stopped := insertNat p s.office.stopped
        tasks := s.office.tasks.filter (fun t => !live.contains t.ctx) }
      faults := { s.faults with
        postmarks := modifyAt (fun n => (n + 1) % 1024) p s.faults.postmarks
        annealing := insertNat p s.faults.annealing
        lastCause := cause } }
    let s := ((s.bump 0x4003 3 1).raise 2 cause).post (s.partUnit p) 3 cause s.anyDetail
    s.log (s.partUnit p) cause 4 p 0

/-- Requests that an instruction of the module waits for. -/
def ReqKind.ofWork : ReqKind → Bool
  | .read | .history | .write | .signal | .writeBack | .copyFetch => true
  | _ => false

/-- Steps 3 and 4 for a Live context: its work ends with 0x0404, its queue halts, and its job ends. -/
def State.annealCtx (s : State) (c : Nat) : State :=
  let s := (s.endAll c 0x0404 false).errorStreams c
  let s := ((s.dropWork c).dropSave c).setCtx c (fun x => { x with
    suspending := false
    queue := { x.queue with qs := .halted } })
  s.endJob c 0x0404

/-- Step 7: the new role, and the partition runs again (01 R20, 17 R451). -/
def State.restartPart (s : State) (p : Nat) : State :=
  let roles := if s.dget 0x2300 1 == s.office.layout then modifyAt (fun _ => s.dget 0x2300 (2 + p)) p s.office.roles
    else s.office.roles
  let s : State := { s with
    office := { s.office with
      roles := roles
      stopped := s.office.stopped.filter (fun q => q != p)
      notStarted := s.office.notStarted.filter (fun q => q != p) }
    faults := { s.faults with annealing := s.faults.annealing.filter (fun q => q != p) } }
  let s := s.checkBarren p
  ((s.office.ctxs.filter (fun x => x.partition == p && x.state == .waiting)).foldl (fun s x => s.startCtx x.number) s).watch 0

/-- Steps 3 to 7. What is not yet answered is dropped and forgotten, so that no SIGNAL or FENCE of a Suspended context waits for a
write among it or is charged with one (DESIGN CHOICE, log entry 173: R500 drops the requests, and 03 R82 does not say what becomes of such a
write). Answers already held stay with the instructions of Suspended contexts (03 R84). -/
def State.anneal (s : State) (p : Nat) : State :=
  let s := s.dropReqs (fun r => r.partition == p && r.kind.ofWork && !r.answered)
  let s : State := { s with cs := { s.cs with
    sheets := s.cs.sheets.filter (fun h => !(s.regionsOf p).contains h.region) } }
  let s := (s.office.ctxs.filter (fun x => x.partition == p && x.state == .live)).foldl (fun s x => s.annealCtx x.number) s
  let cells := (List.range 256).filter (fun i => s.partOfCell i == p)
  let s := cells.foldl (fun s i => (s.setCell i (fun c => { c with lastServed := [] })).clearCell i) s
  let s := (s.regionsOf p).foldl (fun s r => s.clearRun (0x9000000000 + 0x1000000 * r) 0x1000000) s
  (s.storePosts (s.regionsOf p) 32768).restartPart p

/-! ## Cullets (19 R509, R510) -/

/-- The units that the scan path reads, in unit code order: those that a chip reset resets. -/
def scanUnits : List Nat :=
  (List.range 256).map unitCell ++ (List.range 32).map unitSwitch ++ (List.range 32).map unitEngine ++
    (List.range 4).map unitRegion ++ (List.range 4).map unitPart ++ (List.range 24).map unitChan ++
    (List.range 4).map unitCore ++ (List.range 4).map unitCodec ++ (List.range 4).map unitIntake ++
    (List.range 4).map unitChip

/-- A unit's entry, its data at an offset. -/
def scanEntry (unit state offset : Nat) (data : Bytes) : Bytes :=
  leBytes 2 unit ++ leBytes 1 state ++ leBytes 1 0 ++ leBytes 4 offset ++ leBytes 4 data.length ++ leBytes 4 (crc32c data)

/-- A unit's control state as the scan path reads it: what SCANWRITE put there, else free (20 R546). -/
def State.scanData (s : State) (unit : Nat) : Bytes :=
  match s.sec.scan.find? (fun x => x.1 == unit) with
  | some x => x.2
  | none => Config.scanState unit s.epoch

/-- A cullet; `hung` is a unit that does not finish in time. -/
def State.cullet (s : State) (cause : Nat) (hung : Option Nat) : Bytes :=
  let fenced := fun (u : Nat) => s.isFenced u
  let state := fun (u : Nat) => if fenced u then 2 else if some u == hung then 1 else 0
  let datas := scanUnits.map (fun u => if state u == 0 then s.scanData u else [])
  let base := 64 + 16 * scanUnits.length
  let entries := (List.zip scanUnits datas).foldl (fun (acc : Bytes × Nat) x =>
    (acc.1 ++ scanEntry x.1 (state x.1) (if x.2 == [] then 0 else acc.2) x.2, acc.2 + x.2.length)) ([], base)
  let head := leBytes 4 0x43554C54 ++ leBytes 2 2 ++ leBytes 2 0 ++ leBytes 8 entries.2 ++ leBytes 8 s.cycle ++
    leBytes 8 s.tod ++ leBytes 2 cause ++ (List.range 4).flatMap (fun p => leBytes 2 (s.postmark p)) ++
    leBytes 4 scanUnits.length ++ List.replicate 18 0
  (head ++ entries.1 ++ datas.flatten).take 67108864

/-- Steps 4 and 5 of R501: a cullet is collected and stored, and so are the four rings. -/
def State.collect (s : State) (cause : Nat) (hung : Option Nat) : State :=
  let b := s.cullet cause hung
  let lost := match hung with
    | some u => if s.isFenced u then 0 else 1
    | none => 0
  let s := (s.drew.bump 0x4003 6 1).bump 0x4003 7 lost
  (s.storePosts [0, 1, 2, 3] 32768).storeCullet b

/-! ## Chip reset (19 R501, R505) -/

/-- Registers that a chip reset keeps: persistent entries (17 R448). -/
def keptKey (k : Nat) : Bool :=
  match findEntry (k / 256) (k % 256) with
  | some e => e.keep
  | none => false

/-- Counters that a chip reset keeps: 0x4003, and those of the router domain (12 R327, 13 R352). -/
def keptCount (k : Nat) : Bool :=
  k / 256 == 0x4003 || k / 256 == 0x3210 || (k / 256 == 0x3230 && decide (5 ≤ k % 256))

/-- Contexts that outlive a chip reset that keeps GDDR: Suspended, with a save area (11 R296, 16 R425). -/
def Ctx.survives (x : Ctx) : Bool := x.state == .suspended && x.saveSlot.isSome

/-- Log that dirty copies were lost: their number, then up to 64 global addresses, four to an entry (10 R261, 19 R506). -/
def State.logLost (s : State) (l : List Copy) : State :=
  let addrs := (l.take 64).map (fun c => gMake c.node c.addr)
  let s := ((s.bump 0x31C0 0xE l.length).raise 24 0).log (unitChip 5) 0 5 0xFF l.length
  (chunks 4 addrs).foldl (fun s g => s.log (unitChip 5) 0 5 0xFF (leNat (g.flatMap (leBytes 8)))) s

/-- Step 6: every unit is reset except the router domain and the EtherCAT forwarding path, and every postmark advances. A channel due
that could not train live is retrained here (10 R266; DESIGN CHOICE: it succeeds). -/
def State.unitsReset (s : State) : State :=
  let kept := s.office.ctxs.filter Ctx.survives
  let held := fun (c : Nat) => kept.any (fun x => x.number == c)
  let streams := s.codec.streams.map (fun x => x.ctx)
  let dirty := s.mem.copies.filter (fun c => c.dirty)
  let ctxs := kept.map (fun x => { x with
    job := { x.job with submitSession := 0 }
    saveSlot := if streams.contains x.number then none else x.saveSlot })
  let used := ctxs.filterMap (fun x => x.saveSlot.map (fun i => (x.partition, i)))
  let retrain := (s.mem.chans.filter (fun c => c.due && c.active && !s.trainable c.id)).map (fun c => c.id)
  let onDie := fun (a : Nat) => decide (0x8000000000 ≤ a)
  let s := s.mem.chans.foldl (fun s c => if c.session != 0 || c.detour != [] || c.heldWrites != [] then s.drainDetour c.id
    else s) s
  let s : State := { s with
    dict := s.dict.filter (fun e => keptKey e.1)
    staged := []
    tele := s.tele.filter (fun e => keptCount e.1)
    mem := { s.mem with
      cells := s.mem.cells.filter (fun c => !onDie c.1)
      poison := s.mem.poison.filter (fun u => !onDie (16 * u))
      copies := []
      wcb := []
      chans := s.mem.chans.map (fun c => { c with session := 0, viaReset := false, due := false }) }
    office := { s.office with
      ctxs := ctxs
      seqSlots := List.replicate 8 none
      saveUsed := used
      tasks := s.office.tasks.filter (fun t => held t.ctx)
      cells := s.office.cells.map (fun c => { c with lastServed := [] })
      triggers := []
      stopped := []
      yielding := s.office.yielding.filter held
      saveBases := s.office.saveBases.filter (fun e => held e.1)
      saveSums := s.office.saveSums.filter (fun e => held e.1)
      loaded := s.office.loaded.filter (fun l => held l.ctx) }
    cs := { s.cs with
      flight := s.cs.flight.filter (fun f => held f.ctx)
      done := s.cs.done.filter (fun d => held d.1)
      stalled := s.cs.stalled.filter (fun d => held d.1)
      reqs := s.cs.reqs.filter (fun r => r.answered && r.kind == .read && held r.ctx)
      failedWrites := s.cs.failedWrites.filter (fun d => held d.1)
      chainLeft := []
      grids := s.cs.grids.filter (fun g => held g.1)
      sheets := [] }
    coll := { s.coll with flight := [] }
    intake := { s.intake with
      pipes := s.intake.pipes.map (fun p => { p with job := none, lastStream := 0xFFFF })
      dicts := List.replicate 4 DictSlot.empty
      jobs := s.intake.jobs.filter (fun j => held j.ctx) }
    codec := { s.codec with
      pipes := s.codec.pipes.map (fun p => { p with job := none, lastStream := 0xFFFF })
      streams := []
      jobs := s.codec.jobs.filter (fun j => held j.ctx) }
    net := { s.net with linkUp := [false, false], sessions := [], results := [] }
    ecat := { s.ecat with segmented := none, pdo1A01 := [], assign2 := [0x1600], assign3 := [], lastAbort := (0, 0, 0) }
    faults := { s.faults with
      postmarks := s.faults.postmarks.map (fun n => (n + 1) % 1024)
      annealing := [] }
    sec := { s.sec with
      challenge := none
      tokenState := 0
      tokenResult := 0
      level := if s.sec.fuses.lifecycle == 0 then 2 else 0
      attState := 0
      attNonce := []
      attReport := []
      scan := []
      coreHalted := [] } }
  let s := (retrain.foldl (fun s n => s.trained n) s).watch 0
  if dirty == [] then s else s.logLost dirty

/-! ## The start of the firmware (18 R476, R477, 10 R249, 21 R569 steps 5 to 8) -/

/-- Entries that RestoreDefaults sets to their defaults: persistent RW entries of 0x2000 to 0x2FFF, and pair members (17
R449). -/
def Entry.restored (e : Entry) : Bool :=
  e.own == .member || (e.keep && e.acc == .rw && decide (0x2000 ≤ e.idx) && decide (e.idx ≤ 0x2FFF))

/-- Set those entries to their defaults, each with its record. -/
def State.restoreNow (s : State) : State :=
  let s := (dictTable.filter (fun e => e.restored && kvHas (dkey e.idx e.sub) s.dict)).foldl (fun s e =>
    let s : State := { s with dict := kvDel (dkey e.idx e.sub) s.dict }
    if e.keep then s.journal false ⟨1, dkey e.idx e.sub, leBytes e.width e.dflt⟩ else s) s
  let s := s.office.quotas.foldl (fun s q => s.journal false ⟨1, quotaKey q.1, leBytes 4 0xFFFFFFFF⟩) s
  { s with
    staged := []
    office := { s.office with quotas := [] }
    store := { s.store with restorePending := false } }

/-- Fences that awaited a chip reset: marks become fences, and clears take their records away; a fabric lane's clear waits for
its port (19 R517, R518). -/
def State.settleFences (s : State) : State :=
  s.faults.fences.foldl (fun s f =>
    if f.state == 2 then s.putFence f.unit 1 f.origin f.cause
    else if f.state == 3 && f.unit / 4096 != 8 then s.dropFence f.unit
    else s) s

/-- The units' own fence flags, as the records say. -/
def State.flagFences (s : State) : State :=
  let f := s.isFenced
  let lanes := fun (i : Nat) => total ((List.range 4).map (fun g => if f (unitLane i g) then 2 ^ g else 0))
  { s with
    office := { s.office with
      cells := s.office.cells.map (fun c => { c with fenced := f (unitCell c.id), lanesFenced := lanes c.id }) }
    mem := { s.mem with
      chans := s.mem.chans.map (fun c => { c with fenced := f (unitChan c.id), marked := false }) }
    intake := { s.intake with pipes := s.intake.pipes.map (fun p => { p with fenced := f (unitIntake p.id) }) }
    codec := { s.codec with pipes := s.codec.pipes.map (fun p => { p with fenced := f (unitCodec p.id) }) } }

/-- A channel's training at a start has failed (21 R569). -/
def State.trainFailed (s : State) (n : Nat) : State :=
  let s := ((s.setChan n (fun c => { c with failedRow := c.failedRow + 1 })).bump 0x31C0 0xA 1).raise 21 0
  if 2 ≤ (s.chan n).failedRow then s.markChannel n 0 0 else s

/-- The active channels, the sets and the window are worked out; GDDR contents are lost where any of R249's list changed. -/
def State.layOut (s : State) (failed : List Nat) : State × Bool :=
  let layout := s.dget 0x2300 1
  let mode := s.dget 0x2340 1
  let slots := s.dget 0x2350 2
  let chans := s.mem.chans.map (fun c => { c with active := !c.fenced && !failed.contains c.id })
  let m : MemSys := { s.mem with chans := chans }
  let lost := m.activeChans != s.mem.activeChans || mode != s.mem.interleave || slots != s.mem.saveSlots ||
    (mode == 1 && layout != s.office.layout)
  let clean := chans.map (fun c => { c with detour := [], heldWrites := [] })
  let mem : MemSys := { m with interleave := mode, saveSlots := slots }
  let s : State := { s with
    mem := if lost then { mem with
        cells := []
        poison := []
        unzeroed := [(0, m.windowBytes)]
        objects := []
        copies := []
        chans := clean } else mem
    office := { s.office with
      layout := layout
      roles := (List.range 4).map (fun p => if p < layout then s.dget 0x2300 (2 + p) else 0) }
    store := { s.store with gddrImage := s.store.gddrImage && !lost }
    faults := { s.faults with memLog := if lost then [] else s.faults.memLog } }
  (s, lost)

/-- A trim covers whole partitions of a layout (20 R549). -/
def wholePartitions (layout trim : Nat) : Bool :=
  (List.range 4).all (fun r => (List.range 4).all (fun q => r * layout / 4 != q * layout / 4 || bit trim r == bit trim q))

/-- The power pair at a start: Full, and Full in force, where the pair splits a partition (20 R549). -/
def State.startPower (s : State) : State :=
  if s.dget 0x5040 1 == 1 && !wholePartitions s.office.layout (s.dget 0x5040 2) then
    let s := (s.keep 0x5040 1 1 0).keep 0x5040 2 1 0
    { s with board := { s.board with power := 0, trim := 0 } }
  else { s with board := { s.board with power := s.dget 0x5040 1, trim := s.dget 0x5040 2 } }

/-- Suspended contexts whose save area did not survive end with 0x0392 (11 R298). -/
def State.endLost (s : State) (lost : Bool) : State :=
  (s.office.ctxs.filter (fun x => x.state == .suspended && (lost || x.saveSlot.isNone))).foldl (fun s x =>
    ((s.endAll x.number 0x0392 false).dropSave x.number).endJob x.number 0x0392) s

/-- The firmware serves: fences, channels, power and partitions (21 R569 step 8, 19 R501 step 7). -/
def State.serve (s : State) (failed : List Nat) : State :=
  let s := if s.store.restorePending then s.restoreNow else s
  let s := s.settleFences.flagFences
  let r := s.layOut failed
  let s := (failed.foldl (fun s n => s.trainFailed n) r.1).startPower
  let s : State := { s with
    office := { s.office with notStarted := (List.range s.office.layout).filter (fun p => s.barren p) }
    net := { s.net with udpPort := s.dget 0x23A0 1 }
    store := { s.store with
      running := s.store.image.elim [] (fun i => i.bytes)
      gddrImage := true
      pendingImage := none }
    faults := { s.faults with alertForced := false }
    board := { s.board with phase := .serving } }
  ((s.endLost r.2).watch 0).flushEmergency

/-- GDDR contents will be lost at this start (10 R249): the image is then read from NAND again (19 R501). -/
def State.willLose (s : State) (failed : List Nat) : Bool := (s.settleFences.flagFences.layOut failed).2

/-- The image that the anchor names, read and verified (18 R476 steps 1 to 3): it may start. -/
def State.imageGood (s : State) : Bool :=
  match s.store.image with
  | some i => s.store.answers && s.sec.fuses.checkImage i.bytes == 0
  | none => false

/-- The boot ROM enters Bootstrap (18 R488, 17 R432). -/
def State.enterBootstrap (s : State) : State :=
  { s with
    board := { s.board with phase := .bootstrap }
    ecat := { s.ecat with al := 3 } }

/-- Step 7 of a chip reset, or steps 4 to 8 of a start: every generator is reseeded, a fenced cell's too (09 R223). In Scrapped no
firmware starts (20 R552). -/
def State.startUp (s : State) (failed : List Nat) : State :=
  let s := (List.range 256).foldl (fun s i => s.reseedCell i) s
  if s.sec.fuses.lifecycle == 4 then
    { s with
      board := { s.board with phase := .stopped }
      ecat := { s.ecat with al := 1 }
      fabric := { s.fabric with ports := s.fabric.ports.map (fun p => { Port.init p.id with st := .disabled }) } }
  else if s.store.gddrImage && !s.willLose failed then s.serve failed
  else if s.imageGood then s.serve failed
  else s.enterBootstrap

/-! ## Chip reset and power cycle (19 R497, R501, R502) -/

/-- Steps 1 to 5 of a chip reset. `hung` skips the commit, and changes not yet committed are lost (18 R475). -/
def State.freeze (s : State) (cause unit severity : Nat) (record hung : Bool) : State :=
  let s := if hung then s.reload else s
  let s := (s.post unit 3 cause s.anyDetail).log unit cause severity 0xFF 0
  let s := if hung then s else s.commit
  let s := s.mem.wcb.foldl (fun s e => s.retireWcb e) s
  if record then s.collect cause (if hung then some unit else none) else s

/-- A whole chip reset with its cause, and the unit that it is logged for. `record` collects a cullet. -/
def State.chipReset (s : State) (cause unit : Nat) (fault record hung : Bool) : State :=
  let s := if fault then s.raise 3 cause else s
  let s := s.freeze cause unit 5 record hung
  let s := s.bump 0x4003 4 1
  let s : State := { s with faults := { s.faults with lastCause := cause, resetTries := 1 } }
  s.unitsReset.startUp []

/-- A power cycle request: steps 1 to 5 of R501, and PWR_REQ_N. -/
def State.powerCycle (s : State) (cause : Nat) : State :=
  let s := ((s.bump 0x4003 8 1).freeze cause (unitCore 0) 6 true false).commit
  { s with
    faults := { s.faults with pwrReq := true, alertForced := true }
    board := { s.board with phase := .awaitingCycle } }

/-! ## The reset request (19 R521) -/

/-- A legal value of ResetRequest. -/
def State.resetLegal (s : State) (v : Nat) : Bool :=
  (decide (0x10 ≤ v) && decide (v ≤ 0x13) && s.partExists (v - 0x10)) || v == 0x20 || v == 0x21 || v == 0x30

/-- A write of ResetRequest: the answer is placed, and then the reset begins (17 R435). -/
def State.writeReset (s : State) (v : Nat) : State :=
  if !s.mailboxUp then s
  else if !s.resetLegal v then s.answerWrite 0x4040 1 false (s, 0x01F9)
  else
    let s := s.answerWrite 0x4040 1 false (s, 0)
    if v == 0x20 then s.chipReset 0 (unitCore 0) false false false
    else if v == 0x21 then s.chipReset 0 (unitCore 0) false true false
    else if v == 0x30 then s.powerCycle 0
    else s.resetPart (v - 0x10) 0

/-! ## Meanings -/

/-- FAULT_CLEAR (19 R514). -/
def applyFaultClear (value : Nat) (s : State) : Applied :=
  ({ s with faults := { s.faults with latched := s.faults.latched - (s.faults.latched &&& value) } }, 0)

def execFaultClear (value : Nat) (s : State) : Out :=
  .next (s.trigger 0x4000 3 false 0 0xFFFFFFFFFFFFFFFF value (applyFaultClear value))

/-- FENCE_UNIT (19 R517, R518): the fence pair with action 1. -/
def execFenceUnit (value : Nat) (s : State) : Out :=
  .next (if s.staging 0x4010 2 == 2 then s else s.trigger 0x4010 3 true 1 1 value applyFence)

/-- CLEAR_FENCE (19 R518): the fence pair with action 2. -/
def execClearFence (value : Nat) (s : State) : Out :=
  .next (if s.staging 0x4010 2 == 2 then s.trigger 0x4010 3 true 1 1 value applyFence else s)

/-- RESET_PARTITION (19 R500, R521): other legal values of the entry have rows of their own. -/
def execResetPartition (value : Nat) (s : State) : Out :=
  .next (if value == 0x20 || value == 0x21 || value == 0x30 then s else s.writeReset value)

/-- RESET_CHIP (19 R501, R521). -/
def execResetChip (value : Nat) (s : State) : Out := .next (if value == 0x20 then s.writeReset value else s)

/-- RESET_CHIP_CULLET (19 R501, R521). -/
def execResetChipCullet (value : Nat) (s : State) : Out := .next (if value == 0x21 then s.writeReset value else s)

/-- RESET_POWER_CYCLE (19 R502, R521). -/
def execResetPowerCycle (value : Nat) (s : State) : Out := .next (if value == 0x30 then s.writeReset value else s)

/-- FENCE_WINDOW (19 R517): the counts of a region's units, or of the other units where `region` names none, begin again. -/
def execFenceWindow (region : Nat) (s : State) : Out :=
  .next (
    if region < 4 then
      { s with
        office := { s.office with cells := s.office.cells.map (fun c =>
          if c.id / 64 == region then { c with resets := 0, laneErrors := [] } else c) }
        faults := { s.faults with counts := s.faults.counts.filter (fun e => regionOfUnit e.1 != some region) } }
    else
      let again := fun (p : Pipe) => { p with resets := 0 }
      { s with
        mem := { s.mem with chans := s.mem.chans.map (fun c => { c with
          failedRow := 0
          failedResets := 0
          uncorrectableReads := 0 }) }
        fabric := { s.fabric with laneFailures := [], laneRemovals := [] }
        intake := { s.intake with pipes := s.intake.pipes.map again }
        codec := { s.codec with pipes := s.codec.pipes.map again } })

/-- CELL_WATCHDOG (19 R494, R495, R499): a cell that runs a task makes no progress. -/
def execCellWatchdog (cell : Nat) (s : State) : Out :=
  .next (
    if decide (256 ≤ cell) || (s.cell cell).fenced || !s.powered (cell / 64) || s.office.stopped.contains (s.partOfCell cell) ||
        s.runningIn cell == [] then s
    else (s.post (unitCell cell) 2 0x04F8 s.anyDetail).engineReset (unitCell cell) 0x04F8)

/-- ENGINE_WATCHDOG (19 R494, R499): of a stream engine, a GDDR7 controller, or a codec or intake pipe that works. -/
def execEngineWatchdog (unit : Nat) (s : State) : Out :=
  .next (
    let n := unit % 4096
    let busy := match unit / 4096 with
      | 4 => s.powered (n / 8)
      | 7 => s.board.phase == .serving && s.board.power != 2 && (s.chan n).active
      | 0xA => s.board.phase == .serving && (s.codec.pipes.getD n (Pipe.init n)).job.isSome
      | 0xB => s.board.phase == .serving && (s.intake.pipes.getD n (Pipe.init n)).job.isSome
      | _ => false
    if !fenceable unit || s.isFenced unit || !busy then s
    else (s.post unit 2 0x04F8 s.anyDetail).engineReset unit 0x04F8)

/-- PARTITION_WATCHDOG (19 R494, R500). -/
def execPartitionWatchdog (region : Nat) (s : State) : Out :=
  .next (
    if decide (4 ≤ region) || !s.powered region then s
    else (s.post (unitPart region) 2 0x04F8 s.anyDetail).resetPart (s.partOfRegion region) 0x04F8)

/-- CORE_WATCHDOG (19 R494, R501): a halted core's watchdog does not count (20 R546). -/
def execCoreWatchdog (core : Nat) (s : State) : Out :=
  .next (
    if decide (4 ≤ core) || s.sec.coreHalted.contains core || s.board.phase != .serving then s
    else ((s.post (unitCore core) 2 0x04F9 s.anyDetail).raise 20 0x04F9).chipReset 0x04F9 (unitCore core) true true true)

/-- What a cell holds of tasks that are being saved meets an uncorrectable error (11 R298). -/
def State.marTasks (s : State) (cell : Nat) : State :=
  { s with office := { s.office with tasks := modifyWhere (fun (t : Task) => t.cell == cell && t.phase == .stopped &&
      ((s.ctx? t.ctx).map (fun x => x.suspending)).getD false) (fun t => { t with marred := true }) s.office.tasks } }

/-- UNCORRECTABLE_CELL_STATE (19 R499, R517): `laneGroup` 0 to 3 where the error lies in a lane group's state. -/
def execUncorrectableCellState (cell laneGroup : Nat) (s : State) : Out :=
  .next (
    if decide (256 ≤ cell) || (s.cell cell).fenced || !s.powered (cell / 64) || s.office.stopped.contains (s.partOfCell cell)
    then s
    else
      let u := unitCell cell
      let s := ((s.post u 1 0x03F8 s.anyDetail).bump 0x31C0 4 1).raise 7 0x03F8
      let s :=
        if 4 ≤ laneGroup then s
        else
          let k := kvGet laneGroup 0 (s.cell cell).laneErrors + 1
          let s := s.setCell cell (fun c => { c with laneErrors := kvSet laneGroup k c.laneErrors })
          if 2 ≤ k then s.fenceNow (unitLane cell laneGroup) 0 0x03F8 else s
      (s.marTasks cell).engineReset u 0x03F8)

/-- ENGINE_RESET_OVERRUN (19 R497, R517): the unit whose engine reset does not end is fenced. -/
def execEngineResetOverrun (unit : Nat) (s : State) : Out :=
  .next (
    if !fenceable unit || unit / 4096 == 2 || unit / 4096 == 8 || s.board.phase != .serving then s
    else s.fenceNow unit 0 0x04F8)

/-- ANNEAL_COMPLETE (19 R500 steps 3 to 7). -/
def execAnnealComplete (partition : Nat) (s : State) : Out :=
  .next (if s.faults.annealing.contains partition && s.board.phase == .serving then s.anneal partition else s)

/-- ANNEAL_OVERRUN (19 R497): a chip reset follows. -/
def execAnnealOverrun (partition : Nat) (s : State) : Out :=
  .next (
    if s.faults.annealing.contains partition && s.board.phase == .serving then
      (s.raise 27 0x04FA).chipReset 0x04FA (s.partUnit partition) true true false
    else s)

/-- CHIP_RESET_TIMEOUT (19 R497, R502): a second reset follows the first, and a power cycle request the second. -/
def execChipResetTimeout (s : State) : Out :=
  .next (
    if s.faults.resetTries == 0 || s.board.phase != .serving then s
    else if s.faults.resetTries == 1 then
      let s := s.chipReset s.faults.lastCause (unitCore 0) true true false
      { s with faults := { s.faults with resetTries := 2 } }
    else
      let s := s.powerCycle 0x04FB
      { s with faults := { s.faults with resetTries := 0 } })

end Sys2Proof.Machine
end

