-- ==== Sys2Proof/Machine/Security.lean ====
section
/-! DEFINITION. Security: the TRNG's health, fuses, tokens, the lifecycle, identity and attestation, debug and JTAG (20 R524 to
R547, R552 to R555). -/

namespace Sys2Proof.Machine
open Sys2Proof

/-! ## The identity key (20 R539 to R542) -/

/-- The associated data of a wrapped key: SerialNumber and Generation (20 R539). -/
def wrapData (serial gen : Nat) : Bytes := leBytes 4 serial ++ leBytes 2 gen

/-- AES-256-GCM under the device secret (20 R539): the wrapped key and its tag. -/
def Fuses.wrapKey (f : Fuses) (iv : Bytes) (gen d : Nat) : Bytes × Bytes :=
  let ks := aesKeys (leBytes 32 f.secret)
  let c := gcmCrypt ks iv (beBytes 66 d)
  (c, gcmTagOf ks iv (wrapData f.serial gen) c)

/-- The private key of an identity; none once the secret is killed, or where the tag does not match (20 R538, R539). -/
def Fuses.unwrapKey (f : Fuses) (x : Identity) : Option Nat :=
  let ks := aesKeys (leBytes 32 f.secret)
  if f.secretKilled || gcmTagOf ks x.iv (wrapData f.serial x.generation) x.wrapped != x.gcmTag then none
  else some (beNat (gcmCrypt ks x.iv x.wrapped))

/-- The identity key that attestation and rotation may use (20 R545, R552): none at debug level Full. -/
def State.usableKey (s : State) : Option Nat :=
  if s.sec.level == 2 then none else s.sec.identity.bind s.sec.fuses.unwrapKey

/-- A private key from the TRNG: a free number from 1 to the order less 1. -/
def State.freshKey (s : State) (i : Nat) : Nat := 1 + leNat (s.freeBytes i 66) % (p521N - 1)

/-- A new identity of a generation, with its private key (20 R539 steps 1 and 2). -/
def State.makeIdentity (s : State) (gen : Nat) : Identity :=
  let d := s.freshKey 0
  let iv := s.freeBytes 100 12
  let w := s.sec.fuses.wrapKey iv gen d
  ⟨gen, iv, w.1, w.2, ecdsaPublic d⟩

/-- The KeyBlob payload (20 R540). -/
def Identity.bytes (x : Identity) : Bytes :=
  leBytes 2 x.generation ++ leBytes 2 0 ++ x.iv ++ x.wrapped ++ x.gcmTag ++ x.pub

/-- A rotation record (20 R542): the new key, signed with the old one `d` under the nonce `k`. -/
def rotationRecord (x : Identity) (d k : Nat) : Bytes :=
  let b := leBytes 2 x.generation ++ leBytes 2 0 ++ x.pub ++ leBytes 3 0
  let sig := ecdsaWith d k b
  b ++ beBytes 66 sig.1 ++ beBytes 66 sig.2

/-! ## Fuses (20 R528) -/

/-- A fuse did not read back twice: the operation fails and is logged. -/
def State.blowFailed (s : State) : State := s.log (unitChip 0) 0x03FC 3 0xFF 0

/-! ## Tokens (20 R533 to R536) -/

/-- Magic, Operation and Reserved fields are not as R534 and R536 give. -/
def tokenFlaw (b : Bytes) : Bool :=
  let op := leAt b 4 1
  leAt b 0 4 != 0x544B4E31 || op == 0 || decide (6 < op) || leAt b 7 1 != 0 || leAt b 12 4 != 0 || leAt b 48 16 != 0 ||
    leAt b 197 3 != 0 || leAt b 332 52 != 0 || (if op == 6 then decide (3 < leAt b 6 1) else leAt b 6 1 != 0)

/-- The operation is accepted in a lifecycle (20 R536). -/
def tokenAllowed (op lifecycle : Nat) : Bool :=
  match op with
  | 3 => lifecycle == 1
  | 4 => lifecycle == 2
  | _ => lifecycle == 1 || lifecycle == 2 || lifecycle == 3

/-- A slot is still needed: it signed the running image or the anchor's image, or it is the last live one (20 R536). -/
def State.slotNeeded (s : State) (slot : Nat) : Bool :=
  let f := s.sec.fuses
  imgSlot s.store.running == slot || s.store.image.elim false (fun i => imgSlot i.bytes == slot) ||
    (f.slotLive slot && (List.range 4).all (fun i => i == slot || !f.slotLive i))

/-- The checks of R535: 0, or the first code. -/
def State.tokenCode (s : State) (b : Bytes) : Nat :=
  let f := s.sec.fuses
  let slot := leAt b 5 1
  firstCode [rule (tokenFlaw b) 0x01FC,
    rule (leAt b 8 4 != f.serial || s.sec.challenge != some (sub b 16 32)) 0x05FE,
    rule (!f.slotLive slot || !f.slotKey slot (sub b 64 133)) 0x05FE,
    rule (!ecdsaVerify (sub b 64 133) (b.take 200) (beAt b 200 66) (beAt b 266 66)) 0x05FE,
    rule (!tokenAllowed (leAt b 4 1) f.lifecycle || (leAt b 4 1 == 6 && s.slotNeeded (leAt b 6 1))) 0x01FD]

/-- A token is refused; the eighth 0x05FE in a row locks challenges out (20 R533). -/
def State.refuseToken (s : State) (code : Nat) : State :=
  let n := if code == 0x05FE then s.sec.refusals + 1 else 0
  ({ s with sec := { s.sec with
      tokenState := 3
      tokenResult := code
      refusals := if 8 ≤ n then 0 else n
      lockedOut := s.sec.lockedOut || decide (8 ≤ n) } } : State).bump 0x5050 2 1

def State.acceptToken (s : State) : State :=
  ({ s with sec := { s.sec with tokenState := 2, tokenResult := 0, refusals := 0 } } : State).bump 0x5050 1 1

/-- A token of operation `op`: its attempt uses up the challenge. A token of another operation has a row of its own. -/
def State.token (s : State) (op : Nat) (b : Bytes) (blowOk : Bool) (f : State → State) : State :=
  let other := leAt b 4 1
  if !s.mailboxUp then s
  else if b.length != 384 then s.abort 0x5020 2 0x06070010 0
  else if other != op && decide (1 ≤ other) && decide (other ≤ 6) then s
  else
    let code := s.tokenCode b
    let s := s.answerWrite 0x5020 2 false (s, 0)
    let s : State := { s with sec := { s.sec with challenge := none } }
    if code != 0 then s.refuseToken code
    else if !blowOk then (s.refuseToken 0x03FC).blowFailed
    else f s.acceptToken

/-! ## Lifecycle changes (20 R538) -/

/-- Step 3: persistent entries at their defaults, no identity and no rotation record, committed at once. -/
def State.eraseIdentity (s : State) : State :=
  let keep := fun (r : Rec) => r.type != 5 && r.type != 0xD
  let s := s.restoreNow
  ({ s with
    store := { s.store with durable := s.store.durable.filter keep, pending := s.store.pending.filter keep }
    sec := { s.sec with identity := none, rotations := [] } } : State).forceCommit

/-- The lifecycle becomes `new`, and a chip reset follows. -/
def State.changeLife (s : State) (new : Nat) : State :=
  let s : State := { s with sec := { s.sec with fuses := { s.sec.fuses with
    secretKilled := s.sec.fuses.secretKilled || new == 4
    lifecycle := new } } }
  let s := if 3 ≤ new then s.eraseIdentity else s
  s.chipReset 0 (unitCore 0) false false false

/-! ## Meanings: TRNG, tokens, lifecycle -/

/-- TRNG_HEALTH_FAIL (20 R526): reseeds are then deferred as each falls due (09 R224). -/
def execTrngHealthFail (s : State) : Out :=
  .next (({ s with sec := { s.sec with trngFail := true } } : State).watch 0)

/-- TRNG_RESUME (20 R526). -/
def execTrngResume (s : State) : Out :=
  .next (({ s with sec := { s.sec with trngFail := false } } : State).watch 0)

/-- CHALLENGE (20 R533, R526): a read of Challenge. -/
def execChallenge (s : State) : Out :=
  .next (
    if !s.mailboxUp then s
    else if s.sec.lockedOut then s.abort 0x5020 1 0x08000020 0x02FD
    else if s.sec.trngFail then s.abort 0x5020 1 0x08000021 0x05FF
    else
      let n := s.freeBytes 0 32
      ({ s.drew with sec := { s.sec with challenge := some n } } : State).upload 0x5020 1 n)

/-- CHALLENGE_LOCKOUT_END (20 R533). -/
def execChallengeLockoutEnd (s : State) : Out := .next { s with sec := { s.sec with lockedOut := false } }

/-- UNLOCK_OBSERVE (20 R536). -/
def execUnlockObserve (b : Bytes) (s : State) : Out :=
  .next (s.token 1 b true (fun s => { s with sec := { s.sec with level := 1 } }))

/-- UNLOCK_FULL (20 R536). -/
def execUnlockFull (b : Bytes) (s : State) : Out :=
  .next (s.token 2 b true (fun s => { s with sec := { s.sec with level := 2 } }))

/-- TO_FIELD (20 R538). -/
def execToField (b : Bytes) (blowOk : Bool) (s : State) : Out := .next (s.token 3 b blowOk (fun s => s.changeLife 2))

/-- TO_RETURNED (20 R538). -/
def execToReturned (b : Bytes) (blowOk : Bool) (s : State) : Out := .next (s.token 4 b blowOk (fun s => s.changeLife 3))

/-- TO_SCRAPPED (20 R538). -/
def execToScrapped (b : Bytes) (blowOk : Bool) (s : State) : Out := .next (s.token 5 b blowOk (fun s => s.changeLife 4))

/-- REVOKE (20 R536). -/
def execRevoke (b : Bytes) (blowOk : Bool) (s : State) : Out :=
  .next (s.token 6 b blowOk (fun s => { s with sec := { s.sec with
    fuses := { s.sec.fuses with revoked := setBit s.sec.fuses.revoked (leAt b 6 1) true } } }))

/-- The write of RaiseSecurityVersion (20 R532, R528). -/
def State.raiseVersion (s : State) (blowOk : Bool) : Applied :=
  let now := imgSecVer s.store.running
  if s.store.image.elim true (fun i => decide (imgSecVer i.bytes < now)) then (s, 0x01FD)
  else if now ≤ s.sec.fuses.secVer then (s, 0)
  else if !blowOk then (s, 0x03FC)
  else ({ s with sec := { s.sec with fuses := { s.sec.fuses with secVer := now } } }, 0)

/-- RAISE_SECURITY_VERSION (20 R532). -/
def execRaiseSecurityVersion (value : Nat) (blowOk : Bool) (s : State) : Out :=
  .next (
    if s.mailboxUp && value == 1 && (s.raiseVersion blowOk).2 == 0x03FC then
      s.blowFailed.trigger 0x5000 8 false 1 1 value (fun s => s.raiseVersion blowOk)
    else s.trigger 0x5000 8 false 1 1 value (fun s => s.raiseVersion blowOk))

/-! ## Meanings: identity and attestation -/

/-- Step 3 of R539: the store commits the key blob. -/
def State.commitBlob (s : State) (x : Identity) : State :=
  let s : State := { s.drew with sec := { s.sec with identity := some x } }
  (s.journal true ⟨5, 0, x.bytes⟩).forceCommit

/-- The write of 1 to Provision (20 R539). -/
def State.provisioned (s : State) (blowOk : Bool) : Applied :=
  if s.sec.fuses.lifecycle != 0 then (s, 0x01FD)
  else if s.sec.trngFail then (s, 0x05FF)
  else
    let s := s.commitBlob (s.makeIdentity 1)
    if !blowOk then (s, 0x03FC)
    else
      let s : State := { s with sec := { s.sec with
        fuses := { s.sec.fuses with lifecycle := 1 }
        level := 0 } }
      (s.setEnable (s.dget 0x2362 4), 0)

/-- PROVISION (20 R539, R528): a blow that fails leaves the module Blank with its blob committed. -/
def execProvision (value : Nat) (blowOk : Bool) (s : State) : Out :=
  .next (
    if value == 2 then s
    else
      let r := s.provisioned blowOk
      if s.mailboxUp && value == 1 && r.2 == 0x03FC then r.1.blowFailed.abort 0x5001 6 (abortCode false 0x03FC) 0x03FC
      else s.trigger 0x5001 6 false 1 2 value (fun s => s.provisioned blowOk))

/-- PROVISION_SCRAP (20 R536, R538): no token is needed in Blank. -/
def execProvisionScrap (value : Nat) (blowOk : Bool) (s : State) : Out :=
  .next (
    if value == 1 || !s.mailboxUp then s
    else if value != 2 then s.answerWrite 0x5001 6 false (s, 0x01F0)
    else if s.sec.fuses.lifecycle != 0 then s.answerWrite 0x5001 6 false (s, 0x01FD)
    else if !blowOk then s.blowFailed.answerWrite 0x5001 6 false (s.blowFailed, 0x03FC)
    else (s.answerWrite 0x5001 6 false (s, 0)).changeLife 4)

/-- The write of RotateIdentity (20 R541). -/
def State.rotated (s : State) : Applied :=
  match s.usableKey, s.sec.identity with
  | some d, some old =>
    if s.sec.attState == 1 then (s, 0x02FC)
    else if s.sec.trngFail then (s, 0x05FF)
    else if s.store.condition == 2 then (s, 0x08F4)
    else
      let x := s.makeIdentity ((old.generation + 1) % 2 ^ 16)
      let b := rotationRecord x d (s.freshKey 200)
      let s : State := { s.drew with sec := { s.sec with
        identity := some x
        rotations := newestOf 16 (s.sec.rotations ++ [(x.generation, b)]) } }
      let s := (s.journal true ⟨5, 0, x.bytes⟩).journal true ⟨0xD, x.generation, b⟩
      (s.forceCommit.bump 0x5050 4 1, 0)
  | _, _ => (s, 0x05FF)

/-- ROTATE_IDENTITY (20 R541, R542). -/
def execRotateIdentity (value : Nat) (s : State) : Out :=
  .next (s.trigger 0x5001 3 false 1 1 value State.rotated)

/-- The write of AttestNonce (20 R544). -/
def applyNonce (nonce : Bytes) (s : State) : Applied :=
  if s.usableKey.isNone then (s, 0x05FF)
  else if s.sec.attState == 1 then (s, 0x02FC)
  else ({ s with sec := { s.sec with attState := 1, attNonce := nonce, attReport := [] } }, 0)

/-- ATTEST_NONCE (20 R544). -/
def execAttestNonce (nonce : Bytes) (s : State) : Out :=
  .next (
    if !s.mailboxUp then s
    else if nonce.length != 32 then s.abort 0x5002 1 0x06070010 0
    else s.answerWrite 0x5002 1 false (applyNonce nonce s))

/-- The revision as 0x1018:03 gives it (17 R453). -/
def revisionNumber : Nat := 256 * Config.revisionLetter + Config.revisionDigit

/-- Bytes 0 to 143 of an attestation report (20 R543). -/
def State.reportHead (s : State) (x : Identity) : Bytes :=
  let f := s.sec.fuses
  leBytes 4 0x41545354 ++ leBytes 2 1 ++ leBytes 1 f.lifecycle ++ leBytes 1 s.sec.level ++ leBytes 1 s.board.power ++
    leBytes 1 (imgSlot s.store.running) ++ leBytes 1 f.revoked ++ leBytes 1 0 ++ leBytes 4 f.serial ++
    leBytes 2 revisionNumber ++ leBytes 2 x.generation ++ leBytes 4 f.secVer ++ leBytes 8 (imgVersion s.store.running) ++
    sha512 s.store.running ++ fit 32 s.sec.attNonce ++ leBytes 8 (s.count 0x4003 4) ++ leBytes 8 s.tod

/-- ATTEST_REPORT_READY (20 R543, R544). -/
def execAttestReportReady (s : State) : Out :=
  .next (
    match s.sec.identity, s.sec.identity.bind s.sec.fuses.unwrapKey with
    | some x, some d =>
      if s.sec.attState != 1 || s.board.phase != .serving then s
      else
        let b := s.reportHead x
        let sig := ecdsaSign d b
        ({ s with sec := { s.sec with
            attState := 2
            attReport := b ++ beBytes 66 sig.1 ++ beBytes 66 sig.2 ++ leBytes 44 0 } } : State).bump 0x5050 3 1
    | _, _ => s)

/-! ## Meanings: debug (20 R545, R547) -/

/-- The write of Relock: in Blank the level is always Full. -/
def applyRelock (s : State) : Applied :=
  if s.sec.level == 0 then (s, 0x05FE)
  else ({ s with sec := { s.sec with level := if s.sec.fuses.lifecycle == 0 then 2 else 0 } }, 0)

/-- RELOCK (20 R545). -/
def execRelock (value : Nat) (s : State) : Out := .next (s.trigger 0x5030 2 false 1 1 value applyRelock)

/-- The window at an address belongs to a unit that is powered off: a trimmed region's, or GDDR in Hold (20 R547, R548). -/
def State.darkAt (s : State) (a : Nat) : Bool :=
  let w := s.mem.window a
  if w == 1 then s.board.power == 2
  else if 0x300 ≤ w then !s.powered (w - 0x300)
  else if 0x100 ≤ w then !s.powered ((w - 0x100) / 64)
  else false

/-- A debug access is refused: level, then address, then a failed channel; 0 where it goes on. -/
def State.debugCode (s : State) (level : Nat) : Nat :=
  let a := s.dget 0x5031 1
  firstCode [rule (decide (s.sec.level < level)) 0x05FE, rule (bits a 40 24 != 0 || a % 64 != 0) 0x01FC,
    rule (s.extestOn && s.mem.window a == 1) 0x0381]

/-- DEBUG_DATA_READ (20 R547, 10 R245). -/
def execDebugDataRead (s : State) : Out :=
  .next (
    let a := s.dget 0x5031 1
    let code := s.debugCode 1
    let zero := List.replicate 64 (0 : Byte)
    let bad := s.mem.poisonIn a 64
    if !s.mailboxUp then s
    else if code != 0 then s.abort 0x5031 2 (abortCode false code) code
    else if s.darkAt a then (s.bump 0x31C0 0x10 1).upload 0x5031 2 zero
    else if s.unmapped a false then (s.bump 0x31C0 0x10 1).upload 0x5031 2 zero
    else if bad != [] then (s.sawPoison bad).abort 0x5031 2 0x06060000 0x0302
    else (s.bump 0x31C0 1 (if s.mem.window a == 1 then 64 else 0)).upload 0x5031 2 (s.readBytes a 64))

/-- The write of DebugData: an ordinary access; doorbells take only 8-byte writes (03 R55). -/
def applyDebugWrite (data : Bytes) (s : State) : Applied :=
  let a := s.dget 0x5031 1
  let code := s.debugCode 2
  if code != 0 then (s, code)
  else if s.darkAt a || s.unmapped a true then (s.bump 0x31C0 0x10 1, 0)
  else if s.mem.window a == 4 then (s.bump 0x3150 4 1, 0)
  else (s.writeBytes a data, 0)

/-- DEBUG_DATA_WRITE (20 R547). -/
def execDebugDataWrite (data : Bytes) (s : State) : Out :=
  .next (
    if !s.mailboxUp then s
    else if data.length != 64 then s.abort 0x5031 2 0x06070010 0
    else s.answerWrite 0x5031 2 false (applyDebugWrite data s))

/-! ## Meanings: JTAG (20 R545, R546, R552) -/

/-- The TAP works: the module has power, and no thermal trip has turned its rail off. -/
def State.tapOn (s : State) : Bool := s.board.phase != .off && s.board.phase != .tripped

/-- An instruction code that the level and the lifecycle grant. -/
def State.granted? (s : State) (code : Nat) : Bool :=
  let life := s.sec.fuses.lifecycle
  match code with
  | 0x00 => s.sec.level == 2 && (life == 0 || life == 3)
  | 0x01 => true
  | 0x02 => life != 4
  | 0x10 => decide (1 ≤ s.sec.level) && life != 4
  | 0x11 => s.sec.level == 2 && life != 4
  | 0x12 => s.sec.level == 2 && life != 4
  | _ => false

/-- The bypass register is selected: its captured 0 goes out first, and it holds `tdi` after. -/
def State.bypass (s : State) (code : Nat) (tdi : Bool) : State :=
  { s with sec := { s.sec with tapIr := code, tapOut := [0], bypassBit := tdi } }

/-- Run a granted instruction; any other acts as BYPASS. -/
def State.tap (s : State) (code : Nat) (f : State → State) : State :=
  if !s.tapOn then s
  else if s.granted? code then
    let s : State := { s with sec := { s.sec with tapIr := code } }
    f s
  else s.bypass code false

/-- Every link is down. -/
def State.linksDown (s : State) : State :=
  ({ s with
    net := { s.net with linkUp := [false, false] }
    ecat := { s.ecat with linkUp := [false, false], loopClosed := [true, true] } } : State).portsDown

/-- The sampled pins. -/
def State.pins (s : State) : State := { s.drew with sec := { s.sec with tapOut := s.freeBytes 0 80 } }

/-- EXTEST (20 R546): the boundary register drives the pins, and every link fails. -/
def execExtest (boundary : Nat) (s : State) : Out :=
  .next (s.tap 0x00 (fun s => ({ s with sec := { s.sec with boundary := boundary } } : State).pins.linksDown))

/-- The 32-bit IDCODE (20 R546). -/
def idcode : Nat := Config.revisionDigit * 2 ^ 28 + 0x4812 * 2 ^ 12 + 0x07A * 2 + 1

/-- IDCODE (20 R546). -/
def execIdcode (s : State) : Out :=
  .next (s.tap 0x01 (fun s => { s with sec := { s.sec with tapOut := leBytes 4 idcode } }))

/-- SAMPLE_PRELOAD (20 R546). -/
def execSamplePreload (boundary : Nat) (s : State) : Out :=
  .next (s.tap 0x02 (fun s => ({ s with sec := { s.sec with boundary := boundary } } : State).pins))

/-- SCANREAD (20 R546, 19 R509): a fenced unit is not read. -/
def execScanread (unit : Nat) (s : State) : Out :=
  .next (s.tap 0x10 (fun s => { s.drew with sec := { s.sec with
    tapOut := if scanUnits.contains unit && !s.isFenced unit then s.scanData unit else [] } }))

/-- SCANWRITE (20 R546). -/
def execScanwrite (unit : Nat) (data : Bytes) (s : State) : Out :=
  .next (s.tap 0x11 (fun s =>
    if scanUnits.contains unit && !s.isFenced unit then
      { s with sec := { s.sec with scan := s.sec.scan.filter (fun x => x.1 != unit) ++ [(unit, data)] } }
    else s))

/-- COREHALT (20 R546). -/
def execCorehalt (core : Nat) (halt : Bool) (s : State) : Out :=
  .next (s.tap 0x12 (fun s =>
    if 4 ≤ core then s
    else
      let l := if halt then insertNat core s.sec.coreHalted else s.sec.coreHalted.filter (fun c => c != core)
      { s with sec := { s.sec with coreHalted := l } }))

/-- BYPASS, or any code that is not granted (20 R546). -/
def execBypass (code : Nat) (tdi : Bool) (s : State) : Out :=
  .next (if !s.tapOn || s.granted? (code % 256) then s else s.bypass (code % 256) tdi)

/-- TAP_RESET (20 R546): IDCODE is selected. -/
def execTapReset (s : State) : Out := .next { s with sec := { s.sec with tapIr := 1, tapOut := [] } }

end Sys2Proof.Machine
end

