-- ==== Sys2Proof/Machine/Board.lean ====
section
/-! DEFINITION. Board: power states, power loss and power-on, references, PERST_N, sensors, and firmware images over FoE (17 R444, R445,
18 R472 to R476, R483 to R488, 20 R548 to R552, 21 R556 to R574). -/

namespace Sys2Proof.Machine
open Sys2Proof

/-! ## Power states (20 R548 to R551) -/

/-- A region has power in a power state. -/
def regionOn (power trim r : Nat) : Bool := power == 0 || (power == 1 && !bit trim r)

/-- The power pair agrees (20 R549). -/
def State.powerAgrees (s : State) (target trim : Nat) : Bool :=
  if target == 1 then trim != 0 && decide (trim < 15) && wholePartitions s.office.layout trim
  else decide (target ≤ 2) && trim == 0

/-- A context stands in a partition that would lose power. -/
def State.powerBusy (s : State) (target trim : Nat) : Bool :=
  s.office.ctxs.any (fun x => (s.regionsOf x.partition).any (fun r => !regionOn target trim r))

/-- What a region loses with its power: scratchpads, accumulators and its weight cache. -/
def State.regionOff (s : State) (r : Nat) : State :=
  (s.clearRun (0x8000000000 + 0x200000 * 64 * r) (0x200000 * 64)).clearRun (0x9000000000 + 0x1000000 * r) 0x1000000

/-- Entering Hold: sessions end with a Close, the data links go down, a running retraining completes, and the write-combining
buffers drain (20 R550, R551, 10 R269). -/
def State.enterHold (s : State) : State :=
  let s := s.net.sessions.foldl (fun s x => s.sendMsg x.id 0x02 0 0 []) s
  let s := (s.mem.chans.filter (fun c => c.session != 0)).foldl (fun s c => (s.trained c.id).closeSession c.id) s
  let s := s.mem.wcb.foldl (fun s e => s.retireWcb e) s
  ({ s with net := { s.net with
      sessions := []
      linkUp := [false, false]
      results := undelivered (fun _ => true) s.net.sessions s.net.results } } : State).bump 0x5050 5 1

/-- The module takes a power state: regions that lose power are off, and partitions that regain it start again (20 R550). A partition
that regains power from Trim takes a role committed meanwhile, as one that leaves Hold does (DESIGN CHOICE, log entry 172: 20 R550 gives the start of
19 R500 step 7 for leaving Hold only, and 01 R20 names resets). -/
def State.setPower (s : State) (target trim : Nat) : State :=
  let was := fun r => regionOn s.board.power s.board.trim r
  let s := if target == 2 && s.board.power != 2 then s.enterHold else s
  let off := (List.range 4).filter (fun r => was r && !regionOn target trim r)
  let on := (List.range s.office.layout).filter (fun p => (s.regionsOf p).any (fun r => !was r && regionOn target trim r))
  let s := off.foldl (fun s r => s.regionOff r) s
  let s : State := { s with board := { s.board with power := target, trim := trim } }
  on.foldl (fun s p => s.restartPart p) s

/-- The commit of the power pair (20 R549). -/
def applyPower (s : State) : Applied :=
  let target := s.staging 0x5040 1
  let trim := s.staging 0x5040 2
  if !s.powerAgrees target trim then (s, 0x01F1)
  else if s.powerBusy target trim then (s, 0x02FC)
  else if s.keepRefused != 0 then (s, s.keepRefused)
  else (((s.keep 0x5040 1 1 target).keep 0x5040 2 1 trim).setPower target trim, 0)

/-- A write of PowerCommit, where the staged target is one of `targets` or no state at all. -/
def State.writePower (s : State) (target value : Nat) : State :=
  let t := s.staging 0x5040 1
  if t != target && decide (t ≤ 2) then s else s.trigger 0x5040 3 true 1 1 value applyPower

/-- POWER_FULL (20 R549, R550). -/
def execPowerFull (value : Nat) (s : State) : Out := .next (s.writePower 0 value)

/-- POWER_TRIM (20 R549, R550). -/
def execPowerTrim (value : Nat) (s : State) : Out := .next (s.writePower 1 value)

/-- POWER_HOLD (20 R549, R550). -/
def execPowerHold (value : Nat) (s : State) : Out := .next (s.writePower 2 value)

/-! ## Power loss (18 R472, R474, 21 R571) -/

/-- Steps 2 to 6 of R472: a commit with a PowerLoss record, and a last-post set of the newest 256 KiB of each ring. -/
def State.powerLost (s : State) : State :=
  let r : Rec := ⟨0xB, 0, leBytes 8 s.cycle ++ leBytes 8 s.tod⟩
  (s.drew.commitWith [r]).storePosts [0, 1, 2, 3] 8192

/-- POWER_FALL (18 R472, 21 R571): before the firmware serves, the module stops without a commit. -/
def execPowerFall (s : State) : Out :=
  .next (
    let mv := s.free 0 % 33000
    let s1 : State := { s with board := { s.board with millivolts := mv } }
    match s.board.phase with
    | .serving =>
      let s := (((s1.drew.watch 0).bump 0x5111 3 1).raise 26 0).powerLost
      { s with
        board := { s.board with phase := .powerLoss }
        net := { s.net with linkUp := [false, false] } }
    | .heldInReset => { s1.drew with board := { s1.board with phase := .off } }
    | .bootstrap => { s1.drew with board := { s1.board with phase := .off } }
    | _ => s)

/-- The reset that PERST_N performs, from where the module stands: it then holds at step 2 of R569 (21 R570). -/
def State.perstReset (s : State) : State :=
  let hung := s.board.phase != .serving
  let s := (s.freeze 0 (unitCore 0) 5 false hung).bump 0x4003 4 1
  let s : State := { s with faults := { s.faults with lastCause := 0, resetTries := 1 } }
  let s := s.unitsReset.resetRouter
  { s with board := { s.board with phase := .heldInReset } }

/-- POWER_RETURN (18 R474, 21 R571): a chip reset follows the sequence, and a PERST_N that came meanwhile takes effect. -/
def execPowerReturn (s : State) : Out :=
  .next (
    if s.board.phase != .powerLoss then s
    else
      let mv := 36000 + s.free 0 % 12001
      let s : State := { s.drew with board := { s.board with phase := .serving, millivolts := mv } }
      if s.board.perstLow then s.perstReset else s.chipReset 0 (unitCore 0) false false false)

/-! ## Power-on (21 R569, 18 R476) -/

/-- What a module without power keeps: the store, the fuses, and what stands outside the module. -/
def State.coldState (s : State) (nandOk : Bool) : State :=
  let t : Store := { s.store with
    answers := nandOk
    running := []
    gddrImage := false
    pendingImage := none
    pending := []
    allowance := 67108864
    windowCounts := (0, 0, 0)
    imageBad := false }
  let life := s.sec.fuses.lifecycle
  { State.reset with
    pending := s.pending
    epoch := s.epoch
    fabric := { Router.init with out := s.fabric.out }
    net := { Courier.init with out := s.net.out, raw := s.net.raw }
    store := t
    sec := { Security.init with fuses := s.sec.fuses, level := if life == 0 then 2 else 0 }
    board := { s.board with warned := false, clockSteps := 0, power := 0, trim := 0, ref156 := true, ref100 := true } }

/-- The router domain comes up (21 R569 step 7). -/
def State.routerStart (s : State) : State :=
  { s with fabric := { Router.fresh (s.dget 0x2360 1) (s.dget 0x2360 2) (if s.fabricOn then s.dget 0x2362 4 else 0) with
    out := s.fabric.out } }

/-- Steps 3 to 8 of R569 after a loss of power: without an answer of the NAND device, Bootstrap with 0x08F5 logged. -/
def State.coldStart (s : State) (failed : List Nat) : State :=
  if s.board.perstLow then { s with board := { s.board with phase := .heldInReset } }
  else if !s.store.answers && s.sec.fuses.lifecycle != 4 then (s.log (unitChip 1) 0x08F5 5 0xFF 0).enterBootstrap
  else s.startUp failed

/-- POWER_ON (21 R569, 18 R476, 17 R430): the input rises from below its start voltage. -/
def execPowerOn (nandOk : Bool) (failedChannels : List Nat) (s : State) : Out :=
  .next (
    if s.board.phase == .serving || s.board.phase == .bootstrap || s.board.phase == .heldInReset then s
    else
      let failed := (failedChannels.filter (fun n => decide (n < 24))).eraseDups
      let mv := 36000 + s.free 0 % 12001
      let s := ((s.drew.coldState nandOk).reload).routerStart
      let s : State := { s with
        board := { s.board with millivolts := mv }
        ecat := { s.ecat with stationAlias := s.dget 0x2011 1 } }
      (s.watch 0).coldStart failed)

/-! ## PERST_N and references (21 R568, R570, R571) -/

/-- PERST (21 R570, R571). After a thermal trip the rails come back, and nothing but the store, the fuses and the EtherCAT path
was kept; without power, and while the module waits for its power to go, the pin alone changes. -/
def execPerst (s : State) : Out :=
  .next (
    let low : State := { s with board := { s.board with perstLow := true } }
    if s.board.perstLow then s
    else
      match s.board.phase with
      | .serving => low.perstReset
      | .stopped => low.perstReset
      | .bootstrap => low.perstReset
      | .tripped =>
        let t := ((low.coldState low.store.answers).reload).routerStart
        { t with
          ecat := s.ecat
          board := { t.board with phase := .heldInReset } }
      | _ => low)

/-- PERST_RELEASE (21 R570): the start goes on from step 3 of R569, which needs REFCLK100. -/
def execPerstRelease (s : State) : Out :=
  .next (
    let s : State := { s with board := { s.board with perstLow := false } }
    if s.board.phase != .heldInReset then s
    else
      let s : State := { s with board := { s.board with ref100 := true } }
      if !s.store.answers && s.sec.fuses.lifecycle != 4 then (s.log (unitChip 1) 0x08F5 5 0xFF 0).enterBootstrap
      else s.startUp [])

/-- REFCLK156_LOSS (21 R568). -/
def execRefclk156Loss (s : State) : Out :=
  .next (({ s with
    board := { s.board with ref156 := false }
    net := { s.net with linkUp := [false, false] } } : State).portsDown)

/-- REFCLK156_RETURN (21 R568): the ports then come up as SIGNAL_DETECT and DATA_PORT_LINK_UP say. -/
def execRefclk156Return (s : State) : Out := .next { s with board := { s.board with ref156 := true } }

/-- REFCLK100_LOSS (21 R568): every island stops; the input lost later finds nothing to commit. -/
def execRefclk100Loss (s : State) : Out :=
  .next (
    let t : State := { s with board := { s.board with ref100 := false } }
    match s.board.phase with
    | .serving => { t with board := { t.board with phase := .stopped } }
    | .bootstrap => { t with board := { t.board with phase := .stopped } }
    | _ => t)

/-! ## Sensors (21 R557, R560, R573, R574). Temperatures are in 1/16 °C. -/

/-- Degrees Celsius in the sensors' unit. -/
def degrees (n : Nat) : Nat := 16 * n

/-- New temperatures: above 95 °C the warning is set, and below 92 °C it clears. -/
def State.sense (s : State) (die device : Nat) : State :=
  let hot := decide (degrees 95 < die) || decide (degrees 95 < device)
  let cool := decide (die < degrees 92) && decide (device < degrees 92)
  ({ s with board := { s.board with
      dieTemp := die
      deviceTemp := device
      warned := if hot then true else if cool then false else s.board.warned } } : State).watch 0

/-- THERMAL_WARNING (21 R573, 19 R513). -/
def execThermalWarning (die device : Nat) (s : State) : Out := .next (s.sense die device)

/-- THROTTLE_STEP (21 R573): the compute clocks go down one step, to eight steps of 6.25 % at most, or up one. -/
def execThrottleStep (die device power : Nat) (s : State) : Out :=
  .next (
    let s := s.sense die device
    let n := s.board.clockSteps
    let beyond := decide (degrees 100 < die) || decide (degrees 100 < device) || decide (1500 < power)
    let m := if beyond then min 8 (n + 1) else if die < degrees 98 then n - 1 else n
    { s with board := { s.board with watts := power, clockSteps := m } })

/-- THERMAL_TRIP (21 R573): steps 2 to 6 of R472, and then only the EtherCAT forwarding path has power. -/
def execThermalTrip (die device : Nat) (s : State) : Out :=
  .next (
    let trip := decide (degrees 110 < die) || decide (degrees 105 < device)
    let s1 := s.sense die device
    if !trip then s1
    else
      match s.board.phase with
      | .serving =>
        let s := s1.powerLost
        { s with
          board := { s.board with phase := .tripped }
          net := { s.net with linkUp := [false, false] } }.portsDown
      | .bootstrap => { s1 with board := { s1.board with phase := .tripped } }
      | .stopped => { s1 with board := { s1.board with phase := .tripped } }
      | .heldInReset => { s1 with board := { s1.board with phase := .tripped } }
      | _ => s1)

/-- INPUT_VOLTAGE_OUT_OF_RANGE (21 R557, 19 R513): the sampled input; below 33 V another row acts. -/
def execInputVoltageOutOfRange (millivolts : Nat) (s : State) : Out :=
  .next (
    if millivolts < 33000 then s
    else ({ s with board := { s.board with millivolts := millivolts } } : State).watch 0)

/-! ## FoE (17 R444, R445) -/

/-- An FoE mailbox of an operation: 2 write, 3 data, 4 acknowledgement, 5 error. -/
def foeMailbox (op number : Nat) (data : Bytes) : Bytes := mailbox 4 (leBytes 1 op ++ leBytes 1 0 ++ leBytes 4 number ++ data)

/-- A digit as the error text writes it. -/
def hexDigit (n : Nat) : Byte := BitVec.ofNat 8 (if n < 10 then 48 + n else 55 + n)

/-- The six characters of a status code. -/
def statusText (c : Nat) : Bytes :=
  ascii "0x" ++ [hexDigit (c / 4096 % 16), hexDigit (c / 256 % 16), hexDigit (c / 16 % 16), hexDigit (c % 16)]

def State.foeError (s : State) (code status : Nat) : State := s.placeSm1 (foeMailbox 5 code (statusText status))

/-- FoE data packets of at most 1,012 bytes, the last one shorter, numbered from 1. -/
def foePackets (b : Bytes) : List Bytes :=
  let l := chunks 1012 b
  let l := if b.length % 1012 == 0 then l ++ [[]] else l
  (List.range l.length).map (fun i => foeMailbox 3 (i + 1) (l.getD i []))

/-- The place that a file name gives after `stem`: 0 for the stem alone, else its decimal number. -/
def fileIndex (stem : String) (name : Bytes) (limit : Nat) : Option Nat :=
  let n := stem.length
  if name == ascii stem then some 0
  else if name.take (n + 1) != ascii stem ++ [46] then none
  else (List.range limit).find? (fun i => name.drop (n + 1) == ascii (toString i))

/-- The file that FOE_READ names: a cullet or a last-post part, if it is there. -/
def State.foeFile (s : State) (name : Bytes) : Option Bytes :=
  match fileIndex "cullet" name 16 with
  | some i => (s.store.cullets.reverse[i]?).map (fun x => x.bytes)
  | none =>
    match (List.range 4).find? (fun r => name == ascii "lastpost." ++ ascii (toString r)) with
    | some r =>
      ((s.store.lastPosts.reverse.map (fun x => x.parts.getD r [])).find? (fun b => b != []))
    | none => none

/-- FOE_READ (17 R444, R445). -/
def execFoeRead (password : Nat) (name : Bytes) (s : State) : Out :=
  .next (
    if !s.mailboxUp && s.board.phase != .bootstrap then s
    else if password != 0 || name == ascii "firmware" then s.foeError 0x8004 0x01F0
    else if s.board.phase == .bootstrap then s.foeError 0x8001 0x01F0
    else
      match s.foeFile name with
      | none => s.foeError 0x8001 0x01F0
      | some b => ((foePackets b).foldl (fun s m => s.placeSm1 m) s).bump 0x3250 5 b.length)

/-- Why an image is refused before it is placed: its status code and FoE error code, 0 where it may be placed (18 R481, R482,
R484). -/
def State.imageRefused (s : State) (b : Bytes) : Nat × Nat :=
  let code := s.sec.fuses.checkImage b
  if 33554432 < imgLength b then (0x02F4, 0x8003)
  else if !imgHeaderOk b then (0x01F4, 0x800B)
  else if s.store.condition == 2 then (0x08F4, 0x8003)
  else if s.store.condition == 1 then (0x02F4, 0x8003)
  else if 4 ≤ s.store.windowCounts.2.2 then (0x02F5, 0x8003)
  else if code != 0 then (code, 0x800B)
  else (0, 0)

/-- Place a verified image (18 R484 steps 4 to 7). In Bootstrap the start goes on with it (18 R488). -/
def State.takeImage (s : State) (b : Bytes) (readBack : Nat) : State :=
  let w := s.store.windowCounts
  let r := ({ s with store := { s.store with windowCounts := (w.1, w.2.1, w.2.2 + 1) } } : State).placeImage b 2 readBack
  let s := (r.1.bump 0x3250 5 b.length)
  if r.2 != 0 then s.foeError 0x800B r.2
  else
    let s := s.placeSm1 (foeMailbox 4 (b.length / 1012 + 1) [])
    if s.board.phase == .bootstrap then
      ({ s with store := { s.store with answers := true } } : State).serve []
    else { s with store := { s.store with pendingImage := some b, gddrImage := true } }

/-- FOE_WRITE_FIRMWARE (17 R444, R445, 18 R484, R487, R488): `readBack` says how many read-backs in a row do not match. -/
def execFoeWriteFirmware (password readBack : Nat) (image : Bytes) (s : State) : Out :=
  .next (
    if !s.mailboxUp && s.board.phase != .bootstrap then s
    else if password != 0 then s.foeError 0x8004 0x01F0
    else
      let r := s.imageRefused image
      if r.1 != 0 then s.foeError r.2 r.1 else s.takeImage image readBack)

/-- The write of ActivateFirmware (18 R485). -/
def applyActivate (s : State) : Applied :=
  match s.store.pendingImage with
  | none => (s, 0x01F5)
  | some b =>
    if !(decide (imgLiveFrom b ≤ imgState s.store.running) && decide (imgState s.store.running ≤ imgState b)) then (s, 0x01F6)
    else
      let s := s.commit
      ({ s with store := { s.store with running := b, pendingImage := none } }, 0)

/-- ACTIVATE_FIRMWARE (18 R485 to R487): no job, session, stream or link ends. -/
def execActivateFirmware (value : Nat) (s : State) : Out :=
  .next (s.trigger 0x5100 1 false 1 1 value applyActivate)

end Sys2Proof.Machine
end

