-- ==== Sys2Proof/Machine/Dictionary.lean ====
section
/-! DEFINITION. Dictionary: what each entry reads, what a write does, and the SDO rows (17 R434 to R458). -/

namespace Sys2Proof.Machine
open Sys2Proof

/-! ## Values of entries that are not plain registers -/

/-- 0x3001:01 StatusWord (17 R442). -/
def State.statusWord (s : State) : Nat :=
  (if s.board.phase == .serving then 1 else 0) + (if s.alert then 2 else 0) + 4 * (s.board.power % 4) +
    (if s.store.pendingImage.isSome then 16 else 0)

def PState.code : PState → Nat
  | .disabled => 0
  | .down => 1
  | .training => 2
  | .aligning => 3
  | .exchanging => 4
  | .active => 5
  | .changing => 6

/-- PortState (12 R325). -/
def Port.stateWord (p : Port) : Nat :=
  p.st.code + 16 * (p.width % 8) + 128 * (p.lanes % 16) + (if p.miswired then 2048 else 0)

/-- Sequences that wait for a slot (11 R281). -/
def State.sequencesWaiting (s : State) : Nat :=
  let need := s.office.ctxs.filter (fun x => x.state == .waiting || (x.state == .suspended && !x.held))
  (((need.map (fun x => (x.client, x.seqTag))).eraseDups).filter (fun q => !s.office.seqSlots.contains (some q))).length

/-- The log entry that LogSelect names (19 R508). -/
def State.selectedLog (s : State) : Option LogEntry :=
  (s.faults.log ++ s.faults.memLog).find? (fun e => e.number == s.dget 0x4002 2)

/-- Stream engines in bulk mode (10 R265): those of partitions in recovery, and every one while the module starts or recovers from
a chip reset, or while a memory test holds `bulk`. -/
def State.bulkEngines (s : State) : Nat :=
  ((List.range 32).filter (fun b => !s.isFenced (unitEngine b) &&
    (s.mem.bulk || s.board.phase != .serving || s.faults.annealing.contains (s.partOfRegion (b / 8))))).length

/-- The number that a read-only entry shows now; none for an entry that is a register or a counter of its own. -/
def State.shownNum (s : State) (idx sub : Nat) : Option Nat :=
  let client := s.dget 0x3200 1
  match idx, sub with
  | 0x1000, 0 => some 0
  | 0x1010, 1 => some 3
  | 0x1011, 1 => some 1
  | 0x1018, 1 => some 0xA7E
  | 0x1018, 2 => some 0x481200A1
  | 0x1018, 3 => some revisionNumber
  | 0x1018, 4 => some s.sec.fuses.serial
  | 0x2301, 1 => some s.office.layout
  | 0x2301, k => some (s.role (k - 2))
  | 0x2340, 7 => some s.mem.windowBytes
  | 0x2340, 8 => some s.mem.reserveBase
  | 0x2350, 7 => some (s.mem.reserveBase + Config.contextTable.toNat % (4 * 2 ^ 30 - 2 ^ 27 + 1))
  | 0x2360, 4 => some s.node
  | 0x3000, 1 => some (s.board.dieTemp % 65536).toNat
  | 0x3000, 2 => some (s.board.millivolts % 65536)
  | 0x3000, 3 => some (s.board.watts % 65536)
  | 0x3001, 1 => some s.statusWord
  | 0x3001, 2 => some s.office.ctxs.length
  | 0x3001, 3 => some (imgVersion s.store.running)
  | 0x31C0, 17 => some s.bulkEngines
  | 0x31D0, 8 => some (s.office.ctxs.filter (fun x => x.state == .live)).length
  | 0x31D0, 9 => some (s.office.ctxs.filter (fun x => x.state == .suspended)).length
  | 0x31D0, 10 => some s.sequencesWaiting
  | 0x31E1, k => some ((s.intake.dicts.getD (k - 1) DictSlot.empty).tag.getD 0xFFFFFFFF)
  | 0x31F1, 1 => some s.streamsOpen
  | 0x31F1, 2 => some s.slotsInUse
  | 0x3200, 2 => some (s.office.ctxs.filter (fun x => x.client == client)).length
  | 0x3200, 3 => some (kvGet client 0 s.office.lifetime)
  | 0x3200, 4 => some (s.quota client)
  | 0x3220, k => some (s.port (k - 1)).stateWord
  | 0x3221, k => some (s.port (k - 1)).neighbour
  | 0x3240, 7 => some s.net.sessions.length
  | 0x3231, 1 => some s.coll.ctrlState
  | 0x3231, 3 => some s.coll.ctrlSource
  | 0x4000, 1 => some s.faultSummary
  | 0x4001, 1 => some s.ecat.lastAbort.1
  | 0x4001, 2 => some s.ecat.lastAbort.2.1
  | 0x4001, 3 => some s.ecat.lastAbort.2.2
  | 0x4002, 1 => some (s.faults.logNext - 1)
  | 0x4011, 1 => some s.faults.fences.length
  | 0x4040, 2 => some s.faults.lastCause
  | 0x5000, 1 => some s.sec.fuses.lifecycle
  | 0x5000, 2 => some s.sec.fuses.revoked
  | 0x5000, 3 => some s.sec.fuses.secVer
  | 0x5000, 9 => some (imgSlot s.store.running)
  | 0x5001, 2 => some (s.sec.identity.elim 0 (fun x => x.generation))
  | 0x5002, 2 => some s.sec.attState
  | 0x5020, 3 => some s.sec.tokenState
  | 0x5020, 4 => some s.sec.tokenResult
  | 0x5030, 1 => some s.sec.level
  | 0x5040, 4 => some s.board.power
  | 0x5040, 5 => some s.board.trim
  | 0x5100, 2 => some (s.store.pendingImage.elim 0 imgVersion)
  | 0x5100, 3 => some (s.store.image.elim 0 (fun i => imgVersion i.bytes))
  | 0x5110, 1 => some 100000
  | 0x5110, 2 => some s.store.eraseRange.1
  | 0x5110, 3 => some s.store.eraseMean
  | 0x5110, 4 => some s.store.factoryBad
  | 0x5110, 5 => some s.store.grownBad
  | 0x5110, 6 => some s.store.freeBlocks
  | 0x5110, 7 => some s.store.nandBytes
  | 0x5110, 8 => some (s.store.eraseMean * 1000 / 100000)
  | 0x5110, 9 => some s.store.condition
  | 0x5110, 10 => some s.store.commitSeq
  | _, _ => none

/-- The bytes that a read-only string shows now, or the status code for which its read is aborted. -/
def State.shownBytes (s : State) (idx sub : Nat) : Option (Bytes × Nat) :=
  match idx, sub with
  | 0x1008, 0 => some (ascii "OPW-4812-A1", 0)
  | 0x1009, 0 => some ([BitVec.ofNat 8 Config.revisionLetter, BitVec.ofNat 8 (48 + Config.revisionDigit)], 0)
  | 0x100A, 0 => some (fit 16 (Config.versionText (imgVersion s.store.running)), 0)
  | 0x23A1, 4 => some (beBytes 6 (Config.macAddress 0).toNat, 0)
  | 0x23A1, 5 => some (beBytes 6 (Config.macAddress 1).toNat, 0)
  | 0x3231, 2 => some (fit 64 s.coll.ctrlResult, 0)
  | 0x4002, 3 => some (s.selectedLog.elim ([], 0x01F8) (fun e => (e.bytes, 0)))
  | 0x4011, 3 => some (s.faults.fences[s.dget 0x4011 2]?.elim ([], 0x01F8) (fun f => (f.bytes, 0)))
  | 0x5000, k => some (leBytes 64 (s.sec.fuses.keyHash.getD (k - 4) 0), 0)
  | 0x5001, 1 => some (s.sec.identity.elim (leBytes 133 0) (fun x => x.pub), 0)
  | 0x5001, 5 =>
    some ((s.sec.rotations.find? (fun r => r.1 == s.dget 0x5001 4)).elim ([], 0x01F0) (fun r => (r.2, 0)))
  | 0x5002, 3 => some (if s.sec.attState == 2 then (fit 320 s.sec.attReport, 0) else ([], 0x02FC))
  | _, _ => none

/-- What a read of an entry gives: its bytes, or a status code (17 R446, R450). -/
def State.readEntry (s : State) (e : Entry) : Bytes × Nat :=
  match s.shownNum e.idx e.sub with
  | some v => if e.ty == .num || e.ty == .int then (leBytes e.width v, 0) else (s.shownBytes e.idx e.sub).getD ([], 0)
  | none =>
    match s.shownBytes e.idx e.sub with
    | some r => r
    | none =>
      (leBytes e.width (if e.own == .member then s.staging e.idx e.sub
        else if e.acc == .ro then s.count e.idx e.sub else s.dget e.idx e.sub), 0)

/-! ## Records and PDO objects -/

def entriesOf (idx : Nat) : List Entry := dictTable.filter (fun e => e.idx == idx)

/-- An index whose entries are subindexes of a record. -/
def isRecord (idx : Nat) : Bool := (entriesOf idx).any (fun e => e.sub != 0)

/-- The highest subindex of a record, which its subindex 0 reads. -/
def lastSub (idx : Nat) : Nat := (entriesOf idx).foldl (fun n e => max n e.sub) 0

/-- The PDO objects (17 R439): their entries' width and their entries. -/
def State.pdoObject (s : State) (idx : Nat) : Option (Nat × List Nat) :=
  match idx with
  | 0x1600 => some (4, [0x20100140])
  | 0x1A00 => some (4, [0x30010110, 0x40000140, 0x30000110, 0x30000310, 0x30010220])
  | 0x1A01 => some (4, s.ecat.pdo1A01)
  | 0x1C12 => some (2, s.ecat.assign2)
  | 0x1C13 => some (2, s.ecat.assign3)
  | _ => none

/-- An entry may be mapped into 0x1A01 (17 R440). -/
def Entry.mappable (e : Entry) : Bool :=
  e.acc == .ro && (e.ty == .num || e.ty == .int) && decide (0x3000 ≤ e.idx) && decide (e.idx ≤ 0x4FFF)

/-- The entry that a mapping word names, where its length is the entry's. -/
def mappedEntry (w : Nat) : Option Entry :=
  match findEntry (w / 65536) (w / 256 % 256) with
  | some e => if w % 256 == 8 * e.width then some e else none
  | none => none

/-- A list of mappings or assignments is legal: 0, or the abort code (17 R439, R440, R456). -/
def pdoFlaw (idx : Nat) (l : List Nat) : Nat :=
  if idx == 0x1A01 then
    let es := l.map (fun w => (mappedEntry w).filter (fun e => e.mappable))
    if es.any (fun e => e.isNone) then 0x06040041
    else if decide (32 < l.length) || decide (256 < total (es.map (fun e => e.elim 0 (fun e => e.width)))) then 0x06040042
    else 0
  else if idx == 0x1C12 then (if l == [] || l == [0x1600] then 0 else 0x06040041)
  else if l == [] || l == [0x1A00] || l == [0x1A01] || l == [0x1A00, 0x1A01] then 0 else 0x06040041

/-- Write a PDO object whole: legal, and in PreOp only. -/
def State.writePdo (s : State) (idx sub : Nat) (l : List Nat) : State :=
  let flaw := pdoFlaw idx l
  if flaw != 0 then s.abort idx sub flaw 0x01F2
  else if s.ecat.al != 2 then s.abort idx sub 0x08000022 0
  else
    let e := s.ecat
    let e := match idx with
      | 0x1A01 => { e with pdo1A01 := l }
      | 0x1C12 => { e with assign2 := l }
      | _ => { e with assign3 := l }
    s.answerWrite idx sub false ({ s with ecat := e }, 0)

/-- PDO_MAPPING (17 R439, R440). -/
def execPdoMapping (index : Nat) (entries : List Nat) (s : State) : Out :=
  .next (
    if !s.mailboxUp || !(index == 0x1A01 || index == 0x1C12 || index == 0x1C13) then s else s.writePdo index 0 entries)

/-! ## Writes (17 R446 to R451) -/

/-- The partitions pair agrees (17 R452). -/
def State.layoutAgrees (s : State) : Bool :=
  let n := s.staging 0x2300 1
  (n == 1 || n == 2 || n == 4) && (List.range 4).all (fun p =>
    let r := s.staging 0x2300 (2 + p)
    if p < n then decide (1 ≤ r) && decide (r ≤ 3) else r == 0)

/-- The commit of the partitions pair: each value takes effect at its reset (17 R451, R452, 01 R17 to R20). -/
def applyLayout (s : State) : Applied :=
  if !s.layoutAgrees then (s, 0x01F1)
  else if s.keepRefused != 0 then (s, s.keepRefused)
  else ((List.range 5).foldl (fun t i => t.keep 0x2300 (1 + i) 1 (s.staging 0x2300 (1 + i))) s, 0)

/-- LAYOUT_COMMIT (17 R451, R452). -/
def execLayoutCommit (value : Nat) (s : State) : Out := .next (s.trigger 0x2300 6 true 1 1 value applyLayout)

/-- Commit entries of pairs (17 R451). -/
def isCommit (idx sub : Nat) : Bool :=
  [dkey 0x2300 6, dkey 0x2351 3, dkey 0x2360 3, dkey 0x2361 3, dkey 0x4010 3, dkey 0x5040 3].contains (dkey idx sub)

/-- A value outside an entry's stated range (17 R446, R447). -/
def State.outOfRange (s : State) (e : Entry) (v : Nat) : Bool :=
  decide (v < e.lo) || decide (e.hi < v) || (e.idx == 0x2300 && e.sub == 1 && !(v == 1 || v == 2 || v == 4)) ||
    (e.idx == 0x4011 && e.sub == 2 && decide (s.faults.fences.length ≤ v))

/-- A write that takes effect as the entry states, for entries that a record can hold beside writable ones only: 0, or a status
code. -/
def State.quietWrite (s : State) (e : Entry) (b : Bytes) : Applied :=
  let v := leNat b
  if s.outOfRange e v then (s, 0x01F0)
  else
    match e.own with
    | .member => ({ s with staged := kvSet (dkey e.idx e.sub) v s.staged }, 0)
    | .plain =>
      if !e.keep then (s.dset e.idx e.sub v, 0)
      else if s.keepRefused != 0 then (s, s.keepRefused)
      else (s.keep e.idx e.sub e.width v, 0)
    | .trigger =>
      match e.idx, e.sub with
      | 0x1010, 1 => applyStoreAll v s
      | 0x1011, 1 => applyRestore v s
      | 0x2300, 6 => applyLayout s
      | 0x2351, 3 => applyQuota s
      | 0x2361, 3 => applyRoute s
      | 0x2361, 4 => applyRouteDefaults s
      | 0x2362, 3 => applyLaneRetrain v s
      | 0x2362, 4 => applyPortEnable v s
      | 0x2371, 3 => applyCtrlStart v s
      | 0x4010, 3 => applyFence s
      | 0x5031, 2 => applyDebugWrite b s
      | _, _ => (s, 0)

/-- The state that an answer leaves. -/
def Out.state (s : State) : Out → State
  | .next t => t
  | _ => s

/-- A write to an entry that has a row of its own acts as that row. A fuse that it blows reads back. -/
def State.rowWrite (s : State) (e : Entry) (b : Bytes) : State :=
  let v := leNat b
  let op := leAt b 4 1
  match e.idx, e.sub with
  | 0x2340, 6 => (execRetrainRequest v s).state s
  | 0x2350, 4 => (execSuspendContext v s).state s
  | 0x2350, 5 => (execResumeContext v s).state s
  | 0x2350, 6 => (execSuspendPartition v s).state s
  | 0x2360, 3 => (execNodeCommit v s).state s
  | 0x2360, 7 => (execRouterReset v s).state s
  | 0x4000, 3 => (execFaultClear v s).state s
  | 0x4040, 1 => s.writeReset v
  | 0x5000, 8 => (execRaiseSecurityVersion v true s).state s
  | 0x5001, 3 => (execRotateIdentity v s).state s
  | 0x5001, 6 => if v == 2 then (execProvisionScrap v true s).state s else (execProvision v true s).state s
  | 0x5002, 1 => (execAttestNonce b s).state s
  | 0x5020, 2 =>
    if op == 2 then (execUnlockFull b s).state s
    else if op == 3 then (execToField b true s).state s
    else if op == 4 then (execToReturned b true s).state s
    else if op == 5 then (execToScrapped b true s).state s
    else if op == 6 then (execRevoke b true s).state s
    else (execUnlockObserve b s).state s
  | 0x5030, 2 => (execRelock v s).state s
  | 0x5031, 2 => (execDebugDataWrite b s).state s
  | 0x5040, 3 => s.writePower (s.staging 0x5040 1) v
  | 0x5100, 1 => (execActivateFirmware v s).state s
  | i, j => s.answerWrite i j (isCommit i j) (s.quietWrite e b)

/-- The index and subindex do not name an entry: the abort code, 0 where they do (17 R456). -/
def noEntry (idx sub : Nat) : Nat :=
  if entriesOf idx == [] then 0x06020000
  else if (findEntry idx sub).isSome || (sub == 0 && isRecord idx) then 0
  else 0x06090011

/-- A download of one entry (17 R435, R456). -/
def State.download (s : State) (idx sub : Nat) (b : Bytes) : State :=
  match findEntry idx sub with
  | none => s.abort idx sub (if noEntry idx sub == 0 then 0x06010002 else noEntry idx sub) 0
  | some e =>
    if e.acc == .ro then s.abort idx sub 0x06010002 0
    else if b.length != e.width then s.abort idx sub 0x06070010 0
    else if e.own == .trigger then s.rowWrite e b
    else s.answerWrite idx sub false (s.quietWrite e b)

/-- The entries of a record that a complete access covers, with their bytes: those of subindex 0 come first, two bytes wide. -/
def cutRecord : List Entry → Bytes → List (Entry × Bytes)
  | [], _ => []
  | e :: l, b => (e, b.take e.width) :: cutRecord l (b.drop e.width)

/-- Writes one after another until one is refused: the machine, the code and the subindex at which it ended. -/
def State.writeAll (s : State) (l : List (Entry × Bytes)) : State × Nat × Nat :=
  l.foldl (fun acc x =>
    if acc.2.1 != 0 then acc
    else
      let q := acc.1.quietWrite x.1 x.2
      (q.1, q.2, x.1.sub)) (s, 0, 0)

/-- A download of a whole record (17 R435): every subindex, or none of them. -/
def State.downloadAll (s : State) (idx sub : Nat) (b : Bytes) : State :=
  let es := (entriesOf idx).filter (fun e => e.sub != 0)
  let body := if sub == 0 then b.drop 2 else b
  let want := total (es.map (fun e => e.width)) + (if sub == 0 then 2 else 0)
  if es == [] then s.abort idx sub (if entriesOf idx == [] then 0x06020000 else 0x06090011) 0
  else if 2 ≤ sub then s.abort idx sub 0x06090011 0
  else
    match es.find? (fun e => e.acc == .ro) with
    | some e => s.abort idx e.sub 0x06010002 0
    | none =>
      if b.length != want then s.abort idx sub 0x06070010 0
      else if sub == 0 && leNat (b.take 2) != lastSub idx then s.abort idx 0 0x06010002 0
      else
        let r := s.writeAll (cutRecord es body)
        if r.2.1 != 0 then s.abort idx r.2.2 (abortCode (isCommit idx r.2.2) r.2.1) r.2.1
        else s.answerWrite idx sub false (r.1, 0)

/-- A PDO object written through its subindexes: 0 cuts the list, and k sets its k-th entry (17 R440). -/
def State.downloadPdo (s : State) (idx sub : Nat) (complete : Bool) (width : Nat) (l : List Nat) (b : Bytes) : State :=
  if idx == 0x1600 || idx == 0x1A00 then s.abort idx sub 0x06010002 0
  else if complete then
    (if b.length % width != (2 % width) || decide (b.length < 2) || leNat (b.take 2) != (b.length - 2) / width then
      s.abort idx sub 0x06070010 0
    else s.writePdo idx sub ((chunks width (b.drop 2)).map leNat))
  else if sub == 0 then
    (if b.length != 1 then s.abort idx 0 0x06070010 0
    else if l.length < leNat b then s.abort idx 0 (if idx == 0x1A01 then 0x06040042 else 0x06040041) 0x01F2
    else s.writePdo idx 0 (l.take (leNat b)))
  else if l.length + 1 < sub then s.abort idx sub 0x06090011 0
  else if b.length != width then s.abort idx sub 0x06070010 0
  else s.writePdo idx sub (l.take (sub - 1) ++ [leNat b] ++ l.drop sub)

/-- SDO_DOWNLOAD (17 R434, R435, R446 to R458). -/
def execSdoDownload (index sub : Nat) (complete : Bool) (b : Bytes) (s : State) : Out :=
  .next (
    if !s.mailboxUp then s
    else
      match s.pdoObject index with
      | some (w, l) => s.downloadPdo index sub complete w l b
      | none => if complete && isRecord index then s.downloadAll index sub b else s.download index sub b)

/-- DICT_WRITE (17 R446 to R448): a write to an entry without a row of its own. -/
def execDictWrite (index sub : Nat) (b : Bytes) (s : State) : Out :=
  .next (
    if !s.mailboxUp || (s.pdoObject index).isSome then s
    else
      match findEntry index sub with
      | some e =>
        if e.own == .trigger && e.acc != .ro && !(index == 0x2371 && sub == 3) then s else s.download index sub b
      | none => s.download index sub b)

/-! ## Uploads -/

/-- An upload of one entry (17 R446, R450, R456). -/
def State.uploadOne (s : State) (idx sub : Nat) : State :=
  match findEntry idx sub with
  | none =>
    if noEntry idx sub == 0 then s.upload idx 0 (leBytes 1 (lastSub idx)) else s.abort idx sub (noEntry idx sub) 0
  | some e =>
    if e.acc == .wo then s.abort idx sub 0x06010001 0
    else if idx == 0x5020 && sub == 1 then (execChallenge s).state s
    else if idx == 0x5031 && sub == 2 then (execDebugDataRead s).state s
    else
      let r := s.readEntry e
      if r.2 != 0 then s.abort idx sub (abortCode false r.2) r.2 else s.upload idx sub r.1

/-- An upload of a whole record: a subindex that cannot be read aborts it. -/
def State.uploadAll (s : State) (idx sub : Nat) : State :=
  let es := (entriesOf idx).filter (fun e => e.sub != 0)
  let head := if sub == 0 then leBytes 2 (lastSub idx) else []
  if 2 ≤ sub then s.abort idx sub 0x06090011 0
  else
    match es.find? (fun e => e.acc == .wo) with
    | some e => s.abort idx e.sub 0x06010001 0
    | none =>
      if idx == 0x5031 then
        (if s.debugCode 1 != 0 then s.abort idx 2 (abortCode false (s.debugCode 1)) (s.debugCode 1)
        else s.upload idx sub (head ++ leBytes 8 (s.dget 0x5031 1) ++ s.readBytes (s.dget 0x5031 1) 64))
      else
        match es.find? (fun e => (s.readEntry e).2 != 0) with
        | some e => s.abort idx e.sub (abortCode false (s.readEntry e).2) (s.readEntry e).2
        | none => s.upload idx sub (head ++ es.flatMap (fun e => (s.readEntry e).1))

/-- SDO_UPLOAD (17 R434, R446, R449 to R458). -/
def execSdoUpload (index sub : Nat) (complete : Bool) (s : State) : Out :=
  .next (
    if !s.mailboxUp then s
    else
      match s.pdoObject index with
      | some (w, l) =>
        if complete then s.upload index sub (leBytes 2 l.length ++ l.flatMap (leBytes w))
        else if sub == 0 then s.upload index 0 (leBytes 1 l.length)
        else if l.length < sub then s.abort index sub 0x06090011 0
        else s.upload index sub (leBytes w (l.getD (sub - 1) 0))
      | none => if complete && isRecord index then s.uploadAll index sub else s.uploadOne index sub)

/-- SDO_TRANSFER_TIMEOUT (17 R435): the segmented transfer is abandoned, and changes nothing. -/
def execSdoTransferTimeout (s : State) : Out :=
  .next (
    match s.ecat.segmented with
    | some (idx, sub) =>
      if s.mailboxUp then ({ s with ecat := { s.ecat with segmented := none } } : State).abort idx sub 0x05040000 0 else s
    | none => s)

/-! ## SDO information (17 R436, R437) -/

def Entry.typeCode (e : Entry) : Nat :=
  match e.ty with
  | .int => 0x0003
  | .vis => 0x0009
  | .oct => 0x000A
  | .num => if e.width == 1 then 0x0005 else if e.width == 2 then 0x0006 else if e.width == 4 then 0x0007 else 0x001B

/-- ObjAccess of an entry. -/
def Entry.objAccess (e : Entry) : Nat :=
  (if e.acc == .wo then 0 else 7) + (if e.acc == .ro then 0 else 56) + (if e.idx == 0x2010 then 64 else 0) +
    (if e.mappable then 128 else 0) + (if e.keep then 256 else 0)

/-- Indexes of the dictionary, in order, PDO objects among them. -/
def allIndexes : List Nat :=
  let l := (dictTable.map (fun e => e.idx)).eraseDups
  l.filter (fun i => decide (i < 0x1600)) ++ [0x1600, 0x1A00, 0x1A01, 0x1C12, 0x1C13] ++
    l.filter (fun i => decide (0x1600 < i))

/-- Indexes of an object list: 1 all, 2 RxPDO mappable, 3 TxPDO mappable, 4 persistent; 5 settings, of which none is given. -/
def indexList (kind : Nat) : List Nat :=
  let having := fun (p : Entry → Bool) => allIndexes.filter (fun i => (entriesOf i).any p)
  match kind with
  | 1 => allIndexes
  | 2 => having (fun e => e.idx == 0x2010)
  | 3 => having Entry.mappable
  | 4 => having (fun e => e.keep)
  | _ => []

/-- An SDO information mailbox of an operation. -/
def infoMailbox (op : Nat) (data : Bytes) : Bytes := coeMailbox 8 (leBytes 1 op ++ leBytes 1 0 ++ leBytes 2 0 ++ data)

/-- The object description of an index: a record (9) or a variable (7). -/
def describeObject (idx : Nat) (pdo : Option (Nat × List Nat)) : Option Bytes :=
  match pdo with
  | some (_, l) => some (leBytes 2 idx ++ leBytes 2 0 ++ leBytes 1 l.length ++ leBytes 1 9)
  | none =>
    match entriesOf idx with
    | [] => none
    | e :: _ =>
      if isRecord idx then some (leBytes 2 idx ++ leBytes 2 0 ++ leBytes 1 (lastSub idx) ++ leBytes 1 9)
      else some (leBytes 2 idx ++ leBytes 2 e.typeCode ++ leBytes 1 0 ++ leBytes 1 7 ++ ascii e.name)

/-- The entry description of a subindex. -/
def describeEntry (idx sub : Nat) (pdo : Option (Nat × List Nat)) : Option Bytes :=
  let head := leBytes 2 idx ++ leBytes 1 sub ++ leBytes 1 0
  match pdo with
  | some (w, _) =>
    let access := 7 + (if idx == 0x1600 || idx == 0x1A00 then 0 else 8)
    some (head ++ leBytes 2 (if sub == 0 then 5 else if w == 2 then 6 else 7) ++ leBytes 2 (if sub == 0 then 8 else 8 * w) ++
      leBytes 2 access)
  | none =>
    match findEntry idx sub with
    | some e =>
      some (head ++ leBytes 2 e.typeCode ++ leBytes 2 (8 * e.width) ++ leBytes 2 e.objAccess ++ ascii e.name)
    | none =>
      if sub == 0 && isRecord idx then some (head ++ leBytes 2 5 ++ leBytes 2 8 ++ leBytes 2 7) else none

/-- SDO_INFORMATION (17 R436): `op` 1 asks for an object list of kind `index`, 3 for an object, 5 for an entry; the answers have
the next operation code, and 7 tells an error. -/
def execSdoInformation (op index sub : Nat) (s : State) : Out :=
  .next (
    let error := fun (code : Nat) => s.placeSm1 (infoMailbox 7 (leBytes 4 code))
    if !s.mailboxUp then s
    else if op == 1 then
      (if index == 0 then
        s.placeSm1 (infoMailbox 2 (leBytes 2 0 ++ (List.range 5).flatMap (fun k => leBytes 2 (indexList (k + 1)).length)))
      else if 5 < index then error 0x06020000
      else s.placeSm1 (infoMailbox 2 (leBytes 2 index ++ (indexList index).flatMap (leBytes 2))))
    else if op == 3 then
      (match describeObject index (s.pdoObject index) with
      | some b => s.placeSm1 (infoMailbox 4 b)
      | none => error 0x06020000)
    else if op == 5 then
      (match describeEntry index sub (s.pdoObject index) with
      | some b => s.placeSm1 (infoMailbox 6 b)
      | none => error (if entriesOf index == [] then 0x06020000 else 0x06090011))
    else error 0x05040001)

end Sys2Proof.Machine
end

