-- ==== Sys2Proof/Machine/EtherCat.lean ====
section
/-! DEFINITION. EtherCat: the forwarding path with its registers, sync managers and FMMUs, the AL state machine and process data (17
R429 to R445). Register offsets and their layouts are those of the EtherCAT controller that R429 names. -/

namespace Sys2Proof.Machine
open Sys2Proof

/-! ## ESC registers and buffers -/

/-- A number in the ESC memory. -/
def EtherCat.reg (e : EtherCat) (a n : Nat) : Nat := leNat (memGets a e.esc n)

/-- Start and length of a sync manager's buffer (channel registers at 0x0800 + 8 × number). -/
def EtherCat.smRun (e : EtherCat) (n : Nat) : Nat × Nat := (e.reg (0x800 + 8 * n) 2, e.reg (0x802 + 8 * n) 2)

/-- A byte of the emulated EEPROM: words 4 holds the station alias (17 R429, R452). -/
def EtherCat.sii (e : EtherCat) (a : Nat) : Byte :=
  if a == 8 || a == 9 then (leBytes 2 e.stationAlias).getD (a - 8) 0 else if a < 2048 then Config.sii a else 0

/-- What a read of an ESC address gives: station address and alias, DL status, AL status and its code, DC registers as zero (17
R429), the EEPROM data, mailbox states, and the mailbox in SM1; else what was written. -/
def State.escByte (s : State) (a : Nat) : Byte :=
  let e := s.ecat
  let at_ := fun (base n v : Nat) => (leBytes n v).getD (a - base) 0
  if a == 0x10 || a == 0x11 then at_ 0x10 2 e.station
  else if a == 0x12 || a == 0x13 then at_ 0x12 2 e.stationAlias
  else if a == 0x110 || a == 0x111 then
    let up := fun i => e.linkUp.getD i false
    let shut := fun i => e.loopClosed.getD i true
    at_ 0x110 2 ((if up 0 then 0x10 else 0) + (if up 1 then 0x20 else 0) + (if shut 0 then 0x100 else 0) +
      (if up 0 then 0x200 else 0) + (if shut 1 then 0x400 else 0) + (if up 1 then 0x800 else 0))
  else if a == 0x130 || a == 0x131 then at_ 0x130 2 (e.al + (if e.alStatus != 0 then 16 else 0))
  else if a == 0x134 || a == 0x135 then at_ 0x134 2 e.alStatus
  else if 0x508 ≤ a ∧ a < 0x510 then e.sii (2 * e.reg 0x504 4 + (a - 0x508))
  else if 0x900 ≤ a ∧ a < 0xA00 then 0
  else if a == 0x80D then (if e.sm1 == [] then 0 else 8)
  else if 0x1400 ≤ a ∧ a < 0x1800 then (fit 1024 (e.sm1.headD [])).getD (a - 0x1400) 0
  else memGet a e.esc

/-- Addresses that the MainDevice cannot write. -/
def escReadOnly (a : Nat) : Bool :=
  decide (a < 0x10) || a == 0x12 || a == 0x13 || a == 0x110 || a == 0x111 || (decide (0x130 ≤ a) && decide (a < 0x136)) ||
    (decide (0x508 ≤ a) && decide (a < 0x510)) || a == 0x805 || a == 0x80D || (decide (0x900 ≤ a) && decide (a < 0xA00)) ||
    (decide (0x1400 ≤ a) && decide (a < 0x1800)) || decide (0x10000 ≤ a)

/-- Write one byte. -/
def State.escPut (s : State) (a : Nat) (v : Byte) : State :=
  let e := s.ecat
  if escReadOnly a then s
  else
    let e := { e with esc := memPut a v e.esc }
    { s with ecat := if a == 0x10 || a == 0x11 then { e with station := e.reg 0x10 2 } else e }

def State.escPuts (s : State) (a : Nat) : Bytes → State
  | [] => s
  | b :: l => (s.escPut a b).escPuts (a + 1) l

def State.escGets (s : State) (a : Nat) : Nat → Bytes
  | 0 => []
  | n + 1 => s.escByte a :: s.escGets (a + 1) n

/-- A full SM0: a download of an entry whose data go on in further mailboxes begins a segmented transfer (17 R435). -/
def State.mailboxIn (s : State) : State :=
  let m := memGets 0x1000 s.ecat.esc 1024
  let cmd := leAt m 8 1
  let begins := bits (leAt m 5 1) 0 4 == 3 && leAt m 6 2 / 4096 == 2 && bits cmd 5 3 == 1 && !bit cmd 1 && bit cmd 0 &&
    decide (leAt m 0 2 < 10 + leAt m 12 4)
  if begins then { s with ecat := { s.ecat with segmented := some (leAt m 9 2, leAt m 11 1) } } else s

/-- Full SM2 in Op: the RxPDO is applied (17 R432, R439). -/
def State.outputIn (s : State) : State :=
  let r := s.ecat.smRun 2
  if s.ecat.al == 8 && s.ecat.assign2 == [0x1600] && decide (8 ≤ r.2) then s.dset 0x2010 1 (s.ecat.reg r.1 8) else s

/-- The mailbox repeat protocol (17 R434): a changed request bit in SM1's activation register brings the last mailbox back. -/
def State.repeatMailbox (s : State) : State :=
  let e := s.ecat
  if bit (e.reg 0x80E 1) 1 == bit (e.reg 0x80F 1) 1 then s
  else
    let v := BitVec.ofNat 8 (setBit (e.reg 0x80F 1) 1 (bit (e.reg 0x80E 1) 1))
    { s with ecat := { e with
      esc := memPut 0x80F v e.esc
      sm1 := if e.lastSm1 == [] then e.sm1 else e.lastSm1 :: e.sm1 } }

/-- The mailbox in SM1 has been read to its last byte: the next one, or a waiting emergency, takes its place (17 R438). -/
def State.mailboxOut (s : State) : State :=
  match s.ecat.sm1 with
  | [] => s
  | m :: l => ({ s with ecat := { s.ecat with sm1 := l, lastSm1 := m } } : State).flushEmergency

/-- What a write of a run, or a read, completes. -/
def State.escWritten (s : State) (a n : Nat) : State :=
  let hit := fun x => decide (a ≤ x) && decide (x < a + n)
  let r := s.ecat.smRun 2
  let s := if hit 0x13FF then s.mailboxIn else s
  let s := if r.2 != 0 && hit (r.1 + r.2 - 1) then s.outputIn else s
  if hit 0x80E then s.repeatMailbox else s

def State.escRead (s : State) (a n : Nat) : State :=
  if decide (a ≤ 0x17FF) && decide (0x17FF < a + n) then s.mailboxOut else s

/-! ## Datagrams -/

/-- An FMMU maps a logical byte: its physical address, by byte (registers at 0x0600 + 16 × number). -/
def EtherCat.mapByte (e : EtherCat) (write : Bool) (l : Nat) : Option Nat :=
  (List.range 4).findSome? (fun k =>
    let b := 0x600 + 16 * k
    let start := e.reg b 4
    let kind := e.reg (b + 11) 1
    if e.reg (b + 12) 1 % 2 == 1 && (if write then bit kind 1 else bit kind 0) && decide (start ≤ l) &&
        decide (l < start + e.reg (b + 4) 2) then some (e.reg (b + 8) 2 + (l - start)) else none)

/-- A datagram's logical bytes: those written, and those read. -/
def State.logical (s : State) (d : EscDgram) : State × Bytes :=
  let read := (List.range d.readLen).map (fun i => (s.ecat.mapByte false (d.adp + i)).elim 0 s.escByte)
  let puts := (List.range d.data.length).filterMap (fun i =>
    (s.ecat.mapByte true (d.adp + i)).map (fun a => (a, d.data.getD i 0)))
  let taken := (List.range d.readLen).filterMap (fun i => s.ecat.mapByte false (d.adp + i))
  let s := puts.foldl (fun s p => s.escPut p.1 p.2) s
  let s := puts.foldl (fun s p => s.escWritten p.1 1) s
  (taken.foldl (fun s a => s.escRead a 1) s, read)

/-- A datagram addresses this module (17 R429): by its place, its station address or its alias, or all. -/
def State.addressed (s : State) (d : EscDgram) : Bool :=
  match d.mode with
  | 0 => d.adp % 65536 == 0
  | 1 => d.adp == s.ecat.station || (bit (s.ecat.reg 0x103 1) 0 && d.adp == s.ecat.stationAlias)
  | 2 => true
  | _ => false

/-- One datagram is processed on the fly. -/
def State.datagram (s : State) (d : EscDgram) : State :=
  if d.mode == 3 then
    let r := s.logical d
    { r.1 with ecat := { r.1.ecat with replies := r.1.ecat.replies ++ [r.2] } }
  else if !s.addressed d then { s with ecat := { s.ecat with replies := s.ecat.replies ++ [[]] } }
  else
    let b := s.escGets d.ado d.readLen
    let s := (s.escPuts d.ado d.data).escWritten d.ado d.data.length
    let s := s.escRead d.ado d.readLen
    { s with ecat := { s.ecat with replies := s.ecat.replies ++ [b] } }

/-- The forwarding path works: the module has power, and the port its link (17 R430, R431). -/
def State.ecatPort (s : State) (port : Nat) : Bool := s.board.phase != .off && s.ecat.linkUp.getD port false

/-- ETHERCAT_FRAME (17 R429, R430): processed where it comes in by port 0, and forwarded in any case. -/
def execEthercatFrame (port : Nat) (dgs : List EscDgram) (s : State) : Out :=
  .next (
    if !s.ecatPort port then s
    else
      let s : State := { s with ecat := { s.ecat with forwarded := s.ecat.forwarded + 1 } }
      if port != 0 then s
      else dgs.foldl (fun s d => s.datagram d) { s with ecat := { s.ecat with replies := [] } })

/-- ETHERCAT_LINK_LOSS (17 R429, R431): the loop of the port closes. -/
def execEthercatLinkLoss (port : Nat) (s : State) : Out :=
  .next { s with ecat := { s.ecat with
    linkUp := modifyAt (fun _ => false) port s.ecat.linkUp
    loopClosed := modifyAt (fun _ => true) port s.ecat.loopClosed } }

/-- ETHERCAT_LINK_UP (17 R429): the loop opens again. -/
def execEthercatLinkUp (port : Nat) (s : State) : Out :=
  .next (
    if s.board.phase == .off || s.extestOn then s
    else { s with ecat := { s.ecat with
      linkUp := modifyAt (fun _ => true) port s.ecat.linkUp
      loopClosed := modifyAt (fun _ => false) port s.ecat.loopClosed } })

/-! ## AL states (17 R432) -/

/-- A change of AL state that EtherCAT allows: one step up, any way down, and Bootstrap from and to Init. -/
def alStep (from_ dest : Nat) : Bool :=
  from_ == dest || dest == 1 || (from_ == 1 && dest == 2) || (from_ == 2 && dest == 4) || (from_ == 4 && (dest == 8 || dest == 2)) ||
    (from_ == 8 && (dest == 4 || dest == 2))

/-- The AL status code of a request, 0 where the change is made: 0x0011 an invalid change, 0x0012 an unknown state. -/
def State.alRefusal (s : State) (dest : Nat) : Nat :=
  if !(dest == 1 || dest == 2 || dest == 3 || dest == 4 || dest == 8) then 0x0012
  else if dest == 3 then (if s.board.phase == .bootstrap && (s.ecat.al == 1 || s.ecat.al == 3) then 0 else 0x0011)
  else if s.ecat.al == 3 && dest != 1 then 0x0011
  else if (s.board.phase == .bootstrap || s.sec.fuses.lifecycle == 4) && dest != 1 then 0x0011
  else if alStep s.ecat.al dest then 0
  else 0x0011

/-- AL_STATE_REQUEST (17 R432): the firmware, the boot ROM in Bootstrap or, where no firmware starts, the controller makes or
refuses the change; a request waits while the firmware does not serve. A mailbox that closes loses what waits in it. -/
def execAlStateRequest (state : Nat) (s : State) : Out :=
  .next (
    let waits := s.board.phase != .serving && s.board.phase != .bootstrap && s.sec.fuses.lifecycle != 4
    if waits || s.board.phase == .off then s
    else
      let code := s.alRefusal state
      if code != 0 then { s with ecat := { s.ecat with alStatus := code } }
      else
        let s : State := { s with ecat := { s.ecat with al := state, alStatus := 0 } }
        if state == 1 then { s with ecat := { s.ecat with
          sm1 := []
          emergencies := []
          segmented := none } }
        else s)

/-- SM2_WATCHDOG (17 R443). -/
def execSm2Watchdog (s : State) : Out :=
  .next (
    if s.ecat.al != 8 then s
    else ({ s with ecat := { s.ecat with al := 4, alStatus := 0x001B } } : State).bump 0x3250 6 1)

/-- MAILBOX_UNSUPPORTED (17 R429): CoE (3) and FoE (4) are supported, in Bootstrap FoE alone. -/
def execMailboxUnsupported (protocol : Nat) (s : State) : Out :=
  .next (
    let boot := s.board.phase == .bootstrap && s.ecat.al == 3
    if !s.mailboxUp && !boot then s
    else if protocol == 4 || (protocol == 3 && !boot) then s
    else s.placeSm1 (mailbox 0 (leBytes 2 1 ++ leBytes 2 0x0002)))

/-! ## Process data (17 R439, R441) -/

/-- The mappings of SM3, in order. -/
def State.inputWords (s : State) : List Nat :=
  s.ecat.assign3.flatMap (fun i => (s.pdoObject i).elim [] (fun p => p.2))

/-- One reading of each mapped entry. -/
def State.inputBytes (s : State) : Bytes :=
  s.inputWords.flatMap (fun w => (mappedEntry w).elim [] (fun e => (s.readEntry e).1))

/-- SM3 as last written, with bit 0 of each StatusWord cleared. -/
def clearFirmwareUp : List Nat → Bytes → Bytes
  | [], b => b
  | w :: l, b =>
    let n := w % 256 / 8
    let v := b.take n
    (if w / 256 == 0x300101 then (leBytes n (setBit (leNat v) 0 false)).take v.length else v) ++ clearFirmwareUp l (b.drop n)

/-- PDO_REFRESH (17 R432, R439, R441): SM3 and the buffer it names. -/
def execPdoRefresh (s : State) : Out :=
  .next (
    if !(s.ecat.al == 4 || s.ecat.al == 8) then s
    else
      let b := if s.board.phase == .serving then s.inputBytes else clearFirmwareUp s.inputWords s.ecat.sm3
      let r := s.ecat.smRun 3
      let s : State := { s with ecat := { s.ecat with sm3 := b } }
      s.escPuts r.1 (b.take r.2))

end Sys2Proof.Machine
end

