-- ==== Sys2Proof/Machine/Meanings.lean ====
section
/-! DEFINITION. Meanings: every family's file, for Dispatch to import. -/
end

