-- ==== Sys2Proof/Machine/Dispatch.lean ====
section
/-! DEFINITION. Dispatch: one arm per command, each a direct call of its meaning. -/

namespace Sys2Proof.Machine
open Sys2Proof

/-- The effect of a command on everything but the queue. -/
def exec (i : Instr) (s : State) : Host.Outcome State Fault Refusal :=
  match i with
  | .newTail ctx width value => Sys2Proof.Machine.execNewTail ctx width value s
  | .resume ctx value => Sys2Proof.Machine.execResume ctx value s
  | .mma ctx idx => Sys2Proof.Machine.execMma ctx idx s
  | .mmas ctx idx => Sys2Proof.Machine.execMmas ctx idx s
  | .conv ctx idx => Sys2Proof.Machine.execConv ctx idx s
  | .pool ctx idx => Sys2Proof.Machine.execPool ctx idx s
  | .attf ctx idx => Sys2Proof.Machine.execAttf ctx idx s
  | .attb ctx idx => Sys2Proof.Machine.execAttb ctx idx s
  | .latx ctx idx => Sys2Proof.Machine.execLatx ctx idx s
  | .kvap ctx idx => Sys2Proof.Machine.execKvap ctx idx s
  | .sfn ctx idx => Sys2Proof.Machine.execSfn ctx idx s
  | .norm ctx idx => Sys2Proof.Machine.execNorm ctx idx s
  | .smax ctx idx => Sys2Proof.Machine.execSmax ctx idx s
  | .samp ctx idx => Sys2Proof.Machine.execSamp ctx idx s
  | .rand ctx idx => Sys2Proof.Machine.execRand ctx idx s
  | .qnt ctx idx => Sys2Proof.Machine.execQnt ctx idx s
  | .route ctx idx => Sys2Proof.Machine.execRoute ctx idx s
  | .gath ctx idx => Sys2Proof.Machine.execGath ctx idx s
  | .scat ctx idx => Sys2Proof.Machine.execScat ctx idx s
  | .copy ctx idx => Sys2Proof.Machine.execCopy ctx idx s
  | .coll ctx idx => Sys2Proof.Machine.execColl ctx idx s
  | .post ctx idx => Sys2Proof.Machine.execPost ctx idx s
  | .wait ctx idx => Sys2Proof.Machine.execWait ctx idx s
  | .signal ctx idx => Sys2Proof.Machine.execSignal ctx idx s
  | .fence ctx idx => Sys2Proof.Machine.execFence ctx idx s
  | .still ctx idx => Sys2Proof.Machine.execStill ctx idx s
  | .argmx ctx idx => Sys2Proof.Machine.execArgmx ctx idx s
  | .nop ctx idx => Sys2Proof.Machine.execNop ctx idx s
  | .codecOpenEncoder ctx idx => Sys2Proof.Machine.execCodecOpenEncoder ctx idx s
  | .codecOpenDecoder ctx idx => Sys2Proof.Machine.execCodecOpenDecoder ctx idx s
  | .codecEncode ctx idx => Sys2Proof.Machine.execCodecEncode ctx idx s
  | .codecDecode ctx idx => Sys2Proof.Machine.execCodecDecode ctx idx s
  | .codecClose ctx idx => Sys2Proof.Machine.execCodecClose ctx idx s
  | .intkText ctx idx => Sys2Proof.Machine.execIntkText ctx idx s
  | .intkImage ctx idx => Sys2Proof.Machine.execIntkImage ctx idx s
  | .intkInstall ctx idx => Sys2Proof.Machine.execIntkInstall ctx idx s
  | .instructionComplete ctx idx => Sys2Proof.Machine.execInstructionComplete ctx idx s
  | .waitSatisfied ctx idx => Sys2Proof.Machine.execWaitSatisfied ctx idx s
  | .waitTimeout ctx idx => Sys2Proof.Machine.execWaitTimeout ctx idx s
  | .remoteAck req => Sys2Proof.Machine.execRemoteAck req s
  | .remoteAckTimeout req => Sys2Proof.Machine.execRemoteAckTimeout req s
  | .refuseReceive req code => Sys2Proof.Machine.execRefuseReceive req code s
  | .taskTake cell which => Sys2Proof.Machine.execTaskTake cell which s
  | .chainHopTimeout ctx idx cell fwd => Sys2Proof.Machine.execChainHopTimeout ctx idx cell fwd s
  | .historyFetchArrival ctx idx block ok data => Sys2Proof.Machine.execHistoryFetchArrival ctx idx block ok data s
  | .historyDeadline ctx idx block => Sys2Proof.Machine.execHistoryDeadline ctx idx block s
  | .reseed cell => Sys2Proof.Machine.execReseed cell s
  | .scrub channel corrected bad => Sys2Proof.Machine.execScrub channel corrected bad s
  | .wcbAgeRetire channel => Sys2Proof.Machine.execWcbAgeRetire channel s
  | .unmappedAccess addr write => Sys2Proof.Machine.execUnmappedAccess addr write s
  | .remoteAccess r => Sys2Proof.Machine.execRemoteAccess r s
  | .remoteSignal src postmark addr op operand => Sys2Proof.Machine.execRemoteSignal src postmark addr op operand s
  | .remoteAlloc src postmark record => Sys2Proof.Machine.execRemoteAlloc src postmark record s
  | .writeBackTimeout req => Sys2Proof.Machine.execWriteBackTimeout req s
  | .granuleZeroing granule => Sys2Proof.Machine.execGranuleZeroing granule s
  | .retrainDue channel => Sys2Proof.Machine.execRetrainDue channel s
  | .retrainRequest value => Sys2Proof.Machine.execRetrainRequest value s
  | .retrainTimeout channel => Sys2Proof.Machine.execRetrainTimeout channel s
  | .submit d => Sys2Proof.Machine.execSubmit d s
  | .slotGrant => Sys2Proof.Machine.execSlotGrant s
  | .preemptWaitExpiry cell ctx idx task => Sys2Proof.Machine.execPreemptWaitExpiry cell ctx idx task s
  | .suspendContext value => Sys2Proof.Machine.execSuspendContext value s
  | .suspendPartition value => Sys2Proof.Machine.execSuspendPartition value s
  | .resumeContext value => Sys2Proof.Machine.execResumeContext value s
  | .saveComplete ctx => Sys2Proof.Machine.execSaveComplete ctx s
  | .restore ctx => Sys2Proof.Machine.execRestore ctx s
  | .quotaCommit value => Sys2Proof.Machine.execQuotaCommit value s
  | .flitTransmit port => Sys2Proof.Machine.execFlitTransmit port s
  | .flitReceive port fecOk bytes => Sys2Proof.Machine.execFlitReceive port fecOk bytes s
  | .nakReceive port ackSeq => Sys2Proof.Machine.execNakReceive port ackSeq s
  | .replayTimeout port => Sys2Proof.Machine.execReplayTimeout port s
  | .signalDetect port lanes => Sys2Proof.Machine.execSignalDetect port lanes s
  | .bringUpTimeout port => Sys2Proof.Machine.execBringUpTimeout port s
  | .helloReceive port h => Sys2Proof.Machine.execHelloReceive port h s
  | .helloTimer port => Sys2Proof.Machine.execHelloTimer port s
  | .helloTimeout port => Sys2Proof.Machine.execHelloTimeout port s
  | .laneFault port lane cause => Sys2Proof.Machine.execLaneFault port lane cause s
  | .laneRetrainDue port lane => Sys2Proof.Machine.execLaneRetrainDue port lane s
  | .laneRetrainRequest value => Sys2Proof.Machine.execLaneRetrainRequest value s
  | .laneRetrainDone port => Sys2Proof.Machine.execLaneRetrainDone port s
  | .laneRetrainTimeout port => Sys2Proof.Machine.execLaneRetrainTimeout port s
  | .nodeCommit value => Sys2Proof.Machine.execNodeCommit value s
  | .routeCommit value => Sys2Proof.Machine.execRouteCommit value s
  | .routeDefaults value => Sys2Proof.Machine.execRouteDefaults value s
  | .routerReset value => Sys2Proof.Machine.execRouterReset value s
  | .portEnable value => Sys2Proof.Machine.execPortEnable value s
  | .portDownLimit port => Sys2Proof.Machine.execPortDownLimit port s
  | .responseReceive req postmark poisoned data => Sys2Proof.Machine.execResponseReceive req postmark poisoned data s
  | .chunkReceive group ord src sender sig head residue data => Sys2Proof.Machine.execChunkReceive group ord src sender sig head residue data s
  | .collTimeout ctx idx => Sys2Proof.Machine.execCollTimeout ctx idx s
  | .postcardReceive group ord axis pos sender sig payload => Sys2Proof.Machine.execPostcardReceive group ord axis pos sender sig payload s
  | .ctrlBroadcast initiator payload => Sys2Proof.Machine.execCtrlBroadcast initiator payload s
  | .ctrlSnapshot initiator others => Sys2Proof.Machine.execCtrlSnapshot initiator others s
  | .ctrlGroupReset initiator group => Sys2Proof.Machine.execCtrlGroupReset initiator group s
  | .sampleTake pipe => Sys2Proof.Machine.execSampleTake pipe s
  | .sampleComplete pipe => Sys2Proof.Machine.execSampleComplete pipe s
  | .sampleBudgetExpiry pipe => Sys2Proof.Machine.execSampleBudgetExpiry pipe s
  | .dictReplace slot => Sys2Proof.Machine.execDictReplace slot s
  | .frameTake pipe => Sys2Proof.Machine.execFrameTake pipe s
  | .frameComplete pipe => Sys2Proof.Machine.execFrameComplete pipe s
  | .frameBudgetExpiry pipe => Sys2Proof.Machine.execFrameBudgetExpiry pipe s
  | .invalidDatagram d => Sys2Proof.Machine.execInvalidDatagram d s
  | .openSession d => Sys2Proof.Machine.execOpenSession d s
  | .closeSession d => Sys2Proof.Machine.execCloseSession d s
  | .ack d => Sys2Proof.Machine.execAck d s
  | .alloc d => Sys2Proof.Machine.execAlloc d s
  | .free d => Sys2Proof.Machine.execFree d s
  | .write d => Sys2Proof.Machine.execWrite d s
  | .read d => Sys2Proof.Machine.execRead d s
  | .importJob d => Sys2Proof.Machine.execImportJob d s
  | .controlDoorbell d => Sys2Proof.Machine.execControlDoorbell d s
  | .controlSuspend d => Sys2Proof.Machine.execControlSuspend d s
  | .controlResume d => Sys2Proof.Machine.execControlResume d s
  | .controlCancel d => Sys2Proof.Machine.execControlCancel d s
  | .controlExport d => Sys2Proof.Machine.execControlExport d s
  | .controlRebind d => Sys2Proof.Machine.execControlRebind d s
  | .controlQuery d => Sys2Proof.Machine.execControlQuery d s
  | .arpRequest port target senderIp senderMac => Sys2Proof.Machine.execArpRequest port target senderIp senderMac s
  | .neighbourSolicitation port target senderIp senderMac => Sys2Proof.Machine.execNeighbourSolicitation port target senderIp senderMac s
  | .echoRequest port v6 dst src payload => Sys2Proof.Machine.execEchoRequest port v6 dst src payload s
  | .retransmitTimeout session => Sys2Proof.Machine.execRetransmitTimeout session s
  | .ackTimer session => Sys2Proof.Machine.execAckTimer session s
  | .resultRequest r => Sys2Proof.Machine.execResultRequest r s
  | .resultHoldExpiry result => Sys2Proof.Machine.execResultHoldExpiry result s
  | .haltLimitExpiry ctx => Sys2Proof.Machine.execHaltLimitExpiry ctx s
  | .portLinkLoss port => Sys2Proof.Machine.execPortLinkLoss port s
  | .ethercatFrame port dgs => Sys2Proof.Machine.execEthercatFrame port dgs s
  | .ethercatLinkLoss port => Sys2Proof.Machine.execEthercatLinkLoss port s
  | .alStateRequest state => Sys2Proof.Machine.execAlStateRequest state s
  | .sdoDownload index sub complete bytes => Sys2Proof.Machine.execSdoDownload index sub complete bytes s
  | .sdoUpload index sub complete => Sys2Proof.Machine.execSdoUpload index sub complete s
  | .sdoInformation op index sub => Sys2Proof.Machine.execSdoInformation op index sub s
  | .sdoTransferTimeout => Sys2Proof.Machine.execSdoTransferTimeout s
  | .mailboxUnsupported protocol => Sys2Proof.Machine.execMailboxUnsupported protocol s
  | .sm2Watchdog => Sys2Proof.Machine.execSm2Watchdog s
  | .pdoRefresh => Sys2Proof.Machine.execPdoRefresh s
  | .pdoMapping index entries => Sys2Proof.Machine.execPdoMapping index entries s
  | .storeAll value => Sys2Proof.Machine.execStoreAll value s
  | .restoreDefaults value => Sys2Proof.Machine.execRestoreDefaults value s
  | .layoutCommit value => Sys2Proof.Machine.execLayoutCommit value s
  | .dictWrite index sub bytes => Sys2Proof.Machine.execDictWrite index sub bytes s
  | .foeWriteFirmware password readBack image => Sys2Proof.Machine.execFoeWriteFirmware password readBack image s
  | .foeRead password name => Sys2Proof.Machine.execFoeRead password name s
  | .activateFirmware value => Sys2Proof.Machine.execActivateFirmware value s
  | .faultClear value => Sys2Proof.Machine.execFaultClear value s
  | .fenceUnit value => Sys2Proof.Machine.execFenceUnit value s
  | .clearFence value => Sys2Proof.Machine.execClearFence value s
  | .resetPartition value => Sys2Proof.Machine.execResetPartition value s
  | .resetChip value => Sys2Proof.Machine.execResetChip value s
  | .resetChipCullet value => Sys2Proof.Machine.execResetChipCullet value s
  | .resetPowerCycle value => Sys2Proof.Machine.execResetPowerCycle value s
  | .raiseSecurityVersion value blowOk => Sys2Proof.Machine.execRaiseSecurityVersion value blowOk s
  | .challenge => Sys2Proof.Machine.execChallenge s
  | .challengeLockoutEnd => Sys2Proof.Machine.execChallengeLockoutEnd s
  | .unlockObserve token => Sys2Proof.Machine.execUnlockObserve token s
  | .unlockFull token => Sys2Proof.Machine.execUnlockFull token s
  | .toField token blowOk => Sys2Proof.Machine.execToField token blowOk s
  | .toReturned token blowOk => Sys2Proof.Machine.execToReturned token blowOk s
  | .toScrapped token blowOk => Sys2Proof.Machine.execToScrapped token blowOk s
  | .revoke token blowOk => Sys2Proof.Machine.execRevoke token blowOk s
  | .provision value blowOk => Sys2Proof.Machine.execProvision value blowOk s
  | .provisionScrap value blowOk => Sys2Proof.Machine.execProvisionScrap value blowOk s
  | .rotateIdentity value => Sys2Proof.Machine.execRotateIdentity value s
  | .attestNonce nonce => Sys2Proof.Machine.execAttestNonce nonce s
  | .attestReportReady => Sys2Proof.Machine.execAttestReportReady s
  | .relock value => Sys2Proof.Machine.execRelock value s
  | .debugDataRead => Sys2Proof.Machine.execDebugDataRead s
  | .debugDataWrite data => Sys2Proof.Machine.execDebugDataWrite data s
  | .powerFull value => Sys2Proof.Machine.execPowerFull value s
  | .powerTrim value => Sys2Proof.Machine.execPowerTrim value s
  | .powerHold value => Sys2Proof.Machine.execPowerHold value s
  | .extest boundary => Sys2Proof.Machine.execExtest boundary s
  | .idcode => Sys2Proof.Machine.execIdcode s
  | .samplePreload boundary => Sys2Proof.Machine.execSamplePreload boundary s
  | .scanread unit => Sys2Proof.Machine.execScanread unit s
  | .scanwrite unit data => Sys2Proof.Machine.execScanwrite unit data s
  | .corehalt core halt => Sys2Proof.Machine.execCorehalt core halt s
  | .bypass code tdi => Sys2Proof.Machine.execBypass code tdi s
  | .tapReset => Sys2Proof.Machine.execTapReset s
  | .trngHealthFail => Sys2Proof.Machine.execTrngHealthFail s
  | .trngResume => Sys2Proof.Machine.execTrngResume s
  | .commitTimer => Sys2Proof.Machine.execCommitTimer s
  | .allowanceTick => Sys2Proof.Machine.execAllowanceTick s
  | .powerFall => Sys2Proof.Machine.execPowerFall s
  | .powerReturn => Sys2Proof.Machine.execPowerReturn s
  | .powerOn nandOk failedChannels => Sys2Proof.Machine.execPowerOn nandOk failedChannels s
  | .nandScrub block finding => Sys2Proof.Machine.execNandScrub block finding s
  | .windowRoll => Sys2Proof.Machine.execWindowRoll s
  | .fenceWindow region => Sys2Proof.Machine.execFenceWindow region s
  | .cellWatchdog cell => Sys2Proof.Machine.execCellWatchdog cell s
  | .engineWatchdog unit => Sys2Proof.Machine.execEngineWatchdog unit s
  | .partitionWatchdog region => Sys2Proof.Machine.execPartitionWatchdog region s
  | .coreWatchdog core => Sys2Proof.Machine.execCoreWatchdog core s
  | .uncorrectableCellState cell laneGroup => Sys2Proof.Machine.execUncorrectableCellState cell laneGroup s
  | .engineResetOverrun unit => Sys2Proof.Machine.execEngineResetOverrun unit s
  | .annealComplete partition => Sys2Proof.Machine.execAnnealComplete partition s
  | .annealOverrun partition => Sys2Proof.Machine.execAnnealOverrun partition s
  | .chipResetTimeout => Sys2Proof.Machine.execChipResetTimeout s
  | .perst => Sys2Proof.Machine.execPerst s
  | .perstRelease => Sys2Proof.Machine.execPerstRelease s
  | .refclk156Loss => Sys2Proof.Machine.execRefclk156Loss s
  | .refclk156Return => Sys2Proof.Machine.execRefclk156Return s
  | .refclk100Loss => Sys2Proof.Machine.execRefclk100Loss s
  | .thermalWarning die device => Sys2Proof.Machine.execThermalWarning die device s
  | .throttleStep die device power => Sys2Proof.Machine.execThrottleStep die device power s
  | .thermalTrip die device => Sys2Proof.Machine.execThermalTrip die device s
  | .channelTrainingDone channel => Sys2Proof.Machine.execChannelTrainingDone channel s
  | .portAligned port lanes => Sys2Proof.Machine.execPortAligned port lanes s
  | .dataPortLinkUp port => Sys2Proof.Machine.execDataPortLinkUp port s
  | .ethercatLinkUp port => Sys2Proof.Machine.execEthercatLinkUp port s
  | .inputVoltageOutOfRange millivolts => Sys2Proof.Machine.execInputVoltageOutOfRange millivolts s

end Sys2Proof.Machine
end

