-- ==== Sys2Proof/WellFormed.lean ====
section
/-! DEFINITION. WellFormed: operands that fit the widths and the numbers of units the spec gives. Every command has its effect on
ill-formed operands too: those that name nothing change nothing. -/

namespace Sys2Proof

/-! ## Checks -/

def byteOk (n : Nat) : Bool := decide (n < 2 ^ 8)
def half (n : Nat) : Bool := decide (n < 2 ^ 16)
def word (n : Nat) : Bool := decide (n < 2 ^ 32)
def long (n : Nat) : Bool := decide (n < 2 ^ 64)

/-- A context number (03 R55). -/
def ctxOk (n : Nat) : Bool := decide (n < 2 ^ 20)

/-- A cell id (01 R12). -/
def cellOk (n : Nat) : Bool := decide (n < 256)

/-- A GDDR7 channel (01 R13). -/
def channelOk (n : Nat) : Bool := decide (n < 24)

def channelsOk (l : List Nat) : Bool := l.all channelOk

/-- A pipe, control core, lane of a port, partition or dictionary slot: there are four of each. -/
def pipeOk (n : Nat) : Bool := decide (n < 4)

/-- A fabric port (12 R302). -/
def portOk (n : Nat) : Bool := decide (n < 12)

/-- A data port, or an EtherCAT port: there are two of each. -/
def twoOk (n : Nat) : Bool := decide (n < 2)

/-- A mask of a port's lanes. -/
def lanesOk (n : Nat) : Bool := decide (n < 16)

/-- A partition (01 R17). -/
def partOk (p : Nat) : Bool := decide (p < 4)

/-- A node id of 15 bits, 0xFFFF for none (12 R318, R319). -/
def nodeOk (n : Nat) : Bool := decide (n < 2 ^ 15) || n == 0xFFFF

/-- A postmark of 10 bits, with its partition's bits (19 R503). -/
def postmarkOk (n : Nat) : Bool := decide (n < 2 ^ 16)

/-- An axis of the torus, and a position on it (12 R318). -/
def axisOk (n : Nat) : Bool := decide (n < 3)
def axisPosOk (n : Nat) : Bool := decide (n < 32)

/-- A local address (10 R243). -/
def addrOk (n : Nat) : Bool := decide (n < 2 ^ 40)

/-- A NAND block (18 R463). -/
def blockOk (n : Nat) : Bool := decide (n < 4096)

/-- An IPv4 or IPv6 address, and a MAC address (16 R408). -/
def ipOk (n : Nat) : Bool := decide (n < 2 ^ 128)
def macOk (n : Nat) : Bool := decide (n < 2 ^ 48)

def dgramOk (d : Dgram) : Bool := twoOk d.port && ipOk d.ip && half d.udp && macOk d.mac && decide (d.bytes.length < 2 ^ 16)

def remoteOk (r : RemoteReq) : Bool := nodeOk r.src && postmarkOk r.postmark && decide (r.kind < 3) && long r.addr

def resultOk (r : ResultReq) : Bool := nodeOk r.node && half r.client && word r.jobId && word r.session && decide (r.status < 0x900)

def helloOk (h : Hello) : Bool := nodeOk h.node && portOk h.port && lanesOk h.lanes && half h.expectSeq && h.credits.length == 8

def frameOk (l : List EscDgram) : Bool :=
  l.all (fun d => decide (d.mode < 4) && word d.adp && half d.ado && decide (d.data.length < 2 ^ 11))

/-- The operands of a command are well formed. -/
def Instr.wf (i : Instr) : Bool :=
  match i with
  | .newTail ctx width value => ctxOk ctx && byteOk width && long value
  | .resume ctx value => ctxOk ctx && long value
  | .mma ctx idx => ctxOk ctx && word idx
  | .mmas ctx idx => ctxOk ctx && word idx
  | .conv ctx idx => ctxOk ctx && word idx
  | .pool ctx idx => ctxOk ctx && word idx
  | .attf ctx idx => ctxOk ctx && word idx
  | .attb ctx idx => ctxOk ctx && word idx
  | .latx ctx idx => ctxOk ctx && word idx
  | .kvap ctx idx => ctxOk ctx && word idx
  | .sfn ctx idx => ctxOk ctx && word idx
  | .norm ctx idx => ctxOk ctx && word idx
  | .smax ctx idx => ctxOk ctx && word idx
  | .samp ctx idx => ctxOk ctx && word idx
  | .rand ctx idx => ctxOk ctx && word idx
  | .qnt ctx idx => ctxOk ctx && word idx
  | .route ctx idx => ctxOk ctx && word idx
  | .gath ctx idx => ctxOk ctx && word idx
  | .scat ctx idx => ctxOk ctx && word idx
  | .copy ctx idx => ctxOk ctx && word idx
  | .coll ctx idx => ctxOk ctx && word idx
  | .post ctx idx => ctxOk ctx && word idx
  | .wait ctx idx => ctxOk ctx && word idx
  | .signal ctx idx => ctxOk ctx && word idx
  | .fence ctx idx => ctxOk ctx && word idx
  | .still ctx idx => ctxOk ctx && word idx
  | .argmx ctx idx => ctxOk ctx && word idx
  | .nop ctx idx => ctxOk ctx && word idx
  | .codecOpenEncoder ctx idx => ctxOk ctx && word idx
  | .codecOpenDecoder ctx idx => ctxOk ctx && word idx
  | .codecEncode ctx idx => ctxOk ctx && word idx
  | .codecDecode ctx idx => ctxOk ctx && word idx
  | .codecClose ctx idx => ctxOk ctx && word idx
  | .intkText ctx idx => ctxOk ctx && word idx
  | .intkImage ctx idx => ctxOk ctx && word idx
  | .intkInstall ctx idx => ctxOk ctx && word idx
  | .instructionComplete ctx idx => ctxOk ctx && word idx
  | .waitSatisfied ctx idx => ctxOk ctx && word idx
  | .waitTimeout ctx idx => ctxOk ctx && word idx
  | .remoteAck _ => true
  | .remoteAckTimeout _ => true
  | .refuseReceive _ code => decide (0x100 ≤ code) && decide (code < 0x900)
  | .taskTake cell _ => cellOk cell
  | .chainHopTimeout ctx idx cell _ => ctxOk ctx && word idx && cellOk cell
  | .historyFetchArrival ctx idx _ _ _ => ctxOk ctx && word idx
  | .historyDeadline ctx idx _ => ctxOk ctx && word idx
  | .reseed cell => cellOk cell
  | .scrub channel corrected _ => channelOk channel && word corrected
  | .wcbAgeRetire channel => channelOk channel
  | .unmappedAccess addr _ => addrOk addr
  | .remoteAccess r => remoteOk r
  | .remoteSignal src postmark addr _ _ => nodeOk src && postmarkOk postmark && addrOk addr
  | .remoteAlloc src postmark _ => nodeOk src && postmarkOk postmark
  | .writeBackTimeout _ => true
  | .granuleZeroing _ => true
  | .retrainDue channel => channelOk channel
  | .retrainRequest value => byteOk value
  | .retrainTimeout channel => channelOk channel
  | .submit d => dgramOk d
  | .slotGrant => true
  | .preemptWaitExpiry cell ctx idx task => cellOk cell && ctxOk ctx && word idx && word task
  | .suspendContext value => word value
  | .suspendPartition value => byteOk value
  | .resumeContext value => word value
  | .saveComplete ctx => ctxOk ctx
  | .restore ctx => ctxOk ctx
  | .quotaCommit value => byteOk value
  | .flitTransmit port => portOk port
  | .flitReceive port _ _ => portOk port
  | .nakReceive port ackSeq => portOk port && half ackSeq
  | .replayTimeout port => portOk port
  | .signalDetect port lanes => portOk port && lanesOk lanes
  | .bringUpTimeout port => portOk port
  | .helloReceive port h => portOk port && helloOk h
  | .helloTimer port => portOk port
  | .helloTimeout port => portOk port
  | .laneFault port lane _ => portOk port && pipeOk lane
  | .laneRetrainDue port lane => portOk port && pipeOk lane
  | .laneRetrainRequest value => byteOk value
  | .laneRetrainDone port => portOk port
  | .laneRetrainTimeout port => portOk port
  | .nodeCommit value => byteOk value
  | .routeCommit value => byteOk value
  | .routeDefaults value => byteOk value
  | .routerReset value => byteOk value
  | .portEnable value => half value
  | .portDownLimit port => portOk port
  | .responseReceive _ postmark _ _ => postmarkOk postmark
  | .chunkReceive group ord src sender _ head _ _ =>
    half group && word ord && nodeOk src && partOk sender.part && postmarkOk sender.postmark && decide (head.kind < 4)
  | .collTimeout _ idx => word idx
  | .postcardReceive group _ axis pos sender _ _ =>
    half group && axisOk axis && axisPosOk pos && partOk sender.part && postmarkOk sender.postmark
  | .ctrlBroadcast initiator _ => nodeOk initiator
  | .ctrlSnapshot initiator _ => nodeOk initiator
  | .ctrlGroupReset initiator group => nodeOk initiator && half group
  | .sampleTake pipe => pipeOk pipe
  | .sampleComplete pipe => pipeOk pipe
  | .sampleBudgetExpiry pipe => pipeOk pipe
  | .dictReplace slot => pipeOk slot
  | .frameTake pipe => pipeOk pipe
  | .frameComplete pipe => pipeOk pipe
  | .frameBudgetExpiry pipe => pipeOk pipe
  | .invalidDatagram d => dgramOk d
  | .openSession d => dgramOk d
  | .closeSession d => dgramOk d
  | .ack d => dgramOk d
  | .alloc d => dgramOk d
  | .free d => dgramOk d
  | .write d => dgramOk d
  | .read d => dgramOk d
  | .importJob d => dgramOk d
  | .controlDoorbell d => dgramOk d
  | .controlSuspend d => dgramOk d
  | .controlResume d => dgramOk d
  | .controlCancel d => dgramOk d
  | .controlExport d => dgramOk d
  | .controlRebind d => dgramOk d
  | .controlQuery d => dgramOk d
  | .arpRequest port target senderIp senderMac => twoOk port && ipOk target && ipOk senderIp && macOk senderMac
  | .neighbourSolicitation port target senderIp senderMac => twoOk port && ipOk target && ipOk senderIp && macOk senderMac
  | .echoRequest port _ dst src _ => twoOk port && ipOk dst && ipOk src
  | .retransmitTimeout _ => true
  | .ackTimer _ => true
  | .resultRequest r => resultOk r
  | .resultHoldExpiry _ => true
  | .haltLimitExpiry ctx => ctxOk ctx
  | .portLinkLoss port => twoOk port
  | .ethercatFrame port dgs => twoOk port && frameOk dgs
  | .ethercatLinkLoss port => twoOk port
  | .alStateRequest _ => true
  | .sdoDownload index sub _ _ => half index && byteOk sub
  | .sdoUpload index sub _ => half index && byteOk sub
  | .sdoInformation _ index sub => half index && byteOk sub
  | .sdoTransferTimeout => true
  | .mailboxUnsupported _ => true
  | .sm2Watchdog => true
  | .pdoRefresh => true
  | .pdoMapping index _ => half index
  | .storeAll value => word value
  | .restoreDefaults value => word value
  | .layoutCommit value => byteOk value
  | .dictWrite index sub _ => half index && byteOk sub
  | .foeWriteFirmware _ _ _ => true
  | .foeRead _ _ => true
  | .activateFirmware value => byteOk value
  | .faultClear value => long value
  | .fenceUnit value => byteOk value
  | .clearFence value => byteOk value
  | .resetPartition value => byteOk value
  | .resetChip value => byteOk value
  | .resetChipCullet value => byteOk value
  | .resetPowerCycle value => byteOk value
  | .raiseSecurityVersion value _ => byteOk value
  | .challenge => true
  | .challengeLockoutEnd => true
  | .unlockObserve _ => true
  | .unlockFull _ => true
  | .toField _ _ => true
  | .toReturned _ _ => true
  | .toScrapped _ _ => true
  | .revoke _ _ => true
  | .provision value _ => byteOk value
  | .provisionScrap value _ => byteOk value
  | .rotateIdentity value => byteOk value
  | .attestNonce _ => true
  | .attestReportReady => true
  | .relock value => byteOk value
  | .debugDataRead => true
  | .debugDataWrite _ => true
  | .powerFull value => byteOk value
  | .powerTrim value => byteOk value
  | .powerHold value => byteOk value
  | .extest _ => true
  | .idcode => true
  | .samplePreload _ => true
  | .scanread unit => half unit
  | .scanwrite unit _ => half unit
  | .corehalt core _ => pipeOk core
  | .bypass code _ => byteOk code
  | .tapReset => true
  | .trngHealthFail => true
  | .trngResume => true
  | .commitTimer => true
  | .allowanceTick => true
  | .powerFall => true
  | .powerReturn => true
  | .powerOn _ failedChannels => channelsOk failedChannels
  | .nandScrub block _ => blockOk block
  | .windowRoll => true
  | .fenceWindow _ => true
  | .cellWatchdog cell => cellOk cell
  | .engineWatchdog unit => half unit
  | .partitionWatchdog region => word region
  | .coreWatchdog core => pipeOk core
  | .uncorrectableCellState cell _ => cellOk cell
  | .engineResetOverrun unit => half unit
  | .annealComplete partition => pipeOk partition
  | .annealOverrun partition => pipeOk partition
  | .chipResetTimeout => true
  | .perst => true
  | .perstRelease => true
  | .refclk156Loss => true
  | .refclk156Return => true
  | .refclk100Loss => true
  | .thermalWarning _ _ => true
  | .throttleStep _ _ _ => true
  | .thermalTrip _ _ => true
  | .channelTrainingDone channel => channelOk channel
  | .portAligned port lanes => portOk port && lanesOk lanes
  | .dataPortLinkUp port => twoOk port
  | .ethercatLinkUp port => twoOk port
  | .inputVoltageOutOfRange _ => true

end Sys2Proof
end

