-- ==== Sys2Proof/Safety.lean ====
section
/-! DEFINITION. Safety: what a safe run is, in the terms that claims use. -/

namespace Sys2Proof.Machine
open Sys2Proof

/-- A step answers with a next state: it neither faults nor refuses. -/
def State.goesOn (s : State) : Prop := ∃ t, step s = .next t

/-- Every command that waits is well formed. -/
def State.queueOk (s : State) : Bool := s.pending.all Instr.wf

/-- Every byte store of the module is in its canonical form: memory, and what the EtherCAT controller holds. -/
def State.memOk (s : State) : Bool := Memory.wf s.mem.cells && Memory.wf s.ecat.esc

/-- Fuses only blow: key hashes, serial number and secret stay, and no blown bit goes back (20 R528, R537). -/
def Fuses.grew (a b : Fuses) : Prop :=
  b.keyHash = a.keyHash ∧ b.serial = a.serial ∧ b.secret = a.secret ∧ a.lifecycle ≤ b.lifecycle ∧ a.secVer ≤ b.secVer ∧
    (a.secretKilled = true → b.secretKilled = true) ∧ ∀ i, bit a.revoked i = true → bit b.revoked i = true

/-- What the security engine's state keeps to: a level of R545, a lifecycle of R527, four revocation bits, fewer than eight
refusals counted (20 R533), no secret in Scrapped (20 R538), and always level Full in Blank (20 R545). -/
def Security.ok (x : Security) : Prop :=
  x.level ≤ 2 ∧ x.fuses.lifecycle ≤ 4 ∧ x.fuses.revoked < 16 ∧ x.refusals < 8 ∧
    (x.fuses.lifecycle = 4 → x.fuses.secretKilled = true) ∧ (x.fuses.lifecycle = 0 → x.level = 2)

/-- A step that the security engine may take. -/
def Security.leads (a b : Security) : Prop := a.fuses.grew b.fuses ∧ (a.ok → b.ok)

/-! ## Command streams -/

/-- The address of the 64-byte slot of instruction `idx` in a context's command ring (03 R55). -/
def Ctx.slotAt (x : Ctx) (idx : Nat) : Nat := x.queue.ringBase + 64 * (idx % 2 ^ x.queue.ringLog2)

/-- An instruction as its slot holds it now. -/
def State.slotEnv (s : State) (x : Ctx) (idx : Nat) : Env := s.env x idx (s.readBytes (x.slotAt idx) 64) [] []

/-- The state in which an instruction of row `m` starts: its slot and what that names have been read (10 R272). -/
def State.slotSeen (s : State) (m : Macro) (x : Ctx) (idx : Nat) : State := s.slotRead (x.slotAt idx) m.op (s.slotEnv x idx) true

/-- What an instruction in flight starts as: its slot's fields and its extents (03 R80). -/
def State.slotFlight (s : State) (m : Macro) (x : Ctx) (idx : Nat) : InFlight :=
  let e := s.slotEnv x idx
  { e.entry with ins := s.homeRuns (m.op.ins e), outs := s.homeRuns (m.op.outs e) }

/-- An instruction starts now as row `m`: it may be considered, its slot is readable and of this row, every check of 03 R86
passes, its partition has a cell where it needs one, and neither an earlier instruction nor an extent holds it back. -/
def State.accepts (s : State) (m : Macro) (x : Ctx) (idx : Nat) : Bool :=
  let e := s.slotEnv x idx
  s.startable x idx && s.mem.poisonIn (x.slotAt idx) 64 == [] && e.opcode == m.opcode && m.mine e && m.check e == 0 &&
    !(m.cells e && s.activeCells x.partition == []) && !s.held e && !m.waits s e &&
    !s.hazard x.number (s.homeRuns (m.op.gate e)) [] && !s.hazard x.number (s.homeRuns (m.op.ins e)) (s.homeRuns (m.op.outs e))

/-- What an instruction of row `m` sees as it starts: the paths of its history blocks that are decided at once (06 R173, R175). -/
def State.startEnv (s : State) (m : Macro) (x : Ctx) (idx : Nat) : Env :=
  let e := s.slotEnv x idx
  let plan := (s.slotSeen m x idx).histPlan e
  { e with hist := (e.history.map (fun h => e.mapped h plan.1 plan.2)).getD [] }

/-- Everything that an instruction reads and writes stands on this module, and no history block waits for a fetch or is lost. -/
def State.allHere (s : State) (m : Macro) (x : Ctx) (idx : Nat) : Bool :=
  let e := s.startEnv m x idx
  (m.op.guide e ++ m.op.fetch e ++ m.op.outs e).all (fun r => s.gHere (r.1 % 2 ^ 64) || r.2 == 0) &&
    (s.slotSeen m x idx).histPlan (s.slotEnv x idx) == ([], []) && !e.hist.any (fun b => b.2 == 4)

/-- Its work is done: an instruction whose operands are here has started. -/
def State.started (s : State) (m : Macro) (x : Ctx) (idx : Nat) : State :=
  let e := s.startEnv m x idx
  let f := { s.slotFlight m x idx with hist := e.hist }
  (((s.slotSeen m x idx).startPaths e f []).addFlight f).finishRun m.op e f

/-- The run of an instruction meets no trouble: it does not fail, it reads no uncorrectable unit, no channel is marked for fencing,
and its cells may draw random bits. -/
def State.runsClean (s : State) (m : Macro) (x : Ctx) (idx : Nat) : Bool :=
  let e := s.startEnv m x idx
  let r := m.op.run e
  let reads := r.reads.getD (m.op.ins e)
  r.fail == 0 && reads.flatMap s.badLocal == [] && !reads.any (s.badRemote (s.arrived e.ctx e.idx)) &&
    !s.mem.chans.any (fun c => c.marked) && !(r.draws && r.tasks.any (fun t => decide (16 ≤ (s.cell t.2.2.2).deferred)))

/-- No channel is marked for fencing. -/
def State.noneMarked (s : State) : Prop := ∀ ch ∈ s.mem.chans, ch.marked = false

/-! ## Jobs of the codec complex and of the intake engine -/

/-- An open has made its stream (15 R383, R384): its parameters have been read, and its state is written anew. -/
def State.streamOpened (s : State) (m : Macro) (x : Ctx) (idx : Nat) (encoder : Bool) : State :=
  let e := s.slotEnv x idx
  let i := cdcStream e.cdcBlock
  let t := (s.slotSeen m x idx).readRuns (cdcIns e)
  ({ t with
    mem := { t.mem with poison := t.mem.poison.filter (fun u => !(t.streamBad i).contains u) }
    codec := { t.codec with streams := t.codec.streams ++
      [⟨i, .opened, encoder, x.number, e.cdcParams e.cdcBlock, 0, 0, false, 0, 0, none, [], 0, none⟩] } } : State).addFlight
    ((s.slotFlight m x idx).end_ 0)

/-- An ENCODE, DECODE or CLOSE has become a job of the codec complex, its operands read. -/
def State.codecStarted (s : State) (m : Macro) (x : Ctx) (idx : Nat) : State :=
  let e := s.slotEnv x idx
  let t := (s.slotSeen m x idx).addFlight (s.slotFlight m x idx)
  ((({ t with codec := { t.codec with jobs := t.codec.jobs ++
      [⟨x.number, idx, e.cdcBlock, 0, 0, 0, 0, 0, []⟩] } } : State).setFlight x.number idx (fun f => { f with phase := .running })).readRuns
    (cdcIns e))

/-- Nothing keeps a CODEC job that starts from its operands: they stand on this module and can be read, and so can its stream. -/
def State.codecReady (s : State) (m : Macro) (x : Ctx) (idx : Nat) : Prop :=
  let e := s.slotEnv x idx
  let r := s.slotSeen m x idx
  s.allHere m x idx = true ∧ (cdcIns e).flatMap r.badLocal = [] ∧ (cdcIns e).any (r.badRemote (r.arrived x.number idx)) = false ∧
    s.noneMarked ∧ r.streamBad (cdcStream e.cdcBlock) = []

/-- An INTK has become a job of the intake engine, with none of its slots taken (14 R353, R359). -/
def State.intakeListed (s : State) (m : Macro) (x : Ctx) (idx : Nat) : State :=
  let e := s.slotEnv x idx
  let b := e.intkBlock
  let t := ((s.slotSeen m x idx).readRuns (e.intkStartReads b)).addFlight (s.slotFlight m x idx)
  { t with intake := { t.intake with jobs := t.intake.jobs ++
      [⟨x.number, idx, b, t.dictSlot (intkSlot b), e.intkSamples b, 0, [], [], []⟩] } }

/-! ## Collectives -/

/-- A COLL has taken the next place in its group's order and told its neighbours what it is, and its source has been read: what is
left is their agreement (13 R330). -/
def State.collStarted (s : State) (x : Ctx) (idx : Nat) : State :=
  let e := s.slotEnv x idx
  let b := e.coll
  let f := s.slotFlight mColl x idx
  let fresh := List.replicate b.count (2 ^ 32)
  (((((s.slotSeen mColl x idx).joinColl e f).addFlight f).readRuns (opColl.ins e)).setColl x.number idx (fun y => { y with
    ready := true
    carryOk := e.collCarry.usable
    discard := e.collRef != 0 && !e.collCarry.usable && bits (e.le (e.obj e.collRef) 8) 48 2 != 0
    value := e.collStart b
    vs := fresh
    qs := fresh })).setFlight x.number idx (fun f => { f with phase := .running })

/-- A POST has taken the next place in its group's order, and its payload has been read. -/
def State.postStarted (s : State) (x : Ctx) (idx : Nat) : State :=
  let e := s.slotEnv x idx
  let f := s.slotFlight mPost x idx
  (((((s.slotSeen mPost x idx).joinOrder f e.postGroup.id e.postSig true).addFlight f).readRuns (opPost.ins e)).setColl x.number idx
    (fun y => { y with ready := true, begun := true, buf := e.postOwn })).setFlight x.number idx (fun f => { f with phase := .running })

/-- Nothing keeps a collective that starts from its operands: they stand on this module and can be read, and no collective of its
name is in flight. -/
def State.collReady (s : State) (m : Macro) (x : Ctx) (idx : Nat) : Prop :=
  s.allHere m x idx = true ∧ (m.op.ins (s.slotEnv x idx)).flatMap s.badLocal = [] ∧ s.noneMarked ∧ s.node ≠ 0xFFFF ∧
    s.coll? x.number idx = none

/-! ## Dictionary writes -/

/-- The answer of R435 to a write that is applied. -/
def sdoDone (idx sub : Nat) : Bytes := coeMailbox 3 (leBytes 1 0x60 ++ leBytes 2 idx ++ leBytes 1 sub ++ leBytes 4 0)

/-- An abort of R456. -/
def sdoAbort (idx sub code : Nat) : Bytes := coeMailbox 3 (leBytes 1 0x80 ++ leBytes 2 idx ++ leBytes 1 sub ++ leBytes 4 code)

/-- The writes of one number that trigger an action: index, subindex, and the values that the entry's range allows. -/
def triggerRows : List ((Nat → Instr) × Nat × Nat × Nat × Nat) :=
  [(.nodeCommit, 0x2360, 3, 1, 1), (.routeCommit, 0x2361, 3, 1, 1), (.routeDefaults, 0x2361, 4, 1, 1), (.routerReset, 0x2360, 7, 1, 1),
   (.portEnable, 0x2362, 4, 0, 0xFFFF), (.laneRetrainRequest, 0x2362, 3, 0, 255), (.retrainRequest, 0x2340, 6, 0, 23),
   (.quotaCommit, 0x2351, 3, 1, 1), (.suspendContext, 0x2350, 4, 0, 0xFFFFFFFF), (.suspendPartition, 0x2350, 6, 0, 3),
   (.resumeContext, 0x2350, 5, 0, 0xFFFFFFFF), (.layoutCommit, 0x2300, 6, 1, 1), (.activateFirmware, 0x5100, 1, 1, 1),
   (.rotateIdentity, 0x5001, 3, 1, 1), (.relock, 0x5030, 2, 1, 1)]

/-- A record of a memory of the module's own pages and counters apart: what a write's answer leaves as the action left it. -/
def State.answeredFrom (u t : State) : Prop :=
  t.mem = u.mem ∧ t.office = u.office ∧ t.cs = u.cs ∧ t.fabric = u.fabric ∧ t.dict = u.dict ∧ t.staged = u.staged ∧ t.store = u.store ∧
    t.sec = u.sec ∧ t.board = u.board ∧ t.net = u.net ∧ t.coll = u.coll ∧ t.intake = u.intake ∧ t.codec = u.codec

/-! ## Security -/

/-- What a token's attempt leaves whatever its checks say: the write is answered, and the challenge is used up (20 R533, R535). -/
def State.attempted (s : State) : State :=
  let t := s.answerWrite 0x5020 2 false (s, 0)
  { t with sec := { t.sec with challenge := none } }

/-- A token that an operation's row takes: 384 bytes of that operation. -/
def tokenOf (op : Nat) (b : Bytes) : Bool := b.length == 384 && leAt b 4 1 == op

/-- The instructions of R546 that act on data registers, with their codes. -/
def tapRows : List (Nat × Instr) :=
  [(0x00, .extest 0), (0x01, .idcode), (0x02, .samplePreload 0), (0x10, .scanread 0x1000), (0x11, .scanwrite 0x1000 []),
   (0x12, .corehalt 0 true)]

/-! ## Courier -/

/-- A datagram brings the next message of type `type` on an open session, with a legal header and body (16 R412, R414). -/
def State.brings (s : State) (d : Dgram) (type : Nat) (x : Session) : Prop :=
  let m := Msg.parse d.bytes
  s.dataPort d.port = true ∧ dgramBad d.bytes = false ∧ m.headerBad = false ∧ m.type = type ∧ s.session? m.session = some x ∧
    bodyOk type m.body = true ∧ (sequenced type = true → m.seq = x.rxNext)

/-- What a message's receipt does before its body acts: its session follows its source, its Ack and Window are taken, and a
sequenced one takes its Seq and is owed an acknowledgement (16 R409, R414, R415). -/
def State.received (s : State) (d : Dgram) (x : Session) : State :=
  let m := Msg.parse d.bytes
  let u := s.accept d x m
  if sequenced m.type then
    (u.setSession x.id (fun y => { y with rxNext := (y.rxNext + 1) % 2 ^ 32, carried := true })).owe x.id
  else u

/-- A Control of action `k` on the job of context `c`, of value `v`, comes next on a session. -/
def State.controls (s : State) (d : Dgram) (k : Nat) (x : Session) (c : Ctx) (v : Nat) : Prop :=
  let m := Msg.parse d.bytes
  s.brings d 0x21 x ∧ beAt m.body 4 1 = k ∧ (s.received d x).jobOf x.client (beAt m.body 0 4) = some c ∧ v = beAt m.body 8 8

/-- The seven Control rows. -/
def controlRows : List ((Dgram → Instr) × Nat) :=
  [(.controlDoorbell, 1), (.controlSuspend, 2), (.controlResume, 3), (.controlCancel, 4), (.controlExport, 5), (.controlRebind, 6),
   (.controlQuery, 7)]

end Sys2Proof.Machine
end

