-- ==== Sys2Proof/Certificates/Slice0/Obligations.lean ====
section
/-! DEFINITION. Obligations: what the provers prove of the module. -/

open Sys2Proof Sys2Proof.Machine

/-- A step takes the command at the front of the queue and runs it with the queue's rest; with none waiting it idles. -/
def Obligations.StepTakesFrontCommand : Prop :=
  (∀ (s : State) (c : Instr) (rest : List Instr), s.pending = c :: rest → step s = exec c { s with pending := rest }) ∧
    ∀ s : State, s.pending = [] → step s = .next s

/-- No command touches the queue: a step that goes on takes exactly its front command away. -/
def Obligations.StepKeepsQueueRest : Prop :=
  ∀ (s t : State) (c : Instr) (rest : List Instr), s.pending = c :: rest → step s = .next t → t.pending = rest

/-- The machine always goes on: no command faults and none is refused. -/
def Obligations.EveryStepGoesOn : Prop := ∀ s : State, s.goesOn

/-- Every step keeps what the security engine's state keeps to. -/
def Obligations.StepKeepsSecurityForm : Prop := ∀ s t : State, s.sec.ok → step s = .next t → t.sec.ok

/-- Fuses only blow, whatever command runs: no reset and no token takes a blown bit back, and key hashes, serial number and
secret never change (20 R527, R528, R537). -/
def Obligations.FusesOnlyBlow : Prop := ∀ s t : State, step s = .next t → s.sec.fuses.grew t.sec.fuses

/-- The lifecycle only moves forward (20 R537): no command lowers it, each step of the chain is made by its own command, and Scrapped is
reached from Blank, Provisioned and Field too. The codes 0 to 4 are Blank, Provisioned, Field, Returned and Scrapped (20 R527). -/
def Obligations.LifecycleMovesForward : Prop :=
  (∀ s t : State, step s = .next t → s.sec.fuses.lifecycle ≤ t.sec.fuses.lifecycle) ∧
  (∀ s : State, s.mailboxUp = true → s.sec.fuses.lifecycle = 0 →
    (s.sec.trngFail = false → ∃ t, exec (.provision 1 true) s = .next t ∧ t.sec.fuses.lifecycle = 1) ∧
    ∃ t, exec (.provisionScrap 2 true) s = .next t ∧ t.sec.fuses.lifecycle = 4) ∧
  ∀ (s : State) (b : Bytes), s.mailboxUp = true → s.tokenCode b = 0 →
    (tokenOf 3 b = true → s.sec.fuses.lifecycle = 1 ∧ ∃ t, exec (.toField b true) s = .next t ∧ t.sec.fuses.lifecycle = 2) ∧
    (tokenOf 4 b = true → s.sec.fuses.lifecycle = 2 ∧ ∃ t, exec (.toReturned b true) s = .next t ∧ t.sec.fuses.lifecycle = 3) ∧
    (tokenOf 5 b = true → (s.sec.fuses.lifecycle = 1 ∨ s.sec.fuses.lifecycle = 2 ∨ s.sec.fuses.lifecycle = 3) ∧
      ∃ t, exec (.toScrapped b true) s = .next t ∧ t.sec.fuses.lifecycle = 4)

/-- Every step keeps the canonical form of memory and of the EtherCAT controller memory. -/
def Obligations.StepKeepsMemoryForm : Prop := ∀ s t : State, s.memOk = true → step s = .next t → t.memOk = true

/-! ## Command streams -/

/-- NEW_TAIL (03 R55, R56): a legal distance moves the tail, no distance changes nothing, and any other is ignored and counted, as is a
write to a context that is not allocated, with reserved bits, or of another width. A context's descriptor may have to be fetched for its
doorbell, which is counted; which ones is a free value (11 R273, R301). -/
def Obligations.NewTailActs : Prop :=
  (∀ (s : State) (c value : Nat) (x : Ctx), s.ctx? c = some x → value < 2 ^ 33 →
     let new := value % 2 ^ 32
     let d := (new + 2 ^ 32 - x.queue.tail) % 2 ^ 32
     let u := (new + 2 ^ 32 - x.queue.retired) % 2 ^ 32
     let r := s.bellFetch c
     (d = 0 → exec (.newTail c 8 value) s = .next r) ∧
       (1 ≤ d → d ≤ 2 ^ 31 → u ≤ 2 ^ x.queue.ringLog2 →
         exec (.newTail c 8 value) s = .next (r.setQueue c (fun q => { q with tail := new }))) ∧
       (1 ≤ d → d ≤ 2 ^ 31 → 2 ^ x.queue.ringLog2 < u → exec (.newTail c 8 value) s = .next (r.bump 0x3150 4 1)) ∧
       (2 ^ 31 < d → exec (.newTail c 8 value) s = .next (r.bump 0x3150 4 1))) ∧
  (∀ (s : State) (c value : Nat), s.ctx? c = none ∨ 2 ^ 33 ≤ value → value < 2 ^ 64 →
     exec (.newTail c 8 value) s = .next ((s.bellFetch c).bump 0x3150 4 1)) ∧
  (∀ (s : State) (c width value : Nat), width ≠ 8 → exec (.newTail c width value) s = .next (s.bump 0x3150 4 1)) ∧
  ∀ (s : State) (c : Nat), (s.ctx? c = none → s.bellFetch c = s) ∧
    (s.ctx? c ≠ none → ∃ n, n < 2 ∧ s.bellFetch c = (s.bump 0x31D0 7 n).drew)

/-- RESUME (03 R57, R79): a Halted queue runs on, a Pre-empted one is kept for its restore, and any other is left as it is. -/
def Obligations.ResumeActsOnHaltedQueue : Prop :=
  ∀ (s : State) (c value : Nat) (x : Ctx), s.ctx? c = some x → bit value 32 = true → bellAction x.queue value ≠ 0 →
    exec (.resume c value) s = .next (((s.bellFetch c).setCtx c Ctx.resume).finishJob c) ∧
      (x.queue.qs = .halted → x.resume =
        { x with queue := { x.queue with qs := .running }, job := { x.job with haltRec := none } }) ∧
      (x.queue.qs = .preempted → x.resume = { x with wasHalted := false }) ∧
      (x.queue.qs = .running ∨ x.queue.qs = .idle → x.resume = x)

/-- The twenty rows of R68 that run on operands, MMA, MMAS, CONV, POOL, ATTF, ATTB, LATX, KVAP, SFN, NORM, SMAX, SAMP, RAND, QNT, ROUTE,
GATH, SCAT, COPY, STILL and ARGMX (03 R79, R84, R86, R90): one that is accepted, its operands here, does its work and is left running,
its record owed. Where its run meets no trouble it carries the run's success or note, and it has changed memory, tasks, counters and
free values only, and the sheets that its context keeps (04 R107). Once no task of it is left it completes: its results and its record
are written, and it is in flight no more. -/
def Obligations.MacroInstructionsRun : Prop :=
  ∀ (s : State) (c idx : Nat) (x : Ctx), s.ctx? c = some x → x.number = c →
    (s.accepts mMma x idx = true → s.allHere mMma x idx = true → exec (.mma c idx) s = .next (s.started mMma x idx)) ∧
    (s.accepts mMmas x idx = true → s.allHere mMmas x idx = true → exec (.mmas c idx) s = .next (s.started mMmas x idx)) ∧
    (s.accepts mConv x idx = true → s.allHere mConv x idx = true → exec (.conv c idx) s = .next (s.started mConv x idx)) ∧
    (s.accepts mPool x idx = true → s.allHere mPool x idx = true → exec (.pool c idx) s = .next (s.started mPool x idx)) ∧
    (s.accepts mAttf x idx = true → s.allHere mAttf x idx = true → exec (.attf c idx) s = .next (s.started mAttf x idx)) ∧
    (s.accepts mAttb x idx = true → s.allHere mAttb x idx = true → exec (.attb c idx) s = .next (s.started mAttb x idx)) ∧
    (s.accepts mLatx x idx = true → s.allHere mLatx x idx = true → exec (.latx c idx) s = .next (s.started mLatx x idx)) ∧
    (s.accepts mKvap x idx = true → s.allHere mKvap x idx = true → exec (.kvap c idx) s = .next (s.started mKvap x idx)) ∧
    (s.accepts mSfn x idx = true → s.allHere mSfn x idx = true → exec (.sfn c idx) s = .next (s.started mSfn x idx)) ∧
    (s.accepts mNorm x idx = true → s.allHere mNorm x idx = true → exec (.norm c idx) s = .next (s.started mNorm x idx)) ∧
    (s.accepts mSmax x idx = true → s.allHere mSmax x idx = true → exec (.smax c idx) s = .next (s.started mSmax x idx)) ∧
    (s.accepts mSamp x idx = true → s.allHere mSamp x idx = true → exec (.samp c idx) s = .next (s.started mSamp x idx)) ∧
    (s.accepts mRand x idx = true → s.allHere mRand x idx = true → exec (.rand c idx) s = .next (s.started mRand x idx)) ∧
    (s.accepts mQnt x idx = true → s.allHere mQnt x idx = true → exec (.qnt c idx) s = .next (s.started mQnt x idx)) ∧
    (s.accepts mRoute x idx = true → s.allHere mRoute x idx = true → exec (.route c idx) s = .next (s.started mRoute x idx)) ∧
    (s.accepts mGath x idx = true → s.allHere mGath x idx = true → exec (.gath c idx) s = .next (s.started mGath x idx)) ∧
    (s.accepts mScat x idx = true → s.allHere mScat x idx = true → exec (.scat c idx) s = .next (s.started mScat x idx)) ∧
    (s.accepts mCopy x idx = true → s.allHere mCopy x idx = true → exec (.copy c idx) s = .next (s.started mCopy x idx)) ∧
    (s.accepts mStill x idx = true → s.allHere mStill x idx = true → exec (.still c idx) s = .next (s.started mStill x idx)) ∧
    (s.accepts mArgmx x idx = true → s.allHere mArgmx x idx = true → exec (.argmx c idx) s = .next (s.started mArgmx x idx)) ∧
    ∀ m ∈ runMacros, s.accepts m x idx = true → s.allHere m x idx = true →
      let t := s.started m x idx
      let r := m.op.run (s.startEnv m x idx)
      ∃ g, t.flight? c idx = some g ∧ g.phase = .running ∧ g.opcode = m.opcode ∧
        g.outs = s.homeRuns (m.op.outs (s.slotEnv x idx)) ∧ g.ins = s.homeRuns (m.op.ins (s.slotEnv x idx)) ∧
        (s.runsClean m x idx = true → g.status = topNote r.notes ∧ g.detail = r.detail ∧ g.rung = r.rung ∧
          g.endWrites = r.writes ++ r.endWrites ∧
          t = { s with epoch := t.epoch, tele := t.tele, mem := t.mem, office := t.office, cs := t.cs, intake := t.intake } ∧
          t.cs.sheets = (match r.sheets with
            | none => s.cs.sheets
            | some l => s.cs.sheets.filter (fun h => h.ctx != c) ++ l) ∧
          ∀ (u : State) (y : Ctx), u.ctx? c = some y → u.flight? c idx = some g → u.tasksLeft g = false → y.state ≠ .ending →
            u.office.stopped.contains y.partition = false →
              let v := u.settle y g
              let w := (r.writes ++ r.endWrites).foldl (fun s w => s.putResult g w) (u.leaveStream g)
              exec (.instructionComplete c idx) u = .next (v.serveTasks.finishJob c) ∧ v.flight? c idx = none ∧
                (bit g.flags 0 = true ∨ g.status ≠ 0 → v.mem = (w.writeBytes
                  (y.queue.compBase + 16 * (idx % 2 ^ y.queue.ringLog2)) (u.recordOf g)).mem) ∧
                (bit g.flags 0 = false → g.status = 0 → v.mem = w.mem))

/-- WAIT, SIGNAL, FENCE and NOP (03 R76 to R78, R81, R82): a WAIT reads its semaphore as it starts and ends at once where it is met; one
that waits ends when its condition is read as met, and with 0x0401 when its time is up; a SIGNAL on a local semaphore writes its eight
bytes; a FENCE and a NOP with no failed write charged end. Each has read its slot, and changes nothing else. -/
def Obligations.SynchronisationRowsAct : Prop :=
  (∀ (s : State) (c idx : Nat) (x : Ctx), s.ctx? c = some x → x.number = c → s.accepts mWait x idx = true → s.noneMarked →
     let e := s.slotEnv x idx
     let r := s.slotSeen mWait x idx
     r.mem.poisonIn (gAddr (e.W 1)) 8 = [] →
       (condMet (e.W 3) (r.semRead (e.W 1)) (e.W 2) = true →
         exec (.wait c idx) s = .next (r.addFlight ((s.slotFlight mWait x idx).end_ 0))) ∧
       (condMet (e.W 3) (r.semRead (e.W 1)) (e.W 2) = false →
         exec (.wait c idx) s = .next (r.addFlight { s.slotFlight mWait x idx with phase := .waiting }))) ∧
  (∀ (s : State) (c idx : Nat) (f : InFlight), s.waiting? c idx = some f → f.ctx = c → f.idx = idx → s.noneMarked →
     let g := leAt f.slot 32 8
     let met := condMet (leAt f.slot 48 8) (s.semRead g) (leAt f.slot 40 8)
     s.mem.poisonIn (gAddr g) 8 = [] →
       (met = true → exec (.waitSatisfied c idx) s = .next ((s.setFlight c idx (fun f => f.end_ 0)).complete c idx)) ∧
       (met = false → bits (leAt f.slot 48 8) 32 24 ≠ 0 → exec (.waitTimeout c idx) s =
         .next (((s.bump 0x3150 5 1).setFlight c idx (fun f => f.end_ 0x0401)).complete c idx))) ∧
  (∀ (s : State) (c idx : Nat) (x : Ctx), s.ctx? c = some x → x.number = c → s.accepts mSignal x idx = true → s.noneMarked →
     let e := s.slotEnv x idx
     let r := s.slotSeen mSignal x idx
     let a := gAddr (e.W 1)
     s.cs.failedWrites.find? (fun w => w.1 == c) = none → s.gHere (e.W 1) = true → r.mem.poisonIn a 8 = [] →
       exec (.signal c idx) s = .next (
         (if e.W 3 % 4 = 0 ∧ e.W 2 = 0 then r
          else r.writeBytes a (leBytes 8 (
           if e.W 3 % 4 = 0 then (leNat (r.readBytes a 8) + e.W 2) % 2 ^ 64
           else if e.W 3 % 4 = 1 then e.W 2
           else max (leNat (r.readBytes a 8)) (e.W 2)))).addFlight ((s.slotFlight mSignal x idx).end_ 0))) ∧
  (∀ (s : State) (c idx : Nat) (x : Ctx), s.ctx? c = some x → x.number = c →
     (s.accepts mNop x idx = true → exec (.nop c idx) s =
       .next ((s.slotSeen mNop x idx).addFlight ((s.slotFlight mNop x idx).end_ 0))) ∧
     (s.accepts mFence x idx = true → (∀ w ∈ s.cs.failedWrites, w.1 ≠ c) → exec (.fence c idx) s =
       .next ((s.slotSeen mFence x idx).addFlight ((s.slotFlight mFence x idx).end_ 0))))

/-- INSTRUCTION_COMPLETE (03 R79, R88 to R90): the record of 16 bytes stands at CompBase + 16 × (index mod ring length), the
instruction, none of whose tasks is left, is in flight no more, and a failure without Continue halts the queue. The record of an
instruction whose inputs were written while it was at work shows an undefined HighestRung, and an undefined Detail of note 0x0010 (04
R114, R115). -/
def Obligations.CompletionWritesRecord : Prop :=
  ∀ (s : State) (c idx : Nat) (x : Ctx) (f : InFlight), s.ctx? c = some x → s.flight? c idx = some f → f.ready = true →
    s.tasksLeft f = false → x.state ≠ .ending → s.office.stopped.contains x.partition = false →
      let g := s.blurred f
      let u := s.settle x g
      exec (.instructionComplete c idx) s = .next (((if isSuccess f.status = true ∨ bit f.flags 3 = true then u
        else u.haltQueue c (s.recordOf g)).serveTasks).finishJob c) ∧
        u.flight? c idx = none ∧ (f.spoiled = false → g = f) ∧
        (g.status = f.status ∧ g.tag = f.tag ∧ g.opcode = f.opcode ∧ g.flags = f.flags ∧ g.endWrites = f.endWrites ∧
          (ladderOpcode f.opcode = false → g.rung = f.rung) ∧ (f.status ≠ 0x0010 → g.detail = f.detail)) ∧
        (f.endWrites = [] → bit f.flags 0 = true ∨ f.status ≠ 0 →
          u.mem = (s.writeBytes (x.queue.compBase + 16 * (idx % 2 ^ x.queue.ringLog2)) (leBytes 2 f.status ++ leBytes 2 f.tag ++
            leBytes 4 idx ++ leBytes 1 f.opcode ++ leBytes 1 g.rung ++ leBytes 2 (s.postmark f.partition % 1024) ++
            leBytes 4 g.detail)).mem) ∧
        (f.endWrites = [] → bit f.flags 0 = false → f.status = 0 → u.mem = s.mem)

/-- The choice among notes (03 R93, 04 R117, 05 R147, 07 R199, 08 R219, 09 R235, 13 R351, 15 R405): of the notes that apply, the highest in
the list is reported, and 0x0000 where there is none; a job's code is chosen in the same way, its first failure in place of every note. -/
def Obligations.NotesRankAsListed : Prop :=
  let ranks : List Nat := [0x0041, 0x0040, 0x0043, 0x0042, 0x0011, 0x0013, 0x0010, 0x0012, 0x0030, 0x0031, 0x0051, 0x0052, 0x0053, 0x0050,
    0x0060, 0x0061, 0x0071, 0x00C0, 0x00D0, 0x00D2, 0x00D5, 0x00D3, 0x00D1, 0x00B0, 0x0020, 0x0001]
  (∀ l : List Nat,
    (∀ i n : Nat, ranks[i]? = some n → n ∈ l → (∀ j m : Nat, j < i → ranks[j]? = some m → m ∉ l) → topNote l = n) ∧
      ((∀ n ∈ ranks, n ∉ l) → topNote l = 0)) ∧
  ∀ x y : Nat, (isSuccess x = false → joinStatus x y = x) ∧
    (isSuccess x = true → isSuccess y = false → joinStatus x y = y) ∧
    (isSuccess x = true → isSuccess y = true → joinStatus x y = topNote [x, y])

/-- The five codec rows (15 R383, R384, R386, R389, R392, R397): an open makes the stream Open with its job block's parameters and ends;
ENCODE, DECODE and CLOSE of an open stream start as jobs of the codec complex: an encode waits for its frames, a decode and a decoder's
close go on with what is due, and an encoder's close codes what is held. A job that ends writes its result record and ends its
instruction; a close that comes to its end frees the stream. -/
def Obligations.CodecRowsStart : Prop :=
  (∀ (s : State) (c idx : Nat) (x : Ctx), s.ctx? c = some x → x.number = c → s.noneMarked →
     let m0 := cdcMacro (fun k => k == 0 || decide (4 < k))
     let m1 := cdcMacro (fun k => k == 1)
     (s.accepts m0 x idx = true → cdcKind (s.slotEnv x idx).cdcBlock = 0 →
       exec (.codecOpenEncoder c idx) s = .next (s.streamOpened m0 x idx true)) ∧
     (s.accepts m1 x idx = true → exec (.codecOpenDecoder c idx) s = .next (s.streamOpened m1 x idx false))) ∧
  (∀ (s : State) (c idx : Nat) (x : Ctx) (y : Codec), s.ctx? c = some x → x.number = c →
     let e := s.slotEnv x idx
     let b := e.cdcBlock
     let i := cdcStream b
     let fuel := (e.desc (cdcBit b)).dim 0 + y.held.length + 2
     let m2 := cdcMacro (fun k => k == 2)
     let m3 := cdcMacro (fun k => k == 3)
     let m4 := cdcMacro (fun k => k == 4)
     s.stream? i = some y →
       (s.accepts m2 x idx = true → s.codecReady m2 x idx → exec (.codecEncode c idx) s = .next (s.codecStarted m2 x idx)) ∧
       (s.accepts m3 x idx = true → s.codecReady m3 x idx →
         exec (.codecDecode c idx) s = .next ((s.codecStarted m3 x idx).decodeOn c idx fuel)) ∧
       (s.accepts m4 x idx = true → s.codecReady m4 x idx → y.encoder = false →
         exec (.codecClose c idx) s = .next (((s.codecStarted m4 x idx).setStream i (fun z => { z with due := z.held.length })).decodeOn
           c idx fuel)) ∧
       (s.accepts m4 x idx = true → s.codecReady m4 x idx → y.encoder = true →
         exec (.codecClose c idx) s = .next ((s.codecStarted m4 x idx).closeEncoder y ⟨c, idx, b, 0, 0, 0, 0, 0, []⟩ e x.partition))) ∧
  ∀ (s : State) (c idx : Nat) (j : CodecJob) (e : Env) (f : InFlight) (closed : Bool), s.cdcJob c idx = some j →
    s.cdcEnv c idx = some (e, f) → f.ctx = c → f.idx = idx →
      let t := s.endCdc c idx closed
      let held := (s.stream? (cdcStream j.block)).elim 0 (fun x => x.held.length)
      t.cdcJob c idx = none ∧ t.mem = (s.writeGlobal c idx f.partition (e.obj (cdcResult j.block), j.record held)).mem ∧
        (t.flight? c idx).map (fun g => (g.phase, g.status)) = some (.ended,
          topNote (j.notes ++ (if j.damaged ≠ 0 then [0x00D0] else []) ++ (if j.skipped ≠ 0 then [0x00D1] else []))) ∧
        (closed = true → t.stream? (cdcStream j.block) = none)

/-- The three intake rows (14 R353 to R355, R359, 03 R87): INTK_TEXT, INTK_IMAGE and INTK_INSTALL start as jobs that wait for the pipes, or
for their dictionary slot, with none of their slots taken, a text job with the dictionary that its slot holds; an empty batch of text
completes at once. A job whose slots are all finished writes its mask and status and ends, with 0x00C0 where a sample is void. -/
def Obligations.IntakeJobsStart : Prop :=
  (∀ (s : State) (c idx : Nat) (x : Ctx), s.ctx? c = some x → x.number = c → s.noneMarked →
    let e := s.slotEnv x idx
    let b := e.intkBlock
    (opIntk.outs e).all (fun r => s.gHere (r.1 % 2 ^ 64)) = true →
      (s.accepts mIntkText x idx = true → intkKind b ≠ 0 ∨ intkBatch b ≠ 0 →
        exec (.intkText c idx) s = .next (s.intakeListed mIntkText x idx)) ∧
      (s.accepts mIntkText x idx = true → intkKind b = 0 → intkBatch b = 0 →
        exec (.intkText c idx) s = .next ((s.slotSeen mIntkText x idx).addFlight ((s.slotFlight mIntkText x idx).end_ 0))) ∧
      (s.accepts mIntkImage x idx = true → exec (.intkImage c idx) s = .next (s.intakeListed mIntkImage x idx)) ∧
      (s.accepts mIntkInstall x idx = true → exec (.intkInstall c idx) s = .next (s.intakeListed mIntkInstall x idx))) ∧
  ∀ (s : State) (c idx : Nat) (j : IntakeJob) (e : Env) (f : InFlight), s.intkJob c idx = some j → s.intkEnv c idx = some (e, f) →
    f.ctx = c → f.idx = idx → intkBatch j.block ≤ j.results.length →
      let t := s.intkEnd c idx
      t.intkJob c idx = none ∧
        t.mem = ((e.endWrites j.block j.results).foldl (fun s w => s.writeGlobal c idx f.partition w) s).mem ∧
        (t.flight? c idx).map (fun g => (g.phase, g.status)) =
          some (.ended, if j.results.any (fun r => r.2 != 0) = true then 0x00C0 else 0)

/-- COLL and POST (13 R328, R330, R331, R333, R334, R343 to R345): a COLL with no element completes at once; otherwise each takes the next
place in its group's order. A COLL goes on once its neighbours have agreed, and until then changes no byte of memory; a POST sends its
first postcards and goes on with those at hand. In a group of one member each completes as it starts, its results written. A group that
another queue of the node uses is refused with 0x02B0. -/
def Obligations.CollectivesTakeTheirPlace : Prop :=
  (∀ (s : State) (c idx : Nat) (x : Ctx), s.ctx? c = some x → x.number = c → s.accepts mColl x idx = true →
     let e := s.slotEnv x idx
     let b := e.coll
     let f := s.slotFlight mColl x idx
     let r := s.slotSeen mColl x idx
     let v := s.collStarted x idx
     let n := kvGet b.g.id 0 s.coll.orders + 1
     (b.n = 0 → exec (.coll c idx) s = .next ((r.bump 0x3230 1 1).addFlight (f.end_ 0))) ∧
     (b.n ≠ 0 → s.node ≠ 0xFFFF → s.groupUsed b.g.id c = true → exec (.coll c idx) s = .next (r.reject f 0x02B0)) ∧
     (b.n ≠ 0 → s.groupUsed b.g.id c = false → s.collReady mColl x idx →
       exec (.coll c idx) s = .next ((v.beginColl c idx).hearCalls b.g.id) ∧ v.mem.cells = s.mem.cells ∧
         v.coll.orders = kvSet b.g.id n s.coll.orders ∧
         (v.coll? c idx).map (fun y => (y.group, y.order, y.sig, y.begun)) = some (b.g.id, n, e.collSig, false) ∧
         (b.g.axes ≠ [] → s.coll.calls = [] → exec (.coll c idx) s = .next v) ∧
         (b.g.axes = [] → s.coll.calls = [] → e.collRef = 0 → b.narrows = false → s.arrived c idx = [] →
           ∃ (t u : State) (e' : Env) (f' : InFlight) (y : Coll), exec (.coll c idx) s = .next t ∧ u.mem.cells = s.mem.cells ∧
             u.collEnv c idx = some (e', f') ∧ y.value = e.collStart b ∧ t.coll.flight = s.coll.flight ∧
             t.mem = ((y.result e' e'.coll).foldl (fun s w => s.writeGlobal c idx f'.partition w) u).mem ∧
             t.count 0x3230 1 = (s.count 0x3230 1 + 1) % 2 ^ 64 ∧
             (t.flight? c idx).map (fun g => (g.phase, g.status)) = some (.ended, 0)))) ∧
  (∀ (s : State) (c idx : Nat) (x : Ctx), s.ctx? c = some x → x.number = c → s.accepts mPost x idx = true →
     let e := s.slotEnv x idx
     let g := e.postGroup
     let f := s.slotFlight mPost x idx
     let v := s.postStarted x idx
     let n := kvGet g.id 0 s.coll.orders + 1
     (s.node ≠ 0xFFFF → s.groupUsed g.id c = true →
       exec (.post c idx) s = .next ((s.slotSeen mPost x idx).reject f 0x02B0)) ∧
     (s.groupUsed g.id c = false → s.collReady mPost x idx →
       v.coll.orders = kvSet g.id n s.coll.orders ∧
         ∃ y, v.coll? c idx = some y ∧ y.group = g.id ∧ y.order = n ∧ y.sig = e.postSig ∧ y.buf = e.postOwn ∧
           (∀ a l, g.axes = a :: l →
             exec (.post c idx) s = .next ((v.sendCards f y g a e.postOwn).runPost c idx 4) ∧
             ((∀ k ∈ s.coll.cards, k.group = g.id → k.order ≠ n) →
               exec (.post c idx) s = .next (v.sendCards f y g a e.postOwn))) ∧
           (g.axes = [] → s.arrived c idx = [] →
             ∃ (t u : State) (e' : Env) (f' : InFlight), exec (.post c idx) s = .next t ∧ u.mem.cells = s.mem.cells ∧
               u.collEnv c idx = some (e', f') ∧ t.coll.flight = s.coll.flight ∧
               t.mem = ((e'.postWrites e.postOwn).foldl (fun s w => s.writeGlobal c idx f'.partition w) u).mem ∧
               (t.flight? c idx).map (fun g => (g.phase, g.status)) = some (.ended, 0))))

/-! ## Reset -/

/-- The module right after its start: every form that steps keep holds, no command waits, and what the spec gives for a start
holds: every port Down, no node id in force, AL state Init, nothing latched, no granule zeroed, no context, memory all zero, the
allowance at 64 MiB and the interface Locked (10 R255, 12 R319, R323, 18 R470, 20 R545). -/
def Obligations.ResetMeetsForms : Prop :=
  let s := State.reset
  s.sec.ok ∧ s.memOk = true ∧ s.queueOk = true ∧ s.pending = [] ∧ step s = .next s ∧
    (∀ i, i < 12 → (s.port i).st = .down) ∧ s.node = 0xFFFF ∧ s.ecat.al = 1 ∧ s.faults.latched = 0 ∧ s.office.ctxs = [] ∧
    (∀ a, s.readByte a = 0) ∧ s.mem.unzeroed = [(0, s.mem.windowBytes)] ∧ s.store.allowance = 67108864 ∧ s.sec.level = 0 ∧
    s.coll.ctrlResult = List.replicate 64 0 ∧ s.dget 0x2350 1 = 65536 ∧ s.nParts = 1 ∧ s.role 0 = 2

/-! ## Tasks, history and generators -/

/-- TASK_TAKE (11 R284): a running task ends and the cells take further tasks. What a cell takes next comes from its highest
pigeonhole that is not empty, the oldest entry of its sequence there. -/
def Obligations.TaskTakeServesHighest : Prop :=
  (∀ (s : State) (cell which : Nat) (k : Task), cell < 256 → (s.runningIn cell)[which]? = some k →
    ∃ u : State, exec (.taskTake cell which) s = .next u.serveTasks ∧
      u.office.tasks = s.office.tasks.filter (fun x => x != k) ∧ u.mem = s.mem ∧ u.tele = s.tele ∧ u.cs = s.cs) ∧
    ∀ (s : State) (cell : Nat) (k : Task), s.nextTask cell = some k →
      k ∈ s.office.tasks ∧ k.cell = cell ∧ k.phase = .posted ∧
        (∀ v ∈ s.office.tasks, v.cell = cell → v.phase = .posted → v.prio < 8 → v.prio ≤ k.prio) ∧
        (∀ v ∈ s.office.tasks, v.cell = cell → v.phase = .posted → v.prio = k.prio → s.slotOfCtx v.ctx = s.slotOfCtx k.ctx →
          k.order ≤ v.order)

/-- CHAIN_HOP_TIMEOUT (04 R103, R105, R112, R113, R118): a member leaves the chain of its instruction, counted; one that waited reads what
remains from the weight cache, which is counted too, by a free amount (DESIGN CHOICE). The head waits for no chunk and the last member
forwards none, and an instruction without chains has none to leave. A chain is the cells of one region and grid column in ascending
order. RESEED (09 R223, R224): done and counted, or deferred and counted, and what draws in a cell whose 16 last reseeds were deferred
fails with 0x0570. -/
def Obligations.ChainHopsAndReseeds : Prop :=
  (∀ (s : State) (c idx cell : Nat) (fwd : Bool) (f : InFlight), s.flight? c idx = some f →
    let l := s.chainOf c idx cell
    let u : State := { s with cs := { s.cs with chainLeft := s.cs.chainLeft ++ [(c, idx, cell)] } }
    (s.chained f = false → exec (.chainHopTimeout c idx cell fwd) s = .next s) ∧
    (l.head? = some cell → exec (.chainHopTimeout c idx cell false) s = .next s) ∧
    (l.getLast? = some cell → exec (.chainHopTimeout c idx cell true) s = .next s) ∧
    (s.chained f = true → f.phase = .running → cell ∈ l → (c, idx, cell) ∉ s.cs.chainLeft →
      (l.getLast? ≠ some cell → exec (.chainHopTimeout c idx cell true) s = .next (u.bump 0x3160 4 1)) ∧
      (l.head? ≠ some cell → exec (.chainHopTimeout c idx cell false) s =
        .next (((u.bump 0x3160 4 1).bump 0x3160 5 ((u.bump 0x3160 4 1).fallbackBytes f cell)).drew))) ∧
    l.Pairwise (fun x y => x ≤ y) ∧ ∀ k ∈ l, k / 64 = cell / 64) ∧
  (∀ (s : State) (cell : Nat), cell < 256 →
    (s.sec.trngFail = false →
      exec (.reseed cell) s = .next ((s.setCell cell (fun (c : Cell) => { c with deferred := 0 })).bump 0x31B0 4 1)) ∧
    (s.sec.trngFail = true →
      exec (.reseed cell) s = .next ((s.setCell cell (fun c => { c with deferred := c.deferred + 1 })).bump 0x31B0 5 1).failDry)) ∧
  ∀ (s : State) (c idx : Nat) (f : InFlight), s.flight? c idx = some f → s.dry f = true →
    (s.failDry.flight? c idx).map (fun g => (g.phase, g.status)) = some (.ended, 0x0570)

/-- HISTORY_FETCH_ARRIVAL and HISTORY_DEADLINE (06 R173, R174): the first fetch of a block decides its path, with its own bytes or
along the path that its store resolves, and a block that is decided is fetched no more; the fail path ends the instruction with 0x0440.
What comes late is counted. -/
def Obligations.HistoryBlocksDecided : Prop :=
  ∀ (s : State) (c idx block : Nat) (f : InFlight), s.flight? c idx = some f →
    (block ∉ f.histWait →
      (∀ ok data, exec (.historyFetchArrival c idx block ok data) s =
        .next ((s.dropReqs (Req.fetches c idx block)).bump 0x3180 5 1)) ∧
      exec (.historyDeadline c idx block) s = .next s) ∧
    ∀ h, block ∈ f.histWait → s.historyOf f = some h → f.ctx = c → f.idx = idx →
      let decided := fun (u : State) (p : Nat) => u.cs.flight = modifyWhere (fun x => x.ctx == c && x.idx == idx)
        (fun g => { g with
          hist := kvSet block p g.hist
          histWait := g.histWait.filter (fun b => b != block) }) s.cs.flight ∧ u.office = s.office ∧ u.mem = s.mem
      (∀ data, data.length = total ((h.store.blockRuns block).map (fun r => r.2)) →
        ∃ u : State, exec (.historyFetchArrival c idx block true data) s = .next (u.resumeRun c idx) ∧ decided u 1) ∧
      (h.path = 3 → ∀ data, ∃ u : State,
        exec (.historyFetchArrival c idx block false data) s = .next (u.failInstr c idx 0x0440) ∧ decided u 4) ∧
      (h.path ≠ 3 → ∀ data, ∃ u : State,
        exec (.historyFetchArrival c idx block false data) s = .next (u.resumeRun c idx) ∧ decided u (h.path + 1)) ∧
      (h.path = 3 → ∃ u : State,
        exec (.historyDeadline c idx block) s = .next (u.failInstr c idx 0x0440) ∧ decided u 4) ∧
      (h.path ≠ 3 → ∃ u : State,
        exec (.historyDeadline c idx block) s = .next (u.resumeRun c idx) ∧ decided u (h.path + 1))

/-! ## Memory -/

/-- While no channel trains, a write changes exactly the bytes of its run that a master can write, and each reads back what was
written (10 R245, R252). -/
def Obligations.WrittenBytesReadBack : Prop :=
  ∀ (s : State) (a : Nat) (bs : Bytes), Memory.wf s.mem.cells = true →
    (∀ c ∈ s.mem.chans, c.session = 0 ∧ c.detour = [] ∧ c.heldWrites = []) → ∀ x,
      (s.writeBytes a bs).readByte x =
        if a ≤ x ∧ x < a + bs.length ∧ windowWritable (s.mem.window x) = true then bs.getD (x - a) 0 else s.readByte x

/-- SCRUB (10 R242): no byte changes, the units found uncorrectable stay so and the new ones join them; corrected codewords are counted.
WCB_AGE_RETIRE (10 R251): a controller's oldest entry goes, and no byte changes. UNMAPPED_ACCESS (10 R245): it is counted and has no
other effect. GRANULE_ZEROING (10 R255): the granule reads as zero, whatever waited to be written there, holds no uncorrectable unit and
waits no more; every other byte stays. -/
def Obligations.MemoryRowsKeepBytes : Prop :=
  ((∀ (s : State) (channel corrected : Nat) (bad : List Nat), channel < 24 → (s.chan channel).active = true → s.board.power ≠ 2 →
     ∃ t, exec (.scrub channel corrected bad) s = .next t ∧ t.mem.cells = s.mem.cells ∧ (∀ u ∈ s.mem.poison, u ∈ t.mem.poison) ∧
       (∀ u ∈ bad, s.mem.window (16 * u) = 1 → s.chanOf (16 * u) = channel → u ∈ t.mem.poison) ∧
       (corrected = 0 → (∀ u ∈ bad, s.chanOf (16 * u) ≠ channel) →
         t = (s.bump 0x31C0 3 0).bump 0x31C1 (channel + 1) 0)) ∧
   (∀ (s : State) (channel : Nat) (e : Wcb), s.mem.wcb.find? (fun e => e.channel == channel) = some e →
     ∃ t, exec (.wcbAgeRetire channel) s = .next t ∧ t.mem = { s.mem with wcb := s.mem.wcb.filter (fun x => x.line != e.line) } ∧
       t.count 0x31C0 8 = (s.count 0x31C0 8 + 1) % 2 ^ 64) ∧
   (∀ (s : State) (addr : Nat) (write : Bool),
     exec (.unmappedAccess addr write) s = .next (if s.unmapped addr write = true then s.bump 0x31C0 0x10 1 else s))) ∧
  (∀ (s : State) (g : Nat), (∃ r ∈ s.mem.unzeroed, r.1 ≤ 4096 * g ∧ 4096 * g < r.1 + r.2) →
     ∃ t, exec (.granuleZeroing g) s = .next t ∧
       (∀ a, t.mem.byte a = if 4096 * g ≤ a ∧ a < 4096 * g + 4096 then 0 else s.mem.byte a) ∧
       (∀ u ∈ t.mem.poison, u ∈ s.mem.poison ∧ ¬(4096 * g ≤ 16 * u ∧ 16 * u < 4096 * g + 4096)) ∧
       (∀ r ∈ t.mem.unzeroed, ¬(r.1 ≤ 4096 * g ∧ 4096 * g < r.1 + r.2)) ∧
       t = { s with mem := { s.mem with
         cells := t.mem.cells
         poison := t.mem.poison
         unzeroed := t.mem.unzeroed
         chans := t.mem.chans } })

/-- REMOTE_ACCESS, REMOTE_SIGNAL and REMOTE_ALLOC (10 R254, R256, R582, 03 R76): where they are served, the write, the read with its
uncorrectable units, the freed object, the semaphore's new value and the new object, each answered; an allocation that no cache partition
has room for is answered with none, and an access that R256 refuses is refused and changes no byte. The layout of an answer's bytes is the
model's (DESIGN CHOICE). -/
def Obligations.RemoteRequestsServed : Prop :=
  (∀ (s : State) (r : RemoteReq), r.kind = 1 → (0 < r.data.length → s.remoteCode true r.addr r.data.length = 0) →
    exec (.remoteAccess r) s =
      .next ((s.writeBytes r.addr r.data).respond (s.homePart r.addr) r.src r.postmark (beBytes 4 r.tag))) ∧
  (∀ (s : State) (r : RemoteReq), r.kind = 0 → (0 < r.len → s.remoteCode false r.addr r.len = 0) →
    let us := s.mem.poisonIn r.addr r.len
    exec (.remoteAccess r) s = .next (((if us = [] then s else s.sawPoison us).readRuns [(r.addr, r.len)]).respond (s.homePart r.addr)
      r.src r.postmark (beBytes 4 r.tag ++ beBytes 2 us.length ++ us.flatMap (fun u => beBytes 8 u) ++ s.readBytes r.addr r.len))) ∧
  (∀ (s : State) (r : RemoteReq), r.kind = 2 → s.board.phase = .serving → s.board.power ≠ 2 →
    (∀ o : Obj, s.mem.localObjs.find? (fun o => o.base == r.addr) = some o →
      exec (.remoteAccess r) s = .next (({ s with mem := { s.mem with
        objects := s.mem.objects.filter (fun x => x != o)
        unzeroed := s.mem.unzeroed ++ [(o.base, o.size)] } } : State).respond o.set r.src r.postmark (beBytes 4 r.tag))) ∧
    (s.mem.localObjs.find? (fun o => o.base == r.addr) = none →
      exec (.remoteAccess r) s = .next (s.refuse (s.homePart r.addr) r.src 0x0185))) ∧
  (∀ (s : State) (src post addr op v : Nat), s.remoteCode true addr 8 = 0 → addr % 8 = 0 → addr + 8 ≤ s.mem.windowBytes →
    op % 4 < 3 → v < 2 ^ 64 →
      exec (.remoteSignal src post addr op v) s = .next ((if op % 4 = 0 ∧ v = 0 then s
        else s.writeBytes addr (leBytes 8 (
          if op % 4 = 0 then (leNat (s.readBytes addr 8) + v) % 2 ^ 64
          else if op % 4 = 1 then v
          else max (leNat (s.readBytes addr 8)) v))).respond (s.homePart addr) src post [])) ∧
  (∀ (s : State) (src post : Nat) (record : Bytes), s.board.phase = .serving → s.board.power ≠ 2 →
    let n := roundUp (leAt record 0 8) 4096
    ((∀ q, q < s.nParts → s.role q = 3 → s.place q n true = none) →
      exec (.remoteAlloc src post record) s = .next (s.respond 0 src post [])) ∧
    ∀ p a, n ≤ s.freeBytesPool → p < s.nParts → s.role p = 3 → s.place p n true = some a →
      (∀ q, q < p → s.role q = 3 → s.place q n true = none) →
        let v := s.clearRun a n
        exec (.remoteAlloc src post record) s = .next (({ v with mem := { v.mem with
          objects := v.mem.objects ++ [⟨a, n, leAt record 8 2, 0xFFFF, false, p⟩] } } : State).respond p src post (beBytes 8 a))) ∧
  (∀ (s : State) (r : RemoteReq), r.kind ≤ 1 →
    let n := if r.kind = 1 then r.data.length else r.len
    let code := s.remoteCode (r.kind == 1) r.addr n
    0 < n → code ≠ 0 → exec (.remoteAccess r) s =
      .next ((if code = 0x0701 then s.bump 0x3210 0xA 1 else s).refuse (s.homePart r.addr) r.src code))

/-- The answers to a remote request (03 R78, R82, R91, 10 R258, R261, 19 R504): an acknowledgement ends it, and a signal's instruction
with it; a time-out or a refusal ends it with its code, charged to its queue for a write and to its writers for a write-back, whose copy
stays dirty. A refusal's code is one of R78's but for an allocation, a free and a result. An answer for another postmark is dropped and
counted. -/
def Obligations.RemoteAnswersTaken : Prop :=
  (∀ (s : State) (id : Nat) (q : Req), s.req? id = some q →
    let u := s.dropReqs (fun r => r.id == id)
    (q.kind = .write → exec (.remoteAck id) s = .next u) ∧
    (q.kind = .signal → exec (.remoteAck id) s = .next (u.setFlight q.ctx q.idx (fun f => f.end_ 0))) ∧
    (q.kind = .write → exec (.remoteAckTimeout id) s = .next (u.chargeWrite q.ctx 0x0703)) ∧
    (q.kind = .signal → exec (.remoteAckTimeout id) s = .next (u.setFlight q.ctx q.idx (fun f => f.end_ 0x0703))) ∧
    (q.kind = .read → q.seq = 0 → exec (.remoteAckTimeout id) s = .next (u.failInstr q.ctx q.idx 0x0703)) ∧
    (∀ code, let told := refusedCode q.kind code
      (q.kind = .write → exec (.refuseReceive id code) s = .next (u.chargeWrite q.ctx told)) ∧
      (q.kind = .signal → exec (.refuseReceive id code) s = .next (u.setFlight q.ctx q.idx (fun f => f.end_ told))) ∧
      (q.kind = .read → q.seq = 0 → exec (.refuseReceive id code) s = .next (u.failInstr q.ctx q.idx told)) ∧
      (q.kind = .free → exec (.refuseReceive id code) s = .next (u.reply q.session q.seq told 0 0))) ∧
    (∀ c, q.kind = .writeBack → s.mem.copies.find? (fun c => c.node == q.node && c.addr == q.addr) = some c →
      ∃ t, exec (.writeBackTimeout id) s = .next t ∧ t.cs.reqs = u.cs.reqs ∧
        t.cs.failedWrites = s.cs.failedWrites ++ c.writers.map (fun w => (w, 0x0703)) ∧
        t.mem = { s.mem with
          copies := modifyWhere (fun x => x.node == q.node && x.addr == q.addr) (fun (x : Copy) =>
            { x with failed := true, leaving := false })
            s.mem.copies } ∧ t.count 0x31C0 0xF = (s.count 0x31C0 0xF + 1) % 2 ^ 64) ∧
    (∀ postmark poisoned data, postmark ≠ s.postmark q.partition →
      exec (.responseReceive id postmark poisoned data) s = .next (s.bump 0x4003 5 1)) ∧
    (∀ poisoned data, q.kind = .read → ∃ v : State,
      exec (.responseReceive id (s.postmark q.partition) poisoned data) s = .next (v.resumeRun q.ctx q.idx) ∧ v.mem = s.mem ∧
        v.cs.reqs = modifyWhere (fun r => r.id == id) (fun (r : Req) => { r with answered := true, data := fit r.len data, poisoned := poisoned })
          s.cs.reqs)) ∧
  ∀ (k : ReqKind) (code : Nat), k ≠ .alloc → k ≠ .free → k ≠ .result →
    refusedCode k code = if code = 0x0701 ∨ code = 0x0381 ∨ code = 0x07FC then code else 0x0702

/-- Live retraining (10 R266 to R268): a session that falls due starts when none runs, by draining the controller's write-combining
entries; a request for a channel that cannot train is refused with 0x0186. A session that succeeds or fails is counted, its detour
goes into memory, and two failed in a row mark the channel. -/
def Obligations.ChannelSessionsRun : Prop :=
  (∀ (s : State) (n : Nat), n < 24 → (s.chan n).active = true → s.board.power ≠ 2 → s.trainable n = true →
    s.sessionRunning = false →
      ∃ t, exec (.retrainDue n) s = .next t ∧ (n < s.mem.chans.length → (t.chan n).session = 4 ∧ (t.chan n).due = false) ∧
        t.mem.cells = s.mem.cells ∧ ∀ e ∈ t.mem.wcb, e.channel ≠ n) ∧
  (∀ (s : State) (n : Nat), n < 24 → (s.chan n).active = true → (s.chan n).session = 0 → s.sessionRunning = true →
    exec (.retrainDue n) s = .next (s.setChan n (fun c => { c with due := true, viaReset := false }))) ∧
  (∀ (s : State) (n : Nat), s.mailboxUp = true → n < 24 →
    (s.trainable n = true → exec (.retrainRequest n) s = .next (s.answerWrite 0x2340 6 false (s.dueSession n false, 0))) ∧
    (s.trainable n = false → exec (.retrainRequest n) s = .next (s.abort 0x2340 6 0x06090030 0x0186))) ∧
  (∀ (s : State) (n : Nat), n < 24 → (s.chan n).session ≠ 0 →
    exec (.channelTrainingDone n) s = .next ((s.trained n).endSession n) ∧
      ((s.trained n).closeSession n).mem.cells =
        ((s.chan n).detour ++ (s.chan n).heldWrites).foldl (fun m x => memPut x.1 x.2 m) s.mem.cells) ∧
  (∀ (s : State) (n : Nat), n < 24 → n < s.mem.chans.length → (s.chan n).session ≠ 0 →
    ∃ (v : State), ((v.chan n).failedRow < 2 → (v.chan n).failedResets < 2 → exec (.retrainTimeout n) s = .next v) ∧
      (2 ≤ (v.chan n).failedRow ∨ 2 ≤ (v.chan n).failedResets → exec (.retrainTimeout n) s = .next (v.markChannel n 0 0)) ∧
      (v.chan n).failedRow = (s.chan n).failedRow + (if (s.chan n).viaReset = true then 0 else 1) ∧
      (v.chan n).failedResets = (s.chan n).failedResets + (if (s.chan n).viaReset = true then 1 else 0) ∧
      bit v.faults.latched 21 = true)

/-! ## Dictionary writes -/

/-- How a write is answered (17 R435, R456, R457): with the success answer on what its action left, or with an abort that is
recorded in 0x4001 and changes no value. -/
def Obligations.WritesAreAnswered : Prop :=
  ∀ (s u : State) (idx sub : Nat) (commit : Bool),
    (let t := s.answerWrite idx sub commit (u, 0)
     t.ecat.sm1 = u.ecat.sm1 ++ [sdoDone idx sub] ∧ t.count 0x3250 1 = (u.count 0x3250 1 + 1) % 2 ^ 64 ∧ u.answeredFrom t) ∧
    ∀ detail, detail ≠ 0 →
      let t := s.answerWrite idx sub commit (u, detail)
      t = s.abort idx sub (abortCode commit detail) detail ∧ t.ecat.sm1 = s.ecat.sm1 ++ [sdoAbort idx sub (abortCode commit detail)] ∧
        t.ecat.lastAbort = (dkey idx sub, abortCode commit detail, detail) ∧
        t.count 0x3250 2 = (s.count 0x3250 2 + 1) % 2 ^ 64 ∧ s.answeredFrom t

/-- A value outside an action's range is refused with 0x01F0, and while the mailbox is not served nothing is written (17 R446,
R447, R456). -/
def Obligations.RangesAreKept : Prop :=
  ∀ row ∈ triggerRows, ∀ (s : State) (v : Nat),
    (s.mailboxUp = false → exec (row.1 v) s = .next s) ∧
    (s.mailboxUp = true → (v < row.2.2.2.1 ∨ row.2.2.2.2 < v) →
      exec (row.1 v) s = .next (s.abort row.2.1 row.2.2.1 0x06090030 0x01F0))

/-- NODE_COMMIT and ROUTER_RESET (12 R319, R323): a legal pair is kept, and takes effect at once where no node id is in force, else
at the next router reset, which leaves every enabled port Down and every flit gone. -/
def Obligations.NodePairTakesEffect : Prop :=
  ∀ s : State, s.mailboxUp = true →
    let node := s.staging 0x2360 1
    let dims := s.staging 0x2360 2
    ((bit dims 15 = true ∨ (node ≠ 0xFFFF ∧ (bit node 15 = true ∨ inTorus dims node = false))) →
      exec (.nodeCommit 1) s = .next (s.abort 0x2360 3 0x06040043 0x01A0)) ∧
    (bit dims 15 = false → (node = 0xFFFF ∨ (bit node 15 = false ∧ inTorus dims node = true)) → s.keepRefused = 0 →
      ∃ u : State, exec (.nodeCommit 1) s = .next (s.answerWrite 0x2360 3 true (u, 0)) ∧ u.dget 0x2360 1 = node ∧
        u.dget 0x2360 2 = dims ∧
        (s.node = 0xFFFF → u.node = node ∧ u.fabric.torusInForce = dims ∧ u.fabric.committed = none) ∧
        (s.node ≠ 0xFFFF → u.fabric = { s.fabric with committed := some (node, dims) })) ∧
    exec (.routerReset 1) s = .next (s.answerWrite 0x2360 7 false (s.resetRouter, 0)) ∧
    ((∀ f ∈ s.fabric.waiting, s.req? f.req = none) → let u := s.resetRouter
      u.node = s.dget 0x2360 1 ∧ u.fabric.torusInForce = s.dget 0x2360 2 ∧ u.fabric.held = [] ∧ u.fabric.routes = [] ∧
      (∀ i, i < 12 → (u.port i).sendQ = [] ∧ (u.port i).recv = [] ∧
        (u.port i).st = if s.fabricOn = true ∧ bit (s.dget 0x2362 4) i = true then .down else .disabled) ∧
      u.faults.postmarks = [0, 0, 0, 0] ∧ u.mem = s.mem)

/-- ROUTE_COMMIT and ROUTE_DEFAULTS (12 R320, R321): a legal entry takes the place of its node's, an illegal pair leaves the table,
and the defaults restore every entry; the held flits are routed again. -/
def Obligations.RoutesAreWritten : Prop :=
  ∀ s : State, s.mailboxUp = true →
    let node := s.staging 0x2361 1
    let mask := s.staging 0x2361 2
    let thin := ∃ p, p < 12 ∧ bit mask p = true ∧ axisLen s.fabric.torusInForce (p / 4) = 1
    ((inTorus s.fabric.torusInForce node = false ∨ 4096 ≤ mask ∨ (node = s.node ∧ mask ≠ 0) ∨ thin) →
      exec (.routeCommit 1) s = .next (s.abort 0x2361 3 0x06090030 0x01A1)) ∧
    (inTorus s.fabric.torusInForce node = true → mask < 4096 → (node = s.node → mask = 0) → ¬thin →
      ∃ u : State, exec (.routeCommit 1) s = .next (s.answerWrite 0x2361 3 true (u.rerouteHeld, 0)) ∧
        u.fabric = { s.fabric with routes := kvSet node mask s.fabric.routes } ∧ u.fabric.entry node = mask ∧
        (∀ n, n ≠ node → u.fabric.entry n = s.fabric.entry n) ∧ u.dget 0x2361 1 = node ∧ u.dget 0x2361 2 = mask) ∧
    ∃ u : State, exec (.routeDefaults 1) s = .next (s.answerWrite 0x2361 4 false (u.rerouteHeld, 0)) ∧
      u = { s with fabric := { s.fabric with routes := [] } } ∧
      ∀ n, u.fabric.entry n = defaultRoute s.fabric.torusInForce s.fabric.nodeInForce n

/-- PORT_ENABLE and LANE_RETRAIN_REQUEST (12 R317, R325): ports without their bit are Disabled and others keep their state or go to
Down; a lane that can be retrained starts while no other does, and one that cannot is refused. -/
def Obligations.PortWritesTakeEffect : Prop :=
  ∀ (s : State) (v : Nat), s.mailboxUp = true →
    (v < 4096 → s.keepRefused = 0 → s.fabricOn = true →
      ∃ u : State, exec (.portEnable v) s = .next (s.answerWrite 0x2362 4 false (u, 0)) ∧ u.dget 0x2362 4 = v ∧
        u.fabric.ports = s.fabric.ports.map (fun p =>
          if bit v p.id = false then { p.fallen with st := .disabled }
          else if p.st = .disabled then { p with st := .down }
          else p)) ∧
    (4096 ≤ v → v < 65536 → exec (.portEnable v) s = .next (s.abort 0x2362 4 0x06090030 0x01A3)) ∧
    (v < 48 → s.laneCan (v / 4) (v % 4) = true →
      exec (.laneRetrainRequest v) s = .next (s.answerWrite 0x2362 3 false (
        if s.laneBusy = true then s.setPort (v / 4) (fun p => { p with retrainDue := insertNat (v % 4) p.retrainDue })
        else s.startLane (v / 4) (v % 4), 0))) ∧
    (v < 48 → s.laneCan (v / 4) (v % 4) = false → exec (.laneRetrainRequest v) s = .next (s.abort 0x2362 3 0x06090030 0x01A2))

/-- QUOTA_COMMIT, LAYOUT_COMMIT and RESTORE_DEFAULTS (11 R280, 17 R449, R451, R452): the quota pair takes effect at once or leaves the
previous entry in force; the layout pair is kept for its reset, which leaves the layout in force; the defaults wait for the next
chip reset. -/
def Obligations.PairsTakeEffect : Prop :=
  ∀ s : State, s.mailboxUp = true →
    let client := s.staging 0x2351 1
    let jobs := s.staging 0x2351 2
    (0x100000 < jobs → jobs ≠ 0xFFFFFFFF → exec (.quotaCommit 1) s = .next (s.abort 0x2351 3 0x06090030 0x0192)) ∧
    (s.keepRefused = 0 → jobs ≤ 0x100000 → kvHas client s.office.quotas = true ∨ s.office.quotas.length < 4096 →
      ∃ u : State, exec (.quotaCommit 1) s = .next (s.answerWrite 0x2351 3 true (u, 0)) ∧
        u.office = { s.office with quotas := kvSet client jobs s.office.quotas } ∧ u.quota client = jobs) ∧
    (s.keepRefused = 0 → jobs = 0xFFFFFFFF →
      ∃ u : State, exec (.quotaCommit 1) s = .next (s.answerWrite 0x2351 3 true (u, 0)) ∧
        u.office = { s.office with quotas := kvDel client s.office.quotas }) ∧
    (s.layoutAgrees = false → exec (.layoutCommit 1) s = .next (s.abort 0x2300 6 0x06040043 0x01F1)) ∧
    (s.layoutAgrees = true → s.keepRefused = 0 →
      ∃ u : State, exec (.layoutCommit 1) s = .next (s.answerWrite 0x2300 6 true (u, 0)) ∧ u.office = s.office ∧
        ∀ k, 1 ≤ k → k ≤ 5 → u.dget 0x2300 k = s.staging 0x2300 k) ∧
    exec (.restoreDefaults 0x64616F6C) s =
      .next (s.answerWrite 0x1011 1 false ({ s with store := { s.store with restorePending := true } }, 0)) ∧
    (∀ v, v < 2 ^ 32 → v ≠ 0x64616F6C → exec (.restoreDefaults v) s = .next (s.abort 0x1011 1 0x06090030 0x01F3)) ∧
    (∀ v, v < 2 ^ 32 → v ≠ 0x65766173 → exec (.storeAll v) s = .next (s.abort 0x1010 1 0x06090030 0x01F3))

/-- STORE_ALL and ACTIVATE_FIRMWARE (17 R449, 18 R469, R485): everything pending is committed, and the placed image runs on the same
jobs, sessions and streams where its state formats allow it. FAULT_CLEAR (19 R514): the latched bits that the mask names go. -/
def Obligations.CommandsOfKeeping : Prop :=
  ∀ s : State, s.mailboxUp = true →
    (s.keepRefused = 0 → ∃ u : State, exec (.storeAll 0x65766173) s = .next (s.answerWrite 0x1010 1 false (u, 0)) ∧
      u.store.pending = [] ∧ u.mem = s.mem ∧ u.office = s.office ∧ u.dict = s.dict) ∧
    (s.store.pendingImage = none → exec (.activateFirmware 1) s = .next (s.abort 0x5100 1 0x06090030 0x01F5)) ∧
    (∀ b, s.store.pendingImage = some b →
      (¬(imgLiveFrom b ≤ imgState s.store.running ∧ imgState s.store.running ≤ imgState b) →
        exec (.activateFirmware 1) s = .next (s.abort 0x5100 1 0x06090030 0x01F6)) ∧
      (imgLiveFrom b ≤ imgState s.store.running → imgState s.store.running ≤ imgState b →
        ∃ u : State, exec (.activateFirmware 1) s = .next (s.answerWrite 0x5100 1 false (u, 0)) ∧ u.store.running = b ∧
          u.store.pendingImage = none ∧ u.office = s.office ∧ u.net = s.net ∧ u.codec = s.codec ∧ u.fabric = s.fabric ∧
          u.mem = s.mem)) ∧
    ∀ v, v < 2 ^ 64 → ∃ u : State, exec (.faultClear v) s = .next (s.answerWrite 0x4000 3 false (u, 0)) ∧
      (∀ i, bit u.faults.latched i = (bit s.faults.latched i && !bit v i)) ∧ u.levels = s.levels ∧ u.mem = s.mem

/-- SUSPEND_CONTEXT, SUSPEND_PARTITION and RESUME_CONTEXT (11 R286, R287, R295): a Live context's queue is Pre-empted, its tasks leave
the cells, it takes a save slot and is held; a resume lets it be restored. A context that is not Live, or not Suspended, is refused
with 0x0191, and a lack of save slots with 0x0292. -/
def Obligations.SuspensionsBegin : Prop :=
  (∀ (s : State) (c i : Nat) (x : Ctx), s.mailboxUp = true → c < 2 ^ 32 → s.ctx? c = some x →
    (x.state ≠ .live → exec (.suspendContext c) s = .next (s.abort 0x2350 4 0x06090030 0x0191)) ∧
    (x.state = .live → x.suspending = false → s.freeSlot x.partition = none →
      exec (.suspendContext c) s = .next (s.abort 0x2350 4 0x08000020 0x0292)) ∧
    (x.state = .live → x.suspending = false → s.freeSlot x.partition = some i →
      ∃ u : State, exec (.suspendContext c) s = .next (s.answerWrite 0x2350 4 false (u, 0)) ∧
        u.ctx? c = some { x with
          wasHalted := x.queue.qs == .halted
          suspending := true
          held := true
          saveSlot := some i
          queue := { x.queue with qs := .preempted } } ∧
        u.office.saveUsed = s.office.saveUsed ++ [(x.partition, i)] ∧
        (∀ k ∈ u.office.tasks, k.ctx = c → k.phase = .stopped ∨ k.phase = .withdrawn) ∧ u.mem = s.mem) ∧
    (x.state ≠ .suspended → exec (.resumeContext c) s = .next (s.abort 0x2350 5 0x06090030 0x0191)) ∧
    (x.state = .suspended →
      exec (.resumeContext c) s = .next (s.answerWrite 0x2350 5 false (s.setCtx c (fun x => { x with held := false }), 0)))) ∧
  (∀ (s : State) (p : Nat), s.mailboxUp = true → p < 4 →
    let live := s.office.ctxs.filter (fun x => x.partition == p && x.state == .live)
    let free := (List.range s.mem.saveSlots).filter (s.slotFree p)
    (s.partExists p = false → exec (.suspendPartition p) s = .next (s.abort 0x2350 6 0x06090030 0x01F0)) ∧
    (s.partExists p = true → (∀ x ∈ live, x.suspending = false) → free.length < live.length →
      exec (.suspendPartition p) s = .next (s.abort 0x2350 6 0x08000020 0x0292)) ∧
    (s.partExists p = true → live = [] → exec (.suspendPartition p) s = .next (s.answerWrite 0x2350 6 false (s, 0))) ∧
    (s.partExists p = true → (∀ x ∈ live, x.suspending = false) → live.length ≤ free.length →
      exec (.suspendPartition p) s = .next (s.answerWrite 0x2350 6 false (live.foldl (fun s x => s.suspendStart x.number true) s, 0))))

/-! ## Fences and resets -/

/-- FENCE_UNIT and CLEAR_FENCE (19 R517, R518): the pair is read at once. An illegal unit or action and a region's last channel are
refused; fencing what is fenced and clearing what is not change nothing; a clear waits for the next chip reset. -/
def Obligations.FencePairTakesEffect : Prop :=
  ∀ s : State, s.mailboxUp = true →
    let unit := s.staging 0x4010 1
    let act := s.staging 0x4010 2
    let noted := (s.dset 0x4010 1 unit).dset 0x4010 2 act
    (act ≠ 2 → fenceable unit = false ∨ act ≠ 1 → exec (.fenceUnit 1) s = .next (s.abort 0x4010 3 0x06090030 0x01F8)) ∧
    (act = 1 → fenceable unit = true → s.isFenced unit = false → s.lastChannel unit = true →
      exec (.fenceUnit 1) s = .next (s.abort 0x4010 3 0x08000020 0x02F8)) ∧
    (act = 1 → fenceable unit = true → s.keepRefused = 0 →
      (s.isFenced unit = true → exec (.fenceUnit 1) s = .next (s.answerWrite 0x4010 3 true (noted, 0))) ∧
      (s.isFenced unit = false → s.lastChannel unit = false →
        exec (.fenceUnit 1) s = .next (s.answerWrite 0x4010 3 true (noted.fenceNow unit 1 0, 0)) ∧
        (unit / 4096 = 4 → (noted.fenceNow unit 1 0).isFenced unit = true))) ∧
    (act = 2 → fenceable unit = false → exec (.clearFence 1) s = .next (s.abort 0x4010 3 0x06090030 0x01F8)) ∧
    (act = 2 → fenceable unit = true → s.keepRefused = 0 →
      (s.fenceOf unit = none → exec (.clearFence 1) s = .next (s.answerWrite 0x4010 3 true (noted, 0))) ∧
      (∀ f, s.fenceOf unit = some f → f.state = 1 →
        ∃ u : State, exec (.clearFence 1) s = .next (s.answerWrite 0x4010 3 true (u, 0)) ∧ u = noted.putFence unit 3 1 0 ∧
          u.isFenced unit = true ∧ (u.fenceOf unit).map (fun f => f.state) = some 3))

/-- The four resets that ResetRequest asks for (19 R500 to R502, R521): the answer is placed, and then the reset begins. A partition
stops and discards its tasks; a chip reset is counted and remembers its cause 0x0000; a power cycle waits for the tray. -/
def Obligations.ResetsAreRequested : Prop :=
  ∀ s : State, s.mailboxUp = true →
    let answered := s.answerWrite 0x4040 1 false (s, 0)
    (∀ p, p < 4 → s.partExists p = true → exec (.resetPartition (0x10 + p)) s = .next (answered.resetPart p 0) ∧
      (s.office.stopped.contains p = false → (answered.resetPart p 0).office.stopped = insertNat p s.office.stopped)) ∧
    exec (.resetChip 0x20) s = .next (answered.chipReset 0 (unitCore 0) false false false) ∧
    exec (.resetChipCullet 0x21) s = .next (answered.chipReset 0 (unitCore 0) false true false) ∧
    (∃ t, exec (.resetPowerCycle 0x30) s = .next t ∧ t.board.phase = .awaitingCycle ∧ t.faults.pwrReq = true ∧
      t.alert = true) ∧
    ∀ v, v < 256 → s.resetLegal v = false → exec (.resetPartition v) s = .next (s.abort 0x4040 1 0x06090030 0x01F9)

/-! ## Security, debug and power -/

/-- The six token rows (20 R533 to R536, R538): an attempt uses up the challenge; a token that fails a check is refused with its
code, and one that passes has its operation's effect. -/
def Obligations.TokensAct : Prop :=
  ∀ (s : State) (b : Bytes), s.mailboxUp = true →
    let u := s.attempted
    let ok := u.acceptToken
    (∀ row ∈ [(1, Instr.unlockObserve b), (2, .unlockFull b), (3, .toField b true), (4, .toReturned b true), (5, .toScrapped b true),
        (6, .revoke b true)], tokenOf row.1 b = true → s.tokenCode b ≠ 0 →
      exec row.2 s = .next (u.refuseToken (s.tokenCode b)) ∧ (u.refuseToken (s.tokenCode b)).sec.challenge = none ∧
        (u.refuseToken (s.tokenCode b)).sec.tokenState = 3 ∧ (u.refuseToken (s.tokenCode b)).sec.fuses = s.sec.fuses) ∧
    (s.tokenCode b = 0 →
      (tokenOf 1 b = true → exec (.unlockObserve b) s = .next { ok with sec := { ok.sec with level := 1 } }) ∧
      (tokenOf 2 b = true → exec (.unlockFull b) s = .next { ok with sec := { ok.sec with level := 2 } }) ∧
      (tokenOf 3 b = true → ∃ t, exec (.toField b true) s = .next t ∧ t = ok.changeLife 2 ∧ t.sec.fuses.lifecycle = 2) ∧
      (tokenOf 4 b = true → ∃ t, exec (.toReturned b true) s = .next t ∧ t = ok.changeLife 3 ∧ t.sec.fuses.lifecycle = 3 ∧
        t.sec.identity = none) ∧
      (tokenOf 5 b = true → ∃ t, exec (.toScrapped b true) s = .next t ∧ t = ok.changeLife 4 ∧ t.sec.fuses.lifecycle = 4 ∧
        t.sec.fuses.secretKilled = true ∧ t.sec.identity = none) ∧
      (tokenOf 6 b = true → ∃ t, exec (.revoke b true) s = .next t ∧ t = { ok with sec := t.sec } ∧
        t.sec.fuses = { s.sec.fuses with revoked := setBit s.sec.fuses.revoked (leAt b 6 1) true })) ∧
    ok.sec.tokenState = 2 ∧ ok.sec.challenge = none ∧ ok.sec.refusals = 0 ∧ ok.sec.fuses = s.sec.fuses

/-- CHALLENGE, CHALLENGE_LOCKOUT_END, TRNG_HEALTH_FAIL and TRNG_RESUME (20 R526, R533): 32 bytes take the place of the previous
challenge; a lockout and a TRNG that withholds its output abort the read. The eighth refusal in a row locks challenges out. -/
def Obligations.ChallengesAreFresh : Prop :=
  (∀ s : State, s.mailboxUp = true →
    (s.sec.lockedOut = true → exec .challenge s = .next (s.abort 0x5020 1 0x08000020 0x02FD)) ∧
    (s.sec.lockedOut = false → s.sec.trngFail = true → exec .challenge s = .next (s.abort 0x5020 1 0x08000021 0x05FF)) ∧
    (s.sec.lockedOut = false → s.sec.trngFail = false → ∃ (u : State) (n : Bytes), exec .challenge s = .next (u.upload 0x5020 1 n) ∧
      n.length = 32 ∧ u.sec = { s.sec with challenge := some n } ∧ u.mem = s.mem ∧ u.office = s.office)) ∧
  (∀ s : State, exec .challengeLockoutEnd s = .next { s with sec := { s.sec with lockedOut := false } }) ∧
  (∀ s : State, ∃ t, exec .trngHealthFail s = .next t ∧ t.sec = { s.sec with trngFail := true } ∧ t.mem = s.mem ∧ t.office = s.office) ∧
  (∀ s : State, ∃ t, exec .trngResume s = .next t ∧ t.sec = { s.sec with trngFail := false } ∧ t.mem = s.mem ∧ t.office = s.office) ∧
  ∀ s : State, s.sec.refusals = 7 → (s.refuseToken 0x05FE).sec.lockedOut = true ∧ (s.refuseToken 0x05FE).sec.refusals = 0

/-- Identity and attestation (20 R538, R539, R541, R544): a blank module is provisioned or scrapped, the identity key rotates with its
generation, and a nonce is answered by a signed report. -/
def Obligations.IdentityIsKept : Prop :=
  (∀ s : State, s.mailboxUp = true →
    (s.sec.fuses.lifecycle ≠ 0 → exec (.provision 1 true) s = .next (s.abort 0x5001 6 0x06090030 0x01FD) ∧
      exec (.provisionScrap 2 true) s = .next (s.abort 0x5001 6 0x06090030 0x01FD)) ∧
    (s.sec.fuses.lifecycle = 0 → s.sec.trngFail = false →
      ∃ u : State, exec (.provision 1 true) s = .next (s.answerWrite 0x5001 6 false (u, 0)) ∧ u.sec.fuses.lifecycle = 1 ∧
        u.sec.level = 0 ∧ u.sec.identity = some (s.makeIdentity 1)) ∧
    (s.sec.fuses.lifecycle = 0 → ∃ t, exec (.provisionScrap 2 true) s = .next t ∧
      t = (s.answerWrite 0x5001 6 false (s, 0)).changeLife 4 ∧ t.sec.fuses.lifecycle = 4 ∧ t.sec.fuses.secretKilled = true)) ∧
  (∀ (s : State) (d : Nat) (old : Identity), s.mailboxUp = true → s.usableKey = some d → s.sec.identity = some old →
    (s.sec.attState = 1 → exec (.rotateIdentity 1) s = .next (s.abort 0x5001 3 0x08000020 0x02FC)) ∧
    (s.sec.attState ≠ 1 → s.sec.trngFail = false → s.store.condition ≠ 2 →
      ∃ (u : State) (x : Identity), exec (.rotateIdentity 1) s = .next (s.answerWrite 0x5001 3 false (u, 0)) ∧
        u.sec.identity = some x ∧ x.generation = (old.generation + 1) % 2 ^ 16 ∧
        u.sec.rotations = newestOf 16 (s.sec.rotations ++ [(x.generation, rotationRecord x d (s.freshKey 200))]) ∧
        u.count 0x5050 4 = (s.count 0x5050 4 + 1) % 2 ^ 64)) ∧
  (∀ (s : State) (nonce : Bytes), s.mailboxUp = true → nonce.length = 32 →
    (s.usableKey = none → exec (.attestNonce nonce) s = .next (s.abort 0x5002 1 0x08000021 0x05FF)) ∧
    (∀ d, s.usableKey = some d → s.sec.attState ≠ 1 → exec (.attestNonce nonce) s = .next (s.answerWrite 0x5002 1 false
      ({ s with sec := { s.sec with attState := 1, attNonce := nonce, attReport := [] } }, 0)))) ∧
  (∀ (s : State) (x : Identity) (d : Nat), s.sec.identity = some x → s.sec.fuses.unwrapKey x = some d → s.sec.attState = 1 →
    s.board.phase = .serving →
      let sig := ecdsaSign d (s.reportHead x)
      exec .attestReportReady s = .next (({ s with sec := { s.sec with
        attState := 2
        attReport := s.reportHead x ++ beBytes 66 sig.1 ++ beBytes 66 sig.2 ++ leBytes 44 0 } } : State).bump 0x5050 3 1))

/-- RAISE_SECURITY_VERSION (20 R532): the fuses come to the running image's version; the write is refused with 0x01FD where the anchor's image
has a lower one, and changes nothing where nothing is to be blown. A blow that fails is refused with 0x03FC (20 R528). -/
def Obligations.SecurityVersionIsRaised : Prop :=
  ∀ (s : State) (i : Image) (ok : Bool), s.mailboxUp = true → s.store.image = some i →
    let now := imgSecVer s.store.running
    (imgSecVer i.bytes < now → exec (.raiseSecurityVersion 1 ok) s = .next (s.abort 0x5000 8 0x06090030 0x01FD)) ∧
    (now ≤ imgSecVer i.bytes → now ≤ s.sec.fuses.secVer →
      exec (.raiseSecurityVersion 1 ok) s = .next (s.answerWrite 0x5000 8 false (s, 0))) ∧
    (now ≤ imgSecVer i.bytes → s.sec.fuses.secVer < now →
      exec (.raiseSecurityVersion 1 true) s = .next (s.answerWrite 0x5000 8 false ({ s with sec := { s.sec with
        fuses := { s.sec.fuses with secVer := now } } }, 0)) ∧
      ∃ u : State, exec (.raiseSecurityVersion 1 false) s = .next (u.abort 0x5000 8 0x06060000 0x03FC) ∧ u.sec = s.sec)

/-- RELOCK, DEBUG_DATA_READ and DEBUG_DATA_WRITE (20 R545, R547, 10 R245): an access beyond the debug level and an address with high
bits are aborted; else the 64 bytes are read or written as an ordinary access, and unmapped and dark ones read as zero and are counted.
A misaligned address is aborted too (DESIGN CHOICE). -/
def Obligations.DebugAccessesMemory : Prop :=
  ∀ s : State, s.mailboxUp = true →
    let a := s.dget 0x5031 1
    (s.sec.level = 0 → exec (.relock 1) s = .next (s.abort 0x5030 2 0x08000021 0x05FE)) ∧
    (s.sec.level ≠ 0 → exec (.relock 1) s = .next (s.answerWrite 0x5030 2 false ({ s with sec := { s.sec with
      level := if s.sec.fuses.lifecycle = 0 then 2 else 0 } }, 0))) ∧
    (s.sec.level = 0 → exec .debugDataRead s = .next (s.abort 0x5031 2 0x08000021 0x05FE)) ∧
    (s.sec.level < 2 → ∀ data, data.length = 64 → exec (.debugDataWrite data) s = .next (s.abort 0x5031 2 0x08000021 0x05FE)) ∧
    (1 ≤ s.sec.level → 2 ^ 40 ≤ a → a < 2 ^ 64 → exec .debugDataRead s = .next (s.abort 0x5031 2 0x06090030 0x01FC)) ∧
    (1 ≤ s.sec.level → a < 2 ^ 40 → a % 64 = 0 → s.extestOn = false →
      (s.darkAt a = true ∨ s.unmapped a false = true →
        exec .debugDataRead s = .next ((s.bump 0x31C0 0x10 1).upload 0x5031 2 (List.replicate 64 0))) ∧
      (s.darkAt a = false → s.unmapped a false = false → s.mem.poisonIn a 64 = [] →
        exec .debugDataRead s =
          .next ((s.bump 0x31C0 1 (if s.mem.window a = 1 then 64 else 0)).upload 0x5031 2 (s.readBytes a 64))) ∧
      ∀ data, data.length = 64 → s.sec.level = 2 →
        (s.darkAt a = true ∨ s.unmapped a true = true →
          exec (.debugDataWrite data) s = .next (s.answerWrite 0x5031 2 false (s.bump 0x31C0 0x10 1, 0))) ∧
        (s.darkAt a = false → s.unmapped a true = false → s.mem.window a ≠ 4 →
          exec (.debugDataWrite data) s = .next (s.answerWrite 0x5031 2 false (s.writeBytes a data, 0))))

/-- The JTAG rows (20 R545, R546): an instruction that the debug level and the lifecycle grant acts on its register; any other acts as
BYPASS, as do codes of no instruction; a TAP reset selects IDCODE. -/
def Obligations.TapInstructionsAct : Prop :=
  (∀ row ∈ tapRows, ∀ s : State, s.tapOn = true → s.granted? row.1 = false →
    exec row.2 s = .next { s with sec := { s.sec with tapIr := row.1, tapOut := [0], bypassBit := false } }) ∧
  (∀ s : State, s.tapOn = true →
    exec .idcode s = .next { s with sec := { s.sec with tapIr := 1, tapOut := leBytes 4 idcode } } ∧
    (∀ code tdi, s.granted? (code % 256) = false →
      exec (.bypass code tdi) s = .next { s with sec := { s.sec with tapIr := code % 256, tapOut := [0], bypassBit := tdi } }) ∧
    (∀ v, s.granted? 0x02 = true → ∃ (t : State) (o : Bytes), exec (.samplePreload v) s = .next t ∧
      t.sec = { s.sec with tapIr := 2, boundary := v, tapOut := o } ∧ t.mem = s.mem ∧ t.fabric = s.fabric) ∧
    (∀ v, s.granted? 0x00 = true → ∃ t, exec (.extest v) s = .next t ∧ t.sec.tapIr = 0 ∧ t.sec.boundary = v ∧ t.extestOn = true ∧
      t.net.linkUp = [false, false] ∧ (∀ p ∈ t.fabric.ports, p.st = .disabled ∨ p.st = .down)) ∧
    (∀ unit, s.granted? 0x10 = true → scanUnits.contains unit = true → s.isFenced unit = false →
      ∃ t, exec (.scanread unit) s = .next t ∧ t.sec.tapIr = 0x10 ∧ t.mem = s.mem ∧ t.office = s.office ∧
        ∀ d, s.sec.scan.find? (fun x => x.1 == unit) = some (unit, d) → t.sec.tapOut = d) ∧
    (∀ unit data, s.granted? 0x11 = true → scanUnits.contains unit = true → s.isFenced unit = false →
      exec (.scanwrite unit data) s = .next { s with sec := { s.sec with
        tapIr := 0x11
        scan := s.sec.scan.filter (fun x => x.1 != unit) ++ [(unit, data)] } }) ∧
    (∀ core halt, s.granted? 0x12 = true → core < 4 → ∃ t, exec (.corehalt core halt) s = .next t ∧
      (∀ c, c ∈ t.sec.coreHalted ↔ if c = core then halt = true else c ∈ s.sec.coreHalted) ∧
      t = { s with sec := { s.sec with tapIr := 0x12, coreHalted := t.sec.coreHalted } })) ∧
  (∀ s : State, exec .tapReset s = .next { s with sec := { s.sec with tapIr := 1, tapOut := [] } }) ∧
  ∀ s : State, (s.granted? 0x11 = true → s.sec.level = 2) ∧ (s.granted? 0x12 = true → s.sec.level = 2) ∧
    (s.granted? 0x10 = true → 1 ≤ s.sec.level) ∧
    (s.granted? 0x00 = true → s.sec.level = 2 ∧ (s.sec.fuses.lifecycle = 0 ∨ s.sec.fuses.lifecycle = 3))

/-- POWER_FULL, POWER_TRIM and POWER_HOLD (20 R549, R550): a pair that does not agree is refused with 0x01F1, and one that takes power from
a partition that holds a context with 0x02FC; any other is kept and comes into force; Hold ends every session. -/
def Obligations.PowerPairComesIntoForce : Prop :=
  ∀ s : State, s.mailboxUp = true → let trim := s.staging 0x5040 2
    let kept := fun (mode : Nat) (u : State) => u.board.power = mode ∧ u.board.trim = trim ∧
      (mode = 2 → s.board.power ≠ 2 → u.net.sessions = [] ∧ u.net.linkUp = [false, false])
    let fit := fun (mode : Nat) => s.powerAgrees mode trim = true ∧ s.powerBusy mode trim = false ∧ s.keepRefused = 0
    (s.staging 0x5040 1 = 0 →
      (s.powerAgrees 0 trim = false → exec (.powerFull 1) s = .next (s.abort 0x5040 3 0x06040043 0x01F1)) ∧
      (s.powerAgrees 0 trim = true → s.powerBusy 0 trim = true → exec (.powerFull 1) s = .next (s.abort 0x5040 3 0x08000020 0x02FC)) ∧
      (fit 0 → ∃ u : State, exec (.powerFull 1) s = .next (s.answerWrite 0x5040 3 true (u, 0)) ∧ kept 0 u)) ∧
    (s.staging 0x5040 1 = 1 →
      (s.powerAgrees 1 trim = false → exec (.powerTrim 1) s = .next (s.abort 0x5040 3 0x06040043 0x01F1)) ∧
      (s.powerAgrees 1 trim = true → s.powerBusy 1 trim = true → exec (.powerTrim 1) s = .next (s.abort 0x5040 3 0x08000020 0x02FC)) ∧
      (fit 1 → ∃ u : State, exec (.powerTrim 1) s = .next (s.answerWrite 0x5040 3 true (u, 0)) ∧ kept 1 u)) ∧
    (s.staging 0x5040 1 = 2 →
      (s.powerAgrees 2 trim = false → exec (.powerHold 1) s = .next (s.abort 0x5040 3 0x06040043 0x01F1)) ∧
      (s.powerAgrees 2 trim = true → s.powerBusy 2 trim = true → exec (.powerHold 1) s = .next (s.abort 0x5040 3 0x08000020 0x02FC)) ∧
      (fit 2 → ∃ u : State, exec (.powerHold 1) s = .next (s.answerWrite 0x5040 3 true (u, 0)) ∧ kept 2 u))

/-- The supply, PERST_N and the references (18 R472, R474, 21 R568 to R571): what each event leaves the module in. The sensors (21 R573): above
95 °C the warning is set, below 92 °C it clears, and between it stays; above a throttle threshold the compute clocks lower by a step, to
eight of them; above the trip thresholds the rails go off; temperatures are in 1/16 °C. The input voltage is shown, and out of 36 to 48 V
its level bit stands. -/
def Obligations.SupplyAndSensorsMoveTheModule : Prop :=
  ((∀ s : State, s.board.phase = .serving → ∃ t u : State, exec .powerFall s = .next t ∧ t.store = u.powerLost.store ∧
     u.store = s.store ∧ u.mem = s.mem ∧ t.board.phase = .powerLoss ∧ t.board.millivolts < 33000 ∧ t.net.linkUp = [false, false]) ∧
   (∀ (s : State) (l : List Rec), s.store.condition ≠ 2 → (s.commitWith l).store.pending = []) ∧
   (∀ s : State, s.board.phase = .powerLoss → s.board.perstLow = false → ∃ u : State,
     exec .powerReturn s = .next (u.chipReset 0 (unitCore 0) false false false) ∧ u.board.phase = .serving ∧ u.store = s.store ∧
       u.mem = s.mem) ∧
   (∀ (s : State) (ok : Bool) (bad : List Nat), s.board.phase = .off → s.board.perstLow = false → ∃ u : State,
     exec (.powerOn ok bad) s = .next (u.coldStart ((bad.filter (fun n => decide (n < 24))).eraseDups)) ∧ u.sec.level = (if s.sec.fuses.lifecycle = 0 then 2 else 0) ∧
       u.sec.fuses = s.sec.fuses ∧ u.mem.cells = [] ∧ u.office.ctxs = [] ∧ u.pending = s.pending ∧ u.store.answers = ok) ∧
   (∀ s : State, s.board.phase = .serving ∨ s.board.phase = .stopped ∨ s.board.phase = .bootstrap → s.board.perstLow = false →
     ∃ t, exec .perst s = .next t ∧ t.board.phase = .heldInReset ∧
     t.board.perstLow = true ∧ t.count 0x3210 5 = 0 ∧ t.faults.lastCause = 0 ∧ t.net.sessions = []) ∧
   (∀ s : State, s.board.phase = .heldInReset → s.store.answers = true → ∃ u : State, exec .perstRelease s = .next (u.startUp []) ∧
     u = { s with board := { s.board with perstLow := false, ref100 := true } }) ∧
   (∀ s : State, ∃ t, exec .refclk156Loss s = .next t ∧ t.board.ref156 = false ∧ t.net.linkUp = [false, false] ∧
     (∀ p ∈ t.fabric.ports, p.st = .disabled ∨ p.st = .down) ∧
     ((∀ p ∈ s.fabric.ports, p.st ≠ .disabled → p.sendQ = []) → t.mem = s.mem ∧ t.office = s.office)) ∧
   (∀ s : State, exec .refclk156Return s = .next { s with board := { s.board with ref156 := true } }) ∧
   ∀ s : State, s.board.phase = .serving →
     exec .refclk100Loss s = .next { s with board := { s.board with ref100 := false, phase := .stopped } }) ∧
  ((∀ (s : State) (die dev : Nat), ∃ t, exec (.thermalWarning die dev) s = .next t ∧ t.board.dieTemp = die ∧ t.board.deviceTemp = dev ∧
     (t.board.warned = true ↔ 1520 < die ∨ 1520 < dev ∨ (s.board.warned = true ∧ (1472 ≤ die ∨ 1472 ≤ dev))) ∧
     bit t.faultSummary 17 = (bit s.faults.latched 17 || t.board.warned) ∧ t.mem = s.mem ∧ t.office = s.office) ∧
   (∀ (s : State) (die dev watts : Nat), ∃ t, exec (.throttleStep die dev watts) s = .next t ∧ t.board.watts = watts ∧
     (1600 < die ∨ 1600 < dev ∨ 1500 < watts → t.board.clockSteps = min 8 (s.board.clockSteps + 1)) ∧
     (die ≤ 1600 → dev ≤ 1600 → watts ≤ 1500 →
       t.board.clockSteps = if die < 1568 then s.board.clockSteps - 1 else s.board.clockSteps)) ∧
   (∀ (s : State) (die dev : Nat), 1760 < die ∨ 1680 < dev → s.board.phase = .serving →
     ∃ t, exec (.thermalTrip die dev) s = .next t ∧ t.board.phase = .tripped ∧
       t.net.linkUp = [false, false] ∧ ∀ p ∈ t.fabric.ports, p.st = .disabled ∨ p.st = .down) ∧
   (∀ (s : State) (mv : Nat), 33000 ≤ mv → ∃ t, exec (.inputVoltageOutOfRange mv) s = .next t ∧ t.board.millivolts = mv ∧
     (mv < 36000 ∨ 48000 < mv → bit t.faultSummary 18 = true) ∧ t.mem = s.mem))

/-- FOE_READ and FOE_WRITE_FIRMWARE (17 R444, R445, 18 R484): a password other than zero is refused; a file is answered in packets of
1,012 bytes, the last one shorter; an image is placed and waits for activation, and one that a check refuses is not placed. -/
def Obligations.FilesAreServed : Prop :=
  (∀ (s : State) (pw : Nat) (name : Bytes), s.mailboxUp = true →
    (pw ≠ 0 → exec (.foeRead pw name) s = .next (s.foeError 0x8004 0x01F0)) ∧
    (name ≠ ascii "firmware" → s.foeFile name = none → exec (.foeRead 0 name) s = .next (s.foeError 0x8001 0x01F0)) ∧
    (∀ b, name ≠ ascii "firmware" → s.foeFile name = some b → ∃ t, exec (.foeRead 0 name) s = .next t ∧
      t.ecat.sm1 = s.ecat.sm1 ++ foePackets b ∧ t.count 0x3250 5 = (s.count 0x3250 5 + b.length) % 2 ^ 64 ∧ t.store = s.store)) ∧
  (∀ (s : State) (pw rb : Nat) (image : Bytes), s.mailboxUp = true →
    (pw ≠ 0 → exec (.foeWriteFirmware pw rb image) s = .next (s.foeError 0x8004 0x01F0)) ∧
    ((s.imageRefused image).1 ≠ 0 → exec (.foeWriteFirmware 0 rb image) s =
      .next (s.foeError (s.imageRefused image).2 (s.imageRefused image).1)) ∧
    ((s.imageRefused image).1 = 0 → ∃ t, exec (.foeWriteFirmware 0 rb image) s = .next t ∧ t = s.takeImage image rb ∧
      t.office = s.office ∧ t.mem = s.mem ∧ (rb = 0 → t.store.pendingImage = some image)))

/-! ## Courier -/

/-- INVALID_DATAGRAM, OPEN, RETRANSMIT_TIMEOUT, ACK_TIMER and the links (16 R408, R412 to R415, R425): what is dropped is counted; an
Open creates a session or finds the one it repeats; messages not acknowledged are sent again until the session is lost; a data port
answers for its own addresses. The bytes of ARP, neighbour and echo answers are PRESUMED. -/
def Obligations.SessionsAndPorts : Prop :=
  (∀ (s : State) (d : Dgram), s.dataPort d.port = true → exec (.invalidDatagram d) s = .next (s.bump 0x3240 4 1)) ∧
  (∀ (s : State) (d : Dgram), let m := Msg.parse d.bytes
    s.dataPort d.port = true → dgramBad d.bytes = false → m.headerBad = false → m.type = 0x01 → m.session = 0 →
      (m.body.length ≠ 8 → exec (.openSession d) s = .next (s.replyRaw d 0 m.seq 0x01E2)) ∧
      (m.body.length = 8 → beAt m.body 2 2 = 0 →
        (∀ x, s.reopened d (beAt m.body 4 4) = some x →
          exec (.openSession d) s = .next ((s.bump 0x3240 1 1).replyRaw d x.id m.seq 0)) ∧
        (s.reopened d (beAt m.body 4 4) = none → 1024 ≤ s.net.sessions.length →
          exec (.openSession d) s = .next ((s.bump 0x3240 1 1).replyRaw d 0 m.seq 0x02E0)) ∧
        (s.reopened d (beAt m.body 4 4) = none → s.net.sessions.length < 1024 →
          ∃ u : State, exec (.openSession d) s = .next (u.replyRaw d s.net.nextSession m.seq 0) ∧
            u.net.nextSession = s.net.nextSession % 0xFFFFFFFF + 1 ∧ u.net.sessions = s.net.sessions ++
              [⟨s.net.nextSession, beAt m.body 0 2, d.port, d.ip, d.udp, d.mac, d.ip, d.udp, beAt m.body 4 4, 1, 1, 0, m.window,
                0, 0, false, false, [], []⟩]))) ∧
  (∀ (s : State) (id : Nat) (x : Session), s.session? id = some x →
    (x.sent ≠ [] → x.resends < s.dget 0x23A0 4 → ∃ t, exec (.retransmitTimeout id) s = .next t ∧
      (t.session? id).map (fun y => (y.resends, y.sent)) = some (x.resends + 1, x.sent) ∧
      t.count 0x3240 3 = (s.count 0x3240 3 + x.sent.length) % 2 ^ 64) ∧
    (x.sent ≠ [] → s.dget 0x23A0 4 ≤ x.resends → ∃ t, exec (.retransmitTimeout id) s = .next t ∧ t.session? id = none ∧
      t.count 0x3240 5 = (s.count 0x3240 5 + 1) % 2 ^ 64) ∧
    (x.owed ≠ 0 → ∃ t, exec (.ackTimer id) s = .next t ∧ (t.session? id).map (fun y => y.owed) = some 0)) ∧
  (∀ (s : State) (port : Nat), exec (.portLinkLoss port) s = .next { s with net := { s.net with
      linkUp := modifyAt (fun _ => false) port s.net.linkUp } } ∧
    (s.portsEnabled = true → exec (.dataPortLinkUp port) s = .next { s with net := { s.net with
      linkUp := modifyAt (fun _ => true) port s.net.linkUp } })) ∧
  (∀ (s : State) (port a src mac : Nat), s.dataPort port = true → a ≠ 0 →
    (a = s.ipv4 port → ∃ b, exec (.arpRequest port a src mac) s = .next (s.putRaw port mac b)) ∧
    (a ≠ s.ipv4 port → exec (.arpRequest port a src mac) s = .next s) ∧
    (a = s.ipv6 port → ∃ b, exec (.neighbourSolicitation port a src mac) s = .next (s.putRaw port mac b)) ∧
    (a ≠ s.ipv6 port → exec (.neighbourSolicitation port a src mac) s = .next s) ∧
    ∀ payload,
      (a = s.ipv4 port → exec (.echoRequest port false a src payload) s = .next (s.putRaw port src (icmp4 0 payload))) ∧
      (a = s.ipv6 port → exec (.echoRequest port true a src payload) s = .next (s.putRaw port src (icmp6 a src 129 payload))))

/-- CLOSE, ACK, ALLOC, FREE, WRITE and READ on a session (10 R249, R253 to R256, 16 R412 to R417): the next message of a session acts; a
repeated or early one is acknowledged and discarded, and a body of the wrong form is answered with 0x01E2. A WRITE or READ that a
channel marked for fencing cannot serve is answered with 0x0381; which ones it cannot serve is a free value (DESIGN CHOICE). -/
def Obligations.CourierMessagesActInOrder : Prop :=
  ∀ (s : State) (d : Dgram) (x : Session),
    let m := Msg.parse d.bytes
    let u := s.received d x
    (∀ row ∈ [((.closeSession : Dgram → Instr), 0x02), (.alloc, 0x10), (.free, 0x11), (.write, 0x12), (.read, 0x13)],
      s.dataPort d.port = true → dgramBad d.bytes = false → m.headerBad = false → m.type = row.2 → s.session? m.session = some x →
        (m.seq ≠ x.rxNext → exec (row.1 d) s = .next ((s.accept d x m).sendAck x.id)) ∧
        (m.seq = x.rxNext → bodyOk row.2 m.body = false → exec (row.1 d) s = .next (u.reply x.id m.seq 0x01E2 0 0))) ∧
    (s.brings d 0x02 x →
      exec (.closeSession d) s = .next (((u.sendAck x.id).setSession x.id (fun x => { x with closing := true })).endClosing x.id)) ∧
    (s.brings d 0x03 x → exec (.ack d) s = .next u) ∧
    (s.brings d 0x12 x →
      let a := beAt m.body 0 8
      let b := m.body.drop 16
      (a + b.length ≤ u.mem.reserveBase → exec (.write d) s =
        .next (if u.unserved [(a, b.length)] = true then u.reply x.id m.seq 0x0381 0 0 else u.writeBytes a b)) ∧
      (u.mem.reserveBase < a + b.length → exec (.write d) s = .next (u.reply x.id m.seq 0x01E6 0 0))) ∧
    (s.brings d 0x13 x →
      let a := beAt m.body 0 8
      let n := beAt m.body 8 4
      (a + n ≤ u.mem.reserveBase → u.mem.poisonIn a n = [] → exec (.read d) s = .next (
        if u.unserved [(a, n)] = true then u.reply x.id m.seq 0x0381 0 0
        else ((u.readRuns [(a, n)]).sendData x.id m.seq 0 (chunks 8912 (u.readBytes a n))).reply x.id m.seq 0 0 0)) ∧
      (a + n ≤ u.mem.reserveBase → u.mem.poisonIn a n ≠ [] →
        exec (.read d) s = .next ((u.sawPoison (u.mem.poisonIn a n)).reply x.id m.seq 0x0302 0 0)) ∧
      (u.mem.reserveBase < a + n → exec (.read d) s = .next (u.reply x.id m.seq 0x01E6 0 0))) ∧
    (s.brings d 0x10 x →
      let size := leAt m.body 0 8
      let p := bits (leAt m.body 8 4) 19 2
      (∀ code, u.checkAlloc m.body = code → code ≠ 0 → exec (.alloc d) s = .next (u.reply x.id m.seq code 0 0)) ∧
      (∀ a, u.checkAlloc m.body = 0 → bits (leAt m.body 8 4) 16 2 ≠ 2 → roundUp size 4096 ≤ u.freeBytesPool →
        u.place p (roundUp size 4096) true = some a →
          let v := u.clearRun a (roundUp size 4096)
          exec (.alloc d) s = .next (({ v with mem := { v.mem with objects := v.mem.objects ++
            [⟨a, roundUp size 4096, leAt m.body 8 2, 0xFFFF, false, p⟩] } } : State).reply x.id m.seq 0 0 a))) ∧
    (s.brings d 0x11 x →
      let g := beNat m.body
      (∀ o, u.gHere g = true → u.mem.localObjs.find? (fun o => o.base == gAddr g) = some o →
        exec (.free d) s = .next ((u.dropObj o).reply x.id m.seq 0 0 0)) ∧
      (u.gHere g = true → u.mem.localObjs.find? (fun o => o.base == gAddr g) = none →
        exec (.free d) s = .next (u.reply x.id m.seq 0x0185 0 0)))

/-- The seven Control rows (16 R422): each acts on the job that it names among those of its session's client, and answers; a Control
that names no such job, or an action that the context's state forbids, is answered with 0x01E5. -/
def Obligations.ControlsActOnJobs : Prop :=
  ∀ (s : State) (d : Dgram) (x : Session) (c : Ctx) (v : Nat),
    let m := Msg.parse d.bytes
    let u := s.received d x
    let pm := u.postmark c.partition
    (∀ row ∈ controlRows, s.brings d 0x21 x → beAt m.body 4 1 = row.2 → u.jobOf x.client (beAt m.body 0 4) = none →
      exec (row.1 d) s = .next (u.reply x.id m.seq 0x01E5 0 0)) ∧
    (∀ row ∈ controlRows, s.controls d row.2 x c v → c.state = .ending → row.2 < 6 →
      exec (row.1 d) s = .next (u.reply x.id m.seq 0x01E5 0 0)) ∧
    (∀ y, s.controls d 1 x c v → c.state ≠ .ending → u.ctx? c.number = some y → y.queue = c.queue → v < 2 ^ 32 → bellAction c.queue v = 2 →
      exec (.controlDoorbell d) s = .next ((((u.bellFetch c.number).setQueue c.number (fun q => { q with tail := v })).finishJob
        c.number).reply x.id m.seq 0 pm 0)) ∧
    (∀ y i, s.controls d 2 x c v → c.state = .live → u.ctx? c.number = some y → y.state = .live → y.suspending = false →
      u.freeSlot y.partition = some i →
        exec (.controlSuspend d) s = .next ((u.suspendStart c.number true).reply x.id m.seq 0 pm 0)) ∧
    (∀ y, s.controls d 3 x c v → c.state = .suspended → u.ctx? c.number = some y → y.state = .suspended →
      exec (.controlResume d) s = .next ((u.setCtx c.number (fun x => { x with held := false })).reply x.id m.seq 0 pm 0)) ∧
    (s.controls d 4 x c v → c.state ≠ .ending →
      exec (.controlCancel d) s = .next ((u.abortCtx c.number 0x0403 false).reply x.id m.seq 0 pm 0)) ∧
    (∀ i, s.controls d 5 x c v → c.state = .suspended → c.saveSlot = some i → u.codec.streams.any (fun y => y.ctx == c.number) = false →
      exec (.controlExport d) s = .next (((u.setCtx c.number (fun x => { x with held := true })).dropSlot c).reply x.id m.seq 0 pm
        (u.savedAt c i))) ∧
    (s.controls d 6 x c v → u.net.results.find? (fun r => r.node == 0xFFFF && r.ctx == c.number && r.endSeq.isNone) = none →
      exec (.controlRebind d) s = .next ((u.setJob c.number (fun j => { j with
        resultSession := v % 2 ^ 32
        submitSession := if j.submitSession == 0 then m.session else j.submitSession })).reply x.id m.seq 0 pm 0)) ∧
    (s.controls d 7 x c v → exec (.controlQuery d) s = .next ((u.progress c.number).reply x.id m.seq 0 pm 0))

/-! ## Contexts -/

/-- SUBMIT, IMPORT and SLOT_GRANT (11 R275, R281, R282, R297, 16 R419, R420): a job that passes every check takes the lowest-numbered
Free context, Waiting or Suspended, and is counted in its client's lifetime; a free slot goes to the sequence that goes first. -/
def Obligations.JobsAreAccepted : Prop :=
  (∀ (s : State) (d : Dgram) (x : Session) (n : Nat),
    let m := Msg.parse d.bytes
    let r := JobRec.parse m.body
    let u := s.received d x
    s.brings d 0x20 x → s.partStopped r.partition = false →
      (∀ code, u.checkRecord false x.client r = code → code ≠ 0 → exec (.submit d) s = .next (u.reply x.id m.seq code 0 0)) ∧
      (u.checkRecord false x.client r = 0 → u.quota x.client ≤ u.jobsInFlight x.client →
        exec (.submit d) s = .next ((u.bump 0x31D0 2 1).reply x.id m.seq 0x0290 0 0)) ∧
      (u.checkRecord false x.client r = 0 → u.jobsInFlight x.client < u.quota x.client → u.freeCtxNumber = some n →
        u.checkQueue r.ringLog2 r.ringBase r.compBase = 0 → u.canJoin (u.jobCountRec x.client) = true →
          ∃ t : State, exec (.submit d) s = .next (t.startCtx n) ∧ t.office.ctxs = u.office.ctxs ++
            [⟨n, .waiting, r.priority, false, r.partition, false, x.client, r.seqTag, r.jobId, none, 0, 0, 0, u.office.accepts, false,
              ⟨r.ringBase, r.ringLog2, r.compBase, r.tail, 0, r.descBase, .idle⟩, r.job x.id⟩] ∧ t.mem = u.mem ∧
            kvGet x.client 0 t.office.lifetime = kvGet x.client 0 u.office.lifetime + 1)) ∧
  (∀ (s : State) (d : Dgram) (x : Session) (n i : Nat),
    let m := Msg.parse d.bytes
    let r := JobRec.parse m.body
    let u := s.received d x
    let a := beAt m.body 64 8
    let k := leAt (u.readBytes a 64) 8 8
    let area := u.readBytes a k
    let qb := leAt area 128 32
    s.brings d 0x22 x → s.partStopped r.partition = false → u.checkRecord true x.client r = 0 →
      u.jobsInFlight x.client < u.quota x.client → u.freeCtxNumber = some n → u.freeSlot r.partition = some i →
      a + 64 ≤ u.mem.windowBytes → a + k ≤ u.mem.windowBytes → u.mem.poisonIn a 64 = [] → u.mem.poisonIn a k = [] →
      headerIllegal (u.readBytes a 64) (u.slotBytes r.partition) = false →
      (areaGood area = false → exec (.importJob d) s = .next (u.reply x.id m.seq 0x0390 0 0)) ∧
      (areaGood area = true → recordsGood area = false → exec (.importJob d) s = .next (u.reply x.id m.seq 0x0190 0 0)) ∧
      (areaGood area = true → recordsGood area = true → u.checkQueue (bits qb 40 5) (bits qb 0 40) (bits qb 64 40) = 0 →
        ∃ t, exec (.importJob d) s = .next t ∧
          t.mem = ((u.readRuns [(a, k)]).writeBytes (u.slotAddr r.partition i) area).mem ∧
          t.office.saveUsed = u.office.saveUsed ++ [(r.partition, i)] ∧
          ∃ y, t.office.ctxs = u.office.ctxs ++ [y] ∧ y.number = n ∧ y.state = .suspended ∧ y.client = x.client ∧
            y.saveSlot = some i ∧ y.queue = ⟨bits qb 0 40, bits qb 40 5, bits qb 64 40, bits qb 128 32, bits qb 160 32, bits qb 192 40,
              .preempted⟩)) ∧
  (∀ (s : State) (y : Ctx), s.office.seqSlots.contains none = true → s.nextSequence = some y →
    (s.competes y = true ∧ ∀ z ∈ s.office.ctxs, s.competes z = true → y.before z = true) ∧
    ∃ u : State, u = { s with office := { s.office with
        seqSlots := modifyAt (fun _ => some (y.client, y.seqTag)) (s.office.seqSlots.idxOf none) s.office.seqSlots } } ∧
      exec .slotGrant s = .next ((s.office.ctxs.filter (fun z => z.client == y.client && z.seqTag == y.seqTag && z.state == .waiting)).foldl
        (fun s z => s.startCtx z.number) u))

/-- PREEMPT_WAIT_EXPIRY, SAVE_COMPLETE, RESTORE, HALT_LIMIT_EXPIRY, RESULT_REQUEST and RESULT_HOLD_EXPIRY (11 R286, R287, R295, 16 R421,
R423): a priority trigger suspends its victim or waits for a save slot; a whole suspension writes its save area; a restore goes on from
a good one and ends the job with 0x0391 from a damaged one; a result waits for its session, or is dropped. -/
def Obligations.ContextsAreSavedAndRestored : Prop :=
  (∀ (s : State) (cell c idx task : Nat) (k : Task) (x : Ctx), s.office.tasks.find? (fun t => t.cell == cell && t.ctx == c && t.idx == idx &&
      t.pane == task && t.phase == .posted) = some k → s.dget 0x2350 1 ≠ 0xFFFFFFFF → ∀ v, s.victim cell k.prio = some v →
    s.ctx? v = some x → x.state = .live → x.suspending = false → (∀ g ∈ s.office.triggers, g.2 ≠ v) →
      ((s.freeSlot x.partition).isSome = true → exec (.preemptWaitExpiry cell c idx task) s = .next (s.suspendStart v false)) ∧
      ((s.freeSlot x.partition).isSome = false → exec (.preemptWaitExpiry cell c idx task) s = .next { s with office := { s.office with
        triggers := s.office.triggers ++ [(x.partition, v)] } })) ∧
  (∀ (s : State) (c i : Nat) (x : Ctx), s.ctx? c = some x → x.saveSlot = some i →
    (x.state = .live → x.suspending = true → s.quiet c = true →
      let v := s.stopTasks x
      let recs := v.savedRecords x
      let area := v.saveArea x (recs.map (fun r => r.1))
      let bad := v.unsavedUnits (v.slotAddr x.partition i) recs area.length
      let w := v.writeBytes (v.slotAddr x.partition i) area
      ∃ t, exec (.saveComplete c) s = .next t ∧ t.mem = (if bad = [] then w else w.poisonUnits bad).mem ∧ t.ctx? c = some { x with
        state := .suspended
        suspending := false
        saveBytes := area.length
        preemptions := x.preemptions + 1 }) ∧
    (x.state = .suspended → x.held = false → s.holdsSlot x = true → s.yields x = false → s.partStopped x.partition = false →
      let a := s.savedAt x i
      let r := s.readRuns [(a, x.saveBytes)]
      let stopped := s.cs.flight.filter (fun f => f.ctx == c && f.stopped)
      r.mem.poisonIn a x.saveBytes = [] →
        (areaGood (r.readBytes a x.saveBytes) = false → exec (.restore c) s = .next
          (((r.setJob c (fun j => { j with status := joinStatus j.status 0x0391 })).setQueue c (fun q =>
            { q with qs := .halted })).abortCtx c 0x0391 true)) ∧
        (areaGood (r.readBytes a x.saveBytes) = true → ∃ u : State,
          exec (.restore c) s = .next (((stopped.foldl (fun s f => (s.askHistory c f.idx).resumeRun c f.idx) u).serveTasks.finishJob
            c).runTriggers) ∧
          (∀ f ∈ u.cs.flight, f.ctx = c → f.stopped = false) ∧ u.ctx? c = some { x with
            state := .live
            wasHalted := false
            saveSlot := none
            saveBytes := 0
            queue := { x.queue with qs := if x.wasHalted then .halted else .running } })) ∧
    (s.holdsSlot x = true → s.partStopped x.partition = false → s.yields x = true →
      exec (.restore c) s = .next (s.dropSlot x)) ∧
    (s.holdsSlot x = false → exec (.restore c) s = .next s)) ∧
  (∀ (s : State) (c : Nat) (x : Ctx), s.ctx? c = some x → s.dget 0x23A0 5 ≠ 0 → x.state = .live → x.queue.qs = .halted →
    exec (.haltLimitExpiry c) s = .next (s.abortCtx c 0x0403 true)) ∧
  (∀ (s : State) (r : ResultReq), s.board.phase = .serving → s.board.power ≠ 2 → s.session? r.session = none →
    exec (.resultRequest r) s = .next { s with net := { s.net with
      results := s.net.results ++ [⟨s.net.nextResult, r.node, 0, r.client, r.jobId, r.session, r.ref, r.status, none⟩]
      nextResult := s.net.nextResult + 1 } }) ∧
  (∀ (s : State) (id : Nat) (r : Result), s.net.results.find? (fun r => r.id == id) = some r → s.session? r.session = none →
    exec (.resultHoldExpiry id) s = .next (s.failDelivery r) ∧ (s.failDelivery r).net.results = s.net.results.filter (fun x => x.id != id) ∧
      (r.node ≠ 0xFFFF → s.failDelivery r = (({ s with net := { s.net with
        results := s.net.results.filter (fun x => x.id != r.id) } } : State).bump 0x3240 6 1).refuse 0 r.node 0x07E0))

/-! ## Fabric -/

/-- FLIT_TRANSMIT, FLIT_RECEIVE, NAK_RECEIVE and REPLAY_TIMEOUT (12 R306 to R310): a flit's 256 bytes say its fields; a port sends what is
due, keeps what it sent until it is acknowledged, accepts only the next Seq, and replays. A transit flit keeps its place in the receive
buffer until it is sent on. -/
def Obligations.FlitsKeepOrder : Prop :=
  (∀ f : Flit, f.type ≤ 4 → f.cls < 4 → f.vlane < 2 → f.seq < 2 ^ 16 → f.ackSeq < 2 ^ 16 → f.creditBuf < 8 → f.creditCount < 256 →
    f.dest < 2 ^ 15 → f.src < 2 ^ 15 → f.postmark < 1024 → f.payload.length ≤ 236 →
      f.bytes.length = 256 ∧ flitBad f.bytes = false ∧ Flit.parse f.bytes = { f with place := none, req := 0 }) ∧
  (∀ (s : State) (port : Nat), let p := s.port port
    (p.carries = true ∨ p.st = .exchanging) →
      (p.nakDue = true → exec (.flitTransmit port) s = .next ((s.sendFlit port (Flit.bare 3 s.node [])).setPort port
        (fun p => { p with nakDue := false }))) ∧
      (p.nakDue = false → p.ctlDue = true → exec (.flitTransmit port) s = .next ((s.sendFlit port (Flit.bare 4 s.node (s.helloBody p))).setPort
        port (fun q => { q with ctlDue := false, owed := if p.st = .exchanging then List.replicate 8 0 else q.owed }))) ∧
      (p.nakDue = false → p.ctlDue = false → p.carries = true →
        (p.nextFlit = none → exec (.flitTransmit port) s = .next (s.sendFlit port (Flit.bare 0 s.node []))) ∧
        (∀ f, p.nextFlit = some f → ∃ (t : State) (g : Flit), exec (.flitTransmit port) s = .next t ∧
          t.fabric.out = s.fabric.out ++ [(port, g.bytes)] ∧ g.seq = p.nextSeq ∧ g.ackSeq = p.ackSeq ∧ g.dest = f.dest ∧
          g.payload = f.payload ∧ g.type = f.type ∧ g.cls = f.cls ∧ g.vlane = f.vlane ∧
          (t.port port).nextSeq = (p.nextSeq + 1) % 2 ^ 16 ∧
          (t.port port).replay = p.replay ++ [{ f with seq := p.nextSeq, place := none }] ∧
          (t.port port).sendQ = p.sendQ.erase f ∧ t.count 0x3210 1 = (s.count 0x3210 1 + 1) % 2 ^ 64))) ∧
  (∀ (s : State) (port : Nat) (bytes : Bytes), let p := s.port port
    let f := Flit.parse bytes
    (p.carries = true ∨ p.st = .exchanging) →
      exec (.flitReceive port false bytes) s = .next ((s.bump 0x3210 4 1).oweNak port) ∧
      (flitBad bytes = true → exec (.flitReceive port true bytes) s = .next ((s.bump 0x3210 3 1).oweNak port)) ∧
      (flitBad bytes = false → f.sequenced = true → f.seq ≠ p.expectSeq → ∃ t, exec (.flitReceive port true bytes) s = .next t ∧
        (t.port port).expectSeq = p.expectSeq ∧ (t.port port).nakSent = true ∧ t.mem = s.mem) ∧
      (flitBad bytes = false → f.sequenced = true → f.seq = p.expectSeq → ∃ u : State,
        exec (.flitReceive port true bytes) s = .next (if f.dest = s.node then u.takeFlit port f
          else u.routeFlit { f with place := some (port, f.buf) }) ∧
          (u.port port).expectSeq = (p.expectSeq + 1) % 2 ^ 16 ∧ (u.port port).nakSent = false ∧ u.mem = s.mem) ∧
      (flitBad bytes = false → f.type = 0 ∨ f.type = 4 → ∃ t, exec (.flitReceive port true bytes) s = .next t ∧
        (t.port port).ackIn = f.ackSeq ∧ (t.port port).expectSeq = p.expectSeq ∧
        (t.port port).replay = p.replay.filter (fun q => !acked16 f.ackSeq q.seq))) ∧
  (∀ (s : State) (port a : Nat), (s.port port).carries = true → a < 2 ^ 16 →
    exec (.nakReceive port a) s = .next ((s.takeAckSeq port a).replayPort port) ∧
    exec (.replayTimeout port) s = .next (s.replayPort port)) ∧
  (∀ (s : State) (port : Nat), let p := s.port port
    p.replay ≠ [] → port < s.fabric.ports.length →
      (8 ≤ p.replays → ((s.replayPort port).port port).st = .down ∧ ((s.replayPort port).port port).nextSeq = p.nextSeq ∧
        ((s.replayPort port).port port).expectSeq = p.expectSeq ∧ ((s.replayPort port).port port).width = 0) ∧
      (p.replays < 8 → (s.replayPort port).fabric.out.length = s.fabric.out.length + p.replay.length ∧
        ((s.replayPort port).port port).replay = p.replay ∧
        (s.replayPort port).count 0x3210 2 = (s.count 0x3210 2 + p.replay.length) % 2 ^ 64))

/-- Bring-up (12 R312 to R315, R318, R321, 03 R78): SIGNAL_DETECT, PORT_ALIGNED, HELLO_RECEIVE, HELLO_TIMER and the limits that take a
port down. A port enters Active only where its neighbour agrees with the torus, and Miswired is set where it does not. What a port that
is not Active has held too long is discarded and counted, and a write or a signal of this module that was among it is unreachable. -/
def Obligations.PortsComeUp : Prop :=
  (∀ (s : State) (port lanes : Nat), let good := (s.clearLanes port).goodLanes port lanes
    (s.port port).st = .down → good ≠ 0 → s.fabricOn = true → s.serdesUp = true → port < s.fabric.ports.length →
      ∃ t, exec (.signalDetect port lanes) s = .next t ∧ (t.port port).st = .training ∧ (t.port port).aligned = good ∧
        (t.port port).removed = 0 ∧ (t.port port).neighbour = 0xFFFF ∧ t.mem = s.mem) ∧
  (∀ (s : State) (port : Nat), port < s.fabric.ports.length →
    ((s.port port).st = .training ∨ (s.port port).st = .aligning →
      (∃ t, exec (.bringUpTimeout port) s = .next t ∧ (t.port port).st = .down ∧ ∀ q, q ≠ port → t.port q = s.port q) ∧
      ∀ lanes, ∃ t, exec (.portAligned port lanes) s = .next t ∧
        ((t.port port).width, (t.port port).lanes) = chooseLanes (t.port port).aligned ∧
        (t.port port).st = (if (t.port port).width = 0 then .down else .exchanging) ∧
        ((∀ i, i < 4 → bit (s.port port).aligned i = true → bit lanes i = true) → (t.port port).aligned = (s.port port).aligned)) ∧
    ((s.port port).st = .exchanging →
      exec (.helloTimer port) s = .next (s.setPort port (fun p => { p with ctlDue := true })) ∧
      exec (.helloTimeout port) s = .next (s.portFall port) ∧
      ∀ h : Hello, let w := chooseLanes ((s.port port).aligned &&& h.lanes)
        (w.1 = 0 → exec (.helloReceive port h) s = .next (s.portFall port)) ∧
        (w.1 ≠ 0 → ∃ u : State, exec (.helloReceive port h) s = .next (u.checkPort port).nextLane ∧ (u.port port).neighbour = h.node ∧
          (u.port port).neighbourPort = h.port ∧ (u.port port).width = w.1 ∧ (u.port port).lanes = w.2 ∧
          (u.port port).st = .exchanging ∧ u.mem = s.mem)) ∧
    ((s.portFall port).port port).st = .down ∧ ((s.portFall port).port port).width = 0 ∧ ((s.portFall port).port port).lanes = 0 ∧
    (∀ q, q ≠ port → (s.portFall port).port q = s.port q)) ∧
  (∀ (s : State) (port : Nat), let l := s.overdue port
    let u : State := { s with fabric := { s.fabric with held := s.fabric.held.filter (fun f => !l.contains f) } }
    (l = [] → exec (.portDownLimit port) s = .next s) ∧
    (l ≠ [] → exec (.portDownLimit port) s = .next ((if (s.port port).carries = true then u
      else u.setPort port (fun p => { p with sendQ := [] })).discard l)) ∧
    ((s.port port).carries = false → (∀ f ∈ (s.port port).sendQ, f ∈ l) ∧
      ∀ f ∈ s.fabric.held, bit (s.fabric.entry f.dest) port = true → s.fabric.openPorts f.dest = [] → f ∈ l)) ∧
  (∀ (s : State) (f : Flit), f.place = none →
    (s.req? f.req = none → s.discard [f] = s.bump 0x3210 5 1) ∧
    ∀ q, s.req? f.req = some q → let u := s.dropReqs (fun r => r.id == q.id)
      (q.kind = .write → s.discard [f] = (u.chargeWrite q.ctx 0x0701).bump 0x3210 5 1) ∧
      (q.kind = .signal → s.discard [f] = (u.setFlight q.ctx q.idx (fun f => f.end_ 0x0701)).bump 0x3210 5 1)) ∧
  (∀ (s : State) (port : Nat), (s.port port).st = .exchanging → s.fabric.bothNamed (s.port port) = true →
    (s.fabric.neighbourOk (s.port port) = true → ((s.checkPort port).port port).st = .active ∧
      ((s.checkPort port).port port).miswired = false) ∧
    (s.fabric.neighbourOk (s.port port) = false → ((s.checkPort port).port port).st = .exchanging ∧
      ((s.checkPort port).port port).miswired = true))

/-- Lanes (12 R316, R317, 19 R513, R517): a lane that fails is removed, and its port changes to the widest width that the lanes of both
ends allow, and goes on with it once the neighbour's Control flit answers; with no lane it goes to Down. A retraining runs on the other
pair, and ends with both lanes back, or with the lane removed and FaultSummary bit 22. -/
def Obligations.LanesAreRemovedAndRetrained : Prop :=
  (∀ (s : State) (port lane cause : Nat), (s.port port).carries = true → (s.port port).retrain = none → lane < 4 →
    bit (s.port port).aligned lane = true →
      ∃ t, exec (.laneFault port lane cause) s = .next t ∧ bit (t.port port).aligned lane = false ∧ t.mem = s.mem ∧
        let w := chooseLanes ((t.port port).aligned &&& (s.port port).peerLanes)
        ((t.port port).width, (t.port port).lanes) = w ∧
          (t.port port).st = (if w.1 = 0 then .down else .changing) ∧ (t.port port).ctlDue = decide (w.1 ≠ 0)) ∧
  (∀ (s : State) (port : Nat) (payload : Bytes), (s.port port).carries = true → (s.port port).retrain = none →
    let theirs := bits (beAt payload 3 1) 0 4
    let w := chooseLanes ((s.port port).aligned &&& theirs)
    (w.1 = 0 → s.gotControl port payload = s.portFall port) ∧
    (w.1 ≠ 0 → let q := (s.gotControl port payload).port port
      q.st = .active ∧ (q.width, q.lanes) = w ∧ q.agreeing = false ∧ q.peerLanes = theirs ∧
        q.ctlDue = !(s.port port).agreeing)) ∧
  (∀ (s : State) (port lane : Nat), port < 12 → lane < 4 →
    (s.laneCan port lane = true → s.laneBusy = false → exec (.laneRetrainDue port lane) s = .next (s.startLane port lane) ∧
      ((s.startLane port lane).port port).st = .changing ∧ ((s.startLane port lane).port port).width = 2 ∧
      ((s.startLane port lane).port port).retrain = some lane) ∧
    (s.laneCan port lane = false ∨ s.laneBusy = true → exec (.laneRetrainDue port lane) s =
      .next (s.setPort port (fun p => { p with retrainDue := insertNat lane p.retrainDue })))) ∧
  (∀ (s : State) (port lane : Nat), (s.port port).retrain = some lane → lane < 4 →
    (∃ u : State, exec (.laneRetrainDone port) s = .next u.nextLane ∧ (u.port port).st = .active ∧ (u.port port).width = 4 ∧
      (u.port port).lanes = 15 ∧ (u.port port).retrain = none ∧ u.count 0x3210 7 = (s.count 0x3210 7 + 1) % 2 ^ 64) ∧
    (∃ u : State, exec (.laneRetrainTimeout port) s = .next u.nextLane ∧ (u.port port).st = .active ∧ (u.port port).retrain = none ∧
      bit (u.port port).aligned lane = false ∧ bit u.faults.latched 22 = true ∧
      kvGet (4 * port + lane) 0 u.fabric.laneFailures = kvGet (4 * port + lane) 0 s.fabric.laneFailures + 1))

/-! ## Collectives -/

/-- CHUNK_RECEIVE, COLL_TIMEOUT and POSTCARD_RECEIVE (13 R330, R335, R339, R340, R341, R344, R346, R348). A packet of an older postmark is
dropped and counted, and one of a changed postmark fails its collective with 0x07B2. The exchange of a neighbour that disagrees fails it
with 0x07B1, one that agrees is met; a good chunk is kept, and acknowledged and used at its own stage; a chunk that fails its check is
asked for once more and counted, and fails the collective at its second failure; one that comes again is acknowledged again; an
acknowledged chunk leaves its buffer. A collective without progress fails with 0x04B0. A postcard is relayed along its tree and kept for
its collective. The layout of packets and postcards is a DESIGN CHOICE (log 52). -/
def Obligations.CollectivesProgress : Prop :=
  (∀ (s : State) (k : Chunk) (residue : Bool), s.collOf k.group k.ord = none →
    let i : Instr := .chunkReceive k.group k.ord k.src ⟨k.part, k.postmark⟩ k.sig ⟨k.kind, k.stage, k.neg, k.number, k.last⟩ residue k.data
    (s.peerMark [] k.src k.part k.postmark = 1 → exec i s = .next (s.bump 0x3230 6 1)) ∧
    (s.peerMark [] k.src k.part k.postmark ≠ 1 → exec i s =
      .next (if k.kind = 0 ∧ kvGet k.group 0 s.coll.orders < k.ord then { s with coll := { s.coll with calls := s.coll.calls ++ [k] } }
        else s))) ∧
  (∀ (s : State) (k : Chunk) (residue : Bool) (x : Coll), s.collOf k.group k.ord = some x →
    let i : Instr := .chunkReceive k.group k.ord k.src ⟨k.part, k.postmark⟩ k.sig ⟨k.kind, k.stage, k.neg, k.number, k.last⟩ residue k.data
    let mark := s.peerMark x.marks k.src k.part k.postmark
    let known := (s.knowMark k.src k.part k.postmark).setColl x.ctx x.idx
      (fun y => { y with marks := kvSet (peerKey k.src k.part) k.postmark y.marks })
    (mark = 1 → exec i s = .next (s.bump 0x3230 6 1)) ∧
    (mark = 2 → exec i s = .next (s.failColl x.ctx x.idx 0x07B2)) ∧
    (mark = 0 → ∀ y e f, known.coll? x.ctx x.idx = some y → known.collEnv x.ctx x.idx = some (e, f) →
      let run := fun (u : State) => u.runColl y.ctx y.idx e.coll.fuel
      (k.kind = 0 → k.sig ≠ y.sig → exec i s = .next (known.failColl y.ctx y.idx 0x07B1)) ∧
      (k.kind = 0 → k.sig = y.sig → exec i s =
        .next ((known.setColl y.ctx y.idx (fun z => { z with met := insertNat k.src z.met })).beginColl y.ctx y.idx)) ∧
      (k.kind = 1 → ∀ h, e.coll.hops[k.stage]? = some h →
        let again := k.stage < y.stage ∨ ∃ c ∈ y.inbox, c.stage = k.stage ∧ c.neg = k.neg ∧ c.number = k.number
        let code := y.chunkBad e.coll h k residue
        let kept := known.setColl y.ctx y.idx (fun z => { z with inbox := z.inbox ++ [e.coll.open h k] })
        (again → exec i s = .next (known.ackChunk f y k)) ∧
        (¬ again → code = 0 → exec i s =
          .next (if y.begun = true ∧ k.stage = y.stage then run (kept.ackChunk f y k) else kept)) ∧
        (¬ again → code ≠ 0 → y.failed.contains (k.stage, k.neg, k.number) = false → exec i s =
          .next (((known.setColl y.ctx y.idx (fun z => { z with failed := z.failed ++ [(k.stage, k.neg, k.number)], repeated := true })).bump
            0x3230 3 1).sendBulk f y k.src 3 k.stage k.neg k.number false [])) ∧
        (¬ again → code ≠ 0 → y.failed.contains (k.stage, k.neg, k.number) = true → exec i s =
          .next (known.failColl y.ctx y.idx code))) ∧
      (k.kind = 2 → exec i s = .next ((((known.setColl x.ctx x.idx (fun z => { z with
          parcels := z.parcels.filter
            (fun p => !(p.sent && (p.dest == k.src && p.stage == k.stage && p.neg == k.neg && p.number == k.number))) })).pump f x.ctx
          x.idx).runColl x.ctx x.idx e.coll.fuel))))) ∧
  (∀ (s : State) (c idx : Nat) (x : Coll), c ≠ ctrlCtx → s.coll? c idx = some x →
    exec (.collTimeout c idx) s = .next (s.failColl c idx 0x04B0) ∧ (s.failColl c idx 0x04B0).coll? c idx = none) ∧
  (∀ (s : State) (idx : Nat), s.coll.ctrlState = 1 → ∃ t, exec (.collTimeout ctrlCtx idx) s = .next t ∧ t.coll.ctrlState = 3 ∧
    t.coll.ctrlCode = 0x04B0 ∧ t.coll.flight = s.coll.flight ∧
    t.ctrl? (s.ctrlSig s.node (s.dget 0x2371 3) (s.dget 0x2371 2)) = none) ∧
  (∀ (s : State) (gid ord axis pos part post sig : Nat) (payload : Bytes), let g := s.group (sig % 2 ^ 64)
    let k : Card := ⟨gid, ord, axis, pos, part, sig, payload⟩
    s.node ≠ 0xFFFF → g.bad = false → axis < 3 → pos < g.len axis → g.pos axis ≠ pos → g.id = gid →
      (isCtrl sig = false → s.board.phase = .serving →
        exec (.postcardReceive gid ord axis pos ⟨part, post⟩ sig payload) s = .next ((s.relayCard k post).takeCard k post)) ∧
      (isCtrl sig = false → s.board.phase ≠ .serving →
        exec (.postcardReceive gid ord axis pos ⟨part, post⟩ sig payload) s = .next (s.relayCard k post)) ∧
      (isCtrl sig = true → exec (.postcardReceive gid ord axis pos ⟨part, post⟩ sig payload) s = .next (s.takeCtrl k post)) ∧
      (s.postOf gid ord = none → kvGet gid 0 s.coll.orders < ord → s.peerMark [] (g.nodeAt axis pos) part post = 0 →
        (s.takeCard k post).coll.cards = s.coll.cards ++ [k]))

/-- The control collectives (13 R346 to R348): a Broadcast delivers its payload and its initiator, and is counted where it cannot be
delivered; a Snapshot delivers the joined status records, in a chip reset too; a GroupReset fails what the group has in flight with
0x07B0 and its orders begin again. Each leaves the postcard unit. -/
def Obligations.ControlCollectivesDeliver : Prop :=
  (∀ (s : State) (n : Nat) (payload : Bytes), s.node ≠ 0xFFFF → s.board.phase = .serving → n < 2 ^ 16 →
    (n ≠ s.node → ∃ t, exec (.ctrlBroadcast n payload) s = .next t ∧ t.coll.ctrlResult = fit 64 payload ∧ t.coll.ctrlSource = n ∧
      t.coll.ctrlState = s.coll.ctrlState ∧ t.count 0x3230 7 = (s.count 0x3230 7 + 1) % 2 ^ 64 ∧ t.ctrl? (s.ctrlSig n 1 0) = none) ∧
    (n = s.node → s.ctrlRuns 1 = true → ∃ t, exec (.ctrlBroadcast n payload) s = .next t ∧
      t.coll.ctrlResult = fit 64 (leBytes 64 (s.dget 0x2371 1)) ∧ t.coll.ctrlSource = n ∧ t.coll.ctrlState = 2)) ∧
  (∀ (s : State) (n : Nat) (payload : Bytes), s.node ≠ 0xFFFF → s.board.phase ≠ .serving →
    exec (.ctrlBroadcast n payload) s = .next ((s.ctrlOver (s.ctrlSig n 1 0)).bump 0x3230 8 1)) ∧
  (∀ (s : State) (n : Nat) (others : Bytes), s.node ≠ 0xFFFF → (n = s.node → s.ctrlRuns 2 = true) →
    ∃ t, exec (.ctrlSnapshot n others) s = .next t ∧ t.coll.ctrlResult = s.snapshotOf (s.ctrlSig n 2 0) others ∧
      t.coll.ctrlState = (if n = s.node then 2 else s.coll.ctrlState) ∧ t.ctrl? (s.ctrlSig n 2 0) = none ∧ t.mem = s.mem) ∧
  (∀ (s : State) (n g : Nat), s.node ≠ 0xFFFF → (n = s.node → s.ctrlRuns 3 = true) →
    ∃ t, exec (.ctrlGroupReset n g) s = .next t ∧ let id := if n = s.node then s.dget 0x2371 2 else g
      (∀ x ∈ t.coll.flight, x.group ≠ id) ∧ (∀ k ∈ t.coll.cards, k.group ≠ id ∨ isCtrl k.sig = true) ∧
      (∀ k ∈ t.coll.calls, k.group ≠ id) ∧ kvHas id t.coll.orders = false ∧
      t.coll.ctrlState = (if n = s.node then 2 else s.coll.ctrlState))

/-! ## Intake and codec -/

/-- The intake pipes (14 R353, R359, R366, R369, R376): a pipe takes the next sample of a job, voids it at the first check that fails,
finishes its slot, and goes on with the next; a sample past its budget is void with 0x06C6; an install replaces its slot's dictionary, and
one that cannot be read is emptied and its text job fails with 0x03C0. The codec pipes (15 R385, R386, R397, R400 to R402): a pipe takes
the next frame into a Free slot of its stream, whose state must be readable; an encode or a decode goes on as its frame ends, and a decode
that is late conceals its frame and is counted. Where a dictionary and a stream's state lie is a DESIGN CHOICE (log 102). -/
def Obligations.PipesWorkOnSamplesAndFrames : Prop :=
  ((∀ (s : State) (pipe slot : Nat) (p : Pipe) (j : IntakeJob) (e : Env) (f : InFlight), s.intake.pipes[pipe]? = some p →
     p.fenced = false → p.job = none → s.board.phase = .serving → s.intkNext pipe = some j → j.slot = some slot →
     s.intkEnv j.ctx j.idx = some (e, f) → s.mem.poisonIn ((e.intkTableRun j.block).1 + 32 * slot) 32 = [] →
       let x := e.sample j.block slot
       let u := (((s.readRuns [((e.intkTableRun j.block).1 + 32 * slot, 32)]).setIntk j.ctx j.idx IntakeJob.advance).bump 0x31E0 1 1).setIntkPipe
         pipe (fun p => { p with job := some (j.ctx, j.idx, slot) })
       (∀ code, e.sampleCheck j.block x = code → code ≠ 0 → exec (.sampleTake pipe) s = .next (u.slotDone pipe j.ctx j.idx slot code)) ∧
       (e.sampleCheck j.block x = 0 → s.gHere (x.addr % 2 ^ 64) = true →
         (e.sampleJudge j.block j.dict slot x = 0 → exec (.sampleTake pipe) s = .next u) ∧
         (∀ code, e.sampleJudge j.block j.dict slot x = code → code ≠ 0 →
           exec (.sampleTake pipe) s = .next (u.slotJudged pipe j slot code)))) ∧
   (∀ (s : State) (pipe c idx slot : Nat) (j : IntakeJob) (e : Env) (f : InFlight),
     (s.intake.pipes.getD pipe (Pipe.init pipe)).job = some (c, idx, slot) → s.intkJob c idx = some j → s.intkEnv c idx = some (e, f) →
       (s.sampleHere c idx slot = true → exec (.sampleComplete pipe) s =
         .next ((s.slotJudged pipe j slot (e.sampleJudge j.block j.dict slot (e.sample j.block slot))).takeSample pipe)) ∧
       exec (.sampleBudgetExpiry pipe) s = .next (((s.bump 0x31E0 4 1).slotDone pipe c idx slot 0x06C6).takeSample pipe) ∧
       ∀ code, (∃ v : State, s.slotDone pipe c idx slot code = v.intkEnd c idx ∧
         v.intake.pipes = modifyAt (fun p => { p with job := none }) pipe s.intake.pipes ∧
         (v.intkJob c idx).map (fun y => y.results) = some (kvSet slot code j.results)) ∧
         let at_ := s.dictPlace (intkSlot j.block)
         let seen := intkKind j.block = 0 ∧ (code = 0 ∨ code = 0x06C4) ∧ s.mem.poisonIn at_.1 at_.2 ≠ []
         (¬ seen → s.slotJudged pipe j slot code = s.slotDone pipe j.ctx j.idx slot code) ∧
         (seen → ∃ v : State, s.slotJudged pipe j slot code = v.failInstr j.ctx j.idx 0x03C0 ∧ v.intkJob j.ctx j.idx = none ∧
           v.intake.dicts = modifyAt (fun _ => DictSlot.empty) (intkSlot j.block) s.intake.dicts)) ∧
   (∀ (s : State) (k : Nat) (j : IntakeJob) (e : Env) (f : InFlight), (∀ y ∈ s.intake.jobs, intkSlot y.block = k → intkKind y.block ≠ 0) →
     (s.intake.jobs.filter (fun j => intkSlot j.block == k)).find? (fun j => intkKind j.block == 2 &&
       (s.flight? j.ctx j.idx).any (fun f => !f.stopped)) = some j → s.intkEnv j.ctx j.idx = some (e, f) →
       ∃ t, exec (.dictReplace k) s = .next t ∧ t.intake.dicts = modifyAt (fun _ => e.dictOf (e.obj (intkAux j.block)) (intkWord j.block)) k
           s.intake.dicts ∧ t.mem.poisonIn (s.dictPlace k).1 (s.dictPlace k).2 = [] ∧ (t.flight? j.ctx j.idx).map (fun g => (g.phase, g.status)) = some (.ended, 0) ∧
         t.count 0x31E0 7 = (s.count 0x31E0 7 + 1) % 2 ^ 64)) ∧
  ((∀ (s : State) (pipe k : Nat) (p : Pipe) (j : CodecJob) (x : Codec), s.codec.pipes[pipe]? = some p → p.fenced = false → p.job = none →
     s.board.phase = .serving → s.cdcNext pipe = some j → s.stream? (cdcStream j.block) = some x →
       (s.streamBad x.id ≠ [] → exec (.frameTake pipe) s = .next ((s.sawPoison (s.streamBad x.id)).failCdc j 0x03D0)) ∧
       (s.streamBad x.id = [] → x.freeSlot = none → exec (.frameTake pipe) s = .next (s.failCdc j 0x06D4)) ∧
       (s.streamBad x.id = [] → x.freeSlot = some k → ∃ t, exec (.frameTake pipe) s = .next t ∧
         t.codec.pipes = modifyAt (fun p => { p with job := some (j.ctx, j.idx, j.framesDone), lastStream := x.id }) pipe s.codec.pipes ∧
         t.codec.streams = modifyWhere (fun y => y.id == x.id) (fun y => { y with current := some k }) s.codec.streams ∧
         t.count 0x31F0 8 = if p.lastStream = x.id ∨ p.lastStream = 0xFFFF then s.count 0x31F0 8
           else (s.count 0x31F0 8 + 1) % 2 ^ 64)) ∧
   (∀ (s : State) (pipe c idx n : Nat) (j : CodecJob) (e : Env) (f : InFlight) (x : Codec),
     (s.codec.pipes.getD pipe (Pipe.init pipe)).job = some (c, idx, n) → s.cdcJob c idx = some j → s.cdcEnv c idx = some (e, f) →
     s.stream? (cdcStream j.block) = some x →
       let t := s.setCdcPipe pipe (fun p => { p with job := none })
       let due := (e.desc (cdcBit j.block)).dim 0 + x.held.length + 3
       (cdcKind j.block = 2 → exec (.frameComplete pipe) s = .next ((t.encodeNext x j e f.partition).encodeOn c idx) ∧
         exec (.frameBudgetExpiry pipe) s = .next s) ∧
       (cdcKind j.block ≠ 2 → exec (.frameComplete pipe) s = .next ((t.decodeNext x j e false).decodeOn c idx due) ∧
         exec (.frameBudgetExpiry pipe) s = .next (((t.bump 0x31F0 5 1).decodeNext x j e true).decodeOn c idx due))))

/-! ## EtherCAT and the dictionary -/

/-- The SubDevice (17 R429 to R432, R439, R443): frames are forwarded from either port and processed where they come in by port 0; loops
close and open with their links; an AL change that is legal is made and another refused; SM2's watchdog takes the module to SafeOp; an
unsupported mailbox protocol is answered with an error. Register places are PRESUMED (ETG.1000). -/
def Obligations.SubDeviceServes : Prop :=
  (∀ (s : State) (dgs : List EscDgram), s.ecatPort 1 = true →
    exec (.ethercatFrame 1 dgs) s = .next { s with ecat := { s.ecat with forwarded := s.ecat.forwarded + 1 } }) ∧
  (∀ (s : State) (adp a n : Nat) (v : Byte), s.ecatPort 0 = true →
    (∃ t, exec (.ethercatFrame 0 [⟨2, adp, a, [], n⟩]) s = .next t ∧ t.ecat.replies = [s.escGets a n] ∧
      t.ecat.forwarded = s.ecat.forwarded + 1 ∧ t.mem = s.mem) ∧
    (escReadOnly a = false → Memory.wf s.ecat.esc = true →
      ∃ t, exec (.ethercatFrame 0 [⟨2, adp, a, [v], 0⟩]) s = .next t ∧ memGet a t.ecat.esc = v ∧ t.mem = s.mem)) ∧
  (∀ (s : State) (port : Nat), exec (.ethercatLinkLoss port) s = .next { s with ecat := { s.ecat with
      linkUp := modifyAt (fun _ => false) port s.ecat.linkUp
      loopClosed := modifyAt (fun _ => true) port s.ecat.loopClosed } } ∧
    (s.board.phase ≠ .off → s.extestOn = false → exec (.ethercatLinkUp port) s = .next { s with ecat := { s.ecat with
      linkUp := modifyAt (fun _ => true) port s.ecat.linkUp
      loopClosed := modifyAt (fun _ => false) port s.ecat.loopClosed } })) ∧
  (∀ (s : State) (al : Nat), s.board.phase = .serving →
    (∀ code, s.alRefusal al = code → code ≠ 0 → exec (.alStateRequest al) s = .next { s with ecat := { s.ecat with alStatus := code } }) ∧
    (s.alRefusal al = 0 → ∃ t, exec (.alStateRequest al) s = .next t ∧ t.ecat.al = al ∧ t.ecat.alStatus = 0 ∧ (al = 1 → t.ecat.sm1 = []) ∧
      t = { s with ecat := t.ecat }) ∧
    (s.sec.fuses.lifecycle ≠ 4 → (s.ecat.al = 1 → al = 2 → s.alRefusal al = 0) ∧ (s.ecat.al = 2 → al = 4 → s.alRefusal al = 0) ∧
      (s.ecat.al = 4 → al = 8 → s.alRefusal al = 0) ∧ (s.ecat.al = 1 → al = 4 ∨ al = 8 → s.alRefusal al = 0x0011))) ∧
  (∀ s : State, s.ecat.al = 8 → exec .sm2Watchdog s =
    .next (({ s with ecat := { s.ecat with al := 4, alStatus := 0x001B } } : State).bump 0x3250 6 1)) ∧
  (∀ (s : State) (p : Nat), s.mailboxUp = true → p ≠ 3 → p ≠ 4 → exec (.mailboxUnsupported p) s =
    .next (s.placeSm1 (mailbox 0 (leBytes 2 1 ++ leBytes 2 0x0002)))) ∧
  (∀ s : State, s.ecat.al = 4 ∨ s.ecat.al = 8 → ∃ t, exec .pdoRefresh s = .next t ∧
    t.ecat.sm3 = (if s.board.phase = .serving then s.inputBytes else clearFirmwareUp s.inputWords s.ecat.sm3) ∧ t.mem = s.mem ∧
    t.dict = s.dict)

/-- The SDO rows (17 R434 to R436, R439, R440, R446 to R450, R456): a download of a register takes effect and reads back, of a pair
member is staged, and each cause of R456 is answered with its abort code; uploads, information requests and PDO mappings are answered;
a segmented transfer that stops is abandoned. -/
def Obligations.DictionaryServes : Prop :=
  (∀ (s : State) (idx sub : Nat) (b : Bytes) (e : Entry), s.mailboxUp = true → s.pdoObject idx = none → findEntry idx sub = some e →
    (e.acc = .ro → exec (.sdoDownload idx sub false b) s = .next (s.abort idx sub 0x06010002 0) ∧
      exec (.dictWrite idx sub b) s = .next (s.abort idx sub 0x06010002 0)) ∧
    (e.acc ≠ .ro → b.length ≠ e.width → exec (.sdoDownload idx sub false b) s = .next (s.abort idx sub 0x06070010 0)) ∧
    (e.acc ≠ .ro → b.length = e.width → e.own ≠ .trigger →
      (s.outOfRange e (leNat b) = true → exec (.dictWrite idx sub b) s = .next (s.abort idx sub 0x06090030 0x01F0)) ∧
      (s.outOfRange e (leNat b) = false → e.own = .plain → (e.keep = true → s.keepRefused = 0) → ∃ u : State,
        exec (.sdoDownload idx sub false b) s = .next (s.answerWrite idx sub false (u, 0)) ∧
        exec (.dictWrite idx sub b) s = .next (s.answerWrite idx sub false (u, 0)) ∧ u.dget idx sub = leNat b ∧ u.mem = s.mem ∧
        ∀ i j, dkey i j ≠ dkey idx sub → u.dget i j = s.dget i j) ∧
      (s.outOfRange e (leNat b) = false → e.own = .member → ∃ u : State,
        exec (.dictWrite idx sub b) s = .next (s.answerWrite idx sub false (u, 0)) ∧ u.staging idx sub = leNat b ∧ u.dict = s.dict ∧
          u.store = s.store)) ∧
    (e.acc = .wo → exec (.sdoUpload idx sub false) s = .next (s.abort idx sub 0x06010001 0)) ∧
    (e.acc ≠ .wo → dkey idx sub ≠ dkey 0x5020 1 → dkey idx sub ≠ dkey 0x5031 2 → (s.readEntry e).2 = 0 →
      exec (.sdoUpload idx sub false) s = .next (s.upload idx sub (s.readEntry e).1))) ∧
  (∀ (s : State) (idx sub : Nat) (b : Bytes), s.mailboxUp = true → s.pdoObject idx = none → findEntry idx sub = none → sub ≠ 0 →
    let code := if entriesOf idx = [] then 0x06020000 else 0x06090011
    exec (.sdoDownload idx sub false b) s = .next (s.abort idx sub code 0) ∧
      exec (.sdoUpload idx sub false) s = .next (s.abort idx sub code 0)) ∧
  (∀ (s : State) (idx sub : Nat), s.mailboxUp = true → s.ecat.segmented = some (idx, sub) → exec .sdoTransferTimeout s =
    .next (({ s with ecat := { s.ecat with segmented := none } } : State).abort idx sub 0x05040000 0)) ∧
  (∀ (s : State) (l : List Nat), s.mailboxUp = true →
    (∀ code, pdoFlaw 0x1A01 l = code → code ≠ 0 → exec (.pdoMapping 0x1A01 l) s = .next (s.abort 0x1A01 0 code 0x01F2)) ∧
    (pdoFlaw 0x1A01 l = 0 → s.ecat.al ≠ 2 → exec (.pdoMapping 0x1A01 l) s = .next (s.abort 0x1A01 0 0x08000022 0)) ∧
    (pdoFlaw 0x1A01 l = 0 → s.ecat.al = 2 → exec (.pdoMapping 0x1A01 l) s =
      .next (s.answerWrite 0x1A01 0 false ({ s with ecat := { s.ecat with pdo1A01 := l } }, 0)))) ∧
  ∀ (s : State) (idx sub : Nat) (b : Bytes), s.mailboxUp = true →
    (describeObject idx (s.pdoObject idx) = some b → exec (.sdoInformation 3 idx sub) s = .next (s.placeSm1 (infoMailbox 4 b))) ∧
    (describeObject idx (s.pdoObject idx) = none → exec (.sdoInformation 3 idx sub) s =
      .next (s.placeSm1 (infoMailbox 7 (leBytes 4 0x06020000)))) ∧
    (describeEntry idx sub (s.pdoObject idx) = some b → exec (.sdoInformation 5 idx sub) s = .next (s.placeSm1 (infoMailbox 6 b))) ∧
    (1 ≤ idx → idx ≤ 5 → exec (.sdoInformation 1 idx sub) s =
      .next (s.placeSm1 (infoMailbox 2 (leBytes 2 idx ++ (indexList idx).flatMap (leBytes 2)))))

/-! ## The store -/

/-- COMMIT_TIMER, ALLOWANCE_TICK, WINDOW_ROLL and NAND_SCRUB (18 R462, R463, R468 to R470, R479, R481): pending records are committed; the
allowance gains 64 KiB up to 64 MiB; the windows begin again; a page that needs correction moves its block's data. A page's 18,688
bytes are its data, the marker, the tag, the check bytes of both, and zeros, and the store reads it as valid; each page that is
programmed takes the next PageSeq. -/
def Obligations.StoreIsKept : Prop :=
  (∀ p : NPage, p.data.length ≤ 16384 →
    let b := p.bytes
    b.length = 18688 ∧ b.take 16384 = p.data ++ List.replicate (16384 - p.data.length) 0 ∧ sub b 16384 2 = [0xFF, 0xFF] ∧
      sub b 16386 64 = p.tag ∧ sub b 16450 8 = checkBytes p.tag ∧ sub b 16458 182 = List.replicate 182 0 ∧
      sub b 16640 2048 = checkBytes (b.take 16384) ∧ leAt p.tag 24 4 = crc32c (b.take 16384) ∧
      leAt p.tag 60 4 = crc32c (p.tag.take 60) ∧ (1 ≤ p.kind → p.kind ≤ 6 → pageValid b = true)) ∧
  (∀ (t : Store) (block kind extent index : Nat) (data : Bytes) (b : NBlock), t.blocks.find? (fun x => x.id == block) = some b →
    let u := t.program block kind extent index data
    u.nand = t.nand ++ [⟨block, b.pages, kind, t.pageSeq, b.erases, extent, index, data⟩] ∧ u.pageSeq = t.pageSeq + 1) ∧
  ∀ s : State, s.board.phase = .serving →
    (s.store.condition ≠ 2 → ∃ t, exec .commitTimer s = .next t ∧ t.store.pending = [] ∧ t.mem = s.mem ∧ t.dict = s.dict) ∧
    exec .allowanceTick s = .next { s with store := { s.store with allowance := min 67108864 (s.store.allowance + 65536) } } ∧
    exec .windowRoll s = .next { s with store := { s.store with windowCounts := (0, 0, 0) } } ∧
    ∀ (id : Nat) (b : NBlock), s.store.blocks.find? (fun b => b.id == id && decide (1 ≤ b.area) && decide (b.area ≤ 6)) = some b →
      exec (.nandScrub id 0) s = .next s ∧ exec (.nandScrub id 1) s = .next (s.bump 0x5111 5 1) ∧
      (b.area ≠ 1 → s.store.condition ≠ 2 → s.store.pick ≠ none →
        (∃ t, exec (.nandScrub id 2) s = .next t ∧ t.store = s.store.relocate id ∧
          t.count 0x5111 5 = (s.count 0x5111 5 + 1) % 2 ^ 64 ∧ t.count 0x5111 7 = (s.count 0x5111 7 + 1) % 2 ^ 64) ∧
        (∃ t, exec (.nandScrub id 3) s = .next t ∧ t.store = s.store.relocate id ∧
          t.count 0x5111 6 = (s.count 0x5111 6 + 1) % 2 ^ 64)) ∧
      (b.area = 5 ∨ b.area = 6 → ∃ t, exec (.nandScrub id 4) s = .next t ∧ t.mem = s.mem ∧
        t.store.cullets.map (fun x => x.id) = (s.store.cullets.filter (fun x => !x.blocks.contains b.id)).map (fun x => x.id) ∧
        t.store.lastPosts.map (fun x => x.id) = (s.store.lastPosts.filter (fun x => !x.blocks.contains b.id)).map (fun x => x.id))

/-! ## Recovery -/

/-- The watchdogs and limits of engines and cells (19 R494 to R499, R517): a hung unit that works is reset, its reset counted and
latched in FaultSummary, and fenced at its third in a fence window; a reset that overruns fences its unit; a new window counts from
zero. -/
def Obligations.UnitsAreResetAndFenced : Prop :=
  (∀ (s : State) (n : Nat), n < 256 → n < s.office.cells.length → (s.cell n).fenced = false → s.powered (n / 64) = true →
    s.office.stopped.contains (s.partOfCell n) = false → s.runningIn n ≠ [] → s.isFenced (unitCell n) = false →
      ∃ t, exec (.cellWatchdog n) s = .next t ∧ t.count 0x4003 2 = (s.count 0x4003 2 + 1) % 2 ^ 64 ∧ bit t.faults.latched 1 = true ∧
        (t.cell n).resets = (s.cell n).resets + 1 ∧ (t.cell n).fenced = decide (2 ≤ (s.cell n).resets)) ∧
  (∀ (s : State) (unit : Nat), fenceable unit = true → s.isFenced unit = false → s.board.phase = .serving →
    let n := unit % 4096
    (unit / 4096 = 4 ∧ s.powered (n / 8) = true) ∨ (unit / 4096 = 7 ∧ s.board.power ≠ 2 ∧ (s.chan n).active = true) ∨
      (unit / 4096 = 0xA ∧ (s.codec.pipes.getD n (Pipe.init n)).job.isSome = true) ∨
      (unit / 4096 = 0xB ∧ (s.intake.pipes.getD n (Pipe.init n)).job.isSome = true) →
      exec (.engineWatchdog unit) s = .next ((s.post unit 2 0x04F8 s.anyDetail).engineReset unit 0x04F8)) ∧
  (∀ (s : State) (unit cause : Nat), unit / 4096 = 4 → s.isFenced unit = false →
    ((s.engineReset unit cause).isFenced unit = true ↔ 2 ≤ kvGet unit 0 s.faults.counts) ∧
      kvGet unit 0 (s.engineReset unit cause).faults.counts = kvGet unit 0 s.faults.counts + 1 ∧
      bit (s.engineReset unit cause).faults.latched 1 = true) ∧
  (∀ (s : State) (n g : Nat), n < 256 → n < s.office.cells.length → g < 4 → (s.cell n).fenced = false → s.powered (n / 64) = true →
    s.office.stopped.contains (s.partOfCell n) = false → ∃ v : State,
      exec (.uncorrectableCellState n g) s = .next (v.engineReset (unitCell n) 0x03F8) ∧ bit v.faults.latched 7 = true ∧
        kvGet g 0 (v.cell n).laneErrors = kvGet g 0 (s.cell n).laneErrors + 1 ∧
        (1 ≤ kvGet g 0 (s.cell n).laneErrors → v.isFenced (unitLane n g) = true)) ∧
  (∀ (s : State) (unit : Nat), fenceable unit = true → unit / 4096 ≠ 2 → unit / 4096 ≠ 8 → s.board.phase = .serving →
    exec (.engineResetOverrun unit) s = .next (s.fenceNow unit 0 0x04F8) ∧
      (unit / 4096 ≠ 7 → (s.fenceNow unit 0 0x04F8).isFenced unit = true)) ∧
  (∀ (s : State) (r : Nat), (r < 4 → ∃ t, exec (.fenceWindow r) s = .next t ∧
      (∀ c ∈ t.office.cells, c.id / 64 = r → c.resets = 0 ∧ c.laneErrors = []) ∧
      (∀ k ∈ t.faults.counts, regionOfUnit k.1 ≠ some r) ∧ t.faults.fences = s.faults.fences) ∧
    (4 ≤ r → ∃ t, exec (.fenceWindow r) s = .next t ∧ t.fabric.laneRemovals = [] ∧ t.fabric.laneFailures = [] ∧
      (∀ c ∈ t.mem.chans, c.failedRow = 0 ∧ c.failedResets = 0 ∧ c.uncorrectableReads = 0) ∧
      (∀ p ∈ t.intake.pipes ++ t.codec.pipes, p.resets = 0) ∧ t.faults.fences = s.faults.fences))

/-- Partition and chip resets (19 R495 to R502): a partition that hangs is reset in two steps, and its overrun, a hung core and a chip
reset that does not serve lead up the rungs, to a power cycle at last. A chip reset ends every session and collective, and keeps its
cause. -/
def Obligations.ResetsClimbTheRungs : Prop :=
  (∀ (s : State) (r : Nat), r < 4 → s.powered r = true → s.partExists (s.partOfRegion r) = true →
    s.office.stopped.contains (s.partOfRegion r) = false → let p := s.partOfRegion r
      ∃ t, exec (.partitionWatchdog r) s = .next t ∧ t.office.stopped = insertNat p s.office.stopped ∧
        t.faults.annealing = insertNat p s.faults.annealing ∧ t.faults.lastCause = 0x04F8 ∧
        t.faults.postmarks = modifyAt (fun n => (n + 1) % 1024) p s.faults.postmarks ∧
        t.count 0x4003 3 = (s.count 0x4003 3 + 1) % 2 ^ 64) ∧
  (∀ (s : State) (p : Nat), s.faults.annealing.contains p = true → s.board.phase = .serving →
    (∃ t, exec (.annealComplete p) s = .next t ∧ t = s.anneal p ∧ t.faults.annealing.contains p = false ∧
      t.office.stopped.contains p = false) ∧
    exec (.annealOverrun p) s = .next ((s.raise 27 0x04FA).chipReset 0x04FA (s.partUnit p) true true false)) ∧
  (∀ (s : State) (core : Nat), core < 4 → s.sec.coreHalted.contains core = false → s.board.phase = .serving →
    exec (.coreWatchdog core) s = .next (((s.post (unitCore core) 2 0x04F9 s.anyDetail).raise 20 0x04F9).chipReset 0x04F9 (unitCore core)
      true true true)) ∧
  (∀ s : State, s.board.phase = .serving →
    (s.faults.resetTries = 1 → ∃ t, exec .chipResetTimeout s = .next t ∧ t.faults.resetTries = 2 ∧
      t.faults.lastCause = s.faults.lastCause) ∧
    (2 ≤ s.faults.resetTries → ∃ t, exec .chipResetTimeout s = .next t ∧ t.board.phase = .awaitingCycle ∧ t.faults.pwrReq = true)) ∧
  ∀ (s : State) (cause unit : Nat) (fault record hung : Bool), let t := s.chipReset cause unit fault record hung
    t.faults.lastCause = cause ∧ t.net.sessions = [] ∧ t.coll.flight = [] ∧ t.codec.streams = [] ∧ t.sec.challenge = none ∧
      t.sec.level = (if s.sec.fuses.lifecycle = 0 then 2 else 0) ∧ t.sec.fuses = s.sec.fuses ∧ t.sec.coreHalted = []
end

