-- ==== Sys2Proof/Laws/Answers.lean ====
section
/-! SUPPORT. Answers: how the dictionary answers a write. -/

namespace Sys2Proof.Machine
open Sys2Proof

/-- While the mailbox is not served, a write that triggers an action does nothing. -/
theorem State.trigger_down (s : State) (idx sub : Nat) (commit : Bool) (lo hi v : Nat) (f : State → Applied) (h : s.mailboxUp = false) :
    s.trigger idx sub commit lo hi v f = s := by simp [State.trigger, h]

/-- A value in range is judged by the action. -/
theorem State.trigger_up (s : State) (idx sub : Nat) (commit : Bool) (lo hi v : Nat) (f : State → Applied) (h : s.mailboxUp = true)
    (hl : lo ≤ v) (hh : v ≤ hi) : s.trigger idx sub commit lo hi v f = s.answerWrite idx sub commit (f s) := by
  have h1 : ¬v < lo := by omega
  have h2 : ¬hi < v := by omega
  simp [State.trigger, h, h1, h2]

/-- A value out of range is refused with 0x01F0. -/
theorem State.trigger_range (s : State) (idx sub : Nat) (commit : Bool) (lo hi v : Nat) (f : State → Applied) (h : s.mailboxUp = true)
    (hv : v < lo ∨ hi < v) : s.trigger idx sub commit lo hi v f = s.answerWrite idx sub commit (s, 0x01F0) := by
  have : (decide (v < lo) || decide (hi < v)) = true := by simpa using hv
  simp [State.trigger, h, this]

/-- A write that a code refuses is answered with an abort. -/
@[simp] theorem State.answerWrite_refused (s u : State) (idx sub : Nat) (commit : Bool) (d : Nat) (h : d ≠ 0) :
    s.answerWrite idx sub commit (u, d) = s.abort idx sub (abortCode commit d) d := by simp [State.answerWrite, h]

@[simp] theorem State.placeSm1_sm1 (s : State) (m : Bytes) : (s.placeSm1 m).ecat.sm1 = s.ecat.sm1 ++ [m] := rfl
@[simp] theorem State.placeSm1_mem (s : State) (m : Bytes) : (s.placeSm1 m).mem = s.mem := rfl
@[simp] theorem State.placeSm1_office (s : State) (m : Bytes) : (s.placeSm1 m).office = s.office := rfl
@[simp] theorem State.placeSm1_dict (s : State) (m : Bytes) : (s.placeSm1 m).dict = s.dict := rfl

end Sys2Proof.Machine
end

