-- ==== Sys2Proof/Laws/Memory.lean ====
section
/-! SUPPORT. Memory: a byte read after a write, and the canonical form that every write keeps. -/

namespace Sys2Proof.Machine
open Sys2Proof

/-! ### Numbered registers -/

@[simp] theorem kvGet_kvSet_self (k d v : Nat) (m : KV) : kvGet k d (kvSet k v m) = v := by
  induction m with
  | nil => simp [kvSet, kvGet]
  | cons e l ih =>
    unfold kvSet
    split
    · simp [kvGet]
    · split
      · simp [kvGet]
      · rename_i h2
        simp only [kvGet, h2]
        exact ih

theorem kvGet_kvSet_other (k j d v : Nat) (m : KV) (h : j ≠ k) : kvGet j d (kvSet k v m) = kvGet j d m := by
  induction m with
  | nil => simp [kvSet, kvGet, Ne.symm h]
  | cons e l ih =>
    unfold kvSet
    split
    · simp [kvGet, Ne.symm h]
    · split
      · rename_i h2
        have e1 : e.1 = k := by simpa using h2
        simp [kvGet, e1, Ne.symm h]
      · simp only [kvGet]
        split
        · rfl
        · exact ih

/-! ### A byte read after a write -/

/-- Below every listed address memory reads as nothing listed. -/
theorem memGet_below (a b : Nat) (m : List Host.Cell) (h : memWfFrom b m = true) (hab : a < b) : memGet a m = 0 := by
  induction m generalizing b with
  | nil => rfl
  | cons x l ih =>
    simp only [memWfFrom, Bool.and_eq_true, decide_eq_true_eq] at h
    obtain ⟨⟨h1, _⟩, h3⟩ := h
    have : ¬x.1 = a := by omega
    simp only [memGet, beq_iff_eq, this, if_false]
    exact ih (x.1 + 1) h3 (by omega)

theorem memGet_memPut_from (a : Nat) (v : Byte) (m : List Host.Cell) (b : Nat) (h : memWfFrom b m = true) :
    memGet a (memPut a v m) = v := by
  induction m generalizing b with
  | nil =>
    unfold memPut
    split
    · rename_i hv
      simpa [memGet] using (by simpa using hv : v = 0).symm
    · simp [memGet]
  | cons x l ih =>
    simp only [memWfFrom, Bool.and_eq_true, decide_eq_true_eq] at h
    obtain ⟨⟨h1, h2⟩, h3⟩ := h
    unfold memPut
    split
    · rename_i hlt
      split
      · rename_i hv
        have : ¬x.1 = a := by omega
        simp only [memGet, beq_iff_eq, this, if_false]
        rw [memGet_below a (x.1 + 1) l h3 (by omega)]
        exact (by simpa using hv : v = 0).symm
      · simp [memGet]
    · split
      · rename_i hlt heq
        have hx : x.1 = a := by simpa using heq
        split
        · rename_i hv
          rw [memGet_below a (x.1 + 1) l h3 (by omega)]
          exact (by simpa using hv : v = 0).symm
        · simp [memGet]
      · rename_i hlt heq
        simp only [memGet, heq]
        exact ih (x.1 + 1) h3

/-- The byte written is read back. -/
theorem memGet_memPut_self (a : Nat) (v : Byte) (m : List Host.Cell) (h : Memory.wf m = true) : memGet a (memPut a v m) = v :=
  memGet_memPut_from a v m 0 h

/-- A write leaves every other byte alone. -/
theorem memGet_memPut_other (a c : Nat) (v : Byte) (m : List Host.Cell) (h : c ≠ a) : memGet c (memPut a v m) = memGet c m := by
  induction m with
  | nil =>
    unfold memPut
    split
    · rfl
    · simp [memGet, Ne.symm h]
  | cons x l ih =>
    unfold memPut
    split
    · split
      · rfl
      · simp [memGet, Ne.symm h]
    · split
      · rename_i heq
        have hx : x.1 = a := by simpa using heq
        split
        · simp [memGet, hx, Ne.symm h]
        · simp [memGet, hx, Ne.symm h]
      · simp only [memGet]
        split
        · rfl
        · exact ih

/-! ### The canonical form -/

theorem memWfFrom_mono {a b : Nat} (h : b ≤ a) (m : List Host.Cell) (hw : memWfFrom a m = true) : memWfFrom b m = true := by
  cases m with
  | nil => rfl
  | cons x l =>
    simp only [memWfFrom, Bool.and_eq_true, decide_eq_true_eq] at hw ⊢
    exact ⟨⟨Nat.le_trans h hw.1.1, hw.1.2⟩, hw.2⟩

theorem memWfFrom_put (a : Nat) (v : Byte) (m : List Host.Cell) (b : Nat) (hb : b ≤ a) (h : memWfFrom b m = true) :
    memWfFrom b (memPut a v m) = true := by
  induction m generalizing b with
  | nil =>
    unfold memPut
    split
    · rfl
    · rename_i hv
      simp only [memWfFrom, Bool.and_eq_true, decide_eq_true_eq, bne_iff_ne, and_true]
      exact ⟨hb, by simpa using hv⟩
  | cons x l ih =>
    simp only [memWfFrom, Bool.and_eq_true, decide_eq_true_eq] at h
    obtain ⟨⟨h1, h2⟩, h3⟩ := h
    unfold memPut
    split
    · rename_i hlt
      split
      · simp only [memWfFrom, Bool.and_eq_true, decide_eq_true_eq]
        exact ⟨⟨h1, h2⟩, h3⟩
      · rename_i hv
        simp only [memWfFrom, Bool.and_eq_true, decide_eq_true_eq, bne_iff_ne]
        exact ⟨⟨hb, by simpa using hv⟩, ⟨hlt, by simpa using h2⟩, h3⟩
    · split
      · rename_i hlt heq
        have hx : x.1 = a := by simpa using heq
        split
        · exact memWfFrom_mono (by omega) l h3
        · rename_i hv
          simp only [memWfFrom, Bool.and_eq_true, decide_eq_true_eq, bne_iff_ne]
          exact ⟨⟨hb, by simpa using hv⟩, by rw [← hx]; exact h3⟩
      · rename_i hlt heq
        have hx : ¬x.1 = a := by simpa using heq
        simp only [memWfFrom, Bool.and_eq_true, decide_eq_true_eq]
        exact ⟨⟨h1, h2⟩, ih (x.1 + 1) (by omega) h3⟩

@[simp] theorem memNil_wf : Memory.wf [] = true := rfl

@[simp] theorem memPut_wf (a : Nat) (v : Byte) (m : List Host.Cell) (h : Memory.wf m = true) : Memory.wf (memPut a v m) = true :=
  memWfFrom_put a v m 0 (Nat.zero_le a) h

@[simp] theorem memPuts_wf (a : Nat) (bs : Bytes) (m : List Host.Cell) (h : Memory.wf m = true) :
    Memory.wf (memPuts a bs m) = true := by
  induction bs generalizing a m with
  | nil => exact h
  | cons b bs ih => exact ih _ _ (memPut_wf a b m h)

theorem memWfFrom_filter (p : Host.Cell → Bool) (m : List Host.Cell) (a : Nat) (h : memWfFrom a m = true) :
    memWfFrom a (m.filter p) = true := by
  induction m generalizing a with
  | nil => rfl
  | cons x l ih =>
    simp only [memWfFrom, Bool.and_eq_true, decide_eq_true_eq] at h
    obtain ⟨⟨h1, h2⟩, h3⟩ := h
    rw [List.filter_cons]
    split
    · simp only [memWfFrom, Bool.and_eq_true, decide_eq_true_eq]
      exact ⟨⟨h1, h2⟩, ih _ h3⟩
    · exact memWfFrom_mono (by omega) _ (ih _ h3)

@[simp] theorem memFilter_wf (p : Host.Cell → Bool) (m : List Host.Cell) (h : Memory.wf m = true) :
    Memory.wf (m.filter p) = true := memWfFrom_filter p m 0 h

@[simp] theorem MemSys.heal_cells (m : MemSys) (l : List Nat) : (m.heal l).cells = m.cells := rfl

@[simp] theorem foldl_memPut_wf {α : Type} (f : α → Nat) (g : α → Byte) (l : List α) (m : List Host.Cell) (h : Memory.wf m = true) :
    Memory.wf (l.foldl (fun m x => memPut (f x) (g x) m) m) = true := by
  induction l generalizing m with
  | nil => exact h
  | cons a l ih => exact ih _ (memPut_wf _ _ m h)

end Sys2Proof.Machine
end

