-- ==== Sys2Proof/Laws/Cells.lean ====
section
/-! SUPPORT. Cells: every operation and every command keeps the canonical form of memory. -/

set_option linter.all false

namespace Sys2Proof.Machine
open Sys2Proof

/-! ### Ops -/

theorem foldl_cellsOk {α : Type} (f : State → α → State)
    (h : ∀ s a, Memory.wf s.mem.cells = true → Memory.wf (f s a).mem.cells = true) (l : List α) (s : State)
    (hs : Memory.wf s.mem.cells = true) : Memory.wf (l.foldl f s).mem.cells = true := by
  induction l generalizing s with
  | nil => exact hs
  | cons a l ih => exact ih _ (h s a hs)

@[simp] theorem State.dset_cellsOk (s : State) (idx sub v : Nat) (h0 : Memory.wf s.mem.cells = true) :
    Memory.wf (State.dset s idx sub v).mem.cells = true := by
  exact h0

@[simp] theorem State.bump_cellsOk (s : State) (idx sub n : Nat) (h0 : Memory.wf s.mem.cells = true) :
    Memory.wf (State.bump s idx sub n).mem.cells = true := by
  exact h0

@[simp] theorem State.setCount_cellsOk (s : State) (idx sub n : Nat) (h0 : Memory.wf s.mem.cells = true) :
    Memory.wf (State.setCount s idx sub n).mem.cells = true := by
  exact h0

@[simp] theorem State.bumps_cellsOk (s : State) (l : List (Nat × Nat)) (h0 : Memory.wf s.mem.cells = true) :
    Memory.wf (State.bumps s l).mem.cells = true := by
  simp +contextual (maxDischargeDepth := 60) only [State.bumps, State.bump_cellsOk, foldl_cellsOk, MemSys.heal_cells, memNil_wf, memPut_wf, memFilter_wf, foldl_memPut_wf, h0, apply_ite State.mem, apply_ite MemSys.cells, apply_ite Memory.wf, ite_self, implies_true]

@[simp] theorem State.drew_cellsOk (s : State) (h0 : Memory.wf s.mem.cells = true) :
    Memory.wf (State.drew s).mem.cells = true := by
  exact h0

@[simp] theorem State.setCell_cellsOk (s : State) (i : Nat) (f : Cell → Cell) (h0 : Memory.wf s.mem.cells = true) :
    Memory.wf (State.setCell s i f).mem.cells = true := by
  exact h0

@[simp] theorem State.setChan_cellsOk (s : State) (i : Nat) (f : Chan → Chan) (h0 : Memory.wf s.mem.cells = true) :
    Memory.wf (State.setChan s i f).mem.cells = true := by
  exact h0

@[simp] theorem State.storeByte_cellsOk (s : State) (a : Nat) (v : Byte) (h0 : Memory.wf s.mem.cells = true) :
    Memory.wf (State.storeByte s a v).mem.cells = true := by
  unfold State.storeByte
  (repeat' (first | with_reducible exact h0 | split)) <;> simp (maxDischargeDepth := 60) only [State.bump_cellsOk, State.setChan_cellsOk, MemSys.heal_cells, memNil_wf, memPut_wf, memFilter_wf, foldl_memPut_wf, h0, apply_ite State.mem, apply_ite MemSys.cells, apply_ite Memory.wf, ite_self, implies_true]

@[simp] theorem State.storeBytes_cellsOk (s : State) (a : Nat) (v0 : Bytes) (h0 : Memory.wf s.mem.cells = true) :
    Memory.wf (State.storeBytes s a v0).mem.cells = true := by
  induction v0 generalizing s a  with
  | nil =>
    first
    | exact h0
    | (simp (maxDischargeDepth := 60) only [State.storeBytes, State.storeByte_cellsOk, MemSys.heal_cells, memNil_wf, memPut_wf, memFilter_wf, foldl_memPut_wf, h0, apply_ite State.mem, apply_ite MemSys.cells, apply_ite Memory.wf, ite_self, implies_true]; done)
  | cons b l ih =>
    first
    | (simp (maxDischargeDepth := 60) only [State.storeBytes, State.storeByte_cellsOk, MemSys.heal_cells, memNil_wf, memPut_wf, memFilter_wf, foldl_memPut_wf, h0, apply_ite State.mem, apply_ite MemSys.cells, apply_ite Memory.wf, ite_self, implies_true, ih]; done)
    | (unfold State.storeBytes; (repeat' (first | with_reducible exact h0 | split)) <;> (simp (maxDischargeDepth := 60) only [State.storeByte_cellsOk, MemSys.heal_cells, memNil_wf, memPut_wf, memFilter_wf, foldl_memPut_wf, h0, apply_ite State.mem, apply_ite MemSys.cells, apply_ite Memory.wf, ite_self, implies_true, ih]; done))
    | (unfold State.storeBytes; (repeat' (first | with_reducible exact h0 | split)) <;> (try simp (maxDischargeDepth := 60) only [State.storeByte_cellsOk, MemSys.heal_cells, memNil_wf, memPut_wf, memFilter_wf, foldl_memPut_wf, h0, apply_ite State.mem, apply_ite MemSys.cells, apply_ite Memory.wf, ite_self, implies_true, ih]) <;> (repeat' (first | with_reducible exact h0 | split)) <;> (simp (maxDischargeDepth := 60) only [State.storeByte_cellsOk, MemSys.heal_cells, memNil_wf, memPut_wf, memFilter_wf, foldl_memPut_wf, h0, apply_ite State.mem, apply_ite MemSys.cells, apply_ite Memory.wf, ite_self, implies_true, ih]; done))
    | (unfold State.storeBytes; (repeat' (first | with_reducible exact h0 | split)) <;> (simp +contextual (maxDischargeDepth := 60) only [State.storeByte_cellsOk, MemSys.heal_cells, memNil_wf, memPut_wf, memFilter_wf, foldl_memPut_wf, h0, apply_ite State.mem, apply_ite MemSys.cells, apply_ite Memory.wf, ite_self, implies_true, ih]; done))

@[simp] theorem State.retireWcb_cellsOk (s : State) (e : Wcb) (h0 : Memory.wf s.mem.cells = true) :
    Memory.wf (State.retireWcb s e).mem.cells = true := by
  simp (maxDischargeDepth := 60) only [State.retireWcb, State.bump_cellsOk, MemSys.heal_cells, memNil_wf, memPut_wf, memFilter_wf, foldl_memPut_wf, h0, apply_ite State.mem, apply_ite MemSys.cells, apply_ite Memory.wf, ite_self, implies_true]

@[simp] theorem State.mergeLine_cellsOk (s : State) (line : Nat) (addrs : List Nat) (h0 : Memory.wf s.mem.cells = true) :
    Memory.wf (State.mergeLine s line addrs).mem.cells = true := by
  unfold State.mergeLine
  simp (maxDischargeDepth := 60) only [State.bump_cellsOk, State.retireWcb_cellsOk, foldl_cellsOk, MemSys.heal_cells, memNil_wf, memPut_wf, memFilter_wf, foldl_memPut_wf, h0, apply_ite State.mem, apply_ite MemSys.cells, apply_ite Memory.wf, ite_self, implies_true]
  (repeat' (first | with_reducible exact h0 | split)) <;> simp (maxDischargeDepth := 60) only [State.bump_cellsOk, State.retireWcb_cellsOk, foldl_cellsOk, MemSys.heal_cells, memNil_wf, memPut_wf, memFilter_wf, foldl_memPut_wf, h0, apply_ite State.mem, apply_ite MemSys.cells, apply_ite Memory.wf, ite_self, implies_true]

@[simp] theorem State.mergeLines_cellsOk (s : State) (a n : Nat) (v0 : Nat) (h0 : Memory.wf s.mem.cells = true) :
    Memory.wf (State.mergeLines s a n v0).mem.cells = true := by
  induction v0 generalizing s a n  with
  | zero =>
    first
    | exact h0
    | (simp (maxDischargeDepth := 60) only [State.mergeLines, State.mergeLine_cellsOk, MemSys.heal_cells, memNil_wf, memPut_wf, memFilter_wf, foldl_memPut_wf, h0, apply_ite State.mem, apply_ite MemSys.cells, apply_ite Memory.wf, ite_self, implies_true]; done)
  | succ n ih =>
    first
    | (simp (maxDischargeDepth := 60) only [State.mergeLines, State.mergeLine_cellsOk, MemSys.heal_cells, memNil_wf, memPut_wf, memFilter_wf, foldl_memPut_wf, h0, apply_ite State.mem, apply_ite MemSys.cells, apply_ite Memory.wf, ite_self, implies_true, ih]; done)
    | (unfold State.mergeLines; (repeat' (first | with_reducible exact h0 | split)) <;> (simp (maxDischargeDepth := 60) only [State.mergeLine_cellsOk, MemSys.heal_cells, memNil_wf, memPut_wf, memFilter_wf, foldl_memPut_wf, h0, apply_ite State.mem, apply_ite MemSys.cells, apply_ite Memory.wf, ite_self, implies_true, ih]; done))
    | (unfold State.mergeLines; (repeat' (first | with_reducible exact h0 | split)) <;> (try simp (maxDischargeDepth := 60) only [State.mergeLine_cellsOk, MemSys.heal_cells, memNil_wf, memPut_wf, memFilter_wf, foldl_memPut_wf, h0, apply_ite State.mem, apply_ite MemSys.cells, apply_ite Memory.wf, ite_self, implies_true, ih]) <;> (repeat' (first | with_reducible exact h0 | split)) <;> (simp (maxDischargeDepth := 60) only [State.mergeLine_cellsOk, MemSys.heal_cells, memNil_wf, memPut_wf, memFilter_wf, foldl_memPut_wf, h0, apply_ite State.mem, apply_ite MemSys.cells, apply_ite Memory.wf, ite_self, implies_true, ih]; done))
    | (unfold State.mergeLines; (repeat' (first | with_reducible exact h0 | split)) <;> (simp +contextual (maxDischargeDepth := 60) only [State.mergeLine_cellsOk, MemSys.heal_cells, memNil_wf, memPut_wf, memFilter_wf, foldl_memPut_wf, h0, apply_ite State.mem, apply_ite MemSys.cells, apply_ite Memory.wf, ite_self, implies_true, ih]; done))

@[simp] theorem State.spoil_cellsOk (s : State) (a n : Nat) (h0 : Memory.wf s.mem.cells = true) :
    Memory.wf (State.spoil s a n).mem.cells = true := by
  simp (maxDischargeDepth := 60) only [State.spoil, foldl_cellsOk, MemSys.heal_cells, memNil_wf, memPut_wf, memFilter_wf, foldl_memPut_wf, h0, apply_ite State.mem, apply_ite MemSys.cells, apply_ite Memory.wf, ite_self, implies_true]

@[simp] theorem State.writeBytes_cellsOk (s : State) (a : Nat) (bs : Bytes) (h0 : Memory.wf s.mem.cells = true) :
    Memory.wf (State.writeBytes s a bs).mem.cells = true := by
  simp (maxDischargeDepth := 60) only [State.writeBytes, State.bump_cellsOk, State.storeBytes_cellsOk, State.mergeLines_cellsOk, State.spoil_cellsOk, MemSys.heal_cells, memNil_wf, memPut_wf, memFilter_wf, foldl_memPut_wf, h0, apply_ite State.mem, apply_ite MemSys.cells, apply_ite Memory.wf, ite_self, implies_true]

@[simp] theorem State.poisonUnits_cellsOk (s : State) (us : List Nat) (h0 : Memory.wf s.mem.cells = true) :
    Memory.wf (State.poisonUnits s us).mem.cells = true := by
  simp (maxDischargeDepth := 60) only [State.poisonUnits, State.bump_cellsOk, foldl_cellsOk, MemSys.heal_cells, memNil_wf, memPut_wf, memFilter_wf, foldl_memPut_wf, h0, apply_ite State.mem, apply_ite MemSys.cells, apply_ite Memory.wf, ite_self, implies_true]

@[simp] theorem State.clearRun_cellsOk (s : State) (a n : Nat) (h0 : Memory.wf s.mem.cells = true) :
    Memory.wf (State.clearRun s a n).mem.cells = true := by
  simp (maxDischargeDepth := 60) only [State.clearRun, MemSys.heal_cells, memNil_wf, memPut_wf, memFilter_wf, foldl_memPut_wf, h0, apply_ite State.mem, apply_ite MemSys.cells, apply_ite Memory.wf, ite_self, implies_true]

/-! ### Journal -/

@[simp] theorem State.wearLevel_cellsOk (s : State) (h0 : Memory.wf s.mem.cells = true) :
    Memory.wf (State.wearLevel s).mem.cells = true := by
  unfold State.wearLevel
  (repeat' (first | with_reducible exact h0 | split)) <;> simp (maxDischargeDepth := 60) only [State.bump_cellsOk, MemSys.heal_cells, memNil_wf, memPut_wf, memFilter_wf, foldl_memPut_wf, h0, apply_ite State.mem, apply_ite MemSys.cells, apply_ite Memory.wf, ite_self, implies_true]

@[simp] theorem State.commitWith_cellsOk (s : State) (extra : List Rec) (h0 : Memory.wf s.mem.cells = true) :
    Memory.wf (State.commitWith s extra).mem.cells = true := by
  simp (maxDischargeDepth := 60) only [State.commitWith, State.bump_cellsOk, State.wearLevel_cellsOk, MemSys.heal_cells, memNil_wf, memPut_wf, memFilter_wf, foldl_memPut_wf, h0, apply_ite State.mem, apply_ite MemSys.cells, apply_ite Memory.wf, ite_self, implies_true]

@[simp] theorem State.commit_cellsOk (s : State) (h0 : Memory.wf s.mem.cells = true) :
    Memory.wf (State.commit s).mem.cells = true := by
  simp (maxDischargeDepth := 60) only [State.commit, State.commitWith_cellsOk, MemSys.heal_cells, memNil_wf, memPut_wf, memFilter_wf, foldl_memPut_wf, h0, apply_ite State.mem, apply_ite MemSys.cells, apply_ite Memory.wf, ite_self, implies_true]

@[simp] theorem State.forceCommit_cellsOk (s : State) (h0 : Memory.wf s.mem.cells = true) :
    Memory.wf (State.forceCommit s).mem.cells = true := by
  simp (maxDischargeDepth := 60) only [State.forceCommit, State.bump_cellsOk, State.commitWith_cellsOk, MemSys.heal_cells, memNil_wf, memPut_wf, memFilter_wf, foldl_memPut_wf, h0, apply_ite State.mem, apply_ite MemSys.cells, apply_ite Memory.wf, ite_self, implies_true]

@[simp] theorem State.journal_cellsOk (s : State) (must : Bool) (r : Rec) (h0 : Memory.wf s.mem.cells = true) :
    Memory.wf (State.journal s must r).mem.cells = true := by
  simp (maxDischargeDepth := 60) only [State.journal, State.commitWith_cellsOk, MemSys.heal_cells, memNil_wf, memPut_wf, memFilter_wf, foldl_memPut_wf, h0, apply_ite State.mem, apply_ite MemSys.cells, apply_ite Memory.wf, ite_self, implies_true]

/-! ### Events -/

@[simp] theorem State.post_cellsOk (s : State) (unit event status detail : Nat) (h0 : Memory.wf s.mem.cells = true) :
    Memory.wf (State.post s unit event status detail).mem.cells = true := by
  simp (maxDischargeDepth := 60) only [State.post, State.drew_cellsOk, MemSys.heal_cells, memNil_wf, memPut_wf, memFilter_wf, foldl_memPut_wf, h0, apply_ite State.mem, apply_ite MemSys.cells, apply_ite Memory.wf, ite_self, implies_true]

@[simp] theorem State.log_cellsOk (s : State) (unit status severity part detail : Nat) (h0 : Memory.wf s.mem.cells = true) :
    Memory.wf (State.log s unit status severity part detail).mem.cells = true := by
  simp (maxDischargeDepth := 60) only [State.log, State.bump_cellsOk, State.drew_cellsOk, State.journal_cellsOk, MemSys.heal_cells, memNil_wf, memPut_wf, memFilter_wf, foldl_memPut_wf, h0, apply_ite State.mem, apply_ite MemSys.cells, apply_ite Memory.wf, ite_self, implies_true]

@[simp] theorem State.flushEmergency_cellsOk (s : State) (h0 : Memory.wf s.mem.cells = true) :
    Memory.wf (State.flushEmergency s).mem.cells = true := by
  unfold State.flushEmergency
  (repeat' (first | with_reducible exact h0 | split)) <;> simp (maxDischargeDepth := 60) only [State.bump_cellsOk, MemSys.heal_cells, memNil_wf, memPut_wf, memFilter_wf, foldl_memPut_wf, h0, apply_ite State.mem, apply_ite MemSys.cells, apply_ite Memory.wf, ite_self, implies_true]

@[simp] theorem State.emergency_cellsOk (s : State) (bitNo status : Nat) (h0 : Memory.wf s.mem.cells = true) :
    Memory.wf (State.emergency s bitNo status).mem.cells = true := by
  simp (maxDischargeDepth := 60) only [State.emergency, State.bump_cellsOk, State.flushEmergency_cellsOk, MemSys.heal_cells, memNil_wf, memPut_wf, memFilter_wf, foldl_memPut_wf, h0, apply_ite State.mem, apply_ite MemSys.cells, apply_ite Memory.wf, ite_self, implies_true]

@[simp] theorem State.raise_cellsOk (s : State) (bitNo status : Nat) (h0 : Memory.wf s.mem.cells = true) :
    Memory.wf (State.raise s bitNo status).mem.cells = true := by
  simp (maxDischargeDepth := 60) only [State.raise, State.emergency_cellsOk, MemSys.heal_cells, memNil_wf, memPut_wf, memFilter_wf, foldl_memPut_wf, h0, apply_ite State.mem, apply_ite MemSys.cells, apply_ite Memory.wf, ite_self, implies_true]

@[simp] theorem State.watch_cellsOk (s : State) (status : Nat) (h0 : Memory.wf s.mem.cells = true) :
    Memory.wf (State.watch s status).mem.cells = true := by
  simp +contextual (maxDischargeDepth := 60) only [State.watch, State.emergency_cellsOk, foldl_cellsOk, MemSys.heal_cells, memNil_wf, memPut_wf, memFilter_wf, foldl_memPut_wf, h0, apply_ite State.mem, apply_ite MemSys.cells, apply_ite Memory.wf, ite_self, implies_true]

/-! ### Wire -/

@[simp] theorem State.setPort_cellsOk (s : State) (i : Nat) (f : Port → Port) (h0 : Memory.wf s.mem.cells = true) :
    Memory.wf (State.setPort s i f).mem.cells = true := by
  exact h0

@[simp] theorem State.freePlace_cellsOk (s : State) (f : Flit) (h0 : Memory.wf s.mem.cells = true) :
    Memory.wf (State.freePlace s f).mem.cells = true := by
  unfold State.freePlace
  (repeat' (first | with_reducible exact h0 | split)) <;> simp (maxDischargeDepth := 60) only [State.setPort_cellsOk, MemSys.heal_cells, memNil_wf, memPut_wf, memFilter_wf, foldl_memPut_wf, h0, apply_ite State.mem, apply_ite MemSys.cells, apply_ite Memory.wf, ite_self, implies_true]

@[simp] theorem State.routeFlit_cellsOk (s : State) (f : Flit) (h0 : Memory.wf s.mem.cells = true) :
    Memory.wf (State.routeFlit s f).mem.cells = true := by
  simp (maxDischargeDepth := 60) only [State.routeFlit, State.bump_cellsOk, State.setPort_cellsOk, State.freePlace_cellsOk, MemSys.heal_cells, memNil_wf, memPut_wf, memFilter_wf, foldl_memPut_wf, h0, apply_ite State.mem, apply_ite MemSys.cells, apply_ite Memory.wf, ite_self, implies_true]

@[simp] theorem State.rerouteHeld_cellsOk (s : State) (h0 : Memory.wf s.mem.cells = true) :
    Memory.wf (State.rerouteHeld s).mem.cells = true := by
  simp +contextual (maxDischargeDepth := 60) only [State.rerouteHeld, State.routeFlit_cellsOk, foldl_cellsOk, MemSys.heal_cells, memNil_wf, memPut_wf, memFilter_wf, foldl_memPut_wf, h0, apply_ite State.mem, apply_ite MemSys.cells, apply_ite Memory.wf, ite_self, implies_true]

@[simp] theorem State.sendPacket_cellsOk (s : State) (cls dest post : Nat) (payload : Bytes) (h0 : Memory.wf s.mem.cells = true) :
    Memory.wf (State.sendPacket s cls dest post payload).mem.cells = true := by
  simp +contextual (maxDischargeDepth := 60) only [State.sendPacket, State.post_cellsOk, State.routeFlit_cellsOk, foldl_cellsOk, MemSys.heal_cells, memNil_wf, memPut_wf, memFilter_wf, foldl_memPut_wf, h0, apply_ite State.mem, apply_ite MemSys.cells, apply_ite Memory.wf, ite_self, implies_true]

@[simp] theorem State.respond_cellsOk (s : State) (part dest post : Nat) (payload : Bytes) (h0 : Memory.wf s.mem.cells = true) :
    Memory.wf (State.respond s part dest post payload).mem.cells = true := by
  simp (maxDischargeDepth := 60) only [State.respond, State.post_cellsOk, State.sendPacket_cellsOk, MemSys.heal_cells, memNil_wf, memPut_wf, memFilter_wf, foldl_memPut_wf, h0, apply_ite State.mem, apply_ite MemSys.cells, apply_ite Memory.wf, ite_self, implies_true]

@[simp] theorem State.refuse_cellsOk (s : State) (part dest code : Nat) (h0 : Memory.wf s.mem.cells = true) :
    Memory.wf (State.refuse s part dest code).mem.cells = true := by
  simp +contextual (maxDischargeDepth := 60) only [State.refuse, State.routeFlit_cellsOk, foldl_cellsOk, MemSys.heal_cells, memNil_wf, memPut_wf, memFilter_wf, foldl_memPut_wf, h0, apply_ite State.mem, apply_ite MemSys.cells, apply_ite Memory.wf, ite_self, implies_true]

@[simp] theorem State.request_cellsOk (s : State) (kind : ReqKind) (ctx idx part node addr len : Nat) (data : Bytes) (session seq : Nat) (h0 : Memory.wf s.mem.cells = true) :
    Memory.wf (State.request s kind ctx idx part node addr len data session seq).mem.cells = true := by
  simp +contextual (maxDischargeDepth := 60) only [State.request, State.routeFlit_cellsOk, foldl_cellsOk, MemSys.heal_cells, memNil_wf, memPut_wf, memFilter_wf, foldl_memPut_wf, h0, apply_ite State.mem, apply_ite MemSys.cells, apply_ite Memory.wf, ite_self, implies_true]

@[simp] theorem State.dropReqs_cellsOk (s : State) (p : Req → Bool) (h0 : Memory.wf s.mem.cells = true) :
    Memory.wf (State.dropReqs s p).mem.cells = true := by
  exact h0

@[simp] theorem State.dropCopy_cellsOk (s : State) (c : Copy) (h0 : Memory.wf s.mem.cells = true) :
    Memory.wf (State.dropCopy s c).mem.cells = true := by
  exact h0

@[simp] theorem State.chargeWrite_cellsOk (s : State) (ctx code : Nat) (h0 : Memory.wf s.mem.cells = true) :
    Memory.wf (State.chargeWrite s ctx code).mem.cells = true := by
  exact h0

@[simp] theorem State.lostBack_cellsOk (s : State) (node addr code : Nat) (h0 : Memory.wf s.mem.cells = true) :
    Memory.wf (State.lostBack s node addr code).mem.cells = true := by
  unfold State.lostBack
  (repeat' (first | with_reducible exact h0 | split)) <;> simp +contextual (maxDischargeDepth := 60) only [State.chargeWrite_cellsOk, foldl_cellsOk, MemSys.heal_cells, memNil_wf, memPut_wf, memFilter_wf, foldl_memPut_wf, h0, apply_ite State.mem, apply_ite MemSys.cells, apply_ite Memory.wf, ite_self, implies_true]

@[simp] theorem State.lostFetch_cellsOk (s : State) (node addr code : Nat) (h0 : Memory.wf s.mem.cells = true) :
    Memory.wf (State.lostFetch s node addr code).mem.cells = true := by
  simp +contextual (maxDischargeDepth := 60) only [State.lostFetch, State.chargeWrite_cellsOk, foldl_cellsOk, MemSys.heal_cells, memNil_wf, memPut_wf, memFilter_wf, foldl_memPut_wf, h0, apply_ite State.mem, apply_ite MemSys.cells, apply_ite Memory.wf, ite_self, implies_true]

@[simp] theorem State.writeBack_cellsOk (s : State) (c : Copy) (h0 : Memory.wf s.mem.cells = true) :
    Memory.wf (State.writeBack s c).mem.cells = true := by
  simp (maxDischargeDepth := 60) only [State.writeBack, State.request_cellsOk, State.lostBack_cellsOk, MemSys.heal_cells, memNil_wf, memPut_wf, memFilter_wf, foldl_memPut_wf, h0, apply_ite State.mem, apply_ite MemSys.cells, apply_ite Memory.wf, ite_self, implies_true]

@[simp] theorem State.evict_cellsOk (s : State) (c : Copy) (h0 : Memory.wf s.mem.cells = true) :
    Memory.wf (State.evict s c).mem.cells = true := by
  simp (maxDischargeDepth := 60) only [State.evict, State.bump_cellsOk, State.dropCopy_cellsOk, State.writeBack_cellsOk, MemSys.heal_cells, memNil_wf, memPut_wf, memFilter_wf, foldl_memPut_wf, h0, apply_ite State.mem, apply_ite MemSys.cells, apply_ite Memory.wf, ite_self, implies_true]

@[simp] theorem State.makeRoom_cellsOk (s : State) (n : Nat) (v0 : Nat) (h0 : Memory.wf s.mem.cells = true) :
    Memory.wf (State.makeRoom s n v0).mem.cells = true := by
  induction v0 generalizing s n  with
  | zero =>
    first
    | exact h0
    | (simp (maxDischargeDepth := 60) only [State.makeRoom, State.evict_cellsOk, MemSys.heal_cells, memNil_wf, memPut_wf, memFilter_wf, foldl_memPut_wf, h0, apply_ite State.mem, apply_ite MemSys.cells, apply_ite Memory.wf, ite_self, implies_true]; done)
  | succ n ih =>
    first
    | (simp (maxDischargeDepth := 60) only [State.makeRoom, State.evict_cellsOk, MemSys.heal_cells, memNil_wf, memPut_wf, memFilter_wf, foldl_memPut_wf, h0, apply_ite State.mem, apply_ite MemSys.cells, apply_ite Memory.wf, ite_self, implies_true, ih]; done)
    | (unfold State.makeRoom; (repeat' (first | with_reducible exact h0 | split)) <;> (simp (maxDischargeDepth := 60) only [State.evict_cellsOk, MemSys.heal_cells, memNil_wf, memPut_wf, memFilter_wf, foldl_memPut_wf, h0, apply_ite State.mem, apply_ite MemSys.cells, apply_ite Memory.wf, ite_self, implies_true, ih]; done))
    | (unfold State.makeRoom; (repeat' (first | with_reducible exact h0 | split)) <;> (try simp (maxDischargeDepth := 60) only [State.evict_cellsOk, MemSys.heal_cells, memNil_wf, memPut_wf, memFilter_wf, foldl_memPut_wf, h0, apply_ite State.mem, apply_ite MemSys.cells, apply_ite Memory.wf, ite_self, implies_true, ih]) <;> (repeat' (first | with_reducible exact h0 | split)) <;> (simp (maxDischargeDepth := 60) only [State.evict_cellsOk, MemSys.heal_cells, memNil_wf, memPut_wf, memFilter_wf, foldl_memPut_wf, h0, apply_ite State.mem, apply_ite MemSys.cells, apply_ite Memory.wf, ite_self, implies_true, ih]; done))
    | (unfold State.makeRoom; (repeat' (first | with_reducible exact h0 | split)) <;> (simp +contextual (maxDischargeDepth := 60) only [State.evict_cellsOk, MemSys.heal_cells, memNil_wf, memPut_wf, memFilter_wf, foldl_memPut_wf, h0, apply_ite State.mem, apply_ite MemSys.cells, apply_ite Memory.wf, ite_self, implies_true, ih]; done))

@[simp] theorem State.copyRoom_cellsOk (s : State) (h0 : Memory.wf s.mem.cells = true) :
    Memory.wf (State.copyRoom s).1.mem.cells = true := by
  simp (maxDischargeDepth := 60) only [State.copyRoom, State.makeRoom_cellsOk, MemSys.heal_cells, memNil_wf, memPut_wf, memFilter_wf, foldl_memPut_wf, h0, apply_ite State.mem, apply_ite MemSys.cells, apply_ite Memory.wf, ite_self, implies_true]

@[simp] theorem State.copyWrite_cellsOk (s : State) (ctx g : Nat) (bs : Bytes) (h0 : Memory.wf s.mem.cells = true) :
    Memory.wf (State.copyWrite s ctx g bs).1.mem.cells = true := by
  unfold State.copyWrite
  simp (maxDischargeDepth := 60) only [State.request_cellsOk, State.lostFetch_cellsOk, State.copyRoom_cellsOk, foldl_cellsOk, MemSys.heal_cells, memNil_wf, memPut_wf, memFilter_wf, foldl_memPut_wf, h0, apply_ite State.mem, apply_ite MemSys.cells, apply_ite Memory.wf, ite_self, implies_true]
  (repeat' (first | with_reducible exact h0 | split)) <;> simp (maxDischargeDepth := 60) only [State.request_cellsOk, State.lostFetch_cellsOk, State.copyRoom_cellsOk, foldl_cellsOk, MemSys.heal_cells, memNil_wf, memPut_wf, memFilter_wf, foldl_memPut_wf, h0, apply_ite State.mem, apply_ite MemSys.cells, apply_ite Memory.wf, ite_self, implies_true]

@[simp] theorem State.writeGlobal_cellsOk (s : State) (ctx idx part : Nat) (w : Nat × Bytes) (h0 : Memory.wf s.mem.cells = true) :
    Memory.wf (State.writeGlobal s ctx idx part w).mem.cells = true := by
  simp +contextual (maxDischargeDepth := 60) only [State.writeGlobal, State.writeBytes_cellsOk, State.request_cellsOk, State.chargeWrite_cellsOk, State.copyWrite_cellsOk, foldl_cellsOk, MemSys.heal_cells, memNil_wf, memPut_wf, memFilter_wf, foldl_memPut_wf, h0, apply_ite State.mem, apply_ite MemSys.cells, apply_ite Memory.wf, ite_self, implies_true]

/-! ### Dict -/

@[simp] theorem State.placeSm1_cellsOk (s : State) (m : Bytes) (h0 : Memory.wf s.mem.cells = true) :
    Memory.wf (State.placeSm1 s m).mem.cells = true := by
  exact h0

@[simp] theorem State.abort_cellsOk (s : State) (idx sub code detail : Nat) (h0 : Memory.wf s.mem.cells = true) :
    Memory.wf (State.abort s idx sub code detail).mem.cells = true := by
  simp (maxDischargeDepth := 60) only [State.abort, State.bump_cellsOk, State.placeSm1_cellsOk, MemSys.heal_cells, memNil_wf, memPut_wf, memFilter_wf, foldl_memPut_wf, h0, apply_ite State.mem, apply_ite MemSys.cells, apply_ite Memory.wf, ite_self, implies_true]

@[simp] theorem State.answerWrite_cellsOk (s : State) (idx sub : Nat) (commit : Bool) (r : Applied) (h0 : Memory.wf s.mem.cells = true)
    (h : Memory.wf r.1.mem.cells = true) : Memory.wf (s.answerWrite idx sub commit r).mem.cells = true := by
  unfold State.answerWrite
  split <;> simp (maxDischargeDepth := 60) [h, h0]

@[simp] theorem State.upload_cellsOk (s : State) (idx sub : Nat) (data : Bytes) (h0 : Memory.wf s.mem.cells = true) :
    Memory.wf (State.upload s idx sub data).mem.cells = true := by
  simp (maxDischargeDepth := 60) only [State.upload, State.bump_cellsOk, State.placeSm1_cellsOk, MemSys.heal_cells, memNil_wf, memPut_wf, memFilter_wf, foldl_memPut_wf, h0, apply_ite State.mem, apply_ite MemSys.cells, apply_ite Memory.wf, ite_self, implies_true]

@[simp] theorem State.trigger_cellsOk (s : State) (idx sub : Nat) (commit : Bool) (lo hi value : Nat) (f : State → Applied)
    (h0 : Memory.wf s.mem.cells = true) (h : Memory.wf (f s).1.mem.cells = true) :
    Memory.wf (s.trigger idx sub commit lo hi value f).mem.cells = true := by
  unfold State.trigger
  split
  · exact h0
  · apply State.answerWrite_cellsOk _ _ _ _ _ h0
    split
    · exact h0
    · exact h

@[simp] theorem State.keep_cellsOk (s : State) (idx sub width v : Nat) (h0 : Memory.wf s.mem.cells = true) :
    Memory.wf (State.keep s idx sub width v).mem.cells = true := by
  simp (maxDischargeDepth := 60) only [State.keep, State.dset_cellsOk, State.journal_cellsOk, MemSys.heal_cells, memNil_wf, memPut_wf, memFilter_wf, foldl_memPut_wf, h0, apply_ite State.mem, apply_ite MemSys.cells, apply_ite Memory.wf, ite_self, implies_true]

@[simp] theorem State.putFence_cellsOk (s : State) (unit state origin cause : Nat) (h0 : Memory.wf s.mem.cells = true) :
    Memory.wf (State.putFence s unit state origin cause).mem.cells = true := by
  simp (maxDischargeDepth := 60) only [State.putFence, State.drew_cellsOk, State.forceCommit_cellsOk, State.journal_cellsOk, State.post_cellsOk, State.log_cellsOk, State.watch_cellsOk, MemSys.heal_cells, memNil_wf, memPut_wf, memFilter_wf, foldl_memPut_wf, h0, apply_ite State.mem, apply_ite MemSys.cells, apply_ite Memory.wf, ite_self, implies_true]

@[simp] theorem State.dropFence_cellsOk (s : State) (unit : Nat) (h0 : Memory.wf s.mem.cells = true) :
    Memory.wf (State.dropFence s unit).mem.cells = true := by
  unfold State.dropFence
  (repeat' (first | with_reducible exact h0 | split)) <;> simp (maxDischargeDepth := 60) only [State.forceCommit_cellsOk, State.journal_cellsOk, State.watch_cellsOk, MemSys.heal_cells, memNil_wf, memPut_wf, memFilter_wf, foldl_memPut_wf, h0, apply_ite State.mem, apply_ite MemSys.cells, apply_ite Memory.wf, ite_self, implies_true]

@[simp] theorem State.markChannel_cellsOk (s : State) (n origin cause : Nat) (h0 : Memory.wf s.mem.cells = true) :
    Memory.wf (State.markChannel s n origin cause).mem.cells = true := by
  simp (maxDischargeDepth := 60) only [State.markChannel, State.setChan_cellsOk, State.putFence_cellsOk, MemSys.heal_cells, memNil_wf, memPut_wf, memFilter_wf, foldl_memPut_wf, h0, apply_ite State.mem, apply_ite MemSys.cells, apply_ite Memory.wf, ite_self, implies_true]

@[simp] theorem State.badReads_cellsOk (s : State) (n k : Nat) (h0 : Memory.wf s.mem.cells = true) :
    Memory.wf (State.badReads s n k).mem.cells = true := by
  simp (maxDischargeDepth := 60) only [State.badReads, State.setChan_cellsOk, State.markChannel_cellsOk, MemSys.heal_cells, memNil_wf, memPut_wf, memFilter_wf, foldl_memPut_wf, h0, apply_ite State.mem, apply_ite MemSys.cells, apply_ite Memory.wf, ite_self, implies_true]

/-! ### Contexts -/

@[simp] theorem State.setCtx_cellsOk (s : State) (c : Nat) (f : Ctx → Ctx) (h0 : Memory.wf s.mem.cells = true) :
    Memory.wf (State.setCtx s c f).mem.cells = true := by
  exact h0

@[simp] theorem State.setQueue_cellsOk (s : State) (c : Nat) (f : Queue → Queue) (h0 : Memory.wf s.mem.cells = true) :
    Memory.wf (State.setQueue s c f).mem.cells = true := by
  simp (maxDischargeDepth := 60) only [State.setQueue, State.setCtx_cellsOk, MemSys.heal_cells, memNil_wf, memPut_wf, memFilter_wf, foldl_memPut_wf, h0, apply_ite State.mem, apply_ite MemSys.cells, apply_ite Memory.wf, ite_self, implies_true]

@[simp] theorem State.setJob_cellsOk (s : State) (c : Nat) (f : Job → Job) (h0 : Memory.wf s.mem.cells = true) :
    Memory.wf (State.setJob s c f).mem.cells = true := by
  simp (maxDischargeDepth := 60) only [State.setJob, State.setCtx_cellsOk, MemSys.heal_cells, memNil_wf, memPut_wf, memFilter_wf, foldl_memPut_wf, h0, apply_ite State.mem, apply_ite MemSys.cells, apply_ite Memory.wf, ite_self, implies_true]

@[simp] theorem State.setFlight_cellsOk (s : State) (c i : Nat) (f : InFlight → InFlight) (h0 : Memory.wf s.mem.cells = true) :
    Memory.wf (State.setFlight s c i f).mem.cells = true := by
  exact h0

@[simp] theorem State.readRuns_cellsOk (s : State) (l : List (Nat × Nat)) (h0 : Memory.wf s.mem.cells = true) :
    Memory.wf (State.readRuns s l).mem.cells = true := by
  unfold State.readRuns
  dsimp only
  have hk : ∀ t : State, Memory.wf t.mem.cells = true → Memory.wf (t.mem.touch l).cells = true := fun t ht => ht
  apply hk
  split
  · exact h0
  · exact State.drew_cellsOk _ (State.bump_cellsOk _ _ _ _ (State.bumps_cellsOk _ _ h0))

@[simp] theorem State.setSession_cellsOk (s : State) (id : Nat) (f : Session → Session) (h0 : Memory.wf s.mem.cells = true) :
    Memory.wf (State.setSession s id f).mem.cells = true := by
  exact h0

@[simp] theorem State.putDgram_cellsOk (s : State) (d : OutDgram) (h0 : Memory.wf s.mem.cells = true) :
    Memory.wf (State.putDgram s d).mem.cells = true := by
  simp (maxDischargeDepth := 60) only [State.putDgram, MemSys.heal_cells, memNil_wf, memPut_wf, memFilter_wf, foldl_memPut_wf, h0, apply_ite State.mem, apply_ite MemSys.cells, apply_ite Memory.wf, ite_self, implies_true]

@[simp] theorem State.emit_cellsOk (s : State) (x : Session) (m : SentMsg) (h0 : Memory.wf s.mem.cells = true) :
    Memory.wf (State.emit s x m).mem.cells = true := by
  simp (maxDischargeDepth := 60) only [State.emit, State.setSession_cellsOk, State.putDgram_cellsOk, MemSys.heal_cells, memNil_wf, memPut_wf, memFilter_wf, foldl_memPut_wf, h0, apply_ite State.mem, apply_ite MemSys.cells, apply_ite Memory.wf, ite_self, implies_true]

@[simp] theorem State.sendMsg_cellsOk (s : State) (id type status post : Nat) (body : Bytes) (h0 : Memory.wf s.mem.cells = true) :
    Memory.wf (State.sendMsg s id type status post body).mem.cells = true := by
  unfold State.sendMsg
  (repeat' (first | with_reducible exact h0 | split)) <;> simp (maxDischargeDepth := 60) only [State.bump_cellsOk, State.post_cellsOk, State.setSession_cellsOk, State.emit_cellsOk, MemSys.heal_cells, memNil_wf, memPut_wf, memFilter_wf, foldl_memPut_wf, h0, apply_ite State.mem, apply_ite MemSys.cells, apply_ite Memory.wf, ite_self, implies_true]

@[simp] theorem State.sendLoose_cellsOk (s : State) (id type status : Nat) (body : Bytes) (h0 : Memory.wf s.mem.cells = true) :
    Memory.wf (State.sendLoose s id type status body).mem.cells = true := by
  unfold State.sendLoose
  (repeat' (first | with_reducible exact h0 | split)) <;> simp (maxDischargeDepth := 60) only [State.bump_cellsOk, State.emit_cellsOk, MemSys.heal_cells, memNil_wf, memPut_wf, memFilter_wf, foldl_memPut_wf, h0, apply_ite State.mem, apply_ite MemSys.cells, apply_ite Memory.wf, ite_self, implies_true]

@[simp] theorem State.endClosing_cellsOk (s : State) (id : Nat) (h0 : Memory.wf s.mem.cells = true) :
    Memory.wf (State.endClosing s id).mem.cells = true := by
  unfold State.endClosing
  (repeat' (first | with_reducible exact h0 | split)) <;> simp (maxDischargeDepth := 60) only [MemSys.heal_cells, memNil_wf, memPut_wf, memFilter_wf, foldl_memPut_wf, h0, apply_ite State.mem, apply_ite MemSys.cells, apply_ite Memory.wf, ite_self, implies_true]

@[simp] theorem State.reply_cellsOk (s : State) (id seq status post value : Nat) (h0 : Memory.wf s.mem.cells = true) :
    Memory.wf (State.reply s id seq status post value).mem.cells = true := by
  simp (maxDischargeDepth := 60) only [State.reply, State.post_cellsOk, State.sendMsg_cellsOk, State.endClosing_cellsOk, MemSys.heal_cells, memNil_wf, memPut_wf, memFilter_wf, foldl_memPut_wf, h0, apply_ite State.mem, apply_ite MemSys.cells, apply_ite Memory.wf, ite_self, implies_true]

@[simp] theorem State.progress_cellsOk (s : State) (c : Nat) (h0 : Memory.wf s.mem.cells = true) :
    Memory.wf (State.progress s c).mem.cells = true := by
  unfold State.progress
  (repeat' (first | with_reducible exact h0 | split)) <;> simp (maxDischargeDepth := 60) only [State.sendMsg_cellsOk, MemSys.heal_cells, memNil_wf, memPut_wf, memFilter_wf, foldl_memPut_wf, h0, apply_ite State.mem, apply_ite MemSys.cells, apply_ite Memory.wf, ite_self, implies_true]

@[simp] theorem State.enter_cellsOk (s : State) (c : Nat) (st : CtxState) (h0 : Memory.wf s.mem.cells = true) :
    Memory.wf (State.enter s c st).mem.cells = true := by
  unfold State.enter
  (repeat' (first | with_reducible exact h0 | split)) <;> simp (maxDischargeDepth := 60) only [State.post_cellsOk, State.setCtx_cellsOk, State.progress_cellsOk, MemSys.heal_cells, memNil_wf, memPut_wf, memFilter_wf, foldl_memPut_wf, h0, apply_ite State.mem, apply_ite MemSys.cells, apply_ite Memory.wf, ite_self, implies_true]

@[simp] theorem State.dropSlot_cellsOk (s : State) (x : Ctx) (h0 : Memory.wf s.mem.cells = true) :
    Memory.wf (State.dropSlot s x).mem.cells = true := by
  simp (maxDischargeDepth := 60) only [State.dropSlot, MemSys.heal_cells, memNil_wf, memPut_wf, memFilter_wf, foldl_memPut_wf, h0, apply_ite State.mem, apply_ite MemSys.cells, apply_ite Memory.wf, ite_self, implies_true]

@[simp] theorem State.goLive_cellsOk (s : State) (c : Nat) (h0 : Memory.wf s.mem.cells = true) :
    Memory.wf (State.goLive s c).mem.cells = true := by
  simp (maxDischargeDepth := 60) only [State.goLive, State.setQueue_cellsOk, State.enter_cellsOk, MemSys.heal_cells, memNil_wf, memPut_wf, memFilter_wf, foldl_memPut_wf, h0, apply_ite State.mem, apply_ite MemSys.cells, apply_ite Memory.wf, ite_self, implies_true]

@[simp] theorem State.dropSave_cellsOk (s : State) (c : Nat) (h0 : Memory.wf s.mem.cells = true) :
    Memory.wf (State.dropSave s c).mem.cells = true := by
  unfold State.dropSave
  (repeat' (first | with_reducible exact h0 | split)) <;> simp (maxDischargeDepth := 60) only [State.setCtx_cellsOk, MemSys.heal_cells, memNil_wf, memPut_wf, memFilter_wf, foldl_memPut_wf, h0, apply_ite State.mem, apply_ite MemSys.cells, apply_ite Memory.wf, ite_self, implies_true]

@[simp] theorem State.suspendStart_cellsOk (s : State) (c : Nat) (held : Bool) (h0 : Memory.wf s.mem.cells = true) :
    Memory.wf (State.suspendStart s c held).mem.cells = true := by
  unfold State.suspendStart
  (repeat' (first | with_reducible exact h0 | split)) <;> simp (maxDischargeDepth := 60) only [State.setCtx_cellsOk, MemSys.heal_cells, memNil_wf, memPut_wf, memFilter_wf, foldl_memPut_wf, h0, apply_ite State.mem, apply_ite MemSys.cells, apply_ite Memory.wf, ite_self, implies_true]

@[simp] theorem State.runTriggersOf_cellsOk (s : State) (v0 : List (Nat × Nat)) (h0 : Memory.wf s.mem.cells = true) :
    Memory.wf (State.runTriggersOf s v0).mem.cells = true := by
  induction v0 generalizing s  with
  | nil =>
    first
    | exact h0
    | (simp (maxDischargeDepth := 60) only [State.runTriggersOf, State.suspendStart_cellsOk, MemSys.heal_cells, memNil_wf, memPut_wf, memFilter_wf, foldl_memPut_wf, h0, apply_ite State.mem, apply_ite MemSys.cells, apply_ite Memory.wf, ite_self, implies_true]; done)
  | cons b l ih =>
    first
    | (simp (maxDischargeDepth := 60) only [State.runTriggersOf, State.suspendStart_cellsOk, MemSys.heal_cells, memNil_wf, memPut_wf, memFilter_wf, foldl_memPut_wf, h0, apply_ite State.mem, apply_ite MemSys.cells, apply_ite Memory.wf, ite_self, implies_true, ih]; done)
    | (unfold State.runTriggersOf; (repeat' (first | with_reducible exact h0 | split)) <;> (simp (maxDischargeDepth := 60) only [State.suspendStart_cellsOk, MemSys.heal_cells, memNil_wf, memPut_wf, memFilter_wf, foldl_memPut_wf, h0, apply_ite State.mem, apply_ite MemSys.cells, apply_ite Memory.wf, ite_self, implies_true, ih]; done))
    | (unfold State.runTriggersOf; (repeat' (first | with_reducible exact h0 | split)) <;> (try simp (maxDischargeDepth := 60) only [State.suspendStart_cellsOk, MemSys.heal_cells, memNil_wf, memPut_wf, memFilter_wf, foldl_memPut_wf, h0, apply_ite State.mem, apply_ite MemSys.cells, apply_ite Memory.wf, ite_self, implies_true, ih]) <;> (repeat' (first | with_reducible exact h0 | split)) <;> (simp (maxDischargeDepth := 60) only [State.suspendStart_cellsOk, MemSys.heal_cells, memNil_wf, memPut_wf, memFilter_wf, foldl_memPut_wf, h0, apply_ite State.mem, apply_ite MemSys.cells, apply_ite Memory.wf, ite_self, implies_true, ih]; done))
    | (unfold State.runTriggersOf; (repeat' (first | with_reducible exact h0 | split)) <;> (simp +contextual (maxDischargeDepth := 60) only [State.suspendStart_cellsOk, MemSys.heal_cells, memNil_wf, memPut_wf, memFilter_wf, foldl_memPut_wf, h0, apply_ite State.mem, apply_ite MemSys.cells, apply_ite Memory.wf, ite_self, implies_true, ih]; done))

@[simp] theorem State.runTriggers_cellsOk (s : State) (h0 : Memory.wf s.mem.cells = true) :
    Memory.wf (State.runTriggers s).mem.cells = true := by
  simp (maxDischargeDepth := 60) only [State.runTriggers, State.runTriggersOf_cellsOk, MemSys.heal_cells, memNil_wf, memPut_wf, memFilter_wf, foldl_memPut_wf, h0, apply_ite State.mem, apply_ite MemSys.cells, apply_ite Memory.wf, ite_self, implies_true]

@[simp] theorem State.endCopies_cellsOk (s : State) (c : Nat) (h0 : Memory.wf s.mem.cells = true) :
    Memory.wf (State.endCopies s c).mem.cells = true := by
  simp +contextual (maxDischargeDepth := 60) only [State.endCopies, State.writeBack_cellsOk, foldl_cellsOk, MemSys.heal_cells, memNil_wf, memPut_wf, memFilter_wf, foldl_memPut_wf, h0, apply_ite State.mem, apply_ite MemSys.cells, apply_ite Memory.wf, ite_self, implies_true]

@[simp] theorem State.dropWork_cellsOk (s : State) (c : Nat) (h0 : Memory.wf s.mem.cells = true) :
    Memory.wf (State.dropWork s c).mem.cells = true := by
  simp (maxDischargeDepth := 60) only [State.dropWork, MemSys.heal_cells, memNil_wf, memPut_wf, memFilter_wf, foldl_memPut_wf, h0, apply_ite State.mem, apply_ite MemSys.cells, apply_ite Memory.wf, ite_self, implies_true]

@[simp] theorem State.freeCtx_cellsOk (s : State) (c : Nat) (h0 : Memory.wf s.mem.cells = true) :
    Memory.wf (State.freeCtx s c).mem.cells = true := by
  simp (maxDischargeDepth := 60) only [State.freeCtx, State.dropSave_cellsOk, State.runTriggers_cellsOk, State.dropWork_cellsOk, MemSys.heal_cells, memNil_wf, memPut_wf, memFilter_wf, foldl_memPut_wf, h0, apply_ite State.mem, apply_ite MemSys.cells, apply_ite Memory.wf, ite_self, implies_true]

@[simp] theorem State.failDelivery_cellsOk (s : State) (r : Result) (h0 : Memory.wf s.mem.cells = true) :
    Memory.wf (State.failDelivery s r).mem.cells = true := by
  simp (maxDischargeDepth := 60) only [State.failDelivery, State.bump_cellsOk, State.refuse_cellsOk, State.progress_cellsOk, State.freeCtx_cellsOk, MemSys.heal_cells, memNil_wf, memPut_wf, memFilter_wf, foldl_memPut_wf, h0, apply_ite State.mem, apply_ite MemSys.cells, apply_ite Memory.wf, ite_self, implies_true]

@[simp] theorem State.sendResults_cellsOk (s : State) (sess job post : Nat) (v0 : Nat) (v1 : List Bytes) (h0 : Memory.wf s.mem.cells = true) :
    Memory.wf (State.sendResults s sess job post v0 v1).mem.cells = true := by
  induction v1 generalizing s sess job post v0 with
  | nil =>
    first
    | exact h0
    | (simp (maxDischargeDepth := 60) only [State.sendResults, State.post_cellsOk, State.sendMsg_cellsOk, MemSys.heal_cells, memNil_wf, memPut_wf, memFilter_wf, foldl_memPut_wf, h0, apply_ite State.mem, apply_ite MemSys.cells, apply_ite Memory.wf, ite_self, implies_true]; done)
  | cons b l ih =>
    first
    | (simp (maxDischargeDepth := 60) only [State.sendResults, State.post_cellsOk, State.sendMsg_cellsOk, MemSys.heal_cells, memNil_wf, memPut_wf, memFilter_wf, foldl_memPut_wf, h0, apply_ite State.mem, apply_ite MemSys.cells, apply_ite Memory.wf, ite_self, implies_true, ih]; done)
    | (unfold State.sendResults; (repeat' (first | with_reducible exact h0 | split)) <;> (simp (maxDischargeDepth := 60) only [State.post_cellsOk, State.sendMsg_cellsOk, MemSys.heal_cells, memNil_wf, memPut_wf, memFilter_wf, foldl_memPut_wf, h0, apply_ite State.mem, apply_ite MemSys.cells, apply_ite Memory.wf, ite_self, implies_true, ih]; done))
    | (unfold State.sendResults; (repeat' (first | with_reducible exact h0 | split)) <;> (try simp (maxDischargeDepth := 60) only [State.post_cellsOk, State.sendMsg_cellsOk, MemSys.heal_cells, memNil_wf, memPut_wf, memFilter_wf, foldl_memPut_wf, h0, apply_ite State.mem, apply_ite MemSys.cells, apply_ite Memory.wf, ite_self, implies_true, ih]) <;> (repeat' (first | with_reducible exact h0 | split)) <;> (simp (maxDischargeDepth := 60) only [State.post_cellsOk, State.sendMsg_cellsOk, MemSys.heal_cells, memNil_wf, memPut_wf, memFilter_wf, foldl_memPut_wf, h0, apply_ite State.mem, apply_ite MemSys.cells, apply_ite Memory.wf, ite_self, implies_true, ih]; done))
    | (unfold State.sendResults; (repeat' (first | with_reducible exact h0 | split)) <;> (simp +contextual (maxDischargeDepth := 60) only [State.post_cellsOk, State.sendMsg_cellsOk, MemSys.heal_cells, memNil_wf, memPut_wf, memFilter_wf, foldl_memPut_wf, h0, apply_ite State.mem, apply_ite MemSys.cells, apply_ite Memory.wf, ite_self, implies_true, ih]; done))

@[simp] theorem State.sendResult_cellsOk (s : State) (r : Result) (stream : Bytes) (h0 : Memory.wf s.mem.cells = true) :
    Memory.wf (State.sendResult s r stream).mem.cells = true := by
  unfold State.sendResult
  (repeat' (first | with_reducible exact h0 | split)) <;> simp (maxDischargeDepth := 60) only [State.post_cellsOk, State.sendMsg_cellsOk, State.sendResults_cellsOk, MemSys.heal_cells, memNil_wf, memPut_wf, memFilter_wf, foldl_memPut_wf, h0, apply_ite State.mem, apply_ite MemSys.cells, apply_ite Memory.wf, ite_self, implies_true]

@[simp] theorem State.keepRead_cellsOk (s : State) (e : Env) (id : Nat) (q : Nat × Nat) (h0 : Memory.wf s.mem.cells = true) :
    Memory.wf (State.keepRead s e id q).mem.cells = true := by
  exact h0

@[simp] theorem State.deliver_cellsOk (s : State) (r : Result) (h0 : Memory.wf s.mem.cells = true) :
    Memory.wf (State.deliver s r).mem.cells = true := by
  unfold State.deliver
  (repeat' (first | with_reducible exact h0 | split)) <;> simp +contextual (maxDischargeDepth := 60) only [State.request_cellsOk, State.readRuns_cellsOk, State.failDelivery_cellsOk, State.sendResult_cellsOk, State.keepRead_cellsOk, foldl_cellsOk, MemSys.heal_cells, memNil_wf, memPut_wf, memFilter_wf, foldl_memPut_wf, h0, apply_ite State.mem, apply_ite MemSys.cells, apply_ite Memory.wf, ite_self, implies_true]

@[simp] theorem State.holdResult_cellsOk (s : State) (node ctx client job sess ref status : Nat) (h0 : Memory.wf s.mem.cells = true) :
    Memory.wf (State.holdResult s node ctx client job sess ref status).mem.cells = true := by
  simp (maxDischargeDepth := 60) only [State.holdResult, State.deliver_cellsOk, MemSys.heal_cells, memNil_wf, memPut_wf, memFilter_wf, foldl_memPut_wf, h0, apply_ite State.mem, apply_ite MemSys.cells, apply_ite Memory.wf, ite_self, implies_true]

@[simp] theorem State.endJob_cellsOk (s : State) (c status : Nat) (h0 : Memory.wf s.mem.cells = true) :
    Memory.wf (State.endJob s c status).mem.cells = true := by
  unfold State.endJob
  (repeat' (first | with_reducible exact h0 | split)) <;> simp (maxDischargeDepth := 60) only [State.bump_cellsOk, State.request_cellsOk, State.setJob_cellsOk, State.progress_cellsOk, State.enter_cellsOk, State.dropSlot_cellsOk, State.endCopies_cellsOk, State.freeCtx_cellsOk, State.holdResult_cellsOk, MemSys.heal_cells, memNil_wf, memPut_wf, memFilter_wf, foldl_memPut_wf, h0, apply_ite State.mem, apply_ite MemSys.cells, apply_ite Memory.wf, ite_self, implies_true]

@[simp] theorem State.finishJob_cellsOk (s : State) (c : Nat) (h0 : Memory.wf s.mem.cells = true) :
    Memory.wf (State.finishJob s c).mem.cells = true := by
  unfold State.finishJob
  (repeat' (first | with_reducible exact h0 | split)) <;> simp (maxDischargeDepth := 60) only [State.endJob_cellsOk, MemSys.heal_cells, memNil_wf, memPut_wf, memFilter_wf, foldl_memPut_wf, h0, apply_ite State.mem, apply_ite MemSys.cells, apply_ite Memory.wf, ite_self, implies_true]

/-! ### Stream -/

@[simp] theorem State.bellIgnored_cellsOk (s : State) (h0 : Memory.wf s.mem.cells = true) :
    Memory.wf (State.bellIgnored s).mem.cells = true := by
  simp (maxDischargeDepth := 60) only [State.bellIgnored, State.bump_cellsOk, MemSys.heal_cells, memNil_wf, memPut_wf, memFilter_wf, foldl_memPut_wf, h0, apply_ite State.mem, apply_ite MemSys.cells, apply_ite Memory.wf, ite_self, implies_true]

@[simp] theorem State.bellFetch_cellsOk (s : State) (c : Nat) (h0 : Memory.wf s.mem.cells = true) :
    Memory.wf (State.bellFetch s c).mem.cells = true := by
  unfold State.bellFetch
  (repeat' (first | with_reducible exact h0 | split)) <;> simp (maxDischargeDepth := 60) only [State.bump_cellsOk, State.drew_cellsOk, MemSys.heal_cells, memNil_wf, memPut_wf, memFilter_wf, foldl_memPut_wf, h0, apply_ite State.mem, apply_ite MemSys.cells, apply_ite Memory.wf, ite_self, implies_true]

@[simp] theorem State.bellTail_cellsOk (s : State) (c value : Nat) (h0 : Memory.wf s.mem.cells = true) :
    Memory.wf (State.bellTail s c value).mem.cells = true := by
  unfold State.bellTail
  (repeat' (first | with_reducible exact h0 | split)) <;> simp (maxDischargeDepth := 60) only [State.setQueue_cellsOk, State.bellIgnored_cellsOk, MemSys.heal_cells, memNil_wf, memPut_wf, memFilter_wf, foldl_memPut_wf, h0, apply_ite State.mem, apply_ite MemSys.cells, apply_ite Memory.wf, ite_self, implies_true]

@[simp] theorem State.bellResume_cellsOk (s : State) (c value : Nat) (h0 : Memory.wf s.mem.cells = true) :
    Memory.wf (State.bellResume s c value).mem.cells = true := by
  unfold State.bellResume
  (repeat' (first | with_reducible exact h0 | split)) <;> simp (maxDischargeDepth := 60) only [State.setCtx_cellsOk, MemSys.heal_cells, memNil_wf, memPut_wf, memFilter_wf, foldl_memPut_wf, h0, apply_ite State.mem, apply_ite MemSys.cells, apply_ite Memory.wf, ite_self, implies_true]

@[simp] theorem State.postAll_cellsOk (s : State) (h0 : Memory.wf s.mem.cells = true) :
    Memory.wf (State.postAll s).mem.cells = true := by
  simp (maxDischargeDepth := 60) only [State.postAll, MemSys.heal_cells, memNil_wf, memPut_wf, memFilter_wf, foldl_memPut_wf, h0, apply_ite State.mem, apply_ite MemSys.cells, apply_ite Memory.wf, ite_self, implies_true]

@[simp] theorem State.cellTake_cellsOk (s : State) (cell : Nat) (v0 : Nat) (h0 : Memory.wf s.mem.cells = true) :
    Memory.wf (State.cellTake s cell v0).mem.cells = true := by
  induction v0 generalizing s cell  with
  | zero =>
    first
    | exact h0
    | (simp (maxDischargeDepth := 60) only [State.cellTake, State.bump_cellsOk, State.setCell_cellsOk, MemSys.heal_cells, memNil_wf, memPut_wf, memFilter_wf, foldl_memPut_wf, h0, apply_ite State.mem, apply_ite MemSys.cells, apply_ite Memory.wf, ite_self, implies_true]; done)
  | succ n ih =>
    first
    | (simp (maxDischargeDepth := 60) only [State.cellTake, State.bump_cellsOk, State.setCell_cellsOk, MemSys.heal_cells, memNil_wf, memPut_wf, memFilter_wf, foldl_memPut_wf, h0, apply_ite State.mem, apply_ite MemSys.cells, apply_ite Memory.wf, ite_self, implies_true, ih]; done)
    | (unfold State.cellTake; (repeat' (first | with_reducible exact h0 | split)) <;> (simp (maxDischargeDepth := 60) only [State.bump_cellsOk, State.setCell_cellsOk, MemSys.heal_cells, memNil_wf, memPut_wf, memFilter_wf, foldl_memPut_wf, h0, apply_ite State.mem, apply_ite MemSys.cells, apply_ite Memory.wf, ite_self, implies_true, ih]; done))
    | (unfold State.cellTake; (repeat' (first | with_reducible exact h0 | split)) <;> (try simp (maxDischargeDepth := 60) only [State.bump_cellsOk, State.setCell_cellsOk, MemSys.heal_cells, memNil_wf, memPut_wf, memFilter_wf, foldl_memPut_wf, h0, apply_ite State.mem, apply_ite MemSys.cells, apply_ite Memory.wf, ite_self, implies_true, ih]) <;> (repeat' (first | with_reducible exact h0 | split)) <;> (simp (maxDischargeDepth := 60) only [State.bump_cellsOk, State.setCell_cellsOk, MemSys.heal_cells, memNil_wf, memPut_wf, memFilter_wf, foldl_memPut_wf, h0, apply_ite State.mem, apply_ite MemSys.cells, apply_ite Memory.wf, ite_self, implies_true, ih]; done))
    | (unfold State.cellTake; (repeat' (first | with_reducible exact h0 | split)) <;> (simp +contextual (maxDischargeDepth := 60) only [State.bump_cellsOk, State.setCell_cellsOk, MemSys.heal_cells, memNil_wf, memPut_wf, memFilter_wf, foldl_memPut_wf, h0, apply_ite State.mem, apply_ite MemSys.cells, apply_ite Memory.wf, ite_self, implies_true, ih]; done))

@[simp] theorem State.serveTasks_cellsOk (s : State) (h0 : Memory.wf s.mem.cells = true) :
    Memory.wf (State.serveTasks s).mem.cells = true := by
  simp +contextual (maxDischargeDepth := 60) only [State.serveTasks, State.postAll_cellsOk, State.cellTake_cellsOk, foldl_cellsOk, MemSys.heal_cells, memNil_wf, memPut_wf, memFilter_wf, foldl_memPut_wf, h0, apply_ite State.mem, apply_ite MemSys.cells, apply_ite Memory.wf, ite_self, implies_true]

@[simp] theorem State.setGrid_cellsOk (s : State) (c idx : Nat) (l : List (Nat × Nat × Nat × Nat)) (h0 : Memory.wf s.mem.cells = true) :
    Memory.wf (State.setGrid s c idx l).mem.cells = true := by
  exact h0

@[simp] theorem State.deal_cellsOk (s : State) (c idx prio : Nat) (l : List (Nat × Nat × Nat × Nat)) (done : Nat → Nat → Option Progress) (h0 : Memory.wf s.mem.cells = true) :
    Memory.wf (State.deal s c idx prio l done).mem.cells = true := by
  simp (maxDischargeDepth := 60) only [State.deal, State.bump_cellsOk, State.serveTasks_cellsOk, MemSys.heal_cells, memNil_wf, memPut_wf, memFilter_wf, foldl_memPut_wf, h0, apply_ite State.mem, apply_ite MemSys.cells, apply_ite Memory.wf, ite_self, implies_true]

@[simp] theorem State.retire_cellsOk (s : State) (c : Nat) (v0 : Nat) (h0 : Memory.wf s.mem.cells = true) :
    Memory.wf (State.retire s c v0).mem.cells = true := by
  induction v0 generalizing s c  with
  | zero =>
    first
    | exact h0
    | (simp (maxDischargeDepth := 60) only [State.retire, State.setQueue_cellsOk, MemSys.heal_cells, memNil_wf, memPut_wf, memFilter_wf, foldl_memPut_wf, h0, apply_ite State.mem, apply_ite MemSys.cells, apply_ite Memory.wf, ite_self, implies_true]; done)
  | succ n ih =>
    first
    | (simp (maxDischargeDepth := 60) only [State.retire, State.setQueue_cellsOk, MemSys.heal_cells, memNil_wf, memPut_wf, memFilter_wf, foldl_memPut_wf, h0, apply_ite State.mem, apply_ite MemSys.cells, apply_ite Memory.wf, ite_self, implies_true, ih]; done)
    | (unfold State.retire; (repeat' (first | with_reducible exact h0 | split)) <;> (simp (maxDischargeDepth := 60) only [State.setQueue_cellsOk, MemSys.heal_cells, memNil_wf, memPut_wf, memFilter_wf, foldl_memPut_wf, h0, apply_ite State.mem, apply_ite MemSys.cells, apply_ite Memory.wf, ite_self, implies_true, ih]; done))
    | (unfold State.retire; (repeat' (first | with_reducible exact h0 | split)) <;> (try simp (maxDischargeDepth := 60) only [State.setQueue_cellsOk, MemSys.heal_cells, memNil_wf, memPut_wf, memFilter_wf, foldl_memPut_wf, h0, apply_ite State.mem, apply_ite MemSys.cells, apply_ite Memory.wf, ite_self, implies_true, ih]) <;> (repeat' (first | with_reducible exact h0 | split)) <;> (simp (maxDischargeDepth := 60) only [State.setQueue_cellsOk, MemSys.heal_cells, memNil_wf, memPut_wf, memFilter_wf, foldl_memPut_wf, h0, apply_ite State.mem, apply_ite MemSys.cells, apply_ite Memory.wf, ite_self, implies_true, ih]; done))
    | (unfold State.retire; (repeat' (first | with_reducible exact h0 | split)) <;> (simp +contextual (maxDischargeDepth := 60) only [State.setQueue_cellsOk, MemSys.heal_cells, memNil_wf, memPut_wf, memFilter_wf, foldl_memPut_wf, h0, apply_ite State.mem, apply_ite MemSys.cells, apply_ite Memory.wf, ite_self, implies_true, ih]; done))

@[simp] theorem State.haltQueue_cellsOk (s : State) (c : Nat) (record : Bytes) (h0 : Memory.wf s.mem.cells = true) :
    Memory.wf (State.haltQueue s c record).mem.cells = true := by
  unfold State.haltQueue
  (repeat' (first | with_reducible exact h0 | split)) <;> simp (maxDischargeDepth := 60) only [State.setCtx_cellsOk, State.progress_cellsOk, MemSys.heal_cells, memNil_wf, memPut_wf, memFilter_wf, foldl_memPut_wf, h0, apply_ite State.mem, apply_ite MemSys.cells, apply_ite Memory.wf, ite_self, implies_true]

@[simp] theorem State.leaveStream_cellsOk (s : State) (f : InFlight) (h0 : Memory.wf s.mem.cells = true) :
    Memory.wf (State.leaveStream s f).mem.cells = true := by
  simp (maxDischargeDepth := 60) only [State.leaveStream, MemSys.heal_cells, memNil_wf, memPut_wf, memFilter_wf, foldl_memPut_wf, h0, apply_ite State.mem, apply_ite MemSys.cells, apply_ite Memory.wf, ite_self, implies_true]

@[simp] theorem State.countWork_cellsOk (s : State) (f : InFlight) (h0 : Memory.wf s.mem.cells = true) :
    Memory.wf (State.countWork s f).mem.cells = true := by
  simp (maxDischargeDepth := 60) only [State.countWork, State.bumps_cellsOk, State.drew_cellsOk, MemSys.heal_cells, memNil_wf, memPut_wf, memFilter_wf, foldl_memPut_wf, h0, apply_ite State.mem, apply_ite MemSys.cells, apply_ite Memory.wf, ite_self, implies_true]

@[simp] theorem State.unspoil_cellsOk (s t : State) (f : InFlight) (h0 : Memory.wf t.mem.cells = true) :
    Memory.wf (State.unspoil s t f).mem.cells = true := by
  unfold State.unspoil
  split <;> exact h0

@[simp] theorem State.putResult_cellsOk (s : State) (f : InFlight) (w : Nat × Bytes) (h0 : Memory.wf s.mem.cells = true) :
    Memory.wf (State.putResult s f w).mem.cells = true := by
  simp (maxDischargeDepth := 60) only [State.putResult, State.writeGlobal_cellsOk, State.unspoil_cellsOk, MemSys.heal_cells, memNil_wf, memPut_wf, memFilter_wf, foldl_memPut_wf, h0, apply_ite State.mem, apply_ite MemSys.cells, apply_ite Memory.wf, ite_self, implies_true]

@[simp] theorem State.settle_cellsOk (s : State) (x : Ctx) (f : InFlight) (h0 : Memory.wf s.mem.cells = true) :
    Memory.wf (State.settle s x f).mem.cells = true := by
  simp +contextual (maxDischargeDepth := 60) only [State.settle, State.bump_cellsOk, State.writeBytes_cellsOk, State.log_cellsOk, State.setJob_cellsOk, State.retire_cellsOk, State.leaveStream_cellsOk, State.countWork_cellsOk, State.putResult_cellsOk, foldl_cellsOk, MemSys.heal_cells, memNil_wf, memPut_wf, memFilter_wf, foldl_memPut_wf, h0, apply_ite State.mem, apply_ite MemSys.cells, apply_ite Memory.wf, ite_self, implies_true]

@[simp] theorem State.completeNow_cellsOk (s : State) (x : Ctx) (f : InFlight) (h0 : Memory.wf s.mem.cells = true) :
    Memory.wf (State.completeNow s x f).mem.cells = true := by
  simp (maxDischargeDepth := 60) only [State.completeNow, State.finishJob_cellsOk, State.serveTasks_cellsOk, State.haltQueue_cellsOk, State.settle_cellsOk, MemSys.heal_cells, memNil_wf, memPut_wf, memFilter_wf, foldl_memPut_wf, h0, apply_ite State.mem, apply_ite MemSys.cells, apply_ite Memory.wf, ite_self, implies_true]

@[simp] theorem State.complete_cellsOk (s : State) (c idx : Nat) (h0 : Memory.wf s.mem.cells = true) :
    Memory.wf (State.complete s c idx).mem.cells = true := by
  unfold State.complete
  (repeat' (first | with_reducible exact h0 | split)) <;> simp (maxDischargeDepth := 60) only [State.completeNow_cellsOk, MemSys.heal_cells, memNil_wf, memPut_wf, memFilter_wf, foldl_memPut_wf, h0, apply_ite State.mem, apply_ite MemSys.cells, apply_ite Memory.wf, ite_self, implies_true]

@[simp] theorem State.addFlight_cellsOk (s : State) (f : InFlight) (h0 : Memory.wf s.mem.cells = true) :
    Memory.wf (State.addFlight s f).mem.cells = true := by
  exact h0

@[simp] theorem State.reject_cellsOk (s : State) (f : InFlight) (code : Nat) (h0 : Memory.wf s.mem.cells = true) :
    Memory.wf (State.reject s f code).mem.cells = true := by
  simp (maxDischargeDepth := 60) only [State.reject, State.addFlight_cellsOk, MemSys.heal_cells, memNil_wf, memPut_wf, memFilter_wf, foldl_memPut_wf, h0, apply_ite State.mem, apply_ite MemSys.cells, apply_ite Memory.wf, ite_self, implies_true]

@[simp] theorem State.heldWriteBack_cellsOk (s : State) (e : Env) (h0 : Memory.wf s.mem.cells = true) :
    Memory.wf (State.heldWriteBack s e).mem.cells = true := by
  simp +contextual (maxDischargeDepth := 60) only [State.heldWriteBack, State.writeBack_cellsOk, foldl_cellsOk, MemSys.heal_cells, memNil_wf, memPut_wf, memFilter_wf, foldl_memPut_wf, h0, apply_ite State.mem, apply_ite MemSys.cells, apply_ite Memory.wf, ite_self, implies_true]

@[simp] theorem State.sawPoison_cellsOk (s : State) (us : List Nat) (h0 : Memory.wf s.mem.cells = true) :
    Memory.wf (State.sawPoison s us).mem.cells = true := by
  simp +contextual (maxDischargeDepth := 60) only [State.sawPoison, State.bump_cellsOk, State.raise_cellsOk, State.badReads_cellsOk, foldl_cellsOk, MemSys.heal_cells, memNil_wf, memPut_wf, memFilter_wf, foldl_memPut_wf, h0, apply_ite State.mem, apply_ite MemSys.cells, apply_ite Memory.wf, ite_self, implies_true]

@[simp] theorem State.scramble_cellsOk (s : State) (f : InFlight) (h0 : Memory.wf s.mem.cells = true) :
    Memory.wf (State.scramble s f).mem.cells = true := by
  simp +contextual (maxDischargeDepth := 60) only [State.scramble, State.drew_cellsOk, State.writeBytes_cellsOk, foldl_cellsOk, MemSys.heal_cells, memNil_wf, memPut_wf, memFilter_wf, foldl_memPut_wf, h0, apply_ite State.mem, apply_ite MemSys.cells, apply_ite Memory.wf, ite_self, implies_true]

@[simp] theorem State.holdSheets_cellsOk (s : State) (c : Nat) (l : Option (List SheetSet)) (h0 : Memory.wf s.mem.cells = true) :
    Memory.wf (State.holdSheets s c l).mem.cells = true := by
  unfold State.holdSheets
  (repeat' (first | with_reducible exact h0 | split)) <;> simp (maxDischargeDepth := 60) only [MemSys.heal_cells, memNil_wf, memPut_wf, memFilter_wf, foldl_memPut_wf, h0, apply_ite State.mem, apply_ite MemSys.cells, apply_ite Memory.wf, ite_self, implies_true]

@[simp] theorem State.finishRun_cellsOk (s : State) (o : Op) (e : Env) (f : InFlight) (h0 : Memory.wf s.mem.cells = true) :
    Memory.wf (State.finishRun s o e f).mem.cells = true := by
  have k : ∀ (t : State) (l : List Nat), Memory.wf t.mem.cells = true → Memory.wf (if l == [] then t else t.sawPoison l.eraseDups).mem.cells = true := by
    intro t l ht
    split
    · exact ht
    · exact State.sawPoison_cellsOk _ _ ht
  have q : ∀ (p : Prop) [Decidable p] (x y : State), Memory.wf x.mem.cells = true → Memory.wf y.mem.cells = true →
      Memory.wf (if p then x else y).mem.cells = true := by
    intro p _ x y hx hy
    split <;> assumption
  unfold State.finishRun
  dsimp only
  refine State.deal_cellsOk _ _ _ _ _ _ (State.setGrid_cellsOk _ _ _ _ (State.setFlight_cellsOk _ _ _ _ (State.holdSheets_cellsOk _ _ _
    (q _ _ _ (State.drew_cellsOk _ ?_) (State.scramble_cellsOk _ _ ?_)))))
  all_goals refine State.unspoil_cellsOk _ _ _ (foldl_cellsOk _ (fun s a hs => State.writeBytes_cellsOk _ _ _ hs) _ _ ?_)
  all_goals exact State.bumps_cellsOk _ _ (State.readRuns_cellsOk _ _ (State.bump_cellsOk _ _ _ _ (k _ _ h0)))

@[simp] theorem State.dropColl_cellsOk (s : State) (c idx : Nat) (h0 : Memory.wf s.mem.cells = true) :
    Memory.wf (State.dropColl s c idx).mem.cells = true := by
  exact h0

@[simp] theorem State.failInstr_cellsOk (s : State) (c idx code : Nat) (h0 : Memory.wf s.mem.cells = true) :
    Memory.wf (State.failInstr s c idx code).mem.cells = true := by
  unfold State.failInstr
  (repeat' (first | with_reducible exact h0 | split)) <;> simp (maxDischargeDepth := 60) only [State.dropReqs_cellsOk, State.setFlight_cellsOk, State.scramble_cellsOk, State.dropColl_cellsOk, MemSys.heal_cells, memNil_wf, memPut_wf, memFilter_wf, foldl_memPut_wf, h0, apply_ite State.mem, apply_ite MemSys.cells, apply_ite Memory.wf, ite_self, implies_true]

@[simp] theorem State.countPath_cellsOk (s : State) (deadline : Bool) (path : Nat) (h0 : Memory.wf s.mem.cells = true) :
    Memory.wf (State.countPath s deadline path).mem.cells = true := by
  unfold State.countPath
  (repeat' (first | with_reducible exact h0 | split)) <;> simp (maxDischargeDepth := 60) only [State.bump_cellsOk, MemSys.heal_cells, memNil_wf, memPut_wf, memFilter_wf, foldl_memPut_wf, h0, apply_ite State.mem, apply_ite MemSys.cells, apply_ite Memory.wf, ite_self, implies_true]

@[simp] theorem State.startPaths_cellsOk (s : State) (e : Env) (f : InFlight) (lost : List Nat) (h0 : Memory.wf s.mem.cells = true) :
    Memory.wf (State.startPaths s e f lost).mem.cells = true := by
  unfold State.startPaths
  (repeat' (first | with_reducible exact h0 | split)) <;> simp +contextual (maxDischargeDepth := 60) only [State.post_cellsOk, State.countPath_cellsOk, foldl_cellsOk, MemSys.heal_cells, memNil_wf, memPut_wf, memFilter_wf, foldl_memPut_wf, h0, apply_ite State.mem, apply_ite MemSys.cells, apply_ite Memory.wf, ite_self, implies_true]

@[simp] theorem State.sendHistory_cellsOk (s : State) (e : Env) (f : InFlight) (blocks : List Nat) (h0 : Memory.wf s.mem.cells = true) :
    Memory.wf (State.sendHistory s e f blocks).mem.cells = true := by
  unfold State.sendHistory
  (repeat' (first | with_reducible exact h0 | split)) <;> simp +contextual (maxDischargeDepth := 60) only [State.request_cellsOk, foldl_cellsOk, MemSys.heal_cells, memNil_wf, memPut_wf, memFilter_wf, foldl_memPut_wf, h0, apply_ite State.mem, apply_ite MemSys.cells, apply_ite Memory.wf, ite_self, implies_true]

@[simp] theorem State.bring_cellsOk (s : State) (o : Op) (e : Env) (f : InFlight) (go : State → InFlight → State) (h0 : Memory.wf s.mem.cells = true)
    (h : ∀ s f, Memory.wf s.mem.cells = true → Memory.wf (go s f).mem.cells = true) :
    Memory.wf (s.bring o e f go).mem.cells = true := by
  unfold State.bring
  split
  · split
    · exact h _ _ h0
    · exact h0
  · dsimp only
    split
    · exact State.failInstr_cellsOk _ _ _ _ h0
    · exact foldl_cellsOk _ (fun s a hs => State.request_cellsOk _ _ _ _ _ _ _ _ _ _ _ hs) _ _ h0

@[simp] theorem State.launchTo_cellsOk (s : State) (o : Op) (e : Env) (f : InFlight) (go : State → InFlight → State) (h0 : Memory.wf s.mem.cells = true)
    (h : ∀ s f, Memory.wf s.mem.cells = true → Memory.wf (go s f).mem.cells = true) :
    Memory.wf (s.launchTo o e f go).mem.cells = true := by
  unfold State.launchTo
  dsimp only
  split
  · exact h _ _ (State.addFlight_cellsOk _ _ h0)
  · split
    · exact State.failInstr_cellsOk _ _ _ _ (State.addFlight_cellsOk _ _ h0)
    · split
      · exact State.failInstr_cellsOk _ _ _ _ (State.addFlight_cellsOk _ _ (State.startPaths_cellsOk _ _ _ _ h0))
      · split
        · exact h _ _ (State.addFlight_cellsOk _ _ (State.startPaths_cellsOk _ _ _ _ h0))
        · exact State.bring_cellsOk _ _ _ _ _
            (State.sendHistory_cellsOk _ _ _ _ (State.addFlight_cellsOk _ _ (State.startPaths_cellsOk _ _ _ _ h0))) h

@[simp] theorem State.launch_cellsOk (s : State) (o : Op) (e : Env) (f : InFlight) (h0 : Memory.wf s.mem.cells = true) :
    Memory.wf (State.launch s o e f).mem.cells = true := by
  simp +contextual (maxDischargeDepth := 60) only [State.launch, State.finishRun_cellsOk, State.launchTo_cellsOk, MemSys.heal_cells, memNil_wf, memPut_wf, memFilter_wf, foldl_memPut_wf, h0, apply_ite State.mem, apply_ite MemSys.cells, apply_ite Memory.wf, ite_self, implies_true]

@[simp] theorem State.stall_cellsOk (s : State) (c idx : Nat) (h0 : Memory.wf s.mem.cells = true) :
    Memory.wf (State.stall s c idx).mem.cells = true := by
  simp (maxDischargeDepth := 60) only [State.stall, State.bump_cellsOk, MemSys.heal_cells, memNil_wf, memPut_wf, memFilter_wf, foldl_memPut_wf, h0, apply_ite State.mem, apply_ite MemSys.cells, apply_ite Memory.wf, ite_self, implies_true]

@[simp] theorem State.slotRead_cellsOk (s : State) (a : Nat) (o : Op) (e : Env) (all : Bool) (h0 : Memory.wf s.mem.cells = true) :
    Memory.wf (State.slotRead s a o e all).mem.cells = true := by
  simp (maxDischargeDepth := 60) only [State.slotRead, State.readRuns_cellsOk, MemSys.heal_cells, memNil_wf, memPut_wf, memFilter_wf, foldl_memPut_wf, h0, apply_ite State.mem, apply_ite MemSys.cells, apply_ite Memory.wf, ite_self, implies_true]

@[simp] theorem State.startMacro_cellsOk (s : State) (m : Macro) (c idx : Nat) (h0 : Memory.wf s.mem.cells = true)
    (h : ∀ go, m.start = some go → ∀ s e f, Memory.wf s.mem.cells = true → Memory.wf (go s e f).mem.cells = true) :
    Memory.wf (s.startMacro m c idx).mem.cells = true := by
  unfold State.startMacro
  split
  · exact h0
  · cases hm : m.start with
    | none => simp (maxDischargeDepth := 60) only [apply_ite State.mem, apply_ite MemSys.cells, apply_ite Memory.wf, ite_self, State.reject_cellsOk, State.sawPoison_cellsOk, State.heldWriteBack_cellsOk,
        State.stall_cellsOk, State.slotRead_cellsOk, State.bump_cellsOk, State.launch_cellsOk, h0]
    | some go => simp (maxDischargeDepth := 60) only [apply_ite State.mem, apply_ite MemSys.cells, apply_ite Memory.wf, ite_self, State.reject_cellsOk, State.sawPoison_cellsOk, State.heldWriteBack_cellsOk,
        State.stall_cellsOk, State.slotRead_cellsOk, State.bump_cellsOk, h go hm, h0]

@[simp] theorem startWait_cellsOk (s : State) (e : Env) (f : InFlight) (h0 : Memory.wf s.mem.cells = true) :
    Memory.wf (startWait s e f).mem.cells = true := by
  simp (maxDischargeDepth := 60) only [startWait, State.drew_cellsOk, State.addFlight_cellsOk, State.sawPoison_cellsOk, MemSys.heal_cells, memNil_wf, memPut_wf, memFilter_wf, foldl_memPut_wf, h0, apply_ite State.mem, apply_ite MemSys.cells, apply_ite Memory.wf, ite_self, implies_true]

@[simp] theorem State.takeFailed_cellsOk (s : State) (c : Nat) (h0 : Memory.wf s.mem.cells = true) :
    Memory.wf (State.takeFailed s c).2.mem.cells = true := by
  exact h0

@[simp] theorem State.semApply_cellsOk (s : State) (a op operand : Nat) (h0 : Memory.wf s.mem.cells = true) :
    Memory.wf (State.semApply s a op operand).mem.cells = true := by
  simp (maxDischargeDepth := 60) only [State.semApply, State.writeBytes_cellsOk, MemSys.heal_cells, memNil_wf, memPut_wf, memFilter_wf, foldl_memPut_wf, h0, apply_ite State.mem, apply_ite MemSys.cells, apply_ite Memory.wf, ite_self, implies_true]

@[simp] theorem State.signalCopy_cellsOk (s : State) (e : Env) (f : InFlight) (h0 : Memory.wf s.mem.cells = true) :
    Memory.wf (State.signalCopy s e f).mem.cells = true := by
  simp (maxDischargeDepth := 60) only [State.signalCopy, State.copyWrite_cellsOk, State.addFlight_cellsOk, MemSys.heal_cells, memNil_wf, memPut_wf, memFilter_wf, foldl_memPut_wf, h0, apply_ite State.mem, apply_ite MemSys.cells, apply_ite Memory.wf, ite_self, implies_true]

@[simp] theorem startSignal_cellsOk (s : State) (e : Env) (f : InFlight) (h0 : Memory.wf s.mem.cells = true) :
    Memory.wf (startSignal s e f).mem.cells = true := by
  simp (maxDischargeDepth := 60) only [startSignal, State.request_cellsOk, State.addFlight_cellsOk, State.sawPoison_cellsOk, State.scramble_cellsOk, State.takeFailed_cellsOk, State.semApply_cellsOk, State.signalCopy_cellsOk, MemSys.heal_cells, memNil_wf, memPut_wf, memFilter_wf, foldl_memPut_wf, h0, apply_ite State.mem, apply_ite MemSys.cells, apply_ite Memory.wf, ite_self, implies_true]

@[simp] theorem startFence_cellsOk (s : State) (e : Env) (f : InFlight) (h0 : Memory.wf s.mem.cells = true) :
    Memory.wf (startFence s e f).mem.cells = true := by
  simp (maxDischargeDepth := 60) only [startFence, State.addFlight_cellsOk, State.takeFailed_cellsOk, MemSys.heal_cells, memNil_wf, memPut_wf, memFilter_wf, foldl_memPut_wf, h0, apply_ite State.mem, apply_ite MemSys.cells, apply_ite Memory.wf, ite_self, implies_true]

@[simp] theorem startNop_cellsOk (s : State) (_a0 : Env) (f : InFlight) (h0 : Memory.wf s.mem.cells = true) :
    Memory.wf (startNop s _a0 f).mem.cells = true := by
  simp (maxDischargeDepth := 60) only [startNop, State.addFlight_cellsOk, MemSys.heal_cells, memNil_wf, memPut_wf, memFilter_wf, foldl_memPut_wf, h0, apply_ite State.mem, apply_ite MemSys.cells, apply_ite Memory.wf, ite_self, implies_true]

@[simp] theorem State.endWait_cellsOk (s : State) (f : InFlight) (code : Nat) (h0 : Memory.wf s.mem.cells = true) :
    Memory.wf (State.endWait s f code).mem.cells = true := by
  simp (maxDischargeDepth := 60) only [State.endWait, State.drew_cellsOk, State.setFlight_cellsOk, State.complete_cellsOk, State.sawPoison_cellsOk, MemSys.heal_cells, memNil_wf, memPut_wf, memFilter_wf, foldl_memPut_wf, h0, apply_ite State.mem, apply_ite MemSys.cells, apply_ite Memory.wf, ite_self, implies_true]

/-! ### Ring -/

@[simp] theorem State.setColl_cellsOk (s : State) (c idx : Nat) (f : Coll → Coll) (h0 : Memory.wf s.mem.cells = true) :
    Memory.wf (State.setColl s c idx f).mem.cells = true := by
  exact h0

@[simp] theorem State.failColl_cellsOk (s : State) (c idx code : Nat) (h0 : Memory.wf s.mem.cells = true) :
    Memory.wf (State.failColl s c idx code).mem.cells = true := by
  simp (maxDischargeDepth := 60) only [State.failColl, State.setFlight_cellsOk, State.dropColl_cellsOk, State.failInstr_cellsOk, MemSys.heal_cells, memNil_wf, memPut_wf, memFilter_wf, foldl_memPut_wf, h0, apply_ite State.mem, apply_ite MemSys.cells, apply_ite Memory.wf, ite_self, implies_true]

@[simp] theorem State.endColl_cellsOk (s : State) (x : Coll) (e : Env) (f : InFlight) (writes : List (Nat × Bytes)) (h0 : Memory.wf s.mem.cells = true) :
    Memory.wf (State.endColl s x e f writes).mem.cells = true := by
  simp +contextual (maxDischargeDepth := 60) only [State.endColl, State.bump_cellsOk, State.post_cellsOk, State.writeGlobal_cellsOk, State.setFlight_cellsOk, State.dropColl_cellsOk, foldl_cellsOk, MemSys.heal_cells, memNil_wf, memPut_wf, memFilter_wf, foldl_memPut_wf, h0, apply_ite State.mem, apply_ite MemSys.cells, apply_ite Memory.wf, ite_self, implies_true]

@[simp] theorem State.narrowElems_cellsOk (s : State) (x : Coll) (e : Env) (b : Bulk) (es : List Nat) (h0 : Memory.wf s.mem.cells = true) :
    Memory.wf (State.narrowElems s x e b es).1.mem.cells = true := by
  simp (maxDischargeDepth := 60) only [State.narrowElems, State.bump_cellsOk, State.setColl_cellsOk, foldl_cellsOk, MemSys.heal_cells, memNil_wf, memPut_wf, memFilter_wf, foldl_memPut_wf, h0, apply_ite State.mem, apply_ite MemSys.cells, apply_ite Memory.wf, ite_self, implies_true]

@[simp] theorem State.sendBulk_cellsOk (s : State) (f : InFlight) (x : Coll) (node kind stage : Nat) (neg : Bool) (number : Nat) (last : Bool) (data : Bytes) (h0 : Memory.wf s.mem.cells = true) :
    Memory.wf (State.sendBulk s f x node kind stage neg number last data).mem.cells = true := by
  simp (maxDischargeDepth := 60) only [State.sendBulk, State.sendPacket_cellsOk, MemSys.heal_cells, memNil_wf, memPut_wf, memFilter_wf, foldl_memPut_wf, h0, apply_ite State.mem, apply_ite MemSys.cells, apply_ite Memory.wf, ite_self, implies_true]

@[simp] theorem State.pump_cellsOk (s : State) (f : InFlight) (c idx : Nat) (h0 : Memory.wf s.mem.cells = true) :
    Memory.wf (State.pump s f c idx).mem.cells = true := by
  unfold State.pump
  (repeat' (first | with_reducible exact h0 | split)) <;> simp +contextual (maxDischargeDepth := 60) only [State.bump_cellsOk, State.setColl_cellsOk, State.sendBulk_cellsOk, foldl_cellsOk, MemSys.heal_cells, memNil_wf, memPut_wf, memFilter_wf, foldl_memPut_wf, h0, apply_ite State.mem, apply_ite MemSys.cells, apply_ite Memory.wf, ite_self, implies_true]

@[simp] theorem State.sendHop_cellsOk (s : State) (c idx : Nat) (e : Env) (b : Bulk) (h : Hop) (neg : Bool) (h0 : Memory.wf s.mem.cells = true) :
    Memory.wf (State.sendHop s c idx e b h neg).mem.cells = true := by
  unfold State.sendHop
  (repeat' (first | with_reducible exact h0 | split)) <;> simp (maxDischargeDepth := 60) only [State.setColl_cellsOk, State.narrowElems_cellsOk, MemSys.heal_cells, memNil_wf, memPut_wf, memFilter_wf, foldl_memPut_wf, h0, apply_ite State.mem, apply_ite MemSys.cells, apply_ite Memory.wf, ite_self, implies_true]

@[simp] theorem State.narrowOwn_cellsOk (s : State) (c idx : Nat) (e : Env) (b : Bulk) (h0 : Memory.wf s.mem.cells = true) :
    Memory.wf (State.narrowOwn s c idx e b).mem.cells = true := by
  unfold State.narrowOwn
  (repeat' (first | with_reducible exact h0 | split)) <;> simp (maxDischargeDepth := 60) only [State.narrowElems_cellsOk, MemSys.heal_cells, memNil_wf, memPut_wf, memFilter_wf, foldl_memPut_wf, h0, apply_ite State.mem, apply_ite MemSys.cells, apply_ite Memory.wf, ite_self, implies_true]

@[simp] theorem State.ackChunk_cellsOk (s : State) (f : InFlight) (x : Coll) (k : Chunk) (h0 : Memory.wf s.mem.cells = true) :
    Memory.wf (State.ackChunk s f x k).mem.cells = true := by
  simp (maxDischargeDepth := 60) only [State.ackChunk, State.sendBulk_cellsOk, MemSys.heal_cells, memNil_wf, memPut_wf, memFilter_wf, foldl_memPut_wf, h0, apply_ite State.mem, apply_ite MemSys.cells, apply_ite Memory.wf, ite_self, implies_true]

@[simp] theorem State.openStage_cellsOk (s : State) (c idx : Nat) (e : Env) (f : InFlight) (b : Bulk) (x : Coll) (h0 : Memory.wf s.mem.cells = true) :
    Memory.wf (State.openStage s c idx e f b x).mem.cells = true := by
  unfold State.openStage
  (repeat' (first | with_reducible exact h0 | split)) <;> simp +contextual (maxDischargeDepth := 60) only [State.setColl_cellsOk, State.pump_cellsOk, State.sendHop_cellsOk, State.narrowOwn_cellsOk, State.ackChunk_cellsOk, foldl_cellsOk, MemSys.heal_cells, memNil_wf, memPut_wf, memFilter_wf, foldl_memPut_wf, h0, apply_ite State.mem, apply_ite MemSys.cells, apply_ite Memory.wf, ite_self, implies_true]

@[simp] theorem State.runColl_cellsOk (s : State) (c idx : Nat) (v0 : Nat) (h0 : Memory.wf s.mem.cells = true) :
    Memory.wf (State.runColl s c idx v0).mem.cells = true := by
  induction v0 generalizing s c idx  with
  | zero =>
    first
    | exact h0
    | (simp (maxDischargeDepth := 60) only [State.runColl, State.setColl_cellsOk, State.endColl_cellsOk, State.openStage_cellsOk, MemSys.heal_cells, memNil_wf, memPut_wf, memFilter_wf, foldl_memPut_wf, h0, apply_ite State.mem, apply_ite MemSys.cells, apply_ite Memory.wf, ite_self, implies_true]; done)
  | succ n ih =>
    first
    | (simp (maxDischargeDepth := 60) only [State.runColl, State.setColl_cellsOk, State.endColl_cellsOk, State.openStage_cellsOk, MemSys.heal_cells, memNil_wf, memPut_wf, memFilter_wf, foldl_memPut_wf, h0, apply_ite State.mem, apply_ite MemSys.cells, apply_ite Memory.wf, ite_self, implies_true, ih]; done)
    | (unfold State.runColl; (repeat' (first | with_reducible exact h0 | split)) <;> (simp (maxDischargeDepth := 60) only [State.setColl_cellsOk, State.endColl_cellsOk, State.openStage_cellsOk, MemSys.heal_cells, memNil_wf, memPut_wf, memFilter_wf, foldl_memPut_wf, h0, apply_ite State.mem, apply_ite MemSys.cells, apply_ite Memory.wf, ite_self, implies_true, ih]; done))
    | (unfold State.runColl; (repeat' (first | with_reducible exact h0 | split)) <;> (try simp (maxDischargeDepth := 60) only [State.setColl_cellsOk, State.endColl_cellsOk, State.openStage_cellsOk, MemSys.heal_cells, memNil_wf, memPut_wf, memFilter_wf, foldl_memPut_wf, h0, apply_ite State.mem, apply_ite MemSys.cells, apply_ite Memory.wf, ite_self, implies_true, ih]) <;> (repeat' (first | with_reducible exact h0 | split)) <;> (simp (maxDischargeDepth := 60) only [State.setColl_cellsOk, State.endColl_cellsOk, State.openStage_cellsOk, MemSys.heal_cells, memNil_wf, memPut_wf, memFilter_wf, foldl_memPut_wf, h0, apply_ite State.mem, apply_ite MemSys.cells, apply_ite Memory.wf, ite_self, implies_true, ih]; done))
    | (unfold State.runColl; (repeat' (first | with_reducible exact h0 | split)) <;> (simp +contextual (maxDischargeDepth := 60) only [State.setColl_cellsOk, State.endColl_cellsOk, State.openStage_cellsOk, MemSys.heal_cells, memNil_wf, memPut_wf, memFilter_wf, foldl_memPut_wf, h0, apply_ite State.mem, apply_ite MemSys.cells, apply_ite Memory.wf, ite_self, implies_true, ih]; done))

@[simp] theorem State.beginColl_cellsOk (s : State) (c idx : Nat) (h0 : Memory.wf s.mem.cells = true) :
    Memory.wf (State.beginColl s c idx).mem.cells = true := by
  unfold State.beginColl
  (repeat' (first | with_reducible exact h0 | split)) <;> simp +contextual (maxDischargeDepth := 60) only [State.writeBytes_cellsOk, State.setColl_cellsOk, State.runColl_cellsOk, foldl_cellsOk, MemSys.heal_cells, memNil_wf, memPut_wf, memFilter_wf, foldl_memPut_wf, h0, apply_ite State.mem, apply_ite MemSys.cells, apply_ite Memory.wf, ite_self, implies_true]

@[simp] theorem State.goColl_cellsOk (s : State) (e : Env) (f : InFlight) (h0 : Memory.wf s.mem.cells = true) :
    Memory.wf (State.goColl s e f).mem.cells = true := by
  simp (maxDischargeDepth := 60) only [State.goColl, State.setFlight_cellsOk, State.readRuns_cellsOk, State.sawPoison_cellsOk, State.failInstr_cellsOk, State.setColl_cellsOk, State.beginColl_cellsOk, MemSys.heal_cells, memNil_wf, memPut_wf, memFilter_wf, foldl_memPut_wf, h0, apply_ite State.mem, apply_ite MemSys.cells, apply_ite Memory.wf, ite_self, implies_true]

@[simp] theorem State.knowMark_cellsOk (s : State) (src part post : Nat) (h0 : Memory.wf s.mem.cells = true) :
    Memory.wf (State.knowMark s src part post).mem.cells = true := by
  simp (maxDischargeDepth := 60) only [State.knowMark, State.post_cellsOk, MemSys.heal_cells, memNil_wf, memPut_wf, memFilter_wf, foldl_memPut_wf, h0, apply_ite State.mem, apply_ite MemSys.cells, apply_ite Memory.wf, ite_self, implies_true]

@[simp] theorem State.badChunk_cellsOk (s : State) (f : InFlight) (x : Coll) (k : Chunk) (code : Nat) (h0 : Memory.wf s.mem.cells = true) :
    Memory.wf (State.badChunk s f x k code).mem.cells = true := by
  simp (maxDischargeDepth := 60) only [State.badChunk, State.bump_cellsOk, State.setColl_cellsOk, State.failColl_cellsOk, State.sendBulk_cellsOk, MemSys.heal_cells, memNil_wf, memPut_wf, memFilter_wf, foldl_memPut_wf, h0, apply_ite State.mem, apply_ite MemSys.cells, apply_ite Memory.wf, ite_self, implies_true]

@[simp] theorem State.gotChunk_cellsOk (s : State) (x : Coll) (e : Env) (f : InFlight) (k : Chunk) (residue : Bool) (h0 : Memory.wf s.mem.cells = true) :
    Memory.wf (State.gotChunk s x e f k residue).mem.cells = true := by
  unfold State.gotChunk
  simp (maxDischargeDepth := 60) only [State.setColl_cellsOk, State.ackChunk_cellsOk, State.runColl_cellsOk, State.badChunk_cellsOk, MemSys.heal_cells, memNil_wf, memPut_wf, memFilter_wf, foldl_memPut_wf, h0, apply_ite State.mem, apply_ite MemSys.cells, apply_ite Memory.wf, ite_self, implies_true]
  (repeat' (first | with_reducible exact h0 | split)) <;> simp (maxDischargeDepth := 60) only [State.setColl_cellsOk, State.ackChunk_cellsOk, State.runColl_cellsOk, State.badChunk_cellsOk, MemSys.heal_cells, memNil_wf, memPut_wf, memFilter_wf, foldl_memPut_wf, h0, apply_ite State.mem, apply_ite MemSys.cells, apply_ite Memory.wf, ite_self, implies_true]

@[simp] theorem State.gotCall_cellsOk (s : State) (x : Coll) (k : Chunk) (h0 : Memory.wf s.mem.cells = true) :
    Memory.wf (State.gotCall s x k).mem.cells = true := by
  simp (maxDischargeDepth := 60) only [State.gotCall, State.setColl_cellsOk, State.failColl_cellsOk, State.beginColl_cellsOk, MemSys.heal_cells, memNil_wf, memPut_wf, memFilter_wf, foldl_memPut_wf, h0, apply_ite State.mem, apply_ite MemSys.cells, apply_ite Memory.wf, ite_self, implies_true]

@[simp] theorem State.bulk_cellsOk (s : State) (k : Chunk) (residue : Bool) (h0 : Memory.wf s.mem.cells = true) :
    Memory.wf (State.bulk s k residue).mem.cells = true := by
  unfold State.bulk
  (repeat' (first | with_reducible exact h0 | split)) <;> (try simp +contextual (maxDischargeDepth := 60) only [State.bump_cellsOk, State.setColl_cellsOk, State.failColl_cellsOk, State.sendBulk_cellsOk, State.pump_cellsOk, State.runColl_cellsOk, State.knowMark_cellsOk, State.gotChunk_cellsOk, State.gotCall_cellsOk, foldl_cellsOk, MemSys.heal_cells, memNil_wf, memPut_wf, memFilter_wf, foldl_memPut_wf, h0, apply_ite State.mem, apply_ite MemSys.cells, apply_ite Memory.wf, ite_self, implies_true]) <;> (repeat' (first | with_reducible exact h0 | split)) <;> (try simp +contextual (maxDischargeDepth := 60) only [State.bump_cellsOk, State.setColl_cellsOk, State.failColl_cellsOk, State.sendBulk_cellsOk, State.pump_cellsOk, State.runColl_cellsOk, State.knowMark_cellsOk, State.gotChunk_cellsOk, State.gotCall_cellsOk, foldl_cellsOk, MemSys.heal_cells, memNil_wf, memPut_wf, memFilter_wf, foldl_memPut_wf, h0, apply_ite State.mem, apply_ite MemSys.cells, apply_ite Memory.wf, ite_self, implies_true]) <;> (repeat' (first | with_reducible exact h0 | split)) <;> simp +contextual (maxDischargeDepth := 60) only [State.bump_cellsOk, State.setColl_cellsOk, State.failColl_cellsOk, State.sendBulk_cellsOk, State.pump_cellsOk, State.runColl_cellsOk, State.knowMark_cellsOk, State.gotChunk_cellsOk, State.gotCall_cellsOk, foldl_cellsOk, MemSys.heal_cells, memNil_wf, memPut_wf, memFilter_wf, foldl_memPut_wf, h0, apply_ite State.mem, apply_ite MemSys.cells, apply_ite Memory.wf, ite_self, implies_true]

@[simp] theorem State.joinOrder_cellsOk (s : State) (f : InFlight) (group sig : Nat) (post : Bool) (h0 : Memory.wf s.mem.cells = true) :
    Memory.wf (State.joinOrder s f group sig post).mem.cells = true := by
  simp (maxDischargeDepth := 60) only [State.joinOrder, State.post_cellsOk, MemSys.heal_cells, memNil_wf, memPut_wf, memFilter_wf, foldl_memPut_wf, h0, apply_ite State.mem, apply_ite MemSys.cells, apply_ite Memory.wf, ite_self, implies_true]

@[simp] theorem State.joinColl_cellsOk (s : State) (e : Env) (f : InFlight) (h0 : Memory.wf s.mem.cells = true) :
    Memory.wf (State.joinColl s e f).mem.cells = true := by
  unfold State.joinColl
  (repeat' (first | with_reducible exact h0 | split)) <;> (try simp +contextual (maxDischargeDepth := 60) only [State.sendBulk_cellsOk, State.joinOrder_cellsOk, foldl_cellsOk, MemSys.heal_cells, memNil_wf, memPut_wf, memFilter_wf, foldl_memPut_wf, h0, apply_ite State.mem, apply_ite MemSys.cells, apply_ite Memory.wf, ite_self, implies_true]) <;> (repeat' (first | with_reducible exact h0 | split)) <;> (try simp +contextual (maxDischargeDepth := 60) only [State.sendBulk_cellsOk, State.joinOrder_cellsOk, foldl_cellsOk, MemSys.heal_cells, memNil_wf, memPut_wf, memFilter_wf, foldl_memPut_wf, h0, apply_ite State.mem, apply_ite MemSys.cells, apply_ite Memory.wf, ite_self, implies_true]) <;> (repeat' (first | with_reducible exact h0 | split)) <;> simp +contextual (maxDischargeDepth := 60) only [State.sendBulk_cellsOk, State.joinOrder_cellsOk, foldl_cellsOk, MemSys.heal_cells, memNil_wf, memPut_wf, memFilter_wf, foldl_memPut_wf, h0, apply_ite State.mem, apply_ite MemSys.cells, apply_ite Memory.wf, ite_self, implies_true]

@[simp] theorem State.hearCalls_cellsOk (s : State) (group : Nat) (h0 : Memory.wf s.mem.cells = true) :
    Memory.wf (State.hearCalls s group).mem.cells = true := by
  simp +contextual (maxDischargeDepth := 60) only [State.hearCalls, State.bulk_cellsOk, foldl_cellsOk, MemSys.heal_cells, memNil_wf, memPut_wf, memFilter_wf, foldl_memPut_wf, h0, apply_ite State.mem, apply_ite MemSys.cells, apply_ite Memory.wf, ite_self, implies_true]

@[simp] theorem startColl_cellsOk (s : State) (e : Env) (f : InFlight) (h0 : Memory.wf s.mem.cells = true) :
    Memory.wf (startColl s e f).mem.cells = true := by
  simp +contextual (maxDischargeDepth := 60) only [startColl, State.bump_cellsOk, State.addFlight_cellsOk, State.reject_cellsOk, State.failInstr_cellsOk, State.launchTo_cellsOk, State.goColl_cellsOk, State.joinColl_cellsOk, State.hearCalls_cellsOk, MemSys.heal_cells, memNil_wf, memPut_wf, memFilter_wf, foldl_memPut_wf, h0, apply_ite State.mem, apply_ite MemSys.cells, apply_ite Memory.wf, ite_self, implies_true]

@[simp] theorem State.sendCard_cellsOk (s : State) (g : Group) (k : Card) (post q : Nat) (h0 : Memory.wf s.mem.cells = true) :
    Memory.wf (State.sendCard s g k post q).mem.cells = true := by
  simp (maxDischargeDepth := 60) only [State.sendCard, State.post_cellsOk, State.sendPacket_cellsOk, MemSys.heal_cells, memNil_wf, memPut_wf, memFilter_wf, foldl_memPut_wf, h0, apply_ite State.mem, apply_ite MemSys.cells, apply_ite Memory.wf, ite_self, implies_true]

@[simp] theorem State.sendCards_cellsOk (s : State) (f : InFlight) (x : Coll) (g : Group) (a : Nat) (payload : Bytes) (h0 : Memory.wf s.mem.cells = true) :
    Memory.wf (State.sendCards s f x g a payload).mem.cells = true := by
  simp +contextual (maxDischargeDepth := 60) only [State.sendCards, State.sendCard_cellsOk, foldl_cellsOk, MemSys.heal_cells, memNil_wf, memPut_wf, memFilter_wf, foldl_memPut_wf, h0, apply_ite State.mem, apply_ite MemSys.cells, apply_ite Memory.wf, ite_self, implies_true]

@[simp] theorem State.runPost_cellsOk (s : State) (c idx : Nat) (v0 : Nat) (h0 : Memory.wf s.mem.cells = true) :
    Memory.wf (State.runPost s c idx v0).mem.cells = true := by
  induction v0 generalizing s c idx  with
  | zero =>
    first
    | exact h0
    | (simp (maxDischargeDepth := 60) only [State.runPost, State.setColl_cellsOk, State.failColl_cellsOk, State.endColl_cellsOk, State.sendCards_cellsOk, MemSys.heal_cells, memNil_wf, memPut_wf, memFilter_wf, foldl_memPut_wf, h0, apply_ite State.mem, apply_ite MemSys.cells, apply_ite Memory.wf, ite_self, implies_true]; done)
  | succ n ih =>
    first
    | (simp (maxDischargeDepth := 60) only [State.runPost, State.setColl_cellsOk, State.failColl_cellsOk, State.endColl_cellsOk, State.sendCards_cellsOk, MemSys.heal_cells, memNil_wf, memPut_wf, memFilter_wf, foldl_memPut_wf, h0, apply_ite State.mem, apply_ite MemSys.cells, apply_ite Memory.wf, ite_self, implies_true, ih]; done)
    | (unfold State.runPost; (repeat' (first | with_reducible exact h0 | split)) <;> (simp (maxDischargeDepth := 60) only [State.setColl_cellsOk, State.failColl_cellsOk, State.endColl_cellsOk, State.sendCards_cellsOk, MemSys.heal_cells, memNil_wf, memPut_wf, memFilter_wf, foldl_memPut_wf, h0, apply_ite State.mem, apply_ite MemSys.cells, apply_ite Memory.wf, ite_self, implies_true, ih]; done))
    | (unfold State.runPost; (repeat' (first | with_reducible exact h0 | split)) <;> (try simp (maxDischargeDepth := 60) only [State.setColl_cellsOk, State.failColl_cellsOk, State.endColl_cellsOk, State.sendCards_cellsOk, MemSys.heal_cells, memNil_wf, memPut_wf, memFilter_wf, foldl_memPut_wf, h0, apply_ite State.mem, apply_ite MemSys.cells, apply_ite Memory.wf, ite_self, implies_true, ih]) <;> (repeat' (first | with_reducible exact h0 | split)) <;> (simp (maxDischargeDepth := 60) only [State.setColl_cellsOk, State.failColl_cellsOk, State.endColl_cellsOk, State.sendCards_cellsOk, MemSys.heal_cells, memNil_wf, memPut_wf, memFilter_wf, foldl_memPut_wf, h0, apply_ite State.mem, apply_ite MemSys.cells, apply_ite Memory.wf, ite_self, implies_true, ih]; done))
    | (unfold State.runPost; (repeat' (first | with_reducible exact h0 | split)) <;> (simp +contextual (maxDischargeDepth := 60) only [State.setColl_cellsOk, State.failColl_cellsOk, State.endColl_cellsOk, State.sendCards_cellsOk, MemSys.heal_cells, memNil_wf, memPut_wf, memFilter_wf, foldl_memPut_wf, h0, apply_ite State.mem, apply_ite MemSys.cells, apply_ite Memory.wf, ite_self, implies_true, ih]; done))

@[simp] theorem State.goPost_cellsOk (s : State) (e : Env) (f : InFlight) (h0 : Memory.wf s.mem.cells = true) :
    Memory.wf (State.goPost s e f).mem.cells = true := by
  unfold State.goPost
  simp (maxDischargeDepth := 60) only [State.setFlight_cellsOk, State.readRuns_cellsOk, State.sawPoison_cellsOk, State.failInstr_cellsOk, State.setColl_cellsOk, State.sendCards_cellsOk, State.runPost_cellsOk, MemSys.heal_cells, memNil_wf, memPut_wf, memFilter_wf, foldl_memPut_wf, h0, apply_ite State.mem, apply_ite MemSys.cells, apply_ite Memory.wf, ite_self, implies_true]
  (repeat' (first | with_reducible exact h0 | split)) <;> simp (maxDischargeDepth := 60) only [State.setFlight_cellsOk, State.readRuns_cellsOk, State.sawPoison_cellsOk, State.failInstr_cellsOk, State.setColl_cellsOk, State.sendCards_cellsOk, State.runPost_cellsOk, MemSys.heal_cells, memNil_wf, memPut_wf, memFilter_wf, foldl_memPut_wf, h0, apply_ite State.mem, apply_ite MemSys.cells, apply_ite Memory.wf, ite_self, implies_true]

@[simp] theorem startPost_cellsOk (s : State) (e : Env) (f : InFlight) (h0 : Memory.wf s.mem.cells = true) :
    Memory.wf (startPost s e f).mem.cells = true := by
  simp +contextual (maxDischargeDepth := 60) only [startPost, State.addFlight_cellsOk, State.reject_cellsOk, State.failInstr_cellsOk, State.launchTo_cellsOk, State.joinOrder_cellsOk, State.goPost_cellsOk, MemSys.heal_cells, memNil_wf, memPut_wf, memFilter_wf, foldl_memPut_wf, h0, apply_ite State.mem, apply_ite MemSys.cells, apply_ite Memory.wf, ite_self, implies_true]

/-! ### Intake -/

@[simp] theorem State.setIntk_cellsOk (s : State) (c idx : Nat) (f : IntakeJob → IntakeJob) (h0 : Memory.wf s.mem.cells = true) :
    Memory.wf (State.setIntk s c idx f).mem.cells = true := by
  exact h0

@[simp] theorem State.dropIntk_cellsOk (s : State) (c idx : Nat) (h0 : Memory.wf s.mem.cells = true) :
    Memory.wf (State.dropIntk s c idx).mem.cells = true := by
  exact h0

@[simp] theorem State.setIntkPipe_cellsOk (s : State) (p : Nat) (f : Pipe → Pipe) (h0 : Memory.wf s.mem.cells = true) :
    Memory.wf (State.setIntkPipe s p f).mem.cells = true := by
  exact h0

@[simp] theorem startIntk_cellsOk (s : State) (e : Env) (f : InFlight) (h0 : Memory.wf s.mem.cells = true) :
    Memory.wf (startIntk s e f).mem.cells = true := by
  simp (maxDischargeDepth := 60) only [startIntk, State.readRuns_cellsOk, State.addFlight_cellsOk, State.failInstr_cellsOk, MemSys.heal_cells, memNil_wf, memPut_wf, memFilter_wf, foldl_memPut_wf, h0, apply_ite State.mem, apply_ite MemSys.cells, apply_ite Memory.wf, ite_self, implies_true]

@[simp] theorem State.intkEnd_cellsOk (s : State) (c idx : Nat) (h0 : Memory.wf s.mem.cells = true) :
    Memory.wf (State.intkEnd s c idx).mem.cells = true := by
  unfold State.intkEnd
  (repeat' (first | with_reducible exact h0 | split)) <;> simp +contextual (maxDischargeDepth := 60) only [State.writeGlobal_cellsOk, State.setFlight_cellsOk, State.dropIntk_cellsOk, foldl_cellsOk, MemSys.heal_cells, memNil_wf, memPut_wf, memFilter_wf, foldl_memPut_wf, h0, apply_ite State.mem, apply_ite MemSys.cells, apply_ite Memory.wf, ite_self, implies_true]

@[simp] theorem State.countSlot_cellsOk (s : State) (e : Env) (j : IntakeJob) (slot : Nat) (x : Sample) (h0 : Memory.wf s.mem.cells = true) :
    Memory.wf (State.countSlot s e j slot x).mem.cells = true := by
  simp (maxDischargeDepth := 60) only [State.countSlot, State.bump_cellsOk, MemSys.heal_cells, memNil_wf, memPut_wf, memFilter_wf, foldl_memPut_wf, h0, apply_ite State.mem, apply_ite MemSys.cells, apply_ite Memory.wf, ite_self, implies_true]

@[simp] theorem State.slotDone_cellsOk (s : State) (pipe c idx slot code : Nat) (h0 : Memory.wf s.mem.cells = true) :
    Memory.wf (State.slotDone s pipe c idx slot code).mem.cells = true := by
  unfold State.slotDone
  (repeat' (first | with_reducible exact h0 | split)) <;> simp +contextual (maxDischargeDepth := 60) only [State.bump_cellsOk, State.dropReqs_cellsOk, State.writeGlobal_cellsOk, State.readRuns_cellsOk, State.sawPoison_cellsOk, State.setIntk_cellsOk, State.setIntkPipe_cellsOk, State.intkEnd_cellsOk, State.countSlot_cellsOk, foldl_cellsOk, MemSys.heal_cells, memNil_wf, memPut_wf, memFilter_wf, foldl_memPut_wf, h0, apply_ite State.mem, apply_ite MemSys.cells, apply_ite Memory.wf, ite_self, implies_true]

@[simp] theorem State.dictLost_cellsOk (s : State) (j : IntakeJob) (h0 : Memory.wf s.mem.cells = true) :
    Memory.wf (State.dictLost s j).mem.cells = true := by
  simp (maxDischargeDepth := 60) only [State.dictLost, State.sawPoison_cellsOk, State.failInstr_cellsOk, State.dropIntk_cellsOk, MemSys.heal_cells, memNil_wf, memPut_wf, memFilter_wf, foldl_memPut_wf, h0, apply_ite State.mem, apply_ite MemSys.cells, apply_ite Memory.wf, ite_self, implies_true]

@[simp] theorem State.slotJudged_cellsOk (s : State) (pipe : Nat) (j : IntakeJob) (slot code : Nat) (h0 : Memory.wf s.mem.cells = true) :
    Memory.wf (State.slotJudged s pipe j slot code).mem.cells = true := by
  simp (maxDischargeDepth := 60) only [State.slotJudged, State.slotDone_cellsOk, State.dictLost_cellsOk, MemSys.heal_cells, memNil_wf, memPut_wf, memFilter_wf, foldl_memPut_wf, h0, apply_ite State.mem, apply_ite MemSys.cells, apply_ite Memory.wf, ite_self, implies_true]

@[simp] theorem State.takeSample_cellsOk (s : State) (pipe : Nat) (h0 : Memory.wf s.mem.cells = true) :
    Memory.wf (State.takeSample s pipe).mem.cells = true := by
  unfold State.takeSample
  (repeat' (first | with_reducible exact h0 | split)) <;> simp (maxDischargeDepth := 60) only [State.bump_cellsOk, State.request_cellsOk, State.readRuns_cellsOk, State.setIntk_cellsOk, State.setIntkPipe_cellsOk, State.slotDone_cellsOk, State.slotJudged_cellsOk, MemSys.heal_cells, memNil_wf, memPut_wf, memFilter_wf, foldl_memPut_wf, h0, apply_ite State.mem, apply_ite MemSys.cells, apply_ite Memory.wf, ite_self, implies_true]

@[simp] theorem State.sampleLost_cellsOk (s : State) (c idx slot : Nat) (h0 : Memory.wf s.mem.cells = true) :
    Memory.wf (State.sampleLost s c idx slot).mem.cells = true := by
  unfold State.sampleLost
  (repeat' (first | with_reducible exact h0 | split)) <;> simp (maxDischargeDepth := 60) only [State.slotDone_cellsOk, MemSys.heal_cells, memNil_wf, memPut_wf, memFilter_wf, foldl_memPut_wf, h0, apply_ite State.mem, apply_ite MemSys.cells, apply_ite Memory.wf, ite_self, implies_true]

@[simp] theorem State.restartSample_cellsOk (s : State) (pipe : Nat) (h0 : Memory.wf s.mem.cells = true) :
    Memory.wf (State.restartSample s pipe).mem.cells = true := by
  unfold State.restartSample
  (repeat' (first | with_reducible exact h0 | split)) <;> simp (maxDischargeDepth := 60) only [State.bump_cellsOk, State.dropReqs_cellsOk, State.setIntk_cellsOk, State.setIntkPipe_cellsOk, MemSys.heal_cells, memNil_wf, memPut_wf, memFilter_wf, foldl_memPut_wf, h0, apply_ite State.mem, apply_ite MemSys.cells, apply_ite Memory.wf, ite_self, implies_true]

@[simp] theorem State.intkStarved_cellsOk (s : State) (h0 : Memory.wf s.mem.cells = true) :
    Memory.wf (State.intkStarved s).mem.cells = true := by
  simp +contextual (maxDischargeDepth := 60) only [State.intkStarved, State.failInstr_cellsOk, State.dropIntk_cellsOk, foldl_cellsOk, MemSys.heal_cells, memNil_wf, memPut_wf, memFilter_wf, foldl_memPut_wf, h0, apply_ite State.mem, apply_ite MemSys.cells, apply_ite Memory.wf, ite_self, implies_true]

/-! ### Codec -/

@[simp] theorem State.setStream_cellsOk (s : State) (i : Nat) (f : Codec → Codec) (h0 : Memory.wf s.mem.cells = true) :
    Memory.wf (State.setStream s i f).mem.cells = true := by
  exact h0

@[simp] theorem State.setCdc_cellsOk (s : State) (c idx : Nat) (f : CodecJob → CodecJob) (h0 : Memory.wf s.mem.cells = true) :
    Memory.wf (State.setCdc s c idx f).mem.cells = true := by
  exact h0

@[simp] theorem State.dropCdc_cellsOk (s : State) (c idx : Nat) (h0 : Memory.wf s.mem.cells = true) :
    Memory.wf (State.dropCdc s c idx).mem.cells = true := by
  exact h0

@[simp] theorem State.setCdcPipe_cellsOk (s : State) (p : Nat) (f : Pipe → Pipe) (h0 : Memory.wf s.mem.cells = true) :
    Memory.wf (State.setCdcPipe s p f).mem.cells = true := by
  exact h0

@[simp] theorem State.idleCdc_cellsOk (s : State) (c idx : Nat) (h0 : Memory.wf s.mem.cells = true) :
    Memory.wf (State.idleCdc s c idx).mem.cells = true := by
  exact h0

@[simp] theorem State.failCdc_cellsOk (s : State) (j : CodecJob) (code : Nat) (h0 : Memory.wf s.mem.cells = true) :
    Memory.wf (State.failCdc s j code).mem.cells = true := by
  simp (maxDischargeDepth := 60) only [State.failCdc, State.failInstr_cellsOk, State.setStream_cellsOk, State.dropCdc_cellsOk, State.idleCdc_cellsOk, MemSys.heal_cells, memNil_wf, memPut_wf, memFilter_wf, foldl_memPut_wf, h0, apply_ite State.mem, apply_ite MemSys.cells, apply_ite Memory.wf, ite_self, implies_true]

@[simp] theorem State.endCdc_cellsOk (s : State) (c idx : Nat) (closed : Bool) (h0 : Memory.wf s.mem.cells = true) :
    Memory.wf (State.endCdc s c idx closed).mem.cells = true := by
  unfold State.endCdc
  (repeat' (first | with_reducible exact h0 | split)) <;> simp (maxDischargeDepth := 60) only [State.writeGlobal_cellsOk, State.setFlight_cellsOk, State.dropCdc_cellsOk, State.idleCdc_cellsOk, MemSys.heal_cells, memNil_wf, memPut_wf, memFilter_wf, foldl_memPut_wf, h0, apply_ite State.mem, apply_ite MemSys.cells, apply_ite Memory.wf, ite_self, implies_true]

@[simp] theorem State.putCoded_cellsOk (s : State) (e : Env) (j : CodecJob) (part : Nat) (l : List Bytes) (h0 : Memory.wf s.mem.cells = true) :
    Memory.wf (State.putCoded s e j part l).mem.cells = true := by
  simp +contextual (maxDischargeDepth := 60) only [State.putCoded, State.bump_cellsOk, State.writeGlobal_cellsOk, State.setCdc_cellsOk, foldl_cellsOk, MemSys.heal_cells, memNil_wf, memPut_wf, memFilter_wf, foldl_memPut_wf, h0, apply_ite State.mem, apply_ite MemSys.cells, apply_ite Memory.wf, ite_self, implies_true]

@[simp] theorem State.encodeNext_cellsOk (s : State) (x : Codec) (j : CodecJob) (e : Env) (part : Nat) (h0 : Memory.wf s.mem.cells = true) :
    Memory.wf (State.encodeNext s x j e part).mem.cells = true := by
  simp (maxDischargeDepth := 60) only [State.encodeNext, State.setStream_cellsOk, State.setCdc_cellsOk, State.endCdc_cellsOk, State.putCoded_cellsOk, MemSys.heal_cells, memNil_wf, memPut_wf, memFilter_wf, foldl_memPut_wf, h0, apply_ite State.mem, apply_ite MemSys.cells, apply_ite Memory.wf, ite_self, implies_true]

@[simp] theorem State.outputFrame_cellsOk (s : State) (x : Codec) (j : CodecJob) (e : Env) (part : Nat) (g : Frame) (h0 : Memory.wf s.mem.cells = true) :
    Memory.wf (State.outputFrame s x j e part g).mem.cells = true := by
  simp +contextual (maxDischargeDepth := 60) only [State.outputFrame, State.bump_cellsOk, State.writeGlobal_cellsOk, State.setStream_cellsOk, State.setCdc_cellsOk, foldl_cellsOk, MemSys.heal_cells, memNil_wf, memPut_wf, memFilter_wf, foldl_memPut_wf, h0, apply_ite State.mem, apply_ite MemSys.cells, apply_ite Memory.wf, ite_self, implies_true]

@[simp] theorem State.decodeOn_cellsOk (s : State) (c idx : Nat) (v0 : Nat) (h0 : Memory.wf s.mem.cells = true) :
    Memory.wf (State.decodeOn s c idx v0).mem.cells = true := by
  induction v0 generalizing s c idx  with
  | zero =>
    first
    | exact h0
    | (simp (maxDischargeDepth := 60) only [State.decodeOn, State.bump_cellsOk, State.setStream_cellsOk, State.setCdc_cellsOk, State.failCdc_cellsOk, State.endCdc_cellsOk, State.outputFrame_cellsOk, MemSys.heal_cells, memNil_wf, memPut_wf, memFilter_wf, foldl_memPut_wf, h0, apply_ite State.mem, apply_ite MemSys.cells, apply_ite Memory.wf, ite_self, implies_true]; done)
  | succ n ih =>
    first
    | (simp (maxDischargeDepth := 60) only [State.decodeOn, State.bump_cellsOk, State.setStream_cellsOk, State.setCdc_cellsOk, State.failCdc_cellsOk, State.endCdc_cellsOk, State.outputFrame_cellsOk, MemSys.heal_cells, memNil_wf, memPut_wf, memFilter_wf, foldl_memPut_wf, h0, apply_ite State.mem, apply_ite MemSys.cells, apply_ite Memory.wf, ite_self, implies_true, ih]; done)
    | (unfold State.decodeOn; (repeat' (first | with_reducible exact h0 | split)) <;> (simp (maxDischargeDepth := 60) only [State.bump_cellsOk, State.setStream_cellsOk, State.setCdc_cellsOk, State.failCdc_cellsOk, State.endCdc_cellsOk, State.outputFrame_cellsOk, MemSys.heal_cells, memNil_wf, memPut_wf, memFilter_wf, foldl_memPut_wf, h0, apply_ite State.mem, apply_ite MemSys.cells, apply_ite Memory.wf, ite_self, implies_true, ih]; done))
    | (unfold State.decodeOn; (repeat' (first | with_reducible exact h0 | split)) <;> (try simp (maxDischargeDepth := 60) only [State.bump_cellsOk, State.setStream_cellsOk, State.setCdc_cellsOk, State.failCdc_cellsOk, State.endCdc_cellsOk, State.outputFrame_cellsOk, MemSys.heal_cells, memNil_wf, memPut_wf, memFilter_wf, foldl_memPut_wf, h0, apply_ite State.mem, apply_ite MemSys.cells, apply_ite Memory.wf, ite_self, implies_true, ih]) <;> (repeat' (first | with_reducible exact h0 | split)) <;> (simp (maxDischargeDepth := 60) only [State.bump_cellsOk, State.setStream_cellsOk, State.setCdc_cellsOk, State.failCdc_cellsOk, State.endCdc_cellsOk, State.outputFrame_cellsOk, MemSys.heal_cells, memNil_wf, memPut_wf, memFilter_wf, foldl_memPut_wf, h0, apply_ite State.mem, apply_ite MemSys.cells, apply_ite Memory.wf, ite_self, implies_true, ih]; done))
    | (unfold State.decodeOn; (repeat' (first | with_reducible exact h0 | split)) <;> (simp +contextual (maxDischargeDepth := 60) only [State.bump_cellsOk, State.setStream_cellsOk, State.setCdc_cellsOk, State.failCdc_cellsOk, State.endCdc_cellsOk, State.outputFrame_cellsOk, MemSys.heal_cells, memNil_wf, memPut_wf, memFilter_wf, foldl_memPut_wf, h0, apply_ite State.mem, apply_ite MemSys.cells, apply_ite Memory.wf, ite_self, implies_true, ih]; done))

@[simp] theorem State.decodeNext_cellsOk (s : State) (x : Codec) (j : CodecJob) (e : Env) (late : Bool) (h0 : Memory.wf s.mem.cells = true) :
    Memory.wf (State.decodeNext s x j e late).mem.cells = true := by
  simp (maxDischargeDepth := 60) only [State.decodeNext, State.bump_cellsOk, State.drew_cellsOk, State.writeBytes_cellsOk, State.setStream_cellsOk, State.setCdc_cellsOk, MemSys.heal_cells, memNil_wf, memPut_wf, memFilter_wf, foldl_memPut_wf, h0, apply_ite State.mem, apply_ite MemSys.cells, apply_ite Memory.wf, ite_self, implies_true]

@[simp] theorem State.closeEncoder_cellsOk (s : State) (x : Codec) (j : CodecJob) (e : Env) (part : Nat) (h0 : Memory.wf s.mem.cells = true) :
    Memory.wf (State.closeEncoder s x j e part).mem.cells = true := by
  simp (maxDischargeDepth := 60) only [State.closeEncoder, State.bump_cellsOk, State.writeGlobal_cellsOk, State.setStream_cellsOk, State.setCdc_cellsOk, State.endCdc_cellsOk, State.putCoded_cellsOk, MemSys.heal_cells, memNil_wf, memPut_wf, memFilter_wf, foldl_memPut_wf, h0, apply_ite State.mem, apply_ite MemSys.cells, apply_ite Memory.wf, ite_self, implies_true]

@[simp] theorem State.goCodec_cellsOk (s : State) (e : Env) (f : InFlight) (h0 : Memory.wf s.mem.cells = true) :
    Memory.wf (State.goCodec s e f).mem.cells = true := by
  unfold State.goCodec
  simp (maxDischargeDepth := 60) only [State.setFlight_cellsOk, State.readRuns_cellsOk, State.sawPoison_cellsOk, State.setStream_cellsOk, State.failCdc_cellsOk, State.decodeOn_cellsOk, State.closeEncoder_cellsOk, MemSys.heal_cells, memNil_wf, memPut_wf, memFilter_wf, foldl_memPut_wf, h0, apply_ite State.mem, apply_ite MemSys.cells, apply_ite Memory.wf, ite_self, implies_true]
  (repeat' (first | with_reducible exact h0 | split)) <;> simp (maxDischargeDepth := 60) only [State.setFlight_cellsOk, State.readRuns_cellsOk, State.sawPoison_cellsOk, State.setStream_cellsOk, State.failCdc_cellsOk, State.decodeOn_cellsOk, State.closeEncoder_cellsOk, MemSys.heal_cells, memNil_wf, memPut_wf, memFilter_wf, foldl_memPut_wf, h0, apply_ite State.mem, apply_ite MemSys.cells, apply_ite Memory.wf, ite_self, implies_true]

@[simp] theorem startOpen_cellsOk (s : State) (e : Env) (f : InFlight) (h0 : Memory.wf s.mem.cells = true) :
    Memory.wf (startOpen s e f).mem.cells = true := by
  simp (maxDischargeDepth := 60) only [startOpen, State.readRuns_cellsOk, State.addFlight_cellsOk, State.failInstr_cellsOk, MemSys.heal_cells, memNil_wf, memPut_wf, memFilter_wf, foldl_memPut_wf, h0, apply_ite State.mem, apply_ite MemSys.cells, apply_ite Memory.wf, ite_self, implies_true]

@[simp] theorem startCodec_cellsOk (s : State) (e : Env) (f : InFlight) (h0 : Memory.wf s.mem.cells = true) :
    Memory.wf (startCodec s e f).mem.cells = true := by
  simp +contextual (maxDischargeDepth := 60) only [startCodec, State.launchTo_cellsOk, State.goCodec_cellsOk, startOpen_cellsOk, MemSys.heal_cells, memNil_wf, memPut_wf, memFilter_wf, foldl_memPut_wf, h0, apply_ite State.mem, apply_ite MemSys.cells, apply_ite Memory.wf, ite_self, implies_true]

@[simp] theorem State.takeFrame_cellsOk (s : State) (pipe : Nat) (h0 : Memory.wf s.mem.cells = true) :
    Memory.wf (State.takeFrame s pipe).mem.cells = true := by
  unfold State.takeFrame
  (repeat' (first | with_reducible exact h0 | split)) <;> simp (maxDischargeDepth := 60) only [State.bump_cellsOk, State.sawPoison_cellsOk, State.setStream_cellsOk, State.setCdcPipe_cellsOk, State.failCdc_cellsOk, MemSys.heal_cells, memNil_wf, memPut_wf, memFilter_wf, foldl_memPut_wf, h0, apply_ite State.mem, apply_ite MemSys.cells, apply_ite Memory.wf, ite_self, implies_true]

@[simp] theorem State.encodeOn_cellsOk (s : State) (c idx : Nat) (h0 : Memory.wf s.mem.cells = true) :
    Memory.wf (State.encodeOn s c idx).mem.cells = true := by
  unfold State.encodeOn
  (repeat' (first | with_reducible exact h0 | split)) <;> simp (maxDischargeDepth := 60) only [State.endCdc_cellsOk, MemSys.heal_cells, memNil_wf, memPut_wf, memFilter_wf, foldl_memPut_wf, h0, apply_ite State.mem, apply_ite MemSys.cells, apply_ite Memory.wf, ite_self, implies_true]

@[simp] theorem State.frameDone_cellsOk (s : State) (pipe : Nat) (late : Bool) (h0 : Memory.wf s.mem.cells = true) :
    Memory.wf (State.frameDone s pipe late).mem.cells = true := by
  unfold State.frameDone
  (repeat' (first | with_reducible exact h0 | split)) <;> simp (maxDischargeDepth := 60) only [State.bump_cellsOk, State.setCdcPipe_cellsOk, State.encodeNext_cellsOk, State.decodeOn_cellsOk, State.decodeNext_cellsOk, State.encodeOn_cellsOk, MemSys.heal_cells, memNil_wf, memPut_wf, memFilter_wf, foldl_memPut_wf, h0, apply_ite State.mem, apply_ite MemSys.cells, apply_ite Memory.wf, ite_self, implies_true]

@[simp] theorem State.restartFrame_cellsOk (s : State) (pipe : Nat) (h0 : Memory.wf s.mem.cells = true) :
    Memory.wf (State.restartFrame s pipe).mem.cells = true := by
  unfold State.restartFrame
  simp (maxDischargeDepth := 60) only [State.bump_cellsOk, State.setStream_cellsOk, State.setCdcPipe_cellsOk, MemSys.heal_cells, memNil_wf, memPut_wf, memFilter_wf, foldl_memPut_wf, h0, apply_ite State.mem, apply_ite MemSys.cells, apply_ite Memory.wf, ite_self, implies_true]
  (repeat' (first | with_reducible exact h0 | split)) <;> simp (maxDischargeDepth := 60) only [State.bump_cellsOk, State.setStream_cellsOk, State.setCdcPipe_cellsOk, MemSys.heal_cells, memNil_wf, memPut_wf, memFilter_wf, foldl_memPut_wf, h0, apply_ite State.mem, apply_ite MemSys.cells, apply_ite Memory.wf, ite_self, implies_true]

@[simp] theorem State.cdcStarved_cellsOk (s : State) (h0 : Memory.wf s.mem.cells = true) :
    Memory.wf (State.cdcStarved s).mem.cells = true := by
  simp +contextual (maxDischargeDepth := 60) only [State.cdcStarved, State.failCdc_cellsOk, foldl_cellsOk, MemSys.heal_cells, memNil_wf, memPut_wf, memFilter_wf, foldl_memPut_wf, h0, apply_ite State.mem, apply_ite MemSys.cells, apply_ite Memory.wf, ite_self, implies_true]

/-! ### Instructions -/

@[simp] theorem State.goOn_cellsOk (s : State) (o : Op) (e : Env) (f : InFlight) (h0 : Memory.wf s.mem.cells = true) :
    Memory.wf (State.goOn s o e f).mem.cells = true := by
  simp (maxDischargeDepth := 60) only [State.goOn, State.finishRun_cellsOk, State.goColl_cellsOk, State.goPost_cellsOk, State.goCodec_cellsOk, MemSys.heal_cells, memNil_wf, memPut_wf, memFilter_wf, foldl_memPut_wf, h0, apply_ite State.mem, apply_ite MemSys.cells, apply_ite Memory.wf, ite_self, implies_true]

@[simp] theorem State.askHistory_cellsOk (s : State) (c idx : Nat) (h0 : Memory.wf s.mem.cells = true) :
    Memory.wf (State.askHistory s c idx).mem.cells = true := by
  unfold State.askHistory
  (repeat' (first | with_reducible exact h0 | split)) <;> simp +contextual (maxDischargeDepth := 60) only [State.request_cellsOk, foldl_cellsOk, MemSys.heal_cells, memNil_wf, memPut_wf, memFilter_wf, foldl_memPut_wf, h0, apply_ite State.mem, apply_ite MemSys.cells, apply_ite Memory.wf, ite_self, implies_true]

@[simp] theorem State.resumeRun_cellsOk (s : State) (c idx : Nat) (h0 : Memory.wf s.mem.cells = true) :
    Memory.wf (State.resumeRun s c idx).mem.cells = true := by
  unfold State.resumeRun
  (repeat' (first | with_reducible exact h0 | split)) <;> simp +contextual (maxDischargeDepth := 60) only [State.bring_cellsOk, State.goOn_cellsOk, MemSys.heal_cells, memNil_wf, memPut_wf, memFilter_wf, foldl_memPut_wf, h0, apply_ite State.mem, apply_ite MemSys.cells, apply_ite Memory.wf, ite_self, implies_true]

@[simp] theorem State.decideBlock_cellsOk (s : State) (f : InFlight) (block path : Nat) (h0 : Memory.wf s.mem.cells = true) :
    Memory.wf (State.decideBlock s f block path).mem.cells = true := by
  simp (maxDischargeDepth := 60) only [State.decideBlock, State.post_cellsOk, State.setFlight_cellsOk, State.failInstr_cellsOk, State.countPath_cellsOk, State.resumeRun_cellsOk, MemSys.heal_cells, memNil_wf, memPut_wf, memFilter_wf, foldl_memPut_wf, h0, apply_ite State.mem, apply_ite MemSys.cells, apply_ite Memory.wf, ite_self, implies_true]

@[simp] theorem State.holdBlock_cellsOk (s : State) (f : InFlight) (runs : List (Nat × Nat)) (data : Bytes) (h0 : Memory.wf s.mem.cells = true) :
    Memory.wf (s.holdBlock f runs data).mem.cells = true := by
  induction runs generalizing s data with
  | nil => exact h0
  | cons r l ih =>
    unfold State.holdBlock
    exact ih _ _ h0

@[simp] theorem State.historyArrival_cellsOk (s : State) (c idx block : Nat) (ok reply : Bool) (data : Bytes) (h0 : Memory.wf s.mem.cells = true) :
    Memory.wf (State.historyArrival s c idx block ok reply data).mem.cells = true := by
  unfold State.historyArrival
  (repeat' (first | with_reducible exact h0 | split)) <;> simp (maxDischargeDepth := 60) only [State.bump_cellsOk, State.dropReqs_cellsOk, State.reply_cellsOk, State.decideBlock_cellsOk, State.holdBlock_cellsOk, MemSys.heal_cells, memNil_wf, memPut_wf, memFilter_wf, foldl_memPut_wf, h0, apply_ite State.mem, apply_ite MemSys.cells, apply_ite Memory.wf, ite_self, implies_true]

@[simp] theorem State.historyLate_cellsOk (s : State) (c idx block : Nat) (h0 : Memory.wf s.mem.cells = true) :
    Memory.wf (State.historyLate s c idx block).mem.cells = true := by
  unfold State.historyLate
  (repeat' (first | with_reducible exact h0 | split)) <;> simp (maxDischargeDepth := 60) only [State.decideBlock_cellsOk, MemSys.heal_cells, memNil_wf, memPut_wf, memFilter_wf, foldl_memPut_wf, h0, apply_ite State.mem, apply_ite MemSys.cells, apply_ite Memory.wf, ite_self, implies_true]

@[simp] theorem State.failDry_cellsOk (s : State) (h0 : Memory.wf s.mem.cells = true) :
    Memory.wf (State.failDry s).mem.cells = true := by
  simp +contextual (maxDischargeDepth := 60) only [State.failDry, State.failInstr_cellsOk, foldl_cellsOk, MemSys.heal_cells, memNil_wf, memPut_wf, memFilter_wf, foldl_memPut_wf, h0, apply_ite State.mem, apply_ite MemSys.cells, apply_ite Memory.wf, ite_self, implies_true]

@[simp] theorem State.reseedCell_cellsOk (s : State) (cell : Nat) (h0 : Memory.wf s.mem.cells = true) :
    Memory.wf (State.reseedCell s cell).mem.cells = true := by
  simp (maxDischargeDepth := 60) only [State.reseedCell, State.bump_cellsOk, State.setCell_cellsOk, State.failDry_cellsOk, MemSys.heal_cells, memNil_wf, memPut_wf, memFilter_wf, foldl_memPut_wf, h0, apply_ite State.mem, apply_ite MemSys.cells, apply_ite Memory.wf, ite_self, implies_true]

/-! ### Memory -/

@[simp] theorem State.allocRoom_cellsOk (s : State) (size : Nat) (h0 : Memory.wf s.mem.cells = true) :
    Memory.wf (State.allocRoom s size).mem.cells = true := by
  simp (maxDischargeDepth := 60) only [State.allocRoom, State.makeRoom_cellsOk, MemSys.heal_cells, memNil_wf, memPut_wf, memFilter_wf, foldl_memPut_wf, h0, apply_ite State.mem, apply_ite MemSys.cells, apply_ite Memory.wf, ite_self, implies_true]

@[simp] theorem State.allocHere_cellsOk (s : State) (p size client : Nat) (h0 : Memory.wf s.mem.cells = true) :
    Memory.wf (State.allocHere s p size client).1.mem.cells = true := by
  unfold State.allocHere
  simp (maxDischargeDepth := 60) only [State.clearRun_cellsOk, State.allocRoom_cellsOk, MemSys.heal_cells, memNil_wf, memPut_wf, memFilter_wf, foldl_memPut_wf, h0, apply_ite State.mem, apply_ite MemSys.cells, apply_ite Memory.wf, ite_self, implies_true]
  (repeat' (first | with_reducible exact h0 | split)) <;> simp (maxDischargeDepth := 60) only [State.clearRun_cellsOk, State.allocRoom_cellsOk, MemSys.heal_cells, memNil_wf, memPut_wf, memFilter_wf, foldl_memPut_wf, h0, apply_ite State.mem, apply_ite MemSys.cells, apply_ite Memory.wf, ite_self, implies_true]

@[simp] theorem State.askPeer_cellsOk (s : State) (sess seq : Nat) (record : Bytes) (answered : Bool) (k : Nat) (v0 : Nat) (h0 : Memory.wf s.mem.cells = true) :
    Memory.wf (State.askPeer s sess seq record answered k v0).mem.cells = true := by
  induction v0 generalizing s sess seq record answered k  with
  | zero =>
    first
    | exact h0
    | (simp (maxDischargeDepth := 60) only [State.askPeer, State.request_cellsOk, State.reply_cellsOk, MemSys.heal_cells, memNil_wf, memPut_wf, memFilter_wf, foldl_memPut_wf, h0, apply_ite State.mem, apply_ite MemSys.cells, apply_ite Memory.wf, ite_self, implies_true]; done)
  | succ n ih =>
    first
    | (simp (maxDischargeDepth := 60) only [State.askPeer, State.request_cellsOk, State.reply_cellsOk, MemSys.heal_cells, memNil_wf, memPut_wf, memFilter_wf, foldl_memPut_wf, h0, apply_ite State.mem, apply_ite MemSys.cells, apply_ite Memory.wf, ite_self, implies_true, ih]; done)
    | (unfold State.askPeer; (repeat' (first | with_reducible exact h0 | split)) <;> (simp (maxDischargeDepth := 60) only [State.request_cellsOk, State.reply_cellsOk, MemSys.heal_cells, memNil_wf, memPut_wf, memFilter_wf, foldl_memPut_wf, h0, apply_ite State.mem, apply_ite MemSys.cells, apply_ite Memory.wf, ite_self, implies_true, ih]; done))
    | (unfold State.askPeer; (repeat' (first | with_reducible exact h0 | split)) <;> (try simp (maxDischargeDepth := 60) only [State.request_cellsOk, State.reply_cellsOk, MemSys.heal_cells, memNil_wf, memPut_wf, memFilter_wf, foldl_memPut_wf, h0, apply_ite State.mem, apply_ite MemSys.cells, apply_ite Memory.wf, ite_self, implies_true, ih]) <;> (repeat' (first | with_reducible exact h0 | split)) <;> (simp (maxDischargeDepth := 60) only [State.request_cellsOk, State.reply_cellsOk, MemSys.heal_cells, memNil_wf, memPut_wf, memFilter_wf, foldl_memPut_wf, h0, apply_ite State.mem, apply_ite MemSys.cells, apply_ite Memory.wf, ite_self, implies_true, ih]; done))
    | (unfold State.askPeer; (repeat' (first | with_reducible exact h0 | split)) <;> (simp +contextual (maxDischargeDepth := 60) only [State.request_cellsOk, State.reply_cellsOk, MemSys.heal_cells, memNil_wf, memPut_wf, memFilter_wf, foldl_memPut_wf, h0, apply_ite State.mem, apply_ite MemSys.cells, apply_ite Memory.wf, ite_self, implies_true, ih]; done))

@[simp] theorem State.allocate_cellsOk (s : State) (sess seq : Nat) (r : Bytes) (h0 : Memory.wf s.mem.cells = true) :
    Memory.wf (State.allocate s sess seq r).mem.cells = true := by
  simp (maxDischargeDepth := 60) only [State.allocate, State.reply_cellsOk, State.allocHere_cellsOk, State.askPeer_cellsOk, MemSys.heal_cells, memNil_wf, memPut_wf, memFilter_wf, foldl_memPut_wf, h0, apply_ite State.mem, apply_ite MemSys.cells, apply_ite Memory.wf, ite_self, implies_true]

@[simp] theorem State.granted_cellsOk (s : State) (q : Req) (base : Nat) (h0 : Memory.wf s.mem.cells = true) :
    Memory.wf (State.granted s q base).mem.cells = true := by
  simp (maxDischargeDepth := 60) only [State.granted, State.reply_cellsOk, MemSys.heal_cells, memNil_wf, memPut_wf, memFilter_wf, foldl_memPut_wf, h0, apply_ite State.mem, apply_ite MemSys.cells, apply_ite Memory.wf, ite_self, implies_true]

@[simp] theorem State.dropObj_cellsOk (s : State) (o : Obj) (h0 : Memory.wf s.mem.cells = true) :
    Memory.wf (State.dropObj s o).mem.cells = true := by
  exact h0

@[simp] theorem State.freeObj_cellsOk (s : State) (sess seq g : Nat) (h0 : Memory.wf s.mem.cells = true) :
    Memory.wf (State.freeObj s sess seq g).mem.cells = true := by
  unfold State.freeObj
  (repeat' (first | with_reducible exact h0 | split)) <;> simp (maxDischargeDepth := 60) only [State.request_cellsOk, State.reply_cellsOk, State.dropObj_cellsOk, MemSys.heal_cells, memNil_wf, memPut_wf, memFilter_wf, foldl_memPut_wf, h0, apply_ite State.mem, apply_ite MemSys.cells, apply_ite Memory.wf, ite_self, implies_true]

@[simp] theorem State.refuseRequest_cellsOk (s : State) (part src code : Nat) (h0 : Memory.wf s.mem.cells = true) :
    Memory.wf (State.refuseRequest s part src code).mem.cells = true := by
  simp (maxDischargeDepth := 60) only [State.refuseRequest, State.bump_cellsOk, State.refuse_cellsOk, MemSys.heal_cells, memNil_wf, memPut_wf, memFilter_wf, foldl_memPut_wf, h0, apply_ite State.mem, apply_ite MemSys.cells, apply_ite Memory.wf, ite_self, implies_true]

@[simp] theorem State.startSession_cellsOk (s : State) (n : Nat) (viaReset : Bool) (h0 : Memory.wf s.mem.cells = true) :
    Memory.wf (State.startSession s n viaReset).mem.cells = true := by
  simp +contextual (maxDischargeDepth := 60) only [State.startSession, State.setChan_cellsOk, State.retireWcb_cellsOk, State.post_cellsOk, foldl_cellsOk, MemSys.heal_cells, memNil_wf, memPut_wf, memFilter_wf, foldl_memPut_wf, h0, apply_ite State.mem, apply_ite MemSys.cells, apply_ite Memory.wf, ite_self, implies_true]

@[simp] theorem State.dueSession_cellsOk (s : State) (n : Nat) (viaReset : Bool) (h0 : Memory.wf s.mem.cells = true) :
    Memory.wf (State.dueSession s n viaReset).mem.cells = true := by
  simp (maxDischargeDepth := 60) only [State.dueSession, State.setChan_cellsOk, State.startSession_cellsOk, MemSys.heal_cells, memNil_wf, memPut_wf, memFilter_wf, foldl_memPut_wf, h0, apply_ite State.mem, apply_ite MemSys.cells, apply_ite Memory.wf, ite_self, implies_true]

@[simp] theorem State.drainDetour_cellsOk (s : State) (n : Nat) (h0 : Memory.wf s.mem.cells = true) :
    Memory.wf (State.drainDetour s n).mem.cells = true := by
  simp (maxDischargeDepth := 60) only [State.drainDetour, State.setChan_cellsOk, State.poisonUnits_cellsOk, foldl_cellsOk, MemSys.heal_cells, memNil_wf, memPut_wf, memFilter_wf, foldl_memPut_wf, h0, apply_ite State.mem, apply_ite MemSys.cells, apply_ite Memory.wf, ite_self, implies_true]

@[simp] theorem State.closeSession_cellsOk (s : State) (n : Nat) (h0 : Memory.wf s.mem.cells = true) :
    Memory.wf (State.closeSession s n).mem.cells = true := by
  simp (maxDischargeDepth := 60) only [State.closeSession, State.setCount_cellsOk, State.drew_cellsOk, State.post_cellsOk, State.drainDetour_cellsOk, MemSys.heal_cells, memNil_wf, memPut_wf, memFilter_wf, foldl_memPut_wf, h0, apply_ite State.mem, apply_ite MemSys.cells, apply_ite Memory.wf, ite_self, implies_true]

@[simp] theorem State.endSession_cellsOk (s : State) (n : Nat) (h0 : Memory.wf s.mem.cells = true) :
    Memory.wf (State.endSession s n).mem.cells = true := by
  unfold State.endSession
  simp (maxDischargeDepth := 60) only [State.startSession_cellsOk, State.closeSession_cellsOk, MemSys.heal_cells, memNil_wf, memPut_wf, memFilter_wf, foldl_memPut_wf, h0, apply_ite State.mem, apply_ite MemSys.cells, apply_ite Memory.wf, ite_self, implies_true]
  (repeat' (first | with_reducible exact h0 | split)) <;> simp (maxDischargeDepth := 60) only [State.startSession_cellsOk, State.closeSession_cellsOk, MemSys.heal_cells, memNil_wf, memPut_wf, memFilter_wf, foldl_memPut_wf, h0, apply_ite State.mem, apply_ite MemSys.cells, apply_ite Memory.wf, ite_self, implies_true]

@[simp] theorem State.trained_cellsOk (s : State) (n : Nat) (h0 : Memory.wf s.mem.cells = true) :
    Memory.wf (State.trained s n).mem.cells = true := by
  simp (maxDischargeDepth := 60) only [State.trained, State.bump_cellsOk, State.drew_cellsOk, State.setChan_cellsOk, State.journal_cellsOk, MemSys.heal_cells, memNil_wf, memPut_wf, memFilter_wf, foldl_memPut_wf, h0, apply_ite State.mem, apply_ite MemSys.cells, apply_ite Memory.wf, ite_self, implies_true]

@[simp] theorem applyRetrain_cellsOk (value : Nat) (s : State) (h0 : Memory.wf s.mem.cells = true) :
    Memory.wf (applyRetrain value s).1.mem.cells = true := by
  unfold applyRetrain
  (repeat' (first | with_reducible exact h0 | split)) <;> simp (maxDischargeDepth := 60) only [State.dueSession_cellsOk, MemSys.heal_cells, memNil_wf, memPut_wf, memFilter_wf, foldl_memPut_wf, h0, apply_ite State.mem, apply_ite MemSys.cells, apply_ite Memory.wf, ite_self, implies_true]

@[simp] theorem State.wroteBack_cellsOk (s : State) (q : Req) (h0 : Memory.wf s.mem.cells = true) :
    Memory.wf (State.wroteBack s q).mem.cells = true := by
  simp (maxDischargeDepth := 60) only [State.wroteBack, State.bump_cellsOk, MemSys.heal_cells, memNil_wf, memPut_wf, memFilter_wf, foldl_memPut_wf, h0, apply_ite State.mem, apply_ite MemSys.cells, apply_ite Memory.wf, ite_self, implies_true]

@[simp] theorem State.acked_cellsOk (s : State) (q : Req) (h0 : Memory.wf s.mem.cells = true) :
    Memory.wf (State.acked s q).mem.cells = true := by
  unfold State.acked
  (repeat' (first | with_reducible exact h0 | split)) <;> simp (maxDischargeDepth := 60) only [State.dropReqs_cellsOk, State.writeBack_cellsOk, State.setFlight_cellsOk, State.reply_cellsOk, State.freeCtx_cellsOk, State.wroteBack_cellsOk, MemSys.heal_cells, memNil_wf, memPut_wf, memFilter_wf, foldl_memPut_wf, h0, apply_ite State.mem, apply_ite MemSys.cells, apply_ite Memory.wf, ite_self, implies_true]

@[simp] theorem State.failReq_cellsOk (s : State) (q : Req) (code : Nat) (h0 : Memory.wf s.mem.cells = true) :
    Memory.wf (State.failReq s q code).mem.cells = true := by
  unfold State.failReq
  simp (maxDischargeDepth := 60) only [State.bump_cellsOk, State.dropReqs_cellsOk, State.chargeWrite_cellsOk, State.lostBack_cellsOk, State.lostFetch_cellsOk, State.writeBack_cellsOk, State.setFlight_cellsOk, State.reply_cellsOk, State.progress_cellsOk, State.freeCtx_cellsOk, State.failDelivery_cellsOk, State.failInstr_cellsOk, State.sampleLost_cellsOk, State.historyArrival_cellsOk, State.askPeer_cellsOk, MemSys.heal_cells, memNil_wf, memPut_wf, memFilter_wf, foldl_memPut_wf, h0, apply_ite State.mem, apply_ite MemSys.cells, apply_ite Memory.wf, ite_self, implies_true]
  (repeat' (first | with_reducible exact h0 | split)) <;> simp (maxDischargeDepth := 60) only [State.bump_cellsOk, State.dropReqs_cellsOk, State.chargeWrite_cellsOk, State.lostBack_cellsOk, State.lostFetch_cellsOk, State.writeBack_cellsOk, State.setFlight_cellsOk, State.reply_cellsOk, State.progress_cellsOk, State.freeCtx_cellsOk, State.failDelivery_cellsOk, State.failInstr_cellsOk, State.sampleLost_cellsOk, State.historyArrival_cellsOk, State.askPeer_cellsOk, MemSys.heal_cells, memNil_wf, memPut_wf, memFilter_wf, foldl_memPut_wf, h0, apply_ite State.mem, apply_ite MemSys.cells, apply_ite Memory.wf, ite_self, implies_true]

@[simp] theorem State.fillCopy_cellsOk (s : State) (q : Req) (poisoned : List Nat) (data : Bytes) (h0 : Memory.wf s.mem.cells = true) :
    Memory.wf (State.fillCopy s q poisoned data).mem.cells = true := by
  simp +contextual (maxDischargeDepth := 60) only [State.fillCopy, State.bump_cellsOk, State.dropReqs_cellsOk, State.writeBack_cellsOk, foldl_cellsOk, MemSys.heal_cells, memNil_wf, memPut_wf, memFilter_wf, foldl_memPut_wf, h0, apply_ite State.mem, apply_ite MemSys.cells, apply_ite Memory.wf, ite_self, implies_true]

@[simp] theorem State.answered_cellsOk (s : State) (q : Req) (poisoned : List Nat) (data : Bytes) (h0 : Memory.wf s.mem.cells = true) :
    Memory.wf (State.answered s q poisoned data).mem.cells = true := by
  unfold State.answered
  simp (maxDischargeDepth := 60) only [State.dropReqs_cellsOk, State.deliver_cellsOk, State.resumeRun_cellsOk, State.askPeer_cellsOk, State.granted_cellsOk, State.acked_cellsOk, State.fillCopy_cellsOk, MemSys.heal_cells, memNil_wf, memPut_wf, memFilter_wf, foldl_memPut_wf, h0, apply_ite State.mem, apply_ite MemSys.cells, apply_ite Memory.wf, ite_self, implies_true]
  (repeat' (first | with_reducible exact h0 | split)) <;> simp (maxDischargeDepth := 60) only [State.dropReqs_cellsOk, State.deliver_cellsOk, State.resumeRun_cellsOk, State.askPeer_cellsOk, State.granted_cellsOk, State.acked_cellsOk, State.fillCopy_cellsOk, MemSys.heal_cells, memNil_wf, memPut_wf, memFilter_wf, foldl_memPut_wf, h0, apply_ite State.mem, apply_ite MemSys.cells, apply_ite Memory.wf, ite_self, implies_true]

/-! ### Session -/

@[simp] theorem State.replyRaw_cellsOk (s : State) (d : Dgram) (session seq status : Nat) (h0 : Memory.wf s.mem.cells = true) :
    Memory.wf (State.replyRaw s d session seq status).mem.cells = true := by
  simp (maxDischargeDepth := 60) only [State.replyRaw, State.bump_cellsOk, State.putDgram_cellsOk, MemSys.heal_cells, memNil_wf, memPut_wf, memFilter_wf, foldl_memPut_wf, h0, apply_ite State.mem, apply_ite MemSys.cells, apply_ite Memory.wf, ite_self, implies_true]

@[simp] theorem State.resend_cellsOk (s : State) (id : Nat) (h0 : Memory.wf s.mem.cells = true) :
    Memory.wf (State.resend s id).mem.cells = true := by
  unfold State.resend
  (repeat' (first | with_reducible exact h0 | split)) <;> simp +contextual (maxDischargeDepth := 60) only [State.bump_cellsOk, State.setSession_cellsOk, State.emit_cellsOk, foldl_cellsOk, MemSys.heal_cells, memNil_wf, memPut_wf, memFilter_wf, foldl_memPut_wf, h0, apply_ite State.mem, apply_ite MemSys.cells, apply_ite Memory.wf, ite_self, implies_true]

@[simp] theorem State.drainQueue_cellsOk (s : State) (id : Nat) (v0 : Nat) (h0 : Memory.wf s.mem.cells = true) :
    Memory.wf (State.drainQueue s id v0).mem.cells = true := by
  induction v0 generalizing s id  with
  | zero =>
    first
    | exact h0
    | (simp (maxDischargeDepth := 60) only [State.drainQueue, State.setSession_cellsOk, State.emit_cellsOk, MemSys.heal_cells, memNil_wf, memPut_wf, memFilter_wf, foldl_memPut_wf, h0, apply_ite State.mem, apply_ite MemSys.cells, apply_ite Memory.wf, ite_self, implies_true]; done)
  | succ n ih =>
    first
    | (simp (maxDischargeDepth := 60) only [State.drainQueue, State.setSession_cellsOk, State.emit_cellsOk, MemSys.heal_cells, memNil_wf, memPut_wf, memFilter_wf, foldl_memPut_wf, h0, apply_ite State.mem, apply_ite MemSys.cells, apply_ite Memory.wf, ite_self, implies_true, ih]; done)
    | (unfold State.drainQueue; (repeat' (first | with_reducible exact h0 | split)) <;> (simp (maxDischargeDepth := 60) only [State.setSession_cellsOk, State.emit_cellsOk, MemSys.heal_cells, memNil_wf, memPut_wf, memFilter_wf, foldl_memPut_wf, h0, apply_ite State.mem, apply_ite MemSys.cells, apply_ite Memory.wf, ite_self, implies_true, ih]; done))
    | (unfold State.drainQueue; (repeat' (first | with_reducible exact h0 | split)) <;> (try simp (maxDischargeDepth := 60) only [State.setSession_cellsOk, State.emit_cellsOk, MemSys.heal_cells, memNil_wf, memPut_wf, memFilter_wf, foldl_memPut_wf, h0, apply_ite State.mem, apply_ite MemSys.cells, apply_ite Memory.wf, ite_self, implies_true, ih]) <;> (repeat' (first | with_reducible exact h0 | split)) <;> (simp (maxDischargeDepth := 60) only [State.setSession_cellsOk, State.emit_cellsOk, MemSys.heal_cells, memNil_wf, memPut_wf, memFilter_wf, foldl_memPut_wf, h0, apply_ite State.mem, apply_ite MemSys.cells, apply_ite Memory.wf, ite_self, implies_true, ih]; done))
    | (unfold State.drainQueue; (repeat' (first | with_reducible exact h0 | split)) <;> (simp +contextual (maxDischargeDepth := 60) only [State.setSession_cellsOk, State.emit_cellsOk, MemSys.heal_cells, memNil_wf, memPut_wf, memFilter_wf, foldl_memPut_wf, h0, apply_ite State.mem, apply_ite MemSys.cells, apply_ite Memory.wf, ite_self, implies_true, ih]; done))

@[simp] theorem State.deliveredBy_cellsOk (s : State) (id ack : Nat) (h0 : Memory.wf s.mem.cells = true) :
    Memory.wf (State.deliveredBy s id ack).mem.cells = true := by
  simp +contextual (maxDischargeDepth := 60) only [State.deliveredBy, State.respond_cellsOk, State.freeCtx_cellsOk, foldl_cellsOk, MemSys.heal_cells, memNil_wf, memPut_wf, memFilter_wf, foldl_memPut_wf, h0, apply_ite State.mem, apply_ite MemSys.cells, apply_ite Memory.wf, ite_self, implies_true]

@[simp] theorem State.takeAck_cellsOk (s : State) (x : Session) (m : Msg) (h0 : Memory.wf s.mem.cells = true) :
    Memory.wf (State.takeAck s x m).mem.cells = true := by
  simp (maxDischargeDepth := 60) only [State.takeAck, State.setSession_cellsOk, State.resend_cellsOk, State.drainQueue_cellsOk, State.deliveredBy_cellsOk, MemSys.heal_cells, memNil_wf, memPut_wf, memFilter_wf, foldl_memPut_wf, h0, apply_ite State.mem, apply_ite MemSys.cells, apply_ite Memory.wf, ite_self, implies_true]

@[simp] theorem State.sendAck_cellsOk (s : State) (id : Nat) (h0 : Memory.wf s.mem.cells = true) :
    Memory.wf (State.sendAck s id).mem.cells = true := by
  simp (maxDischargeDepth := 60) only [State.sendAck, State.sendLoose_cellsOk, MemSys.heal_cells, memNil_wf, memPut_wf, memFilter_wf, foldl_memPut_wf, h0, apply_ite State.mem, apply_ite MemSys.cells, apply_ite Memory.wf, ite_self, implies_true]

@[simp] theorem State.owe_cellsOk (s : State) (id : Nat) (h0 : Memory.wf s.mem.cells = true) :
    Memory.wf (State.owe s id).mem.cells = true := by
  unfold State.owe
  simp (maxDischargeDepth := 60) only [State.setSession_cellsOk, State.sendAck_cellsOk, MemSys.heal_cells, memNil_wf, memPut_wf, memFilter_wf, foldl_memPut_wf, h0, apply_ite State.mem, apply_ite MemSys.cells, apply_ite Memory.wf, ite_self, implies_true]
  (repeat' (first | with_reducible exact h0 | split)) <;> simp (maxDischargeDepth := 60) only [State.setSession_cellsOk, State.sendAck_cellsOk, MemSys.heal_cells, memNil_wf, memPut_wf, memFilter_wf, foldl_memPut_wf, h0, apply_ite State.mem, apply_ite MemSys.cells, apply_ite Memory.wf, ite_self, implies_true]

@[simp] theorem State.accept_cellsOk (s : State) (d : Dgram) (x : Session) (m : Msg) (h0 : Memory.wf s.mem.cells = true) :
    Memory.wf (State.accept s d x m).mem.cells = true := by
  unfold State.accept
  simp (maxDischargeDepth := 60) only [State.bump_cellsOk, State.setSession_cellsOk, State.takeAck_cellsOk, MemSys.heal_cells, memNil_wf, memPut_wf, memFilter_wf, foldl_memPut_wf, h0, apply_ite State.mem, apply_ite MemSys.cells, apply_ite Memory.wf, ite_self, implies_true]
  (repeat' (first | with_reducible exact h0 | split)) <;> simp (maxDischargeDepth := 60) only [State.bump_cellsOk, State.setSession_cellsOk, State.takeAck_cellsOk, MemSys.heal_cells, memNil_wf, memPut_wf, memFilter_wf, foldl_memPut_wf, h0, apply_ite State.mem, apply_ite MemSys.cells, apply_ite Memory.wf, ite_self, implies_true]

@[simp] theorem State.courier_cellsOk (s : State) (d : Dgram) (type : Nat) (mine : Bytes → Bool) (handle : State → Session → Nat → Bytes → State) (h0 : Memory.wf s.mem.cells = true)
    (h : ∀ s x n b, Memory.wf s.mem.cells = true → Memory.wf (handle s x n b).mem.cells = true) :
    Memory.wf (s.courier d type mine handle).mem.cells = true := by
  unfold State.courier
  (repeat' (first | with_reducible exact h0 | split)) <;>
    (try simp (maxDischargeDepth := 60) only [State.bump_cellsOk, State.replyRaw_cellsOk, State.setSession_cellsOk, State.owe_cellsOk, State.reply_cellsOk, State.sendAck_cellsOk, h0]) <;>
    (repeat' split) <;>
    simp (maxDischargeDepth := 60) only [h, h0, State.bump_cellsOk, State.replyRaw_cellsOk, State.setSession_cellsOk, State.owe_cellsOk, State.reply_cellsOk, State.sendAck_cellsOk, State.accept_cellsOk]

/-! ### Saving -/

@[simp] theorem State.stopTasks_cellsOk (s : State) (x : Ctx) (h0 : Memory.wf s.mem.cells = true) :
    Memory.wf (State.stopTasks s x).mem.cells = true := by
  simp +contextual (maxDischargeDepth := 60) only [State.stopTasks, foldl_cellsOk, MemSys.heal_cells, memNil_wf, memPut_wf, memFilter_wf, foldl_memPut_wf, h0, apply_ite State.mem, apply_ite MemSys.cells, apply_ite Memory.wf, ite_self, implies_true]

/-! ### Office -/

@[simp] theorem State.refuseJob_cellsOk (s : State) (sess seq code : Nat) (h0 : Memory.wf s.mem.cells = true) :
    Memory.wf (State.refuseJob s sess seq code).mem.cells = true := by
  simp (maxDischargeDepth := 60) only [State.refuseJob, State.bump_cellsOk, State.reply_cellsOk, MemSys.heal_cells, memNil_wf, memPut_wf, memFilter_wf, foldl_memPut_wf, h0, apply_ite State.mem, apply_ite MemSys.cells, apply_ite Memory.wf, ite_self, implies_true]

@[simp] theorem State.startCtx_cellsOk (s : State) (c : Nat) (h0 : Memory.wf s.mem.cells = true) :
    Memory.wf (State.startCtx s c).mem.cells = true := by
  unfold State.startCtx
  (repeat' (first | with_reducible exact h0 | split)) <;> simp (maxDischargeDepth := 60) only [State.goLive_cellsOk, State.finishJob_cellsOk, MemSys.heal_cells, memNil_wf, memPut_wf, memFilter_wf, foldl_memPut_wf, h0, apply_ite State.mem, apply_ite MemSys.cells, apply_ite Memory.wf, ite_self, implies_true]

@[simp] theorem State.acceptCtx_cellsOk (s : State) (sess seq : Nat) (x : Ctx) (h0 : Memory.wf s.mem.cells = true) :
    Memory.wf (State.acceptCtx s sess seq x).mem.cells = true := by
  simp (maxDischargeDepth := 60) only [State.acceptCtx, State.bump_cellsOk, State.reply_cellsOk, State.enter_cellsOk, MemSys.heal_cells, memNil_wf, memPut_wf, memFilter_wf, foldl_memPut_wf, h0, apply_ite State.mem, apply_ite MemSys.cells, apply_ite Memory.wf, ite_self, implies_true]

@[simp] theorem State.submitJob_cellsOk (s : State) (sess client seq : Nat) (body : Bytes) (h0 : Memory.wf s.mem.cells = true) :
    Memory.wf (State.submitJob s sess client seq body).mem.cells = true := by
  simp (maxDischargeDepth := 60) only [State.submitJob, State.journal_cellsOk, State.refuseJob_cellsOk, State.startCtx_cellsOk, State.acceptCtx_cellsOk, MemSys.heal_cells, memNil_wf, memPut_wf, memFilter_wf, foldl_memPut_wf, h0, apply_ite State.mem, apply_ite MemSys.cells, apply_ite Memory.wf, ite_self, implies_true]

@[simp] theorem State.grantSlot_cellsOk (s : State) (h0 : Memory.wf s.mem.cells = true) :
    Memory.wf (State.grantSlot s).mem.cells = true := by
  unfold State.grantSlot
  (repeat' (first | with_reducible exact h0 | split)) <;> simp +contextual (maxDischargeDepth := 60) only [State.startCtx_cellsOk, foldl_cellsOk, MemSys.heal_cells, memNil_wf, memPut_wf, memFilter_wf, foldl_memPut_wf, h0, apply_ite State.mem, apply_ite MemSys.cells, apply_ite Memory.wf, ite_self, implies_true]

@[simp] theorem State.saveDone_cellsOk (s : State) (c : Nat) (h0 : Memory.wf s.mem.cells = true) :
    Memory.wf (State.saveDone s c).mem.cells = true := by
  unfold State.saveDone
  (repeat' (first | with_reducible exact h0 | split)) <;> simp (maxDischargeDepth := 60) only [State.bump_cellsOk, State.drew_cellsOk, State.writeBytes_cellsOk, State.poisonUnits_cellsOk, State.post_cellsOk, State.setCtx_cellsOk, State.enter_cellsOk, State.dropSlot_cellsOk, State.serveTasks_cellsOk, State.stopTasks_cellsOk, MemSys.heal_cells, memNil_wf, memPut_wf, memFilter_wf, foldl_memPut_wf, h0, apply_ite State.mem, apply_ite MemSys.cells, apply_ite Memory.wf, ite_self, implies_true]

@[simp] theorem State.endAll_cellsOk (s : State) (c code : Nat) (copies : Bool) (h0 : Memory.wf s.mem.cells = true) :
    Memory.wf (State.endAll s c code copies).mem.cells = true := by
  unfold State.endAll
  (repeat' (first | with_reducible exact h0 | split)) <;> simp +contextual (maxDischargeDepth := 60) only [State.settle_cellsOk, State.scramble_cellsOk, foldl_cellsOk, MemSys.heal_cells, memNil_wf, memPut_wf, memFilter_wf, foldl_memPut_wf, h0, apply_ite State.mem, apply_ite MemSys.cells, apply_ite Memory.wf, ite_self, implies_true]

@[simp] theorem State.errorStreams_cellsOk (s : State) (c : Nat) (h0 : Memory.wf s.mem.cells = true) :
    Memory.wf (State.errorStreams s c).mem.cells = true := by
  exact h0

@[simp] theorem State.abortCtx_cellsOk (s : State) (c code : Nat) (own : Bool) (h0 : Memory.wf s.mem.cells = true) :
    Memory.wf (State.abortCtx s c code own).mem.cells = true := by
  unfold State.abortCtx
  (repeat' (first | with_reducible exact h0 | split)) <;> simp (maxDischargeDepth := 60) only [State.bump_cellsOk, State.post_cellsOk, State.log_cellsOk, State.raise_cellsOk, State.dropReqs_cellsOk, State.setCtx_cellsOk, State.dropSave_cellsOk, State.runTriggers_cellsOk, State.dropWork_cellsOk, State.endJob_cellsOk, State.serveTasks_cellsOk, State.endAll_cellsOk, State.errorStreams_cellsOk, MemSys.heal_cells, memNil_wf, memPut_wf, memFilter_wf, foldl_memPut_wf, h0, apply_ite State.mem, apply_ite MemSys.cells, apply_ite Memory.wf, ite_self, implies_true]

@[simp] theorem State.redealAll_cellsOk (s : State) (x : Ctx) (recs : List Loaded) (f : InFlight) (h0 : Memory.wf s.mem.cells = true) :
    Memory.wf (State.redealAll s x recs f).mem.cells = true := by
  unfold State.redealAll
  (repeat' (first | with_reducible exact h0 | split)) <;> simp (maxDischargeDepth := 60) only [State.setGrid_cellsOk, State.deal_cellsOk, MemSys.heal_cells, memNil_wf, memPut_wf, memFilter_wf, foldl_memPut_wf, h0, apply_ite State.mem, apply_ite MemSys.cells, apply_ite Memory.wf, ite_self, implies_true]

@[simp] theorem State.takeArea_cellsOk (s : State) (c : Nat) (area : Bytes) (h0 : Memory.wf s.mem.cells = true) :
    Memory.wf (State.takeArea s c area).mem.cells = true := by
  simp (maxDischargeDepth := 60) only [State.takeArea, MemSys.heal_cells, memNil_wf, memPut_wf, memFilter_wf, foldl_memPut_wf, h0, apply_ite State.mem, apply_ite MemSys.cells, apply_ite Memory.wf, ite_self, implies_true]

@[simp] theorem State.restoreCtx_cellsOk (s : State) (c : Nat) (h0 : Memory.wf s.mem.cells = true) :
    Memory.wf (State.restoreCtx s c).mem.cells = true := by
  unfold State.restoreCtx
  (repeat' (first | with_reducible exact h0 | split)) <;> simp +contextual (maxDischargeDepth := 60) only [State.bump_cellsOk, State.post_cellsOk, State.setCtx_cellsOk, State.setQueue_cellsOk, State.setJob_cellsOk, State.setFlight_cellsOk, State.readRuns_cellsOk, State.enter_cellsOk, State.dropSlot_cellsOk, State.dropSave_cellsOk, State.runTriggers_cellsOk, State.finishJob_cellsOk, State.serveTasks_cellsOk, State.sawPoison_cellsOk, State.askHistory_cellsOk, State.resumeRun_cellsOk, State.failDry_cellsOk, State.abortCtx_cellsOk, State.redealAll_cellsOk, State.takeArea_cellsOk, foldl_cellsOk, MemSys.heal_cells, memNil_wf, memPut_wf, memFilter_wf, foldl_memPut_wf, h0, apply_ite State.mem, apply_ite MemSys.cells, apply_ite Memory.wf, ite_self, implies_true]

@[simp] theorem State.suspendReq_cellsOk (s : State) (c : Nat) (h0 : Memory.wf s.mem.cells = true) :
    Memory.wf (State.suspendReq s c).1.mem.cells = true := by
  unfold State.suspendReq
  (repeat' (first | with_reducible exact h0 | split)) <;> simp (maxDischargeDepth := 60) only [State.setCtx_cellsOk, State.suspendStart_cellsOk, MemSys.heal_cells, memNil_wf, memPut_wf, memFilter_wf, foldl_memPut_wf, h0, apply_ite State.mem, apply_ite MemSys.cells, apply_ite Memory.wf, ite_self, implies_true]

@[simp] theorem State.resumeReq_cellsOk (s : State) (c : Nat) (h0 : Memory.wf s.mem.cells = true) :
    Memory.wf (State.resumeReq s c).1.mem.cells = true := by
  unfold State.resumeReq
  (repeat' (first | with_reducible exact h0 | split)) <;> simp (maxDischargeDepth := 60) only [State.setCtx_cellsOk, MemSys.heal_cells, memNil_wf, memPut_wf, memFilter_wf, foldl_memPut_wf, h0, apply_ite State.mem, apply_ite MemSys.cells, apply_ite Memory.wf, ite_self, implies_true]

@[simp] theorem State.suspendPart_cellsOk (s : State) (p : Nat) (h0 : Memory.wf s.mem.cells = true) :
    Memory.wf (State.suspendPart s p).1.mem.cells = true := by
  unfold State.suspendPart
  (repeat' (first | with_reducible exact h0 | split)) <;> (try simp +contextual (maxDischargeDepth := 60) only [State.suspendStart_cellsOk, State.suspendReq_cellsOk, foldl_cellsOk, MemSys.heal_cells, memNil_wf, memPut_wf, memFilter_wf, foldl_memPut_wf, h0, apply_ite State.mem, apply_ite MemSys.cells, apply_ite Memory.wf, ite_self, implies_true]) <;> (repeat' (first | with_reducible exact h0 | split)) <;> (try simp +contextual (maxDischargeDepth := 60) only [State.suspendStart_cellsOk, State.suspendReq_cellsOk, foldl_cellsOk, MemSys.heal_cells, memNil_wf, memPut_wf, memFilter_wf, foldl_memPut_wf, h0, apply_ite State.mem, apply_ite MemSys.cells, apply_ite Memory.wf, ite_self, implies_true]) <;> (repeat' (first | with_reducible exact h0 | split)) <;> simp +contextual (maxDischargeDepth := 60) only [State.suspendStart_cellsOk, State.suspendReq_cellsOk, foldl_cellsOk, MemSys.heal_cells, memNil_wf, memPut_wf, memFilter_wf, foldl_memPut_wf, h0, apply_ite State.mem, apply_ite MemSys.cells, apply_ite Memory.wf, ite_self, implies_true]

@[simp] theorem State.importCtx_cellsOk (s : State) (sess client seq : Nat) (body : Bytes) (h0 : Memory.wf s.mem.cells = true) :
    Memory.wf (State.importCtx s sess client seq body).mem.cells = true := by
  simp (maxDischargeDepth := 60) only [State.importCtx, State.bump_cellsOk, State.writeBytes_cellsOk, State.readRuns_cellsOk, State.refuseJob_cellsOk, State.acceptCtx_cellsOk, MemSys.heal_cells, memNil_wf, memPut_wf, memFilter_wf, foldl_memPut_wf, h0, apply_ite State.mem, apply_ite MemSys.cells, apply_ite Memory.wf, ite_self, implies_true]

@[simp] theorem applyQuota_cellsOk (s : State) (h0 : Memory.wf s.mem.cells = true) :
    Memory.wf (applyQuota s).1.mem.cells = true := by
  unfold applyQuota
  simp (maxDischargeDepth := 60) only [State.journal_cellsOk, State.keep_cellsOk, MemSys.heal_cells, memNil_wf, memPut_wf, memFilter_wf, foldl_memPut_wf, h0, apply_ite State.mem, apply_ite MemSys.cells, apply_ite Memory.wf, ite_self, implies_true]
  (repeat' (first | with_reducible exact h0 | split)) <;> simp (maxDischargeDepth := 60) only [State.journal_cellsOk, State.keep_cellsOk, MemSys.heal_cells, memNil_wf, memPut_wf, memFilter_wf, foldl_memPut_wf, h0, apply_ite State.mem, apply_ite MemSys.cells, apply_ite Memory.wf, ite_self, implies_true]

/-! ### Courier -/

@[simp] theorem State.openFor_cellsOk (s : State) (d : Dgram) (m : Msg) (h0 : Memory.wf s.mem.cells = true) :
    Memory.wf (State.openFor s d m).mem.cells = true := by
  unfold State.openFor
  simp (maxDischargeDepth := 60) only [State.bump_cellsOk, State.replyRaw_cellsOk, MemSys.heal_cells, memNil_wf, memPut_wf, memFilter_wf, foldl_memPut_wf, h0, apply_ite State.mem, apply_ite MemSys.cells, apply_ite Memory.wf, ite_self, implies_true]
  (repeat' (first | with_reducible exact h0 | split)) <;> simp (maxDischargeDepth := 60) only [State.bump_cellsOk, State.replyRaw_cellsOk, MemSys.heal_cells, memNil_wf, memPut_wf, memFilter_wf, foldl_memPut_wf, h0, apply_ite State.mem, apply_ite MemSys.cells, apply_ite Memory.wf, ite_self, implies_true]

@[simp] theorem State.sendData_cellsOk (s : State) (sess seq : Nat) (v0 : Nat) (v1 : List Bytes) (h0 : Memory.wf s.mem.cells = true) :
    Memory.wf (State.sendData s sess seq v0 v1).mem.cells = true := by
  induction v1 generalizing s sess seq v0 with
  | nil =>
    first
    | exact h0
    | (simp (maxDischargeDepth := 60) only [State.sendData, State.sendMsg_cellsOk, MemSys.heal_cells, memNil_wf, memPut_wf, memFilter_wf, foldl_memPut_wf, h0, apply_ite State.mem, apply_ite MemSys.cells, apply_ite Memory.wf, ite_self, implies_true]; done)
  | cons b l ih =>
    first
    | (simp (maxDischargeDepth := 60) only [State.sendData, State.sendMsg_cellsOk, MemSys.heal_cells, memNil_wf, memPut_wf, memFilter_wf, foldl_memPut_wf, h0, apply_ite State.mem, apply_ite MemSys.cells, apply_ite Memory.wf, ite_self, implies_true, ih]; done)
    | (unfold State.sendData; (repeat' (first | with_reducible exact h0 | split)) <;> (simp (maxDischargeDepth := 60) only [State.sendMsg_cellsOk, MemSys.heal_cells, memNil_wf, memPut_wf, memFilter_wf, foldl_memPut_wf, h0, apply_ite State.mem, apply_ite MemSys.cells, apply_ite Memory.wf, ite_self, implies_true, ih]; done))
    | (unfold State.sendData; (repeat' (first | with_reducible exact h0 | split)) <;> (try simp (maxDischargeDepth := 60) only [State.sendMsg_cellsOk, MemSys.heal_cells, memNil_wf, memPut_wf, memFilter_wf, foldl_memPut_wf, h0, apply_ite State.mem, apply_ite MemSys.cells, apply_ite Memory.wf, ite_self, implies_true, ih]) <;> (repeat' (first | with_reducible exact h0 | split)) <;> (simp (maxDischargeDepth := 60) only [State.sendMsg_cellsOk, MemSys.heal_cells, memNil_wf, memPut_wf, memFilter_wf, foldl_memPut_wf, h0, apply_ite State.mem, apply_ite MemSys.cells, apply_ite Memory.wf, ite_self, implies_true, ih]; done))
    | (unfold State.sendData; (repeat' (first | with_reducible exact h0 | split)) <;> (simp +contextual (maxDischargeDepth := 60) only [State.sendMsg_cellsOk, MemSys.heal_cells, memNil_wf, memPut_wf, memFilter_wf, foldl_memPut_wf, h0, apply_ite State.mem, apply_ite MemSys.cells, apply_ite Memory.wf, ite_self, implies_true, ih]; done))

@[simp] theorem State.readFor_cellsOk (s : State) (sess seq a n : Nat) (h0 : Memory.wf s.mem.cells = true) :
    Memory.wf (State.readFor s sess seq a n).mem.cells = true := by
  simp (maxDischargeDepth := 60) only [State.readFor, State.readRuns_cellsOk, State.reply_cellsOk, State.sawPoison_cellsOk, State.sendData_cellsOk, MemSys.heal_cells, memNil_wf, memPut_wf, memFilter_wf, foldl_memPut_wf, h0, apply_ite State.mem, apply_ite MemSys.cells, apply_ite Memory.wf, ite_self, implies_true]

@[simp] theorem State.control_cellsOk (s : State) (d : Dgram) (k : Nat) (f : State → Ctx → Nat → Controlled) (h0 : Memory.wf s.mem.cells = true)
    (h : ∀ s x n, Memory.wf s.mem.cells = true → Memory.wf (f s x n).1.mem.cells = true) :
    Memory.wf (s.control d k f).mem.cells = true := by
  unfold State.control
  apply State.courier_cellsOk _ _ _ _ _ h0
  intro s x n b h1
  (repeat' (first | with_reducible exact h1 | split)) <;> simp (maxDischargeDepth := 60) only [State.reply_cellsOk, h, h1]

@[simp] theorem controlled_cellsOk (r : Applied) (h0 : Memory.wf r.1.mem.cells = true) :
    Memory.wf (controlled r).1.mem.cells = true := by
  exact h0

@[simp] theorem State.exportReq_cellsOk (s : State) (c : Ctx) (h0 : Memory.wf s.mem.cells = true) :
    Memory.wf (State.exportReq s c).1.mem.cells = true := by
  unfold State.exportReq
  (repeat' (first | with_reducible exact h0 | split)) <;> simp (maxDischargeDepth := 60) only [State.setCtx_cellsOk, State.dropSlot_cellsOk, MemSys.heal_cells, memNil_wf, memPut_wf, memFilter_wf, foldl_memPut_wf, h0, apply_ite State.mem, apply_ite MemSys.cells, apply_ite Memory.wf, ite_self, implies_true]

@[simp] theorem State.rebind_cellsOk (s : State) (sess : Nat) (c : Ctx) (v : Nat) (h0 : Memory.wf s.mem.cells = true) :
    Memory.wf (State.rebind s sess c v).mem.cells = true := by
  unfold State.rebind
  simp (maxDischargeDepth := 60) only [State.setJob_cellsOk, State.deliver_cellsOk, MemSys.heal_cells, memNil_wf, memPut_wf, memFilter_wf, foldl_memPut_wf, h0, apply_ite State.mem, apply_ite MemSys.cells, apply_ite Memory.wf, ite_self, implies_true]
  (repeat' (first | with_reducible exact h0 | split)) <;> simp (maxDischargeDepth := 60) only [State.setJob_cellsOk, State.deliver_cellsOk, MemSys.heal_cells, memNil_wf, memPut_wf, memFilter_wf, foldl_memPut_wf, h0, apply_ite State.mem, apply_ite MemSys.cells, apply_ite Memory.wf, ite_self, implies_true]

@[simp] theorem State.putRaw_cellsOk (s : State) (port dest : Nat) (b : Bytes) (h0 : Memory.wf s.mem.cells = true) :
    Memory.wf (State.putRaw s port dest b).mem.cells = true := by
  exact h0

/-! ### Fabric -/

@[simp] theorem State.wire_cellsOk (s : State) (port : Nat) (f : Flit) (h0 : Memory.wf s.mem.cells = true) :
    Memory.wf (State.wire s port f).mem.cells = true := by
  exact h0

@[simp] theorem State.sendFlit_cellsOk (s : State) (port : Nat) (f : Flit) (h0 : Memory.wf s.mem.cells = true) :
    Memory.wf (State.sendFlit s port f).mem.cells = true := by
  simp (maxDischargeDepth := 60) only [State.sendFlit, State.setPort_cellsOk, State.wire_cellsOk, MemSys.heal_cells, memNil_wf, memPut_wf, memFilter_wf, foldl_memPut_wf, h0, apply_ite State.mem, apply_ite MemSys.cells, apply_ite Memory.wf, ite_self, implies_true]

@[simp] theorem State.transmit_cellsOk (s : State) (port : Nat) (h0 : Memory.wf s.mem.cells = true) :
    Memory.wf (State.transmit s port).mem.cells = true := by
  unfold State.transmit
  simp (maxDischargeDepth := 60) only [State.bump_cellsOk, State.setPort_cellsOk, State.freePlace_cellsOk, State.sendFlit_cellsOk, MemSys.heal_cells, memNil_wf, memPut_wf, memFilter_wf, foldl_memPut_wf, h0, apply_ite State.mem, apply_ite MemSys.cells, apply_ite Memory.wf, ite_self, implies_true]
  (repeat' (first | with_reducible exact h0 | split)) <;> simp (maxDischargeDepth := 60) only [State.bump_cellsOk, State.setPort_cellsOk, State.freePlace_cellsOk, State.sendFlit_cellsOk, MemSys.heal_cells, memNil_wf, memPut_wf, memFilter_wf, foldl_memPut_wf, h0, apply_ite State.mem, apply_ite MemSys.cells, apply_ite Memory.wf, ite_self, implies_true]

@[simp] theorem State.takeAckSeq_cellsOk (s : State) (port a : Nat) (h0 : Memory.wf s.mem.cells = true) :
    Memory.wf (State.takeAckSeq s port a).mem.cells = true := by
  simp (maxDischargeDepth := 60) only [State.takeAckSeq, State.setPort_cellsOk, MemSys.heal_cells, memNil_wf, memPut_wf, memFilter_wf, foldl_memPut_wf, h0, apply_ite State.mem, apply_ite MemSys.cells, apply_ite Memory.wf, ite_self, implies_true]

@[simp] theorem State.portFall_cellsOk (s : State) (port : Nat) (h0 : Memory.wf s.mem.cells = true) :
    Memory.wf (State.portFall s port).mem.cells = true := by
  simp (maxDischargeDepth := 60) only [State.portFall, State.bump_cellsOk, State.watch_cellsOk, State.setPort_cellsOk, MemSys.heal_cells, memNil_wf, memPut_wf, memFilter_wf, foldl_memPut_wf, h0, apply_ite State.mem, apply_ite MemSys.cells, apply_ite Memory.wf, ite_self, implies_true]

@[simp] theorem State.replayPort_cellsOk (s : State) (port : Nat) (h0 : Memory.wf s.mem.cells = true) :
    Memory.wf (State.replayPort s port).mem.cells = true := by
  simp +contextual (maxDischargeDepth := 60) only [State.replayPort, State.bump_cellsOk, State.setPort_cellsOk, State.sendFlit_cellsOk, State.portFall_cellsOk, foldl_cellsOk, MemSys.heal_cells, memNil_wf, memPut_wf, memFilter_wf, foldl_memPut_wf, h0, apply_ite State.mem, apply_ite MemSys.cells, apply_ite Memory.wf, ite_self, implies_true]

@[simp] theorem State.oweNak_cellsOk (s : State) (port : Nat) (h0 : Memory.wf s.mem.cells = true) :
    Memory.wf (State.oweNak s port).mem.cells = true := by
  simp (maxDischargeDepth := 60) only [State.oweNak, State.setPort_cellsOk, MemSys.heal_cells, memNil_wf, memPut_wf, memFilter_wf, foldl_memPut_wf, h0, apply_ite State.mem, apply_ite MemSys.cells, apply_ite Memory.wf, ite_self, implies_true]

@[simp] theorem State.oweCredit_cellsOk (s : State) (port : Nat) (f : Flit) (h0 : Memory.wf s.mem.cells = true) :
    Memory.wf (State.oweCredit s port f).mem.cells = true := by
  simp (maxDischargeDepth := 60) only [State.oweCredit, State.setPort_cellsOk, MemSys.heal_cells, memNil_wf, memPut_wf, memFilter_wf, foldl_memPut_wf, h0, apply_ite State.mem, apply_ite MemSys.cells, apply_ite Memory.wf, ite_self, implies_true]

@[simp] theorem State.takeFlit_cellsOk (s : State) (port : Nat) (f : Flit) (h0 : Memory.wf s.mem.cells = true) :
    Memory.wf (State.takeFlit s port f).mem.cells = true := by
  simp (maxDischargeDepth := 60) only [State.takeFlit, State.bump_cellsOk, State.setPort_cellsOk, State.refuse_cellsOk, State.oweCredit_cellsOk, MemSys.heal_cells, memNil_wf, memPut_wf, memFilter_wf, foldl_memPut_wf, h0, apply_ite State.mem, apply_ite MemSys.cells, apply_ite Memory.wf, ite_self, implies_true]

@[simp] theorem State.acceptFlit_cellsOk (s : State) (port : Nat) (f : Flit) (h0 : Memory.wf s.mem.cells = true) :
    Memory.wf (State.acceptFlit s port f).mem.cells = true := by
  simp (maxDischargeDepth := 60) only [State.acceptFlit, State.setPort_cellsOk, State.routeFlit_cellsOk, State.takeFlit_cellsOk, MemSys.heal_cells, memNil_wf, memPut_wf, memFilter_wf, foldl_memPut_wf, h0, apply_ite State.mem, apply_ite MemSys.cells, apply_ite Memory.wf, ite_self, implies_true]

@[simp] theorem State.gotControl_cellsOk (s : State) (port : Nat) (payload : Bytes) (h0 : Memory.wf s.mem.cells = true) :
    Memory.wf (State.gotControl s port payload).mem.cells = true := by
  simp (maxDischargeDepth := 60) only [State.gotControl, State.watch_cellsOk, State.setPort_cellsOk, State.portFall_cellsOk, MemSys.heal_cells, memNil_wf, memPut_wf, memFilter_wf, foldl_memPut_wf, h0, apply_ite State.mem, apply_ite MemSys.cells, apply_ite Memory.wf, ite_self, implies_true]

@[simp] theorem State.gotFlit_cellsOk (s : State) (port : Nat) (f : Flit) (h0 : Memory.wf s.mem.cells = true) :
    Memory.wf (State.gotFlit s port f).mem.cells = true := by
  simp (maxDischargeDepth := 60) only [State.gotFlit, State.setPort_cellsOk, State.takeAckSeq_cellsOk, State.replayPort_cellsOk, State.oweNak_cellsOk, State.acceptFlit_cellsOk, State.gotControl_cellsOk, MemSys.heal_cells, memNil_wf, memPut_wf, memFilter_wf, foldl_memPut_wf, h0, apply_ite State.mem, apply_ite MemSys.cells, apply_ite Memory.wf, ite_self, implies_true]

@[simp] theorem State.checkPort_cellsOk (s : State) (port : Nat) (h0 : Memory.wf s.mem.cells = true) :
    Memory.wf (State.checkPort s port).mem.cells = true := by
  simp +contextual (maxDischargeDepth := 60) only [State.checkPort, State.bump_cellsOk, State.watch_cellsOk, State.setPort_cellsOk, State.rerouteHeld_cellsOk, State.sendFlit_cellsOk, foldl_cellsOk, MemSys.heal_cells, memNil_wf, memPut_wf, memFilter_wf, foldl_memPut_wf, h0, apply_ite State.mem, apply_ite MemSys.cells, apply_ite Memory.wf, ite_self, implies_true]

@[simp] theorem State.recheckPorts_cellsOk (s : State) (h0 : Memory.wf s.mem.cells = true) :
    Memory.wf (State.recheckPorts s).mem.cells = true := by
  simp +contextual (maxDischargeDepth := 60) only [State.recheckPorts, State.checkPort_cellsOk, foldl_cellsOk, MemSys.heal_cells, memNil_wf, memPut_wf, memFilter_wf, foldl_memPut_wf, h0, apply_ite State.mem, apply_ite MemSys.cells, apply_ite Memory.wf, ite_self, implies_true]

@[simp] theorem State.fenceLane_cellsOk (s : State) (port lane : Nat) (h0 : Memory.wf s.mem.cells = true) :
    Memory.wf (State.fenceLane s port lane).mem.cells = true := by
  simp (maxDischargeDepth := 60) only [State.fenceLane, State.putFence_cellsOk, MemSys.heal_cells, memNil_wf, memPut_wf, memFilter_wf, foldl_memPut_wf, h0, apply_ite State.mem, apply_ite MemSys.cells, apply_ite Memory.wf, ite_self, implies_true]

@[simp] theorem State.removeLane_cellsOk (s : State) (port lane : Nat) (h0 : Memory.wf s.mem.cells = true) :
    Memory.wf (State.removeLane s port lane).mem.cells = true := by
  simp (maxDischargeDepth := 60) only [State.removeLane, State.bump_cellsOk, State.post_cellsOk, State.setPort_cellsOk, State.fenceLane_cellsOk, MemSys.heal_cells, memNil_wf, memPut_wf, memFilter_wf, foldl_memPut_wf, h0, apply_ite State.mem, apply_ite MemSys.cells, apply_ite Memory.wf, ite_self, implies_true]

@[simp] theorem State.reWidth_cellsOk (s : State) (port mask : Nat) (h0 : Memory.wf s.mem.cells = true) :
    Memory.wf (State.reWidth s port mask).mem.cells = true := by
  simp +contextual (maxDischargeDepth := 60) only [State.reWidth, State.bump_cellsOk, State.watch_cellsOk, State.setPort_cellsOk, State.sendFlit_cellsOk, State.portFall_cellsOk, foldl_cellsOk, MemSys.heal_cells, memNil_wf, memPut_wf, memFilter_wf, foldl_memPut_wf, h0, apply_ite State.mem, apply_ite MemSys.cells, apply_ite Memory.wf, ite_self, implies_true]

@[simp] theorem State.startLane_cellsOk (s : State) (port lane : Nat) (h0 : Memory.wf s.mem.cells = true) :
    Memory.wf (State.startLane s port lane).mem.cells = true := by
  simp (maxDischargeDepth := 60) only [State.startLane, State.watch_cellsOk, State.setPort_cellsOk, MemSys.heal_cells, memNil_wf, memPut_wf, memFilter_wf, foldl_memPut_wf, h0, apply_ite State.mem, apply_ite MemSys.cells, apply_ite Memory.wf, ite_self, implies_true]

@[simp] theorem State.dueLane_cellsOk (s : State) (port lane : Nat) (h0 : Memory.wf s.mem.cells = true) :
    Memory.wf (State.dueLane s port lane).mem.cells = true := by
  simp (maxDischargeDepth := 60) only [State.dueLane, State.setPort_cellsOk, State.startLane_cellsOk, MemSys.heal_cells, memNil_wf, memPut_wf, memFilter_wf, foldl_memPut_wf, h0, apply_ite State.mem, apply_ite MemSys.cells, apply_ite Memory.wf, ite_self, implies_true]

@[simp] theorem State.nextLane_cellsOk (s : State) (h0 : Memory.wf s.mem.cells = true) :
    Memory.wf (State.nextLane s).mem.cells = true := by
  unfold State.nextLane
  (repeat' (first | with_reducible exact h0 | split)) <;> simp (maxDischargeDepth := 60) only [State.startLane_cellsOk, MemSys.heal_cells, memNil_wf, memPut_wf, memFilter_wf, foldl_memPut_wf, h0, apply_ite State.mem, apply_ite MemSys.cells, apply_ite Memory.wf, ite_self, implies_true]

@[simp] theorem State.lostFlit_cellsOk (s : State) (f : Flit) (h0 : Memory.wf s.mem.cells = true) :
    Memory.wf (State.lostFlit s f).mem.cells = true := by
  unfold State.lostFlit
  (repeat' (first | with_reducible exact h0 | split)) <;> simp (maxDischargeDepth := 60) only [State.historyArrival_cellsOk, State.failReq_cellsOk, MemSys.heal_cells, memNil_wf, memPut_wf, memFilter_wf, foldl_memPut_wf, h0, apply_ite State.mem, apply_ite MemSys.cells, apply_ite Memory.wf, ite_self, implies_true]

@[simp] theorem State.discard_cellsOk (s : State) (l : List Flit) (h0 : Memory.wf s.mem.cells = true) :
    Memory.wf (State.discard s l).mem.cells = true := by
  simp +contextual (maxDischargeDepth := 60) only [State.discard, State.bump_cellsOk, State.freePlace_cellsOk, State.lostFlit_cellsOk, foldl_cellsOk, MemSys.heal_cells, memNil_wf, memPut_wf, memFilter_wf, foldl_memPut_wf, h0, apply_ite State.mem, apply_ite MemSys.cells, apply_ite Memory.wf, ite_self, implies_true]

@[simp] theorem State.lostFlits_cellsOk (s : State) (l : List Flit) (h0 : Memory.wf s.mem.cells = true) :
    Memory.wf (State.lostFlits s l).mem.cells = true := by
  simp +contextual (maxDischargeDepth := 60) only [State.lostFlits, State.lostFlit_cellsOk, foldl_cellsOk, MemSys.heal_cells, memNil_wf, memPut_wf, memFilter_wf, foldl_memPut_wf, h0, apply_ite State.mem, apply_ite MemSys.cells, apply_ite Memory.wf, ite_self, implies_true]

@[simp] theorem State.resetRouter_cellsOk (s : State) (h0 : Memory.wf s.mem.cells = true) :
    Memory.wf (State.resetRouter s).mem.cells = true := by
  simp (maxDischargeDepth := 60) only [State.resetRouter, State.watch_cellsOk, State.lostFlits_cellsOk, MemSys.heal_cells, memNil_wf, memPut_wf, memFilter_wf, foldl_memPut_wf, h0, apply_ite State.mem, apply_ite MemSys.cells, apply_ite Memory.wf, ite_self, implies_true]

@[simp] theorem State.clearLanes_cellsOk (s : State) (port : Nat) (h0 : Memory.wf s.mem.cells = true) :
    Memory.wf (State.clearLanes s port).mem.cells = true := by
  unfold State.clearLanes
  (try split)
  all_goals (try dsimp only)
  all_goals (first | with_reducible exact h0 | (apply foldl_cellsOk))
  all_goals (try intro a b h1)
  all_goals (repeat' (first | with_reducible exact h0 | split)) <;> simp (maxDischargeDepth := 60) only [State.dropFence_cellsOk, foldl_cellsOk, MemSys.heal_cells, memNil_wf, memPut_wf, memFilter_wf, foldl_memPut_wf, h0, apply_ite State.mem, apply_ite MemSys.cells, apply_ite Memory.wf, ite_self, implies_true, *]

@[simp] theorem State.meetSeq_cellsOk (s : State) (port n : Nat) (h0 : Memory.wf s.mem.cells = true) :
    Memory.wf (State.meetSeq s port n).mem.cells = true := by
  simp (maxDischargeDepth := 60) only [State.meetSeq, State.setPort_cellsOk, MemSys.heal_cells, memNil_wf, memPut_wf, memFilter_wf, foldl_memPut_wf, h0, apply_ite State.mem, apply_ite MemSys.cells, apply_ite Memory.wf, ite_self, implies_true]

@[simp] theorem State.laneLost_cellsOk (s : State) (port lane : Nat) (h0 : Memory.wf s.mem.cells = true) :
    Memory.wf (State.laneLost s port lane).mem.cells = true := by
  simp (maxDischargeDepth := 60) only [State.laneLost, State.portFall_cellsOk, State.removeLane_cellsOk, State.reWidth_cellsOk, MemSys.heal_cells, memNil_wf, memPut_wf, memFilter_wf, foldl_memPut_wf, h0, apply_ite State.mem, apply_ite MemSys.cells, apply_ite Memory.wf, ite_self, implies_true]

@[simp] theorem applyLaneRetrain_cellsOk (value : Nat) (s : State) (h0 : Memory.wf s.mem.cells = true) :
    Memory.wf (applyLaneRetrain value s).1.mem.cells = true := by
  unfold applyLaneRetrain
  (repeat' (first | with_reducible exact h0 | split)) <;> simp (maxDischargeDepth := 60) only [State.dueLane_cellsOk, MemSys.heal_cells, memNil_wf, memPut_wf, memFilter_wf, foldl_memPut_wf, h0, apply_ite State.mem, apply_ite MemSys.cells, apply_ite Memory.wf, ite_self, implies_true]

@[simp] theorem applyNode_cellsOk (s : State) (h0 : Memory.wf s.mem.cells = true) :
    Memory.wf (applyNode s).1.mem.cells = true := by
  unfold applyNode
  simp (maxDischargeDepth := 60) only [State.watch_cellsOk, State.keep_cellsOk, State.recheckPorts_cellsOk, State.nextLane_cellsOk, MemSys.heal_cells, memNil_wf, memPut_wf, memFilter_wf, foldl_memPut_wf, h0, apply_ite State.mem, apply_ite MemSys.cells, apply_ite Memory.wf, ite_self, implies_true]
  (repeat' (first | with_reducible exact h0 | split)) <;> simp (maxDischargeDepth := 60) only [State.watch_cellsOk, State.keep_cellsOk, State.recheckPorts_cellsOk, State.nextLane_cellsOk, MemSys.heal_cells, memNil_wf, memPut_wf, memFilter_wf, foldl_memPut_wf, h0, apply_ite State.mem, apply_ite MemSys.cells, apply_ite Memory.wf, ite_self, implies_true]

@[simp] theorem applyRoute_cellsOk (s : State) (h0 : Memory.wf s.mem.cells = true) :
    Memory.wf (applyRoute s).1.mem.cells = true := by
  unfold applyRoute
  simp (maxDischargeDepth := 60) only [State.dset_cellsOk, State.rerouteHeld_cellsOk, MemSys.heal_cells, memNil_wf, memPut_wf, memFilter_wf, foldl_memPut_wf, h0, apply_ite State.mem, apply_ite MemSys.cells, apply_ite Memory.wf, ite_self, implies_true]
  (repeat' (first | with_reducible exact h0 | split)) <;> simp (maxDischargeDepth := 60) only [State.dset_cellsOk, State.rerouteHeld_cellsOk, MemSys.heal_cells, memNil_wf, memPut_wf, memFilter_wf, foldl_memPut_wf, h0, apply_ite State.mem, apply_ite MemSys.cells, apply_ite Memory.wf, ite_self, implies_true]

@[simp] theorem applyRouteDefaults_cellsOk (s : State) (h0 : Memory.wf s.mem.cells = true) :
    Memory.wf (applyRouteDefaults s).1.mem.cells = true := by
  simp (maxDischargeDepth := 60) only [applyRouteDefaults, State.rerouteHeld_cellsOk, MemSys.heal_cells, memNil_wf, memPut_wf, memFilter_wf, foldl_memPut_wf, h0, apply_ite State.mem, apply_ite MemSys.cells, apply_ite Memory.wf, ite_self, implies_true]

@[simp] theorem State.setEnable_cellsOk (s : State) (value : Nat) (h0 : Memory.wf s.mem.cells = true) :
    Memory.wf (State.setEnable s value).mem.cells = true := by
  simp (maxDischargeDepth := 60) only [State.setEnable, State.bump_cellsOk, State.watch_cellsOk, MemSys.heal_cells, memNil_wf, memPut_wf, memFilter_wf, foldl_memPut_wf, h0, apply_ite State.mem, apply_ite MemSys.cells, apply_ite Memory.wf, ite_self, implies_true]

@[simp] theorem State.portsDown_cellsOk (s : State) (h0 : Memory.wf s.mem.cells = true) :
    Memory.wf (State.portsDown s).mem.cells = true := by
  simp (maxDischargeDepth := 60) only [State.portsDown, State.bump_cellsOk, State.watch_cellsOk, State.discard_cellsOk, MemSys.heal_cells, memNil_wf, memPut_wf, memFilter_wf, foldl_memPut_wf, h0, apply_ite State.mem, apply_ite MemSys.cells, apply_ite Memory.wf, ite_self, implies_true]

@[simp] theorem applyPortEnable_cellsOk (value : Nat) (s : State) (h0 : Memory.wf s.mem.cells = true) :
    Memory.wf (applyPortEnable value s).1.mem.cells = true := by
  unfold applyPortEnable
  (repeat' (first | with_reducible exact h0 | split)) <;> simp (maxDischargeDepth := 60) only [State.keep_cellsOk, State.setEnable_cellsOk, MemSys.heal_cells, memNil_wf, memPut_wf, memFilter_wf, foldl_memPut_wf, h0, apply_ite State.mem, apply_ite MemSys.cells, apply_ite Memory.wf, ite_self, implies_true]

/-! ### Collectives -/

@[simp] theorem State.relayCard_cellsOk (s : State) (k : Card) (post : Nat) (h0 : Memory.wf s.mem.cells = true) :
    Memory.wf (State.relayCard s k post).mem.cells = true := by
  unfold State.relayCard
  simp (maxDischargeDepth := 60) only [State.bump_cellsOk, State.post_cellsOk, State.sendCard_cellsOk, MemSys.heal_cells, memNil_wf, memPut_wf, memFilter_wf, foldl_memPut_wf, h0, apply_ite State.mem, apply_ite MemSys.cells, apply_ite Memory.wf, ite_self, implies_true]
  (repeat' (first | with_reducible exact h0 | split)) <;> simp (maxDischargeDepth := 60) only [State.bump_cellsOk, State.post_cellsOk, State.sendCard_cellsOk, MemSys.heal_cells, memNil_wf, memPut_wf, memFilter_wf, foldl_memPut_wf, h0, apply_ite State.mem, apply_ite MemSys.cells, apply_ite Memory.wf, ite_self, implies_true]

@[simp] theorem State.takeCard_cellsOk (s : State) (k : Card) (post : Nat) (h0 : Memory.wf s.mem.cells = true) :
    Memory.wf (State.takeCard s k post).mem.cells = true := by
  unfold State.takeCard
  simp (maxDischargeDepth := 60) only [State.bump_cellsOk, State.post_cellsOk, State.setColl_cellsOk, State.failColl_cellsOk, State.knowMark_cellsOk, State.runPost_cellsOk, MemSys.heal_cells, memNil_wf, memPut_wf, memFilter_wf, foldl_memPut_wf, h0, apply_ite State.mem, apply_ite MemSys.cells, apply_ite Memory.wf, ite_self, implies_true]
  (repeat' (first | with_reducible exact h0 | split)) <;> simp (maxDischargeDepth := 60) only [State.bump_cellsOk, State.post_cellsOk, State.setColl_cellsOk, State.failColl_cellsOk, State.knowMark_cellsOk, State.runPost_cellsOk, MemSys.heal_cells, memNil_wf, memPut_wf, memFilter_wf, foldl_memPut_wf, h0, apply_ite State.mem, apply_ite MemSys.cells, apply_ite Memory.wf, ite_self, implies_true]

@[simp] theorem State.ctrlDone_cellsOk (s : State) (h0 : Memory.wf s.mem.cells = true) :
    Memory.wf (State.ctrlDone s).mem.cells = true := by
  exact h0

@[simp] theorem State.ctrlCards_cellsOk (s : State) (x : Ctrl) (a : Nat) (h0 : Memory.wf s.mem.cells = true) :
    Memory.wf (State.ctrlCards s x a).mem.cells = true := by
  simp +contextual (maxDischargeDepth := 60) only [State.ctrlCards, State.sendCard_cellsOk, foldl_cellsOk, MemSys.heal_cells, memNil_wf, memPut_wf, memFilter_wf, foldl_memPut_wf, h0, apply_ite State.mem, apply_ite MemSys.cells, apply_ite Memory.wf, ite_self, implies_true]

@[simp] theorem State.joinCtrl_cellsOk (s : State) (sig : Nat) (h0 : Memory.wf s.mem.cells = true) :
    Memory.wf (State.joinCtrl s sig).mem.cells = true := by
  unfold State.joinCtrl
  simp (maxDischargeDepth := 60) only [State.ctrlCards_cellsOk, MemSys.heal_cells, memNil_wf, memPut_wf, memFilter_wf, foldl_memPut_wf, h0, apply_ite State.mem, apply_ite MemSys.cells, apply_ite Memory.wf, ite_self, implies_true]
  (repeat' (first | with_reducible exact h0 | split)) <;> simp (maxDischargeDepth := 60) only [State.ctrlCards_cellsOk, MemSys.heal_cells, memNil_wf, memPut_wf, memFilter_wf, foldl_memPut_wf, h0, apply_ite State.mem, apply_ite MemSys.cells, apply_ite Memory.wf, ite_self, implies_true]

@[simp] theorem State.runCtrl_cellsOk (s : State) (sig : Nat) (v0 : Nat) (h0 : Memory.wf s.mem.cells = true) :
    Memory.wf (State.runCtrl s sig v0).mem.cells = true := by
  induction v0 generalizing s sig  with
  | zero =>
    first
    | exact h0
    | (simp (maxDischargeDepth := 60) only [State.runCtrl, State.ctrlCards_cellsOk, MemSys.heal_cells, memNil_wf, memPut_wf, memFilter_wf, foldl_memPut_wf, h0, apply_ite State.mem, apply_ite MemSys.cells, apply_ite Memory.wf, ite_self, implies_true]; done)
  | succ n ih =>
    first
    | (simp (maxDischargeDepth := 60) only [State.runCtrl, State.ctrlCards_cellsOk, MemSys.heal_cells, memNil_wf, memPut_wf, memFilter_wf, foldl_memPut_wf, h0, apply_ite State.mem, apply_ite MemSys.cells, apply_ite Memory.wf, ite_self, implies_true, ih]; done)
    | (unfold State.runCtrl; (repeat' (first | with_reducible exact h0 | split)) <;> (simp (maxDischargeDepth := 60) only [State.ctrlCards_cellsOk, MemSys.heal_cells, memNil_wf, memPut_wf, memFilter_wf, foldl_memPut_wf, h0, apply_ite State.mem, apply_ite MemSys.cells, apply_ite Memory.wf, ite_self, implies_true, ih]; done))
    | (unfold State.runCtrl; (repeat' (first | with_reducible exact h0 | split)) <;> (try simp (maxDischargeDepth := 60) only [State.ctrlCards_cellsOk, MemSys.heal_cells, memNil_wf, memPut_wf, memFilter_wf, foldl_memPut_wf, h0, apply_ite State.mem, apply_ite MemSys.cells, apply_ite Memory.wf, ite_self, implies_true, ih]) <;> (repeat' (first | with_reducible exact h0 | split)) <;> (simp (maxDischargeDepth := 60) only [State.ctrlCards_cellsOk, MemSys.heal_cells, memNil_wf, memPut_wf, memFilter_wf, foldl_memPut_wf, h0, apply_ite State.mem, apply_ite MemSys.cells, apply_ite Memory.wf, ite_self, implies_true, ih]; done))
    | (unfold State.runCtrl; (repeat' (first | with_reducible exact h0 | split)) <;> (simp +contextual (maxDischargeDepth := 60) only [State.ctrlCards_cellsOk, MemSys.heal_cells, memNil_wf, memPut_wf, memFilter_wf, foldl_memPut_wf, h0, apply_ite State.mem, apply_ite MemSys.cells, apply_ite Memory.wf, ite_self, implies_true, ih]; done))

@[simp] theorem State.takeCtrl_cellsOk (s : State) (k : Card) (post : Nat) (h0 : Memory.wf s.mem.cells = true) :
    Memory.wf (State.takeCtrl s k post).mem.cells = true := by
  simp (maxDischargeDepth := 60) only [State.takeCtrl, State.post_cellsOk, State.relayCard_cellsOk, State.joinCtrl_cellsOk, State.runCtrl_cellsOk, MemSys.heal_cells, memNil_wf, memPut_wf, memFilter_wf, foldl_memPut_wf, h0, apply_ite State.mem, apply_ite MemSys.cells, apply_ite Memory.wf, ite_self, implies_true]

@[simp] theorem State.ctrlOver_cellsOk (s : State) (sig : Nat) (h0 : Memory.wf s.mem.cells = true) :
    Memory.wf (State.ctrlOver s sig).mem.cells = true := by
  exact h0

@[simp] theorem applyCtrlStart_cellsOk (kind : Nat) (s : State) (h0 : Memory.wf s.mem.cells = true) :
    Memory.wf (applyCtrlStart kind s).1.mem.cells = true := by
  unfold applyCtrlStart
  (repeat' (first | with_reducible exact h0 | split)) <;> simp (maxDischargeDepth := 60) only [State.dset_cellsOk, State.joinCtrl_cellsOk, MemSys.heal_cells, memNil_wf, memPut_wf, memFilter_wf, foldl_memPut_wf, h0, apply_ite State.mem, apply_ite MemSys.cells, apply_ite Memory.wf, ite_self, implies_true]

@[simp] theorem State.groupReset_cellsOk (s : State) (group : Nat) (h0 : Memory.wf s.mem.cells = true) :
    Memory.wf (State.groupReset s group).mem.cells = true := by
  simp +contextual (maxDischargeDepth := 60) only [State.groupReset, State.failColl_cellsOk, foldl_cellsOk, MemSys.heal_cells, memNil_wf, memPut_wf, memFilter_wf, foldl_memPut_wf, h0, apply_ite State.mem, apply_ite MemSys.cells, apply_ite Memory.wf, ite_self, implies_true]

/-! ### Keeping -/

@[simp] theorem State.growBad_cellsOk (s : State) (ids : List Nat) (h0 : Memory.wf s.mem.cells = true) :
    Memory.wf (State.growBad s ids).mem.cells = true := by
  simp +contextual (maxDischargeDepth := 60) only [State.growBad, State.journal_cellsOk, State.watch_cellsOk, foldl_cellsOk, MemSys.heal_cells, memNil_wf, memPut_wf, memFilter_wf, foldl_memPut_wf, h0, apply_ite State.mem, apply_ite MemSys.cells, apply_ite Memory.wf, ite_self, implies_true]

@[simp] theorem State.placeImage_cellsOk (s : State) (b : Bytes) (v0 : Nat) (v1 : Nat) (h0 : Memory.wf s.mem.cells = true) :
    Memory.wf (State.placeImage s b v0 v1).1.mem.cells = true := by
  induction v0 generalizing s b v1 with
  | zero =>
    first
    | exact h0
    | (simp (maxDischargeDepth := 60) only [State.placeImage, State.forceCommit_cellsOk, State.journal_cellsOk, State.watch_cellsOk, State.growBad_cellsOk, MemSys.heal_cells, memNil_wf, memPut_wf, memFilter_wf, foldl_memPut_wf, h0, apply_ite State.mem, apply_ite MemSys.cells, apply_ite Memory.wf, ite_self, implies_true]; done)
  | succ n ih =>
    first
    | (simp (maxDischargeDepth := 60) only [State.placeImage, State.forceCommit_cellsOk, State.journal_cellsOk, State.watch_cellsOk, State.growBad_cellsOk, MemSys.heal_cells, memNil_wf, memPut_wf, memFilter_wf, foldl_memPut_wf, h0, apply_ite State.mem, apply_ite MemSys.cells, apply_ite Memory.wf, ite_self, implies_true, ih]; done)
    | (unfold State.placeImage; (repeat' (first | with_reducible exact h0 | split)) <;> (simp (maxDischargeDepth := 60) only [State.forceCommit_cellsOk, State.journal_cellsOk, State.watch_cellsOk, State.growBad_cellsOk, MemSys.heal_cells, memNil_wf, memPut_wf, memFilter_wf, foldl_memPut_wf, h0, apply_ite State.mem, apply_ite MemSys.cells, apply_ite Memory.wf, ite_self, implies_true, ih]; done))
    | (unfold State.placeImage; (repeat' (first | with_reducible exact h0 | split)) <;> (try simp (maxDischargeDepth := 60) only [State.forceCommit_cellsOk, State.journal_cellsOk, State.watch_cellsOk, State.growBad_cellsOk, MemSys.heal_cells, memNil_wf, memPut_wf, memFilter_wf, foldl_memPut_wf, h0, apply_ite State.mem, apply_ite MemSys.cells, apply_ite Memory.wf, ite_self, implies_true, ih]) <;> (repeat' (first | with_reducible exact h0 | split)) <;> (simp (maxDischargeDepth := 60) only [State.forceCommit_cellsOk, State.journal_cellsOk, State.watch_cellsOk, State.growBad_cellsOk, MemSys.heal_cells, memNil_wf, memPut_wf, memFilter_wf, foldl_memPut_wf, h0, apply_ite State.mem, apply_ite MemSys.cells, apply_ite Memory.wf, ite_self, implies_true, ih]; done))
    | (unfold State.placeImage; (repeat' (first | with_reducible exact h0 | split)) <;> (simp +contextual (maxDischargeDepth := 60) only [State.forceCommit_cellsOk, State.journal_cellsOk, State.watch_cellsOk, State.growBad_cellsOk, MemSys.heal_cells, memNil_wf, memPut_wf, memFilter_wf, foldl_memPut_wf, h0, apply_ite State.mem, apply_ite MemSys.cells, apply_ite Memory.wf, ite_self, implies_true, ih]; done))

@[simp] theorem State.notStored_cellsOk (s : State) (h0 : Memory.wf s.mem.cells = true) :
    Memory.wf (State.notStored s).mem.cells = true := by
  simp (maxDischargeDepth := 60) only [State.notStored, State.bump_cellsOk, State.raise_cellsOk, MemSys.heal_cells, memNil_wf, memPut_wf, memFilter_wf, foldl_memPut_wf, h0, apply_ite State.mem, apply_ite MemSys.cells, apply_ite Memory.wf, ite_self, implies_true]

@[simp] theorem State.freeExtents_cellsOk (s : State) (l : List Extent) (h0 : Memory.wf s.mem.cells = true) :
    Memory.wf (State.freeExtents s l).mem.cells = true := by
  simp +contextual (maxDischargeDepth := 60) only [State.freeExtents, State.journal_cellsOk, foldl_cellsOk, MemSys.heal_cells, memNil_wf, memPut_wf, memFilter_wf, foldl_memPut_wf, h0, apply_ite State.mem, apply_ite MemSys.cells, apply_ite Memory.wf, ite_self, implies_true]

@[simp] theorem State.storeCullet_cellsOk (s : State) (b : Bytes) (h0 : Memory.wf s.mem.cells = true) :
    Memory.wf (State.storeCullet s b).mem.cells = true := by
  simp (maxDischargeDepth := 60) only [State.storeCullet, State.commitWith_cellsOk, State.journal_cellsOk, State.raise_cellsOk, State.notStored_cellsOk, State.freeExtents_cellsOk, MemSys.heal_cells, memNil_wf, memPut_wf, memFilter_wf, foldl_memPut_wf, h0, apply_ite State.mem, apply_ite MemSys.cells, apply_ite Memory.wf, ite_self, implies_true]

@[simp] theorem State.storePosts_cellsOk (s : State) (regions : List Nat) (n : Nat) (h0 : Memory.wf s.mem.cells = true) :
    Memory.wf (State.storePosts s regions n).mem.cells = true := by
  simp (maxDischargeDepth := 60) only [State.storePosts, State.drew_cellsOk, State.commitWith_cellsOk, State.journal_cellsOk, State.notStored_cellsOk, State.freeExtents_cellsOk, MemSys.heal_cells, memNil_wf, memPut_wf, memFilter_wf, foldl_memPut_wf, h0, apply_ite State.mem, apply_ite MemSys.cells, apply_ite Memory.wf, ite_self, implies_true]

@[simp] theorem State.reload_cellsOk (s : State) (h0 : Memory.wf s.mem.cells = true) :
    Memory.wf (State.reload s).mem.cells = true := by
  simp (maxDischargeDepth := 60) only [State.reload, State.log_cellsOk, State.trained_cellsOk, foldl_cellsOk, MemSys.heal_cells, memNil_wf, memPut_wf, memFilter_wf, foldl_memPut_wf, h0, apply_ite State.mem, apply_ite MemSys.cells, apply_ite Memory.wf, ite_self, implies_true]

@[simp] theorem State.pageLost_cellsOk (s : State) (b : NBlock) (h0 : Memory.wf s.mem.cells = true) :
    Memory.wf (State.pageLost s b).mem.cells = true := by
  unfold State.pageLost
  (repeat' (first | with_reducible exact h0 | split)) <;> simp (maxDischargeDepth := 60) only [State.bump_cellsOk, State.log_cellsOk, State.watch_cellsOk, State.placeImage_cellsOk, State.freeExtents_cellsOk, MemSys.heal_cells, memNil_wf, memPut_wf, memFilter_wf, foldl_memPut_wf, h0, apply_ite State.mem, apply_ite MemSys.cells, apply_ite Memory.wf, ite_self, implies_true]

@[simp] theorem applyStoreAll_cellsOk (value : Nat) (s : State) (h0 : Memory.wf s.mem.cells = true) :
    Memory.wf (applyStoreAll value s).1.mem.cells = true := by
  unfold applyStoreAll
  (repeat' (first | with_reducible exact h0 | split)) <;> simp (maxDischargeDepth := 60) only [State.forceCommit_cellsOk, MemSys.heal_cells, memNil_wf, memPut_wf, memFilter_wf, foldl_memPut_wf, h0, apply_ite State.mem, apply_ite MemSys.cells, apply_ite Memory.wf, ite_self, implies_true]

@[simp] theorem applyRestore_cellsOk (value : Nat) (s : State) (h0 : Memory.wf s.mem.cells = true) :
    Memory.wf (applyRestore value s).1.mem.cells = true := by
  unfold applyRestore
  (repeat' (first | with_reducible exact h0 | split)) <;> simp (maxDischargeDepth := 60) only [MemSys.heal_cells, memNil_wf, memPut_wf, memFilter_wf, foldl_memPut_wf, h0, apply_ite State.mem, apply_ite MemSys.cells, apply_ite Memory.wf, ite_self, implies_true]

/-! ### Recovery -/

@[simp] theorem State.redealColumn_cellsOk (s : State) (cell fault : Nat) (g : Nat × Nat × Nat) (ts : List Task) (h0 : Memory.wf s.mem.cells = true) :
    Memory.wf (State.redealColumn s cell fault g ts).mem.cells = true := by
  simp (maxDischargeDepth := 60) only [State.redealColumn, State.bump_cellsOk, State.setFlight_cellsOk, State.failDry_cellsOk, MemSys.heal_cells, memNil_wf, memPut_wf, memFilter_wf, foldl_memPut_wf, h0, apply_ite State.mem, apply_ite MemSys.cells, apply_ite Memory.wf, ite_self, implies_true]

@[simp] theorem State.leaveChains_cellsOk (s : State) (cell : Nat) (h0 : Memory.wf s.mem.cells = true) :
    Memory.wf (State.leaveChains s cell).mem.cells = true := by
  simp +contextual (maxDischargeDepth := 60) only [State.leaveChains, State.bump_cellsOk, foldl_cellsOk, MemSys.heal_cells, memNil_wf, memPut_wf, memFilter_wf, foldl_memPut_wf, h0, apply_ite State.mem, apply_ite MemSys.cells, apply_ite Memory.wf, ite_self, implies_true]

@[simp] theorem State.redealCell_cellsOk (s : State) (cell fault : Nat) (h0 : Memory.wf s.mem.cells = true) :
    Memory.wf (State.redealCell s cell fault).mem.cells = true := by
  simp +contextual (maxDischargeDepth := 60) only [State.redealCell, State.redealColumn_cellsOk, foldl_cellsOk, MemSys.heal_cells, memNil_wf, memPut_wf, memFilter_wf, foldl_memPut_wf, h0, apply_ite State.mem, apply_ite MemSys.cells, apply_ite Memory.wf, ite_self, implies_true]

@[simp] theorem State.metAgain_cellsOk (s : State) (cell fault : Nat) (h0 : Memory.wf s.mem.cells = true) :
    Memory.wf (State.metAgain s cell fault).mem.cells = true := by
  simp +contextual (maxDischargeDepth := 60) only [State.metAgain, State.failInstr_cellsOk, foldl_cellsOk, MemSys.heal_cells, memNil_wf, memPut_wf, memFilter_wf, foldl_memPut_wf, h0, apply_ite State.mem, apply_ite MemSys.cells, apply_ite Memory.wf, ite_self, implies_true]

@[simp] theorem State.clearCell_cellsOk (s : State) (cell : Nat) (h0 : Memory.wf s.mem.cells = true) :
    Memory.wf (State.clearCell s cell).mem.cells = true := by
  simp (maxDischargeDepth := 60) only [State.clearCell, State.clearRun_cellsOk, State.reseedCell_cellsOk, MemSys.heal_cells, memNil_wf, memPut_wf, memFilter_wf, foldl_memPut_wf, h0, apply_ite State.mem, apply_ite MemSys.cells, apply_ite Memory.wf, ite_self, implies_true]

@[simp] theorem State.checkBarren_cellsOk (s : State) (p : Nat) (h0 : Memory.wf s.mem.cells = true) :
    Memory.wf (State.checkBarren s p).mem.cells = true := by
  simp (maxDischargeDepth := 60) only [State.checkBarren, MemSys.heal_cells, memNil_wf, memPut_wf, memFilter_wf, foldl_memPut_wf, h0, apply_ite State.mem, apply_ite MemSys.cells, apply_ite Memory.wf, ite_self, implies_true]

@[simp] theorem State.setIntakePipe_cellsOk (s : State) (i : Nat) (f : Pipe → Pipe) (h0 : Memory.wf s.mem.cells = true) :
    Memory.wf (State.setIntakePipe s i f).mem.cells = true := by
  exact h0

@[simp] theorem State.setCodecPipe_cellsOk (s : State) (i : Nat) (f : Pipe → Pipe) (h0 : Memory.wf s.mem.cells = true) :
    Memory.wf (State.setCodecPipe s i f).mem.cells = true := by
  exact h0

@[simp] theorem State.fenceNow_cellsOk (s : State) (unit origin cause : Nat) (h0 : Memory.wf s.mem.cells = true) :
    Memory.wf (State.fenceNow s unit origin cause).mem.cells = true := by
  unfold State.fenceNow
  (repeat' (first | with_reducible exact h0 | split)) <;> simp (maxDischargeDepth := 60) only [State.setCell_cellsOk, State.watch_cellsOk, State.putFence_cellsOk, State.markChannel_cellsOk, State.serveTasks_cellsOk, State.restartSample_cellsOk, State.intkStarved_cellsOk, State.restartFrame_cellsOk, State.cdcStarved_cellsOk, State.laneLost_cellsOk, State.leaveChains_cellsOk, State.redealCell_cellsOk, State.checkBarren_cellsOk, State.setIntakePipe_cellsOk, State.setCodecPipe_cellsOk, MemSys.heal_cells, memNil_wf, memPut_wf, memFilter_wf, foldl_memPut_wf, h0, apply_ite State.mem, apply_ite MemSys.cells, apply_ite Memory.wf, ite_self, implies_true]

@[simp] theorem applyFence_cellsOk (s : State) (h0 : Memory.wf s.mem.cells = true) :
    Memory.wf (applyFence s).1.mem.cells = true := by
  unfold applyFence
  simp (maxDischargeDepth := 60) only [State.dset_cellsOk, State.putFence_cellsOk, State.fenceNow_cellsOk, MemSys.heal_cells, memNil_wf, memPut_wf, memFilter_wf, foldl_memPut_wf, h0, apply_ite State.mem, apply_ite MemSys.cells, apply_ite Memory.wf, ite_self, implies_true]
  (repeat' (first | with_reducible exact h0 | split)) <;> simp (maxDischargeDepth := 60) only [State.dset_cellsOk, State.putFence_cellsOk, State.fenceNow_cellsOk, MemSys.heal_cells, memNil_wf, memPut_wf, memFilter_wf, foldl_memPut_wf, h0, apply_ite State.mem, apply_ite MemSys.cells, apply_ite Memory.wf, ite_self, implies_true]

@[simp] theorem State.countReset_cellsOk (s : State) (unit : Nat) (h0 : Memory.wf s.mem.cells = true) :
    Memory.wf (State.countReset s unit).1.mem.cells = true := by
  unfold State.countReset
  (repeat' (first | with_reducible exact h0 | split)) <;> simp (maxDischargeDepth := 60) only [State.setCell_cellsOk, State.setIntakePipe_cellsOk, State.setCodecPipe_cellsOk, MemSys.heal_cells, memNil_wf, memPut_wf, memFilter_wf, foldl_memPut_wf, h0, apply_ite State.mem, apply_ite MemSys.cells, apply_ite Memory.wf, ite_self, implies_true]

@[simp] theorem State.resetWork_cellsOk (s : State) (unit cause : Nat) (h0 : Memory.wf s.mem.cells = true) :
    Memory.wf (State.resetWork s unit cause).mem.cells = true := by
  unfold State.resetWork
  (repeat' (first | with_reducible exact h0 | split)) <;> simp (maxDischargeDepth := 60) only [State.serveTasks_cellsOk, State.restartSample_cellsOk, State.restartFrame_cellsOk, State.dueSession_cellsOk, State.redealCell_cellsOk, State.metAgain_cellsOk, State.clearCell_cellsOk, MemSys.heal_cells, memNil_wf, memPut_wf, memFilter_wf, foldl_memPut_wf, h0, apply_ite State.mem, apply_ite MemSys.cells, apply_ite Memory.wf, ite_self, implies_true]

@[simp] theorem State.engineReset_cellsOk (s : State) (unit cause : Nat) (h0 : Memory.wf s.mem.cells = true) :
    Memory.wf (State.engineReset s unit cause).mem.cells = true := by
  simp (maxDischargeDepth := 60) only [State.engineReset, State.bump_cellsOk, State.post_cellsOk, State.log_cellsOk, State.raise_cellsOk, State.fenceNow_cellsOk, State.countReset_cellsOk, State.resetWork_cellsOk, MemSys.heal_cells, memNil_wf, memPut_wf, memFilter_wf, foldl_memPut_wf, h0, apply_ite State.mem, apply_ite MemSys.cells, apply_ite Memory.wf, ite_self, implies_true]

@[simp] theorem State.resetPart_cellsOk (s : State) (p cause : Nat) (h0 : Memory.wf s.mem.cells = true) :
    Memory.wf (State.resetPart s p cause).mem.cells = true := by
  simp (maxDischargeDepth := 60) only [State.resetPart, State.bump_cellsOk, State.post_cellsOk, State.log_cellsOk, State.raise_cellsOk, MemSys.heal_cells, memNil_wf, memPut_wf, memFilter_wf, foldl_memPut_wf, h0, apply_ite State.mem, apply_ite MemSys.cells, apply_ite Memory.wf, ite_self, implies_true]

@[simp] theorem State.annealCtx_cellsOk (s : State) (c : Nat) (h0 : Memory.wf s.mem.cells = true) :
    Memory.wf (State.annealCtx s c).mem.cells = true := by
  simp (maxDischargeDepth := 60) only [State.annealCtx, State.setCtx_cellsOk, State.dropSave_cellsOk, State.dropWork_cellsOk, State.endJob_cellsOk, State.endAll_cellsOk, State.errorStreams_cellsOk, MemSys.heal_cells, memNil_wf, memPut_wf, memFilter_wf, foldl_memPut_wf, h0, apply_ite State.mem, apply_ite MemSys.cells, apply_ite Memory.wf, ite_self, implies_true]

@[simp] theorem State.restartPart_cellsOk (s : State) (p : Nat) (h0 : Memory.wf s.mem.cells = true) :
    Memory.wf (State.restartPart s p).mem.cells = true := by
  simp +contextual (maxDischargeDepth := 60) only [State.restartPart, State.watch_cellsOk, State.startCtx_cellsOk, State.checkBarren_cellsOk, foldl_cellsOk, MemSys.heal_cells, memNil_wf, memPut_wf, memFilter_wf, foldl_memPut_wf, h0, apply_ite State.mem, apply_ite MemSys.cells, apply_ite Memory.wf, ite_self, implies_true]

@[simp] theorem State.anneal_cellsOk (s : State) (p : Nat) (h0 : Memory.wf s.mem.cells = true) :
    Memory.wf (State.anneal s p).mem.cells = true := by
  simp +contextual (maxDischargeDepth := 60) only [State.anneal, State.setCell_cellsOk, State.clearRun_cellsOk, State.dropReqs_cellsOk, State.answered_cellsOk, State.storePosts_cellsOk, State.clearCell_cellsOk, State.annealCtx_cellsOk, State.restartPart_cellsOk, foldl_cellsOk, MemSys.heal_cells, memNil_wf, memPut_wf, memFilter_wf, foldl_memPut_wf, h0, apply_ite State.mem, apply_ite MemSys.cells, apply_ite Memory.wf, ite_self, implies_true]

@[simp] theorem State.collect_cellsOk (s : State) (cause : Nat) (hung : Option Nat) (h0 : Memory.wf s.mem.cells = true) :
    Memory.wf (State.collect s cause hung).mem.cells = true := by
  simp (maxDischargeDepth := 60) only [State.collect, State.bump_cellsOk, State.drew_cellsOk, State.storeCullet_cellsOk, State.storePosts_cellsOk, MemSys.heal_cells, memNil_wf, memPut_wf, memFilter_wf, foldl_memPut_wf, h0, apply_ite State.mem, apply_ite MemSys.cells, apply_ite Memory.wf, ite_self, implies_true]

@[simp] theorem State.logLost_cellsOk (s : State) (l : List Copy) (h0 : Memory.wf s.mem.cells = true) :
    Memory.wf (State.logLost s l).mem.cells = true := by
  simp +contextual (maxDischargeDepth := 60) only [State.logLost, State.bump_cellsOk, State.log_cellsOk, State.raise_cellsOk, foldl_cellsOk, MemSys.heal_cells, memNil_wf, memPut_wf, memFilter_wf, foldl_memPut_wf, h0, apply_ite State.mem, apply_ite MemSys.cells, apply_ite Memory.wf, ite_self, implies_true]

@[simp] theorem State.unitsReset_cellsOk (s : State) (h0 : Memory.wf s.mem.cells = true) :
    Memory.wf (State.unitsReset s).mem.cells = true := by
  simp +contextual (maxDischargeDepth := 60) only [State.unitsReset, State.watch_cellsOk, State.drainDetour_cellsOk, State.trained_cellsOk, State.answered_cellsOk, State.logLost_cellsOk, foldl_cellsOk, MemSys.heal_cells, memNil_wf, memPut_wf, memFilter_wf, foldl_memPut_wf, h0, apply_ite State.mem, apply_ite MemSys.cells, apply_ite Memory.wf, ite_self, implies_true]

@[simp] theorem State.restoreNow_cellsOk (s : State) (h0 : Memory.wf s.mem.cells = true) :
    Memory.wf (State.restoreNow s).mem.cells = true := by
  simp +contextual (maxDischargeDepth := 60) only [State.restoreNow, State.journal_cellsOk, State.keep_cellsOk, foldl_cellsOk, MemSys.heal_cells, memNil_wf, memPut_wf, memFilter_wf, foldl_memPut_wf, h0, apply_ite State.mem, apply_ite MemSys.cells, apply_ite Memory.wf, ite_self, implies_true]

@[simp] theorem State.settleFences_cellsOk (s : State) (h0 : Memory.wf s.mem.cells = true) :
    Memory.wf (State.settleFences s).mem.cells = true := by
  simp +contextual (maxDischargeDepth := 60) only [State.settleFences, State.putFence_cellsOk, State.dropFence_cellsOk, foldl_cellsOk, MemSys.heal_cells, memNil_wf, memPut_wf, memFilter_wf, foldl_memPut_wf, h0, apply_ite State.mem, apply_ite MemSys.cells, apply_ite Memory.wf, ite_self, implies_true]

@[simp] theorem State.flagFences_cellsOk (s : State) (h0 : Memory.wf s.mem.cells = true) :
    Memory.wf (State.flagFences s).mem.cells = true := by
  simp (maxDischargeDepth := 60) only [State.flagFences, MemSys.heal_cells, memNil_wf, memPut_wf, memFilter_wf, foldl_memPut_wf, h0, apply_ite State.mem, apply_ite MemSys.cells, apply_ite Memory.wf, ite_self, implies_true]

@[simp] theorem State.trainFailed_cellsOk (s : State) (n : Nat) (h0 : Memory.wf s.mem.cells = true) :
    Memory.wf (State.trainFailed s n).mem.cells = true := by
  simp (maxDischargeDepth := 60) only [State.trainFailed, State.bump_cellsOk, State.setChan_cellsOk, State.raise_cellsOk, State.markChannel_cellsOk, MemSys.heal_cells, memNil_wf, memPut_wf, memFilter_wf, foldl_memPut_wf, h0, apply_ite State.mem, apply_ite MemSys.cells, apply_ite Memory.wf, ite_self, implies_true]

@[simp] theorem State.layOut_cellsOk (s : State) (failed : List Nat) (h0 : Memory.wf s.mem.cells = true) :
    Memory.wf (State.layOut s failed).1.mem.cells = true := by
  simp (maxDischargeDepth := 60) only [State.layOut, MemSys.heal_cells, memNil_wf, memPut_wf, memFilter_wf, foldl_memPut_wf, h0, apply_ite State.mem, apply_ite MemSys.cells, apply_ite Memory.wf, ite_self, implies_true]

@[simp] theorem State.startPower_cellsOk (s : State) (h0 : Memory.wf s.mem.cells = true) :
    Memory.wf (State.startPower s).mem.cells = true := by
  simp (maxDischargeDepth := 60) only [State.startPower, State.keep_cellsOk, MemSys.heal_cells, memNil_wf, memPut_wf, memFilter_wf, foldl_memPut_wf, h0, apply_ite State.mem, apply_ite MemSys.cells, apply_ite Memory.wf, ite_self, implies_true]

@[simp] theorem State.endLost_cellsOk (s : State) (lost : Bool) (h0 : Memory.wf s.mem.cells = true) :
    Memory.wf (State.endLost s lost).mem.cells = true := by
  simp +contextual (maxDischargeDepth := 60) only [State.endLost, State.dropSave_cellsOk, State.endJob_cellsOk, State.endAll_cellsOk, foldl_cellsOk, MemSys.heal_cells, memNil_wf, memPut_wf, memFilter_wf, foldl_memPut_wf, h0, apply_ite State.mem, apply_ite MemSys.cells, apply_ite Memory.wf, ite_self, implies_true]

@[simp] theorem State.serve_cellsOk (s : State) (failed : List Nat) (h0 : Memory.wf s.mem.cells = true) :
    Memory.wf (State.serve s failed).mem.cells = true := by
  simp +contextual (maxDischargeDepth := 60) only [State.serve, State.flushEmergency_cellsOk, State.watch_cellsOk, State.restoreNow_cellsOk, State.settleFences_cellsOk, State.flagFences_cellsOk, State.trainFailed_cellsOk, State.layOut_cellsOk, State.startPower_cellsOk, State.endLost_cellsOk, foldl_cellsOk, MemSys.heal_cells, memNil_wf, memPut_wf, memFilter_wf, foldl_memPut_wf, h0, apply_ite State.mem, apply_ite MemSys.cells, apply_ite Memory.wf, ite_self, implies_true]

@[simp] theorem State.enterBootstrap_cellsOk (s : State) (h0 : Memory.wf s.mem.cells = true) :
    Memory.wf (State.enterBootstrap s).mem.cells = true := by
  exact h0

@[simp] theorem State.startUp_cellsOk (s : State) (failed : List Nat) (h0 : Memory.wf s.mem.cells = true) :
    Memory.wf (State.startUp s failed).mem.cells = true := by
  simp +contextual (maxDischargeDepth := 60) only [State.startUp, State.reseedCell_cellsOk, State.serve_cellsOk, State.enterBootstrap_cellsOk, foldl_cellsOk, MemSys.heal_cells, memNil_wf, memPut_wf, memFilter_wf, foldl_memPut_wf, h0, apply_ite State.mem, apply_ite MemSys.cells, apply_ite Memory.wf, ite_self, implies_true]

@[simp] theorem State.freeze_cellsOk (s : State) (cause unit severity : Nat) (record hung : Bool) (h0 : Memory.wf s.mem.cells = true) :
    Memory.wf (State.freeze s cause unit severity record hung).mem.cells = true := by
  simp +contextual (maxDischargeDepth := 60) only [State.freeze, State.retireWcb_cellsOk, State.commit_cellsOk, State.post_cellsOk, State.log_cellsOk, State.reload_cellsOk, State.collect_cellsOk, foldl_cellsOk, MemSys.heal_cells, memNil_wf, memPut_wf, memFilter_wf, foldl_memPut_wf, h0, apply_ite State.mem, apply_ite MemSys.cells, apply_ite Memory.wf, ite_self, implies_true]

@[simp] theorem State.chipReset_cellsOk (s : State) (cause unit : Nat) (fault record hung : Bool) (h0 : Memory.wf s.mem.cells = true) :
    Memory.wf (State.chipReset s cause unit fault record hung).mem.cells = true := by
  simp (maxDischargeDepth := 60) only [State.chipReset, State.bump_cellsOk, State.raise_cellsOk, State.unitsReset_cellsOk, State.startUp_cellsOk, State.freeze_cellsOk, MemSys.heal_cells, memNil_wf, memPut_wf, memFilter_wf, foldl_memPut_wf, h0, apply_ite State.mem, apply_ite MemSys.cells, apply_ite Memory.wf, ite_self, implies_true]

@[simp] theorem State.powerCycle_cellsOk (s : State) (cause : Nat) (h0 : Memory.wf s.mem.cells = true) :
    Memory.wf (State.powerCycle s cause).mem.cells = true := by
  simp (maxDischargeDepth := 60) only [State.powerCycle, State.bump_cellsOk, State.commit_cellsOk, State.freeze_cellsOk, MemSys.heal_cells, memNil_wf, memPut_wf, memFilter_wf, foldl_memPut_wf, h0, apply_ite State.mem, apply_ite MemSys.cells, apply_ite Memory.wf, ite_self, implies_true]

@[simp] theorem State.writeReset_cellsOk (s : State) (v : Nat) (h0 : Memory.wf s.mem.cells = true) :
    Memory.wf (State.writeReset s v).mem.cells = true := by
  simp (maxDischargeDepth := 60) only [State.writeReset, State.answerWrite_cellsOk, State.resetPart_cellsOk, State.chipReset_cellsOk, State.powerCycle_cellsOk, MemSys.heal_cells, memNil_wf, memPut_wf, memFilter_wf, foldl_memPut_wf, h0, apply_ite State.mem, apply_ite MemSys.cells, apply_ite Memory.wf, ite_self, implies_true]

@[simp] theorem applyFaultClear_cellsOk (value : Nat) (s : State) (h0 : Memory.wf s.mem.cells = true) :
    Memory.wf (applyFaultClear value s).1.mem.cells = true := by
  exact h0

@[simp] theorem State.marTasks_cellsOk (s : State) (cell : Nat) (h0 : Memory.wf s.mem.cells = true) :
    Memory.wf (State.marTasks s cell).mem.cells = true := by
  exact h0

/-! ### Security -/

@[simp] theorem State.blowFailed_cellsOk (s : State) (h0 : Memory.wf s.mem.cells = true) :
    Memory.wf (State.blowFailed s).mem.cells = true := by
  simp (maxDischargeDepth := 60) only [State.blowFailed, State.log_cellsOk, MemSys.heal_cells, memNil_wf, memPut_wf, memFilter_wf, foldl_memPut_wf, h0, apply_ite State.mem, apply_ite MemSys.cells, apply_ite Memory.wf, ite_self, implies_true]

@[simp] theorem State.refuseToken_cellsOk (s : State) (code : Nat) (h0 : Memory.wf s.mem.cells = true) :
    Memory.wf (State.refuseToken s code).mem.cells = true := by
  simp (maxDischargeDepth := 60) only [State.refuseToken, State.bump_cellsOk, MemSys.heal_cells, memNil_wf, memPut_wf, memFilter_wf, foldl_memPut_wf, h0, apply_ite State.mem, apply_ite MemSys.cells, apply_ite Memory.wf, ite_self, implies_true]

@[simp] theorem State.acceptToken_cellsOk (s : State) (h0 : Memory.wf s.mem.cells = true) :
    Memory.wf (State.acceptToken s).mem.cells = true := by
  simp (maxDischargeDepth := 60) only [State.acceptToken, State.bump_cellsOk, MemSys.heal_cells, memNil_wf, memPut_wf, memFilter_wf, foldl_memPut_wf, h0, apply_ite State.mem, apply_ite MemSys.cells, apply_ite Memory.wf, ite_self, implies_true]

@[simp] theorem State.token_cellsOk (s : State) (op : Nat) (b : Bytes) (blowOk : Bool) (f : State → State) (h0 : Memory.wf s.mem.cells = true)
    (h : ∀ s, Memory.wf s.mem.cells = true → Memory.wf (f s).mem.cells = true) :
    Memory.wf (s.token op b blowOk f).mem.cells = true := by
  unfold State.token
  (repeat' (first | with_reducible exact h0 | split)) <;>
    (try simp (maxDischargeDepth := 60) only [State.abort_cellsOk, h0]) <;> (repeat' split) <;>
    simp (maxDischargeDepth := 60) only [h, h0, State.abort_cellsOk, State.refuseToken_cellsOk, State.blowFailed_cellsOk, State.acceptToken_cellsOk, State.answerWrite_cellsOk]

@[simp] theorem State.eraseIdentity_cellsOk (s : State) (h0 : Memory.wf s.mem.cells = true) :
    Memory.wf (State.eraseIdentity s).mem.cells = true := by
  simp (maxDischargeDepth := 60) only [State.eraseIdentity, State.forceCommit_cellsOk, State.keep_cellsOk, State.restoreNow_cellsOk, MemSys.heal_cells, memNil_wf, memPut_wf, memFilter_wf, foldl_memPut_wf, h0, apply_ite State.mem, apply_ite MemSys.cells, apply_ite Memory.wf, ite_self, implies_true]

@[simp] theorem State.changeLife_cellsOk (s : State) (new : Nat) (h0 : Memory.wf s.mem.cells = true) :
    Memory.wf (State.changeLife s new).mem.cells = true := by
  simp (maxDischargeDepth := 60) only [State.changeLife, State.chipReset_cellsOk, State.eraseIdentity_cellsOk, MemSys.heal_cells, memNil_wf, memPut_wf, memFilter_wf, foldl_memPut_wf, h0, apply_ite State.mem, apply_ite MemSys.cells, apply_ite Memory.wf, ite_self, implies_true]

@[simp] theorem State.raiseVersion_cellsOk (s : State) (blowOk : Bool) (h0 : Memory.wf s.mem.cells = true) :
    Memory.wf (State.raiseVersion s blowOk).1.mem.cells = true := by
  unfold State.raiseVersion
  simp (maxDischargeDepth := 60) only [MemSys.heal_cells, memNil_wf, memPut_wf, memFilter_wf, foldl_memPut_wf, h0, apply_ite State.mem, apply_ite MemSys.cells, apply_ite Memory.wf, ite_self, implies_true]
  (repeat' (first | with_reducible exact h0 | split)) <;> simp (maxDischargeDepth := 60) only [MemSys.heal_cells, memNil_wf, memPut_wf, memFilter_wf, foldl_memPut_wf, h0, apply_ite State.mem, apply_ite MemSys.cells, apply_ite Memory.wf, ite_self, implies_true]

@[simp] theorem State.commitBlob_cellsOk (s : State) (x : Identity) (h0 : Memory.wf s.mem.cells = true) :
    Memory.wf (State.commitBlob s x).mem.cells = true := by
  simp (maxDischargeDepth := 60) only [State.commitBlob, State.drew_cellsOk, State.forceCommit_cellsOk, State.journal_cellsOk, MemSys.heal_cells, memNil_wf, memPut_wf, memFilter_wf, foldl_memPut_wf, h0, apply_ite State.mem, apply_ite MemSys.cells, apply_ite Memory.wf, ite_self, implies_true]

@[simp] theorem State.provisioned_cellsOk (s : State) (blowOk : Bool) (h0 : Memory.wf s.mem.cells = true) :
    Memory.wf (State.provisioned s blowOk).1.mem.cells = true := by
  unfold State.provisioned
  (repeat' (first | with_reducible exact h0 | split)) <;> simp (maxDischargeDepth := 60) only [State.setEnable_cellsOk, State.commitBlob_cellsOk, MemSys.heal_cells, memNil_wf, memPut_wf, memFilter_wf, foldl_memPut_wf, h0, apply_ite State.mem, apply_ite MemSys.cells, apply_ite Memory.wf, ite_self, implies_true]

@[simp] theorem State.rotated_cellsOk (s : State) (h0 : Memory.wf s.mem.cells = true) :
    Memory.wf (State.rotated s).1.mem.cells = true := by
  unfold State.rotated
  (repeat' (first | with_reducible exact h0 | split)) <;> simp (maxDischargeDepth := 60) only [State.bump_cellsOk, State.drew_cellsOk, State.forceCommit_cellsOk, State.journal_cellsOk, MemSys.heal_cells, memNil_wf, memPut_wf, memFilter_wf, foldl_memPut_wf, h0, apply_ite State.mem, apply_ite MemSys.cells, apply_ite Memory.wf, ite_self, implies_true]

@[simp] theorem applyNonce_cellsOk (nonce : Bytes) (s : State) (h0 : Memory.wf s.mem.cells = true) :
    Memory.wf (applyNonce nonce s).1.mem.cells = true := by
  unfold applyNonce
  (repeat' (first | with_reducible exact h0 | split)) <;> simp (maxDischargeDepth := 60) only [MemSys.heal_cells, memNil_wf, memPut_wf, memFilter_wf, foldl_memPut_wf, h0, apply_ite State.mem, apply_ite MemSys.cells, apply_ite Memory.wf, ite_self, implies_true]

@[simp] theorem applyRelock_cellsOk (s : State) (h0 : Memory.wf s.mem.cells = true) :
    Memory.wf (applyRelock s).1.mem.cells = true := by
  unfold applyRelock
  (repeat' (first | with_reducible exact h0 | split)) <;> simp (maxDischargeDepth := 60) only [MemSys.heal_cells, memNil_wf, memPut_wf, memFilter_wf, foldl_memPut_wf, h0, apply_ite State.mem, apply_ite MemSys.cells, apply_ite Memory.wf, ite_self, implies_true]

@[simp] theorem applyDebugWrite_cellsOk (data : Bytes) (s : State) (h0 : Memory.wf s.mem.cells = true) :
    Memory.wf (applyDebugWrite data s).1.mem.cells = true := by
  unfold applyDebugWrite
  simp (maxDischargeDepth := 60) only [State.bump_cellsOk, State.writeBytes_cellsOk, MemSys.heal_cells, memNil_wf, memPut_wf, memFilter_wf, foldl_memPut_wf, h0, apply_ite State.mem, apply_ite MemSys.cells, apply_ite Memory.wf, ite_self, implies_true]
  (repeat' (first | with_reducible exact h0 | split)) <;> simp (maxDischargeDepth := 60) only [State.bump_cellsOk, State.writeBytes_cellsOk, MemSys.heal_cells, memNil_wf, memPut_wf, memFilter_wf, foldl_memPut_wf, h0, apply_ite State.mem, apply_ite MemSys.cells, apply_ite Memory.wf, ite_self, implies_true]

@[simp] theorem State.bypass_cellsOk (s : State) (code : Nat) (tdi : Bool) (h0 : Memory.wf s.mem.cells = true) :
    Memory.wf (State.bypass s code tdi).mem.cells = true := by
  exact h0

@[simp] theorem State.tap_cellsOk (s : State) (code : Nat) (f : State → State) (h0 : Memory.wf s.mem.cells = true)
    (h : ∀ s, Memory.wf s.mem.cells = true → Memory.wf (f s).mem.cells = true) :
    Memory.wf (s.tap code f).mem.cells = true := by
  unfold State.tap
  (repeat' (first | with_reducible exact h0 | split)) <;> simp (maxDischargeDepth := 60) only [h, h0, State.bypass_cellsOk]

@[simp] theorem State.linksDown_cellsOk (s : State) (h0 : Memory.wf s.mem.cells = true) :
    Memory.wf (State.linksDown s).mem.cells = true := by
  simp (maxDischargeDepth := 60) only [State.linksDown, State.portsDown_cellsOk, MemSys.heal_cells, memNil_wf, memPut_wf, memFilter_wf, foldl_memPut_wf, h0, apply_ite State.mem, apply_ite MemSys.cells, apply_ite Memory.wf, ite_self, implies_true]

@[simp] theorem State.pins_cellsOk (s : State) (h0 : Memory.wf s.mem.cells = true) :
    Memory.wf (State.pins s).mem.cells = true := by
  simp (maxDischargeDepth := 60) only [State.pins, State.drew_cellsOk, MemSys.heal_cells, memNil_wf, memPut_wf, memFilter_wf, foldl_memPut_wf, h0, apply_ite State.mem, apply_ite MemSys.cells, apply_ite Memory.wf, ite_self, implies_true]

/-! ### Board -/

@[simp] theorem State.regionOff_cellsOk (s : State) (r : Nat) (h0 : Memory.wf s.mem.cells = true) :
    Memory.wf (State.regionOff s r).mem.cells = true := by
  simp (maxDischargeDepth := 60) only [State.regionOff, State.clearRun_cellsOk, MemSys.heal_cells, memNil_wf, memPut_wf, memFilter_wf, foldl_memPut_wf, h0, apply_ite State.mem, apply_ite MemSys.cells, apply_ite Memory.wf, ite_self, implies_true]

@[simp] theorem State.enterHold_cellsOk (s : State) (h0 : Memory.wf s.mem.cells = true) :
    Memory.wf (State.enterHold s).mem.cells = true := by
  simp +contextual (maxDischargeDepth := 60) only [State.enterHold, State.bump_cellsOk, State.retireWcb_cellsOk, State.sendMsg_cellsOk, State.closeSession_cellsOk, State.trained_cellsOk, foldl_cellsOk, MemSys.heal_cells, memNil_wf, memPut_wf, memFilter_wf, foldl_memPut_wf, h0, apply_ite State.mem, apply_ite MemSys.cells, apply_ite Memory.wf, ite_self, implies_true]

@[simp] theorem State.setPower_cellsOk (s : State) (target trim : Nat) (h0 : Memory.wf s.mem.cells = true) :
    Memory.wf (State.setPower s target trim).mem.cells = true := by
  simp +contextual (maxDischargeDepth := 60) only [State.setPower, State.restartPart_cellsOk, State.regionOff_cellsOk, State.enterHold_cellsOk, foldl_cellsOk, MemSys.heal_cells, memNil_wf, memPut_wf, memFilter_wf, foldl_memPut_wf, h0, apply_ite State.mem, apply_ite MemSys.cells, apply_ite Memory.wf, ite_self, implies_true]

@[simp] theorem applyPower_cellsOk (s : State) (h0 : Memory.wf s.mem.cells = true) :
    Memory.wf (applyPower s).1.mem.cells = true := by
  unfold applyPower
  simp (maxDischargeDepth := 60) only [State.keep_cellsOk, State.setPower_cellsOk, MemSys.heal_cells, memNil_wf, memPut_wf, memFilter_wf, foldl_memPut_wf, h0, apply_ite State.mem, apply_ite MemSys.cells, apply_ite Memory.wf, ite_self, implies_true]
  (repeat' (first | with_reducible exact h0 | split)) <;> simp (maxDischargeDepth := 60) only [State.keep_cellsOk, State.setPower_cellsOk, MemSys.heal_cells, memNil_wf, memPut_wf, memFilter_wf, foldl_memPut_wf, h0, apply_ite State.mem, apply_ite MemSys.cells, apply_ite Memory.wf, ite_self, implies_true]

@[simp] theorem State.writePower_cellsOk (s : State) (target value : Nat) (h0 : Memory.wf s.mem.cells = true) :
    Memory.wf (State.writePower s target value).mem.cells = true := by
  simp (maxDischargeDepth := 60) only [State.writePower, State.trigger_cellsOk, applyPower_cellsOk, MemSys.heal_cells, memNil_wf, memPut_wf, memFilter_wf, foldl_memPut_wf, h0, apply_ite State.mem, apply_ite MemSys.cells, apply_ite Memory.wf, ite_self, implies_true]

@[simp] theorem State.powerLost_cellsOk (s : State) (h0 : Memory.wf s.mem.cells = true) :
    Memory.wf (State.powerLost s).mem.cells = true := by
  simp (maxDischargeDepth := 60) only [State.powerLost, State.drew_cellsOk, State.commitWith_cellsOk, State.storePosts_cellsOk, MemSys.heal_cells, memNil_wf, memPut_wf, memFilter_wf, foldl_memPut_wf, h0, apply_ite State.mem, apply_ite MemSys.cells, apply_ite Memory.wf, ite_self, implies_true]

@[simp] theorem State.perstReset_cellsOk (s : State) (h0 : Memory.wf s.mem.cells = true) :
    Memory.wf (State.perstReset s).mem.cells = true := by
  simp (maxDischargeDepth := 60) only [State.perstReset, State.bump_cellsOk, State.resetRouter_cellsOk, State.unitsReset_cellsOk, State.freeze_cellsOk, MemSys.heal_cells, memNil_wf, memPut_wf, memFilter_wf, foldl_memPut_wf, h0, apply_ite State.mem, apply_ite MemSys.cells, apply_ite Memory.wf, ite_self, implies_true]

@[simp] theorem State.coldState_cellsOk (s : State) (nandOk : Bool) (h0 : Memory.wf s.mem.cells = true) :
    Memory.wf (State.coldState s nandOk).mem.cells = true := by
  exact rfl

@[simp] theorem State.routerStart_cellsOk (s : State) (h0 : Memory.wf s.mem.cells = true) :
    Memory.wf (State.routerStart s).mem.cells = true := by
  exact h0

@[simp] theorem State.coldStart_cellsOk (s : State) (failed : List Nat) (h0 : Memory.wf s.mem.cells = true) :
    Memory.wf (State.coldStart s failed).mem.cells = true := by
  simp (maxDischargeDepth := 60) only [State.coldStart, State.log_cellsOk, State.enterBootstrap_cellsOk, State.startUp_cellsOk, MemSys.heal_cells, memNil_wf, memPut_wf, memFilter_wf, foldl_memPut_wf, h0, apply_ite State.mem, apply_ite MemSys.cells, apply_ite Memory.wf, ite_self, implies_true]

@[simp] theorem State.sense_cellsOk (s : State) (die device : Nat) (h0 : Memory.wf s.mem.cells = true) :
    Memory.wf (State.sense s die device).mem.cells = true := by
  simp (maxDischargeDepth := 60) only [State.sense, State.watch_cellsOk, MemSys.heal_cells, memNil_wf, memPut_wf, memFilter_wf, foldl_memPut_wf, h0, apply_ite State.mem, apply_ite MemSys.cells, apply_ite Memory.wf, ite_self, implies_true]

@[simp] theorem State.foeError_cellsOk (s : State) (code status : Nat) (h0 : Memory.wf s.mem.cells = true) :
    Memory.wf (State.foeError s code status).mem.cells = true := by
  simp (maxDischargeDepth := 60) only [State.foeError, State.placeSm1_cellsOk, MemSys.heal_cells, memNil_wf, memPut_wf, memFilter_wf, foldl_memPut_wf, h0, apply_ite State.mem, apply_ite MemSys.cells, apply_ite Memory.wf, ite_self, implies_true]

@[simp] theorem State.takeImage_cellsOk (s : State) (b : Bytes) (readBack : Nat) (h0 : Memory.wf s.mem.cells = true) :
    Memory.wf (State.takeImage s b readBack).mem.cells = true := by
  simp (maxDischargeDepth := 60) only [State.takeImage, State.bump_cellsOk, State.placeSm1_cellsOk, State.placeImage_cellsOk, State.serve_cellsOk, State.foeError_cellsOk, MemSys.heal_cells, memNil_wf, memPut_wf, memFilter_wf, foldl_memPut_wf, h0, apply_ite State.mem, apply_ite MemSys.cells, apply_ite Memory.wf, ite_self, implies_true]

@[simp] theorem applyActivate_cellsOk (s : State) (h0 : Memory.wf s.mem.cells = true) :
    Memory.wf (applyActivate s).1.mem.cells = true := by
  unfold applyActivate
  (repeat' (first | with_reducible exact h0 | split)) <;> simp (maxDischargeDepth := 60) only [State.commit_cellsOk, MemSys.heal_cells, memNil_wf, memPut_wf, memFilter_wf, foldl_memPut_wf, h0, apply_ite State.mem, apply_ite MemSys.cells, apply_ite Memory.wf, ite_self, implies_true]

/-! ### Dictionary -/

@[simp] theorem State.writePdo_cellsOk (s : State) (idx sub : Nat) (l : List Nat) (h0 : Memory.wf s.mem.cells = true) :
    Memory.wf (State.writePdo s idx sub l).mem.cells = true := by
  simp (maxDischargeDepth := 60) only [State.writePdo, State.abort_cellsOk, State.answerWrite_cellsOk, MemSys.heal_cells, memNil_wf, memPut_wf, memFilter_wf, foldl_memPut_wf, h0, apply_ite State.mem, apply_ite MemSys.cells, apply_ite Memory.wf, ite_self, implies_true]

@[simp] theorem applyLayout_cellsOk (s : State) (h0 : Memory.wf s.mem.cells = true) :
    Memory.wf (applyLayout s).1.mem.cells = true := by
  unfold applyLayout
  (repeat' (first | with_reducible exact h0 | split)) <;> simp +contextual (maxDischargeDepth := 60) only [State.keep_cellsOk, foldl_cellsOk, MemSys.heal_cells, memNil_wf, memPut_wf, memFilter_wf, foldl_memPut_wf, h0, apply_ite State.mem, apply_ite MemSys.cells, apply_ite Memory.wf, ite_self, implies_true]

@[simp] theorem State.quietWrite_cellsOk (s : State) (e : Entry) (b : Bytes) (h0 : Memory.wf s.mem.cells = true) :
    Memory.wf (State.quietWrite s e b).1.mem.cells = true := by
  unfold State.quietWrite
  simp (maxDischargeDepth := 60) only [State.dset_cellsOk, State.trigger_cellsOk, State.keep_cellsOk, applyQuota_cellsOk, applyLaneRetrain_cellsOk, applyRoute_cellsOk, applyRouteDefaults_cellsOk, applyPortEnable_cellsOk, applyCtrlStart_cellsOk, applyStoreAll_cellsOk, applyRestore_cellsOk, applyFence_cellsOk, applyDebugWrite_cellsOk, applyLayout_cellsOk, MemSys.heal_cells, memNil_wf, memPut_wf, memFilter_wf, foldl_memPut_wf, h0, apply_ite State.mem, apply_ite MemSys.cells, apply_ite Memory.wf, ite_self, implies_true]
  (repeat' (first | with_reducible exact h0 | split)) <;> simp (maxDischargeDepth := 60) only [State.dset_cellsOk, State.trigger_cellsOk, State.keep_cellsOk, applyQuota_cellsOk, applyLaneRetrain_cellsOk, applyRoute_cellsOk, applyRouteDefaults_cellsOk, applyPortEnable_cellsOk, applyCtrlStart_cellsOk, applyStoreAll_cellsOk, applyRestore_cellsOk, applyFence_cellsOk, applyDebugWrite_cellsOk, applyLayout_cellsOk, MemSys.heal_cells, memNil_wf, memPut_wf, memFilter_wf, foldl_memPut_wf, h0, apply_ite State.mem, apply_ite MemSys.cells, apply_ite Memory.wf, ite_self, implies_true]

@[simp] theorem State.rowWrite_cellsOk (s : State) (e : Entry) (b : Bytes) (h0 : Memory.wf s.mem.cells = true) :
    Memory.wf (State.rowWrite s e b).mem.cells = true := by
  unfold State.rowWrite
  dsimp only
  split <;> simp +contextual (maxDischargeDepth := 60) [Out.state, apply_ite State.mem, apply_ite MemSys.cells, apply_ite Memory.wf, ite_self, execRetrainRequest, execSuspendContext, execResumeContext, execSuspendPartition, execNodeCommit, execRouterReset, execFaultClear, execRaiseSecurityVersion, execRotateIdentity, execProvision, execProvisionScrap, execAttestNonce, execUnlockFull, execToField, execToReturned, execToScrapped, execRevoke, execUnlockObserve, execRelock, execDebugDataWrite, execActivateFirmware, h0]

@[simp] theorem State.download_cellsOk (s : State) (idx sub : Nat) (b : Bytes) (h0 : Memory.wf s.mem.cells = true) :
    Memory.wf (State.download s idx sub b).mem.cells = true := by
  unfold State.download
  (repeat' (first | with_reducible exact h0 | split)) <;> simp (maxDischargeDepth := 60) only [State.abort_cellsOk, State.answerWrite_cellsOk, State.trigger_cellsOk, State.quietWrite_cellsOk, State.rowWrite_cellsOk, MemSys.heal_cells, memNil_wf, memPut_wf, memFilter_wf, foldl_memPut_wf, h0, apply_ite State.mem, apply_ite MemSys.cells, apply_ite Memory.wf, ite_self, implies_true]

@[simp] theorem State.writeAll_cellsOk (s : State) (l : List (Entry × Bytes)) (h0 : Memory.wf s.mem.cells = true) :
    Memory.wf (s.writeAll l).1.mem.cells = true := by
  unfold State.writeAll
  suffices h : ∀ acc : State × Nat × Nat, Memory.wf acc.1.mem.cells = true → Memory.wf (l.foldl (fun acc x =>
      if acc.2.1 != 0 then acc else ((acc.1.quietWrite x.1 x.2).1, (acc.1.quietWrite x.1 x.2).2, x.1.sub)) acc).1.mem.cells = true from
    h (s, 0, 0) h0
  induction l with
  | nil => intro acc h; exact h
  | cons x l ih =>
    intro acc h
    rw [List.foldl_cons]
    apply ih
    split
    · exact h
    · exact State.quietWrite_cellsOk _ _ _ h

@[simp] theorem State.downloadAll_cellsOk (s : State) (idx sub : Nat) (b : Bytes) (h0 : Memory.wf s.mem.cells = true) :
    Memory.wf (State.downloadAll s idx sub b).mem.cells = true := by
  unfold State.downloadAll
  simp (maxDischargeDepth := 60) only [State.abort_cellsOk, State.answerWrite_cellsOk, State.writeAll_cellsOk, MemSys.heal_cells, memNil_wf, memPut_wf, memFilter_wf, foldl_memPut_wf, h0, apply_ite State.mem, apply_ite MemSys.cells, apply_ite Memory.wf, ite_self, implies_true]
  (repeat' (first | with_reducible exact h0 | split)) <;> simp (maxDischargeDepth := 60) only [State.abort_cellsOk, State.answerWrite_cellsOk, State.writeAll_cellsOk, MemSys.heal_cells, memNil_wf, memPut_wf, memFilter_wf, foldl_memPut_wf, h0, apply_ite State.mem, apply_ite MemSys.cells, apply_ite Memory.wf, ite_self, implies_true]

@[simp] theorem State.downloadPdo_cellsOk (s : State) (idx sub : Nat) (complete : Bool) (width : Nat) (l : List Nat) (b : Bytes) (h0 : Memory.wf s.mem.cells = true) :
    Memory.wf (State.downloadPdo s idx sub complete width l b).mem.cells = true := by
  simp (maxDischargeDepth := 60) only [State.downloadPdo, State.abort_cellsOk, State.complete_cellsOk, State.writePdo_cellsOk, MemSys.heal_cells, memNil_wf, memPut_wf, memFilter_wf, foldl_memPut_wf, h0, apply_ite State.mem, apply_ite MemSys.cells, apply_ite Memory.wf, ite_self, implies_true]

@[simp] theorem State.uploadOne_cellsOk (s : State) (idx sub : Nat) (h0 : Memory.wf s.mem.cells = true) :
    Memory.wf (State.uploadOne s idx sub).mem.cells = true := by
  unfold State.uploadOne
  split
  · simp (maxDischargeDepth := 60) only [apply_ite State.mem, apply_ite MemSys.cells, apply_ite Memory.wf, ite_self, State.upload_cellsOk, State.abort_cellsOk, h0]
  · dsimp only
    (repeat' (first | with_reducible exact h0 | split)) <;> (try simp (maxDischargeDepth := 60) only [State.upload_cellsOk, State.abort_cellsOk, h0]) <;>
      simp (maxDischargeDepth := 60) [Out.state, execChallenge, execDebugDataRead, apply_ite State.mem, apply_ite MemSys.cells, apply_ite Memory.wf, ite_self, h0]

@[simp] theorem State.uploadAll_cellsOk (s : State) (idx sub : Nat) (h0 : Memory.wf s.mem.cells = true) :
    Memory.wf (State.uploadAll s idx sub).mem.cells = true := by
  unfold State.uploadAll
  simp (maxDischargeDepth := 60) only [State.abort_cellsOk, State.upload_cellsOk, MemSys.heal_cells, memNil_wf, memPut_wf, memFilter_wf, foldl_memPut_wf, h0, apply_ite State.mem, apply_ite MemSys.cells, apply_ite Memory.wf, ite_self, implies_true]
  (repeat' (first | with_reducible exact h0 | split)) <;> simp (maxDischargeDepth := 60) only [State.abort_cellsOk, State.upload_cellsOk, MemSys.heal_cells, memNil_wf, memPut_wf, memFilter_wf, foldl_memPut_wf, h0, apply_ite State.mem, apply_ite MemSys.cells, apply_ite Memory.wf, ite_self, implies_true]

/-! ### EtherCat -/

@[simp] theorem State.escPut_cellsOk (s : State) (a : Nat) (v : Byte) (h0 : Memory.wf s.mem.cells = true) :
    Memory.wf (State.escPut s a v).mem.cells = true := by
  simp (maxDischargeDepth := 60) only [State.escPut, MemSys.heal_cells, memNil_wf, memPut_wf, memFilter_wf, foldl_memPut_wf, h0, apply_ite State.mem, apply_ite MemSys.cells, apply_ite Memory.wf, ite_self, implies_true]

@[simp] theorem State.escPuts_cellsOk (s : State) (a : Nat) (v0 : Bytes) (h0 : Memory.wf s.mem.cells = true) :
    Memory.wf (State.escPuts s a v0).mem.cells = true := by
  induction v0 generalizing s a  with
  | nil =>
    first
    | exact h0
    | (simp (maxDischargeDepth := 60) only [State.escPuts, State.escPut_cellsOk, MemSys.heal_cells, memNil_wf, memPut_wf, memFilter_wf, foldl_memPut_wf, h0, apply_ite State.mem, apply_ite MemSys.cells, apply_ite Memory.wf, ite_self, implies_true]; done)
  | cons b l ih =>
    first
    | (simp (maxDischargeDepth := 60) only [State.escPuts, State.escPut_cellsOk, MemSys.heal_cells, memNil_wf, memPut_wf, memFilter_wf, foldl_memPut_wf, h0, apply_ite State.mem, apply_ite MemSys.cells, apply_ite Memory.wf, ite_self, implies_true, ih]; done)
    | (unfold State.escPuts; (repeat' (first | with_reducible exact h0 | split)) <;> (simp (maxDischargeDepth := 60) only [State.escPut_cellsOk, MemSys.heal_cells, memNil_wf, memPut_wf, memFilter_wf, foldl_memPut_wf, h0, apply_ite State.mem, apply_ite MemSys.cells, apply_ite Memory.wf, ite_self, implies_true, ih]; done))
    | (unfold State.escPuts; (repeat' (first | with_reducible exact h0 | split)) <;> (try simp (maxDischargeDepth := 60) only [State.escPut_cellsOk, MemSys.heal_cells, memNil_wf, memPut_wf, memFilter_wf, foldl_memPut_wf, h0, apply_ite State.mem, apply_ite MemSys.cells, apply_ite Memory.wf, ite_self, implies_true, ih]) <;> (repeat' (first | with_reducible exact h0 | split)) <;> (simp (maxDischargeDepth := 60) only [State.escPut_cellsOk, MemSys.heal_cells, memNil_wf, memPut_wf, memFilter_wf, foldl_memPut_wf, h0, apply_ite State.mem, apply_ite MemSys.cells, apply_ite Memory.wf, ite_self, implies_true, ih]; done))
    | (unfold State.escPuts; (repeat' (first | with_reducible exact h0 | split)) <;> (simp +contextual (maxDischargeDepth := 60) only [State.escPut_cellsOk, MemSys.heal_cells, memNil_wf, memPut_wf, memFilter_wf, foldl_memPut_wf, h0, apply_ite State.mem, apply_ite MemSys.cells, apply_ite Memory.wf, ite_self, implies_true, ih]; done))

@[simp] theorem State.mailboxIn_cellsOk (s : State) (h0 : Memory.wf s.mem.cells = true) :
    Memory.wf (State.mailboxIn s).mem.cells = true := by
  simp (maxDischargeDepth := 60) only [State.mailboxIn, MemSys.heal_cells, memNil_wf, memPut_wf, memFilter_wf, foldl_memPut_wf, h0, apply_ite State.mem, apply_ite MemSys.cells, apply_ite Memory.wf, ite_self, implies_true]

@[simp] theorem State.outputIn_cellsOk (s : State) (h0 : Memory.wf s.mem.cells = true) :
    Memory.wf (State.outputIn s).mem.cells = true := by
  simp (maxDischargeDepth := 60) only [State.outputIn, State.dset_cellsOk, MemSys.heal_cells, memNil_wf, memPut_wf, memFilter_wf, foldl_memPut_wf, h0, apply_ite State.mem, apply_ite MemSys.cells, apply_ite Memory.wf, ite_self, implies_true]

@[simp] theorem State.repeatMailbox_cellsOk (s : State) (h0 : Memory.wf s.mem.cells = true) :
    Memory.wf (State.repeatMailbox s).mem.cells = true := by
  simp (maxDischargeDepth := 60) only [State.repeatMailbox, MemSys.heal_cells, memNil_wf, memPut_wf, memFilter_wf, foldl_memPut_wf, h0, apply_ite State.mem, apply_ite MemSys.cells, apply_ite Memory.wf, ite_self, implies_true]

@[simp] theorem State.mailboxOut_cellsOk (s : State) (h0 : Memory.wf s.mem.cells = true) :
    Memory.wf (State.mailboxOut s).mem.cells = true := by
  unfold State.mailboxOut
  (repeat' (first | with_reducible exact h0 | split)) <;> simp (maxDischargeDepth := 60) only [State.flushEmergency_cellsOk, MemSys.heal_cells, memNil_wf, memPut_wf, memFilter_wf, foldl_memPut_wf, h0, apply_ite State.mem, apply_ite MemSys.cells, apply_ite Memory.wf, ite_self, implies_true]

@[simp] theorem State.escWritten_cellsOk (s : State) (a n : Nat) (h0 : Memory.wf s.mem.cells = true) :
    Memory.wf (State.escWritten s a n).mem.cells = true := by
  simp (maxDischargeDepth := 60) only [State.escWritten, State.mailboxIn_cellsOk, State.outputIn_cellsOk, State.repeatMailbox_cellsOk, MemSys.heal_cells, memNil_wf, memPut_wf, memFilter_wf, foldl_memPut_wf, h0, apply_ite State.mem, apply_ite MemSys.cells, apply_ite Memory.wf, ite_self, implies_true]

@[simp] theorem State.escRead_cellsOk (s : State) (a n : Nat) (h0 : Memory.wf s.mem.cells = true) :
    Memory.wf (State.escRead s a n).mem.cells = true := by
  simp (maxDischargeDepth := 60) only [State.escRead, State.mailboxOut_cellsOk, MemSys.heal_cells, memNil_wf, memPut_wf, memFilter_wf, foldl_memPut_wf, h0, apply_ite State.mem, apply_ite MemSys.cells, apply_ite Memory.wf, ite_self, implies_true]

@[simp] theorem State.logical_cellsOk (s : State) (d : EscDgram) (h0 : Memory.wf s.mem.cells = true) :
    Memory.wf (State.logical s d).1.mem.cells = true := by
  simp +contextual (maxDischargeDepth := 60) only [State.logical, State.escPut_cellsOk, State.escWritten_cellsOk, State.escRead_cellsOk, foldl_cellsOk, MemSys.heal_cells, memNil_wf, memPut_wf, memFilter_wf, foldl_memPut_wf, h0, apply_ite State.mem, apply_ite MemSys.cells, apply_ite Memory.wf, ite_self, implies_true]

@[simp] theorem State.datagram_cellsOk (s : State) (d : EscDgram) (h0 : Memory.wf s.mem.cells = true) :
    Memory.wf (State.datagram s d).mem.cells = true := by
  simp (maxDischargeDepth := 60) only [State.datagram, State.escPuts_cellsOk, State.escWritten_cellsOk, State.escRead_cellsOk, State.logical_cellsOk, MemSys.heal_cells, memNil_wf, memPut_wf, memFilter_wf, foldl_memPut_wf, h0, apply_ite State.mem, apply_ite MemSys.cells, apply_ite Memory.wf, ite_self, implies_true]

/-! ### Step -/

@[simp] theorem State.withFetchWord_cellsOk (s : State) (nbits w : Nat) (h0 : Memory.wf s.mem.cells = true) :
    Memory.wf (State.withFetchWord s nbits w).mem.cells = true := by
  exact h0

/-! ### Commands -/

theorem execIntkText_cellsOk (c idx : Nat) (s : State) (t : State) (h : execIntkText c idx s = .next t) (h0 : Memory.wf s.mem.cells = true) :
    Memory.wf t.mem.cells = true := by
  unfold execIntkText at h
  cases h
  apply State.startMacro_cellsOk _ _ _ _ h0
  intro go hgo s e f h1
  cases hgo <;> simp (maxDischargeDepth := 60) [h1, apply_ite State.mem, apply_ite MemSys.cells, apply_ite Memory.wf, ite_self]

theorem execIntkImage_cellsOk (c idx : Nat) (s : State) (t : State) (h : execIntkImage c idx s = .next t) (h0 : Memory.wf s.mem.cells = true) :
    Memory.wf t.mem.cells = true := by
  unfold execIntkImage at h
  cases h
  apply State.startMacro_cellsOk _ _ _ _ h0
  intro go hgo s e f h1
  cases hgo <;> simp (maxDischargeDepth := 60) [h1, apply_ite State.mem, apply_ite MemSys.cells, apply_ite Memory.wf, ite_self]

theorem execIntkInstall_cellsOk (c idx : Nat) (s : State) (t : State) (h : execIntkInstall c idx s = .next t) (h0 : Memory.wf s.mem.cells = true) :
    Memory.wf t.mem.cells = true := by
  unfold execIntkInstall at h
  cases h
  apply State.startMacro_cellsOk _ _ _ _ h0
  intro go hgo s e f h1
  cases hgo <;> simp (maxDischargeDepth := 60) [h1, apply_ite State.mem, apply_ite MemSys.cells, apply_ite Memory.wf, ite_self]

theorem execSampleTake_cellsOk (pipe : Nat) (s : State) (t : State) (h : execSampleTake pipe s = .next t) (h0 : Memory.wf s.mem.cells = true) :
    Memory.wf t.mem.cells = true := by
  unfold execSampleTake at h
  cases h
  simp (maxDischargeDepth := 60) only [State.takeSample_cellsOk, MemSys.heal_cells, memNil_wf, memPut_wf, memFilter_wf, foldl_memPut_wf, h0, apply_ite State.mem, apply_ite MemSys.cells, apply_ite Memory.wf, ite_self, implies_true]

theorem execSampleComplete_cellsOk (pipe : Nat) (s : State) (t : State) (h : execSampleComplete pipe s = .next t) (h0 : Memory.wf s.mem.cells = true) :
    Memory.wf t.mem.cells = true := by
  unfold execSampleComplete at h
  cases h
  (repeat' (first | with_reducible exact h0 | split)) <;> simp (maxDischargeDepth := 60) only [State.slotJudged_cellsOk, State.takeSample_cellsOk, MemSys.heal_cells, memNil_wf, memPut_wf, memFilter_wf, foldl_memPut_wf, h0, apply_ite State.mem, apply_ite MemSys.cells, apply_ite Memory.wf, ite_self, implies_true]

theorem execSampleBudgetExpiry_cellsOk (pipe : Nat) (s : State) (t : State) (h : execSampleBudgetExpiry pipe s = .next t) (h0 : Memory.wf s.mem.cells = true) :
    Memory.wf t.mem.cells = true := by
  unfold execSampleBudgetExpiry at h
  cases h
  (repeat' (first | with_reducible exact h0 | split)) <;> simp (maxDischargeDepth := 60) only [State.bump_cellsOk, State.slotDone_cellsOk, State.takeSample_cellsOk, MemSys.heal_cells, memNil_wf, memPut_wf, memFilter_wf, foldl_memPut_wf, h0, apply_ite State.mem, apply_ite MemSys.cells, apply_ite Memory.wf, ite_self, implies_true]

theorem execDictReplace_cellsOk (slot : Nat) (s : State) (t : State) (h : execDictReplace slot s = .next t) (h0 : Memory.wf s.mem.cells = true) :
    Memory.wf t.mem.cells = true := by
  unfold execDictReplace at h
  cases h
  simp (maxDischargeDepth := 60) only [State.bump_cellsOk, State.setFlight_cellsOk, State.dropIntk_cellsOk, MemSys.heal_cells, memNil_wf, memPut_wf, memFilter_wf, foldl_memPut_wf, h0, apply_ite State.mem, apply_ite MemSys.cells, apply_ite Memory.wf, ite_self, implies_true]
  (repeat' (first | with_reducible exact h0 | split)) <;> simp (maxDischargeDepth := 60) only [State.bump_cellsOk, State.setFlight_cellsOk, State.dropIntk_cellsOk, MemSys.heal_cells, memNil_wf, memPut_wf, memFilter_wf, foldl_memPut_wf, h0, apply_ite State.mem, apply_ite MemSys.cells, apply_ite Memory.wf, ite_self, implies_true]

theorem execCodecOpenEncoder_cellsOk (c idx : Nat) (s : State) (t : State) (h : execCodecOpenEncoder c idx s = .next t) (h0 : Memory.wf s.mem.cells = true) :
    Memory.wf t.mem.cells = true := by
  unfold execCodecOpenEncoder at h
  cases h
  apply State.startMacro_cellsOk _ _ _ _ h0
  intro go hgo s e f h1
  cases hgo <;> simp (maxDischargeDepth := 60) [h1, apply_ite State.mem, apply_ite MemSys.cells, apply_ite Memory.wf, ite_self]

theorem execCodecOpenDecoder_cellsOk (c idx : Nat) (s : State) (t : State) (h : execCodecOpenDecoder c idx s = .next t) (h0 : Memory.wf s.mem.cells = true) :
    Memory.wf t.mem.cells = true := by
  unfold execCodecOpenDecoder at h
  cases h
  apply State.startMacro_cellsOk _ _ _ _ h0
  intro go hgo s e f h1
  cases hgo <;> simp (maxDischargeDepth := 60) [h1, apply_ite State.mem, apply_ite MemSys.cells, apply_ite Memory.wf, ite_self]

theorem execCodecEncode_cellsOk (c idx : Nat) (s : State) (t : State) (h : execCodecEncode c idx s = .next t) (h0 : Memory.wf s.mem.cells = true) :
    Memory.wf t.mem.cells = true := by
  unfold execCodecEncode at h
  cases h
  apply State.startMacro_cellsOk _ _ _ _ h0
  intro go hgo s e f h1
  cases hgo <;> simp (maxDischargeDepth := 60) [h1, apply_ite State.mem, apply_ite MemSys.cells, apply_ite Memory.wf, ite_self]

theorem execCodecDecode_cellsOk (c idx : Nat) (s : State) (t : State) (h : execCodecDecode c idx s = .next t) (h0 : Memory.wf s.mem.cells = true) :
    Memory.wf t.mem.cells = true := by
  unfold execCodecDecode at h
  cases h
  apply State.startMacro_cellsOk _ _ _ _ h0
  intro go hgo s e f h1
  cases hgo <;> simp (maxDischargeDepth := 60) [h1, apply_ite State.mem, apply_ite MemSys.cells, apply_ite Memory.wf, ite_self]

theorem execCodecClose_cellsOk (c idx : Nat) (s : State) (t : State) (h : execCodecClose c idx s = .next t) (h0 : Memory.wf s.mem.cells = true) :
    Memory.wf t.mem.cells = true := by
  unfold execCodecClose at h
  cases h
  apply State.startMacro_cellsOk _ _ _ _ h0
  intro go hgo s e f h1
  cases hgo <;> simp (maxDischargeDepth := 60) [h1, apply_ite State.mem, apply_ite MemSys.cells, apply_ite Memory.wf, ite_self]

theorem execFrameTake_cellsOk (pipe : Nat) (s : State) (t : State) (h : execFrameTake pipe s = .next t) (h0 : Memory.wf s.mem.cells = true) :
    Memory.wf t.mem.cells = true := by
  unfold execFrameTake at h
  cases h
  simp (maxDischargeDepth := 60) only [State.takeFrame_cellsOk, MemSys.heal_cells, memNil_wf, memPut_wf, memFilter_wf, foldl_memPut_wf, h0, apply_ite State.mem, apply_ite MemSys.cells, apply_ite Memory.wf, ite_self, implies_true]

theorem execFrameComplete_cellsOk (pipe : Nat) (s : State) (t : State) (h : execFrameComplete pipe s = .next t) (h0 : Memory.wf s.mem.cells = true) :
    Memory.wf t.mem.cells = true := by
  unfold execFrameComplete at h
  cases h
  simp (maxDischargeDepth := 60) only [State.frameDone_cellsOk, MemSys.heal_cells, memNil_wf, memPut_wf, memFilter_wf, foldl_memPut_wf, h0, apply_ite State.mem, apply_ite MemSys.cells, apply_ite Memory.wf, ite_self, implies_true]

theorem execFrameBudgetExpiry_cellsOk (pipe : Nat) (s : State) (t : State) (h : execFrameBudgetExpiry pipe s = .next t) (h0 : Memory.wf s.mem.cells = true) :
    Memory.wf t.mem.cells = true := by
  unfold execFrameBudgetExpiry at h
  cases h
  simp (maxDischargeDepth := 60) only [State.frameDone_cellsOk, MemSys.heal_cells, memNil_wf, memPut_wf, memFilter_wf, foldl_memPut_wf, h0, apply_ite State.mem, apply_ite MemSys.cells, apply_ite Memory.wf, ite_self, implies_true]

theorem execNewTail_cellsOk (c width value : Nat) (s : State) (t : State) (h : execNewTail c width value s = .next t) (h0 : Memory.wf s.mem.cells = true) :
    Memory.wf t.mem.cells = true := by
  unfold execNewTail at h
  cases h
  simp (maxDischargeDepth := 60) only [State.bellIgnored_cellsOk, State.bellFetch_cellsOk, State.bellTail_cellsOk, MemSys.heal_cells, memNil_wf, memPut_wf, memFilter_wf, foldl_memPut_wf, h0, apply_ite State.mem, apply_ite MemSys.cells, apply_ite Memory.wf, ite_self, implies_true]

theorem execResume_cellsOk (c value : Nat) (s : State) (t : State) (h : execResume c value s = .next t) (h0 : Memory.wf s.mem.cells = true) :
    Memory.wf t.mem.cells = true := by
  unfold execResume at h
  cases h
  simp (maxDischargeDepth := 60) only [State.finishJob_cellsOk, State.bellFetch_cellsOk, State.bellResume_cellsOk, MemSys.heal_cells, memNil_wf, memPut_wf, memFilter_wf, foldl_memPut_wf, h0, apply_ite State.mem, apply_ite MemSys.cells, apply_ite Memory.wf, ite_self, implies_true]

theorem execMma_cellsOk (c idx : Nat) (s : State) (t : State) (h : execMma c idx s = .next t) (h0 : Memory.wf s.mem.cells = true) :
    Memory.wf t.mem.cells = true := by
  unfold execMma at h
  cases h
  apply State.startMacro_cellsOk _ _ _ _ h0
  intro go hgo s e f h1
  cases hgo <;> simp (maxDischargeDepth := 60) [h1, apply_ite State.mem, apply_ite MemSys.cells, apply_ite Memory.wf, ite_self]

theorem execMmas_cellsOk (c idx : Nat) (s : State) (t : State) (h : execMmas c idx s = .next t) (h0 : Memory.wf s.mem.cells = true) :
    Memory.wf t.mem.cells = true := by
  unfold execMmas at h
  cases h
  apply State.startMacro_cellsOk _ _ _ _ h0
  intro go hgo s e f h1
  cases hgo <;> simp (maxDischargeDepth := 60) [h1, apply_ite State.mem, apply_ite MemSys.cells, apply_ite Memory.wf, ite_self]

theorem execConv_cellsOk (c idx : Nat) (s : State) (t : State) (h : execConv c idx s = .next t) (h0 : Memory.wf s.mem.cells = true) :
    Memory.wf t.mem.cells = true := by
  unfold execConv at h
  cases h
  apply State.startMacro_cellsOk _ _ _ _ h0
  intro go hgo s e f h1
  cases hgo <;> simp (maxDischargeDepth := 60) [h1, apply_ite State.mem, apply_ite MemSys.cells, apply_ite Memory.wf, ite_self]

theorem execPool_cellsOk (c idx : Nat) (s : State) (t : State) (h : execPool c idx s = .next t) (h0 : Memory.wf s.mem.cells = true) :
    Memory.wf t.mem.cells = true := by
  unfold execPool at h
  cases h
  apply State.startMacro_cellsOk _ _ _ _ h0
  intro go hgo s e f h1
  cases hgo <;> simp (maxDischargeDepth := 60) [h1, apply_ite State.mem, apply_ite MemSys.cells, apply_ite Memory.wf, ite_self]

theorem execAttf_cellsOk (c idx : Nat) (s : State) (t : State) (h : execAttf c idx s = .next t) (h0 : Memory.wf s.mem.cells = true) :
    Memory.wf t.mem.cells = true := by
  unfold execAttf at h
  cases h
  apply State.startMacro_cellsOk _ _ _ _ h0
  intro go hgo s e f h1
  cases hgo <;> simp (maxDischargeDepth := 60) [h1, apply_ite State.mem, apply_ite MemSys.cells, apply_ite Memory.wf, ite_self]

theorem execAttb_cellsOk (c idx : Nat) (s : State) (t : State) (h : execAttb c idx s = .next t) (h0 : Memory.wf s.mem.cells = true) :
    Memory.wf t.mem.cells = true := by
  unfold execAttb at h
  cases h
  apply State.startMacro_cellsOk _ _ _ _ h0
  intro go hgo s e f h1
  cases hgo <;> simp (maxDischargeDepth := 60) [h1, apply_ite State.mem, apply_ite MemSys.cells, apply_ite Memory.wf, ite_self]

theorem execLatx_cellsOk (c idx : Nat) (s : State) (t : State) (h : execLatx c idx s = .next t) (h0 : Memory.wf s.mem.cells = true) :
    Memory.wf t.mem.cells = true := by
  unfold execLatx at h
  cases h
  apply State.startMacro_cellsOk _ _ _ _ h0
  intro go hgo s e f h1
  cases hgo <;> simp (maxDischargeDepth := 60) [h1, apply_ite State.mem, apply_ite MemSys.cells, apply_ite Memory.wf, ite_self]

theorem execKvap_cellsOk (c idx : Nat) (s : State) (t : State) (h : execKvap c idx s = .next t) (h0 : Memory.wf s.mem.cells = true) :
    Memory.wf t.mem.cells = true := by
  unfold execKvap at h
  cases h
  apply State.startMacro_cellsOk _ _ _ _ h0
  intro go hgo s e f h1
  cases hgo <;> simp (maxDischargeDepth := 60) [h1, apply_ite State.mem, apply_ite MemSys.cells, apply_ite Memory.wf, ite_self]

theorem execSfn_cellsOk (c idx : Nat) (s : State) (t : State) (h : execSfn c idx s = .next t) (h0 : Memory.wf s.mem.cells = true) :
    Memory.wf t.mem.cells = true := by
  unfold execSfn at h
  cases h
  apply State.startMacro_cellsOk _ _ _ _ h0
  intro go hgo s e f h1
  cases hgo <;> simp (maxDischargeDepth := 60) [h1, apply_ite State.mem, apply_ite MemSys.cells, apply_ite Memory.wf, ite_self]

theorem execNorm_cellsOk (c idx : Nat) (s : State) (t : State) (h : execNorm c idx s = .next t) (h0 : Memory.wf s.mem.cells = true) :
    Memory.wf t.mem.cells = true := by
  unfold execNorm at h
  cases h
  apply State.startMacro_cellsOk _ _ _ _ h0
  intro go hgo s e f h1
  cases hgo <;> simp (maxDischargeDepth := 60) [h1, apply_ite State.mem, apply_ite MemSys.cells, apply_ite Memory.wf, ite_self]

theorem execSmax_cellsOk (c idx : Nat) (s : State) (t : State) (h : execSmax c idx s = .next t) (h0 : Memory.wf s.mem.cells = true) :
    Memory.wf t.mem.cells = true := by
  unfold execSmax at h
  cases h
  apply State.startMacro_cellsOk _ _ _ _ h0
  intro go hgo s e f h1
  cases hgo <;> simp (maxDischargeDepth := 60) [h1, apply_ite State.mem, apply_ite MemSys.cells, apply_ite Memory.wf, ite_self]

theorem execSamp_cellsOk (c idx : Nat) (s : State) (t : State) (h : execSamp c idx s = .next t) (h0 : Memory.wf s.mem.cells = true) :
    Memory.wf t.mem.cells = true := by
  unfold execSamp at h
  cases h
  apply State.startMacro_cellsOk _ _ _ _ h0
  intro go hgo s e f h1
  cases hgo <;> simp (maxDischargeDepth := 60) [h1, apply_ite State.mem, apply_ite MemSys.cells, apply_ite Memory.wf, ite_self]

theorem execRand_cellsOk (c idx : Nat) (s : State) (t : State) (h : execRand c idx s = .next t) (h0 : Memory.wf s.mem.cells = true) :
    Memory.wf t.mem.cells = true := by
  unfold execRand at h
  cases h
  apply State.startMacro_cellsOk _ _ _ _ h0
  intro go hgo s e f h1
  cases hgo <;> simp (maxDischargeDepth := 60) [h1, apply_ite State.mem, apply_ite MemSys.cells, apply_ite Memory.wf, ite_self]

theorem execQnt_cellsOk (c idx : Nat) (s : State) (t : State) (h : execQnt c idx s = .next t) (h0 : Memory.wf s.mem.cells = true) :
    Memory.wf t.mem.cells = true := by
  unfold execQnt at h
  cases h
  apply State.startMacro_cellsOk _ _ _ _ h0
  intro go hgo s e f h1
  cases hgo <;> simp (maxDischargeDepth := 60) [h1, apply_ite State.mem, apply_ite MemSys.cells, apply_ite Memory.wf, ite_self]

theorem execRoute_cellsOk (c idx : Nat) (s : State) (t : State) (h : execRoute c idx s = .next t) (h0 : Memory.wf s.mem.cells = true) :
    Memory.wf t.mem.cells = true := by
  unfold execRoute at h
  cases h
  apply State.startMacro_cellsOk _ _ _ _ h0
  intro go hgo s e f h1
  cases hgo <;> simp (maxDischargeDepth := 60) [h1, apply_ite State.mem, apply_ite MemSys.cells, apply_ite Memory.wf, ite_self]

theorem execGath_cellsOk (c idx : Nat) (s : State) (t : State) (h : execGath c idx s = .next t) (h0 : Memory.wf s.mem.cells = true) :
    Memory.wf t.mem.cells = true := by
  unfold execGath at h
  cases h
  apply State.startMacro_cellsOk _ _ _ _ h0
  intro go hgo s e f h1
  cases hgo <;> simp (maxDischargeDepth := 60) [h1, apply_ite State.mem, apply_ite MemSys.cells, apply_ite Memory.wf, ite_self]

theorem execScat_cellsOk (c idx : Nat) (s : State) (t : State) (h : execScat c idx s = .next t) (h0 : Memory.wf s.mem.cells = true) :
    Memory.wf t.mem.cells = true := by
  unfold execScat at h
  cases h
  apply State.startMacro_cellsOk _ _ _ _ h0
  intro go hgo s e f h1
  cases hgo <;> simp (maxDischargeDepth := 60) [h1, apply_ite State.mem, apply_ite MemSys.cells, apply_ite Memory.wf, ite_self]

theorem execCopy_cellsOk (c idx : Nat) (s : State) (t : State) (h : execCopy c idx s = .next t) (h0 : Memory.wf s.mem.cells = true) :
    Memory.wf t.mem.cells = true := by
  unfold execCopy at h
  cases h
  apply State.startMacro_cellsOk _ _ _ _ h0
  intro go hgo s e f h1
  cases hgo <;> simp (maxDischargeDepth := 60) [h1, apply_ite State.mem, apply_ite MemSys.cells, apply_ite Memory.wf, ite_self]

theorem execStill_cellsOk (c idx : Nat) (s : State) (t : State) (h : execStill c idx s = .next t) (h0 : Memory.wf s.mem.cells = true) :
    Memory.wf t.mem.cells = true := by
  unfold execStill at h
  cases h
  apply State.startMacro_cellsOk _ _ _ _ h0
  intro go hgo s e f h1
  cases hgo <;> simp (maxDischargeDepth := 60) [h1, apply_ite State.mem, apply_ite MemSys.cells, apply_ite Memory.wf, ite_self]

theorem execArgmx_cellsOk (c idx : Nat) (s : State) (t : State) (h : execArgmx c idx s = .next t) (h0 : Memory.wf s.mem.cells = true) :
    Memory.wf t.mem.cells = true := by
  unfold execArgmx at h
  cases h
  apply State.startMacro_cellsOk _ _ _ _ h0
  intro go hgo s e f h1
  cases hgo <;> simp (maxDischargeDepth := 60) [h1, apply_ite State.mem, apply_ite MemSys.cells, apply_ite Memory.wf, ite_self]

theorem execWait_cellsOk (c idx : Nat) (s : State) (t : State) (h : execWait c idx s = .next t) (h0 : Memory.wf s.mem.cells = true) :
    Memory.wf t.mem.cells = true := by
  unfold execWait at h
  cases h
  apply State.startMacro_cellsOk _ _ _ _ h0
  intro go hgo s e f h1
  cases hgo <;> simp (maxDischargeDepth := 60) [h1, apply_ite State.mem, apply_ite MemSys.cells, apply_ite Memory.wf, ite_self]

theorem execSignal_cellsOk (c idx : Nat) (s : State) (t : State) (h : execSignal c idx s = .next t) (h0 : Memory.wf s.mem.cells = true) :
    Memory.wf t.mem.cells = true := by
  unfold execSignal at h
  cases h
  apply State.startMacro_cellsOk _ _ _ _ h0
  intro go hgo s e f h1
  cases hgo <;> simp (maxDischargeDepth := 60) [h1, apply_ite State.mem, apply_ite MemSys.cells, apply_ite Memory.wf, ite_self]

theorem execFence_cellsOk (c idx : Nat) (s : State) (t : State) (h : execFence c idx s = .next t) (h0 : Memory.wf s.mem.cells = true) :
    Memory.wf t.mem.cells = true := by
  unfold execFence at h
  cases h
  apply State.startMacro_cellsOk _ _ _ _ h0
  intro go hgo s e f h1
  cases hgo <;> simp (maxDischargeDepth := 60) [h1, apply_ite State.mem, apply_ite MemSys.cells, apply_ite Memory.wf, ite_self]

theorem execNop_cellsOk (c idx : Nat) (s : State) (t : State) (h : execNop c idx s = .next t) (h0 : Memory.wf s.mem.cells = true) :
    Memory.wf t.mem.cells = true := by
  unfold execNop at h
  cases h
  apply State.startMacro_cellsOk _ _ _ _ h0
  intro go hgo s e f h1
  cases hgo <;> simp (maxDischargeDepth := 60) [h1, apply_ite State.mem, apply_ite MemSys.cells, apply_ite Memory.wf, ite_self]

theorem execInstructionComplete_cellsOk (c idx : Nat) (s : State) (t : State) (h : execInstructionComplete c idx s = .next t) (h0 : Memory.wf s.mem.cells = true) :
    Memory.wf t.mem.cells = true := by
  unfold execInstructionComplete at h
  cases h
  simp (maxDischargeDepth := 60) only [State.complete_cellsOk, MemSys.heal_cells, memNil_wf, memPut_wf, memFilter_wf, foldl_memPut_wf, h0, apply_ite State.mem, apply_ite MemSys.cells, apply_ite Memory.wf, ite_self, implies_true]

theorem execWaitSatisfied_cellsOk (c idx : Nat) (s : State) (t : State) (h : execWaitSatisfied c idx s = .next t) (h0 : Memory.wf s.mem.cells = true) :
    Memory.wf t.mem.cells = true := by
  unfold execWaitSatisfied at h
  cases h
  (repeat' (first | with_reducible exact h0 | split)) <;> simp (maxDischargeDepth := 60) only [State.endWait_cellsOk, MemSys.heal_cells, memNil_wf, memPut_wf, memFilter_wf, foldl_memPut_wf, h0, apply_ite State.mem, apply_ite MemSys.cells, apply_ite Memory.wf, ite_self, implies_true]

theorem execWaitTimeout_cellsOk (c idx : Nat) (s : State) (t : State) (h : execWaitTimeout c idx s = .next t) (h0 : Memory.wf s.mem.cells = true) :
    Memory.wf t.mem.cells = true := by
  unfold execWaitTimeout at h
  cases h
  (repeat' (first | with_reducible exact h0 | split)) <;> simp (maxDischargeDepth := 60) only [State.bump_cellsOk, State.setFlight_cellsOk, State.complete_cellsOk, State.endWait_cellsOk, MemSys.heal_cells, memNil_wf, memPut_wf, memFilter_wf, foldl_memPut_wf, h0, apply_ite State.mem, apply_ite MemSys.cells, apply_ite Memory.wf, ite_self, implies_true]

theorem execTaskTake_cellsOk (cell which : Nat) (s : State) (t : State) (h : execTaskTake cell which s = .next t) (h0 : Memory.wf s.mem.cells = true) :
    Memory.wf t.mem.cells = true := by
  unfold execTaskTake at h
  cases h
  (repeat' (first | with_reducible exact h0 | split)) <;> simp (maxDischargeDepth := 60) only [State.drew_cellsOk, State.setCtx_cellsOk, State.serveTasks_cellsOk, MemSys.heal_cells, memNil_wf, memPut_wf, memFilter_wf, foldl_memPut_wf, h0, apply_ite State.mem, apply_ite MemSys.cells, apply_ite Memory.wf, ite_self, implies_true]

theorem execChainHopTimeout_cellsOk (c idx cell : Nat) (fwd : Bool) (s : State) (t : State) (h : execChainHopTimeout c idx cell fwd s = .next t) (h0 : Memory.wf s.mem.cells = true) :
    Memory.wf t.mem.cells = true := by
  unfold execChainHopTimeout at h
  cases h
  (repeat' (first | with_reducible exact h0 | split)) <;> simp (maxDischargeDepth := 60) only [State.bump_cellsOk, State.drew_cellsOk, MemSys.heal_cells, memNil_wf, memPut_wf, memFilter_wf, foldl_memPut_wf, h0, apply_ite State.mem, apply_ite MemSys.cells, apply_ite Memory.wf, ite_self, implies_true]

theorem execHistoryFetchArrival_cellsOk (c idx block : Nat) (ok : Bool) (data : Bytes) (s : State) (t : State) (h : execHistoryFetchArrival c idx block ok data s = .next t) (h0 : Memory.wf s.mem.cells = true) :
    Memory.wf t.mem.cells = true := by
  unfold execHistoryFetchArrival at h
  cases h
  simp (maxDischargeDepth := 60) only [State.historyArrival_cellsOk, MemSys.heal_cells, memNil_wf, memPut_wf, memFilter_wf, foldl_memPut_wf, h0, apply_ite State.mem, apply_ite MemSys.cells, apply_ite Memory.wf, ite_self, implies_true]

theorem execHistoryDeadline_cellsOk (c idx block : Nat) (s : State) (t : State) (h : execHistoryDeadline c idx block s = .next t) (h0 : Memory.wf s.mem.cells = true) :
    Memory.wf t.mem.cells = true := by
  unfold execHistoryDeadline at h
  cases h
  simp (maxDischargeDepth := 60) only [State.historyLate_cellsOk, MemSys.heal_cells, memNil_wf, memPut_wf, memFilter_wf, foldl_memPut_wf, h0, apply_ite State.mem, apply_ite MemSys.cells, apply_ite Memory.wf, ite_self, implies_true]

theorem execReseed_cellsOk (cell : Nat) (s : State) (t : State) (h : execReseed cell s = .next t) (h0 : Memory.wf s.mem.cells = true) :
    Memory.wf t.mem.cells = true := by
  unfold execReseed at h
  cases h
  simp (maxDischargeDepth := 60) only [State.reseedCell_cellsOk, MemSys.heal_cells, memNil_wf, memPut_wf, memFilter_wf, foldl_memPut_wf, h0, apply_ite State.mem, apply_ite MemSys.cells, apply_ite Memory.wf, ite_self, implies_true]

theorem execScrub_cellsOk (channel corrected : Nat) (bad : List Nat) (s : State) (t : State) (h : execScrub channel corrected bad s = .next t) (h0 : Memory.wf s.mem.cells = true) :
    Memory.wf t.mem.cells = true := by
  unfold execScrub at h
  cases h
  have q : ∀ (p : Prop) [Decidable p] (x y : State), Memory.wf x.mem.cells = true → Memory.wf y.mem.cells = true →
      Memory.wf (if p then x else y).mem.cells = true := by
    intro p _ x y hx hy
    split <;> assumption
  have k : Memory.wf (if corrected == 0 then (s.bump 0x31C0 3 corrected).bump 0x31C1 (channel + 1) corrected else
      ((s.bump 0x31C0 3 corrected).bump 0x31C1 (channel + 1) corrected).log (unitChan channel) 0 0
        (((s.bump 0x31C0 3 corrected).bump 0x31C1 (channel + 1) corrected).partOfUnit (unitChan channel)) corrected).mem.cells = true :=
    q _ _ _ h0 (State.log_cellsOk _ _ _ _ _ _ h0)
  refine q _ _ _ h0 (q _ _ _ k (foldl_cellsOk _ (fun s a hs => State.log_cellsOk _ _ _ _ _ _ hs) _ _ ?_))
  exact State.badReads_cellsOk _ _ _ (State.raise_cellsOk _ _ _ (State.bump_cellsOk _ _ _ _ k))

theorem execWcbAgeRetire_cellsOk (channel : Nat) (s : State) (t : State) (h : execWcbAgeRetire channel s = .next t) (h0 : Memory.wf s.mem.cells = true) :
    Memory.wf t.mem.cells = true := by
  unfold execWcbAgeRetire at h
  cases h
  (repeat' (first | with_reducible exact h0 | split)) <;> simp (maxDischargeDepth := 60) only [State.retireWcb_cellsOk, MemSys.heal_cells, memNil_wf, memPut_wf, memFilter_wf, foldl_memPut_wf, h0, apply_ite State.mem, apply_ite MemSys.cells, apply_ite Memory.wf, ite_self, implies_true]

theorem execUnmappedAccess_cellsOk (addr : Nat) (write : Bool) (s : State) (t : State) (h : execUnmappedAccess addr write s = .next t) (h0 : Memory.wf s.mem.cells = true) :
    Memory.wf t.mem.cells = true := by
  unfold execUnmappedAccess at h
  cases h
  simp (maxDischargeDepth := 60) only [State.bump_cellsOk, MemSys.heal_cells, memNil_wf, memPut_wf, memFilter_wf, foldl_memPut_wf, h0, apply_ite State.mem, apply_ite MemSys.cells, apply_ite Memory.wf, ite_self, implies_true]

theorem execRemoteAccess_cellsOk (r : RemoteReq) (s : State) (t : State) (h : execRemoteAccess r s = .next t) (h0 : Memory.wf s.mem.cells = true) :
    Memory.wf t.mem.cells = true := by
  unfold execRemoteAccess at h
  cases h
  (repeat' (first | with_reducible exact h0 | split)) <;> simp (maxDischargeDepth := 60) only [State.writeBytes_cellsOk, State.respond_cellsOk, State.refuse_cellsOk, State.readRuns_cellsOk, State.sawPoison_cellsOk, State.dropObj_cellsOk, State.refuseRequest_cellsOk, MemSys.heal_cells, memNil_wf, memPut_wf, memFilter_wf, foldl_memPut_wf, h0, apply_ite State.mem, apply_ite MemSys.cells, apply_ite Memory.wf, ite_self, implies_true]

theorem execRemoteSignal_cellsOk (src postmark addr op operand : Nat) (s : State) (t : State) (h : execRemoteSignal src postmark addr op operand s = .next t) (h0 : Memory.wf s.mem.cells = true) :
    Memory.wf t.mem.cells = true := by
  unfold execRemoteSignal at h
  cases h
  simp (maxDischargeDepth := 60) only [State.respond_cellsOk, State.refuse_cellsOk, State.semApply_cellsOk, State.refuseRequest_cellsOk, MemSys.heal_cells, memNil_wf, memPut_wf, memFilter_wf, foldl_memPut_wf, h0, apply_ite State.mem, apply_ite MemSys.cells, apply_ite Memory.wf, ite_self, implies_true]

theorem execRemoteAlloc_cellsOk (src postmark : Nat) (record : Bytes) (s : State) (t : State) (h : execRemoteAlloc src postmark record s = .next t) (h0 : Memory.wf s.mem.cells = true) :
    Memory.wf t.mem.cells = true := by
  unfold execRemoteAlloc at h
  cases h
  simp (maxDischargeDepth := 60) only [State.respond_cellsOk, State.refuse_cellsOk, State.allocHere_cellsOk, State.refuseRequest_cellsOk, MemSys.heal_cells, memNil_wf, memPut_wf, memFilter_wf, foldl_memPut_wf, h0, apply_ite State.mem, apply_ite MemSys.cells, apply_ite Memory.wf, ite_self, implies_true]
  (repeat' (first | with_reducible exact h0 | split)) <;> simp (maxDischargeDepth := 60) only [State.respond_cellsOk, State.refuse_cellsOk, State.allocHere_cellsOk, State.refuseRequest_cellsOk, MemSys.heal_cells, memNil_wf, memPut_wf, memFilter_wf, foldl_memPut_wf, h0, apply_ite State.mem, apply_ite MemSys.cells, apply_ite Memory.wf, ite_self, implies_true]

theorem execGranuleZeroing_cellsOk (granule : Nat) (s : State) (t : State) (h : execGranuleZeroing granule s = .next t) (h0 : Memory.wf s.mem.cells = true) :
    Memory.wf t.mem.cells = true := by
  unfold execGranuleZeroing at h
  cases h
  simp (maxDischargeDepth := 60) only [State.clearRun_cellsOk, MemSys.heal_cells, memNil_wf, memPut_wf, memFilter_wf, foldl_memPut_wf, h0, apply_ite State.mem, apply_ite MemSys.cells, apply_ite Memory.wf, ite_self, implies_true]

theorem execChannelTrainingDone_cellsOk (channel : Nat) (s : State) (t : State) (h : execChannelTrainingDone channel s = .next t) (h0 : Memory.wf s.mem.cells = true) :
    Memory.wf t.mem.cells = true := by
  unfold execChannelTrainingDone at h
  cases h
  simp (maxDischargeDepth := 60) only [State.endSession_cellsOk, State.trained_cellsOk, MemSys.heal_cells, memNil_wf, memPut_wf, memFilter_wf, foldl_memPut_wf, h0, apply_ite State.mem, apply_ite MemSys.cells, apply_ite Memory.wf, ite_self, implies_true]

theorem execRetrainTimeout_cellsOk (channel : Nat) (s : State) (t : State) (h : execRetrainTimeout channel s = .next t) (h0 : Memory.wf s.mem.cells = true) :
    Memory.wf t.mem.cells = true := by
  unfold execRetrainTimeout at h
  cases h
  simp (maxDischargeDepth := 60) only [State.bump_cellsOk, State.setChan_cellsOk, State.raise_cellsOk, State.markChannel_cellsOk, State.endSession_cellsOk, MemSys.heal_cells, memNil_wf, memPut_wf, memFilter_wf, foldl_memPut_wf, h0, apply_ite State.mem, apply_ite MemSys.cells, apply_ite Memory.wf, ite_self, implies_true]

theorem execRetrainDue_cellsOk (channel : Nat) (s : State) (t : State) (h : execRetrainDue channel s = .next t) (h0 : Memory.wf s.mem.cells = true) :
    Memory.wf t.mem.cells = true := by
  unfold execRetrainDue at h
  cases h
  simp (maxDischargeDepth := 60) only [State.dueSession_cellsOk, MemSys.heal_cells, memNil_wf, memPut_wf, memFilter_wf, foldl_memPut_wf, h0, apply_ite State.mem, apply_ite MemSys.cells, apply_ite Memory.wf, ite_self, implies_true]

theorem execRetrainRequest_cellsOk (value : Nat) (s : State) (t : State) (h : execRetrainRequest value s = .next t) (h0 : Memory.wf s.mem.cells = true) :
    Memory.wf t.mem.cells = true := by
  unfold execRetrainRequest at h
  cases h
  simp (maxDischargeDepth := 60) only [State.trigger_cellsOk, applyRetrain_cellsOk, MemSys.heal_cells, memNil_wf, memPut_wf, memFilter_wf, foldl_memPut_wf, h0, apply_ite State.mem, apply_ite MemSys.cells, apply_ite Memory.wf, ite_self, implies_true]

theorem execRemoteAck_cellsOk (req : Nat) (s : State) (t : State) (h : execRemoteAck req s = .next t) (h0 : Memory.wf s.mem.cells = true) :
    Memory.wf t.mem.cells = true := by
  unfold execRemoteAck at h
  cases h
  (repeat' (first | with_reducible exact h0 | split)) <;> simp (maxDischargeDepth := 60) only [State.acked_cellsOk, MemSys.heal_cells, memNil_wf, memPut_wf, memFilter_wf, foldl_memPut_wf, h0, apply_ite State.mem, apply_ite MemSys.cells, apply_ite Memory.wf, ite_self, implies_true]

theorem execRemoteAckTimeout_cellsOk (req : Nat) (s : State) (t : State) (h : execRemoteAckTimeout req s = .next t) (h0 : Memory.wf s.mem.cells = true) :
    Memory.wf t.mem.cells = true := by
  unfold execRemoteAckTimeout at h
  cases h
  (repeat' (first | with_reducible exact h0 | split)) <;> simp (maxDischargeDepth := 60) only [State.writeBack_cellsOk, State.failReq_cellsOk, MemSys.heal_cells, memNil_wf, memPut_wf, memFilter_wf, foldl_memPut_wf, h0, apply_ite State.mem, apply_ite MemSys.cells, apply_ite Memory.wf, ite_self, implies_true]

theorem execRefuseReceive_cellsOk (req code : Nat) (s : State) (t : State) (h : execRefuseReceive req code s = .next t) (h0 : Memory.wf s.mem.cells = true) :
    Memory.wf t.mem.cells = true := by
  unfold execRefuseReceive at h
  cases h
  (repeat' (first | with_reducible exact h0 | split)) <;> simp (maxDischargeDepth := 60) only [State.failReq_cellsOk, MemSys.heal_cells, memNil_wf, memPut_wf, memFilter_wf, foldl_memPut_wf, h0, apply_ite State.mem, apply_ite MemSys.cells, apply_ite Memory.wf, ite_self, implies_true]

theorem execWriteBackTimeout_cellsOk (req : Nat) (s : State) (t : State) (h : execWriteBackTimeout req s = .next t) (h0 : Memory.wf s.mem.cells = true) :
    Memory.wf t.mem.cells = true := by
  unfold execWriteBackTimeout at h
  cases h
  (repeat' (first | with_reducible exact h0 | split)) <;> simp (maxDischargeDepth := 60) only [State.bump_cellsOk, State.writeBack_cellsOk, State.failReq_cellsOk, MemSys.heal_cells, memNil_wf, memPut_wf, memFilter_wf, foldl_memPut_wf, h0, apply_ite State.mem, apply_ite MemSys.cells, apply_ite Memory.wf, ite_self, implies_true]

theorem execResponseReceive_cellsOk (req postmark : Nat) (poisoned : List Nat) (data : Bytes) (s : State) (t : State) (h : execResponseReceive req postmark poisoned data s = .next t) (h0 : Memory.wf s.mem.cells = true) :
    Memory.wf t.mem.cells = true := by
  unfold execResponseReceive at h
  cases h
  (repeat' (first | with_reducible exact h0 | split)) <;> simp (maxDischargeDepth := 60) only [State.bump_cellsOk, State.answered_cellsOk, MemSys.heal_cells, memNil_wf, memPut_wf, memFilter_wf, foldl_memPut_wf, h0, apply_ite State.mem, apply_ite MemSys.cells, apply_ite Memory.wf, ite_self, implies_true]

theorem execSlotGrant_cellsOk (s : State) (t : State) (h : execSlotGrant s = .next t) (h0 : Memory.wf s.mem.cells = true) :
    Memory.wf t.mem.cells = true := by
  unfold execSlotGrant at h
  cases h
  simp (maxDischargeDepth := 60) only [State.grantSlot_cellsOk, MemSys.heal_cells, memNil_wf, memPut_wf, memFilter_wf, foldl_memPut_wf, h0, apply_ite State.mem, apply_ite MemSys.cells, apply_ite Memory.wf, ite_self, implies_true]

theorem execPreemptWaitExpiry_cellsOk (cell ctx idx task : Nat) (s : State) (t : State) (h : execPreemptWaitExpiry cell ctx idx task s = .next t) (h0 : Memory.wf s.mem.cells = true) :
    Memory.wf t.mem.cells = true := by
  unfold execPreemptWaitExpiry at h
  cases h
  (repeat' (first | with_reducible exact h0 | split)) <;> simp +contextual (maxDischargeDepth := 60) [h0, apply_ite State.mem, apply_ite MemSys.cells, apply_ite Memory.wf, ite_self]

theorem execSuspendContext_cellsOk (value : Nat) (s : State) (t : State) (h : execSuspendContext value s = .next t) (h0 : Memory.wf s.mem.cells = true) :
    Memory.wf t.mem.cells = true := by
  unfold execSuspendContext at h
  cases h
  simp (maxDischargeDepth := 60) only [State.trigger_cellsOk, State.suspendReq_cellsOk, MemSys.heal_cells, memNil_wf, memPut_wf, memFilter_wf, foldl_memPut_wf, h0, apply_ite State.mem, apply_ite MemSys.cells, apply_ite Memory.wf, ite_self, implies_true]

theorem execSuspendPartition_cellsOk (value : Nat) (s : State) (t : State) (h : execSuspendPartition value s = .next t) (h0 : Memory.wf s.mem.cells = true) :
    Memory.wf t.mem.cells = true := by
  unfold execSuspendPartition at h
  cases h
  simp (maxDischargeDepth := 60) only [State.trigger_cellsOk, State.suspendPart_cellsOk, MemSys.heal_cells, memNil_wf, memPut_wf, memFilter_wf, foldl_memPut_wf, h0, apply_ite State.mem, apply_ite MemSys.cells, apply_ite Memory.wf, ite_self, implies_true]

theorem execResumeContext_cellsOk (value : Nat) (s : State) (t : State) (h : execResumeContext value s = .next t) (h0 : Memory.wf s.mem.cells = true) :
    Memory.wf t.mem.cells = true := by
  unfold execResumeContext at h
  cases h
  simp (maxDischargeDepth := 60) only [State.trigger_cellsOk, State.resumeReq_cellsOk, MemSys.heal_cells, memNil_wf, memPut_wf, memFilter_wf, foldl_memPut_wf, h0, apply_ite State.mem, apply_ite MemSys.cells, apply_ite Memory.wf, ite_self, implies_true]

theorem execSaveComplete_cellsOk (c : Nat) (s : State) (t : State) (h : execSaveComplete c s = .next t) (h0 : Memory.wf s.mem.cells = true) :
    Memory.wf t.mem.cells = true := by
  unfold execSaveComplete at h
  cases h
  simp (maxDischargeDepth := 60) only [State.saveDone_cellsOk, MemSys.heal_cells, memNil_wf, memPut_wf, memFilter_wf, foldl_memPut_wf, h0, apply_ite State.mem, apply_ite MemSys.cells, apply_ite Memory.wf, ite_self, implies_true]

theorem execRestore_cellsOk (c : Nat) (s : State) (t : State) (h : execRestore c s = .next t) (h0 : Memory.wf s.mem.cells = true) :
    Memory.wf t.mem.cells = true := by
  unfold execRestore at h
  cases h
  simp (maxDischargeDepth := 60) only [State.restoreCtx_cellsOk, MemSys.heal_cells, memNil_wf, memPut_wf, memFilter_wf, foldl_memPut_wf, h0, apply_ite State.mem, apply_ite MemSys.cells, apply_ite Memory.wf, ite_self, implies_true]

theorem execQuotaCommit_cellsOk (value : Nat) (s : State) (t : State) (h : execQuotaCommit value s = .next t) (h0 : Memory.wf s.mem.cells = true) :
    Memory.wf t.mem.cells = true := by
  unfold execQuotaCommit at h
  cases h
  simp (maxDischargeDepth := 60) only [State.trigger_cellsOk, applyQuota_cellsOk, MemSys.heal_cells, memNil_wf, memPut_wf, memFilter_wf, foldl_memPut_wf, h0, apply_ite State.mem, apply_ite MemSys.cells, apply_ite Memory.wf, ite_self, implies_true]

theorem execSubmit_cellsOk (d : Dgram) (s : State) (t : State) (h : execSubmit d s = .next t) (h0 : Memory.wf s.mem.cells = true) :
    Memory.wf t.mem.cells = true := by
  unfold execSubmit at h
  cases h
  simp +contextual (maxDischargeDepth := 60) only [State.courier_cellsOk, State.submitJob_cellsOk, MemSys.heal_cells, memNil_wf, memPut_wf, memFilter_wf, foldl_memPut_wf, h0, apply_ite State.mem, apply_ite MemSys.cells, apply_ite Memory.wf, ite_self, implies_true]

theorem execImportJob_cellsOk (d : Dgram) (s : State) (t : State) (h : execImportJob d s = .next t) (h0 : Memory.wf s.mem.cells = true) :
    Memory.wf t.mem.cells = true := by
  unfold execImportJob at h
  cases h
  simp +contextual (maxDischargeDepth := 60) only [State.courier_cellsOk, State.importCtx_cellsOk, MemSys.heal_cells, memNil_wf, memPut_wf, memFilter_wf, foldl_memPut_wf, h0, apply_ite State.mem, apply_ite MemSys.cells, apply_ite Memory.wf, ite_self, implies_true]

theorem execInvalidDatagram_cellsOk (d : Dgram) (s : State) (t : State) (h : execInvalidDatagram d s = .next t) (h0 : Memory.wf s.mem.cells = true) :
    Memory.wf t.mem.cells = true := by
  unfold execInvalidDatagram at h
  cases h
  simp (maxDischargeDepth := 60) only [State.bump_cellsOk, MemSys.heal_cells, memNil_wf, memPut_wf, memFilter_wf, foldl_memPut_wf, h0, apply_ite State.mem, apply_ite MemSys.cells, apply_ite Memory.wf, ite_self, implies_true]

theorem execOpenSession_cellsOk (d : Dgram) (s : State) (t : State) (h : execOpenSession d s = .next t) (h0 : Memory.wf s.mem.cells = true) :
    Memory.wf t.mem.cells = true := by
  unfold execOpenSession at h
  cases h
  simp +contextual (maxDischargeDepth := 60) only [State.courier_cellsOk, State.openFor_cellsOk, MemSys.heal_cells, memNil_wf, memPut_wf, memFilter_wf, foldl_memPut_wf, h0, apply_ite State.mem, apply_ite MemSys.cells, apply_ite Memory.wf, ite_self, implies_true]

theorem execCloseSession_cellsOk (d : Dgram) (s : State) (t : State) (h : execCloseSession d s = .next t) (h0 : Memory.wf s.mem.cells = true) :
    Memory.wf t.mem.cells = true := by
  unfold execCloseSession at h
  cases h
  simp +contextual (maxDischargeDepth := 60) only [State.setSession_cellsOk, State.endClosing_cellsOk, State.sendAck_cellsOk, State.courier_cellsOk, MemSys.heal_cells, memNil_wf, memPut_wf, memFilter_wf, foldl_memPut_wf, h0, apply_ite State.mem, apply_ite MemSys.cells, apply_ite Memory.wf, ite_self, implies_true]

theorem execAck_cellsOk (d : Dgram) (s : State) (t : State) (h : execAck d s = .next t) (h0 : Memory.wf s.mem.cells = true) :
    Memory.wf t.mem.cells = true := by
  unfold execAck at h
  cases h
  simp +contextual (maxDischargeDepth := 60) only [State.courier_cellsOk, MemSys.heal_cells, memNil_wf, memPut_wf, memFilter_wf, foldl_memPut_wf, h0, apply_ite State.mem, apply_ite MemSys.cells, apply_ite Memory.wf, ite_self, implies_true]

theorem execRetransmitTimeout_cellsOk (session : Nat) (s : State) (t : State) (h : execRetransmitTimeout session s = .next t) (h0 : Memory.wf s.mem.cells = true) :
    Memory.wf t.mem.cells = true := by
  unfold execRetransmitTimeout at h
  cases h
  simp (maxDischargeDepth := 60) only [State.resend_cellsOk, MemSys.heal_cells, memNil_wf, memPut_wf, memFilter_wf, foldl_memPut_wf, h0, apply_ite State.mem, apply_ite MemSys.cells, apply_ite Memory.wf, ite_self, implies_true]

theorem execAckTimer_cellsOk (session : Nat) (s : State) (t : State) (h : execAckTimer session s = .next t) (h0 : Memory.wf s.mem.cells = true) :
    Memory.wf t.mem.cells = true := by
  unfold execAckTimer at h
  cases h
  (repeat' (first | with_reducible exact h0 | split)) <;> simp (maxDischargeDepth := 60) only [State.sendAck_cellsOk, MemSys.heal_cells, memNil_wf, memPut_wf, memFilter_wf, foldl_memPut_wf, h0, apply_ite State.mem, apply_ite MemSys.cells, apply_ite Memory.wf, ite_self, implies_true]

theorem execPortLinkLoss_cellsOk (port : Nat) (s : State) (t : State) (h : execPortLinkLoss port s = .next t) (h0 : Memory.wf s.mem.cells = true) :
    Memory.wf t.mem.cells = true := by
  unfold execPortLinkLoss at h
  cases h
  exact h0

theorem execDataPortLinkUp_cellsOk (port : Nat) (s : State) (t : State) (h : execDataPortLinkUp port s = .next t) (h0 : Memory.wf s.mem.cells = true) :
    Memory.wf t.mem.cells = true := by
  unfold execDataPortLinkUp at h
  cases h
  simp (maxDischargeDepth := 60) only [MemSys.heal_cells, memNil_wf, memPut_wf, memFilter_wf, foldl_memPut_wf, h0, apply_ite State.mem, apply_ite MemSys.cells, apply_ite Memory.wf, ite_self, implies_true]

theorem execAlloc_cellsOk (d : Dgram) (s : State) (t : State) (h : execAlloc d s = .next t) (h0 : Memory.wf s.mem.cells = true) :
    Memory.wf t.mem.cells = true := by
  unfold execAlloc at h
  cases h
  simp +contextual (maxDischargeDepth := 60) only [State.allocate_cellsOk, State.courier_cellsOk, MemSys.heal_cells, memNil_wf, memPut_wf, memFilter_wf, foldl_memPut_wf, h0, apply_ite State.mem, apply_ite MemSys.cells, apply_ite Memory.wf, ite_self, implies_true]

theorem execFree_cellsOk (d : Dgram) (s : State) (t : State) (h : execFree d s = .next t) (h0 : Memory.wf s.mem.cells = true) :
    Memory.wf t.mem.cells = true := by
  unfold execFree at h
  cases h
  simp +contextual (maxDischargeDepth := 60) only [State.freeObj_cellsOk, State.courier_cellsOk, MemSys.heal_cells, memNil_wf, memPut_wf, memFilter_wf, foldl_memPut_wf, h0, apply_ite State.mem, apply_ite MemSys.cells, apply_ite Memory.wf, ite_self, implies_true]

theorem execWrite_cellsOk (d : Dgram) (s : State) (t : State) (h : execWrite d s = .next t) (h0 : Memory.wf s.mem.cells = true) :
    Memory.wf t.mem.cells = true := by
  unfold execWrite at h
  cases h
  simp +contextual (maxDischargeDepth := 60) only [State.writeBytes_cellsOk, State.reply_cellsOk, State.courier_cellsOk, MemSys.heal_cells, memNil_wf, memPut_wf, memFilter_wf, foldl_memPut_wf, h0, apply_ite State.mem, apply_ite MemSys.cells, apply_ite Memory.wf, ite_self, implies_true]

theorem execRead_cellsOk (d : Dgram) (s : State) (t : State) (h : execRead d s = .next t) (h0 : Memory.wf s.mem.cells = true) :
    Memory.wf t.mem.cells = true := by
  unfold execRead at h
  cases h
  simp +contextual (maxDischargeDepth := 60) only [State.courier_cellsOk, State.readFor_cellsOk, MemSys.heal_cells, memNil_wf, memPut_wf, memFilter_wf, foldl_memPut_wf, h0, apply_ite State.mem, apply_ite MemSys.cells, apply_ite Memory.wf, ite_self, implies_true]

theorem execControlDoorbell_cellsOk (d : Dgram) (s : State) (t : State) (h : execControlDoorbell d s = .next t) (h0 : Memory.wf s.mem.cells = true) :
    Memory.wf t.mem.cells = true := by
  unfold execControlDoorbell at h
  cases h
  simp +contextual (maxDischargeDepth := 60) only [State.setJob_cellsOk, State.finishJob_cellsOk, State.bellFetch_cellsOk, State.bellTail_cellsOk, State.bellResume_cellsOk, State.control_cellsOk, MemSys.heal_cells, memNil_wf, memPut_wf, memFilter_wf, foldl_memPut_wf, h0, apply_ite State.mem, apply_ite MemSys.cells, apply_ite Memory.wf, ite_self, implies_true]

theorem execControlSuspend_cellsOk (d : Dgram) (s : State) (t : State) (h : execControlSuspend d s = .next t) (h0 : Memory.wf s.mem.cells = true) :
    Memory.wf t.mem.cells = true := by
  unfold execControlSuspend at h
  cases h
  simp +contextual (maxDischargeDepth := 60) only [State.suspendReq_cellsOk, State.control_cellsOk, controlled_cellsOk, MemSys.heal_cells, memNil_wf, memPut_wf, memFilter_wf, foldl_memPut_wf, h0, apply_ite State.mem, apply_ite MemSys.cells, apply_ite Memory.wf, ite_self, implies_true]

theorem execControlResume_cellsOk (d : Dgram) (s : State) (t : State) (h : execControlResume d s = .next t) (h0 : Memory.wf s.mem.cells = true) :
    Memory.wf t.mem.cells = true := by
  unfold execControlResume at h
  cases h
  simp +contextual (maxDischargeDepth := 60) only [State.resumeReq_cellsOk, State.control_cellsOk, controlled_cellsOk, MemSys.heal_cells, memNil_wf, memPut_wf, memFilter_wf, foldl_memPut_wf, h0, apply_ite State.mem, apply_ite MemSys.cells, apply_ite Memory.wf, ite_self, implies_true]

theorem execControlCancel_cellsOk (d : Dgram) (s : State) (t : State) (h : execControlCancel d s = .next t) (h0 : Memory.wf s.mem.cells = true) :
    Memory.wf t.mem.cells = true := by
  unfold execControlCancel at h
  cases h
  simp +contextual (maxDischargeDepth := 60) only [State.abortCtx_cellsOk, State.control_cellsOk, MemSys.heal_cells, memNil_wf, memPut_wf, memFilter_wf, foldl_memPut_wf, h0, apply_ite State.mem, apply_ite MemSys.cells, apply_ite Memory.wf, ite_self, implies_true]

theorem execControlExport_cellsOk (d : Dgram) (s : State) (t : State) (h : execControlExport d s = .next t) (h0 : Memory.wf s.mem.cells = true) :
    Memory.wf t.mem.cells = true := by
  unfold execControlExport at h
  cases h
  simp +contextual (maxDischargeDepth := 60) only [State.control_cellsOk, State.exportReq_cellsOk, MemSys.heal_cells, memNil_wf, memPut_wf, memFilter_wf, foldl_memPut_wf, h0, apply_ite State.mem, apply_ite MemSys.cells, apply_ite Memory.wf, ite_self, implies_true]

theorem execControlRebind_cellsOk (d : Dgram) (s : State) (t : State) (h : execControlRebind d s = .next t) (h0 : Memory.wf s.mem.cells = true) :
    Memory.wf t.mem.cells = true := by
  unfold execControlRebind at h
  cases h
  simp +contextual (maxDischargeDepth := 60) only [State.control_cellsOk, State.rebind_cellsOk, MemSys.heal_cells, memNil_wf, memPut_wf, memFilter_wf, foldl_memPut_wf, h0, apply_ite State.mem, apply_ite MemSys.cells, apply_ite Memory.wf, ite_self, implies_true]

theorem execControlQuery_cellsOk (d : Dgram) (s : State) (t : State) (h : execControlQuery d s = .next t) (h0 : Memory.wf s.mem.cells = true) :
    Memory.wf t.mem.cells = true := by
  unfold execControlQuery at h
  cases h
  simp +contextual (maxDischargeDepth := 60) only [State.progress_cellsOk, State.control_cellsOk, MemSys.heal_cells, memNil_wf, memPut_wf, memFilter_wf, foldl_memPut_wf, h0, apply_ite State.mem, apply_ite MemSys.cells, apply_ite Memory.wf, ite_self, implies_true]

theorem execResultRequest_cellsOk (r : ResultReq) (s : State) (t : State) (h : execResultRequest r s = .next t) (h0 : Memory.wf s.mem.cells = true) :
    Memory.wf t.mem.cells = true := by
  unfold execResultRequest at h
  cases h
  simp (maxDischargeDepth := 60) only [State.refuse_cellsOk, State.holdResult_cellsOk, State.refuseRequest_cellsOk, MemSys.heal_cells, memNil_wf, memPut_wf, memFilter_wf, foldl_memPut_wf, h0, apply_ite State.mem, apply_ite MemSys.cells, apply_ite Memory.wf, ite_self, implies_true]

theorem execResultHoldExpiry_cellsOk (result : Nat) (s : State) (t : State) (h : execResultHoldExpiry result s = .next t) (h0 : Memory.wf s.mem.cells = true) :
    Memory.wf t.mem.cells = true := by
  unfold execResultHoldExpiry at h
  cases h
  (repeat' (first | with_reducible exact h0 | split)) <;> simp (maxDischargeDepth := 60) only [State.failDelivery_cellsOk, MemSys.heal_cells, memNil_wf, memPut_wf, memFilter_wf, foldl_memPut_wf, h0, apply_ite State.mem, apply_ite MemSys.cells, apply_ite Memory.wf, ite_self, implies_true]

theorem execHaltLimitExpiry_cellsOk (c : Nat) (s : State) (t : State) (h : execHaltLimitExpiry c s = .next t) (h0 : Memory.wf s.mem.cells = true) :
    Memory.wf t.mem.cells = true := by
  unfold execHaltLimitExpiry at h
  cases h
  (repeat' (first | with_reducible exact h0 | split)) <;> simp +contextual (maxDischargeDepth := 60) [h0, apply_ite State.mem, apply_ite MemSys.cells, apply_ite Memory.wf, ite_self]

theorem execArpRequest_cellsOk (port target senderIp senderMac : Nat) (s : State) (t : State) (h : execArpRequest port target senderIp senderMac s = .next t) (h0 : Memory.wf s.mem.cells = true) :
    Memory.wf t.mem.cells = true := by
  unfold execArpRequest at h
  cases h
  simp (maxDischargeDepth := 60) only [State.putRaw_cellsOk, MemSys.heal_cells, memNil_wf, memPut_wf, memFilter_wf, foldl_memPut_wf, h0, apply_ite State.mem, apply_ite MemSys.cells, apply_ite Memory.wf, ite_self, implies_true]

theorem execNeighbourSolicitation_cellsOk (port target senderIp senderMac : Nat) (s : State) (t : State) (h : execNeighbourSolicitation port target senderIp senderMac s = .next t) (h0 : Memory.wf s.mem.cells = true) :
    Memory.wf t.mem.cells = true := by
  unfold execNeighbourSolicitation at h
  cases h
  simp (maxDischargeDepth := 60) only [State.putRaw_cellsOk, MemSys.heal_cells, memNil_wf, memPut_wf, memFilter_wf, foldl_memPut_wf, h0, apply_ite State.mem, apply_ite MemSys.cells, apply_ite Memory.wf, ite_self, implies_true]

theorem execEchoRequest_cellsOk (port : Nat) (v6 : Bool) (dst src : Nat) (payload : Bytes) (s : State) (t : State) (h : execEchoRequest port v6 dst src payload s = .next t) (h0 : Memory.wf s.mem.cells = true) :
    Memory.wf t.mem.cells = true := by
  unfold execEchoRequest at h
  cases h
  simp (maxDischargeDepth := 60) only [State.putRaw_cellsOk, MemSys.heal_cells, memNil_wf, memPut_wf, memFilter_wf, foldl_memPut_wf, h0, apply_ite State.mem, apply_ite MemSys.cells, apply_ite Memory.wf, ite_self, implies_true]

theorem execFlitTransmit_cellsOk (port : Nat) (s : State) (t : State) (h : execFlitTransmit port s = .next t) (h0 : Memory.wf s.mem.cells = true) :
    Memory.wf t.mem.cells = true := by
  unfold execFlitTransmit at h
  cases h
  simp (maxDischargeDepth := 60) only [State.transmit_cellsOk, MemSys.heal_cells, memNil_wf, memPut_wf, memFilter_wf, foldl_memPut_wf, h0, apply_ite State.mem, apply_ite MemSys.cells, apply_ite Memory.wf, ite_self, implies_true]

theorem execFlitReceive_cellsOk (port : Nat) (fecOk : Bool) (bytes : Bytes) (s : State) (t : State) (h : execFlitReceive port fecOk bytes s = .next t) (h0 : Memory.wf s.mem.cells = true) :
    Memory.wf t.mem.cells = true := by
  unfold execFlitReceive at h
  cases h
  simp (maxDischargeDepth := 60) only [State.bump_cellsOk, State.oweNak_cellsOk, State.gotFlit_cellsOk, MemSys.heal_cells, memNil_wf, memPut_wf, memFilter_wf, foldl_memPut_wf, h0, apply_ite State.mem, apply_ite MemSys.cells, apply_ite Memory.wf, ite_self, implies_true]

theorem execNakReceive_cellsOk (port ackSeq : Nat) (s : State) (t : State) (h : execNakReceive port ackSeq s = .next t) (h0 : Memory.wf s.mem.cells = true) :
    Memory.wf t.mem.cells = true := by
  unfold execNakReceive at h
  cases h
  simp (maxDischargeDepth := 60) only [State.takeAckSeq_cellsOk, State.replayPort_cellsOk, MemSys.heal_cells, memNil_wf, memPut_wf, memFilter_wf, foldl_memPut_wf, h0, apply_ite State.mem, apply_ite MemSys.cells, apply_ite Memory.wf, ite_self, implies_true]

theorem execReplayTimeout_cellsOk (port : Nat) (s : State) (t : State) (h : execReplayTimeout port s = .next t) (h0 : Memory.wf s.mem.cells = true) :
    Memory.wf t.mem.cells = true := by
  unfold execReplayTimeout at h
  cases h
  simp (maxDischargeDepth := 60) only [State.replayPort_cellsOk, MemSys.heal_cells, memNil_wf, memPut_wf, memFilter_wf, foldl_memPut_wf, h0, apply_ite State.mem, apply_ite MemSys.cells, apply_ite Memory.wf, ite_self, implies_true]

theorem execSignalDetect_cellsOk (port lanes : Nat) (s : State) (t : State) (h : execSignalDetect port lanes s = .next t) (h0 : Memory.wf s.mem.cells = true) :
    Memory.wf t.mem.cells = true := by
  unfold execSignalDetect at h
  cases h
  simp (maxDischargeDepth := 60) only [State.setPort_cellsOk, State.clearLanes_cellsOk, MemSys.heal_cells, memNil_wf, memPut_wf, memFilter_wf, foldl_memPut_wf, h0, apply_ite State.mem, apply_ite MemSys.cells, apply_ite Memory.wf, ite_self, implies_true]

theorem execPortAligned_cellsOk (port lanes : Nat) (s : State) (t : State) (h : execPortAligned port lanes s = .next t) (h0 : Memory.wf s.mem.cells = true) :
    Memory.wf t.mem.cells = true := by
  unfold execPortAligned at h
  cases h
  simp +contextual (maxDischargeDepth := 60) only [State.watch_cellsOk, State.setPort_cellsOk, State.removeLane_cellsOk, foldl_cellsOk, MemSys.heal_cells, memNil_wf, memPut_wf, memFilter_wf, foldl_memPut_wf, h0, apply_ite State.mem, apply_ite MemSys.cells, apply_ite Memory.wf, ite_self, implies_true]

theorem execBringUpTimeout_cellsOk (port : Nat) (s : State) (t : State) (h : execBringUpTimeout port s = .next t) (h0 : Memory.wf s.mem.cells = true) :
    Memory.wf t.mem.cells = true := by
  unfold execBringUpTimeout at h
  cases h
  simp (maxDischargeDepth := 60) only [State.watch_cellsOk, State.setPort_cellsOk, MemSys.heal_cells, memNil_wf, memPut_wf, memFilter_wf, foldl_memPut_wf, h0, apply_ite State.mem, apply_ite MemSys.cells, apply_ite Memory.wf, ite_self, implies_true]

theorem execHelloReceive_cellsOk (port : Nat) (h : Hello) (s : State) (t : State) (h : execHelloReceive port h s = .next t) (h0 : Memory.wf s.mem.cells = true) :
    Memory.wf t.mem.cells = true := by
  unfold execHelloReceive at h
  cases h
  simp (maxDischargeDepth := 60) only [State.setPort_cellsOk, State.takeAckSeq_cellsOk, State.portFall_cellsOk, State.checkPort_cellsOk, State.nextLane_cellsOk, State.meetSeq_cellsOk, MemSys.heal_cells, memNil_wf, memPut_wf, memFilter_wf, foldl_memPut_wf, h0, apply_ite State.mem, apply_ite MemSys.cells, apply_ite Memory.wf, ite_self, implies_true]

theorem execHelloTimer_cellsOk (port : Nat) (s : State) (t : State) (h : execHelloTimer port s = .next t) (h0 : Memory.wf s.mem.cells = true) :
    Memory.wf t.mem.cells = true := by
  unfold execHelloTimer at h
  cases h
  simp (maxDischargeDepth := 60) only [State.setPort_cellsOk, MemSys.heal_cells, memNil_wf, memPut_wf, memFilter_wf, foldl_memPut_wf, h0, apply_ite State.mem, apply_ite MemSys.cells, apply_ite Memory.wf, ite_self, implies_true]

theorem execHelloTimeout_cellsOk (port : Nat) (s : State) (t : State) (h : execHelloTimeout port s = .next t) (h0 : Memory.wf s.mem.cells = true) :
    Memory.wf t.mem.cells = true := by
  unfold execHelloTimeout at h
  cases h
  simp (maxDischargeDepth := 60) only [State.portFall_cellsOk, MemSys.heal_cells, memNil_wf, memPut_wf, memFilter_wf, foldl_memPut_wf, h0, apply_ite State.mem, apply_ite MemSys.cells, apply_ite Memory.wf, ite_self, implies_true]

theorem execPortDownLimit_cellsOk (port : Nat) (s : State) (t : State) (h : execPortDownLimit port s = .next t) (h0 : Memory.wf s.mem.cells = true) :
    Memory.wf t.mem.cells = true := by
  unfold execPortDownLimit at h
  cases h
  simp (maxDischargeDepth := 60) only [State.setPort_cellsOk, State.discard_cellsOk, MemSys.heal_cells, memNil_wf, memPut_wf, memFilter_wf, foldl_memPut_wf, h0, apply_ite State.mem, apply_ite MemSys.cells, apply_ite Memory.wf, ite_self, implies_true]

theorem execLaneFault_cellsOk (port lane _cause : Nat) (s : State) (t : State) (h : execLaneFault port lane _cause s = .next t) (h0 : Memory.wf s.mem.cells = true) :
    Memory.wf t.mem.cells = true := by
  unfold execLaneFault at h
  cases h
  simp (maxDischargeDepth := 60) only [State.laneLost_cellsOk, MemSys.heal_cells, memNil_wf, memPut_wf, memFilter_wf, foldl_memPut_wf, h0, apply_ite State.mem, apply_ite MemSys.cells, apply_ite Memory.wf, ite_self, implies_true]

theorem execLaneRetrainDue_cellsOk (port lane : Nat) (s : State) (t : State) (h : execLaneRetrainDue port lane s = .next t) (h0 : Memory.wf s.mem.cells = true) :
    Memory.wf t.mem.cells = true := by
  unfold execLaneRetrainDue at h
  cases h
  simp (maxDischargeDepth := 60) only [State.dueLane_cellsOk, MemSys.heal_cells, memNil_wf, memPut_wf, memFilter_wf, foldl_memPut_wf, h0, apply_ite State.mem, apply_ite MemSys.cells, apply_ite Memory.wf, ite_self, implies_true]

theorem execLaneRetrainRequest_cellsOk (value : Nat) (s : State) (t : State) (h : execLaneRetrainRequest value s = .next t) (h0 : Memory.wf s.mem.cells = true) :
    Memory.wf t.mem.cells = true := by
  unfold execLaneRetrainRequest at h
  cases h
  simp (maxDischargeDepth := 60) only [State.trigger_cellsOk, applyLaneRetrain_cellsOk, MemSys.heal_cells, memNil_wf, memPut_wf, memFilter_wf, foldl_memPut_wf, h0, apply_ite State.mem, apply_ite MemSys.cells, apply_ite Memory.wf, ite_self, implies_true]

theorem execLaneRetrainDone_cellsOk (port : Nat) (s : State) (t : State) (h : execLaneRetrainDone port s = .next t) (h0 : Memory.wf s.mem.cells = true) :
    Memory.wf t.mem.cells = true := by
  unfold execLaneRetrainDone at h
  cases h
  (repeat' (first | with_reducible exact h0 | split)) <;> simp (maxDischargeDepth := 60) only [State.bump_cellsOk, State.drew_cellsOk, State.journal_cellsOk, State.watch_cellsOk, State.setPort_cellsOk, State.nextLane_cellsOk, MemSys.heal_cells, memNil_wf, memPut_wf, memFilter_wf, foldl_memPut_wf, h0, apply_ite State.mem, apply_ite MemSys.cells, apply_ite Memory.wf, ite_self, implies_true]

theorem execLaneRetrainTimeout_cellsOk (port : Nat) (s : State) (t : State) (h : execLaneRetrainTimeout port s = .next t) (h0 : Memory.wf s.mem.cells = true) :
    Memory.wf t.mem.cells = true := by
  unfold execLaneRetrainTimeout at h
  cases h
  (repeat' (first | with_reducible exact h0 | split)) <;> simp (maxDischargeDepth := 60) only [State.bump_cellsOk, State.raise_cellsOk, State.watch_cellsOk, State.setPort_cellsOk, State.fenceLane_cellsOk, State.removeLane_cellsOk, State.nextLane_cellsOk, MemSys.heal_cells, memNil_wf, memPut_wf, memFilter_wf, foldl_memPut_wf, h0, apply_ite State.mem, apply_ite MemSys.cells, apply_ite Memory.wf, ite_self, implies_true]

theorem execNodeCommit_cellsOk (value : Nat) (s : State) (t : State) (h : execNodeCommit value s = .next t) (h0 : Memory.wf s.mem.cells = true) :
    Memory.wf t.mem.cells = true := by
  unfold execNodeCommit at h
  cases h
  simp (maxDischargeDepth := 60) only [State.trigger_cellsOk, applyNode_cellsOk, MemSys.heal_cells, memNil_wf, memPut_wf, memFilter_wf, foldl_memPut_wf, h0, apply_ite State.mem, apply_ite MemSys.cells, apply_ite Memory.wf, ite_self, implies_true]

theorem execRouteCommit_cellsOk (value : Nat) (s : State) (t : State) (h : execRouteCommit value s = .next t) (h0 : Memory.wf s.mem.cells = true) :
    Memory.wf t.mem.cells = true := by
  unfold execRouteCommit at h
  cases h
  simp (maxDischargeDepth := 60) only [State.trigger_cellsOk, applyRoute_cellsOk, MemSys.heal_cells, memNil_wf, memPut_wf, memFilter_wf, foldl_memPut_wf, h0, apply_ite State.mem, apply_ite MemSys.cells, apply_ite Memory.wf, ite_self, implies_true]

theorem execRouteDefaults_cellsOk (value : Nat) (s : State) (t : State) (h : execRouteDefaults value s = .next t) (h0 : Memory.wf s.mem.cells = true) :
    Memory.wf t.mem.cells = true := by
  unfold execRouteDefaults at h
  cases h
  simp (maxDischargeDepth := 60) only [State.trigger_cellsOk, applyRouteDefaults_cellsOk, MemSys.heal_cells, memNil_wf, memPut_wf, memFilter_wf, foldl_memPut_wf, h0, apply_ite State.mem, apply_ite MemSys.cells, apply_ite Memory.wf, ite_self, implies_true]

theorem execRouterReset_cellsOk (value : Nat) (s : State) (t : State) (h : execRouterReset value s = .next t) (h0 : Memory.wf s.mem.cells = true) :
    Memory.wf t.mem.cells = true := by
  unfold execRouterReset at h
  cases h
  simp (maxDischargeDepth := 60) only [State.trigger_cellsOk, State.resetRouter_cellsOk, MemSys.heal_cells, memNil_wf, memPut_wf, memFilter_wf, foldl_memPut_wf, h0, apply_ite State.mem, apply_ite MemSys.cells, apply_ite Memory.wf, ite_self, implies_true]

theorem execPortEnable_cellsOk (value : Nat) (s : State) (t : State) (h : execPortEnable value s = .next t) (h0 : Memory.wf s.mem.cells = true) :
    Memory.wf t.mem.cells = true := by
  unfold execPortEnable at h
  cases h
  simp (maxDischargeDepth := 60) only [State.trigger_cellsOk, applyPortEnable_cellsOk, MemSys.heal_cells, memNil_wf, memPut_wf, memFilter_wf, foldl_memPut_wf, h0, apply_ite State.mem, apply_ite MemSys.cells, apply_ite Memory.wf, ite_self, implies_true]

theorem execColl_cellsOk (c idx : Nat) (s : State) (t : State) (h : execColl c idx s = .next t) (h0 : Memory.wf s.mem.cells = true) :
    Memory.wf t.mem.cells = true := by
  unfold execColl at h
  cases h
  apply State.startMacro_cellsOk _ _ _ _ h0
  intro go hgo s e f h1
  cases hgo <;> simp (maxDischargeDepth := 60) [h1, apply_ite State.mem, apply_ite MemSys.cells, apply_ite Memory.wf, ite_self]

theorem execPost_cellsOk (c idx : Nat) (s : State) (t : State) (h : execPost c idx s = .next t) (h0 : Memory.wf s.mem.cells = true) :
    Memory.wf t.mem.cells = true := by
  unfold execPost at h
  cases h
  apply State.startMacro_cellsOk _ _ _ _ h0
  intro go hgo s e f h1
  cases hgo <;> simp (maxDischargeDepth := 60) [h1, apply_ite State.mem, apply_ite MemSys.cells, apply_ite Memory.wf, ite_self]

theorem execChunkReceive_cellsOk (group ord src : Nat) (sender : Sender) (sig : Nat) (head : PacketHead) (residue : Bool) (data : Bytes) (s : State) (t : State) (h : execChunkReceive group ord src sender sig head residue data s = .next t) (h0 : Memory.wf s.mem.cells = true) :
    Memory.wf t.mem.cells = true := by
  unfold execChunkReceive at h
  cases h
  simp (maxDischargeDepth := 60) only [State.bulk_cellsOk, MemSys.heal_cells, memNil_wf, memPut_wf, memFilter_wf, foldl_memPut_wf, h0, apply_ite State.mem, apply_ite MemSys.cells, apply_ite Memory.wf, ite_self, implies_true]

theorem execCollTimeout_cellsOk (c idx : Nat) (s : State) (t : State) (h : execCollTimeout c idx s = .next t) (h0 : Memory.wf s.mem.cells = true) :
    Memory.wf t.mem.cells = true := by
  unfold execCollTimeout at h
  cases h
  (repeat' (first | with_reducible exact h0 | split)) <;> simp (maxDischargeDepth := 60) only [State.failColl_cellsOk, State.ctrlOver_cellsOk, MemSys.heal_cells, memNil_wf, memPut_wf, memFilter_wf, foldl_memPut_wf, h0, apply_ite State.mem, apply_ite MemSys.cells, apply_ite Memory.wf, ite_self, implies_true]

theorem execPostcardReceive_cellsOk (group ord axis pos : Nat) (sender : Sender) (sig : Nat) (payload : Bytes) (s : State) (t : State) (h : execPostcardReceive group ord axis pos sender sig payload s = .next t) (h0 : Memory.wf s.mem.cells = true) :
    Memory.wf t.mem.cells = true := by
  unfold execPostcardReceive at h
  cases h
  simp (maxDischargeDepth := 60) only [State.relayCard_cellsOk, State.takeCard_cellsOk, State.takeCtrl_cellsOk, MemSys.heal_cells, memNil_wf, memPut_wf, memFilter_wf, foldl_memPut_wf, h0, apply_ite State.mem, apply_ite MemSys.cells, apply_ite Memory.wf, ite_self, implies_true]

theorem execCtrlBroadcast_cellsOk (initiator : Nat) (payload : Bytes) (s : State) (t : State) (h : execCtrlBroadcast initiator payload s = .next t) (h0 : Memory.wf s.mem.cells = true) :
    Memory.wf t.mem.cells = true := by
  unfold execCtrlBroadcast at h
  cases h
  simp (maxDischargeDepth := 60) only [State.bump_cellsOk, State.ctrlDone_cellsOk, State.ctrlOver_cellsOk, MemSys.heal_cells, memNil_wf, memPut_wf, memFilter_wf, foldl_memPut_wf, h0, apply_ite State.mem, apply_ite MemSys.cells, apply_ite Memory.wf, ite_self, implies_true]

theorem execCtrlSnapshot_cellsOk (initiator : Nat) (others : Bytes) (s : State) (t : State) (h : execCtrlSnapshot initiator others s = .next t) (h0 : Memory.wf s.mem.cells = true) :
    Memory.wf t.mem.cells = true := by
  unfold execCtrlSnapshot at h
  cases h
  simp (maxDischargeDepth := 60) only [State.bump_cellsOk, State.ctrlDone_cellsOk, State.ctrlOver_cellsOk, MemSys.heal_cells, memNil_wf, memPut_wf, memFilter_wf, foldl_memPut_wf, h0, apply_ite State.mem, apply_ite MemSys.cells, apply_ite Memory.wf, ite_self, implies_true]

theorem execCtrlGroupReset_cellsOk (initiator group : Nat) (s : State) (t : State) (h : execCtrlGroupReset initiator group s = .next t) (h0 : Memory.wf s.mem.cells = true) :
    Memory.wf t.mem.cells = true := by
  unfold execCtrlGroupReset at h
  cases h
  simp (maxDischargeDepth := 60) only [State.bump_cellsOk, State.ctrlDone_cellsOk, State.ctrlOver_cellsOk, State.groupReset_cellsOk, MemSys.heal_cells, memNil_wf, memPut_wf, memFilter_wf, foldl_memPut_wf, h0, apply_ite State.mem, apply_ite MemSys.cells, apply_ite Memory.wf, ite_self, implies_true]

theorem execCommitTimer_cellsOk (s : State) (t : State) (h : execCommitTimer s = .next t) (h0 : Memory.wf s.mem.cells = true) :
    Memory.wf t.mem.cells = true := by
  unfold execCommitTimer at h
  cases h
  simp (maxDischargeDepth := 60) only [State.commit_cellsOk, MemSys.heal_cells, memNil_wf, memPut_wf, memFilter_wf, foldl_memPut_wf, h0, apply_ite State.mem, apply_ite MemSys.cells, apply_ite Memory.wf, ite_self, implies_true]

theorem execAllowanceTick_cellsOk (s : State) (t : State) (h : execAllowanceTick s = .next t) (h0 : Memory.wf s.mem.cells = true) :
    Memory.wf t.mem.cells = true := by
  unfold execAllowanceTick at h
  cases h
  simp (maxDischargeDepth := 60) only [MemSys.heal_cells, memNil_wf, memPut_wf, memFilter_wf, foldl_memPut_wf, h0, apply_ite State.mem, apply_ite MemSys.cells, apply_ite Memory.wf, ite_self, implies_true]

theorem execWindowRoll_cellsOk (s : State) (t : State) (h : execWindowRoll s = .next t) (h0 : Memory.wf s.mem.cells = true) :
    Memory.wf t.mem.cells = true := by
  unfold execWindowRoll at h
  cases h
  simp (maxDischargeDepth := 60) only [MemSys.heal_cells, memNil_wf, memPut_wf, memFilter_wf, foldl_memPut_wf, h0, apply_ite State.mem, apply_ite MemSys.cells, apply_ite Memory.wf, ite_self, implies_true]

theorem execNandScrub_cellsOk (block finding : Nat) (s : State) (t : State) (h : execNandScrub block finding s = .next t) (h0 : Memory.wf s.mem.cells = true) :
    Memory.wf t.mem.cells = true := by
  unfold execNandScrub at h
  cases h
  (repeat' (first | with_reducible exact h0 | split)) <;> simp (maxDischargeDepth := 60) only [State.bump_cellsOk, State.pageLost_cellsOk, MemSys.heal_cells, memNil_wf, memPut_wf, memFilter_wf, foldl_memPut_wf, h0, apply_ite State.mem, apply_ite MemSys.cells, apply_ite Memory.wf, ite_self, implies_true]

theorem execStoreAll_cellsOk (value : Nat) (s : State) (t : State) (h : execStoreAll value s = .next t) (h0 : Memory.wf s.mem.cells = true) :
    Memory.wf t.mem.cells = true := by
  unfold execStoreAll at h
  cases h
  simp (maxDischargeDepth := 60) only [State.trigger_cellsOk, applyStoreAll_cellsOk, MemSys.heal_cells, memNil_wf, memPut_wf, memFilter_wf, foldl_memPut_wf, h0, apply_ite State.mem, apply_ite MemSys.cells, apply_ite Memory.wf, ite_self, implies_true]

theorem execRestoreDefaults_cellsOk (value : Nat) (s : State) (t : State) (h : execRestoreDefaults value s = .next t) (h0 : Memory.wf s.mem.cells = true) :
    Memory.wf t.mem.cells = true := by
  unfold execRestoreDefaults at h
  cases h
  simp (maxDischargeDepth := 60) only [State.trigger_cellsOk, applyRestore_cellsOk, MemSys.heal_cells, memNil_wf, memPut_wf, memFilter_wf, foldl_memPut_wf, h0, apply_ite State.mem, apply_ite MemSys.cells, apply_ite Memory.wf, ite_self, implies_true]

theorem execFaultClear_cellsOk (value : Nat) (s : State) (t : State) (h : execFaultClear value s = .next t) (h0 : Memory.wf s.mem.cells = true) :
    Memory.wf t.mem.cells = true := by
  unfold execFaultClear at h
  cases h
  simp (maxDischargeDepth := 60) only [State.trigger_cellsOk, applyFaultClear_cellsOk, MemSys.heal_cells, memNil_wf, memPut_wf, memFilter_wf, foldl_memPut_wf, h0, apply_ite State.mem, apply_ite MemSys.cells, apply_ite Memory.wf, ite_self, implies_true]

theorem execFenceUnit_cellsOk (value : Nat) (s : State) (t : State) (h : execFenceUnit value s = .next t) (h0 : Memory.wf s.mem.cells = true) :
    Memory.wf t.mem.cells = true := by
  unfold execFenceUnit at h
  cases h
  simp (maxDischargeDepth := 60) only [State.trigger_cellsOk, applyFence_cellsOk, MemSys.heal_cells, memNil_wf, memPut_wf, memFilter_wf, foldl_memPut_wf, h0, apply_ite State.mem, apply_ite MemSys.cells, apply_ite Memory.wf, ite_self, implies_true]

theorem execClearFence_cellsOk (value : Nat) (s : State) (t : State) (h : execClearFence value s = .next t) (h0 : Memory.wf s.mem.cells = true) :
    Memory.wf t.mem.cells = true := by
  unfold execClearFence at h
  cases h
  simp (maxDischargeDepth := 60) only [State.trigger_cellsOk, applyFence_cellsOk, MemSys.heal_cells, memNil_wf, memPut_wf, memFilter_wf, foldl_memPut_wf, h0, apply_ite State.mem, apply_ite MemSys.cells, apply_ite Memory.wf, ite_self, implies_true]

theorem execResetPartition_cellsOk (value : Nat) (s : State) (t : State) (h : execResetPartition value s = .next t) (h0 : Memory.wf s.mem.cells = true) :
    Memory.wf t.mem.cells = true := by
  unfold execResetPartition at h
  cases h
  simp (maxDischargeDepth := 60) only [State.writeReset_cellsOk, MemSys.heal_cells, memNil_wf, memPut_wf, memFilter_wf, foldl_memPut_wf, h0, apply_ite State.mem, apply_ite MemSys.cells, apply_ite Memory.wf, ite_self, implies_true]

theorem execResetChip_cellsOk (value : Nat) (s : State) (t : State) (h : execResetChip value s = .next t) (h0 : Memory.wf s.mem.cells = true) :
    Memory.wf t.mem.cells = true := by
  unfold execResetChip at h
  cases h
  simp (maxDischargeDepth := 60) only [State.writeReset_cellsOk, MemSys.heal_cells, memNil_wf, memPut_wf, memFilter_wf, foldl_memPut_wf, h0, apply_ite State.mem, apply_ite MemSys.cells, apply_ite Memory.wf, ite_self, implies_true]

theorem execResetChipCullet_cellsOk (value : Nat) (s : State) (t : State) (h : execResetChipCullet value s = .next t) (h0 : Memory.wf s.mem.cells = true) :
    Memory.wf t.mem.cells = true := by
  unfold execResetChipCullet at h
  cases h
  simp (maxDischargeDepth := 60) only [State.writeReset_cellsOk, MemSys.heal_cells, memNil_wf, memPut_wf, memFilter_wf, foldl_memPut_wf, h0, apply_ite State.mem, apply_ite MemSys.cells, apply_ite Memory.wf, ite_self, implies_true]

theorem execResetPowerCycle_cellsOk (value : Nat) (s : State) (t : State) (h : execResetPowerCycle value s = .next t) (h0 : Memory.wf s.mem.cells = true) :
    Memory.wf t.mem.cells = true := by
  unfold execResetPowerCycle at h
  cases h
  simp (maxDischargeDepth := 60) only [State.writeReset_cellsOk, MemSys.heal_cells, memNil_wf, memPut_wf, memFilter_wf, foldl_memPut_wf, h0, apply_ite State.mem, apply_ite MemSys.cells, apply_ite Memory.wf, ite_self, implies_true]

theorem execFenceWindow_cellsOk (region : Nat) (s : State) (t : State) (h : execFenceWindow region s = .next t) (h0 : Memory.wf s.mem.cells = true) :
    Memory.wf t.mem.cells = true := by
  unfold execFenceWindow at h
  cases h
  simp (maxDischargeDepth := 60) only [MemSys.heal_cells, memNil_wf, memPut_wf, memFilter_wf, foldl_memPut_wf, h0, apply_ite State.mem, apply_ite MemSys.cells, apply_ite Memory.wf, ite_self, implies_true]

theorem execCellWatchdog_cellsOk (cell : Nat) (s : State) (t : State) (h : execCellWatchdog cell s = .next t) (h0 : Memory.wf s.mem.cells = true) :
    Memory.wf t.mem.cells = true := by
  unfold execCellWatchdog at h
  cases h
  simp (maxDischargeDepth := 60) only [State.post_cellsOk, State.engineReset_cellsOk, MemSys.heal_cells, memNil_wf, memPut_wf, memFilter_wf, foldl_memPut_wf, h0, apply_ite State.mem, apply_ite MemSys.cells, apply_ite Memory.wf, ite_self, implies_true]

theorem execEngineWatchdog_cellsOk (unit : Nat) (s : State) (t : State) (h : execEngineWatchdog unit s = .next t) (h0 : Memory.wf s.mem.cells = true) :
    Memory.wf t.mem.cells = true := by
  unfold execEngineWatchdog at h
  cases h
  simp (maxDischargeDepth := 60) only [State.post_cellsOk, State.engineReset_cellsOk, MemSys.heal_cells, memNil_wf, memPut_wf, memFilter_wf, foldl_memPut_wf, h0, apply_ite State.mem, apply_ite MemSys.cells, apply_ite Memory.wf, ite_self, implies_true]

theorem execPartitionWatchdog_cellsOk (region : Nat) (s : State) (t : State) (h : execPartitionWatchdog region s = .next t) (h0 : Memory.wf s.mem.cells = true) :
    Memory.wf t.mem.cells = true := by
  unfold execPartitionWatchdog at h
  cases h
  simp (maxDischargeDepth := 60) only [State.post_cellsOk, State.resetPart_cellsOk, MemSys.heal_cells, memNil_wf, memPut_wf, memFilter_wf, foldl_memPut_wf, h0, apply_ite State.mem, apply_ite MemSys.cells, apply_ite Memory.wf, ite_self, implies_true]

theorem execCoreWatchdog_cellsOk (core : Nat) (s : State) (t : State) (h : execCoreWatchdog core s = .next t) (h0 : Memory.wf s.mem.cells = true) :
    Memory.wf t.mem.cells = true := by
  unfold execCoreWatchdog at h
  cases h
  simp (maxDischargeDepth := 60) only [State.post_cellsOk, State.raise_cellsOk, State.chipReset_cellsOk, MemSys.heal_cells, memNil_wf, memPut_wf, memFilter_wf, foldl_memPut_wf, h0, apply_ite State.mem, apply_ite MemSys.cells, apply_ite Memory.wf, ite_self, implies_true]

theorem execUncorrectableCellState_cellsOk (cell laneGroup : Nat) (s : State) (t : State) (h : execUncorrectableCellState cell laneGroup s = .next t) (h0 : Memory.wf s.mem.cells = true) :
    Memory.wf t.mem.cells = true := by
  unfold execUncorrectableCellState at h
  cases h
  simp (maxDischargeDepth := 60) only [State.bump_cellsOk, State.setCell_cellsOk, State.post_cellsOk, State.raise_cellsOk, State.fenceNow_cellsOk, State.engineReset_cellsOk, State.marTasks_cellsOk, MemSys.heal_cells, memNil_wf, memPut_wf, memFilter_wf, foldl_memPut_wf, h0, apply_ite State.mem, apply_ite MemSys.cells, apply_ite Memory.wf, ite_self, implies_true]

theorem execEngineResetOverrun_cellsOk (unit : Nat) (s : State) (t : State) (h : execEngineResetOverrun unit s = .next t) (h0 : Memory.wf s.mem.cells = true) :
    Memory.wf t.mem.cells = true := by
  unfold execEngineResetOverrun at h
  cases h
  simp (maxDischargeDepth := 60) only [State.fenceNow_cellsOk, MemSys.heal_cells, memNil_wf, memPut_wf, memFilter_wf, foldl_memPut_wf, h0, apply_ite State.mem, apply_ite MemSys.cells, apply_ite Memory.wf, ite_self, implies_true]

theorem execAnnealComplete_cellsOk (partition : Nat) (s : State) (t : State) (h : execAnnealComplete partition s = .next t) (h0 : Memory.wf s.mem.cells = true) :
    Memory.wf t.mem.cells = true := by
  unfold execAnnealComplete at h
  cases h
  simp (maxDischargeDepth := 60) only [State.anneal_cellsOk, MemSys.heal_cells, memNil_wf, memPut_wf, memFilter_wf, foldl_memPut_wf, h0, apply_ite State.mem, apply_ite MemSys.cells, apply_ite Memory.wf, ite_self, implies_true]

theorem execAnnealOverrun_cellsOk (partition : Nat) (s : State) (t : State) (h : execAnnealOverrun partition s = .next t) (h0 : Memory.wf s.mem.cells = true) :
    Memory.wf t.mem.cells = true := by
  unfold execAnnealOverrun at h
  cases h
  simp (maxDischargeDepth := 60) only [State.raise_cellsOk, State.chipReset_cellsOk, MemSys.heal_cells, memNil_wf, memPut_wf, memFilter_wf, foldl_memPut_wf, h0, apply_ite State.mem, apply_ite MemSys.cells, apply_ite Memory.wf, ite_self, implies_true]

theorem execChipResetTimeout_cellsOk (s : State) (t : State) (h : execChipResetTimeout s = .next t) (h0 : Memory.wf s.mem.cells = true) :
    Memory.wf t.mem.cells = true := by
  unfold execChipResetTimeout at h
  cases h
  simp (maxDischargeDepth := 60) only [State.chipReset_cellsOk, State.powerCycle_cellsOk, MemSys.heal_cells, memNil_wf, memPut_wf, memFilter_wf, foldl_memPut_wf, h0, apply_ite State.mem, apply_ite MemSys.cells, apply_ite Memory.wf, ite_self, implies_true]

theorem execTrngHealthFail_cellsOk (s : State) (t : State) (h : execTrngHealthFail s = .next t) (h0 : Memory.wf s.mem.cells = true) :
    Memory.wf t.mem.cells = true := by
  unfold execTrngHealthFail at h
  cases h
  simp (maxDischargeDepth := 60) only [State.watch_cellsOk, MemSys.heal_cells, memNil_wf, memPut_wf, memFilter_wf, foldl_memPut_wf, h0, apply_ite State.mem, apply_ite MemSys.cells, apply_ite Memory.wf, ite_self, implies_true]

theorem execTrngResume_cellsOk (s : State) (t : State) (h : execTrngResume s = .next t) (h0 : Memory.wf s.mem.cells = true) :
    Memory.wf t.mem.cells = true := by
  unfold execTrngResume at h
  cases h
  simp (maxDischargeDepth := 60) only [State.watch_cellsOk, MemSys.heal_cells, memNil_wf, memPut_wf, memFilter_wf, foldl_memPut_wf, h0, apply_ite State.mem, apply_ite MemSys.cells, apply_ite Memory.wf, ite_self, implies_true]

theorem execChallenge_cellsOk (s : State) (t : State) (h : execChallenge s = .next t) (h0 : Memory.wf s.mem.cells = true) :
    Memory.wf t.mem.cells = true := by
  unfold execChallenge at h
  cases h
  simp (maxDischargeDepth := 60) only [State.drew_cellsOk, State.abort_cellsOk, State.upload_cellsOk, MemSys.heal_cells, memNil_wf, memPut_wf, memFilter_wf, foldl_memPut_wf, h0, apply_ite State.mem, apply_ite MemSys.cells, apply_ite Memory.wf, ite_self, implies_true]

theorem execChallengeLockoutEnd_cellsOk (s : State) (t : State) (h : execChallengeLockoutEnd s = .next t) (h0 : Memory.wf s.mem.cells = true) :
    Memory.wf t.mem.cells = true := by
  unfold execChallengeLockoutEnd at h
  cases h
  exact h0

theorem execUnlockObserve_cellsOk (b : Bytes) (s : State) (t : State) (h : execUnlockObserve b s = .next t) (h0 : Memory.wf s.mem.cells = true) :
    Memory.wf t.mem.cells = true := by
  unfold execUnlockObserve at h
  cases h
  simp +contextual (maxDischargeDepth := 60) only [State.token_cellsOk, MemSys.heal_cells, memNil_wf, memPut_wf, memFilter_wf, foldl_memPut_wf, h0, apply_ite State.mem, apply_ite MemSys.cells, apply_ite Memory.wf, ite_self, implies_true]

theorem execUnlockFull_cellsOk (b : Bytes) (s : State) (t : State) (h : execUnlockFull b s = .next t) (h0 : Memory.wf s.mem.cells = true) :
    Memory.wf t.mem.cells = true := by
  unfold execUnlockFull at h
  cases h
  simp +contextual (maxDischargeDepth := 60) only [State.token_cellsOk, MemSys.heal_cells, memNil_wf, memPut_wf, memFilter_wf, foldl_memPut_wf, h0, apply_ite State.mem, apply_ite MemSys.cells, apply_ite Memory.wf, ite_self, implies_true]

theorem execToField_cellsOk (b : Bytes) (blowOk : Bool) (s : State) (t : State) (h : execToField b blowOk s = .next t) (h0 : Memory.wf s.mem.cells = true) :
    Memory.wf t.mem.cells = true := by
  unfold execToField at h
  cases h
  simp +contextual (maxDischargeDepth := 60) only [State.token_cellsOk, State.changeLife_cellsOk, MemSys.heal_cells, memNil_wf, memPut_wf, memFilter_wf, foldl_memPut_wf, h0, apply_ite State.mem, apply_ite MemSys.cells, apply_ite Memory.wf, ite_self, implies_true]

theorem execToReturned_cellsOk (b : Bytes) (blowOk : Bool) (s : State) (t : State) (h : execToReturned b blowOk s = .next t) (h0 : Memory.wf s.mem.cells = true) :
    Memory.wf t.mem.cells = true := by
  unfold execToReturned at h
  cases h
  simp +contextual (maxDischargeDepth := 60) only [State.token_cellsOk, State.changeLife_cellsOk, MemSys.heal_cells, memNil_wf, memPut_wf, memFilter_wf, foldl_memPut_wf, h0, apply_ite State.mem, apply_ite MemSys.cells, apply_ite Memory.wf, ite_self, implies_true]

theorem execToScrapped_cellsOk (b : Bytes) (blowOk : Bool) (s : State) (t : State) (h : execToScrapped b blowOk s = .next t) (h0 : Memory.wf s.mem.cells = true) :
    Memory.wf t.mem.cells = true := by
  unfold execToScrapped at h
  cases h
  simp +contextual (maxDischargeDepth := 60) only [State.token_cellsOk, State.changeLife_cellsOk, MemSys.heal_cells, memNil_wf, memPut_wf, memFilter_wf, foldl_memPut_wf, h0, apply_ite State.mem, apply_ite MemSys.cells, apply_ite Memory.wf, ite_self, implies_true]

theorem execRevoke_cellsOk (b : Bytes) (blowOk : Bool) (s : State) (t : State) (h : execRevoke b blowOk s = .next t) (h0 : Memory.wf s.mem.cells = true) :
    Memory.wf t.mem.cells = true := by
  unfold execRevoke at h
  cases h
  simp +contextual (maxDischargeDepth := 60) only [State.token_cellsOk, MemSys.heal_cells, memNil_wf, memPut_wf, memFilter_wf, foldl_memPut_wf, h0, apply_ite State.mem, apply_ite MemSys.cells, apply_ite Memory.wf, ite_self, implies_true]

theorem execRaiseSecurityVersion_cellsOk (value : Nat) (blowOk : Bool) (s : State) (t : State) (h : execRaiseSecurityVersion value blowOk s = .next t) (h0 : Memory.wf s.mem.cells = true) :
    Memory.wf t.mem.cells = true := by
  unfold execRaiseSecurityVersion at h
  cases h
  simp (maxDischargeDepth := 60) only [State.trigger_cellsOk, State.blowFailed_cellsOk, State.raiseVersion_cellsOk, MemSys.heal_cells, memNil_wf, memPut_wf, memFilter_wf, foldl_memPut_wf, h0, apply_ite State.mem, apply_ite MemSys.cells, apply_ite Memory.wf, ite_self, implies_true]

theorem execProvision_cellsOk (value : Nat) (blowOk : Bool) (s : State) (t : State) (h : execProvision value blowOk s = .next t) (h0 : Memory.wf s.mem.cells = true) :
    Memory.wf t.mem.cells = true := by
  unfold execProvision at h
  cases h
  simp (maxDischargeDepth := 60) only [State.abort_cellsOk, State.trigger_cellsOk, State.blowFailed_cellsOk, State.provisioned_cellsOk, MemSys.heal_cells, memNil_wf, memPut_wf, memFilter_wf, foldl_memPut_wf, h0, apply_ite State.mem, apply_ite MemSys.cells, apply_ite Memory.wf, ite_self, implies_true]

theorem execProvisionScrap_cellsOk (value : Nat) (blowOk : Bool) (s : State) (t : State) (h : execProvisionScrap value blowOk s = .next t) (h0 : Memory.wf s.mem.cells = true) :
    Memory.wf t.mem.cells = true := by
  unfold execProvisionScrap at h
  cases h
  simp (maxDischargeDepth := 60) only [State.answerWrite_cellsOk, State.blowFailed_cellsOk, State.changeLife_cellsOk, MemSys.heal_cells, memNil_wf, memPut_wf, memFilter_wf, foldl_memPut_wf, h0, apply_ite State.mem, apply_ite MemSys.cells, apply_ite Memory.wf, ite_self, implies_true]

theorem execRotateIdentity_cellsOk (value : Nat) (s : State) (t : State) (h : execRotateIdentity value s = .next t) (h0 : Memory.wf s.mem.cells = true) :
    Memory.wf t.mem.cells = true := by
  unfold execRotateIdentity at h
  cases h
  simp (maxDischargeDepth := 60) only [State.trigger_cellsOk, State.rotated_cellsOk, MemSys.heal_cells, memNil_wf, memPut_wf, memFilter_wf, foldl_memPut_wf, h0, apply_ite State.mem, apply_ite MemSys.cells, apply_ite Memory.wf, ite_self, implies_true]

theorem execAttestNonce_cellsOk (nonce : Bytes) (s : State) (t : State) (h : execAttestNonce nonce s = .next t) (h0 : Memory.wf s.mem.cells = true) :
    Memory.wf t.mem.cells = true := by
  unfold execAttestNonce at h
  cases h
  simp (maxDischargeDepth := 60) only [State.abort_cellsOk, State.answerWrite_cellsOk, applyNonce_cellsOk, MemSys.heal_cells, memNil_wf, memPut_wf, memFilter_wf, foldl_memPut_wf, h0, apply_ite State.mem, apply_ite MemSys.cells, apply_ite Memory.wf, ite_self, implies_true]

theorem execAttestReportReady_cellsOk (s : State) (t : State) (h : execAttestReportReady s = .next t) (h0 : Memory.wf s.mem.cells = true) :
    Memory.wf t.mem.cells = true := by
  unfold execAttestReportReady at h
  cases h
  (repeat' (first | with_reducible exact h0 | split)) <;> simp (maxDischargeDepth := 60) only [State.bump_cellsOk, MemSys.heal_cells, memNil_wf, memPut_wf, memFilter_wf, foldl_memPut_wf, h0, apply_ite State.mem, apply_ite MemSys.cells, apply_ite Memory.wf, ite_self, implies_true]

theorem execRelock_cellsOk (value : Nat) (s : State) (t : State) (h : execRelock value s = .next t) (h0 : Memory.wf s.mem.cells = true) :
    Memory.wf t.mem.cells = true := by
  unfold execRelock at h
  cases h
  simp (maxDischargeDepth := 60) only [State.trigger_cellsOk, applyRelock_cellsOk, MemSys.heal_cells, memNil_wf, memPut_wf, memFilter_wf, foldl_memPut_wf, h0, apply_ite State.mem, apply_ite MemSys.cells, apply_ite Memory.wf, ite_self, implies_true]

theorem execDebugDataRead_cellsOk (s : State) (t : State) (h : execDebugDataRead s = .next t) (h0 : Memory.wf s.mem.cells = true) :
    Memory.wf t.mem.cells = true := by
  unfold execDebugDataRead at h
  cases h
  simp (maxDischargeDepth := 60) only [State.bump_cellsOk, State.abort_cellsOk, State.upload_cellsOk, State.sawPoison_cellsOk, MemSys.heal_cells, memNil_wf, memPut_wf, memFilter_wf, foldl_memPut_wf, h0, apply_ite State.mem, apply_ite MemSys.cells, apply_ite Memory.wf, ite_self, implies_true]

theorem execDebugDataWrite_cellsOk (data : Bytes) (s : State) (t : State) (h : execDebugDataWrite data s = .next t) (h0 : Memory.wf s.mem.cells = true) :
    Memory.wf t.mem.cells = true := by
  unfold execDebugDataWrite at h
  cases h
  simp (maxDischargeDepth := 60) only [State.abort_cellsOk, State.answerWrite_cellsOk, applyDebugWrite_cellsOk, MemSys.heal_cells, memNil_wf, memPut_wf, memFilter_wf, foldl_memPut_wf, h0, apply_ite State.mem, apply_ite MemSys.cells, apply_ite Memory.wf, ite_self, implies_true]

theorem execExtest_cellsOk (boundary : Nat) (s : State) (t : State) (h : execExtest boundary s = .next t) (h0 : Memory.wf s.mem.cells = true) :
    Memory.wf t.mem.cells = true := by
  unfold execExtest at h
  cases h
  simp +contextual (maxDischargeDepth := 60) only [State.tap_cellsOk, State.linksDown_cellsOk, State.pins_cellsOk, MemSys.heal_cells, memNil_wf, memPut_wf, memFilter_wf, foldl_memPut_wf, h0, apply_ite State.mem, apply_ite MemSys.cells, apply_ite Memory.wf, ite_self, implies_true]

theorem execIdcode_cellsOk (s : State) (t : State) (h : execIdcode s = .next t) (h0 : Memory.wf s.mem.cells = true) :
    Memory.wf t.mem.cells = true := by
  unfold execIdcode at h
  cases h
  simp +contextual (maxDischargeDepth := 60) only [State.tap_cellsOk, MemSys.heal_cells, memNil_wf, memPut_wf, memFilter_wf, foldl_memPut_wf, h0, apply_ite State.mem, apply_ite MemSys.cells, apply_ite Memory.wf, ite_self, implies_true]

theorem execSamplePreload_cellsOk (boundary : Nat) (s : State) (t : State) (h : execSamplePreload boundary s = .next t) (h0 : Memory.wf s.mem.cells = true) :
    Memory.wf t.mem.cells = true := by
  unfold execSamplePreload at h
  cases h
  simp +contextual (maxDischargeDepth := 60) only [State.tap_cellsOk, State.pins_cellsOk, MemSys.heal_cells, memNil_wf, memPut_wf, memFilter_wf, foldl_memPut_wf, h0, apply_ite State.mem, apply_ite MemSys.cells, apply_ite Memory.wf, ite_self, implies_true]

theorem execScanread_cellsOk (unit : Nat) (s : State) (t : State) (h : execScanread unit s = .next t) (h0 : Memory.wf s.mem.cells = true) :
    Memory.wf t.mem.cells = true := by
  unfold execScanread at h
  cases h
  simp +contextual (maxDischargeDepth := 60) only [State.drew_cellsOk, State.tap_cellsOk, MemSys.heal_cells, memNil_wf, memPut_wf, memFilter_wf, foldl_memPut_wf, h0, apply_ite State.mem, apply_ite MemSys.cells, apply_ite Memory.wf, ite_self, implies_true]

theorem execScanwrite_cellsOk (unit : Nat) (data : Bytes) (s : State) (t : State) (h : execScanwrite unit data s = .next t) (h0 : Memory.wf s.mem.cells = true) :
    Memory.wf t.mem.cells = true := by
  unfold execScanwrite at h
  cases h
  simp +contextual (maxDischargeDepth := 60) only [State.tap_cellsOk, MemSys.heal_cells, memNil_wf, memPut_wf, memFilter_wf, foldl_memPut_wf, h0, apply_ite State.mem, apply_ite MemSys.cells, apply_ite Memory.wf, ite_self, implies_true]

theorem execCorehalt_cellsOk (core : Nat) (halt : Bool) (s : State) (t : State) (h : execCorehalt core halt s = .next t) (h0 : Memory.wf s.mem.cells = true) :
    Memory.wf t.mem.cells = true := by
  unfold execCorehalt at h
  cases h
  simp +contextual (maxDischargeDepth := 60) only [State.tap_cellsOk, MemSys.heal_cells, memNil_wf, memPut_wf, memFilter_wf, foldl_memPut_wf, h0, apply_ite State.mem, apply_ite MemSys.cells, apply_ite Memory.wf, ite_self, implies_true]

theorem execBypass_cellsOk (code : Nat) (tdi : Bool) (s : State) (t : State) (h : execBypass code tdi s = .next t) (h0 : Memory.wf s.mem.cells = true) :
    Memory.wf t.mem.cells = true := by
  unfold execBypass at h
  cases h
  simp (maxDischargeDepth := 60) only [State.bypass_cellsOk, MemSys.heal_cells, memNil_wf, memPut_wf, memFilter_wf, foldl_memPut_wf, h0, apply_ite State.mem, apply_ite MemSys.cells, apply_ite Memory.wf, ite_self, implies_true]

theorem execTapReset_cellsOk (s : State) (t : State) (h : execTapReset s = .next t) (h0 : Memory.wf s.mem.cells = true) :
    Memory.wf t.mem.cells = true := by
  unfold execTapReset at h
  cases h
  exact h0

theorem execPowerFull_cellsOk (value : Nat) (s : State) (t : State) (h : execPowerFull value s = .next t) (h0 : Memory.wf s.mem.cells = true) :
    Memory.wf t.mem.cells = true := by
  unfold execPowerFull at h
  cases h
  simp (maxDischargeDepth := 60) only [State.writePower_cellsOk, MemSys.heal_cells, memNil_wf, memPut_wf, memFilter_wf, foldl_memPut_wf, h0, apply_ite State.mem, apply_ite MemSys.cells, apply_ite Memory.wf, ite_self, implies_true]

theorem execPowerTrim_cellsOk (value : Nat) (s : State) (t : State) (h : execPowerTrim value s = .next t) (h0 : Memory.wf s.mem.cells = true) :
    Memory.wf t.mem.cells = true := by
  unfold execPowerTrim at h
  cases h
  simp (maxDischargeDepth := 60) only [State.writePower_cellsOk, MemSys.heal_cells, memNil_wf, memPut_wf, memFilter_wf, foldl_memPut_wf, h0, apply_ite State.mem, apply_ite MemSys.cells, apply_ite Memory.wf, ite_self, implies_true]

theorem execPowerHold_cellsOk (value : Nat) (s : State) (t : State) (h : execPowerHold value s = .next t) (h0 : Memory.wf s.mem.cells = true) :
    Memory.wf t.mem.cells = true := by
  unfold execPowerHold at h
  cases h
  simp (maxDischargeDepth := 60) only [State.writePower_cellsOk, MemSys.heal_cells, memNil_wf, memPut_wf, memFilter_wf, foldl_memPut_wf, h0, apply_ite State.mem, apply_ite MemSys.cells, apply_ite Memory.wf, ite_self, implies_true]

theorem execPowerFall_cellsOk (s : State) (t : State) (h : execPowerFall s = .next t) (h0 : Memory.wf s.mem.cells = true) :
    Memory.wf t.mem.cells = true := by
  unfold execPowerFall at h
  cases h
  (repeat' (first | with_reducible exact h0 | split)) <;> simp (maxDischargeDepth := 60) only [State.bump_cellsOk, State.drew_cellsOk, State.raise_cellsOk, State.watch_cellsOk, State.powerLost_cellsOk, MemSys.heal_cells, memNil_wf, memPut_wf, memFilter_wf, foldl_memPut_wf, h0, apply_ite State.mem, apply_ite MemSys.cells, apply_ite Memory.wf, ite_self, implies_true]

theorem execPowerReturn_cellsOk (s : State) (t : State) (h : execPowerReturn s = .next t) (h0 : Memory.wf s.mem.cells = true) :
    Memory.wf t.mem.cells = true := by
  unfold execPowerReturn at h
  cases h
  simp (maxDischargeDepth := 60) only [State.drew_cellsOk, State.chipReset_cellsOk, State.perstReset_cellsOk, MemSys.heal_cells, memNil_wf, memPut_wf, memFilter_wf, foldl_memPut_wf, h0, apply_ite State.mem, apply_ite MemSys.cells, apply_ite Memory.wf, ite_self, implies_true]

theorem execPowerOn_cellsOk (nandOk : Bool) (failedChannels : List Nat) (s : State) (t : State) (h : execPowerOn nandOk failedChannels s = .next t) (h0 : Memory.wf s.mem.cells = true) :
    Memory.wf t.mem.cells = true := by
  unfold execPowerOn at h
  cases h
  simp (maxDischargeDepth := 60) only [State.drew_cellsOk, State.watch_cellsOk, State.reload_cellsOk, State.coldState_cellsOk, State.routerStart_cellsOk, State.coldStart_cellsOk, MemSys.heal_cells, memNil_wf, memPut_wf, memFilter_wf, foldl_memPut_wf, h0, apply_ite State.mem, apply_ite MemSys.cells, apply_ite Memory.wf, ite_self, implies_true]

theorem execPerst_cellsOk (s : State) (t : State) (h : execPerst s = .next t) (h0 : Memory.wf s.mem.cells = true) :
    Memory.wf t.mem.cells = true := by
  unfold execPerst at h
  cases h
  (repeat' (first | with_reducible exact h0 | split)) <;> simp (maxDischargeDepth := 60) only [State.reload_cellsOk, State.perstReset_cellsOk, State.coldState_cellsOk, State.routerStart_cellsOk, MemSys.heal_cells, memNil_wf, memPut_wf, memFilter_wf, foldl_memPut_wf, h0, apply_ite State.mem, apply_ite MemSys.cells, apply_ite Memory.wf, ite_self, implies_true]

theorem execPerstRelease_cellsOk (s : State) (t : State) (h : execPerstRelease s = .next t) (h0 : Memory.wf s.mem.cells = true) :
    Memory.wf t.mem.cells = true := by
  unfold execPerstRelease at h
  cases h
  simp (maxDischargeDepth := 60) only [State.log_cellsOk, State.enterBootstrap_cellsOk, State.startUp_cellsOk, MemSys.heal_cells, memNil_wf, memPut_wf, memFilter_wf, foldl_memPut_wf, h0, apply_ite State.mem, apply_ite MemSys.cells, apply_ite Memory.wf, ite_self, implies_true]

theorem execRefclk156Loss_cellsOk (s : State) (t : State) (h : execRefclk156Loss s = .next t) (h0 : Memory.wf s.mem.cells = true) :
    Memory.wf t.mem.cells = true := by
  unfold execRefclk156Loss at h
  cases h
  simp (maxDischargeDepth := 60) only [State.portsDown_cellsOk, MemSys.heal_cells, memNil_wf, memPut_wf, memFilter_wf, foldl_memPut_wf, h0, apply_ite State.mem, apply_ite MemSys.cells, apply_ite Memory.wf, ite_self, implies_true]

theorem execRefclk156Return_cellsOk (s : State) (t : State) (h : execRefclk156Return s = .next t) (h0 : Memory.wf s.mem.cells = true) :
    Memory.wf t.mem.cells = true := by
  unfold execRefclk156Return at h
  cases h
  exact h0

theorem execRefclk100Loss_cellsOk (s : State) (t : State) (h : execRefclk100Loss s = .next t) (h0 : Memory.wf s.mem.cells = true) :
    Memory.wf t.mem.cells = true := by
  unfold execRefclk100Loss at h
  cases h
  (repeat' (first | with_reducible exact h0 | split)) <;> simp (maxDischargeDepth := 60) only [MemSys.heal_cells, memNil_wf, memPut_wf, memFilter_wf, foldl_memPut_wf, h0, apply_ite State.mem, apply_ite MemSys.cells, apply_ite Memory.wf, ite_self, implies_true]

theorem execThermalWarning_cellsOk (die device : Nat) (s : State) (t : State) (h : execThermalWarning die device s = .next t) (h0 : Memory.wf s.mem.cells = true) :
    Memory.wf t.mem.cells = true := by
  unfold execThermalWarning at h
  cases h
  simp (maxDischargeDepth := 60) only [State.sense_cellsOk, MemSys.heal_cells, memNil_wf, memPut_wf, memFilter_wf, foldl_memPut_wf, h0, apply_ite State.mem, apply_ite MemSys.cells, apply_ite Memory.wf, ite_self, implies_true]

theorem execThrottleStep_cellsOk (die device power : Nat) (s : State) (t : State) (h : execThrottleStep die device power s = .next t) (h0 : Memory.wf s.mem.cells = true) :
    Memory.wf t.mem.cells = true := by
  unfold execThrottleStep at h
  cases h
  simp (maxDischargeDepth := 60) only [State.sense_cellsOk, MemSys.heal_cells, memNil_wf, memPut_wf, memFilter_wf, foldl_memPut_wf, h0, apply_ite State.mem, apply_ite MemSys.cells, apply_ite Memory.wf, ite_self, implies_true]

theorem execThermalTrip_cellsOk (die device : Nat) (s : State) (t : State) (h : execThermalTrip die device s = .next t) (h0 : Memory.wf s.mem.cells = true) :
    Memory.wf t.mem.cells = true := by
  unfold execThermalTrip at h
  cases h
  (repeat' (first | with_reducible exact h0 | split)) <;> simp (maxDischargeDepth := 60) only [State.portsDown_cellsOk, State.powerLost_cellsOk, State.sense_cellsOk, MemSys.heal_cells, memNil_wf, memPut_wf, memFilter_wf, foldl_memPut_wf, h0, apply_ite State.mem, apply_ite MemSys.cells, apply_ite Memory.wf, ite_self, implies_true]

theorem execInputVoltageOutOfRange_cellsOk (millivolts : Nat) (s : State) (t : State) (h : execInputVoltageOutOfRange millivolts s = .next t) (h0 : Memory.wf s.mem.cells = true) :
    Memory.wf t.mem.cells = true := by
  unfold execInputVoltageOutOfRange at h
  cases h
  simp (maxDischargeDepth := 60) only [State.watch_cellsOk, MemSys.heal_cells, memNil_wf, memPut_wf, memFilter_wf, foldl_memPut_wf, h0, apply_ite State.mem, apply_ite MemSys.cells, apply_ite Memory.wf, ite_self, implies_true]

theorem execFoeRead_cellsOk (password : Nat) (name : Bytes) (s : State) (t : State) (h : execFoeRead password name s = .next t) (h0 : Memory.wf s.mem.cells = true) :
    Memory.wf t.mem.cells = true := by
  unfold execFoeRead at h
  cases h
  split
  · exact h0
  · split
    · exact State.foeError_cellsOk _ _ _ h0
    · split
      · exact State.foeError_cellsOk _ _ _ h0
      · split
        · exact State.foeError_cellsOk _ _ _ h0
        · exact State.bump_cellsOk _ _ _ _ (foldl_cellsOk _ (fun s a hs => State.placeSm1_cellsOk _ _ hs) _ _ h0)

theorem execFoeWriteFirmware_cellsOk (password readBack : Nat) (image : Bytes) (s : State) (t : State) (h : execFoeWriteFirmware password readBack image s = .next t) (h0 : Memory.wf s.mem.cells = true) :
    Memory.wf t.mem.cells = true := by
  unfold execFoeWriteFirmware at h
  cases h
  simp (maxDischargeDepth := 60) only [State.foeError_cellsOk, State.takeImage_cellsOk, MemSys.heal_cells, memNil_wf, memPut_wf, memFilter_wf, foldl_memPut_wf, h0, apply_ite State.mem, apply_ite MemSys.cells, apply_ite Memory.wf, ite_self, implies_true]

theorem execActivateFirmware_cellsOk (value : Nat) (s : State) (t : State) (h : execActivateFirmware value s = .next t) (h0 : Memory.wf s.mem.cells = true) :
    Memory.wf t.mem.cells = true := by
  unfold execActivateFirmware at h
  cases h
  simp (maxDischargeDepth := 60) only [State.trigger_cellsOk, applyActivate_cellsOk, MemSys.heal_cells, memNil_wf, memPut_wf, memFilter_wf, foldl_memPut_wf, h0, apply_ite State.mem, apply_ite MemSys.cells, apply_ite Memory.wf, ite_self, implies_true]

theorem execPdoMapping_cellsOk (index : Nat) (entries : List Nat) (s : State) (t : State) (h : execPdoMapping index entries s = .next t) (h0 : Memory.wf s.mem.cells = true) :
    Memory.wf t.mem.cells = true := by
  unfold execPdoMapping at h
  cases h
  simp (maxDischargeDepth := 60) only [State.writePdo_cellsOk, MemSys.heal_cells, memNil_wf, memPut_wf, memFilter_wf, foldl_memPut_wf, h0, apply_ite State.mem, apply_ite MemSys.cells, apply_ite Memory.wf, ite_self, implies_true]

theorem execLayoutCommit_cellsOk (value : Nat) (s : State) (t : State) (h : execLayoutCommit value s = .next t) (h0 : Memory.wf s.mem.cells = true) :
    Memory.wf t.mem.cells = true := by
  unfold execLayoutCommit at h
  cases h
  simp (maxDischargeDepth := 60) only [State.trigger_cellsOk, applyLayout_cellsOk, MemSys.heal_cells, memNil_wf, memPut_wf, memFilter_wf, foldl_memPut_wf, h0, apply_ite State.mem, apply_ite MemSys.cells, apply_ite Memory.wf, ite_self, implies_true]

theorem execSdoDownload_cellsOk (index sub : Nat) (complete : Bool) (b : Bytes) (s : State) (t : State) (h : execSdoDownload index sub complete b s = .next t) (h0 : Memory.wf s.mem.cells = true) :
    Memory.wf t.mem.cells = true := by
  unfold execSdoDownload at h
  cases h
  (repeat' (first | with_reducible exact h0 | split)) <;> simp (maxDischargeDepth := 60) only [State.complete_cellsOk, State.download_cellsOk, State.downloadAll_cellsOk, State.downloadPdo_cellsOk, MemSys.heal_cells, memNil_wf, memPut_wf, memFilter_wf, foldl_memPut_wf, h0, apply_ite State.mem, apply_ite MemSys.cells, apply_ite Memory.wf, ite_self, implies_true]

theorem execDictWrite_cellsOk (index sub : Nat) (b : Bytes) (s : State) (t : State) (h : execDictWrite index sub b s = .next t) (h0 : Memory.wf s.mem.cells = true) :
    Memory.wf t.mem.cells = true := by
  unfold execDictWrite at h
  cases h
  (repeat' (first | with_reducible exact h0 | split)) <;> simp (maxDischargeDepth := 60) only [State.trigger_cellsOk, State.download_cellsOk, MemSys.heal_cells, memNil_wf, memPut_wf, memFilter_wf, foldl_memPut_wf, h0, apply_ite State.mem, apply_ite MemSys.cells, apply_ite Memory.wf, ite_self, implies_true]

theorem execSdoUpload_cellsOk (index sub : Nat) (complete : Bool) (s : State) (t : State) (h : execSdoUpload index sub complete s = .next t) (h0 : Memory.wf s.mem.cells = true) :
    Memory.wf t.mem.cells = true := by
  unfold execSdoUpload at h
  cases h
  (repeat' (first | with_reducible exact h0 | split)) <;> simp (maxDischargeDepth := 60) only [State.abort_cellsOk, State.upload_cellsOk, State.complete_cellsOk, State.uploadOne_cellsOk, State.uploadAll_cellsOk, MemSys.heal_cells, memNil_wf, memPut_wf, memFilter_wf, foldl_memPut_wf, h0, apply_ite State.mem, apply_ite MemSys.cells, apply_ite Memory.wf, ite_self, implies_true]

theorem execSdoTransferTimeout_cellsOk (s : State) (t : State) (h : execSdoTransferTimeout s = .next t) (h0 : Memory.wf s.mem.cells = true) :
    Memory.wf t.mem.cells = true := by
  unfold execSdoTransferTimeout at h
  cases h
  (repeat' (first | with_reducible exact h0 | split)) <;> simp (maxDischargeDepth := 60) only [State.abort_cellsOk, MemSys.heal_cells, memNil_wf, memPut_wf, memFilter_wf, foldl_memPut_wf, h0, apply_ite State.mem, apply_ite MemSys.cells, apply_ite Memory.wf, ite_self, implies_true]

theorem execSdoInformation_cellsOk (op index sub : Nat) (s : State) (t : State) (h : execSdoInformation op index sub s = .next t) (h0 : Memory.wf s.mem.cells = true) :
    Memory.wf t.mem.cells = true := by
  unfold execSdoInformation at h
  cases h
  (repeat' (first | with_reducible exact h0 | split)) <;> simp (maxDischargeDepth := 60) only [State.placeSm1_cellsOk, MemSys.heal_cells, memNil_wf, memPut_wf, memFilter_wf, foldl_memPut_wf, h0, apply_ite State.mem, apply_ite MemSys.cells, apply_ite Memory.wf, ite_self, implies_true]

theorem execEthercatFrame_cellsOk (port : Nat) (dgs : List EscDgram) (s : State) (t : State) (h : execEthercatFrame port dgs s = .next t) (h0 : Memory.wf s.mem.cells = true) :
    Memory.wf t.mem.cells = true := by
  unfold execEthercatFrame at h
  cases h
  simp +contextual (maxDischargeDepth := 60) only [State.datagram_cellsOk, foldl_cellsOk, MemSys.heal_cells, memNil_wf, memPut_wf, memFilter_wf, foldl_memPut_wf, h0, apply_ite State.mem, apply_ite MemSys.cells, apply_ite Memory.wf, ite_self, implies_true]

theorem execEthercatLinkLoss_cellsOk (port : Nat) (s : State) (t : State) (h : execEthercatLinkLoss port s = .next t) (h0 : Memory.wf s.mem.cells = true) :
    Memory.wf t.mem.cells = true := by
  unfold execEthercatLinkLoss at h
  cases h
  exact h0

theorem execEthercatLinkUp_cellsOk (port : Nat) (s : State) (t : State) (h : execEthercatLinkUp port s = .next t) (h0 : Memory.wf s.mem.cells = true) :
    Memory.wf t.mem.cells = true := by
  unfold execEthercatLinkUp at h
  cases h
  simp (maxDischargeDepth := 60) only [MemSys.heal_cells, memNil_wf, memPut_wf, memFilter_wf, foldl_memPut_wf, h0, apply_ite State.mem, apply_ite MemSys.cells, apply_ite Memory.wf, ite_self, implies_true]

theorem execAlStateRequest_cellsOk (state : Nat) (s : State) (t : State) (h : execAlStateRequest state s = .next t) (h0 : Memory.wf s.mem.cells = true) :
    Memory.wf t.mem.cells = true := by
  unfold execAlStateRequest at h
  cases h
  simp +contextual (maxDischargeDepth := 60) [h0, apply_ite State.mem, apply_ite MemSys.cells, apply_ite Memory.wf, ite_self]

theorem execSm2Watchdog_cellsOk (s : State) (t : State) (h : execSm2Watchdog s = .next t) (h0 : Memory.wf s.mem.cells = true) :
    Memory.wf t.mem.cells = true := by
  unfold execSm2Watchdog at h
  cases h
  simp (maxDischargeDepth := 60) only [State.bump_cellsOk, MemSys.heal_cells, memNil_wf, memPut_wf, memFilter_wf, foldl_memPut_wf, h0, apply_ite State.mem, apply_ite MemSys.cells, apply_ite Memory.wf, ite_self, implies_true]

theorem execMailboxUnsupported_cellsOk (protocol : Nat) (s : State) (t : State) (h : execMailboxUnsupported protocol s = .next t) (h0 : Memory.wf s.mem.cells = true) :
    Memory.wf t.mem.cells = true := by
  unfold execMailboxUnsupported at h
  cases h
  simp (maxDischargeDepth := 60) only [State.placeSm1_cellsOk, MemSys.heal_cells, memNil_wf, memPut_wf, memFilter_wf, foldl_memPut_wf, h0, apply_ite State.mem, apply_ite MemSys.cells, apply_ite Memory.wf, ite_self, implies_true]

theorem execPdoRefresh_cellsOk (s : State) (t : State) (h : execPdoRefresh s = .next t) (h0 : Memory.wf s.mem.cells = true) :
    Memory.wf t.mem.cells = true := by
  unfold execPdoRefresh at h
  cases h
  simp (maxDischargeDepth := 60) only [State.escPuts_cellsOk, MemSys.heal_cells, memNil_wf, memPut_wf, memFilter_wf, foldl_memPut_wf, h0, apply_ite State.mem, apply_ite MemSys.cells, apply_ite Memory.wf, ite_self, implies_true]

end Sys2Proof.Machine
end

