-- ==== Sys2Proof/Laws/Esc.lean ====
section
/-! SUPPORT. Esc: which operations and commands leave the EtherCAT controller memory alone, and that the others keep its canonical form. -/

set_option linter.all false

namespace Sys2Proof.Machine
open Sys2Proof

/-! ### Ops -/

@[simp] theorem foldl_esc {α : Type} (f : State → α → State) (h : ∀ s a, (f s a).ecat.esc = s.ecat.esc) (l : List α) (s : State) :
    (l.foldl f s).ecat.esc = s.ecat.esc := by
  induction l generalizing s with
  | nil => rfl
  | cons a l ih => rw [List.foldl_cons, ih, h]

@[simp] theorem State.dset_esc (s : State) (idx sub v : Nat) :
    (State.dset s idx sub v).ecat.esc = s.ecat.esc := by
  rfl

@[simp] theorem State.bump_esc (s : State) (idx sub n : Nat) :
    (State.bump s idx sub n).ecat.esc = s.ecat.esc := by
  rfl

@[simp] theorem State.setCount_esc (s : State) (idx sub n : Nat) :
    (State.setCount s idx sub n).ecat.esc = s.ecat.esc := by
  rfl

@[simp] theorem State.bumps_esc (s : State) (l : List (Nat × Nat)) :
    (State.bumps s l).ecat.esc = s.ecat.esc := by
  simp only [State.bumps, State.bump_esc, foldl_esc, apply_ite State.ecat, apply_ite EtherCat.esc, ite_self, implies_true]

@[simp] theorem State.drew_esc (s : State) :
    (State.drew s).ecat.esc = s.ecat.esc := by
  rfl

@[simp] theorem State.setCell_esc (s : State) (i : Nat) (f : Cell → Cell) :
    (State.setCell s i f).ecat.esc = s.ecat.esc := by
  rfl

@[simp] theorem State.setChan_esc (s : State) (i : Nat) (f : Chan → Chan) :
    (State.setChan s i f).ecat.esc = s.ecat.esc := by
  rfl

@[simp] theorem State.storeByte_esc (s : State) (a : Nat) (v : Byte) :
    (State.storeByte s a v).ecat.esc = s.ecat.esc := by
  unfold State.storeByte
  (repeat' (first | with_reducible rfl | split)) <;> simp only [State.bump_esc, State.setChan_esc, apply_ite State.ecat, apply_ite EtherCat.esc, ite_self, implies_true]

@[simp] theorem State.storeBytes_esc (s : State) (a : Nat) (v0 : Bytes) :
    (State.storeBytes s a v0).ecat.esc = s.ecat.esc := by
  induction v0 generalizing s a  with
  | nil =>
    first
    | rfl
    | (simp only [State.storeBytes, State.storeByte_esc, apply_ite State.ecat, apply_ite EtherCat.esc, ite_self, implies_true]; done)
  | cons b l ih =>
    first
    | (simp only [State.storeBytes, State.storeByte_esc, apply_ite State.ecat, apply_ite EtherCat.esc, ite_self, implies_true, ih]; done)
    | (unfold State.storeBytes; (repeat' (first | with_reducible rfl | split)) <;> (simp only [State.storeByte_esc, apply_ite State.ecat, apply_ite EtherCat.esc, ite_self, implies_true, ih]; done))
    | (unfold State.storeBytes; (repeat' (first | with_reducible rfl | split)) <;> (try simp only [State.storeByte_esc, apply_ite State.ecat, apply_ite EtherCat.esc, ite_self, implies_true, ih]) <;> (repeat' (first | with_reducible rfl | split)) <;> (simp only [State.storeByte_esc, apply_ite State.ecat, apply_ite EtherCat.esc, ite_self, implies_true, ih]; done))

@[simp] theorem State.retireWcb_esc (s : State) (e : Wcb) :
    (State.retireWcb s e).ecat.esc = s.ecat.esc := by
  simp only [State.retireWcb, State.bump_esc, apply_ite State.ecat, apply_ite EtherCat.esc, ite_self, implies_true]

@[simp] theorem State.mergeLine_esc (s : State) (line : Nat) (addrs : List Nat) :
    (State.mergeLine s line addrs).ecat.esc = s.ecat.esc := by
  unfold State.mergeLine
  simp only [State.bump_esc, State.retireWcb_esc, foldl_esc, apply_ite State.ecat, apply_ite EtherCat.esc, ite_self, implies_true]
  (repeat' (first | with_reducible rfl | split)) <;> (try with_reducible rfl) <;> simp only [State.bump_esc, State.retireWcb_esc, foldl_esc, apply_ite State.ecat, apply_ite EtherCat.esc, ite_self, implies_true]

@[simp] theorem State.mergeLines_esc (s : State) (a n : Nat) (v0 : Nat) :
    (State.mergeLines s a n v0).ecat.esc = s.ecat.esc := by
  induction v0 generalizing s a n  with
  | zero =>
    first
    | rfl
    | (simp only [State.mergeLines, State.mergeLine_esc, apply_ite State.ecat, apply_ite EtherCat.esc, ite_self, implies_true]; done)
  | succ n ih =>
    first
    | (simp only [State.mergeLines, State.mergeLine_esc, apply_ite State.ecat, apply_ite EtherCat.esc, ite_self, implies_true, ih]; done)
    | (unfold State.mergeLines; (repeat' (first | with_reducible rfl | split)) <;> (simp only [State.mergeLine_esc, apply_ite State.ecat, apply_ite EtherCat.esc, ite_self, implies_true, ih]; done))
    | (unfold State.mergeLines; (repeat' (first | with_reducible rfl | split)) <;> (try simp only [State.mergeLine_esc, apply_ite State.ecat, apply_ite EtherCat.esc, ite_self, implies_true, ih]) <;> (repeat' (first | with_reducible rfl | split)) <;> (simp only [State.mergeLine_esc, apply_ite State.ecat, apply_ite EtherCat.esc, ite_self, implies_true, ih]; done))

@[simp] theorem State.spoil_esc (s : State) (a n : Nat) :
    (State.spoil s a n).ecat.esc = s.ecat.esc := by
  rfl

@[simp] theorem State.writeBytes_esc (s : State) (a : Nat) (bs : Bytes) :
    (State.writeBytes s a bs).ecat.esc = s.ecat.esc := by
  simp only [State.writeBytes, State.bump_esc, State.storeBytes_esc, State.mergeLines_esc, State.spoil_esc, apply_ite State.ecat, apply_ite EtherCat.esc, ite_self, implies_true]

@[simp] theorem State.poisonUnits_esc (s : State) (us : List Nat) :
    (State.poisonUnits s us).ecat.esc = s.ecat.esc := by
  simp only [State.poisonUnits, State.bump_esc, foldl_esc, apply_ite State.ecat, apply_ite EtherCat.esc, ite_self, implies_true]

@[simp] theorem State.clearRun_esc (s : State) (a n : Nat) :
    (State.clearRun s a n).ecat.esc = s.ecat.esc := by
  rfl

/-! ### Journal -/

@[simp] theorem State.wearLevel_esc (s : State) :
    (State.wearLevel s).ecat.esc = s.ecat.esc := by
  unfold State.wearLevel
  (repeat' (first | with_reducible rfl | split)) <;> simp only [State.bump_esc, apply_ite State.ecat, apply_ite EtherCat.esc, ite_self, implies_true]

@[simp] theorem State.commitWith_esc (s : State) (extra : List Rec) :
    (State.commitWith s extra).ecat.esc = s.ecat.esc := by
  simp only [State.commitWith, State.bump_esc, State.wearLevel_esc, apply_ite State.ecat, apply_ite EtherCat.esc, ite_self, implies_true]

@[simp] theorem State.commit_esc (s : State) :
    (State.commit s).ecat.esc = s.ecat.esc := by
  simp only [State.commit, State.commitWith_esc, apply_ite State.ecat, apply_ite EtherCat.esc, ite_self, implies_true]

@[simp] theorem State.forceCommit_esc (s : State) :
    (State.forceCommit s).ecat.esc = s.ecat.esc := by
  simp only [State.forceCommit, State.bump_esc, State.commitWith_esc, apply_ite State.ecat, apply_ite EtherCat.esc, ite_self, implies_true]

@[simp] theorem State.journal_esc (s : State) (must : Bool) (r : Rec) :
    (State.journal s must r).ecat.esc = s.ecat.esc := by
  simp only [State.journal, State.commitWith_esc, apply_ite State.ecat, apply_ite EtherCat.esc, ite_self, implies_true]

/-! ### Events -/

@[simp] theorem State.post_esc (s : State) (unit event status detail : Nat) :
    (State.post s unit event status detail).ecat.esc = s.ecat.esc := by
  simp only [State.post, State.drew_esc, apply_ite State.ecat, apply_ite EtherCat.esc, ite_self, implies_true]

@[simp] theorem State.log_esc (s : State) (unit status severity part detail : Nat) :
    (State.log s unit status severity part detail).ecat.esc = s.ecat.esc := by
  simp only [State.log, State.bump_esc, State.drew_esc, State.journal_esc, apply_ite State.ecat, apply_ite EtherCat.esc, ite_self, implies_true]

@[simp] theorem State.flushEmergency_esc (s : State) :
    (State.flushEmergency s).ecat.esc = s.ecat.esc := by
  unfold State.flushEmergency
  (repeat' (first | with_reducible rfl | split)) <;> simp only [State.bump_esc, apply_ite State.ecat, apply_ite EtherCat.esc, ite_self, implies_true]

@[simp] theorem State.emergency_esc (s : State) (bitNo status : Nat) :
    (State.emergency s bitNo status).ecat.esc = s.ecat.esc := by
  simp only [State.emergency, State.bump_esc, State.flushEmergency_esc, apply_ite State.ecat, apply_ite EtherCat.esc, ite_self, implies_true]

@[simp] theorem State.raise_esc (s : State) (bitNo status : Nat) :
    (State.raise s bitNo status).ecat.esc = s.ecat.esc := by
  simp only [State.raise, State.emergency_esc, apply_ite State.ecat, apply_ite EtherCat.esc, ite_self, implies_true]

@[simp] theorem State.watch_esc (s : State) (status : Nat) :
    (State.watch s status).ecat.esc = s.ecat.esc := by
  simp only [State.watch, State.emergency_esc, foldl_esc, apply_ite State.ecat, apply_ite EtherCat.esc, ite_self, implies_true]

/-! ### Wire -/

@[simp] theorem State.setPort_esc (s : State) (i : Nat) (f : Port → Port) :
    (State.setPort s i f).ecat.esc = s.ecat.esc := by
  rfl

@[simp] theorem State.freePlace_esc (s : State) (f : Flit) :
    (State.freePlace s f).ecat.esc = s.ecat.esc := by
  unfold State.freePlace
  (repeat' (first | with_reducible rfl | split)) <;> simp only [State.setPort_esc, apply_ite State.ecat, apply_ite EtherCat.esc, ite_self, implies_true]

@[simp] theorem State.routeFlit_esc (s : State) (f : Flit) :
    (State.routeFlit s f).ecat.esc = s.ecat.esc := by
  simp only [State.routeFlit, State.bump_esc, State.setPort_esc, State.freePlace_esc, apply_ite State.ecat, apply_ite EtherCat.esc, ite_self, implies_true]

@[simp] theorem State.rerouteHeld_esc (s : State) :
    (State.rerouteHeld s).ecat.esc = s.ecat.esc := by
  simp only [State.rerouteHeld, State.routeFlit_esc, foldl_esc, apply_ite State.ecat, apply_ite EtherCat.esc, ite_self, implies_true]

@[simp] theorem State.sendPacket_esc (s : State) (cls dest post : Nat) (payload : Bytes) :
    (State.sendPacket s cls dest post payload).ecat.esc = s.ecat.esc := by
  simp only [State.sendPacket, State.post_esc, State.routeFlit_esc, foldl_esc, apply_ite State.ecat, apply_ite EtherCat.esc, ite_self, implies_true]

@[simp] theorem State.respond_esc (s : State) (part dest post : Nat) (payload : Bytes) :
    (State.respond s part dest post payload).ecat.esc = s.ecat.esc := by
  simp only [State.respond, State.post_esc, State.sendPacket_esc, apply_ite State.ecat, apply_ite EtherCat.esc, ite_self, implies_true]

@[simp] theorem State.refuse_esc (s : State) (part dest code : Nat) :
    (State.refuse s part dest code).ecat.esc = s.ecat.esc := by
  simp only [State.refuse, State.routeFlit_esc, foldl_esc, apply_ite State.ecat, apply_ite EtherCat.esc, ite_self, implies_true]

@[simp] theorem State.request_esc (s : State) (kind : ReqKind) (ctx idx part node addr len : Nat) (data : Bytes) (session seq : Nat) :
    (State.request s kind ctx idx part node addr len data session seq).ecat.esc = s.ecat.esc := by
  simp only [State.request, State.routeFlit_esc, foldl_esc, apply_ite State.ecat, apply_ite EtherCat.esc, ite_self, implies_true]

@[simp] theorem State.dropReqs_esc (s : State) (p : Req → Bool) :
    (State.dropReqs s p).ecat.esc = s.ecat.esc := by
  rfl

@[simp] theorem State.dropCopy_esc (s : State) (c : Copy) :
    (State.dropCopy s c).ecat.esc = s.ecat.esc := by
  rfl

@[simp] theorem State.chargeWrite_esc (s : State) (ctx code : Nat) :
    (State.chargeWrite s ctx code).ecat.esc = s.ecat.esc := by
  rfl

@[simp] theorem State.lostBack_esc (s : State) (node addr code : Nat) :
    (State.lostBack s node addr code).ecat.esc = s.ecat.esc := by
  unfold State.lostBack
  (repeat' (first | with_reducible rfl | split)) <;> simp only [State.chargeWrite_esc, foldl_esc, apply_ite State.ecat, apply_ite EtherCat.esc, ite_self, implies_true]

@[simp] theorem State.lostFetch_esc (s : State) (node addr code : Nat) :
    (State.lostFetch s node addr code).ecat.esc = s.ecat.esc := by
  simp only [State.lostFetch, State.chargeWrite_esc, foldl_esc, apply_ite State.ecat, apply_ite EtherCat.esc, ite_self, implies_true]

@[simp] theorem State.writeBack_esc (s : State) (c : Copy) :
    (State.writeBack s c).ecat.esc = s.ecat.esc := by
  simp only [State.writeBack, State.request_esc, State.lostBack_esc, apply_ite State.ecat, apply_ite EtherCat.esc, ite_self, implies_true]

@[simp] theorem State.evict_esc (s : State) (c : Copy) :
    (State.evict s c).ecat.esc = s.ecat.esc := by
  simp only [State.evict, State.bump_esc, State.dropCopy_esc, State.writeBack_esc, apply_ite State.ecat, apply_ite EtherCat.esc, ite_self, implies_true]

@[simp] theorem State.makeRoom_esc (s : State) (n : Nat) (v0 : Nat) :
    (State.makeRoom s n v0).ecat.esc = s.ecat.esc := by
  induction v0 generalizing s n  with
  | zero =>
    first
    | rfl
    | (simp only [State.makeRoom, State.evict_esc, apply_ite State.ecat, apply_ite EtherCat.esc, ite_self, implies_true]; done)
  | succ n ih =>
    first
    | (simp only [State.makeRoom, State.evict_esc, apply_ite State.ecat, apply_ite EtherCat.esc, ite_self, implies_true, ih]; done)
    | (unfold State.makeRoom; (repeat' (first | with_reducible rfl | split)) <;> (simp only [State.evict_esc, apply_ite State.ecat, apply_ite EtherCat.esc, ite_self, implies_true, ih]; done))
    | (unfold State.makeRoom; (repeat' (first | with_reducible rfl | split)) <;> (try simp only [State.evict_esc, apply_ite State.ecat, apply_ite EtherCat.esc, ite_self, implies_true, ih]) <;> (repeat' (first | with_reducible rfl | split)) <;> (simp only [State.evict_esc, apply_ite State.ecat, apply_ite EtherCat.esc, ite_self, implies_true, ih]; done))

@[simp] theorem State.copyRoom_esc (s : State) :
    (State.copyRoom s).1.ecat.esc = s.ecat.esc := by
  simp only [State.copyRoom, State.makeRoom_esc, apply_ite State.ecat, apply_ite EtherCat.esc, ite_self, implies_true]

@[simp] theorem State.copyWrite_esc (s : State) (ctx g : Nat) (bs : Bytes) :
    (State.copyWrite s ctx g bs).1.ecat.esc = s.ecat.esc := by
  unfold State.copyWrite
  simp only [State.request_esc, State.lostFetch_esc, State.copyRoom_esc, foldl_esc, apply_ite State.ecat, apply_ite EtherCat.esc, ite_self, implies_true]
  (repeat' (first | with_reducible rfl | split)) <;> (try with_reducible rfl) <;> simp only [State.request_esc, State.lostFetch_esc, State.copyRoom_esc, foldl_esc, apply_ite State.ecat, apply_ite EtherCat.esc, ite_self, implies_true]

@[simp] theorem State.writeGlobal_esc (s : State) (ctx idx part : Nat) (w : Nat × Bytes) :
    (State.writeGlobal s ctx idx part w).ecat.esc = s.ecat.esc := by
  simp only [State.writeGlobal, State.writeBytes_esc, State.request_esc, State.chargeWrite_esc, State.copyWrite_esc, foldl_esc, apply_ite State.ecat, apply_ite EtherCat.esc, ite_self, implies_true]

/-! ### Dict -/

@[simp] theorem State.placeSm1_esc (s : State) (m : Bytes) :
    (State.placeSm1 s m).ecat.esc = s.ecat.esc := by
  rfl

@[simp] theorem State.abort_esc (s : State) (idx sub code detail : Nat) :
    (State.abort s idx sub code detail).ecat.esc = s.ecat.esc := by
  simp only [State.abort, State.bump_esc, State.placeSm1_esc, apply_ite State.ecat, apply_ite EtherCat.esc, ite_self, implies_true]

@[simp] theorem State.answerWrite_esc (s : State) (idx sub : Nat) (commit : Bool) (r : Applied) (h : r.1.ecat.esc = s.ecat.esc) :
    (s.answerWrite idx sub commit r).ecat.esc = s.ecat.esc := by
  unfold State.answerWrite
  split <;> simp [h]

@[simp] theorem State.upload_esc (s : State) (idx sub : Nat) (data : Bytes) :
    (State.upload s idx sub data).ecat.esc = s.ecat.esc := by
  simp only [State.upload, State.bump_esc, State.placeSm1_esc, apply_ite State.ecat, apply_ite EtherCat.esc, ite_self, implies_true]

@[simp] theorem State.trigger_esc (s : State) (idx sub : Nat) (commit : Bool) (lo hi value : Nat) (f : State → Applied)
    (h : (f s).1.ecat.esc = s.ecat.esc) : (s.trigger idx sub commit lo hi value f).ecat.esc = s.ecat.esc := by
  unfold State.trigger
  split
  · rfl
  · apply State.answerWrite_esc
    split
    · rfl
    · exact h

@[simp] theorem State.keep_esc (s : State) (idx sub width v : Nat) :
    (State.keep s idx sub width v).ecat.esc = s.ecat.esc := by
  simp only [State.keep, State.dset_esc, State.journal_esc, apply_ite State.ecat, apply_ite EtherCat.esc, ite_self, implies_true]

@[simp] theorem State.putFence_esc (s : State) (unit state origin cause : Nat) :
    (State.putFence s unit state origin cause).ecat.esc = s.ecat.esc := by
  simp only [State.putFence, State.drew_esc, State.forceCommit_esc, State.journal_esc, State.post_esc, State.log_esc, State.watch_esc, apply_ite State.ecat, apply_ite EtherCat.esc, ite_self, implies_true]

@[simp] theorem State.dropFence_esc (s : State) (unit : Nat) :
    (State.dropFence s unit).ecat.esc = s.ecat.esc := by
  unfold State.dropFence
  (repeat' (first | with_reducible rfl | split)) <;> simp only [State.forceCommit_esc, State.journal_esc, State.watch_esc, apply_ite State.ecat, apply_ite EtherCat.esc, ite_self, implies_true]

@[simp] theorem State.markChannel_esc (s : State) (n origin cause : Nat) :
    (State.markChannel s n origin cause).ecat.esc = s.ecat.esc := by
  simp only [State.markChannel, State.setChan_esc, State.putFence_esc, apply_ite State.ecat, apply_ite EtherCat.esc, ite_self, implies_true]

@[simp] theorem State.badReads_esc (s : State) (n k : Nat) :
    (State.badReads s n k).ecat.esc = s.ecat.esc := by
  simp only [State.badReads, State.setChan_esc, State.markChannel_esc, apply_ite State.ecat, apply_ite EtherCat.esc, ite_self, implies_true]

/-! ### Contexts -/

@[simp] theorem State.setCtx_esc (s : State) (c : Nat) (f : Ctx → Ctx) :
    (State.setCtx s c f).ecat.esc = s.ecat.esc := by
  rfl

@[simp] theorem State.setQueue_esc (s : State) (c : Nat) (f : Queue → Queue) :
    (State.setQueue s c f).ecat.esc = s.ecat.esc := by
  simp only [State.setQueue, State.setCtx_esc, apply_ite State.ecat, apply_ite EtherCat.esc, ite_self, implies_true]

@[simp] theorem State.setJob_esc (s : State) (c : Nat) (f : Job → Job) :
    (State.setJob s c f).ecat.esc = s.ecat.esc := by
  simp only [State.setJob, State.setCtx_esc, apply_ite State.ecat, apply_ite EtherCat.esc, ite_self, implies_true]

@[simp] theorem State.setFlight_esc (s : State) (c i : Nat) (f : InFlight → InFlight) :
    (State.setFlight s c i f).ecat.esc = s.ecat.esc := by
  rfl

@[simp] theorem State.readRuns_esc (s : State) (l : List (Nat × Nat)) :
    (State.readRuns s l).ecat.esc = s.ecat.esc := by
  simp only [State.readRuns, State.bump_esc, State.bumps_esc, State.drew_esc, apply_ite State.ecat, apply_ite EtherCat.esc, ite_self, implies_true]

@[simp] theorem State.setSession_esc (s : State) (id : Nat) (f : Session → Session) :
    (State.setSession s id f).ecat.esc = s.ecat.esc := by
  rfl

@[simp] theorem State.putDgram_esc (s : State) (d : OutDgram) :
    (State.putDgram s d).ecat.esc = s.ecat.esc := by
  simp only [State.putDgram, apply_ite State.ecat, apply_ite EtherCat.esc, ite_self, implies_true]

@[simp] theorem State.emit_esc (s : State) (x : Session) (m : SentMsg) :
    (State.emit s x m).ecat.esc = s.ecat.esc := by
  simp only [State.emit, State.setSession_esc, State.putDgram_esc, apply_ite State.ecat, apply_ite EtherCat.esc, ite_self, implies_true]

@[simp] theorem State.sendMsg_esc (s : State) (id type status post : Nat) (body : Bytes) :
    (State.sendMsg s id type status post body).ecat.esc = s.ecat.esc := by
  unfold State.sendMsg
  (repeat' (first | with_reducible rfl | split)) <;> simp only [State.bump_esc, State.post_esc, State.setSession_esc, State.emit_esc, apply_ite State.ecat, apply_ite EtherCat.esc, ite_self, implies_true]

@[simp] theorem State.sendLoose_esc (s : State) (id type status : Nat) (body : Bytes) :
    (State.sendLoose s id type status body).ecat.esc = s.ecat.esc := by
  unfold State.sendLoose
  (repeat' (first | with_reducible rfl | split)) <;> simp only [State.bump_esc, State.emit_esc, apply_ite State.ecat, apply_ite EtherCat.esc, ite_self, implies_true]

@[simp] theorem State.endClosing_esc (s : State) (id : Nat) :
    (State.endClosing s id).ecat.esc = s.ecat.esc := by
  unfold State.endClosing
  (repeat' (first | with_reducible rfl | split)) <;> simp only [apply_ite State.ecat, apply_ite EtherCat.esc, ite_self, implies_true]

@[simp] theorem State.reply_esc (s : State) (id seq status post value : Nat) :
    (State.reply s id seq status post value).ecat.esc = s.ecat.esc := by
  simp only [State.reply, State.post_esc, State.sendMsg_esc, State.endClosing_esc, apply_ite State.ecat, apply_ite EtherCat.esc, ite_self, implies_true]

@[simp] theorem State.progress_esc (s : State) (c : Nat) :
    (State.progress s c).ecat.esc = s.ecat.esc := by
  unfold State.progress
  (repeat' (first | with_reducible rfl | split)) <;> simp only [State.sendMsg_esc, apply_ite State.ecat, apply_ite EtherCat.esc, ite_self, implies_true]

@[simp] theorem State.enter_esc (s : State) (c : Nat) (st : CtxState) :
    (State.enter s c st).ecat.esc = s.ecat.esc := by
  unfold State.enter
  (repeat' (first | with_reducible rfl | split)) <;> simp only [State.post_esc, State.setCtx_esc, State.progress_esc, apply_ite State.ecat, apply_ite EtherCat.esc, ite_self, implies_true]

@[simp] theorem State.dropSlot_esc (s : State) (x : Ctx) :
    (State.dropSlot s x).ecat.esc = s.ecat.esc := by
  simp only [State.dropSlot, apply_ite State.ecat, apply_ite EtherCat.esc, ite_self, implies_true]

@[simp] theorem State.goLive_esc (s : State) (c : Nat) :
    (State.goLive s c).ecat.esc = s.ecat.esc := by
  simp only [State.goLive, State.setQueue_esc, State.enter_esc, apply_ite State.ecat, apply_ite EtherCat.esc, ite_self, implies_true]

@[simp] theorem State.dropSave_esc (s : State) (c : Nat) :
    (State.dropSave s c).ecat.esc = s.ecat.esc := by
  unfold State.dropSave
  (repeat' (first | with_reducible rfl | split)) <;> simp only [State.setCtx_esc, apply_ite State.ecat, apply_ite EtherCat.esc, ite_self, implies_true]

@[simp] theorem State.suspendStart_esc (s : State) (c : Nat) (held : Bool) :
    (State.suspendStart s c held).ecat.esc = s.ecat.esc := by
  unfold State.suspendStart
  (repeat' (first | with_reducible rfl | split)) <;> simp only [State.setCtx_esc, apply_ite State.ecat, apply_ite EtherCat.esc, ite_self, implies_true]

@[simp] theorem State.runTriggersOf_esc (s : State) (v0 : List (Nat × Nat)) :
    (State.runTriggersOf s v0).ecat.esc = s.ecat.esc := by
  induction v0 generalizing s  with
  | nil =>
    first
    | rfl
    | (simp only [State.runTriggersOf, State.suspendStart_esc, apply_ite State.ecat, apply_ite EtherCat.esc, ite_self, implies_true]; done)
  | cons b l ih =>
    first
    | (simp only [State.runTriggersOf, State.suspendStart_esc, apply_ite State.ecat, apply_ite EtherCat.esc, ite_self, implies_true, ih]; done)
    | (unfold State.runTriggersOf; (repeat' (first | with_reducible rfl | split)) <;> (simp only [State.suspendStart_esc, apply_ite State.ecat, apply_ite EtherCat.esc, ite_self, implies_true, ih]; done))
    | (unfold State.runTriggersOf; (repeat' (first | with_reducible rfl | split)) <;> (try simp only [State.suspendStart_esc, apply_ite State.ecat, apply_ite EtherCat.esc, ite_self, implies_true, ih]) <;> (repeat' (first | with_reducible rfl | split)) <;> (simp only [State.suspendStart_esc, apply_ite State.ecat, apply_ite EtherCat.esc, ite_self, implies_true, ih]; done))

@[simp] theorem State.runTriggers_esc (s : State) :
    (State.runTriggers s).ecat.esc = s.ecat.esc := by
  simp only [State.runTriggers, State.runTriggersOf_esc, apply_ite State.ecat, apply_ite EtherCat.esc, ite_self, implies_true]

@[simp] theorem State.endCopies_esc (s : State) (c : Nat) :
    (State.endCopies s c).ecat.esc = s.ecat.esc := by
  simp only [State.endCopies, State.writeBack_esc, foldl_esc, apply_ite State.ecat, apply_ite EtherCat.esc, ite_self, implies_true]

@[simp] theorem State.dropWork_esc (s : State) (c : Nat) :
    (State.dropWork s c).ecat.esc = s.ecat.esc := by
  simp only [State.dropWork, apply_ite State.ecat, apply_ite EtherCat.esc, ite_self, implies_true]

@[simp] theorem State.freeCtx_esc (s : State) (c : Nat) :
    (State.freeCtx s c).ecat.esc = s.ecat.esc := by
  simp only [State.freeCtx, State.dropSave_esc, State.runTriggers_esc, State.dropWork_esc, apply_ite State.ecat, apply_ite EtherCat.esc, ite_self, implies_true]

@[simp] theorem State.failDelivery_esc (s : State) (r : Result) :
    (State.failDelivery s r).ecat.esc = s.ecat.esc := by
  simp only [State.failDelivery, State.bump_esc, State.refuse_esc, State.progress_esc, State.freeCtx_esc, apply_ite State.ecat, apply_ite EtherCat.esc, ite_self, implies_true]

@[simp] theorem State.sendResults_esc (s : State) (sess job post : Nat) (v0 : Nat) (v1 : List Bytes) :
    (State.sendResults s sess job post v0 v1).ecat.esc = s.ecat.esc := by
  induction v1 generalizing s sess job post v0 with
  | nil =>
    first
    | rfl
    | (simp only [State.sendResults, State.post_esc, State.sendMsg_esc, apply_ite State.ecat, apply_ite EtherCat.esc, ite_self, implies_true]; done)
  | cons b l ih =>
    first
    | (simp only [State.sendResults, State.post_esc, State.sendMsg_esc, apply_ite State.ecat, apply_ite EtherCat.esc, ite_self, implies_true, ih]; done)
    | (unfold State.sendResults; (repeat' (first | with_reducible rfl | split)) <;> (simp only [State.post_esc, State.sendMsg_esc, apply_ite State.ecat, apply_ite EtherCat.esc, ite_self, implies_true, ih]; done))
    | (unfold State.sendResults; (repeat' (first | with_reducible rfl | split)) <;> (try simp only [State.post_esc, State.sendMsg_esc, apply_ite State.ecat, apply_ite EtherCat.esc, ite_self, implies_true, ih]) <;> (repeat' (first | with_reducible rfl | split)) <;> (simp only [State.post_esc, State.sendMsg_esc, apply_ite State.ecat, apply_ite EtherCat.esc, ite_self, implies_true, ih]; done))

@[simp] theorem State.sendResult_esc (s : State) (r : Result) (stream : Bytes) :
    (State.sendResult s r stream).ecat.esc = s.ecat.esc := by
  unfold State.sendResult
  (repeat' (first | with_reducible rfl | split)) <;> simp only [State.post_esc, State.sendMsg_esc, State.sendResults_esc, apply_ite State.ecat, apply_ite EtherCat.esc, ite_self, implies_true]

@[simp] theorem State.keepRead_esc (s : State) (e : Env) (id : Nat) (q : Nat × Nat) :
    (State.keepRead s e id q).ecat.esc = s.ecat.esc := by
  rfl

@[simp] theorem State.deliver_esc (s : State) (r : Result) :
    (State.deliver s r).ecat.esc = s.ecat.esc := by
  unfold State.deliver
  (repeat' (first | with_reducible rfl | split)) <;> simp only [State.request_esc, State.readRuns_esc, State.failDelivery_esc, State.sendResult_esc, State.keepRead_esc, foldl_esc, apply_ite State.ecat, apply_ite EtherCat.esc, ite_self, implies_true]

@[simp] theorem State.holdResult_esc (s : State) (node ctx client job sess ref status : Nat) :
    (State.holdResult s node ctx client job sess ref status).ecat.esc = s.ecat.esc := by
  simp only [State.holdResult, State.deliver_esc, apply_ite State.ecat, apply_ite EtherCat.esc, ite_self, implies_true]

@[simp] theorem State.endJob_esc (s : State) (c status : Nat) :
    (State.endJob s c status).ecat.esc = s.ecat.esc := by
  unfold State.endJob
  (repeat' (first | with_reducible rfl | split)) <;> simp only [State.bump_esc, State.request_esc, State.setJob_esc, State.progress_esc, State.enter_esc, State.dropSlot_esc, State.endCopies_esc, State.freeCtx_esc, State.holdResult_esc, apply_ite State.ecat, apply_ite EtherCat.esc, ite_self, implies_true]

@[simp] theorem State.finishJob_esc (s : State) (c : Nat) :
    (State.finishJob s c).ecat.esc = s.ecat.esc := by
  unfold State.finishJob
  (repeat' (first | with_reducible rfl | split)) <;> simp only [State.endJob_esc, apply_ite State.ecat, apply_ite EtherCat.esc, ite_self, implies_true]

/-! ### Stream -/

@[simp] theorem State.bellIgnored_esc (s : State) :
    (State.bellIgnored s).ecat.esc = s.ecat.esc := by
  simp only [State.bellIgnored, State.bump_esc, apply_ite State.ecat, apply_ite EtherCat.esc, ite_self, implies_true]

@[simp] theorem State.bellFetch_esc (s : State) (c : Nat) :
    (State.bellFetch s c).ecat.esc = s.ecat.esc := by
  unfold State.bellFetch
  (repeat' (first | with_reducible rfl | split)) <;> simp only [State.bump_esc, State.drew_esc, apply_ite State.ecat, apply_ite EtherCat.esc, ite_self, implies_true]

@[simp] theorem State.bellTail_esc (s : State) (c value : Nat) :
    (State.bellTail s c value).ecat.esc = s.ecat.esc := by
  unfold State.bellTail
  (repeat' (first | with_reducible rfl | split)) <;> simp only [State.setQueue_esc, State.bellIgnored_esc, apply_ite State.ecat, apply_ite EtherCat.esc, ite_self, implies_true]

@[simp] theorem State.bellResume_esc (s : State) (c value : Nat) :
    (State.bellResume s c value).ecat.esc = s.ecat.esc := by
  unfold State.bellResume
  (repeat' (first | with_reducible rfl | split)) <;> simp only [State.setCtx_esc, apply_ite State.ecat, apply_ite EtherCat.esc, ite_self, implies_true]

@[simp] theorem State.postAll_esc (s : State) :
    (State.postAll s).ecat.esc = s.ecat.esc := by
  simp only [State.postAll, apply_ite State.ecat, apply_ite EtherCat.esc, ite_self, implies_true]

@[simp] theorem State.cellTake_esc (s : State) (cell : Nat) (v0 : Nat) :
    (State.cellTake s cell v0).ecat.esc = s.ecat.esc := by
  induction v0 generalizing s cell  with
  | zero =>
    first
    | rfl
    | (simp only [State.cellTake, State.bump_esc, State.setCell_esc, apply_ite State.ecat, apply_ite EtherCat.esc, ite_self, implies_true]; done)
  | succ n ih =>
    first
    | (simp only [State.cellTake, State.bump_esc, State.setCell_esc, apply_ite State.ecat, apply_ite EtherCat.esc, ite_self, implies_true, ih]; done)
    | (unfold State.cellTake; (repeat' (first | with_reducible rfl | split)) <;> (simp only [State.bump_esc, State.setCell_esc, apply_ite State.ecat, apply_ite EtherCat.esc, ite_self, implies_true, ih]; done))
    | (unfold State.cellTake; (repeat' (first | with_reducible rfl | split)) <;> (try simp only [State.bump_esc, State.setCell_esc, apply_ite State.ecat, apply_ite EtherCat.esc, ite_self, implies_true, ih]) <;> (repeat' (first | with_reducible rfl | split)) <;> (simp only [State.bump_esc, State.setCell_esc, apply_ite State.ecat, apply_ite EtherCat.esc, ite_self, implies_true, ih]; done))

@[simp] theorem State.serveTasks_esc (s : State) :
    (State.serveTasks s).ecat.esc = s.ecat.esc := by
  simp only [State.serveTasks, State.postAll_esc, State.cellTake_esc, foldl_esc, apply_ite State.ecat, apply_ite EtherCat.esc, ite_self, implies_true]

@[simp] theorem State.setGrid_esc (s : State) (c idx : Nat) (l : List (Nat × Nat × Nat × Nat)) :
    (State.setGrid s c idx l).ecat.esc = s.ecat.esc := by
  rfl

@[simp] theorem State.deal_esc (s : State) (c idx prio : Nat) (l : List (Nat × Nat × Nat × Nat)) (done : Nat → Nat → Option Progress) :
    (State.deal s c idx prio l done).ecat.esc = s.ecat.esc := by
  simp only [State.deal, State.bump_esc, State.serveTasks_esc, apply_ite State.ecat, apply_ite EtherCat.esc, ite_self, implies_true]

@[simp] theorem State.retire_esc (s : State) (c : Nat) (v0 : Nat) :
    (State.retire s c v0).ecat.esc = s.ecat.esc := by
  induction v0 generalizing s c  with
  | zero =>
    first
    | rfl
    | (simp only [State.retire, State.setQueue_esc, apply_ite State.ecat, apply_ite EtherCat.esc, ite_self, implies_true]; done)
  | succ n ih =>
    first
    | (simp only [State.retire, State.setQueue_esc, apply_ite State.ecat, apply_ite EtherCat.esc, ite_self, implies_true, ih]; done)
    | (unfold State.retire; (repeat' (first | with_reducible rfl | split)) <;> (simp only [State.setQueue_esc, apply_ite State.ecat, apply_ite EtherCat.esc, ite_self, implies_true, ih]; done))
    | (unfold State.retire; (repeat' (first | with_reducible rfl | split)) <;> (try simp only [State.setQueue_esc, apply_ite State.ecat, apply_ite EtherCat.esc, ite_self, implies_true, ih]) <;> (repeat' (first | with_reducible rfl | split)) <;> (simp only [State.setQueue_esc, apply_ite State.ecat, apply_ite EtherCat.esc, ite_self, implies_true, ih]; done))

@[simp] theorem State.haltQueue_esc (s : State) (c : Nat) (record : Bytes) :
    (State.haltQueue s c record).ecat.esc = s.ecat.esc := by
  unfold State.haltQueue
  (repeat' (first | with_reducible rfl | split)) <;> simp only [State.setCtx_esc, State.progress_esc, apply_ite State.ecat, apply_ite EtherCat.esc, ite_self, implies_true]

@[simp] theorem State.leaveStream_esc (s : State) (f : InFlight) :
    (State.leaveStream s f).ecat.esc = s.ecat.esc := by
  simp only [State.leaveStream, apply_ite State.ecat, apply_ite EtherCat.esc, ite_self, implies_true]

@[simp] theorem State.countWork_esc (s : State) (f : InFlight) :
    (State.countWork s f).ecat.esc = s.ecat.esc := by
  simp only [State.countWork, State.bumps_esc, State.drew_esc, apply_ite State.ecat, apply_ite EtherCat.esc, ite_self, implies_true]

@[simp] theorem State.unspoil_esc (s t : State) (f : InFlight) : (State.unspoil s t f).ecat.esc = t.ecat.esc := by
  unfold State.unspoil
  split <;> rfl

@[simp] theorem State.putResult_esc (s : State) (f : InFlight) (w : Nat × Bytes) :
    (State.putResult s f w).ecat.esc = s.ecat.esc := by
  simp only [State.putResult, State.writeGlobal_esc, State.unspoil_esc, apply_ite State.ecat, apply_ite EtherCat.esc, ite_self, implies_true]

@[simp] theorem State.settle_esc (s : State) (x : Ctx) (f : InFlight) :
    (State.settle s x f).ecat.esc = s.ecat.esc := by
  simp only [State.settle, State.bump_esc, State.writeBytes_esc, State.log_esc, State.setJob_esc, State.retire_esc, State.leaveStream_esc, State.countWork_esc, State.putResult_esc, foldl_esc, apply_ite State.ecat, apply_ite EtherCat.esc, ite_self, implies_true]

@[simp] theorem State.completeNow_esc (s : State) (x : Ctx) (f : InFlight) :
    (State.completeNow s x f).ecat.esc = s.ecat.esc := by
  simp only [State.completeNow, State.finishJob_esc, State.serveTasks_esc, State.haltQueue_esc, State.settle_esc, apply_ite State.ecat, apply_ite EtherCat.esc, ite_self, implies_true]

@[simp] theorem State.complete_esc (s : State) (c idx : Nat) :
    (State.complete s c idx).ecat.esc = s.ecat.esc := by
  unfold State.complete
  (repeat' (first | with_reducible rfl | split)) <;> simp only [State.completeNow_esc, apply_ite State.ecat, apply_ite EtherCat.esc, ite_self, implies_true]

@[simp] theorem State.addFlight_esc (s : State) (f : InFlight) :
    (State.addFlight s f).ecat.esc = s.ecat.esc := by
  rfl

@[simp] theorem State.reject_esc (s : State) (f : InFlight) (code : Nat) :
    (State.reject s f code).ecat.esc = s.ecat.esc := by
  simp only [State.reject, State.addFlight_esc, apply_ite State.ecat, apply_ite EtherCat.esc, ite_self, implies_true]

@[simp] theorem State.heldWriteBack_esc (s : State) (e : Env) :
    (State.heldWriteBack s e).ecat.esc = s.ecat.esc := by
  simp only [State.heldWriteBack, State.writeBack_esc, foldl_esc, apply_ite State.ecat, apply_ite EtherCat.esc, ite_self, implies_true]

@[simp] theorem State.sawPoison_esc (s : State) (us : List Nat) :
    (State.sawPoison s us).ecat.esc = s.ecat.esc := by
  simp only [State.sawPoison, State.bump_esc, State.raise_esc, State.badReads_esc, foldl_esc, apply_ite State.ecat, apply_ite EtherCat.esc, ite_self, implies_true]

@[simp] theorem State.scramble_esc (s : State) (f : InFlight) :
    (State.scramble s f).ecat.esc = s.ecat.esc := by
  simp only [State.scramble, State.drew_esc, State.writeBytes_esc, foldl_esc, apply_ite State.ecat, apply_ite EtherCat.esc, ite_self, implies_true]

@[simp] theorem State.holdSheets_esc (s : State) (c : Nat) (l : Option (List SheetSet)) :
    (State.holdSheets s c l).ecat.esc = s.ecat.esc := by
  unfold State.holdSheets
  (repeat' (first | with_reducible rfl | split)) <;> simp only [apply_ite State.ecat, apply_ite EtherCat.esc, ite_self, implies_true]

@[simp] theorem State.finishRun_esc (s : State) (o : Op) (e : Env) (f : InFlight) :
    (State.finishRun s o e f).ecat.esc = s.ecat.esc := by
  simp only [State.finishRun, State.bump_esc, State.bumps_esc, State.drew_esc, State.writeBytes_esc, State.setFlight_esc, State.readRuns_esc, State.setGrid_esc, State.deal_esc, State.unspoil_esc, State.sawPoison_esc, State.scramble_esc, State.holdSheets_esc, foldl_esc, apply_ite State.ecat, apply_ite EtherCat.esc, ite_self, implies_true]

@[simp] theorem State.dropColl_esc (s : State) (c idx : Nat) :
    (State.dropColl s c idx).ecat.esc = s.ecat.esc := by
  rfl

@[simp] theorem State.failInstr_esc (s : State) (c idx code : Nat) :
    (State.failInstr s c idx code).ecat.esc = s.ecat.esc := by
  unfold State.failInstr
  (repeat' (first | with_reducible rfl | split)) <;> simp only [State.dropReqs_esc, State.setFlight_esc, State.scramble_esc, State.dropColl_esc, apply_ite State.ecat, apply_ite EtherCat.esc, ite_self, implies_true]

@[simp] theorem State.countPath_esc (s : State) (deadline : Bool) (path : Nat) :
    (State.countPath s deadline path).ecat.esc = s.ecat.esc := by
  unfold State.countPath
  (repeat' (first | with_reducible rfl | split)) <;> simp only [State.bump_esc, apply_ite State.ecat, apply_ite EtherCat.esc, ite_self, implies_true]

@[simp] theorem State.startPaths_esc (s : State) (e : Env) (f : InFlight) (lost : List Nat) :
    (State.startPaths s e f lost).ecat.esc = s.ecat.esc := by
  unfold State.startPaths
  (repeat' (first | with_reducible rfl | split)) <;> simp only [State.post_esc, State.countPath_esc, foldl_esc, apply_ite State.ecat, apply_ite EtherCat.esc, ite_self, implies_true]

@[simp] theorem State.sendHistory_esc (s : State) (e : Env) (f : InFlight) (blocks : List Nat) :
    (State.sendHistory s e f blocks).ecat.esc = s.ecat.esc := by
  unfold State.sendHistory
  (repeat' (first | with_reducible rfl | split)) <;> simp only [State.request_esc, foldl_esc, apply_ite State.ecat, apply_ite EtherCat.esc, ite_self, implies_true]

@[simp] theorem State.bring_esc (s : State) (o : Op) (e : Env) (f : InFlight) (go : State → InFlight → State)
    (h : ∀ s f, (go s f).ecat.esc = s.ecat.esc) :
    (s.bring o e f go).ecat.esc = s.ecat.esc := by
  unfold State.bring
  (repeat' split) <;>
    (try with_reducible rfl) <;>
    (try dsimp only) <;>
    (repeat' split) <;>
    simp only [h, State.failInstr_esc, foldl_esc, State.request_esc, implies_true]

@[simp] theorem State.launchTo_esc (s : State) (o : Op) (e : Env) (f : InFlight) (go : State → InFlight → State)
    (h : ∀ s f, (go s f).ecat.esc = s.ecat.esc) :
    (s.launchTo o e f go).ecat.esc = s.ecat.esc := by
  unfold State.launchTo
  dsimp only
  (repeat' split) <;>
    (try simp only [State.bring_esc _ _ _ _ _ h]) <;>
    simp only [h, State.failInstr_esc, State.addFlight_esc, State.sendHistory_esc, State.startPaths_esc, foldl_esc, State.request_esc, implies_true]

@[simp] theorem State.launch_esc (s : State) (o : Op) (e : Env) (f : InFlight) :
    (State.launch s o e f).ecat.esc = s.ecat.esc := by
  simp only [State.launch, State.finishRun_esc, State.launchTo_esc, apply_ite State.ecat, apply_ite EtherCat.esc, ite_self, implies_true]

@[simp] theorem State.stall_esc (s : State) (c idx : Nat) :
    (State.stall s c idx).ecat.esc = s.ecat.esc := by
  simp only [State.stall, State.bump_esc, apply_ite State.ecat, apply_ite EtherCat.esc, ite_self, implies_true]

@[simp] theorem State.slotRead_esc (s : State) (a : Nat) (o : Op) (e : Env) (all : Bool) :
    (State.slotRead s a o e all).ecat.esc = s.ecat.esc := by
  simp only [State.slotRead, State.readRuns_esc, apply_ite State.ecat, apply_ite EtherCat.esc, ite_self, implies_true]

@[simp] theorem State.startMacro_esc (s : State) (m : Macro) (c idx : Nat)
    (h : ∀ go, m.start = some go → ∀ s e f, (go s e f).ecat.esc = s.ecat.esc) :
    (s.startMacro m c idx).ecat.esc = s.ecat.esc := by
  unfold State.startMacro
  split
  · rfl
  · cases hm : m.start with
    | none => simp only [apply_ite State.ecat, apply_ite EtherCat.esc, ite_self, State.reject_esc, State.sawPoison_esc, State.heldWriteBack_esc,
        State.stall_esc, State.slotRead_esc, State.bump_esc, State.launch_esc]
    | some go => simp only [apply_ite State.ecat, apply_ite EtherCat.esc, ite_self, State.reject_esc, State.sawPoison_esc, State.heldWriteBack_esc,
        State.stall_esc, State.slotRead_esc, State.bump_esc, h go hm]

@[simp] theorem startWait_esc (s : State) (e : Env) (f : InFlight) :
    (startWait s e f).ecat.esc = s.ecat.esc := by
  simp only [startWait, State.drew_esc, State.addFlight_esc, State.sawPoison_esc, apply_ite State.ecat, apply_ite EtherCat.esc, ite_self, implies_true]

@[simp] theorem State.takeFailed_esc (s : State) (c : Nat) :
    (State.takeFailed s c).2.ecat.esc = s.ecat.esc := by
  rfl

@[simp] theorem State.semApply_esc (s : State) (a op operand : Nat) :
    (State.semApply s a op operand).ecat.esc = s.ecat.esc := by
  simp only [State.semApply, State.writeBytes_esc, apply_ite State.ecat, apply_ite EtherCat.esc, ite_self, implies_true]

@[simp] theorem State.signalCopy_esc (s : State) (e : Env) (f : InFlight) :
    (State.signalCopy s e f).ecat.esc = s.ecat.esc := by
  simp only [State.signalCopy, State.copyWrite_esc, State.addFlight_esc, apply_ite State.ecat, apply_ite EtherCat.esc, ite_self, implies_true]

@[simp] theorem startSignal_esc (s : State) (e : Env) (f : InFlight) :
    (startSignal s e f).ecat.esc = s.ecat.esc := by
  simp only [startSignal, State.request_esc, State.addFlight_esc, State.sawPoison_esc, State.scramble_esc, State.takeFailed_esc, State.semApply_esc, State.signalCopy_esc, apply_ite State.ecat, apply_ite EtherCat.esc, ite_self, implies_true]

@[simp] theorem startFence_esc (s : State) (e : Env) (f : InFlight) :
    (startFence s e f).ecat.esc = s.ecat.esc := by
  simp only [startFence, State.addFlight_esc, State.takeFailed_esc, apply_ite State.ecat, apply_ite EtherCat.esc, ite_self, implies_true]

@[simp] theorem startNop_esc (s : State) (_a0 : Env) (f : InFlight) :
    (startNop s _a0 f).ecat.esc = s.ecat.esc := by
  simp only [startNop, State.addFlight_esc, apply_ite State.ecat, apply_ite EtherCat.esc, ite_self, implies_true]

@[simp] theorem State.endWait_esc (s : State) (f : InFlight) (code : Nat) :
    (State.endWait s f code).ecat.esc = s.ecat.esc := by
  simp only [State.endWait, State.drew_esc, State.setFlight_esc, State.complete_esc, State.sawPoison_esc, apply_ite State.ecat, apply_ite EtherCat.esc, ite_self, implies_true]

/-! ### Ring -/

@[simp] theorem State.setColl_esc (s : State) (c idx : Nat) (f : Coll → Coll) :
    (State.setColl s c idx f).ecat.esc = s.ecat.esc := by
  rfl

@[simp] theorem State.failColl_esc (s : State) (c idx code : Nat) :
    (State.failColl s c idx code).ecat.esc = s.ecat.esc := by
  simp only [State.failColl, State.setFlight_esc, State.dropColl_esc, State.failInstr_esc, apply_ite State.ecat, apply_ite EtherCat.esc, ite_self, implies_true]

@[simp] theorem State.endColl_esc (s : State) (x : Coll) (e : Env) (f : InFlight) (writes : List (Nat × Bytes)) :
    (State.endColl s x e f writes).ecat.esc = s.ecat.esc := by
  simp only [State.endColl, State.bump_esc, State.post_esc, State.writeGlobal_esc, State.setFlight_esc, State.dropColl_esc, foldl_esc, apply_ite State.ecat, apply_ite EtherCat.esc, ite_self, implies_true]

@[simp] theorem State.narrowElems_esc (s : State) (x : Coll) (e : Env) (b : Bulk) (es : List Nat) :
    (State.narrowElems s x e b es).1.ecat.esc = s.ecat.esc := by
  simp only [State.narrowElems, State.bump_esc, State.setColl_esc, foldl_esc, apply_ite State.ecat, apply_ite EtherCat.esc, ite_self, implies_true]

@[simp] theorem State.sendBulk_esc (s : State) (f : InFlight) (x : Coll) (node kind stage : Nat) (neg : Bool) (number : Nat) (last : Bool) (data : Bytes) :
    (State.sendBulk s f x node kind stage neg number last data).ecat.esc = s.ecat.esc := by
  simp only [State.sendBulk, State.sendPacket_esc, apply_ite State.ecat, apply_ite EtherCat.esc, ite_self, implies_true]

@[simp] theorem State.pump_esc (s : State) (f : InFlight) (c idx : Nat) :
    (State.pump s f c idx).ecat.esc = s.ecat.esc := by
  unfold State.pump
  (repeat' (first | with_reducible rfl | split)) <;> simp only [State.bump_esc, State.setColl_esc, State.sendBulk_esc, foldl_esc, apply_ite State.ecat, apply_ite EtherCat.esc, ite_self, implies_true]

@[simp] theorem State.sendHop_esc (s : State) (c idx : Nat) (e : Env) (b : Bulk) (h : Hop) (neg : Bool) :
    (State.sendHop s c idx e b h neg).ecat.esc = s.ecat.esc := by
  unfold State.sendHop
  (repeat' (first | with_reducible rfl | split)) <;> simp only [State.setColl_esc, State.narrowElems_esc, apply_ite State.ecat, apply_ite EtherCat.esc, ite_self, implies_true]

@[simp] theorem State.narrowOwn_esc (s : State) (c idx : Nat) (e : Env) (b : Bulk) :
    (State.narrowOwn s c idx e b).ecat.esc = s.ecat.esc := by
  unfold State.narrowOwn
  (repeat' (first | with_reducible rfl | split)) <;> simp only [State.narrowElems_esc, apply_ite State.ecat, apply_ite EtherCat.esc, ite_self, implies_true]

@[simp] theorem State.ackChunk_esc (s : State) (f : InFlight) (x : Coll) (k : Chunk) :
    (State.ackChunk s f x k).ecat.esc = s.ecat.esc := by
  simp only [State.ackChunk, State.sendBulk_esc, apply_ite State.ecat, apply_ite EtherCat.esc, ite_self, implies_true]

@[simp] theorem State.openStage_esc (s : State) (c idx : Nat) (e : Env) (f : InFlight) (b : Bulk) (x : Coll) :
    (State.openStage s c idx e f b x).ecat.esc = s.ecat.esc := by
  unfold State.openStage
  (repeat' (first | with_reducible rfl | split)) <;> simp only [State.setColl_esc, State.pump_esc, State.sendHop_esc, State.narrowOwn_esc, State.ackChunk_esc, foldl_esc, apply_ite State.ecat, apply_ite EtherCat.esc, ite_self, implies_true]

@[simp] theorem State.runColl_esc (s : State) (c idx : Nat) (v0 : Nat) :
    (State.runColl s c idx v0).ecat.esc = s.ecat.esc := by
  induction v0 generalizing s c idx  with
  | zero =>
    first
    | rfl
    | (simp only [State.runColl, State.setColl_esc, State.endColl_esc, State.openStage_esc, apply_ite State.ecat, apply_ite EtherCat.esc, ite_self, implies_true]; done)
  | succ n ih =>
    first
    | (simp only [State.runColl, State.setColl_esc, State.endColl_esc, State.openStage_esc, apply_ite State.ecat, apply_ite EtherCat.esc, ite_self, implies_true, ih]; done)
    | (unfold State.runColl; (repeat' (first | with_reducible rfl | split)) <;> (simp only [State.setColl_esc, State.endColl_esc, State.openStage_esc, apply_ite State.ecat, apply_ite EtherCat.esc, ite_self, implies_true, ih]; done))
    | (unfold State.runColl; (repeat' (first | with_reducible rfl | split)) <;> (try simp only [State.setColl_esc, State.endColl_esc, State.openStage_esc, apply_ite State.ecat, apply_ite EtherCat.esc, ite_self, implies_true, ih]) <;> (repeat' (first | with_reducible rfl | split)) <;> (simp only [State.setColl_esc, State.endColl_esc, State.openStage_esc, apply_ite State.ecat, apply_ite EtherCat.esc, ite_self, implies_true, ih]; done))

@[simp] theorem State.beginColl_esc (s : State) (c idx : Nat) :
    (State.beginColl s c idx).ecat.esc = s.ecat.esc := by
  unfold State.beginColl
  (repeat' (first | with_reducible rfl | split)) <;> simp only [State.writeBytes_esc, State.setColl_esc, State.runColl_esc, foldl_esc, apply_ite State.ecat, apply_ite EtherCat.esc, ite_self, implies_true]

@[simp] theorem State.goColl_esc (s : State) (e : Env) (f : InFlight) :
    (State.goColl s e f).ecat.esc = s.ecat.esc := by
  simp only [State.goColl, State.setFlight_esc, State.readRuns_esc, State.sawPoison_esc, State.failInstr_esc, State.setColl_esc, State.beginColl_esc, apply_ite State.ecat, apply_ite EtherCat.esc, ite_self, implies_true]

@[simp] theorem State.knowMark_esc (s : State) (src part post : Nat) :
    (State.knowMark s src part post).ecat.esc = s.ecat.esc := by
  simp only [State.knowMark, State.post_esc, apply_ite State.ecat, apply_ite EtherCat.esc, ite_self, implies_true]

@[simp] theorem State.badChunk_esc (s : State) (f : InFlight) (x : Coll) (k : Chunk) (code : Nat) :
    (State.badChunk s f x k code).ecat.esc = s.ecat.esc := by
  simp only [State.badChunk, State.bump_esc, State.setColl_esc, State.failColl_esc, State.sendBulk_esc, apply_ite State.ecat, apply_ite EtherCat.esc, ite_self, implies_true]

@[simp] theorem State.gotChunk_esc (s : State) (x : Coll) (e : Env) (f : InFlight) (k : Chunk) (residue : Bool) :
    (State.gotChunk s x e f k residue).ecat.esc = s.ecat.esc := by
  unfold State.gotChunk
  simp only [State.setColl_esc, State.ackChunk_esc, State.runColl_esc, State.badChunk_esc, apply_ite State.ecat, apply_ite EtherCat.esc, ite_self, implies_true]
  (repeat' (first | with_reducible rfl | split)) <;> (try with_reducible rfl) <;> simp only [State.setColl_esc, State.ackChunk_esc, State.runColl_esc, State.badChunk_esc, apply_ite State.ecat, apply_ite EtherCat.esc, ite_self, implies_true]

@[simp] theorem State.gotCall_esc (s : State) (x : Coll) (k : Chunk) :
    (State.gotCall s x k).ecat.esc = s.ecat.esc := by
  simp only [State.gotCall, State.setColl_esc, State.failColl_esc, State.beginColl_esc, apply_ite State.ecat, apply_ite EtherCat.esc, ite_self, implies_true]

@[simp] theorem State.bulk_esc (s : State) (k : Chunk) (residue : Bool) :
    (State.bulk s k residue).ecat.esc = s.ecat.esc := by
  unfold State.bulk
  simp only [State.bump_esc, State.setColl_esc, State.failColl_esc, State.sendBulk_esc, State.pump_esc, State.runColl_esc, State.knowMark_esc, State.gotChunk_esc, State.gotCall_esc, foldl_esc, apply_ite State.ecat, apply_ite EtherCat.esc, ite_self, implies_true]
  (repeat' (first | with_reducible rfl | split)) <;> (try with_reducible rfl) <;> simp only [State.bump_esc, State.setColl_esc, State.failColl_esc, State.sendBulk_esc, State.pump_esc, State.runColl_esc, State.knowMark_esc, State.gotChunk_esc, State.gotCall_esc, foldl_esc, apply_ite State.ecat, apply_ite EtherCat.esc, ite_self, implies_true]

@[simp] theorem State.joinOrder_esc (s : State) (f : InFlight) (group sig : Nat) (post : Bool) :
    (State.joinOrder s f group sig post).ecat.esc = s.ecat.esc := by
  simp only [State.joinOrder, State.post_esc, apply_ite State.ecat, apply_ite EtherCat.esc, ite_self, implies_true]

@[simp] theorem State.joinColl_esc (s : State) (e : Env) (f : InFlight) :
    (State.joinColl s e f).ecat.esc = s.ecat.esc := by
  unfold State.joinColl
  simp only [State.sendBulk_esc, State.joinOrder_esc, foldl_esc, apply_ite State.ecat, apply_ite EtherCat.esc, ite_self, implies_true]
  (repeat' (first | with_reducible rfl | split)) <;> (try with_reducible rfl) <;> simp only [State.sendBulk_esc, State.joinOrder_esc, foldl_esc, apply_ite State.ecat, apply_ite EtherCat.esc, ite_self, implies_true]

@[simp] theorem State.hearCalls_esc (s : State) (group : Nat) :
    (State.hearCalls s group).ecat.esc = s.ecat.esc := by
  simp only [State.hearCalls, State.bulk_esc, foldl_esc, apply_ite State.ecat, apply_ite EtherCat.esc, ite_self, implies_true]

@[simp] theorem startColl_esc (s : State) (e : Env) (f : InFlight) :
    (startColl s e f).ecat.esc = s.ecat.esc := by
  simp only [startColl, State.bump_esc, State.addFlight_esc, State.reject_esc, State.failInstr_esc, State.launchTo_esc, State.goColl_esc, State.joinColl_esc, State.hearCalls_esc, apply_ite State.ecat, apply_ite EtherCat.esc, ite_self, implies_true]

@[simp] theorem State.sendCard_esc (s : State) (g : Group) (k : Card) (post q : Nat) :
    (State.sendCard s g k post q).ecat.esc = s.ecat.esc := by
  simp only [State.sendCard, State.post_esc, State.sendPacket_esc, apply_ite State.ecat, apply_ite EtherCat.esc, ite_self, implies_true]

@[simp] theorem State.sendCards_esc (s : State) (f : InFlight) (x : Coll) (g : Group) (a : Nat) (payload : Bytes) :
    (State.sendCards s f x g a payload).ecat.esc = s.ecat.esc := by
  simp only [State.sendCards, State.sendCard_esc, foldl_esc, apply_ite State.ecat, apply_ite EtherCat.esc, ite_self, implies_true]

@[simp] theorem State.runPost_esc (s : State) (c idx : Nat) (v0 : Nat) :
    (State.runPost s c idx v0).ecat.esc = s.ecat.esc := by
  induction v0 generalizing s c idx  with
  | zero =>
    first
    | rfl
    | (simp only [State.runPost, State.setColl_esc, State.failColl_esc, State.endColl_esc, State.sendCards_esc, apply_ite State.ecat, apply_ite EtherCat.esc, ite_self, implies_true]; done)
  | succ n ih =>
    first
    | (simp only [State.runPost, State.setColl_esc, State.failColl_esc, State.endColl_esc, State.sendCards_esc, apply_ite State.ecat, apply_ite EtherCat.esc, ite_self, implies_true, ih]; done)
    | (unfold State.runPost; (repeat' (first | with_reducible rfl | split)) <;> (simp only [State.setColl_esc, State.failColl_esc, State.endColl_esc, State.sendCards_esc, apply_ite State.ecat, apply_ite EtherCat.esc, ite_self, implies_true, ih]; done))
    | (unfold State.runPost; (repeat' (first | with_reducible rfl | split)) <;> (try simp only [State.setColl_esc, State.failColl_esc, State.endColl_esc, State.sendCards_esc, apply_ite State.ecat, apply_ite EtherCat.esc, ite_self, implies_true, ih]) <;> (repeat' (first | with_reducible rfl | split)) <;> (simp only [State.setColl_esc, State.failColl_esc, State.endColl_esc, State.sendCards_esc, apply_ite State.ecat, apply_ite EtherCat.esc, ite_self, implies_true, ih]; done))

@[simp] theorem State.goPost_esc (s : State) (e : Env) (f : InFlight) :
    (State.goPost s e f).ecat.esc = s.ecat.esc := by
  unfold State.goPost
  simp only [State.setFlight_esc, State.readRuns_esc, State.sawPoison_esc, State.failInstr_esc, State.setColl_esc, State.sendCards_esc, State.runPost_esc, apply_ite State.ecat, apply_ite EtherCat.esc, ite_self, implies_true]
  (repeat' (first | with_reducible rfl | split)) <;> (try with_reducible rfl) <;> simp only [State.setFlight_esc, State.readRuns_esc, State.sawPoison_esc, State.failInstr_esc, State.setColl_esc, State.sendCards_esc, State.runPost_esc, apply_ite State.ecat, apply_ite EtherCat.esc, ite_self, implies_true]

@[simp] theorem startPost_esc (s : State) (e : Env) (f : InFlight) :
    (startPost s e f).ecat.esc = s.ecat.esc := by
  simp only [startPost, State.addFlight_esc, State.reject_esc, State.failInstr_esc, State.launchTo_esc, State.joinOrder_esc, State.goPost_esc, apply_ite State.ecat, apply_ite EtherCat.esc, ite_self, implies_true]

/-! ### Intake -/

@[simp] theorem State.setIntk_esc (s : State) (c idx : Nat) (f : IntakeJob → IntakeJob) :
    (State.setIntk s c idx f).ecat.esc = s.ecat.esc := by
  rfl

@[simp] theorem State.dropIntk_esc (s : State) (c idx : Nat) :
    (State.dropIntk s c idx).ecat.esc = s.ecat.esc := by
  rfl

@[simp] theorem State.setIntkPipe_esc (s : State) (p : Nat) (f : Pipe → Pipe) :
    (State.setIntkPipe s p f).ecat.esc = s.ecat.esc := by
  rfl

@[simp] theorem startIntk_esc (s : State) (e : Env) (f : InFlight) :
    (startIntk s e f).ecat.esc = s.ecat.esc := by
  simp only [startIntk, State.readRuns_esc, State.addFlight_esc, State.failInstr_esc, apply_ite State.ecat, apply_ite EtherCat.esc, ite_self, implies_true]

@[simp] theorem State.intkEnd_esc (s : State) (c idx : Nat) :
    (State.intkEnd s c idx).ecat.esc = s.ecat.esc := by
  unfold State.intkEnd
  (repeat' (first | with_reducible rfl | split)) <;> simp only [State.writeGlobal_esc, State.setFlight_esc, State.dropIntk_esc, foldl_esc, apply_ite State.ecat, apply_ite EtherCat.esc, ite_self, implies_true]

@[simp] theorem State.countSlot_esc (s : State) (e : Env) (j : IntakeJob) (slot : Nat) (x : Sample) :
    (State.countSlot s e j slot x).ecat.esc = s.ecat.esc := by
  simp only [State.countSlot, State.bump_esc, apply_ite State.ecat, apply_ite EtherCat.esc, ite_self, implies_true]

@[simp] theorem State.slotDone_esc (s : State) (pipe c idx slot code : Nat) :
    (State.slotDone s pipe c idx slot code).ecat.esc = s.ecat.esc := by
  unfold State.slotDone
  (repeat' (first | with_reducible rfl | split)) <;> simp only [State.bump_esc, State.dropReqs_esc, State.writeGlobal_esc, State.readRuns_esc, State.sawPoison_esc, State.setIntk_esc, State.setIntkPipe_esc, State.intkEnd_esc, State.countSlot_esc, foldl_esc, apply_ite State.ecat, apply_ite EtherCat.esc, ite_self, implies_true]

@[simp] theorem State.dictLost_esc (s : State) (j : IntakeJob) :
    (State.dictLost s j).ecat.esc = s.ecat.esc := by
  simp only [State.dictLost, State.sawPoison_esc, State.failInstr_esc, State.dropIntk_esc, apply_ite State.ecat, apply_ite EtherCat.esc, ite_self, implies_true]

@[simp] theorem State.slotJudged_esc (s : State) (pipe : Nat) (j : IntakeJob) (slot code : Nat) :
    (State.slotJudged s pipe j slot code).ecat.esc = s.ecat.esc := by
  simp only [State.slotJudged, State.slotDone_esc, State.dictLost_esc, apply_ite State.ecat, apply_ite EtherCat.esc, ite_self, implies_true]

@[simp] theorem State.takeSample_esc (s : State) (pipe : Nat) :
    (State.takeSample s pipe).ecat.esc = s.ecat.esc := by
  unfold State.takeSample
  (repeat' (first | with_reducible rfl | split)) <;> simp only [State.bump_esc, State.request_esc, State.readRuns_esc, State.setIntk_esc, State.setIntkPipe_esc, State.slotDone_esc, State.slotJudged_esc, apply_ite State.ecat, apply_ite EtherCat.esc, ite_self, implies_true]

@[simp] theorem State.sampleLost_esc (s : State) (c idx slot : Nat) :
    (State.sampleLost s c idx slot).ecat.esc = s.ecat.esc := by
  unfold State.sampleLost
  (repeat' (first | with_reducible rfl | split)) <;> simp only [State.slotDone_esc, apply_ite State.ecat, apply_ite EtherCat.esc, ite_self, implies_true]

@[simp] theorem State.restartSample_esc (s : State) (pipe : Nat) :
    (State.restartSample s pipe).ecat.esc = s.ecat.esc := by
  unfold State.restartSample
  (repeat' (first | with_reducible rfl | split)) <;> simp only [State.bump_esc, State.dropReqs_esc, State.setIntk_esc, State.setIntkPipe_esc, apply_ite State.ecat, apply_ite EtherCat.esc, ite_self, implies_true]

@[simp] theorem State.intkStarved_esc (s : State) :
    (State.intkStarved s).ecat.esc = s.ecat.esc := by
  simp only [State.intkStarved, State.failInstr_esc, State.dropIntk_esc, foldl_esc, apply_ite State.ecat, apply_ite EtherCat.esc, ite_self, implies_true]

/-! ### Codec -/

@[simp] theorem State.setStream_esc (s : State) (i : Nat) (f : Codec → Codec) :
    (State.setStream s i f).ecat.esc = s.ecat.esc := by
  rfl

@[simp] theorem State.setCdc_esc (s : State) (c idx : Nat) (f : CodecJob → CodecJob) :
    (State.setCdc s c idx f).ecat.esc = s.ecat.esc := by
  rfl

@[simp] theorem State.dropCdc_esc (s : State) (c idx : Nat) :
    (State.dropCdc s c idx).ecat.esc = s.ecat.esc := by
  rfl

@[simp] theorem State.setCdcPipe_esc (s : State) (p : Nat) (f : Pipe → Pipe) :
    (State.setCdcPipe s p f).ecat.esc = s.ecat.esc := by
  rfl

@[simp] theorem State.idleCdc_esc (s : State) (c idx : Nat) :
    (State.idleCdc s c idx).ecat.esc = s.ecat.esc := by
  rfl

@[simp] theorem State.failCdc_esc (s : State) (j : CodecJob) (code : Nat) :
    (State.failCdc s j code).ecat.esc = s.ecat.esc := by
  simp only [State.failCdc, State.failInstr_esc, State.setStream_esc, State.dropCdc_esc, State.idleCdc_esc, apply_ite State.ecat, apply_ite EtherCat.esc, ite_self, implies_true]

@[simp] theorem State.endCdc_esc (s : State) (c idx : Nat) (closed : Bool) :
    (State.endCdc s c idx closed).ecat.esc = s.ecat.esc := by
  unfold State.endCdc
  (repeat' (first | with_reducible rfl | split)) <;> simp only [State.writeGlobal_esc, State.setFlight_esc, State.dropCdc_esc, State.idleCdc_esc, apply_ite State.ecat, apply_ite EtherCat.esc, ite_self, implies_true]

@[simp] theorem State.putCoded_esc (s : State) (e : Env) (j : CodecJob) (part : Nat) (l : List Bytes) :
    (State.putCoded s e j part l).ecat.esc = s.ecat.esc := by
  simp only [State.putCoded, State.bump_esc, State.writeGlobal_esc, State.setCdc_esc, foldl_esc, apply_ite State.ecat, apply_ite EtherCat.esc, ite_self, implies_true]

@[simp] theorem State.encodeNext_esc (s : State) (x : Codec) (j : CodecJob) (e : Env) (part : Nat) :
    (State.encodeNext s x j e part).ecat.esc = s.ecat.esc := by
  simp only [State.encodeNext, State.setStream_esc, State.setCdc_esc, State.endCdc_esc, State.putCoded_esc, apply_ite State.ecat, apply_ite EtherCat.esc, ite_self, implies_true]

@[simp] theorem State.outputFrame_esc (s : State) (x : Codec) (j : CodecJob) (e : Env) (part : Nat) (g : Frame) :
    (State.outputFrame s x j e part g).ecat.esc = s.ecat.esc := by
  simp only [State.outputFrame, State.bump_esc, State.writeGlobal_esc, State.setStream_esc, State.setCdc_esc, foldl_esc, apply_ite State.ecat, apply_ite EtherCat.esc, ite_self, implies_true]

@[simp] theorem State.decodeOn_esc (s : State) (c idx : Nat) (v0 : Nat) :
    (State.decodeOn s c idx v0).ecat.esc = s.ecat.esc := by
  induction v0 generalizing s c idx  with
  | zero =>
    first
    | rfl
    | (simp only [State.decodeOn, State.bump_esc, State.setStream_esc, State.setCdc_esc, State.failCdc_esc, State.endCdc_esc, State.outputFrame_esc, apply_ite State.ecat, apply_ite EtherCat.esc, ite_self, implies_true]; done)
  | succ n ih =>
    first
    | (simp only [State.decodeOn, State.bump_esc, State.setStream_esc, State.setCdc_esc, State.failCdc_esc, State.endCdc_esc, State.outputFrame_esc, apply_ite State.ecat, apply_ite EtherCat.esc, ite_self, implies_true, ih]; done)
    | (unfold State.decodeOn; (repeat' (first | with_reducible rfl | split)) <;> (simp only [State.bump_esc, State.setStream_esc, State.setCdc_esc, State.failCdc_esc, State.endCdc_esc, State.outputFrame_esc, apply_ite State.ecat, apply_ite EtherCat.esc, ite_self, implies_true, ih]; done))
    | (unfold State.decodeOn; (repeat' (first | with_reducible rfl | split)) <;> (try simp only [State.bump_esc, State.setStream_esc, State.setCdc_esc, State.failCdc_esc, State.endCdc_esc, State.outputFrame_esc, apply_ite State.ecat, apply_ite EtherCat.esc, ite_self, implies_true, ih]) <;> (repeat' (first | with_reducible rfl | split)) <;> (simp only [State.bump_esc, State.setStream_esc, State.setCdc_esc, State.failCdc_esc, State.endCdc_esc, State.outputFrame_esc, apply_ite State.ecat, apply_ite EtherCat.esc, ite_self, implies_true, ih]; done))

@[simp] theorem State.decodeNext_esc (s : State) (x : Codec) (j : CodecJob) (e : Env) (late : Bool) :
    (State.decodeNext s x j e late).ecat.esc = s.ecat.esc := by
  simp only [State.decodeNext, State.bump_esc, State.drew_esc, State.writeBytes_esc, State.setStream_esc, State.setCdc_esc, apply_ite State.ecat, apply_ite EtherCat.esc, ite_self, implies_true]

@[simp] theorem State.closeEncoder_esc (s : State) (x : Codec) (j : CodecJob) (e : Env) (part : Nat) :
    (State.closeEncoder s x j e part).ecat.esc = s.ecat.esc := by
  simp only [State.closeEncoder, State.bump_esc, State.writeGlobal_esc, State.setStream_esc, State.setCdc_esc, State.endCdc_esc, State.putCoded_esc, apply_ite State.ecat, apply_ite EtherCat.esc, ite_self, implies_true]

@[simp] theorem State.goCodec_esc (s : State) (e : Env) (f : InFlight) :
    (State.goCodec s e f).ecat.esc = s.ecat.esc := by
  unfold State.goCodec
  simp only [State.setFlight_esc, State.readRuns_esc, State.sawPoison_esc, State.setStream_esc, State.failCdc_esc, State.decodeOn_esc, State.closeEncoder_esc, apply_ite State.ecat, apply_ite EtherCat.esc, ite_self, implies_true]
  (repeat' (first | with_reducible rfl | split)) <;> (try with_reducible rfl) <;> simp only [State.setFlight_esc, State.readRuns_esc, State.sawPoison_esc, State.setStream_esc, State.failCdc_esc, State.decodeOn_esc, State.closeEncoder_esc, apply_ite State.ecat, apply_ite EtherCat.esc, ite_self, implies_true]

@[simp] theorem startOpen_esc (s : State) (e : Env) (f : InFlight) :
    (startOpen s e f).ecat.esc = s.ecat.esc := by
  simp only [startOpen, State.readRuns_esc, State.addFlight_esc, State.failInstr_esc, apply_ite State.ecat, apply_ite EtherCat.esc, ite_self, implies_true]

@[simp] theorem startCodec_esc (s : State) (e : Env) (f : InFlight) :
    (startCodec s e f).ecat.esc = s.ecat.esc := by
  simp only [startCodec, State.launchTo_esc, State.goCodec_esc, startOpen_esc, apply_ite State.ecat, apply_ite EtherCat.esc, ite_self, implies_true]

@[simp] theorem State.takeFrame_esc (s : State) (pipe : Nat) :
    (State.takeFrame s pipe).ecat.esc = s.ecat.esc := by
  unfold State.takeFrame
  (repeat' (first | with_reducible rfl | split)) <;> simp only [State.bump_esc, State.sawPoison_esc, State.setStream_esc, State.setCdcPipe_esc, State.failCdc_esc, apply_ite State.ecat, apply_ite EtherCat.esc, ite_self, implies_true]

@[simp] theorem State.encodeOn_esc (s : State) (c idx : Nat) :
    (State.encodeOn s c idx).ecat.esc = s.ecat.esc := by
  unfold State.encodeOn
  (repeat' (first | with_reducible rfl | split)) <;> simp only [State.endCdc_esc, apply_ite State.ecat, apply_ite EtherCat.esc, ite_self, implies_true]

@[simp] theorem State.frameDone_esc (s : State) (pipe : Nat) (late : Bool) :
    (State.frameDone s pipe late).ecat.esc = s.ecat.esc := by
  unfold State.frameDone
  (repeat' (first | with_reducible rfl | split)) <;> simp only [State.bump_esc, State.setCdcPipe_esc, State.encodeNext_esc, State.decodeOn_esc, State.decodeNext_esc, State.encodeOn_esc, apply_ite State.ecat, apply_ite EtherCat.esc, ite_self, implies_true]

@[simp] theorem State.restartFrame_esc (s : State) (pipe : Nat) :
    (State.restartFrame s pipe).ecat.esc = s.ecat.esc := by
  unfold State.restartFrame
  simp only [State.bump_esc, State.setStream_esc, State.setCdcPipe_esc, apply_ite State.ecat, apply_ite EtherCat.esc, ite_self, implies_true]
  (repeat' (first | with_reducible rfl | split)) <;> (try with_reducible rfl) <;> simp only [State.bump_esc, State.setStream_esc, State.setCdcPipe_esc, apply_ite State.ecat, apply_ite EtherCat.esc, ite_self, implies_true]

@[simp] theorem State.cdcStarved_esc (s : State) :
    (State.cdcStarved s).ecat.esc = s.ecat.esc := by
  simp only [State.cdcStarved, State.failCdc_esc, foldl_esc, apply_ite State.ecat, apply_ite EtherCat.esc, ite_self, implies_true]

/-! ### Instructions -/

@[simp] theorem State.goOn_esc (s : State) (o : Op) (e : Env) (f : InFlight) :
    (State.goOn s o e f).ecat.esc = s.ecat.esc := by
  simp only [State.goOn, State.finishRun_esc, State.goColl_esc, State.goPost_esc, State.goCodec_esc, apply_ite State.ecat, apply_ite EtherCat.esc, ite_self, implies_true]

@[simp] theorem State.askHistory_esc (s : State) (c idx : Nat) :
    (State.askHistory s c idx).ecat.esc = s.ecat.esc := by
  unfold State.askHistory
  (repeat' (first | with_reducible rfl | split)) <;> simp only [State.request_esc, foldl_esc, apply_ite State.ecat, apply_ite EtherCat.esc, ite_self, implies_true]

@[simp] theorem State.resumeRun_esc (s : State) (c idx : Nat) :
    (State.resumeRun s c idx).ecat.esc = s.ecat.esc := by
  unfold State.resumeRun
  (repeat' (first | with_reducible rfl | split)) <;> simp only [State.bring_esc, State.goOn_esc, apply_ite State.ecat, apply_ite EtherCat.esc, ite_self, implies_true]

@[simp] theorem State.decideBlock_esc (s : State) (f : InFlight) (block path : Nat) :
    (State.decideBlock s f block path).ecat.esc = s.ecat.esc := by
  simp only [State.decideBlock, State.post_esc, State.setFlight_esc, State.failInstr_esc, State.countPath_esc, State.resumeRun_esc, apply_ite State.ecat, apply_ite EtherCat.esc, ite_self, implies_true]

@[simp] theorem State.holdBlock_esc (s : State) (f : InFlight) (runs : List (Nat × Nat)) (data : Bytes) :
    (s.holdBlock f runs data).ecat.esc = s.ecat.esc := by
  induction runs generalizing s data with
  | nil => rfl
  | cons r l ih =>
    unfold State.holdBlock
    simp only [ih]

@[simp] theorem State.historyArrival_esc (s : State) (c idx block : Nat) (ok reply : Bool) (data : Bytes) :
    (State.historyArrival s c idx block ok reply data).ecat.esc = s.ecat.esc := by
  unfold State.historyArrival
  (repeat' (first | with_reducible rfl | split)) <;> simp only [State.bump_esc, State.dropReqs_esc, State.reply_esc, State.decideBlock_esc, State.holdBlock_esc, apply_ite State.ecat, apply_ite EtherCat.esc, ite_self, implies_true]

@[simp] theorem State.historyLate_esc (s : State) (c idx block : Nat) :
    (State.historyLate s c idx block).ecat.esc = s.ecat.esc := by
  unfold State.historyLate
  (repeat' (first | with_reducible rfl | split)) <;> simp only [State.decideBlock_esc, apply_ite State.ecat, apply_ite EtherCat.esc, ite_self, implies_true]

@[simp] theorem State.failDry_esc (s : State) :
    (State.failDry s).ecat.esc = s.ecat.esc := by
  simp only [State.failDry, State.failInstr_esc, foldl_esc, apply_ite State.ecat, apply_ite EtherCat.esc, ite_self, implies_true]

@[simp] theorem State.reseedCell_esc (s : State) (cell : Nat) :
    (State.reseedCell s cell).ecat.esc = s.ecat.esc := by
  simp only [State.reseedCell, State.bump_esc, State.setCell_esc, State.failDry_esc, apply_ite State.ecat, apply_ite EtherCat.esc, ite_self, implies_true]

/-! ### Memory -/

@[simp] theorem State.allocRoom_esc (s : State) (size : Nat) :
    (State.allocRoom s size).ecat.esc = s.ecat.esc := by
  simp only [State.allocRoom, State.makeRoom_esc, apply_ite State.ecat, apply_ite EtherCat.esc, ite_self, implies_true]

@[simp] theorem State.allocHere_esc (s : State) (p size client : Nat) :
    (State.allocHere s p size client).1.ecat.esc = s.ecat.esc := by
  unfold State.allocHere
  simp only [State.clearRun_esc, State.allocRoom_esc, apply_ite State.ecat, apply_ite EtherCat.esc, ite_self, implies_true]
  (repeat' (first | with_reducible rfl | split)) <;> (try with_reducible rfl) <;> simp only [State.clearRun_esc, State.allocRoom_esc, apply_ite State.ecat, apply_ite EtherCat.esc, ite_self, implies_true]

@[simp] theorem State.askPeer_esc (s : State) (sess seq : Nat) (record : Bytes) (answered : Bool) (k : Nat) (v0 : Nat) :
    (State.askPeer s sess seq record answered k v0).ecat.esc = s.ecat.esc := by
  induction v0 generalizing s sess seq record answered k  with
  | zero =>
    first
    | rfl
    | (simp only [State.askPeer, State.request_esc, State.reply_esc, apply_ite State.ecat, apply_ite EtherCat.esc, ite_self, implies_true]; done)
  | succ n ih =>
    first
    | (simp only [State.askPeer, State.request_esc, State.reply_esc, apply_ite State.ecat, apply_ite EtherCat.esc, ite_self, implies_true, ih]; done)
    | (unfold State.askPeer; (repeat' (first | with_reducible rfl | split)) <;> (simp only [State.request_esc, State.reply_esc, apply_ite State.ecat, apply_ite EtherCat.esc, ite_self, implies_true, ih]; done))
    | (unfold State.askPeer; (repeat' (first | with_reducible rfl | split)) <;> (try simp only [State.request_esc, State.reply_esc, apply_ite State.ecat, apply_ite EtherCat.esc, ite_self, implies_true, ih]) <;> (repeat' (first | with_reducible rfl | split)) <;> (simp only [State.request_esc, State.reply_esc, apply_ite State.ecat, apply_ite EtherCat.esc, ite_self, implies_true, ih]; done))

@[simp] theorem State.allocate_esc (s : State) (sess seq : Nat) (r : Bytes) :
    (State.allocate s sess seq r).ecat.esc = s.ecat.esc := by
  simp only [State.allocate, State.reply_esc, State.allocHere_esc, State.askPeer_esc, apply_ite State.ecat, apply_ite EtherCat.esc, ite_self, implies_true]

@[simp] theorem State.granted_esc (s : State) (q : Req) (base : Nat) :
    (State.granted s q base).ecat.esc = s.ecat.esc := by
  simp only [State.granted, State.reply_esc, apply_ite State.ecat, apply_ite EtherCat.esc, ite_self, implies_true]

@[simp] theorem State.dropObj_esc (s : State) (o : Obj) :
    (State.dropObj s o).ecat.esc = s.ecat.esc := by
  rfl

@[simp] theorem State.freeObj_esc (s : State) (sess seq g : Nat) :
    (State.freeObj s sess seq g).ecat.esc = s.ecat.esc := by
  unfold State.freeObj
  (repeat' (first | with_reducible rfl | split)) <;> simp only [State.request_esc, State.reply_esc, State.dropObj_esc, apply_ite State.ecat, apply_ite EtherCat.esc, ite_self, implies_true]

@[simp] theorem State.refuseRequest_esc (s : State) (part src code : Nat) :
    (State.refuseRequest s part src code).ecat.esc = s.ecat.esc := by
  simp only [State.refuseRequest, State.bump_esc, State.refuse_esc, apply_ite State.ecat, apply_ite EtherCat.esc, ite_self, implies_true]

@[simp] theorem State.startSession_esc (s : State) (n : Nat) (viaReset : Bool) :
    (State.startSession s n viaReset).ecat.esc = s.ecat.esc := by
  simp only [State.startSession, State.setChan_esc, State.retireWcb_esc, State.post_esc, foldl_esc, apply_ite State.ecat, apply_ite EtherCat.esc, ite_self, implies_true]

@[simp] theorem State.dueSession_esc (s : State) (n : Nat) (viaReset : Bool) :
    (State.dueSession s n viaReset).ecat.esc = s.ecat.esc := by
  simp only [State.dueSession, State.setChan_esc, State.startSession_esc, apply_ite State.ecat, apply_ite EtherCat.esc, ite_self, implies_true]

@[simp] theorem State.drainDetour_esc (s : State) (n : Nat) :
    (State.drainDetour s n).ecat.esc = s.ecat.esc := by
  simp only [State.drainDetour, State.setChan_esc, State.poisonUnits_esc, foldl_esc, apply_ite State.ecat, apply_ite EtherCat.esc, ite_self, implies_true]

@[simp] theorem State.closeSession_esc (s : State) (n : Nat) :
    (State.closeSession s n).ecat.esc = s.ecat.esc := by
  simp only [State.closeSession, State.setCount_esc, State.drew_esc, State.post_esc, State.drainDetour_esc, apply_ite State.ecat, apply_ite EtherCat.esc, ite_self, implies_true]

@[simp] theorem State.endSession_esc (s : State) (n : Nat) :
    (State.endSession s n).ecat.esc = s.ecat.esc := by
  unfold State.endSession
  simp only [State.startSession_esc, State.closeSession_esc, apply_ite State.ecat, apply_ite EtherCat.esc, ite_self, implies_true]
  (repeat' (first | with_reducible rfl | split)) <;> (try with_reducible rfl) <;> simp only [State.startSession_esc, State.closeSession_esc, apply_ite State.ecat, apply_ite EtherCat.esc, ite_self, implies_true]

@[simp] theorem State.trained_esc (s : State) (n : Nat) :
    (State.trained s n).ecat.esc = s.ecat.esc := by
  simp only [State.trained, State.bump_esc, State.drew_esc, State.setChan_esc, State.journal_esc, apply_ite State.ecat, apply_ite EtherCat.esc, ite_self, implies_true]

@[simp] theorem applyRetrain_esc (value : Nat) (s : State) :
    (applyRetrain value s).1.ecat.esc = s.ecat.esc := by
  unfold applyRetrain
  (repeat' (first | with_reducible rfl | split)) <;> simp only [State.dueSession_esc, apply_ite State.ecat, apply_ite EtherCat.esc, ite_self, implies_true]

@[simp] theorem State.wroteBack_esc (s : State) (q : Req) :
    (State.wroteBack s q).ecat.esc = s.ecat.esc := by
  simp only [State.wroteBack, State.bump_esc, apply_ite State.ecat, apply_ite EtherCat.esc, ite_self, implies_true]

@[simp] theorem State.acked_esc (s : State) (q : Req) :
    (State.acked s q).ecat.esc = s.ecat.esc := by
  unfold State.acked
  (repeat' (first | with_reducible rfl | split)) <;> simp only [State.dropReqs_esc, State.writeBack_esc, State.setFlight_esc, State.reply_esc, State.freeCtx_esc, State.wroteBack_esc, apply_ite State.ecat, apply_ite EtherCat.esc, ite_self, implies_true]

@[simp] theorem State.failReq_esc (s : State) (q : Req) (code : Nat) :
    (State.failReq s q code).ecat.esc = s.ecat.esc := by
  unfold State.failReq
  simp only [State.bump_esc, State.dropReqs_esc, State.chargeWrite_esc, State.lostBack_esc, State.lostFetch_esc, State.writeBack_esc, State.setFlight_esc, State.reply_esc, State.progress_esc, State.freeCtx_esc, State.failDelivery_esc, State.failInstr_esc, State.sampleLost_esc, State.historyArrival_esc, State.askPeer_esc, apply_ite State.ecat, apply_ite EtherCat.esc, ite_self, implies_true]
  (repeat' (first | with_reducible rfl | split)) <;> (try with_reducible rfl) <;> simp only [State.bump_esc, State.dropReqs_esc, State.chargeWrite_esc, State.lostBack_esc, State.lostFetch_esc, State.writeBack_esc, State.setFlight_esc, State.reply_esc, State.progress_esc, State.freeCtx_esc, State.failDelivery_esc, State.failInstr_esc, State.sampleLost_esc, State.historyArrival_esc, State.askPeer_esc, apply_ite State.ecat, apply_ite EtherCat.esc, ite_self, implies_true]

@[simp] theorem State.fillCopy_esc (s : State) (q : Req) (poisoned : List Nat) (data : Bytes) :
    (State.fillCopy s q poisoned data).ecat.esc = s.ecat.esc := by
  simp only [State.fillCopy, State.bump_esc, State.dropReqs_esc, State.writeBack_esc, foldl_esc, apply_ite State.ecat, apply_ite EtherCat.esc, ite_self, implies_true]

@[simp] theorem State.answered_esc (s : State) (q : Req) (poisoned : List Nat) (data : Bytes) :
    (State.answered s q poisoned data).ecat.esc = s.ecat.esc := by
  unfold State.answered
  simp only [State.dropReqs_esc, State.deliver_esc, State.resumeRun_esc, State.askPeer_esc, State.granted_esc, State.acked_esc, State.fillCopy_esc, apply_ite State.ecat, apply_ite EtherCat.esc, ite_self, implies_true]
  (repeat' (first | with_reducible rfl | split)) <;> (try with_reducible rfl) <;> simp only [State.dropReqs_esc, State.deliver_esc, State.resumeRun_esc, State.askPeer_esc, State.granted_esc, State.acked_esc, State.fillCopy_esc, apply_ite State.ecat, apply_ite EtherCat.esc, ite_self, implies_true]

/-! ### Session -/

@[simp] theorem State.replyRaw_esc (s : State) (d : Dgram) (session seq status : Nat) :
    (State.replyRaw s d session seq status).ecat.esc = s.ecat.esc := by
  simp only [State.replyRaw, State.bump_esc, State.putDgram_esc, apply_ite State.ecat, apply_ite EtherCat.esc, ite_self, implies_true]

@[simp] theorem State.resend_esc (s : State) (id : Nat) :
    (State.resend s id).ecat.esc = s.ecat.esc := by
  unfold State.resend
  (repeat' (first | with_reducible rfl | split)) <;> simp only [State.bump_esc, State.setSession_esc, State.emit_esc, foldl_esc, apply_ite State.ecat, apply_ite EtherCat.esc, ite_self, implies_true]

@[simp] theorem State.drainQueue_esc (s : State) (id : Nat) (v0 : Nat) :
    (State.drainQueue s id v0).ecat.esc = s.ecat.esc := by
  induction v0 generalizing s id  with
  | zero =>
    first
    | rfl
    | (simp only [State.drainQueue, State.setSession_esc, State.emit_esc, apply_ite State.ecat, apply_ite EtherCat.esc, ite_self, implies_true]; done)
  | succ n ih =>
    first
    | (simp only [State.drainQueue, State.setSession_esc, State.emit_esc, apply_ite State.ecat, apply_ite EtherCat.esc, ite_self, implies_true, ih]; done)
    | (unfold State.drainQueue; (repeat' (first | with_reducible rfl | split)) <;> (simp only [State.setSession_esc, State.emit_esc, apply_ite State.ecat, apply_ite EtherCat.esc, ite_self, implies_true, ih]; done))
    | (unfold State.drainQueue; (repeat' (first | with_reducible rfl | split)) <;> (try simp only [State.setSession_esc, State.emit_esc, apply_ite State.ecat, apply_ite EtherCat.esc, ite_self, implies_true, ih]) <;> (repeat' (first | with_reducible rfl | split)) <;> (simp only [State.setSession_esc, State.emit_esc, apply_ite State.ecat, apply_ite EtherCat.esc, ite_self, implies_true, ih]; done))

@[simp] theorem State.deliveredBy_esc (s : State) (id ack : Nat) :
    (State.deliveredBy s id ack).ecat.esc = s.ecat.esc := by
  simp only [State.deliveredBy, State.respond_esc, State.freeCtx_esc, foldl_esc, apply_ite State.ecat, apply_ite EtherCat.esc, ite_self, implies_true]

@[simp] theorem State.takeAck_esc (s : State) (x : Session) (m : Msg) :
    (State.takeAck s x m).ecat.esc = s.ecat.esc := by
  simp only [State.takeAck, State.setSession_esc, State.resend_esc, State.drainQueue_esc, State.deliveredBy_esc, apply_ite State.ecat, apply_ite EtherCat.esc, ite_self, implies_true]

@[simp] theorem State.sendAck_esc (s : State) (id : Nat) :
    (State.sendAck s id).ecat.esc = s.ecat.esc := by
  simp only [State.sendAck, State.sendLoose_esc, apply_ite State.ecat, apply_ite EtherCat.esc, ite_self, implies_true]

@[simp] theorem State.owe_esc (s : State) (id : Nat) :
    (State.owe s id).ecat.esc = s.ecat.esc := by
  unfold State.owe
  simp only [State.setSession_esc, State.sendAck_esc, apply_ite State.ecat, apply_ite EtherCat.esc, ite_self, implies_true]
  (repeat' (first | with_reducible rfl | split)) <;> (try with_reducible rfl) <;> simp only [State.setSession_esc, State.sendAck_esc, apply_ite State.ecat, apply_ite EtherCat.esc, ite_self, implies_true]

@[simp] theorem State.accept_esc (s : State) (d : Dgram) (x : Session) (m : Msg) :
    (State.accept s d x m).ecat.esc = s.ecat.esc := by
  unfold State.accept
  simp only [State.bump_esc, State.setSession_esc, State.takeAck_esc, apply_ite State.ecat, apply_ite EtherCat.esc, ite_self, implies_true]
  (repeat' (first | with_reducible rfl | split)) <;> (try with_reducible rfl) <;> simp only [State.bump_esc, State.setSession_esc, State.takeAck_esc, apply_ite State.ecat, apply_ite EtherCat.esc, ite_self, implies_true]

@[simp] theorem State.courier_esc (s : State) (d : Dgram) (type : Nat) (mine : Bytes → Bool) (handle : State → Session → Nat → Bytes → State)
    (h : ∀ s x n b, (handle s x n b).ecat.esc = s.ecat.esc) :
    (s.courier d type mine handle).ecat.esc = s.ecat.esc := by
  unfold State.courier
  (repeat' (first | with_reducible rfl | split)) <;>
    (try simp only [State.bump_esc, State.replyRaw_esc, State.setSession_esc, State.owe_esc, State.reply_esc, State.sendAck_esc]) <;>
    (repeat' split) <;>
    simp only [h, State.bump_esc, State.replyRaw_esc, State.setSession_esc, State.owe_esc, State.reply_esc, State.sendAck_esc, State.accept_esc]

/-! ### Saving -/

@[simp] theorem State.stopTasks_esc (s : State) (x : Ctx) :
    (State.stopTasks s x).ecat.esc = s.ecat.esc := by
  simp only [State.stopTasks, foldl_esc, apply_ite State.ecat, apply_ite EtherCat.esc, ite_self, implies_true]

/-! ### Office -/

@[simp] theorem State.refuseJob_esc (s : State) (sess seq code : Nat) :
    (State.refuseJob s sess seq code).ecat.esc = s.ecat.esc := by
  simp only [State.refuseJob, State.bump_esc, State.reply_esc, apply_ite State.ecat, apply_ite EtherCat.esc, ite_self, implies_true]

@[simp] theorem State.startCtx_esc (s : State) (c : Nat) :
    (State.startCtx s c).ecat.esc = s.ecat.esc := by
  unfold State.startCtx
  (repeat' (first | with_reducible rfl | split)) <;> simp only [State.goLive_esc, State.finishJob_esc, apply_ite State.ecat, apply_ite EtherCat.esc, ite_self, implies_true]

@[simp] theorem State.acceptCtx_esc (s : State) (sess seq : Nat) (x : Ctx) :
    (State.acceptCtx s sess seq x).ecat.esc = s.ecat.esc := by
  simp only [State.acceptCtx, State.bump_esc, State.reply_esc, State.enter_esc, apply_ite State.ecat, apply_ite EtherCat.esc, ite_self, implies_true]

@[simp] theorem State.submitJob_esc (s : State) (sess client seq : Nat) (body : Bytes) :
    (State.submitJob s sess client seq body).ecat.esc = s.ecat.esc := by
  simp only [State.submitJob, State.journal_esc, State.refuseJob_esc, State.startCtx_esc, State.acceptCtx_esc, apply_ite State.ecat, apply_ite EtherCat.esc, ite_self, implies_true]

@[simp] theorem State.grantSlot_esc (s : State) :
    (State.grantSlot s).ecat.esc = s.ecat.esc := by
  unfold State.grantSlot
  (repeat' (first | with_reducible rfl | split)) <;> simp only [State.startCtx_esc, foldl_esc, apply_ite State.ecat, apply_ite EtherCat.esc, ite_self, implies_true]

@[simp] theorem State.saveDone_esc (s : State) (c : Nat) :
    (State.saveDone s c).ecat.esc = s.ecat.esc := by
  unfold State.saveDone
  (repeat' (first | with_reducible rfl | split)) <;> simp only [State.bump_esc, State.drew_esc, State.writeBytes_esc, State.poisonUnits_esc, State.post_esc, State.setCtx_esc, State.enter_esc, State.dropSlot_esc, State.serveTasks_esc, State.stopTasks_esc, apply_ite State.ecat, apply_ite EtherCat.esc, ite_self, implies_true]

@[simp] theorem State.endAll_esc (s : State) (c code : Nat) (copies : Bool) :
    (State.endAll s c code copies).ecat.esc = s.ecat.esc := by
  unfold State.endAll
  (repeat' (first | with_reducible rfl | split)) <;> simp only [State.settle_esc, State.scramble_esc, foldl_esc, apply_ite State.ecat, apply_ite EtherCat.esc, ite_self, implies_true]

@[simp] theorem State.errorStreams_esc (s : State) (c : Nat) :
    (State.errorStreams s c).ecat.esc = s.ecat.esc := by
  rfl

@[simp] theorem State.abortCtx_esc (s : State) (c code : Nat) (own : Bool) :
    (State.abortCtx s c code own).ecat.esc = s.ecat.esc := by
  unfold State.abortCtx
  (repeat' (first | with_reducible rfl | split)) <;> simp only [State.bump_esc, State.post_esc, State.log_esc, State.raise_esc, State.dropReqs_esc, State.setCtx_esc, State.dropSave_esc, State.runTriggers_esc, State.dropWork_esc, State.endJob_esc, State.serveTasks_esc, State.endAll_esc, State.errorStreams_esc, apply_ite State.ecat, apply_ite EtherCat.esc, ite_self, implies_true]

@[simp] theorem State.redealAll_esc (s : State) (x : Ctx) (recs : List Loaded) (f : InFlight) :
    (State.redealAll s x recs f).ecat.esc = s.ecat.esc := by
  unfold State.redealAll
  (repeat' (first | with_reducible rfl | split)) <;> simp only [State.setGrid_esc, State.deal_esc, apply_ite State.ecat, apply_ite EtherCat.esc, ite_self, implies_true]

@[simp] theorem State.takeArea_esc (s : State) (c : Nat) (area : Bytes) :
    (State.takeArea s c area).ecat.esc = s.ecat.esc := by
  simp only [State.takeArea, apply_ite State.ecat, apply_ite EtherCat.esc, ite_self, implies_true]

@[simp] theorem State.restoreCtx_esc (s : State) (c : Nat) :
    (State.restoreCtx s c).ecat.esc = s.ecat.esc := by
  unfold State.restoreCtx
  (repeat' (first | with_reducible rfl | split)) <;> simp only [State.bump_esc, State.post_esc, State.setCtx_esc, State.setQueue_esc, State.setJob_esc, State.setFlight_esc, State.readRuns_esc, State.enter_esc, State.dropSlot_esc, State.dropSave_esc, State.runTriggers_esc, State.finishJob_esc, State.serveTasks_esc, State.sawPoison_esc, State.askHistory_esc, State.resumeRun_esc, State.failDry_esc, State.abortCtx_esc, State.redealAll_esc, State.takeArea_esc, foldl_esc, apply_ite State.ecat, apply_ite EtherCat.esc, ite_self, implies_true]

@[simp] theorem State.suspendReq_esc (s : State) (c : Nat) :
    (State.suspendReq s c).1.ecat.esc = s.ecat.esc := by
  unfold State.suspendReq
  (repeat' (first | with_reducible rfl | split)) <;> simp only [State.setCtx_esc, State.suspendStart_esc, apply_ite State.ecat, apply_ite EtherCat.esc, ite_self, implies_true]

@[simp] theorem State.resumeReq_esc (s : State) (c : Nat) :
    (State.resumeReq s c).1.ecat.esc = s.ecat.esc := by
  unfold State.resumeReq
  (repeat' (first | with_reducible rfl | split)) <;> simp only [State.setCtx_esc, apply_ite State.ecat, apply_ite EtherCat.esc, ite_self, implies_true]

@[simp] theorem State.suspendPart_esc (s : State) (p : Nat) :
    (State.suspendPart s p).1.ecat.esc = s.ecat.esc := by
  unfold State.suspendPart
  simp only [State.suspendStart_esc, State.suspendReq_esc, foldl_esc, apply_ite State.ecat, apply_ite EtherCat.esc, ite_self, implies_true]
  (repeat' (first | with_reducible rfl | split)) <;> (try with_reducible rfl) <;> simp only [State.suspendStart_esc, State.suspendReq_esc, foldl_esc, apply_ite State.ecat, apply_ite EtherCat.esc, ite_self, implies_true]

@[simp] theorem State.importCtx_esc (s : State) (sess client seq : Nat) (body : Bytes) :
    (State.importCtx s sess client seq body).ecat.esc = s.ecat.esc := by
  simp only [State.importCtx, State.bump_esc, State.writeBytes_esc, State.readRuns_esc, State.refuseJob_esc, State.acceptCtx_esc, apply_ite State.ecat, apply_ite EtherCat.esc, ite_self, implies_true]

@[simp] theorem applyQuota_esc (s : State) :
    (applyQuota s).1.ecat.esc = s.ecat.esc := by
  unfold applyQuota
  simp only [State.journal_esc, State.keep_esc, apply_ite State.ecat, apply_ite EtherCat.esc, ite_self, implies_true]
  (repeat' (first | with_reducible rfl | split)) <;> (try with_reducible rfl) <;> simp only [State.journal_esc, State.keep_esc, apply_ite State.ecat, apply_ite EtherCat.esc, ite_self, implies_true]

/-! ### Courier -/

@[simp] theorem State.openFor_esc (s : State) (d : Dgram) (m : Msg) :
    (State.openFor s d m).ecat.esc = s.ecat.esc := by
  unfold State.openFor
  simp only [State.bump_esc, State.replyRaw_esc, apply_ite State.ecat, apply_ite EtherCat.esc, ite_self, implies_true]
  (repeat' (first | with_reducible rfl | split)) <;> (try with_reducible rfl) <;> simp only [State.bump_esc, State.replyRaw_esc, apply_ite State.ecat, apply_ite EtherCat.esc, ite_self, implies_true]

@[simp] theorem State.sendData_esc (s : State) (sess seq : Nat) (v0 : Nat) (v1 : List Bytes) :
    (State.sendData s sess seq v0 v1).ecat.esc = s.ecat.esc := by
  induction v1 generalizing s sess seq v0 with
  | nil =>
    first
    | rfl
    | (simp only [State.sendData, State.sendMsg_esc, apply_ite State.ecat, apply_ite EtherCat.esc, ite_self, implies_true]; done)
  | cons b l ih =>
    first
    | (simp only [State.sendData, State.sendMsg_esc, apply_ite State.ecat, apply_ite EtherCat.esc, ite_self, implies_true, ih]; done)
    | (unfold State.sendData; (repeat' (first | with_reducible rfl | split)) <;> (simp only [State.sendMsg_esc, apply_ite State.ecat, apply_ite EtherCat.esc, ite_self, implies_true, ih]; done))
    | (unfold State.sendData; (repeat' (first | with_reducible rfl | split)) <;> (try simp only [State.sendMsg_esc, apply_ite State.ecat, apply_ite EtherCat.esc, ite_self, implies_true, ih]) <;> (repeat' (first | with_reducible rfl | split)) <;> (simp only [State.sendMsg_esc, apply_ite State.ecat, apply_ite EtherCat.esc, ite_self, implies_true, ih]; done))

@[simp] theorem State.readFor_esc (s : State) (sess seq a n : Nat) :
    (State.readFor s sess seq a n).ecat.esc = s.ecat.esc := by
  simp only [State.readFor, State.readRuns_esc, State.reply_esc, State.sawPoison_esc, State.sendData_esc, apply_ite State.ecat, apply_ite EtherCat.esc, ite_self, implies_true]

@[simp] theorem State.control_esc (s : State) (d : Dgram) (k : Nat) (f : State → Ctx → Nat → Controlled)
    (h : ∀ s x n, (f s x n).1.ecat.esc = s.ecat.esc) :
    (s.control d k f).ecat.esc = s.ecat.esc := by
  unfold State.control
  apply State.courier_esc
  intro s x n b
  (repeat' (first | with_reducible rfl | split)) <;> simp only [State.reply_esc, h]

@[simp] theorem controlled_esc (r : Applied) :
    (controlled r).1.ecat.esc = r.1.ecat.esc := by
  rfl

@[simp] theorem State.exportReq_esc (s : State) (c : Ctx) :
    (State.exportReq s c).1.ecat.esc = s.ecat.esc := by
  unfold State.exportReq
  (repeat' (first | with_reducible rfl | split)) <;> simp only [State.setCtx_esc, State.dropSlot_esc, apply_ite State.ecat, apply_ite EtherCat.esc, ite_self, implies_true]

@[simp] theorem State.rebind_esc (s : State) (sess : Nat) (c : Ctx) (v : Nat) :
    (State.rebind s sess c v).ecat.esc = s.ecat.esc := by
  unfold State.rebind
  simp only [State.setJob_esc, State.deliver_esc, apply_ite State.ecat, apply_ite EtherCat.esc, ite_self, implies_true]
  (repeat' (first | with_reducible rfl | split)) <;> (try with_reducible rfl) <;> simp only [State.setJob_esc, State.deliver_esc, apply_ite State.ecat, apply_ite EtherCat.esc, ite_self, implies_true]

@[simp] theorem State.putRaw_esc (s : State) (port dest : Nat) (b : Bytes) :
    (State.putRaw s port dest b).ecat.esc = s.ecat.esc := by
  rfl

/-! ### Fabric -/

@[simp] theorem State.wire_esc (s : State) (port : Nat) (f : Flit) :
    (State.wire s port f).ecat.esc = s.ecat.esc := by
  rfl

@[simp] theorem State.sendFlit_esc (s : State) (port : Nat) (f : Flit) :
    (State.sendFlit s port f).ecat.esc = s.ecat.esc := by
  simp only [State.sendFlit, State.setPort_esc, State.wire_esc, apply_ite State.ecat, apply_ite EtherCat.esc, ite_self, implies_true]

@[simp] theorem State.transmit_esc (s : State) (port : Nat) :
    (State.transmit s port).ecat.esc = s.ecat.esc := by
  unfold State.transmit
  simp only [State.bump_esc, State.setPort_esc, State.freePlace_esc, State.sendFlit_esc, apply_ite State.ecat, apply_ite EtherCat.esc, ite_self, implies_true]
  (repeat' (first | with_reducible rfl | split)) <;> (try with_reducible rfl) <;> simp only [State.bump_esc, State.setPort_esc, State.freePlace_esc, State.sendFlit_esc, apply_ite State.ecat, apply_ite EtherCat.esc, ite_self, implies_true]

@[simp] theorem State.takeAckSeq_esc (s : State) (port a : Nat) :
    (State.takeAckSeq s port a).ecat.esc = s.ecat.esc := by
  simp only [State.takeAckSeq, State.setPort_esc, apply_ite State.ecat, apply_ite EtherCat.esc, ite_self, implies_true]

@[simp] theorem State.portFall_esc (s : State) (port : Nat) :
    (State.portFall s port).ecat.esc = s.ecat.esc := by
  simp only [State.portFall, State.bump_esc, State.watch_esc, State.setPort_esc, apply_ite State.ecat, apply_ite EtherCat.esc, ite_self, implies_true]

@[simp] theorem State.replayPort_esc (s : State) (port : Nat) :
    (State.replayPort s port).ecat.esc = s.ecat.esc := by
  simp only [State.replayPort, State.bump_esc, State.setPort_esc, State.sendFlit_esc, State.portFall_esc, foldl_esc, apply_ite State.ecat, apply_ite EtherCat.esc, ite_self, implies_true]

@[simp] theorem State.oweNak_esc (s : State) (port : Nat) :
    (State.oweNak s port).ecat.esc = s.ecat.esc := by
  simp only [State.oweNak, State.setPort_esc, apply_ite State.ecat, apply_ite EtherCat.esc, ite_self, implies_true]

@[simp] theorem State.oweCredit_esc (s : State) (port : Nat) (f : Flit) :
    (State.oweCredit s port f).ecat.esc = s.ecat.esc := by
  simp only [State.oweCredit, State.setPort_esc, apply_ite State.ecat, apply_ite EtherCat.esc, ite_self, implies_true]

@[simp] theorem State.takeFlit_esc (s : State) (port : Nat) (f : Flit) :
    (State.takeFlit s port f).ecat.esc = s.ecat.esc := by
  simp only [State.takeFlit, State.bump_esc, State.setPort_esc, State.refuse_esc, State.oweCredit_esc, apply_ite State.ecat, apply_ite EtherCat.esc, ite_self, implies_true]

@[simp] theorem State.acceptFlit_esc (s : State) (port : Nat) (f : Flit) :
    (State.acceptFlit s port f).ecat.esc = s.ecat.esc := by
  simp only [State.acceptFlit, State.setPort_esc, State.routeFlit_esc, State.takeFlit_esc, apply_ite State.ecat, apply_ite EtherCat.esc, ite_self, implies_true]

@[simp] theorem State.gotControl_esc (s : State) (port : Nat) (payload : Bytes) :
    (State.gotControl s port payload).ecat.esc = s.ecat.esc := by
  simp only [State.gotControl, State.watch_esc, State.setPort_esc, State.portFall_esc, apply_ite State.ecat, apply_ite EtherCat.esc, ite_self, implies_true]

@[simp] theorem State.gotFlit_esc (s : State) (port : Nat) (f : Flit) :
    (State.gotFlit s port f).ecat.esc = s.ecat.esc := by
  simp only [State.gotFlit, State.setPort_esc, State.takeAckSeq_esc, State.replayPort_esc, State.oweNak_esc, State.acceptFlit_esc, State.gotControl_esc, apply_ite State.ecat, apply_ite EtherCat.esc, ite_self, implies_true]

@[simp] theorem State.checkPort_esc (s : State) (port : Nat) :
    (State.checkPort s port).ecat.esc = s.ecat.esc := by
  simp only [State.checkPort, State.bump_esc, State.watch_esc, State.setPort_esc, State.rerouteHeld_esc, State.sendFlit_esc, foldl_esc, apply_ite State.ecat, apply_ite EtherCat.esc, ite_self, implies_true]

@[simp] theorem State.recheckPorts_esc (s : State) :
    (State.recheckPorts s).ecat.esc = s.ecat.esc := by
  simp only [State.recheckPorts, State.checkPort_esc, foldl_esc, apply_ite State.ecat, apply_ite EtherCat.esc, ite_self, implies_true]

@[simp] theorem State.fenceLane_esc (s : State) (port lane : Nat) :
    (State.fenceLane s port lane).ecat.esc = s.ecat.esc := by
  simp only [State.fenceLane, State.putFence_esc, apply_ite State.ecat, apply_ite EtherCat.esc, ite_self, implies_true]

@[simp] theorem State.removeLane_esc (s : State) (port lane : Nat) :
    (State.removeLane s port lane).ecat.esc = s.ecat.esc := by
  simp only [State.removeLane, State.bump_esc, State.post_esc, State.setPort_esc, State.fenceLane_esc, apply_ite State.ecat, apply_ite EtherCat.esc, ite_self, implies_true]

@[simp] theorem State.reWidth_esc (s : State) (port mask : Nat) :
    (State.reWidth s port mask).ecat.esc = s.ecat.esc := by
  simp only [State.reWidth, State.bump_esc, State.watch_esc, State.setPort_esc, State.sendFlit_esc, State.portFall_esc, foldl_esc, apply_ite State.ecat, apply_ite EtherCat.esc, ite_self, implies_true]

@[simp] theorem State.startLane_esc (s : State) (port lane : Nat) :
    (State.startLane s port lane).ecat.esc = s.ecat.esc := by
  simp only [State.startLane, State.watch_esc, State.setPort_esc, apply_ite State.ecat, apply_ite EtherCat.esc, ite_self, implies_true]

@[simp] theorem State.dueLane_esc (s : State) (port lane : Nat) :
    (State.dueLane s port lane).ecat.esc = s.ecat.esc := by
  simp only [State.dueLane, State.setPort_esc, State.startLane_esc, apply_ite State.ecat, apply_ite EtherCat.esc, ite_self, implies_true]

@[simp] theorem State.nextLane_esc (s : State) :
    (State.nextLane s).ecat.esc = s.ecat.esc := by
  unfold State.nextLane
  (repeat' (first | with_reducible rfl | split)) <;> simp only [State.startLane_esc, apply_ite State.ecat, apply_ite EtherCat.esc, ite_self, implies_true]

@[simp] theorem State.lostFlit_esc (s : State) (f : Flit) :
    (State.lostFlit s f).ecat.esc = s.ecat.esc := by
  unfold State.lostFlit
  (repeat' (first | with_reducible rfl | split)) <;> simp only [State.historyArrival_esc, State.failReq_esc, apply_ite State.ecat, apply_ite EtherCat.esc, ite_self, implies_true]

@[simp] theorem State.discard_esc (s : State) (l : List Flit) :
    (State.discard s l).ecat.esc = s.ecat.esc := by
  simp only [State.discard, State.bump_esc, State.freePlace_esc, State.lostFlit_esc, foldl_esc, apply_ite State.ecat, apply_ite EtherCat.esc, ite_self, implies_true]

@[simp] theorem State.lostFlits_esc (s : State) (l : List Flit) :
    (State.lostFlits s l).ecat.esc = s.ecat.esc := by
  simp only [State.lostFlits, State.lostFlit_esc, foldl_esc, apply_ite State.ecat, apply_ite EtherCat.esc, ite_self, implies_true]

@[simp] theorem State.resetRouter_esc (s : State) :
    (State.resetRouter s).ecat.esc = s.ecat.esc := by
  simp only [State.resetRouter, State.watch_esc, State.lostFlits_esc, apply_ite State.ecat, apply_ite EtherCat.esc, ite_self, implies_true]

@[simp] theorem State.clearLanes_esc (s : State) (port : Nat) :
    (State.clearLanes s port).ecat.esc = s.ecat.esc := by
  unfold State.clearLanes
  (try split)
  all_goals (try dsimp only)
  all_goals (first | with_reducible rfl | (refine (foldl_esc _ ?_ _ _).trans ?_))
  all_goals (try intro a b)
  all_goals (repeat' (first | with_reducible rfl | split)) <;> simp only [State.dropFence_esc, foldl_esc, apply_ite State.ecat, apply_ite EtherCat.esc, ite_self, implies_true]

@[simp] theorem State.meetSeq_esc (s : State) (port n : Nat) :
    (State.meetSeq s port n).ecat.esc = s.ecat.esc := by
  simp only [State.meetSeq, State.setPort_esc, apply_ite State.ecat, apply_ite EtherCat.esc, ite_self, implies_true]

@[simp] theorem State.laneLost_esc (s : State) (port lane : Nat) :
    (State.laneLost s port lane).ecat.esc = s.ecat.esc := by
  simp only [State.laneLost, State.portFall_esc, State.removeLane_esc, State.reWidth_esc, apply_ite State.ecat, apply_ite EtherCat.esc, ite_self, implies_true]

@[simp] theorem applyLaneRetrain_esc (value : Nat) (s : State) :
    (applyLaneRetrain value s).1.ecat.esc = s.ecat.esc := by
  unfold applyLaneRetrain
  (repeat' (first | with_reducible rfl | split)) <;> simp only [State.dueLane_esc, apply_ite State.ecat, apply_ite EtherCat.esc, ite_self, implies_true]

@[simp] theorem applyNode_esc (s : State) :
    (applyNode s).1.ecat.esc = s.ecat.esc := by
  unfold applyNode
  simp only [State.watch_esc, State.keep_esc, State.recheckPorts_esc, State.nextLane_esc, apply_ite State.ecat, apply_ite EtherCat.esc, ite_self, implies_true]
  (repeat' (first | with_reducible rfl | split)) <;> (try with_reducible rfl) <;> simp only [State.watch_esc, State.keep_esc, State.recheckPorts_esc, State.nextLane_esc, apply_ite State.ecat, apply_ite EtherCat.esc, ite_self, implies_true]

@[simp] theorem applyRoute_esc (s : State) :
    (applyRoute s).1.ecat.esc = s.ecat.esc := by
  unfold applyRoute
  simp only [State.dset_esc, State.rerouteHeld_esc, apply_ite State.ecat, apply_ite EtherCat.esc, ite_self, implies_true]
  (repeat' (first | with_reducible rfl | split)) <;> (try with_reducible rfl) <;> simp only [State.dset_esc, State.rerouteHeld_esc, apply_ite State.ecat, apply_ite EtherCat.esc, ite_self, implies_true]

@[simp] theorem applyRouteDefaults_esc (s : State) :
    (applyRouteDefaults s).1.ecat.esc = s.ecat.esc := by
  simp only [applyRouteDefaults, State.rerouteHeld_esc, apply_ite State.ecat, apply_ite EtherCat.esc, ite_self, implies_true]

@[simp] theorem State.setEnable_esc (s : State) (value : Nat) :
    (State.setEnable s value).ecat.esc = s.ecat.esc := by
  simp only [State.setEnable, State.bump_esc, State.watch_esc, apply_ite State.ecat, apply_ite EtherCat.esc, ite_self, implies_true]

@[simp] theorem State.portsDown_esc (s : State) :
    (State.portsDown s).ecat.esc = s.ecat.esc := by
  simp only [State.portsDown, State.bump_esc, State.watch_esc, State.discard_esc, apply_ite State.ecat, apply_ite EtherCat.esc, ite_self, implies_true]

@[simp] theorem applyPortEnable_esc (value : Nat) (s : State) :
    (applyPortEnable value s).1.ecat.esc = s.ecat.esc := by
  unfold applyPortEnable
  (repeat' (first | with_reducible rfl | split)) <;> simp only [State.keep_esc, State.setEnable_esc, apply_ite State.ecat, apply_ite EtherCat.esc, ite_self, implies_true]

/-! ### Collectives -/

@[simp] theorem State.relayCard_esc (s : State) (k : Card) (post : Nat) :
    (State.relayCard s k post).ecat.esc = s.ecat.esc := by
  unfold State.relayCard
  simp only [State.bump_esc, State.post_esc, State.sendCard_esc, apply_ite State.ecat, apply_ite EtherCat.esc, ite_self, implies_true]
  (repeat' (first | with_reducible rfl | split)) <;> (try with_reducible rfl) <;> simp only [State.bump_esc, State.post_esc, State.sendCard_esc, apply_ite State.ecat, apply_ite EtherCat.esc, ite_self, implies_true]

@[simp] theorem State.takeCard_esc (s : State) (k : Card) (post : Nat) :
    (State.takeCard s k post).ecat.esc = s.ecat.esc := by
  unfold State.takeCard
  simp only [State.bump_esc, State.post_esc, State.setColl_esc, State.failColl_esc, State.knowMark_esc, State.runPost_esc, apply_ite State.ecat, apply_ite EtherCat.esc, ite_self, implies_true]
  (repeat' (first | with_reducible rfl | split)) <;> (try with_reducible rfl) <;> simp only [State.bump_esc, State.post_esc, State.setColl_esc, State.failColl_esc, State.knowMark_esc, State.runPost_esc, apply_ite State.ecat, apply_ite EtherCat.esc, ite_self, implies_true]

@[simp] theorem State.ctrlDone_esc (s : State) :
    (State.ctrlDone s).ecat.esc = s.ecat.esc := by
  rfl

@[simp] theorem State.ctrlCards_esc (s : State) (x : Ctrl) (a : Nat) :
    (State.ctrlCards s x a).ecat.esc = s.ecat.esc := by
  simp only [State.ctrlCards, State.sendCard_esc, foldl_esc, apply_ite State.ecat, apply_ite EtherCat.esc, ite_self, implies_true]

@[simp] theorem State.joinCtrl_esc (s : State) (sig : Nat) :
    (State.joinCtrl s sig).ecat.esc = s.ecat.esc := by
  unfold State.joinCtrl
  simp only [State.ctrlCards_esc, apply_ite State.ecat, apply_ite EtherCat.esc, ite_self, implies_true]
  (repeat' (first | with_reducible rfl | split)) <;> (try with_reducible rfl) <;> simp only [State.ctrlCards_esc, apply_ite State.ecat, apply_ite EtherCat.esc, ite_self, implies_true]

@[simp] theorem State.runCtrl_esc (s : State) (sig : Nat) (v0 : Nat) :
    (State.runCtrl s sig v0).ecat.esc = s.ecat.esc := by
  induction v0 generalizing s sig  with
  | zero =>
    first
    | rfl
    | (simp only [State.runCtrl, State.ctrlCards_esc, apply_ite State.ecat, apply_ite EtherCat.esc, ite_self, implies_true]; done)
  | succ n ih =>
    first
    | (simp only [State.runCtrl, State.ctrlCards_esc, apply_ite State.ecat, apply_ite EtherCat.esc, ite_self, implies_true, ih]; done)
    | (unfold State.runCtrl; (repeat' (first | with_reducible rfl | split)) <;> (simp only [State.ctrlCards_esc, apply_ite State.ecat, apply_ite EtherCat.esc, ite_self, implies_true, ih]; done))
    | (unfold State.runCtrl; (repeat' (first | with_reducible rfl | split)) <;> (try simp only [State.ctrlCards_esc, apply_ite State.ecat, apply_ite EtherCat.esc, ite_self, implies_true, ih]) <;> (repeat' (first | with_reducible rfl | split)) <;> (simp only [State.ctrlCards_esc, apply_ite State.ecat, apply_ite EtherCat.esc, ite_self, implies_true, ih]; done))

@[simp] theorem State.takeCtrl_esc (s : State) (k : Card) (post : Nat) :
    (State.takeCtrl s k post).ecat.esc = s.ecat.esc := by
  simp only [State.takeCtrl, State.post_esc, State.relayCard_esc, State.joinCtrl_esc, State.runCtrl_esc, apply_ite State.ecat, apply_ite EtherCat.esc, ite_self, implies_true]

@[simp] theorem State.ctrlOver_esc (s : State) (sig : Nat) :
    (State.ctrlOver s sig).ecat.esc = s.ecat.esc := by
  rfl

@[simp] theorem applyCtrlStart_esc (kind : Nat) (s : State) :
    (applyCtrlStart kind s).1.ecat.esc = s.ecat.esc := by
  unfold applyCtrlStart
  (repeat' (first | with_reducible rfl | split)) <;> simp only [State.dset_esc, State.joinCtrl_esc, apply_ite State.ecat, apply_ite EtherCat.esc, ite_self, implies_true]

@[simp] theorem State.groupReset_esc (s : State) (group : Nat) :
    (State.groupReset s group).ecat.esc = s.ecat.esc := by
  simp only [State.groupReset, State.failColl_esc, foldl_esc, apply_ite State.ecat, apply_ite EtherCat.esc, ite_self, implies_true]

/-! ### Keeping -/

@[simp] theorem State.growBad_esc (s : State) (ids : List Nat) :
    (State.growBad s ids).ecat.esc = s.ecat.esc := by
  simp only [State.growBad, State.journal_esc, State.watch_esc, foldl_esc, apply_ite State.ecat, apply_ite EtherCat.esc, ite_self, implies_true]

@[simp] theorem State.placeImage_esc (s : State) (b : Bytes) (v0 : Nat) (v1 : Nat) :
    (State.placeImage s b v0 v1).1.ecat.esc = s.ecat.esc := by
  induction v0 generalizing s b v1 with
  | zero =>
    first
    | rfl
    | (simp only [State.placeImage, State.forceCommit_esc, State.journal_esc, State.watch_esc, State.growBad_esc, apply_ite State.ecat, apply_ite EtherCat.esc, ite_self, implies_true]; done)
  | succ n ih =>
    first
    | (simp only [State.placeImage, State.forceCommit_esc, State.journal_esc, State.watch_esc, State.growBad_esc, apply_ite State.ecat, apply_ite EtherCat.esc, ite_self, implies_true, ih]; done)
    | (unfold State.placeImage; (repeat' (first | with_reducible rfl | split)) <;> (simp only [State.forceCommit_esc, State.journal_esc, State.watch_esc, State.growBad_esc, apply_ite State.ecat, apply_ite EtherCat.esc, ite_self, implies_true, ih]; done))
    | (unfold State.placeImage; (repeat' (first | with_reducible rfl | split)) <;> (try simp only [State.forceCommit_esc, State.journal_esc, State.watch_esc, State.growBad_esc, apply_ite State.ecat, apply_ite EtherCat.esc, ite_self, implies_true, ih]) <;> (repeat' (first | with_reducible rfl | split)) <;> (simp only [State.forceCommit_esc, State.journal_esc, State.watch_esc, State.growBad_esc, apply_ite State.ecat, apply_ite EtherCat.esc, ite_self, implies_true, ih]; done))

@[simp] theorem State.notStored_esc (s : State) :
    (State.notStored s).ecat.esc = s.ecat.esc := by
  simp only [State.notStored, State.bump_esc, State.raise_esc, apply_ite State.ecat, apply_ite EtherCat.esc, ite_self, implies_true]

@[simp] theorem State.freeExtents_esc (s : State) (l : List Extent) :
    (State.freeExtents s l).ecat.esc = s.ecat.esc := by
  simp only [State.freeExtents, State.journal_esc, foldl_esc, apply_ite State.ecat, apply_ite EtherCat.esc, ite_self, implies_true]

@[simp] theorem State.storeCullet_esc (s : State) (b : Bytes) :
    (State.storeCullet s b).ecat.esc = s.ecat.esc := by
  simp only [State.storeCullet, State.commitWith_esc, State.journal_esc, State.raise_esc, State.notStored_esc, State.freeExtents_esc, apply_ite State.ecat, apply_ite EtherCat.esc, ite_self, implies_true]

@[simp] theorem State.storePosts_esc (s : State) (regions : List Nat) (n : Nat) :
    (State.storePosts s regions n).ecat.esc = s.ecat.esc := by
  simp only [State.storePosts, State.drew_esc, State.commitWith_esc, State.journal_esc, State.notStored_esc, State.freeExtents_esc, apply_ite State.ecat, apply_ite EtherCat.esc, ite_self, implies_true]

@[simp] theorem State.reload_esc (s : State) :
    (State.reload s).ecat.esc = s.ecat.esc := by
  simp only [State.reload, State.log_esc, State.trained_esc, foldl_esc, apply_ite State.ecat, apply_ite EtherCat.esc, ite_self, implies_true]

@[simp] theorem State.pageLost_esc (s : State) (b : NBlock) :
    (State.pageLost s b).ecat.esc = s.ecat.esc := by
  unfold State.pageLost
  (repeat' (first | with_reducible rfl | split)) <;> simp only [State.bump_esc, State.log_esc, State.watch_esc, State.placeImage_esc, State.freeExtents_esc, apply_ite State.ecat, apply_ite EtherCat.esc, ite_self, implies_true]

@[simp] theorem applyStoreAll_esc (value : Nat) (s : State) :
    (applyStoreAll value s).1.ecat.esc = s.ecat.esc := by
  unfold applyStoreAll
  (repeat' (first | with_reducible rfl | split)) <;> simp only [State.forceCommit_esc, apply_ite State.ecat, apply_ite EtherCat.esc, ite_self, implies_true]

@[simp] theorem applyRestore_esc (value : Nat) (s : State) :
    (applyRestore value s).1.ecat.esc = s.ecat.esc := by
  unfold applyRestore
  (repeat' (first | with_reducible rfl | split)) <;> simp only [apply_ite State.ecat, apply_ite EtherCat.esc, ite_self, implies_true]

/-! ### Recovery -/

@[simp] theorem State.redealColumn_esc (s : State) (cell fault : Nat) (g : Nat × Nat × Nat) (ts : List Task) :
    (State.redealColumn s cell fault g ts).ecat.esc = s.ecat.esc := by
  simp only [State.redealColumn, State.bump_esc, State.setFlight_esc, State.failDry_esc, apply_ite State.ecat, apply_ite EtherCat.esc, ite_self, implies_true]

@[simp] theorem State.leaveChains_esc (s : State) (cell : Nat) :
    (State.leaveChains s cell).ecat.esc = s.ecat.esc := by
  simp only [State.leaveChains, State.bump_esc, foldl_esc, apply_ite State.ecat, apply_ite EtherCat.esc, ite_self, implies_true]

@[simp] theorem State.redealCell_esc (s : State) (cell fault : Nat) :
    (State.redealCell s cell fault).ecat.esc = s.ecat.esc := by
  simp only [State.redealCell, State.redealColumn_esc, foldl_esc, apply_ite State.ecat, apply_ite EtherCat.esc, ite_self, implies_true]

@[simp] theorem State.metAgain_esc (s : State) (cell fault : Nat) :
    (State.metAgain s cell fault).ecat.esc = s.ecat.esc := by
  simp only [State.metAgain, State.failInstr_esc, foldl_esc, apply_ite State.ecat, apply_ite EtherCat.esc, ite_self, implies_true]

@[simp] theorem State.clearCell_esc (s : State) (cell : Nat) :
    (State.clearCell s cell).ecat.esc = s.ecat.esc := by
  simp only [State.clearCell, State.clearRun_esc, State.reseedCell_esc, apply_ite State.ecat, apply_ite EtherCat.esc, ite_self, implies_true]

@[simp] theorem State.checkBarren_esc (s : State) (p : Nat) :
    (State.checkBarren s p).ecat.esc = s.ecat.esc := by
  simp only [State.checkBarren, apply_ite State.ecat, apply_ite EtherCat.esc, ite_self, implies_true]

@[simp] theorem State.setIntakePipe_esc (s : State) (i : Nat) (f : Pipe → Pipe) :
    (State.setIntakePipe s i f).ecat.esc = s.ecat.esc := by
  rfl

@[simp] theorem State.setCodecPipe_esc (s : State) (i : Nat) (f : Pipe → Pipe) :
    (State.setCodecPipe s i f).ecat.esc = s.ecat.esc := by
  rfl

@[simp] theorem State.fenceNow_esc (s : State) (unit origin cause : Nat) :
    (State.fenceNow s unit origin cause).ecat.esc = s.ecat.esc := by
  unfold State.fenceNow
  (repeat' (first | with_reducible rfl | split)) <;> simp only [State.setCell_esc, State.watch_esc, State.putFence_esc, State.markChannel_esc, State.serveTasks_esc, State.restartSample_esc, State.intkStarved_esc, State.restartFrame_esc, State.cdcStarved_esc, State.laneLost_esc, State.leaveChains_esc, State.redealCell_esc, State.checkBarren_esc, State.setIntakePipe_esc, State.setCodecPipe_esc, apply_ite State.ecat, apply_ite EtherCat.esc, ite_self, implies_true]

@[simp] theorem applyFence_esc (s : State) :
    (applyFence s).1.ecat.esc = s.ecat.esc := by
  unfold applyFence
  simp only [State.dset_esc, State.putFence_esc, State.fenceNow_esc, apply_ite State.ecat, apply_ite EtherCat.esc, ite_self, implies_true]
  (repeat' (first | with_reducible rfl | split)) <;> (try with_reducible rfl) <;> simp only [State.dset_esc, State.putFence_esc, State.fenceNow_esc, apply_ite State.ecat, apply_ite EtherCat.esc, ite_self, implies_true]

@[simp] theorem State.countReset_esc (s : State) (unit : Nat) :
    (State.countReset s unit).1.ecat.esc = s.ecat.esc := by
  unfold State.countReset
  (repeat' (first | with_reducible rfl | split)) <;> simp only [State.setCell_esc, State.setIntakePipe_esc, State.setCodecPipe_esc, apply_ite State.ecat, apply_ite EtherCat.esc, ite_self, implies_true]

@[simp] theorem State.resetWork_esc (s : State) (unit cause : Nat) :
    (State.resetWork s unit cause).ecat.esc = s.ecat.esc := by
  unfold State.resetWork
  (repeat' (first | with_reducible rfl | split)) <;> simp only [State.serveTasks_esc, State.restartSample_esc, State.restartFrame_esc, State.dueSession_esc, State.redealCell_esc, State.metAgain_esc, State.clearCell_esc, apply_ite State.ecat, apply_ite EtherCat.esc, ite_self, implies_true]

@[simp] theorem State.engineReset_esc (s : State) (unit cause : Nat) :
    (State.engineReset s unit cause).ecat.esc = s.ecat.esc := by
  simp only [State.engineReset, State.bump_esc, State.post_esc, State.log_esc, State.raise_esc, State.fenceNow_esc, State.countReset_esc, State.resetWork_esc, apply_ite State.ecat, apply_ite EtherCat.esc, ite_self, implies_true]

@[simp] theorem State.resetPart_esc (s : State) (p cause : Nat) :
    (State.resetPart s p cause).ecat.esc = s.ecat.esc := by
  simp only [State.resetPart, State.bump_esc, State.post_esc, State.log_esc, State.raise_esc, apply_ite State.ecat, apply_ite EtherCat.esc, ite_self, implies_true]

@[simp] theorem State.annealCtx_esc (s : State) (c : Nat) :
    (State.annealCtx s c).ecat.esc = s.ecat.esc := by
  simp only [State.annealCtx, State.setCtx_esc, State.dropSave_esc, State.dropWork_esc, State.endJob_esc, State.endAll_esc, State.errorStreams_esc, apply_ite State.ecat, apply_ite EtherCat.esc, ite_self, implies_true]

@[simp] theorem State.restartPart_esc (s : State) (p : Nat) :
    (State.restartPart s p).ecat.esc = s.ecat.esc := by
  simp only [State.restartPart, State.watch_esc, State.startCtx_esc, State.checkBarren_esc, foldl_esc, apply_ite State.ecat, apply_ite EtherCat.esc, ite_self, implies_true]

@[simp] theorem State.anneal_esc (s : State) (p : Nat) :
    (State.anneal s p).ecat.esc = s.ecat.esc := by
  simp only [State.anneal, State.setCell_esc, State.clearRun_esc, State.dropReqs_esc, State.answered_esc, State.storePosts_esc, State.clearCell_esc, State.annealCtx_esc, State.restartPart_esc, foldl_esc, apply_ite State.ecat, apply_ite EtherCat.esc, ite_self, implies_true]

@[simp] theorem State.collect_esc (s : State) (cause : Nat) (hung : Option Nat) :
    (State.collect s cause hung).ecat.esc = s.ecat.esc := by
  simp only [State.collect, State.bump_esc, State.drew_esc, State.storeCullet_esc, State.storePosts_esc, apply_ite State.ecat, apply_ite EtherCat.esc, ite_self, implies_true]

@[simp] theorem State.logLost_esc (s : State) (l : List Copy) :
    (State.logLost s l).ecat.esc = s.ecat.esc := by
  simp only [State.logLost, State.bump_esc, State.log_esc, State.raise_esc, foldl_esc, apply_ite State.ecat, apply_ite EtherCat.esc, ite_self, implies_true]

@[simp] theorem State.unitsReset_esc (s : State) :
    (State.unitsReset s).ecat.esc = s.ecat.esc := by
  simp only [State.unitsReset, State.watch_esc, State.drainDetour_esc, State.trained_esc, State.answered_esc, State.logLost_esc, foldl_esc, apply_ite State.ecat, apply_ite EtherCat.esc, ite_self, implies_true]

@[simp] theorem State.restoreNow_esc (s : State) :
    (State.restoreNow s).ecat.esc = s.ecat.esc := by
  simp only [State.restoreNow, State.journal_esc, State.keep_esc, foldl_esc, apply_ite State.ecat, apply_ite EtherCat.esc, ite_self, implies_true]

@[simp] theorem State.settleFences_esc (s : State) :
    (State.settleFences s).ecat.esc = s.ecat.esc := by
  simp only [State.settleFences, State.putFence_esc, State.dropFence_esc, foldl_esc, apply_ite State.ecat, apply_ite EtherCat.esc, ite_self, implies_true]

@[simp] theorem State.flagFences_esc (s : State) :
    (State.flagFences s).ecat.esc = s.ecat.esc := by
  simp only [State.flagFences, apply_ite State.ecat, apply_ite EtherCat.esc, ite_self, implies_true]

@[simp] theorem State.trainFailed_esc (s : State) (n : Nat) :
    (State.trainFailed s n).ecat.esc = s.ecat.esc := by
  simp only [State.trainFailed, State.bump_esc, State.setChan_esc, State.raise_esc, State.markChannel_esc, apply_ite State.ecat, apply_ite EtherCat.esc, ite_self, implies_true]

@[simp] theorem State.layOut_esc (s : State) (failed : List Nat) :
    (State.layOut s failed).1.ecat.esc = s.ecat.esc := by
  simp only [State.layOut, apply_ite State.ecat, apply_ite EtherCat.esc, ite_self, implies_true]

@[simp] theorem State.startPower_esc (s : State) :
    (State.startPower s).ecat.esc = s.ecat.esc := by
  simp only [State.startPower, State.keep_esc, apply_ite State.ecat, apply_ite EtherCat.esc, ite_self, implies_true]

@[simp] theorem State.endLost_esc (s : State) (lost : Bool) :
    (State.endLost s lost).ecat.esc = s.ecat.esc := by
  simp only [State.endLost, State.dropSave_esc, State.endJob_esc, State.endAll_esc, foldl_esc, apply_ite State.ecat, apply_ite EtherCat.esc, ite_self, implies_true]

@[simp] theorem State.serve_esc (s : State) (failed : List Nat) :
    (State.serve s failed).ecat.esc = s.ecat.esc := by
  simp only [State.serve, State.flushEmergency_esc, State.watch_esc, State.restoreNow_esc, State.settleFences_esc, State.flagFences_esc, State.trainFailed_esc, State.layOut_esc, State.startPower_esc, State.endLost_esc, foldl_esc, apply_ite State.ecat, apply_ite EtherCat.esc, ite_self, implies_true]

@[simp] theorem State.enterBootstrap_esc (s : State) :
    (State.enterBootstrap s).ecat.esc = s.ecat.esc := by
  rfl

@[simp] theorem State.startUp_esc (s : State) (failed : List Nat) :
    (State.startUp s failed).ecat.esc = s.ecat.esc := by
  simp only [State.startUp, State.reseedCell_esc, State.serve_esc, State.enterBootstrap_esc, foldl_esc, apply_ite State.ecat, apply_ite EtherCat.esc, ite_self, implies_true]

@[simp] theorem State.freeze_esc (s : State) (cause unit severity : Nat) (record hung : Bool) :
    (State.freeze s cause unit severity record hung).ecat.esc = s.ecat.esc := by
  simp only [State.freeze, State.retireWcb_esc, State.commit_esc, State.post_esc, State.log_esc, State.reload_esc, State.collect_esc, foldl_esc, apply_ite State.ecat, apply_ite EtherCat.esc, ite_self, implies_true]

@[simp] theorem State.chipReset_esc (s : State) (cause unit : Nat) (fault record hung : Bool) :
    (State.chipReset s cause unit fault record hung).ecat.esc = s.ecat.esc := by
  simp only [State.chipReset, State.bump_esc, State.raise_esc, State.unitsReset_esc, State.startUp_esc, State.freeze_esc, apply_ite State.ecat, apply_ite EtherCat.esc, ite_self, implies_true]

@[simp] theorem State.powerCycle_esc (s : State) (cause : Nat) :
    (State.powerCycle s cause).ecat.esc = s.ecat.esc := by
  simp only [State.powerCycle, State.bump_esc, State.commit_esc, State.freeze_esc, apply_ite State.ecat, apply_ite EtherCat.esc, ite_self, implies_true]

@[simp] theorem State.writeReset_esc (s : State) (v : Nat) :
    (State.writeReset s v).ecat.esc = s.ecat.esc := by
  simp only [State.writeReset, State.answerWrite_esc, State.resetPart_esc, State.chipReset_esc, State.powerCycle_esc, apply_ite State.ecat, apply_ite EtherCat.esc, ite_self, implies_true]

@[simp] theorem applyFaultClear_esc (value : Nat) (s : State) :
    (applyFaultClear value s).1.ecat.esc = s.ecat.esc := by
  rfl

@[simp] theorem State.marTasks_esc (s : State) (cell : Nat) :
    (State.marTasks s cell).ecat.esc = s.ecat.esc := by
  rfl

/-! ### Security -/

@[simp] theorem State.blowFailed_esc (s : State) :
    (State.blowFailed s).ecat.esc = s.ecat.esc := by
  simp only [State.blowFailed, State.log_esc, apply_ite State.ecat, apply_ite EtherCat.esc, ite_self, implies_true]

@[simp] theorem State.refuseToken_esc (s : State) (code : Nat) :
    (State.refuseToken s code).ecat.esc = s.ecat.esc := by
  simp only [State.refuseToken, State.bump_esc, apply_ite State.ecat, apply_ite EtherCat.esc, ite_self, implies_true]

@[simp] theorem State.acceptToken_esc (s : State) :
    (State.acceptToken s).ecat.esc = s.ecat.esc := by
  simp only [State.acceptToken, State.bump_esc, apply_ite State.ecat, apply_ite EtherCat.esc, ite_self, implies_true]

@[simp] theorem State.token_esc (s : State) (op : Nat) (b : Bytes) (blowOk : Bool) (f : State → State)
    (h : ∀ s, (f s).ecat.esc = s.ecat.esc) :
    (s.token op b blowOk f).ecat.esc = s.ecat.esc := by
  unfold State.token
  (repeat' (first | with_reducible rfl | split)) <;>
    (try simp only [State.abort_esc]) <;> (repeat' split) <;>
    simp only [h, State.abort_esc, State.refuseToken_esc, State.blowFailed_esc, State.acceptToken_esc, State.answerWrite_esc]

@[simp] theorem State.eraseIdentity_esc (s : State) :
    (State.eraseIdentity s).ecat.esc = s.ecat.esc := by
  simp only [State.eraseIdentity, State.forceCommit_esc, State.keep_esc, State.restoreNow_esc, apply_ite State.ecat, apply_ite EtherCat.esc, ite_self, implies_true]

@[simp] theorem State.changeLife_esc (s : State) (new : Nat) :
    (State.changeLife s new).ecat.esc = s.ecat.esc := by
  simp only [State.changeLife, State.chipReset_esc, State.eraseIdentity_esc, apply_ite State.ecat, apply_ite EtherCat.esc, ite_self, implies_true]

@[simp] theorem State.raiseVersion_esc (s : State) (blowOk : Bool) :
    (State.raiseVersion s blowOk).1.ecat.esc = s.ecat.esc := by
  unfold State.raiseVersion
  simp only [apply_ite State.ecat, apply_ite EtherCat.esc, ite_self, implies_true]
  (repeat' (first | with_reducible rfl | split)) <;> (try with_reducible rfl) <;> simp only [apply_ite State.ecat, apply_ite EtherCat.esc, ite_self, implies_true]

@[simp] theorem State.commitBlob_esc (s : State) (x : Identity) :
    (State.commitBlob s x).ecat.esc = s.ecat.esc := by
  simp only [State.commitBlob, State.drew_esc, State.forceCommit_esc, State.journal_esc, apply_ite State.ecat, apply_ite EtherCat.esc, ite_self, implies_true]

@[simp] theorem State.provisioned_esc (s : State) (blowOk : Bool) :
    (State.provisioned s blowOk).1.ecat.esc = s.ecat.esc := by
  unfold State.provisioned
  (repeat' (first | with_reducible rfl | split)) <;> simp only [State.setEnable_esc, State.commitBlob_esc, apply_ite State.ecat, apply_ite EtherCat.esc, ite_self, implies_true]

@[simp] theorem State.rotated_esc (s : State) :
    (State.rotated s).1.ecat.esc = s.ecat.esc := by
  unfold State.rotated
  (repeat' (first | with_reducible rfl | split)) <;> simp only [State.bump_esc, State.drew_esc, State.forceCommit_esc, State.journal_esc, apply_ite State.ecat, apply_ite EtherCat.esc, ite_self, implies_true]

@[simp] theorem applyNonce_esc (nonce : Bytes) (s : State) :
    (applyNonce nonce s).1.ecat.esc = s.ecat.esc := by
  unfold applyNonce
  (repeat' (first | with_reducible rfl | split)) <;> simp only [apply_ite State.ecat, apply_ite EtherCat.esc, ite_self, implies_true]

@[simp] theorem applyRelock_esc (s : State) :
    (applyRelock s).1.ecat.esc = s.ecat.esc := by
  unfold applyRelock
  (repeat' (first | with_reducible rfl | split)) <;> simp only [apply_ite State.ecat, apply_ite EtherCat.esc, ite_self, implies_true]

@[simp] theorem applyDebugWrite_esc (data : Bytes) (s : State) :
    (applyDebugWrite data s).1.ecat.esc = s.ecat.esc := by
  unfold applyDebugWrite
  simp only [State.bump_esc, State.writeBytes_esc, apply_ite State.ecat, apply_ite EtherCat.esc, ite_self, implies_true]
  (repeat' (first | with_reducible rfl | split)) <;> (try with_reducible rfl) <;> simp only [State.bump_esc, State.writeBytes_esc, apply_ite State.ecat, apply_ite EtherCat.esc, ite_self, implies_true]

@[simp] theorem State.bypass_esc (s : State) (code : Nat) (tdi : Bool) :
    (State.bypass s code tdi).ecat.esc = s.ecat.esc := by
  rfl

@[simp] theorem State.tap_esc (s : State) (code : Nat) (f : State → State)
    (h : ∀ s, (f s).ecat.esc = s.ecat.esc) :
    (s.tap code f).ecat.esc = s.ecat.esc := by
  unfold State.tap
  (repeat' (first | with_reducible rfl | split)) <;> simp only [h, State.bypass_esc]

@[simp] theorem State.linksDown_esc (s : State) :
    (State.linksDown s).ecat.esc = s.ecat.esc := by
  simp only [State.linksDown, State.portsDown_esc, apply_ite State.ecat, apply_ite EtherCat.esc, ite_self, implies_true]

@[simp] theorem State.pins_esc (s : State) :
    (State.pins s).ecat.esc = s.ecat.esc := by
  simp only [State.pins, State.drew_esc, apply_ite State.ecat, apply_ite EtherCat.esc, ite_self, implies_true]

/-! ### Board -/

@[simp] theorem State.regionOff_esc (s : State) (r : Nat) :
    (State.regionOff s r).ecat.esc = s.ecat.esc := by
  simp only [State.regionOff, State.clearRun_esc, apply_ite State.ecat, apply_ite EtherCat.esc, ite_self, implies_true]

@[simp] theorem State.enterHold_esc (s : State) :
    (State.enterHold s).ecat.esc = s.ecat.esc := by
  simp only [State.enterHold, State.bump_esc, State.retireWcb_esc, State.sendMsg_esc, State.closeSession_esc, State.trained_esc, foldl_esc, apply_ite State.ecat, apply_ite EtherCat.esc, ite_self, implies_true]

@[simp] theorem State.setPower_esc (s : State) (target trim : Nat) :
    (State.setPower s target trim).ecat.esc = s.ecat.esc := by
  simp only [State.setPower, State.restartPart_esc, State.regionOff_esc, State.enterHold_esc, foldl_esc, apply_ite State.ecat, apply_ite EtherCat.esc, ite_self, implies_true]

@[simp] theorem applyPower_esc (s : State) :
    (applyPower s).1.ecat.esc = s.ecat.esc := by
  unfold applyPower
  simp only [State.keep_esc, State.setPower_esc, apply_ite State.ecat, apply_ite EtherCat.esc, ite_self, implies_true]
  (repeat' (first | with_reducible rfl | split)) <;> (try with_reducible rfl) <;> simp only [State.keep_esc, State.setPower_esc, apply_ite State.ecat, apply_ite EtherCat.esc, ite_self, implies_true]

@[simp] theorem State.writePower_esc (s : State) (target value : Nat) :
    (State.writePower s target value).ecat.esc = s.ecat.esc := by
  simp only [State.writePower, State.trigger_esc, applyPower_esc, apply_ite State.ecat, apply_ite EtherCat.esc, ite_self, implies_true]

@[simp] theorem State.powerLost_esc (s : State) :
    (State.powerLost s).ecat.esc = s.ecat.esc := by
  simp only [State.powerLost, State.drew_esc, State.commitWith_esc, State.storePosts_esc, apply_ite State.ecat, apply_ite EtherCat.esc, ite_self, implies_true]

@[simp] theorem State.perstReset_esc (s : State) :
    (State.perstReset s).ecat.esc = s.ecat.esc := by
  simp only [State.perstReset, State.bump_esc, State.resetRouter_esc, State.unitsReset_esc, State.freeze_esc, apply_ite State.ecat, apply_ite EtherCat.esc, ite_self, implies_true]

@[simp] theorem State.routerStart_esc (s : State) :
    (State.routerStart s).ecat.esc = s.ecat.esc := by
  rfl

@[simp] theorem State.coldStart_esc (s : State) (failed : List Nat) :
    (State.coldStart s failed).ecat.esc = s.ecat.esc := by
  simp only [State.coldStart, State.log_esc, State.enterBootstrap_esc, State.startUp_esc, apply_ite State.ecat, apply_ite EtherCat.esc, ite_self, implies_true]

@[simp] theorem State.sense_esc (s : State) (die device : Nat) :
    (State.sense s die device).ecat.esc = s.ecat.esc := by
  simp only [State.sense, State.watch_esc, apply_ite State.ecat, apply_ite EtherCat.esc, ite_self, implies_true]

@[simp] theorem State.foeError_esc (s : State) (code status : Nat) :
    (State.foeError s code status).ecat.esc = s.ecat.esc := by
  simp only [State.foeError, State.placeSm1_esc, apply_ite State.ecat, apply_ite EtherCat.esc, ite_self, implies_true]

@[simp] theorem State.takeImage_esc (s : State) (b : Bytes) (readBack : Nat) :
    (State.takeImage s b readBack).ecat.esc = s.ecat.esc := by
  simp only [State.takeImage, State.bump_esc, State.placeSm1_esc, State.placeImage_esc, State.serve_esc, State.foeError_esc, apply_ite State.ecat, apply_ite EtherCat.esc, ite_self, implies_true]

@[simp] theorem applyActivate_esc (s : State) :
    (applyActivate s).1.ecat.esc = s.ecat.esc := by
  unfold applyActivate
  (repeat' (first | with_reducible rfl | split)) <;> simp only [State.commit_esc, apply_ite State.ecat, apply_ite EtherCat.esc, ite_self, implies_true]

/-! ### Dictionary -/

@[simp] theorem State.writePdo_esc (s : State) (idx sub : Nat) (l : List Nat) :
    (State.writePdo s idx sub l).ecat.esc = s.ecat.esc := by
  unfold State.writePdo
  (repeat' (first | with_reducible rfl | split)) <;> simp only [State.abort_esc, State.answerWrite_esc, apply_ite State.ecat, apply_ite EtherCat.esc, ite_self, implies_true]

@[simp] theorem applyLayout_esc (s : State) :
    (applyLayout s).1.ecat.esc = s.ecat.esc := by
  unfold applyLayout
  (repeat' (first | with_reducible rfl | split)) <;> simp only [State.keep_esc, foldl_esc, apply_ite State.ecat, apply_ite EtherCat.esc, ite_self, implies_true]

@[simp] theorem State.quietWrite_esc (s : State) (e : Entry) (b : Bytes) :
    (State.quietWrite s e b).1.ecat.esc = s.ecat.esc := by
  unfold State.quietWrite
  simp only [State.dset_esc, State.trigger_esc, State.keep_esc, applyQuota_esc, applyLaneRetrain_esc, applyRoute_esc, applyRouteDefaults_esc, applyPortEnable_esc, applyCtrlStart_esc, applyStoreAll_esc, applyRestore_esc, applyFence_esc, applyDebugWrite_esc, applyLayout_esc, apply_ite State.ecat, apply_ite EtherCat.esc, ite_self, implies_true]
  (repeat' (first | with_reducible rfl | split)) <;> (try with_reducible rfl) <;> simp only [State.dset_esc, State.trigger_esc, State.keep_esc, applyQuota_esc, applyLaneRetrain_esc, applyRoute_esc, applyRouteDefaults_esc, applyPortEnable_esc, applyCtrlStart_esc, applyStoreAll_esc, applyRestore_esc, applyFence_esc, applyDebugWrite_esc, applyLayout_esc, apply_ite State.ecat, apply_ite EtherCat.esc, ite_self, implies_true]

@[simp] theorem State.rowWrite_esc (s : State) (e : Entry) (b : Bytes) :
    (State.rowWrite s e b).ecat.esc = s.ecat.esc := by
  unfold State.rowWrite
  dsimp only
  split <;> simp [Out.state, apply_ite State.ecat, apply_ite EtherCat.esc, execRetrainRequest, execSuspendContext, execResumeContext, execSuspendPartition, execNodeCommit, execRouterReset, execFaultClear, execRaiseSecurityVersion, execRotateIdentity, execProvision, execProvisionScrap, execAttestNonce, execUnlockFull, execToField, execToReturned, execToScrapped, execRevoke, execUnlockObserve, execRelock, execDebugDataWrite, execActivateFirmware]

@[simp] theorem State.download_esc (s : State) (idx sub : Nat) (b : Bytes) :
    (State.download s idx sub b).ecat.esc = s.ecat.esc := by
  unfold State.download
  (repeat' (first | with_reducible rfl | split)) <;> simp only [State.abort_esc, State.answerWrite_esc, State.trigger_esc, State.quietWrite_esc, State.rowWrite_esc, apply_ite State.ecat, apply_ite EtherCat.esc, ite_self, implies_true]

@[simp] theorem State.writeAll_esc (s : State) (l : List (Entry × Bytes)) : (s.writeAll l).1.ecat.esc = s.ecat.esc := by
  unfold State.writeAll
  suffices h : ∀ acc : State × Nat × Nat, (l.foldl (fun acc x =>
      if acc.2.1 != 0 then acc else ((acc.1.quietWrite x.1 x.2).1, (acc.1.quietWrite x.1 x.2).2, x.1.sub)) acc).1.ecat.esc = acc.1.ecat.esc from
    h (s, 0, 0)
  induction l with
  | nil => intro acc; rfl
  | cons x l ih =>
    intro acc
    rw [List.foldl_cons, ih]
    split
    · rfl
    · exact State.quietWrite_esc _ _ _

@[simp] theorem State.downloadAll_esc (s : State) (idx sub : Nat) (b : Bytes) :
    (State.downloadAll s idx sub b).ecat.esc = s.ecat.esc := by
  unfold State.downloadAll
  simp only [State.abort_esc, State.answerWrite_esc, State.writeAll_esc, apply_ite State.ecat, apply_ite EtherCat.esc, ite_self, implies_true]
  (repeat' (first | with_reducible rfl | split)) <;> (try with_reducible rfl) <;> simp only [State.abort_esc, State.answerWrite_esc, State.writeAll_esc, apply_ite State.ecat, apply_ite EtherCat.esc, ite_self, implies_true]

@[simp] theorem State.downloadPdo_esc (s : State) (idx sub : Nat) (complete : Bool) (width : Nat) (l : List Nat) (b : Bytes) :
    (State.downloadPdo s idx sub complete width l b).ecat.esc = s.ecat.esc := by
  simp only [State.downloadPdo, State.abort_esc, State.complete_esc, State.writePdo_esc, apply_ite State.ecat, apply_ite EtherCat.esc, ite_self, implies_true]

@[simp] theorem State.uploadOne_esc (s : State) (idx sub : Nat) :
    (State.uploadOne s idx sub).ecat.esc = s.ecat.esc := by
  unfold State.uploadOne
  split
  · simp only [apply_ite State.ecat, apply_ite EtherCat.esc, State.upload_esc, State.abort_esc, ite_self]
  · dsimp only
    (repeat' (first | with_reducible rfl | split)) <;> (try simp only [State.upload_esc, State.abort_esc]) <;>
      simp [Out.state, execChallenge, execDebugDataRead, apply_ite State.ecat, apply_ite EtherCat.esc]

@[simp] theorem State.uploadAll_esc (s : State) (idx sub : Nat) :
    (State.uploadAll s idx sub).ecat.esc = s.ecat.esc := by
  unfold State.uploadAll
  simp only [State.abort_esc, State.upload_esc, apply_ite State.ecat, apply_ite EtherCat.esc, ite_self, implies_true]
  (repeat' (first | with_reducible rfl | split)) <;> (try with_reducible rfl) <;> simp only [State.abort_esc, State.upload_esc, apply_ite State.ecat, apply_ite EtherCat.esc, ite_self, implies_true]

/-! ### EtherCat -/

@[simp] theorem State.mailboxIn_esc (s : State) :
    (State.mailboxIn s).ecat.esc = s.ecat.esc := by
  simp only [State.mailboxIn, apply_ite State.ecat, apply_ite EtherCat.esc, ite_self, implies_true]

@[simp] theorem State.outputIn_esc (s : State) :
    (State.outputIn s).ecat.esc = s.ecat.esc := by
  simp only [State.outputIn, State.dset_esc, apply_ite State.ecat, apply_ite EtherCat.esc, ite_self, implies_true]

@[simp] theorem State.mailboxOut_esc (s : State) :
    (State.mailboxOut s).ecat.esc = s.ecat.esc := by
  unfold State.mailboxOut
  (repeat' (first | with_reducible rfl | split)) <;> simp only [State.flushEmergency_esc, apply_ite State.ecat, apply_ite EtherCat.esc, ite_self, implies_true]

@[simp] theorem State.escRead_esc (s : State) (a n : Nat) :
    (State.escRead s a n).ecat.esc = s.ecat.esc := by
  simp only [State.escRead, State.mailboxOut_esc, apply_ite State.ecat, apply_ite EtherCat.esc, ite_self, implies_true]

/-! ### Step -/

@[simp] theorem State.withFetchWord_esc (s : State) (nbits w : Nat) :
    (State.withFetchWord s nbits w).ecat.esc = s.ecat.esc := by
  rfl

/-! ### Commands -/

theorem execIntkText_esc (c idx : Nat) (s : State) (t : State) (h : execIntkText c idx s = .next t) :
    t.ecat.esc = s.ecat.esc := by
  unfold execIntkText at h
  cases h
  apply State.startMacro_esc
  intro go hgo s e f
  cases hgo <;> simp [apply_ite State.ecat, apply_ite EtherCat.esc]

theorem execIntkImage_esc (c idx : Nat) (s : State) (t : State) (h : execIntkImage c idx s = .next t) :
    t.ecat.esc = s.ecat.esc := by
  unfold execIntkImage at h
  cases h
  apply State.startMacro_esc
  intro go hgo s e f
  cases hgo <;> simp [apply_ite State.ecat, apply_ite EtherCat.esc]

theorem execIntkInstall_esc (c idx : Nat) (s : State) (t : State) (h : execIntkInstall c idx s = .next t) :
    t.ecat.esc = s.ecat.esc := by
  unfold execIntkInstall at h
  cases h
  apply State.startMacro_esc
  intro go hgo s e f
  cases hgo <;> simp [apply_ite State.ecat, apply_ite EtherCat.esc]

theorem execSampleTake_esc (pipe : Nat) (s : State) (t : State) (h : execSampleTake pipe s = .next t) :
    t.ecat.esc = s.ecat.esc := by
  unfold execSampleTake at h
  cases h
  simp only [State.takeSample_esc, apply_ite State.ecat, apply_ite EtherCat.esc, ite_self, implies_true]

theorem execSampleComplete_esc (pipe : Nat) (s : State) (t : State) (h : execSampleComplete pipe s = .next t) :
    t.ecat.esc = s.ecat.esc := by
  unfold execSampleComplete at h
  cases h
  (repeat' (first | with_reducible rfl | split)) <;> simp only [State.slotJudged_esc, State.takeSample_esc, apply_ite State.ecat, apply_ite EtherCat.esc, ite_self, implies_true]

theorem execSampleBudgetExpiry_esc (pipe : Nat) (s : State) (t : State) (h : execSampleBudgetExpiry pipe s = .next t) :
    t.ecat.esc = s.ecat.esc := by
  unfold execSampleBudgetExpiry at h
  cases h
  (repeat' (first | with_reducible rfl | split)) <;> simp only [State.bump_esc, State.slotDone_esc, State.takeSample_esc, apply_ite State.ecat, apply_ite EtherCat.esc, ite_self, implies_true]

theorem execDictReplace_esc (slot : Nat) (s : State) (t : State) (h : execDictReplace slot s = .next t) :
    t.ecat.esc = s.ecat.esc := by
  unfold execDictReplace at h
  cases h
  simp only [State.bump_esc, State.setFlight_esc, State.dropIntk_esc, apply_ite State.ecat, apply_ite EtherCat.esc, ite_self, implies_true]
  (repeat' (first | with_reducible rfl | split)) <;> (try with_reducible rfl) <;> simp only [State.bump_esc, State.setFlight_esc, State.dropIntk_esc, apply_ite State.ecat, apply_ite EtherCat.esc, ite_self, implies_true]

theorem execCodecOpenEncoder_esc (c idx : Nat) (s : State) (t : State) (h : execCodecOpenEncoder c idx s = .next t) :
    t.ecat.esc = s.ecat.esc := by
  unfold execCodecOpenEncoder at h
  cases h
  apply State.startMacro_esc
  intro go hgo s e f
  cases hgo <;> simp [apply_ite State.ecat, apply_ite EtherCat.esc]

theorem execCodecOpenDecoder_esc (c idx : Nat) (s : State) (t : State) (h : execCodecOpenDecoder c idx s = .next t) :
    t.ecat.esc = s.ecat.esc := by
  unfold execCodecOpenDecoder at h
  cases h
  apply State.startMacro_esc
  intro go hgo s e f
  cases hgo <;> simp [apply_ite State.ecat, apply_ite EtherCat.esc]

theorem execCodecEncode_esc (c idx : Nat) (s : State) (t : State) (h : execCodecEncode c idx s = .next t) :
    t.ecat.esc = s.ecat.esc := by
  unfold execCodecEncode at h
  cases h
  apply State.startMacro_esc
  intro go hgo s e f
  cases hgo <;> simp [apply_ite State.ecat, apply_ite EtherCat.esc]

theorem execCodecDecode_esc (c idx : Nat) (s : State) (t : State) (h : execCodecDecode c idx s = .next t) :
    t.ecat.esc = s.ecat.esc := by
  unfold execCodecDecode at h
  cases h
  apply State.startMacro_esc
  intro go hgo s e f
  cases hgo <;> simp [apply_ite State.ecat, apply_ite EtherCat.esc]

theorem execCodecClose_esc (c idx : Nat) (s : State) (t : State) (h : execCodecClose c idx s = .next t) :
    t.ecat.esc = s.ecat.esc := by
  unfold execCodecClose at h
  cases h
  apply State.startMacro_esc
  intro go hgo s e f
  cases hgo <;> simp [apply_ite State.ecat, apply_ite EtherCat.esc]

theorem execFrameTake_esc (pipe : Nat) (s : State) (t : State) (h : execFrameTake pipe s = .next t) :
    t.ecat.esc = s.ecat.esc := by
  unfold execFrameTake at h
  cases h
  simp only [State.takeFrame_esc, apply_ite State.ecat, apply_ite EtherCat.esc, ite_self, implies_true]

theorem execFrameComplete_esc (pipe : Nat) (s : State) (t : State) (h : execFrameComplete pipe s = .next t) :
    t.ecat.esc = s.ecat.esc := by
  unfold execFrameComplete at h
  cases h
  simp only [State.frameDone_esc, apply_ite State.ecat, apply_ite EtherCat.esc, ite_self, implies_true]

theorem execFrameBudgetExpiry_esc (pipe : Nat) (s : State) (t : State) (h : execFrameBudgetExpiry pipe s = .next t) :
    t.ecat.esc = s.ecat.esc := by
  unfold execFrameBudgetExpiry at h
  cases h
  simp only [State.frameDone_esc, apply_ite State.ecat, apply_ite EtherCat.esc, ite_self, implies_true]

theorem execNewTail_esc (c width value : Nat) (s : State) (t : State) (h : execNewTail c width value s = .next t) :
    t.ecat.esc = s.ecat.esc := by
  unfold execNewTail at h
  cases h
  simp only [State.bellIgnored_esc, State.bellFetch_esc, State.bellTail_esc, apply_ite State.ecat, apply_ite EtherCat.esc, ite_self, implies_true]

theorem execResume_esc (c value : Nat) (s : State) (t : State) (h : execResume c value s = .next t) :
    t.ecat.esc = s.ecat.esc := by
  unfold execResume at h
  cases h
  simp only [State.finishJob_esc, State.bellFetch_esc, State.bellResume_esc, apply_ite State.ecat, apply_ite EtherCat.esc, ite_self, implies_true]

theorem execMma_esc (c idx : Nat) (s : State) (t : State) (h : execMma c idx s = .next t) :
    t.ecat.esc = s.ecat.esc := by
  unfold execMma at h
  cases h
  apply State.startMacro_esc
  intro go hgo s e f
  cases hgo <;> simp [apply_ite State.ecat, apply_ite EtherCat.esc]

theorem execMmas_esc (c idx : Nat) (s : State) (t : State) (h : execMmas c idx s = .next t) :
    t.ecat.esc = s.ecat.esc := by
  unfold execMmas at h
  cases h
  apply State.startMacro_esc
  intro go hgo s e f
  cases hgo <;> simp [apply_ite State.ecat, apply_ite EtherCat.esc]

theorem execConv_esc (c idx : Nat) (s : State) (t : State) (h : execConv c idx s = .next t) :
    t.ecat.esc = s.ecat.esc := by
  unfold execConv at h
  cases h
  apply State.startMacro_esc
  intro go hgo s e f
  cases hgo <;> simp [apply_ite State.ecat, apply_ite EtherCat.esc]

theorem execPool_esc (c idx : Nat) (s : State) (t : State) (h : execPool c idx s = .next t) :
    t.ecat.esc = s.ecat.esc := by
  unfold execPool at h
  cases h
  apply State.startMacro_esc
  intro go hgo s e f
  cases hgo <;> simp [apply_ite State.ecat, apply_ite EtherCat.esc]

theorem execAttf_esc (c idx : Nat) (s : State) (t : State) (h : execAttf c idx s = .next t) :
    t.ecat.esc = s.ecat.esc := by
  unfold execAttf at h
  cases h
  apply State.startMacro_esc
  intro go hgo s e f
  cases hgo <;> simp [apply_ite State.ecat, apply_ite EtherCat.esc]

theorem execAttb_esc (c idx : Nat) (s : State) (t : State) (h : execAttb c idx s = .next t) :
    t.ecat.esc = s.ecat.esc := by
  unfold execAttb at h
  cases h
  apply State.startMacro_esc
  intro go hgo s e f
  cases hgo <;> simp [apply_ite State.ecat, apply_ite EtherCat.esc]

theorem execLatx_esc (c idx : Nat) (s : State) (t : State) (h : execLatx c idx s = .next t) :
    t.ecat.esc = s.ecat.esc := by
  unfold execLatx at h
  cases h
  apply State.startMacro_esc
  intro go hgo s e f
  cases hgo <;> simp [apply_ite State.ecat, apply_ite EtherCat.esc]

theorem execKvap_esc (c idx : Nat) (s : State) (t : State) (h : execKvap c idx s = .next t) :
    t.ecat.esc = s.ecat.esc := by
  unfold execKvap at h
  cases h
  apply State.startMacro_esc
  intro go hgo s e f
  cases hgo <;> simp [apply_ite State.ecat, apply_ite EtherCat.esc]

theorem execSfn_esc (c idx : Nat) (s : State) (t : State) (h : execSfn c idx s = .next t) :
    t.ecat.esc = s.ecat.esc := by
  unfold execSfn at h
  cases h
  apply State.startMacro_esc
  intro go hgo s e f
  cases hgo <;> simp [apply_ite State.ecat, apply_ite EtherCat.esc]

theorem execNorm_esc (c idx : Nat) (s : State) (t : State) (h : execNorm c idx s = .next t) :
    t.ecat.esc = s.ecat.esc := by
  unfold execNorm at h
  cases h
  apply State.startMacro_esc
  intro go hgo s e f
  cases hgo <;> simp [apply_ite State.ecat, apply_ite EtherCat.esc]

theorem execSmax_esc (c idx : Nat) (s : State) (t : State) (h : execSmax c idx s = .next t) :
    t.ecat.esc = s.ecat.esc := by
  unfold execSmax at h
  cases h
  apply State.startMacro_esc
  intro go hgo s e f
  cases hgo <;> simp [apply_ite State.ecat, apply_ite EtherCat.esc]

theorem execSamp_esc (c idx : Nat) (s : State) (t : State) (h : execSamp c idx s = .next t) :
    t.ecat.esc = s.ecat.esc := by
  unfold execSamp at h
  cases h
  apply State.startMacro_esc
  intro go hgo s e f
  cases hgo <;> simp [apply_ite State.ecat, apply_ite EtherCat.esc]

theorem execRand_esc (c idx : Nat) (s : State) (t : State) (h : execRand c idx s = .next t) :
    t.ecat.esc = s.ecat.esc := by
  unfold execRand at h
  cases h
  apply State.startMacro_esc
  intro go hgo s e f
  cases hgo <;> simp [apply_ite State.ecat, apply_ite EtherCat.esc]

theorem execQnt_esc (c idx : Nat) (s : State) (t : State) (h : execQnt c idx s = .next t) :
    t.ecat.esc = s.ecat.esc := by
  unfold execQnt at h
  cases h
  apply State.startMacro_esc
  intro go hgo s e f
  cases hgo <;> simp [apply_ite State.ecat, apply_ite EtherCat.esc]

theorem execRoute_esc (c idx : Nat) (s : State) (t : State) (h : execRoute c idx s = .next t) :
    t.ecat.esc = s.ecat.esc := by
  unfold execRoute at h
  cases h
  apply State.startMacro_esc
  intro go hgo s e f
  cases hgo <;> simp [apply_ite State.ecat, apply_ite EtherCat.esc]

theorem execGath_esc (c idx : Nat) (s : State) (t : State) (h : execGath c idx s = .next t) :
    t.ecat.esc = s.ecat.esc := by
  unfold execGath at h
  cases h
  apply State.startMacro_esc
  intro go hgo s e f
  cases hgo <;> simp [apply_ite State.ecat, apply_ite EtherCat.esc]

theorem execScat_esc (c idx : Nat) (s : State) (t : State) (h : execScat c idx s = .next t) :
    t.ecat.esc = s.ecat.esc := by
  unfold execScat at h
  cases h
  apply State.startMacro_esc
  intro go hgo s e f
  cases hgo <;> simp [apply_ite State.ecat, apply_ite EtherCat.esc]

theorem execCopy_esc (c idx : Nat) (s : State) (t : State) (h : execCopy c idx s = .next t) :
    t.ecat.esc = s.ecat.esc := by
  unfold execCopy at h
  cases h
  apply State.startMacro_esc
  intro go hgo s e f
  cases hgo <;> simp [apply_ite State.ecat, apply_ite EtherCat.esc]

theorem execStill_esc (c idx : Nat) (s : State) (t : State) (h : execStill c idx s = .next t) :
    t.ecat.esc = s.ecat.esc := by
  unfold execStill at h
  cases h
  apply State.startMacro_esc
  intro go hgo s e f
  cases hgo <;> simp [apply_ite State.ecat, apply_ite EtherCat.esc]

theorem execArgmx_esc (c idx : Nat) (s : State) (t : State) (h : execArgmx c idx s = .next t) :
    t.ecat.esc = s.ecat.esc := by
  unfold execArgmx at h
  cases h
  apply State.startMacro_esc
  intro go hgo s e f
  cases hgo <;> simp [apply_ite State.ecat, apply_ite EtherCat.esc]

theorem execWait_esc (c idx : Nat) (s : State) (t : State) (h : execWait c idx s = .next t) :
    t.ecat.esc = s.ecat.esc := by
  unfold execWait at h
  cases h
  apply State.startMacro_esc
  intro go hgo s e f
  cases hgo <;> simp [apply_ite State.ecat, apply_ite EtherCat.esc]

theorem execSignal_esc (c idx : Nat) (s : State) (t : State) (h : execSignal c idx s = .next t) :
    t.ecat.esc = s.ecat.esc := by
  unfold execSignal at h
  cases h
  apply State.startMacro_esc
  intro go hgo s e f
  cases hgo <;> simp [apply_ite State.ecat, apply_ite EtherCat.esc]

theorem execFence_esc (c idx : Nat) (s : State) (t : State) (h : execFence c idx s = .next t) :
    t.ecat.esc = s.ecat.esc := by
  unfold execFence at h
  cases h
  apply State.startMacro_esc
  intro go hgo s e f
  cases hgo <;> simp [apply_ite State.ecat, apply_ite EtherCat.esc]

theorem execNop_esc (c idx : Nat) (s : State) (t : State) (h : execNop c idx s = .next t) :
    t.ecat.esc = s.ecat.esc := by
  unfold execNop at h
  cases h
  apply State.startMacro_esc
  intro go hgo s e f
  cases hgo <;> simp [apply_ite State.ecat, apply_ite EtherCat.esc]

theorem execInstructionComplete_esc (c idx : Nat) (s : State) (t : State) (h : execInstructionComplete c idx s = .next t) :
    t.ecat.esc = s.ecat.esc := by
  unfold execInstructionComplete at h
  cases h
  simp only [State.complete_esc, apply_ite State.ecat, apply_ite EtherCat.esc, ite_self, implies_true]

theorem execWaitSatisfied_esc (c idx : Nat) (s : State) (t : State) (h : execWaitSatisfied c idx s = .next t) :
    t.ecat.esc = s.ecat.esc := by
  unfold execWaitSatisfied at h
  cases h
  (repeat' (first | with_reducible rfl | split)) <;> simp only [State.endWait_esc, apply_ite State.ecat, apply_ite EtherCat.esc, ite_self, implies_true]

theorem execWaitTimeout_esc (c idx : Nat) (s : State) (t : State) (h : execWaitTimeout c idx s = .next t) :
    t.ecat.esc = s.ecat.esc := by
  unfold execWaitTimeout at h
  cases h
  (repeat' (first | with_reducible rfl | split)) <;> simp only [State.bump_esc, State.setFlight_esc, State.complete_esc, State.endWait_esc, apply_ite State.ecat, apply_ite EtherCat.esc, ite_self, implies_true]

theorem execTaskTake_esc (cell which : Nat) (s : State) (t : State) (h : execTaskTake cell which s = .next t) :
    t.ecat.esc = s.ecat.esc := by
  unfold execTaskTake at h
  cases h
  (repeat' (first | with_reducible rfl | split)) <;> simp only [State.drew_esc, State.setCtx_esc, State.serveTasks_esc, apply_ite State.ecat, apply_ite EtherCat.esc, ite_self, implies_true]

theorem execChainHopTimeout_esc (c idx cell : Nat) (fwd : Bool) (s : State) (t : State) (h : execChainHopTimeout c idx cell fwd s = .next t) :
    t.ecat.esc = s.ecat.esc := by
  unfold execChainHopTimeout at h
  cases h
  (repeat' (first | with_reducible rfl | split)) <;> simp only [State.bump_esc, State.drew_esc, apply_ite State.ecat, apply_ite EtherCat.esc, ite_self, implies_true]

theorem execHistoryFetchArrival_esc (c idx block : Nat) (ok : Bool) (data : Bytes) (s : State) (t : State) (h : execHistoryFetchArrival c idx block ok data s = .next t) :
    t.ecat.esc = s.ecat.esc := by
  unfold execHistoryFetchArrival at h
  cases h
  simp only [State.historyArrival_esc, apply_ite State.ecat, apply_ite EtherCat.esc, ite_self, implies_true]

theorem execHistoryDeadline_esc (c idx block : Nat) (s : State) (t : State) (h : execHistoryDeadline c idx block s = .next t) :
    t.ecat.esc = s.ecat.esc := by
  unfold execHistoryDeadline at h
  cases h
  simp only [State.historyLate_esc, apply_ite State.ecat, apply_ite EtherCat.esc, ite_self, implies_true]

theorem execReseed_esc (cell : Nat) (s : State) (t : State) (h : execReseed cell s = .next t) :
    t.ecat.esc = s.ecat.esc := by
  unfold execReseed at h
  cases h
  simp only [State.reseedCell_esc, apply_ite State.ecat, apply_ite EtherCat.esc, ite_self, implies_true]

theorem execScrub_esc (channel corrected : Nat) (bad : List Nat) (s : State) (t : State) (h : execScrub channel corrected bad s = .next t) :
    t.ecat.esc = s.ecat.esc := by
  unfold execScrub at h
  cases h
  simp only [State.bump_esc, State.log_esc, State.raise_esc, State.badReads_esc, foldl_esc, apply_ite State.ecat, apply_ite EtherCat.esc, ite_self, implies_true]

theorem execWcbAgeRetire_esc (channel : Nat) (s : State) (t : State) (h : execWcbAgeRetire channel s = .next t) :
    t.ecat.esc = s.ecat.esc := by
  unfold execWcbAgeRetire at h
  cases h
  (repeat' (first | with_reducible rfl | split)) <;> simp only [State.retireWcb_esc, apply_ite State.ecat, apply_ite EtherCat.esc, ite_self, implies_true]

theorem execUnmappedAccess_esc (addr : Nat) (write : Bool) (s : State) (t : State) (h : execUnmappedAccess addr write s = .next t) :
    t.ecat.esc = s.ecat.esc := by
  unfold execUnmappedAccess at h
  cases h
  simp only [State.bump_esc, apply_ite State.ecat, apply_ite EtherCat.esc, ite_self, implies_true]

theorem execRemoteAccess_esc (r : RemoteReq) (s : State) (t : State) (h : execRemoteAccess r s = .next t) :
    t.ecat.esc = s.ecat.esc := by
  unfold execRemoteAccess at h
  cases h
  (repeat' (first | with_reducible rfl | split)) <;> simp only [State.writeBytes_esc, State.respond_esc, State.refuse_esc, State.readRuns_esc, State.sawPoison_esc, State.dropObj_esc, State.refuseRequest_esc, apply_ite State.ecat, apply_ite EtherCat.esc, ite_self, implies_true]

theorem execRemoteSignal_esc (src postmark addr op operand : Nat) (s : State) (t : State) (h : execRemoteSignal src postmark addr op operand s = .next t) :
    t.ecat.esc = s.ecat.esc := by
  unfold execRemoteSignal at h
  cases h
  simp only [State.respond_esc, State.refuse_esc, State.semApply_esc, State.refuseRequest_esc, apply_ite State.ecat, apply_ite EtherCat.esc, ite_self, implies_true]

theorem execRemoteAlloc_esc (src postmark : Nat) (record : Bytes) (s : State) (t : State) (h : execRemoteAlloc src postmark record s = .next t) :
    t.ecat.esc = s.ecat.esc := by
  unfold execRemoteAlloc at h
  cases h
  simp only [State.respond_esc, State.refuse_esc, State.allocHere_esc, State.refuseRequest_esc, apply_ite State.ecat, apply_ite EtherCat.esc, ite_self, implies_true]
  (repeat' (first | with_reducible rfl | split)) <;> (try with_reducible rfl) <;> simp only [State.respond_esc, State.refuse_esc, State.allocHere_esc, State.refuseRequest_esc, apply_ite State.ecat, apply_ite EtherCat.esc, ite_self, implies_true]

theorem execGranuleZeroing_esc (granule : Nat) (s : State) (t : State) (h : execGranuleZeroing granule s = .next t) :
    t.ecat.esc = s.ecat.esc := by
  unfold execGranuleZeroing at h
  cases h
  simp only [State.clearRun_esc, apply_ite State.ecat, apply_ite EtherCat.esc, ite_self, implies_true]

theorem execChannelTrainingDone_esc (channel : Nat) (s : State) (t : State) (h : execChannelTrainingDone channel s = .next t) :
    t.ecat.esc = s.ecat.esc := by
  unfold execChannelTrainingDone at h
  cases h
  simp only [State.endSession_esc, State.trained_esc, apply_ite State.ecat, apply_ite EtherCat.esc, ite_self, implies_true]

theorem execRetrainTimeout_esc (channel : Nat) (s : State) (t : State) (h : execRetrainTimeout channel s = .next t) :
    t.ecat.esc = s.ecat.esc := by
  unfold execRetrainTimeout at h
  cases h
  simp only [State.bump_esc, State.setChan_esc, State.raise_esc, State.markChannel_esc, State.endSession_esc, apply_ite State.ecat, apply_ite EtherCat.esc, ite_self, implies_true]

theorem execRetrainDue_esc (channel : Nat) (s : State) (t : State) (h : execRetrainDue channel s = .next t) :
    t.ecat.esc = s.ecat.esc := by
  unfold execRetrainDue at h
  cases h
  simp only [State.dueSession_esc, apply_ite State.ecat, apply_ite EtherCat.esc, ite_self, implies_true]

theorem execRetrainRequest_esc (value : Nat) (s : State) (t : State) (h : execRetrainRequest value s = .next t) :
    t.ecat.esc = s.ecat.esc := by
  unfold execRetrainRequest at h
  cases h
  simp only [State.trigger_esc, applyRetrain_esc, apply_ite State.ecat, apply_ite EtherCat.esc, ite_self, implies_true]

theorem execRemoteAck_esc (req : Nat) (s : State) (t : State) (h : execRemoteAck req s = .next t) :
    t.ecat.esc = s.ecat.esc := by
  unfold execRemoteAck at h
  cases h
  (repeat' (first | with_reducible rfl | split)) <;> simp only [State.acked_esc, apply_ite State.ecat, apply_ite EtherCat.esc, ite_self, implies_true]

theorem execRemoteAckTimeout_esc (req : Nat) (s : State) (t : State) (h : execRemoteAckTimeout req s = .next t) :
    t.ecat.esc = s.ecat.esc := by
  unfold execRemoteAckTimeout at h
  cases h
  (repeat' (first | with_reducible rfl | split)) <;> simp only [State.writeBack_esc, State.failReq_esc, apply_ite State.ecat, apply_ite EtherCat.esc, ite_self, implies_true]

theorem execRefuseReceive_esc (req code : Nat) (s : State) (t : State) (h : execRefuseReceive req code s = .next t) :
    t.ecat.esc = s.ecat.esc := by
  unfold execRefuseReceive at h
  cases h
  (repeat' (first | with_reducible rfl | split)) <;> simp only [State.failReq_esc, apply_ite State.ecat, apply_ite EtherCat.esc, ite_self, implies_true]

theorem execWriteBackTimeout_esc (req : Nat) (s : State) (t : State) (h : execWriteBackTimeout req s = .next t) :
    t.ecat.esc = s.ecat.esc := by
  unfold execWriteBackTimeout at h
  cases h
  (repeat' (first | with_reducible rfl | split)) <;> simp only [State.bump_esc, State.writeBack_esc, State.failReq_esc, apply_ite State.ecat, apply_ite EtherCat.esc, ite_self, implies_true]

theorem execResponseReceive_esc (req postmark : Nat) (poisoned : List Nat) (data : Bytes) (s : State) (t : State) (h : execResponseReceive req postmark poisoned data s = .next t) :
    t.ecat.esc = s.ecat.esc := by
  unfold execResponseReceive at h
  cases h
  (repeat' (first | with_reducible rfl | split)) <;> simp only [State.bump_esc, State.answered_esc, apply_ite State.ecat, apply_ite EtherCat.esc, ite_self, implies_true]

theorem execSlotGrant_esc (s : State) (t : State) (h : execSlotGrant s = .next t) :
    t.ecat.esc = s.ecat.esc := by
  unfold execSlotGrant at h
  cases h
  simp only [State.grantSlot_esc, apply_ite State.ecat, apply_ite EtherCat.esc, ite_self, implies_true]

theorem execPreemptWaitExpiry_esc (cell ctx idx task : Nat) (s : State) (t : State) (h : execPreemptWaitExpiry cell ctx idx task s = .next t) :
    t.ecat.esc = s.ecat.esc := by
  unfold execPreemptWaitExpiry at h
  cases h
  (repeat' (first | with_reducible rfl | split)) <;> simp [apply_ite State.ecat, apply_ite EtherCat.esc]

theorem execSuspendContext_esc (value : Nat) (s : State) (t : State) (h : execSuspendContext value s = .next t) :
    t.ecat.esc = s.ecat.esc := by
  unfold execSuspendContext at h
  cases h
  simp only [State.trigger_esc, State.suspendReq_esc, apply_ite State.ecat, apply_ite EtherCat.esc, ite_self, implies_true]

theorem execSuspendPartition_esc (value : Nat) (s : State) (t : State) (h : execSuspendPartition value s = .next t) :
    t.ecat.esc = s.ecat.esc := by
  unfold execSuspendPartition at h
  cases h
  simp only [State.trigger_esc, State.suspendPart_esc, apply_ite State.ecat, apply_ite EtherCat.esc, ite_self, implies_true]

theorem execResumeContext_esc (value : Nat) (s : State) (t : State) (h : execResumeContext value s = .next t) :
    t.ecat.esc = s.ecat.esc := by
  unfold execResumeContext at h
  cases h
  simp only [State.trigger_esc, State.resumeReq_esc, apply_ite State.ecat, apply_ite EtherCat.esc, ite_self, implies_true]

theorem execSaveComplete_esc (c : Nat) (s : State) (t : State) (h : execSaveComplete c s = .next t) :
    t.ecat.esc = s.ecat.esc := by
  unfold execSaveComplete at h
  cases h
  simp only [State.saveDone_esc, apply_ite State.ecat, apply_ite EtherCat.esc, ite_self, implies_true]

theorem execRestore_esc (c : Nat) (s : State) (t : State) (h : execRestore c s = .next t) :
    t.ecat.esc = s.ecat.esc := by
  unfold execRestore at h
  cases h
  simp only [State.restoreCtx_esc, apply_ite State.ecat, apply_ite EtherCat.esc, ite_self, implies_true]

theorem execQuotaCommit_esc (value : Nat) (s : State) (t : State) (h : execQuotaCommit value s = .next t) :
    t.ecat.esc = s.ecat.esc := by
  unfold execQuotaCommit at h
  cases h
  simp only [State.trigger_esc, applyQuota_esc, apply_ite State.ecat, apply_ite EtherCat.esc, ite_self, implies_true]

theorem execSubmit_esc (d : Dgram) (s : State) (t : State) (h : execSubmit d s = .next t) :
    t.ecat.esc = s.ecat.esc := by
  unfold execSubmit at h
  cases h
  simp only [State.courier_esc, State.submitJob_esc, apply_ite State.ecat, apply_ite EtherCat.esc, ite_self, implies_true]

theorem execImportJob_esc (d : Dgram) (s : State) (t : State) (h : execImportJob d s = .next t) :
    t.ecat.esc = s.ecat.esc := by
  unfold execImportJob at h
  cases h
  simp only [State.courier_esc, State.importCtx_esc, apply_ite State.ecat, apply_ite EtherCat.esc, ite_self, implies_true]

theorem execInvalidDatagram_esc (d : Dgram) (s : State) (t : State) (h : execInvalidDatagram d s = .next t) :
    t.ecat.esc = s.ecat.esc := by
  unfold execInvalidDatagram at h
  cases h
  simp only [State.bump_esc, apply_ite State.ecat, apply_ite EtherCat.esc, ite_self, implies_true]

theorem execOpenSession_esc (d : Dgram) (s : State) (t : State) (h : execOpenSession d s = .next t) :
    t.ecat.esc = s.ecat.esc := by
  unfold execOpenSession at h
  cases h
  simp only [State.courier_esc, State.openFor_esc, apply_ite State.ecat, apply_ite EtherCat.esc, ite_self, implies_true]

theorem execCloseSession_esc (d : Dgram) (s : State) (t : State) (h : execCloseSession d s = .next t) :
    t.ecat.esc = s.ecat.esc := by
  unfold execCloseSession at h
  cases h
  simp only [State.setSession_esc, State.endClosing_esc, State.sendAck_esc, State.courier_esc, apply_ite State.ecat, apply_ite EtherCat.esc, ite_self, implies_true]

theorem execAck_esc (d : Dgram) (s : State) (t : State) (h : execAck d s = .next t) :
    t.ecat.esc = s.ecat.esc := by
  unfold execAck at h
  cases h
  simp only [State.courier_esc, apply_ite State.ecat, apply_ite EtherCat.esc, ite_self, implies_true]

theorem execRetransmitTimeout_esc (session : Nat) (s : State) (t : State) (h : execRetransmitTimeout session s = .next t) :
    t.ecat.esc = s.ecat.esc := by
  unfold execRetransmitTimeout at h
  cases h
  simp only [State.resend_esc, apply_ite State.ecat, apply_ite EtherCat.esc, ite_self, implies_true]

theorem execAckTimer_esc (session : Nat) (s : State) (t : State) (h : execAckTimer session s = .next t) :
    t.ecat.esc = s.ecat.esc := by
  unfold execAckTimer at h
  cases h
  (repeat' (first | with_reducible rfl | split)) <;> simp only [State.sendAck_esc, apply_ite State.ecat, apply_ite EtherCat.esc, ite_self, implies_true]

theorem execPortLinkLoss_esc (port : Nat) (s : State) (t : State) (h : execPortLinkLoss port s = .next t) :
    t.ecat.esc = s.ecat.esc := by
  unfold execPortLinkLoss at h
  cases h
  rfl

theorem execDataPortLinkUp_esc (port : Nat) (s : State) (t : State) (h : execDataPortLinkUp port s = .next t) :
    t.ecat.esc = s.ecat.esc := by
  unfold execDataPortLinkUp at h
  cases h
  simp only [apply_ite State.ecat, apply_ite EtherCat.esc, ite_self, implies_true]

theorem execAlloc_esc (d : Dgram) (s : State) (t : State) (h : execAlloc d s = .next t) :
    t.ecat.esc = s.ecat.esc := by
  unfold execAlloc at h
  cases h
  simp only [State.allocate_esc, State.courier_esc, apply_ite State.ecat, apply_ite EtherCat.esc, ite_self, implies_true]

theorem execFree_esc (d : Dgram) (s : State) (t : State) (h : execFree d s = .next t) :
    t.ecat.esc = s.ecat.esc := by
  unfold execFree at h
  cases h
  simp only [State.freeObj_esc, State.courier_esc, apply_ite State.ecat, apply_ite EtherCat.esc, ite_self, implies_true]

theorem execWrite_esc (d : Dgram) (s : State) (t : State) (h : execWrite d s = .next t) :
    t.ecat.esc = s.ecat.esc := by
  unfold execWrite at h
  cases h
  simp only [State.writeBytes_esc, State.reply_esc, State.courier_esc, apply_ite State.ecat, apply_ite EtherCat.esc, ite_self, implies_true]

theorem execRead_esc (d : Dgram) (s : State) (t : State) (h : execRead d s = .next t) :
    t.ecat.esc = s.ecat.esc := by
  unfold execRead at h
  cases h
  simp only [State.courier_esc, State.readFor_esc, apply_ite State.ecat, apply_ite EtherCat.esc, ite_self, implies_true]

theorem execControlDoorbell_esc (d : Dgram) (s : State) (t : State) (h : execControlDoorbell d s = .next t) :
    t.ecat.esc = s.ecat.esc := by
  unfold execControlDoorbell at h
  cases h
  simp only [State.setJob_esc, State.finishJob_esc, State.bellFetch_esc, State.bellTail_esc, State.bellResume_esc, State.control_esc, apply_ite State.ecat, apply_ite EtherCat.esc, ite_self, implies_true]

theorem execControlSuspend_esc (d : Dgram) (s : State) (t : State) (h : execControlSuspend d s = .next t) :
    t.ecat.esc = s.ecat.esc := by
  unfold execControlSuspend at h
  cases h
  simp only [State.suspendReq_esc, State.control_esc, controlled_esc, apply_ite State.ecat, apply_ite EtherCat.esc, ite_self, implies_true]

theorem execControlResume_esc (d : Dgram) (s : State) (t : State) (h : execControlResume d s = .next t) :
    t.ecat.esc = s.ecat.esc := by
  unfold execControlResume at h
  cases h
  simp only [State.resumeReq_esc, State.control_esc, controlled_esc, apply_ite State.ecat, apply_ite EtherCat.esc, ite_self, implies_true]

theorem execControlCancel_esc (d : Dgram) (s : State) (t : State) (h : execControlCancel d s = .next t) :
    t.ecat.esc = s.ecat.esc := by
  unfold execControlCancel at h
  cases h
  simp only [State.abortCtx_esc, State.control_esc, apply_ite State.ecat, apply_ite EtherCat.esc, ite_self, implies_true]

theorem execControlExport_esc (d : Dgram) (s : State) (t : State) (h : execControlExport d s = .next t) :
    t.ecat.esc = s.ecat.esc := by
  unfold execControlExport at h
  cases h
  simp only [State.control_esc, State.exportReq_esc, apply_ite State.ecat, apply_ite EtherCat.esc, ite_self, implies_true]

theorem execControlRebind_esc (d : Dgram) (s : State) (t : State) (h : execControlRebind d s = .next t) :
    t.ecat.esc = s.ecat.esc := by
  unfold execControlRebind at h
  cases h
  simp only [State.control_esc, State.rebind_esc, apply_ite State.ecat, apply_ite EtherCat.esc, ite_self, implies_true]

theorem execControlQuery_esc (d : Dgram) (s : State) (t : State) (h : execControlQuery d s = .next t) :
    t.ecat.esc = s.ecat.esc := by
  unfold execControlQuery at h
  cases h
  simp only [State.progress_esc, State.control_esc, apply_ite State.ecat, apply_ite EtherCat.esc, ite_self, implies_true]

theorem execResultRequest_esc (r : ResultReq) (s : State) (t : State) (h : execResultRequest r s = .next t) :
    t.ecat.esc = s.ecat.esc := by
  unfold execResultRequest at h
  cases h
  simp only [State.refuse_esc, State.holdResult_esc, State.refuseRequest_esc, apply_ite State.ecat, apply_ite EtherCat.esc, ite_self, implies_true]

theorem execResultHoldExpiry_esc (result : Nat) (s : State) (t : State) (h : execResultHoldExpiry result s = .next t) :
    t.ecat.esc = s.ecat.esc := by
  unfold execResultHoldExpiry at h
  cases h
  (repeat' (first | with_reducible rfl | split)) <;> simp only [State.failDelivery_esc, apply_ite State.ecat, apply_ite EtherCat.esc, ite_self, implies_true]

theorem execHaltLimitExpiry_esc (c : Nat) (s : State) (t : State) (h : execHaltLimitExpiry c s = .next t) :
    t.ecat.esc = s.ecat.esc := by
  unfold execHaltLimitExpiry at h
  cases h
  (repeat' (first | with_reducible rfl | split)) <;> simp [apply_ite State.ecat, apply_ite EtherCat.esc]

theorem execArpRequest_esc (port target senderIp senderMac : Nat) (s : State) (t : State) (h : execArpRequest port target senderIp senderMac s = .next t) :
    t.ecat.esc = s.ecat.esc := by
  unfold execArpRequest at h
  cases h
  simp only [State.putRaw_esc, apply_ite State.ecat, apply_ite EtherCat.esc, ite_self, implies_true]

theorem execNeighbourSolicitation_esc (port target senderIp senderMac : Nat) (s : State) (t : State) (h : execNeighbourSolicitation port target senderIp senderMac s = .next t) :
    t.ecat.esc = s.ecat.esc := by
  unfold execNeighbourSolicitation at h
  cases h
  simp only [State.putRaw_esc, apply_ite State.ecat, apply_ite EtherCat.esc, ite_self, implies_true]

theorem execEchoRequest_esc (port : Nat) (v6 : Bool) (dst src : Nat) (payload : Bytes) (s : State) (t : State) (h : execEchoRequest port v6 dst src payload s = .next t) :
    t.ecat.esc = s.ecat.esc := by
  unfold execEchoRequest at h
  cases h
  simp only [State.putRaw_esc, apply_ite State.ecat, apply_ite EtherCat.esc, ite_self, implies_true]

theorem execFlitTransmit_esc (port : Nat) (s : State) (t : State) (h : execFlitTransmit port s = .next t) :
    t.ecat.esc = s.ecat.esc := by
  unfold execFlitTransmit at h
  cases h
  simp only [State.transmit_esc, apply_ite State.ecat, apply_ite EtherCat.esc, ite_self, implies_true]

theorem execFlitReceive_esc (port : Nat) (fecOk : Bool) (bytes : Bytes) (s : State) (t : State) (h : execFlitReceive port fecOk bytes s = .next t) :
    t.ecat.esc = s.ecat.esc := by
  unfold execFlitReceive at h
  cases h
  simp only [State.bump_esc, State.oweNak_esc, State.gotFlit_esc, apply_ite State.ecat, apply_ite EtherCat.esc, ite_self, implies_true]

theorem execNakReceive_esc (port ackSeq : Nat) (s : State) (t : State) (h : execNakReceive port ackSeq s = .next t) :
    t.ecat.esc = s.ecat.esc := by
  unfold execNakReceive at h
  cases h
  simp only [State.takeAckSeq_esc, State.replayPort_esc, apply_ite State.ecat, apply_ite EtherCat.esc, ite_self, implies_true]

theorem execReplayTimeout_esc (port : Nat) (s : State) (t : State) (h : execReplayTimeout port s = .next t) :
    t.ecat.esc = s.ecat.esc := by
  unfold execReplayTimeout at h
  cases h
  simp only [State.replayPort_esc, apply_ite State.ecat, apply_ite EtherCat.esc, ite_self, implies_true]

theorem execSignalDetect_esc (port lanes : Nat) (s : State) (t : State) (h : execSignalDetect port lanes s = .next t) :
    t.ecat.esc = s.ecat.esc := by
  unfold execSignalDetect at h
  cases h
  simp only [State.setPort_esc, State.clearLanes_esc, apply_ite State.ecat, apply_ite EtherCat.esc, ite_self, implies_true]

theorem execPortAligned_esc (port lanes : Nat) (s : State) (t : State) (h : execPortAligned port lanes s = .next t) :
    t.ecat.esc = s.ecat.esc := by
  unfold execPortAligned at h
  cases h
  simp only [State.watch_esc, State.setPort_esc, State.removeLane_esc, foldl_esc, apply_ite State.ecat, apply_ite EtherCat.esc, ite_self, implies_true]

theorem execBringUpTimeout_esc (port : Nat) (s : State) (t : State) (h : execBringUpTimeout port s = .next t) :
    t.ecat.esc = s.ecat.esc := by
  unfold execBringUpTimeout at h
  cases h
  simp only [State.watch_esc, State.setPort_esc, apply_ite State.ecat, apply_ite EtherCat.esc, ite_self, implies_true]

theorem execHelloReceive_esc (port : Nat) (h : Hello) (s : State) (t : State) (h : execHelloReceive port h s = .next t) :
    t.ecat.esc = s.ecat.esc := by
  unfold execHelloReceive at h
  cases h
  simp only [State.setPort_esc, State.takeAckSeq_esc, State.portFall_esc, State.checkPort_esc, State.nextLane_esc, State.meetSeq_esc, apply_ite State.ecat, apply_ite EtherCat.esc, ite_self, implies_true]

theorem execHelloTimer_esc (port : Nat) (s : State) (t : State) (h : execHelloTimer port s = .next t) :
    t.ecat.esc = s.ecat.esc := by
  unfold execHelloTimer at h
  cases h
  simp only [State.setPort_esc, apply_ite State.ecat, apply_ite EtherCat.esc, ite_self, implies_true]

theorem execHelloTimeout_esc (port : Nat) (s : State) (t : State) (h : execHelloTimeout port s = .next t) :
    t.ecat.esc = s.ecat.esc := by
  unfold execHelloTimeout at h
  cases h
  simp only [State.portFall_esc, apply_ite State.ecat, apply_ite EtherCat.esc, ite_self, implies_true]

theorem execPortDownLimit_esc (port : Nat) (s : State) (t : State) (h : execPortDownLimit port s = .next t) :
    t.ecat.esc = s.ecat.esc := by
  unfold execPortDownLimit at h
  cases h
  simp only [State.setPort_esc, State.discard_esc, apply_ite State.ecat, apply_ite EtherCat.esc, ite_self, implies_true]

theorem execLaneFault_esc (port lane _cause : Nat) (s : State) (t : State) (h : execLaneFault port lane _cause s = .next t) :
    t.ecat.esc = s.ecat.esc := by
  unfold execLaneFault at h
  cases h
  simp only [State.laneLost_esc, apply_ite State.ecat, apply_ite EtherCat.esc, ite_self, implies_true]

theorem execLaneRetrainDue_esc (port lane : Nat) (s : State) (t : State) (h : execLaneRetrainDue port lane s = .next t) :
    t.ecat.esc = s.ecat.esc := by
  unfold execLaneRetrainDue at h
  cases h
  simp only [State.dueLane_esc, apply_ite State.ecat, apply_ite EtherCat.esc, ite_self, implies_true]

theorem execLaneRetrainRequest_esc (value : Nat) (s : State) (t : State) (h : execLaneRetrainRequest value s = .next t) :
    t.ecat.esc = s.ecat.esc := by
  unfold execLaneRetrainRequest at h
  cases h
  simp only [State.trigger_esc, applyLaneRetrain_esc, apply_ite State.ecat, apply_ite EtherCat.esc, ite_self, implies_true]

theorem execLaneRetrainDone_esc (port : Nat) (s : State) (t : State) (h : execLaneRetrainDone port s = .next t) :
    t.ecat.esc = s.ecat.esc := by
  unfold execLaneRetrainDone at h
  cases h
  (repeat' (first | with_reducible rfl | split)) <;> simp only [State.bump_esc, State.drew_esc, State.journal_esc, State.watch_esc, State.setPort_esc, State.nextLane_esc, apply_ite State.ecat, apply_ite EtherCat.esc, ite_self, implies_true]

theorem execLaneRetrainTimeout_esc (port : Nat) (s : State) (t : State) (h : execLaneRetrainTimeout port s = .next t) :
    t.ecat.esc = s.ecat.esc := by
  unfold execLaneRetrainTimeout at h
  cases h
  (repeat' (first | with_reducible rfl | split)) <;> simp only [State.bump_esc, State.raise_esc, State.watch_esc, State.setPort_esc, State.fenceLane_esc, State.removeLane_esc, State.nextLane_esc, apply_ite State.ecat, apply_ite EtherCat.esc, ite_self, implies_true]

theorem execNodeCommit_esc (value : Nat) (s : State) (t : State) (h : execNodeCommit value s = .next t) :
    t.ecat.esc = s.ecat.esc := by
  unfold execNodeCommit at h
  cases h
  simp only [State.trigger_esc, applyNode_esc, apply_ite State.ecat, apply_ite EtherCat.esc, ite_self, implies_true]

theorem execRouteCommit_esc (value : Nat) (s : State) (t : State) (h : execRouteCommit value s = .next t) :
    t.ecat.esc = s.ecat.esc := by
  unfold execRouteCommit at h
  cases h
  simp only [State.trigger_esc, applyRoute_esc, apply_ite State.ecat, apply_ite EtherCat.esc, ite_self, implies_true]

theorem execRouteDefaults_esc (value : Nat) (s : State) (t : State) (h : execRouteDefaults value s = .next t) :
    t.ecat.esc = s.ecat.esc := by
  unfold execRouteDefaults at h
  cases h
  simp only [State.trigger_esc, applyRouteDefaults_esc, apply_ite State.ecat, apply_ite EtherCat.esc, ite_self, implies_true]

theorem execRouterReset_esc (value : Nat) (s : State) (t : State) (h : execRouterReset value s = .next t) :
    t.ecat.esc = s.ecat.esc := by
  unfold execRouterReset at h
  cases h
  simp only [State.trigger_esc, State.resetRouter_esc, apply_ite State.ecat, apply_ite EtherCat.esc, ite_self, implies_true]

theorem execPortEnable_esc (value : Nat) (s : State) (t : State) (h : execPortEnable value s = .next t) :
    t.ecat.esc = s.ecat.esc := by
  unfold execPortEnable at h
  cases h
  simp only [State.trigger_esc, applyPortEnable_esc, apply_ite State.ecat, apply_ite EtherCat.esc, ite_self, implies_true]

theorem execColl_esc (c idx : Nat) (s : State) (t : State) (h : execColl c idx s = .next t) :
    t.ecat.esc = s.ecat.esc := by
  unfold execColl at h
  cases h
  apply State.startMacro_esc
  intro go hgo s e f
  cases hgo <;> simp [apply_ite State.ecat, apply_ite EtherCat.esc]

theorem execPost_esc (c idx : Nat) (s : State) (t : State) (h : execPost c idx s = .next t) :
    t.ecat.esc = s.ecat.esc := by
  unfold execPost at h
  cases h
  apply State.startMacro_esc
  intro go hgo s e f
  cases hgo <;> simp [apply_ite State.ecat, apply_ite EtherCat.esc]

theorem execChunkReceive_esc (group ord src : Nat) (sender : Sender) (sig : Nat) (head : PacketHead) (residue : Bool) (data : Bytes) (s : State) (t : State) (h : execChunkReceive group ord src sender sig head residue data s = .next t) :
    t.ecat.esc = s.ecat.esc := by
  unfold execChunkReceive at h
  cases h
  simp only [State.bulk_esc, apply_ite State.ecat, apply_ite EtherCat.esc, ite_self, implies_true]

theorem execCollTimeout_esc (c idx : Nat) (s : State) (t : State) (h : execCollTimeout c idx s = .next t) :
    t.ecat.esc = s.ecat.esc := by
  unfold execCollTimeout at h
  cases h
  (repeat' (first | with_reducible rfl | split)) <;> simp only [State.failColl_esc, State.ctrlOver_esc, apply_ite State.ecat, apply_ite EtherCat.esc, ite_self, implies_true]

theorem execPostcardReceive_esc (group ord axis pos : Nat) (sender : Sender) (sig : Nat) (payload : Bytes) (s : State) (t : State) (h : execPostcardReceive group ord axis pos sender sig payload s = .next t) :
    t.ecat.esc = s.ecat.esc := by
  unfold execPostcardReceive at h
  cases h
  simp only [State.relayCard_esc, State.takeCard_esc, State.takeCtrl_esc, apply_ite State.ecat, apply_ite EtherCat.esc, ite_self, implies_true]

theorem execCtrlBroadcast_esc (initiator : Nat) (payload : Bytes) (s : State) (t : State) (h : execCtrlBroadcast initiator payload s = .next t) :
    t.ecat.esc = s.ecat.esc := by
  unfold execCtrlBroadcast at h
  cases h
  simp only [State.bump_esc, State.ctrlDone_esc, State.ctrlOver_esc, apply_ite State.ecat, apply_ite EtherCat.esc, ite_self, implies_true]

theorem execCtrlSnapshot_esc (initiator : Nat) (others : Bytes) (s : State) (t : State) (h : execCtrlSnapshot initiator others s = .next t) :
    t.ecat.esc = s.ecat.esc := by
  unfold execCtrlSnapshot at h
  cases h
  simp only [State.bump_esc, State.ctrlDone_esc, State.ctrlOver_esc, apply_ite State.ecat, apply_ite EtherCat.esc, ite_self, implies_true]

theorem execCtrlGroupReset_esc (initiator group : Nat) (s : State) (t : State) (h : execCtrlGroupReset initiator group s = .next t) :
    t.ecat.esc = s.ecat.esc := by
  unfold execCtrlGroupReset at h
  cases h
  simp only [State.bump_esc, State.ctrlDone_esc, State.ctrlOver_esc, State.groupReset_esc, apply_ite State.ecat, apply_ite EtherCat.esc, ite_self, implies_true]

theorem execCommitTimer_esc (s : State) (t : State) (h : execCommitTimer s = .next t) :
    t.ecat.esc = s.ecat.esc := by
  unfold execCommitTimer at h
  cases h
  simp only [State.commit_esc, apply_ite State.ecat, apply_ite EtherCat.esc, ite_self, implies_true]

theorem execAllowanceTick_esc (s : State) (t : State) (h : execAllowanceTick s = .next t) :
    t.ecat.esc = s.ecat.esc := by
  unfold execAllowanceTick at h
  cases h
  simp only [apply_ite State.ecat, apply_ite EtherCat.esc, ite_self, implies_true]

theorem execWindowRoll_esc (s : State) (t : State) (h : execWindowRoll s = .next t) :
    t.ecat.esc = s.ecat.esc := by
  unfold execWindowRoll at h
  cases h
  simp only [apply_ite State.ecat, apply_ite EtherCat.esc, ite_self, implies_true]

theorem execNandScrub_esc (block finding : Nat) (s : State) (t : State) (h : execNandScrub block finding s = .next t) :
    t.ecat.esc = s.ecat.esc := by
  unfold execNandScrub at h
  cases h
  (repeat' (first | with_reducible rfl | split)) <;> simp only [State.bump_esc, State.pageLost_esc, apply_ite State.ecat, apply_ite EtherCat.esc, ite_self, implies_true]

theorem execStoreAll_esc (value : Nat) (s : State) (t : State) (h : execStoreAll value s = .next t) :
    t.ecat.esc = s.ecat.esc := by
  unfold execStoreAll at h
  cases h
  simp only [State.trigger_esc, applyStoreAll_esc, apply_ite State.ecat, apply_ite EtherCat.esc, ite_self, implies_true]

theorem execRestoreDefaults_esc (value : Nat) (s : State) (t : State) (h : execRestoreDefaults value s = .next t) :
    t.ecat.esc = s.ecat.esc := by
  unfold execRestoreDefaults at h
  cases h
  simp only [State.trigger_esc, applyRestore_esc, apply_ite State.ecat, apply_ite EtherCat.esc, ite_self, implies_true]

theorem execFaultClear_esc (value : Nat) (s : State) (t : State) (h : execFaultClear value s = .next t) :
    t.ecat.esc = s.ecat.esc := by
  unfold execFaultClear at h
  cases h
  simp only [State.trigger_esc, applyFaultClear_esc, apply_ite State.ecat, apply_ite EtherCat.esc, ite_self, implies_true]

theorem execFenceUnit_esc (value : Nat) (s : State) (t : State) (h : execFenceUnit value s = .next t) :
    t.ecat.esc = s.ecat.esc := by
  unfold execFenceUnit at h
  cases h
  simp only [State.trigger_esc, applyFence_esc, apply_ite State.ecat, apply_ite EtherCat.esc, ite_self, implies_true]

theorem execClearFence_esc (value : Nat) (s : State) (t : State) (h : execClearFence value s = .next t) :
    t.ecat.esc = s.ecat.esc := by
  unfold execClearFence at h
  cases h
  simp only [State.trigger_esc, applyFence_esc, apply_ite State.ecat, apply_ite EtherCat.esc, ite_self, implies_true]

theorem execResetPartition_esc (value : Nat) (s : State) (t : State) (h : execResetPartition value s = .next t) :
    t.ecat.esc = s.ecat.esc := by
  unfold execResetPartition at h
  cases h
  simp only [State.writeReset_esc, apply_ite State.ecat, apply_ite EtherCat.esc, ite_self, implies_true]

theorem execResetChip_esc (value : Nat) (s : State) (t : State) (h : execResetChip value s = .next t) :
    t.ecat.esc = s.ecat.esc := by
  unfold execResetChip at h
  cases h
  simp only [State.writeReset_esc, apply_ite State.ecat, apply_ite EtherCat.esc, ite_self, implies_true]

theorem execResetChipCullet_esc (value : Nat) (s : State) (t : State) (h : execResetChipCullet value s = .next t) :
    t.ecat.esc = s.ecat.esc := by
  unfold execResetChipCullet at h
  cases h
  simp only [State.writeReset_esc, apply_ite State.ecat, apply_ite EtherCat.esc, ite_self, implies_true]

theorem execResetPowerCycle_esc (value : Nat) (s : State) (t : State) (h : execResetPowerCycle value s = .next t) :
    t.ecat.esc = s.ecat.esc := by
  unfold execResetPowerCycle at h
  cases h
  simp only [State.writeReset_esc, apply_ite State.ecat, apply_ite EtherCat.esc, ite_self, implies_true]

theorem execFenceWindow_esc (region : Nat) (s : State) (t : State) (h : execFenceWindow region s = .next t) :
    t.ecat.esc = s.ecat.esc := by
  unfold execFenceWindow at h
  cases h
  simp only [apply_ite State.ecat, apply_ite EtherCat.esc, ite_self, implies_true]

theorem execCellWatchdog_esc (cell : Nat) (s : State) (t : State) (h : execCellWatchdog cell s = .next t) :
    t.ecat.esc = s.ecat.esc := by
  unfold execCellWatchdog at h
  cases h
  simp only [State.post_esc, State.engineReset_esc, apply_ite State.ecat, apply_ite EtherCat.esc, ite_self, implies_true]

theorem execEngineWatchdog_esc (unit : Nat) (s : State) (t : State) (h : execEngineWatchdog unit s = .next t) :
    t.ecat.esc = s.ecat.esc := by
  unfold execEngineWatchdog at h
  cases h
  simp only [State.post_esc, State.engineReset_esc, apply_ite State.ecat, apply_ite EtherCat.esc, ite_self, implies_true]

theorem execPartitionWatchdog_esc (region : Nat) (s : State) (t : State) (h : execPartitionWatchdog region s = .next t) :
    t.ecat.esc = s.ecat.esc := by
  unfold execPartitionWatchdog at h
  cases h
  simp only [State.post_esc, State.resetPart_esc, apply_ite State.ecat, apply_ite EtherCat.esc, ite_self, implies_true]

theorem execCoreWatchdog_esc (core : Nat) (s : State) (t : State) (h : execCoreWatchdog core s = .next t) :
    t.ecat.esc = s.ecat.esc := by
  unfold execCoreWatchdog at h
  cases h
  simp only [State.post_esc, State.raise_esc, State.chipReset_esc, apply_ite State.ecat, apply_ite EtherCat.esc, ite_self, implies_true]

theorem execUncorrectableCellState_esc (cell laneGroup : Nat) (s : State) (t : State) (h : execUncorrectableCellState cell laneGroup s = .next t) :
    t.ecat.esc = s.ecat.esc := by
  unfold execUncorrectableCellState at h
  cases h
  simp only [State.bump_esc, State.setCell_esc, State.post_esc, State.raise_esc, State.fenceNow_esc, State.engineReset_esc, State.marTasks_esc, apply_ite State.ecat, apply_ite EtherCat.esc, ite_self, implies_true]

theorem execEngineResetOverrun_esc (unit : Nat) (s : State) (t : State) (h : execEngineResetOverrun unit s = .next t) :
    t.ecat.esc = s.ecat.esc := by
  unfold execEngineResetOverrun at h
  cases h
  simp only [State.fenceNow_esc, apply_ite State.ecat, apply_ite EtherCat.esc, ite_self, implies_true]

theorem execAnnealComplete_esc (partition : Nat) (s : State) (t : State) (h : execAnnealComplete partition s = .next t) :
    t.ecat.esc = s.ecat.esc := by
  unfold execAnnealComplete at h
  cases h
  simp only [State.anneal_esc, apply_ite State.ecat, apply_ite EtherCat.esc, ite_self, implies_true]

theorem execAnnealOverrun_esc (partition : Nat) (s : State) (t : State) (h : execAnnealOverrun partition s = .next t) :
    t.ecat.esc = s.ecat.esc := by
  unfold execAnnealOverrun at h
  cases h
  simp only [State.raise_esc, State.chipReset_esc, apply_ite State.ecat, apply_ite EtherCat.esc, ite_self, implies_true]

theorem execChipResetTimeout_esc (s : State) (t : State) (h : execChipResetTimeout s = .next t) :
    t.ecat.esc = s.ecat.esc := by
  unfold execChipResetTimeout at h
  cases h
  simp only [State.chipReset_esc, State.powerCycle_esc, apply_ite State.ecat, apply_ite EtherCat.esc, ite_self, implies_true]

theorem execTrngHealthFail_esc (s : State) (t : State) (h : execTrngHealthFail s = .next t) :
    t.ecat.esc = s.ecat.esc := by
  unfold execTrngHealthFail at h
  cases h
  simp only [State.watch_esc, apply_ite State.ecat, apply_ite EtherCat.esc, ite_self, implies_true]

theorem execTrngResume_esc (s : State) (t : State) (h : execTrngResume s = .next t) :
    t.ecat.esc = s.ecat.esc := by
  unfold execTrngResume at h
  cases h
  simp only [State.watch_esc, apply_ite State.ecat, apply_ite EtherCat.esc, ite_self, implies_true]

theorem execChallenge_esc (s : State) (t : State) (h : execChallenge s = .next t) :
    t.ecat.esc = s.ecat.esc := by
  unfold execChallenge at h
  cases h
  simp only [State.drew_esc, State.abort_esc, State.upload_esc, apply_ite State.ecat, apply_ite EtherCat.esc, ite_self, implies_true]

theorem execChallengeLockoutEnd_esc (s : State) (t : State) (h : execChallengeLockoutEnd s = .next t) :
    t.ecat.esc = s.ecat.esc := by
  unfold execChallengeLockoutEnd at h
  cases h
  rfl

theorem execUnlockObserve_esc (b : Bytes) (s : State) (t : State) (h : execUnlockObserve b s = .next t) :
    t.ecat.esc = s.ecat.esc := by
  unfold execUnlockObserve at h
  cases h
  simp only [State.token_esc, apply_ite State.ecat, apply_ite EtherCat.esc, ite_self, implies_true]

theorem execUnlockFull_esc (b : Bytes) (s : State) (t : State) (h : execUnlockFull b s = .next t) :
    t.ecat.esc = s.ecat.esc := by
  unfold execUnlockFull at h
  cases h
  simp only [State.token_esc, apply_ite State.ecat, apply_ite EtherCat.esc, ite_self, implies_true]

theorem execToField_esc (b : Bytes) (blowOk : Bool) (s : State) (t : State) (h : execToField b blowOk s = .next t) :
    t.ecat.esc = s.ecat.esc := by
  unfold execToField at h
  cases h
  simp only [State.token_esc, State.changeLife_esc, apply_ite State.ecat, apply_ite EtherCat.esc, ite_self, implies_true]

theorem execToReturned_esc (b : Bytes) (blowOk : Bool) (s : State) (t : State) (h : execToReturned b blowOk s = .next t) :
    t.ecat.esc = s.ecat.esc := by
  unfold execToReturned at h
  cases h
  simp only [State.token_esc, State.changeLife_esc, apply_ite State.ecat, apply_ite EtherCat.esc, ite_self, implies_true]

theorem execToScrapped_esc (b : Bytes) (blowOk : Bool) (s : State) (t : State) (h : execToScrapped b blowOk s = .next t) :
    t.ecat.esc = s.ecat.esc := by
  unfold execToScrapped at h
  cases h
  simp only [State.token_esc, State.changeLife_esc, apply_ite State.ecat, apply_ite EtherCat.esc, ite_self, implies_true]

theorem execRevoke_esc (b : Bytes) (blowOk : Bool) (s : State) (t : State) (h : execRevoke b blowOk s = .next t) :
    t.ecat.esc = s.ecat.esc := by
  unfold execRevoke at h
  cases h
  simp only [State.token_esc, apply_ite State.ecat, apply_ite EtherCat.esc, ite_self, implies_true]

theorem execRaiseSecurityVersion_esc (value : Nat) (blowOk : Bool) (s : State) (t : State) (h : execRaiseSecurityVersion value blowOk s = .next t) :
    t.ecat.esc = s.ecat.esc := by
  unfold execRaiseSecurityVersion at h
  cases h
  simp only [State.trigger_esc, State.blowFailed_esc, State.raiseVersion_esc, apply_ite State.ecat, apply_ite EtherCat.esc, ite_self, implies_true]

theorem execProvision_esc (value : Nat) (blowOk : Bool) (s : State) (t : State) (h : execProvision value blowOk s = .next t) :
    t.ecat.esc = s.ecat.esc := by
  unfold execProvision at h
  cases h
  simp only [State.abort_esc, State.trigger_esc, State.blowFailed_esc, State.provisioned_esc, apply_ite State.ecat, apply_ite EtherCat.esc, ite_self, implies_true]

theorem execProvisionScrap_esc (value : Nat) (blowOk : Bool) (s : State) (t : State) (h : execProvisionScrap value blowOk s = .next t) :
    t.ecat.esc = s.ecat.esc := by
  unfold execProvisionScrap at h
  cases h
  simp only [State.answerWrite_esc, State.blowFailed_esc, State.changeLife_esc, apply_ite State.ecat, apply_ite EtherCat.esc, ite_self, implies_true]

theorem execRotateIdentity_esc (value : Nat) (s : State) (t : State) (h : execRotateIdentity value s = .next t) :
    t.ecat.esc = s.ecat.esc := by
  unfold execRotateIdentity at h
  cases h
  simp only [State.trigger_esc, State.rotated_esc, apply_ite State.ecat, apply_ite EtherCat.esc, ite_self, implies_true]

theorem execAttestNonce_esc (nonce : Bytes) (s : State) (t : State) (h : execAttestNonce nonce s = .next t) :
    t.ecat.esc = s.ecat.esc := by
  unfold execAttestNonce at h
  cases h
  simp only [State.abort_esc, State.answerWrite_esc, applyNonce_esc, apply_ite State.ecat, apply_ite EtherCat.esc, ite_self, implies_true]

theorem execAttestReportReady_esc (s : State) (t : State) (h : execAttestReportReady s = .next t) :
    t.ecat.esc = s.ecat.esc := by
  unfold execAttestReportReady at h
  cases h
  (repeat' (first | with_reducible rfl | split)) <;> simp only [State.bump_esc, apply_ite State.ecat, apply_ite EtherCat.esc, ite_self, implies_true]

theorem execRelock_esc (value : Nat) (s : State) (t : State) (h : execRelock value s = .next t) :
    t.ecat.esc = s.ecat.esc := by
  unfold execRelock at h
  cases h
  simp only [State.trigger_esc, applyRelock_esc, apply_ite State.ecat, apply_ite EtherCat.esc, ite_self, implies_true]

theorem execDebugDataRead_esc (s : State) (t : State) (h : execDebugDataRead s = .next t) :
    t.ecat.esc = s.ecat.esc := by
  unfold execDebugDataRead at h
  cases h
  simp only [State.bump_esc, State.abort_esc, State.upload_esc, State.sawPoison_esc, apply_ite State.ecat, apply_ite EtherCat.esc, ite_self, implies_true]

theorem execDebugDataWrite_esc (data : Bytes) (s : State) (t : State) (h : execDebugDataWrite data s = .next t) :
    t.ecat.esc = s.ecat.esc := by
  unfold execDebugDataWrite at h
  cases h
  simp only [State.abort_esc, State.answerWrite_esc, applyDebugWrite_esc, apply_ite State.ecat, apply_ite EtherCat.esc, ite_self, implies_true]

theorem execExtest_esc (boundary : Nat) (s : State) (t : State) (h : execExtest boundary s = .next t) :
    t.ecat.esc = s.ecat.esc := by
  unfold execExtest at h
  cases h
  simp only [State.tap_esc, State.linksDown_esc, State.pins_esc, apply_ite State.ecat, apply_ite EtherCat.esc, ite_self, implies_true]

theorem execIdcode_esc (s : State) (t : State) (h : execIdcode s = .next t) :
    t.ecat.esc = s.ecat.esc := by
  unfold execIdcode at h
  cases h
  simp only [State.tap_esc, apply_ite State.ecat, apply_ite EtherCat.esc, ite_self, implies_true]

theorem execSamplePreload_esc (boundary : Nat) (s : State) (t : State) (h : execSamplePreload boundary s = .next t) :
    t.ecat.esc = s.ecat.esc := by
  unfold execSamplePreload at h
  cases h
  simp only [State.tap_esc, State.pins_esc, apply_ite State.ecat, apply_ite EtherCat.esc, ite_self, implies_true]

theorem execScanread_esc (unit : Nat) (s : State) (t : State) (h : execScanread unit s = .next t) :
    t.ecat.esc = s.ecat.esc := by
  unfold execScanread at h
  cases h
  simp only [State.drew_esc, State.tap_esc, apply_ite State.ecat, apply_ite EtherCat.esc, ite_self, implies_true]

theorem execScanwrite_esc (unit : Nat) (data : Bytes) (s : State) (t : State) (h : execScanwrite unit data s = .next t) :
    t.ecat.esc = s.ecat.esc := by
  unfold execScanwrite at h
  cases h
  simp only [State.tap_esc, apply_ite State.ecat, apply_ite EtherCat.esc, ite_self, implies_true]

theorem execCorehalt_esc (core : Nat) (halt : Bool) (s : State) (t : State) (h : execCorehalt core halt s = .next t) :
    t.ecat.esc = s.ecat.esc := by
  unfold execCorehalt at h
  cases h
  simp only [State.tap_esc, apply_ite State.ecat, apply_ite EtherCat.esc, ite_self, implies_true]

theorem execBypass_esc (code : Nat) (tdi : Bool) (s : State) (t : State) (h : execBypass code tdi s = .next t) :
    t.ecat.esc = s.ecat.esc := by
  unfold execBypass at h
  cases h
  simp only [State.bypass_esc, apply_ite State.ecat, apply_ite EtherCat.esc, ite_self, implies_true]

theorem execTapReset_esc (s : State) (t : State) (h : execTapReset s = .next t) :
    t.ecat.esc = s.ecat.esc := by
  unfold execTapReset at h
  cases h
  rfl

theorem execPowerFull_esc (value : Nat) (s : State) (t : State) (h : execPowerFull value s = .next t) :
    t.ecat.esc = s.ecat.esc := by
  unfold execPowerFull at h
  cases h
  simp only [State.writePower_esc, apply_ite State.ecat, apply_ite EtherCat.esc, ite_self, implies_true]

theorem execPowerTrim_esc (value : Nat) (s : State) (t : State) (h : execPowerTrim value s = .next t) :
    t.ecat.esc = s.ecat.esc := by
  unfold execPowerTrim at h
  cases h
  simp only [State.writePower_esc, apply_ite State.ecat, apply_ite EtherCat.esc, ite_self, implies_true]

theorem execPowerHold_esc (value : Nat) (s : State) (t : State) (h : execPowerHold value s = .next t) :
    t.ecat.esc = s.ecat.esc := by
  unfold execPowerHold at h
  cases h
  simp only [State.writePower_esc, apply_ite State.ecat, apply_ite EtherCat.esc, ite_self, implies_true]

theorem execPowerFall_esc (s : State) (t : State) (h : execPowerFall s = .next t) :
    t.ecat.esc = s.ecat.esc := by
  unfold execPowerFall at h
  cases h
  (repeat' (first | with_reducible rfl | split)) <;> simp only [State.bump_esc, State.drew_esc, State.raise_esc, State.watch_esc, State.powerLost_esc, apply_ite State.ecat, apply_ite EtherCat.esc, ite_self, implies_true]

theorem execPowerReturn_esc (s : State) (t : State) (h : execPowerReturn s = .next t) :
    t.ecat.esc = s.ecat.esc := by
  unfold execPowerReturn at h
  cases h
  simp only [State.drew_esc, State.chipReset_esc, State.perstReset_esc, apply_ite State.ecat, apply_ite EtherCat.esc, ite_self, implies_true]

theorem execPerst_esc (s : State) (t : State) (h : execPerst s = .next t) :
    t.ecat.esc = s.ecat.esc := by
  unfold execPerst at h
  cases h
  (repeat' (first | with_reducible rfl | split)) <;> simp [apply_ite State.ecat, apply_ite EtherCat.esc]

theorem execPerstRelease_esc (s : State) (t : State) (h : execPerstRelease s = .next t) :
    t.ecat.esc = s.ecat.esc := by
  unfold execPerstRelease at h
  cases h
  simp only [State.log_esc, State.enterBootstrap_esc, State.startUp_esc, apply_ite State.ecat, apply_ite EtherCat.esc, ite_self, implies_true]

theorem execRefclk156Loss_esc (s : State) (t : State) (h : execRefclk156Loss s = .next t) :
    t.ecat.esc = s.ecat.esc := by
  unfold execRefclk156Loss at h
  cases h
  simp only [State.portsDown_esc, apply_ite State.ecat, apply_ite EtherCat.esc, ite_self, implies_true]

theorem execRefclk156Return_esc (s : State) (t : State) (h : execRefclk156Return s = .next t) :
    t.ecat.esc = s.ecat.esc := by
  unfold execRefclk156Return at h
  cases h
  rfl

theorem execRefclk100Loss_esc (s : State) (t : State) (h : execRefclk100Loss s = .next t) :
    t.ecat.esc = s.ecat.esc := by
  unfold execRefclk100Loss at h
  cases h
  (repeat' (first | with_reducible rfl | split)) <;> simp only [apply_ite State.ecat, apply_ite EtherCat.esc, ite_self, implies_true]

theorem execThermalWarning_esc (die device : Nat) (s : State) (t : State) (h : execThermalWarning die device s = .next t) :
    t.ecat.esc = s.ecat.esc := by
  unfold execThermalWarning at h
  cases h
  simp only [State.sense_esc, apply_ite State.ecat, apply_ite EtherCat.esc, ite_self, implies_true]

theorem execThrottleStep_esc (die device power : Nat) (s : State) (t : State) (h : execThrottleStep die device power s = .next t) :
    t.ecat.esc = s.ecat.esc := by
  unfold execThrottleStep at h
  cases h
  simp only [State.sense_esc, apply_ite State.ecat, apply_ite EtherCat.esc, ite_self, implies_true]

theorem execThermalTrip_esc (die device : Nat) (s : State) (t : State) (h : execThermalTrip die device s = .next t) :
    t.ecat.esc = s.ecat.esc := by
  unfold execThermalTrip at h
  cases h
  (repeat' (first | with_reducible rfl | split)) <;> simp only [State.portsDown_esc, State.powerLost_esc, State.sense_esc, apply_ite State.ecat, apply_ite EtherCat.esc, ite_self, implies_true]

theorem execInputVoltageOutOfRange_esc (millivolts : Nat) (s : State) (t : State) (h : execInputVoltageOutOfRange millivolts s = .next t) :
    t.ecat.esc = s.ecat.esc := by
  unfold execInputVoltageOutOfRange at h
  cases h
  simp only [State.watch_esc, apply_ite State.ecat, apply_ite EtherCat.esc, ite_self, implies_true]

theorem execFoeRead_esc (password : Nat) (name : Bytes) (s : State) (t : State) (h : execFoeRead password name s = .next t) :
    t.ecat.esc = s.ecat.esc := by
  unfold execFoeRead at h
  cases h
  (repeat' (first | with_reducible rfl | split)) <;> simp only [State.bump_esc, State.placeSm1_esc, State.foeError_esc, foldl_esc, apply_ite State.ecat, apply_ite EtherCat.esc, ite_self, implies_true]

theorem execFoeWriteFirmware_esc (password readBack : Nat) (image : Bytes) (s : State) (t : State) (h : execFoeWriteFirmware password readBack image s = .next t) :
    t.ecat.esc = s.ecat.esc := by
  unfold execFoeWriteFirmware at h
  cases h
  simp only [State.foeError_esc, State.takeImage_esc, apply_ite State.ecat, apply_ite EtherCat.esc, ite_self, implies_true]

theorem execActivateFirmware_esc (value : Nat) (s : State) (t : State) (h : execActivateFirmware value s = .next t) :
    t.ecat.esc = s.ecat.esc := by
  unfold execActivateFirmware at h
  cases h
  simp only [State.trigger_esc, applyActivate_esc, apply_ite State.ecat, apply_ite EtherCat.esc, ite_self, implies_true]

theorem execPdoMapping_esc (index : Nat) (entries : List Nat) (s : State) (t : State) (h : execPdoMapping index entries s = .next t) :
    t.ecat.esc = s.ecat.esc := by
  unfold execPdoMapping at h
  cases h
  simp only [State.writePdo_esc, apply_ite State.ecat, apply_ite EtherCat.esc, ite_self, implies_true]

theorem execLayoutCommit_esc (value : Nat) (s : State) (t : State) (h : execLayoutCommit value s = .next t) :
    t.ecat.esc = s.ecat.esc := by
  unfold execLayoutCommit at h
  cases h
  simp only [State.trigger_esc, applyLayout_esc, apply_ite State.ecat, apply_ite EtherCat.esc, ite_self, implies_true]

theorem execSdoDownload_esc (index sub : Nat) (complete : Bool) (b : Bytes) (s : State) (t : State) (h : execSdoDownload index sub complete b s = .next t) :
    t.ecat.esc = s.ecat.esc := by
  unfold execSdoDownload at h
  cases h
  (repeat' (first | with_reducible rfl | split)) <;> simp only [State.complete_esc, State.download_esc, State.downloadAll_esc, State.downloadPdo_esc, apply_ite State.ecat, apply_ite EtherCat.esc, ite_self, implies_true]

theorem execDictWrite_esc (index sub : Nat) (b : Bytes) (s : State) (t : State) (h : execDictWrite index sub b s = .next t) :
    t.ecat.esc = s.ecat.esc := by
  unfold execDictWrite at h
  cases h
  (repeat' (first | with_reducible rfl | split)) <;> simp only [State.trigger_esc, State.download_esc, apply_ite State.ecat, apply_ite EtherCat.esc, ite_self, implies_true]

theorem execSdoUpload_esc (index sub : Nat) (complete : Bool) (s : State) (t : State) (h : execSdoUpload index sub complete s = .next t) :
    t.ecat.esc = s.ecat.esc := by
  unfold execSdoUpload at h
  cases h
  (repeat' (first | with_reducible rfl | split)) <;> simp only [State.abort_esc, State.upload_esc, State.complete_esc, State.uploadOne_esc, State.uploadAll_esc, apply_ite State.ecat, apply_ite EtherCat.esc, ite_self, implies_true]

theorem execSdoTransferTimeout_esc (s : State) (t : State) (h : execSdoTransferTimeout s = .next t) :
    t.ecat.esc = s.ecat.esc := by
  unfold execSdoTransferTimeout at h
  cases h
  (repeat' (first | with_reducible rfl | split)) <;> simp only [State.abort_esc, apply_ite State.ecat, apply_ite EtherCat.esc, ite_self, implies_true]

theorem execSdoInformation_esc (op index sub : Nat) (s : State) (t : State) (h : execSdoInformation op index sub s = .next t) :
    t.ecat.esc = s.ecat.esc := by
  unfold execSdoInformation at h
  cases h
  (repeat' (first | with_reducible rfl | split)) <;> simp only [State.placeSm1_esc, apply_ite State.ecat, apply_ite EtherCat.esc, ite_self, implies_true]

theorem execEthercatLinkLoss_esc (port : Nat) (s : State) (t : State) (h : execEthercatLinkLoss port s = .next t) :
    t.ecat.esc = s.ecat.esc := by
  unfold execEthercatLinkLoss at h
  cases h
  rfl

theorem execEthercatLinkUp_esc (port : Nat) (s : State) (t : State) (h : execEthercatLinkUp port s = .next t) :
    t.ecat.esc = s.ecat.esc := by
  unfold execEthercatLinkUp at h
  cases h
  simp only [apply_ite State.ecat, apply_ite EtherCat.esc, ite_self, implies_true]

theorem execAlStateRequest_esc (state : Nat) (s : State) (t : State) (h : execAlStateRequest state s = .next t) :
    t.ecat.esc = s.ecat.esc := by
  unfold execAlStateRequest at h
  cases h
  simp [apply_ite State.ecat, apply_ite EtherCat.esc]

theorem execSm2Watchdog_esc (s : State) (t : State) (h : execSm2Watchdog s = .next t) :
    t.ecat.esc = s.ecat.esc := by
  unfold execSm2Watchdog at h
  cases h
  simp only [State.bump_esc, apply_ite State.ecat, apply_ite EtherCat.esc, ite_self, implies_true]

theorem execMailboxUnsupported_esc (protocol : Nat) (s : State) (t : State) (h : execMailboxUnsupported protocol s = .next t) :
    t.ecat.esc = s.ecat.esc := by
  unfold execMailboxUnsupported at h
  cases h
  simp only [State.placeSm1_esc, apply_ite State.ecat, apply_ite EtherCat.esc, ite_self, implies_true]

/-! ### The controller's own writes -/

theorem State.escPut_wf (s : State) (a : Nat) (v : Byte) (h : Memory.wf s.ecat.esc = true) :
    Memory.wf (s.escPut a v).ecat.esc = true := by
  unfold State.escPut
  split
  · exact h
  · dsimp only
    split
    · exact memPut_wf _ _ _ h
    · exact memPut_wf _ _ _ h

theorem State.escPuts_wf (s : State) (a : Nat) (l : Bytes) (h : Memory.wf s.ecat.esc = true) :
    Memory.wf (s.escPuts a l).ecat.esc = true := by
  induction l generalizing s a with
  | nil => exact h
  | cons b l ih => exact ih _ _ (State.escPut_wf _ _ _ h)

theorem State.repeatMailbox_wf (s : State) (h : Memory.wf s.ecat.esc = true) : Memory.wf s.repeatMailbox.ecat.esc = true := by
  unfold State.repeatMailbox
  dsimp only
  split
  · exact h
  · exact memPut_wf _ _ _ h

theorem State.escWritten_wf (s : State) (a n : Nat) (h : Memory.wf s.ecat.esc = true) :
    Memory.wf (s.escWritten a n).ecat.esc = true := by
  have k : ∀ (b c : Bool), Memory.wf (if c then (if b then s.mailboxIn else s).outputIn
      else (if b then s.mailboxIn else s)).ecat.esc = true := by
    intro b c
    cases b <;> cases c <;> simp [h]
  unfold State.escWritten
  dsimp only
  split
  · exact State.repeatMailbox_wf _ (k _ _)
  · exact k _ _

theorem foldl_esc_wf {α : Type} (f : State → α → State)
    (hf : ∀ s a, Memory.wf s.ecat.esc = true → Memory.wf (f s a).ecat.esc = true) (l : List α) (s : State)
    (h : Memory.wf s.ecat.esc = true) : Memory.wf (l.foldl f s).ecat.esc = true := by
  induction l generalizing s with
  | nil => exact h
  | cons a l ih => exact ih _ (hf s a h)

theorem State.logical_wf (s : State) (d : EscDgram) (h : Memory.wf s.ecat.esc = true) :
    Memory.wf (s.logical d).1.ecat.esc = true := by
  unfold State.logical
  dsimp only
  refine foldl_esc_wf _ (fun s a h => ?_) _ _ (foldl_esc_wf _ (fun s p h => ?_) _ _ (foldl_esc_wf _ (fun s p h => ?_) _ _ h))
  · rw [State.escRead_esc]
    exact h
  · exact State.escWritten_wf s p.1 1 h
  · exact State.escPut_wf s p.1 p.2 h

theorem State.datagram_wf (s : State) (d : EscDgram) (h : Memory.wf s.ecat.esc = true) :
    Memory.wf (s.datagram d).ecat.esc = true := by
  unfold State.datagram
  split
  · exact State.logical_wf s d h
  · split
    · exact h
    · dsimp only
      rw [State.escRead_esc]
      exact State.escWritten_wf _ _ _ (State.escPuts_wf _ _ _ h)

theorem execPowerOn_escWf (k : Bool) (l : List Nat) (s t : State) (h : execPowerOn k l s = .next t)
    (h0 : Memory.wf s.ecat.esc = true) : Memory.wf t.ecat.esc = true := by
  cases h
  split
  · exact h0
  · simp [State.coldState, State.reset, EtherCat.init]

theorem execEthercatFrame_escWf (p : Nat) (l : List EscDgram) (s t : State) (h : execEthercatFrame p l s = .next t)
    (h0 : Memory.wf s.ecat.esc = true) : Memory.wf t.ecat.esc = true := by
  cases h
  split
  · exact h0
  · dsimp only
    split
    · exact h0
    · exact foldl_esc_wf _ State.datagram_wf _ _ h0

theorem execPdoRefresh_escWf (s t : State) (h : execPdoRefresh s = .next t) (h0 : Memory.wf s.ecat.esc = true) :
    Memory.wf t.ecat.esc = true := by
  cases h
  split
  · exact h0
  · exact State.escPuts_wf _ _ _ h0

end Sys2Proof.Machine
end

