-- ==== Sys2Proof/Laws/Queue.lean ====
section
/-! SUPPORT. Queue: no operation and no command touches the queue of waiting commands. -/

set_option linter.all false

namespace Sys2Proof.Machine
open Sys2Proof

/-! ### Ops -/

@[simp] theorem foldl_pending {α : Type} (f : State → α → State) (h : ∀ s a, (f s a).pending = s.pending) (l : List α) (s : State) :
    (l.foldl f s).pending = s.pending := by
  induction l generalizing s with
  | nil => rfl
  | cons a l ih => rw [List.foldl_cons, ih, h]

@[simp] theorem State.dset_pending (s : State) (idx sub v : Nat) :
    (State.dset s idx sub v).pending = s.pending := by
  rfl

@[simp] theorem State.bump_pending (s : State) (idx sub n : Nat) :
    (State.bump s idx sub n).pending = s.pending := by
  rfl

@[simp] theorem State.setCount_pending (s : State) (idx sub n : Nat) :
    (State.setCount s idx sub n).pending = s.pending := by
  rfl

@[simp] theorem State.bumps_pending (s : State) (l : List (Nat × Nat)) :
    (State.bumps s l).pending = s.pending := by
  simp only [State.bumps, State.bump_pending, foldl_pending, apply_ite State.pending, ite_self, implies_true]

@[simp] theorem State.drew_pending (s : State) :
    (State.drew s).pending = s.pending := by
  rfl

@[simp] theorem State.setCell_pending (s : State) (i : Nat) (f : Cell → Cell) :
    (State.setCell s i f).pending = s.pending := by
  rfl

@[simp] theorem State.setChan_pending (s : State) (i : Nat) (f : Chan → Chan) :
    (State.setChan s i f).pending = s.pending := by
  rfl

@[simp] theorem State.storeByte_pending (s : State) (a : Nat) (v : Byte) :
    (State.storeByte s a v).pending = s.pending := by
  unfold State.storeByte
  (repeat' (first | with_reducible rfl | split)) <;> simp only [State.bump_pending, State.setChan_pending, apply_ite State.pending, ite_self, implies_true]

@[simp] theorem State.storeBytes_pending (s : State) (a : Nat) (v0 : Bytes) :
    (State.storeBytes s a v0).pending = s.pending := by
  induction v0 generalizing s a  with
  | nil =>
    first
    | rfl
    | (simp only [State.storeBytes, State.storeByte_pending, apply_ite State.pending, ite_self, implies_true]; done)
  | cons b l ih =>
    first
    | (simp only [State.storeBytes, State.storeByte_pending, apply_ite State.pending, ite_self, implies_true, ih]; done)
    | (unfold State.storeBytes; (repeat' (first | with_reducible rfl | split)) <;> (simp only [State.storeByte_pending, apply_ite State.pending, ite_self, implies_true, ih]; done))
    | (unfold State.storeBytes; (repeat' (first | with_reducible rfl | split)) <;> (try simp only [State.storeByte_pending, apply_ite State.pending, ite_self, implies_true, ih]) <;> (repeat' (first | with_reducible rfl | split)) <;> (simp only [State.storeByte_pending, apply_ite State.pending, ite_self, implies_true, ih]; done))

@[simp] theorem State.retireWcb_pending (s : State) (e : Wcb) :
    (State.retireWcb s e).pending = s.pending := by
  simp only [State.retireWcb, State.bump_pending, apply_ite State.pending, ite_self, implies_true]

@[simp] theorem State.mergeLine_pending (s : State) (line : Nat) (addrs : List Nat) :
    (State.mergeLine s line addrs).pending = s.pending := by
  unfold State.mergeLine
  simp only [State.bump_pending, State.retireWcb_pending, foldl_pending, apply_ite State.pending, ite_self, implies_true]
  (repeat' (first | with_reducible rfl | split)) <;> (try with_reducible rfl) <;> simp only [State.bump_pending, State.retireWcb_pending, foldl_pending, apply_ite State.pending, ite_self, implies_true]

@[simp] theorem State.mergeLines_pending (s : State) (a n : Nat) (v0 : Nat) :
    (State.mergeLines s a n v0).pending = s.pending := by
  induction v0 generalizing s a n  with
  | zero =>
    first
    | rfl
    | (simp only [State.mergeLines, State.mergeLine_pending, apply_ite State.pending, ite_self, implies_true]; done)
  | succ n ih =>
    first
    | (simp only [State.mergeLines, State.mergeLine_pending, apply_ite State.pending, ite_self, implies_true, ih]; done)
    | (unfold State.mergeLines; (repeat' (first | with_reducible rfl | split)) <;> (simp only [State.mergeLine_pending, apply_ite State.pending, ite_self, implies_true, ih]; done))
    | (unfold State.mergeLines; (repeat' (first | with_reducible rfl | split)) <;> (try simp only [State.mergeLine_pending, apply_ite State.pending, ite_self, implies_true, ih]) <;> (repeat' (first | with_reducible rfl | split)) <;> (simp only [State.mergeLine_pending, apply_ite State.pending, ite_self, implies_true, ih]; done))

@[simp] theorem State.spoil_pending (s : State) (a n : Nat) :
    (State.spoil s a n).pending = s.pending := by
  rfl

@[simp] theorem State.writeBytes_pending (s : State) (a : Nat) (bs : Bytes) :
    (State.writeBytes s a bs).pending = s.pending := by
  simp only [State.writeBytes, State.bump_pending, State.storeBytes_pending, State.mergeLines_pending, State.spoil_pending, apply_ite State.pending, ite_self, implies_true]

@[simp] theorem State.poisonUnits_pending (s : State) (us : List Nat) :
    (State.poisonUnits s us).pending = s.pending := by
  simp only [State.poisonUnits, State.bump_pending, foldl_pending, apply_ite State.pending, ite_self, implies_true]

@[simp] theorem State.clearRun_pending (s : State) (a n : Nat) :
    (State.clearRun s a n).pending = s.pending := by
  rfl

/-! ### Journal -/

@[simp] theorem State.wearLevel_pending (s : State) :
    (State.wearLevel s).pending = s.pending := by
  unfold State.wearLevel
  (repeat' (first | with_reducible rfl | split)) <;> simp only [State.bump_pending, apply_ite State.pending, ite_self, implies_true]

@[simp] theorem State.commitWith_pending (s : State) (extra : List Rec) :
    (State.commitWith s extra).pending = s.pending := by
  simp only [State.commitWith, State.bump_pending, State.wearLevel_pending, apply_ite State.pending, ite_self, implies_true]

@[simp] theorem State.commit_pending (s : State) :
    (State.commit s).pending = s.pending := by
  simp only [State.commit, State.commitWith_pending, apply_ite State.pending, ite_self, implies_true]

@[simp] theorem State.forceCommit_pending (s : State) :
    (State.forceCommit s).pending = s.pending := by
  simp only [State.forceCommit, State.bump_pending, State.commitWith_pending, apply_ite State.pending, ite_self, implies_true]

@[simp] theorem State.journal_pending (s : State) (must : Bool) (r : Rec) :
    (State.journal s must r).pending = s.pending := by
  simp only [State.journal, State.commitWith_pending, apply_ite State.pending, ite_self, implies_true]

/-! ### Events -/

@[simp] theorem State.post_pending (s : State) (unit event status detail : Nat) :
    (State.post s unit event status detail).pending = s.pending := by
  simp only [State.post, State.drew_pending, apply_ite State.pending, ite_self, implies_true]

@[simp] theorem State.log_pending (s : State) (unit status severity part detail : Nat) :
    (State.log s unit status severity part detail).pending = s.pending := by
  simp only [State.log, State.bump_pending, State.drew_pending, State.journal_pending, apply_ite State.pending, ite_self, implies_true]

@[simp] theorem State.flushEmergency_pending (s : State) :
    (State.flushEmergency s).pending = s.pending := by
  unfold State.flushEmergency
  (repeat' (first | with_reducible rfl | split)) <;> simp only [State.bump_pending, apply_ite State.pending, ite_self, implies_true]

@[simp] theorem State.emergency_pending (s : State) (bitNo status : Nat) :
    (State.emergency s bitNo status).pending = s.pending := by
  simp only [State.emergency, State.bump_pending, State.flushEmergency_pending, apply_ite State.pending, ite_self, implies_true]

@[simp] theorem State.raise_pending (s : State) (bitNo status : Nat) :
    (State.raise s bitNo status).pending = s.pending := by
  simp only [State.raise, State.emergency_pending, apply_ite State.pending, ite_self, implies_true]

@[simp] theorem State.watch_pending (s : State) (status : Nat) :
    (State.watch s status).pending = s.pending := by
  simp only [State.watch, State.emergency_pending, foldl_pending, apply_ite State.pending, ite_self, implies_true]

/-! ### Wire -/

@[simp] theorem State.setPort_pending (s : State) (i : Nat) (f : Port → Port) :
    (State.setPort s i f).pending = s.pending := by
  rfl

@[simp] theorem State.freePlace_pending (s : State) (f : Flit) :
    (State.freePlace s f).pending = s.pending := by
  unfold State.freePlace
  (repeat' (first | with_reducible rfl | split)) <;> simp only [State.setPort_pending, apply_ite State.pending, ite_self, implies_true]

@[simp] theorem State.routeFlit_pending (s : State) (f : Flit) :
    (State.routeFlit s f).pending = s.pending := by
  simp only [State.routeFlit, State.bump_pending, State.setPort_pending, State.freePlace_pending, apply_ite State.pending, ite_self, implies_true]

@[simp] theorem State.rerouteHeld_pending (s : State) :
    (State.rerouteHeld s).pending = s.pending := by
  simp only [State.rerouteHeld, State.routeFlit_pending, foldl_pending, apply_ite State.pending, ite_self, implies_true]

@[simp] theorem State.sendPacket_pending (s : State) (cls dest post : Nat) (payload : Bytes) :
    (State.sendPacket s cls dest post payload).pending = s.pending := by
  simp only [State.sendPacket, State.post_pending, State.routeFlit_pending, foldl_pending, apply_ite State.pending, ite_self, implies_true]

@[simp] theorem State.respond_pending (s : State) (part dest post : Nat) (payload : Bytes) :
    (State.respond s part dest post payload).pending = s.pending := by
  simp only [State.respond, State.post_pending, State.sendPacket_pending, apply_ite State.pending, ite_self, implies_true]

@[simp] theorem State.refuse_pending (s : State) (part dest code : Nat) :
    (State.refuse s part dest code).pending = s.pending := by
  simp only [State.refuse, State.routeFlit_pending, foldl_pending, apply_ite State.pending, ite_self, implies_true]

@[simp] theorem State.request_pending (s : State) (kind : ReqKind) (ctx idx part node addr len : Nat) (data : Bytes) (session seq : Nat) :
    (State.request s kind ctx idx part node addr len data session seq).pending = s.pending := by
  simp only [State.request, State.routeFlit_pending, foldl_pending, apply_ite State.pending, ite_self, implies_true]

@[simp] theorem State.dropReqs_pending (s : State) (p : Req → Bool) :
    (State.dropReqs s p).pending = s.pending := by
  rfl

@[simp] theorem State.dropCopy_pending (s : State) (c : Copy) :
    (State.dropCopy s c).pending = s.pending := by
  rfl

@[simp] theorem State.chargeWrite_pending (s : State) (ctx code : Nat) :
    (State.chargeWrite s ctx code).pending = s.pending := by
  rfl

@[simp] theorem State.lostBack_pending (s : State) (node addr code : Nat) :
    (State.lostBack s node addr code).pending = s.pending := by
  unfold State.lostBack
  (repeat' (first | with_reducible rfl | split)) <;> simp only [State.chargeWrite_pending, foldl_pending, apply_ite State.pending, ite_self, implies_true]

@[simp] theorem State.lostFetch_pending (s : State) (node addr code : Nat) :
    (State.lostFetch s node addr code).pending = s.pending := by
  simp only [State.lostFetch, State.chargeWrite_pending, foldl_pending, apply_ite State.pending, ite_self, implies_true]

@[simp] theorem State.writeBack_pending (s : State) (c : Copy) :
    (State.writeBack s c).pending = s.pending := by
  simp only [State.writeBack, State.request_pending, State.lostBack_pending, apply_ite State.pending, ite_self, implies_true]

@[simp] theorem State.evict_pending (s : State) (c : Copy) :
    (State.evict s c).pending = s.pending := by
  simp only [State.evict, State.bump_pending, State.dropCopy_pending, State.writeBack_pending, apply_ite State.pending, ite_self, implies_true]

@[simp] theorem State.makeRoom_pending (s : State) (n : Nat) (v0 : Nat) :
    (State.makeRoom s n v0).pending = s.pending := by
  induction v0 generalizing s n  with
  | zero =>
    first
    | rfl
    | (simp only [State.makeRoom, State.evict_pending, apply_ite State.pending, ite_self, implies_true]; done)
  | succ n ih =>
    first
    | (simp only [State.makeRoom, State.evict_pending, apply_ite State.pending, ite_self, implies_true, ih]; done)
    | (unfold State.makeRoom; (repeat' (first | with_reducible rfl | split)) <;> (simp only [State.evict_pending, apply_ite State.pending, ite_self, implies_true, ih]; done))
    | (unfold State.makeRoom; (repeat' (first | with_reducible rfl | split)) <;> (try simp only [State.evict_pending, apply_ite State.pending, ite_self, implies_true, ih]) <;> (repeat' (first | with_reducible rfl | split)) <;> (simp only [State.evict_pending, apply_ite State.pending, ite_self, implies_true, ih]; done))

@[simp] theorem State.copyRoom_pending (s : State) :
    (State.copyRoom s).1.pending = s.pending := by
  simp only [State.copyRoom, State.makeRoom_pending, apply_ite State.pending, ite_self, implies_true]

@[simp] theorem State.copyWrite_pending (s : State) (ctx g : Nat) (bs : Bytes) :
    (State.copyWrite s ctx g bs).1.pending = s.pending := by
  unfold State.copyWrite
  simp only [State.request_pending, State.lostFetch_pending, State.copyRoom_pending, foldl_pending, apply_ite State.pending, ite_self, implies_true]
  (repeat' (first | with_reducible rfl | split)) <;> (try with_reducible rfl) <;> simp only [State.request_pending, State.lostFetch_pending, State.copyRoom_pending, foldl_pending, apply_ite State.pending, ite_self, implies_true]

@[simp] theorem State.writeGlobal_pending (s : State) (ctx idx part : Nat) (w : Nat × Bytes) :
    (State.writeGlobal s ctx idx part w).pending = s.pending := by
  simp only [State.writeGlobal, State.writeBytes_pending, State.request_pending, State.chargeWrite_pending, State.copyWrite_pending, foldl_pending, apply_ite State.pending, ite_self, implies_true]

/-! ### Dict -/

@[simp] theorem State.placeSm1_pending (s : State) (m : Bytes) :
    (State.placeSm1 s m).pending = s.pending := by
  rfl

@[simp] theorem State.abort_pending (s : State) (idx sub code detail : Nat) :
    (State.abort s idx sub code detail).pending = s.pending := by
  simp only [State.abort, State.bump_pending, State.placeSm1_pending, apply_ite State.pending, ite_self, implies_true]

@[simp] theorem State.answerWrite_pending (s : State) (idx sub : Nat) (commit : Bool) (r : Applied) (h : r.1.pending = s.pending) :
    (s.answerWrite idx sub commit r).pending = s.pending := by
  unfold State.answerWrite
  split <;> simp [h]

@[simp] theorem State.upload_pending (s : State) (idx sub : Nat) (data : Bytes) :
    (State.upload s idx sub data).pending = s.pending := by
  simp only [State.upload, State.bump_pending, State.placeSm1_pending, apply_ite State.pending, ite_self, implies_true]

@[simp] theorem State.trigger_pending (s : State) (idx sub : Nat) (commit : Bool) (lo hi value : Nat) (f : State → Applied)
    (h : (f s).1.pending = s.pending) : (s.trigger idx sub commit lo hi value f).pending = s.pending := by
  unfold State.trigger
  split
  · rfl
  · apply State.answerWrite_pending
    split
    · rfl
    · exact h

@[simp] theorem State.keep_pending (s : State) (idx sub width v : Nat) :
    (State.keep s idx sub width v).pending = s.pending := by
  simp only [State.keep, State.dset_pending, State.journal_pending, apply_ite State.pending, ite_self, implies_true]

@[simp] theorem State.putFence_pending (s : State) (unit state origin cause : Nat) :
    (State.putFence s unit state origin cause).pending = s.pending := by
  simp only [State.putFence, State.drew_pending, State.forceCommit_pending, State.journal_pending, State.post_pending, State.log_pending, State.watch_pending, apply_ite State.pending, ite_self, implies_true]

@[simp] theorem State.dropFence_pending (s : State) (unit : Nat) :
    (State.dropFence s unit).pending = s.pending := by
  unfold State.dropFence
  (repeat' (first | with_reducible rfl | split)) <;> simp only [State.forceCommit_pending, State.journal_pending, State.watch_pending, apply_ite State.pending, ite_self, implies_true]

@[simp] theorem State.markChannel_pending (s : State) (n origin cause : Nat) :
    (State.markChannel s n origin cause).pending = s.pending := by
  simp only [State.markChannel, State.setChan_pending, State.putFence_pending, apply_ite State.pending, ite_self, implies_true]

@[simp] theorem State.badReads_pending (s : State) (n k : Nat) :
    (State.badReads s n k).pending = s.pending := by
  simp only [State.badReads, State.setChan_pending, State.markChannel_pending, apply_ite State.pending, ite_self, implies_true]

/-! ### Contexts -/

@[simp] theorem State.setCtx_pending (s : State) (c : Nat) (f : Ctx → Ctx) :
    (State.setCtx s c f).pending = s.pending := by
  rfl

@[simp] theorem State.setQueue_pending (s : State) (c : Nat) (f : Queue → Queue) :
    (State.setQueue s c f).pending = s.pending := by
  simp only [State.setQueue, State.setCtx_pending, apply_ite State.pending, ite_self, implies_true]

@[simp] theorem State.setJob_pending (s : State) (c : Nat) (f : Job → Job) :
    (State.setJob s c f).pending = s.pending := by
  simp only [State.setJob, State.setCtx_pending, apply_ite State.pending, ite_self, implies_true]

@[simp] theorem State.setFlight_pending (s : State) (c i : Nat) (f : InFlight → InFlight) :
    (State.setFlight s c i f).pending = s.pending := by
  rfl

@[simp] theorem State.readRuns_pending (s : State) (l : List (Nat × Nat)) :
    (State.readRuns s l).pending = s.pending := by
  simp only [State.readRuns, State.bump_pending, State.bumps_pending, State.drew_pending, apply_ite State.pending, ite_self, implies_true]

@[simp] theorem State.setSession_pending (s : State) (id : Nat) (f : Session → Session) :
    (State.setSession s id f).pending = s.pending := by
  rfl

@[simp] theorem State.putDgram_pending (s : State) (d : OutDgram) :
    (State.putDgram s d).pending = s.pending := by
  simp only [State.putDgram, apply_ite State.pending, ite_self, implies_true]

@[simp] theorem State.emit_pending (s : State) (x : Session) (m : SentMsg) :
    (State.emit s x m).pending = s.pending := by
  simp only [State.emit, State.setSession_pending, State.putDgram_pending, apply_ite State.pending, ite_self, implies_true]

@[simp] theorem State.sendMsg_pending (s : State) (id type status post : Nat) (body : Bytes) :
    (State.sendMsg s id type status post body).pending = s.pending := by
  unfold State.sendMsg
  (repeat' (first | with_reducible rfl | split)) <;> simp only [State.bump_pending, State.post_pending, State.setSession_pending, State.emit_pending, apply_ite State.pending, ite_self, implies_true]

@[simp] theorem State.sendLoose_pending (s : State) (id type status : Nat) (body : Bytes) :
    (State.sendLoose s id type status body).pending = s.pending := by
  unfold State.sendLoose
  (repeat' (first | with_reducible rfl | split)) <;> simp only [State.bump_pending, State.emit_pending, apply_ite State.pending, ite_self, implies_true]

@[simp] theorem State.endClosing_pending (s : State) (id : Nat) :
    (State.endClosing s id).pending = s.pending := by
  unfold State.endClosing
  (repeat' (first | with_reducible rfl | split)) <;> simp only [apply_ite State.pending, ite_self, implies_true]

@[simp] theorem State.reply_pending (s : State) (id seq status post value : Nat) :
    (State.reply s id seq status post value).pending = s.pending := by
  simp only [State.reply, State.post_pending, State.sendMsg_pending, State.endClosing_pending, apply_ite State.pending, ite_self, implies_true]

@[simp] theorem State.progress_pending (s : State) (c : Nat) :
    (State.progress s c).pending = s.pending := by
  unfold State.progress
  (repeat' (first | with_reducible rfl | split)) <;> simp only [State.sendMsg_pending, apply_ite State.pending, ite_self, implies_true]

@[simp] theorem State.enter_pending (s : State) (c : Nat) (st : CtxState) :
    (State.enter s c st).pending = s.pending := by
  unfold State.enter
  (repeat' (first | with_reducible rfl | split)) <;> simp only [State.post_pending, State.setCtx_pending, State.progress_pending, apply_ite State.pending, ite_self, implies_true]

@[simp] theorem State.dropSlot_pending (s : State) (x : Ctx) :
    (State.dropSlot s x).pending = s.pending := by
  simp only [State.dropSlot, apply_ite State.pending, ite_self, implies_true]

@[simp] theorem State.goLive_pending (s : State) (c : Nat) :
    (State.goLive s c).pending = s.pending := by
  simp only [State.goLive, State.setQueue_pending, State.enter_pending, apply_ite State.pending, ite_self, implies_true]

@[simp] theorem State.dropSave_pending (s : State) (c : Nat) :
    (State.dropSave s c).pending = s.pending := by
  unfold State.dropSave
  (repeat' (first | with_reducible rfl | split)) <;> simp only [State.setCtx_pending, apply_ite State.pending, ite_self, implies_true]

@[simp] theorem State.suspendStart_pending (s : State) (c : Nat) (held : Bool) :
    (State.suspendStart s c held).pending = s.pending := by
  unfold State.suspendStart
  (repeat' (first | with_reducible rfl | split)) <;> simp only [State.setCtx_pending, apply_ite State.pending, ite_self, implies_true]

@[simp] theorem State.runTriggersOf_pending (s : State) (v0 : List (Nat × Nat)) :
    (State.runTriggersOf s v0).pending = s.pending := by
  induction v0 generalizing s  with
  | nil =>
    first
    | rfl
    | (simp only [State.runTriggersOf, State.suspendStart_pending, apply_ite State.pending, ite_self, implies_true]; done)
  | cons b l ih =>
    first
    | (simp only [State.runTriggersOf, State.suspendStart_pending, apply_ite State.pending, ite_self, implies_true, ih]; done)
    | (unfold State.runTriggersOf; (repeat' (first | with_reducible rfl | split)) <;> (simp only [State.suspendStart_pending, apply_ite State.pending, ite_self, implies_true, ih]; done))
    | (unfold State.runTriggersOf; (repeat' (first | with_reducible rfl | split)) <;> (try simp only [State.suspendStart_pending, apply_ite State.pending, ite_self, implies_true, ih]) <;> (repeat' (first | with_reducible rfl | split)) <;> (simp only [State.suspendStart_pending, apply_ite State.pending, ite_self, implies_true, ih]; done))

@[simp] theorem State.runTriggers_pending (s : State) :
    (State.runTriggers s).pending = s.pending := by
  simp only [State.runTriggers, State.runTriggersOf_pending, apply_ite State.pending, ite_self, implies_true]

@[simp] theorem State.endCopies_pending (s : State) (c : Nat) :
    (State.endCopies s c).pending = s.pending := by
  simp only [State.endCopies, State.writeBack_pending, foldl_pending, apply_ite State.pending, ite_self, implies_true]

@[simp] theorem State.dropWork_pending (s : State) (c : Nat) :
    (State.dropWork s c).pending = s.pending := by
  simp only [State.dropWork, apply_ite State.pending, ite_self, implies_true]

@[simp] theorem State.freeCtx_pending (s : State) (c : Nat) :
    (State.freeCtx s c).pending = s.pending := by
  simp only [State.freeCtx, State.dropSave_pending, State.runTriggers_pending, State.dropWork_pending, apply_ite State.pending, ite_self, implies_true]

@[simp] theorem State.failDelivery_pending (s : State) (r : Result) :
    (State.failDelivery s r).pending = s.pending := by
  simp only [State.failDelivery, State.bump_pending, State.refuse_pending, State.progress_pending, State.freeCtx_pending, apply_ite State.pending, ite_self, implies_true]

@[simp] theorem State.sendResults_pending (s : State) (sess job post : Nat) (v0 : Nat) (v1 : List Bytes) :
    (State.sendResults s sess job post v0 v1).pending = s.pending := by
  induction v1 generalizing s sess job post v0 with
  | nil =>
    first
    | rfl
    | (simp only [State.sendResults, State.post_pending, State.sendMsg_pending, apply_ite State.pending, ite_self, implies_true]; done)
  | cons b l ih =>
    first
    | (simp only [State.sendResults, State.post_pending, State.sendMsg_pending, apply_ite State.pending, ite_self, implies_true, ih]; done)
    | (unfold State.sendResults; (repeat' (first | with_reducible rfl | split)) <;> (simp only [State.post_pending, State.sendMsg_pending, apply_ite State.pending, ite_self, implies_true, ih]; done))
    | (unfold State.sendResults; (repeat' (first | with_reducible rfl | split)) <;> (try simp only [State.post_pending, State.sendMsg_pending, apply_ite State.pending, ite_self, implies_true, ih]) <;> (repeat' (first | with_reducible rfl | split)) <;> (simp only [State.post_pending, State.sendMsg_pending, apply_ite State.pending, ite_self, implies_true, ih]; done))

@[simp] theorem State.sendResult_pending (s : State) (r : Result) (stream : Bytes) :
    (State.sendResult s r stream).pending = s.pending := by
  unfold State.sendResult
  (repeat' (first | with_reducible rfl | split)) <;> simp only [State.post_pending, State.sendMsg_pending, State.sendResults_pending, apply_ite State.pending, ite_self, implies_true]

@[simp] theorem State.keepRead_pending (s : State) (e : Env) (id : Nat) (q : Nat × Nat) :
    (State.keepRead s e id q).pending = s.pending := by
  rfl

@[simp] theorem State.deliver_pending (s : State) (r : Result) :
    (State.deliver s r).pending = s.pending := by
  unfold State.deliver
  (repeat' (first | with_reducible rfl | split)) <;> simp only [State.request_pending, State.readRuns_pending, State.failDelivery_pending, State.sendResult_pending, State.keepRead_pending, foldl_pending, apply_ite State.pending, ite_self, implies_true]

@[simp] theorem State.holdResult_pending (s : State) (node ctx client job sess ref status : Nat) :
    (State.holdResult s node ctx client job sess ref status).pending = s.pending := by
  simp only [State.holdResult, State.deliver_pending, apply_ite State.pending, ite_self, implies_true]

@[simp] theorem State.endJob_pending (s : State) (c status : Nat) :
    (State.endJob s c status).pending = s.pending := by
  unfold State.endJob
  (repeat' (first | with_reducible rfl | split)) <;> simp only [State.bump_pending, State.request_pending, State.setJob_pending, State.progress_pending, State.enter_pending, State.dropSlot_pending, State.endCopies_pending, State.freeCtx_pending, State.holdResult_pending, apply_ite State.pending, ite_self, implies_true]

@[simp] theorem State.finishJob_pending (s : State) (c : Nat) :
    (State.finishJob s c).pending = s.pending := by
  unfold State.finishJob
  (repeat' (first | with_reducible rfl | split)) <;> simp only [State.endJob_pending, apply_ite State.pending, ite_self, implies_true]

/-! ### Stream -/

@[simp] theorem State.bellIgnored_pending (s : State) :
    (State.bellIgnored s).pending = s.pending := by
  simp only [State.bellIgnored, State.bump_pending, apply_ite State.pending, ite_self, implies_true]

@[simp] theorem State.bellFetch_pending (s : State) (c : Nat) :
    (State.bellFetch s c).pending = s.pending := by
  unfold State.bellFetch
  (repeat' (first | with_reducible rfl | split)) <;> simp only [State.bump_pending, State.drew_pending, apply_ite State.pending, ite_self, implies_true]

@[simp] theorem State.bellTail_pending (s : State) (c value : Nat) :
    (State.bellTail s c value).pending = s.pending := by
  unfold State.bellTail
  (repeat' (first | with_reducible rfl | split)) <;> simp only [State.setQueue_pending, State.bellIgnored_pending, apply_ite State.pending, ite_self, implies_true]

@[simp] theorem State.bellResume_pending (s : State) (c value : Nat) :
    (State.bellResume s c value).pending = s.pending := by
  unfold State.bellResume
  (repeat' (first | with_reducible rfl | split)) <;> simp only [State.setCtx_pending, apply_ite State.pending, ite_self, implies_true]

@[simp] theorem State.postAll_pending (s : State) :
    (State.postAll s).pending = s.pending := by
  simp only [State.postAll, apply_ite State.pending, ite_self, implies_true]

@[simp] theorem State.cellTake_pending (s : State) (cell : Nat) (v0 : Nat) :
    (State.cellTake s cell v0).pending = s.pending := by
  induction v0 generalizing s cell  with
  | zero =>
    first
    | rfl
    | (simp only [State.cellTake, State.bump_pending, State.setCell_pending, apply_ite State.pending, ite_self, implies_true]; done)
  | succ n ih =>
    first
    | (simp only [State.cellTake, State.bump_pending, State.setCell_pending, apply_ite State.pending, ite_self, implies_true, ih]; done)
    | (unfold State.cellTake; (repeat' (first | with_reducible rfl | split)) <;> (simp only [State.bump_pending, State.setCell_pending, apply_ite State.pending, ite_self, implies_true, ih]; done))
    | (unfold State.cellTake; (repeat' (first | with_reducible rfl | split)) <;> (try simp only [State.bump_pending, State.setCell_pending, apply_ite State.pending, ite_self, implies_true, ih]) <;> (repeat' (first | with_reducible rfl | split)) <;> (simp only [State.bump_pending, State.setCell_pending, apply_ite State.pending, ite_self, implies_true, ih]; done))

@[simp] theorem State.serveTasks_pending (s : State) :
    (State.serveTasks s).pending = s.pending := by
  simp only [State.serveTasks, State.postAll_pending, State.cellTake_pending, foldl_pending, apply_ite State.pending, ite_self, implies_true]

@[simp] theorem State.setGrid_pending (s : State) (c idx : Nat) (l : List (Nat × Nat × Nat × Nat)) :
    (State.setGrid s c idx l).pending = s.pending := by
  rfl

@[simp] theorem State.deal_pending (s : State) (c idx prio : Nat) (l : List (Nat × Nat × Nat × Nat)) (done : Nat → Nat → Option Progress) :
    (State.deal s c idx prio l done).pending = s.pending := by
  simp only [State.deal, State.bump_pending, State.serveTasks_pending, apply_ite State.pending, ite_self, implies_true]

@[simp] theorem State.retire_pending (s : State) (c : Nat) (v0 : Nat) :
    (State.retire s c v0).pending = s.pending := by
  induction v0 generalizing s c  with
  | zero =>
    first
    | rfl
    | (simp only [State.retire, State.setQueue_pending, apply_ite State.pending, ite_self, implies_true]; done)
  | succ n ih =>
    first
    | (simp only [State.retire, State.setQueue_pending, apply_ite State.pending, ite_self, implies_true, ih]; done)
    | (unfold State.retire; (repeat' (first | with_reducible rfl | split)) <;> (simp only [State.setQueue_pending, apply_ite State.pending, ite_self, implies_true, ih]; done))
    | (unfold State.retire; (repeat' (first | with_reducible rfl | split)) <;> (try simp only [State.setQueue_pending, apply_ite State.pending, ite_self, implies_true, ih]) <;> (repeat' (first | with_reducible rfl | split)) <;> (simp only [State.setQueue_pending, apply_ite State.pending, ite_self, implies_true, ih]; done))

@[simp] theorem State.haltQueue_pending (s : State) (c : Nat) (record : Bytes) :
    (State.haltQueue s c record).pending = s.pending := by
  unfold State.haltQueue
  (repeat' (first | with_reducible rfl | split)) <;> simp only [State.setCtx_pending, State.progress_pending, apply_ite State.pending, ite_self, implies_true]

@[simp] theorem State.leaveStream_pending (s : State) (f : InFlight) :
    (State.leaveStream s f).pending = s.pending := by
  simp only [State.leaveStream, apply_ite State.pending, ite_self, implies_true]

@[simp] theorem State.countWork_pending (s : State) (f : InFlight) :
    (State.countWork s f).pending = s.pending := by
  simp only [State.countWork, State.bumps_pending, State.drew_pending, apply_ite State.pending, ite_self, implies_true]

@[simp] theorem State.unspoil_pending (s t : State) (f : InFlight) : (State.unspoil s t f).pending = t.pending := by
  unfold State.unspoil
  split <;> rfl

@[simp] theorem State.putResult_pending (s : State) (f : InFlight) (w : Nat × Bytes) :
    (State.putResult s f w).pending = s.pending := by
  simp only [State.putResult, State.writeGlobal_pending, State.unspoil_pending, apply_ite State.pending, ite_self, implies_true]

@[simp] theorem State.settle_pending (s : State) (x : Ctx) (f : InFlight) :
    (State.settle s x f).pending = s.pending := by
  simp only [State.settle, State.bump_pending, State.writeBytes_pending, State.log_pending, State.setJob_pending, State.retire_pending, State.leaveStream_pending, State.countWork_pending, State.putResult_pending, foldl_pending, apply_ite State.pending, ite_self, implies_true]

@[simp] theorem State.completeNow_pending (s : State) (x : Ctx) (f : InFlight) :
    (State.completeNow s x f).pending = s.pending := by
  simp only [State.completeNow, State.finishJob_pending, State.serveTasks_pending, State.haltQueue_pending, State.settle_pending, apply_ite State.pending, ite_self, implies_true]

@[simp] theorem State.complete_pending (s : State) (c idx : Nat) :
    (State.complete s c idx).pending = s.pending := by
  unfold State.complete
  (repeat' (first | with_reducible rfl | split)) <;> simp only [State.completeNow_pending, apply_ite State.pending, ite_self, implies_true]

@[simp] theorem State.addFlight_pending (s : State) (f : InFlight) :
    (State.addFlight s f).pending = s.pending := by
  rfl

@[simp] theorem State.reject_pending (s : State) (f : InFlight) (code : Nat) :
    (State.reject s f code).pending = s.pending := by
  simp only [State.reject, State.addFlight_pending, apply_ite State.pending, ite_self, implies_true]

@[simp] theorem State.heldWriteBack_pending (s : State) (e : Env) :
    (State.heldWriteBack s e).pending = s.pending := by
  simp only [State.heldWriteBack, State.writeBack_pending, foldl_pending, apply_ite State.pending, ite_self, implies_true]

@[simp] theorem State.sawPoison_pending (s : State) (us : List Nat) :
    (State.sawPoison s us).pending = s.pending := by
  simp only [State.sawPoison, State.bump_pending, State.raise_pending, State.badReads_pending, foldl_pending, apply_ite State.pending, ite_self, implies_true]

@[simp] theorem State.scramble_pending (s : State) (f : InFlight) :
    (State.scramble s f).pending = s.pending := by
  simp only [State.scramble, State.drew_pending, State.writeBytes_pending, foldl_pending, apply_ite State.pending, ite_self, implies_true]

@[simp] theorem State.holdSheets_pending (s : State) (c : Nat) (l : Option (List SheetSet)) :
    (State.holdSheets s c l).pending = s.pending := by
  unfold State.holdSheets
  (repeat' (first | with_reducible rfl | split)) <;> simp only [apply_ite State.pending, ite_self, implies_true]

@[simp] theorem State.finishRun_pending (s : State) (o : Op) (e : Env) (f : InFlight) :
    (State.finishRun s o e f).pending = s.pending := by
  simp only [State.finishRun, State.bump_pending, State.bumps_pending, State.drew_pending, State.writeBytes_pending, State.setFlight_pending, State.readRuns_pending, State.setGrid_pending, State.deal_pending, State.unspoil_pending, State.sawPoison_pending, State.scramble_pending, State.holdSheets_pending, foldl_pending, apply_ite State.pending, ite_self, implies_true]

@[simp] theorem State.dropColl_pending (s : State) (c idx : Nat) :
    (State.dropColl s c idx).pending = s.pending := by
  rfl

@[simp] theorem State.failInstr_pending (s : State) (c idx code : Nat) :
    (State.failInstr s c idx code).pending = s.pending := by
  unfold State.failInstr
  (repeat' (first | with_reducible rfl | split)) <;> simp only [State.dropReqs_pending, State.setFlight_pending, State.scramble_pending, State.dropColl_pending, apply_ite State.pending, ite_self, implies_true]

@[simp] theorem State.countPath_pending (s : State) (deadline : Bool) (path : Nat) :
    (State.countPath s deadline path).pending = s.pending := by
  unfold State.countPath
  (repeat' (first | with_reducible rfl | split)) <;> simp only [State.bump_pending, apply_ite State.pending, ite_self, implies_true]

@[simp] theorem State.startPaths_pending (s : State) (e : Env) (f : InFlight) (lost : List Nat) :
    (State.startPaths s e f lost).pending = s.pending := by
  unfold State.startPaths
  (repeat' (first | with_reducible rfl | split)) <;> simp only [State.post_pending, State.countPath_pending, foldl_pending, apply_ite State.pending, ite_self, implies_true]

@[simp] theorem State.sendHistory_pending (s : State) (e : Env) (f : InFlight) (blocks : List Nat) :
    (State.sendHistory s e f blocks).pending = s.pending := by
  unfold State.sendHistory
  (repeat' (first | with_reducible rfl | split)) <;> simp only [State.request_pending, foldl_pending, apply_ite State.pending, ite_self, implies_true]

@[simp] theorem State.bring_pending (s : State) (o : Op) (e : Env) (f : InFlight) (go : State → InFlight → State)
    (h : ∀ s f, (go s f).pending = s.pending) :
    (s.bring o e f go).pending = s.pending := by
  unfold State.bring
  (repeat' split) <;>
    (try with_reducible rfl) <;>
    (try dsimp only) <;>
    (repeat' split) <;>
    simp only [h, State.failInstr_pending, foldl_pending, State.request_pending, implies_true]

@[simp] theorem State.launchTo_pending (s : State) (o : Op) (e : Env) (f : InFlight) (go : State → InFlight → State)
    (h : ∀ s f, (go s f).pending = s.pending) :
    (s.launchTo o e f go).pending = s.pending := by
  unfold State.launchTo
  dsimp only
  (repeat' split) <;>
    (try simp only [State.bring_pending _ _ _ _ _ h]) <;>
    simp only [h, State.failInstr_pending, State.addFlight_pending, State.sendHistory_pending, State.startPaths_pending, foldl_pending, State.request_pending, implies_true]

@[simp] theorem State.launch_pending (s : State) (o : Op) (e : Env) (f : InFlight) :
    (State.launch s o e f).pending = s.pending := by
  simp only [State.launch, State.finishRun_pending, State.launchTo_pending, apply_ite State.pending, ite_self, implies_true]

@[simp] theorem State.stall_pending (s : State) (c idx : Nat) :
    (State.stall s c idx).pending = s.pending := by
  simp only [State.stall, State.bump_pending, apply_ite State.pending, ite_self, implies_true]

@[simp] theorem State.slotRead_pending (s : State) (a : Nat) (o : Op) (e : Env) (all : Bool) :
    (State.slotRead s a o e all).pending = s.pending := by
  simp only [State.slotRead, State.readRuns_pending, apply_ite State.pending, ite_self, implies_true]

@[simp] theorem State.startMacro_pending (s : State) (m : Macro) (c idx : Nat)
    (h : ∀ go, m.start = some go → ∀ s e f, (go s e f).pending = s.pending) :
    (s.startMacro m c idx).pending = s.pending := by
  unfold State.startMacro
  split
  · rfl
  · cases hm : m.start with
    | none => simp only [apply_ite State.pending, ite_self, State.reject_pending, State.sawPoison_pending, State.heldWriteBack_pending,
        State.stall_pending, State.slotRead_pending, State.bump_pending, State.launch_pending]
    | some go => simp only [apply_ite State.pending, ite_self, State.reject_pending, State.sawPoison_pending, State.heldWriteBack_pending,
        State.stall_pending, State.slotRead_pending, State.bump_pending, h go hm]

@[simp] theorem startWait_pending (s : State) (e : Env) (f : InFlight) :
    (startWait s e f).pending = s.pending := by
  simp only [startWait, State.drew_pending, State.addFlight_pending, State.sawPoison_pending, apply_ite State.pending, ite_self, implies_true]

@[simp] theorem State.takeFailed_pending (s : State) (c : Nat) :
    (State.takeFailed s c).2.pending = s.pending := by
  rfl

@[simp] theorem State.semApply_pending (s : State) (a op operand : Nat) :
    (State.semApply s a op operand).pending = s.pending := by
  simp only [State.semApply, State.writeBytes_pending, apply_ite State.pending, ite_self, implies_true]

@[simp] theorem State.signalCopy_pending (s : State) (e : Env) (f : InFlight) :
    (State.signalCopy s e f).pending = s.pending := by
  simp only [State.signalCopy, State.copyWrite_pending, State.addFlight_pending, apply_ite State.pending, ite_self, implies_true]

@[simp] theorem startSignal_pending (s : State) (e : Env) (f : InFlight) :
    (startSignal s e f).pending = s.pending := by
  simp only [startSignal, State.request_pending, State.addFlight_pending, State.sawPoison_pending, State.scramble_pending, State.takeFailed_pending, State.semApply_pending, State.signalCopy_pending, apply_ite State.pending, ite_self, implies_true]

@[simp] theorem startFence_pending (s : State) (e : Env) (f : InFlight) :
    (startFence s e f).pending = s.pending := by
  simp only [startFence, State.addFlight_pending, State.takeFailed_pending, apply_ite State.pending, ite_self, implies_true]

@[simp] theorem startNop_pending (s : State) (_a0 : Env) (f : InFlight) :
    (startNop s _a0 f).pending = s.pending := by
  simp only [startNop, State.addFlight_pending, apply_ite State.pending, ite_self, implies_true]

@[simp] theorem State.endWait_pending (s : State) (f : InFlight) (code : Nat) :
    (State.endWait s f code).pending = s.pending := by
  simp only [State.endWait, State.drew_pending, State.setFlight_pending, State.complete_pending, State.sawPoison_pending, apply_ite State.pending, ite_self, implies_true]

/-! ### Ring -/

@[simp] theorem State.setColl_pending (s : State) (c idx : Nat) (f : Coll → Coll) :
    (State.setColl s c idx f).pending = s.pending := by
  rfl

@[simp] theorem State.failColl_pending (s : State) (c idx code : Nat) :
    (State.failColl s c idx code).pending = s.pending := by
  simp only [State.failColl, State.setFlight_pending, State.dropColl_pending, State.failInstr_pending, apply_ite State.pending, ite_self, implies_true]

@[simp] theorem State.endColl_pending (s : State) (x : Coll) (e : Env) (f : InFlight) (writes : List (Nat × Bytes)) :
    (State.endColl s x e f writes).pending = s.pending := by
  simp only [State.endColl, State.bump_pending, State.post_pending, State.writeGlobal_pending, State.setFlight_pending, State.dropColl_pending, foldl_pending, apply_ite State.pending, ite_self, implies_true]

@[simp] theorem State.narrowElems_pending (s : State) (x : Coll) (e : Env) (b : Bulk) (es : List Nat) :
    (State.narrowElems s x e b es).1.pending = s.pending := by
  simp only [State.narrowElems, State.bump_pending, State.setColl_pending, foldl_pending, apply_ite State.pending, ite_self, implies_true]

@[simp] theorem State.sendBulk_pending (s : State) (f : InFlight) (x : Coll) (node kind stage : Nat) (neg : Bool) (number : Nat) (last : Bool) (data : Bytes) :
    (State.sendBulk s f x node kind stage neg number last data).pending = s.pending := by
  simp only [State.sendBulk, State.sendPacket_pending, apply_ite State.pending, ite_self, implies_true]

@[simp] theorem State.pump_pending (s : State) (f : InFlight) (c idx : Nat) :
    (State.pump s f c idx).pending = s.pending := by
  unfold State.pump
  (repeat' (first | with_reducible rfl | split)) <;> simp only [State.bump_pending, State.setColl_pending, State.sendBulk_pending, foldl_pending, apply_ite State.pending, ite_self, implies_true]

@[simp] theorem State.sendHop_pending (s : State) (c idx : Nat) (e : Env) (b : Bulk) (h : Hop) (neg : Bool) :
    (State.sendHop s c idx e b h neg).pending = s.pending := by
  unfold State.sendHop
  (repeat' (first | with_reducible rfl | split)) <;> simp only [State.setColl_pending, State.narrowElems_pending, apply_ite State.pending, ite_self, implies_true]

@[simp] theorem State.narrowOwn_pending (s : State) (c idx : Nat) (e : Env) (b : Bulk) :
    (State.narrowOwn s c idx e b).pending = s.pending := by
  unfold State.narrowOwn
  (repeat' (first | with_reducible rfl | split)) <;> simp only [State.narrowElems_pending, apply_ite State.pending, ite_self, implies_true]

@[simp] theorem State.ackChunk_pending (s : State) (f : InFlight) (x : Coll) (k : Chunk) :
    (State.ackChunk s f x k).pending = s.pending := by
  simp only [State.ackChunk, State.sendBulk_pending, apply_ite State.pending, ite_self, implies_true]

@[simp] theorem State.openStage_pending (s : State) (c idx : Nat) (e : Env) (f : InFlight) (b : Bulk) (x : Coll) :
    (State.openStage s c idx e f b x).pending = s.pending := by
  unfold State.openStage
  (repeat' (first | with_reducible rfl | split)) <;> simp only [State.setColl_pending, State.pump_pending, State.sendHop_pending, State.narrowOwn_pending, State.ackChunk_pending, foldl_pending, apply_ite State.pending, ite_self, implies_true]

@[simp] theorem State.runColl_pending (s : State) (c idx : Nat) (v0 : Nat) :
    (State.runColl s c idx v0).pending = s.pending := by
  induction v0 generalizing s c idx  with
  | zero =>
    first
    | rfl
    | (simp only [State.runColl, State.setColl_pending, State.endColl_pending, State.openStage_pending, apply_ite State.pending, ite_self, implies_true]; done)
  | succ n ih =>
    first
    | (simp only [State.runColl, State.setColl_pending, State.endColl_pending, State.openStage_pending, apply_ite State.pending, ite_self, implies_true, ih]; done)
    | (unfold State.runColl; (repeat' (first | with_reducible rfl | split)) <;> (simp only [State.setColl_pending, State.endColl_pending, State.openStage_pending, apply_ite State.pending, ite_self, implies_true, ih]; done))
    | (unfold State.runColl; (repeat' (first | with_reducible rfl | split)) <;> (try simp only [State.setColl_pending, State.endColl_pending, State.openStage_pending, apply_ite State.pending, ite_self, implies_true, ih]) <;> (repeat' (first | with_reducible rfl | split)) <;> (simp only [State.setColl_pending, State.endColl_pending, State.openStage_pending, apply_ite State.pending, ite_self, implies_true, ih]; done))

@[simp] theorem State.beginColl_pending (s : State) (c idx : Nat) :
    (State.beginColl s c idx).pending = s.pending := by
  unfold State.beginColl
  (repeat' (first | with_reducible rfl | split)) <;> simp only [State.writeBytes_pending, State.setColl_pending, State.runColl_pending, foldl_pending, apply_ite State.pending, ite_self, implies_true]

@[simp] theorem State.goColl_pending (s : State) (e : Env) (f : InFlight) :
    (State.goColl s e f).pending = s.pending := by
  simp only [State.goColl, State.setFlight_pending, State.readRuns_pending, State.sawPoison_pending, State.failInstr_pending, State.setColl_pending, State.beginColl_pending, apply_ite State.pending, ite_self, implies_true]

@[simp] theorem State.knowMark_pending (s : State) (src part post : Nat) :
    (State.knowMark s src part post).pending = s.pending := by
  simp only [State.knowMark, State.post_pending, apply_ite State.pending, ite_self, implies_true]

@[simp] theorem State.badChunk_pending (s : State) (f : InFlight) (x : Coll) (k : Chunk) (code : Nat) :
    (State.badChunk s f x k code).pending = s.pending := by
  simp only [State.badChunk, State.bump_pending, State.setColl_pending, State.failColl_pending, State.sendBulk_pending, apply_ite State.pending, ite_self, implies_true]

@[simp] theorem State.gotChunk_pending (s : State) (x : Coll) (e : Env) (f : InFlight) (k : Chunk) (residue : Bool) :
    (State.gotChunk s x e f k residue).pending = s.pending := by
  unfold State.gotChunk
  simp only [State.setColl_pending, State.ackChunk_pending, State.runColl_pending, State.badChunk_pending, apply_ite State.pending, ite_self, implies_true]
  (repeat' (first | with_reducible rfl | split)) <;> (try with_reducible rfl) <;> simp only [State.setColl_pending, State.ackChunk_pending, State.runColl_pending, State.badChunk_pending, apply_ite State.pending, ite_self, implies_true]

@[simp] theorem State.gotCall_pending (s : State) (x : Coll) (k : Chunk) :
    (State.gotCall s x k).pending = s.pending := by
  simp only [State.gotCall, State.setColl_pending, State.failColl_pending, State.beginColl_pending, apply_ite State.pending, ite_self, implies_true]

@[simp] theorem State.bulk_pending (s : State) (k : Chunk) (residue : Bool) :
    (State.bulk s k residue).pending = s.pending := by
  unfold State.bulk
  simp only [State.bump_pending, State.setColl_pending, State.failColl_pending, State.sendBulk_pending, State.pump_pending, State.runColl_pending, State.knowMark_pending, State.gotChunk_pending, State.gotCall_pending, foldl_pending, apply_ite State.pending, ite_self, implies_true]
  (repeat' (first | with_reducible rfl | split)) <;> (try with_reducible rfl) <;> simp only [State.bump_pending, State.setColl_pending, State.failColl_pending, State.sendBulk_pending, State.pump_pending, State.runColl_pending, State.knowMark_pending, State.gotChunk_pending, State.gotCall_pending, foldl_pending, apply_ite State.pending, ite_self, implies_true]

@[simp] theorem State.joinOrder_pending (s : State) (f : InFlight) (group sig : Nat) (post : Bool) :
    (State.joinOrder s f group sig post).pending = s.pending := by
  simp only [State.joinOrder, State.post_pending, apply_ite State.pending, ite_self, implies_true]

@[simp] theorem State.joinColl_pending (s : State) (e : Env) (f : InFlight) :
    (State.joinColl s e f).pending = s.pending := by
  unfold State.joinColl
  simp only [State.sendBulk_pending, State.joinOrder_pending, foldl_pending, apply_ite State.pending, ite_self, implies_true]
  (repeat' (first | with_reducible rfl | split)) <;> (try with_reducible rfl) <;> simp only [State.sendBulk_pending, State.joinOrder_pending, foldl_pending, apply_ite State.pending, ite_self, implies_true]

@[simp] theorem State.hearCalls_pending (s : State) (group : Nat) :
    (State.hearCalls s group).pending = s.pending := by
  simp only [State.hearCalls, State.bulk_pending, foldl_pending, apply_ite State.pending, ite_self, implies_true]

@[simp] theorem startColl_pending (s : State) (e : Env) (f : InFlight) :
    (startColl s e f).pending = s.pending := by
  simp only [startColl, State.bump_pending, State.addFlight_pending, State.reject_pending, State.failInstr_pending, State.launchTo_pending, State.goColl_pending, State.joinColl_pending, State.hearCalls_pending, apply_ite State.pending, ite_self, implies_true]

@[simp] theorem State.sendCard_pending (s : State) (g : Group) (k : Card) (post q : Nat) :
    (State.sendCard s g k post q).pending = s.pending := by
  simp only [State.sendCard, State.post_pending, State.sendPacket_pending, apply_ite State.pending, ite_self, implies_true]

@[simp] theorem State.sendCards_pending (s : State) (f : InFlight) (x : Coll) (g : Group) (a : Nat) (payload : Bytes) :
    (State.sendCards s f x g a payload).pending = s.pending := by
  simp only [State.sendCards, State.sendCard_pending, foldl_pending, apply_ite State.pending, ite_self, implies_true]

@[simp] theorem State.runPost_pending (s : State) (c idx : Nat) (v0 : Nat) :
    (State.runPost s c idx v0).pending = s.pending := by
  induction v0 generalizing s c idx  with
  | zero =>
    first
    | rfl
    | (simp only [State.runPost, State.setColl_pending, State.failColl_pending, State.endColl_pending, State.sendCards_pending, apply_ite State.pending, ite_self, implies_true]; done)
  | succ n ih =>
    first
    | (simp only [State.runPost, State.setColl_pending, State.failColl_pending, State.endColl_pending, State.sendCards_pending, apply_ite State.pending, ite_self, implies_true, ih]; done)
    | (unfold State.runPost; (repeat' (first | with_reducible rfl | split)) <;> (simp only [State.setColl_pending, State.failColl_pending, State.endColl_pending, State.sendCards_pending, apply_ite State.pending, ite_self, implies_true, ih]; done))
    | (unfold State.runPost; (repeat' (first | with_reducible rfl | split)) <;> (try simp only [State.setColl_pending, State.failColl_pending, State.endColl_pending, State.sendCards_pending, apply_ite State.pending, ite_self, implies_true, ih]) <;> (repeat' (first | with_reducible rfl | split)) <;> (simp only [State.setColl_pending, State.failColl_pending, State.endColl_pending, State.sendCards_pending, apply_ite State.pending, ite_self, implies_true, ih]; done))

@[simp] theorem State.goPost_pending (s : State) (e : Env) (f : InFlight) :
    (State.goPost s e f).pending = s.pending := by
  unfold State.goPost
  simp only [State.setFlight_pending, State.readRuns_pending, State.sawPoison_pending, State.failInstr_pending, State.setColl_pending, State.sendCards_pending, State.runPost_pending, apply_ite State.pending, ite_self, implies_true]
  (repeat' (first | with_reducible rfl | split)) <;> (try with_reducible rfl) <;> simp only [State.setFlight_pending, State.readRuns_pending, State.sawPoison_pending, State.failInstr_pending, State.setColl_pending, State.sendCards_pending, State.runPost_pending, apply_ite State.pending, ite_self, implies_true]

@[simp] theorem startPost_pending (s : State) (e : Env) (f : InFlight) :
    (startPost s e f).pending = s.pending := by
  simp only [startPost, State.addFlight_pending, State.reject_pending, State.failInstr_pending, State.launchTo_pending, State.joinOrder_pending, State.goPost_pending, apply_ite State.pending, ite_self, implies_true]

/-! ### Intake -/

@[simp] theorem State.setIntk_pending (s : State) (c idx : Nat) (f : IntakeJob → IntakeJob) :
    (State.setIntk s c idx f).pending = s.pending := by
  rfl

@[simp] theorem State.dropIntk_pending (s : State) (c idx : Nat) :
    (State.dropIntk s c idx).pending = s.pending := by
  rfl

@[simp] theorem State.setIntkPipe_pending (s : State) (p : Nat) (f : Pipe → Pipe) :
    (State.setIntkPipe s p f).pending = s.pending := by
  rfl

@[simp] theorem startIntk_pending (s : State) (e : Env) (f : InFlight) :
    (startIntk s e f).pending = s.pending := by
  simp only [startIntk, State.readRuns_pending, State.addFlight_pending, State.failInstr_pending, apply_ite State.pending, ite_self, implies_true]

@[simp] theorem State.intkEnd_pending (s : State) (c idx : Nat) :
    (State.intkEnd s c idx).pending = s.pending := by
  unfold State.intkEnd
  (repeat' (first | with_reducible rfl | split)) <;> simp only [State.writeGlobal_pending, State.setFlight_pending, State.dropIntk_pending, foldl_pending, apply_ite State.pending, ite_self, implies_true]

@[simp] theorem State.countSlot_pending (s : State) (e : Env) (j : IntakeJob) (slot : Nat) (x : Sample) :
    (State.countSlot s e j slot x).pending = s.pending := by
  simp only [State.countSlot, State.bump_pending, apply_ite State.pending, ite_self, implies_true]

@[simp] theorem State.slotDone_pending (s : State) (pipe c idx slot code : Nat) :
    (State.slotDone s pipe c idx slot code).pending = s.pending := by
  unfold State.slotDone
  (repeat' (first | with_reducible rfl | split)) <;> simp only [State.bump_pending, State.dropReqs_pending, State.writeGlobal_pending, State.readRuns_pending, State.sawPoison_pending, State.setIntk_pending, State.setIntkPipe_pending, State.intkEnd_pending, State.countSlot_pending, foldl_pending, apply_ite State.pending, ite_self, implies_true]

@[simp] theorem State.dictLost_pending (s : State) (j : IntakeJob) :
    (State.dictLost s j).pending = s.pending := by
  simp only [State.dictLost, State.sawPoison_pending, State.failInstr_pending, State.dropIntk_pending, apply_ite State.pending, ite_self, implies_true]

@[simp] theorem State.slotJudged_pending (s : State) (pipe : Nat) (j : IntakeJob) (slot code : Nat) :
    (State.slotJudged s pipe j slot code).pending = s.pending := by
  simp only [State.slotJudged, State.slotDone_pending, State.dictLost_pending, apply_ite State.pending, ite_self, implies_true]

@[simp] theorem State.takeSample_pending (s : State) (pipe : Nat) :
    (State.takeSample s pipe).pending = s.pending := by
  unfold State.takeSample
  (repeat' (first | with_reducible rfl | split)) <;> simp only [State.bump_pending, State.request_pending, State.readRuns_pending, State.setIntk_pending, State.setIntkPipe_pending, State.slotDone_pending, State.slotJudged_pending, apply_ite State.pending, ite_self, implies_true]

@[simp] theorem State.sampleLost_pending (s : State) (c idx slot : Nat) :
    (State.sampleLost s c idx slot).pending = s.pending := by
  unfold State.sampleLost
  (repeat' (first | with_reducible rfl | split)) <;> simp only [State.slotDone_pending, apply_ite State.pending, ite_self, implies_true]

@[simp] theorem State.restartSample_pending (s : State) (pipe : Nat) :
    (State.restartSample s pipe).pending = s.pending := by
  unfold State.restartSample
  (repeat' (first | with_reducible rfl | split)) <;> simp only [State.bump_pending, State.dropReqs_pending, State.setIntk_pending, State.setIntkPipe_pending, apply_ite State.pending, ite_self, implies_true]

@[simp] theorem State.intkStarved_pending (s : State) :
    (State.intkStarved s).pending = s.pending := by
  simp only [State.intkStarved, State.failInstr_pending, State.dropIntk_pending, foldl_pending, apply_ite State.pending, ite_self, implies_true]

/-! ### Codec -/

@[simp] theorem State.setStream_pending (s : State) (i : Nat) (f : Codec → Codec) :
    (State.setStream s i f).pending = s.pending := by
  rfl

@[simp] theorem State.setCdc_pending (s : State) (c idx : Nat) (f : CodecJob → CodecJob) :
    (State.setCdc s c idx f).pending = s.pending := by
  rfl

@[simp] theorem State.dropCdc_pending (s : State) (c idx : Nat) :
    (State.dropCdc s c idx).pending = s.pending := by
  rfl

@[simp] theorem State.setCdcPipe_pending (s : State) (p : Nat) (f : Pipe → Pipe) :
    (State.setCdcPipe s p f).pending = s.pending := by
  rfl

@[simp] theorem State.idleCdc_pending (s : State) (c idx : Nat) :
    (State.idleCdc s c idx).pending = s.pending := by
  rfl

@[simp] theorem State.failCdc_pending (s : State) (j : CodecJob) (code : Nat) :
    (State.failCdc s j code).pending = s.pending := by
  simp only [State.failCdc, State.failInstr_pending, State.setStream_pending, State.dropCdc_pending, State.idleCdc_pending, apply_ite State.pending, ite_self, implies_true]

@[simp] theorem State.endCdc_pending (s : State) (c idx : Nat) (closed : Bool) :
    (State.endCdc s c idx closed).pending = s.pending := by
  unfold State.endCdc
  (repeat' (first | with_reducible rfl | split)) <;> simp only [State.writeGlobal_pending, State.setFlight_pending, State.dropCdc_pending, State.idleCdc_pending, apply_ite State.pending, ite_self, implies_true]

@[simp] theorem State.putCoded_pending (s : State) (e : Env) (j : CodecJob) (part : Nat) (l : List Bytes) :
    (State.putCoded s e j part l).pending = s.pending := by
  simp only [State.putCoded, State.bump_pending, State.writeGlobal_pending, State.setCdc_pending, foldl_pending, apply_ite State.pending, ite_self, implies_true]

@[simp] theorem State.encodeNext_pending (s : State) (x : Codec) (j : CodecJob) (e : Env) (part : Nat) :
    (State.encodeNext s x j e part).pending = s.pending := by
  simp only [State.encodeNext, State.setStream_pending, State.setCdc_pending, State.endCdc_pending, State.putCoded_pending, apply_ite State.pending, ite_self, implies_true]

@[simp] theorem State.outputFrame_pending (s : State) (x : Codec) (j : CodecJob) (e : Env) (part : Nat) (g : Frame) :
    (State.outputFrame s x j e part g).pending = s.pending := by
  simp only [State.outputFrame, State.bump_pending, State.writeGlobal_pending, State.setStream_pending, State.setCdc_pending, foldl_pending, apply_ite State.pending, ite_self, implies_true]

@[simp] theorem State.decodeOn_pending (s : State) (c idx : Nat) (v0 : Nat) :
    (State.decodeOn s c idx v0).pending = s.pending := by
  induction v0 generalizing s c idx  with
  | zero =>
    first
    | rfl
    | (simp only [State.decodeOn, State.bump_pending, State.setStream_pending, State.setCdc_pending, State.failCdc_pending, State.endCdc_pending, State.outputFrame_pending, apply_ite State.pending, ite_self, implies_true]; done)
  | succ n ih =>
    first
    | (simp only [State.decodeOn, State.bump_pending, State.setStream_pending, State.setCdc_pending, State.failCdc_pending, State.endCdc_pending, State.outputFrame_pending, apply_ite State.pending, ite_self, implies_true, ih]; done)
    | (unfold State.decodeOn; (repeat' (first | with_reducible rfl | split)) <;> (simp only [State.bump_pending, State.setStream_pending, State.setCdc_pending, State.failCdc_pending, State.endCdc_pending, State.outputFrame_pending, apply_ite State.pending, ite_self, implies_true, ih]; done))
    | (unfold State.decodeOn; (repeat' (first | with_reducible rfl | split)) <;> (try simp only [State.bump_pending, State.setStream_pending, State.setCdc_pending, State.failCdc_pending, State.endCdc_pending, State.outputFrame_pending, apply_ite State.pending, ite_self, implies_true, ih]) <;> (repeat' (first | with_reducible rfl | split)) <;> (simp only [State.bump_pending, State.setStream_pending, State.setCdc_pending, State.failCdc_pending, State.endCdc_pending, State.outputFrame_pending, apply_ite State.pending, ite_self, implies_true, ih]; done))

@[simp] theorem State.decodeNext_pending (s : State) (x : Codec) (j : CodecJob) (e : Env) (late : Bool) :
    (State.decodeNext s x j e late).pending = s.pending := by
  simp only [State.decodeNext, State.bump_pending, State.drew_pending, State.writeBytes_pending, State.setStream_pending, State.setCdc_pending, apply_ite State.pending, ite_self, implies_true]

@[simp] theorem State.closeEncoder_pending (s : State) (x : Codec) (j : CodecJob) (e : Env) (part : Nat) :
    (State.closeEncoder s x j e part).pending = s.pending := by
  simp only [State.closeEncoder, State.bump_pending, State.writeGlobal_pending, State.setStream_pending, State.setCdc_pending, State.endCdc_pending, State.putCoded_pending, apply_ite State.pending, ite_self, implies_true]

@[simp] theorem State.goCodec_pending (s : State) (e : Env) (f : InFlight) :
    (State.goCodec s e f).pending = s.pending := by
  unfold State.goCodec
  simp only [State.setFlight_pending, State.readRuns_pending, State.sawPoison_pending, State.setStream_pending, State.failCdc_pending, State.decodeOn_pending, State.closeEncoder_pending, apply_ite State.pending, ite_self, implies_true]
  (repeat' (first | with_reducible rfl | split)) <;> (try with_reducible rfl) <;> simp only [State.setFlight_pending, State.readRuns_pending, State.sawPoison_pending, State.setStream_pending, State.failCdc_pending, State.decodeOn_pending, State.closeEncoder_pending, apply_ite State.pending, ite_self, implies_true]

@[simp] theorem startOpen_pending (s : State) (e : Env) (f : InFlight) :
    (startOpen s e f).pending = s.pending := by
  simp only [startOpen, State.readRuns_pending, State.addFlight_pending, State.failInstr_pending, apply_ite State.pending, ite_self, implies_true]

@[simp] theorem startCodec_pending (s : State) (e : Env) (f : InFlight) :
    (startCodec s e f).pending = s.pending := by
  simp only [startCodec, State.launchTo_pending, State.goCodec_pending, startOpen_pending, apply_ite State.pending, ite_self, implies_true]

@[simp] theorem State.takeFrame_pending (s : State) (pipe : Nat) :
    (State.takeFrame s pipe).pending = s.pending := by
  unfold State.takeFrame
  (repeat' (first | with_reducible rfl | split)) <;> simp only [State.bump_pending, State.sawPoison_pending, State.setStream_pending, State.setCdcPipe_pending, State.failCdc_pending, apply_ite State.pending, ite_self, implies_true]

@[simp] theorem State.encodeOn_pending (s : State) (c idx : Nat) :
    (State.encodeOn s c idx).pending = s.pending := by
  unfold State.encodeOn
  (repeat' (first | with_reducible rfl | split)) <;> simp only [State.endCdc_pending, apply_ite State.pending, ite_self, implies_true]

@[simp] theorem State.frameDone_pending (s : State) (pipe : Nat) (late : Bool) :
    (State.frameDone s pipe late).pending = s.pending := by
  unfold State.frameDone
  (repeat' (first | with_reducible rfl | split)) <;> simp only [State.bump_pending, State.setCdcPipe_pending, State.encodeNext_pending, State.decodeOn_pending, State.decodeNext_pending, State.encodeOn_pending, apply_ite State.pending, ite_self, implies_true]

@[simp] theorem State.restartFrame_pending (s : State) (pipe : Nat) :
    (State.restartFrame s pipe).pending = s.pending := by
  unfold State.restartFrame
  simp only [State.bump_pending, State.setStream_pending, State.setCdcPipe_pending, apply_ite State.pending, ite_self, implies_true]
  (repeat' (first | with_reducible rfl | split)) <;> (try with_reducible rfl) <;> simp only [State.bump_pending, State.setStream_pending, State.setCdcPipe_pending, apply_ite State.pending, ite_self, implies_true]

@[simp] theorem State.cdcStarved_pending (s : State) :
    (State.cdcStarved s).pending = s.pending := by
  simp only [State.cdcStarved, State.failCdc_pending, foldl_pending, apply_ite State.pending, ite_self, implies_true]

/-! ### Instructions -/

@[simp] theorem State.goOn_pending (s : State) (o : Op) (e : Env) (f : InFlight) :
    (State.goOn s o e f).pending = s.pending := by
  simp only [State.goOn, State.finishRun_pending, State.goColl_pending, State.goPost_pending, State.goCodec_pending, apply_ite State.pending, ite_self, implies_true]

@[simp] theorem State.askHistory_pending (s : State) (c idx : Nat) :
    (State.askHistory s c idx).pending = s.pending := by
  unfold State.askHistory
  (repeat' (first | with_reducible rfl | split)) <;> simp only [State.request_pending, foldl_pending, apply_ite State.pending, ite_self, implies_true]

@[simp] theorem State.resumeRun_pending (s : State) (c idx : Nat) :
    (State.resumeRun s c idx).pending = s.pending := by
  unfold State.resumeRun
  (repeat' (first | with_reducible rfl | split)) <;> simp only [State.bring_pending, State.goOn_pending, apply_ite State.pending, ite_self, implies_true]

@[simp] theorem State.decideBlock_pending (s : State) (f : InFlight) (block path : Nat) :
    (State.decideBlock s f block path).pending = s.pending := by
  simp only [State.decideBlock, State.post_pending, State.setFlight_pending, State.failInstr_pending, State.countPath_pending, State.resumeRun_pending, apply_ite State.pending, ite_self, implies_true]

@[simp] theorem State.holdBlock_pending (s : State) (f : InFlight) (runs : List (Nat × Nat)) (data : Bytes) :
    (s.holdBlock f runs data).pending = s.pending := by
  induction runs generalizing s data with
  | nil => rfl
  | cons r l ih =>
    unfold State.holdBlock
    simp only [ih]

@[simp] theorem State.historyArrival_pending (s : State) (c idx block : Nat) (ok reply : Bool) (data : Bytes) :
    (State.historyArrival s c idx block ok reply data).pending = s.pending := by
  unfold State.historyArrival
  (repeat' (first | with_reducible rfl | split)) <;> simp only [State.bump_pending, State.dropReqs_pending, State.reply_pending, State.decideBlock_pending, State.holdBlock_pending, apply_ite State.pending, ite_self, implies_true]

@[simp] theorem State.historyLate_pending (s : State) (c idx block : Nat) :
    (State.historyLate s c idx block).pending = s.pending := by
  unfold State.historyLate
  (repeat' (first | with_reducible rfl | split)) <;> simp only [State.decideBlock_pending, apply_ite State.pending, ite_self, implies_true]

@[simp] theorem State.failDry_pending (s : State) :
    (State.failDry s).pending = s.pending := by
  simp only [State.failDry, State.failInstr_pending, foldl_pending, apply_ite State.pending, ite_self, implies_true]

@[simp] theorem State.reseedCell_pending (s : State) (cell : Nat) :
    (State.reseedCell s cell).pending = s.pending := by
  simp only [State.reseedCell, State.bump_pending, State.setCell_pending, State.failDry_pending, apply_ite State.pending, ite_self, implies_true]

/-! ### Memory -/

@[simp] theorem State.allocRoom_pending (s : State) (size : Nat) :
    (State.allocRoom s size).pending = s.pending := by
  simp only [State.allocRoom, State.makeRoom_pending, apply_ite State.pending, ite_self, implies_true]

@[simp] theorem State.allocHere_pending (s : State) (p size client : Nat) :
    (State.allocHere s p size client).1.pending = s.pending := by
  unfold State.allocHere
  simp only [State.clearRun_pending, State.allocRoom_pending, apply_ite State.pending, ite_self, implies_true]
  (repeat' (first | with_reducible rfl | split)) <;> (try with_reducible rfl) <;> simp only [State.clearRun_pending, State.allocRoom_pending, apply_ite State.pending, ite_self, implies_true]

@[simp] theorem State.askPeer_pending (s : State) (sess seq : Nat) (record : Bytes) (answered : Bool) (k : Nat) (v0 : Nat) :
    (State.askPeer s sess seq record answered k v0).pending = s.pending := by
  induction v0 generalizing s sess seq record answered k  with
  | zero =>
    first
    | rfl
    | (simp only [State.askPeer, State.request_pending, State.reply_pending, apply_ite State.pending, ite_self, implies_true]; done)
  | succ n ih =>
    first
    | (simp only [State.askPeer, State.request_pending, State.reply_pending, apply_ite State.pending, ite_self, implies_true, ih]; done)
    | (unfold State.askPeer; (repeat' (first | with_reducible rfl | split)) <;> (simp only [State.request_pending, State.reply_pending, apply_ite State.pending, ite_self, implies_true, ih]; done))
    | (unfold State.askPeer; (repeat' (first | with_reducible rfl | split)) <;> (try simp only [State.request_pending, State.reply_pending, apply_ite State.pending, ite_self, implies_true, ih]) <;> (repeat' (first | with_reducible rfl | split)) <;> (simp only [State.request_pending, State.reply_pending, apply_ite State.pending, ite_self, implies_true, ih]; done))

@[simp] theorem State.allocate_pending (s : State) (sess seq : Nat) (r : Bytes) :
    (State.allocate s sess seq r).pending = s.pending := by
  simp only [State.allocate, State.reply_pending, State.allocHere_pending, State.askPeer_pending, apply_ite State.pending, ite_self, implies_true]

@[simp] theorem State.granted_pending (s : State) (q : Req) (base : Nat) :
    (State.granted s q base).pending = s.pending := by
  simp only [State.granted, State.reply_pending, apply_ite State.pending, ite_self, implies_true]

@[simp] theorem State.dropObj_pending (s : State) (o : Obj) :
    (State.dropObj s o).pending = s.pending := by
  rfl

@[simp] theorem State.freeObj_pending (s : State) (sess seq g : Nat) :
    (State.freeObj s sess seq g).pending = s.pending := by
  unfold State.freeObj
  (repeat' (first | with_reducible rfl | split)) <;> simp only [State.request_pending, State.reply_pending, State.dropObj_pending, apply_ite State.pending, ite_self, implies_true]

@[simp] theorem State.refuseRequest_pending (s : State) (part src code : Nat) :
    (State.refuseRequest s part src code).pending = s.pending := by
  simp only [State.refuseRequest, State.bump_pending, State.refuse_pending, apply_ite State.pending, ite_self, implies_true]

@[simp] theorem State.startSession_pending (s : State) (n : Nat) (viaReset : Bool) :
    (State.startSession s n viaReset).pending = s.pending := by
  simp only [State.startSession, State.setChan_pending, State.retireWcb_pending, State.post_pending, foldl_pending, apply_ite State.pending, ite_self, implies_true]

@[simp] theorem State.dueSession_pending (s : State) (n : Nat) (viaReset : Bool) :
    (State.dueSession s n viaReset).pending = s.pending := by
  simp only [State.dueSession, State.setChan_pending, State.startSession_pending, apply_ite State.pending, ite_self, implies_true]

@[simp] theorem State.drainDetour_pending (s : State) (n : Nat) :
    (State.drainDetour s n).pending = s.pending := by
  simp only [State.drainDetour, State.setChan_pending, State.poisonUnits_pending, foldl_pending, apply_ite State.pending, ite_self, implies_true]

@[simp] theorem State.closeSession_pending (s : State) (n : Nat) :
    (State.closeSession s n).pending = s.pending := by
  simp only [State.closeSession, State.setCount_pending, State.drew_pending, State.post_pending, State.drainDetour_pending, apply_ite State.pending, ite_self, implies_true]

@[simp] theorem State.endSession_pending (s : State) (n : Nat) :
    (State.endSession s n).pending = s.pending := by
  unfold State.endSession
  simp only [State.startSession_pending, State.closeSession_pending, apply_ite State.pending, ite_self, implies_true]
  (repeat' (first | with_reducible rfl | split)) <;> (try with_reducible rfl) <;> simp only [State.startSession_pending, State.closeSession_pending, apply_ite State.pending, ite_self, implies_true]

@[simp] theorem State.trained_pending (s : State) (n : Nat) :
    (State.trained s n).pending = s.pending := by
  simp only [State.trained, State.bump_pending, State.drew_pending, State.setChan_pending, State.journal_pending, apply_ite State.pending, ite_self, implies_true]

@[simp] theorem applyRetrain_pending (value : Nat) (s : State) :
    (applyRetrain value s).1.pending = s.pending := by
  unfold applyRetrain
  (repeat' (first | with_reducible rfl | split)) <;> simp only [State.dueSession_pending, apply_ite State.pending, ite_self, implies_true]

@[simp] theorem State.wroteBack_pending (s : State) (q : Req) :
    (State.wroteBack s q).pending = s.pending := by
  simp only [State.wroteBack, State.bump_pending, apply_ite State.pending, ite_self, implies_true]

@[simp] theorem State.acked_pending (s : State) (q : Req) :
    (State.acked s q).pending = s.pending := by
  unfold State.acked
  (repeat' (first | with_reducible rfl | split)) <;> simp only [State.dropReqs_pending, State.writeBack_pending, State.setFlight_pending, State.reply_pending, State.freeCtx_pending, State.wroteBack_pending, apply_ite State.pending, ite_self, implies_true]

@[simp] theorem State.failReq_pending (s : State) (q : Req) (code : Nat) :
    (State.failReq s q code).pending = s.pending := by
  unfold State.failReq
  simp only [State.bump_pending, State.dropReqs_pending, State.chargeWrite_pending, State.lostBack_pending, State.lostFetch_pending, State.writeBack_pending, State.setFlight_pending, State.reply_pending, State.progress_pending, State.freeCtx_pending, State.failDelivery_pending, State.failInstr_pending, State.sampleLost_pending, State.historyArrival_pending, State.askPeer_pending, apply_ite State.pending, ite_self, implies_true]
  (repeat' (first | with_reducible rfl | split)) <;> (try with_reducible rfl) <;> simp only [State.bump_pending, State.dropReqs_pending, State.chargeWrite_pending, State.lostBack_pending, State.lostFetch_pending, State.writeBack_pending, State.setFlight_pending, State.reply_pending, State.progress_pending, State.freeCtx_pending, State.failDelivery_pending, State.failInstr_pending, State.sampleLost_pending, State.historyArrival_pending, State.askPeer_pending, apply_ite State.pending, ite_self, implies_true]

@[simp] theorem State.fillCopy_pending (s : State) (q : Req) (poisoned : List Nat) (data : Bytes) :
    (State.fillCopy s q poisoned data).pending = s.pending := by
  simp only [State.fillCopy, State.bump_pending, State.dropReqs_pending, State.writeBack_pending, foldl_pending, apply_ite State.pending, ite_self, implies_true]

@[simp] theorem State.answered_pending (s : State) (q : Req) (poisoned : List Nat) (data : Bytes) :
    (State.answered s q poisoned data).pending = s.pending := by
  unfold State.answered
  simp only [State.dropReqs_pending, State.deliver_pending, State.resumeRun_pending, State.askPeer_pending, State.granted_pending, State.acked_pending, State.fillCopy_pending, apply_ite State.pending, ite_self, implies_true]
  (repeat' (first | with_reducible rfl | split)) <;> (try with_reducible rfl) <;> simp only [State.dropReqs_pending, State.deliver_pending, State.resumeRun_pending, State.askPeer_pending, State.granted_pending, State.acked_pending, State.fillCopy_pending, apply_ite State.pending, ite_self, implies_true]

/-! ### Session -/

@[simp] theorem State.replyRaw_pending (s : State) (d : Dgram) (session seq status : Nat) :
    (State.replyRaw s d session seq status).pending = s.pending := by
  simp only [State.replyRaw, State.bump_pending, State.putDgram_pending, apply_ite State.pending, ite_self, implies_true]

@[simp] theorem State.resend_pending (s : State) (id : Nat) :
    (State.resend s id).pending = s.pending := by
  unfold State.resend
  (repeat' (first | with_reducible rfl | split)) <;> simp only [State.bump_pending, State.setSession_pending, State.emit_pending, foldl_pending, apply_ite State.pending, ite_self, implies_true]

@[simp] theorem State.drainQueue_pending (s : State) (id : Nat) (v0 : Nat) :
    (State.drainQueue s id v0).pending = s.pending := by
  induction v0 generalizing s id  with
  | zero =>
    first
    | rfl
    | (simp only [State.drainQueue, State.setSession_pending, State.emit_pending, apply_ite State.pending, ite_self, implies_true]; done)
  | succ n ih =>
    first
    | (simp only [State.drainQueue, State.setSession_pending, State.emit_pending, apply_ite State.pending, ite_self, implies_true, ih]; done)
    | (unfold State.drainQueue; (repeat' (first | with_reducible rfl | split)) <;> (simp only [State.setSession_pending, State.emit_pending, apply_ite State.pending, ite_self, implies_true, ih]; done))
    | (unfold State.drainQueue; (repeat' (first | with_reducible rfl | split)) <;> (try simp only [State.setSession_pending, State.emit_pending, apply_ite State.pending, ite_self, implies_true, ih]) <;> (repeat' (first | with_reducible rfl | split)) <;> (simp only [State.setSession_pending, State.emit_pending, apply_ite State.pending, ite_self, implies_true, ih]; done))

@[simp] theorem State.deliveredBy_pending (s : State) (id ack : Nat) :
    (State.deliveredBy s id ack).pending = s.pending := by
  simp only [State.deliveredBy, State.respond_pending, State.freeCtx_pending, foldl_pending, apply_ite State.pending, ite_self, implies_true]

@[simp] theorem State.takeAck_pending (s : State) (x : Session) (m : Msg) :
    (State.takeAck s x m).pending = s.pending := by
  simp only [State.takeAck, State.setSession_pending, State.resend_pending, State.drainQueue_pending, State.deliveredBy_pending, apply_ite State.pending, ite_self, implies_true]

@[simp] theorem State.sendAck_pending (s : State) (id : Nat) :
    (State.sendAck s id).pending = s.pending := by
  simp only [State.sendAck, State.sendLoose_pending, apply_ite State.pending, ite_self, implies_true]

@[simp] theorem State.owe_pending (s : State) (id : Nat) :
    (State.owe s id).pending = s.pending := by
  unfold State.owe
  simp only [State.setSession_pending, State.sendAck_pending, apply_ite State.pending, ite_self, implies_true]
  (repeat' (first | with_reducible rfl | split)) <;> (try with_reducible rfl) <;> simp only [State.setSession_pending, State.sendAck_pending, apply_ite State.pending, ite_self, implies_true]

@[simp] theorem State.accept_pending (s : State) (d : Dgram) (x : Session) (m : Msg) :
    (State.accept s d x m).pending = s.pending := by
  unfold State.accept
  simp only [State.bump_pending, State.setSession_pending, State.takeAck_pending, apply_ite State.pending, ite_self, implies_true]
  (repeat' (first | with_reducible rfl | split)) <;> (try with_reducible rfl) <;> simp only [State.bump_pending, State.setSession_pending, State.takeAck_pending, apply_ite State.pending, ite_self, implies_true]

@[simp] theorem State.courier_pending (s : State) (d : Dgram) (type : Nat) (mine : Bytes → Bool) (handle : State → Session → Nat → Bytes → State)
    (h : ∀ s x n b, (handle s x n b).pending = s.pending) :
    (s.courier d type mine handle).pending = s.pending := by
  unfold State.courier
  (repeat' (first | with_reducible rfl | split)) <;>
    (try simp only [State.bump_pending, State.replyRaw_pending, State.setSession_pending, State.owe_pending, State.reply_pending, State.sendAck_pending]) <;>
    (repeat' split) <;>
    simp only [h, State.bump_pending, State.replyRaw_pending, State.setSession_pending, State.owe_pending, State.reply_pending, State.sendAck_pending, State.accept_pending]

/-! ### Saving -/

@[simp] theorem State.stopTasks_pending (s : State) (x : Ctx) :
    (State.stopTasks s x).pending = s.pending := by
  simp only [State.stopTasks, foldl_pending, apply_ite State.pending, ite_self, implies_true]

/-! ### Office -/

@[simp] theorem State.refuseJob_pending (s : State) (sess seq code : Nat) :
    (State.refuseJob s sess seq code).pending = s.pending := by
  simp only [State.refuseJob, State.bump_pending, State.reply_pending, apply_ite State.pending, ite_self, implies_true]

@[simp] theorem State.startCtx_pending (s : State) (c : Nat) :
    (State.startCtx s c).pending = s.pending := by
  unfold State.startCtx
  (repeat' (first | with_reducible rfl | split)) <;> simp only [State.goLive_pending, State.finishJob_pending, apply_ite State.pending, ite_self, implies_true]

@[simp] theorem State.acceptCtx_pending (s : State) (sess seq : Nat) (x : Ctx) :
    (State.acceptCtx s sess seq x).pending = s.pending := by
  simp only [State.acceptCtx, State.bump_pending, State.reply_pending, State.enter_pending, apply_ite State.pending, ite_self, implies_true]

@[simp] theorem State.submitJob_pending (s : State) (sess client seq : Nat) (body : Bytes) :
    (State.submitJob s sess client seq body).pending = s.pending := by
  simp only [State.submitJob, State.journal_pending, State.refuseJob_pending, State.startCtx_pending, State.acceptCtx_pending, apply_ite State.pending, ite_self, implies_true]

@[simp] theorem State.grantSlot_pending (s : State) :
    (State.grantSlot s).pending = s.pending := by
  unfold State.grantSlot
  (repeat' (first | with_reducible rfl | split)) <;> simp only [State.startCtx_pending, foldl_pending, apply_ite State.pending, ite_self, implies_true]

@[simp] theorem State.saveDone_pending (s : State) (c : Nat) :
    (State.saveDone s c).pending = s.pending := by
  unfold State.saveDone
  (repeat' (first | with_reducible rfl | split)) <;> simp only [State.bump_pending, State.drew_pending, State.writeBytes_pending, State.poisonUnits_pending, State.post_pending, State.setCtx_pending, State.enter_pending, State.dropSlot_pending, State.serveTasks_pending, State.stopTasks_pending, apply_ite State.pending, ite_self, implies_true]

@[simp] theorem State.endAll_pending (s : State) (c code : Nat) (copies : Bool) :
    (State.endAll s c code copies).pending = s.pending := by
  unfold State.endAll
  (repeat' (first | with_reducible rfl | split)) <;> simp only [State.settle_pending, State.scramble_pending, foldl_pending, apply_ite State.pending, ite_self, implies_true]

@[simp] theorem State.errorStreams_pending (s : State) (c : Nat) :
    (State.errorStreams s c).pending = s.pending := by
  rfl

@[simp] theorem State.abortCtx_pending (s : State) (c code : Nat) (own : Bool) :
    (State.abortCtx s c code own).pending = s.pending := by
  unfold State.abortCtx
  (repeat' (first | with_reducible rfl | split)) <;> simp only [State.bump_pending, State.post_pending, State.log_pending, State.raise_pending, State.dropReqs_pending, State.setCtx_pending, State.dropSave_pending, State.runTriggers_pending, State.dropWork_pending, State.endJob_pending, State.serveTasks_pending, State.endAll_pending, State.errorStreams_pending, apply_ite State.pending, ite_self, implies_true]

@[simp] theorem State.redealAll_pending (s : State) (x : Ctx) (recs : List Loaded) (f : InFlight) :
    (State.redealAll s x recs f).pending = s.pending := by
  unfold State.redealAll
  (repeat' (first | with_reducible rfl | split)) <;> simp only [State.setGrid_pending, State.deal_pending, apply_ite State.pending, ite_self, implies_true]

@[simp] theorem State.takeArea_pending (s : State) (c : Nat) (area : Bytes) :
    (State.takeArea s c area).pending = s.pending := by
  simp only [State.takeArea, apply_ite State.pending, ite_self, implies_true]

@[simp] theorem State.restoreCtx_pending (s : State) (c : Nat) :
    (State.restoreCtx s c).pending = s.pending := by
  unfold State.restoreCtx
  (repeat' (first | with_reducible rfl | split)) <;> simp only [State.bump_pending, State.post_pending, State.setCtx_pending, State.setQueue_pending, State.setJob_pending, State.setFlight_pending, State.readRuns_pending, State.enter_pending, State.dropSlot_pending, State.dropSave_pending, State.runTriggers_pending, State.finishJob_pending, State.serveTasks_pending, State.sawPoison_pending, State.askHistory_pending, State.resumeRun_pending, State.failDry_pending, State.abortCtx_pending, State.redealAll_pending, State.takeArea_pending, foldl_pending, apply_ite State.pending, ite_self, implies_true]

@[simp] theorem State.suspendReq_pending (s : State) (c : Nat) :
    (State.suspendReq s c).1.pending = s.pending := by
  unfold State.suspendReq
  (repeat' (first | with_reducible rfl | split)) <;> simp only [State.setCtx_pending, State.suspendStart_pending, apply_ite State.pending, ite_self, implies_true]

@[simp] theorem State.resumeReq_pending (s : State) (c : Nat) :
    (State.resumeReq s c).1.pending = s.pending := by
  unfold State.resumeReq
  (repeat' (first | with_reducible rfl | split)) <;> simp only [State.setCtx_pending, apply_ite State.pending, ite_self, implies_true]

@[simp] theorem State.suspendPart_pending (s : State) (p : Nat) :
    (State.suspendPart s p).1.pending = s.pending := by
  unfold State.suspendPart
  simp only [State.suspendStart_pending, State.suspendReq_pending, foldl_pending, apply_ite State.pending, ite_self, implies_true]
  (repeat' (first | with_reducible rfl | split)) <;> (try with_reducible rfl) <;> simp only [State.suspendStart_pending, State.suspendReq_pending, foldl_pending, apply_ite State.pending, ite_self, implies_true]

@[simp] theorem State.importCtx_pending (s : State) (sess client seq : Nat) (body : Bytes) :
    (State.importCtx s sess client seq body).pending = s.pending := by
  simp only [State.importCtx, State.bump_pending, State.writeBytes_pending, State.readRuns_pending, State.refuseJob_pending, State.acceptCtx_pending, apply_ite State.pending, ite_self, implies_true]

@[simp] theorem applyQuota_pending (s : State) :
    (applyQuota s).1.pending = s.pending := by
  unfold applyQuota
  simp only [State.journal_pending, State.keep_pending, apply_ite State.pending, ite_self, implies_true]
  (repeat' (first | with_reducible rfl | split)) <;> (try with_reducible rfl) <;> simp only [State.journal_pending, State.keep_pending, apply_ite State.pending, ite_self, implies_true]

/-! ### Courier -/

@[simp] theorem State.openFor_pending (s : State) (d : Dgram) (m : Msg) :
    (State.openFor s d m).pending = s.pending := by
  unfold State.openFor
  simp only [State.bump_pending, State.replyRaw_pending, apply_ite State.pending, ite_self, implies_true]
  (repeat' (first | with_reducible rfl | split)) <;> (try with_reducible rfl) <;> simp only [State.bump_pending, State.replyRaw_pending, apply_ite State.pending, ite_self, implies_true]

@[simp] theorem State.sendData_pending (s : State) (sess seq : Nat) (v0 : Nat) (v1 : List Bytes) :
    (State.sendData s sess seq v0 v1).pending = s.pending := by
  induction v1 generalizing s sess seq v0 with
  | nil =>
    first
    | rfl
    | (simp only [State.sendData, State.sendMsg_pending, apply_ite State.pending, ite_self, implies_true]; done)
  | cons b l ih =>
    first
    | (simp only [State.sendData, State.sendMsg_pending, apply_ite State.pending, ite_self, implies_true, ih]; done)
    | (unfold State.sendData; (repeat' (first | with_reducible rfl | split)) <;> (simp only [State.sendMsg_pending, apply_ite State.pending, ite_self, implies_true, ih]; done))
    | (unfold State.sendData; (repeat' (first | with_reducible rfl | split)) <;> (try simp only [State.sendMsg_pending, apply_ite State.pending, ite_self, implies_true, ih]) <;> (repeat' (first | with_reducible rfl | split)) <;> (simp only [State.sendMsg_pending, apply_ite State.pending, ite_self, implies_true, ih]; done))

@[simp] theorem State.readFor_pending (s : State) (sess seq a n : Nat) :
    (State.readFor s sess seq a n).pending = s.pending := by
  simp only [State.readFor, State.readRuns_pending, State.reply_pending, State.sawPoison_pending, State.sendData_pending, apply_ite State.pending, ite_self, implies_true]

@[simp] theorem State.control_pending (s : State) (d : Dgram) (k : Nat) (f : State → Ctx → Nat → Controlled)
    (h : ∀ s x n, (f s x n).1.pending = s.pending) :
    (s.control d k f).pending = s.pending := by
  unfold State.control
  apply State.courier_pending
  intro s x n b
  (repeat' (first | with_reducible rfl | split)) <;> simp only [State.reply_pending, h]

@[simp] theorem controlled_pending (r : Applied) :
    (controlled r).1.pending = r.1.pending := by
  rfl

@[simp] theorem State.exportReq_pending (s : State) (c : Ctx) :
    (State.exportReq s c).1.pending = s.pending := by
  unfold State.exportReq
  (repeat' (first | with_reducible rfl | split)) <;> simp only [State.setCtx_pending, State.dropSlot_pending, apply_ite State.pending, ite_self, implies_true]

@[simp] theorem State.rebind_pending (s : State) (sess : Nat) (c : Ctx) (v : Nat) :
    (State.rebind s sess c v).pending = s.pending := by
  unfold State.rebind
  simp only [State.setJob_pending, State.deliver_pending, apply_ite State.pending, ite_self, implies_true]
  (repeat' (first | with_reducible rfl | split)) <;> (try with_reducible rfl) <;> simp only [State.setJob_pending, State.deliver_pending, apply_ite State.pending, ite_self, implies_true]

@[simp] theorem State.putRaw_pending (s : State) (port dest : Nat) (b : Bytes) :
    (State.putRaw s port dest b).pending = s.pending := by
  rfl

/-! ### Fabric -/

@[simp] theorem State.wire_pending (s : State) (port : Nat) (f : Flit) :
    (State.wire s port f).pending = s.pending := by
  rfl

@[simp] theorem State.sendFlit_pending (s : State) (port : Nat) (f : Flit) :
    (State.sendFlit s port f).pending = s.pending := by
  simp only [State.sendFlit, State.setPort_pending, State.wire_pending, apply_ite State.pending, ite_self, implies_true]

@[simp] theorem State.transmit_pending (s : State) (port : Nat) :
    (State.transmit s port).pending = s.pending := by
  unfold State.transmit
  simp only [State.bump_pending, State.setPort_pending, State.freePlace_pending, State.sendFlit_pending, apply_ite State.pending, ite_self, implies_true]
  (repeat' (first | with_reducible rfl | split)) <;> (try with_reducible rfl) <;> simp only [State.bump_pending, State.setPort_pending, State.freePlace_pending, State.sendFlit_pending, apply_ite State.pending, ite_self, implies_true]

@[simp] theorem State.takeAckSeq_pending (s : State) (port a : Nat) :
    (State.takeAckSeq s port a).pending = s.pending := by
  simp only [State.takeAckSeq, State.setPort_pending, apply_ite State.pending, ite_self, implies_true]

@[simp] theorem State.portFall_pending (s : State) (port : Nat) :
    (State.portFall s port).pending = s.pending := by
  simp only [State.portFall, State.bump_pending, State.watch_pending, State.setPort_pending, apply_ite State.pending, ite_self, implies_true]

@[simp] theorem State.replayPort_pending (s : State) (port : Nat) :
    (State.replayPort s port).pending = s.pending := by
  simp only [State.replayPort, State.bump_pending, State.setPort_pending, State.sendFlit_pending, State.portFall_pending, foldl_pending, apply_ite State.pending, ite_self, implies_true]

@[simp] theorem State.oweNak_pending (s : State) (port : Nat) :
    (State.oweNak s port).pending = s.pending := by
  simp only [State.oweNak, State.setPort_pending, apply_ite State.pending, ite_self, implies_true]

@[simp] theorem State.oweCredit_pending (s : State) (port : Nat) (f : Flit) :
    (State.oweCredit s port f).pending = s.pending := by
  simp only [State.oweCredit, State.setPort_pending, apply_ite State.pending, ite_self, implies_true]

@[simp] theorem State.takeFlit_pending (s : State) (port : Nat) (f : Flit) :
    (State.takeFlit s port f).pending = s.pending := by
  simp only [State.takeFlit, State.bump_pending, State.setPort_pending, State.refuse_pending, State.oweCredit_pending, apply_ite State.pending, ite_self, implies_true]

@[simp] theorem State.acceptFlit_pending (s : State) (port : Nat) (f : Flit) :
    (State.acceptFlit s port f).pending = s.pending := by
  simp only [State.acceptFlit, State.setPort_pending, State.routeFlit_pending, State.takeFlit_pending, apply_ite State.pending, ite_self, implies_true]

@[simp] theorem State.gotControl_pending (s : State) (port : Nat) (payload : Bytes) :
    (State.gotControl s port payload).pending = s.pending := by
  simp only [State.gotControl, State.watch_pending, State.setPort_pending, State.portFall_pending, apply_ite State.pending, ite_self, implies_true]

@[simp] theorem State.gotFlit_pending (s : State) (port : Nat) (f : Flit) :
    (State.gotFlit s port f).pending = s.pending := by
  simp only [State.gotFlit, State.setPort_pending, State.takeAckSeq_pending, State.replayPort_pending, State.oweNak_pending, State.acceptFlit_pending, State.gotControl_pending, apply_ite State.pending, ite_self, implies_true]

@[simp] theorem State.checkPort_pending (s : State) (port : Nat) :
    (State.checkPort s port).pending = s.pending := by
  simp only [State.checkPort, State.bump_pending, State.watch_pending, State.setPort_pending, State.rerouteHeld_pending, State.sendFlit_pending, foldl_pending, apply_ite State.pending, ite_self, implies_true]

@[simp] theorem State.recheckPorts_pending (s : State) :
    (State.recheckPorts s).pending = s.pending := by
  simp only [State.recheckPorts, State.checkPort_pending, foldl_pending, apply_ite State.pending, ite_self, implies_true]

@[simp] theorem State.fenceLane_pending (s : State) (port lane : Nat) :
    (State.fenceLane s port lane).pending = s.pending := by
  simp only [State.fenceLane, State.putFence_pending, apply_ite State.pending, ite_self, implies_true]

@[simp] theorem State.removeLane_pending (s : State) (port lane : Nat) :
    (State.removeLane s port lane).pending = s.pending := by
  simp only [State.removeLane, State.bump_pending, State.post_pending, State.setPort_pending, State.fenceLane_pending, apply_ite State.pending, ite_self, implies_true]

@[simp] theorem State.reWidth_pending (s : State) (port mask : Nat) :
    (State.reWidth s port mask).pending = s.pending := by
  simp only [State.reWidth, State.bump_pending, State.watch_pending, State.setPort_pending, State.sendFlit_pending, State.portFall_pending, foldl_pending, apply_ite State.pending, ite_self, implies_true]

@[simp] theorem State.startLane_pending (s : State) (port lane : Nat) :
    (State.startLane s port lane).pending = s.pending := by
  simp only [State.startLane, State.watch_pending, State.setPort_pending, apply_ite State.pending, ite_self, implies_true]

@[simp] theorem State.dueLane_pending (s : State) (port lane : Nat) :
    (State.dueLane s port lane).pending = s.pending := by
  simp only [State.dueLane, State.setPort_pending, State.startLane_pending, apply_ite State.pending, ite_self, implies_true]

@[simp] theorem State.nextLane_pending (s : State) :
    (State.nextLane s).pending = s.pending := by
  unfold State.nextLane
  (repeat' (first | with_reducible rfl | split)) <;> simp only [State.startLane_pending, apply_ite State.pending, ite_self, implies_true]

@[simp] theorem State.lostFlit_pending (s : State) (f : Flit) :
    (State.lostFlit s f).pending = s.pending := by
  unfold State.lostFlit
  (repeat' (first | with_reducible rfl | split)) <;> simp only [State.historyArrival_pending, State.failReq_pending, apply_ite State.pending, ite_self, implies_true]

@[simp] theorem State.discard_pending (s : State) (l : List Flit) :
    (State.discard s l).pending = s.pending := by
  simp only [State.discard, State.bump_pending, State.freePlace_pending, State.lostFlit_pending, foldl_pending, apply_ite State.pending, ite_self, implies_true]

@[simp] theorem State.lostFlits_pending (s : State) (l : List Flit) :
    (State.lostFlits s l).pending = s.pending := by
  simp only [State.lostFlits, State.lostFlit_pending, foldl_pending, apply_ite State.pending, ite_self, implies_true]

@[simp] theorem State.resetRouter_pending (s : State) :
    (State.resetRouter s).pending = s.pending := by
  simp only [State.resetRouter, State.watch_pending, State.lostFlits_pending, apply_ite State.pending, ite_self, implies_true]

@[simp] theorem State.clearLanes_pending (s : State) (port : Nat) :
    (State.clearLanes s port).pending = s.pending := by
  unfold State.clearLanes
  (try split)
  all_goals (try dsimp only)
  all_goals (first | with_reducible rfl | (refine (foldl_pending _ ?_ _ _).trans ?_))
  all_goals (try intro a b)
  all_goals (repeat' (first | with_reducible rfl | split)) <;> simp only [State.dropFence_pending, foldl_pending, apply_ite State.pending, ite_self, implies_true]

@[simp] theorem State.meetSeq_pending (s : State) (port n : Nat) :
    (State.meetSeq s port n).pending = s.pending := by
  simp only [State.meetSeq, State.setPort_pending, apply_ite State.pending, ite_self, implies_true]

@[simp] theorem State.laneLost_pending (s : State) (port lane : Nat) :
    (State.laneLost s port lane).pending = s.pending := by
  simp only [State.laneLost, State.portFall_pending, State.removeLane_pending, State.reWidth_pending, apply_ite State.pending, ite_self, implies_true]

@[simp] theorem applyLaneRetrain_pending (value : Nat) (s : State) :
    (applyLaneRetrain value s).1.pending = s.pending := by
  unfold applyLaneRetrain
  (repeat' (first | with_reducible rfl | split)) <;> simp only [State.dueLane_pending, apply_ite State.pending, ite_self, implies_true]

@[simp] theorem applyNode_pending (s : State) :
    (applyNode s).1.pending = s.pending := by
  unfold applyNode
  simp only [State.watch_pending, State.keep_pending, State.recheckPorts_pending, State.nextLane_pending, apply_ite State.pending, ite_self, implies_true]
  (repeat' (first | with_reducible rfl | split)) <;> (try with_reducible rfl) <;> simp only [State.watch_pending, State.keep_pending, State.recheckPorts_pending, State.nextLane_pending, apply_ite State.pending, ite_self, implies_true]

@[simp] theorem applyRoute_pending (s : State) :
    (applyRoute s).1.pending = s.pending := by
  unfold applyRoute
  simp only [State.dset_pending, State.rerouteHeld_pending, apply_ite State.pending, ite_self, implies_true]
  (repeat' (first | with_reducible rfl | split)) <;> (try with_reducible rfl) <;> simp only [State.dset_pending, State.rerouteHeld_pending, apply_ite State.pending, ite_self, implies_true]

@[simp] theorem applyRouteDefaults_pending (s : State) :
    (applyRouteDefaults s).1.pending = s.pending := by
  simp only [applyRouteDefaults, State.rerouteHeld_pending, apply_ite State.pending, ite_self, implies_true]

@[simp] theorem State.setEnable_pending (s : State) (value : Nat) :
    (State.setEnable s value).pending = s.pending := by
  simp only [State.setEnable, State.bump_pending, State.watch_pending, apply_ite State.pending, ite_self, implies_true]

@[simp] theorem State.portsDown_pending (s : State) :
    (State.portsDown s).pending = s.pending := by
  simp only [State.portsDown, State.bump_pending, State.watch_pending, State.discard_pending, apply_ite State.pending, ite_self, implies_true]

@[simp] theorem applyPortEnable_pending (value : Nat) (s : State) :
    (applyPortEnable value s).1.pending = s.pending := by
  unfold applyPortEnable
  (repeat' (first | with_reducible rfl | split)) <;> simp only [State.keep_pending, State.setEnable_pending, apply_ite State.pending, ite_self, implies_true]

/-! ### Collectives -/

@[simp] theorem State.relayCard_pending (s : State) (k : Card) (post : Nat) :
    (State.relayCard s k post).pending = s.pending := by
  unfold State.relayCard
  simp only [State.bump_pending, State.post_pending, State.sendCard_pending, apply_ite State.pending, ite_self, implies_true]
  (repeat' (first | with_reducible rfl | split)) <;> (try with_reducible rfl) <;> simp only [State.bump_pending, State.post_pending, State.sendCard_pending, apply_ite State.pending, ite_self, implies_true]

@[simp] theorem State.takeCard_pending (s : State) (k : Card) (post : Nat) :
    (State.takeCard s k post).pending = s.pending := by
  unfold State.takeCard
  simp only [State.bump_pending, State.post_pending, State.setColl_pending, State.failColl_pending, State.knowMark_pending, State.runPost_pending, apply_ite State.pending, ite_self, implies_true]
  (repeat' (first | with_reducible rfl | split)) <;> (try with_reducible rfl) <;> simp only [State.bump_pending, State.post_pending, State.setColl_pending, State.failColl_pending, State.knowMark_pending, State.runPost_pending, apply_ite State.pending, ite_self, implies_true]

@[simp] theorem State.ctrlDone_pending (s : State) :
    (State.ctrlDone s).pending = s.pending := by
  rfl

@[simp] theorem State.ctrlCards_pending (s : State) (x : Ctrl) (a : Nat) :
    (State.ctrlCards s x a).pending = s.pending := by
  simp only [State.ctrlCards, State.sendCard_pending, foldl_pending, apply_ite State.pending, ite_self, implies_true]

@[simp] theorem State.joinCtrl_pending (s : State) (sig : Nat) :
    (State.joinCtrl s sig).pending = s.pending := by
  unfold State.joinCtrl
  simp only [State.ctrlCards_pending, apply_ite State.pending, ite_self, implies_true]
  (repeat' (first | with_reducible rfl | split)) <;> (try with_reducible rfl) <;> simp only [State.ctrlCards_pending, apply_ite State.pending, ite_self, implies_true]

@[simp] theorem State.runCtrl_pending (s : State) (sig : Nat) (v0 : Nat) :
    (State.runCtrl s sig v0).pending = s.pending := by
  induction v0 generalizing s sig  with
  | zero =>
    first
    | rfl
    | (simp only [State.runCtrl, State.ctrlCards_pending, apply_ite State.pending, ite_self, implies_true]; done)
  | succ n ih =>
    first
    | (simp only [State.runCtrl, State.ctrlCards_pending, apply_ite State.pending, ite_self, implies_true, ih]; done)
    | (unfold State.runCtrl; (repeat' (first | with_reducible rfl | split)) <;> (simp only [State.ctrlCards_pending, apply_ite State.pending, ite_self, implies_true, ih]; done))
    | (unfold State.runCtrl; (repeat' (first | with_reducible rfl | split)) <;> (try simp only [State.ctrlCards_pending, apply_ite State.pending, ite_self, implies_true, ih]) <;> (repeat' (first | with_reducible rfl | split)) <;> (simp only [State.ctrlCards_pending, apply_ite State.pending, ite_self, implies_true, ih]; done))

@[simp] theorem State.takeCtrl_pending (s : State) (k : Card) (post : Nat) :
    (State.takeCtrl s k post).pending = s.pending := by
  simp only [State.takeCtrl, State.post_pending, State.relayCard_pending, State.joinCtrl_pending, State.runCtrl_pending, apply_ite State.pending, ite_self, implies_true]

@[simp] theorem State.ctrlOver_pending (s : State) (sig : Nat) :
    (State.ctrlOver s sig).pending = s.pending := by
  rfl

@[simp] theorem applyCtrlStart_pending (kind : Nat) (s : State) :
    (applyCtrlStart kind s).1.pending = s.pending := by
  unfold applyCtrlStart
  (repeat' (first | with_reducible rfl | split)) <;> simp only [State.dset_pending, State.joinCtrl_pending, apply_ite State.pending, ite_self, implies_true]

@[simp] theorem State.groupReset_pending (s : State) (group : Nat) :
    (State.groupReset s group).pending = s.pending := by
  simp only [State.groupReset, State.failColl_pending, foldl_pending, apply_ite State.pending, ite_self, implies_true]

/-! ### Keeping -/

@[simp] theorem State.growBad_pending (s : State) (ids : List Nat) :
    (State.growBad s ids).pending = s.pending := by
  simp only [State.growBad, State.journal_pending, State.watch_pending, foldl_pending, apply_ite State.pending, ite_self, implies_true]

@[simp] theorem State.placeImage_pending (s : State) (b : Bytes) (v0 : Nat) (v1 : Nat) :
    (State.placeImage s b v0 v1).1.pending = s.pending := by
  induction v0 generalizing s b v1 with
  | zero =>
    first
    | rfl
    | (simp only [State.placeImage, State.forceCommit_pending, State.journal_pending, State.watch_pending, State.growBad_pending, apply_ite State.pending, ite_self, implies_true]; done)
  | succ n ih =>
    first
    | (simp only [State.placeImage, State.forceCommit_pending, State.journal_pending, State.watch_pending, State.growBad_pending, apply_ite State.pending, ite_self, implies_true, ih]; done)
    | (unfold State.placeImage; (repeat' (first | with_reducible rfl | split)) <;> (simp only [State.forceCommit_pending, State.journal_pending, State.watch_pending, State.growBad_pending, apply_ite State.pending, ite_self, implies_true, ih]; done))
    | (unfold State.placeImage; (repeat' (first | with_reducible rfl | split)) <;> (try simp only [State.forceCommit_pending, State.journal_pending, State.watch_pending, State.growBad_pending, apply_ite State.pending, ite_self, implies_true, ih]) <;> (repeat' (first | with_reducible rfl | split)) <;> (simp only [State.forceCommit_pending, State.journal_pending, State.watch_pending, State.growBad_pending, apply_ite State.pending, ite_self, implies_true, ih]; done))

@[simp] theorem State.notStored_pending (s : State) :
    (State.notStored s).pending = s.pending := by
  simp only [State.notStored, State.bump_pending, State.raise_pending, apply_ite State.pending, ite_self, implies_true]

@[simp] theorem State.freeExtents_pending (s : State) (l : List Extent) :
    (State.freeExtents s l).pending = s.pending := by
  simp only [State.freeExtents, State.journal_pending, foldl_pending, apply_ite State.pending, ite_self, implies_true]

@[simp] theorem State.storeCullet_pending (s : State) (b : Bytes) :
    (State.storeCullet s b).pending = s.pending := by
  simp only [State.storeCullet, State.commitWith_pending, State.journal_pending, State.raise_pending, State.notStored_pending, State.freeExtents_pending, apply_ite State.pending, ite_self, implies_true]

@[simp] theorem State.storePosts_pending (s : State) (regions : List Nat) (n : Nat) :
    (State.storePosts s regions n).pending = s.pending := by
  simp only [State.storePosts, State.drew_pending, State.commitWith_pending, State.journal_pending, State.notStored_pending, State.freeExtents_pending, apply_ite State.pending, ite_self, implies_true]

@[simp] theorem State.reload_pending (s : State) :
    (State.reload s).pending = s.pending := by
  simp only [State.reload, State.log_pending, State.trained_pending, foldl_pending, apply_ite State.pending, ite_self, implies_true]

@[simp] theorem State.pageLost_pending (s : State) (b : NBlock) :
    (State.pageLost s b).pending = s.pending := by
  unfold State.pageLost
  (repeat' (first | with_reducible rfl | split)) <;> simp only [State.bump_pending, State.log_pending, State.watch_pending, State.placeImage_pending, State.freeExtents_pending, apply_ite State.pending, ite_self, implies_true]

@[simp] theorem applyStoreAll_pending (value : Nat) (s : State) :
    (applyStoreAll value s).1.pending = s.pending := by
  unfold applyStoreAll
  (repeat' (first | with_reducible rfl | split)) <;> simp only [State.forceCommit_pending, apply_ite State.pending, ite_self, implies_true]

@[simp] theorem applyRestore_pending (value : Nat) (s : State) :
    (applyRestore value s).1.pending = s.pending := by
  unfold applyRestore
  (repeat' (first | with_reducible rfl | split)) <;> simp only [apply_ite State.pending, ite_self, implies_true]

/-! ### Recovery -/

@[simp] theorem State.redealColumn_pending (s : State) (cell fault : Nat) (g : Nat × Nat × Nat) (ts : List Task) :
    (State.redealColumn s cell fault g ts).pending = s.pending := by
  simp only [State.redealColumn, State.bump_pending, State.setFlight_pending, State.failDry_pending, apply_ite State.pending, ite_self, implies_true]

@[simp] theorem State.leaveChains_pending (s : State) (cell : Nat) :
    (State.leaveChains s cell).pending = s.pending := by
  simp only [State.leaveChains, State.bump_pending, foldl_pending, apply_ite State.pending, ite_self, implies_true]

@[simp] theorem State.redealCell_pending (s : State) (cell fault : Nat) :
    (State.redealCell s cell fault).pending = s.pending := by
  simp only [State.redealCell, State.redealColumn_pending, foldl_pending, apply_ite State.pending, ite_self, implies_true]

@[simp] theorem State.metAgain_pending (s : State) (cell fault : Nat) :
    (State.metAgain s cell fault).pending = s.pending := by
  simp only [State.metAgain, State.failInstr_pending, foldl_pending, apply_ite State.pending, ite_self, implies_true]

@[simp] theorem State.clearCell_pending (s : State) (cell : Nat) :
    (State.clearCell s cell).pending = s.pending := by
  simp only [State.clearCell, State.clearRun_pending, State.reseedCell_pending, apply_ite State.pending, ite_self, implies_true]

@[simp] theorem State.checkBarren_pending (s : State) (p : Nat) :
    (State.checkBarren s p).pending = s.pending := by
  simp only [State.checkBarren, apply_ite State.pending, ite_self, implies_true]

@[simp] theorem State.setIntakePipe_pending (s : State) (i : Nat) (f : Pipe → Pipe) :
    (State.setIntakePipe s i f).pending = s.pending := by
  rfl

@[simp] theorem State.setCodecPipe_pending (s : State) (i : Nat) (f : Pipe → Pipe) :
    (State.setCodecPipe s i f).pending = s.pending := by
  rfl

@[simp] theorem State.fenceNow_pending (s : State) (unit origin cause : Nat) :
    (State.fenceNow s unit origin cause).pending = s.pending := by
  unfold State.fenceNow
  (repeat' (first | with_reducible rfl | split)) <;> simp only [State.setCell_pending, State.watch_pending, State.putFence_pending, State.markChannel_pending, State.serveTasks_pending, State.restartSample_pending, State.intkStarved_pending, State.restartFrame_pending, State.cdcStarved_pending, State.laneLost_pending, State.leaveChains_pending, State.redealCell_pending, State.checkBarren_pending, State.setIntakePipe_pending, State.setCodecPipe_pending, apply_ite State.pending, ite_self, implies_true]

@[simp] theorem applyFence_pending (s : State) :
    (applyFence s).1.pending = s.pending := by
  unfold applyFence
  simp only [State.dset_pending, State.putFence_pending, State.fenceNow_pending, apply_ite State.pending, ite_self, implies_true]
  (repeat' (first | with_reducible rfl | split)) <;> (try with_reducible rfl) <;> simp only [State.dset_pending, State.putFence_pending, State.fenceNow_pending, apply_ite State.pending, ite_self, implies_true]

@[simp] theorem State.countReset_pending (s : State) (unit : Nat) :
    (State.countReset s unit).1.pending = s.pending := by
  unfold State.countReset
  (repeat' (first | with_reducible rfl | split)) <;> simp only [State.setCell_pending, State.setIntakePipe_pending, State.setCodecPipe_pending, apply_ite State.pending, ite_self, implies_true]

@[simp] theorem State.resetWork_pending (s : State) (unit cause : Nat) :
    (State.resetWork s unit cause).pending = s.pending := by
  unfold State.resetWork
  (repeat' (first | with_reducible rfl | split)) <;> simp only [State.serveTasks_pending, State.restartSample_pending, State.restartFrame_pending, State.dueSession_pending, State.redealCell_pending, State.metAgain_pending, State.clearCell_pending, apply_ite State.pending, ite_self, implies_true]

@[simp] theorem State.engineReset_pending (s : State) (unit cause : Nat) :
    (State.engineReset s unit cause).pending = s.pending := by
  simp only [State.engineReset, State.bump_pending, State.post_pending, State.log_pending, State.raise_pending, State.fenceNow_pending, State.countReset_pending, State.resetWork_pending, apply_ite State.pending, ite_self, implies_true]

@[simp] theorem State.resetPart_pending (s : State) (p cause : Nat) :
    (State.resetPart s p cause).pending = s.pending := by
  simp only [State.resetPart, State.bump_pending, State.post_pending, State.log_pending, State.raise_pending, apply_ite State.pending, ite_self, implies_true]

@[simp] theorem State.annealCtx_pending (s : State) (c : Nat) :
    (State.annealCtx s c).pending = s.pending := by
  simp only [State.annealCtx, State.setCtx_pending, State.dropSave_pending, State.dropWork_pending, State.endJob_pending, State.endAll_pending, State.errorStreams_pending, apply_ite State.pending, ite_self, implies_true]

@[simp] theorem State.restartPart_pending (s : State) (p : Nat) :
    (State.restartPart s p).pending = s.pending := by
  simp only [State.restartPart, State.watch_pending, State.startCtx_pending, State.checkBarren_pending, foldl_pending, apply_ite State.pending, ite_self, implies_true]

@[simp] theorem State.anneal_pending (s : State) (p : Nat) :
    (State.anneal s p).pending = s.pending := by
  simp only [State.anneal, State.setCell_pending, State.clearRun_pending, State.dropReqs_pending, State.answered_pending, State.storePosts_pending, State.clearCell_pending, State.annealCtx_pending, State.restartPart_pending, foldl_pending, apply_ite State.pending, ite_self, implies_true]

@[simp] theorem State.collect_pending (s : State) (cause : Nat) (hung : Option Nat) :
    (State.collect s cause hung).pending = s.pending := by
  simp only [State.collect, State.bump_pending, State.drew_pending, State.storeCullet_pending, State.storePosts_pending, apply_ite State.pending, ite_self, implies_true]

@[simp] theorem State.logLost_pending (s : State) (l : List Copy) :
    (State.logLost s l).pending = s.pending := by
  simp only [State.logLost, State.bump_pending, State.log_pending, State.raise_pending, foldl_pending, apply_ite State.pending, ite_self, implies_true]

@[simp] theorem State.unitsReset_pending (s : State) :
    (State.unitsReset s).pending = s.pending := by
  simp only [State.unitsReset, State.watch_pending, State.drainDetour_pending, State.trained_pending, State.answered_pending, State.logLost_pending, foldl_pending, apply_ite State.pending, ite_self, implies_true]

@[simp] theorem State.restoreNow_pending (s : State) :
    (State.restoreNow s).pending = s.pending := by
  simp only [State.restoreNow, State.journal_pending, State.keep_pending, foldl_pending, apply_ite State.pending, ite_self, implies_true]

@[simp] theorem State.settleFences_pending (s : State) :
    (State.settleFences s).pending = s.pending := by
  simp only [State.settleFences, State.putFence_pending, State.dropFence_pending, foldl_pending, apply_ite State.pending, ite_self, implies_true]

@[simp] theorem State.flagFences_pending (s : State) :
    (State.flagFences s).pending = s.pending := by
  simp only [State.flagFences, apply_ite State.pending, ite_self, implies_true]

@[simp] theorem State.trainFailed_pending (s : State) (n : Nat) :
    (State.trainFailed s n).pending = s.pending := by
  simp only [State.trainFailed, State.bump_pending, State.setChan_pending, State.raise_pending, State.markChannel_pending, apply_ite State.pending, ite_self, implies_true]

@[simp] theorem State.layOut_pending (s : State) (failed : List Nat) :
    (State.layOut s failed).1.pending = s.pending := by
  simp only [State.layOut, apply_ite State.pending, ite_self, implies_true]

@[simp] theorem State.startPower_pending (s : State) :
    (State.startPower s).pending = s.pending := by
  simp only [State.startPower, State.keep_pending, apply_ite State.pending, ite_self, implies_true]

@[simp] theorem State.endLost_pending (s : State) (lost : Bool) :
    (State.endLost s lost).pending = s.pending := by
  simp only [State.endLost, State.dropSave_pending, State.endJob_pending, State.endAll_pending, foldl_pending, apply_ite State.pending, ite_self, implies_true]

@[simp] theorem State.serve_pending (s : State) (failed : List Nat) :
    (State.serve s failed).pending = s.pending := by
  simp only [State.serve, State.flushEmergency_pending, State.watch_pending, State.restoreNow_pending, State.settleFences_pending, State.flagFences_pending, State.trainFailed_pending, State.layOut_pending, State.startPower_pending, State.endLost_pending, foldl_pending, apply_ite State.pending, ite_self, implies_true]

@[simp] theorem State.enterBootstrap_pending (s : State) :
    (State.enterBootstrap s).pending = s.pending := by
  rfl

@[simp] theorem State.startUp_pending (s : State) (failed : List Nat) :
    (State.startUp s failed).pending = s.pending := by
  simp only [State.startUp, State.reseedCell_pending, State.serve_pending, State.enterBootstrap_pending, foldl_pending, apply_ite State.pending, ite_self, implies_true]

@[simp] theorem State.freeze_pending (s : State) (cause unit severity : Nat) (record hung : Bool) :
    (State.freeze s cause unit severity record hung).pending = s.pending := by
  simp only [State.freeze, State.retireWcb_pending, State.commit_pending, State.post_pending, State.log_pending, State.reload_pending, State.collect_pending, foldl_pending, apply_ite State.pending, ite_self, implies_true]

@[simp] theorem State.chipReset_pending (s : State) (cause unit : Nat) (fault record hung : Bool) :
    (State.chipReset s cause unit fault record hung).pending = s.pending := by
  simp only [State.chipReset, State.bump_pending, State.raise_pending, State.unitsReset_pending, State.startUp_pending, State.freeze_pending, apply_ite State.pending, ite_self, implies_true]

@[simp] theorem State.powerCycle_pending (s : State) (cause : Nat) :
    (State.powerCycle s cause).pending = s.pending := by
  simp only [State.powerCycle, State.bump_pending, State.commit_pending, State.freeze_pending, apply_ite State.pending, ite_self, implies_true]

@[simp] theorem State.writeReset_pending (s : State) (v : Nat) :
    (State.writeReset s v).pending = s.pending := by
  simp only [State.writeReset, State.answerWrite_pending, State.resetPart_pending, State.chipReset_pending, State.powerCycle_pending, apply_ite State.pending, ite_self, implies_true]

@[simp] theorem applyFaultClear_pending (value : Nat) (s : State) :
    (applyFaultClear value s).1.pending = s.pending := by
  rfl

@[simp] theorem State.marTasks_pending (s : State) (cell : Nat) :
    (State.marTasks s cell).pending = s.pending := by
  rfl

/-! ### Security -/

@[simp] theorem State.blowFailed_pending (s : State) :
    (State.blowFailed s).pending = s.pending := by
  simp only [State.blowFailed, State.log_pending, apply_ite State.pending, ite_self, implies_true]

@[simp] theorem State.refuseToken_pending (s : State) (code : Nat) :
    (State.refuseToken s code).pending = s.pending := by
  simp only [State.refuseToken, State.bump_pending, apply_ite State.pending, ite_self, implies_true]

@[simp] theorem State.acceptToken_pending (s : State) :
    (State.acceptToken s).pending = s.pending := by
  simp only [State.acceptToken, State.bump_pending, apply_ite State.pending, ite_self, implies_true]

@[simp] theorem State.token_pending (s : State) (op : Nat) (b : Bytes) (blowOk : Bool) (f : State → State)
    (h : ∀ s, (f s).pending = s.pending) :
    (s.token op b blowOk f).pending = s.pending := by
  unfold State.token
  (repeat' (first | with_reducible rfl | split)) <;>
    (try simp only [State.abort_pending]) <;> (repeat' split) <;>
    simp only [h, State.abort_pending, State.refuseToken_pending, State.blowFailed_pending, State.acceptToken_pending, State.answerWrite_pending]

@[simp] theorem State.eraseIdentity_pending (s : State) :
    (State.eraseIdentity s).pending = s.pending := by
  simp only [State.eraseIdentity, State.forceCommit_pending, State.keep_pending, State.restoreNow_pending, apply_ite State.pending, ite_self, implies_true]

@[simp] theorem State.changeLife_pending (s : State) (new : Nat) :
    (State.changeLife s new).pending = s.pending := by
  simp only [State.changeLife, State.chipReset_pending, State.eraseIdentity_pending, apply_ite State.pending, ite_self, implies_true]

@[simp] theorem State.raiseVersion_pending (s : State) (blowOk : Bool) :
    (State.raiseVersion s blowOk).1.pending = s.pending := by
  unfold State.raiseVersion
  simp only [apply_ite State.pending, ite_self, implies_true]
  (repeat' (first | with_reducible rfl | split)) <;> (try with_reducible rfl) <;> simp only [apply_ite State.pending, ite_self, implies_true]

@[simp] theorem State.commitBlob_pending (s : State) (x : Identity) :
    (State.commitBlob s x).pending = s.pending := by
  simp only [State.commitBlob, State.drew_pending, State.forceCommit_pending, State.journal_pending, apply_ite State.pending, ite_self, implies_true]

@[simp] theorem State.provisioned_pending (s : State) (blowOk : Bool) :
    (State.provisioned s blowOk).1.pending = s.pending := by
  unfold State.provisioned
  (repeat' (first | with_reducible rfl | split)) <;> simp only [State.setEnable_pending, State.commitBlob_pending, apply_ite State.pending, ite_self, implies_true]

@[simp] theorem State.rotated_pending (s : State) :
    (State.rotated s).1.pending = s.pending := by
  unfold State.rotated
  (repeat' (first | with_reducible rfl | split)) <;> simp only [State.bump_pending, State.drew_pending, State.forceCommit_pending, State.journal_pending, apply_ite State.pending, ite_self, implies_true]

@[simp] theorem applyNonce_pending (nonce : Bytes) (s : State) :
    (applyNonce nonce s).1.pending = s.pending := by
  unfold applyNonce
  (repeat' (first | with_reducible rfl | split)) <;> simp only [apply_ite State.pending, ite_self, implies_true]

@[simp] theorem applyRelock_pending (s : State) :
    (applyRelock s).1.pending = s.pending := by
  unfold applyRelock
  (repeat' (first | with_reducible rfl | split)) <;> simp only [apply_ite State.pending, ite_self, implies_true]

@[simp] theorem applyDebugWrite_pending (data : Bytes) (s : State) :
    (applyDebugWrite data s).1.pending = s.pending := by
  unfold applyDebugWrite
  simp only [State.bump_pending, State.writeBytes_pending, apply_ite State.pending, ite_self, implies_true]
  (repeat' (first | with_reducible rfl | split)) <;> (try with_reducible rfl) <;> simp only [State.bump_pending, State.writeBytes_pending, apply_ite State.pending, ite_self, implies_true]

@[simp] theorem State.bypass_pending (s : State) (code : Nat) (tdi : Bool) :
    (State.bypass s code tdi).pending = s.pending := by
  rfl

@[simp] theorem State.tap_pending (s : State) (code : Nat) (f : State → State)
    (h : ∀ s, (f s).pending = s.pending) :
    (s.tap code f).pending = s.pending := by
  unfold State.tap
  (repeat' (first | with_reducible rfl | split)) <;> simp only [h, State.bypass_pending]

@[simp] theorem State.linksDown_pending (s : State) :
    (State.linksDown s).pending = s.pending := by
  simp only [State.linksDown, State.portsDown_pending, apply_ite State.pending, ite_self, implies_true]

@[simp] theorem State.pins_pending (s : State) :
    (State.pins s).pending = s.pending := by
  simp only [State.pins, State.drew_pending, apply_ite State.pending, ite_self, implies_true]

/-! ### Board -/

@[simp] theorem State.regionOff_pending (s : State) (r : Nat) :
    (State.regionOff s r).pending = s.pending := by
  simp only [State.regionOff, State.clearRun_pending, apply_ite State.pending, ite_self, implies_true]

@[simp] theorem State.enterHold_pending (s : State) :
    (State.enterHold s).pending = s.pending := by
  simp only [State.enterHold, State.bump_pending, State.retireWcb_pending, State.sendMsg_pending, State.closeSession_pending, State.trained_pending, foldl_pending, apply_ite State.pending, ite_self, implies_true]

@[simp] theorem State.setPower_pending (s : State) (target trim : Nat) :
    (State.setPower s target trim).pending = s.pending := by
  simp only [State.setPower, State.restartPart_pending, State.regionOff_pending, State.enterHold_pending, foldl_pending, apply_ite State.pending, ite_self, implies_true]

@[simp] theorem applyPower_pending (s : State) :
    (applyPower s).1.pending = s.pending := by
  unfold applyPower
  simp only [State.keep_pending, State.setPower_pending, apply_ite State.pending, ite_self, implies_true]
  (repeat' (first | with_reducible rfl | split)) <;> (try with_reducible rfl) <;> simp only [State.keep_pending, State.setPower_pending, apply_ite State.pending, ite_self, implies_true]

@[simp] theorem State.writePower_pending (s : State) (target value : Nat) :
    (State.writePower s target value).pending = s.pending := by
  simp only [State.writePower, State.trigger_pending, applyPower_pending, apply_ite State.pending, ite_self, implies_true]

@[simp] theorem State.powerLost_pending (s : State) :
    (State.powerLost s).pending = s.pending := by
  simp only [State.powerLost, State.drew_pending, State.commitWith_pending, State.storePosts_pending, apply_ite State.pending, ite_self, implies_true]

@[simp] theorem State.perstReset_pending (s : State) :
    (State.perstReset s).pending = s.pending := by
  simp only [State.perstReset, State.bump_pending, State.resetRouter_pending, State.unitsReset_pending, State.freeze_pending, apply_ite State.pending, ite_self, implies_true]

@[simp] theorem State.coldState_pending (s : State) (nandOk : Bool) :
    (State.coldState s nandOk).pending = s.pending := by
  simp only [State.coldState, apply_ite State.pending, ite_self, implies_true]

@[simp] theorem State.routerStart_pending (s : State) :
    (State.routerStart s).pending = s.pending := by
  rfl

@[simp] theorem State.coldStart_pending (s : State) (failed : List Nat) :
    (State.coldStart s failed).pending = s.pending := by
  simp only [State.coldStart, State.log_pending, State.enterBootstrap_pending, State.startUp_pending, apply_ite State.pending, ite_self, implies_true]

@[simp] theorem State.sense_pending (s : State) (die device : Nat) :
    (State.sense s die device).pending = s.pending := by
  simp only [State.sense, State.watch_pending, apply_ite State.pending, ite_self, implies_true]

@[simp] theorem State.foeError_pending (s : State) (code status : Nat) :
    (State.foeError s code status).pending = s.pending := by
  simp only [State.foeError, State.placeSm1_pending, apply_ite State.pending, ite_self, implies_true]

@[simp] theorem State.takeImage_pending (s : State) (b : Bytes) (readBack : Nat) :
    (State.takeImage s b readBack).pending = s.pending := by
  simp only [State.takeImage, State.bump_pending, State.placeSm1_pending, State.placeImage_pending, State.serve_pending, State.foeError_pending, apply_ite State.pending, ite_self, implies_true]

@[simp] theorem applyActivate_pending (s : State) :
    (applyActivate s).1.pending = s.pending := by
  unfold applyActivate
  (repeat' (first | with_reducible rfl | split)) <;> simp only [State.commit_pending, apply_ite State.pending, ite_self, implies_true]

/-! ### Dictionary -/

@[simp] theorem State.writePdo_pending (s : State) (idx sub : Nat) (l : List Nat) :
    (State.writePdo s idx sub l).pending = s.pending := by
  simp only [State.writePdo, State.abort_pending, State.answerWrite_pending, apply_ite State.pending, ite_self, implies_true]

@[simp] theorem applyLayout_pending (s : State) :
    (applyLayout s).1.pending = s.pending := by
  unfold applyLayout
  (repeat' (first | with_reducible rfl | split)) <;> simp only [State.keep_pending, foldl_pending, apply_ite State.pending, ite_self, implies_true]

@[simp] theorem State.quietWrite_pending (s : State) (e : Entry) (b : Bytes) :
    (State.quietWrite s e b).1.pending = s.pending := by
  unfold State.quietWrite
  simp only [State.dset_pending, State.trigger_pending, State.keep_pending, applyQuota_pending, applyLaneRetrain_pending, applyRoute_pending, applyRouteDefaults_pending, applyPortEnable_pending, applyCtrlStart_pending, applyStoreAll_pending, applyRestore_pending, applyFence_pending, applyDebugWrite_pending, applyLayout_pending, apply_ite State.pending, ite_self, implies_true]
  (repeat' (first | with_reducible rfl | split)) <;> (try with_reducible rfl) <;> simp only [State.dset_pending, State.trigger_pending, State.keep_pending, applyQuota_pending, applyLaneRetrain_pending, applyRoute_pending, applyRouteDefaults_pending, applyPortEnable_pending, applyCtrlStart_pending, applyStoreAll_pending, applyRestore_pending, applyFence_pending, applyDebugWrite_pending, applyLayout_pending, apply_ite State.pending, ite_self, implies_true]

@[simp] theorem State.rowWrite_pending (s : State) (e : Entry) (b : Bytes) :
    (State.rowWrite s e b).pending = s.pending := by
  unfold State.rowWrite
  dsimp only
  split <;> simp [Out.state, apply_ite State.pending, execRetrainRequest, execSuspendContext, execResumeContext, execSuspendPartition, execNodeCommit, execRouterReset, execFaultClear, execRaiseSecurityVersion, execRotateIdentity, execProvision, execProvisionScrap, execAttestNonce, execUnlockFull, execToField, execToReturned, execToScrapped, execRevoke, execUnlockObserve, execRelock, execDebugDataWrite, execActivateFirmware]

@[simp] theorem State.download_pending (s : State) (idx sub : Nat) (b : Bytes) :
    (State.download s idx sub b).pending = s.pending := by
  unfold State.download
  (repeat' (first | with_reducible rfl | split)) <;> simp only [State.abort_pending, State.answerWrite_pending, State.trigger_pending, State.quietWrite_pending, State.rowWrite_pending, apply_ite State.pending, ite_self, implies_true]

@[simp] theorem State.writeAll_pending (s : State) (l : List (Entry × Bytes)) : (s.writeAll l).1.pending = s.pending := by
  unfold State.writeAll
  suffices h : ∀ acc : State × Nat × Nat, (l.foldl (fun acc x =>
      if acc.2.1 != 0 then acc else ((acc.1.quietWrite x.1 x.2).1, (acc.1.quietWrite x.1 x.2).2, x.1.sub)) acc).1.pending = acc.1.pending from
    h (s, 0, 0)
  induction l with
  | nil => intro acc; rfl
  | cons x l ih =>
    intro acc
    rw [List.foldl_cons, ih]
    split
    · rfl
    · exact State.quietWrite_pending _ _ _

@[simp] theorem State.downloadAll_pending (s : State) (idx sub : Nat) (b : Bytes) :
    (State.downloadAll s idx sub b).pending = s.pending := by
  unfold State.downloadAll
  simp only [State.abort_pending, State.answerWrite_pending, State.writeAll_pending, apply_ite State.pending, ite_self, implies_true]
  (repeat' (first | with_reducible rfl | split)) <;> (try with_reducible rfl) <;> simp only [State.abort_pending, State.answerWrite_pending, State.writeAll_pending, apply_ite State.pending, ite_self, implies_true]

@[simp] theorem State.downloadPdo_pending (s : State) (idx sub : Nat) (complete : Bool) (width : Nat) (l : List Nat) (b : Bytes) :
    (State.downloadPdo s idx sub complete width l b).pending = s.pending := by
  simp only [State.downloadPdo, State.abort_pending, State.complete_pending, State.writePdo_pending, apply_ite State.pending, ite_self, implies_true]

@[simp] theorem State.uploadOne_pending (s : State) (idx sub : Nat) :
    (State.uploadOne s idx sub).pending = s.pending := by
  unfold State.uploadOne
  split
  · simp only [apply_ite State.pending, State.upload_pending, State.abort_pending, ite_self]
  · dsimp only
    (repeat' (first | with_reducible rfl | split)) <;> (try simp only [State.upload_pending, State.abort_pending]) <;>
      simp [Out.state, execChallenge, execDebugDataRead, apply_ite State.pending]

@[simp] theorem State.uploadAll_pending (s : State) (idx sub : Nat) :
    (State.uploadAll s idx sub).pending = s.pending := by
  unfold State.uploadAll
  simp only [State.abort_pending, State.upload_pending, apply_ite State.pending, ite_self, implies_true]
  (repeat' (first | with_reducible rfl | split)) <;> (try with_reducible rfl) <;> simp only [State.abort_pending, State.upload_pending, apply_ite State.pending, ite_self, implies_true]

/-! ### EtherCat -/

@[simp] theorem State.escPut_pending (s : State) (a : Nat) (v : Byte) :
    (State.escPut s a v).pending = s.pending := by
  simp only [State.escPut, apply_ite State.pending, ite_self, implies_true]

@[simp] theorem State.escPuts_pending (s : State) (a : Nat) (v0 : Bytes) :
    (State.escPuts s a v0).pending = s.pending := by
  induction v0 generalizing s a  with
  | nil =>
    first
    | rfl
    | (simp only [State.escPuts, State.escPut_pending, apply_ite State.pending, ite_self, implies_true]; done)
  | cons b l ih =>
    first
    | (simp only [State.escPuts, State.escPut_pending, apply_ite State.pending, ite_self, implies_true, ih]; done)
    | (unfold State.escPuts; (repeat' (first | with_reducible rfl | split)) <;> (simp only [State.escPut_pending, apply_ite State.pending, ite_self, implies_true, ih]; done))
    | (unfold State.escPuts; (repeat' (first | with_reducible rfl | split)) <;> (try simp only [State.escPut_pending, apply_ite State.pending, ite_self, implies_true, ih]) <;> (repeat' (first | with_reducible rfl | split)) <;> (simp only [State.escPut_pending, apply_ite State.pending, ite_self, implies_true, ih]; done))

@[simp] theorem State.mailboxIn_pending (s : State) :
    (State.mailboxIn s).pending = s.pending := by
  simp only [State.mailboxIn, apply_ite State.pending, ite_self, implies_true]

@[simp] theorem State.outputIn_pending (s : State) :
    (State.outputIn s).pending = s.pending := by
  simp only [State.outputIn, State.dset_pending, apply_ite State.pending, ite_self, implies_true]

@[simp] theorem State.repeatMailbox_pending (s : State) :
    (State.repeatMailbox s).pending = s.pending := by
  simp only [State.repeatMailbox, apply_ite State.pending, ite_self, implies_true]

@[simp] theorem State.mailboxOut_pending (s : State) :
    (State.mailboxOut s).pending = s.pending := by
  unfold State.mailboxOut
  (repeat' (first | with_reducible rfl | split)) <;> simp only [State.flushEmergency_pending, apply_ite State.pending, ite_self, implies_true]

@[simp] theorem State.escWritten_pending (s : State) (a n : Nat) :
    (State.escWritten s a n).pending = s.pending := by
  simp only [State.escWritten, State.mailboxIn_pending, State.outputIn_pending, State.repeatMailbox_pending, apply_ite State.pending, ite_self, implies_true]

@[simp] theorem State.escRead_pending (s : State) (a n : Nat) :
    (State.escRead s a n).pending = s.pending := by
  simp only [State.escRead, State.mailboxOut_pending, apply_ite State.pending, ite_self, implies_true]

@[simp] theorem State.logical_pending (s : State) (d : EscDgram) :
    (State.logical s d).1.pending = s.pending := by
  simp only [State.logical, State.escPut_pending, State.escWritten_pending, State.escRead_pending, foldl_pending, apply_ite State.pending, ite_self, implies_true]

@[simp] theorem State.datagram_pending (s : State) (d : EscDgram) :
    (State.datagram s d).pending = s.pending := by
  simp only [State.datagram, State.escPuts_pending, State.escWritten_pending, State.escRead_pending, State.logical_pending, apply_ite State.pending, ite_self, implies_true]

/-! ### Step -/

@[simp] theorem State.withFetchWord_pending (s : State) (nbits w : Nat) :
    (State.withFetchWord s nbits w).pending = s.pending := by
  rfl

/-! ### Commands -/

theorem execIntkText_pending (c idx : Nat) (s : State) (t : State) (h : execIntkText c idx s = .next t) :
    t.pending = s.pending := by
  unfold execIntkText at h
  cases h
  apply State.startMacro_pending
  intro go hgo s e f
  cases hgo <;> simp [apply_ite State.pending]

theorem execIntkImage_pending (c idx : Nat) (s : State) (t : State) (h : execIntkImage c idx s = .next t) :
    t.pending = s.pending := by
  unfold execIntkImage at h
  cases h
  apply State.startMacro_pending
  intro go hgo s e f
  cases hgo <;> simp [apply_ite State.pending]

theorem execIntkInstall_pending (c idx : Nat) (s : State) (t : State) (h : execIntkInstall c idx s = .next t) :
    t.pending = s.pending := by
  unfold execIntkInstall at h
  cases h
  apply State.startMacro_pending
  intro go hgo s e f
  cases hgo <;> simp [apply_ite State.pending]

theorem execSampleTake_pending (pipe : Nat) (s : State) (t : State) (h : execSampleTake pipe s = .next t) :
    t.pending = s.pending := by
  unfold execSampleTake at h
  cases h
  simp only [State.takeSample_pending, apply_ite State.pending, ite_self, implies_true]

theorem execSampleComplete_pending (pipe : Nat) (s : State) (t : State) (h : execSampleComplete pipe s = .next t) :
    t.pending = s.pending := by
  unfold execSampleComplete at h
  cases h
  (repeat' (first | with_reducible rfl | split)) <;> simp only [State.slotJudged_pending, State.takeSample_pending, apply_ite State.pending, ite_self, implies_true]

theorem execSampleBudgetExpiry_pending (pipe : Nat) (s : State) (t : State) (h : execSampleBudgetExpiry pipe s = .next t) :
    t.pending = s.pending := by
  unfold execSampleBudgetExpiry at h
  cases h
  (repeat' (first | with_reducible rfl | split)) <;> simp only [State.bump_pending, State.slotDone_pending, State.takeSample_pending, apply_ite State.pending, ite_self, implies_true]

theorem execDictReplace_pending (slot : Nat) (s : State) (t : State) (h : execDictReplace slot s = .next t) :
    t.pending = s.pending := by
  unfold execDictReplace at h
  cases h
  simp only [State.bump_pending, State.setFlight_pending, State.dropIntk_pending, apply_ite State.pending, ite_self, implies_true]
  (repeat' (first | with_reducible rfl | split)) <;> (try with_reducible rfl) <;> simp only [State.bump_pending, State.setFlight_pending, State.dropIntk_pending, apply_ite State.pending, ite_self, implies_true]

theorem execCodecOpenEncoder_pending (c idx : Nat) (s : State) (t : State) (h : execCodecOpenEncoder c idx s = .next t) :
    t.pending = s.pending := by
  unfold execCodecOpenEncoder at h
  cases h
  apply State.startMacro_pending
  intro go hgo s e f
  cases hgo <;> simp [apply_ite State.pending]

theorem execCodecOpenDecoder_pending (c idx : Nat) (s : State) (t : State) (h : execCodecOpenDecoder c idx s = .next t) :
    t.pending = s.pending := by
  unfold execCodecOpenDecoder at h
  cases h
  apply State.startMacro_pending
  intro go hgo s e f
  cases hgo <;> simp [apply_ite State.pending]

theorem execCodecEncode_pending (c idx : Nat) (s : State) (t : State) (h : execCodecEncode c idx s = .next t) :
    t.pending = s.pending := by
  unfold execCodecEncode at h
  cases h
  apply State.startMacro_pending
  intro go hgo s e f
  cases hgo <;> simp [apply_ite State.pending]

theorem execCodecDecode_pending (c idx : Nat) (s : State) (t : State) (h : execCodecDecode c idx s = .next t) :
    t.pending = s.pending := by
  unfold execCodecDecode at h
  cases h
  apply State.startMacro_pending
  intro go hgo s e f
  cases hgo <;> simp [apply_ite State.pending]

theorem execCodecClose_pending (c idx : Nat) (s : State) (t : State) (h : execCodecClose c idx s = .next t) :
    t.pending = s.pending := by
  unfold execCodecClose at h
  cases h
  apply State.startMacro_pending
  intro go hgo s e f
  cases hgo <;> simp [apply_ite State.pending]

theorem execFrameTake_pending (pipe : Nat) (s : State) (t : State) (h : execFrameTake pipe s = .next t) :
    t.pending = s.pending := by
  unfold execFrameTake at h
  cases h
  simp only [State.takeFrame_pending, apply_ite State.pending, ite_self, implies_true]

theorem execFrameComplete_pending (pipe : Nat) (s : State) (t : State) (h : execFrameComplete pipe s = .next t) :
    t.pending = s.pending := by
  unfold execFrameComplete at h
  cases h
  simp only [State.frameDone_pending, apply_ite State.pending, ite_self, implies_true]

theorem execFrameBudgetExpiry_pending (pipe : Nat) (s : State) (t : State) (h : execFrameBudgetExpiry pipe s = .next t) :
    t.pending = s.pending := by
  unfold execFrameBudgetExpiry at h
  cases h
  simp only [State.frameDone_pending, apply_ite State.pending, ite_self, implies_true]

theorem execNewTail_pending (c width value : Nat) (s : State) (t : State) (h : execNewTail c width value s = .next t) :
    t.pending = s.pending := by
  unfold execNewTail at h
  cases h
  simp only [State.bellIgnored_pending, State.bellFetch_pending, State.bellTail_pending, apply_ite State.pending, ite_self, implies_true]

theorem execResume_pending (c value : Nat) (s : State) (t : State) (h : execResume c value s = .next t) :
    t.pending = s.pending := by
  unfold execResume at h
  cases h
  simp only [State.finishJob_pending, State.bellFetch_pending, State.bellResume_pending, apply_ite State.pending, ite_self, implies_true]

theorem execMma_pending (c idx : Nat) (s : State) (t : State) (h : execMma c idx s = .next t) :
    t.pending = s.pending := by
  unfold execMma at h
  cases h
  apply State.startMacro_pending
  intro go hgo s e f
  cases hgo <;> simp [apply_ite State.pending]

theorem execMmas_pending (c idx : Nat) (s : State) (t : State) (h : execMmas c idx s = .next t) :
    t.pending = s.pending := by
  unfold execMmas at h
  cases h
  apply State.startMacro_pending
  intro go hgo s e f
  cases hgo <;> simp [apply_ite State.pending]

theorem execConv_pending (c idx : Nat) (s : State) (t : State) (h : execConv c idx s = .next t) :
    t.pending = s.pending := by
  unfold execConv at h
  cases h
  apply State.startMacro_pending
  intro go hgo s e f
  cases hgo <;> simp [apply_ite State.pending]

theorem execPool_pending (c idx : Nat) (s : State) (t : State) (h : execPool c idx s = .next t) :
    t.pending = s.pending := by
  unfold execPool at h
  cases h
  apply State.startMacro_pending
  intro go hgo s e f
  cases hgo <;> simp [apply_ite State.pending]

theorem execAttf_pending (c idx : Nat) (s : State) (t : State) (h : execAttf c idx s = .next t) :
    t.pending = s.pending := by
  unfold execAttf at h
  cases h
  apply State.startMacro_pending
  intro go hgo s e f
  cases hgo <;> simp [apply_ite State.pending]

theorem execAttb_pending (c idx : Nat) (s : State) (t : State) (h : execAttb c idx s = .next t) :
    t.pending = s.pending := by
  unfold execAttb at h
  cases h
  apply State.startMacro_pending
  intro go hgo s e f
  cases hgo <;> simp [apply_ite State.pending]

theorem execLatx_pending (c idx : Nat) (s : State) (t : State) (h : execLatx c idx s = .next t) :
    t.pending = s.pending := by
  unfold execLatx at h
  cases h
  apply State.startMacro_pending
  intro go hgo s e f
  cases hgo <;> simp [apply_ite State.pending]

theorem execKvap_pending (c idx : Nat) (s : State) (t : State) (h : execKvap c idx s = .next t) :
    t.pending = s.pending := by
  unfold execKvap at h
  cases h
  apply State.startMacro_pending
  intro go hgo s e f
  cases hgo <;> simp [apply_ite State.pending]

theorem execSfn_pending (c idx : Nat) (s : State) (t : State) (h : execSfn c idx s = .next t) :
    t.pending = s.pending := by
  unfold execSfn at h
  cases h
  apply State.startMacro_pending
  intro go hgo s e f
  cases hgo <;> simp [apply_ite State.pending]

theorem execNorm_pending (c idx : Nat) (s : State) (t : State) (h : execNorm c idx s = .next t) :
    t.pending = s.pending := by
  unfold execNorm at h
  cases h
  apply State.startMacro_pending
  intro go hgo s e f
  cases hgo <;> simp [apply_ite State.pending]

theorem execSmax_pending (c idx : Nat) (s : State) (t : State) (h : execSmax c idx s = .next t) :
    t.pending = s.pending := by
  unfold execSmax at h
  cases h
  apply State.startMacro_pending
  intro go hgo s e f
  cases hgo <;> simp [apply_ite State.pending]

theorem execSamp_pending (c idx : Nat) (s : State) (t : State) (h : execSamp c idx s = .next t) :
    t.pending = s.pending := by
  unfold execSamp at h
  cases h
  apply State.startMacro_pending
  intro go hgo s e f
  cases hgo <;> simp [apply_ite State.pending]

theorem execRand_pending (c idx : Nat) (s : State) (t : State) (h : execRand c idx s = .next t) :
    t.pending = s.pending := by
  unfold execRand at h
  cases h
  apply State.startMacro_pending
  intro go hgo s e f
  cases hgo <;> simp [apply_ite State.pending]

theorem execQnt_pending (c idx : Nat) (s : State) (t : State) (h : execQnt c idx s = .next t) :
    t.pending = s.pending := by
  unfold execQnt at h
  cases h
  apply State.startMacro_pending
  intro go hgo s e f
  cases hgo <;> simp [apply_ite State.pending]

theorem execRoute_pending (c idx : Nat) (s : State) (t : State) (h : execRoute c idx s = .next t) :
    t.pending = s.pending := by
  unfold execRoute at h
  cases h
  apply State.startMacro_pending
  intro go hgo s e f
  cases hgo <;> simp [apply_ite State.pending]

theorem execGath_pending (c idx : Nat) (s : State) (t : State) (h : execGath c idx s = .next t) :
    t.pending = s.pending := by
  unfold execGath at h
  cases h
  apply State.startMacro_pending
  intro go hgo s e f
  cases hgo <;> simp [apply_ite State.pending]

theorem execScat_pending (c idx : Nat) (s : State) (t : State) (h : execScat c idx s = .next t) :
    t.pending = s.pending := by
  unfold execScat at h
  cases h
  apply State.startMacro_pending
  intro go hgo s e f
  cases hgo <;> simp [apply_ite State.pending]

theorem execCopy_pending (c idx : Nat) (s : State) (t : State) (h : execCopy c idx s = .next t) :
    t.pending = s.pending := by
  unfold execCopy at h
  cases h
  apply State.startMacro_pending
  intro go hgo s e f
  cases hgo <;> simp [apply_ite State.pending]

theorem execStill_pending (c idx : Nat) (s : State) (t : State) (h : execStill c idx s = .next t) :
    t.pending = s.pending := by
  unfold execStill at h
  cases h
  apply State.startMacro_pending
  intro go hgo s e f
  cases hgo <;> simp [apply_ite State.pending]

theorem execArgmx_pending (c idx : Nat) (s : State) (t : State) (h : execArgmx c idx s = .next t) :
    t.pending = s.pending := by
  unfold execArgmx at h
  cases h
  apply State.startMacro_pending
  intro go hgo s e f
  cases hgo <;> simp [apply_ite State.pending]

theorem execWait_pending (c idx : Nat) (s : State) (t : State) (h : execWait c idx s = .next t) :
    t.pending = s.pending := by
  unfold execWait at h
  cases h
  apply State.startMacro_pending
  intro go hgo s e f
  cases hgo <;> simp [apply_ite State.pending]

theorem execSignal_pending (c idx : Nat) (s : State) (t : State) (h : execSignal c idx s = .next t) :
    t.pending = s.pending := by
  unfold execSignal at h
  cases h
  apply State.startMacro_pending
  intro go hgo s e f
  cases hgo <;> simp [apply_ite State.pending]

theorem execFence_pending (c idx : Nat) (s : State) (t : State) (h : execFence c idx s = .next t) :
    t.pending = s.pending := by
  unfold execFence at h
  cases h
  apply State.startMacro_pending
  intro go hgo s e f
  cases hgo <;> simp [apply_ite State.pending]

theorem execNop_pending (c idx : Nat) (s : State) (t : State) (h : execNop c idx s = .next t) :
    t.pending = s.pending := by
  unfold execNop at h
  cases h
  apply State.startMacro_pending
  intro go hgo s e f
  cases hgo <;> simp [apply_ite State.pending]

theorem execInstructionComplete_pending (c idx : Nat) (s : State) (t : State) (h : execInstructionComplete c idx s = .next t) :
    t.pending = s.pending := by
  unfold execInstructionComplete at h
  cases h
  simp only [State.complete_pending, apply_ite State.pending, ite_self, implies_true]

theorem execWaitSatisfied_pending (c idx : Nat) (s : State) (t : State) (h : execWaitSatisfied c idx s = .next t) :
    t.pending = s.pending := by
  unfold execWaitSatisfied at h
  cases h
  (repeat' (first | with_reducible rfl | split)) <;> simp only [State.endWait_pending, apply_ite State.pending, ite_self, implies_true]

theorem execWaitTimeout_pending (c idx : Nat) (s : State) (t : State) (h : execWaitTimeout c idx s = .next t) :
    t.pending = s.pending := by
  unfold execWaitTimeout at h
  cases h
  (repeat' (first | with_reducible rfl | split)) <;> simp only [State.bump_pending, State.setFlight_pending, State.complete_pending, State.endWait_pending, apply_ite State.pending, ite_self, implies_true]

theorem execTaskTake_pending (cell which : Nat) (s : State) (t : State) (h : execTaskTake cell which s = .next t) :
    t.pending = s.pending := by
  unfold execTaskTake at h
  cases h
  (repeat' (first | with_reducible rfl | split)) <;> simp only [State.drew_pending, State.setCtx_pending, State.serveTasks_pending, apply_ite State.pending, ite_self, implies_true]

theorem execChainHopTimeout_pending (c idx cell : Nat) (fwd : Bool) (s : State) (t : State) (h : execChainHopTimeout c idx cell fwd s = .next t) :
    t.pending = s.pending := by
  unfold execChainHopTimeout at h
  cases h
  (repeat' (first | with_reducible rfl | split)) <;> simp only [State.bump_pending, State.drew_pending, apply_ite State.pending, ite_self, implies_true]

theorem execHistoryFetchArrival_pending (c idx block : Nat) (ok : Bool) (data : Bytes) (s : State) (t : State) (h : execHistoryFetchArrival c idx block ok data s = .next t) :
    t.pending = s.pending := by
  unfold execHistoryFetchArrival at h
  cases h
  simp only [State.historyArrival_pending, apply_ite State.pending, ite_self, implies_true]

theorem execHistoryDeadline_pending (c idx block : Nat) (s : State) (t : State) (h : execHistoryDeadline c idx block s = .next t) :
    t.pending = s.pending := by
  unfold execHistoryDeadline at h
  cases h
  simp only [State.historyLate_pending, apply_ite State.pending, ite_self, implies_true]

theorem execReseed_pending (cell : Nat) (s : State) (t : State) (h : execReseed cell s = .next t) :
    t.pending = s.pending := by
  unfold execReseed at h
  cases h
  simp only [State.reseedCell_pending, apply_ite State.pending, ite_self, implies_true]

theorem execScrub_pending (channel corrected : Nat) (bad : List Nat) (s : State) (t : State) (h : execScrub channel corrected bad s = .next t) :
    t.pending = s.pending := by
  unfold execScrub at h
  cases h
  simp only [State.bump_pending, State.log_pending, State.raise_pending, State.badReads_pending, foldl_pending, apply_ite State.pending, ite_self, implies_true]

theorem execWcbAgeRetire_pending (channel : Nat) (s : State) (t : State) (h : execWcbAgeRetire channel s = .next t) :
    t.pending = s.pending := by
  unfold execWcbAgeRetire at h
  cases h
  (repeat' (first | with_reducible rfl | split)) <;> simp only [State.retireWcb_pending, apply_ite State.pending, ite_self, implies_true]

theorem execUnmappedAccess_pending (addr : Nat) (write : Bool) (s : State) (t : State) (h : execUnmappedAccess addr write s = .next t) :
    t.pending = s.pending := by
  unfold execUnmappedAccess at h
  cases h
  simp only [State.bump_pending, apply_ite State.pending, ite_self, implies_true]

theorem execRemoteAccess_pending (r : RemoteReq) (s : State) (t : State) (h : execRemoteAccess r s = .next t) :
    t.pending = s.pending := by
  unfold execRemoteAccess at h
  cases h
  (repeat' (first | with_reducible rfl | split)) <;> simp only [State.writeBytes_pending, State.respond_pending, State.refuse_pending, State.readRuns_pending, State.sawPoison_pending, State.dropObj_pending, State.refuseRequest_pending, apply_ite State.pending, ite_self, implies_true]

theorem execRemoteSignal_pending (src postmark addr op operand : Nat) (s : State) (t : State) (h : execRemoteSignal src postmark addr op operand s = .next t) :
    t.pending = s.pending := by
  unfold execRemoteSignal at h
  cases h
  simp only [State.respond_pending, State.refuse_pending, State.semApply_pending, State.refuseRequest_pending, apply_ite State.pending, ite_self, implies_true]

theorem execRemoteAlloc_pending (src postmark : Nat) (record : Bytes) (s : State) (t : State) (h : execRemoteAlloc src postmark record s = .next t) :
    t.pending = s.pending := by
  unfold execRemoteAlloc at h
  cases h
  simp only [State.respond_pending, State.refuse_pending, State.allocHere_pending, State.refuseRequest_pending, apply_ite State.pending, ite_self, implies_true]
  (repeat' (first | with_reducible rfl | split)) <;> (try with_reducible rfl) <;> simp only [State.respond_pending, State.refuse_pending, State.allocHere_pending, State.refuseRequest_pending, apply_ite State.pending, ite_self, implies_true]

theorem execGranuleZeroing_pending (granule : Nat) (s : State) (t : State) (h : execGranuleZeroing granule s = .next t) :
    t.pending = s.pending := by
  unfold execGranuleZeroing at h
  cases h
  simp only [State.clearRun_pending, apply_ite State.pending, ite_self, implies_true]

theorem execChannelTrainingDone_pending (channel : Nat) (s : State) (t : State) (h : execChannelTrainingDone channel s = .next t) :
    t.pending = s.pending := by
  unfold execChannelTrainingDone at h
  cases h
  simp only [State.endSession_pending, State.trained_pending, apply_ite State.pending, ite_self, implies_true]

theorem execRetrainTimeout_pending (channel : Nat) (s : State) (t : State) (h : execRetrainTimeout channel s = .next t) :
    t.pending = s.pending := by
  unfold execRetrainTimeout at h
  cases h
  simp only [State.bump_pending, State.setChan_pending, State.raise_pending, State.markChannel_pending, State.endSession_pending, apply_ite State.pending, ite_self, implies_true]

theorem execRetrainDue_pending (channel : Nat) (s : State) (t : State) (h : execRetrainDue channel s = .next t) :
    t.pending = s.pending := by
  unfold execRetrainDue at h
  cases h
  simp only [State.dueSession_pending, apply_ite State.pending, ite_self, implies_true]

theorem execRetrainRequest_pending (value : Nat) (s : State) (t : State) (h : execRetrainRequest value s = .next t) :
    t.pending = s.pending := by
  unfold execRetrainRequest at h
  cases h
  simp only [State.trigger_pending, applyRetrain_pending, apply_ite State.pending, ite_self, implies_true]

theorem execRemoteAck_pending (req : Nat) (s : State) (t : State) (h : execRemoteAck req s = .next t) :
    t.pending = s.pending := by
  unfold execRemoteAck at h
  cases h
  (repeat' (first | with_reducible rfl | split)) <;> simp only [State.acked_pending, apply_ite State.pending, ite_self, implies_true]

theorem execRemoteAckTimeout_pending (req : Nat) (s : State) (t : State) (h : execRemoteAckTimeout req s = .next t) :
    t.pending = s.pending := by
  unfold execRemoteAckTimeout at h
  cases h
  (repeat' (first | with_reducible rfl | split)) <;> simp only [State.writeBack_pending, State.failReq_pending, apply_ite State.pending, ite_self, implies_true]

theorem execRefuseReceive_pending (req code : Nat) (s : State) (t : State) (h : execRefuseReceive req code s = .next t) :
    t.pending = s.pending := by
  unfold execRefuseReceive at h
  cases h
  (repeat' (first | with_reducible rfl | split)) <;> simp only [State.failReq_pending, apply_ite State.pending, ite_self, implies_true]

theorem execWriteBackTimeout_pending (req : Nat) (s : State) (t : State) (h : execWriteBackTimeout req s = .next t) :
    t.pending = s.pending := by
  unfold execWriteBackTimeout at h
  cases h
  (repeat' (first | with_reducible rfl | split)) <;> simp only [State.bump_pending, State.writeBack_pending, State.failReq_pending, apply_ite State.pending, ite_self, implies_true]

theorem execResponseReceive_pending (req postmark : Nat) (poisoned : List Nat) (data : Bytes) (s : State) (t : State) (h : execResponseReceive req postmark poisoned data s = .next t) :
    t.pending = s.pending := by
  unfold execResponseReceive at h
  cases h
  (repeat' (first | with_reducible rfl | split)) <;> simp only [State.bump_pending, State.answered_pending, apply_ite State.pending, ite_self, implies_true]

theorem execSlotGrant_pending (s : State) (t : State) (h : execSlotGrant s = .next t) :
    t.pending = s.pending := by
  unfold execSlotGrant at h
  cases h
  simp only [State.grantSlot_pending, apply_ite State.pending, ite_self, implies_true]

theorem execPreemptWaitExpiry_pending (cell ctx idx task : Nat) (s : State) (t : State) (h : execPreemptWaitExpiry cell ctx idx task s = .next t) :
    t.pending = s.pending := by
  unfold execPreemptWaitExpiry at h
  cases h
  (repeat' (first | with_reducible rfl | split)) <;> simp [apply_ite State.pending]

theorem execSuspendContext_pending (value : Nat) (s : State) (t : State) (h : execSuspendContext value s = .next t) :
    t.pending = s.pending := by
  unfold execSuspendContext at h
  cases h
  simp only [State.trigger_pending, State.suspendReq_pending, apply_ite State.pending, ite_self, implies_true]

theorem execSuspendPartition_pending (value : Nat) (s : State) (t : State) (h : execSuspendPartition value s = .next t) :
    t.pending = s.pending := by
  unfold execSuspendPartition at h
  cases h
  simp only [State.trigger_pending, State.suspendPart_pending, apply_ite State.pending, ite_self, implies_true]

theorem execResumeContext_pending (value : Nat) (s : State) (t : State) (h : execResumeContext value s = .next t) :
    t.pending = s.pending := by
  unfold execResumeContext at h
  cases h
  simp only [State.trigger_pending, State.resumeReq_pending, apply_ite State.pending, ite_self, implies_true]

theorem execSaveComplete_pending (c : Nat) (s : State) (t : State) (h : execSaveComplete c s = .next t) :
    t.pending = s.pending := by
  unfold execSaveComplete at h
  cases h
  simp only [State.saveDone_pending, apply_ite State.pending, ite_self, implies_true]

theorem execRestore_pending (c : Nat) (s : State) (t : State) (h : execRestore c s = .next t) :
    t.pending = s.pending := by
  unfold execRestore at h
  cases h
  simp only [State.restoreCtx_pending, apply_ite State.pending, ite_self, implies_true]

theorem execQuotaCommit_pending (value : Nat) (s : State) (t : State) (h : execQuotaCommit value s = .next t) :
    t.pending = s.pending := by
  unfold execQuotaCommit at h
  cases h
  simp only [State.trigger_pending, applyQuota_pending, apply_ite State.pending, ite_self, implies_true]

theorem execSubmit_pending (d : Dgram) (s : State) (t : State) (h : execSubmit d s = .next t) :
    t.pending = s.pending := by
  unfold execSubmit at h
  cases h
  simp only [State.courier_pending, State.submitJob_pending, apply_ite State.pending, ite_self, implies_true]

theorem execImportJob_pending (d : Dgram) (s : State) (t : State) (h : execImportJob d s = .next t) :
    t.pending = s.pending := by
  unfold execImportJob at h
  cases h
  simp only [State.courier_pending, State.importCtx_pending, apply_ite State.pending, ite_self, implies_true]

theorem execInvalidDatagram_pending (d : Dgram) (s : State) (t : State) (h : execInvalidDatagram d s = .next t) :
    t.pending = s.pending := by
  unfold execInvalidDatagram at h
  cases h
  simp only [State.bump_pending, apply_ite State.pending, ite_self, implies_true]

theorem execOpenSession_pending (d : Dgram) (s : State) (t : State) (h : execOpenSession d s = .next t) :
    t.pending = s.pending := by
  unfold execOpenSession at h
  cases h
  simp only [State.courier_pending, State.openFor_pending, apply_ite State.pending, ite_self, implies_true]

theorem execCloseSession_pending (d : Dgram) (s : State) (t : State) (h : execCloseSession d s = .next t) :
    t.pending = s.pending := by
  unfold execCloseSession at h
  cases h
  simp only [State.setSession_pending, State.endClosing_pending, State.sendAck_pending, State.courier_pending, apply_ite State.pending, ite_self, implies_true]

theorem execAck_pending (d : Dgram) (s : State) (t : State) (h : execAck d s = .next t) :
    t.pending = s.pending := by
  unfold execAck at h
  cases h
  simp only [State.courier_pending, apply_ite State.pending, ite_self, implies_true]

theorem execRetransmitTimeout_pending (session : Nat) (s : State) (t : State) (h : execRetransmitTimeout session s = .next t) :
    t.pending = s.pending := by
  unfold execRetransmitTimeout at h
  cases h
  simp only [State.resend_pending, apply_ite State.pending, ite_self, implies_true]

theorem execAckTimer_pending (session : Nat) (s : State) (t : State) (h : execAckTimer session s = .next t) :
    t.pending = s.pending := by
  unfold execAckTimer at h
  cases h
  (repeat' (first | with_reducible rfl | split)) <;> simp only [State.sendAck_pending, apply_ite State.pending, ite_self, implies_true]

theorem execPortLinkLoss_pending (port : Nat) (s : State) (t : State) (h : execPortLinkLoss port s = .next t) :
    t.pending = s.pending := by
  unfold execPortLinkLoss at h
  cases h
  rfl

theorem execDataPortLinkUp_pending (port : Nat) (s : State) (t : State) (h : execDataPortLinkUp port s = .next t) :
    t.pending = s.pending := by
  unfold execDataPortLinkUp at h
  cases h
  simp only [apply_ite State.pending, ite_self, implies_true]

theorem execAlloc_pending (d : Dgram) (s : State) (t : State) (h : execAlloc d s = .next t) :
    t.pending = s.pending := by
  unfold execAlloc at h
  cases h
  simp only [State.allocate_pending, State.courier_pending, apply_ite State.pending, ite_self, implies_true]

theorem execFree_pending (d : Dgram) (s : State) (t : State) (h : execFree d s = .next t) :
    t.pending = s.pending := by
  unfold execFree at h
  cases h
  simp only [State.freeObj_pending, State.courier_pending, apply_ite State.pending, ite_self, implies_true]

theorem execWrite_pending (d : Dgram) (s : State) (t : State) (h : execWrite d s = .next t) :
    t.pending = s.pending := by
  unfold execWrite at h
  cases h
  simp only [State.writeBytes_pending, State.reply_pending, State.courier_pending, apply_ite State.pending, ite_self, implies_true]

theorem execRead_pending (d : Dgram) (s : State) (t : State) (h : execRead d s = .next t) :
    t.pending = s.pending := by
  unfold execRead at h
  cases h
  simp only [State.courier_pending, State.readFor_pending, apply_ite State.pending, ite_self, implies_true]

theorem execControlDoorbell_pending (d : Dgram) (s : State) (t : State) (h : execControlDoorbell d s = .next t) :
    t.pending = s.pending := by
  unfold execControlDoorbell at h
  cases h
  simp only [State.setJob_pending, State.finishJob_pending, State.bellFetch_pending, State.bellTail_pending, State.bellResume_pending, State.control_pending, apply_ite State.pending, ite_self, implies_true]

theorem execControlSuspend_pending (d : Dgram) (s : State) (t : State) (h : execControlSuspend d s = .next t) :
    t.pending = s.pending := by
  unfold execControlSuspend at h
  cases h
  simp only [State.suspendReq_pending, State.control_pending, controlled_pending, apply_ite State.pending, ite_self, implies_true]

theorem execControlResume_pending (d : Dgram) (s : State) (t : State) (h : execControlResume d s = .next t) :
    t.pending = s.pending := by
  unfold execControlResume at h
  cases h
  simp only [State.resumeReq_pending, State.control_pending, controlled_pending, apply_ite State.pending, ite_self, implies_true]

theorem execControlCancel_pending (d : Dgram) (s : State) (t : State) (h : execControlCancel d s = .next t) :
    t.pending = s.pending := by
  unfold execControlCancel at h
  cases h
  simp only [State.abortCtx_pending, State.control_pending, apply_ite State.pending, ite_self, implies_true]

theorem execControlExport_pending (d : Dgram) (s : State) (t : State) (h : execControlExport d s = .next t) :
    t.pending = s.pending := by
  unfold execControlExport at h
  cases h
  simp only [State.control_pending, State.exportReq_pending, apply_ite State.pending, ite_self, implies_true]

theorem execControlRebind_pending (d : Dgram) (s : State) (t : State) (h : execControlRebind d s = .next t) :
    t.pending = s.pending := by
  unfold execControlRebind at h
  cases h
  simp only [State.control_pending, State.rebind_pending, apply_ite State.pending, ite_self, implies_true]

theorem execControlQuery_pending (d : Dgram) (s : State) (t : State) (h : execControlQuery d s = .next t) :
    t.pending = s.pending := by
  unfold execControlQuery at h
  cases h
  simp only [State.progress_pending, State.control_pending, apply_ite State.pending, ite_self, implies_true]

theorem execResultRequest_pending (r : ResultReq) (s : State) (t : State) (h : execResultRequest r s = .next t) :
    t.pending = s.pending := by
  unfold execResultRequest at h
  cases h
  simp only [State.refuse_pending, State.holdResult_pending, State.refuseRequest_pending, apply_ite State.pending, ite_self, implies_true]

theorem execResultHoldExpiry_pending (result : Nat) (s : State) (t : State) (h : execResultHoldExpiry result s = .next t) :
    t.pending = s.pending := by
  unfold execResultHoldExpiry at h
  cases h
  (repeat' (first | with_reducible rfl | split)) <;> simp only [State.failDelivery_pending, apply_ite State.pending, ite_self, implies_true]

theorem execHaltLimitExpiry_pending (c : Nat) (s : State) (t : State) (h : execHaltLimitExpiry c s = .next t) :
    t.pending = s.pending := by
  unfold execHaltLimitExpiry at h
  cases h
  (repeat' (first | with_reducible rfl | split)) <;> simp [apply_ite State.pending]

theorem execArpRequest_pending (port target senderIp senderMac : Nat) (s : State) (t : State) (h : execArpRequest port target senderIp senderMac s = .next t) :
    t.pending = s.pending := by
  unfold execArpRequest at h
  cases h
  simp only [State.putRaw_pending, apply_ite State.pending, ite_self, implies_true]

theorem execNeighbourSolicitation_pending (port target senderIp senderMac : Nat) (s : State) (t : State) (h : execNeighbourSolicitation port target senderIp senderMac s = .next t) :
    t.pending = s.pending := by
  unfold execNeighbourSolicitation at h
  cases h
  simp only [State.putRaw_pending, apply_ite State.pending, ite_self, implies_true]

theorem execEchoRequest_pending (port : Nat) (v6 : Bool) (dst src : Nat) (payload : Bytes) (s : State) (t : State) (h : execEchoRequest port v6 dst src payload s = .next t) :
    t.pending = s.pending := by
  unfold execEchoRequest at h
  cases h
  simp only [State.putRaw_pending, apply_ite State.pending, ite_self, implies_true]

theorem execFlitTransmit_pending (port : Nat) (s : State) (t : State) (h : execFlitTransmit port s = .next t) :
    t.pending = s.pending := by
  unfold execFlitTransmit at h
  cases h
  simp only [State.transmit_pending, apply_ite State.pending, ite_self, implies_true]

theorem execFlitReceive_pending (port : Nat) (fecOk : Bool) (bytes : Bytes) (s : State) (t : State) (h : execFlitReceive port fecOk bytes s = .next t) :
    t.pending = s.pending := by
  unfold execFlitReceive at h
  cases h
  simp only [State.bump_pending, State.oweNak_pending, State.gotFlit_pending, apply_ite State.pending, ite_self, implies_true]

theorem execNakReceive_pending (port ackSeq : Nat) (s : State) (t : State) (h : execNakReceive port ackSeq s = .next t) :
    t.pending = s.pending := by
  unfold execNakReceive at h
  cases h
  simp only [State.takeAckSeq_pending, State.replayPort_pending, apply_ite State.pending, ite_self, implies_true]

theorem execReplayTimeout_pending (port : Nat) (s : State) (t : State) (h : execReplayTimeout port s = .next t) :
    t.pending = s.pending := by
  unfold execReplayTimeout at h
  cases h
  simp only [State.replayPort_pending, apply_ite State.pending, ite_self, implies_true]

theorem execSignalDetect_pending (port lanes : Nat) (s : State) (t : State) (h : execSignalDetect port lanes s = .next t) :
    t.pending = s.pending := by
  unfold execSignalDetect at h
  cases h
  simp only [State.setPort_pending, State.clearLanes_pending, apply_ite State.pending, ite_self, implies_true]

theorem execPortAligned_pending (port lanes : Nat) (s : State) (t : State) (h : execPortAligned port lanes s = .next t) :
    t.pending = s.pending := by
  unfold execPortAligned at h
  cases h
  simp only [State.watch_pending, State.setPort_pending, State.removeLane_pending, foldl_pending, apply_ite State.pending, ite_self, implies_true]

theorem execBringUpTimeout_pending (port : Nat) (s : State) (t : State) (h : execBringUpTimeout port s = .next t) :
    t.pending = s.pending := by
  unfold execBringUpTimeout at h
  cases h
  simp only [State.watch_pending, State.setPort_pending, apply_ite State.pending, ite_self, implies_true]

theorem execHelloReceive_pending (port : Nat) (h : Hello) (s : State) (t : State) (h : execHelloReceive port h s = .next t) :
    t.pending = s.pending := by
  unfold execHelloReceive at h
  cases h
  simp only [State.setPort_pending, State.takeAckSeq_pending, State.portFall_pending, State.checkPort_pending, State.nextLane_pending, State.meetSeq_pending, apply_ite State.pending, ite_self, implies_true]

theorem execHelloTimer_pending (port : Nat) (s : State) (t : State) (h : execHelloTimer port s = .next t) :
    t.pending = s.pending := by
  unfold execHelloTimer at h
  cases h
  simp only [State.setPort_pending, apply_ite State.pending, ite_self, implies_true]

theorem execHelloTimeout_pending (port : Nat) (s : State) (t : State) (h : execHelloTimeout port s = .next t) :
    t.pending = s.pending := by
  unfold execHelloTimeout at h
  cases h
  simp only [State.portFall_pending, apply_ite State.pending, ite_self, implies_true]

theorem execPortDownLimit_pending (port : Nat) (s : State) (t : State) (h : execPortDownLimit port s = .next t) :
    t.pending = s.pending := by
  unfold execPortDownLimit at h
  cases h
  simp only [State.setPort_pending, State.discard_pending, apply_ite State.pending, ite_self, implies_true]

theorem execLaneFault_pending (port lane _cause : Nat) (s : State) (t : State) (h : execLaneFault port lane _cause s = .next t) :
    t.pending = s.pending := by
  unfold execLaneFault at h
  cases h
  simp only [State.laneLost_pending, apply_ite State.pending, ite_self, implies_true]

theorem execLaneRetrainDue_pending (port lane : Nat) (s : State) (t : State) (h : execLaneRetrainDue port lane s = .next t) :
    t.pending = s.pending := by
  unfold execLaneRetrainDue at h
  cases h
  simp only [State.dueLane_pending, apply_ite State.pending, ite_self, implies_true]

theorem execLaneRetrainRequest_pending (value : Nat) (s : State) (t : State) (h : execLaneRetrainRequest value s = .next t) :
    t.pending = s.pending := by
  unfold execLaneRetrainRequest at h
  cases h
  simp only [State.trigger_pending, applyLaneRetrain_pending, apply_ite State.pending, ite_self, implies_true]

theorem execLaneRetrainDone_pending (port : Nat) (s : State) (t : State) (h : execLaneRetrainDone port s = .next t) :
    t.pending = s.pending := by
  unfold execLaneRetrainDone at h
  cases h
  (repeat' (first | with_reducible rfl | split)) <;> simp only [State.bump_pending, State.drew_pending, State.journal_pending, State.watch_pending, State.setPort_pending, State.nextLane_pending, apply_ite State.pending, ite_self, implies_true]

theorem execLaneRetrainTimeout_pending (port : Nat) (s : State) (t : State) (h : execLaneRetrainTimeout port s = .next t) :
    t.pending = s.pending := by
  unfold execLaneRetrainTimeout at h
  cases h
  (repeat' (first | with_reducible rfl | split)) <;> simp only [State.bump_pending, State.raise_pending, State.watch_pending, State.setPort_pending, State.fenceLane_pending, State.removeLane_pending, State.nextLane_pending, apply_ite State.pending, ite_self, implies_true]

theorem execNodeCommit_pending (value : Nat) (s : State) (t : State) (h : execNodeCommit value s = .next t) :
    t.pending = s.pending := by
  unfold execNodeCommit at h
  cases h
  simp only [State.trigger_pending, applyNode_pending, apply_ite State.pending, ite_self, implies_true]

theorem execRouteCommit_pending (value : Nat) (s : State) (t : State) (h : execRouteCommit value s = .next t) :
    t.pending = s.pending := by
  unfold execRouteCommit at h
  cases h
  simp only [State.trigger_pending, applyRoute_pending, apply_ite State.pending, ite_self, implies_true]

theorem execRouteDefaults_pending (value : Nat) (s : State) (t : State) (h : execRouteDefaults value s = .next t) :
    t.pending = s.pending := by
  unfold execRouteDefaults at h
  cases h
  simp only [State.trigger_pending, applyRouteDefaults_pending, apply_ite State.pending, ite_self, implies_true]

theorem execRouterReset_pending (value : Nat) (s : State) (t : State) (h : execRouterReset value s = .next t) :
    t.pending = s.pending := by
  unfold execRouterReset at h
  cases h
  simp only [State.trigger_pending, State.resetRouter_pending, apply_ite State.pending, ite_self, implies_true]

theorem execPortEnable_pending (value : Nat) (s : State) (t : State) (h : execPortEnable value s = .next t) :
    t.pending = s.pending := by
  unfold execPortEnable at h
  cases h
  simp only [State.trigger_pending, applyPortEnable_pending, apply_ite State.pending, ite_self, implies_true]

theorem execColl_pending (c idx : Nat) (s : State) (t : State) (h : execColl c idx s = .next t) :
    t.pending = s.pending := by
  unfold execColl at h
  cases h
  apply State.startMacro_pending
  intro go hgo s e f
  cases hgo <;> simp [apply_ite State.pending]

theorem execPost_pending (c idx : Nat) (s : State) (t : State) (h : execPost c idx s = .next t) :
    t.pending = s.pending := by
  unfold execPost at h
  cases h
  apply State.startMacro_pending
  intro go hgo s e f
  cases hgo <;> simp [apply_ite State.pending]

theorem execChunkReceive_pending (group ord src : Nat) (sender : Sender) (sig : Nat) (head : PacketHead) (residue : Bool) (data : Bytes) (s : State) (t : State) (h : execChunkReceive group ord src sender sig head residue data s = .next t) :
    t.pending = s.pending := by
  unfold execChunkReceive at h
  cases h
  simp only [State.bulk_pending, apply_ite State.pending, ite_self, implies_true]

theorem execCollTimeout_pending (c idx : Nat) (s : State) (t : State) (h : execCollTimeout c idx s = .next t) :
    t.pending = s.pending := by
  unfold execCollTimeout at h
  cases h
  (repeat' (first | with_reducible rfl | split)) <;> simp only [State.failColl_pending, State.ctrlOver_pending, apply_ite State.pending, ite_self, implies_true]

theorem execPostcardReceive_pending (group ord axis pos : Nat) (sender : Sender) (sig : Nat) (payload : Bytes) (s : State) (t : State) (h : execPostcardReceive group ord axis pos sender sig payload s = .next t) :
    t.pending = s.pending := by
  unfold execPostcardReceive at h
  cases h
  simp only [State.relayCard_pending, State.takeCard_pending, State.takeCtrl_pending, apply_ite State.pending, ite_self, implies_true]

theorem execCtrlBroadcast_pending (initiator : Nat) (payload : Bytes) (s : State) (t : State) (h : execCtrlBroadcast initiator payload s = .next t) :
    t.pending = s.pending := by
  unfold execCtrlBroadcast at h
  cases h
  simp only [State.bump_pending, State.ctrlDone_pending, State.ctrlOver_pending, apply_ite State.pending, ite_self, implies_true]

theorem execCtrlSnapshot_pending (initiator : Nat) (others : Bytes) (s : State) (t : State) (h : execCtrlSnapshot initiator others s = .next t) :
    t.pending = s.pending := by
  unfold execCtrlSnapshot at h
  cases h
  simp only [State.bump_pending, State.ctrlDone_pending, State.ctrlOver_pending, apply_ite State.pending, ite_self, implies_true]

theorem execCtrlGroupReset_pending (initiator group : Nat) (s : State) (t : State) (h : execCtrlGroupReset initiator group s = .next t) :
    t.pending = s.pending := by
  unfold execCtrlGroupReset at h
  cases h
  simp only [State.bump_pending, State.ctrlDone_pending, State.ctrlOver_pending, State.groupReset_pending, apply_ite State.pending, ite_self, implies_true]

theorem execCommitTimer_pending (s : State) (t : State) (h : execCommitTimer s = .next t) :
    t.pending = s.pending := by
  unfold execCommitTimer at h
  cases h
  simp only [State.commit_pending, apply_ite State.pending, ite_self, implies_true]

theorem execAllowanceTick_pending (s : State) (t : State) (h : execAllowanceTick s = .next t) :
    t.pending = s.pending := by
  unfold execAllowanceTick at h
  cases h
  simp only [apply_ite State.pending, ite_self, implies_true]

theorem execWindowRoll_pending (s : State) (t : State) (h : execWindowRoll s = .next t) :
    t.pending = s.pending := by
  unfold execWindowRoll at h
  cases h
  simp only [apply_ite State.pending, ite_self, implies_true]

theorem execNandScrub_pending (block finding : Nat) (s : State) (t : State) (h : execNandScrub block finding s = .next t) :
    t.pending = s.pending := by
  unfold execNandScrub at h
  cases h
  (repeat' (first | with_reducible rfl | split)) <;> simp only [State.bump_pending, State.pageLost_pending, apply_ite State.pending, ite_self, implies_true]

theorem execStoreAll_pending (value : Nat) (s : State) (t : State) (h : execStoreAll value s = .next t) :
    t.pending = s.pending := by
  unfold execStoreAll at h
  cases h
  simp only [State.trigger_pending, applyStoreAll_pending, apply_ite State.pending, ite_self, implies_true]

theorem execRestoreDefaults_pending (value : Nat) (s : State) (t : State) (h : execRestoreDefaults value s = .next t) :
    t.pending = s.pending := by
  unfold execRestoreDefaults at h
  cases h
  simp only [State.trigger_pending, applyRestore_pending, apply_ite State.pending, ite_self, implies_true]

theorem execFaultClear_pending (value : Nat) (s : State) (t : State) (h : execFaultClear value s = .next t) :
    t.pending = s.pending := by
  unfold execFaultClear at h
  cases h
  simp only [State.trigger_pending, applyFaultClear_pending, apply_ite State.pending, ite_self, implies_true]

theorem execFenceUnit_pending (value : Nat) (s : State) (t : State) (h : execFenceUnit value s = .next t) :
    t.pending = s.pending := by
  unfold execFenceUnit at h
  cases h
  simp only [State.trigger_pending, applyFence_pending, apply_ite State.pending, ite_self, implies_true]

theorem execClearFence_pending (value : Nat) (s : State) (t : State) (h : execClearFence value s = .next t) :
    t.pending = s.pending := by
  unfold execClearFence at h
  cases h
  simp only [State.trigger_pending, applyFence_pending, apply_ite State.pending, ite_self, implies_true]

theorem execResetPartition_pending (value : Nat) (s : State) (t : State) (h : execResetPartition value s = .next t) :
    t.pending = s.pending := by
  unfold execResetPartition at h
  cases h
  simp only [State.writeReset_pending, apply_ite State.pending, ite_self, implies_true]

theorem execResetChip_pending (value : Nat) (s : State) (t : State) (h : execResetChip value s = .next t) :
    t.pending = s.pending := by
  unfold execResetChip at h
  cases h
  simp only [State.writeReset_pending, apply_ite State.pending, ite_self, implies_true]

theorem execResetChipCullet_pending (value : Nat) (s : State) (t : State) (h : execResetChipCullet value s = .next t) :
    t.pending = s.pending := by
  unfold execResetChipCullet at h
  cases h
  simp only [State.writeReset_pending, apply_ite State.pending, ite_self, implies_true]

theorem execResetPowerCycle_pending (value : Nat) (s : State) (t : State) (h : execResetPowerCycle value s = .next t) :
    t.pending = s.pending := by
  unfold execResetPowerCycle at h
  cases h
  simp only [State.writeReset_pending, apply_ite State.pending, ite_self, implies_true]

theorem execFenceWindow_pending (region : Nat) (s : State) (t : State) (h : execFenceWindow region s = .next t) :
    t.pending = s.pending := by
  unfold execFenceWindow at h
  cases h
  simp only [apply_ite State.pending, ite_self, implies_true]

theorem execCellWatchdog_pending (cell : Nat) (s : State) (t : State) (h : execCellWatchdog cell s = .next t) :
    t.pending = s.pending := by
  unfold execCellWatchdog at h
  cases h
  simp only [State.post_pending, State.engineReset_pending, apply_ite State.pending, ite_self, implies_true]

theorem execEngineWatchdog_pending (unit : Nat) (s : State) (t : State) (h : execEngineWatchdog unit s = .next t) :
    t.pending = s.pending := by
  unfold execEngineWatchdog at h
  cases h
  simp only [State.post_pending, State.engineReset_pending, apply_ite State.pending, ite_self, implies_true]

theorem execPartitionWatchdog_pending (region : Nat) (s : State) (t : State) (h : execPartitionWatchdog region s = .next t) :
    t.pending = s.pending := by
  unfold execPartitionWatchdog at h
  cases h
  simp only [State.post_pending, State.resetPart_pending, apply_ite State.pending, ite_self, implies_true]

theorem execCoreWatchdog_pending (core : Nat) (s : State) (t : State) (h : execCoreWatchdog core s = .next t) :
    t.pending = s.pending := by
  unfold execCoreWatchdog at h
  cases h
  simp only [State.post_pending, State.raise_pending, State.chipReset_pending, apply_ite State.pending, ite_self, implies_true]

theorem execUncorrectableCellState_pending (cell laneGroup : Nat) (s : State) (t : State) (h : execUncorrectableCellState cell laneGroup s = .next t) :
    t.pending = s.pending := by
  unfold execUncorrectableCellState at h
  cases h
  simp only [State.bump_pending, State.setCell_pending, State.post_pending, State.raise_pending, State.fenceNow_pending, State.engineReset_pending, State.marTasks_pending, apply_ite State.pending, ite_self, implies_true]

theorem execEngineResetOverrun_pending (unit : Nat) (s : State) (t : State) (h : execEngineResetOverrun unit s = .next t) :
    t.pending = s.pending := by
  unfold execEngineResetOverrun at h
  cases h
  simp only [State.fenceNow_pending, apply_ite State.pending, ite_self, implies_true]

theorem execAnnealComplete_pending (partition : Nat) (s : State) (t : State) (h : execAnnealComplete partition s = .next t) :
    t.pending = s.pending := by
  unfold execAnnealComplete at h
  cases h
  simp only [State.anneal_pending, apply_ite State.pending, ite_self, implies_true]

theorem execAnnealOverrun_pending (partition : Nat) (s : State) (t : State) (h : execAnnealOverrun partition s = .next t) :
    t.pending = s.pending := by
  unfold execAnnealOverrun at h
  cases h
  simp only [State.raise_pending, State.chipReset_pending, apply_ite State.pending, ite_self, implies_true]

theorem execChipResetTimeout_pending (s : State) (t : State) (h : execChipResetTimeout s = .next t) :
    t.pending = s.pending := by
  unfold execChipResetTimeout at h
  cases h
  simp only [State.chipReset_pending, State.powerCycle_pending, apply_ite State.pending, ite_self, implies_true]

theorem execTrngHealthFail_pending (s : State) (t : State) (h : execTrngHealthFail s = .next t) :
    t.pending = s.pending := by
  unfold execTrngHealthFail at h
  cases h
  simp only [State.watch_pending, apply_ite State.pending, ite_self, implies_true]

theorem execTrngResume_pending (s : State) (t : State) (h : execTrngResume s = .next t) :
    t.pending = s.pending := by
  unfold execTrngResume at h
  cases h
  simp only [State.watch_pending, apply_ite State.pending, ite_self, implies_true]

theorem execChallenge_pending (s : State) (t : State) (h : execChallenge s = .next t) :
    t.pending = s.pending := by
  unfold execChallenge at h
  cases h
  simp only [State.drew_pending, State.abort_pending, State.upload_pending, apply_ite State.pending, ite_self, implies_true]

theorem execChallengeLockoutEnd_pending (s : State) (t : State) (h : execChallengeLockoutEnd s = .next t) :
    t.pending = s.pending := by
  unfold execChallengeLockoutEnd at h
  cases h
  rfl

theorem execUnlockObserve_pending (b : Bytes) (s : State) (t : State) (h : execUnlockObserve b s = .next t) :
    t.pending = s.pending := by
  unfold execUnlockObserve at h
  cases h
  simp only [State.token_pending, apply_ite State.pending, ite_self, implies_true]

theorem execUnlockFull_pending (b : Bytes) (s : State) (t : State) (h : execUnlockFull b s = .next t) :
    t.pending = s.pending := by
  unfold execUnlockFull at h
  cases h
  simp only [State.token_pending, apply_ite State.pending, ite_self, implies_true]

theorem execToField_pending (b : Bytes) (blowOk : Bool) (s : State) (t : State) (h : execToField b blowOk s = .next t) :
    t.pending = s.pending := by
  unfold execToField at h
  cases h
  simp only [State.token_pending, State.changeLife_pending, apply_ite State.pending, ite_self, implies_true]

theorem execToReturned_pending (b : Bytes) (blowOk : Bool) (s : State) (t : State) (h : execToReturned b blowOk s = .next t) :
    t.pending = s.pending := by
  unfold execToReturned at h
  cases h
  simp only [State.token_pending, State.changeLife_pending, apply_ite State.pending, ite_self, implies_true]

theorem execToScrapped_pending (b : Bytes) (blowOk : Bool) (s : State) (t : State) (h : execToScrapped b blowOk s = .next t) :
    t.pending = s.pending := by
  unfold execToScrapped at h
  cases h
  simp only [State.token_pending, State.changeLife_pending, apply_ite State.pending, ite_self, implies_true]

theorem execRevoke_pending (b : Bytes) (blowOk : Bool) (s : State) (t : State) (h : execRevoke b blowOk s = .next t) :
    t.pending = s.pending := by
  unfold execRevoke at h
  cases h
  simp only [State.token_pending, apply_ite State.pending, ite_self, implies_true]

theorem execRaiseSecurityVersion_pending (value : Nat) (blowOk : Bool) (s : State) (t : State) (h : execRaiseSecurityVersion value blowOk s = .next t) :
    t.pending = s.pending := by
  unfold execRaiseSecurityVersion at h
  cases h
  simp only [State.trigger_pending, State.blowFailed_pending, State.raiseVersion_pending, apply_ite State.pending, ite_self, implies_true]

theorem execProvision_pending (value : Nat) (blowOk : Bool) (s : State) (t : State) (h : execProvision value blowOk s = .next t) :
    t.pending = s.pending := by
  unfold execProvision at h
  cases h
  simp only [State.abort_pending, State.trigger_pending, State.blowFailed_pending, State.provisioned_pending, apply_ite State.pending, ite_self, implies_true]

theorem execProvisionScrap_pending (value : Nat) (blowOk : Bool) (s : State) (t : State) (h : execProvisionScrap value blowOk s = .next t) :
    t.pending = s.pending := by
  unfold execProvisionScrap at h
  cases h
  simp only [State.answerWrite_pending, State.blowFailed_pending, State.changeLife_pending, apply_ite State.pending, ite_self, implies_true]

theorem execRotateIdentity_pending (value : Nat) (s : State) (t : State) (h : execRotateIdentity value s = .next t) :
    t.pending = s.pending := by
  unfold execRotateIdentity at h
  cases h
  simp only [State.trigger_pending, State.rotated_pending, apply_ite State.pending, ite_self, implies_true]

theorem execAttestNonce_pending (nonce : Bytes) (s : State) (t : State) (h : execAttestNonce nonce s = .next t) :
    t.pending = s.pending := by
  unfold execAttestNonce at h
  cases h
  simp only [State.abort_pending, State.answerWrite_pending, applyNonce_pending, apply_ite State.pending, ite_self, implies_true]

theorem execAttestReportReady_pending (s : State) (t : State) (h : execAttestReportReady s = .next t) :
    t.pending = s.pending := by
  unfold execAttestReportReady at h
  cases h
  (repeat' (first | with_reducible rfl | split)) <;> simp only [State.bump_pending, apply_ite State.pending, ite_self, implies_true]

theorem execRelock_pending (value : Nat) (s : State) (t : State) (h : execRelock value s = .next t) :
    t.pending = s.pending := by
  unfold execRelock at h
  cases h
  simp only [State.trigger_pending, applyRelock_pending, apply_ite State.pending, ite_self, implies_true]

theorem execDebugDataRead_pending (s : State) (t : State) (h : execDebugDataRead s = .next t) :
    t.pending = s.pending := by
  unfold execDebugDataRead at h
  cases h
  simp only [State.bump_pending, State.abort_pending, State.upload_pending, State.sawPoison_pending, apply_ite State.pending, ite_self, implies_true]

theorem execDebugDataWrite_pending (data : Bytes) (s : State) (t : State) (h : execDebugDataWrite data s = .next t) :
    t.pending = s.pending := by
  unfold execDebugDataWrite at h
  cases h
  simp only [State.abort_pending, State.answerWrite_pending, applyDebugWrite_pending, apply_ite State.pending, ite_self, implies_true]

theorem execExtest_pending (boundary : Nat) (s : State) (t : State) (h : execExtest boundary s = .next t) :
    t.pending = s.pending := by
  unfold execExtest at h
  cases h
  simp only [State.tap_pending, State.linksDown_pending, State.pins_pending, apply_ite State.pending, ite_self, implies_true]

theorem execIdcode_pending (s : State) (t : State) (h : execIdcode s = .next t) :
    t.pending = s.pending := by
  unfold execIdcode at h
  cases h
  simp only [State.tap_pending, apply_ite State.pending, ite_self, implies_true]

theorem execSamplePreload_pending (boundary : Nat) (s : State) (t : State) (h : execSamplePreload boundary s = .next t) :
    t.pending = s.pending := by
  unfold execSamplePreload at h
  cases h
  simp only [State.tap_pending, State.pins_pending, apply_ite State.pending, ite_self, implies_true]

theorem execScanread_pending (unit : Nat) (s : State) (t : State) (h : execScanread unit s = .next t) :
    t.pending = s.pending := by
  unfold execScanread at h
  cases h
  simp only [State.drew_pending, State.tap_pending, apply_ite State.pending, ite_self, implies_true]

theorem execScanwrite_pending (unit : Nat) (data : Bytes) (s : State) (t : State) (h : execScanwrite unit data s = .next t) :
    t.pending = s.pending := by
  unfold execScanwrite at h
  cases h
  simp only [State.tap_pending, apply_ite State.pending, ite_self, implies_true]

theorem execCorehalt_pending (core : Nat) (halt : Bool) (s : State) (t : State) (h : execCorehalt core halt s = .next t) :
    t.pending = s.pending := by
  unfold execCorehalt at h
  cases h
  simp only [State.tap_pending, apply_ite State.pending, ite_self, implies_true]

theorem execBypass_pending (code : Nat) (tdi : Bool) (s : State) (t : State) (h : execBypass code tdi s = .next t) :
    t.pending = s.pending := by
  unfold execBypass at h
  cases h
  simp only [State.bypass_pending, apply_ite State.pending, ite_self, implies_true]

theorem execTapReset_pending (s : State) (t : State) (h : execTapReset s = .next t) :
    t.pending = s.pending := by
  unfold execTapReset at h
  cases h
  rfl

theorem execPowerFull_pending (value : Nat) (s : State) (t : State) (h : execPowerFull value s = .next t) :
    t.pending = s.pending := by
  unfold execPowerFull at h
  cases h
  simp only [State.writePower_pending, apply_ite State.pending, ite_self, implies_true]

theorem execPowerTrim_pending (value : Nat) (s : State) (t : State) (h : execPowerTrim value s = .next t) :
    t.pending = s.pending := by
  unfold execPowerTrim at h
  cases h
  simp only [State.writePower_pending, apply_ite State.pending, ite_self, implies_true]

theorem execPowerHold_pending (value : Nat) (s : State) (t : State) (h : execPowerHold value s = .next t) :
    t.pending = s.pending := by
  unfold execPowerHold at h
  cases h
  simp only [State.writePower_pending, apply_ite State.pending, ite_self, implies_true]

theorem execPowerFall_pending (s : State) (t : State) (h : execPowerFall s = .next t) :
    t.pending = s.pending := by
  unfold execPowerFall at h
  cases h
  (repeat' (first | with_reducible rfl | split)) <;> simp only [State.bump_pending, State.drew_pending, State.raise_pending, State.watch_pending, State.powerLost_pending, apply_ite State.pending, ite_self, implies_true]

theorem execPowerReturn_pending (s : State) (t : State) (h : execPowerReturn s = .next t) :
    t.pending = s.pending := by
  unfold execPowerReturn at h
  cases h
  simp only [State.drew_pending, State.chipReset_pending, State.perstReset_pending, apply_ite State.pending, ite_self, implies_true]

theorem execPowerOn_pending (nandOk : Bool) (failedChannels : List Nat) (s : State) (t : State) (h : execPowerOn nandOk failedChannels s = .next t) :
    t.pending = s.pending := by
  unfold execPowerOn at h
  cases h
  simp only [State.drew_pending, State.watch_pending, State.reload_pending, State.coldState_pending, State.routerStart_pending, State.coldStart_pending, apply_ite State.pending, ite_self, implies_true]

theorem execPerst_pending (s : State) (t : State) (h : execPerst s = .next t) :
    t.pending = s.pending := by
  unfold execPerst at h
  cases h
  (repeat' (first | with_reducible rfl | split)) <;> simp only [State.reload_pending, State.perstReset_pending, State.coldState_pending, State.routerStart_pending, apply_ite State.pending, ite_self, implies_true]

theorem execPerstRelease_pending (s : State) (t : State) (h : execPerstRelease s = .next t) :
    t.pending = s.pending := by
  unfold execPerstRelease at h
  cases h
  simp only [State.log_pending, State.enterBootstrap_pending, State.startUp_pending, apply_ite State.pending, ite_self, implies_true]

theorem execRefclk156Loss_pending (s : State) (t : State) (h : execRefclk156Loss s = .next t) :
    t.pending = s.pending := by
  unfold execRefclk156Loss at h
  cases h
  simp only [State.portsDown_pending, apply_ite State.pending, ite_self, implies_true]

theorem execRefclk156Return_pending (s : State) (t : State) (h : execRefclk156Return s = .next t) :
    t.pending = s.pending := by
  unfold execRefclk156Return at h
  cases h
  rfl

theorem execRefclk100Loss_pending (s : State) (t : State) (h : execRefclk100Loss s = .next t) :
    t.pending = s.pending := by
  unfold execRefclk100Loss at h
  cases h
  (repeat' (first | with_reducible rfl | split)) <;> simp only [apply_ite State.pending, ite_self, implies_true]

theorem execThermalWarning_pending (die device : Nat) (s : State) (t : State) (h : execThermalWarning die device s = .next t) :
    t.pending = s.pending := by
  unfold execThermalWarning at h
  cases h
  simp only [State.sense_pending, apply_ite State.pending, ite_self, implies_true]

theorem execThrottleStep_pending (die device power : Nat) (s : State) (t : State) (h : execThrottleStep die device power s = .next t) :
    t.pending = s.pending := by
  unfold execThrottleStep at h
  cases h
  simp only [State.sense_pending, apply_ite State.pending, ite_self, implies_true]

theorem execThermalTrip_pending (die device : Nat) (s : State) (t : State) (h : execThermalTrip die device s = .next t) :
    t.pending = s.pending := by
  unfold execThermalTrip at h
  cases h
  (repeat' (first | with_reducible rfl | split)) <;> simp only [State.portsDown_pending, State.powerLost_pending, State.sense_pending, apply_ite State.pending, ite_self, implies_true]

theorem execInputVoltageOutOfRange_pending (millivolts : Nat) (s : State) (t : State) (h : execInputVoltageOutOfRange millivolts s = .next t) :
    t.pending = s.pending := by
  unfold execInputVoltageOutOfRange at h
  cases h
  simp only [State.watch_pending, apply_ite State.pending, ite_self, implies_true]

theorem execFoeRead_pending (password : Nat) (name : Bytes) (s : State) (t : State) (h : execFoeRead password name s = .next t) :
    t.pending = s.pending := by
  unfold execFoeRead at h
  cases h
  (repeat' (first | with_reducible rfl | split)) <;> simp only [State.bump_pending, State.placeSm1_pending, State.foeError_pending, foldl_pending, apply_ite State.pending, ite_self, implies_true]

theorem execFoeWriteFirmware_pending (password readBack : Nat) (image : Bytes) (s : State) (t : State) (h : execFoeWriteFirmware password readBack image s = .next t) :
    t.pending = s.pending := by
  unfold execFoeWriteFirmware at h
  cases h
  simp only [State.foeError_pending, State.takeImage_pending, apply_ite State.pending, ite_self, implies_true]

theorem execActivateFirmware_pending (value : Nat) (s : State) (t : State) (h : execActivateFirmware value s = .next t) :
    t.pending = s.pending := by
  unfold execActivateFirmware at h
  cases h
  simp only [State.trigger_pending, applyActivate_pending, apply_ite State.pending, ite_self, implies_true]

theorem execPdoMapping_pending (index : Nat) (entries : List Nat) (s : State) (t : State) (h : execPdoMapping index entries s = .next t) :
    t.pending = s.pending := by
  unfold execPdoMapping at h
  cases h
  simp only [State.writePdo_pending, apply_ite State.pending, ite_self, implies_true]

theorem execLayoutCommit_pending (value : Nat) (s : State) (t : State) (h : execLayoutCommit value s = .next t) :
    t.pending = s.pending := by
  unfold execLayoutCommit at h
  cases h
  simp only [State.trigger_pending, applyLayout_pending, apply_ite State.pending, ite_self, implies_true]

theorem execSdoDownload_pending (index sub : Nat) (complete : Bool) (b : Bytes) (s : State) (t : State) (h : execSdoDownload index sub complete b s = .next t) :
    t.pending = s.pending := by
  unfold execSdoDownload at h
  cases h
  (repeat' (first | with_reducible rfl | split)) <;> simp only [State.complete_pending, State.download_pending, State.downloadAll_pending, State.downloadPdo_pending, apply_ite State.pending, ite_self, implies_true]

theorem execDictWrite_pending (index sub : Nat) (b : Bytes) (s : State) (t : State) (h : execDictWrite index sub b s = .next t) :
    t.pending = s.pending := by
  unfold execDictWrite at h
  cases h
  (repeat' (first | with_reducible rfl | split)) <;> simp only [State.trigger_pending, State.download_pending, apply_ite State.pending, ite_self, implies_true]

theorem execSdoUpload_pending (index sub : Nat) (complete : Bool) (s : State) (t : State) (h : execSdoUpload index sub complete s = .next t) :
    t.pending = s.pending := by
  unfold execSdoUpload at h
  cases h
  (repeat' (first | with_reducible rfl | split)) <;> simp only [State.abort_pending, State.upload_pending, State.complete_pending, State.uploadOne_pending, State.uploadAll_pending, apply_ite State.pending, ite_self, implies_true]

theorem execSdoTransferTimeout_pending (s : State) (t : State) (h : execSdoTransferTimeout s = .next t) :
    t.pending = s.pending := by
  unfold execSdoTransferTimeout at h
  cases h
  (repeat' (first | with_reducible rfl | split)) <;> simp only [State.abort_pending, apply_ite State.pending, ite_self, implies_true]

theorem execSdoInformation_pending (op index sub : Nat) (s : State) (t : State) (h : execSdoInformation op index sub s = .next t) :
    t.pending = s.pending := by
  unfold execSdoInformation at h
  cases h
  (repeat' (first | with_reducible rfl | split)) <;> simp only [State.placeSm1_pending, apply_ite State.pending, ite_self, implies_true]

theorem execEthercatFrame_pending (port : Nat) (dgs : List EscDgram) (s : State) (t : State) (h : execEthercatFrame port dgs s = .next t) :
    t.pending = s.pending := by
  unfold execEthercatFrame at h
  cases h
  simp only [State.datagram_pending, foldl_pending, apply_ite State.pending, ite_self, implies_true]

theorem execEthercatLinkLoss_pending (port : Nat) (s : State) (t : State) (h : execEthercatLinkLoss port s = .next t) :
    t.pending = s.pending := by
  unfold execEthercatLinkLoss at h
  cases h
  rfl

theorem execEthercatLinkUp_pending (port : Nat) (s : State) (t : State) (h : execEthercatLinkUp port s = .next t) :
    t.pending = s.pending := by
  unfold execEthercatLinkUp at h
  cases h
  simp only [apply_ite State.pending, ite_self, implies_true]

theorem execAlStateRequest_pending (state : Nat) (s : State) (t : State) (h : execAlStateRequest state s = .next t) :
    t.pending = s.pending := by
  unfold execAlStateRequest at h
  cases h
  simp [apply_ite State.pending]

theorem execSm2Watchdog_pending (s : State) (t : State) (h : execSm2Watchdog s = .next t) :
    t.pending = s.pending := by
  unfold execSm2Watchdog at h
  cases h
  simp only [State.bump_pending, apply_ite State.pending, ite_self, implies_true]

theorem execMailboxUnsupported_pending (protocol : Nat) (s : State) (t : State) (h : execMailboxUnsupported protocol s = .next t) :
    t.pending = s.pending := by
  unfold execMailboxUnsupported at h
  cases h
  simp only [State.placeSm1_pending, apply_ite State.pending, ite_self, implies_true]

theorem execPdoRefresh_pending (s : State) (t : State) (h : execPdoRefresh s = .next t) :
    t.pending = s.pending := by
  unfold execPdoRefresh at h
  cases h
  simp only [State.escPuts_pending, apply_ite State.pending, ite_self, implies_true]

end Sys2Proof.Machine
end

