-- ==== Sys2Proof/Laws/Security.lean ====
section
/-! SUPPORT. Security: which operations and commands leave the security engine alone, and what the others do to it. -/

set_option linter.all false

namespace Sys2Proof.Machine
open Sys2Proof

/-! ### Ops -/

@[simp] theorem foldl_sec {α : Type} (f : State → α → State) (h : ∀ s a, (f s a).sec = s.sec) (l : List α) (s : State) :
    (l.foldl f s).sec = s.sec := by
  induction l generalizing s with
  | nil => rfl
  | cons a l ih => rw [List.foldl_cons, ih, h]

@[simp] theorem State.dset_sec (s : State) (idx sub v : Nat) :
    (State.dset s idx sub v).sec = s.sec := by
  rfl

@[simp] theorem State.bump_sec (s : State) (idx sub n : Nat) :
    (State.bump s idx sub n).sec = s.sec := by
  rfl

@[simp] theorem State.setCount_sec (s : State) (idx sub n : Nat) :
    (State.setCount s idx sub n).sec = s.sec := by
  rfl

@[simp] theorem State.bumps_sec (s : State) (l : List (Nat × Nat)) :
    (State.bumps s l).sec = s.sec := by
  simp only [State.bumps, State.bump_sec, foldl_sec, apply_ite State.sec, ite_self, implies_true]

@[simp] theorem State.drew_sec (s : State) :
    (State.drew s).sec = s.sec := by
  rfl

@[simp] theorem State.setCell_sec (s : State) (i : Nat) (f : Cell → Cell) :
    (State.setCell s i f).sec = s.sec := by
  rfl

@[simp] theorem State.setChan_sec (s : State) (i : Nat) (f : Chan → Chan) :
    (State.setChan s i f).sec = s.sec := by
  rfl

@[simp] theorem State.storeByte_sec (s : State) (a : Nat) (v : Byte) :
    (State.storeByte s a v).sec = s.sec := by
  unfold State.storeByte
  (repeat' (first | with_reducible rfl | split)) <;> simp only [State.bump_sec, State.setChan_sec, apply_ite State.sec, ite_self, implies_true]

@[simp] theorem State.storeBytes_sec (s : State) (a : Nat) (v0 : Bytes) :
    (State.storeBytes s a v0).sec = s.sec := by
  induction v0 generalizing s a  with
  | nil =>
    first
    | rfl
    | (simp only [State.storeBytes, State.storeByte_sec, apply_ite State.sec, ite_self, implies_true]; done)
  | cons b l ih =>
    first
    | (simp only [State.storeBytes, State.storeByte_sec, apply_ite State.sec, ite_self, implies_true, ih]; done)
    | (unfold State.storeBytes; (repeat' (first | with_reducible rfl | split)) <;> (simp only [State.storeByte_sec, apply_ite State.sec, ite_self, implies_true, ih]; done))
    | (unfold State.storeBytes; (repeat' (first | with_reducible rfl | split)) <;> (try simp only [State.storeByte_sec, apply_ite State.sec, ite_self, implies_true, ih]) <;> (repeat' (first | with_reducible rfl | split)) <;> (simp only [State.storeByte_sec, apply_ite State.sec, ite_self, implies_true, ih]; done))

@[simp] theorem State.retireWcb_sec (s : State) (e : Wcb) :
    (State.retireWcb s e).sec = s.sec := by
  simp only [State.retireWcb, State.bump_sec, apply_ite State.sec, ite_self, implies_true]

@[simp] theorem State.mergeLine_sec (s : State) (line : Nat) (addrs : List Nat) :
    (State.mergeLine s line addrs).sec = s.sec := by
  unfold State.mergeLine
  simp only [State.bump_sec, State.retireWcb_sec, foldl_sec, apply_ite State.sec, ite_self, implies_true]
  (repeat' (first | with_reducible rfl | split)) <;> (try with_reducible rfl) <;> simp only [State.bump_sec, State.retireWcb_sec, foldl_sec, apply_ite State.sec, ite_self, implies_true]

@[simp] theorem State.mergeLines_sec (s : State) (a n : Nat) (v0 : Nat) :
    (State.mergeLines s a n v0).sec = s.sec := by
  induction v0 generalizing s a n  with
  | zero =>
    first
    | rfl
    | (simp only [State.mergeLines, State.mergeLine_sec, apply_ite State.sec, ite_self, implies_true]; done)
  | succ n ih =>
    first
    | (simp only [State.mergeLines, State.mergeLine_sec, apply_ite State.sec, ite_self, implies_true, ih]; done)
    | (unfold State.mergeLines; (repeat' (first | with_reducible rfl | split)) <;> (simp only [State.mergeLine_sec, apply_ite State.sec, ite_self, implies_true, ih]; done))
    | (unfold State.mergeLines; (repeat' (first | with_reducible rfl | split)) <;> (try simp only [State.mergeLine_sec, apply_ite State.sec, ite_self, implies_true, ih]) <;> (repeat' (first | with_reducible rfl | split)) <;> (simp only [State.mergeLine_sec, apply_ite State.sec, ite_self, implies_true, ih]; done))

@[simp] theorem State.spoil_sec (s : State) (a n : Nat) :
    (State.spoil s a n).sec = s.sec := by
  rfl

@[simp] theorem State.writeBytes_sec (s : State) (a : Nat) (bs : Bytes) :
    (State.writeBytes s a bs).sec = s.sec := by
  simp only [State.writeBytes, State.bump_sec, State.storeBytes_sec, State.mergeLines_sec, State.spoil_sec, apply_ite State.sec, ite_self, implies_true]

@[simp] theorem State.poisonUnits_sec (s : State) (us : List Nat) :
    (State.poisonUnits s us).sec = s.sec := by
  simp only [State.poisonUnits, State.bump_sec, foldl_sec, apply_ite State.sec, ite_self, implies_true]

@[simp] theorem State.clearRun_sec (s : State) (a n : Nat) :
    (State.clearRun s a n).sec = s.sec := by
  rfl

/-! ### Journal -/

@[simp] theorem State.wearLevel_sec (s : State) :
    (State.wearLevel s).sec = s.sec := by
  unfold State.wearLevel
  (repeat' (first | with_reducible rfl | split)) <;> simp only [State.bump_sec, apply_ite State.sec, ite_self, implies_true]

@[simp] theorem State.commitWith_sec (s : State) (extra : List Rec) :
    (State.commitWith s extra).sec = s.sec := by
  simp only [State.commitWith, State.bump_sec, State.wearLevel_sec, apply_ite State.sec, ite_self, implies_true]

@[simp] theorem State.commit_sec (s : State) :
    (State.commit s).sec = s.sec := by
  simp only [State.commit, State.commitWith_sec, apply_ite State.sec, ite_self, implies_true]

@[simp] theorem State.forceCommit_sec (s : State) :
    (State.forceCommit s).sec = s.sec := by
  simp only [State.forceCommit, State.bump_sec, State.commitWith_sec, apply_ite State.sec, ite_self, implies_true]

@[simp] theorem State.journal_sec (s : State) (must : Bool) (r : Rec) :
    (State.journal s must r).sec = s.sec := by
  simp only [State.journal, State.commitWith_sec, apply_ite State.sec, ite_self, implies_true]

/-! ### Events -/

@[simp] theorem State.post_sec (s : State) (unit event status detail : Nat) :
    (State.post s unit event status detail).sec = s.sec := by
  simp only [State.post, State.drew_sec, apply_ite State.sec, ite_self, implies_true]

@[simp] theorem State.log_sec (s : State) (unit status severity part detail : Nat) :
    (State.log s unit status severity part detail).sec = s.sec := by
  simp only [State.log, State.bump_sec, State.drew_sec, State.journal_sec, apply_ite State.sec, ite_self, implies_true]

@[simp] theorem State.flushEmergency_sec (s : State) :
    (State.flushEmergency s).sec = s.sec := by
  unfold State.flushEmergency
  (repeat' (first | with_reducible rfl | split)) <;> simp only [State.bump_sec, apply_ite State.sec, ite_self, implies_true]

@[simp] theorem State.emergency_sec (s : State) (bitNo status : Nat) :
    (State.emergency s bitNo status).sec = s.sec := by
  simp only [State.emergency, State.bump_sec, State.flushEmergency_sec, apply_ite State.sec, ite_self, implies_true]

@[simp] theorem State.raise_sec (s : State) (bitNo status : Nat) :
    (State.raise s bitNo status).sec = s.sec := by
  simp only [State.raise, State.emergency_sec, apply_ite State.sec, ite_self, implies_true]

@[simp] theorem State.watch_sec (s : State) (status : Nat) :
    (State.watch s status).sec = s.sec := by
  simp only [State.watch, State.emergency_sec, foldl_sec, apply_ite State.sec, ite_self, implies_true]

/-! ### Wire -/

@[simp] theorem State.setPort_sec (s : State) (i : Nat) (f : Port → Port) :
    (State.setPort s i f).sec = s.sec := by
  rfl

@[simp] theorem State.freePlace_sec (s : State) (f : Flit) :
    (State.freePlace s f).sec = s.sec := by
  unfold State.freePlace
  (repeat' (first | with_reducible rfl | split)) <;> simp only [State.setPort_sec, apply_ite State.sec, ite_self, implies_true]

@[simp] theorem State.routeFlit_sec (s : State) (f : Flit) :
    (State.routeFlit s f).sec = s.sec := by
  simp only [State.routeFlit, State.bump_sec, State.setPort_sec, State.freePlace_sec, apply_ite State.sec, ite_self, implies_true]

@[simp] theorem State.rerouteHeld_sec (s : State) :
    (State.rerouteHeld s).sec = s.sec := by
  simp only [State.rerouteHeld, State.routeFlit_sec, foldl_sec, apply_ite State.sec, ite_self, implies_true]

@[simp] theorem State.sendPacket_sec (s : State) (cls dest post : Nat) (payload : Bytes) :
    (State.sendPacket s cls dest post payload).sec = s.sec := by
  simp only [State.sendPacket, State.post_sec, State.routeFlit_sec, foldl_sec, apply_ite State.sec, ite_self, implies_true]

@[simp] theorem State.respond_sec (s : State) (part dest post : Nat) (payload : Bytes) :
    (State.respond s part dest post payload).sec = s.sec := by
  simp only [State.respond, State.post_sec, State.sendPacket_sec, apply_ite State.sec, ite_self, implies_true]

@[simp] theorem State.refuse_sec (s : State) (part dest code : Nat) :
    (State.refuse s part dest code).sec = s.sec := by
  simp only [State.refuse, State.routeFlit_sec, foldl_sec, apply_ite State.sec, ite_self, implies_true]

@[simp] theorem State.request_sec (s : State) (kind : ReqKind) (ctx idx part node addr len : Nat) (data : Bytes) (session seq : Nat) :
    (State.request s kind ctx idx part node addr len data session seq).sec = s.sec := by
  simp only [State.request, State.routeFlit_sec, foldl_sec, apply_ite State.sec, ite_self, implies_true]

@[simp] theorem State.dropReqs_sec (s : State) (p : Req → Bool) :
    (State.dropReqs s p).sec = s.sec := by
  rfl

@[simp] theorem State.dropCopy_sec (s : State) (c : Copy) :
    (State.dropCopy s c).sec = s.sec := by
  rfl

@[simp] theorem State.chargeWrite_sec (s : State) (ctx code : Nat) :
    (State.chargeWrite s ctx code).sec = s.sec := by
  rfl

@[simp] theorem State.lostBack_sec (s : State) (node addr code : Nat) :
    (State.lostBack s node addr code).sec = s.sec := by
  unfold State.lostBack
  (repeat' (first | with_reducible rfl | split)) <;> simp only [State.chargeWrite_sec, foldl_sec, apply_ite State.sec, ite_self, implies_true]

@[simp] theorem State.lostFetch_sec (s : State) (node addr code : Nat) :
    (State.lostFetch s node addr code).sec = s.sec := by
  simp only [State.lostFetch, State.chargeWrite_sec, foldl_sec, apply_ite State.sec, ite_self, implies_true]

@[simp] theorem State.writeBack_sec (s : State) (c : Copy) :
    (State.writeBack s c).sec = s.sec := by
  simp only [State.writeBack, State.request_sec, State.lostBack_sec, apply_ite State.sec, ite_self, implies_true]

@[simp] theorem State.evict_sec (s : State) (c : Copy) :
    (State.evict s c).sec = s.sec := by
  simp only [State.evict, State.bump_sec, State.dropCopy_sec, State.writeBack_sec, apply_ite State.sec, ite_self, implies_true]

@[simp] theorem State.makeRoom_sec (s : State) (n : Nat) (v0 : Nat) :
    (State.makeRoom s n v0).sec = s.sec := by
  induction v0 generalizing s n  with
  | zero =>
    first
    | rfl
    | (simp only [State.makeRoom, State.evict_sec, apply_ite State.sec, ite_self, implies_true]; done)
  | succ n ih =>
    first
    | (simp only [State.makeRoom, State.evict_sec, apply_ite State.sec, ite_self, implies_true, ih]; done)
    | (unfold State.makeRoom; (repeat' (first | with_reducible rfl | split)) <;> (simp only [State.evict_sec, apply_ite State.sec, ite_self, implies_true, ih]; done))
    | (unfold State.makeRoom; (repeat' (first | with_reducible rfl | split)) <;> (try simp only [State.evict_sec, apply_ite State.sec, ite_self, implies_true, ih]) <;> (repeat' (first | with_reducible rfl | split)) <;> (simp only [State.evict_sec, apply_ite State.sec, ite_self, implies_true, ih]; done))

@[simp] theorem State.copyRoom_sec (s : State) :
    (State.copyRoom s).1.sec = s.sec := by
  simp only [State.copyRoom, State.makeRoom_sec, apply_ite State.sec, ite_self, implies_true]

@[simp] theorem State.copyWrite_sec (s : State) (ctx g : Nat) (bs : Bytes) :
    (State.copyWrite s ctx g bs).1.sec = s.sec := by
  unfold State.copyWrite
  simp only [State.request_sec, State.lostFetch_sec, State.copyRoom_sec, foldl_sec, apply_ite State.sec, ite_self, implies_true]
  (repeat' (first | with_reducible rfl | split)) <;> (try with_reducible rfl) <;> simp only [State.request_sec, State.lostFetch_sec, State.copyRoom_sec, foldl_sec, apply_ite State.sec, ite_self, implies_true]

@[simp] theorem State.writeGlobal_sec (s : State) (ctx idx part : Nat) (w : Nat × Bytes) :
    (State.writeGlobal s ctx idx part w).sec = s.sec := by
  simp only [State.writeGlobal, State.writeBytes_sec, State.request_sec, State.chargeWrite_sec, State.copyWrite_sec, foldl_sec, apply_ite State.sec, ite_self, implies_true]

/-! ### Dict -/

@[simp] theorem State.placeSm1_sec (s : State) (m : Bytes) :
    (State.placeSm1 s m).sec = s.sec := by
  rfl

@[simp] theorem State.abort_sec (s : State) (idx sub code detail : Nat) :
    (State.abort s idx sub code detail).sec = s.sec := by
  simp only [State.abort, State.bump_sec, State.placeSm1_sec, apply_ite State.sec, ite_self, implies_true]

@[simp] theorem State.answerWrite_sec (s : State) (idx sub : Nat) (commit : Bool) (r : Applied) (h : r.1.sec = s.sec) :
    (s.answerWrite idx sub commit r).sec = s.sec := by
  unfold State.answerWrite
  split <;> simp [h]

@[simp] theorem State.upload_sec (s : State) (idx sub : Nat) (data : Bytes) :
    (State.upload s idx sub data).sec = s.sec := by
  simp only [State.upload, State.bump_sec, State.placeSm1_sec, apply_ite State.sec, ite_self, implies_true]

@[simp] theorem State.trigger_sec (s : State) (idx sub : Nat) (commit : Bool) (lo hi value : Nat) (f : State → Applied)
    (h : (f s).1.sec = s.sec) : (s.trigger idx sub commit lo hi value f).sec = s.sec := by
  unfold State.trigger
  split
  · rfl
  · apply State.answerWrite_sec
    split
    · rfl
    · exact h

@[simp] theorem State.keep_sec (s : State) (idx sub width v : Nat) :
    (State.keep s idx sub width v).sec = s.sec := by
  simp only [State.keep, State.dset_sec, State.journal_sec, apply_ite State.sec, ite_self, implies_true]

@[simp] theorem State.putFence_sec (s : State) (unit state origin cause : Nat) :
    (State.putFence s unit state origin cause).sec = s.sec := by
  simp only [State.putFence, State.drew_sec, State.forceCommit_sec, State.journal_sec, State.post_sec, State.log_sec, State.watch_sec, apply_ite State.sec, ite_self, implies_true]

@[simp] theorem State.dropFence_sec (s : State) (unit : Nat) :
    (State.dropFence s unit).sec = s.sec := by
  unfold State.dropFence
  (repeat' (first | with_reducible rfl | split)) <;> simp only [State.forceCommit_sec, State.journal_sec, State.watch_sec, apply_ite State.sec, ite_self, implies_true]

@[simp] theorem State.markChannel_sec (s : State) (n origin cause : Nat) :
    (State.markChannel s n origin cause).sec = s.sec := by
  simp only [State.markChannel, State.setChan_sec, State.putFence_sec, apply_ite State.sec, ite_self, implies_true]

@[simp] theorem State.badReads_sec (s : State) (n k : Nat) :
    (State.badReads s n k).sec = s.sec := by
  simp only [State.badReads, State.setChan_sec, State.markChannel_sec, apply_ite State.sec, ite_self, implies_true]

/-! ### Contexts -/

@[simp] theorem State.setCtx_sec (s : State) (c : Nat) (f : Ctx → Ctx) :
    (State.setCtx s c f).sec = s.sec := by
  rfl

@[simp] theorem State.setQueue_sec (s : State) (c : Nat) (f : Queue → Queue) :
    (State.setQueue s c f).sec = s.sec := by
  simp only [State.setQueue, State.setCtx_sec, apply_ite State.sec, ite_self, implies_true]

@[simp] theorem State.setJob_sec (s : State) (c : Nat) (f : Job → Job) :
    (State.setJob s c f).sec = s.sec := by
  simp only [State.setJob, State.setCtx_sec, apply_ite State.sec, ite_self, implies_true]

@[simp] theorem State.setFlight_sec (s : State) (c i : Nat) (f : InFlight → InFlight) :
    (State.setFlight s c i f).sec = s.sec := by
  rfl

@[simp] theorem State.readRuns_sec (s : State) (l : List (Nat × Nat)) :
    (State.readRuns s l).sec = s.sec := by
  simp only [State.readRuns, State.bump_sec, State.bumps_sec, State.drew_sec, apply_ite State.sec, ite_self, implies_true]

@[simp] theorem State.setSession_sec (s : State) (id : Nat) (f : Session → Session) :
    (State.setSession s id f).sec = s.sec := by
  rfl

@[simp] theorem State.putDgram_sec (s : State) (d : OutDgram) :
    (State.putDgram s d).sec = s.sec := by
  simp only [State.putDgram, apply_ite State.sec, ite_self, implies_true]

@[simp] theorem State.emit_sec (s : State) (x : Session) (m : SentMsg) :
    (State.emit s x m).sec = s.sec := by
  simp only [State.emit, State.setSession_sec, State.putDgram_sec, apply_ite State.sec, ite_self, implies_true]

@[simp] theorem State.sendMsg_sec (s : State) (id type status post : Nat) (body : Bytes) :
    (State.sendMsg s id type status post body).sec = s.sec := by
  unfold State.sendMsg
  (repeat' (first | with_reducible rfl | split)) <;> simp only [State.bump_sec, State.post_sec, State.setSession_sec, State.emit_sec, apply_ite State.sec, ite_self, implies_true]

@[simp] theorem State.sendLoose_sec (s : State) (id type status : Nat) (body : Bytes) :
    (State.sendLoose s id type status body).sec = s.sec := by
  unfold State.sendLoose
  (repeat' (first | with_reducible rfl | split)) <;> simp only [State.bump_sec, State.emit_sec, apply_ite State.sec, ite_self, implies_true]

@[simp] theorem State.endClosing_sec (s : State) (id : Nat) :
    (State.endClosing s id).sec = s.sec := by
  unfold State.endClosing
  (repeat' (first | with_reducible rfl | split)) <;> simp only [apply_ite State.sec, ite_self, implies_true]

@[simp] theorem State.reply_sec (s : State) (id seq status post value : Nat) :
    (State.reply s id seq status post value).sec = s.sec := by
  simp only [State.reply, State.post_sec, State.sendMsg_sec, State.endClosing_sec, apply_ite State.sec, ite_self, implies_true]

@[simp] theorem State.progress_sec (s : State) (c : Nat) :
    (State.progress s c).sec = s.sec := by
  unfold State.progress
  (repeat' (first | with_reducible rfl | split)) <;> simp only [State.sendMsg_sec, apply_ite State.sec, ite_self, implies_true]

@[simp] theorem State.enter_sec (s : State) (c : Nat) (st : CtxState) :
    (State.enter s c st).sec = s.sec := by
  unfold State.enter
  (repeat' (first | with_reducible rfl | split)) <;> simp only [State.post_sec, State.setCtx_sec, State.progress_sec, apply_ite State.sec, ite_self, implies_true]

@[simp] theorem State.dropSlot_sec (s : State) (x : Ctx) :
    (State.dropSlot s x).sec = s.sec := by
  simp only [State.dropSlot, apply_ite State.sec, ite_self, implies_true]

@[simp] theorem State.goLive_sec (s : State) (c : Nat) :
    (State.goLive s c).sec = s.sec := by
  simp only [State.goLive, State.setQueue_sec, State.enter_sec, apply_ite State.sec, ite_self, implies_true]

@[simp] theorem State.dropSave_sec (s : State) (c : Nat) :
    (State.dropSave s c).sec = s.sec := by
  unfold State.dropSave
  (repeat' (first | with_reducible rfl | split)) <;> simp only [State.setCtx_sec, apply_ite State.sec, ite_self, implies_true]

@[simp] theorem State.suspendStart_sec (s : State) (c : Nat) (held : Bool) :
    (State.suspendStart s c held).sec = s.sec := by
  unfold State.suspendStart
  (repeat' (first | with_reducible rfl | split)) <;> simp only [State.setCtx_sec, apply_ite State.sec, ite_self, implies_true]

@[simp] theorem State.runTriggersOf_sec (s : State) (v0 : List (Nat × Nat)) :
    (State.runTriggersOf s v0).sec = s.sec := by
  induction v0 generalizing s  with
  | nil =>
    first
    | rfl
    | (simp only [State.runTriggersOf, State.suspendStart_sec, apply_ite State.sec, ite_self, implies_true]; done)
  | cons b l ih =>
    first
    | (simp only [State.runTriggersOf, State.suspendStart_sec, apply_ite State.sec, ite_self, implies_true, ih]; done)
    | (unfold State.runTriggersOf; (repeat' (first | with_reducible rfl | split)) <;> (simp only [State.suspendStart_sec, apply_ite State.sec, ite_self, implies_true, ih]; done))
    | (unfold State.runTriggersOf; (repeat' (first | with_reducible rfl | split)) <;> (try simp only [State.suspendStart_sec, apply_ite State.sec, ite_self, implies_true, ih]) <;> (repeat' (first | with_reducible rfl | split)) <;> (simp only [State.suspendStart_sec, apply_ite State.sec, ite_self, implies_true, ih]; done))

@[simp] theorem State.runTriggers_sec (s : State) :
    (State.runTriggers s).sec = s.sec := by
  simp only [State.runTriggers, State.runTriggersOf_sec, apply_ite State.sec, ite_self, implies_true]

@[simp] theorem State.endCopies_sec (s : State) (c : Nat) :
    (State.endCopies s c).sec = s.sec := by
  simp only [State.endCopies, State.writeBack_sec, foldl_sec, apply_ite State.sec, ite_self, implies_true]

@[simp] theorem State.dropWork_sec (s : State) (c : Nat) :
    (State.dropWork s c).sec = s.sec := by
  simp only [State.dropWork, apply_ite State.sec, ite_self, implies_true]

@[simp] theorem State.freeCtx_sec (s : State) (c : Nat) :
    (State.freeCtx s c).sec = s.sec := by
  simp only [State.freeCtx, State.dropSave_sec, State.runTriggers_sec, State.dropWork_sec, apply_ite State.sec, ite_self, implies_true]

@[simp] theorem State.failDelivery_sec (s : State) (r : Result) :
    (State.failDelivery s r).sec = s.sec := by
  simp only [State.failDelivery, State.bump_sec, State.refuse_sec, State.progress_sec, State.freeCtx_sec, apply_ite State.sec, ite_self, implies_true]

@[simp] theorem State.sendResults_sec (s : State) (sess job post : Nat) (v0 : Nat) (v1 : List Bytes) :
    (State.sendResults s sess job post v0 v1).sec = s.sec := by
  induction v1 generalizing s sess job post v0 with
  | nil =>
    first
    | rfl
    | (simp only [State.sendResults, State.post_sec, State.sendMsg_sec, apply_ite State.sec, ite_self, implies_true]; done)
  | cons b l ih =>
    first
    | (simp only [State.sendResults, State.post_sec, State.sendMsg_sec, apply_ite State.sec, ite_self, implies_true, ih]; done)
    | (unfold State.sendResults; (repeat' (first | with_reducible rfl | split)) <;> (simp only [State.post_sec, State.sendMsg_sec, apply_ite State.sec, ite_self, implies_true, ih]; done))
    | (unfold State.sendResults; (repeat' (first | with_reducible rfl | split)) <;> (try simp only [State.post_sec, State.sendMsg_sec, apply_ite State.sec, ite_self, implies_true, ih]) <;> (repeat' (first | with_reducible rfl | split)) <;> (simp only [State.post_sec, State.sendMsg_sec, apply_ite State.sec, ite_self, implies_true, ih]; done))

@[simp] theorem State.sendResult_sec (s : State) (r : Result) (stream : Bytes) :
    (State.sendResult s r stream).sec = s.sec := by
  unfold State.sendResult
  (repeat' (first | with_reducible rfl | split)) <;> simp only [State.post_sec, State.sendMsg_sec, State.sendResults_sec, apply_ite State.sec, ite_self, implies_true]

@[simp] theorem State.keepRead_sec (s : State) (e : Env) (id : Nat) (q : Nat × Nat) :
    (State.keepRead s e id q).sec = s.sec := by
  rfl

@[simp] theorem State.deliver_sec (s : State) (r : Result) :
    (State.deliver s r).sec = s.sec := by
  unfold State.deliver
  (repeat' (first | with_reducible rfl | split)) <;> simp only [State.request_sec, State.readRuns_sec, State.failDelivery_sec, State.sendResult_sec, State.keepRead_sec, foldl_sec, apply_ite State.sec, ite_self, implies_true]

@[simp] theorem State.holdResult_sec (s : State) (node ctx client job sess ref status : Nat) :
    (State.holdResult s node ctx client job sess ref status).sec = s.sec := by
  simp only [State.holdResult, State.deliver_sec, apply_ite State.sec, ite_self, implies_true]

@[simp] theorem State.endJob_sec (s : State) (c status : Nat) :
    (State.endJob s c status).sec = s.sec := by
  unfold State.endJob
  (repeat' (first | with_reducible rfl | split)) <;> simp only [State.bump_sec, State.request_sec, State.setJob_sec, State.progress_sec, State.enter_sec, State.dropSlot_sec, State.endCopies_sec, State.freeCtx_sec, State.holdResult_sec, apply_ite State.sec, ite_self, implies_true]

@[simp] theorem State.finishJob_sec (s : State) (c : Nat) :
    (State.finishJob s c).sec = s.sec := by
  unfold State.finishJob
  (repeat' (first | with_reducible rfl | split)) <;> simp only [State.endJob_sec, apply_ite State.sec, ite_self, implies_true]

/-! ### Stream -/

@[simp] theorem State.bellIgnored_sec (s : State) :
    (State.bellIgnored s).sec = s.sec := by
  simp only [State.bellIgnored, State.bump_sec, apply_ite State.sec, ite_self, implies_true]

@[simp] theorem State.bellFetch_sec (s : State) (c : Nat) :
    (State.bellFetch s c).sec = s.sec := by
  unfold State.bellFetch
  (repeat' (first | with_reducible rfl | split)) <;> simp only [State.bump_sec, State.drew_sec, apply_ite State.sec, ite_self, implies_true]

@[simp] theorem State.bellTail_sec (s : State) (c value : Nat) :
    (State.bellTail s c value).sec = s.sec := by
  unfold State.bellTail
  (repeat' (first | with_reducible rfl | split)) <;> simp only [State.setQueue_sec, State.bellIgnored_sec, apply_ite State.sec, ite_self, implies_true]

@[simp] theorem State.bellResume_sec (s : State) (c value : Nat) :
    (State.bellResume s c value).sec = s.sec := by
  unfold State.bellResume
  (repeat' (first | with_reducible rfl | split)) <;> simp only [State.setCtx_sec, apply_ite State.sec, ite_self, implies_true]

@[simp] theorem State.postAll_sec (s : State) :
    (State.postAll s).sec = s.sec := by
  simp only [State.postAll, apply_ite State.sec, ite_self, implies_true]

@[simp] theorem State.cellTake_sec (s : State) (cell : Nat) (v0 : Nat) :
    (State.cellTake s cell v0).sec = s.sec := by
  induction v0 generalizing s cell  with
  | zero =>
    first
    | rfl
    | (simp only [State.cellTake, State.bump_sec, State.setCell_sec, apply_ite State.sec, ite_self, implies_true]; done)
  | succ n ih =>
    first
    | (simp only [State.cellTake, State.bump_sec, State.setCell_sec, apply_ite State.sec, ite_self, implies_true, ih]; done)
    | (unfold State.cellTake; (repeat' (first | with_reducible rfl | split)) <;> (simp only [State.bump_sec, State.setCell_sec, apply_ite State.sec, ite_self, implies_true, ih]; done))
    | (unfold State.cellTake; (repeat' (first | with_reducible rfl | split)) <;> (try simp only [State.bump_sec, State.setCell_sec, apply_ite State.sec, ite_self, implies_true, ih]) <;> (repeat' (first | with_reducible rfl | split)) <;> (simp only [State.bump_sec, State.setCell_sec, apply_ite State.sec, ite_self, implies_true, ih]; done))

@[simp] theorem State.serveTasks_sec (s : State) :
    (State.serveTasks s).sec = s.sec := by
  simp only [State.serveTasks, State.postAll_sec, State.cellTake_sec, foldl_sec, apply_ite State.sec, ite_self, implies_true]

@[simp] theorem State.setGrid_sec (s : State) (c idx : Nat) (l : List (Nat × Nat × Nat × Nat)) :
    (State.setGrid s c idx l).sec = s.sec := by
  rfl

@[simp] theorem State.deal_sec (s : State) (c idx prio : Nat) (l : List (Nat × Nat × Nat × Nat)) (done : Nat → Nat → Option Progress) :
    (State.deal s c idx prio l done).sec = s.sec := by
  simp only [State.deal, State.bump_sec, State.serveTasks_sec, apply_ite State.sec, ite_self, implies_true]

@[simp] theorem State.retire_sec (s : State) (c : Nat) (v0 : Nat) :
    (State.retire s c v0).sec = s.sec := by
  induction v0 generalizing s c  with
  | zero =>
    first
    | rfl
    | (simp only [State.retire, State.setQueue_sec, apply_ite State.sec, ite_self, implies_true]; done)
  | succ n ih =>
    first
    | (simp only [State.retire, State.setQueue_sec, apply_ite State.sec, ite_self, implies_true, ih]; done)
    | (unfold State.retire; (repeat' (first | with_reducible rfl | split)) <;> (simp only [State.setQueue_sec, apply_ite State.sec, ite_self, implies_true, ih]; done))
    | (unfold State.retire; (repeat' (first | with_reducible rfl | split)) <;> (try simp only [State.setQueue_sec, apply_ite State.sec, ite_self, implies_true, ih]) <;> (repeat' (first | with_reducible rfl | split)) <;> (simp only [State.setQueue_sec, apply_ite State.sec, ite_self, implies_true, ih]; done))

@[simp] theorem State.haltQueue_sec (s : State) (c : Nat) (record : Bytes) :
    (State.haltQueue s c record).sec = s.sec := by
  unfold State.haltQueue
  (repeat' (first | with_reducible rfl | split)) <;> simp only [State.setCtx_sec, State.progress_sec, apply_ite State.sec, ite_self, implies_true]

@[simp] theorem State.leaveStream_sec (s : State) (f : InFlight) :
    (State.leaveStream s f).sec = s.sec := by
  simp only [State.leaveStream, apply_ite State.sec, ite_self, implies_true]

@[simp] theorem State.countWork_sec (s : State) (f : InFlight) :
    (State.countWork s f).sec = s.sec := by
  simp only [State.countWork, State.bumps_sec, State.drew_sec, apply_ite State.sec, ite_self, implies_true]

@[simp] theorem State.unspoil_sec (s t : State) (f : InFlight) : (State.unspoil s t f).sec = t.sec := by
  unfold State.unspoil
  split <;> rfl

@[simp] theorem State.putResult_sec (s : State) (f : InFlight) (w : Nat × Bytes) :
    (State.putResult s f w).sec = s.sec := by
  simp only [State.putResult, State.writeGlobal_sec, State.unspoil_sec, apply_ite State.sec, ite_self, implies_true]

@[simp] theorem State.settle_sec (s : State) (x : Ctx) (f : InFlight) :
    (State.settle s x f).sec = s.sec := by
  simp only [State.settle, State.bump_sec, State.writeBytes_sec, State.log_sec, State.setJob_sec, State.retire_sec, State.leaveStream_sec, State.countWork_sec, State.putResult_sec, foldl_sec, apply_ite State.sec, ite_self, implies_true]

@[simp] theorem State.completeNow_sec (s : State) (x : Ctx) (f : InFlight) :
    (State.completeNow s x f).sec = s.sec := by
  simp only [State.completeNow, State.finishJob_sec, State.serveTasks_sec, State.haltQueue_sec, State.settle_sec, apply_ite State.sec, ite_self, implies_true]

@[simp] theorem State.complete_sec (s : State) (c idx : Nat) :
    (State.complete s c idx).sec = s.sec := by
  unfold State.complete
  (repeat' (first | with_reducible rfl | split)) <;> simp only [State.completeNow_sec, apply_ite State.sec, ite_self, implies_true]

@[simp] theorem State.addFlight_sec (s : State) (f : InFlight) :
    (State.addFlight s f).sec = s.sec := by
  rfl

@[simp] theorem State.reject_sec (s : State) (f : InFlight) (code : Nat) :
    (State.reject s f code).sec = s.sec := by
  simp only [State.reject, State.addFlight_sec, apply_ite State.sec, ite_self, implies_true]

@[simp] theorem State.heldWriteBack_sec (s : State) (e : Env) :
    (State.heldWriteBack s e).sec = s.sec := by
  simp only [State.heldWriteBack, State.writeBack_sec, foldl_sec, apply_ite State.sec, ite_self, implies_true]

@[simp] theorem State.sawPoison_sec (s : State) (us : List Nat) :
    (State.sawPoison s us).sec = s.sec := by
  simp only [State.sawPoison, State.bump_sec, State.raise_sec, State.badReads_sec, foldl_sec, apply_ite State.sec, ite_self, implies_true]

@[simp] theorem State.scramble_sec (s : State) (f : InFlight) :
    (State.scramble s f).sec = s.sec := by
  simp only [State.scramble, State.drew_sec, State.writeBytes_sec, foldl_sec, apply_ite State.sec, ite_self, implies_true]

@[simp] theorem State.holdSheets_sec (s : State) (c : Nat) (l : Option (List SheetSet)) :
    (State.holdSheets s c l).sec = s.sec := by
  unfold State.holdSheets
  (repeat' (first | with_reducible rfl | split)) <;> simp only [apply_ite State.sec, ite_self, implies_true]

@[simp] theorem State.finishRun_sec (s : State) (o : Op) (e : Env) (f : InFlight) :
    (State.finishRun s o e f).sec = s.sec := by
  simp only [State.finishRun, State.bump_sec, State.bumps_sec, State.drew_sec, State.writeBytes_sec, State.setFlight_sec, State.readRuns_sec, State.setGrid_sec, State.deal_sec, State.unspoil_sec, State.sawPoison_sec, State.scramble_sec, State.holdSheets_sec, foldl_sec, apply_ite State.sec, ite_self, implies_true]

@[simp] theorem State.dropColl_sec (s : State) (c idx : Nat) :
    (State.dropColl s c idx).sec = s.sec := by
  rfl

@[simp] theorem State.failInstr_sec (s : State) (c idx code : Nat) :
    (State.failInstr s c idx code).sec = s.sec := by
  unfold State.failInstr
  (repeat' (first | with_reducible rfl | split)) <;> simp only [State.dropReqs_sec, State.setFlight_sec, State.scramble_sec, State.dropColl_sec, apply_ite State.sec, ite_self, implies_true]

@[simp] theorem State.countPath_sec (s : State) (deadline : Bool) (path : Nat) :
    (State.countPath s deadline path).sec = s.sec := by
  unfold State.countPath
  (repeat' (first | with_reducible rfl | split)) <;> simp only [State.bump_sec, apply_ite State.sec, ite_self, implies_true]

@[simp] theorem State.startPaths_sec (s : State) (e : Env) (f : InFlight) (lost : List Nat) :
    (State.startPaths s e f lost).sec = s.sec := by
  unfold State.startPaths
  (repeat' (first | with_reducible rfl | split)) <;> simp only [State.post_sec, State.countPath_sec, foldl_sec, apply_ite State.sec, ite_self, implies_true]

@[simp] theorem State.sendHistory_sec (s : State) (e : Env) (f : InFlight) (blocks : List Nat) :
    (State.sendHistory s e f blocks).sec = s.sec := by
  unfold State.sendHistory
  (repeat' (first | with_reducible rfl | split)) <;> simp only [State.request_sec, foldl_sec, apply_ite State.sec, ite_self, implies_true]

@[simp] theorem State.bring_sec (s : State) (o : Op) (e : Env) (f : InFlight) (go : State → InFlight → State)
    (h : ∀ s f, (go s f).sec = s.sec) :
    (s.bring o e f go).sec = s.sec := by
  unfold State.bring
  (repeat' split) <;>
    (try with_reducible rfl) <;>
    (try dsimp only) <;>
    (repeat' split) <;>
    simp only [h, State.failInstr_sec, foldl_sec, State.request_sec, implies_true]

@[simp] theorem State.launchTo_sec (s : State) (o : Op) (e : Env) (f : InFlight) (go : State → InFlight → State)
    (h : ∀ s f, (go s f).sec = s.sec) :
    (s.launchTo o e f go).sec = s.sec := by
  unfold State.launchTo
  dsimp only
  (repeat' split) <;>
    (try simp only [State.bring_sec _ _ _ _ _ h]) <;>
    simp only [h, State.failInstr_sec, State.addFlight_sec, State.sendHistory_sec, State.startPaths_sec, foldl_sec, State.request_sec, implies_true]

@[simp] theorem State.launch_sec (s : State) (o : Op) (e : Env) (f : InFlight) :
    (State.launch s o e f).sec = s.sec := by
  simp only [State.launch, State.finishRun_sec, State.launchTo_sec, apply_ite State.sec, ite_self, implies_true]

@[simp] theorem State.stall_sec (s : State) (c idx : Nat) :
    (State.stall s c idx).sec = s.sec := by
  simp only [State.stall, State.bump_sec, apply_ite State.sec, ite_self, implies_true]

@[simp] theorem State.slotRead_sec (s : State) (a : Nat) (o : Op) (e : Env) (all : Bool) :
    (State.slotRead s a o e all).sec = s.sec := by
  simp only [State.slotRead, State.readRuns_sec, apply_ite State.sec, ite_self, implies_true]

@[simp] theorem State.startMacro_sec (s : State) (m : Macro) (c idx : Nat)
    (h : ∀ go, m.start = some go → ∀ s e f, (go s e f).sec = s.sec) :
    (s.startMacro m c idx).sec = s.sec := by
  unfold State.startMacro
  split
  · rfl
  · cases hm : m.start with
    | none => simp only [apply_ite State.sec, ite_self, State.reject_sec, State.sawPoison_sec, State.heldWriteBack_sec,
        State.stall_sec, State.slotRead_sec, State.bump_sec, State.launch_sec]
    | some go => simp only [apply_ite State.sec, ite_self, State.reject_sec, State.sawPoison_sec, State.heldWriteBack_sec,
        State.stall_sec, State.slotRead_sec, State.bump_sec, h go hm]

@[simp] theorem startWait_sec (s : State) (e : Env) (f : InFlight) :
    (startWait s e f).sec = s.sec := by
  simp only [startWait, State.drew_sec, State.addFlight_sec, State.sawPoison_sec, apply_ite State.sec, ite_self, implies_true]

@[simp] theorem State.takeFailed_sec (s : State) (c : Nat) :
    (State.takeFailed s c).2.sec = s.sec := by
  rfl

@[simp] theorem State.semApply_sec (s : State) (a op operand : Nat) :
    (State.semApply s a op operand).sec = s.sec := by
  simp only [State.semApply, State.writeBytes_sec, apply_ite State.sec, ite_self, implies_true]

@[simp] theorem State.signalCopy_sec (s : State) (e : Env) (f : InFlight) :
    (State.signalCopy s e f).sec = s.sec := by
  simp only [State.signalCopy, State.copyWrite_sec, State.addFlight_sec, apply_ite State.sec, ite_self, implies_true]

@[simp] theorem startSignal_sec (s : State) (e : Env) (f : InFlight) :
    (startSignal s e f).sec = s.sec := by
  simp only [startSignal, State.request_sec, State.addFlight_sec, State.sawPoison_sec, State.scramble_sec, State.takeFailed_sec, State.semApply_sec, State.signalCopy_sec, apply_ite State.sec, ite_self, implies_true]

@[simp] theorem startFence_sec (s : State) (e : Env) (f : InFlight) :
    (startFence s e f).sec = s.sec := by
  simp only [startFence, State.addFlight_sec, State.takeFailed_sec, apply_ite State.sec, ite_self, implies_true]

@[simp] theorem startNop_sec (s : State) (_a0 : Env) (f : InFlight) :
    (startNop s _a0 f).sec = s.sec := by
  simp only [startNop, State.addFlight_sec, apply_ite State.sec, ite_self, implies_true]

@[simp] theorem State.endWait_sec (s : State) (f : InFlight) (code : Nat) :
    (State.endWait s f code).sec = s.sec := by
  simp only [State.endWait, State.drew_sec, State.setFlight_sec, State.complete_sec, State.sawPoison_sec, apply_ite State.sec, ite_self, implies_true]

/-! ### Ring -/

@[simp] theorem State.setColl_sec (s : State) (c idx : Nat) (f : Coll → Coll) :
    (State.setColl s c idx f).sec = s.sec := by
  rfl

@[simp] theorem State.failColl_sec (s : State) (c idx code : Nat) :
    (State.failColl s c idx code).sec = s.sec := by
  simp only [State.failColl, State.setFlight_sec, State.dropColl_sec, State.failInstr_sec, apply_ite State.sec, ite_self, implies_true]

@[simp] theorem State.endColl_sec (s : State) (x : Coll) (e : Env) (f : InFlight) (writes : List (Nat × Bytes)) :
    (State.endColl s x e f writes).sec = s.sec := by
  simp only [State.endColl, State.bump_sec, State.post_sec, State.writeGlobal_sec, State.setFlight_sec, State.dropColl_sec, foldl_sec, apply_ite State.sec, ite_self, implies_true]

@[simp] theorem State.narrowElems_sec (s : State) (x : Coll) (e : Env) (b : Bulk) (es : List Nat) :
    (State.narrowElems s x e b es).1.sec = s.sec := by
  simp only [State.narrowElems, State.bump_sec, State.setColl_sec, foldl_sec, apply_ite State.sec, ite_self, implies_true]

@[simp] theorem State.sendBulk_sec (s : State) (f : InFlight) (x : Coll) (node kind stage : Nat) (neg : Bool) (number : Nat) (last : Bool) (data : Bytes) :
    (State.sendBulk s f x node kind stage neg number last data).sec = s.sec := by
  simp only [State.sendBulk, State.sendPacket_sec, apply_ite State.sec, ite_self, implies_true]

@[simp] theorem State.pump_sec (s : State) (f : InFlight) (c idx : Nat) :
    (State.pump s f c idx).sec = s.sec := by
  unfold State.pump
  (repeat' (first | with_reducible rfl | split)) <;> simp only [State.bump_sec, State.setColl_sec, State.sendBulk_sec, foldl_sec, apply_ite State.sec, ite_self, implies_true]

@[simp] theorem State.sendHop_sec (s : State) (c idx : Nat) (e : Env) (b : Bulk) (h : Hop) (neg : Bool) :
    (State.sendHop s c idx e b h neg).sec = s.sec := by
  unfold State.sendHop
  (repeat' (first | with_reducible rfl | split)) <;> simp only [State.setColl_sec, State.narrowElems_sec, apply_ite State.sec, ite_self, implies_true]

@[simp] theorem State.narrowOwn_sec (s : State) (c idx : Nat) (e : Env) (b : Bulk) :
    (State.narrowOwn s c idx e b).sec = s.sec := by
  unfold State.narrowOwn
  (repeat' (first | with_reducible rfl | split)) <;> simp only [State.narrowElems_sec, apply_ite State.sec, ite_self, implies_true]

@[simp] theorem State.ackChunk_sec (s : State) (f : InFlight) (x : Coll) (k : Chunk) :
    (State.ackChunk s f x k).sec = s.sec := by
  simp only [State.ackChunk, State.sendBulk_sec, apply_ite State.sec, ite_self, implies_true]

@[simp] theorem State.openStage_sec (s : State) (c idx : Nat) (e : Env) (f : InFlight) (b : Bulk) (x : Coll) :
    (State.openStage s c idx e f b x).sec = s.sec := by
  unfold State.openStage
  (repeat' (first | with_reducible rfl | split)) <;> simp only [State.setColl_sec, State.pump_sec, State.sendHop_sec, State.narrowOwn_sec, State.ackChunk_sec, foldl_sec, apply_ite State.sec, ite_self, implies_true]

@[simp] theorem State.runColl_sec (s : State) (c idx : Nat) (v0 : Nat) :
    (State.runColl s c idx v0).sec = s.sec := by
  induction v0 generalizing s c idx  with
  | zero =>
    first
    | rfl
    | (simp only [State.runColl, State.setColl_sec, State.endColl_sec, State.openStage_sec, apply_ite State.sec, ite_self, implies_true]; done)
  | succ n ih =>
    first
    | (simp only [State.runColl, State.setColl_sec, State.endColl_sec, State.openStage_sec, apply_ite State.sec, ite_self, implies_true, ih]; done)
    | (unfold State.runColl; (repeat' (first | with_reducible rfl | split)) <;> (simp only [State.setColl_sec, State.endColl_sec, State.openStage_sec, apply_ite State.sec, ite_self, implies_true, ih]; done))
    | (unfold State.runColl; (repeat' (first | with_reducible rfl | split)) <;> (try simp only [State.setColl_sec, State.endColl_sec, State.openStage_sec, apply_ite State.sec, ite_self, implies_true, ih]) <;> (repeat' (first | with_reducible rfl | split)) <;> (simp only [State.setColl_sec, State.endColl_sec, State.openStage_sec, apply_ite State.sec, ite_self, implies_true, ih]; done))

@[simp] theorem State.beginColl_sec (s : State) (c idx : Nat) :
    (State.beginColl s c idx).sec = s.sec := by
  unfold State.beginColl
  (repeat' (first | with_reducible rfl | split)) <;> simp only [State.writeBytes_sec, State.setColl_sec, State.runColl_sec, foldl_sec, apply_ite State.sec, ite_self, implies_true]

@[simp] theorem State.goColl_sec (s : State) (e : Env) (f : InFlight) :
    (State.goColl s e f).sec = s.sec := by
  simp only [State.goColl, State.setFlight_sec, State.readRuns_sec, State.sawPoison_sec, State.failInstr_sec, State.setColl_sec, State.beginColl_sec, apply_ite State.sec, ite_self, implies_true]

@[simp] theorem State.knowMark_sec (s : State) (src part post : Nat) :
    (State.knowMark s src part post).sec = s.sec := by
  simp only [State.knowMark, State.post_sec, apply_ite State.sec, ite_self, implies_true]

@[simp] theorem State.badChunk_sec (s : State) (f : InFlight) (x : Coll) (k : Chunk) (code : Nat) :
    (State.badChunk s f x k code).sec = s.sec := by
  simp only [State.badChunk, State.bump_sec, State.setColl_sec, State.failColl_sec, State.sendBulk_sec, apply_ite State.sec, ite_self, implies_true]

@[simp] theorem State.gotChunk_sec (s : State) (x : Coll) (e : Env) (f : InFlight) (k : Chunk) (residue : Bool) :
    (State.gotChunk s x e f k residue).sec = s.sec := by
  unfold State.gotChunk
  simp only [State.setColl_sec, State.ackChunk_sec, State.runColl_sec, State.badChunk_sec, apply_ite State.sec, ite_self, implies_true]
  (repeat' (first | with_reducible rfl | split)) <;> (try with_reducible rfl) <;> simp only [State.setColl_sec, State.ackChunk_sec, State.runColl_sec, State.badChunk_sec, apply_ite State.sec, ite_self, implies_true]

@[simp] theorem State.gotCall_sec (s : State) (x : Coll) (k : Chunk) :
    (State.gotCall s x k).sec = s.sec := by
  simp only [State.gotCall, State.setColl_sec, State.failColl_sec, State.beginColl_sec, apply_ite State.sec, ite_self, implies_true]

@[simp] theorem State.bulk_sec (s : State) (k : Chunk) (residue : Bool) :
    (State.bulk s k residue).sec = s.sec := by
  unfold State.bulk
  simp only [State.bump_sec, State.setColl_sec, State.failColl_sec, State.sendBulk_sec, State.pump_sec, State.runColl_sec, State.knowMark_sec, State.gotChunk_sec, State.gotCall_sec, foldl_sec, apply_ite State.sec, ite_self, implies_true]
  (repeat' (first | with_reducible rfl | split)) <;> (try with_reducible rfl) <;> simp only [State.bump_sec, State.setColl_sec, State.failColl_sec, State.sendBulk_sec, State.pump_sec, State.runColl_sec, State.knowMark_sec, State.gotChunk_sec, State.gotCall_sec, foldl_sec, apply_ite State.sec, ite_self, implies_true]

@[simp] theorem State.joinOrder_sec (s : State) (f : InFlight) (group sig : Nat) (post : Bool) :
    (State.joinOrder s f group sig post).sec = s.sec := by
  simp only [State.joinOrder, State.post_sec, apply_ite State.sec, ite_self, implies_true]

@[simp] theorem State.joinColl_sec (s : State) (e : Env) (f : InFlight) :
    (State.joinColl s e f).sec = s.sec := by
  unfold State.joinColl
  simp only [State.sendBulk_sec, State.joinOrder_sec, foldl_sec, apply_ite State.sec, ite_self, implies_true]
  (repeat' (first | with_reducible rfl | split)) <;> (try with_reducible rfl) <;> simp only [State.sendBulk_sec, State.joinOrder_sec, foldl_sec, apply_ite State.sec, ite_self, implies_true]

@[simp] theorem State.hearCalls_sec (s : State) (group : Nat) :
    (State.hearCalls s group).sec = s.sec := by
  simp only [State.hearCalls, State.bulk_sec, foldl_sec, apply_ite State.sec, ite_self, implies_true]

@[simp] theorem startColl_sec (s : State) (e : Env) (f : InFlight) :
    (startColl s e f).sec = s.sec := by
  simp only [startColl, State.bump_sec, State.addFlight_sec, State.reject_sec, State.failInstr_sec, State.launchTo_sec, State.goColl_sec, State.joinColl_sec, State.hearCalls_sec, apply_ite State.sec, ite_self, implies_true]

@[simp] theorem State.sendCard_sec (s : State) (g : Group) (k : Card) (post q : Nat) :
    (State.sendCard s g k post q).sec = s.sec := by
  simp only [State.sendCard, State.post_sec, State.sendPacket_sec, apply_ite State.sec, ite_self, implies_true]

@[simp] theorem State.sendCards_sec (s : State) (f : InFlight) (x : Coll) (g : Group) (a : Nat) (payload : Bytes) :
    (State.sendCards s f x g a payload).sec = s.sec := by
  simp only [State.sendCards, State.sendCard_sec, foldl_sec, apply_ite State.sec, ite_self, implies_true]

@[simp] theorem State.runPost_sec (s : State) (c idx : Nat) (v0 : Nat) :
    (State.runPost s c idx v0).sec = s.sec := by
  induction v0 generalizing s c idx  with
  | zero =>
    first
    | rfl
    | (simp only [State.runPost, State.setColl_sec, State.failColl_sec, State.endColl_sec, State.sendCards_sec, apply_ite State.sec, ite_self, implies_true]; done)
  | succ n ih =>
    first
    | (simp only [State.runPost, State.setColl_sec, State.failColl_sec, State.endColl_sec, State.sendCards_sec, apply_ite State.sec, ite_self, implies_true, ih]; done)
    | (unfold State.runPost; (repeat' (first | with_reducible rfl | split)) <;> (simp only [State.setColl_sec, State.failColl_sec, State.endColl_sec, State.sendCards_sec, apply_ite State.sec, ite_self, implies_true, ih]; done))
    | (unfold State.runPost; (repeat' (first | with_reducible rfl | split)) <;> (try simp only [State.setColl_sec, State.failColl_sec, State.endColl_sec, State.sendCards_sec, apply_ite State.sec, ite_self, implies_true, ih]) <;> (repeat' (first | with_reducible rfl | split)) <;> (simp only [State.setColl_sec, State.failColl_sec, State.endColl_sec, State.sendCards_sec, apply_ite State.sec, ite_self, implies_true, ih]; done))

@[simp] theorem State.goPost_sec (s : State) (e : Env) (f : InFlight) :
    (State.goPost s e f).sec = s.sec := by
  unfold State.goPost
  simp only [State.setFlight_sec, State.readRuns_sec, State.sawPoison_sec, State.failInstr_sec, State.setColl_sec, State.sendCards_sec, State.runPost_sec, apply_ite State.sec, ite_self, implies_true]
  (repeat' (first | with_reducible rfl | split)) <;> (try with_reducible rfl) <;> simp only [State.setFlight_sec, State.readRuns_sec, State.sawPoison_sec, State.failInstr_sec, State.setColl_sec, State.sendCards_sec, State.runPost_sec, apply_ite State.sec, ite_self, implies_true]

@[simp] theorem startPost_sec (s : State) (e : Env) (f : InFlight) :
    (startPost s e f).sec = s.sec := by
  simp only [startPost, State.addFlight_sec, State.reject_sec, State.failInstr_sec, State.launchTo_sec, State.joinOrder_sec, State.goPost_sec, apply_ite State.sec, ite_self, implies_true]

/-! ### Intake -/

@[simp] theorem State.setIntk_sec (s : State) (c idx : Nat) (f : IntakeJob → IntakeJob) :
    (State.setIntk s c idx f).sec = s.sec := by
  rfl

@[simp] theorem State.dropIntk_sec (s : State) (c idx : Nat) :
    (State.dropIntk s c idx).sec = s.sec := by
  rfl

@[simp] theorem State.setIntkPipe_sec (s : State) (p : Nat) (f : Pipe → Pipe) :
    (State.setIntkPipe s p f).sec = s.sec := by
  rfl

@[simp] theorem startIntk_sec (s : State) (e : Env) (f : InFlight) :
    (startIntk s e f).sec = s.sec := by
  simp only [startIntk, State.readRuns_sec, State.addFlight_sec, State.failInstr_sec, apply_ite State.sec, ite_self, implies_true]

@[simp] theorem State.intkEnd_sec (s : State) (c idx : Nat) :
    (State.intkEnd s c idx).sec = s.sec := by
  unfold State.intkEnd
  (repeat' (first | with_reducible rfl | split)) <;> simp only [State.writeGlobal_sec, State.setFlight_sec, State.dropIntk_sec, foldl_sec, apply_ite State.sec, ite_self, implies_true]

@[simp] theorem State.countSlot_sec (s : State) (e : Env) (j : IntakeJob) (slot : Nat) (x : Sample) :
    (State.countSlot s e j slot x).sec = s.sec := by
  simp only [State.countSlot, State.bump_sec, apply_ite State.sec, ite_self, implies_true]

@[simp] theorem State.slotDone_sec (s : State) (pipe c idx slot code : Nat) :
    (State.slotDone s pipe c idx slot code).sec = s.sec := by
  unfold State.slotDone
  (repeat' (first | with_reducible rfl | split)) <;> simp only [State.bump_sec, State.dropReqs_sec, State.writeGlobal_sec, State.readRuns_sec, State.sawPoison_sec, State.setIntk_sec, State.setIntkPipe_sec, State.intkEnd_sec, State.countSlot_sec, foldl_sec, apply_ite State.sec, ite_self, implies_true]

@[simp] theorem State.dictLost_sec (s : State) (j : IntakeJob) :
    (State.dictLost s j).sec = s.sec := by
  simp only [State.dictLost, State.sawPoison_sec, State.failInstr_sec, State.dropIntk_sec, apply_ite State.sec, ite_self, implies_true]

@[simp] theorem State.slotJudged_sec (s : State) (pipe : Nat) (j : IntakeJob) (slot code : Nat) :
    (State.slotJudged s pipe j slot code).sec = s.sec := by
  simp only [State.slotJudged, State.slotDone_sec, State.dictLost_sec, apply_ite State.sec, ite_self, implies_true]

@[simp] theorem State.takeSample_sec (s : State) (pipe : Nat) :
    (State.takeSample s pipe).sec = s.sec := by
  unfold State.takeSample
  (repeat' (first | with_reducible rfl | split)) <;> simp only [State.bump_sec, State.request_sec, State.readRuns_sec, State.setIntk_sec, State.setIntkPipe_sec, State.slotDone_sec, State.slotJudged_sec, apply_ite State.sec, ite_self, implies_true]

@[simp] theorem State.sampleLost_sec (s : State) (c idx slot : Nat) :
    (State.sampleLost s c idx slot).sec = s.sec := by
  unfold State.sampleLost
  (repeat' (first | with_reducible rfl | split)) <;> simp only [State.slotDone_sec, apply_ite State.sec, ite_self, implies_true]

@[simp] theorem State.restartSample_sec (s : State) (pipe : Nat) :
    (State.restartSample s pipe).sec = s.sec := by
  unfold State.restartSample
  (repeat' (first | with_reducible rfl | split)) <;> simp only [State.bump_sec, State.dropReqs_sec, State.setIntk_sec, State.setIntkPipe_sec, apply_ite State.sec, ite_self, implies_true]

@[simp] theorem State.intkStarved_sec (s : State) :
    (State.intkStarved s).sec = s.sec := by
  simp only [State.intkStarved, State.failInstr_sec, State.dropIntk_sec, foldl_sec, apply_ite State.sec, ite_self, implies_true]

/-! ### Codec -/

@[simp] theorem State.setStream_sec (s : State) (i : Nat) (f : Codec → Codec) :
    (State.setStream s i f).sec = s.sec := by
  rfl

@[simp] theorem State.setCdc_sec (s : State) (c idx : Nat) (f : CodecJob → CodecJob) :
    (State.setCdc s c idx f).sec = s.sec := by
  rfl

@[simp] theorem State.dropCdc_sec (s : State) (c idx : Nat) :
    (State.dropCdc s c idx).sec = s.sec := by
  rfl

@[simp] theorem State.setCdcPipe_sec (s : State) (p : Nat) (f : Pipe → Pipe) :
    (State.setCdcPipe s p f).sec = s.sec := by
  rfl

@[simp] theorem State.idleCdc_sec (s : State) (c idx : Nat) :
    (State.idleCdc s c idx).sec = s.sec := by
  rfl

@[simp] theorem State.failCdc_sec (s : State) (j : CodecJob) (code : Nat) :
    (State.failCdc s j code).sec = s.sec := by
  simp only [State.failCdc, State.failInstr_sec, State.setStream_sec, State.dropCdc_sec, State.idleCdc_sec, apply_ite State.sec, ite_self, implies_true]

@[simp] theorem State.endCdc_sec (s : State) (c idx : Nat) (closed : Bool) :
    (State.endCdc s c idx closed).sec = s.sec := by
  unfold State.endCdc
  (repeat' (first | with_reducible rfl | split)) <;> simp only [State.writeGlobal_sec, State.setFlight_sec, State.dropCdc_sec, State.idleCdc_sec, apply_ite State.sec, ite_self, implies_true]

@[simp] theorem State.putCoded_sec (s : State) (e : Env) (j : CodecJob) (part : Nat) (l : List Bytes) :
    (State.putCoded s e j part l).sec = s.sec := by
  simp only [State.putCoded, State.bump_sec, State.writeGlobal_sec, State.setCdc_sec, foldl_sec, apply_ite State.sec, ite_self, implies_true]

@[simp] theorem State.encodeNext_sec (s : State) (x : Codec) (j : CodecJob) (e : Env) (part : Nat) :
    (State.encodeNext s x j e part).sec = s.sec := by
  simp only [State.encodeNext, State.setStream_sec, State.setCdc_sec, State.endCdc_sec, State.putCoded_sec, apply_ite State.sec, ite_self, implies_true]

@[simp] theorem State.outputFrame_sec (s : State) (x : Codec) (j : CodecJob) (e : Env) (part : Nat) (g : Frame) :
    (State.outputFrame s x j e part g).sec = s.sec := by
  simp only [State.outputFrame, State.bump_sec, State.writeGlobal_sec, State.setStream_sec, State.setCdc_sec, foldl_sec, apply_ite State.sec, ite_self, implies_true]

@[simp] theorem State.decodeOn_sec (s : State) (c idx : Nat) (v0 : Nat) :
    (State.decodeOn s c idx v0).sec = s.sec := by
  induction v0 generalizing s c idx  with
  | zero =>
    first
    | rfl
    | (simp only [State.decodeOn, State.bump_sec, State.setStream_sec, State.setCdc_sec, State.failCdc_sec, State.endCdc_sec, State.outputFrame_sec, apply_ite State.sec, ite_self, implies_true]; done)
  | succ n ih =>
    first
    | (simp only [State.decodeOn, State.bump_sec, State.setStream_sec, State.setCdc_sec, State.failCdc_sec, State.endCdc_sec, State.outputFrame_sec, apply_ite State.sec, ite_self, implies_true, ih]; done)
    | (unfold State.decodeOn; (repeat' (first | with_reducible rfl | split)) <;> (simp only [State.bump_sec, State.setStream_sec, State.setCdc_sec, State.failCdc_sec, State.endCdc_sec, State.outputFrame_sec, apply_ite State.sec, ite_self, implies_true, ih]; done))
    | (unfold State.decodeOn; (repeat' (first | with_reducible rfl | split)) <;> (try simp only [State.bump_sec, State.setStream_sec, State.setCdc_sec, State.failCdc_sec, State.endCdc_sec, State.outputFrame_sec, apply_ite State.sec, ite_self, implies_true, ih]) <;> (repeat' (first | with_reducible rfl | split)) <;> (simp only [State.bump_sec, State.setStream_sec, State.setCdc_sec, State.failCdc_sec, State.endCdc_sec, State.outputFrame_sec, apply_ite State.sec, ite_self, implies_true, ih]; done))

@[simp] theorem State.decodeNext_sec (s : State) (x : Codec) (j : CodecJob) (e : Env) (late : Bool) :
    (State.decodeNext s x j e late).sec = s.sec := by
  simp only [State.decodeNext, State.bump_sec, State.drew_sec, State.writeBytes_sec, State.setStream_sec, State.setCdc_sec, apply_ite State.sec, ite_self, implies_true]

@[simp] theorem State.closeEncoder_sec (s : State) (x : Codec) (j : CodecJob) (e : Env) (part : Nat) :
    (State.closeEncoder s x j e part).sec = s.sec := by
  simp only [State.closeEncoder, State.bump_sec, State.writeGlobal_sec, State.setStream_sec, State.setCdc_sec, State.endCdc_sec, State.putCoded_sec, apply_ite State.sec, ite_self, implies_true]

@[simp] theorem State.goCodec_sec (s : State) (e : Env) (f : InFlight) :
    (State.goCodec s e f).sec = s.sec := by
  unfold State.goCodec
  simp only [State.setFlight_sec, State.readRuns_sec, State.sawPoison_sec, State.setStream_sec, State.failCdc_sec, State.decodeOn_sec, State.closeEncoder_sec, apply_ite State.sec, ite_self, implies_true]
  (repeat' (first | with_reducible rfl | split)) <;> (try with_reducible rfl) <;> simp only [State.setFlight_sec, State.readRuns_sec, State.sawPoison_sec, State.setStream_sec, State.failCdc_sec, State.decodeOn_sec, State.closeEncoder_sec, apply_ite State.sec, ite_self, implies_true]

@[simp] theorem startOpen_sec (s : State) (e : Env) (f : InFlight) :
    (startOpen s e f).sec = s.sec := by
  simp only [startOpen, State.readRuns_sec, State.addFlight_sec, State.failInstr_sec, apply_ite State.sec, ite_self, implies_true]

@[simp] theorem startCodec_sec (s : State) (e : Env) (f : InFlight) :
    (startCodec s e f).sec = s.sec := by
  simp only [startCodec, State.launchTo_sec, State.goCodec_sec, startOpen_sec, apply_ite State.sec, ite_self, implies_true]

@[simp] theorem State.takeFrame_sec (s : State) (pipe : Nat) :
    (State.takeFrame s pipe).sec = s.sec := by
  unfold State.takeFrame
  (repeat' (first | with_reducible rfl | split)) <;> simp only [State.bump_sec, State.sawPoison_sec, State.setStream_sec, State.setCdcPipe_sec, State.failCdc_sec, apply_ite State.sec, ite_self, implies_true]

@[simp] theorem State.encodeOn_sec (s : State) (c idx : Nat) :
    (State.encodeOn s c idx).sec = s.sec := by
  unfold State.encodeOn
  (repeat' (first | with_reducible rfl | split)) <;> simp only [State.endCdc_sec, apply_ite State.sec, ite_self, implies_true]

@[simp] theorem State.frameDone_sec (s : State) (pipe : Nat) (late : Bool) :
    (State.frameDone s pipe late).sec = s.sec := by
  unfold State.frameDone
  (repeat' (first | with_reducible rfl | split)) <;> simp only [State.bump_sec, State.setCdcPipe_sec, State.encodeNext_sec, State.decodeOn_sec, State.decodeNext_sec, State.encodeOn_sec, apply_ite State.sec, ite_self, implies_true]

@[simp] theorem State.restartFrame_sec (s : State) (pipe : Nat) :
    (State.restartFrame s pipe).sec = s.sec := by
  unfold State.restartFrame
  simp only [State.bump_sec, State.setStream_sec, State.setCdcPipe_sec, apply_ite State.sec, ite_self, implies_true]
  (repeat' (first | with_reducible rfl | split)) <;> (try with_reducible rfl) <;> simp only [State.bump_sec, State.setStream_sec, State.setCdcPipe_sec, apply_ite State.sec, ite_self, implies_true]

@[simp] theorem State.cdcStarved_sec (s : State) :
    (State.cdcStarved s).sec = s.sec := by
  simp only [State.cdcStarved, State.failCdc_sec, foldl_sec, apply_ite State.sec, ite_self, implies_true]

/-! ### Instructions -/

@[simp] theorem State.goOn_sec (s : State) (o : Op) (e : Env) (f : InFlight) :
    (State.goOn s o e f).sec = s.sec := by
  simp only [State.goOn, State.finishRun_sec, State.goColl_sec, State.goPost_sec, State.goCodec_sec, apply_ite State.sec, ite_self, implies_true]

@[simp] theorem State.askHistory_sec (s : State) (c idx : Nat) :
    (State.askHistory s c idx).sec = s.sec := by
  unfold State.askHistory
  (repeat' (first | with_reducible rfl | split)) <;> simp only [State.request_sec, foldl_sec, apply_ite State.sec, ite_self, implies_true]

@[simp] theorem State.resumeRun_sec (s : State) (c idx : Nat) :
    (State.resumeRun s c idx).sec = s.sec := by
  unfold State.resumeRun
  (repeat' (first | with_reducible rfl | split)) <;> simp only [State.bring_sec, State.goOn_sec, apply_ite State.sec, ite_self, implies_true]

@[simp] theorem State.decideBlock_sec (s : State) (f : InFlight) (block path : Nat) :
    (State.decideBlock s f block path).sec = s.sec := by
  simp only [State.decideBlock, State.post_sec, State.setFlight_sec, State.failInstr_sec, State.countPath_sec, State.resumeRun_sec, apply_ite State.sec, ite_self, implies_true]

@[simp] theorem State.holdBlock_sec (s : State) (f : InFlight) (runs : List (Nat × Nat)) (data : Bytes) :
    (s.holdBlock f runs data).sec = s.sec := by
  induction runs generalizing s data with
  | nil => rfl
  | cons r l ih =>
    unfold State.holdBlock
    simp only [ih]

@[simp] theorem State.historyArrival_sec (s : State) (c idx block : Nat) (ok reply : Bool) (data : Bytes) :
    (State.historyArrival s c idx block ok reply data).sec = s.sec := by
  unfold State.historyArrival
  (repeat' (first | with_reducible rfl | split)) <;> simp only [State.bump_sec, State.dropReqs_sec, State.reply_sec, State.decideBlock_sec, State.holdBlock_sec, apply_ite State.sec, ite_self, implies_true]

@[simp] theorem State.historyLate_sec (s : State) (c idx block : Nat) :
    (State.historyLate s c idx block).sec = s.sec := by
  unfold State.historyLate
  (repeat' (first | with_reducible rfl | split)) <;> simp only [State.decideBlock_sec, apply_ite State.sec, ite_self, implies_true]

@[simp] theorem State.failDry_sec (s : State) :
    (State.failDry s).sec = s.sec := by
  simp only [State.failDry, State.failInstr_sec, foldl_sec, apply_ite State.sec, ite_self, implies_true]

@[simp] theorem State.reseedCell_sec (s : State) (cell : Nat) :
    (State.reseedCell s cell).sec = s.sec := by
  simp only [State.reseedCell, State.bump_sec, State.setCell_sec, State.failDry_sec, apply_ite State.sec, ite_self, implies_true]

/-! ### Memory -/

@[simp] theorem State.allocRoom_sec (s : State) (size : Nat) :
    (State.allocRoom s size).sec = s.sec := by
  simp only [State.allocRoom, State.makeRoom_sec, apply_ite State.sec, ite_self, implies_true]

@[simp] theorem State.allocHere_sec (s : State) (p size client : Nat) :
    (State.allocHere s p size client).1.sec = s.sec := by
  unfold State.allocHere
  simp only [State.clearRun_sec, State.allocRoom_sec, apply_ite State.sec, ite_self, implies_true]
  (repeat' (first | with_reducible rfl | split)) <;> (try with_reducible rfl) <;> simp only [State.clearRun_sec, State.allocRoom_sec, apply_ite State.sec, ite_self, implies_true]

@[simp] theorem State.askPeer_sec (s : State) (sess seq : Nat) (record : Bytes) (answered : Bool) (k : Nat) (v0 : Nat) :
    (State.askPeer s sess seq record answered k v0).sec = s.sec := by
  induction v0 generalizing s sess seq record answered k  with
  | zero =>
    first
    | rfl
    | (simp only [State.askPeer, State.request_sec, State.reply_sec, apply_ite State.sec, ite_self, implies_true]; done)
  | succ n ih =>
    first
    | (simp only [State.askPeer, State.request_sec, State.reply_sec, apply_ite State.sec, ite_self, implies_true, ih]; done)
    | (unfold State.askPeer; (repeat' (first | with_reducible rfl | split)) <;> (simp only [State.request_sec, State.reply_sec, apply_ite State.sec, ite_self, implies_true, ih]; done))
    | (unfold State.askPeer; (repeat' (first | with_reducible rfl | split)) <;> (try simp only [State.request_sec, State.reply_sec, apply_ite State.sec, ite_self, implies_true, ih]) <;> (repeat' (first | with_reducible rfl | split)) <;> (simp only [State.request_sec, State.reply_sec, apply_ite State.sec, ite_self, implies_true, ih]; done))

@[simp] theorem State.allocate_sec (s : State) (sess seq : Nat) (r : Bytes) :
    (State.allocate s sess seq r).sec = s.sec := by
  simp only [State.allocate, State.reply_sec, State.allocHere_sec, State.askPeer_sec, apply_ite State.sec, ite_self, implies_true]

@[simp] theorem State.granted_sec (s : State) (q : Req) (base : Nat) :
    (State.granted s q base).sec = s.sec := by
  simp only [State.granted, State.reply_sec, apply_ite State.sec, ite_self, implies_true]

@[simp] theorem State.dropObj_sec (s : State) (o : Obj) :
    (State.dropObj s o).sec = s.sec := by
  rfl

@[simp] theorem State.freeObj_sec (s : State) (sess seq g : Nat) :
    (State.freeObj s sess seq g).sec = s.sec := by
  unfold State.freeObj
  (repeat' (first | with_reducible rfl | split)) <;> simp only [State.request_sec, State.reply_sec, State.dropObj_sec, apply_ite State.sec, ite_self, implies_true]

@[simp] theorem State.refuseRequest_sec (s : State) (part src code : Nat) :
    (State.refuseRequest s part src code).sec = s.sec := by
  simp only [State.refuseRequest, State.bump_sec, State.refuse_sec, apply_ite State.sec, ite_self, implies_true]

@[simp] theorem State.startSession_sec (s : State) (n : Nat) (viaReset : Bool) :
    (State.startSession s n viaReset).sec = s.sec := by
  simp only [State.startSession, State.setChan_sec, State.retireWcb_sec, State.post_sec, foldl_sec, apply_ite State.sec, ite_self, implies_true]

@[simp] theorem State.dueSession_sec (s : State) (n : Nat) (viaReset : Bool) :
    (State.dueSession s n viaReset).sec = s.sec := by
  simp only [State.dueSession, State.setChan_sec, State.startSession_sec, apply_ite State.sec, ite_self, implies_true]

@[simp] theorem State.drainDetour_sec (s : State) (n : Nat) :
    (State.drainDetour s n).sec = s.sec := by
  simp only [State.drainDetour, State.setChan_sec, State.poisonUnits_sec, foldl_sec, apply_ite State.sec, ite_self, implies_true]

@[simp] theorem State.closeSession_sec (s : State) (n : Nat) :
    (State.closeSession s n).sec = s.sec := by
  simp only [State.closeSession, State.setCount_sec, State.drew_sec, State.post_sec, State.drainDetour_sec, apply_ite State.sec, ite_self, implies_true]

@[simp] theorem State.endSession_sec (s : State) (n : Nat) :
    (State.endSession s n).sec = s.sec := by
  unfold State.endSession
  simp only [State.startSession_sec, State.closeSession_sec, apply_ite State.sec, ite_self, implies_true]
  (repeat' (first | with_reducible rfl | split)) <;> (try with_reducible rfl) <;> simp only [State.startSession_sec, State.closeSession_sec, apply_ite State.sec, ite_self, implies_true]

@[simp] theorem State.trained_sec (s : State) (n : Nat) :
    (State.trained s n).sec = s.sec := by
  simp only [State.trained, State.bump_sec, State.drew_sec, State.setChan_sec, State.journal_sec, apply_ite State.sec, ite_self, implies_true]

@[simp] theorem applyRetrain_sec (value : Nat) (s : State) :
    (applyRetrain value s).1.sec = s.sec := by
  unfold applyRetrain
  (repeat' (first | with_reducible rfl | split)) <;> simp only [State.dueSession_sec, apply_ite State.sec, ite_self, implies_true]

@[simp] theorem State.wroteBack_sec (s : State) (q : Req) :
    (State.wroteBack s q).sec = s.sec := by
  simp only [State.wroteBack, State.bump_sec, apply_ite State.sec, ite_self, implies_true]

@[simp] theorem State.acked_sec (s : State) (q : Req) :
    (State.acked s q).sec = s.sec := by
  unfold State.acked
  (repeat' (first | with_reducible rfl | split)) <;> simp only [State.dropReqs_sec, State.writeBack_sec, State.setFlight_sec, State.reply_sec, State.freeCtx_sec, State.wroteBack_sec, apply_ite State.sec, ite_self, implies_true]

@[simp] theorem State.failReq_sec (s : State) (q : Req) (code : Nat) :
    (State.failReq s q code).sec = s.sec := by
  unfold State.failReq
  simp only [State.bump_sec, State.dropReqs_sec, State.chargeWrite_sec, State.lostBack_sec, State.lostFetch_sec, State.writeBack_sec, State.setFlight_sec, State.reply_sec, State.progress_sec, State.freeCtx_sec, State.failDelivery_sec, State.failInstr_sec, State.sampleLost_sec, State.historyArrival_sec, State.askPeer_sec, apply_ite State.sec, ite_self, implies_true]
  (repeat' (first | with_reducible rfl | split)) <;> (try with_reducible rfl) <;> simp only [State.bump_sec, State.dropReqs_sec, State.chargeWrite_sec, State.lostBack_sec, State.lostFetch_sec, State.writeBack_sec, State.setFlight_sec, State.reply_sec, State.progress_sec, State.freeCtx_sec, State.failDelivery_sec, State.failInstr_sec, State.sampleLost_sec, State.historyArrival_sec, State.askPeer_sec, apply_ite State.sec, ite_self, implies_true]

@[simp] theorem State.fillCopy_sec (s : State) (q : Req) (poisoned : List Nat) (data : Bytes) :
    (State.fillCopy s q poisoned data).sec = s.sec := by
  simp only [State.fillCopy, State.bump_sec, State.dropReqs_sec, State.writeBack_sec, foldl_sec, apply_ite State.sec, ite_self, implies_true]

@[simp] theorem State.answered_sec (s : State) (q : Req) (poisoned : List Nat) (data : Bytes) :
    (State.answered s q poisoned data).sec = s.sec := by
  unfold State.answered
  simp only [State.dropReqs_sec, State.deliver_sec, State.resumeRun_sec, State.askPeer_sec, State.granted_sec, State.acked_sec, State.fillCopy_sec, apply_ite State.sec, ite_self, implies_true]
  (repeat' (first | with_reducible rfl | split)) <;> (try with_reducible rfl) <;> simp only [State.dropReqs_sec, State.deliver_sec, State.resumeRun_sec, State.askPeer_sec, State.granted_sec, State.acked_sec, State.fillCopy_sec, apply_ite State.sec, ite_self, implies_true]

/-! ### Session -/

@[simp] theorem State.replyRaw_sec (s : State) (d : Dgram) (session seq status : Nat) :
    (State.replyRaw s d session seq status).sec = s.sec := by
  simp only [State.replyRaw, State.bump_sec, State.putDgram_sec, apply_ite State.sec, ite_self, implies_true]

@[simp] theorem State.resend_sec (s : State) (id : Nat) :
    (State.resend s id).sec = s.sec := by
  unfold State.resend
  (repeat' (first | with_reducible rfl | split)) <;> simp only [State.bump_sec, State.setSession_sec, State.emit_sec, foldl_sec, apply_ite State.sec, ite_self, implies_true]

@[simp] theorem State.drainQueue_sec (s : State) (id : Nat) (v0 : Nat) :
    (State.drainQueue s id v0).sec = s.sec := by
  induction v0 generalizing s id  with
  | zero =>
    first
    | rfl
    | (simp only [State.drainQueue, State.setSession_sec, State.emit_sec, apply_ite State.sec, ite_self, implies_true]; done)
  | succ n ih =>
    first
    | (simp only [State.drainQueue, State.setSession_sec, State.emit_sec, apply_ite State.sec, ite_self, implies_true, ih]; done)
    | (unfold State.drainQueue; (repeat' (first | with_reducible rfl | split)) <;> (simp only [State.setSession_sec, State.emit_sec, apply_ite State.sec, ite_self, implies_true, ih]; done))
    | (unfold State.drainQueue; (repeat' (first | with_reducible rfl | split)) <;> (try simp only [State.setSession_sec, State.emit_sec, apply_ite State.sec, ite_self, implies_true, ih]) <;> (repeat' (first | with_reducible rfl | split)) <;> (simp only [State.setSession_sec, State.emit_sec, apply_ite State.sec, ite_self, implies_true, ih]; done))

@[simp] theorem State.deliveredBy_sec (s : State) (id ack : Nat) :
    (State.deliveredBy s id ack).sec = s.sec := by
  simp only [State.deliveredBy, State.respond_sec, State.freeCtx_sec, foldl_sec, apply_ite State.sec, ite_self, implies_true]

@[simp] theorem State.takeAck_sec (s : State) (x : Session) (m : Msg) :
    (State.takeAck s x m).sec = s.sec := by
  simp only [State.takeAck, State.setSession_sec, State.resend_sec, State.drainQueue_sec, State.deliveredBy_sec, apply_ite State.sec, ite_self, implies_true]

@[simp] theorem State.sendAck_sec (s : State) (id : Nat) :
    (State.sendAck s id).sec = s.sec := by
  simp only [State.sendAck, State.sendLoose_sec, apply_ite State.sec, ite_self, implies_true]

@[simp] theorem State.owe_sec (s : State) (id : Nat) :
    (State.owe s id).sec = s.sec := by
  unfold State.owe
  simp only [State.setSession_sec, State.sendAck_sec, apply_ite State.sec, ite_self, implies_true]
  (repeat' (first | with_reducible rfl | split)) <;> (try with_reducible rfl) <;> simp only [State.setSession_sec, State.sendAck_sec, apply_ite State.sec, ite_self, implies_true]

@[simp] theorem State.accept_sec (s : State) (d : Dgram) (x : Session) (m : Msg) :
    (State.accept s d x m).sec = s.sec := by
  unfold State.accept
  simp only [State.bump_sec, State.setSession_sec, State.takeAck_sec, apply_ite State.sec, ite_self, implies_true]
  (repeat' (first | with_reducible rfl | split)) <;> (try with_reducible rfl) <;> simp only [State.bump_sec, State.setSession_sec, State.takeAck_sec, apply_ite State.sec, ite_self, implies_true]

@[simp] theorem State.courier_sec (s : State) (d : Dgram) (type : Nat) (mine : Bytes → Bool) (handle : State → Session → Nat → Bytes → State)
    (h : ∀ s x n b, (handle s x n b).sec = s.sec) :
    (s.courier d type mine handle).sec = s.sec := by
  unfold State.courier
  (repeat' (first | with_reducible rfl | split)) <;>
    (try simp only [State.bump_sec, State.replyRaw_sec, State.setSession_sec, State.owe_sec, State.reply_sec, State.sendAck_sec]) <;>
    (repeat' split) <;>
    simp only [h, State.bump_sec, State.replyRaw_sec, State.setSession_sec, State.owe_sec, State.reply_sec, State.sendAck_sec, State.accept_sec]

/-! ### Saving -/

@[simp] theorem State.stopTasks_sec (s : State) (x : Ctx) :
    (State.stopTasks s x).sec = s.sec := by
  simp only [State.stopTasks, foldl_sec, apply_ite State.sec, ite_self, implies_true]

/-! ### Office -/

@[simp] theorem State.refuseJob_sec (s : State) (sess seq code : Nat) :
    (State.refuseJob s sess seq code).sec = s.sec := by
  simp only [State.refuseJob, State.bump_sec, State.reply_sec, apply_ite State.sec, ite_self, implies_true]

@[simp] theorem State.startCtx_sec (s : State) (c : Nat) :
    (State.startCtx s c).sec = s.sec := by
  unfold State.startCtx
  (repeat' (first | with_reducible rfl | split)) <;> simp only [State.goLive_sec, State.finishJob_sec, apply_ite State.sec, ite_self, implies_true]

@[simp] theorem State.acceptCtx_sec (s : State) (sess seq : Nat) (x : Ctx) :
    (State.acceptCtx s sess seq x).sec = s.sec := by
  simp only [State.acceptCtx, State.bump_sec, State.reply_sec, State.enter_sec, apply_ite State.sec, ite_self, implies_true]

@[simp] theorem State.submitJob_sec (s : State) (sess client seq : Nat) (body : Bytes) :
    (State.submitJob s sess client seq body).sec = s.sec := by
  simp only [State.submitJob, State.journal_sec, State.refuseJob_sec, State.startCtx_sec, State.acceptCtx_sec, apply_ite State.sec, ite_self, implies_true]

@[simp] theorem State.grantSlot_sec (s : State) :
    (State.grantSlot s).sec = s.sec := by
  unfold State.grantSlot
  (repeat' (first | with_reducible rfl | split)) <;> simp only [State.startCtx_sec, foldl_sec, apply_ite State.sec, ite_self, implies_true]

@[simp] theorem State.saveDone_sec (s : State) (c : Nat) :
    (State.saveDone s c).sec = s.sec := by
  unfold State.saveDone
  (repeat' (first | with_reducible rfl | split)) <;> simp only [State.bump_sec, State.drew_sec, State.writeBytes_sec, State.poisonUnits_sec, State.post_sec, State.setCtx_sec, State.enter_sec, State.dropSlot_sec, State.serveTasks_sec, State.stopTasks_sec, apply_ite State.sec, ite_self, implies_true]

@[simp] theorem State.endAll_sec (s : State) (c code : Nat) (copies : Bool) :
    (State.endAll s c code copies).sec = s.sec := by
  unfold State.endAll
  (repeat' (first | with_reducible rfl | split)) <;> simp only [State.settle_sec, State.scramble_sec, foldl_sec, apply_ite State.sec, ite_self, implies_true]

@[simp] theorem State.errorStreams_sec (s : State) (c : Nat) :
    (State.errorStreams s c).sec = s.sec := by
  rfl

@[simp] theorem State.abortCtx_sec (s : State) (c code : Nat) (own : Bool) :
    (State.abortCtx s c code own).sec = s.sec := by
  unfold State.abortCtx
  (repeat' (first | with_reducible rfl | split)) <;> simp only [State.bump_sec, State.post_sec, State.log_sec, State.raise_sec, State.dropReqs_sec, State.setCtx_sec, State.dropSave_sec, State.runTriggers_sec, State.dropWork_sec, State.endJob_sec, State.serveTasks_sec, State.endAll_sec, State.errorStreams_sec, apply_ite State.sec, ite_self, implies_true]

@[simp] theorem State.redealAll_sec (s : State) (x : Ctx) (recs : List Loaded) (f : InFlight) :
    (State.redealAll s x recs f).sec = s.sec := by
  unfold State.redealAll
  (repeat' (first | with_reducible rfl | split)) <;> simp only [State.setGrid_sec, State.deal_sec, apply_ite State.sec, ite_self, implies_true]

@[simp] theorem State.takeArea_sec (s : State) (c : Nat) (area : Bytes) :
    (State.takeArea s c area).sec = s.sec := by
  simp only [State.takeArea, apply_ite State.sec, ite_self, implies_true]

@[simp] theorem State.restoreCtx_sec (s : State) (c : Nat) :
    (State.restoreCtx s c).sec = s.sec := by
  unfold State.restoreCtx
  (repeat' (first | with_reducible rfl | split)) <;> simp only [State.bump_sec, State.post_sec, State.setCtx_sec, State.setQueue_sec, State.setJob_sec, State.setFlight_sec, State.readRuns_sec, State.enter_sec, State.dropSlot_sec, State.dropSave_sec, State.runTriggers_sec, State.finishJob_sec, State.serveTasks_sec, State.sawPoison_sec, State.askHistory_sec, State.resumeRun_sec, State.failDry_sec, State.abortCtx_sec, State.redealAll_sec, State.takeArea_sec, foldl_sec, apply_ite State.sec, ite_self, implies_true]

@[simp] theorem State.suspendReq_sec (s : State) (c : Nat) :
    (State.suspendReq s c).1.sec = s.sec := by
  unfold State.suspendReq
  (repeat' (first | with_reducible rfl | split)) <;> simp only [State.setCtx_sec, State.suspendStart_sec, apply_ite State.sec, ite_self, implies_true]

@[simp] theorem State.resumeReq_sec (s : State) (c : Nat) :
    (State.resumeReq s c).1.sec = s.sec := by
  unfold State.resumeReq
  (repeat' (first | with_reducible rfl | split)) <;> simp only [State.setCtx_sec, apply_ite State.sec, ite_self, implies_true]

@[simp] theorem State.suspendPart_sec (s : State) (p : Nat) :
    (State.suspendPart s p).1.sec = s.sec := by
  unfold State.suspendPart
  simp only [State.suspendStart_sec, State.suspendReq_sec, foldl_sec, apply_ite State.sec, ite_self, implies_true]
  (repeat' (first | with_reducible rfl | split)) <;> (try with_reducible rfl) <;> simp only [State.suspendStart_sec, State.suspendReq_sec, foldl_sec, apply_ite State.sec, ite_self, implies_true]

@[simp] theorem State.importCtx_sec (s : State) (sess client seq : Nat) (body : Bytes) :
    (State.importCtx s sess client seq body).sec = s.sec := by
  simp only [State.importCtx, State.bump_sec, State.writeBytes_sec, State.readRuns_sec, State.refuseJob_sec, State.acceptCtx_sec, apply_ite State.sec, ite_self, implies_true]

@[simp] theorem applyQuota_sec (s : State) :
    (applyQuota s).1.sec = s.sec := by
  unfold applyQuota
  simp only [State.journal_sec, State.keep_sec, apply_ite State.sec, ite_self, implies_true]
  (repeat' (first | with_reducible rfl | split)) <;> (try with_reducible rfl) <;> simp only [State.journal_sec, State.keep_sec, apply_ite State.sec, ite_self, implies_true]

/-! ### Courier -/

@[simp] theorem State.openFor_sec (s : State) (d : Dgram) (m : Msg) :
    (State.openFor s d m).sec = s.sec := by
  unfold State.openFor
  simp only [State.bump_sec, State.replyRaw_sec, apply_ite State.sec, ite_self, implies_true]
  (repeat' (first | with_reducible rfl | split)) <;> (try with_reducible rfl) <;> simp only [State.bump_sec, State.replyRaw_sec, apply_ite State.sec, ite_self, implies_true]

@[simp] theorem State.sendData_sec (s : State) (sess seq : Nat) (v0 : Nat) (v1 : List Bytes) :
    (State.sendData s sess seq v0 v1).sec = s.sec := by
  induction v1 generalizing s sess seq v0 with
  | nil =>
    first
    | rfl
    | (simp only [State.sendData, State.sendMsg_sec, apply_ite State.sec, ite_self, implies_true]; done)
  | cons b l ih =>
    first
    | (simp only [State.sendData, State.sendMsg_sec, apply_ite State.sec, ite_self, implies_true, ih]; done)
    | (unfold State.sendData; (repeat' (first | with_reducible rfl | split)) <;> (simp only [State.sendMsg_sec, apply_ite State.sec, ite_self, implies_true, ih]; done))
    | (unfold State.sendData; (repeat' (first | with_reducible rfl | split)) <;> (try simp only [State.sendMsg_sec, apply_ite State.sec, ite_self, implies_true, ih]) <;> (repeat' (first | with_reducible rfl | split)) <;> (simp only [State.sendMsg_sec, apply_ite State.sec, ite_self, implies_true, ih]; done))

@[simp] theorem State.readFor_sec (s : State) (sess seq a n : Nat) :
    (State.readFor s sess seq a n).sec = s.sec := by
  simp only [State.readFor, State.readRuns_sec, State.reply_sec, State.sawPoison_sec, State.sendData_sec, apply_ite State.sec, ite_self, implies_true]

@[simp] theorem State.control_sec (s : State) (d : Dgram) (k : Nat) (f : State → Ctx → Nat → Controlled)
    (h : ∀ s x n, (f s x n).1.sec = s.sec) :
    (s.control d k f).sec = s.sec := by
  unfold State.control
  apply State.courier_sec
  intro s x n b
  (repeat' (first | with_reducible rfl | split)) <;> simp only [State.reply_sec, h]

@[simp] theorem controlled_sec (r : Applied) :
    (controlled r).1.sec = r.1.sec := by
  rfl

@[simp] theorem State.exportReq_sec (s : State) (c : Ctx) :
    (State.exportReq s c).1.sec = s.sec := by
  unfold State.exportReq
  (repeat' (first | with_reducible rfl | split)) <;> simp only [State.setCtx_sec, State.dropSlot_sec, apply_ite State.sec, ite_self, implies_true]

@[simp] theorem State.rebind_sec (s : State) (sess : Nat) (c : Ctx) (v : Nat) :
    (State.rebind s sess c v).sec = s.sec := by
  unfold State.rebind
  simp only [State.setJob_sec, State.deliver_sec, apply_ite State.sec, ite_self, implies_true]
  (repeat' (first | with_reducible rfl | split)) <;> (try with_reducible rfl) <;> simp only [State.setJob_sec, State.deliver_sec, apply_ite State.sec, ite_self, implies_true]

@[simp] theorem State.putRaw_sec (s : State) (port dest : Nat) (b : Bytes) :
    (State.putRaw s port dest b).sec = s.sec := by
  rfl

/-! ### Fabric -/

@[simp] theorem State.wire_sec (s : State) (port : Nat) (f : Flit) :
    (State.wire s port f).sec = s.sec := by
  rfl

@[simp] theorem State.sendFlit_sec (s : State) (port : Nat) (f : Flit) :
    (State.sendFlit s port f).sec = s.sec := by
  simp only [State.sendFlit, State.setPort_sec, State.wire_sec, apply_ite State.sec, ite_self, implies_true]

@[simp] theorem State.transmit_sec (s : State) (port : Nat) :
    (State.transmit s port).sec = s.sec := by
  unfold State.transmit
  simp only [State.bump_sec, State.setPort_sec, State.freePlace_sec, State.sendFlit_sec, apply_ite State.sec, ite_self, implies_true]
  (repeat' (first | with_reducible rfl | split)) <;> (try with_reducible rfl) <;> simp only [State.bump_sec, State.setPort_sec, State.freePlace_sec, State.sendFlit_sec, apply_ite State.sec, ite_self, implies_true]

@[simp] theorem State.takeAckSeq_sec (s : State) (port a : Nat) :
    (State.takeAckSeq s port a).sec = s.sec := by
  simp only [State.takeAckSeq, State.setPort_sec, apply_ite State.sec, ite_self, implies_true]

@[simp] theorem State.portFall_sec (s : State) (port : Nat) :
    (State.portFall s port).sec = s.sec := by
  simp only [State.portFall, State.bump_sec, State.watch_sec, State.setPort_sec, apply_ite State.sec, ite_self, implies_true]

@[simp] theorem State.replayPort_sec (s : State) (port : Nat) :
    (State.replayPort s port).sec = s.sec := by
  simp only [State.replayPort, State.bump_sec, State.setPort_sec, State.sendFlit_sec, State.portFall_sec, foldl_sec, apply_ite State.sec, ite_self, implies_true]

@[simp] theorem State.oweNak_sec (s : State) (port : Nat) :
    (State.oweNak s port).sec = s.sec := by
  simp only [State.oweNak, State.setPort_sec, apply_ite State.sec, ite_self, implies_true]

@[simp] theorem State.oweCredit_sec (s : State) (port : Nat) (f : Flit) :
    (State.oweCredit s port f).sec = s.sec := by
  simp only [State.oweCredit, State.setPort_sec, apply_ite State.sec, ite_self, implies_true]

@[simp] theorem State.takeFlit_sec (s : State) (port : Nat) (f : Flit) :
    (State.takeFlit s port f).sec = s.sec := by
  simp only [State.takeFlit, State.bump_sec, State.setPort_sec, State.refuse_sec, State.oweCredit_sec, apply_ite State.sec, ite_self, implies_true]

@[simp] theorem State.acceptFlit_sec (s : State) (port : Nat) (f : Flit) :
    (State.acceptFlit s port f).sec = s.sec := by
  simp only [State.acceptFlit, State.setPort_sec, State.routeFlit_sec, State.takeFlit_sec, apply_ite State.sec, ite_self, implies_true]

@[simp] theorem State.gotControl_sec (s : State) (port : Nat) (payload : Bytes) :
    (State.gotControl s port payload).sec = s.sec := by
  simp only [State.gotControl, State.watch_sec, State.setPort_sec, State.portFall_sec, apply_ite State.sec, ite_self, implies_true]

@[simp] theorem State.gotFlit_sec (s : State) (port : Nat) (f : Flit) :
    (State.gotFlit s port f).sec = s.sec := by
  simp only [State.gotFlit, State.setPort_sec, State.takeAckSeq_sec, State.replayPort_sec, State.oweNak_sec, State.acceptFlit_sec, State.gotControl_sec, apply_ite State.sec, ite_self, implies_true]

@[simp] theorem State.checkPort_sec (s : State) (port : Nat) :
    (State.checkPort s port).sec = s.sec := by
  simp only [State.checkPort, State.bump_sec, State.watch_sec, State.setPort_sec, State.rerouteHeld_sec, State.sendFlit_sec, foldl_sec, apply_ite State.sec, ite_self, implies_true]

@[simp] theorem State.recheckPorts_sec (s : State) :
    (State.recheckPorts s).sec = s.sec := by
  simp only [State.recheckPorts, State.checkPort_sec, foldl_sec, apply_ite State.sec, ite_self, implies_true]

@[simp] theorem State.fenceLane_sec (s : State) (port lane : Nat) :
    (State.fenceLane s port lane).sec = s.sec := by
  simp only [State.fenceLane, State.putFence_sec, apply_ite State.sec, ite_self, implies_true]

@[simp] theorem State.removeLane_sec (s : State) (port lane : Nat) :
    (State.removeLane s port lane).sec = s.sec := by
  simp only [State.removeLane, State.bump_sec, State.post_sec, State.setPort_sec, State.fenceLane_sec, apply_ite State.sec, ite_self, implies_true]

@[simp] theorem State.reWidth_sec (s : State) (port mask : Nat) :
    (State.reWidth s port mask).sec = s.sec := by
  simp only [State.reWidth, State.bump_sec, State.watch_sec, State.setPort_sec, State.sendFlit_sec, State.portFall_sec, foldl_sec, apply_ite State.sec, ite_self, implies_true]

@[simp] theorem State.startLane_sec (s : State) (port lane : Nat) :
    (State.startLane s port lane).sec = s.sec := by
  simp only [State.startLane, State.watch_sec, State.setPort_sec, apply_ite State.sec, ite_self, implies_true]

@[simp] theorem State.dueLane_sec (s : State) (port lane : Nat) :
    (State.dueLane s port lane).sec = s.sec := by
  simp only [State.dueLane, State.setPort_sec, State.startLane_sec, apply_ite State.sec, ite_self, implies_true]

@[simp] theorem State.nextLane_sec (s : State) :
    (State.nextLane s).sec = s.sec := by
  unfold State.nextLane
  (repeat' (first | with_reducible rfl | split)) <;> simp only [State.startLane_sec, apply_ite State.sec, ite_self, implies_true]

@[simp] theorem State.lostFlit_sec (s : State) (f : Flit) :
    (State.lostFlit s f).sec = s.sec := by
  unfold State.lostFlit
  (repeat' (first | with_reducible rfl | split)) <;> simp only [State.historyArrival_sec, State.failReq_sec, apply_ite State.sec, ite_self, implies_true]

@[simp] theorem State.discard_sec (s : State) (l : List Flit) :
    (State.discard s l).sec = s.sec := by
  simp only [State.discard, State.bump_sec, State.freePlace_sec, State.lostFlit_sec, foldl_sec, apply_ite State.sec, ite_self, implies_true]

@[simp] theorem State.lostFlits_sec (s : State) (l : List Flit) :
    (State.lostFlits s l).sec = s.sec := by
  simp only [State.lostFlits, State.lostFlit_sec, foldl_sec, apply_ite State.sec, ite_self, implies_true]

@[simp] theorem State.resetRouter_sec (s : State) :
    (State.resetRouter s).sec = s.sec := by
  simp only [State.resetRouter, State.watch_sec, State.lostFlits_sec, apply_ite State.sec, ite_self, implies_true]

@[simp] theorem State.clearLanes_sec (s : State) (port : Nat) :
    (State.clearLanes s port).sec = s.sec := by
  unfold State.clearLanes
  (try split)
  all_goals (try dsimp only)
  all_goals (first | with_reducible rfl | (refine (foldl_sec _ ?_ _ _).trans ?_))
  all_goals (try intro a b)
  all_goals (repeat' (first | with_reducible rfl | split)) <;> simp only [State.dropFence_sec, foldl_sec, apply_ite State.sec, ite_self, implies_true]

@[simp] theorem State.meetSeq_sec (s : State) (port n : Nat) :
    (State.meetSeq s port n).sec = s.sec := by
  simp only [State.meetSeq, State.setPort_sec, apply_ite State.sec, ite_self, implies_true]

@[simp] theorem State.laneLost_sec (s : State) (port lane : Nat) :
    (State.laneLost s port lane).sec = s.sec := by
  simp only [State.laneLost, State.portFall_sec, State.removeLane_sec, State.reWidth_sec, apply_ite State.sec, ite_self, implies_true]

@[simp] theorem applyLaneRetrain_sec (value : Nat) (s : State) :
    (applyLaneRetrain value s).1.sec = s.sec := by
  unfold applyLaneRetrain
  (repeat' (first | with_reducible rfl | split)) <;> simp only [State.dueLane_sec, apply_ite State.sec, ite_self, implies_true]

@[simp] theorem applyNode_sec (s : State) :
    (applyNode s).1.sec = s.sec := by
  unfold applyNode
  simp only [State.watch_sec, State.keep_sec, State.recheckPorts_sec, State.nextLane_sec, apply_ite State.sec, ite_self, implies_true]
  (repeat' (first | with_reducible rfl | split)) <;> (try with_reducible rfl) <;> simp only [State.watch_sec, State.keep_sec, State.recheckPorts_sec, State.nextLane_sec, apply_ite State.sec, ite_self, implies_true]

@[simp] theorem applyRoute_sec (s : State) :
    (applyRoute s).1.sec = s.sec := by
  unfold applyRoute
  simp only [State.dset_sec, State.rerouteHeld_sec, apply_ite State.sec, ite_self, implies_true]
  (repeat' (first | with_reducible rfl | split)) <;> (try with_reducible rfl) <;> simp only [State.dset_sec, State.rerouteHeld_sec, apply_ite State.sec, ite_self, implies_true]

@[simp] theorem applyRouteDefaults_sec (s : State) :
    (applyRouteDefaults s).1.sec = s.sec := by
  simp only [applyRouteDefaults, State.rerouteHeld_sec, apply_ite State.sec, ite_self, implies_true]

@[simp] theorem State.setEnable_sec (s : State) (value : Nat) :
    (State.setEnable s value).sec = s.sec := by
  simp only [State.setEnable, State.bump_sec, State.watch_sec, apply_ite State.sec, ite_self, implies_true]

@[simp] theorem State.portsDown_sec (s : State) :
    (State.portsDown s).sec = s.sec := by
  simp only [State.portsDown, State.bump_sec, State.watch_sec, State.discard_sec, apply_ite State.sec, ite_self, implies_true]

@[simp] theorem applyPortEnable_sec (value : Nat) (s : State) :
    (applyPortEnable value s).1.sec = s.sec := by
  unfold applyPortEnable
  (repeat' (first | with_reducible rfl | split)) <;> simp only [State.keep_sec, State.setEnable_sec, apply_ite State.sec, ite_self, implies_true]

/-! ### Collectives -/

@[simp] theorem State.relayCard_sec (s : State) (k : Card) (post : Nat) :
    (State.relayCard s k post).sec = s.sec := by
  unfold State.relayCard
  simp only [State.bump_sec, State.post_sec, State.sendCard_sec, apply_ite State.sec, ite_self, implies_true]
  (repeat' (first | with_reducible rfl | split)) <;> (try with_reducible rfl) <;> simp only [State.bump_sec, State.post_sec, State.sendCard_sec, apply_ite State.sec, ite_self, implies_true]

@[simp] theorem State.takeCard_sec (s : State) (k : Card) (post : Nat) :
    (State.takeCard s k post).sec = s.sec := by
  unfold State.takeCard
  simp only [State.bump_sec, State.post_sec, State.setColl_sec, State.failColl_sec, State.knowMark_sec, State.runPost_sec, apply_ite State.sec, ite_self, implies_true]
  (repeat' (first | with_reducible rfl | split)) <;> (try with_reducible rfl) <;> simp only [State.bump_sec, State.post_sec, State.setColl_sec, State.failColl_sec, State.knowMark_sec, State.runPost_sec, apply_ite State.sec, ite_self, implies_true]

@[simp] theorem State.ctrlDone_sec (s : State) :
    (State.ctrlDone s).sec = s.sec := by
  rfl

@[simp] theorem State.ctrlCards_sec (s : State) (x : Ctrl) (a : Nat) :
    (State.ctrlCards s x a).sec = s.sec := by
  simp only [State.ctrlCards, State.sendCard_sec, foldl_sec, apply_ite State.sec, ite_self, implies_true]

@[simp] theorem State.joinCtrl_sec (s : State) (sig : Nat) :
    (State.joinCtrl s sig).sec = s.sec := by
  unfold State.joinCtrl
  simp only [State.ctrlCards_sec, apply_ite State.sec, ite_self, implies_true]
  (repeat' (first | with_reducible rfl | split)) <;> (try with_reducible rfl) <;> simp only [State.ctrlCards_sec, apply_ite State.sec, ite_self, implies_true]

@[simp] theorem State.runCtrl_sec (s : State) (sig : Nat) (v0 : Nat) :
    (State.runCtrl s sig v0).sec = s.sec := by
  induction v0 generalizing s sig  with
  | zero =>
    first
    | rfl
    | (simp only [State.runCtrl, State.ctrlCards_sec, apply_ite State.sec, ite_self, implies_true]; done)
  | succ n ih =>
    first
    | (simp only [State.runCtrl, State.ctrlCards_sec, apply_ite State.sec, ite_self, implies_true, ih]; done)
    | (unfold State.runCtrl; (repeat' (first | with_reducible rfl | split)) <;> (simp only [State.ctrlCards_sec, apply_ite State.sec, ite_self, implies_true, ih]; done))
    | (unfold State.runCtrl; (repeat' (first | with_reducible rfl | split)) <;> (try simp only [State.ctrlCards_sec, apply_ite State.sec, ite_self, implies_true, ih]) <;> (repeat' (first | with_reducible rfl | split)) <;> (simp only [State.ctrlCards_sec, apply_ite State.sec, ite_self, implies_true, ih]; done))

@[simp] theorem State.takeCtrl_sec (s : State) (k : Card) (post : Nat) :
    (State.takeCtrl s k post).sec = s.sec := by
  simp only [State.takeCtrl, State.post_sec, State.relayCard_sec, State.joinCtrl_sec, State.runCtrl_sec, apply_ite State.sec, ite_self, implies_true]

@[simp] theorem State.ctrlOver_sec (s : State) (sig : Nat) :
    (State.ctrlOver s sig).sec = s.sec := by
  rfl

@[simp] theorem applyCtrlStart_sec (kind : Nat) (s : State) :
    (applyCtrlStart kind s).1.sec = s.sec := by
  unfold applyCtrlStart
  (repeat' (first | with_reducible rfl | split)) <;> simp only [State.dset_sec, State.joinCtrl_sec, apply_ite State.sec, ite_self, implies_true]

@[simp] theorem State.groupReset_sec (s : State) (group : Nat) :
    (State.groupReset s group).sec = s.sec := by
  simp only [State.groupReset, State.failColl_sec, foldl_sec, apply_ite State.sec, ite_self, implies_true]

/-! ### Keeping -/

@[simp] theorem State.growBad_sec (s : State) (ids : List Nat) :
    (State.growBad s ids).sec = s.sec := by
  simp only [State.growBad, State.journal_sec, State.watch_sec, foldl_sec, apply_ite State.sec, ite_self, implies_true]

@[simp] theorem State.placeImage_sec (s : State) (b : Bytes) (v0 : Nat) (v1 : Nat) :
    (State.placeImage s b v0 v1).1.sec = s.sec := by
  induction v0 generalizing s b v1 with
  | zero =>
    first
    | rfl
    | (simp only [State.placeImage, State.forceCommit_sec, State.journal_sec, State.watch_sec, State.growBad_sec, apply_ite State.sec, ite_self, implies_true]; done)
  | succ n ih =>
    first
    | (simp only [State.placeImage, State.forceCommit_sec, State.journal_sec, State.watch_sec, State.growBad_sec, apply_ite State.sec, ite_self, implies_true, ih]; done)
    | (unfold State.placeImage; (repeat' (first | with_reducible rfl | split)) <;> (simp only [State.forceCommit_sec, State.journal_sec, State.watch_sec, State.growBad_sec, apply_ite State.sec, ite_self, implies_true, ih]; done))
    | (unfold State.placeImage; (repeat' (first | with_reducible rfl | split)) <;> (try simp only [State.forceCommit_sec, State.journal_sec, State.watch_sec, State.growBad_sec, apply_ite State.sec, ite_self, implies_true, ih]) <;> (repeat' (first | with_reducible rfl | split)) <;> (simp only [State.forceCommit_sec, State.journal_sec, State.watch_sec, State.growBad_sec, apply_ite State.sec, ite_self, implies_true, ih]; done))

@[simp] theorem State.notStored_sec (s : State) :
    (State.notStored s).sec = s.sec := by
  simp only [State.notStored, State.bump_sec, State.raise_sec, apply_ite State.sec, ite_self, implies_true]

@[simp] theorem State.freeExtents_sec (s : State) (l : List Extent) :
    (State.freeExtents s l).sec = s.sec := by
  simp only [State.freeExtents, State.journal_sec, foldl_sec, apply_ite State.sec, ite_self, implies_true]

@[simp] theorem State.storeCullet_sec (s : State) (b : Bytes) :
    (State.storeCullet s b).sec = s.sec := by
  simp only [State.storeCullet, State.commitWith_sec, State.journal_sec, State.raise_sec, State.notStored_sec, State.freeExtents_sec, apply_ite State.sec, ite_self, implies_true]

@[simp] theorem State.storePosts_sec (s : State) (regions : List Nat) (n : Nat) :
    (State.storePosts s regions n).sec = s.sec := by
  simp only [State.storePosts, State.drew_sec, State.commitWith_sec, State.journal_sec, State.notStored_sec, State.freeExtents_sec, apply_ite State.sec, ite_self, implies_true]

@[simp] theorem State.pageLost_sec (s : State) (b : NBlock) :
    (State.pageLost s b).sec = s.sec := by
  unfold State.pageLost
  (repeat' (first | with_reducible rfl | split)) <;> simp only [State.bump_sec, State.log_sec, State.watch_sec, State.placeImage_sec, State.freeExtents_sec, apply_ite State.sec, ite_self, implies_true]

@[simp] theorem applyStoreAll_sec (value : Nat) (s : State) :
    (applyStoreAll value s).1.sec = s.sec := by
  unfold applyStoreAll
  (repeat' (first | with_reducible rfl | split)) <;> simp only [State.forceCommit_sec, apply_ite State.sec, ite_self, implies_true]

@[simp] theorem applyRestore_sec (value : Nat) (s : State) :
    (applyRestore value s).1.sec = s.sec := by
  unfold applyRestore
  (repeat' (first | with_reducible rfl | split)) <;> simp only [apply_ite State.sec, ite_self, implies_true]

/-! ### Recovery -/

@[simp] theorem State.redealColumn_sec (s : State) (cell fault : Nat) (g : Nat × Nat × Nat) (ts : List Task) :
    (State.redealColumn s cell fault g ts).sec = s.sec := by
  simp only [State.redealColumn, State.bump_sec, State.setFlight_sec, State.failDry_sec, apply_ite State.sec, ite_self, implies_true]

@[simp] theorem State.leaveChains_sec (s : State) (cell : Nat) :
    (State.leaveChains s cell).sec = s.sec := by
  simp only [State.leaveChains, State.bump_sec, foldl_sec, apply_ite State.sec, ite_self, implies_true]

@[simp] theorem State.redealCell_sec (s : State) (cell fault : Nat) :
    (State.redealCell s cell fault).sec = s.sec := by
  simp only [State.redealCell, State.redealColumn_sec, foldl_sec, apply_ite State.sec, ite_self, implies_true]

@[simp] theorem State.metAgain_sec (s : State) (cell fault : Nat) :
    (State.metAgain s cell fault).sec = s.sec := by
  simp only [State.metAgain, State.failInstr_sec, foldl_sec, apply_ite State.sec, ite_self, implies_true]

@[simp] theorem State.clearCell_sec (s : State) (cell : Nat) :
    (State.clearCell s cell).sec = s.sec := by
  simp only [State.clearCell, State.clearRun_sec, State.reseedCell_sec, apply_ite State.sec, ite_self, implies_true]

@[simp] theorem State.checkBarren_sec (s : State) (p : Nat) :
    (State.checkBarren s p).sec = s.sec := by
  simp only [State.checkBarren, apply_ite State.sec, ite_self, implies_true]

@[simp] theorem State.setIntakePipe_sec (s : State) (i : Nat) (f : Pipe → Pipe) :
    (State.setIntakePipe s i f).sec = s.sec := by
  rfl

@[simp] theorem State.setCodecPipe_sec (s : State) (i : Nat) (f : Pipe → Pipe) :
    (State.setCodecPipe s i f).sec = s.sec := by
  rfl

@[simp] theorem State.fenceNow_sec (s : State) (unit origin cause : Nat) :
    (State.fenceNow s unit origin cause).sec = s.sec := by
  unfold State.fenceNow
  (repeat' (first | with_reducible rfl | split)) <;> simp only [State.setCell_sec, State.watch_sec, State.putFence_sec, State.markChannel_sec, State.serveTasks_sec, State.restartSample_sec, State.intkStarved_sec, State.restartFrame_sec, State.cdcStarved_sec, State.laneLost_sec, State.leaveChains_sec, State.redealCell_sec, State.checkBarren_sec, State.setIntakePipe_sec, State.setCodecPipe_sec, apply_ite State.sec, ite_self, implies_true]

@[simp] theorem applyFence_sec (s : State) :
    (applyFence s).1.sec = s.sec := by
  unfold applyFence
  simp only [State.dset_sec, State.putFence_sec, State.fenceNow_sec, apply_ite State.sec, ite_self, implies_true]
  (repeat' (first | with_reducible rfl | split)) <;> (try with_reducible rfl) <;> simp only [State.dset_sec, State.putFence_sec, State.fenceNow_sec, apply_ite State.sec, ite_self, implies_true]

@[simp] theorem State.countReset_sec (s : State) (unit : Nat) :
    (State.countReset s unit).1.sec = s.sec := by
  unfold State.countReset
  (repeat' (first | with_reducible rfl | split)) <;> simp only [State.setCell_sec, State.setIntakePipe_sec, State.setCodecPipe_sec, apply_ite State.sec, ite_self, implies_true]

@[simp] theorem State.resetWork_sec (s : State) (unit cause : Nat) :
    (State.resetWork s unit cause).sec = s.sec := by
  unfold State.resetWork
  (repeat' (first | with_reducible rfl | split)) <;> simp only [State.serveTasks_sec, State.restartSample_sec, State.restartFrame_sec, State.dueSession_sec, State.redealCell_sec, State.metAgain_sec, State.clearCell_sec, apply_ite State.sec, ite_self, implies_true]

@[simp] theorem State.engineReset_sec (s : State) (unit cause : Nat) :
    (State.engineReset s unit cause).sec = s.sec := by
  simp only [State.engineReset, State.bump_sec, State.post_sec, State.log_sec, State.raise_sec, State.fenceNow_sec, State.countReset_sec, State.resetWork_sec, apply_ite State.sec, ite_self, implies_true]

@[simp] theorem State.resetPart_sec (s : State) (p cause : Nat) :
    (State.resetPart s p cause).sec = s.sec := by
  simp only [State.resetPart, State.bump_sec, State.post_sec, State.log_sec, State.raise_sec, apply_ite State.sec, ite_self, implies_true]

@[simp] theorem State.annealCtx_sec (s : State) (c : Nat) :
    (State.annealCtx s c).sec = s.sec := by
  simp only [State.annealCtx, State.setCtx_sec, State.dropSave_sec, State.dropWork_sec, State.endJob_sec, State.endAll_sec, State.errorStreams_sec, apply_ite State.sec, ite_self, implies_true]

@[simp] theorem State.restartPart_sec (s : State) (p : Nat) :
    (State.restartPart s p).sec = s.sec := by
  simp only [State.restartPart, State.watch_sec, State.startCtx_sec, State.checkBarren_sec, foldl_sec, apply_ite State.sec, ite_self, implies_true]

@[simp] theorem State.anneal_sec (s : State) (p : Nat) :
    (State.anneal s p).sec = s.sec := by
  simp only [State.anneal, State.setCell_sec, State.clearRun_sec, State.dropReqs_sec, State.answered_sec, State.storePosts_sec, State.clearCell_sec, State.annealCtx_sec, State.restartPart_sec, foldl_sec, apply_ite State.sec, ite_self, implies_true]

@[simp] theorem State.collect_sec (s : State) (cause : Nat) (hung : Option Nat) :
    (State.collect s cause hung).sec = s.sec := by
  simp only [State.collect, State.bump_sec, State.drew_sec, State.storeCullet_sec, State.storePosts_sec, apply_ite State.sec, ite_self, implies_true]

@[simp] theorem State.logLost_sec (s : State) (l : List Copy) :
    (State.logLost s l).sec = s.sec := by
  simp only [State.logLost, State.bump_sec, State.log_sec, State.raise_sec, foldl_sec, apply_ite State.sec, ite_self, implies_true]

@[simp] theorem State.restoreNow_sec (s : State) :
    (State.restoreNow s).sec = s.sec := by
  simp only [State.restoreNow, State.journal_sec, State.keep_sec, foldl_sec, apply_ite State.sec, ite_self, implies_true]

@[simp] theorem State.settleFences_sec (s : State) :
    (State.settleFences s).sec = s.sec := by
  simp only [State.settleFences, State.putFence_sec, State.dropFence_sec, foldl_sec, apply_ite State.sec, ite_self, implies_true]

@[simp] theorem State.flagFences_sec (s : State) :
    (State.flagFences s).sec = s.sec := by
  simp only [State.flagFences, apply_ite State.sec, ite_self, implies_true]

@[simp] theorem State.trainFailed_sec (s : State) (n : Nat) :
    (State.trainFailed s n).sec = s.sec := by
  simp only [State.trainFailed, State.bump_sec, State.setChan_sec, State.raise_sec, State.markChannel_sec, apply_ite State.sec, ite_self, implies_true]

@[simp] theorem State.layOut_sec (s : State) (failed : List Nat) :
    (State.layOut s failed).1.sec = s.sec := by
  simp only [State.layOut, apply_ite State.sec, ite_self, implies_true]

@[simp] theorem State.startPower_sec (s : State) :
    (State.startPower s).sec = s.sec := by
  simp only [State.startPower, State.keep_sec, apply_ite State.sec, ite_self, implies_true]

@[simp] theorem State.endLost_sec (s : State) (lost : Bool) :
    (State.endLost s lost).sec = s.sec := by
  simp only [State.endLost, State.dropSave_sec, State.endJob_sec, State.endAll_sec, foldl_sec, apply_ite State.sec, ite_self, implies_true]

@[simp] theorem State.serve_sec (s : State) (failed : List Nat) :
    (State.serve s failed).sec = s.sec := by
  simp only [State.serve, State.flushEmergency_sec, State.watch_sec, State.restoreNow_sec, State.settleFences_sec, State.flagFences_sec, State.trainFailed_sec, State.layOut_sec, State.startPower_sec, State.endLost_sec, foldl_sec, apply_ite State.sec, ite_self, implies_true]

@[simp] theorem State.enterBootstrap_sec (s : State) :
    (State.enterBootstrap s).sec = s.sec := by
  rfl

@[simp] theorem State.startUp_sec (s : State) (failed : List Nat) :
    (State.startUp s failed).sec = s.sec := by
  simp only [State.startUp, State.reseedCell_sec, State.serve_sec, State.enterBootstrap_sec, foldl_sec, apply_ite State.sec, ite_self, implies_true]

@[simp] theorem applyFaultClear_sec (value : Nat) (s : State) :
    (applyFaultClear value s).1.sec = s.sec := by
  rfl

@[simp] theorem State.marTasks_sec (s : State) (cell : Nat) :
    (State.marTasks s cell).sec = s.sec := by
  rfl

/-! ### Security -/

@[simp] theorem State.blowFailed_sec (s : State) :
    (State.blowFailed s).sec = s.sec := by
  simp only [State.blowFailed, State.log_sec, apply_ite State.sec, ite_self, implies_true]

@[simp] theorem applyDebugWrite_sec (data : Bytes) (s : State) :
    (applyDebugWrite data s).1.sec = s.sec := by
  unfold applyDebugWrite
  simp only [State.bump_sec, State.writeBytes_sec, apply_ite State.sec, ite_self, implies_true]
  (repeat' (first | with_reducible rfl | split)) <;> (try with_reducible rfl) <;> simp only [State.bump_sec, State.writeBytes_sec, apply_ite State.sec, ite_self, implies_true]

@[simp] theorem State.linksDown_sec (s : State) :
    (State.linksDown s).sec = s.sec := by
  simp only [State.linksDown, State.portsDown_sec, apply_ite State.sec, ite_self, implies_true]

/-! ### Board -/

@[simp] theorem State.regionOff_sec (s : State) (r : Nat) :
    (State.regionOff s r).sec = s.sec := by
  simp only [State.regionOff, State.clearRun_sec, apply_ite State.sec, ite_self, implies_true]

@[simp] theorem State.enterHold_sec (s : State) :
    (State.enterHold s).sec = s.sec := by
  simp only [State.enterHold, State.bump_sec, State.retireWcb_sec, State.sendMsg_sec, State.closeSession_sec, State.trained_sec, foldl_sec, apply_ite State.sec, ite_self, implies_true]

@[simp] theorem State.setPower_sec (s : State) (target trim : Nat) :
    (State.setPower s target trim).sec = s.sec := by
  simp only [State.setPower, State.restartPart_sec, State.regionOff_sec, State.enterHold_sec, foldl_sec, apply_ite State.sec, ite_self, implies_true]

@[simp] theorem applyPower_sec (s : State) :
    (applyPower s).1.sec = s.sec := by
  unfold applyPower
  simp only [State.keep_sec, State.setPower_sec, apply_ite State.sec, ite_self, implies_true]
  (repeat' (first | with_reducible rfl | split)) <;> (try with_reducible rfl) <;> simp only [State.keep_sec, State.setPower_sec, apply_ite State.sec, ite_self, implies_true]

@[simp] theorem State.writePower_sec (s : State) (target value : Nat) :
    (State.writePower s target value).sec = s.sec := by
  simp only [State.writePower, State.trigger_sec, applyPower_sec, apply_ite State.sec, ite_self, implies_true]

@[simp] theorem State.powerLost_sec (s : State) :
    (State.powerLost s).sec = s.sec := by
  simp only [State.powerLost, State.drew_sec, State.commitWith_sec, State.storePosts_sec, apply_ite State.sec, ite_self, implies_true]

@[simp] theorem State.routerStart_sec (s : State) :
    (State.routerStart s).sec = s.sec := by
  rfl

@[simp] theorem State.coldStart_sec (s : State) (failed : List Nat) :
    (State.coldStart s failed).sec = s.sec := by
  simp only [State.coldStart, State.log_sec, State.enterBootstrap_sec, State.startUp_sec, apply_ite State.sec, ite_self, implies_true]

@[simp] theorem State.sense_sec (s : State) (die device : Nat) :
    (State.sense s die device).sec = s.sec := by
  simp only [State.sense, State.watch_sec, apply_ite State.sec, ite_self, implies_true]

@[simp] theorem State.foeError_sec (s : State) (code status : Nat) :
    (State.foeError s code status).sec = s.sec := by
  simp only [State.foeError, State.placeSm1_sec, apply_ite State.sec, ite_self, implies_true]

@[simp] theorem State.takeImage_sec (s : State) (b : Bytes) (readBack : Nat) :
    (State.takeImage s b readBack).sec = s.sec := by
  simp only [State.takeImage, State.bump_sec, State.placeSm1_sec, State.placeImage_sec, State.serve_sec, State.foeError_sec, apply_ite State.sec, ite_self, implies_true]

@[simp] theorem applyActivate_sec (s : State) :
    (applyActivate s).1.sec = s.sec := by
  unfold applyActivate
  (repeat' (first | with_reducible rfl | split)) <;> simp only [State.commit_sec, apply_ite State.sec, ite_self, implies_true]

/-! ### Dictionary -/

@[simp] theorem State.writePdo_sec (s : State) (idx sub : Nat) (l : List Nat) :
    (State.writePdo s idx sub l).sec = s.sec := by
  simp only [State.writePdo, State.abort_sec, State.answerWrite_sec, apply_ite State.sec, ite_self, implies_true]

@[simp] theorem applyLayout_sec (s : State) :
    (applyLayout s).1.sec = s.sec := by
  unfold applyLayout
  (repeat' (first | with_reducible rfl | split)) <;> simp only [State.keep_sec, foldl_sec, apply_ite State.sec, ite_self, implies_true]

@[simp] theorem State.quietWrite_sec (s : State) (e : Entry) (b : Bytes) :
    (State.quietWrite s e b).1.sec = s.sec := by
  unfold State.quietWrite
  simp only [State.dset_sec, State.trigger_sec, State.keep_sec, applyQuota_sec, applyLaneRetrain_sec, applyRoute_sec, applyRouteDefaults_sec, applyPortEnable_sec, applyCtrlStart_sec, applyStoreAll_sec, applyRestore_sec, applyFence_sec, applyDebugWrite_sec, applyLayout_sec, apply_ite State.sec, ite_self, implies_true]
  (repeat' (first | with_reducible rfl | split)) <;> (try with_reducible rfl) <;> simp only [State.dset_sec, State.trigger_sec, State.keep_sec, applyQuota_sec, applyLaneRetrain_sec, applyRoute_sec, applyRouteDefaults_sec, applyPortEnable_sec, applyCtrlStart_sec, applyStoreAll_sec, applyRestore_sec, applyFence_sec, applyDebugWrite_sec, applyLayout_sec, apply_ite State.sec, ite_self, implies_true]

@[simp] theorem State.writeAll_sec (s : State) (l : List (Entry × Bytes)) : (s.writeAll l).1.sec = s.sec := by
  unfold State.writeAll
  suffices h : ∀ acc : State × Nat × Nat, (l.foldl (fun acc x =>
      if acc.2.1 != 0 then acc else ((acc.1.quietWrite x.1 x.2).1, (acc.1.quietWrite x.1 x.2).2, x.1.sub)) acc).1.sec = acc.1.sec from
    h (s, 0, 0)
  induction l with
  | nil => intro acc; rfl
  | cons x l ih =>
    intro acc
    rw [List.foldl_cons, ih]
    split
    · rfl
    · exact State.quietWrite_sec _ _ _

@[simp] theorem State.downloadAll_sec (s : State) (idx sub : Nat) (b : Bytes) :
    (State.downloadAll s idx sub b).sec = s.sec := by
  unfold State.downloadAll
  simp only [State.abort_sec, State.answerWrite_sec, State.writeAll_sec, apply_ite State.sec, ite_self, implies_true]
  (repeat' (first | with_reducible rfl | split)) <;> (try with_reducible rfl) <;> simp only [State.abort_sec, State.answerWrite_sec, State.writeAll_sec, apply_ite State.sec, ite_self, implies_true]

@[simp] theorem State.downloadPdo_sec (s : State) (idx sub : Nat) (complete : Bool) (width : Nat) (l : List Nat) (b : Bytes) :
    (State.downloadPdo s idx sub complete width l b).sec = s.sec := by
  simp only [State.downloadPdo, State.abort_sec, State.complete_sec, State.writePdo_sec, apply_ite State.sec, ite_self, implies_true]

@[simp] theorem State.uploadAll_sec (s : State) (idx sub : Nat) :
    (State.uploadAll s idx sub).sec = s.sec := by
  unfold State.uploadAll
  simp only [State.abort_sec, State.upload_sec, apply_ite State.sec, ite_self, implies_true]
  (repeat' (first | with_reducible rfl | split)) <;> (try with_reducible rfl) <;> simp only [State.abort_sec, State.upload_sec, apply_ite State.sec, ite_self, implies_true]

/-! ### EtherCat -/

@[simp] theorem State.escPut_sec (s : State) (a : Nat) (v : Byte) :
    (State.escPut s a v).sec = s.sec := by
  simp only [State.escPut, apply_ite State.sec, ite_self, implies_true]

@[simp] theorem State.escPuts_sec (s : State) (a : Nat) (v0 : Bytes) :
    (State.escPuts s a v0).sec = s.sec := by
  induction v0 generalizing s a  with
  | nil =>
    first
    | rfl
    | (simp only [State.escPuts, State.escPut_sec, apply_ite State.sec, ite_self, implies_true]; done)
  | cons b l ih =>
    first
    | (simp only [State.escPuts, State.escPut_sec, apply_ite State.sec, ite_self, implies_true, ih]; done)
    | (unfold State.escPuts; (repeat' (first | with_reducible rfl | split)) <;> (simp only [State.escPut_sec, apply_ite State.sec, ite_self, implies_true, ih]; done))
    | (unfold State.escPuts; (repeat' (first | with_reducible rfl | split)) <;> (try simp only [State.escPut_sec, apply_ite State.sec, ite_self, implies_true, ih]) <;> (repeat' (first | with_reducible rfl | split)) <;> (simp only [State.escPut_sec, apply_ite State.sec, ite_self, implies_true, ih]; done))

@[simp] theorem State.mailboxIn_sec (s : State) :
    (State.mailboxIn s).sec = s.sec := by
  simp only [State.mailboxIn, apply_ite State.sec, ite_self, implies_true]

@[simp] theorem State.outputIn_sec (s : State) :
    (State.outputIn s).sec = s.sec := by
  simp only [State.outputIn, State.dset_sec, apply_ite State.sec, ite_self, implies_true]

@[simp] theorem State.repeatMailbox_sec (s : State) :
    (State.repeatMailbox s).sec = s.sec := by
  simp only [State.repeatMailbox, apply_ite State.sec, ite_self, implies_true]

@[simp] theorem State.mailboxOut_sec (s : State) :
    (State.mailboxOut s).sec = s.sec := by
  unfold State.mailboxOut
  (repeat' (first | with_reducible rfl | split)) <;> simp only [State.flushEmergency_sec, apply_ite State.sec, ite_self, implies_true]

@[simp] theorem State.escWritten_sec (s : State) (a n : Nat) :
    (State.escWritten s a n).sec = s.sec := by
  simp only [State.escWritten, State.mailboxIn_sec, State.outputIn_sec, State.repeatMailbox_sec, apply_ite State.sec, ite_self, implies_true]

@[simp] theorem State.escRead_sec (s : State) (a n : Nat) :
    (State.escRead s a n).sec = s.sec := by
  simp only [State.escRead, State.mailboxOut_sec, apply_ite State.sec, ite_self, implies_true]

@[simp] theorem State.logical_sec (s : State) (d : EscDgram) :
    (State.logical s d).1.sec = s.sec := by
  simp only [State.logical, State.escPut_sec, State.escWritten_sec, State.escRead_sec, foldl_sec, apply_ite State.sec, ite_self, implies_true]

@[simp] theorem State.datagram_sec (s : State) (d : EscDgram) :
    (State.datagram s d).sec = s.sec := by
  simp only [State.datagram, State.escPuts_sec, State.escWritten_sec, State.escRead_sec, State.logical_sec, apply_ite State.sec, ite_self, implies_true]

/-! ### Step -/

@[simp] theorem State.withFetchWord_sec (s : State) (nbits w : Nat) :
    (State.withFetchWord s nbits w).sec = s.sec := by
  rfl

/-! ### Commands -/

theorem execIntkText_sec (c idx : Nat) (s : State) (t : State) (h : execIntkText c idx s = .next t) :
    t.sec = s.sec := by
  unfold execIntkText at h
  cases h
  apply State.startMacro_sec
  intro go hgo s e f
  cases hgo <;> simp [apply_ite State.sec]

theorem execIntkImage_sec (c idx : Nat) (s : State) (t : State) (h : execIntkImage c idx s = .next t) :
    t.sec = s.sec := by
  unfold execIntkImage at h
  cases h
  apply State.startMacro_sec
  intro go hgo s e f
  cases hgo <;> simp [apply_ite State.sec]

theorem execIntkInstall_sec (c idx : Nat) (s : State) (t : State) (h : execIntkInstall c idx s = .next t) :
    t.sec = s.sec := by
  unfold execIntkInstall at h
  cases h
  apply State.startMacro_sec
  intro go hgo s e f
  cases hgo <;> simp [apply_ite State.sec]

theorem execSampleTake_sec (pipe : Nat) (s : State) (t : State) (h : execSampleTake pipe s = .next t) :
    t.sec = s.sec := by
  unfold execSampleTake at h
  cases h
  simp only [State.takeSample_sec, apply_ite State.sec, ite_self, implies_true]

theorem execSampleComplete_sec (pipe : Nat) (s : State) (t : State) (h : execSampleComplete pipe s = .next t) :
    t.sec = s.sec := by
  unfold execSampleComplete at h
  cases h
  (repeat' (first | with_reducible rfl | split)) <;> simp only [State.slotJudged_sec, State.takeSample_sec, apply_ite State.sec, ite_self, implies_true]

theorem execSampleBudgetExpiry_sec (pipe : Nat) (s : State) (t : State) (h : execSampleBudgetExpiry pipe s = .next t) :
    t.sec = s.sec := by
  unfold execSampleBudgetExpiry at h
  cases h
  (repeat' (first | with_reducible rfl | split)) <;> simp only [State.bump_sec, State.slotDone_sec, State.takeSample_sec, apply_ite State.sec, ite_self, implies_true]

theorem execDictReplace_sec (slot : Nat) (s : State) (t : State) (h : execDictReplace slot s = .next t) :
    t.sec = s.sec := by
  unfold execDictReplace at h
  cases h
  simp only [State.bump_sec, State.setFlight_sec, State.dropIntk_sec, apply_ite State.sec, ite_self, implies_true]
  (repeat' (first | with_reducible rfl | split)) <;> (try with_reducible rfl) <;> simp only [State.bump_sec, State.setFlight_sec, State.dropIntk_sec, apply_ite State.sec, ite_self, implies_true]

theorem execCodecOpenEncoder_sec (c idx : Nat) (s : State) (t : State) (h : execCodecOpenEncoder c idx s = .next t) :
    t.sec = s.sec := by
  unfold execCodecOpenEncoder at h
  cases h
  apply State.startMacro_sec
  intro go hgo s e f
  cases hgo <;> simp [apply_ite State.sec]

theorem execCodecOpenDecoder_sec (c idx : Nat) (s : State) (t : State) (h : execCodecOpenDecoder c idx s = .next t) :
    t.sec = s.sec := by
  unfold execCodecOpenDecoder at h
  cases h
  apply State.startMacro_sec
  intro go hgo s e f
  cases hgo <;> simp [apply_ite State.sec]

theorem execCodecEncode_sec (c idx : Nat) (s : State) (t : State) (h : execCodecEncode c idx s = .next t) :
    t.sec = s.sec := by
  unfold execCodecEncode at h
  cases h
  apply State.startMacro_sec
  intro go hgo s e f
  cases hgo <;> simp [apply_ite State.sec]

theorem execCodecDecode_sec (c idx : Nat) (s : State) (t : State) (h : execCodecDecode c idx s = .next t) :
    t.sec = s.sec := by
  unfold execCodecDecode at h
  cases h
  apply State.startMacro_sec
  intro go hgo s e f
  cases hgo <;> simp [apply_ite State.sec]

theorem execCodecClose_sec (c idx : Nat) (s : State) (t : State) (h : execCodecClose c idx s = .next t) :
    t.sec = s.sec := by
  unfold execCodecClose at h
  cases h
  apply State.startMacro_sec
  intro go hgo s e f
  cases hgo <;> simp [apply_ite State.sec]

theorem execFrameTake_sec (pipe : Nat) (s : State) (t : State) (h : execFrameTake pipe s = .next t) :
    t.sec = s.sec := by
  unfold execFrameTake at h
  cases h
  simp only [State.takeFrame_sec, apply_ite State.sec, ite_self, implies_true]

theorem execFrameComplete_sec (pipe : Nat) (s : State) (t : State) (h : execFrameComplete pipe s = .next t) :
    t.sec = s.sec := by
  unfold execFrameComplete at h
  cases h
  simp only [State.frameDone_sec, apply_ite State.sec, ite_self, implies_true]

theorem execFrameBudgetExpiry_sec (pipe : Nat) (s : State) (t : State) (h : execFrameBudgetExpiry pipe s = .next t) :
    t.sec = s.sec := by
  unfold execFrameBudgetExpiry at h
  cases h
  simp only [State.frameDone_sec, apply_ite State.sec, ite_self, implies_true]

theorem execNewTail_sec (c width value : Nat) (s : State) (t : State) (h : execNewTail c width value s = .next t) :
    t.sec = s.sec := by
  unfold execNewTail at h
  cases h
  simp only [State.bellIgnored_sec, State.bellFetch_sec, State.bellTail_sec, apply_ite State.sec, ite_self, implies_true]

theorem execResume_sec (c value : Nat) (s : State) (t : State) (h : execResume c value s = .next t) :
    t.sec = s.sec := by
  unfold execResume at h
  cases h
  simp only [State.finishJob_sec, State.bellFetch_sec, State.bellResume_sec, apply_ite State.sec, ite_self, implies_true]

theorem execMma_sec (c idx : Nat) (s : State) (t : State) (h : execMma c idx s = .next t) :
    t.sec = s.sec := by
  unfold execMma at h
  cases h
  apply State.startMacro_sec
  intro go hgo s e f
  cases hgo <;> simp [apply_ite State.sec]

theorem execMmas_sec (c idx : Nat) (s : State) (t : State) (h : execMmas c idx s = .next t) :
    t.sec = s.sec := by
  unfold execMmas at h
  cases h
  apply State.startMacro_sec
  intro go hgo s e f
  cases hgo <;> simp [apply_ite State.sec]

theorem execConv_sec (c idx : Nat) (s : State) (t : State) (h : execConv c idx s = .next t) :
    t.sec = s.sec := by
  unfold execConv at h
  cases h
  apply State.startMacro_sec
  intro go hgo s e f
  cases hgo <;> simp [apply_ite State.sec]

theorem execPool_sec (c idx : Nat) (s : State) (t : State) (h : execPool c idx s = .next t) :
    t.sec = s.sec := by
  unfold execPool at h
  cases h
  apply State.startMacro_sec
  intro go hgo s e f
  cases hgo <;> simp [apply_ite State.sec]

theorem execAttf_sec (c idx : Nat) (s : State) (t : State) (h : execAttf c idx s = .next t) :
    t.sec = s.sec := by
  unfold execAttf at h
  cases h
  apply State.startMacro_sec
  intro go hgo s e f
  cases hgo <;> simp [apply_ite State.sec]

theorem execAttb_sec (c idx : Nat) (s : State) (t : State) (h : execAttb c idx s = .next t) :
    t.sec = s.sec := by
  unfold execAttb at h
  cases h
  apply State.startMacro_sec
  intro go hgo s e f
  cases hgo <;> simp [apply_ite State.sec]

theorem execLatx_sec (c idx : Nat) (s : State) (t : State) (h : execLatx c idx s = .next t) :
    t.sec = s.sec := by
  unfold execLatx at h
  cases h
  apply State.startMacro_sec
  intro go hgo s e f
  cases hgo <;> simp [apply_ite State.sec]

theorem execKvap_sec (c idx : Nat) (s : State) (t : State) (h : execKvap c idx s = .next t) :
    t.sec = s.sec := by
  unfold execKvap at h
  cases h
  apply State.startMacro_sec
  intro go hgo s e f
  cases hgo <;> simp [apply_ite State.sec]

theorem execSfn_sec (c idx : Nat) (s : State) (t : State) (h : execSfn c idx s = .next t) :
    t.sec = s.sec := by
  unfold execSfn at h
  cases h
  apply State.startMacro_sec
  intro go hgo s e f
  cases hgo <;> simp [apply_ite State.sec]

theorem execNorm_sec (c idx : Nat) (s : State) (t : State) (h : execNorm c idx s = .next t) :
    t.sec = s.sec := by
  unfold execNorm at h
  cases h
  apply State.startMacro_sec
  intro go hgo s e f
  cases hgo <;> simp [apply_ite State.sec]

theorem execSmax_sec (c idx : Nat) (s : State) (t : State) (h : execSmax c idx s = .next t) :
    t.sec = s.sec := by
  unfold execSmax at h
  cases h
  apply State.startMacro_sec
  intro go hgo s e f
  cases hgo <;> simp [apply_ite State.sec]

theorem execSamp_sec (c idx : Nat) (s : State) (t : State) (h : execSamp c idx s = .next t) :
    t.sec = s.sec := by
  unfold execSamp at h
  cases h
  apply State.startMacro_sec
  intro go hgo s e f
  cases hgo <;> simp [apply_ite State.sec]

theorem execRand_sec (c idx : Nat) (s : State) (t : State) (h : execRand c idx s = .next t) :
    t.sec = s.sec := by
  unfold execRand at h
  cases h
  apply State.startMacro_sec
  intro go hgo s e f
  cases hgo <;> simp [apply_ite State.sec]

theorem execQnt_sec (c idx : Nat) (s : State) (t : State) (h : execQnt c idx s = .next t) :
    t.sec = s.sec := by
  unfold execQnt at h
  cases h
  apply State.startMacro_sec
  intro go hgo s e f
  cases hgo <;> simp [apply_ite State.sec]

theorem execRoute_sec (c idx : Nat) (s : State) (t : State) (h : execRoute c idx s = .next t) :
    t.sec = s.sec := by
  unfold execRoute at h
  cases h
  apply State.startMacro_sec
  intro go hgo s e f
  cases hgo <;> simp [apply_ite State.sec]

theorem execGath_sec (c idx : Nat) (s : State) (t : State) (h : execGath c idx s = .next t) :
    t.sec = s.sec := by
  unfold execGath at h
  cases h
  apply State.startMacro_sec
  intro go hgo s e f
  cases hgo <;> simp [apply_ite State.sec]

theorem execScat_sec (c idx : Nat) (s : State) (t : State) (h : execScat c idx s = .next t) :
    t.sec = s.sec := by
  unfold execScat at h
  cases h
  apply State.startMacro_sec
  intro go hgo s e f
  cases hgo <;> simp [apply_ite State.sec]

theorem execCopy_sec (c idx : Nat) (s : State) (t : State) (h : execCopy c idx s = .next t) :
    t.sec = s.sec := by
  unfold execCopy at h
  cases h
  apply State.startMacro_sec
  intro go hgo s e f
  cases hgo <;> simp [apply_ite State.sec]

theorem execStill_sec (c idx : Nat) (s : State) (t : State) (h : execStill c idx s = .next t) :
    t.sec = s.sec := by
  unfold execStill at h
  cases h
  apply State.startMacro_sec
  intro go hgo s e f
  cases hgo <;> simp [apply_ite State.sec]

theorem execArgmx_sec (c idx : Nat) (s : State) (t : State) (h : execArgmx c idx s = .next t) :
    t.sec = s.sec := by
  unfold execArgmx at h
  cases h
  apply State.startMacro_sec
  intro go hgo s e f
  cases hgo <;> simp [apply_ite State.sec]

theorem execWait_sec (c idx : Nat) (s : State) (t : State) (h : execWait c idx s = .next t) :
    t.sec = s.sec := by
  unfold execWait at h
  cases h
  apply State.startMacro_sec
  intro go hgo s e f
  cases hgo <;> simp [apply_ite State.sec]

theorem execSignal_sec (c idx : Nat) (s : State) (t : State) (h : execSignal c idx s = .next t) :
    t.sec = s.sec := by
  unfold execSignal at h
  cases h
  apply State.startMacro_sec
  intro go hgo s e f
  cases hgo <;> simp [apply_ite State.sec]

theorem execFence_sec (c idx : Nat) (s : State) (t : State) (h : execFence c idx s = .next t) :
    t.sec = s.sec := by
  unfold execFence at h
  cases h
  apply State.startMacro_sec
  intro go hgo s e f
  cases hgo <;> simp [apply_ite State.sec]

theorem execNop_sec (c idx : Nat) (s : State) (t : State) (h : execNop c idx s = .next t) :
    t.sec = s.sec := by
  unfold execNop at h
  cases h
  apply State.startMacro_sec
  intro go hgo s e f
  cases hgo <;> simp [apply_ite State.sec]

theorem execInstructionComplete_sec (c idx : Nat) (s : State) (t : State) (h : execInstructionComplete c idx s = .next t) :
    t.sec = s.sec := by
  unfold execInstructionComplete at h
  cases h
  simp only [State.complete_sec, apply_ite State.sec, ite_self, implies_true]

theorem execWaitSatisfied_sec (c idx : Nat) (s : State) (t : State) (h : execWaitSatisfied c idx s = .next t) :
    t.sec = s.sec := by
  unfold execWaitSatisfied at h
  cases h
  (repeat' (first | with_reducible rfl | split)) <;> simp only [State.endWait_sec, apply_ite State.sec, ite_self, implies_true]

theorem execWaitTimeout_sec (c idx : Nat) (s : State) (t : State) (h : execWaitTimeout c idx s = .next t) :
    t.sec = s.sec := by
  unfold execWaitTimeout at h
  cases h
  (repeat' (first | with_reducible rfl | split)) <;> simp only [State.bump_sec, State.setFlight_sec, State.complete_sec, State.endWait_sec, apply_ite State.sec, ite_self, implies_true]

theorem execTaskTake_sec (cell which : Nat) (s : State) (t : State) (h : execTaskTake cell which s = .next t) :
    t.sec = s.sec := by
  unfold execTaskTake at h
  cases h
  (repeat' (first | with_reducible rfl | split)) <;> simp only [State.drew_sec, State.setCtx_sec, State.serveTasks_sec, apply_ite State.sec, ite_self, implies_true]

theorem execChainHopTimeout_sec (c idx cell : Nat) (fwd : Bool) (s : State) (t : State) (h : execChainHopTimeout c idx cell fwd s = .next t) :
    t.sec = s.sec := by
  unfold execChainHopTimeout at h
  cases h
  (repeat' (first | with_reducible rfl | split)) <;> simp only [State.bump_sec, State.drew_sec, apply_ite State.sec, ite_self, implies_true]

theorem execHistoryFetchArrival_sec (c idx block : Nat) (ok : Bool) (data : Bytes) (s : State) (t : State) (h : execHistoryFetchArrival c idx block ok data s = .next t) :
    t.sec = s.sec := by
  unfold execHistoryFetchArrival at h
  cases h
  simp only [State.historyArrival_sec, apply_ite State.sec, ite_self, implies_true]

theorem execHistoryDeadline_sec (c idx block : Nat) (s : State) (t : State) (h : execHistoryDeadline c idx block s = .next t) :
    t.sec = s.sec := by
  unfold execHistoryDeadline at h
  cases h
  simp only [State.historyLate_sec, apply_ite State.sec, ite_self, implies_true]

theorem execReseed_sec (cell : Nat) (s : State) (t : State) (h : execReseed cell s = .next t) :
    t.sec = s.sec := by
  unfold execReseed at h
  cases h
  simp only [State.reseedCell_sec, apply_ite State.sec, ite_self, implies_true]

theorem execScrub_sec (channel corrected : Nat) (bad : List Nat) (s : State) (t : State) (h : execScrub channel corrected bad s = .next t) :
    t.sec = s.sec := by
  unfold execScrub at h
  cases h
  simp only [State.bump_sec, State.log_sec, State.raise_sec, State.badReads_sec, foldl_sec, apply_ite State.sec, ite_self, implies_true]

theorem execWcbAgeRetire_sec (channel : Nat) (s : State) (t : State) (h : execWcbAgeRetire channel s = .next t) :
    t.sec = s.sec := by
  unfold execWcbAgeRetire at h
  cases h
  (repeat' (first | with_reducible rfl | split)) <;> simp only [State.retireWcb_sec, apply_ite State.sec, ite_self, implies_true]

theorem execUnmappedAccess_sec (addr : Nat) (write : Bool) (s : State) (t : State) (h : execUnmappedAccess addr write s = .next t) :
    t.sec = s.sec := by
  unfold execUnmappedAccess at h
  cases h
  simp only [State.bump_sec, apply_ite State.sec, ite_self, implies_true]

theorem execRemoteAccess_sec (r : RemoteReq) (s : State) (t : State) (h : execRemoteAccess r s = .next t) :
    t.sec = s.sec := by
  unfold execRemoteAccess at h
  cases h
  (repeat' (first | with_reducible rfl | split)) <;> simp only [State.writeBytes_sec, State.respond_sec, State.refuse_sec, State.readRuns_sec, State.sawPoison_sec, State.dropObj_sec, State.refuseRequest_sec, apply_ite State.sec, ite_self, implies_true]

theorem execRemoteSignal_sec (src postmark addr op operand : Nat) (s : State) (t : State) (h : execRemoteSignal src postmark addr op operand s = .next t) :
    t.sec = s.sec := by
  unfold execRemoteSignal at h
  cases h
  simp only [State.respond_sec, State.refuse_sec, State.semApply_sec, State.refuseRequest_sec, apply_ite State.sec, ite_self, implies_true]

theorem execRemoteAlloc_sec (src postmark : Nat) (record : Bytes) (s : State) (t : State) (h : execRemoteAlloc src postmark record s = .next t) :
    t.sec = s.sec := by
  unfold execRemoteAlloc at h
  cases h
  simp only [State.respond_sec, State.refuse_sec, State.allocHere_sec, State.refuseRequest_sec, apply_ite State.sec, ite_self, implies_true]
  (repeat' (first | with_reducible rfl | split)) <;> (try with_reducible rfl) <;> simp only [State.respond_sec, State.refuse_sec, State.allocHere_sec, State.refuseRequest_sec, apply_ite State.sec, ite_self, implies_true]

theorem execGranuleZeroing_sec (granule : Nat) (s : State) (t : State) (h : execGranuleZeroing granule s = .next t) :
    t.sec = s.sec := by
  unfold execGranuleZeroing at h
  cases h
  simp only [State.clearRun_sec, apply_ite State.sec, ite_self, implies_true]

theorem execChannelTrainingDone_sec (channel : Nat) (s : State) (t : State) (h : execChannelTrainingDone channel s = .next t) :
    t.sec = s.sec := by
  unfold execChannelTrainingDone at h
  cases h
  simp only [State.endSession_sec, State.trained_sec, apply_ite State.sec, ite_self, implies_true]

theorem execRetrainTimeout_sec (channel : Nat) (s : State) (t : State) (h : execRetrainTimeout channel s = .next t) :
    t.sec = s.sec := by
  unfold execRetrainTimeout at h
  cases h
  simp only [State.bump_sec, State.setChan_sec, State.raise_sec, State.markChannel_sec, State.endSession_sec, apply_ite State.sec, ite_self, implies_true]

theorem execRetrainDue_sec (channel : Nat) (s : State) (t : State) (h : execRetrainDue channel s = .next t) :
    t.sec = s.sec := by
  unfold execRetrainDue at h
  cases h
  simp only [State.dueSession_sec, apply_ite State.sec, ite_self, implies_true]

theorem execRetrainRequest_sec (value : Nat) (s : State) (t : State) (h : execRetrainRequest value s = .next t) :
    t.sec = s.sec := by
  unfold execRetrainRequest at h
  cases h
  simp only [State.trigger_sec, applyRetrain_sec, apply_ite State.sec, ite_self, implies_true]

theorem execRemoteAck_sec (req : Nat) (s : State) (t : State) (h : execRemoteAck req s = .next t) :
    t.sec = s.sec := by
  unfold execRemoteAck at h
  cases h
  (repeat' (first | with_reducible rfl | split)) <;> simp only [State.acked_sec, apply_ite State.sec, ite_self, implies_true]

theorem execRemoteAckTimeout_sec (req : Nat) (s : State) (t : State) (h : execRemoteAckTimeout req s = .next t) :
    t.sec = s.sec := by
  unfold execRemoteAckTimeout at h
  cases h
  (repeat' (first | with_reducible rfl | split)) <;> simp only [State.writeBack_sec, State.failReq_sec, apply_ite State.sec, ite_self, implies_true]

theorem execRefuseReceive_sec (req code : Nat) (s : State) (t : State) (h : execRefuseReceive req code s = .next t) :
    t.sec = s.sec := by
  unfold execRefuseReceive at h
  cases h
  (repeat' (first | with_reducible rfl | split)) <;> simp only [State.failReq_sec, apply_ite State.sec, ite_self, implies_true]

theorem execWriteBackTimeout_sec (req : Nat) (s : State) (t : State) (h : execWriteBackTimeout req s = .next t) :
    t.sec = s.sec := by
  unfold execWriteBackTimeout at h
  cases h
  (repeat' (first | with_reducible rfl | split)) <;> simp only [State.bump_sec, State.writeBack_sec, State.failReq_sec, apply_ite State.sec, ite_self, implies_true]

theorem execResponseReceive_sec (req postmark : Nat) (poisoned : List Nat) (data : Bytes) (s : State) (t : State) (h : execResponseReceive req postmark poisoned data s = .next t) :
    t.sec = s.sec := by
  unfold execResponseReceive at h
  cases h
  (repeat' (first | with_reducible rfl | split)) <;> simp only [State.bump_sec, State.answered_sec, apply_ite State.sec, ite_self, implies_true]

theorem execSlotGrant_sec (s : State) (t : State) (h : execSlotGrant s = .next t) :
    t.sec = s.sec := by
  unfold execSlotGrant at h
  cases h
  simp only [State.grantSlot_sec, apply_ite State.sec, ite_self, implies_true]

theorem execPreemptWaitExpiry_sec (cell ctx idx task : Nat) (s : State) (t : State) (h : execPreemptWaitExpiry cell ctx idx task s = .next t) :
    t.sec = s.sec := by
  unfold execPreemptWaitExpiry at h
  cases h
  (repeat' (first | with_reducible rfl | split)) <;> simp [apply_ite State.sec]

theorem execSuspendContext_sec (value : Nat) (s : State) (t : State) (h : execSuspendContext value s = .next t) :
    t.sec = s.sec := by
  unfold execSuspendContext at h
  cases h
  simp only [State.trigger_sec, State.suspendReq_sec, apply_ite State.sec, ite_self, implies_true]

theorem execSuspendPartition_sec (value : Nat) (s : State) (t : State) (h : execSuspendPartition value s = .next t) :
    t.sec = s.sec := by
  unfold execSuspendPartition at h
  cases h
  simp only [State.trigger_sec, State.suspendPart_sec, apply_ite State.sec, ite_self, implies_true]

theorem execResumeContext_sec (value : Nat) (s : State) (t : State) (h : execResumeContext value s = .next t) :
    t.sec = s.sec := by
  unfold execResumeContext at h
  cases h
  simp only [State.trigger_sec, State.resumeReq_sec, apply_ite State.sec, ite_self, implies_true]

theorem execSaveComplete_sec (c : Nat) (s : State) (t : State) (h : execSaveComplete c s = .next t) :
    t.sec = s.sec := by
  unfold execSaveComplete at h
  cases h
  simp only [State.saveDone_sec, apply_ite State.sec, ite_self, implies_true]

theorem execRestore_sec (c : Nat) (s : State) (t : State) (h : execRestore c s = .next t) :
    t.sec = s.sec := by
  unfold execRestore at h
  cases h
  simp only [State.restoreCtx_sec, apply_ite State.sec, ite_self, implies_true]

theorem execQuotaCommit_sec (value : Nat) (s : State) (t : State) (h : execQuotaCommit value s = .next t) :
    t.sec = s.sec := by
  unfold execQuotaCommit at h
  cases h
  simp only [State.trigger_sec, applyQuota_sec, apply_ite State.sec, ite_self, implies_true]

theorem execSubmit_sec (d : Dgram) (s : State) (t : State) (h : execSubmit d s = .next t) :
    t.sec = s.sec := by
  unfold execSubmit at h
  cases h
  simp only [State.courier_sec, State.submitJob_sec, apply_ite State.sec, ite_self, implies_true]

theorem execImportJob_sec (d : Dgram) (s : State) (t : State) (h : execImportJob d s = .next t) :
    t.sec = s.sec := by
  unfold execImportJob at h
  cases h
  simp only [State.courier_sec, State.importCtx_sec, apply_ite State.sec, ite_self, implies_true]

theorem execInvalidDatagram_sec (d : Dgram) (s : State) (t : State) (h : execInvalidDatagram d s = .next t) :
    t.sec = s.sec := by
  unfold execInvalidDatagram at h
  cases h
  simp only [State.bump_sec, apply_ite State.sec, ite_self, implies_true]

theorem execOpenSession_sec (d : Dgram) (s : State) (t : State) (h : execOpenSession d s = .next t) :
    t.sec = s.sec := by
  unfold execOpenSession at h
  cases h
  simp only [State.courier_sec, State.openFor_sec, apply_ite State.sec, ite_self, implies_true]

theorem execCloseSession_sec (d : Dgram) (s : State) (t : State) (h : execCloseSession d s = .next t) :
    t.sec = s.sec := by
  unfold execCloseSession at h
  cases h
  simp only [State.setSession_sec, State.endClosing_sec, State.sendAck_sec, State.courier_sec, apply_ite State.sec, ite_self, implies_true]

theorem execAck_sec (d : Dgram) (s : State) (t : State) (h : execAck d s = .next t) :
    t.sec = s.sec := by
  unfold execAck at h
  cases h
  simp only [State.courier_sec, apply_ite State.sec, ite_self, implies_true]

theorem execRetransmitTimeout_sec (session : Nat) (s : State) (t : State) (h : execRetransmitTimeout session s = .next t) :
    t.sec = s.sec := by
  unfold execRetransmitTimeout at h
  cases h
  simp only [State.resend_sec, apply_ite State.sec, ite_self, implies_true]

theorem execAckTimer_sec (session : Nat) (s : State) (t : State) (h : execAckTimer session s = .next t) :
    t.sec = s.sec := by
  unfold execAckTimer at h
  cases h
  (repeat' (first | with_reducible rfl | split)) <;> simp only [State.sendAck_sec, apply_ite State.sec, ite_self, implies_true]

theorem execPortLinkLoss_sec (port : Nat) (s : State) (t : State) (h : execPortLinkLoss port s = .next t) :
    t.sec = s.sec := by
  unfold execPortLinkLoss at h
  cases h
  rfl

theorem execDataPortLinkUp_sec (port : Nat) (s : State) (t : State) (h : execDataPortLinkUp port s = .next t) :
    t.sec = s.sec := by
  unfold execDataPortLinkUp at h
  cases h
  simp only [apply_ite State.sec, ite_self, implies_true]

theorem execAlloc_sec (d : Dgram) (s : State) (t : State) (h : execAlloc d s = .next t) :
    t.sec = s.sec := by
  unfold execAlloc at h
  cases h
  simp only [State.allocate_sec, State.courier_sec, apply_ite State.sec, ite_self, implies_true]

theorem execFree_sec (d : Dgram) (s : State) (t : State) (h : execFree d s = .next t) :
    t.sec = s.sec := by
  unfold execFree at h
  cases h
  simp only [State.freeObj_sec, State.courier_sec, apply_ite State.sec, ite_self, implies_true]

theorem execWrite_sec (d : Dgram) (s : State) (t : State) (h : execWrite d s = .next t) :
    t.sec = s.sec := by
  unfold execWrite at h
  cases h
  simp only [State.writeBytes_sec, State.reply_sec, State.courier_sec, apply_ite State.sec, ite_self, implies_true]

theorem execRead_sec (d : Dgram) (s : State) (t : State) (h : execRead d s = .next t) :
    t.sec = s.sec := by
  unfold execRead at h
  cases h
  simp only [State.courier_sec, State.readFor_sec, apply_ite State.sec, ite_self, implies_true]

theorem execControlDoorbell_sec (d : Dgram) (s : State) (t : State) (h : execControlDoorbell d s = .next t) :
    t.sec = s.sec := by
  unfold execControlDoorbell at h
  cases h
  simp only [State.setJob_sec, State.finishJob_sec, State.bellFetch_sec, State.bellTail_sec, State.bellResume_sec, State.control_sec, apply_ite State.sec, ite_self, implies_true]

theorem execControlSuspend_sec (d : Dgram) (s : State) (t : State) (h : execControlSuspend d s = .next t) :
    t.sec = s.sec := by
  unfold execControlSuspend at h
  cases h
  simp only [State.suspendReq_sec, State.control_sec, controlled_sec, apply_ite State.sec, ite_self, implies_true]

theorem execControlResume_sec (d : Dgram) (s : State) (t : State) (h : execControlResume d s = .next t) :
    t.sec = s.sec := by
  unfold execControlResume at h
  cases h
  simp only [State.resumeReq_sec, State.control_sec, controlled_sec, apply_ite State.sec, ite_self, implies_true]

theorem execControlCancel_sec (d : Dgram) (s : State) (t : State) (h : execControlCancel d s = .next t) :
    t.sec = s.sec := by
  unfold execControlCancel at h
  cases h
  simp only [State.abortCtx_sec, State.control_sec, apply_ite State.sec, ite_self, implies_true]

theorem execControlExport_sec (d : Dgram) (s : State) (t : State) (h : execControlExport d s = .next t) :
    t.sec = s.sec := by
  unfold execControlExport at h
  cases h
  simp only [State.control_sec, State.exportReq_sec, apply_ite State.sec, ite_self, implies_true]

theorem execControlRebind_sec (d : Dgram) (s : State) (t : State) (h : execControlRebind d s = .next t) :
    t.sec = s.sec := by
  unfold execControlRebind at h
  cases h
  simp only [State.control_sec, State.rebind_sec, apply_ite State.sec, ite_self, implies_true]

theorem execControlQuery_sec (d : Dgram) (s : State) (t : State) (h : execControlQuery d s = .next t) :
    t.sec = s.sec := by
  unfold execControlQuery at h
  cases h
  simp only [State.progress_sec, State.control_sec, apply_ite State.sec, ite_self, implies_true]

theorem execResultRequest_sec (r : ResultReq) (s : State) (t : State) (h : execResultRequest r s = .next t) :
    t.sec = s.sec := by
  unfold execResultRequest at h
  cases h
  simp only [State.refuse_sec, State.holdResult_sec, State.refuseRequest_sec, apply_ite State.sec, ite_self, implies_true]

theorem execResultHoldExpiry_sec (result : Nat) (s : State) (t : State) (h : execResultHoldExpiry result s = .next t) :
    t.sec = s.sec := by
  unfold execResultHoldExpiry at h
  cases h
  (repeat' (first | with_reducible rfl | split)) <;> simp only [State.failDelivery_sec, apply_ite State.sec, ite_self, implies_true]

theorem execHaltLimitExpiry_sec (c : Nat) (s : State) (t : State) (h : execHaltLimitExpiry c s = .next t) :
    t.sec = s.sec := by
  unfold execHaltLimitExpiry at h
  cases h
  (repeat' (first | with_reducible rfl | split)) <;> simp [apply_ite State.sec]

theorem execArpRequest_sec (port target senderIp senderMac : Nat) (s : State) (t : State) (h : execArpRequest port target senderIp senderMac s = .next t) :
    t.sec = s.sec := by
  unfold execArpRequest at h
  cases h
  simp only [State.putRaw_sec, apply_ite State.sec, ite_self, implies_true]

theorem execNeighbourSolicitation_sec (port target senderIp senderMac : Nat) (s : State) (t : State) (h : execNeighbourSolicitation port target senderIp senderMac s = .next t) :
    t.sec = s.sec := by
  unfold execNeighbourSolicitation at h
  cases h
  simp only [State.putRaw_sec, apply_ite State.sec, ite_self, implies_true]

theorem execEchoRequest_sec (port : Nat) (v6 : Bool) (dst src : Nat) (payload : Bytes) (s : State) (t : State) (h : execEchoRequest port v6 dst src payload s = .next t) :
    t.sec = s.sec := by
  unfold execEchoRequest at h
  cases h
  simp only [State.putRaw_sec, apply_ite State.sec, ite_self, implies_true]

theorem execFlitTransmit_sec (port : Nat) (s : State) (t : State) (h : execFlitTransmit port s = .next t) :
    t.sec = s.sec := by
  unfold execFlitTransmit at h
  cases h
  simp only [State.transmit_sec, apply_ite State.sec, ite_self, implies_true]

theorem execFlitReceive_sec (port : Nat) (fecOk : Bool) (bytes : Bytes) (s : State) (t : State) (h : execFlitReceive port fecOk bytes s = .next t) :
    t.sec = s.sec := by
  unfold execFlitReceive at h
  cases h
  simp only [State.bump_sec, State.oweNak_sec, State.gotFlit_sec, apply_ite State.sec, ite_self, implies_true]

theorem execNakReceive_sec (port ackSeq : Nat) (s : State) (t : State) (h : execNakReceive port ackSeq s = .next t) :
    t.sec = s.sec := by
  unfold execNakReceive at h
  cases h
  simp only [State.takeAckSeq_sec, State.replayPort_sec, apply_ite State.sec, ite_self, implies_true]

theorem execReplayTimeout_sec (port : Nat) (s : State) (t : State) (h : execReplayTimeout port s = .next t) :
    t.sec = s.sec := by
  unfold execReplayTimeout at h
  cases h
  simp only [State.replayPort_sec, apply_ite State.sec, ite_self, implies_true]

theorem execSignalDetect_sec (port lanes : Nat) (s : State) (t : State) (h : execSignalDetect port lanes s = .next t) :
    t.sec = s.sec := by
  unfold execSignalDetect at h
  cases h
  simp only [State.setPort_sec, State.clearLanes_sec, apply_ite State.sec, ite_self, implies_true]

theorem execPortAligned_sec (port lanes : Nat) (s : State) (t : State) (h : execPortAligned port lanes s = .next t) :
    t.sec = s.sec := by
  unfold execPortAligned at h
  cases h
  simp only [State.watch_sec, State.setPort_sec, State.removeLane_sec, foldl_sec, apply_ite State.sec, ite_self, implies_true]

theorem execBringUpTimeout_sec (port : Nat) (s : State) (t : State) (h : execBringUpTimeout port s = .next t) :
    t.sec = s.sec := by
  unfold execBringUpTimeout at h
  cases h
  simp only [State.watch_sec, State.setPort_sec, apply_ite State.sec, ite_self, implies_true]

theorem execHelloReceive_sec (port : Nat) (h : Hello) (s : State) (t : State) (h : execHelloReceive port h s = .next t) :
    t.sec = s.sec := by
  unfold execHelloReceive at h
  cases h
  simp only [State.setPort_sec, State.takeAckSeq_sec, State.portFall_sec, State.checkPort_sec, State.nextLane_sec, State.meetSeq_sec, apply_ite State.sec, ite_self, implies_true]

theorem execHelloTimer_sec (port : Nat) (s : State) (t : State) (h : execHelloTimer port s = .next t) :
    t.sec = s.sec := by
  unfold execHelloTimer at h
  cases h
  simp only [State.setPort_sec, apply_ite State.sec, ite_self, implies_true]

theorem execHelloTimeout_sec (port : Nat) (s : State) (t : State) (h : execHelloTimeout port s = .next t) :
    t.sec = s.sec := by
  unfold execHelloTimeout at h
  cases h
  simp only [State.portFall_sec, apply_ite State.sec, ite_self, implies_true]

theorem execPortDownLimit_sec (port : Nat) (s : State) (t : State) (h : execPortDownLimit port s = .next t) :
    t.sec = s.sec := by
  unfold execPortDownLimit at h
  cases h
  simp only [State.setPort_sec, State.discard_sec, apply_ite State.sec, ite_self, implies_true]

theorem execLaneFault_sec (port lane _cause : Nat) (s : State) (t : State) (h : execLaneFault port lane _cause s = .next t) :
    t.sec = s.sec := by
  unfold execLaneFault at h
  cases h
  simp only [State.laneLost_sec, apply_ite State.sec, ite_self, implies_true]

theorem execLaneRetrainDue_sec (port lane : Nat) (s : State) (t : State) (h : execLaneRetrainDue port lane s = .next t) :
    t.sec = s.sec := by
  unfold execLaneRetrainDue at h
  cases h
  simp only [State.dueLane_sec, apply_ite State.sec, ite_self, implies_true]

theorem execLaneRetrainRequest_sec (value : Nat) (s : State) (t : State) (h : execLaneRetrainRequest value s = .next t) :
    t.sec = s.sec := by
  unfold execLaneRetrainRequest at h
  cases h
  simp only [State.trigger_sec, applyLaneRetrain_sec, apply_ite State.sec, ite_self, implies_true]

theorem execLaneRetrainDone_sec (port : Nat) (s : State) (t : State) (h : execLaneRetrainDone port s = .next t) :
    t.sec = s.sec := by
  unfold execLaneRetrainDone at h
  cases h
  (repeat' (first | with_reducible rfl | split)) <;> simp only [State.bump_sec, State.drew_sec, State.journal_sec, State.watch_sec, State.setPort_sec, State.nextLane_sec, apply_ite State.sec, ite_self, implies_true]

theorem execLaneRetrainTimeout_sec (port : Nat) (s : State) (t : State) (h : execLaneRetrainTimeout port s = .next t) :
    t.sec = s.sec := by
  unfold execLaneRetrainTimeout at h
  cases h
  (repeat' (first | with_reducible rfl | split)) <;> simp only [State.bump_sec, State.raise_sec, State.watch_sec, State.setPort_sec, State.fenceLane_sec, State.removeLane_sec, State.nextLane_sec, apply_ite State.sec, ite_self, implies_true]

theorem execNodeCommit_sec (value : Nat) (s : State) (t : State) (h : execNodeCommit value s = .next t) :
    t.sec = s.sec := by
  unfold execNodeCommit at h
  cases h
  simp only [State.trigger_sec, applyNode_sec, apply_ite State.sec, ite_self, implies_true]

theorem execRouteCommit_sec (value : Nat) (s : State) (t : State) (h : execRouteCommit value s = .next t) :
    t.sec = s.sec := by
  unfold execRouteCommit at h
  cases h
  simp only [State.trigger_sec, applyRoute_sec, apply_ite State.sec, ite_self, implies_true]

theorem execRouteDefaults_sec (value : Nat) (s : State) (t : State) (h : execRouteDefaults value s = .next t) :
    t.sec = s.sec := by
  unfold execRouteDefaults at h
  cases h
  simp only [State.trigger_sec, applyRouteDefaults_sec, apply_ite State.sec, ite_self, implies_true]

theorem execRouterReset_sec (value : Nat) (s : State) (t : State) (h : execRouterReset value s = .next t) :
    t.sec = s.sec := by
  unfold execRouterReset at h
  cases h
  simp only [State.trigger_sec, State.resetRouter_sec, apply_ite State.sec, ite_self, implies_true]

theorem execPortEnable_sec (value : Nat) (s : State) (t : State) (h : execPortEnable value s = .next t) :
    t.sec = s.sec := by
  unfold execPortEnable at h
  cases h
  simp only [State.trigger_sec, applyPortEnable_sec, apply_ite State.sec, ite_self, implies_true]

theorem execColl_sec (c idx : Nat) (s : State) (t : State) (h : execColl c idx s = .next t) :
    t.sec = s.sec := by
  unfold execColl at h
  cases h
  apply State.startMacro_sec
  intro go hgo s e f
  cases hgo <;> simp [apply_ite State.sec]

theorem execPost_sec (c idx : Nat) (s : State) (t : State) (h : execPost c idx s = .next t) :
    t.sec = s.sec := by
  unfold execPost at h
  cases h
  apply State.startMacro_sec
  intro go hgo s e f
  cases hgo <;> simp [apply_ite State.sec]

theorem execChunkReceive_sec (group ord src : Nat) (sender : Sender) (sig : Nat) (head : PacketHead) (residue : Bool) (data : Bytes) (s : State) (t : State) (h : execChunkReceive group ord src sender sig head residue data s = .next t) :
    t.sec = s.sec := by
  unfold execChunkReceive at h
  cases h
  simp only [State.bulk_sec, apply_ite State.sec, ite_self, implies_true]

theorem execCollTimeout_sec (c idx : Nat) (s : State) (t : State) (h : execCollTimeout c idx s = .next t) :
    t.sec = s.sec := by
  unfold execCollTimeout at h
  cases h
  (repeat' (first | with_reducible rfl | split)) <;> simp only [State.failColl_sec, State.ctrlOver_sec, apply_ite State.sec, ite_self, implies_true]

theorem execPostcardReceive_sec (group ord axis pos : Nat) (sender : Sender) (sig : Nat) (payload : Bytes) (s : State) (t : State) (h : execPostcardReceive group ord axis pos sender sig payload s = .next t) :
    t.sec = s.sec := by
  unfold execPostcardReceive at h
  cases h
  simp only [State.relayCard_sec, State.takeCard_sec, State.takeCtrl_sec, apply_ite State.sec, ite_self, implies_true]

theorem execCtrlBroadcast_sec (initiator : Nat) (payload : Bytes) (s : State) (t : State) (h : execCtrlBroadcast initiator payload s = .next t) :
    t.sec = s.sec := by
  unfold execCtrlBroadcast at h
  cases h
  simp only [State.bump_sec, State.ctrlDone_sec, State.ctrlOver_sec, apply_ite State.sec, ite_self, implies_true]

theorem execCtrlSnapshot_sec (initiator : Nat) (others : Bytes) (s : State) (t : State) (h : execCtrlSnapshot initiator others s = .next t) :
    t.sec = s.sec := by
  unfold execCtrlSnapshot at h
  cases h
  simp only [State.bump_sec, State.ctrlDone_sec, State.ctrlOver_sec, apply_ite State.sec, ite_self, implies_true]

theorem execCtrlGroupReset_sec (initiator group : Nat) (s : State) (t : State) (h : execCtrlGroupReset initiator group s = .next t) :
    t.sec = s.sec := by
  unfold execCtrlGroupReset at h
  cases h
  simp only [State.bump_sec, State.ctrlDone_sec, State.ctrlOver_sec, State.groupReset_sec, apply_ite State.sec, ite_self, implies_true]

theorem execCommitTimer_sec (s : State) (t : State) (h : execCommitTimer s = .next t) :
    t.sec = s.sec := by
  unfold execCommitTimer at h
  cases h
  simp only [State.commit_sec, apply_ite State.sec, ite_self, implies_true]

theorem execAllowanceTick_sec (s : State) (t : State) (h : execAllowanceTick s = .next t) :
    t.sec = s.sec := by
  unfold execAllowanceTick at h
  cases h
  simp only [apply_ite State.sec, ite_self, implies_true]

theorem execWindowRoll_sec (s : State) (t : State) (h : execWindowRoll s = .next t) :
    t.sec = s.sec := by
  unfold execWindowRoll at h
  cases h
  simp only [apply_ite State.sec, ite_self, implies_true]

theorem execNandScrub_sec (block finding : Nat) (s : State) (t : State) (h : execNandScrub block finding s = .next t) :
    t.sec = s.sec := by
  unfold execNandScrub at h
  cases h
  (repeat' (first | with_reducible rfl | split)) <;> simp only [State.bump_sec, State.pageLost_sec, apply_ite State.sec, ite_self, implies_true]

theorem execStoreAll_sec (value : Nat) (s : State) (t : State) (h : execStoreAll value s = .next t) :
    t.sec = s.sec := by
  unfold execStoreAll at h
  cases h
  simp only [State.trigger_sec, applyStoreAll_sec, apply_ite State.sec, ite_self, implies_true]

theorem execRestoreDefaults_sec (value : Nat) (s : State) (t : State) (h : execRestoreDefaults value s = .next t) :
    t.sec = s.sec := by
  unfold execRestoreDefaults at h
  cases h
  simp only [State.trigger_sec, applyRestore_sec, apply_ite State.sec, ite_self, implies_true]

theorem execFaultClear_sec (value : Nat) (s : State) (t : State) (h : execFaultClear value s = .next t) :
    t.sec = s.sec := by
  unfold execFaultClear at h
  cases h
  simp only [State.trigger_sec, applyFaultClear_sec, apply_ite State.sec, ite_self, implies_true]

theorem execFenceUnit_sec (value : Nat) (s : State) (t : State) (h : execFenceUnit value s = .next t) :
    t.sec = s.sec := by
  unfold execFenceUnit at h
  cases h
  simp only [State.trigger_sec, applyFence_sec, apply_ite State.sec, ite_self, implies_true]

theorem execClearFence_sec (value : Nat) (s : State) (t : State) (h : execClearFence value s = .next t) :
    t.sec = s.sec := by
  unfold execClearFence at h
  cases h
  simp only [State.trigger_sec, applyFence_sec, apply_ite State.sec, ite_self, implies_true]

theorem execFenceWindow_sec (region : Nat) (s : State) (t : State) (h : execFenceWindow region s = .next t) :
    t.sec = s.sec := by
  unfold execFenceWindow at h
  cases h
  simp only [apply_ite State.sec, ite_self, implies_true]

theorem execCellWatchdog_sec (cell : Nat) (s : State) (t : State) (h : execCellWatchdog cell s = .next t) :
    t.sec = s.sec := by
  unfold execCellWatchdog at h
  cases h
  simp only [State.post_sec, State.engineReset_sec, apply_ite State.sec, ite_self, implies_true]

theorem execEngineWatchdog_sec (unit : Nat) (s : State) (t : State) (h : execEngineWatchdog unit s = .next t) :
    t.sec = s.sec := by
  unfold execEngineWatchdog at h
  cases h
  simp only [State.post_sec, State.engineReset_sec, apply_ite State.sec, ite_self, implies_true]

theorem execPartitionWatchdog_sec (region : Nat) (s : State) (t : State) (h : execPartitionWatchdog region s = .next t) :
    t.sec = s.sec := by
  unfold execPartitionWatchdog at h
  cases h
  simp only [State.post_sec, State.resetPart_sec, apply_ite State.sec, ite_self, implies_true]

theorem execUncorrectableCellState_sec (cell laneGroup : Nat) (s : State) (t : State) (h : execUncorrectableCellState cell laneGroup s = .next t) :
    t.sec = s.sec := by
  unfold execUncorrectableCellState at h
  cases h
  simp only [State.bump_sec, State.setCell_sec, State.post_sec, State.raise_sec, State.fenceNow_sec, State.engineReset_sec, State.marTasks_sec, apply_ite State.sec, ite_self, implies_true]

theorem execEngineResetOverrun_sec (unit : Nat) (s : State) (t : State) (h : execEngineResetOverrun unit s = .next t) :
    t.sec = s.sec := by
  unfold execEngineResetOverrun at h
  cases h
  simp only [State.fenceNow_sec, apply_ite State.sec, ite_self, implies_true]

theorem execAnnealComplete_sec (partition : Nat) (s : State) (t : State) (h : execAnnealComplete partition s = .next t) :
    t.sec = s.sec := by
  unfold execAnnealComplete at h
  cases h
  simp only [State.anneal_sec, apply_ite State.sec, ite_self, implies_true]

theorem execDebugDataRead_sec (s : State) (t : State) (h : execDebugDataRead s = .next t) :
    t.sec = s.sec := by
  unfold execDebugDataRead at h
  cases h
  simp only [State.bump_sec, State.abort_sec, State.upload_sec, State.sawPoison_sec, apply_ite State.sec, ite_self, implies_true]

theorem execDebugDataWrite_sec (data : Bytes) (s : State) (t : State) (h : execDebugDataWrite data s = .next t) :
    t.sec = s.sec := by
  unfold execDebugDataWrite at h
  cases h
  simp only [State.abort_sec, State.answerWrite_sec, applyDebugWrite_sec, apply_ite State.sec, ite_self, implies_true]

theorem execPowerFull_sec (value : Nat) (s : State) (t : State) (h : execPowerFull value s = .next t) :
    t.sec = s.sec := by
  unfold execPowerFull at h
  cases h
  simp only [State.writePower_sec, apply_ite State.sec, ite_self, implies_true]

theorem execPowerTrim_sec (value : Nat) (s : State) (t : State) (h : execPowerTrim value s = .next t) :
    t.sec = s.sec := by
  unfold execPowerTrim at h
  cases h
  simp only [State.writePower_sec, apply_ite State.sec, ite_self, implies_true]

theorem execPowerHold_sec (value : Nat) (s : State) (t : State) (h : execPowerHold value s = .next t) :
    t.sec = s.sec := by
  unfold execPowerHold at h
  cases h
  simp only [State.writePower_sec, apply_ite State.sec, ite_self, implies_true]

theorem execPowerFall_sec (s : State) (t : State) (h : execPowerFall s = .next t) :
    t.sec = s.sec := by
  unfold execPowerFall at h
  cases h
  (repeat' (first | with_reducible rfl | split)) <;> simp only [State.bump_sec, State.drew_sec, State.raise_sec, State.watch_sec, State.powerLost_sec, apply_ite State.sec, ite_self, implies_true]

theorem execPerstRelease_sec (s : State) (t : State) (h : execPerstRelease s = .next t) :
    t.sec = s.sec := by
  unfold execPerstRelease at h
  cases h
  simp only [State.log_sec, State.enterBootstrap_sec, State.startUp_sec, apply_ite State.sec, ite_self, implies_true]

theorem execRefclk156Loss_sec (s : State) (t : State) (h : execRefclk156Loss s = .next t) :
    t.sec = s.sec := by
  unfold execRefclk156Loss at h
  cases h
  simp only [State.portsDown_sec, apply_ite State.sec, ite_self, implies_true]

theorem execRefclk156Return_sec (s : State) (t : State) (h : execRefclk156Return s = .next t) :
    t.sec = s.sec := by
  unfold execRefclk156Return at h
  cases h
  rfl

theorem execRefclk100Loss_sec (s : State) (t : State) (h : execRefclk100Loss s = .next t) :
    t.sec = s.sec := by
  unfold execRefclk100Loss at h
  cases h
  (repeat' (first | with_reducible rfl | split)) <;> simp only [apply_ite State.sec, ite_self, implies_true]

theorem execThermalWarning_sec (die device : Nat) (s : State) (t : State) (h : execThermalWarning die device s = .next t) :
    t.sec = s.sec := by
  unfold execThermalWarning at h
  cases h
  simp only [State.sense_sec, apply_ite State.sec, ite_self, implies_true]

theorem execThrottleStep_sec (die device power : Nat) (s : State) (t : State) (h : execThrottleStep die device power s = .next t) :
    t.sec = s.sec := by
  unfold execThrottleStep at h
  cases h
  simp only [State.sense_sec, apply_ite State.sec, ite_self, implies_true]

theorem execThermalTrip_sec (die device : Nat) (s : State) (t : State) (h : execThermalTrip die device s = .next t) :
    t.sec = s.sec := by
  unfold execThermalTrip at h
  cases h
  (repeat' (first | with_reducible rfl | split)) <;> simp only [State.portsDown_sec, State.powerLost_sec, State.sense_sec, apply_ite State.sec, ite_self, implies_true]

theorem execInputVoltageOutOfRange_sec (millivolts : Nat) (s : State) (t : State) (h : execInputVoltageOutOfRange millivolts s = .next t) :
    t.sec = s.sec := by
  unfold execInputVoltageOutOfRange at h
  cases h
  simp only [State.watch_sec, apply_ite State.sec, ite_self, implies_true]

theorem execFoeRead_sec (password : Nat) (name : Bytes) (s : State) (t : State) (h : execFoeRead password name s = .next t) :
    t.sec = s.sec := by
  unfold execFoeRead at h
  cases h
  (repeat' (first | with_reducible rfl | split)) <;> simp only [State.bump_sec, State.placeSm1_sec, State.foeError_sec, foldl_sec, apply_ite State.sec, ite_self, implies_true]

theorem execFoeWriteFirmware_sec (password readBack : Nat) (image : Bytes) (s : State) (t : State) (h : execFoeWriteFirmware password readBack image s = .next t) :
    t.sec = s.sec := by
  unfold execFoeWriteFirmware at h
  cases h
  simp only [State.foeError_sec, State.takeImage_sec, apply_ite State.sec, ite_self, implies_true]

theorem execActivateFirmware_sec (value : Nat) (s : State) (t : State) (h : execActivateFirmware value s = .next t) :
    t.sec = s.sec := by
  unfold execActivateFirmware at h
  cases h
  simp only [State.trigger_sec, applyActivate_sec, apply_ite State.sec, ite_self, implies_true]

theorem execPdoMapping_sec (index : Nat) (entries : List Nat) (s : State) (t : State) (h : execPdoMapping index entries s = .next t) :
    t.sec = s.sec := by
  unfold execPdoMapping at h
  cases h
  simp only [State.writePdo_sec, apply_ite State.sec, ite_self, implies_true]

theorem execLayoutCommit_sec (value : Nat) (s : State) (t : State) (h : execLayoutCommit value s = .next t) :
    t.sec = s.sec := by
  unfold execLayoutCommit at h
  cases h
  simp only [State.trigger_sec, applyLayout_sec, apply_ite State.sec, ite_self, implies_true]

theorem execSdoTransferTimeout_sec (s : State) (t : State) (h : execSdoTransferTimeout s = .next t) :
    t.sec = s.sec := by
  unfold execSdoTransferTimeout at h
  cases h
  (repeat' (first | with_reducible rfl | split)) <;> simp only [State.abort_sec, apply_ite State.sec, ite_self, implies_true]

theorem execSdoInformation_sec (op index sub : Nat) (s : State) (t : State) (h : execSdoInformation op index sub s = .next t) :
    t.sec = s.sec := by
  unfold execSdoInformation at h
  cases h
  (repeat' (first | with_reducible rfl | split)) <;> simp only [State.placeSm1_sec, apply_ite State.sec, ite_self, implies_true]

theorem execEthercatFrame_sec (port : Nat) (dgs : List EscDgram) (s : State) (t : State) (h : execEthercatFrame port dgs s = .next t) :
    t.sec = s.sec := by
  unfold execEthercatFrame at h
  cases h
  simp only [State.datagram_sec, foldl_sec, apply_ite State.sec, ite_self, implies_true]

theorem execEthercatLinkLoss_sec (port : Nat) (s : State) (t : State) (h : execEthercatLinkLoss port s = .next t) :
    t.sec = s.sec := by
  unfold execEthercatLinkLoss at h
  cases h
  rfl

theorem execEthercatLinkUp_sec (port : Nat) (s : State) (t : State) (h : execEthercatLinkUp port s = .next t) :
    t.sec = s.sec := by
  unfold execEthercatLinkUp at h
  cases h
  simp only [apply_ite State.sec, ite_self, implies_true]

theorem execAlStateRequest_sec (state : Nat) (s : State) (t : State) (h : execAlStateRequest state s = .next t) :
    t.sec = s.sec := by
  unfold execAlStateRequest at h
  cases h
  simp [apply_ite State.sec]

theorem execSm2Watchdog_sec (s : State) (t : State) (h : execSm2Watchdog s = .next t) :
    t.sec = s.sec := by
  unfold execSm2Watchdog at h
  cases h
  simp only [State.bump_sec, apply_ite State.sec, ite_self, implies_true]

theorem execMailboxUnsupported_sec (protocol : Nat) (s : State) (t : State) (h : execMailboxUnsupported protocol s = .next t) :
    t.sec = s.sec := by
  unfold execMailboxUnsupported at h
  cases h
  simp only [State.placeSm1_sec, apply_ite State.sec, ite_self, implies_true]

theorem execPdoRefresh_sec (s : State) (t : State) (h : execPdoRefresh s = .next t) :
    t.sec = s.sec := by
  unfold execPdoRefresh at h
  cases h
  simp only [State.escPuts_sec, apply_ite State.sec, ite_self, implies_true]

/-! ### Operations and commands that act on the engine -/

theorem Fuses.grew_refl (a : Fuses) : a.grew a := ⟨rfl, rfl, rfl, Nat.le_refl _, Nat.le_refl _, id, fun _ => id⟩

theorem Fuses.grew_trans {a b c : Fuses} (h : a.grew b) (k : b.grew c) : a.grew c := by
  obtain ⟨h1, h2, h3, h4, h5, h6, h7⟩ := h
  obtain ⟨k1, k2, k3, k4, k5, k6, k7⟩ := k
  exact ⟨k1.trans h1, k2.trans h2, k3.trans h3, Nat.le_trans h4 k4, Nat.le_trans h5 k5, fun x => k6 (h6 x),
    fun i x => k7 i (h7 i x)⟩

theorem Security.leads_refl (a : Security) : a.leads a := ⟨Fuses.grew_refl _, id⟩

theorem Security.leads_trans {a b c : Security} (h : a.leads b) (k : b.leads c) : a.leads c :=
  ⟨Fuses.grew_trans h.1 k.1, fun x => k.2 (h.2 x)⟩

theorem Security.leads_of_eq {a b : Security} (h : b = a) : a.leads b := h ▸ Security.leads_refl a

/-- A change that touches neither the fuses, the level nor the count of refusals. -/
theorem Security.leads_same {a b : Security} (h : b.fuses = a.fuses) (l : b.level = a.level) (r : b.refusals = a.refusals) :
    a.leads b := by
  refine ⟨by rw [h]; exact Fuses.grew_refl _, ?_⟩
  unfold Security.ok
  rw [h, l, r]
  exact id

/-- A relock: the level that the lifecycle alone gives. -/
theorem Security.leads_relock {a b : Security} (h : b.fuses = a.fuses)
    (l : b.level = if a.fuses.lifecycle == 0 then 2 else 0) (r : b.refusals < 8 ∨ b.refusals = a.refusals) : a.leads b := by
  refine ⟨by rw [h]; exact Fuses.grew_refl _, ?_⟩
  unfold Security.ok
  rintro ⟨h1, h2, h3, h4, h5, h6⟩
  rw [h, l]
  refine ⟨by split <;> omega, h2, h3, by omega, h5, fun h0 => by simp [h0]⟩

theorem State.reload_leads (s : State) : s.sec.leads s.reload.sec := Security.leads_same rfl rfl rfl

theorem State.freeze_leads (s : State) (cause unit severity : Nat) (record hung : Bool) :
    s.sec.leads (s.freeze cause unit severity record hung).sec := by
  unfold State.freeze
  cases hung <;> cases record <;> simp [Security.leads_refl, State.reload_leads]

theorem State.unitsReset_leads (s : State) : s.sec.leads s.unitsReset.sec := by
  have h : s.unitsReset.sec.fuses = s.sec.fuses ∧ s.unitsReset.sec.refusals = s.sec.refusals ∧
      s.unitsReset.sec.level = (if s.sec.fuses.lifecycle == 0 then 2 else 0) := by
    unfold State.unitsReset
    dsimp only
    split <;> simp [apply_ite State.sec]
  exact Security.leads_relock h.1 h.2.2 (.inr h.2.1)

theorem State.chipReset_leads (s : State) (cause unit : Nat) (fault record hung : Bool) :
    s.sec.leads (s.chipReset cause unit fault record hung).sec := by
  have h : ∀ r : State, r.sec = s.sec → ∀ x : State, x.sec = (r.freeze cause unit 5 record hung).sec →
      s.sec.leads (x.unitsReset.startUp []).sec := by
    intro r hr x hx
    rw [State.startUp_sec]
    refine Security.leads_trans ?_ (State.unitsReset_leads x)
    rw [hx, ← hr]
    exact State.freeze_leads _ _ _ _ _ _
  unfold State.chipReset
  refine h (if fault then s.raise 3 cause else s) ?_ _ ?_
  · cases fault
    · rfl
    · exact State.raise_sec _ _ _
  · exact State.bump_sec ((if fault then s.raise 3 cause else s).freeze cause unit 5 record hung) 0x4003 4 1

theorem State.powerCycle_leads (s : State) (cause : Nat) : s.sec.leads (s.powerCycle cause).sec := by
  unfold State.powerCycle
  simp only [State.commit_sec]
  refine Security.leads_trans ?_ (State.freeze_leads _ _ _ _ _ _)
  simp [Security.leads_refl]

theorem State.writeReset_leads (s : State) (v : Nat) : s.sec.leads (s.writeReset v).sec := by
  have k : s.sec.leads (s.answerWrite 0x4040 1 false (s, 0)).sec := Security.leads_of_eq (by simp)
  unfold State.writeReset
  generalize s.answerWrite 0x4040 1 false (s, 0) = x at k
  split
  · exact Security.leads_refl _
  · split
    · exact Security.leads_of_eq (by simp)
    · dsimp only
      split
      · exact Security.leads_trans k (State.chipReset_leads _ _ _ _ _ _)
      · split
        · exact Security.leads_trans k (State.chipReset_leads _ _ _ _ _ _)
        · split
          · exact Security.leads_trans k (State.powerCycle_leads _ _)
          · rw [State.resetPart_sec]
            exact k

theorem State.perstReset_leads (s : State) : s.sec.leads s.perstReset.sec := by
  unfold State.perstReset
  simp only [State.resetRouter_sec]
  refine Security.leads_trans ?_ (State.unitsReset_leads _)
  simp only [State.bump_sec]
  exact State.freeze_leads _ _ _ _ _ _

theorem State.coldState_leads (s : State) (nandOk : Bool) : s.sec.leads (s.coldState nandOk).sec :=
  Security.leads_relock rfl rfl (.inl (show 0 < 8 by decide))

theorem State.refuseToken_leads (s : State) (code : Nat) : s.sec.leads (s.refuseToken code).sec := by
  unfold State.refuseToken
  simp only [State.bump_sec]
  refine ⟨Fuses.grew_refl _, ?_⟩
  rintro ⟨h1, h2, h3, h4, h5, h6⟩
  refine ⟨h1, h2, h3, ?_, h5, h6⟩
  dsimp only
  split <;> split at * <;> omega

theorem State.acceptToken_leads (s : State) : s.sec.leads s.acceptToken.sec := by
  unfold State.acceptToken
  simp only [State.bump_sec]
  refine ⟨Fuses.grew_refl _, ?_⟩
  rintro ⟨h1, h2, h3, h4, h5, h6⟩
  exact ⟨h1, h2, h3, (show 0 < 8 by decide), h5, h6⟩

@[simp] theorem State.acceptToken_fuses (s : State) : s.acceptToken.sec.fuses = s.sec.fuses := by
  simp [State.acceptToken]

theorem tokenAllowed_life {op life : Nat} (h : tokenAllowed op life = true) :
    life = 1 ∨ life = 2 ∨ life = 3 := by
  unfold tokenAllowed at h
  split at h <;> simp at h <;> omega

theorem firstCode_zero {l : List Nat} (h : firstCode l = 0) : ∀ c ∈ l, c = 0 := by
  induction l with
  | nil => simp
  | cons c l ih =>
    unfold firstCode at h
    split at h
    · rename_i hc
      intro d hd
      rcases List.mem_cons.mp hd with rfl | hd
      · simpa using hc
      · exact ih h d hd
    · rename_i hc
      simp [h] at hc

/-- A token whose checks all pass names an allowed operation and has no flaw. -/
theorem State.tokenCode_zero {s : State} {b : Bytes} (h : s.tokenCode b = 0) :
    tokenFlaw b = false ∧ tokenAllowed (leAt b 4 1) s.sec.fuses.lifecycle = true := by
  have h1 := firstCode_zero h
  have a := h1 _ List.mem_cons_self
  have b := h1 _ (List.mem_cons_of_mem _ (List.mem_cons_of_mem _ (List.mem_cons_of_mem _ (List.mem_cons_of_mem _ List.mem_cons_self))))
  constructor
  · by_contra hx
    simp [rule, hx] at a
  · by_contra hx
    simp [rule, hx] at b

theorem tokenFlaw_op {b : Bytes} (h : tokenFlaw b = false) : 1 ≤ leAt b 4 1 ∧ leAt b 4 1 ≤ 6 ∧
    (leAt b 4 1 = 6 → leAt b 6 1 ≤ 3) := by
  unfold tokenFlaw at h
  simp only [Bool.or_eq_false_iff] at h
  obtain ⟨⟨⟨⟨⟨⟨⟨⟨_, h1⟩, h2⟩, _⟩, _⟩, _⟩, _⟩, _⟩, h3⟩ := h
  simp at h1 h2
  refine ⟨by omega, by omega, fun h6 => ?_⟩
  simp [h6] at h3
  omega

/-- A token: what its operation does to the security engine, from a state in which the token was allowed. -/
theorem State.token_leads (s : State) (op : Nat) (b : Bytes) (blowOk : Bool) (f : State → State)
    (h : ∀ t : State, t.sec.fuses = s.sec.fuses → tokenFlaw b = false → leAt b 4 1 = op →
      tokenAllowed op s.sec.fuses.lifecycle = true → t.sec.leads (f t).sec) :
    s.sec.leads (s.token op b blowOk f).sec := by
  unfold State.token
  dsimp only
  split
  · exact Security.leads_refl _
  · split
    · exact Security.leads_of_eq (by simp)
    · split
      · exact Security.leads_refl _
      · rename_i hop
        have h0 : ∀ x : State, x.sec = { s.sec with challenge := none } → s.sec.leads x.sec := by
          intro x hx
          rw [hx]
          exact Security.leads_same rfl rfl rfl
        have k := h0 { s.answerWrite 0x5020 2 false (s, 0) with
          sec := { (s.answerWrite 0x5020 2 false (s, 0)).sec with challenge := none } } (by simp)
        split
        · exact Security.leads_trans k (State.refuseToken_leads _ _)
        · rename_i hc
          have hz : s.tokenCode b = 0 := by simpa using hc
          obtain ⟨hf, ha⟩ := State.tokenCode_zero hz
          have ho := tokenFlaw_op hf
          have hb : leAt b 4 1 = op := by
            by_contra hne
            simp [hne] at hop
            omega
          split
          · rw [State.blowFailed_sec]
            exact Security.leads_trans k (State.refuseToken_leads _ _)
          · refine Security.leads_trans (Security.leads_trans k (State.acceptToken_leads _)) (h _ ?_ hf hb (hb ▸ ha))
            simp

theorem State.eraseIdentity_leads (s : State) : s.sec.leads s.eraseIdentity.sec := by
  unfold State.eraseIdentity
  simp only [State.forceCommit_sec, State.restoreNow_sec]
  exact Security.leads_same rfl rfl rfl

@[simp] theorem State.eraseIdentity_fuses (s : State) : s.eraseIdentity.sec.fuses = s.sec.fuses := by
  unfold State.eraseIdentity
  simp

/-- A lifecycle change moves forward, and kills the secret as it reaches Scrapped. -/
theorem State.changeLife_leads (s : State) (new : Nat) (h : s.sec.fuses.lifecycle ≤ new) (h4 : new ≤ 4) (h0 : 1 ≤ new) :
    s.sec.leads (s.changeLife new).sec := by
  unfold State.changeLife
  dsimp only
  refine Security.leads_trans ?_ (State.chipReset_leads _ _ _ _ _ _)
  have k : s.sec.leads { s.sec with fuses := { s.sec.fuses with
      secretKilled := s.sec.fuses.secretKilled || new == 4
      lifecycle := new } } := by
    refine ⟨⟨rfl, rfl, rfl, h, Nat.le_refl _, fun x => by simp [x], fun _ => id⟩, ?_⟩
    rintro ⟨h1, h2, h3, h4', h5, h6⟩
    refine ⟨h1, h4, h3, h4', fun x => ?_, fun x => ?_⟩
    · simp [show new = 4 from x]
    · exact absurd (show new = 0 from x) (by omega)
  split
  · exact Security.leads_trans k (State.eraseIdentity_leads _)
  · exact k

/-- A change of the engine's own registers. -/
theorem State.bypass_leads (s : State) (code : Nat) (tdi : Bool) : s.sec.leads (s.bypass code tdi).sec :=
  Security.leads_same rfl rfl rfl

theorem State.tap_leads (s : State) (code : Nat) (f : State → State) (h : ∀ t : State, t.sec.leads (f t).sec) :
    s.sec.leads (s.tap code f).sec := by
  unfold State.tap
  split
  · exact Security.leads_refl _
  · split
    · exact Security.leads_trans (Security.leads_same rfl rfl rfl) (h _)
    · exact State.bypass_leads _ _ _

theorem State.raiseVersion_leads (s : State) (blowOk : Bool) : s.sec.leads (s.raiseVersion blowOk).1.sec := by
  unfold State.raiseVersion
  dsimp only
  (repeat' split) <;> first
    | exact Security.leads_refl _
    | (rename_i hv _
       refine ⟨⟨rfl, rfl, rfl, Nat.le_refl _, by dsimp only; omega, id, fun _ => id⟩, ?_⟩
       exact id)

theorem State.commitBlob_leads (s : State) (x : Identity) : s.sec.leads (s.commitBlob x).sec := by
  unfold State.commitBlob
  simp only [State.forceCommit_sec, State.journal_sec]
  exact Security.leads_same rfl rfl rfl

theorem State.provisioned_leads (s : State) (blowOk : Bool) : s.sec.leads (s.provisioned blowOk).1.sec := by
  unfold State.provisioned
  split
  · exact Security.leads_refl _
  · rename_i h0
    have hl : s.sec.fuses.lifecycle = 0 := by simpa using h0
    split
    · exact Security.leads_refl _
    · have k := State.commitBlob_leads s (s.makeIdentity 1)
      have kf : (s.commitBlob (s.makeIdentity 1)).sec.fuses = s.sec.fuses := by
        unfold State.commitBlob
        simp
      generalize s.commitBlob (s.makeIdentity 1) = x at k kf
      dsimp only
      split
      · exact k
      · simp only [State.setEnable_sec]
        refine Security.leads_trans k ?_
        refine ⟨⟨rfl, rfl, rfl, ?_, Nat.le_refl _, id, fun _ => id⟩, ?_⟩
        · dsimp only
          rw [kf]
          omega
        · rintro ⟨h1, h2, h3, h4, h5, h6⟩
          refine ⟨Nat.zero_le _, (show 1 ≤ 4 by decide), h3, h4, fun y => ?_, fun y => ?_⟩
          · exact absurd (show (1 : Nat) = 4 from y) (by decide)
          · exact absurd (show (1 : Nat) = 0 from y) (by decide)

theorem State.rotated_leads (s : State) : s.sec.leads s.rotated.1.sec := by
  unfold State.rotated
  split
  · dsimp only
    (repeat' split) <;> first
      | (simp only [State.bump_sec, State.forceCommit_sec, State.journal_sec]
         exact Security.leads_same rfl rfl rfl)
      | exact Security.leads_refl _
  · exact Security.leads_refl _

theorem applyNonce_leads (n : Bytes) (s : State) : s.sec.leads (applyNonce n s).1.sec := by
  unfold applyNonce
  (repeat' split) <;> first
    | exact Security.leads_refl _
    | exact Security.leads_same rfl rfl rfl

theorem State.answerWrite_leads (s : State) (idx sub : Nat) (commit : Bool) (r : Applied) (h : s.sec.leads r.1.sec) :
    s.sec.leads (s.answerWrite idx sub commit r).sec := by
  unfold State.answerWrite
  split
  · exact Security.leads_of_eq (by simp)
  · simpa using h

theorem State.trigger_leads (s : State) (idx sub : Nat) (commit : Bool) (lo hi value : Nat) (f : State → Applied)
    (h : s.sec.leads (f s).1.sec) : s.sec.leads (s.trigger idx sub commit lo hi value f).sec := by
  unfold State.trigger
  split
  · exact Security.leads_refl _
  · apply State.answerWrite_leads
    split
    · exact Security.leads_refl _
    · exact h

theorem applyRelock_leads (s : State) : s.sec.leads (applyRelock s).1.sec := by
  unfold applyRelock
  split
  · exact Security.leads_refl _
  · exact Security.leads_relock rfl rfl (.inr rfl)

/-! ### Commands -/

theorem execResetPartition_leads (value : Nat) (s t : State) (h : execResetPartition value s = .next t) : s.sec.leads t.sec := by
  cases h
  split
  · exact Security.leads_refl _
  · exact State.writeReset_leads _ _

theorem execResetChip_leads (value : Nat) (s t : State) (h : execResetChip value s = .next t) : s.sec.leads t.sec := by
  cases h
  split
  · exact State.writeReset_leads _ _
  · exact Security.leads_refl _

theorem execResetChipCullet_leads (value : Nat) (s t : State) (h : execResetChipCullet value s = .next t) :
    s.sec.leads t.sec := by
  cases h
  split
  · exact State.writeReset_leads _ _
  · exact Security.leads_refl _

theorem execResetPowerCycle_leads (value : Nat) (s t : State) (h : execResetPowerCycle value s = .next t) :
    s.sec.leads t.sec := by
  cases h
  split
  · exact State.writeReset_leads _ _
  · exact Security.leads_refl _

theorem execCoreWatchdog_leads (core : Nat) (s t : State) (h : execCoreWatchdog core s = .next t) : s.sec.leads t.sec := by
  cases h
  split
  · exact Security.leads_refl _
  · refine Security.leads_trans (Security.leads_of_eq ?_) (State.chipReset_leads _ _ _ _ _ _)
    simp

theorem execAnnealOverrun_leads (p : Nat) (s t : State) (h : execAnnealOverrun p s = .next t) : s.sec.leads t.sec := by
  cases h
  split
  · refine Security.leads_trans (Security.leads_of_eq ?_) (State.chipReset_leads _ _ _ _ _ _)
    simp
  · exact Security.leads_refl _

theorem execChipResetTimeout_leads (s t : State) (h : execChipResetTimeout s = .next t) : s.sec.leads t.sec := by
  cases h
  split
  · exact Security.leads_refl _
  · split
    · have k := State.chipReset_leads s s.faults.lastCause (unitCore 0) true true false
      generalize s.chipReset s.faults.lastCause (unitCore 0) true true false = x at k ⊢
      exact k
    · have k := State.powerCycle_leads s 0x04FB
      generalize s.powerCycle 0x04FB = x at k ⊢
      exact k

theorem execTrngHealthFail_leads (s t : State) (h : execTrngHealthFail s = .next t) : s.sec.leads t.sec := by
  cases h
  rw [State.watch_sec]
  exact Security.leads_same rfl rfl rfl

theorem execTrngResume_leads (s t : State) (h : execTrngResume s = .next t) : s.sec.leads t.sec := by
  cases h
  rw [State.watch_sec]
  exact Security.leads_same rfl rfl rfl

theorem execChallenge_leads (s t : State) (h : execChallenge s = .next t) : s.sec.leads t.sec := by
  cases h
  (repeat' split) <;> first
    | exact Security.leads_refl _
    | (rw [State.abort_sec]; exact Security.leads_refl _)
    | (dsimp only; rw [State.upload_sec]; exact Security.leads_same rfl rfl rfl)

theorem execChallengeLockoutEnd_leads (s t : State) (h : execChallengeLockoutEnd s = .next t) : s.sec.leads t.sec := by
  cases h
  exact Security.leads_same rfl rfl rfl

/-- An unlock: its level is set, and no token is accepted in Blank. -/
theorem unlock_leads (s t : State) (n : Nat) (hn : n ≤ 2) (hf : t.sec.fuses = s.sec.fuses)
    (ha : s.sec.fuses.lifecycle = 1 ∨ s.sec.fuses.lifecycle = 2 ∨ s.sec.fuses.lifecycle = 3) :
    t.sec.leads { t.sec with level := n } := by
  refine ⟨Fuses.grew_refl _, ?_⟩
  rintro ⟨h1, h2, h3, h4, h5, h6⟩
  refine ⟨hn, h2, h3, h4, h5, fun y => ?_⟩
  have : t.sec.fuses.lifecycle = 0 := y
  rw [hf] at this
  omega

theorem execUnlockObserve_leads (b : Bytes) (s t : State) (h : execUnlockObserve b s = .next t) : s.sec.leads t.sec := by
  cases h
  exact State.token_leads _ _ _ _ _ (fun t hf _ _ ha => unlock_leads s t 1 (by decide) hf (tokenAllowed_life ha))

theorem execUnlockFull_leads (b : Bytes) (s t : State) (h : execUnlockFull b s = .next t) : s.sec.leads t.sec := by
  cases h
  exact State.token_leads _ _ _ _ _ (fun t hf _ _ ha => unlock_leads s t 2 (by decide) hf (tokenAllowed_life ha))

theorem execToField_leads (b : Bytes) (k : Bool) (s t : State) (h : execToField b k s = .next t) : s.sec.leads t.sec := by
  cases h
  refine State.token_leads _ _ _ _ _ (fun t hf _ _ ha => State.changeLife_leads t 2 ?_ (by decide) (by decide))
  have : s.sec.fuses.lifecycle = 1 := by simpa [tokenAllowed] using ha
  rw [hf]
  omega

theorem execToReturned_leads (b : Bytes) (k : Bool) (s t : State) (h : execToReturned b k s = .next t) : s.sec.leads t.sec := by
  cases h
  refine State.token_leads _ _ _ _ _ (fun t hf _ _ ha => State.changeLife_leads t 3 ?_ (by decide) (by decide))
  have : s.sec.fuses.lifecycle = 2 := by simpa [tokenAllowed] using ha
  rw [hf]
  omega

theorem execToScrapped_leads (b : Bytes) (k : Bool) (s t : State) (h : execToScrapped b k s = .next t) : s.sec.leads t.sec := by
  cases h
  refine State.token_leads _ _ _ _ _ (fun t hf _ _ ha => State.changeLife_leads t 4 ?_ (by decide) (by decide))
  have := tokenAllowed_life ha
  rw [hf]
  omega

/-- Setting a bit clears none. -/
theorem bit_setBit_true (v i j : Nat) (h : bit v j = true) : bit (setBit v i true) j = true := by
  simp only [bit, setBit, setBits, bits, beq_iff_eq, if_true, pow_one] at h ⊢
  rcases Nat.mod_two_eq_zero_or_one (v / 2 ^ i) with h0 | h1
  · rw [h0]
    simp only [Nat.zero_mul, Nat.sub_zero]
    rcases Nat.lt_trichotomy j i with hj | hj | hj
    · obtain ⟨k, rfl⟩ : ∃ k, i = j + (k + 1) := ⟨i - j - 1, by omega⟩
      rw [show 1 % 2 * 2 ^ (j + (k + 1)) = 2 ^ j * (2 * 2 ^ k) by ring, Nat.add_mul_div_left _ _ (by positivity)]
      omega
    · subst hj
      omega
    · obtain ⟨k, rfl⟩ : ∃ k, j = i + (1 + k) := ⟨j - i - 1, by omega⟩
      have e : ∀ w : Nat, w / 2 ^ (i + (1 + k)) = w / 2 ^ i / 2 / 2 ^ k := by
        intro w
        rw [Nat.div_div_eq_div_mul, Nat.div_div_eq_div_mul, Nat.pow_add, Nat.pow_add, Nat.pow_one]
      rw [e] at h ⊢
      rw [show v + 1 % 2 * 2 ^ i = v + 2 ^ i * 1 by ring, Nat.add_mul_div_left _ _ (by positivity)]
      rw [show (v / 2 ^ i + 1) / 2 = v / 2 ^ i / 2 by omega]
      exact h
  · rw [h1]
    have : 2 ^ i ≤ v := by
      by_contra hlt
      rw [Nat.div_eq_of_lt (by omega)] at h1
      omega
    rw [show v - 1 * 2 ^ i + 1 % 2 * 2 ^ i = v by omega]
    exact h

/-- Blowing one of the four revocation bits. -/
theorem revoke_leads (x : Security) (i : Nat) (hi : i ≤ 3) :
    x.leads { x with fuses := { x.fuses with revoked := setBit x.fuses.revoked i true } } := by
  refine ⟨⟨rfl, rfl, rfl, Nat.le_refl _, Nat.le_refl _, id, fun j hj => ?_⟩, ?_⟩
  · exact bit_setBit_true x.fuses.revoked i j hj
  · rintro ⟨h1, h2, h3, h4, h5, h6⟩
    refine ⟨h1, h2, ?_, h4, h5, h6⟩
    show setBit x.fuses.revoked i true < 16
    generalize x.fuses.revoked = v at h3
    interval_cases i <;> simp [setBit, setBits, bits] <;> omega

theorem execRevoke_leads (b : Bytes) (k : Bool) (s t : State) (h : execRevoke b k s = .next t) : s.sec.leads t.sec := by
  cases h
  exact State.token_leads _ _ _ _ _ (fun t _ hf hb _ => revoke_leads t.sec _ ((tokenFlaw_op hf).2.2 hb))

theorem execRaiseSecurityVersion_leads (value : Nat) (k : Bool) (s t : State) (h : execRaiseSecurityVersion value k s = .next t) :
    s.sec.leads t.sec := by
  cases h
  split
  · refine Security.leads_trans (Security.leads_of_eq ?_) (State.trigger_leads _ _ _ _ _ _ _ _ (State.raiseVersion_leads _ _))
    simp
  · exact State.trigger_leads _ _ _ _ _ _ _ _ (State.raiseVersion_leads _ _)

theorem execProvision_leads (value : Nat) (k : Bool) (s t : State) (h : execProvision value k s = .next t) :
    s.sec.leads t.sec := by
  cases h
  split
  · exact Security.leads_refl _
  · dsimp only
    split
    · rw [State.abort_sec, State.blowFailed_sec]
      exact State.provisioned_leads _ _
    · exact State.trigger_leads _ _ _ _ _ _ _ _ (State.provisioned_leads _ _)

theorem execProvisionScrap_leads (value : Nat) (k : Bool) (s t : State) (h : execProvisionScrap value k s = .next t) :
    s.sec.leads t.sec := by
  cases h
  split
  · exact Security.leads_refl _
  · split
    · exact Security.leads_of_eq (by simp)
    · split
      · exact Security.leads_of_eq (by simp)
      · rename_i h0
        have hl : s.sec.fuses.lifecycle = 0 := by simpa using h0
        split
        · exact Security.leads_of_eq (by simp)
        · refine Security.leads_trans (Security.leads_of_eq ?_) (State.changeLife_leads _ 4 ?_ (by decide) (by decide))
          · simp
          · simp [hl]

theorem execRotateIdentity_leads (value : Nat) (s t : State) (h : execRotateIdentity value s = .next t) : s.sec.leads t.sec := by
  cases h
  exact State.trigger_leads _ _ _ _ _ _ _ _ (State.rotated_leads _)

theorem execAttestNonce_leads (n : Bytes) (s t : State) (h : execAttestNonce n s = .next t) : s.sec.leads t.sec := by
  cases h
  split
  · exact Security.leads_refl _
  · split
    · exact Security.leads_of_eq (by simp)
    · exact State.answerWrite_leads _ _ _ _ _ (applyNonce_leads _ _)

theorem execAttestReportReady_leads (s t : State) (h : execAttestReportReady s = .next t) : s.sec.leads t.sec := by
  unfold execAttestReportReady at h
  cases h
  split
  · split
    · exact Security.leads_refl _
    · dsimp only
      rw [State.bump_sec]
      exact Security.leads_same rfl rfl rfl
  · exact Security.leads_refl _

theorem execRelock_leads (value : Nat) (s t : State) (h : execRelock value s = .next t) : s.sec.leads t.sec := by
  cases h
  exact State.trigger_leads _ _ _ _ _ _ _ _ (applyRelock_leads _)

theorem State.pins_leads (s : State) : s.sec.leads s.pins.sec := Security.leads_same rfl rfl rfl

theorem execExtest_leads (n : Nat) (s t : State) (h : execExtest n s = .next t) : s.sec.leads t.sec := by
  cases h
  refine State.tap_leads _ _ _ (fun t => ?_)
  rw [State.linksDown_sec]
  exact Security.leads_same rfl rfl rfl

theorem execIdcode_leads (s t : State) (h : execIdcode s = .next t) : s.sec.leads t.sec := by
  cases h
  exact State.tap_leads _ _ _ (fun t => Security.leads_same rfl rfl rfl)

theorem execSamplePreload_leads (n : Nat) (s t : State) (h : execSamplePreload n s = .next t) : s.sec.leads t.sec := by
  cases h
  exact State.tap_leads _ _ _ (fun t => Security.leads_same rfl rfl rfl)

theorem execScanread_leads (n : Nat) (s t : State) (h : execScanread n s = .next t) : s.sec.leads t.sec := by
  cases h
  exact State.tap_leads _ _ _ (fun t => Security.leads_same rfl rfl rfl)

theorem execScanwrite_leads (n : Nat) (d : Bytes) (s t : State) (h : execScanwrite n d s = .next t) : s.sec.leads t.sec := by
  cases h
  refine State.tap_leads _ _ _ (fun t => ?_)
  split
  · exact Security.leads_same rfl rfl rfl
  · exact Security.leads_refl _

theorem execCorehalt_leads (n : Nat) (k : Bool) (s t : State) (h : execCorehalt n k s = .next t) : s.sec.leads t.sec := by
  cases h
  refine State.tap_leads _ _ _ (fun t => ?_)
  split
  · exact Security.leads_refl _
  · exact Security.leads_same rfl rfl rfl

theorem execBypass_leads (n : Nat) (k : Bool) (s t : State) (h : execBypass n k s = .next t) : s.sec.leads t.sec := by
  cases h
  split
  · exact Security.leads_refl _
  · exact State.bypass_leads _ _ _

theorem execTapReset_leads (s t : State) (h : execTapReset s = .next t) : s.sec.leads t.sec := by
  cases h
  exact Security.leads_same rfl rfl rfl

theorem execPowerReturn_leads (s t : State) (h : execPowerReturn s = .next t) : s.sec.leads t.sec := by
  cases h
  split
  · exact Security.leads_refl _
  · dsimp only
    split
    · refine Security.leads_trans (Security.leads_of_eq ?_) (State.perstReset_leads _)
      rfl
    · refine Security.leads_trans (Security.leads_of_eq ?_) (State.chipReset_leads _ _ _ _ _ _)
      rfl

theorem execPowerOn_leads (k : Bool) (l : List Nat) (s t : State) (h : execPowerOn k l s = .next t) : s.sec.leads t.sec := by
  cases h
  split
  · exact Security.leads_refl _
  · dsimp only
    rw [State.coldStart_sec, State.watch_sec]
    dsimp only
    rw [State.routerStart_sec]
    refine Security.leads_trans ?_ (State.reload_leads _)
    refine Security.leads_trans (Security.leads_of_eq ?_) (State.coldState_leads _ _)
    rfl

theorem execPerst_leads (s t : State) (h : execPerst s = .next t) : s.sec.leads t.sec := by
  cases h
  dsimp only
  split
  · exact Security.leads_refl _
  · split
    · exact State.perstReset_leads ({ s with board := { s.board with perstLow := true } } : State)
    · exact State.perstReset_leads ({ s with board := { s.board with perstLow := true } } : State)
    · exact State.perstReset_leads ({ s with board := { s.board with perstLow := true } } : State)
    · dsimp only
      rw [State.routerStart_sec]
      exact Security.leads_trans (State.coldState_leads ({ s with board := { s.board with perstLow := true } } : State) _)
        (State.reload_leads _)
    · exact Security.leads_refl _


theorem Out.state_leads (o : Out) (s : State) (h : ∀ t, o = .next t → s.sec.leads t.sec) : s.sec.leads (o.state s).sec := by
  cases o with
  | next t => exact h t rfl
  | fault f => exact Security.leads_refl _
  | refused r => exact Security.leads_refl _

theorem State.rowWrite_leads (s : State) (e : Entry) (b : Bytes) : s.sec.leads (s.rowWrite e b).sec := by
  unfold State.rowWrite
  dsimp only
  split
  · exact Out.state_leads _ s fun t h => Security.leads_of_eq (execRetrainRequest_sec _ s t h)
  · exact Out.state_leads _ s fun t h => Security.leads_of_eq (execSuspendContext_sec _ s t h)
  · exact Out.state_leads _ s fun t h => Security.leads_of_eq (execResumeContext_sec _ s t h)
  · exact Out.state_leads _ s fun t h => Security.leads_of_eq (execSuspendPartition_sec _ s t h)
  · exact Out.state_leads _ s fun t h => Security.leads_of_eq (execNodeCommit_sec _ s t h)
  · exact Out.state_leads _ s fun t h => Security.leads_of_eq (execRouterReset_sec _ s t h)
  · exact Out.state_leads _ s fun t h => Security.leads_of_eq (execFaultClear_sec _ s t h)
  · exact State.writeReset_leads _ _
  · exact Out.state_leads _ s (execRaiseSecurityVersion_leads _ _ s)
  · exact Out.state_leads _ s (execRotateIdentity_leads _ s)
  · split
    · exact Out.state_leads _ s (execProvisionScrap_leads _ _ s)
    · exact Out.state_leads _ s (execProvision_leads _ _ s)
  · exact Out.state_leads _ s (execAttestNonce_leads _ s)
  · split
    · exact Out.state_leads _ s (execUnlockFull_leads _ s)
    · split
      · exact Out.state_leads _ s (execToField_leads _ _ s)
      · split
        · exact Out.state_leads _ s (execToReturned_leads _ _ s)
        · split
          · exact Out.state_leads _ s (execToScrapped_leads _ _ s)
          · split
            · exact Out.state_leads _ s (execRevoke_leads _ _ s)
            · exact Out.state_leads _ s (execUnlockObserve_leads _ s)
  · exact Out.state_leads _ s (execRelock_leads _ s)
  · exact Out.state_leads _ s fun t h => Security.leads_of_eq (execDebugDataWrite_sec _ s t h)
  · exact Security.leads_of_eq (State.writePower_sec _ _ _)
  · exact Out.state_leads _ s fun t h => Security.leads_of_eq (execActivateFirmware_sec _ s t h)
  · refine Security.leads_of_eq ?_
    simp

theorem State.download_leads (s : State) (idx sub : Nat) (b : Bytes) : s.sec.leads (s.download idx sub b).sec := by
  unfold State.download
  split
  · exact Security.leads_of_eq (by simp)
  · split
    · exact Security.leads_of_eq (by simp)
    · split
      · exact Security.leads_of_eq (by simp)
      · split
        · exact State.rowWrite_leads _ _ _
        · exact Security.leads_of_eq (by simp)

theorem State.uploadOne_leads (s : State) (idx sub : Nat) : s.sec.leads (s.uploadOne idx sub).sec := by
  unfold State.uploadOne
  split
  · split
    · exact Security.leads_of_eq (by simp)
    · exact Security.leads_of_eq (by simp)
  · split
    · exact Security.leads_of_eq (by simp)
    · split
      · exact Out.state_leads _ s (execChallenge_leads s)
      · split
        · exact Out.state_leads _ s fun t h => Security.leads_of_eq (execDebugDataRead_sec s t h)
        · dsimp only
          split
          · exact Security.leads_of_eq (by simp)
          · exact Security.leads_of_eq (by simp)

theorem execSdoDownload_leads (i j : Nat) (k : Bool) (b : Bytes) (s t : State) (h : execSdoDownload i j k b s = .next t) :
    s.sec.leads t.sec := by
  cases h
  split
  · exact Security.leads_refl _
  · split
    · exact Security.leads_of_eq (by simp)
    · split
      · exact Security.leads_of_eq (by simp)
      · exact State.download_leads _ _ _ _

theorem execDictWrite_leads (i j : Nat) (b : Bytes) (s t : State) (h : execDictWrite i j b s = .next t) : s.sec.leads t.sec := by
  cases h
  split
  · exact Security.leads_refl _
  · split
    · split
      · exact Security.leads_refl _
      · exact State.download_leads _ _ _ _
    · exact State.download_leads _ _ _ _

theorem execSdoUpload_leads (i j : Nat) (k : Bool) (s t : State) (h : execSdoUpload i j k s = .next t) : s.sec.leads t.sec := by
  cases h
  split
  · exact Security.leads_refl _
  · split
    · refine Security.leads_of_eq ?_
      simp [apply_ite State.sec]
    · split
      · exact Security.leads_of_eq (by simp)
      · exact State.uploadOne_leads _ _ _

end Sys2Proof.Machine
end

