-- ==== Sys2Proof/Laws/State.lean ====
section
/-! SUPPORT. State: for each named update, every field that it leaves alone. -/

namespace Sys2Proof.Machine
open Sys2Proof

@[simp] theorem State.dset_keeps_epoch (s : State) (i j v : Nat) : (s.dset i j v).epoch = s.epoch := rfl
@[simp] theorem State.dset_keeps_staged (s : State) (i j v : Nat) : (s.dset i j v).staged = s.staged := rfl
@[simp] theorem State.dset_keeps_tele (s : State) (i j v : Nat) : (s.dset i j v).tele = s.tele := rfl
@[simp] theorem State.dset_keeps_mem (s : State) (i j v : Nat) : (s.dset i j v).mem = s.mem := rfl
@[simp] theorem State.dset_keeps_office (s : State) (i j v : Nat) : (s.dset i j v).office = s.office := rfl
@[simp] theorem State.dset_keeps_cs (s : State) (i j v : Nat) : (s.dset i j v).cs = s.cs := rfl
@[simp] theorem State.dset_keeps_fabric (s : State) (i j v : Nat) : (s.dset i j v).fabric = s.fabric := rfl
@[simp] theorem State.dset_keeps_coll (s : State) (i j v : Nat) : (s.dset i j v).coll = s.coll := rfl
@[simp] theorem State.dset_keeps_intake (s : State) (i j v : Nat) : (s.dset i j v).intake = s.intake := rfl
@[simp] theorem State.dset_keeps_codec (s : State) (i j v : Nat) : (s.dset i j v).codec = s.codec := rfl
@[simp] theorem State.dset_keeps_net (s : State) (i j v : Nat) : (s.dset i j v).net = s.net := rfl
@[simp] theorem State.dset_keeps_ecat (s : State) (i j v : Nat) : (s.dset i j v).ecat = s.ecat := rfl
@[simp] theorem State.dset_keeps_store (s : State) (i j v : Nat) : (s.dset i j v).store = s.store := rfl
@[simp] theorem State.dset_keeps_faults (s : State) (i j v : Nat) : (s.dset i j v).faults = s.faults := rfl
@[simp] theorem State.dset_keeps_board (s : State) (i j v : Nat) : (s.dset i j v).board = s.board := rfl

@[simp] theorem State.bump_keeps_epoch (s : State) (i j n : Nat) : (s.bump i j n).epoch = s.epoch := rfl
@[simp] theorem State.bump_keeps_dict (s : State) (i j n : Nat) : (s.bump i j n).dict = s.dict := rfl
@[simp] theorem State.bump_keeps_staged (s : State) (i j n : Nat) : (s.bump i j n).staged = s.staged := rfl
@[simp] theorem State.bump_keeps_mem (s : State) (i j n : Nat) : (s.bump i j n).mem = s.mem := rfl
@[simp] theorem State.bump_keeps_office (s : State) (i j n : Nat) : (s.bump i j n).office = s.office := rfl
@[simp] theorem State.bump_keeps_cs (s : State) (i j n : Nat) : (s.bump i j n).cs = s.cs := rfl
@[simp] theorem State.bump_keeps_fabric (s : State) (i j n : Nat) : (s.bump i j n).fabric = s.fabric := rfl
@[simp] theorem State.bump_keeps_coll (s : State) (i j n : Nat) : (s.bump i j n).coll = s.coll := rfl
@[simp] theorem State.bump_keeps_intake (s : State) (i j n : Nat) : (s.bump i j n).intake = s.intake := rfl
@[simp] theorem State.bump_keeps_codec (s : State) (i j n : Nat) : (s.bump i j n).codec = s.codec := rfl
@[simp] theorem State.bump_keeps_net (s : State) (i j n : Nat) : (s.bump i j n).net = s.net := rfl
@[simp] theorem State.bump_keeps_ecat (s : State) (i j n : Nat) : (s.bump i j n).ecat = s.ecat := rfl
@[simp] theorem State.bump_keeps_store (s : State) (i j n : Nat) : (s.bump i j n).store = s.store := rfl
@[simp] theorem State.bump_keeps_faults (s : State) (i j n : Nat) : (s.bump i j n).faults = s.faults := rfl
@[simp] theorem State.bump_keeps_board (s : State) (i j n : Nat) : (s.bump i j n).board = s.board := rfl

@[simp] theorem State.setCount_keeps_epoch (s : State) (i j n : Nat) : (s.setCount i j n).epoch = s.epoch := rfl
@[simp] theorem State.setCount_keeps_dict (s : State) (i j n : Nat) : (s.setCount i j n).dict = s.dict := rfl
@[simp] theorem State.setCount_keeps_staged (s : State) (i j n : Nat) : (s.setCount i j n).staged = s.staged := rfl
@[simp] theorem State.setCount_keeps_mem (s : State) (i j n : Nat) : (s.setCount i j n).mem = s.mem := rfl
@[simp] theorem State.setCount_keeps_office (s : State) (i j n : Nat) : (s.setCount i j n).office = s.office := rfl
@[simp] theorem State.setCount_keeps_cs (s : State) (i j n : Nat) : (s.setCount i j n).cs = s.cs := rfl
@[simp] theorem State.setCount_keeps_fabric (s : State) (i j n : Nat) : (s.setCount i j n).fabric = s.fabric := rfl
@[simp] theorem State.setCount_keeps_coll (s : State) (i j n : Nat) : (s.setCount i j n).coll = s.coll := rfl
@[simp] theorem State.setCount_keeps_intake (s : State) (i j n : Nat) : (s.setCount i j n).intake = s.intake := rfl
@[simp] theorem State.setCount_keeps_codec (s : State) (i j n : Nat) : (s.setCount i j n).codec = s.codec := rfl
@[simp] theorem State.setCount_keeps_net (s : State) (i j n : Nat) : (s.setCount i j n).net = s.net := rfl
@[simp] theorem State.setCount_keeps_ecat (s : State) (i j n : Nat) : (s.setCount i j n).ecat = s.ecat := rfl
@[simp] theorem State.setCount_keeps_store (s : State) (i j n : Nat) : (s.setCount i j n).store = s.store := rfl
@[simp] theorem State.setCount_keeps_faults (s : State) (i j n : Nat) : (s.setCount i j n).faults = s.faults := rfl
@[simp] theorem State.setCount_keeps_board (s : State) (i j n : Nat) : (s.setCount i j n).board = s.board := rfl

@[simp] theorem State.drew_keeps_dict (s : State) : (s.drew).dict = s.dict := rfl
@[simp] theorem State.drew_keeps_staged (s : State) : (s.drew).staged = s.staged := rfl
@[simp] theorem State.drew_keeps_tele (s : State) : (s.drew).tele = s.tele := rfl
@[simp] theorem State.drew_keeps_mem (s : State) : (s.drew).mem = s.mem := rfl
@[simp] theorem State.drew_keeps_office (s : State) : (s.drew).office = s.office := rfl
@[simp] theorem State.drew_keeps_cs (s : State) : (s.drew).cs = s.cs := rfl
@[simp] theorem State.drew_keeps_fabric (s : State) : (s.drew).fabric = s.fabric := rfl
@[simp] theorem State.drew_keeps_coll (s : State) : (s.drew).coll = s.coll := rfl
@[simp] theorem State.drew_keeps_intake (s : State) : (s.drew).intake = s.intake := rfl
@[simp] theorem State.drew_keeps_codec (s : State) : (s.drew).codec = s.codec := rfl
@[simp] theorem State.drew_keeps_net (s : State) : (s.drew).net = s.net := rfl
@[simp] theorem State.drew_keeps_ecat (s : State) : (s.drew).ecat = s.ecat := rfl
@[simp] theorem State.drew_keeps_store (s : State) : (s.drew).store = s.store := rfl
@[simp] theorem State.drew_keeps_faults (s : State) : (s.drew).faults = s.faults := rfl
@[simp] theorem State.drew_keeps_board (s : State) : (s.drew).board = s.board := rfl

@[simp] theorem State.setCell_keeps_epoch (s : State) (i : Nat) (f : Cell → Cell) : (s.setCell i f).epoch = s.epoch := rfl
@[simp] theorem State.setCell_keeps_dict (s : State) (i : Nat) (f : Cell → Cell) : (s.setCell i f).dict = s.dict := rfl
@[simp] theorem State.setCell_keeps_staged (s : State) (i : Nat) (f : Cell → Cell) : (s.setCell i f).staged = s.staged := rfl
@[simp] theorem State.setCell_keeps_tele (s : State) (i : Nat) (f : Cell → Cell) : (s.setCell i f).tele = s.tele := rfl
@[simp] theorem State.setCell_keeps_mem (s : State) (i : Nat) (f : Cell → Cell) : (s.setCell i f).mem = s.mem := rfl
@[simp] theorem State.setCell_keeps_cs (s : State) (i : Nat) (f : Cell → Cell) : (s.setCell i f).cs = s.cs := rfl
@[simp] theorem State.setCell_keeps_fabric (s : State) (i : Nat) (f : Cell → Cell) : (s.setCell i f).fabric = s.fabric := rfl
@[simp] theorem State.setCell_keeps_coll (s : State) (i : Nat) (f : Cell → Cell) : (s.setCell i f).coll = s.coll := rfl
@[simp] theorem State.setCell_keeps_intake (s : State) (i : Nat) (f : Cell → Cell) : (s.setCell i f).intake = s.intake := rfl
@[simp] theorem State.setCell_keeps_codec (s : State) (i : Nat) (f : Cell → Cell) : (s.setCell i f).codec = s.codec := rfl
@[simp] theorem State.setCell_keeps_net (s : State) (i : Nat) (f : Cell → Cell) : (s.setCell i f).net = s.net := rfl
@[simp] theorem State.setCell_keeps_ecat (s : State) (i : Nat) (f : Cell → Cell) : (s.setCell i f).ecat = s.ecat := rfl
@[simp] theorem State.setCell_keeps_store (s : State) (i : Nat) (f : Cell → Cell) : (s.setCell i f).store = s.store := rfl
@[simp] theorem State.setCell_keeps_faults (s : State) (i : Nat) (f : Cell → Cell) : (s.setCell i f).faults = s.faults := rfl
@[simp] theorem State.setCell_keeps_board (s : State) (i : Nat) (f : Cell → Cell) : (s.setCell i f).board = s.board := rfl

@[simp] theorem State.setChan_keeps_epoch (s : State) (i : Nat) (f : Chan → Chan) : (s.setChan i f).epoch = s.epoch := rfl
@[simp] theorem State.setChan_keeps_dict (s : State) (i : Nat) (f : Chan → Chan) : (s.setChan i f).dict = s.dict := rfl
@[simp] theorem State.setChan_keeps_staged (s : State) (i : Nat) (f : Chan → Chan) : (s.setChan i f).staged = s.staged := rfl
@[simp] theorem State.setChan_keeps_tele (s : State) (i : Nat) (f : Chan → Chan) : (s.setChan i f).tele = s.tele := rfl
@[simp] theorem State.setChan_keeps_office (s : State) (i : Nat) (f : Chan → Chan) : (s.setChan i f).office = s.office := rfl
@[simp] theorem State.setChan_keeps_cs (s : State) (i : Nat) (f : Chan → Chan) : (s.setChan i f).cs = s.cs := rfl
@[simp] theorem State.setChan_keeps_fabric (s : State) (i : Nat) (f : Chan → Chan) : (s.setChan i f).fabric = s.fabric := rfl
@[simp] theorem State.setChan_keeps_coll (s : State) (i : Nat) (f : Chan → Chan) : (s.setChan i f).coll = s.coll := rfl
@[simp] theorem State.setChan_keeps_intake (s : State) (i : Nat) (f : Chan → Chan) : (s.setChan i f).intake = s.intake := rfl
@[simp] theorem State.setChan_keeps_codec (s : State) (i : Nat) (f : Chan → Chan) : (s.setChan i f).codec = s.codec := rfl
@[simp] theorem State.setChan_keeps_net (s : State) (i : Nat) (f : Chan → Chan) : (s.setChan i f).net = s.net := rfl
@[simp] theorem State.setChan_keeps_ecat (s : State) (i : Nat) (f : Chan → Chan) : (s.setChan i f).ecat = s.ecat := rfl
@[simp] theorem State.setChan_keeps_store (s : State) (i : Nat) (f : Chan → Chan) : (s.setChan i f).store = s.store := rfl
@[simp] theorem State.setChan_keeps_faults (s : State) (i : Nat) (f : Chan → Chan) : (s.setChan i f).faults = s.faults := rfl
@[simp] theorem State.setChan_keeps_board (s : State) (i : Nat) (f : Chan → Chan) : (s.setChan i f).board = s.board := rfl

@[simp] theorem State.setPort_keeps_epoch (s : State) (i : Nat) (f : Port → Port) : (s.setPort i f).epoch = s.epoch := rfl
@[simp] theorem State.setPort_keeps_dict (s : State) (i : Nat) (f : Port → Port) : (s.setPort i f).dict = s.dict := rfl
@[simp] theorem State.setPort_keeps_staged (s : State) (i : Nat) (f : Port → Port) : (s.setPort i f).staged = s.staged := rfl
@[simp] theorem State.setPort_keeps_tele (s : State) (i : Nat) (f : Port → Port) : (s.setPort i f).tele = s.tele := rfl
@[simp] theorem State.setPort_keeps_mem (s : State) (i : Nat) (f : Port → Port) : (s.setPort i f).mem = s.mem := rfl
@[simp] theorem State.setPort_keeps_office (s : State) (i : Nat) (f : Port → Port) : (s.setPort i f).office = s.office := rfl
@[simp] theorem State.setPort_keeps_cs (s : State) (i : Nat) (f : Port → Port) : (s.setPort i f).cs = s.cs := rfl
@[simp] theorem State.setPort_keeps_coll (s : State) (i : Nat) (f : Port → Port) : (s.setPort i f).coll = s.coll := rfl
@[simp] theorem State.setPort_keeps_intake (s : State) (i : Nat) (f : Port → Port) : (s.setPort i f).intake = s.intake := rfl
@[simp] theorem State.setPort_keeps_codec (s : State) (i : Nat) (f : Port → Port) : (s.setPort i f).codec = s.codec := rfl
@[simp] theorem State.setPort_keeps_net (s : State) (i : Nat) (f : Port → Port) : (s.setPort i f).net = s.net := rfl
@[simp] theorem State.setPort_keeps_ecat (s : State) (i : Nat) (f : Port → Port) : (s.setPort i f).ecat = s.ecat := rfl
@[simp] theorem State.setPort_keeps_store (s : State) (i : Nat) (f : Port → Port) : (s.setPort i f).store = s.store := rfl
@[simp] theorem State.setPort_keeps_faults (s : State) (i : Nat) (f : Port → Port) : (s.setPort i f).faults = s.faults := rfl
@[simp] theorem State.setPort_keeps_board (s : State) (i : Nat) (f : Port → Port) : (s.setPort i f).board = s.board := rfl

@[simp] theorem State.setCtx_keeps_epoch (s : State) (c : Nat) (f : Ctx → Ctx) : (s.setCtx c f).epoch = s.epoch := rfl
@[simp] theorem State.setCtx_keeps_dict (s : State) (c : Nat) (f : Ctx → Ctx) : (s.setCtx c f).dict = s.dict := rfl
@[simp] theorem State.setCtx_keeps_staged (s : State) (c : Nat) (f : Ctx → Ctx) : (s.setCtx c f).staged = s.staged := rfl
@[simp] theorem State.setCtx_keeps_tele (s : State) (c : Nat) (f : Ctx → Ctx) : (s.setCtx c f).tele = s.tele := rfl
@[simp] theorem State.setCtx_keeps_mem (s : State) (c : Nat) (f : Ctx → Ctx) : (s.setCtx c f).mem = s.mem := rfl
@[simp] theorem State.setCtx_keeps_cs (s : State) (c : Nat) (f : Ctx → Ctx) : (s.setCtx c f).cs = s.cs := rfl
@[simp] theorem State.setCtx_keeps_fabric (s : State) (c : Nat) (f : Ctx → Ctx) : (s.setCtx c f).fabric = s.fabric := rfl
@[simp] theorem State.setCtx_keeps_coll (s : State) (c : Nat) (f : Ctx → Ctx) : (s.setCtx c f).coll = s.coll := rfl
@[simp] theorem State.setCtx_keeps_intake (s : State) (c : Nat) (f : Ctx → Ctx) : (s.setCtx c f).intake = s.intake := rfl
@[simp] theorem State.setCtx_keeps_codec (s : State) (c : Nat) (f : Ctx → Ctx) : (s.setCtx c f).codec = s.codec := rfl
@[simp] theorem State.setCtx_keeps_net (s : State) (c : Nat) (f : Ctx → Ctx) : (s.setCtx c f).net = s.net := rfl
@[simp] theorem State.setCtx_keeps_ecat (s : State) (c : Nat) (f : Ctx → Ctx) : (s.setCtx c f).ecat = s.ecat := rfl
@[simp] theorem State.setCtx_keeps_store (s : State) (c : Nat) (f : Ctx → Ctx) : (s.setCtx c f).store = s.store := rfl
@[simp] theorem State.setCtx_keeps_faults (s : State) (c : Nat) (f : Ctx → Ctx) : (s.setCtx c f).faults = s.faults := rfl
@[simp] theorem State.setCtx_keeps_board (s : State) (c : Nat) (f : Ctx → Ctx) : (s.setCtx c f).board = s.board := rfl

@[simp] theorem State.setFlight_keeps_epoch (s : State) (c i : Nat) (f : InFlight → InFlight) : (s.setFlight c i f).epoch = s.epoch := rfl
@[simp] theorem State.setFlight_keeps_dict (s : State) (c i : Nat) (f : InFlight → InFlight) : (s.setFlight c i f).dict = s.dict := rfl
@[simp] theorem State.setFlight_keeps_staged (s : State) (c i : Nat) (f : InFlight → InFlight) : (s.setFlight c i f).staged = s.staged := rfl
@[simp] theorem State.setFlight_keeps_tele (s : State) (c i : Nat) (f : InFlight → InFlight) : (s.setFlight c i f).tele = s.tele := rfl
@[simp] theorem State.setFlight_keeps_mem (s : State) (c i : Nat) (f : InFlight → InFlight) : (s.setFlight c i f).mem = s.mem := rfl
@[simp] theorem State.setFlight_keeps_office (s : State) (c i : Nat) (f : InFlight → InFlight) : (s.setFlight c i f).office = s.office := rfl
@[simp] theorem State.setFlight_keeps_fabric (s : State) (c i : Nat) (f : InFlight → InFlight) : (s.setFlight c i f).fabric = s.fabric := rfl
@[simp] theorem State.setFlight_keeps_coll (s : State) (c i : Nat) (f : InFlight → InFlight) : (s.setFlight c i f).coll = s.coll := rfl
@[simp] theorem State.setFlight_keeps_intake (s : State) (c i : Nat) (f : InFlight → InFlight) : (s.setFlight c i f).intake = s.intake := rfl
@[simp] theorem State.setFlight_keeps_codec (s : State) (c i : Nat) (f : InFlight → InFlight) : (s.setFlight c i f).codec = s.codec := rfl
@[simp] theorem State.setFlight_keeps_net (s : State) (c i : Nat) (f : InFlight → InFlight) : (s.setFlight c i f).net = s.net := rfl
@[simp] theorem State.setFlight_keeps_ecat (s : State) (c i : Nat) (f : InFlight → InFlight) : (s.setFlight c i f).ecat = s.ecat := rfl
@[simp] theorem State.setFlight_keeps_store (s : State) (c i : Nat) (f : InFlight → InFlight) : (s.setFlight c i f).store = s.store := rfl
@[simp] theorem State.setFlight_keeps_faults (s : State) (c i : Nat) (f : InFlight → InFlight) : (s.setFlight c i f).faults = s.faults := rfl
@[simp] theorem State.setFlight_keeps_board (s : State) (c i : Nat) (f : InFlight → InFlight) : (s.setFlight c i f).board = s.board := rfl

@[simp] theorem State.addFlight_keeps_epoch (s : State) (f : InFlight) : (s.addFlight f).epoch = s.epoch := rfl
@[simp] theorem State.addFlight_keeps_dict (s : State) (f : InFlight) : (s.addFlight f).dict = s.dict := rfl
@[simp] theorem State.addFlight_keeps_staged (s : State) (f : InFlight) : (s.addFlight f).staged = s.staged := rfl
@[simp] theorem State.addFlight_keeps_tele (s : State) (f : InFlight) : (s.addFlight f).tele = s.tele := rfl
@[simp] theorem State.addFlight_keeps_mem (s : State) (f : InFlight) : (s.addFlight f).mem = s.mem := rfl
@[simp] theorem State.addFlight_keeps_office (s : State) (f : InFlight) : (s.addFlight f).office = s.office := rfl
@[simp] theorem State.addFlight_keeps_fabric (s : State) (f : InFlight) : (s.addFlight f).fabric = s.fabric := rfl
@[simp] theorem State.addFlight_keeps_coll (s : State) (f : InFlight) : (s.addFlight f).coll = s.coll := rfl
@[simp] theorem State.addFlight_keeps_intake (s : State) (f : InFlight) : (s.addFlight f).intake = s.intake := rfl
@[simp] theorem State.addFlight_keeps_codec (s : State) (f : InFlight) : (s.addFlight f).codec = s.codec := rfl
@[simp] theorem State.addFlight_keeps_net (s : State) (f : InFlight) : (s.addFlight f).net = s.net := rfl
@[simp] theorem State.addFlight_keeps_ecat (s : State) (f : InFlight) : (s.addFlight f).ecat = s.ecat := rfl
@[simp] theorem State.addFlight_keeps_store (s : State) (f : InFlight) : (s.addFlight f).store = s.store := rfl
@[simp] theorem State.addFlight_keeps_faults (s : State) (f : InFlight) : (s.addFlight f).faults = s.faults := rfl
@[simp] theorem State.addFlight_keeps_board (s : State) (f : InFlight) : (s.addFlight f).board = s.board := rfl

@[simp] theorem State.setSession_keeps_epoch (s : State) (i : Nat) (f : Session → Session) : (s.setSession i f).epoch = s.epoch := rfl
@[simp] theorem State.setSession_keeps_dict (s : State) (i : Nat) (f : Session → Session) : (s.setSession i f).dict = s.dict := rfl
@[simp] theorem State.setSession_keeps_staged (s : State) (i : Nat) (f : Session → Session) : (s.setSession i f).staged = s.staged := rfl
@[simp] theorem State.setSession_keeps_tele (s : State) (i : Nat) (f : Session → Session) : (s.setSession i f).tele = s.tele := rfl
@[simp] theorem State.setSession_keeps_mem (s : State) (i : Nat) (f : Session → Session) : (s.setSession i f).mem = s.mem := rfl
@[simp] theorem State.setSession_keeps_office (s : State) (i : Nat) (f : Session → Session) : (s.setSession i f).office = s.office := rfl
@[simp] theorem State.setSession_keeps_cs (s : State) (i : Nat) (f : Session → Session) : (s.setSession i f).cs = s.cs := rfl
@[simp] theorem State.setSession_keeps_fabric (s : State) (i : Nat) (f : Session → Session) : (s.setSession i f).fabric = s.fabric := rfl
@[simp] theorem State.setSession_keeps_coll (s : State) (i : Nat) (f : Session → Session) : (s.setSession i f).coll = s.coll := rfl
@[simp] theorem State.setSession_keeps_intake (s : State) (i : Nat) (f : Session → Session) : (s.setSession i f).intake = s.intake := rfl
@[simp] theorem State.setSession_keeps_codec (s : State) (i : Nat) (f : Session → Session) : (s.setSession i f).codec = s.codec := rfl
@[simp] theorem State.setSession_keeps_ecat (s : State) (i : Nat) (f : Session → Session) : (s.setSession i f).ecat = s.ecat := rfl
@[simp] theorem State.setSession_keeps_store (s : State) (i : Nat) (f : Session → Session) : (s.setSession i f).store = s.store := rfl
@[simp] theorem State.setSession_keeps_faults (s : State) (i : Nat) (f : Session → Session) : (s.setSession i f).faults = s.faults := rfl
@[simp] theorem State.setSession_keeps_board (s : State) (i : Nat) (f : Session → Session) : (s.setSession i f).board = s.board := rfl

@[simp] theorem State.setColl_keeps_epoch (s : State) (c i : Nat) (f : Coll → Coll) : (s.setColl c i f).epoch = s.epoch := rfl
@[simp] theorem State.setColl_keeps_dict (s : State) (c i : Nat) (f : Coll → Coll) : (s.setColl c i f).dict = s.dict := rfl
@[simp] theorem State.setColl_keeps_staged (s : State) (c i : Nat) (f : Coll → Coll) : (s.setColl c i f).staged = s.staged := rfl
@[simp] theorem State.setColl_keeps_tele (s : State) (c i : Nat) (f : Coll → Coll) : (s.setColl c i f).tele = s.tele := rfl
@[simp] theorem State.setColl_keeps_mem (s : State) (c i : Nat) (f : Coll → Coll) : (s.setColl c i f).mem = s.mem := rfl
@[simp] theorem State.setColl_keeps_office (s : State) (c i : Nat) (f : Coll → Coll) : (s.setColl c i f).office = s.office := rfl
@[simp] theorem State.setColl_keeps_cs (s : State) (c i : Nat) (f : Coll → Coll) : (s.setColl c i f).cs = s.cs := rfl
@[simp] theorem State.setColl_keeps_fabric (s : State) (c i : Nat) (f : Coll → Coll) : (s.setColl c i f).fabric = s.fabric := rfl
@[simp] theorem State.setColl_keeps_intake (s : State) (c i : Nat) (f : Coll → Coll) : (s.setColl c i f).intake = s.intake := rfl
@[simp] theorem State.setColl_keeps_codec (s : State) (c i : Nat) (f : Coll → Coll) : (s.setColl c i f).codec = s.codec := rfl
@[simp] theorem State.setColl_keeps_net (s : State) (c i : Nat) (f : Coll → Coll) : (s.setColl c i f).net = s.net := rfl
@[simp] theorem State.setColl_keeps_ecat (s : State) (c i : Nat) (f : Coll → Coll) : (s.setColl c i f).ecat = s.ecat := rfl
@[simp] theorem State.setColl_keeps_store (s : State) (c i : Nat) (f : Coll → Coll) : (s.setColl c i f).store = s.store := rfl
@[simp] theorem State.setColl_keeps_faults (s : State) (c i : Nat) (f : Coll → Coll) : (s.setColl c i f).faults = s.faults := rfl
@[simp] theorem State.setColl_keeps_board (s : State) (c i : Nat) (f : Coll → Coll) : (s.setColl c i f).board = s.board := rfl

@[simp] theorem State.placeSm1_keeps_epoch (s : State) (m : Bytes) : (s.placeSm1 m).epoch = s.epoch := rfl
@[simp] theorem State.placeSm1_keeps_dict (s : State) (m : Bytes) : (s.placeSm1 m).dict = s.dict := rfl
@[simp] theorem State.placeSm1_keeps_staged (s : State) (m : Bytes) : (s.placeSm1 m).staged = s.staged := rfl
@[simp] theorem State.placeSm1_keeps_tele (s : State) (m : Bytes) : (s.placeSm1 m).tele = s.tele := rfl
@[simp] theorem State.placeSm1_keeps_mem (s : State) (m : Bytes) : (s.placeSm1 m).mem = s.mem := rfl
@[simp] theorem State.placeSm1_keeps_office (s : State) (m : Bytes) : (s.placeSm1 m).office = s.office := rfl
@[simp] theorem State.placeSm1_keeps_cs (s : State) (m : Bytes) : (s.placeSm1 m).cs = s.cs := rfl
@[simp] theorem State.placeSm1_keeps_fabric (s : State) (m : Bytes) : (s.placeSm1 m).fabric = s.fabric := rfl
@[simp] theorem State.placeSm1_keeps_coll (s : State) (m : Bytes) : (s.placeSm1 m).coll = s.coll := rfl
@[simp] theorem State.placeSm1_keeps_intake (s : State) (m : Bytes) : (s.placeSm1 m).intake = s.intake := rfl
@[simp] theorem State.placeSm1_keeps_codec (s : State) (m : Bytes) : (s.placeSm1 m).codec = s.codec := rfl
@[simp] theorem State.placeSm1_keeps_net (s : State) (m : Bytes) : (s.placeSm1 m).net = s.net := rfl
@[simp] theorem State.placeSm1_keeps_store (s : State) (m : Bytes) : (s.placeSm1 m).store = s.store := rfl
@[simp] theorem State.placeSm1_keeps_board (s : State) (m : Bytes) : (s.placeSm1 m).board = s.board := rfl

@[simp] theorem State.clearRun_keeps_epoch (s : State) (a n : Nat) : (s.clearRun a n).epoch = s.epoch := rfl
@[simp] theorem State.clearRun_keeps_dict (s : State) (a n : Nat) : (s.clearRun a n).dict = s.dict := rfl
@[simp] theorem State.clearRun_keeps_staged (s : State) (a n : Nat) : (s.clearRun a n).staged = s.staged := rfl
@[simp] theorem State.clearRun_keeps_tele (s : State) (a n : Nat) : (s.clearRun a n).tele = s.tele := rfl
@[simp] theorem State.clearRun_keeps_office (s : State) (a n : Nat) : (s.clearRun a n).office = s.office := rfl
@[simp] theorem State.clearRun_keeps_cs (s : State) (a n : Nat) : (s.clearRun a n).cs = s.cs := rfl
@[simp] theorem State.clearRun_keeps_fabric (s : State) (a n : Nat) : (s.clearRun a n).fabric = s.fabric := rfl
@[simp] theorem State.clearRun_keeps_coll (s : State) (a n : Nat) : (s.clearRun a n).coll = s.coll := rfl
@[simp] theorem State.clearRun_keeps_intake (s : State) (a n : Nat) : (s.clearRun a n).intake = s.intake := rfl
@[simp] theorem State.clearRun_keeps_codec (s : State) (a n : Nat) : (s.clearRun a n).codec = s.codec := rfl
@[simp] theorem State.clearRun_keeps_net (s : State) (a n : Nat) : (s.clearRun a n).net = s.net := rfl
@[simp] theorem State.clearRun_keeps_ecat (s : State) (a n : Nat) : (s.clearRun a n).ecat = s.ecat := rfl
@[simp] theorem State.clearRun_keeps_store (s : State) (a n : Nat) : (s.clearRun a n).store = s.store := rfl
@[simp] theorem State.clearRun_keeps_faults (s : State) (a n : Nat) : (s.clearRun a n).faults = s.faults := rfl
@[simp] theorem State.clearRun_keeps_board (s : State) (a n : Nat) : (s.clearRun a n).board = s.board := rfl

@[simp] theorem State.spoil_keeps_epoch (s : State) (a n : Nat) : (s.spoil a n).epoch = s.epoch := rfl
@[simp] theorem State.spoil_keeps_dict (s : State) (a n : Nat) : (s.spoil a n).dict = s.dict := rfl
@[simp] theorem State.spoil_keeps_staged (s : State) (a n : Nat) : (s.spoil a n).staged = s.staged := rfl
@[simp] theorem State.spoil_keeps_tele (s : State) (a n : Nat) : (s.spoil a n).tele = s.tele := rfl
@[simp] theorem State.spoil_keeps_mem (s : State) (a n : Nat) : (s.spoil a n).mem = s.mem := rfl
@[simp] theorem State.spoil_keeps_office (s : State) (a n : Nat) : (s.spoil a n).office = s.office := rfl
@[simp] theorem State.spoil_keeps_fabric (s : State) (a n : Nat) : (s.spoil a n).fabric = s.fabric := rfl
@[simp] theorem State.spoil_keeps_coll (s : State) (a n : Nat) : (s.spoil a n).coll = s.coll := rfl
@[simp] theorem State.spoil_keeps_pipes (s : State) (a n : Nat) : (s.spoil a n).intake.pipes = s.intake.pipes := rfl
@[simp] theorem State.spoil_keeps_dicts (s : State) (a n : Nat) : (s.spoil a n).intake.dicts = s.intake.dicts := rfl
@[simp] theorem State.spoil_keeps_codec (s : State) (a n : Nat) : (s.spoil a n).codec = s.codec := rfl
@[simp] theorem State.spoil_keeps_net (s : State) (a n : Nat) : (s.spoil a n).net = s.net := rfl
@[simp] theorem State.spoil_keeps_ecat (s : State) (a n : Nat) : (s.spoil a n).ecat = s.ecat := rfl
@[simp] theorem State.spoil_keeps_store (s : State) (a n : Nat) : (s.spoil a n).store = s.store := rfl
@[simp] theorem State.spoil_keeps_faults (s : State) (a n : Nat) : (s.spoil a n).faults = s.faults := rfl
@[simp] theorem State.spoil_keeps_board (s : State) (a n : Nat) : (s.spoil a n).board = s.board := rfl

@[simp] theorem State.leaveStream_keeps_dict (s : State) (f : InFlight) : (s.leaveStream f).dict = s.dict := rfl
@[simp] theorem State.leaveStream_keeps_staged (s : State) (f : InFlight) : (s.leaveStream f).staged = s.staged := rfl
@[simp] theorem State.leaveStream_keeps_tele (s : State) (f : InFlight) : (s.leaveStream f).tele = s.tele := rfl
@[simp] theorem State.leaveStream_keeps_mem (s : State) (f : InFlight) : (s.leaveStream f).mem = s.mem := rfl
@[simp] theorem State.leaveStream_keeps_fabric (s : State) (f : InFlight) : (s.leaveStream f).fabric = s.fabric := rfl
@[simp] theorem State.leaveStream_keeps_coll (s : State) (f : InFlight) : (s.leaveStream f).coll = s.coll := rfl
@[simp] theorem State.leaveStream_keeps_intake (s : State) (f : InFlight) : (s.leaveStream f).intake = s.intake := rfl
@[simp] theorem State.leaveStream_keeps_codec (s : State) (f : InFlight) : (s.leaveStream f).codec = s.codec := rfl
@[simp] theorem State.leaveStream_keeps_net (s : State) (f : InFlight) : (s.leaveStream f).net = s.net := rfl
@[simp] theorem State.leaveStream_keeps_ecat (s : State) (f : InFlight) : (s.leaveStream f).ecat = s.ecat := rfl
@[simp] theorem State.leaveStream_keeps_store (s : State) (f : InFlight) : (s.leaveStream f).store = s.store := rfl
@[simp] theorem State.leaveStream_keeps_faults (s : State) (f : InFlight) : (s.leaveStream f).faults = s.faults := rfl
@[simp] theorem State.leaveStream_keeps_board (s : State) (f : InFlight) : (s.leaveStream f).board = s.board := rfl

@[simp] theorem State.dropReqs_keeps_epoch (s : State) (p : Req → Bool) : (s.dropReqs p).epoch = s.epoch := rfl
@[simp] theorem State.dropReqs_keeps_dict (s : State) (p : Req → Bool) : (s.dropReqs p).dict = s.dict := rfl
@[simp] theorem State.dropReqs_keeps_staged (s : State) (p : Req → Bool) : (s.dropReqs p).staged = s.staged := rfl
@[simp] theorem State.dropReqs_keeps_tele (s : State) (p : Req → Bool) : (s.dropReqs p).tele = s.tele := rfl
@[simp] theorem State.dropReqs_keeps_mem (s : State) (p : Req → Bool) : (s.dropReqs p).mem = s.mem := rfl
@[simp] theorem State.dropReqs_keeps_office (s : State) (p : Req → Bool) : (s.dropReqs p).office = s.office := rfl
@[simp] theorem State.dropReqs_keeps_fabric (s : State) (p : Req → Bool) : (s.dropReqs p).fabric = s.fabric := rfl
@[simp] theorem State.dropReqs_keeps_coll (s : State) (p : Req → Bool) : (s.dropReqs p).coll = s.coll := rfl
@[simp] theorem State.dropReqs_keeps_intake (s : State) (p : Req → Bool) : (s.dropReqs p).intake = s.intake := rfl
@[simp] theorem State.dropReqs_keeps_codec (s : State) (p : Req → Bool) : (s.dropReqs p).codec = s.codec := rfl
@[simp] theorem State.dropReqs_keeps_net (s : State) (p : Req → Bool) : (s.dropReqs p).net = s.net := rfl
@[simp] theorem State.dropReqs_keeps_ecat (s : State) (p : Req → Bool) : (s.dropReqs p).ecat = s.ecat := rfl
@[simp] theorem State.dropReqs_keeps_store (s : State) (p : Req → Bool) : (s.dropReqs p).store = s.store := rfl
@[simp] theorem State.dropReqs_keeps_faults (s : State) (p : Req → Bool) : (s.dropReqs p).faults = s.faults := rfl
@[simp] theorem State.dropReqs_keeps_board (s : State) (p : Req → Bool) : (s.dropReqs p).board = s.board := rfl

@[simp] theorem State.dropColl_keeps_epoch (s : State) (c idx : Nat) : (s.dropColl c idx).epoch = s.epoch := rfl
@[simp] theorem State.dropColl_keeps_dict (s : State) (c idx : Nat) : (s.dropColl c idx).dict = s.dict := rfl
@[simp] theorem State.dropColl_keeps_staged (s : State) (c idx : Nat) : (s.dropColl c idx).staged = s.staged := rfl
@[simp] theorem State.dropColl_keeps_tele (s : State) (c idx : Nat) : (s.dropColl c idx).tele = s.tele := rfl
@[simp] theorem State.dropColl_keeps_mem (s : State) (c idx : Nat) : (s.dropColl c idx).mem = s.mem := rfl
@[simp] theorem State.dropColl_keeps_office (s : State) (c idx : Nat) : (s.dropColl c idx).office = s.office := rfl
@[simp] theorem State.dropColl_keeps_cs (s : State) (c idx : Nat) : (s.dropColl c idx).cs = s.cs := rfl
@[simp] theorem State.dropColl_keeps_fabric (s : State) (c idx : Nat) : (s.dropColl c idx).fabric = s.fabric := rfl
@[simp] theorem State.dropColl_keeps_intake (s : State) (c idx : Nat) : (s.dropColl c idx).intake = s.intake := rfl
@[simp] theorem State.dropColl_keeps_codec (s : State) (c idx : Nat) : (s.dropColl c idx).codec = s.codec := rfl
@[simp] theorem State.dropColl_keeps_net (s : State) (c idx : Nat) : (s.dropColl c idx).net = s.net := rfl
@[simp] theorem State.dropColl_keeps_ecat (s : State) (c idx : Nat) : (s.dropColl c idx).ecat = s.ecat := rfl
@[simp] theorem State.dropColl_keeps_store (s : State) (c idx : Nat) : (s.dropColl c idx).store = s.store := rfl
@[simp] theorem State.dropColl_keeps_faults (s : State) (c idx : Nat) : (s.dropColl c idx).faults = s.faults := rfl
@[simp] theorem State.dropColl_keeps_board (s : State) (c idx : Nat) : (s.dropColl c idx).board = s.board := rfl

@[simp] theorem State.clearRun_keeps_objects (s : State) (a n : Nat) : (s.clearRun a n).mem.objects = s.mem.objects := rfl
@[simp] theorem State.clearRun_keeps_unzeroed (s : State) (a n : Nat) : (s.clearRun a n).mem.unzeroed = s.mem.unzeroed := rfl
@[simp] theorem State.clearRun_keeps_copies (s : State) (a n : Nat) : (s.clearRun a n).mem.copies = s.mem.copies := rfl
@[simp] theorem State.clearRun_keeps_wcb (s : State) (a n : Nat) : (s.clearRun a n).mem.wcb = s.mem.wcb := rfl
/-- Zeroing a run takes only delayed bytes from the channels. -/
@[simp] theorem State.clearRun_keeps_sessions (s : State) (a n : Nat) :
    (s.clearRun a n).mem.chans.map (fun c => (c.id, c.active, c.session)) = s.mem.chans.map (fun c => (c.id, c.active, c.session)) := by
  simp [State.clearRun]

@[simp] theorem MemSys.touch_keeps_cells (m : MemSys) (l : List (Nat × Nat)) : (m.touch l).cells = m.cells := rfl
@[simp] theorem MemSys.touch_keeps_poison (m : MemSys) (l : List (Nat × Nat)) : (m.touch l).poison = m.poison := rfl
@[simp] theorem MemSys.touch_keeps_objects (m : MemSys) (l : List (Nat × Nat)) : (m.touch l).objects = m.objects := rfl
@[simp] theorem MemSys.touch_keeps_unzeroed (m : MemSys) (l : List (Nat × Nat)) : (m.touch l).unzeroed = m.unzeroed := rfl
@[simp] theorem MemSys.touch_keeps_wcb (m : MemSys) (l : List (Nat × Nat)) : (m.touch l).wcb = m.wcb := rfl
@[simp] theorem MemSys.touch_keeps_chans (m : MemSys) (l : List (Nat × Nat)) : (m.touch l).chans = m.chans := rfl

/-- A register reads as it was set. -/
@[simp] theorem State.dget_dset_self (s : State) (i j v : Nat) : (s.dset i j v).dget i j = v := by
  simp [State.dget, State.dset]

/-- A counter counts. -/
@[simp] theorem State.count_bump_self (s : State) (i j n : Nat) : (s.bump i j n).count i j = (s.count i j + n) % 2 ^ 64 := by
  simp [State.count, State.bump]

/-- A count leaves every other counter alone. -/
theorem State.count_bump_other (s : State) (i j n k l : Nat) (h : dkey k l ≠ dkey i j) : (s.bump i j n).count k l = s.count k l := by
  simp only [State.count, State.bump]
  exact kvGet_kvSet_other _ _ _ _ _ h

@[simp] theorem State.setQueue_keeps_epoch (s : State) (c : Nat) (f : Queue → Queue) : (s.setQueue c f).epoch = s.epoch := rfl
@[simp] theorem State.setQueue_keeps_dict (s : State) (c : Nat) (f : Queue → Queue) : (s.setQueue c f).dict = s.dict := rfl
@[simp] theorem State.setQueue_keeps_staged (s : State) (c : Nat) (f : Queue → Queue) : (s.setQueue c f).staged = s.staged := rfl
@[simp] theorem State.setQueue_keeps_tele (s : State) (c : Nat) (f : Queue → Queue) : (s.setQueue c f).tele = s.tele := rfl
@[simp] theorem State.setQueue_keeps_mem (s : State) (c : Nat) (f : Queue → Queue) : (s.setQueue c f).mem = s.mem := rfl
@[simp] theorem State.setQueue_keeps_cs (s : State) (c : Nat) (f : Queue → Queue) : (s.setQueue c f).cs = s.cs := rfl
@[simp] theorem State.setQueue_keeps_fabric (s : State) (c : Nat) (f : Queue → Queue) : (s.setQueue c f).fabric = s.fabric := rfl
@[simp] theorem State.setQueue_keeps_coll (s : State) (c : Nat) (f : Queue → Queue) : (s.setQueue c f).coll = s.coll := rfl
@[simp] theorem State.setQueue_keeps_intake (s : State) (c : Nat) (f : Queue → Queue) : (s.setQueue c f).intake = s.intake := rfl
@[simp] theorem State.setQueue_keeps_codec (s : State) (c : Nat) (f : Queue → Queue) : (s.setQueue c f).codec = s.codec := rfl
@[simp] theorem State.setQueue_keeps_net (s : State) (c : Nat) (f : Queue → Queue) : (s.setQueue c f).net = s.net := rfl
@[simp] theorem State.setQueue_keeps_ecat (s : State) (c : Nat) (f : Queue → Queue) : (s.setQueue c f).ecat = s.ecat := rfl
@[simp] theorem State.setQueue_keeps_store (s : State) (c : Nat) (f : Queue → Queue) : (s.setQueue c f).store = s.store := rfl
@[simp] theorem State.setQueue_keeps_faults (s : State) (c : Nat) (f : Queue → Queue) : (s.setQueue c f).faults = s.faults := rfl
@[simp] theorem State.setQueue_keeps_board (s : State) (c : Nat) (f : Queue → Queue) : (s.setQueue c f).board = s.board := rfl

@[simp] theorem State.setJob_keeps_epoch (s : State) (c : Nat) (f : Job → Job) : (s.setJob c f).epoch = s.epoch := rfl
@[simp] theorem State.setJob_keeps_dict (s : State) (c : Nat) (f : Job → Job) : (s.setJob c f).dict = s.dict := rfl
@[simp] theorem State.setJob_keeps_staged (s : State) (c : Nat) (f : Job → Job) : (s.setJob c f).staged = s.staged := rfl
@[simp] theorem State.setJob_keeps_tele (s : State) (c : Nat) (f : Job → Job) : (s.setJob c f).tele = s.tele := rfl
@[simp] theorem State.setJob_keeps_mem (s : State) (c : Nat) (f : Job → Job) : (s.setJob c f).mem = s.mem := rfl
@[simp] theorem State.setJob_keeps_cs (s : State) (c : Nat) (f : Job → Job) : (s.setJob c f).cs = s.cs := rfl
@[simp] theorem State.setJob_keeps_fabric (s : State) (c : Nat) (f : Job → Job) : (s.setJob c f).fabric = s.fabric := rfl
@[simp] theorem State.setJob_keeps_coll (s : State) (c : Nat) (f : Job → Job) : (s.setJob c f).coll = s.coll := rfl
@[simp] theorem State.setJob_keeps_intake (s : State) (c : Nat) (f : Job → Job) : (s.setJob c f).intake = s.intake := rfl
@[simp] theorem State.setJob_keeps_codec (s : State) (c : Nat) (f : Job → Job) : (s.setJob c f).codec = s.codec := rfl
@[simp] theorem State.setJob_keeps_net (s : State) (c : Nat) (f : Job → Job) : (s.setJob c f).net = s.net := rfl
@[simp] theorem State.setJob_keeps_ecat (s : State) (c : Nat) (f : Job → Job) : (s.setJob c f).ecat = s.ecat := rfl
@[simp] theorem State.setJob_keeps_store (s : State) (c : Nat) (f : Job → Job) : (s.setJob c f).store = s.store := rfl
@[simp] theorem State.setJob_keeps_faults (s : State) (c : Nat) (f : Job → Job) : (s.setJob c f).faults = s.faults := rfl
@[simp] theorem State.setJob_keeps_board (s : State) (c : Nat) (f : Job → Job) : (s.setJob c f).board = s.board := rfl

@[simp] theorem State.setIntk_keeps_epoch (s : State) (c idx : Nat) (f : IntakeJob → IntakeJob) : (s.setIntk c idx f).epoch = s.epoch := rfl
@[simp] theorem State.setIntk_keeps_dict (s : State) (c idx : Nat) (f : IntakeJob → IntakeJob) : (s.setIntk c idx f).dict = s.dict := rfl
@[simp] theorem State.setIntk_keeps_staged (s : State) (c idx : Nat) (f : IntakeJob → IntakeJob) : (s.setIntk c idx f).staged = s.staged := rfl
@[simp] theorem State.setIntk_keeps_tele (s : State) (c idx : Nat) (f : IntakeJob → IntakeJob) : (s.setIntk c idx f).tele = s.tele := rfl
@[simp] theorem State.setIntk_keeps_mem (s : State) (c idx : Nat) (f : IntakeJob → IntakeJob) : (s.setIntk c idx f).mem = s.mem := rfl
@[simp] theorem State.setIntk_keeps_office (s : State) (c idx : Nat) (f : IntakeJob → IntakeJob) : (s.setIntk c idx f).office = s.office := rfl
@[simp] theorem State.setIntk_keeps_cs (s : State) (c idx : Nat) (f : IntakeJob → IntakeJob) : (s.setIntk c idx f).cs = s.cs := rfl
@[simp] theorem State.setIntk_keeps_fabric (s : State) (c idx : Nat) (f : IntakeJob → IntakeJob) : (s.setIntk c idx f).fabric = s.fabric := rfl
@[simp] theorem State.setIntk_keeps_coll (s : State) (c idx : Nat) (f : IntakeJob → IntakeJob) : (s.setIntk c idx f).coll = s.coll := rfl
@[simp] theorem State.setIntk_keeps_codec (s : State) (c idx : Nat) (f : IntakeJob → IntakeJob) : (s.setIntk c idx f).codec = s.codec := rfl
@[simp] theorem State.setIntk_keeps_net (s : State) (c idx : Nat) (f : IntakeJob → IntakeJob) : (s.setIntk c idx f).net = s.net := rfl
@[simp] theorem State.setIntk_keeps_ecat (s : State) (c idx : Nat) (f : IntakeJob → IntakeJob) : (s.setIntk c idx f).ecat = s.ecat := rfl
@[simp] theorem State.setIntk_keeps_store (s : State) (c idx : Nat) (f : IntakeJob → IntakeJob) : (s.setIntk c idx f).store = s.store := rfl
@[simp] theorem State.setIntk_keeps_faults (s : State) (c idx : Nat) (f : IntakeJob → IntakeJob) : (s.setIntk c idx f).faults = s.faults := rfl
@[simp] theorem State.setIntk_keeps_board (s : State) (c idx : Nat) (f : IntakeJob → IntakeJob) : (s.setIntk c idx f).board = s.board := rfl

@[simp] theorem State.dropIntk_keeps_epoch (s : State) (c idx : Nat) : (s.dropIntk c idx).epoch = s.epoch := rfl
@[simp] theorem State.dropIntk_keeps_dict (s : State) (c idx : Nat) : (s.dropIntk c idx).dict = s.dict := rfl
@[simp] theorem State.dropIntk_keeps_staged (s : State) (c idx : Nat) : (s.dropIntk c idx).staged = s.staged := rfl
@[simp] theorem State.dropIntk_keeps_tele (s : State) (c idx : Nat) : (s.dropIntk c idx).tele = s.tele := rfl
@[simp] theorem State.dropIntk_keeps_mem (s : State) (c idx : Nat) : (s.dropIntk c idx).mem = s.mem := rfl
@[simp] theorem State.dropIntk_keeps_office (s : State) (c idx : Nat) : (s.dropIntk c idx).office = s.office := rfl
@[simp] theorem State.dropIntk_keeps_cs (s : State) (c idx : Nat) : (s.dropIntk c idx).cs = s.cs := rfl
@[simp] theorem State.dropIntk_keeps_fabric (s : State) (c idx : Nat) : (s.dropIntk c idx).fabric = s.fabric := rfl
@[simp] theorem State.dropIntk_keeps_coll (s : State) (c idx : Nat) : (s.dropIntk c idx).coll = s.coll := rfl
@[simp] theorem State.dropIntk_keeps_codec (s : State) (c idx : Nat) : (s.dropIntk c idx).codec = s.codec := rfl
@[simp] theorem State.dropIntk_keeps_net (s : State) (c idx : Nat) : (s.dropIntk c idx).net = s.net := rfl
@[simp] theorem State.dropIntk_keeps_ecat (s : State) (c idx : Nat) : (s.dropIntk c idx).ecat = s.ecat := rfl
@[simp] theorem State.dropIntk_keeps_store (s : State) (c idx : Nat) : (s.dropIntk c idx).store = s.store := rfl
@[simp] theorem State.dropIntk_keeps_faults (s : State) (c idx : Nat) : (s.dropIntk c idx).faults = s.faults := rfl
@[simp] theorem State.dropIntk_keeps_board (s : State) (c idx : Nat) : (s.dropIntk c idx).board = s.board := rfl

@[simp] theorem State.setIntkPipe_keeps_epoch (s : State) (p : Nat) (f : Pipe → Pipe) : (s.setIntkPipe p f).epoch = s.epoch := rfl
@[simp] theorem State.setIntkPipe_keeps_dict (s : State) (p : Nat) (f : Pipe → Pipe) : (s.setIntkPipe p f).dict = s.dict := rfl
@[simp] theorem State.setIntkPipe_keeps_staged (s : State) (p : Nat) (f : Pipe → Pipe) : (s.setIntkPipe p f).staged = s.staged := rfl
@[simp] theorem State.setIntkPipe_keeps_tele (s : State) (p : Nat) (f : Pipe → Pipe) : (s.setIntkPipe p f).tele = s.tele := rfl
@[simp] theorem State.setIntkPipe_keeps_mem (s : State) (p : Nat) (f : Pipe → Pipe) : (s.setIntkPipe p f).mem = s.mem := rfl
@[simp] theorem State.setIntkPipe_keeps_office (s : State) (p : Nat) (f : Pipe → Pipe) : (s.setIntkPipe p f).office = s.office := rfl
@[simp] theorem State.setIntkPipe_keeps_cs (s : State) (p : Nat) (f : Pipe → Pipe) : (s.setIntkPipe p f).cs = s.cs := rfl
@[simp] theorem State.setIntkPipe_keeps_fabric (s : State) (p : Nat) (f : Pipe → Pipe) : (s.setIntkPipe p f).fabric = s.fabric := rfl
@[simp] theorem State.setIntkPipe_keeps_coll (s : State) (p : Nat) (f : Pipe → Pipe) : (s.setIntkPipe p f).coll = s.coll := rfl
@[simp] theorem State.setIntkPipe_keeps_codec (s : State) (p : Nat) (f : Pipe → Pipe) : (s.setIntkPipe p f).codec = s.codec := rfl
@[simp] theorem State.setIntkPipe_keeps_net (s : State) (p : Nat) (f : Pipe → Pipe) : (s.setIntkPipe p f).net = s.net := rfl
@[simp] theorem State.setIntkPipe_keeps_ecat (s : State) (p : Nat) (f : Pipe → Pipe) : (s.setIntkPipe p f).ecat = s.ecat := rfl
@[simp] theorem State.setIntkPipe_keeps_store (s : State) (p : Nat) (f : Pipe → Pipe) : (s.setIntkPipe p f).store = s.store := rfl
@[simp] theorem State.setIntkPipe_keeps_faults (s : State) (p : Nat) (f : Pipe → Pipe) : (s.setIntkPipe p f).faults = s.faults := rfl
@[simp] theorem State.setIntkPipe_keeps_board (s : State) (p : Nat) (f : Pipe → Pipe) : (s.setIntkPipe p f).board = s.board := rfl

@[simp] theorem State.setStream_keeps_epoch (s : State) (i : Nat) (f : Codec → Codec) : (s.setStream i f).epoch = s.epoch := rfl
@[simp] theorem State.setStream_keeps_dict (s : State) (i : Nat) (f : Codec → Codec) : (s.setStream i f).dict = s.dict := rfl
@[simp] theorem State.setStream_keeps_staged (s : State) (i : Nat) (f : Codec → Codec) : (s.setStream i f).staged = s.staged := rfl
@[simp] theorem State.setStream_keeps_tele (s : State) (i : Nat) (f : Codec → Codec) : (s.setStream i f).tele = s.tele := rfl
@[simp] theorem State.setStream_keeps_mem (s : State) (i : Nat) (f : Codec → Codec) : (s.setStream i f).mem = s.mem := rfl
@[simp] theorem State.setStream_keeps_office (s : State) (i : Nat) (f : Codec → Codec) : (s.setStream i f).office = s.office := rfl
@[simp] theorem State.setStream_keeps_cs (s : State) (i : Nat) (f : Codec → Codec) : (s.setStream i f).cs = s.cs := rfl
@[simp] theorem State.setStream_keeps_fabric (s : State) (i : Nat) (f : Codec → Codec) : (s.setStream i f).fabric = s.fabric := rfl
@[simp] theorem State.setStream_keeps_coll (s : State) (i : Nat) (f : Codec → Codec) : (s.setStream i f).coll = s.coll := rfl
@[simp] theorem State.setStream_keeps_intake (s : State) (i : Nat) (f : Codec → Codec) : (s.setStream i f).intake = s.intake := rfl
@[simp] theorem State.setStream_keeps_net (s : State) (i : Nat) (f : Codec → Codec) : (s.setStream i f).net = s.net := rfl
@[simp] theorem State.setStream_keeps_ecat (s : State) (i : Nat) (f : Codec → Codec) : (s.setStream i f).ecat = s.ecat := rfl
@[simp] theorem State.setStream_keeps_store (s : State) (i : Nat) (f : Codec → Codec) : (s.setStream i f).store = s.store := rfl
@[simp] theorem State.setStream_keeps_faults (s : State) (i : Nat) (f : Codec → Codec) : (s.setStream i f).faults = s.faults := rfl
@[simp] theorem State.setStream_keeps_board (s : State) (i : Nat) (f : Codec → Codec) : (s.setStream i f).board = s.board := rfl

@[simp] theorem State.setCdc_keeps_epoch (s : State) (c idx : Nat) (f : CodecJob → CodecJob) : (s.setCdc c idx f).epoch = s.epoch := rfl
@[simp] theorem State.setCdc_keeps_dict (s : State) (c idx : Nat) (f : CodecJob → CodecJob) : (s.setCdc c idx f).dict = s.dict := rfl
@[simp] theorem State.setCdc_keeps_staged (s : State) (c idx : Nat) (f : CodecJob → CodecJob) : (s.setCdc c idx f).staged = s.staged := rfl
@[simp] theorem State.setCdc_keeps_tele (s : State) (c idx : Nat) (f : CodecJob → CodecJob) : (s.setCdc c idx f).tele = s.tele := rfl
@[simp] theorem State.setCdc_keeps_mem (s : State) (c idx : Nat) (f : CodecJob → CodecJob) : (s.setCdc c idx f).mem = s.mem := rfl
@[simp] theorem State.setCdc_keeps_office (s : State) (c idx : Nat) (f : CodecJob → CodecJob) : (s.setCdc c idx f).office = s.office := rfl
@[simp] theorem State.setCdc_keeps_cs (s : State) (c idx : Nat) (f : CodecJob → CodecJob) : (s.setCdc c idx f).cs = s.cs := rfl
@[simp] theorem State.setCdc_keeps_fabric (s : State) (c idx : Nat) (f : CodecJob → CodecJob) : (s.setCdc c idx f).fabric = s.fabric := rfl
@[simp] theorem State.setCdc_keeps_coll (s : State) (c idx : Nat) (f : CodecJob → CodecJob) : (s.setCdc c idx f).coll = s.coll := rfl
@[simp] theorem State.setCdc_keeps_intake (s : State) (c idx : Nat) (f : CodecJob → CodecJob) : (s.setCdc c idx f).intake = s.intake := rfl
@[simp] theorem State.setCdc_keeps_net (s : State) (c idx : Nat) (f : CodecJob → CodecJob) : (s.setCdc c idx f).net = s.net := rfl
@[simp] theorem State.setCdc_keeps_ecat (s : State) (c idx : Nat) (f : CodecJob → CodecJob) : (s.setCdc c idx f).ecat = s.ecat := rfl
@[simp] theorem State.setCdc_keeps_store (s : State) (c idx : Nat) (f : CodecJob → CodecJob) : (s.setCdc c idx f).store = s.store := rfl
@[simp] theorem State.setCdc_keeps_faults (s : State) (c idx : Nat) (f : CodecJob → CodecJob) : (s.setCdc c idx f).faults = s.faults := rfl
@[simp] theorem State.setCdc_keeps_board (s : State) (c idx : Nat) (f : CodecJob → CodecJob) : (s.setCdc c idx f).board = s.board := rfl

@[simp] theorem State.dropCdc_keeps_epoch (s : State) (c idx : Nat) : (s.dropCdc c idx).epoch = s.epoch := rfl
@[simp] theorem State.dropCdc_keeps_dict (s : State) (c idx : Nat) : (s.dropCdc c idx).dict = s.dict := rfl
@[simp] theorem State.dropCdc_keeps_staged (s : State) (c idx : Nat) : (s.dropCdc c idx).staged = s.staged := rfl
@[simp] theorem State.dropCdc_keeps_tele (s : State) (c idx : Nat) : (s.dropCdc c idx).tele = s.tele := rfl
@[simp] theorem State.dropCdc_keeps_mem (s : State) (c idx : Nat) : (s.dropCdc c idx).mem = s.mem := rfl
@[simp] theorem State.dropCdc_keeps_office (s : State) (c idx : Nat) : (s.dropCdc c idx).office = s.office := rfl
@[simp] theorem State.dropCdc_keeps_cs (s : State) (c idx : Nat) : (s.dropCdc c idx).cs = s.cs := rfl
@[simp] theorem State.dropCdc_keeps_fabric (s : State) (c idx : Nat) : (s.dropCdc c idx).fabric = s.fabric := rfl
@[simp] theorem State.dropCdc_keeps_coll (s : State) (c idx : Nat) : (s.dropCdc c idx).coll = s.coll := rfl
@[simp] theorem State.dropCdc_keeps_intake (s : State) (c idx : Nat) : (s.dropCdc c idx).intake = s.intake := rfl
@[simp] theorem State.dropCdc_keeps_net (s : State) (c idx : Nat) : (s.dropCdc c idx).net = s.net := rfl
@[simp] theorem State.dropCdc_keeps_ecat (s : State) (c idx : Nat) : (s.dropCdc c idx).ecat = s.ecat := rfl
@[simp] theorem State.dropCdc_keeps_store (s : State) (c idx : Nat) : (s.dropCdc c idx).store = s.store := rfl
@[simp] theorem State.dropCdc_keeps_faults (s : State) (c idx : Nat) : (s.dropCdc c idx).faults = s.faults := rfl
@[simp] theorem State.dropCdc_keeps_board (s : State) (c idx : Nat) : (s.dropCdc c idx).board = s.board := rfl

@[simp] theorem State.setCdcPipe_keeps_epoch (s : State) (p : Nat) (f : Pipe → Pipe) : (s.setCdcPipe p f).epoch = s.epoch := rfl
@[simp] theorem State.setCdcPipe_keeps_dict (s : State) (p : Nat) (f : Pipe → Pipe) : (s.setCdcPipe p f).dict = s.dict := rfl
@[simp] theorem State.setCdcPipe_keeps_staged (s : State) (p : Nat) (f : Pipe → Pipe) : (s.setCdcPipe p f).staged = s.staged := rfl
@[simp] theorem State.setCdcPipe_keeps_tele (s : State) (p : Nat) (f : Pipe → Pipe) : (s.setCdcPipe p f).tele = s.tele := rfl
@[simp] theorem State.setCdcPipe_keeps_mem (s : State) (p : Nat) (f : Pipe → Pipe) : (s.setCdcPipe p f).mem = s.mem := rfl
@[simp] theorem State.setCdcPipe_keeps_office (s : State) (p : Nat) (f : Pipe → Pipe) : (s.setCdcPipe p f).office = s.office := rfl
@[simp] theorem State.setCdcPipe_keeps_cs (s : State) (p : Nat) (f : Pipe → Pipe) : (s.setCdcPipe p f).cs = s.cs := rfl
@[simp] theorem State.setCdcPipe_keeps_fabric (s : State) (p : Nat) (f : Pipe → Pipe) : (s.setCdcPipe p f).fabric = s.fabric := rfl
@[simp] theorem State.setCdcPipe_keeps_coll (s : State) (p : Nat) (f : Pipe → Pipe) : (s.setCdcPipe p f).coll = s.coll := rfl
@[simp] theorem State.setCdcPipe_keeps_intake (s : State) (p : Nat) (f : Pipe → Pipe) : (s.setCdcPipe p f).intake = s.intake := rfl
@[simp] theorem State.setCdcPipe_keeps_net (s : State) (p : Nat) (f : Pipe → Pipe) : (s.setCdcPipe p f).net = s.net := rfl
@[simp] theorem State.setCdcPipe_keeps_ecat (s : State) (p : Nat) (f : Pipe → Pipe) : (s.setCdcPipe p f).ecat = s.ecat := rfl
@[simp] theorem State.setCdcPipe_keeps_store (s : State) (p : Nat) (f : Pipe → Pipe) : (s.setCdcPipe p f).store = s.store := rfl
@[simp] theorem State.setCdcPipe_keeps_faults (s : State) (p : Nat) (f : Pipe → Pipe) : (s.setCdcPipe p f).faults = s.faults := rfl
@[simp] theorem State.setCdcPipe_keeps_board (s : State) (p : Nat) (f : Pipe → Pipe) : (s.setCdcPipe p f).board = s.board := rfl

@[simp] theorem State.knowMark_keeps_epoch (s : State) (src part post : Nat) : (s.knowMark src part post).epoch = s.epoch := rfl
@[simp] theorem State.knowMark_keeps_dict (s : State) (src part post : Nat) : (s.knowMark src part post).dict = s.dict := rfl
@[simp] theorem State.knowMark_keeps_staged (s : State) (src part post : Nat) : (s.knowMark src part post).staged = s.staged := rfl
@[simp] theorem State.knowMark_keeps_tele (s : State) (src part post : Nat) : (s.knowMark src part post).tele = s.tele := rfl
@[simp] theorem State.knowMark_keeps_mem (s : State) (src part post : Nat) : (s.knowMark src part post).mem = s.mem := rfl
@[simp] theorem State.knowMark_keeps_office (s : State) (src part post : Nat) : (s.knowMark src part post).office = s.office := rfl
@[simp] theorem State.knowMark_keeps_cs (s : State) (src part post : Nat) : (s.knowMark src part post).cs = s.cs := rfl
@[simp] theorem State.knowMark_keeps_fabric (s : State) (src part post : Nat) : (s.knowMark src part post).fabric = s.fabric := rfl
@[simp] theorem State.knowMark_keeps_intake (s : State) (src part post : Nat) : (s.knowMark src part post).intake = s.intake := rfl
@[simp] theorem State.knowMark_keeps_codec (s : State) (src part post : Nat) : (s.knowMark src part post).codec = s.codec := rfl
@[simp] theorem State.knowMark_keeps_net (s : State) (src part post : Nat) : (s.knowMark src part post).net = s.net := rfl
@[simp] theorem State.knowMark_keeps_ecat (s : State) (src part post : Nat) : (s.knowMark src part post).ecat = s.ecat := rfl
@[simp] theorem State.knowMark_keeps_store (s : State) (src part post : Nat) : (s.knowMark src part post).store = s.store := rfl
@[simp] theorem State.knowMark_keeps_faults (s : State) (src part post : Nat) : (s.knowMark src part post).faults = s.faults := rfl
@[simp] theorem State.knowMark_keeps_board (s : State) (src part post : Nat) : (s.knowMark src part post).board = s.board := rfl

end Sys2Proof.Machine
end

