-- ==== Sys2Proof/Laws/Stream.lean ====
section
/-! SUPPORT. Stream: what starting an instruction of a row does, said once. -/

namespace Sys2Proof.Machine
open Sys2Proof

/-- A row whose instruction starts now does what the row's own start does, or launches its operation. -/
theorem State.startMacro_accepts (s : State) (m : Macro) (c idx : Nat) (x : Ctx) (hx : s.ctx? c = some x) (hc : x.number = c)
    (ha : s.accepts m x idx = true) (hl : opcodeListed m.opcode = true) :
    s.startMacro m c idx = (match m.start with
      | some go => go (s.slotSeen m x idx) (s.slotEnv x idx) (s.slotFlight m x idx)
      | none => (s.slotSeen m x idx).launch m.op (s.slotEnv x idx) (s.slotFlight m x idx)) := by
  unfold State.accepts at ha
  simp only [Bool.and_eq_true, beq_iff_eq, Bool.not_eq_true'] at ha
  obtain ⟨⟨⟨⟨⟨⟨⟨⟨⟨h1, h2⟩, h3⟩, h4⟩, h5⟩, h6⟩, h7⟩, hw⟩, hg⟩, h8⟩ := ha
  unfold State.slotSeen State.slotEnv Ctx.slotAt at *
  unfold State.startMacro
  simp only [hc] at h8 hg
  simp only [hx, h1, h2, h4, h5, h6, h7, hw, hg, h8, h3, hl, bne_self_eq_false, Bool.not_true, Bool.false_eq_true, if_false, Bool.or_false]
  rfl

end Sys2Proof.Machine
end

