-- ==== Sys2Proof/Tests/Slice0.lean ====
section
/-! SUPPORT. Slice0: small tests with results from the spec's own examples and rules, one ill-formed command for each check of
WellFormed, and a state that meets the hypotheses of each statement. -/

namespace Sys2Proof.Tests
open Sys2Proof Sys2Proof.Machine

set_option maxRecDepth 20000
set_option Elab.async false

/-! ## Ill-formed commands -/

theorem test_wf_byte : (Instr.newTail 0 256 0).wf = false := by decide
theorem test_wf_half : (Instr.portEnable 65536).wf = false := by decide
theorem test_wf_word : (Instr.mma 0 4294967296).wf = false := by decide
theorem test_wf_long : (Instr.faultClear 18446744073709551616).wf = false := by decide
theorem test_wf_context : (Instr.mma 1048576 0).wf = false := by decide
theorem test_wf_cell : (Instr.reseed 256).wf = false := by decide
theorem test_wf_channel : (Instr.retrainDue 24).wf = false := by decide
theorem test_wf_channels : (Instr.powerOn true [0, 24]).wf = false := by decide
theorem test_wf_pipe : (Instr.sampleTake 4).wf = false := by decide
theorem test_wf_port : (Instr.flitTransmit 12).wf = false := by decide
theorem test_wf_two : (Instr.ethercatLinkUp 2).wf = false := by decide
theorem test_wf_lanes : (Instr.portAligned 0 16).wf = false := by decide
theorem test_wf_node : (Instr.ctrlBroadcast 0x8000 []).wf = false := by decide
theorem test_wf_postmark : (Instr.remoteAlloc 0 65536 []).wf = false := by decide
theorem test_wf_axis : (Instr.postcardReceive 0 0 3 0 ⟨0, 0⟩ 0 []).wf = false := by decide
theorem test_wf_axis_position : (Instr.postcardReceive 0 0 0 32 ⟨0, 0⟩ 0 []).wf = false := by decide
theorem test_wf_partition : (Instr.postcardReceive 0 0 0 0 ⟨4, 0⟩ 0 []).wf = false := by decide
theorem test_wf_chunk : (Instr.chunkReceive 0 0 0 ⟨0, 0⟩ 0 ⟨4, 0, false, 0, false⟩ false []).wf = false := by decide
theorem test_wf_address : (Instr.unmappedAccess 0x10000000000 false).wf = false := by decide
theorem test_wf_block : (Instr.nandScrub 4096 0).wf = false := by decide
theorem test_wf_ip : (Instr.arpRequest 0 (2 ^ 128) 0 0).wf = false := by decide
theorem test_wf_mac : (Instr.arpRequest 0 0 0 (2 ^ 48)).wf = false := by decide
theorem test_wf_datagram : (Instr.openSession ⟨2, 0, 0, 0, []⟩).wf = false := by decide
theorem test_wf_remote : (Instr.remoteAccess ⟨0, 0, 0, 3, 0, 0, []⟩).wf = false := by decide
theorem test_wf_result : (Instr.resultRequest ⟨0, 65536, 0, 0, 0, 0⟩).wf = false := by decide
theorem test_wf_hello : (Instr.helloReceive 0 ⟨0, 0, 0, 0, []⟩).wf = false := by decide
theorem test_wf_frame : (Instr.ethercatFrame 0 [⟨4, 0, 0, [], 0⟩]).wf = false := by decide
theorem test_wf_frame_ok : (Instr.ethercatFrame 0 [⟨2, 0, 0x0130, [], 2⟩]).wf = true := by decide

/-! ## Small states -/

/-- The module in PreOp, its mailbox served. -/
def up : State := { State.reset with ecat := { State.reset.ecat with al := 2 } }

/-- A Live context with one command of four in its ring, which `slot` holds at 0x1000. -/
def ctx1 : Ctx :=
  ⟨1, .live, 0, false, 0, false, 5, 7, 9, none, 0, 0, 0, 0, false, ⟨0x1000, 2, 0x2000, 1, 0, 0, .running⟩,
    ⟨0, false, 0, 0, 0, 0, 0, none, false⟩⟩

def withCells (s : State) (l : List (Nat × Bytes)) : State :=
  { s with mem := { s.mem with cells := l.foldl (fun m x => (List.range x.2.length).foldl (fun m i =>
      memPut (x.1 + i) (x.2.getD i 0) m) m) s.mem.cells } }

def withCtx (s : State) (x : Ctx) : State := { s with office := { s.office with ctxs := [x] } }

/-- The context with a macro-instruction: opcode, flags, and words W1 to W3 (03 R60). -/
def prog (slot : Bytes) : State := withCells (withCtx up ctx1) [(0x1000, slot)]

/-! ## Results of the spec -/

/-- 17, worked example, step 5: the abort of a layout pair that disagrees is 80 00 23 06 43 00 04 06. -/
theorem test_layout_mismatch_abort :
    (match exec (.layoutCommit 1) { up with staged := kvSet (dkey 0x2300 4) 2 [] } with
      | .next t => (t.ecat.sm1.map (fun m => m.drop 8), t.ecat.lastAbort.2.2)
      | _ => ([], 0)) = ([[0x80, 0x00, 0x23, 0x06, 0x43, 0x00, 0x04, 0x06]], 0x01F1) := by decide +kernel

/-- 03 R60: the opcode stands in byte 0. -/
theorem test_nop_runs : (match exec (.nop 1 0) (prog (leBytes 64 (mNop.opcode))) with
      | .next t => (t.flight? 1 0).map (fun f => (f.phase, f.status))
      | _ => none) = some (.ended, 0) := by decide +kernel

theorem test_nop_accepted : (prog (leBytes 64 (mNop.opcode))).accepts mNop ctx1 0 = true := by decide +kernel

/-! ## Hypotheses that are met: steps and command streams -/

theorem test_hyp_steps : ({ up with pending := [.refclk156Return] } : State).pending = .refclk156Return :: [] ∧ up.pending = [] ∧
    up.memOk = true ∧ ∃ t, step { up with pending := [.refclk156Return] } = .next t :=
  ⟨by decide, by decide, by decide +kernel, _, rfl⟩

theorem test_hyp_security_form : up.sec.ok := by unfold Security.ok; decide

/-- A module in Blank. -/
def blank : State := { up with sec := { up.sec with level := 2, fuses := { up.sec.fuses with lifecycle := 0 } } }

theorem test_hyp_blank : blank.mailboxUp = true ∧ blank.sec.fuses.lifecycle = 0 ∧ blank.sec.trngFail = false := by decide +kernel

theorem test_hyp_new_tail : (prog []).ctx? 1 = some ctx1 ∧ (prog []).ctx? 9 = none ∧ ctx1.queue.tail = 1 ∧ ctx1.queue.retired = 0 ∧
    ctx1.queue.ringLog2 = 2 ∧ (1 + 2 ^ 32 - 1) % 2 ^ 32 = 0 ∧ (2 + 2 ^ 32 - 1) % 2 ^ 32 = 1 ∧ (4 + 2 ^ 32 - 0) % 2 ^ 32 = 4 ∧
    (5 + 2 ^ 32 - 0) % 2 ^ 32 = 5 ∧ (2 ^ 31 + 1 + 2 ^ 32 - 1) % 2 ^ 32 = 2 ^ 31 ∧ 2 ^ 31 < (0 + 2 ^ 32 - 1) % 2 ^ 32 := by decide +kernel

/-- A context whose queue is halted. -/
def halted : Ctx := { ctx1 with queue := { ctx1.queue with qs := .halted } }

theorem test_hyp_resume : (withCtx up halted).ctx? 1 = some halted ∧ bit (2 ^ 32 + 1) 32 = true ∧
    bellAction halted.queue (2 ^ 32 + 1) ≠ 0 := by decide +kernel

/-- A macro-instruction (03 R60): opcode, flags, slots S1 to S7 and words W1 to W4. -/
def mi (op flags : Nat) (ss ws : List Nat) : Bytes :=
  leBytes 1 op ++ leBytes 1 flags ++ leBytes 2 0 ++ (List.range 7).flatMap (fun i => leBytes 4 (ss.getD i 0)) ++
    (List.range 4).flatMap (fun i => leBytes 8 (ws.getD i 0))

/-- A tensor descriptor of rank 1 (03 R64). -/
def vec (base n fmt : Nat) : Bytes :=
  leBytes 8 base ++ leBytes 4 n ++ List.replicate 44 0 ++ leBytes 1 (16 + fmt) ++ List.replicate 7 0

/-- ARGMX of four FP32 elements at 0x4000 into a UINT16 at 0x5000. -/
def argmxState : State :=
  withCells (prog (mi 0x19 0 [0xC0, 0, 0, 0xC1] [])) [(0x3000, vec 0x4000 4 fFP32), (0x3040, vec 0x5000 1 fU16),
    (0x4008, leBytes 4 0x3F800000)]

theorem test_hyp_run : argmxState.ctx? 1 = some ctx1 ∧ argmxState.accepts mArgmx ctx1 0 = true ∧
    argmxState.allHere mArgmx ctx1 0 = true ∧ argmxState.runsClean mArgmx ctx1 0 = true := by decide +kernel

/-- The ARGMX at work, its tasks done. -/
def argmxDone : State :=
  match exec (.argmx 1 0) argmxState with
  | .next t => { t with office := { t.office with tasks := [] } }
  | _ => up

theorem test_hyp_run_completes : (argmxDone.ctx? 1).any (fun y => y.state == .live && !argmxDone.office.stopped.contains y.partition) = true ∧
    (argmxDone.flight? 1 0).any (fun g => !argmxDone.tasksLeft g && g.status == 0) = true := by decide +kernel

/-- 08: the largest of 0, 0, 1 and 0 is element 2. -/
theorem test_argmx : (match exec (.instructionComplete 1 0) argmxDone with
      | .next t => t.readBytes 0x5000 2
      | _ => []) = [2, 0] := by decide +kernel

/-- A tensor descriptor (03 R64); of the Lined format with blocks of 16 where `fmt` is 4. -/
def tens (base : Nat) (dims strides : List Nat) (fmt : Nat) : Bytes :=
  leBytes 8 base ++ (List.range 5).flatMap (fun i => leBytes 4 (dims.getD i 0)) ++
    (List.range 4).flatMap (fun i => leBytes 5 (strides.getD i 0)) ++ leBytes 8 0 ++ leBytes 1 (16 * dims.length + fmt) ++
    leBytes 1 (if fmt == 4 then 16 else 0) ++ leBytes 6 0
def mat2 (base : Nat) : Bytes := tens base [2, 2] [8] fFP32
def map5 (base : Nat) : Bytes := tens base [1, 1, 1, 1, 1] [4, 4, 4, 4] fFP32
def att3 (base : Nat) : Bytes := tens base [32, 1, 1] [128, 128] fFP32

/-- A mask header of one block, its lists at 0x9000 and 0x9100 (06 R153), and a store of 128 lines (06 R175). -/
def maskHead : Bytes := leBytes 8 0x9000 ++ leBytes 8 0x9100 ++ leBytes 8 0 ++ leBytes 4 1 ++ leBytes 4 1 ++ leBytes 32 0
def storeHead : Bytes := leBytes 8 0x10000 ++ leBytes 8 0x30000 ++ leBytes 8 0 ++ leBytes 4 128 ++ leBytes 1 (4 + 2 * 16) ++ leBytes 35 0

/-- A macro-instruction, what its references name from 0x3000 on, and other bytes behind them. -/
def rowState (op : Nat) (ss ws : List Nat) (objs : List Bytes) (more : List (Nat × Bytes)) : State :=
  let s := withCtx up ctx1
  let runs := (0x1000, mi op 0 ss ws) :: (objs.zipIdx.map (fun (x : Bytes × Nat) => (0x3000 + 64 * x.2, x.1))) ++ more
  let cells := runs.flatMap (fun (x : Nat × Bytes) => x.2.zipIdx.filterMap (fun (b : Byte × Nat) =>
    if b.1 == 0 then none else some (x.1 + b.2, b.1)))
  { s with mem := { s.mem with cells := cells } }

/-- The row is accepted at its slot and everything it touches is of this module. -/
def rowOk (r : Macro × State) : Bool := r.2.accepts r.1 ctx1 0 && r.2.allHere r.1 ctx1 0

theorem test_hyp_run_matrix : rowOk (mMma, rowState 1 [0xC0, 0xC1, 0, 0xC2] [] [mat2 0x4000, mat2 0x5000, mat2 0x6000] []) = true ∧
    rowOk (mMmas, rowState 2 [0xC0, 0xC1, 0, 0xC2] [0, 0, 0, 0xC3 * 2 ^ 32]
      [mat2 0x4000, mat2 0x5000, mat2 0x6000, leBytes 24 0 ++ leBytes 4 2 ++ leBytes 36 0] []) = true ∧
    rowOk (mConv, rowState 3 [0xC0, 0xC1, 0, 0xC2] [] [map5 0x4000, map5 0x5000, map5 0x6000] []) = true ∧
    rowOk (mPool, rowState 4 [0xC0, 0, 0, 0xC1] [0, 0, 0x49] [map5 0x4000, map5 0x5000] []) = true := by decide +kernel

theorem test_hyp_run_attention :
    rowOk (mAttf, rowState 5 [0xC0, 0xC1, 0xC2, 0xC3] [0, 0, 0xC4] [att3 0x4000, att3 0x5000, att3 0x6000, att3 0x7000, maskHead]
      [(0x9004, leBytes 4 1)]) = true ∧
    rowOk (mAttb, rowState 6 [0xC0, 0xC1, 0xC2, 0xC3] [0, 0, 0xC4 + 0xC5 * 2 ^ 32, 0xC6]
      [att3 0x4000, att3 0x5000, att3 0x6000, att3 0x7000, maskHead, tens 0x8000 [2, 1, 1] [8, 8] fFP32,
        leBytes 4 0xC7 ++ leBytes 4 0xC8 ++ leBytes 56 0, att3 0xA000, att3 0xB000] [(0x9004, leBytes 4 1)]) = true := by decide +kernel

theorem test_hyp_run_latent :
    rowOk (mLatx, rowState 7 [0xC0, 0xC1, 0, 0xC2] [0, 0xC3 * 2 ^ 32, 2 * 2 ^ 24]
      [storeHead, tens 0x4000 [256, 64, 1] [1024, 65536] fFP32, att3 0x50000, att3 0x60000] []) = true ∧
    rowOk (mKvap, rowState 8 [0xC0, 0xC1, 0, 0xC2] [] [tens 0x4000 [256, 1] [272] 4, tens 0x5000 [1] [] fU32, storeHead] []) = true := by
  decide +kernel

theorem test_hyp_run_special : rowOk (mSfn, rowState 9 [0xC0, 0, 0, 0xC1] [] [mat2 0x4000, mat2 0x5000] []) = true ∧
    rowOk (mNorm, rowState 10 [0xC0, 0, 0, 0xC1] [] [mat2 0x4000, mat2 0x5000] []) = true ∧
    rowOk (mSmax, rowState 11 [0xC0, 0, 0, 0xC1] [] [mat2 0x4000, mat2 0x5000] []) = true ∧
    rowOk (mSamp, rowState 12 [0xC0, 0, 0, 0xC1] [] [vec 0x4000 4 fFP32, vec 0x5000 1 fU32] []) = true ∧
    rowOk (mRand, rowState 13 [0, 0, 0, 0xC0] [0, 0x3F80 * 2 ^ 16] [vec 0x4000 4 fFP32] []) = true ∧
    rowOk (mQnt, rowState 14 [0xC0, 0, 0, 0xC1] [] [mat2 0x4000, mat2 0x5000] []) = true := by decide +kernel

theorem test_hyp_run_moves :
    rowOk (mRoute, rowState 15 [0xC0, 0, 0, 0xC1] [0, 1] [mat2 0x4000, tens 0x5000 [1, 3, 2] [4, 12] fU32] []) = true ∧
    rowOk (mGath, rowState 16 [0xC0, 0xC1, 0, 0xC2] [] [mat2 0x4000, vec 0x5000 2 fU32, mat2 0x6000] []) = true ∧
    rowOk (mScat, rowState 17 [0xC0, 0xC1, 0, 0xC2] [] [mat2 0x4000, vec 0x5000 2 fU32, mat2 0x6000] []) = true ∧
    rowOk (mCopy, rowState 18 [0xC0, 0, 0, 0xC1] [] [mat2 0x4000, mat2 0x5000] []) = true ∧
    rowOk (mStill, rowState 24 [0xC0, 0xC1, 0, 0xC2] [] [mat2 0x4000, mat2 0x5000, vec 0x6000 1 fU32] []) = true := by decide +kernel

/-- A WAIT on the semaphore at 0x6000 for a value of at least `v`. -/
def waitState (v : Nat) : State := withCells (prog (mi 0x15 0 [] [0x6000, v, 0x100000000])) [(0x6000, leBytes 8 3)]

theorem test_hyp_wait : (waitState 3).ctx? 1 = some ctx1 ∧ (waitState 3).accepts mWait ctx1 0 = true ∧
    (waitState 3).mem.poisonIn 0x6000 8 = [] ∧ condMet 0x100000000 ((waitState 3).semRead 0x6000) 3 = true ∧
    (waitState 3).noneMarked ∧ (waitState 4).accepts mWait ctx1 0 = true ∧ condMet 0x100000000 ((waitState 4).semRead 0x6000) 4 = false := by
  unfold State.noneMarked
  decide +kernel

/-- The WAIT that waits, in flight. -/
def waiting (v : Nat) : State := (waitState v).addFlight { (waitState v).slotFlight mWait ctx1 0 with phase := .waiting }

theorem test_hyp_waiting : ((waiting 4).waiting? 1 0).isSome = true ∧ ((waiting 4).waiting? 1 0).all (fun f =>
      !condMet (leAt f.slot 48 8) ((waiting 4).semRead (leAt f.slot 32 8)) (leAt f.slot 40 8) && bits (leAt f.slot 48 8) 32 24 != 0) = true ∧
    ((waiting 3).waiting? 1 0).all (fun f => condMet (leAt f.slot 48 8) ((waiting 3).semRead (leAt f.slot 32 8)) (leAt f.slot 40 8)) = true ∧
    ((waiting 3).waiting? 1 0).isSome = true ∧ (waiting 3).mem.poisonIn 0x6000 8 = [] := by decide +kernel

/-- A SIGNAL that adds 5 to the semaphore at 0x6000. -/
def signalState : State := withCells (prog (mi 0x16 0 [] [0x6000, 5, 0])) [(0x6000, leBytes 8 3)]

theorem test_hyp_signal : signalState.accepts mSignal ctx1 0 = true ∧ signalState.cs.failedWrites.find? (fun w => w.1 == 1) = none ∧
    signalState.gHere 0x6000 = true ∧ signalState.mem.poisonIn 0x6000 8 = [] := by decide +kernel

/-- 03 R78: 3 and 5 are 8. -/
theorem test_signal : (match exec (.signal 1 0) signalState with
      | .next t => t.readBytes 0x6000 8
      | _ => []) = leBytes 8 8 := by decide +kernel

theorem test_hyp_nop_fence : (prog (mi 0x1F 0 [] [])).accepts mNop ctx1 0 = true ∧
    (prog (mi 0x17 0 [] [])).accepts mFence ctx1 0 = true ∧ (∀ w ∈ (prog []).cs.failedWrites, w.1 ≠ 1) := by decide +kernel

/-- An instruction of `ctx1` in flight. -/
def flying (opcode : Nat) (slot : Bytes) (phase : Phase) : InFlight :=
  ⟨1, 0, opcode, 0, 0, 0, slot, phase, false, 0, 0, 0, [], [], [], [], false, [], [], [], [], [], 0, false, [], none⟩

/-- An instruction whose work is over. -/
def ended1 : InFlight := { flying 0x1F [] .ended with flags := 1, tag := 7 }

def complete1 : State := (prog []).addFlight ended1

theorem test_hyp_complete : complete1.ctx? 1 = some ctx1 ∧ complete1.flight? 1 0 = some ended1 ∧ ended1.ready = true ∧
    complete1.tasksLeft ended1 = false ∧ ctx1.state ≠ .ending ∧ complete1.office.stopped.contains 0 = false ∧ ended1.endWrites = [] ∧
    bit ended1.flags 0 = true := by decide +kernel

/-- 03 R88: Status, Tag, Index, Opcode, HighestRung, Postmark and Detail. -/
theorem test_record : (match exec (.instructionComplete 1 0) complete1 with
      | .next t => t.readBytes 0x2000 16
      | _ => []) = [0, 0, 7, 0, 0, 0, 0, 0, 0x1F, 0, 0, 0, 0, 0, 0, 0] := by decide +kernel

/-- 03 R578: history blocks recomputed rank above trouble that remains. -/
theorem test_notes : topNote [0x0011, 0x0040] = 0x0040 ∧ joinStatus 0x0302 0x0040 = 0x0302 ∧ joinStatus 0x0040 0x0401 = 0x0401 ∧
    isSuccess 0x0302 = false ∧ isSuccess 0x0040 = true := by decide +kernel

/-! ## Hypotheses that are met: dictionary writes -/

/-- `up` with staged pair members. -/
def staged (l : List (Nat × Nat × Nat)) : State := { up with staged := l.foldl (fun m x => kvSet (dkey x.1 x.2.1) x.2.2 m) [] }

theorem test_hyp_ranges : up.mailboxUp = true ∧ State.reset.mailboxUp = false ∧ up.keepRefused = 0 ∧ (0 < 1 ∨ 1 < 0) ∧ (2 < 1 ∨ 1 < 2) ∧
    triggerRows.length = 15 := by decide +kernel

/-- A torus of 32 × 1 × 1 nodes, and its node 31; node 32 stands outside it. -/
theorem test_hyp_node_pair :
    ((staged [(0x2360, 1, 31), (0x2360, 2, 31)]).mailboxUp = true ∧ bit ((staged [(0x2360, 1, 31), (0x2360, 2, 31)]).staging 0x2360 2) 15 = false ∧
      bit 31 15 = false ∧ inTorus 31 31 = true ∧ (staged [(0x2360, 1, 31), (0x2360, 2, 31)]).node = 0xFFFF) ∧
    (inTorus 31 32 = false ∧ bit 32 15 = false) ∧ bit 0x8000 15 = true ∧
    ({ up with fabric := { up.fabric with nodeInForce := 3 } } : State).node ≠ 0xFFFF := by decide +kernel

theorem test_hyp_routes : inTorus 31 31 = true ∧ inTorus 31 32 = false ∧ bit 1 0 = true ∧ axisLen 31 0 = 32 ∧ axisLen 31 1 = 1 ∧
    (staged [(0x2361, 1, 31), (0x2361, 2, 4096)]).staging 0x2361 2 = 4096 ∧
    (∀ p, p < 12 → ¬(bit 3 p = true ∧ axisLen 31 (p / 4) = 1)) := by decide +kernel

/-- A module whose port 0 is Active at width 4, on a torus of 32. -/
def linked : State := { up with fabric := { up.fabric with
  nodeInForce := 3
  torusInForce := 31
  ports := modifyAt (fun (p : Port) => { p with
    st := .active
    width := 4
    lanes := 15
    aligned := 15 }) 0 up.fabric.ports } }

theorem test_hyp_port_writes : linked.mailboxUp = true ∧ linked.fabricOn = true ∧ linked.keepRefused = 0 ∧ (4095 < 4096 ∧ 4096 ≤ 4096) ∧
    linked.laneCan (3 / 4) (3 % 4) = true ∧ linked.laneCan (47 / 4) (47 % 4) = false := by decide +kernel

theorem test_hyp_pairs :
    (staged [(0x2351, 1, 7), (0x2351, 2, 0x100000)]).staging 0x2351 2 ≤ 0x100000 ∧
    (0x100000 < (staged [(0x2351, 2, 0x100001)]).staging 0x2351 2 ∧ (staged [(0x2351, 2, 0x100001)]).staging 0x2351 2 ≠ 0xFFFFFFFF) ∧
    (staged [(0x2351, 2, 0xFFFFFFFF)]).staging 0x2351 2 = 0xFFFFFFFF ∧ up.office.quotas.length < 4096 ∧
    (staged [(0x2300, 1, 2), (0x2300, 2, 1), (0x2300, 3, 3)]).layoutAgrees = true ∧ (staged [(0x2300, 1, 3)]).layoutAgrees = false := by
  decide +kernel

/-- An image of state format `f`, live from `l`. -/
def image (f l ver : Nat) : Bytes := List.replicate 20 0 ++ leBytes 4 f ++ leBytes 4 l ++ leBytes 4 0 ++ leBytes 4 ver

/-- `up` with an image that waits. -/
def placed (b : Bytes) : State := { up with store := { up.store with pendingImage := some b, running := image 2 1 0 } }

theorem test_hyp_activation : up.store.pendingImage = none ∧ (placed (image 2 2 0)).mailboxUp = true ∧
    (imgLiveFrom (image 2 2 0) ≤ imgState (placed (image 2 2 0)).store.running ∧ imgState (image 2 1 0) ≤ imgState (image 2 2 0)) ∧
    ¬imgLiveFrom (image 3 3 0) ≤ imgState (image 2 1 0) ∧ ¬imgState (image 2 1 0) ≤ imgState (image 1 1 0) := by decide +kernel

theorem test_hyp_suspend : (withCtx up ctx1).mailboxUp = true ∧ (withCtx up ctx1).ctx? 1 = some ctx1 ∧ ctx1.state = .live ∧
    ctx1.suspending = false ∧ (withCtx up ctx1).freeSlot 0 = some 0 ∧ (0 : Nat) < 2 ^ 32 := by decide +kernel

theorem test_hyp_suspend_full : ({ withCtx up ctx1 with office := { (withCtx up ctx1).office with saveUsed := [(0, 0), (0, 1)] } } : State).freeSlot 0
    = none ∧ up.partExists 0 = true ∧ up.partExists 1 = false ∧ up.office.ctxs = [] ∧ up.mem.saveSlots = 2 := by decide +kernel

theorem test_hyp_resume_context : (withCtx up { ctx1 with state := .suspended }).ctx? 1 = some { ctx1 with state := .suspended } := by
  decide +kernel

/-! ## Fences and resets -/

/-- `up` with a fence record of state `st` for staging engine 4, and an act on it staged. -/
def fenced (act st : Nat) : State :=
  { staged [(0x4010, 1, 0x4004), (0x4010, 2, act)] with faults := { up.faults with fences := [⟨0x4004, st, 1, 0, 0, 0⟩] } }

theorem test_hyp_fences :
    (staged [(0x4010, 1, 0x4004), (0x4010, 2, 1)]).staging 0x4010 1 = 0x4004 ∧ fenceable 0x4004 = true ∧ fenceable 0x4020 = false ∧
    fenceable 0x401F = true ∧ up.isFenced 0x4004 = false ∧ up.lastChannel 0x4004 = false ∧ (fenced 1 1).isFenced 0x4004 = true ∧
    (fenced 2 1).keepRefused = 0 ∧ (fenced 2 1).fenceOf 0x4004 = some ⟨0x4004, 1, 1, 0, 0, 0⟩ ∧ up.fenceOf 0x4004 = none ∧
    (staged [(0x4010, 2, 0)]).staging 0x4010 2 ≠ 2 := by decide +kernel

/-- Channel 0 alone is left in its region. -/
theorem test_hyp_last_channel : ({ up with mem := { up.mem with chans := up.mem.chans.map (fun (c : Chan) => { c with
    active := c.id == 0 || decide (6 ≤ c.id) }) } } : State).lastChannel 0x7000 = true := by decide +kernel

theorem test_hyp_resets : up.partExists 0 = true ∧ up.office.stopped.contains 0 = false ∧ up.resetLegal 0x11 = false ∧
    up.resetLegal 0x10 = true ∧ up.resetLegal 0x0F = false ∧ up.resetLegal 0x14 = false ∧ up.resetLegal 0 = false := by decide +kernel

/-! ## Security -/

/-- A token of 384 bytes of operation `op`. -/
def token (op : Nat) : Bytes := leBytes 4 0 ++ leBytes 1 op ++ List.replicate 379 0

theorem test_hyp_token_refused : ∀ op ∈ [1, 2, 3, 4, 5, 6], tokenOf op (token op) = true ∧ up.tokenCode (token op) ≠ 0 := by decide +kernel

theorem test_hyp_challenge : up.sec.lockedOut = false ∧ up.sec.trngFail = false ∧ up.mailboxUp = true ∧
    ({ up with sec := { up.sec with lockedOut := true } } : State).mailboxUp = true ∧
    ({ up with sec := { up.sec with trngFail := true } } : State).sec.lockedOut = false ∧
    ({ up with sec := { up.sec with refusals := 7 } } : State).sec.refusals = 7 := by decide +kernel

/-- An identity whose tag fits its wrapped key. -/
def identity1 : Identity :=
  let w := List.replicate 66 1
  ⟨3, List.replicate 12 0, w, gcmTagOf (aesKeys (leBytes 32 0)) (List.replicate 12 0) (wrapData 0 3) w, []⟩

def known : State := { up with sec := { up.sec with identity := some identity1 } }

theorem test_hyp_identity : known.mailboxUp = true ∧ known.usableKey.isSome = true ∧ known.sec.identity = some identity1 ∧
    known.sec.attState ≠ 1 ∧ known.sec.trngFail = false ∧ known.store.condition ≠ 2 ∧ up.usableKey = none ∧ up.sec.fuses.lifecycle ≠ 0 ∧
    known.board.phase = .serving ∧ (known.sec.fuses.unwrapKey identity1).isSome = true := by decide +kernel

/-- The anchor's image at security version `v`, and one of version 2 running. -/
def versioned (v : Nat) : State := { up with store := { up.store with image := some ⟨image 0 0 v, []⟩, running := image 0 0 2 } }

theorem test_hyp_version : (versioned 2).mailboxUp = true ∧ imgSecVer (image 0 0 1) < imgSecVer (versioned 1).store.running ∧
    imgSecVer (versioned 2).store.running ≤ imgSecVer (image 0 0 2) ∧ (versioned 2).sec.fuses.secVer < 2 ∧
    imgSecVer (versioned 2).store.running = 2 ∧
    imgSecVer ({ versioned 2 with store := { (versioned 2).store with running := image 0 0 0 } } : State).store.running ≤ up.sec.fuses.secVer := by
  decide +kernel

/-- The module at debug level `l`, DebugAddress at `a`. -/
def debug (l a : Nat) : State := { up with sec := { up.sec with level := l }, dict := kvSet (dkey 0x5031 1) a up.dict }

theorem test_hyp_debug :
    ((debug 2 0x1000).mailboxUp = true ∧ (debug 2 0x1000).dget 0x5031 1 = 0x1000 ∧ (debug 2 0x1000).extestOn = false ∧
      (debug 2 0x1000).darkAt 0x1000 = false ∧ (debug 2 0x1000).unmapped 0x1000 false = false ∧ (debug 2 0x1000).unmapped 0x1000 true = false ∧
      (debug 2 0x1000).mem.poisonIn 0x1000 64 = [] ∧ (debug 2 0x1000).mem.window 0x1000 ≠ 4) ∧
    ((debug 1 (2 ^ 40)).dget 0x5031 1 = 2 ^ 40 ∧ (debug 1 (2 ^ 40)).sec.level < 2) ∧
    (debug 2 0xFFFFFFFFC0).unmapped 0xFFFFFFFFC0 false = true ∧ (debug 2 0xFFFFFFFFC0).unmapped 0xFFFFFFFFC0 true = true ∧
    0xFFFFFFFFC0 % 64 = 0 ∧ (debug 0 0).sec.level = 0 := by decide +kernel

/-- A module in Returned at debug level Full. -/
def returned : State := { debug 2 0 with sec := { (debug 2 0).sec with fuses := { up.sec.fuses with lifecycle := 3 } } }

theorem test_hyp_tap : returned.tapOn = true ∧ (∀ row ∈ tapRows, returned.granted? row.1 = true) ∧
    (∀ row ∈ tapRows, row.1 ∉ [1, 2] → up.granted? row.1 = false) ∧ returned.granted? 0xFF = false ∧ up.tapOn = true ∧
    scanUnits.contains 0x1000 = true ∧ returned.isFenced 0x1000 = false ∧
    ({ returned with sec := { returned.sec with scan := [(0x1000, [1])] } } : State).sec.scan.find? (fun x => x.1 == 0x1000) =
      some (0x1000, [1]) := by decide +kernel

/-- A Scrapped module grants no SAMPLE. -/
theorem test_hyp_tap_scrapped : ({ up with sec := { up.sec with fuses := { up.sec.fuses with lifecycle := 4 } } } : State).granted? 0x02 = false := by
  decide +kernel

theorem test_hyp_power :
    (up.powerAgrees 0 0 = true ∧ up.powerAgrees 2 0 = true ∧ up.powerAgrees 0 1 = false ∧ up.powerAgrees 1 0 = false) ∧
    (withCtx up ctx1).powerBusy 2 0 = true ∧ up.powerBusy 2 0 = false ∧
    ((∃ trim, trim < 15 ∧ ({ up with office := { up.office with layout := 4, roles := [2, 2, 2, 2] } } : State).powerAgrees 1 trim = true)) ∧
    (staged [(0x5040, 1, 2)]).staging 0x5040 1 = 2 ∧ (staged [(0x5040, 1, 2)]).board.power ≠ 2 :=
  ⟨by decide +kernel, by decide +kernel, by decide +kernel, ⟨1, by decide, by decide +kernel⟩, by decide +kernel, by decide +kernel⟩

/-- `up` in a phase of its supply. -/
def phased (p : PowerPhase) : State := { up with board := { up.board with phase := p } }

theorem test_hyp_supply : up.board.phase = .serving ∧ up.board.perstLow = false ∧ (phased .powerLoss).board.phase = .powerLoss ∧
    (phased .off).board.phase = .off ∧ (phased .heldInReset).store.answers = true ∧ up.store.condition ≠ 2 ∧
    ((1760 : Int) < 1761 ∨ (1680 : Int) < 0) ∧ (35999 < 36000 ∨ 48000 < 35999) ∧ (33000 ≤ 35999) ∧ (48001 < 36000 ∨ 48000 < 48001) := by
  decide +kernel

theorem test_hyp_files : up.mailboxUp = true ∧ (up.foeFile (ascii "nothing")).isNone = true ∧ ascii "nothing" ≠ ascii "firmware" ∧
    (up.imageRefused []).1 ≠ 0 := by decide +kernel

/-! ## Hypotheses that are met: courier and jobs -/

/-- A courier message of the client at port 0 (16 R410): type, session, Seq and body. -/
def msg (type session seq : Nat) (body : Bytes) : Dgram :=
  ⟨0, 1, 2, 3, beBytes 1 1 ++ beBytes 1 type ++ beBytes 2 0 ++ beBytes 4 session ++ beBytes 4 seq ++ beBytes 4 0 ++ beBytes 2 8 ++
    beBytes 2 body.length ++ beBytes 2 0 ++ beBytes 2 0 ++ body⟩

/-- A session of client 5 that expects message 1. -/
def session7 : Session := ⟨7, 5, 0, 1, 2, 3, 1, 2, 9, 1, 1, 0, 8, 0, 0, false, false, [], []⟩

/-- A module that serves session 7 on its data ports. -/
def online : State := { up with net := { up.net with linkUp := [true, true], sessions := [session7] } }

theorem test_hyp_open : online.dataPort 0 = true ∧ (
    let d := msg 1 0 1 (beBytes 2 5 ++ beBytes 2 0 ++ beBytes 4 9)
    let m := Msg.parse d.bytes
    dgramBad d.bytes = false ∧ m.headerBad = false ∧ m.type = 1 ∧ m.session = 0 ∧ m.body.length = 8 ∧ beAt m.body 2 2 = 0 ∧
      online.reopened d (beAt m.body 4 4) = some session7 ∧ (online.reopened d 10).isNone = true ∧ online.net.sessions.length < 1024) ∧
    (Msg.parse (msg 1 0 1 [0]).bytes).body.length ≠ 8 ∧ 1024 ≤ (List.replicate 1024 session7).length := by decide +kernel

theorem test_hyp_sessions : online.session? 7 = some session7 ∧
    (let y := { session7 with sent := [⟨1, 0x80, 0, 0, []⟩], owed := 1 }
     y.sent ≠ [] ∧ y.resends < online.dget 0x23A0 4 ∧ online.dget 0x23A0 4 ≤ { y with resends := 8 }.resends ∧ y.owed ≠ 0) ∧
    online.portsEnabled = true := by decide +kernel

/-- Each message, legal and next on its session. -/
theorem test_hyp_messages :
    (∀ r ∈ [(0x02, []), (0x03, []), (0x12, beBytes 8 0x4000 ++ beBytes 8 0 ++ [1]), (0x13, beBytes 8 0x4000 ++ beBytes 4 4 ++ beBytes 4 0),
        (0x10, leBytes 8 4096 ++ leBytes 24 0), (0x11, beBytes 8 0x4000), (0x20, leBytes 64 0), (0x21, leBytes 16 0), (0x22, leBytes 72 0)],
      let d := msg r.1 7 1 r.2
      let m := Msg.parse d.bytes
      online.dataPort d.port = true ∧ dgramBad d.bytes = false ∧ m.headerBad = false ∧ m.type = r.1 ∧ online.session? m.session = some session7 ∧
        bodyOk r.1 m.body = true ∧ m.seq = session7.rxNext) ∧
    bodyOk 0x10 [] = false ∧ (Msg.parse (msg 0x10 7 2 []).bytes).seq ≠ session7.rxNext := by decide +kernel

theorem test_hyp_brings : online.brings (msg 0x12 7 1 (beBytes 8 0x4000 ++ beBytes 8 0 ++ [1])) 0x12 session7 := by
  unfold State.brings; decide +kernel

/-- The memory of `online` with its granules zeroed and an object at 0x4000. -/
def pooled : State := { online with mem := { online.mem with
  unzeroed := []
  objects := [⟨0x4000, 4096, 5, 0xFFFF, false, 0⟩] } }

theorem test_hyp_memory_messages :
    0x4000 + 1 ≤ online.mem.reserveBase ∧ online.mem.reserveBase < 0xFFFFFFFFFF + 1 ∧ online.mem.poisonIn 0x4000 4 = [] ∧
    pooled.checkAlloc (leBytes 8 4096 ++ leBytes 24 0) = 0 ∧ pooled.checkAlloc (leBytes 32 0) ≠ 0 ∧ bits 0 16 2 ≠ 2 ∧
    roundUp 4096 4096 ≤ pooled.freeBytesPool ∧ (pooled.place 0 4096 true).isSome = true ∧ pooled.gHere 0x4000 = true ∧
    (pooled.mem.localObjs.find? (fun o => o.base == gAddr 0x4000)).isSome = true ∧
    (pooled.mem.localObjs.find? (fun o => o.base == gAddr 0x8000)).isNone = true := by decide +kernel

/-- A Control of action `k` and value `v` on client 5's job 9. -/
def control (k v : Nat) : Dgram := msg 0x21 7 1 (beBytes 4 9 ++ beBytes 1 k ++ beBytes 3 0 ++ beBytes 8 v)

/-- `online` with a context of that job. -/
def working (x : Ctx) : State := withCtx online x

/-- Each Control is the next on its session and names the job of `ctx1`. -/
theorem test_hyp_controls : ∀ k ∈ [1, 2, 3, 4, 5, 6, 7],
    let d := control k 2
    let m := Msg.parse d.bytes
    (working ctx1).dataPort d.port = true ∧ dgramBad d.bytes = false ∧ m.headerBad = false ∧ m.type = 0x21 ∧
      (working ctx1).session? m.session = some session7 ∧ bodyOk 0x21 m.body = true ∧ m.seq = session7.rxNext ∧ beAt m.body 4 1 = k ∧
      ((working ctx1).received d session7).jobOf session7.client (beAt m.body 0 4) = some ctx1 ∧ beAt m.body 8 8 = 2 ∧
      (online.received d session7).jobOf session7.client (beAt m.body 0 4) = none := by decide +kernel

theorem test_hyp_control_states : ctx1.state = .live ∧ bellAction ctx1.queue 2 = 2 ∧
    ((working ctx1).received (control 2 0) session7).freeSlot 0 = some 0 ∧
    ((working { ctx1 with state := .suspended, saveSlot := some 0 }).received (control 5 0) session7).jobOf 5 9 =
      some { ctx1 with state := .suspended, saveSlot := some 0 } ∧
    ((working { ctx1 with state := .ending }).received (control 4 0) session7).jobOf 5 9 = some { ctx1 with state := .ending } ∧
    (working ctx1).net.results = [] ∧ (working ctx1).codec.streams = [] := by decide +kernel

/-- A job record of kind 2 (16 R419): job 12, ring of 64 slots at 0x10000 unless imported. -/
def jobRec (imported : Bool) : Bytes :=
  beBytes 64 (12 * 2 ^ 480 + 7 * 2 ^ 448 + 2 * 2 ^ 444 + (if imported then 0 else 6 * 2 ^ 424 + 0x10000 * 2 ^ 384 + 0x20000 * 2 ^ 344))

theorem test_hyp_submit :
    let d := msg 0x20 7 1 (jobRec false)
    let r := JobRec.parse (d.bytes.drop 24)
    let u := online.received d session7
    (Msg.parse d.bytes).type = 0x20 ∧ online.partStopped r.partition = false ∧ u.checkRecord false 5 r = 0 ∧ u.jobsInFlight 5 < u.quota 5 ∧
      u.freeCtxNumber = some 0 ∧ u.checkQueue r.ringLog2 r.ringBase r.compBase = 0 ∧ u.canJoin (u.jobCountRec 5) = true ∧
      u.checkRecord false 5 (JobRec.parse (leBytes 64 0)) ≠ 0 := by decide +kernel

/-- Client 5 may have no job. -/
theorem test_hyp_submit_quota : ({ online with office := { online.office with quotas := [(5, 0)] } } : State).quota 5 ≤
    online.jobsInFlight 5 := by decide +kernel

/-- A save area without tasks: a header that counts `n` records, a descriptor whose queue block has a ring of 64 slots, and its CRC. -/
def areaOf (n : Nat) : Bytes :=
  let head := leBytes 4 1 ++ leBytes 4 n ++ leBytes 8 192 ++ leBytes 6 0 ++ leBytes 1 1 ++ leBytes 37 0
  let rest := leBytes 64 0 ++ leBytes 32 (0x10000 + 6 * 2 ^ 40 + 0x20000 * 2 ^ 64) ++ leBytes 32 0
  head ++ leBytes 4 (crc32c (head ++ leBytes 4 0 ++ rest)) ++ rest
def saveArea : Bytes := areaOf 0

/-- `online` with a save area at 0x40000. -/
def importing : State := withCells online [(0x40000, saveArea)]

theorem test_hyp_import :
    let d := msg 0x22 7 1 (jobRec true ++ beBytes 8 0x40000)
    let m := Msg.parse d.bytes
    let r := JobRec.parse (d.bytes.drop 24)
    let u := importing.received d session7
    let a := beAt m.body 64 8
    let k := leAt (u.readBytes a 64) 8 8
    let area := u.readBytes a k
    let qb := leAt area 128 32
    m.type = 0x22 ∧ bodyOk 0x22 m.body = true ∧ u.checkRecord true 5 r = 0 ∧ u.jobsInFlight 5 < u.quota 5 ∧ u.freeCtxNumber = some 0 ∧
      u.freeSlot r.partition = some 0 ∧ a + 64 ≤ u.mem.windowBytes ∧ k = 192 ∧ u.mem.poisonIn a 64 = [] ∧ u.mem.poisonIn a k = [] ∧
      headerIllegal (u.readBytes a 64) (u.slotBytes r.partition) = false ∧ areaGood area = true ∧
      u.checkQueue (bits qb 40 5) (bits qb 0 40) (bits qb 64 40) = 0 ∧ areaGood (modifyAt (fun x => x + 1) 191 area) = false := by
  decide +kernel

/-- The CRC of an area holds whatever count of records its header states; the count must hold too (11 R291, R297). -/
theorem test_hyp_import_records : let area := areaOf 1
    let s := withCells online [(0x40000, area)]
    let u := s.received (msg 0x22 7 1 (jobRec true ++ beBytes 8 0x40000)) session7
    u.readBytes 0x40000 192 = area ∧ areaGood area = true ∧ recordsGood area = false ∧ recordsGood saveArea = true ∧
      headerIllegal (u.readBytes 0x40000 64) (u.slotBytes 0) = false := by decide +kernel

theorem test_hyp_slot_grant : (withCtx up { ctx1 with state := .waiting }).nextSequence = some { ctx1 with state := .waiting } ∧
    up.office.seqSlots.contains none = true := by decide +kernel

/-- A cell's tasks: one runs for context 1, twice, and context 2's waits. -/
def taskRun : Task := ⟨1, 0, 0, 0, 3, 0, 0, 0, .running, 0, none, false⟩
def taskWait : Task := ⟨2, 0, 1, 0, 3, 0, 5, 1, .posted, 0, none, false⟩

def busyCell : State := { withCtx up ctx1 with office := { (withCtx up ctx1).office with
  ctxs := [ctx1, { ctx1 with number := 2, seqTag := 8, priority := 5 }]
  tasks := [taskRun, { taskRun with pane := 2 }, taskWait]
  seqSlots := [some (5, 7), some (5, 8)] ++ List.replicate 6 none } }

theorem test_hyp_task_take : (busyCell.runningIn 3)[0]? = some taskRun ∧ busyCell.nextTask 3 = some taskWait := by decide +kernel

theorem test_hyp_preempt :
    busyCell.office.tasks.find? (fun t => t.cell == 3 && t.ctx == 2 && t.idx == 0 && t.pane == 1 && t.phase == .posted) = some taskWait ∧
    busyCell.dget 0x2350 1 ≠ 0xFFFFFFFF ∧ busyCell.victim 3 5 = some 1 ∧ busyCell.ctx? 1 = some ctx1 ∧ busyCell.office.triggers = [] ∧
    (busyCell.freeSlot 0).isSome = true ∧
    (({ busyCell with office := { busyCell.office with saveUsed := [(0, 0), (0, 1)] } } : State).freeSlot 0).isSome = false := by
  decide +kernel

/-- A context about to be saved, and one that is saved. -/
def leaving : Ctx := { ctx1 with suspending := true, saveSlot := some 0 }
def away : Ctx := { ctx1 with state := .suspended, saveSlot := some 0, saveBytes := 192 }

/-- `away`, its area at its slot, its sequence holding a slot. -/
def returning (area : Bytes) : State :=
  let s := withCtx up away
  let s := withCells s [(s.slotAddr 0 0, area)]
  { s with office := { s.office with seqSlots := [some (5, 7)] ++ List.replicate 7 none } }

theorem test_hyp_save : (withCtx up leaving).ctx? 1 = some leaving ∧ (withCtx up leaving).quiet 1 = true := by decide +kernel

theorem test_hyp_restore : (returning saveArea).ctx? 1 = some away ∧ (returning saveArea).holdsSlot away = true ∧
    (returning saveArea).partStopped 0 = false ∧ (returning saveArea).mem.poisonIn ((returning saveArea).slotAddr 0 0) 192 = [] ∧
    areaGood ((returning saveArea).readBytes ((returning saveArea).slotAddr 0 0) 192) = true ∧
    areaGood ((returning []).readBytes ((returning []).slotAddr 0 0) 192) = false := by decide +kernel

theorem test_hyp_restore_read : (∀ area ∈ [saveArea, []], let s := returning area
    let a := s.savedAt away 0
    let r := s.readRuns [(a, 192)]
    r.mem.poisonIn a 192 = [] ∧ areaGood (r.readBytes a 192) = (area != [])) ∧
    (withCells (withCtx up away) []).holdsSlot away = false := by decide +kernel

/-- A result that another node asked for, and one of this node. -/
theorem test_hyp_late_result : ({ up with net := { up.net with results := [⟨1, 0xFFFF, 0, 5, 9, 7, 0, 0, none⟩] } } : State).net.results.find?
    (fun r => r.id == 1) = some ⟨1, 0xFFFF, 0, 5, 9, 7, 0, 0, none⟩ ∧ up.session? 7 = none := by decide +kernel

/-- `away` gave way to a trigger; context 2, of higher Priority, is Live or is not. -/
def yielding (priority : Nat) : State := let s := returning saveArea
  { s with office := { s.office with yielding := [1], ctxs := [away, { ctx1 with number := 2, priority := priority }] } }

theorem test_hyp_yields : (returning saveArea).yields away = false ∧ (returning saveArea).savedAt away 0 = (returning saveArea).slotAddr 0 0 ∧
    (yielding (away.priority + 1)).ctx? 1 = some away ∧ (yielding (away.priority + 1)).yields away = true ∧
    (yielding away.priority).yields away = false := by decide +kernel

theorem test_hyp_halt_limit : ({ withCtx up halted with dict := kvSet (dkey 0x23A0 5) 1 [] } : State).dget 0x23A0 5 ≠ 0 ∧
    halted.queue.qs = .halted ∧ up.session? 7 = none := by decide +kernel

/-- A result held for a session that is not open. -/
theorem test_hyp_result : ({ up with net := { up.net with results := [⟨1, 4, 0, 5, 9, 7, 0, 0, none⟩] } } : State).net.results.find?
    (fun r => r.id == 1) = some ⟨1, 4, 0, 5, 9, 7, 0, 0, none⟩ := by decide +kernel

/-! ## Hypotheses that are met: memory -/

theorem test_hyp_written : Memory.wf up.mem.cells = true ∧ (∀ c ∈ up.mem.chans, c.session = 0 ∧ c.detour = [] ∧ c.heldWrites = []) := by
  decide +kernel

/-- `up` with a write-combining entry of channel 0, and two granules to zero. -/
def combining : State := { up with mem := { up.mem with
  wcb := [⟨0, 0x1000, [0x1000]⟩]
  unzeroed := [(0x4000, 0x2000)] } }

theorem test_hyp_memory_rows : (up.chan 0).active = true ∧ (up.chan 23).active = true ∧ up.board.power ≠ 2 ∧
    combining.mem.wcb.find? (fun e => e.channel == 0) = some ⟨0, 0x1000, [0x1000]⟩ ∧
    (∃ r ∈ combining.mem.unzeroed, r.1 ≤ 4096 * 4 ∧ 4096 * 4 < r.1 + r.2) ∧ (∃ r ∈ combining.mem.unzeroed, r.1 ≤ 4096 * 5 ∧ 4096 * 5 < r.1 + r.2) ∧
    up.mem.window (16 * 0x100) = 1 ∧ up.chanOf (16 * 0x100) = 1 := by
  refine ⟨by decide +kernel, by decide +kernel, by decide +kernel, by decide +kernel, ⟨(0x4000, 0x2000), by decide, by decide⟩,
    ⟨(0x4000, 0x2000), by decide, by decide⟩, by decide +kernel, by decide +kernel⟩

/-- `pooled` in cache role. -/
def caching : State := { pooled with office := { pooled.office with roles := [3, 0, 0, 0] } }

theorem test_hyp_remote :
    pooled.remoteCode true 0x4000 8 = 0 ∧ pooled.remoteCode false 0x4000 8 = 0 ∧ pooled.mem.poisonIn 0x4000 8 = [] ∧
    pooled.board.phase = .serving ∧ (pooled.mem.localObjs.find? (fun o => o.base == 0x4000)).isSome = true ∧ 0x4000 % 8 = 0 ∧
    0x4000 + 8 ≤ pooled.mem.windowBytes ∧ caching.role 0 = 3 ∧ 0 < caching.nParts ∧ (caching.place 0 4096 true).isSome = true ∧
    roundUp 4096 4096 ≤ caching.freeBytesPool ∧ pooled.remoteCode true (2 ^ 40) 8 = 0x0702 ∧ pooled.remoteCode false (2 ^ 40) 8 = 0x0702 := by
  decide +kernel

/-- A request of each kind, and a copy that a write-back is of. -/
def request (k : ReqKind) : Req := ⟨1, 1, 0, k, 4, 0x8000, 8, [], [], 0, 0, false, 7, 1⟩

def asking (k : ReqKind) : State := { up with
  cs := { up.cs with reqs := [request k] }
  mem := { up.mem with copies := [⟨4, 0x8000, [], true, true, [1], 0, 0, [], false, false⟩] } }

theorem test_hyp_answers : ∀ k ∈ [ReqKind.read, .write, .signal, .free, .writeBack],
    (asking k).req? 1 = some (request k) ∧ (request k).kind = k ∧ (asking k).postmark 0 ≠ 5 ∧
      ((asking k).mem.copies.find? (fun c => c.node == (request k).node && c.addr == (request k).addr)).isSome = true := by decide +kernel

/-- Channel 2 in training, after `r` sessions failed in a row. -/
def training (r : Nat) (reset : Bool) : State := { up with mem := { up.mem with
  chans := modifyAt (fun (c : Chan) => { c with
    session := 4
    failedRow := r
    failedResets := r
    viaReset := reset }) 2 up.mem.chans } }

theorem test_hyp_channels : up.trainable 0 = true ∧ up.trainable 23 = true ∧ up.sessionRunning = false ∧ (training 0 false).sessionRunning = true ∧
    ((training 0 false).chan 3).session = 0 ∧ ((training 0 false).chan 2).session ≠ 0 ∧ ((training 0 true).chan 2).viaReset = true ∧
    ((training 1 false).chan 2).failedRow = 1 ∧ 2 < (training 0 false).mem.chans.length ∧
    ({ up with mem := { up.mem with chans := modifyAt (fun (c : Chan) => { c with active := false }) 5 up.mem.chans } } : State).trainable 5 =
      false := by decide +kernel

/-- MMA, running, with a task of it in cell 3; `off` with ChainOff = 1. -/
def chaining (off : Nat) : State :=
  let s := withCtx up ctx1
  { s with
    cs := { s.cs with
      flight := [flying 0x01 (mi 0x01 0 [] [0, off * 2 ^ 23]) .running]
      grids := [(1, 0, 0, 3), (1, 0, 0, 2), (1, 0, 0, 5)] }
    office := { s.office with tasks := [taskRun] } }

theorem test_hyp_chain : ((chaining 0).flight? 1 0).any (fun f => (chaining 0).chained f && f.phase == .running) = true ∧
    ((chaining 1).flight? 1 0).any (fun f => (chaining 1).chained f) = false ∧
    (chaining 0).chainOf 1 0 3 = [2, 3, 5] ∧ (1, 0, 3) ∉ (chaining 0).cs.chainLeft ∧ up.sec.trngFail = false ∧
    ({ up with sec := { up.sec with trngFail := true } } : State).sec.trngFail = true := by decide +kernel

/-- A RAND in a cell whose generator is dry. -/
theorem test_hyp_dry : let s := chaining 0
    let f := { flying 0x0D [] .running with draws := [(0, 1)] }
    let t : State := { s with
      cs := { s.cs with flight := [f] }
      office := { s.office with cells := modifyAt (fun (c : Cell) => { c with deferred := 16 }) 3 s.office.cells } }
    t.flight? 1 0 = some f ∧ t.dry f = true := by decide +kernel

/-- A LATX whose history block 0 waits for its fetch. -/
def latx1 : InFlight := { flying 0x07 (leBytes 64 7) .fetching with histWait := [0] }

theorem test_hyp_history : ((withCtx up ctx1).addFlight latx1).flight? 1 0 = some latx1 ∧ 0 ∈ latx1.histWait ∧ 1 ∉ latx1.histWait ∧
    (((withCtx up ctx1).addFlight latx1).historyOf latx1).isSome = true := by decide +kernel

/-- A LATX of each path, its block 0 waiting: 3 is the fail path. -/
def latxOf (path : Nat) : InFlight := { flying 0x07 (mi 0x07 0 [0, 0, 0, 0] [0, 0, path * 2 ^ 24]) .fetching with histWait := [0] }

theorem test_hyp_history_paths : ∀ p ∈ [1, 2, 3], ((withCtx up ctx1).addFlight (latxOf p)).flight? 1 0 = some (latxOf p) ∧
    0 ∈ (latxOf p).histWait ∧ (((withCtx up ctx1).addFlight (latxOf p)).historyOf (latxOf p)).any (fun h => h.path == p) = true := by
  decide +kernel

/-! ## Hypotheses that are met: fabric -/

/-- `up` as node 3 of a torus of 32, port 0 changed by `f`. -/
def ported (f : Port → Port) : State := { up with fabric := { up.fabric with
  nodeInForce := 3
  torusInForce := 31
  ports := modifyAt f 0 up.fabric.ports } }

/-- A flit as it arrives (12 R306): type, Seq and destination. -/
def flit (type seq dest : Nat) : Bytes :=
  let b := beBytes 16 (type * 2 ^ 124 + 2 ^ 120 + seq * 2 ^ 104 + dest * 2 ^ 54) ++ List.replicate 236 0
  b ++ beBytes 4 (crc32c b)

theorem test_hyp_flits :
    (∀ st ∈ [PState.active, .changing], ((ported (fun p => { p with st := st })).port 0).carries = true) ∧
    ((ported (fun p => { p with st := .exchanging })).port 0).st = .exchanging ∧ flitBad (flit 1 0 9) = false ∧ flitBad [] = true ∧
    ((Flit.parse (flit 1 0 9)).sequenced = true ∧ (Flit.parse (flit 1 0 9)).seq = (linked.port 0).expectSeq ∧
      (Flit.parse (flit 1 0 9)).dest ≠ linked.node) ∧
    (Flit.parse (flit 2 1 9)).seq ≠ (linked.port 0).expectSeq ∧ (Flit.parse (flit 0 0 0)).type = 0 ∧ (Flit.parse (flit 4 0 0)).type = 4 ∧
    ((linked.port 0).nakDue = false ∧ (linked.port 0).ctlDue = false ∧ (linked.port 0).nextFlit = none) ∧
    (let f : Flit := ⟨1, 1, 0, true, 0, 0, 0, 0, 9, 3, 0, [], none, 0⟩
     ({ linked.port 0 with sendQ := [f], credits := List.replicate 8 1 } : Port).nextFlit = some f) := by decide +kernel

theorem test_hyp_replay : let f : Flit := ⟨1, 1, 0, true, 0, 0, 0, 0, 9, 3, 0, [], none, 0⟩
    ((ported (fun p => { p with st := .active, replay := [f], replays := 8 })).port 0).replay ≠ [] ∧
      8 ≤ ((ported (fun p => { p with st := .active, replay := [f], replays := 8 })).port 0).replays ∧
      ((ported (fun p => { p with st := .active, replay := [f], replays := 7 })).port 0).replays < 8 ∧ 0 < linked.fabric.ports.length := by
  decide +kernel

theorem test_hyp_bring_up : (up.port 0).st = .down ∧ (up.clearLanes 0).goodLanes 0 15 ≠ 0 ∧ up.fabricOn = true ∧ up.serdesUp = true ∧
    11 < up.fabric.ports.length ∧ ((ported (fun p => { p with st := .training })).port 0).st = .training ∧
    ((ported (fun p => { p with st := .aligning })).port 0).st = .aligning ∧ (up.port 0).carries = false ∧
    (chooseLanes (15 &&& 15)).1 ≠ 0 ∧ (chooseLanes (15 &&& 0)).1 = 0 := by decide +kernel

/-- Port 0 faces X+: node 4's port 2 is its neighbour there, and node 5 is not. -/
theorem test_hyp_neighbour :
    let p := fun (n : Nat) => ported (fun (p : Port) => { p with st := .exchanging, neighbour := n, neighbourPort := 2 })
    (p 4).fabric.bothNamed ((p 4).port 0) = true ∧ (p 4).fabric.neighbourOk ((p 4).port 0) = true ∧
      (p 5).fabric.bothNamed ((p 5).port 0) = true ∧ (p 5).fabric.neighbourOk ((p 5).port 0) = false := by decide +kernel

theorem test_hyp_lanes : (linked.port 0).carries = true ∧ (linked.port 0).retrain = none ∧ bit (linked.port 0).aligned 3 = true ∧
    linked.laneCan 0 3 = true ∧ linked.laneBusy = false ∧ linked.laneCan 11 0 = false ∧
    ((ported (fun p => { p with st := .changing, retrain := some 3 })).port 0).retrain = some 3 ∧
    (ported (fun p => { p with st := .changing, retrain := some 3 })).laneBusy = true := by decide +kernel

/-- A flit of this module's request 1, held for node 9, whose route is port 0. -/
def held1 : Flit := ⟨1, 1, 0, true, 0, 0, 0, 0, 9, 3, 0, [], none, 1⟩

/-- A flit with each field at its largest value. -/
def wide1 : Flit :=
  let f := { held1 with cls := 3, vlane := 1, seq := 65535, ackSeq := 65535, creditBuf := 7, creditCount := 255, dest := 32767 }
  { f with src := 32767, postmark := 1023, type := 4, payload := List.replicate 236 255 }

theorem test_hyp_flit_bytes : ∀ f ∈ [held1, wide1], f.type ≤ 4 ∧ f.cls < 4 ∧ f.vlane < 2 ∧ f.seq < 2 ^ 16 ∧ f.ackSeq < 2 ^ 16 ∧
    f.creditBuf < 8 ∧ f.creditCount < 256 ∧ f.dest < 2 ^ 15 ∧ f.src < 2 ^ 15 ∧ f.postmark < 1024 ∧ f.payload.length ≤ 236 ∧
    f.place = none := by decide +kernel

theorem test_hyp_overdue : let s := ported (fun p => { p with sendQ := [held1] })
    (s.port 0).carries = false ∧ s.overdue 0 ≠ [] ∧ linked.overdue 0 = [] ∧ (∀ k ∈ [ReqKind.write, .signal],
      (asking k).req? held1.req = some (request k)) ∧ up.req? held1.req = none := by decide +kernel

theorem test_hyp_control_flit : (linked.port 0).carries = true ∧ (linked.port 0).retrain = none ∧
    (chooseLanes ((linked.port 0).aligned &&& bits (beAt (beBytes 4 15) 3 1) 0 4)).1 ≠ 0 ∧
    (chooseLanes ((linked.port 0).aligned &&& bits (beAt (beBytes 4 0) 3 1) 0 4)).1 = 0 := by decide +kernel

/-! ## Hypotheses that are met: EtherCAT and the dictionary -/

theorem test_hyp_ethercat :
    (let s : State := { up with ecat := { up.ecat with linkUp := [true, true] } }
     s.ecatPort 0 = true ∧ s.ecatPort 1 = true) ∧ escReadOnly 0x1000 = false ∧ Memory.wf up.ecat.esc = true ∧ up.board.phase ≠ .off ∧
    up.extestOn = false ∧ up.alRefusal 8 ≠ 0 ∧ up.alRefusal 4 = 0 ∧ up.sec.fuses.lifecycle ≠ 4 ∧ up.ecat.al = 2 ∧ State.reset.ecat.al = 1 ∧
    ({ up with ecat := { up.ecat with al := 8 } } : State).ecat.al = 8 ∧ up.mailboxUp = true := by decide +kernel

/-- RetryLimit is read and written, 0x3000:01 is read, and 0x5020:02 is a trigger that is written only. -/
theorem test_hyp_dictionary : (findEntry 0x23A0 4).any (fun e => e.acc == .rw && e.width == 1 && e.own == .plain && e.keep &&
      !up.outOfRange e 8 && up.outOfRange e 0) = true ∧
    (findEntry 0x3000 1).any (fun e => e.acc == .ro && (up.readEntry e).2 == 0) = true ∧
    (findEntry 0x2360 1).any (fun e => e.own == .member && e.acc != .ro && !up.outOfRange e 5) = true ∧
    (findEntry 0x5020 2).any (fun e => e.acc == .wo) = true ∧
    up.pdoObject 0x23A0 = none ∧ findEntry 0x23A0 99 = none ∧ entriesOf 0x1234 = [] ∧ entriesOf 0x23A0 ≠ [] ∧ up.pdoObject 0x1234 = none ∧
    findEntry 0x1234 1 = none := by decide +kernel

theorem test_hyp_pdo : pdoFlaw 0x1A01 [0x30010110] = 0 ∧ pdoFlaw 0x1A01 [1] ≠ 0 ∧ up.ecat.al = 2 ∧
    ({ up with ecat := { up.ecat with al := 4 } } : State).mailboxUp = true ∧
    ({ up with ecat := { up.ecat with segmented := some (0x5110, 1) } } : State).ecat.segmented = some (0x5110, 1) ∧
    (describeObject 0x23A0 (up.pdoObject 0x23A0)).isSome = true ∧ (describeObject 0x1234 (up.pdoObject 0x1234)).isNone = true ∧
    (describeEntry 0x23A0 4 (up.pdoObject 0x23A0)).isSome = true := by decide +kernel

/-- A block of each data area. -/
def stored : State := { up with store := { up.store with blocks := up.store.blocks ++ [⟨4, 2, 0, 1⟩, ⟨5, 5, 0, 1⟩, ⟨6, 6, 0, 1⟩] } }

theorem test_hyp_store : up.board.phase = .serving ∧ stored.store.condition ≠ 2 ∧ stored.store.pick ≠ none ∧
    (∀ x ∈ [(0, 1), (4, 2), (5, 5), (6, 6)], (stored.store.blocks.find? (fun b => b.id == x.1 && decide (1 ≤ b.area) && decide (b.area ≤ 6))).any
      (fun b => b.area == x.2) = true) := by decide +kernel

/-! ## Hypotheses that are met: recovery -/

/-- Cell 3 works, staging engine 4 and intake pipe 2 are powered, and partition 0 may be reset. -/
def working3 : State := { busyCell with intake := { up.intake with pipes := modifyAt (fun p => { p with job := some (1, 0, 0) }) 2 up.intake.pipes } }

theorem test_hyp_units : (working3.cell 3).fenced = false ∧ working3.powered (3 / 64) = true ∧
    working3.office.stopped.contains (working3.partOfCell 3) = false ∧ working3.runningIn 3 ≠ [] ∧ working3.isFenced (unitCell 3) = false ∧
    fenceable 0x4004 = true ∧ working3.powered (4 / 8) = true ∧ fenceable 0x7017 = true ∧ (working3.chan 23).active = true ∧
    fenceable 0xB002 = true ∧ (working3.intake.pipes.getD 2 (Pipe.init 2)).job.isSome = true ∧ fenceable 0xA003 = true ∧
    working3.board.power ≠ 2 ∧ 255 < working3.office.cells.length := by decide +kernel

/-- A unit twice reset in its fence window. -/
theorem test_hyp_third_reset : 2 ≤ kvGet 0x4004 0 ({ up with faults := { up.faults with counts := [(0x4004, 2)] } } : State).faults.counts ∧
    ¬2 ≤ kvGet 0x4004 0 up.faults.counts := by decide +kernel

theorem test_hyp_rungs : up.partExists (up.partOfRegion 0) = true ∧ up.powered 3 = true ∧
    ({ up with faults := { up.faults with annealing := [0] } } : State).faults.annealing.contains 0 = true ∧
    up.sec.coreHalted.contains 3 = false ∧ ({ up with faults := { up.faults with resetTries := 1 } } : State).faults.resetTries = 1 ∧
    2 ≤ ({ up with faults := { up.faults with resetTries := 2 } } : State).faults.resetTries := by decide +kernel

/-! ## Hypotheses that are met: collectives -/

/-- A group word of 32 members along X, rooted at rank 0. -/
def groupWord : Nat := 7 + 31 * 2 ^ 31

/-- A collective of context 1 that waits for its first chunk, and the COLL that it is of. -/
def coll1 : Coll := ⟨1, 0, 7, false, 99, 1, true, [], false, 0, false, false, false, false, [], [], [], [], [], [], [], []⟩
def collFlight : InFlight := flying 0x13 (mi 0x13 0 [0xC0, 0, 0, 0xC1] [0, 0, groupWord]) .running

/-- Node 3 of 32, with `coll1` in flight, where node 2 has shown postmark 5. -/
def collecting (begun : Bool) : State :=
  let s := withCells (withCtx (ported (fun p => p)) ctx1) [(0x3000, vec 0x4000 4 fFP32), (0x3040, vec 0x5000 4 fFP32)]
  { s.addFlight collFlight with coll := { s.coll with flight := [{ coll1 with begun := begun, marks := [(2, 5)] }], marks := [(2, 5)] } }

theorem test_hyp_chunks : ((collecting true).collEnv 1 0).isSome = true ∧
    ((collecting true).coll? 1 0) = some { coll1 with begun := true, marks := [(2, 5)] } ∧
    ((collecting true).collEnv 1 0).any (fun x => (x.1.coll.hops[0]?).isSome) = true ∧
    (collecting true).peerMark [(2, 5)] 2 0 5 = 0 ∧ (collecting true).peerMark [(2, 5)] 2 0 4 = 1 ∧
    (collecting true).peerMark [(2, 5)] 2 0 6 = 2 ∧ (collecting true).peerMark [] 2 0 4 = 1 ∧ (collecting true).peerMark [] 2 0 6 = 0 ∧
    ((collecting true).collOf 7 1).isSome = true ∧ (collecting true).collOf 7 2 = none ∧ kvGet 7 0 (collecting true).coll.orders < 2 := by
  decide +kernel

theorem test_hyp_postcards : let s := collecting true
    let g := s.group (groupWord % 2 ^ 64)
    s.node ≠ 0xFFFF ∧ g.bad = false ∧ 31 < g.len 0 ∧ g.pos 0 ≠ 31 ∧ g.id = 7 ∧ s.board.phase = .serving ∧ s.postOf 7 1 = none ∧
      kvGet 7 0 s.coll.orders < 1 ∧ s.peerMark [] (g.nodeAt 0 31) 0 5 = 0 ∧ isCtrl groupWord = false := by decide +kernel

/-- A control collective of each kind runs. -/
theorem test_hyp_control : ∀ k ∈ [1, 2, 3], ({ collecting true with
    coll := { (collecting true).coll with ctrlState := 1 }
    dict := kvSet (dkey 0x2371 3) k [] } : State).ctrlRuns k = true := by decide +kernel

/-- Each kind of control postcard, and whether it is one (13 R346). -/
theorem test_hyp_control_card : let s := collecting true
    let sig := s.ctrlSig 2 1 0
    let g := s.group (sig % 2 ^ 64)
    isCtrl sig = true ∧ g.bad = false ∧ 2 < g.len 0 ∧ g.pos 0 ≠ 2 ∧ g.id = 0 := by decide +kernel

/-- Chunks for `coll1`: exchanges that agree and disagree, data for its first stage that pass their CRC and that do not, data of a stage
that is over, the failed chunk again, and an acknowledgement. -/
def chunkOf (kind sig : Nat) (data : Bytes) : Chunk := ⟨7, 1, 2, 0, 5, kind, sig, 0, false, 0, true, data⟩
def collectingWith (f : Coll → Coll) : State := (collecting true).setColl 1 0 f

theorem test_hyp_chunk_kinds : let s := collecting true
    let known := (s.knowMark 2 0 5).setColl 1 0 (fun y => { y with marks := kvSet (peerKey 2 0) 5 y.marks })
    ((known.coll? 1 0).any (fun y => (known.collEnv 1 0).any (fun x => (x.1.coll.hops[0]?).any (fun h =>
      y.sig == 99 && y.begun && y.stage == 0 && y.inbox.isEmpty &&
      y.chunkBad x.1.coll h (chunkOf 1 0 (List.replicate 4 0)) false == 0 &&
      y.chunkBad x.1.coll h (chunkOf 1 0 (List.replicate 4 0)) true == 0x03B1 && y.failed.isEmpty)))) = true ∧
    ((collectingWith (fun y => { y with failed := [(0, false, 0)] })).coll? 1 0).any (fun y => y.failed.contains (0, false, 0)) = true ∧
    ((collectingWith (fun y => { y with stage := 1 })).coll? 1 0).any (fun y => decide (0 < y.stage)) = true ∧
    ((collectingWith (fun y => { y with begun := false })).coll? 1 0).any (fun y => !y.begun) = true ∧ (1 : Nat) ≠ ctrlCtx := by
  decide +kernel

/-- A COLL of four elements, and of none. -/
def collState (n : Nat) : State :=
  let s := withCells (prog (mi 0x13 0 [0xC0, 0, 0, 0xC1] [0, 0, groupWord])) [(0x3000, vec 0x4000 n fFP32), (0x3040, vec 0x5000 n fFP32)]
  { s with fabric := (ported (fun p => p)).fabric }

theorem test_hyp_coll : (∀ n ∈ [0, 4], (collState n).accepts mColl ctx1 0 = true ∧ ((collState n).slotEnv ctx1 0).coll.n = n) ∧
    (collState 4).collReady mColl ctx1 0 ∧ ((collState 4).slotEnv ctx1 0).coll.g.axes ≠ [] ∧ (collState 4).coll.calls = [] ∧
    (collState 4).groupUsed 7 1 = false ∧ ((collState 4).slotEnv ctx1 0).coll.g.id = 7 ∧
    ({ collState 4 with coll := { (collState 4).coll with flight := [{ coll1 with ctx := 2 }] } } : State).groupUsed 7 1 = true := by
  unfold State.collReady State.noneMarked
  decide +kernel

/-- A group word of node 3 alone. -/
def aloneWord : Nat := 7 + 3 * 2 ^ 16

/-- A COLL in a group of one member. -/
def aloneState : State :=
  let s := withCells (prog (mi 0x13 0 [0xC0, 0, 0, 0xC1] [0, 0, aloneWord])) [(0x3000, vec 0x4000 4 fFP32), (0x3040, vec 0x5000 4 fFP32)]
  { s with fabric := (ported (fun p => p)).fabric }

theorem test_hyp_coll_alone : let e := aloneState.slotEnv ctx1 0
    aloneState.accepts mColl ctx1 0 = true ∧ e.coll.n ≠ 0 ∧ aloneState.collReady mColl ctx1 0 ∧ aloneState.groupUsed e.coll.g.id 1 = false ∧
      e.coll.g.axes = [] ∧ aloneState.coll.calls = [] ∧ e.collRef = 0 ∧ e.coll.narrows = false ∧ aloneState.arrived 1 0 = [] := by
  unfold State.collReady State.noneMarked
  decide +kernel

/-- A COLL of one member is over at once. -/
theorem test_coll_alone : (match exec (.coll 1 0) aloneState with
      | .next t => ((t.flight? 1 0).map (fun f => (f.phase, f.status)), t.coll.flight.length)
      | _ => (none, 9)) = (some (.ended, 0), 0) := by decide +kernel

/-- A broadcast POST of one byte from rank 0 of a group. -/
def postState (group : Nat) : State :=
  let s := withCells (prog (mi 0x14 0 [0xC0, 0, 0, 0xC1] [0, 0xC2 * 2 ^ 32, 0])) [(0x3000, vec 0x4000 1 fU8), (0x3040, vec 0x5000 1 fU8),
    (0x3080, leBytes 8 group)]
  { s with fabric := (ported (fun p => p)).fabric }

theorem test_hyp_post : (∀ g ∈ [groupWord, aloneWord], (postState g).accepts mPost ctx1 0 = true ∧
      (postState g).collReady mPost ctx1 0 ∧ (postState g).groupUsed 7 1 = false ∧ ((postState g).slotEnv ctx1 0).postGroup.id = 7 ∧
      (postState g).coll.cards = [] ∧ (postState g).arrived 1 0 = []) ∧
    ((postState groupWord).slotEnv ctx1 0).postGroup.axes ≠ [] ∧ ((postState aloneWord).slotEnv ctx1 0).postGroup.axes = [] := by
  unfold State.collReady State.noneMarked
  decide +kernel

/-! ## Hypotheses that are met: intake and codec -/

/-- A tensor descriptor of rank 2 (03 R64). -/
def mat (base m n stride fmt : Nat) : Bytes :=
  leBytes 8 base ++ leBytes 4 m ++ leBytes 4 n ++ leBytes 12 0 ++ leBytes 5 stride ++ leBytes 15 0 ++ leBytes 8 0 ++ leBytes 1 (32 + fmt) ++
    List.replicate 7 0

/-- An INTK whose job block stands at 0x3000 and what its references name after it. -/
def intkState (block : Bytes) (l : List (Nat × Bytes)) : State :=
  withCells (prog (mi 0x1B 0 [0xC0] [])) ((0x3000, block) :: l)

/-- The install of a dictionary of one entry in slot 1 (14 R361, R362). -/
def installBlock : Bytes := leBytes 1 2 ++ leBytes 1 1 ++ leBytes 38 0 ++ leBytes 4 0xC1 ++ leBytes 4 5 ++ leBytes 16 0
def installState : State :=
  intkState installBlock [(0x3040, leBytes 4 1 ++ leBytes 4 0 ++ leBytes 4 0xFFFFFFFF ++ leBytes 52 0),
    (0x3080, leBytes 1 1 ++ leBytes 15 0 ++ leBytes 1 65 ++ leBytes 47 0)]

/-- A text job of one sample of two bytes, and the dictionary that it needs (14 R357, R358, R364). -/
def textBlock : Bytes := leBytes 4 0 ++ leBytes 4 1 ++ leBytes 16 0 ++ leBytes 4 0xC2 ++ leBytes 4 0xC3 ++ leBytes 4 0xC4 ++ leBytes 4 0 ++
  leBytes 4 0xC5 ++ leBytes 4 5 ++ leBytes 16 0
def textState (len : Nat) : State :=
  let s := intkState textBlock [(0x3080, leBytes 8 0x4000 ++ leBytes 4 len ++ leBytes 20 0), (0x30C0, mat 0x5000 4 1 16 fU32),
    (0x3100, vec 0x6000 1 fU32), (0x3140, vec 0x7000 1 fU32), (0x4000, [65, 65])]
  { s with intake := { s.intake with dicts := modifyAt (fun _ => ⟨some 5, 0xFFFFFFFF, 0, [[65]]⟩) 0 s.intake.dicts } }

/-- An image job of one sample, 1 by 1 (14 R358, R368). -/
def imageBlock : Bytes := leBytes 1 1 ++ leBytes 3 0 ++ leBytes 4 1 ++ leBytes 16 0 ++ leBytes 4 0xC2 ++ leBytes 4 0xC3 ++ leBytes 4 0xC4 ++
  leBytes 4 0 ++ leBytes 4 0xC1 ++ leBytes 2 1 ++ leBytes 2 1 ++ leBytes 16 0
def imageState : State :=
  intkState imageBlock [(0x3040, leBytes 4 0 ++ leBytes 4 0x3F800000 ++ leBytes 4 0x3F800000 ++ leBytes 4 0x3F800000 ++ leBytes 4 0x3F800000 ++
      leBytes 44 0),
    (0x30C0, leBytes 8 0x5000 ++ leBytes 4 3 ++ leBytes 4 1 ++ leBytes 4 1 ++ leBytes 4 1 ++ leBytes 4 1 ++ leBytes 5 16 ++ leBytes 5 16 ++
      leBytes 5 16 ++ leBytes 5 16 ++ leBytes 8 0 ++ leBytes 1 (80 + fFP32) ++ List.replicate 7 0), (0x3100, vec 0x6000 1 fU32)]

/-- A text job without samples. -/
def emptyText : State :=
  { textState 2 with mem := (withCells (textState 2) [(0x3000, leBytes 4 0 ++ leBytes 4 0 ++ textBlock.drop 8),
    (0x30C0, mat 0x5000 4 0 16 fU32)]).mem }

theorem test_hyp_intake_kinds :
    (imageState.accepts mIntkImage ctx1 0 = true ∧
      (opIntk.outs (imageState.slotEnv ctx1 0)).all (fun r => imageState.gHere (r.1 % 2 ^ 64)) = true) ∧
    (emptyText.accepts mIntkText ctx1 0 = true ∧ intkKind (emptyText.slotEnv ctx1 0).intkBlock = 0 ∧
      intkBatch (emptyText.slotEnv ctx1 0).intkBlock = 0) := by decide +kernel

theorem test_hyp_intake_starts :
    (installState.accepts mIntkInstall ctx1 0 = true ∧ intkKind (installState.slotEnv ctx1 0).intkBlock ≠ 0 ∧
      (opIntk.outs (installState.slotEnv ctx1 0)).all (fun r => installState.gHere (r.1 % 2 ^ 64)) = true) ∧
    ((textState 2).accepts mIntkText ctx1 0 = true ∧ intkBatch ((textState 2).slotEnv ctx1 0).intkBlock ≠ 0 ∧
      (opIntk.outs ((textState 2).slotEnv ctx1 0)).all (fun r => (textState 2).gHere (r.1 % 2 ^ 64)) = true) := by decide +kernel

/-- The text job that has bound its slot's dictionary (14 R359). -/
def textDict : DictSlot := ⟨some 5, 0xFFFFFFFF, 0, [[65]]⟩
def textJob (len : Nat) : IntakeJob := ⟨1, 0, textBlock, textDict, [(0x4000, len)], 0, [], [], []⟩

/-- The text job in progress, and pipe 3 with its sample. -/
def textRuns (len : Nat) (taken : Bool) : State :=
  let s := (textState len).addFlight { (textState len).slotFlight mIntkText ctx1 0 with phase := .running }
  { s with intake := { s.intake with
    jobs := [textJob len]
    pipes := modifyAt (fun p => { p with job := if taken then some (1, 0, 0) else none }) 3 s.intake.pipes } }

/-- A sample that passes, one whose bytes are not UTF-8, and one that is too long. -/
theorem test_hyp_samples : let s := textRuns 2 false
    (s.intake.pipes[3]?).any (fun p => !p.fenced && p.job.isNone) = true ∧ s.board.phase = .serving ∧
      s.intkNext 3 = some (textJob 2) ∧ (textJob 2).slot = some 0 ∧ (s.intkEnv 1 0).isSome = true ∧
      (s.intkEnv 1 0).all (fun x => x.1.sampleCheck textBlock (x.1.sample textBlock 0) == 0 && s.mem.poisonIn (x.1.intkTableRun textBlock).1 32 == [] &&
        s.gHere ((x.1.sample textBlock 0).addr % 2 ^ 64) && x.1.sampleJudge textBlock textDict 0 (x.1.sample textBlock 0) == 0) = true ∧
      ((textRuns 3 false).intkEnv 1 0).all (fun x => x.1.sampleCheck textBlock (x.1.sample textBlock 0) == 0) = true ∧
      ((textRuns 0x100001 false).intkEnv 1 0).all (fun x => x.1.sampleCheck textBlock (x.1.sample textBlock 0) != 0) = true := by decide +kernel

/-- Ten tokens do not fit in four places. -/
theorem test_hyp_judged : ((withCells (textRuns 10 false) [(0x4000, List.replicate 10 65)]).intkEnv 1 0).any (fun x =>
    x.1.sampleJudge textBlock textDict 0 (x.1.sample textBlock 0) == 0x06C4) = true := by decide +kernel

/-- The text job with its one slot finished. -/
theorem test_hyp_intake_ends : let s := textRuns 2 true
    let t := s.setIntk 1 0 (fun j => { j with results := [(0, 0)] })
    (t.intkJob 1 0).any (fun j => decide (intkBatch j.block ≤ j.results.length)) = true ∧ (t.intkEnv 1 0).isSome = true := by decide +kernel

theorem test_hyp_sample_done : let s := textRuns 2 true
    (s.intake.pipes.getD 3 (Pipe.init 3)).job = some (1, 0, 0) ∧ (s.intkJob 1 0).isSome = true ∧ (s.intkEnv 1 0).isSome = true ∧
      s.sampleHere 1 0 0 = true := by decide +kernel

theorem test_hyp_dict_replace :
    let s := installState.addFlight { installState.slotFlight mIntkInstall ctx1 0 with phase := .running }
    let t : State := { s with intake := { s.intake with jobs := [⟨1, 0, installBlock, DictSlot.empty, [], 0, [], [], []⟩] } }
    (∀ y ∈ t.intake.jobs, intkSlot y.block = 1 → intkKind y.block ≠ 0) ∧ (t.intkEnv 1 0).isSome = true ∧
      ((t.intake.jobs.filter (fun j => intkSlot j.block == 1)).find? (fun j => intkKind j.block == 2 &&
        (t.flight? j.ctx j.idx).any (fun f => !f.stopped))).isSome = true := by decide +kernel

/-- Decoder parameters of a stream of two slots of 64 × 64 (15 R380). -/
def streamParams : Bytes := leBytes 1 16 ++ leBytes 1 0 ++ leBytes 2 64 ++ leBytes 2 64 ++ leBytes 28 0 ++ leBytes 5 0x100000 ++ leBytes 25 0

/-- A CODEC job of a kind on stream 9. -/
def codecBlock (k param pixel bit status result : Nat) : Bytes :=
  leBytes 1 k ++ leBytes 1 9 ++ leBytes 6 0 ++ leBytes 4 param ++ leBytes 4 pixel ++ leBytes 4 bit ++ leBytes 4 status ++ leBytes 4 result ++
    leBytes 36 0

/-- What a CODEC instruction reads, with stream 9 where it is Open. -/
def codecState (block : Bytes) (stream : Option Bool) : State :=
  let s := withCells (prog (mi 0x1A 0 [0xC0] [])) [(0x3000, block), (0x3040, streamParams), (0x3080, vec 0x10000 6144 fU8),
    (0x30C0, vec 0x20000 64 fU8)]
  { s with codec := { s.codec with streams := (stream.map (fun enc => (⟨9, .opened, enc, 1, streamParams, 0, 0, false, 0, 0, none, [], 0, none⟩ : Codec))).toList } }

def decodeBlock : Bytes := codecBlock 3 0 0xC2 0xC3 0 0xC4
def encodeBlock : Bytes := codecBlock 2 0 0xC2 0xC3 0 0xC4
def closeBlock : Bytes := codecBlock 4 0 0xC2 0 0 0xC4

/-- Encoder parameters of a stream of three slots of 64 × 64, constant QP (15 R389). -/
def encParams : Bytes := leBytes 1 24 ++ leBytes 1 0 ++ leBytes 2 64 ++ leBytes 2 64 ++ leBytes 20 0 ++ leBytes 4 1 ++ leBytes 4 1 ++
  leBytes 5 0x100000 ++ leBytes 25 0
/-- What the open of an encoder reads. -/
def openEncState : State := withCells (prog (mi 0x1A 0 [0xC0] [])) [(0x3000, codecBlock 0 0xC1 0 0 0 0), (0x3040, encParams)]

theorem test_encoder_params (h : Config.levelFits encParams = true) : paramsIllegal true encParams openEncState.mem.windowBytes = false := by
  simp only [paramsIllegal, h]
  decide +kernel

/-- It is accepted where its parameters fit its Level: the limits of the levels are a free function of the model. -/
theorem test_hyp_codec_open_encoder (h : Config.levelFits encParams = true) :
    openEncState.accepts (cdcMacro (fun k => k == 0 || decide (4 < k))) ctx1 0 = true := by
  have hp : (openEncState.slotEnv ctx1 0).cdcParams (openEncState.slotEnv ctx1 0).cdcBlock = encParams := by decide +kernel
  have hr : cdcRules (openEncState.slotEnv ctx1 0) = 0 := by
    have hk : (cdcKind (openEncState.slotEnv ctx1 0).cdcBlock == 0) = true := by decide +kernel
    have hs : (openEncState.slotEnv ctx1 0).s = openEncState := rfl
    simp only [cdcRules, hp, hk, hs, test_encoder_params h]
    decide +kernel
  have hc : (cdcMacro (fun k => k == 0 || decide (4 < k))).check (openEncState.slotEnv ctx1 0) = 0 := by
    simp only [Macro.check, cdcMacro, Op.check, opCodec, hr]
    decide +kernel
  simp only [State.accepts, hc]
  decide +kernel

/-- What the open of a decoder reads. -/
def openDecState : State := codecState (codecBlock 1 0xC1 0 0 0 0) none

theorem test_decoder_params (h : Config.levelFits streamParams = true) : paramsIllegal false streamParams openDecState.mem.windowBytes = false := by
  simp only [paramsIllegal, h]
  decide +kernel

theorem test_hyp_codec_open (h : Config.levelFits streamParams = true) : openDecState.accepts (cdcMacro (fun k => k == 1)) ctx1 0 = true := by
  have hp : (openDecState.slotEnv ctx1 0).cdcParams (openDecState.slotEnv ctx1 0).cdcBlock = streamParams := by decide +kernel
  have hr : cdcRules (openDecState.slotEnv ctx1 0) = 0 := by
    have hk : (cdcKind (openDecState.slotEnv ctx1 0).cdcBlock == 0) = false := by decide +kernel
    have hs : (openDecState.slotEnv ctx1 0).s = openDecState := rfl
    simp only [cdcRules, hp, hk, hs, test_decoder_params h]
    decide +kernel
  have hc : (cdcMacro (fun k => k == 1)).check (openDecState.slotEnv ctx1 0) = 0 := by
    simp only [Macro.check, cdcMacro, Op.check, opCodec, hr]
    decide +kernel
  simp only [State.accepts, hc]
  decide +kernel

theorem test_hyp_codec_opens : openEncState.noneMarked ∧ openDecState.noneMarked ∧ cdcKind (openEncState.slotEnv ctx1 0).cdcBlock = 0 := by
  unfold State.noneMarked
  decide +kernel

/-- The close of an encoder. -/
def closeEncBlock : Bytes := codecBlock 4 0 0 0xC3 0 0xC4

theorem test_hyp_codec_jobs : ∀ r ∈ [(decodeBlock, false, 3), (encodeBlock, true, 2), (closeBlock, false, 4), (closeEncBlock, true, 4)],
    let s := codecState r.1 (some r.2.1)
    s.accepts (cdcMacro (fun k => k == r.2.2)) ctx1 0 = true ∧ (s.stream? (cdcStream (s.slotEnv ctx1 0).cdcBlock)).isSome = true ∧
      s.codecReady (cdcMacro (fun k => k == r.2.2)) ctx1 0 := by
  unfold State.codecReady State.noneMarked
  decide +kernel

/-- A job on stream 9 in progress, and pipe 2 with its frame. -/
def codecRuns (block : Bytes) (enc taken : Bool) : State :=
  let s := codecState block (some enc)
  let s := s.addFlight { s.slotFlight (cdcMacro (fun _ => true)) ctx1 0 with phase := .running }
  { s with codec := { s.codec with
    jobs := [⟨1, 0, block, 0, 0, 0, 0, 0, []⟩]
    pipes := modifyAt (fun p => { p with job := if taken then some (1, 0, 0) else none }) 2 s.codec.pipes } }

theorem test_hyp_frames : ∀ r ∈ [(decodeBlock, false), (encodeBlock, true)],
    let s := codecRuns r.1 r.2 false
    (s.codec.pipes[2]?).any (fun p => !p.fenced && p.job.isNone) = true ∧ s.board.phase = .serving ∧
      (s.cdcNext 2).any (fun j => j.ctx == 1) = true ∧ (s.stream? 9).any (fun x => x.freeSlot == some 0) = true ∧
      ((codecRuns r.1 r.2 true).codec.pipes.getD 2 (Pipe.init 2)).job = some (1, 0, 0) ∧ (s.cdcJob 1 0).isSome = true ∧
      (s.cdcEnv 1 0).isSome = true ∧ cdcStream r.1 = 9 := by decide +kernel

/-- Both slots of the stream are kept for prediction. -/
theorem test_hyp_no_slot : ((codecRuns decodeBlock false false).stream? 9).all (fun x => ({ x with refs := 3 } : Codec).freeSlot == none) = true := by
  decide +kernel

/-- A uncorrectable unit at the start of a run is met there. -/
theorem test_poison_met (m : MemSys) (a n : Nat) (h : 0 < n) : ({ m with poison := [a / 16] } : MemSys).poisonIn a n ≠ [] := by
  have h1 : (n == 0) = false := by simp; omega
  have h2 : a / 16 ≤ (a + n - 1) / 16 := Nat.div_le_div_right (by omega)
  simp [MemSys.poisonIn, h1, h2]

/-- Units that cannot be read: of the dictionary in slot 0, and of stream 9's state. -/
def dictMarred : State := let s := textRuns 2 true
  { s with mem := { s.mem with poison := [(s.dictPlace 0).1 / 16] } }
def streamMarred : State := let s := codecRuns decodeBlock false false
  { s with mem := { s.mem with poison := [(s.streamPlace 9).1 / 16] } }

theorem test_hyp_unreadable : dictMarred.mem.poisonIn (dictMarred.dictPlace 0).1 (dictMarred.dictPlace 0).2 ≠ [] ∧
    intkKind textBlock = 0 ∧ intkSlot textBlock = 0 ∧ streamMarred.streamBad 9 ≠ [] :=
  ⟨test_poison_met _ _ _ (by decide), by decide +kernel, by decide +kernel, test_poison_met _ _ _ (by decide)⟩

/-- Where no unit is uncorrectable, none of a stream is. -/
theorem test_hyp_readable (i : Nat) : (codecRuns decodeBlock false false).streamBad i = [] := by
  have h : (codecRuns decodeBlock false false).mem.poison = [] := by decide +kernel
  simp [State.streamBad, MemSys.poisonIn, h]

end Sys2Proof.Tests
end

section
/-! What a step answers: on an empty queue the machine stays as it is, and every command of the table is answered with a next state,
never with a fault or a refusal (00 R8 to R10: a failure is a status code). -/

namespace Sys2Proof.Machine
open Sys2Proof

theorem step_of_pending_nil (s : State) (h : s.pending = []) : step s = .next s := by simp only [step, h]

theorem step_of_pending_cons (s : State) (c : Instr) (rest : List Instr) (h : s.pending = c :: rest) :
    step s = exec c { s with pending := rest } := by simp only [step, h]

/-- The meaning of every row is `.next` of the state that it computes, whatever its operands are and in whatever state it runs: every
failure is decided inside that state. -/
theorem exec_eq_next (i : Instr) (s : State) : ∃ t, exec i s = .next t := by
  cases i <;> exact ⟨_, rfl⟩

/-- Settles O3: an empty queue keeps the state, and the front command, whichever it is, is answered with a next state. -/
theorem everyStepGoesOn : Obligations.EveryStepGoesOn := by
  unfold Obligations.EveryStepGoesOn
  intro s
  unfold State.goesOn
  cases hq : s.pending with
  | nil => exact ⟨s, step_of_pending_nil s hq⟩
  | cons c rest =>
    rw [step_of_pending_cons s c rest hq]
    exact exec_eq_next c _

end Sys2Proof.Machine
end

section
/-! The queue of waiting commands is the step's alone (log entries 1 and 127): the step takes its front command, and no command's
meaning changes it. -/

namespace Sys2Proof.Machine
open Sys2Proof

/-- Settles O1: both equations of `step`, one for each shape of the queue. -/
theorem stepTakesFrontCommand : Obligations.StepTakesFrontCommand := by
  unfold Obligations.StepTakesFrontCommand
  exact ⟨step_of_pending_cons, step_of_pending_nil⟩

/-- The queue rule of the whole dispatch: each row's meaning keeps the queue by that command's own law. -/
theorem exec_pending (i : Instr) (s t : State) (hnext : exec i s = .next t) : t.pending = s.pending := by
  cases i with
  | newTail ctx width value => exact execNewTail_pending ctx width value s t hnext
  | resume ctx value => exact execResume_pending ctx value s t hnext
  | mma ctx idx => exact execMma_pending ctx idx s t hnext
  | mmas ctx idx => exact execMmas_pending ctx idx s t hnext
  | conv ctx idx => exact execConv_pending ctx idx s t hnext
  | pool ctx idx => exact execPool_pending ctx idx s t hnext
  | attf ctx idx => exact execAttf_pending ctx idx s t hnext
  | attb ctx idx => exact execAttb_pending ctx idx s t hnext
  | latx ctx idx => exact execLatx_pending ctx idx s t hnext
  | kvap ctx idx => exact execKvap_pending ctx idx s t hnext
  | sfn ctx idx => exact execSfn_pending ctx idx s t hnext
  | norm ctx idx => exact execNorm_pending ctx idx s t hnext
  | smax ctx idx => exact execSmax_pending ctx idx s t hnext
  | samp ctx idx => exact execSamp_pending ctx idx s t hnext
  | rand ctx idx => exact execRand_pending ctx idx s t hnext
  | qnt ctx idx => exact execQnt_pending ctx idx s t hnext
  | route ctx idx => exact execRoute_pending ctx idx s t hnext
  | gath ctx idx => exact execGath_pending ctx idx s t hnext
  | scat ctx idx => exact execScat_pending ctx idx s t hnext
  | copy ctx idx => exact execCopy_pending ctx idx s t hnext
  | coll ctx idx => exact execColl_pending ctx idx s t hnext
  | post ctx idx => exact execPost_pending ctx idx s t hnext
  | wait ctx idx => exact execWait_pending ctx idx s t hnext
  | signal ctx idx => exact execSignal_pending ctx idx s t hnext
  | fence ctx idx => exact execFence_pending ctx idx s t hnext
  | still ctx idx => exact execStill_pending ctx idx s t hnext
  | argmx ctx idx => exact execArgmx_pending ctx idx s t hnext
  | nop ctx idx => exact execNop_pending ctx idx s t hnext
  | codecOpenEncoder ctx idx => exact execCodecOpenEncoder_pending ctx idx s t hnext
  | codecOpenDecoder ctx idx => exact execCodecOpenDecoder_pending ctx idx s t hnext
  | codecEncode ctx idx => exact execCodecEncode_pending ctx idx s t hnext
  | codecDecode ctx idx => exact execCodecDecode_pending ctx idx s t hnext
  | codecClose ctx idx => exact execCodecClose_pending ctx idx s t hnext
  | intkText ctx idx => exact execIntkText_pending ctx idx s t hnext
  | intkImage ctx idx => exact execIntkImage_pending ctx idx s t hnext
  | intkInstall ctx idx => exact execIntkInstall_pending ctx idx s t hnext
  | instructionComplete ctx idx => exact execInstructionComplete_pending ctx idx s t hnext
  | waitSatisfied ctx idx => exact execWaitSatisfied_pending ctx idx s t hnext
  | waitTimeout ctx idx => exact execWaitTimeout_pending ctx idx s t hnext
  | remoteAck req => exact execRemoteAck_pending req s t hnext
  | remoteAckTimeout req => exact execRemoteAckTimeout_pending req s t hnext
  | refuseReceive req code => exact execRefuseReceive_pending req code s t hnext
  | taskTake cell which => exact execTaskTake_pending cell which s t hnext
  | chainHopTimeout ctx idx cell fwd => exact execChainHopTimeout_pending ctx idx cell fwd s t hnext
  | historyFetchArrival ctx idx block ok data => exact execHistoryFetchArrival_pending ctx idx block ok data s t hnext
  | historyDeadline ctx idx block => exact execHistoryDeadline_pending ctx idx block s t hnext
  | reseed cell => exact execReseed_pending cell s t hnext
  | scrub channel corrected bad => exact execScrub_pending channel corrected bad s t hnext
  | wcbAgeRetire channel => exact execWcbAgeRetire_pending channel s t hnext
  | unmappedAccess addr write => exact execUnmappedAccess_pending addr write s t hnext
  | remoteAccess r => exact execRemoteAccess_pending r s t hnext
  | remoteSignal src postmark addr op operand => exact execRemoteSignal_pending src postmark addr op operand s t hnext
  | remoteAlloc src postmark record => exact execRemoteAlloc_pending src postmark record s t hnext
  | writeBackTimeout req => exact execWriteBackTimeout_pending req s t hnext
  | granuleZeroing granule => exact execGranuleZeroing_pending granule s t hnext
  | retrainDue channel => exact execRetrainDue_pending channel s t hnext
  | retrainRequest value => exact execRetrainRequest_pending value s t hnext
  | retrainTimeout channel => exact execRetrainTimeout_pending channel s t hnext
  | submit d => exact execSubmit_pending d s t hnext
  | slotGrant => exact execSlotGrant_pending s t hnext
  | preemptWaitExpiry cell ctx idx task => exact execPreemptWaitExpiry_pending cell ctx idx task s t hnext
  | suspendContext value => exact execSuspendContext_pending value s t hnext
  | suspendPartition value => exact execSuspendPartition_pending value s t hnext
  | resumeContext value => exact execResumeContext_pending value s t hnext
  | saveComplete ctx => exact execSaveComplete_pending ctx s t hnext
  | restore ctx => exact execRestore_pending ctx s t hnext
  | quotaCommit value => exact execQuotaCommit_pending value s t hnext
  | flitTransmit port => exact execFlitTransmit_pending port s t hnext
  | flitReceive port fecOk bytes => exact execFlitReceive_pending port fecOk bytes s t hnext
  | nakReceive port ackSeq => exact execNakReceive_pending port ackSeq s t hnext
  | replayTimeout port => exact execReplayTimeout_pending port s t hnext
  | signalDetect port lanes => exact execSignalDetect_pending port lanes s t hnext
  | bringUpTimeout port => exact execBringUpTimeout_pending port s t hnext
  | helloReceive port hello => exact execHelloReceive_pending port hello s t hnext
  | helloTimer port => exact execHelloTimer_pending port s t hnext
  | helloTimeout port => exact execHelloTimeout_pending port s t hnext
  | laneFault port lane cause => exact execLaneFault_pending port lane cause s t hnext
  | laneRetrainDue port lane => exact execLaneRetrainDue_pending port lane s t hnext
  | laneRetrainRequest value => exact execLaneRetrainRequest_pending value s t hnext
  | laneRetrainDone port => exact execLaneRetrainDone_pending port s t hnext
  | laneRetrainTimeout port => exact execLaneRetrainTimeout_pending port s t hnext
  | nodeCommit value => exact execNodeCommit_pending value s t hnext
  | routeCommit value => exact execRouteCommit_pending value s t hnext
  | routeDefaults value => exact execRouteDefaults_pending value s t hnext
  | routerReset value => exact execRouterReset_pending value s t hnext
  | portEnable value => exact execPortEnable_pending value s t hnext
  | portDownLimit port => exact execPortDownLimit_pending port s t hnext
  | responseReceive req postmark poisoned data => exact execResponseReceive_pending req postmark poisoned data s t hnext
  | chunkReceive group ord src sender sig head residue data =>
    exact execChunkReceive_pending group ord src sender sig head residue data s t hnext
  | collTimeout ctx idx => exact execCollTimeout_pending ctx idx s t hnext
  | postcardReceive group ord axis pos sender sig payload =>
    exact execPostcardReceive_pending group ord axis pos sender sig payload s t hnext
  | ctrlBroadcast initiator payload => exact execCtrlBroadcast_pending initiator payload s t hnext
  | ctrlSnapshot initiator others => exact execCtrlSnapshot_pending initiator others s t hnext
  | ctrlGroupReset initiator group => exact execCtrlGroupReset_pending initiator group s t hnext
  | sampleTake pipe => exact execSampleTake_pending pipe s t hnext
  | sampleComplete pipe => exact execSampleComplete_pending pipe s t hnext
  | sampleBudgetExpiry pipe => exact execSampleBudgetExpiry_pending pipe s t hnext
  | dictReplace slot => exact execDictReplace_pending slot s t hnext
  | frameTake pipe => exact execFrameTake_pending pipe s t hnext
  | frameComplete pipe => exact execFrameComplete_pending pipe s t hnext
  | frameBudgetExpiry pipe => exact execFrameBudgetExpiry_pending pipe s t hnext
  | invalidDatagram d => exact execInvalidDatagram_pending d s t hnext
  | openSession d => exact execOpenSession_pending d s t hnext
  | closeSession d => exact execCloseSession_pending d s t hnext
  | ack d => exact execAck_pending d s t hnext
  | alloc d => exact execAlloc_pending d s t hnext
  | free d => exact execFree_pending d s t hnext
  | write d => exact execWrite_pending d s t hnext
  | read d => exact execRead_pending d s t hnext
  | importJob d => exact execImportJob_pending d s t hnext
  | controlDoorbell d => exact execControlDoorbell_pending d s t hnext
  | controlSuspend d => exact execControlSuspend_pending d s t hnext
  | controlResume d => exact execControlResume_pending d s t hnext
  | controlCancel d => exact execControlCancel_pending d s t hnext
  | controlExport d => exact execControlExport_pending d s t hnext
  | controlRebind d => exact execControlRebind_pending d s t hnext
  | controlQuery d => exact execControlQuery_pending d s t hnext
  | arpRequest port target senderIp senderMac => exact execArpRequest_pending port target senderIp senderMac s t hnext
  | neighbourSolicitation port target senderIp senderMac =>
    exact execNeighbourSolicitation_pending port target senderIp senderMac s t hnext
  | echoRequest port v6 dst src payload => exact execEchoRequest_pending port v6 dst src payload s t hnext
  | retransmitTimeout session => exact execRetransmitTimeout_pending session s t hnext
  | ackTimer session => exact execAckTimer_pending session s t hnext
  | resultRequest r => exact execResultRequest_pending r s t hnext
  | resultHoldExpiry result => exact execResultHoldExpiry_pending result s t hnext
  | haltLimitExpiry ctx => exact execHaltLimitExpiry_pending ctx s t hnext
  | portLinkLoss port => exact execPortLinkLoss_pending port s t hnext
  | ethercatFrame port dgs => exact execEthercatFrame_pending port dgs s t hnext
  | ethercatLinkLoss port => exact execEthercatLinkLoss_pending port s t hnext
  | alStateRequest state => exact execAlStateRequest_pending state s t hnext
  | sdoDownload index sub complete bytes => exact execSdoDownload_pending index sub complete bytes s t hnext
  | sdoUpload index sub complete => exact execSdoUpload_pending index sub complete s t hnext
  | sdoInformation op index sub => exact execSdoInformation_pending op index sub s t hnext
  | sdoTransferTimeout => exact execSdoTransferTimeout_pending s t hnext
  | mailboxUnsupported protocol => exact execMailboxUnsupported_pending protocol s t hnext
  | sm2Watchdog => exact execSm2Watchdog_pending s t hnext
  | pdoRefresh => exact execPdoRefresh_pending s t hnext
  | pdoMapping index entries => exact execPdoMapping_pending index entries s t hnext
  | storeAll value => exact execStoreAll_pending value s t hnext
  | restoreDefaults value => exact execRestoreDefaults_pending value s t hnext
  | layoutCommit value => exact execLayoutCommit_pending value s t hnext
  | dictWrite index sub bytes => exact execDictWrite_pending index sub bytes s t hnext
  | foeWriteFirmware password readBack image => exact execFoeWriteFirmware_pending password readBack image s t hnext
  | foeRead password name => exact execFoeRead_pending password name s t hnext
  | activateFirmware value => exact execActivateFirmware_pending value s t hnext
  | faultClear value => exact execFaultClear_pending value s t hnext
  | fenceUnit value => exact execFenceUnit_pending value s t hnext
  | clearFence value => exact execClearFence_pending value s t hnext
  | resetPartition value => exact execResetPartition_pending value s t hnext
  | resetChip value => exact execResetChip_pending value s t hnext
  | resetChipCullet value => exact execResetChipCullet_pending value s t hnext
  | resetPowerCycle value => exact execResetPowerCycle_pending value s t hnext
  | raiseSecurityVersion value blowOk => exact execRaiseSecurityVersion_pending value blowOk s t hnext
  | challenge => exact execChallenge_pending s t hnext
  | challengeLockoutEnd => exact execChallengeLockoutEnd_pending s t hnext
  | unlockObserve token => exact execUnlockObserve_pending token s t hnext
  | unlockFull token => exact execUnlockFull_pending token s t hnext
  | toField token blowOk => exact execToField_pending token blowOk s t hnext
  | toReturned token blowOk => exact execToReturned_pending token blowOk s t hnext
  | toScrapped token blowOk => exact execToScrapped_pending token blowOk s t hnext
  | revoke token blowOk => exact execRevoke_pending token blowOk s t hnext
  | provision value blowOk => exact execProvision_pending value blowOk s t hnext
  | provisionScrap value blowOk => exact execProvisionScrap_pending value blowOk s t hnext
  | rotateIdentity value => exact execRotateIdentity_pending value s t hnext
  | attestNonce nonce => exact execAttestNonce_pending nonce s t hnext
  | attestReportReady => exact execAttestReportReady_pending s t hnext
  | relock value => exact execRelock_pending value s t hnext
  | debugDataRead => exact execDebugDataRead_pending s t hnext
  | debugDataWrite data => exact execDebugDataWrite_pending data s t hnext
  | powerFull value => exact execPowerFull_pending value s t hnext
  | powerTrim value => exact execPowerTrim_pending value s t hnext
  | powerHold value => exact execPowerHold_pending value s t hnext
  | extest boundary => exact execExtest_pending boundary s t hnext
  | idcode => exact execIdcode_pending s t hnext
  | samplePreload boundary => exact execSamplePreload_pending boundary s t hnext
  | scanread unit => exact execScanread_pending unit s t hnext
  | scanwrite unit data => exact execScanwrite_pending unit data s t hnext
  | corehalt core halt => exact execCorehalt_pending core halt s t hnext
  | bypass code tdi => exact execBypass_pending code tdi s t hnext
  | tapReset => exact execTapReset_pending s t hnext
  | trngHealthFail => exact execTrngHealthFail_pending s t hnext
  | trngResume => exact execTrngResume_pending s t hnext
  | commitTimer => exact execCommitTimer_pending s t hnext
  | allowanceTick => exact execAllowanceTick_pending s t hnext
  | powerFall => exact execPowerFall_pending s t hnext
  | powerReturn => exact execPowerReturn_pending s t hnext
  | powerOn nandOk failedChannels => exact execPowerOn_pending nandOk failedChannels s t hnext
  | nandScrub block finding => exact execNandScrub_pending block finding s t hnext
  | windowRoll => exact execWindowRoll_pending s t hnext
  | fenceWindow region => exact execFenceWindow_pending region s t hnext
  | cellWatchdog cell => exact execCellWatchdog_pending cell s t hnext
  | engineWatchdog unit => exact execEngineWatchdog_pending unit s t hnext
  | partitionWatchdog region => exact execPartitionWatchdog_pending region s t hnext
  | coreWatchdog core => exact execCoreWatchdog_pending core s t hnext
  | uncorrectableCellState cell laneGroup => exact execUncorrectableCellState_pending cell laneGroup s t hnext
  | engineResetOverrun unit => exact execEngineResetOverrun_pending unit s t hnext
  | annealComplete partition => exact execAnnealComplete_pending partition s t hnext
  | annealOverrun partition => exact execAnnealOverrun_pending partition s t hnext
  | chipResetTimeout => exact execChipResetTimeout_pending s t hnext
  | perst => exact execPerst_pending s t hnext
  | perstRelease => exact execPerstRelease_pending s t hnext
  | refclk156Loss => exact execRefclk156Loss_pending s t hnext
  | refclk156Return => exact execRefclk156Return_pending s t hnext
  | refclk100Loss => exact execRefclk100Loss_pending s t hnext
  | thermalWarning die device => exact execThermalWarning_pending die device s t hnext
  | throttleStep die device power => exact execThrottleStep_pending die device power s t hnext
  | thermalTrip die device => exact execThermalTrip_pending die device s t hnext
  | channelTrainingDone channel => exact execChannelTrainingDone_pending channel s t hnext
  | portAligned port lanes => exact execPortAligned_pending port lanes s t hnext
  | dataPortLinkUp port => exact execDataPortLinkUp_pending port s t hnext
  | ethercatLinkUp port => exact execEthercatLinkUp_pending port s t hnext
  | inputVoltageOutOfRange millivolts => exact execInputVoltageOutOfRange_pending millivolts s t hnext

/-- Settles O2: the step hands its command the queue's rest, and the command, whichever it is, keeps what it was handed. -/
theorem stepKeepsQueueRest : Obligations.StepKeepsQueueRest := by
  unfold Obligations.StepKeepsQueueRest
  intro s t c rest hq hstep
  rw [step_of_pending_cons s c rest hq] at hstep
  exact exec_pending c { s with pending := rest } t hstep

end Sys2Proof.Machine
end

section
/-! Doorbells (03 R55 to R57): what a write of NEW_TAIL or RESUME does to its queue. -/

namespace Sys2Proof.Machine
open Sys2Proof

theorem State.bellFetch_of_ctx_none {s : State} {c : Nat} (h : s.ctx? c = none) : s.bellFetch c = s := by
  simp only [State.bellFetch, h]

theorem State.bellFetch_of_ctx_some {s : State} {c : Nat} {x : Ctx} (h : s.ctx? c = some x) :
    s.bellFetch c = (s.bump 0x31D0 7 (s.free (2 ^ 90) % 2)).drew := by
  simp only [State.bellFetch, h]

/-- The fetch of a descriptor is counted and changes no context. -/
@[simp] theorem State.bellFetch_ctx? (s : State) (c d : Nat) : (s.bellFetch c).ctx? d = s.ctx? d := by
  unfold State.bellFetch
  split <;> rfl

/-- A doorbell value with a bit above Resume set, or wider than 64 bits, is ignored. -/
theorem bellAction_reserved (q : Queue) {value : Nat} (hlo : 2 ^ 33 ≤ value) (hhi : value < 2 ^ 64) : bellAction q value = 0 := by
  have hb : bits value 33 31 ≠ 0 := by
    unfold bits
    omega
  simp [bellAction, hb]

/-- A doorbell value of Tail and Resume alone is judged by its distances (03 R56). -/
theorem bellAction_tail (q : Queue) {value : Nat} (h : value < 2 ^ 33) :
    bellAction q value =
      if (value % 2 ^ 32 + 2 ^ 32 - q.tail) % 2 ^ 32 = 0 then 1
      else if (value % 2 ^ 32 + 2 ^ 32 - q.tail) % 2 ^ 32 ≤ 2 ^ 31 ∧ (value % 2 ^ 32 + 2 ^ 32 - q.retired) % 2 ^ 32 ≤ 2 ^ q.ringLog2 then 2
      else 0 := by
  have hb : bits value 33 31 = 0 := by
    unfold bits
    omega
  have hw : decide (2 ^ 64 ≤ value) = false := decide_eq_false (by omega)
  simp only [bellAction, hb, hw, bne_self_eq_false, Bool.or_false, Bool.false_eq_true, if_false, beq_iff_eq, Bool.and_eq_true,
    decide_eq_true_eq]

theorem State.bellTail_ignored {s : State} {c value : Nat} (h : ∀ x, s.ctx? c = some x → bellAction x.queue value = 0) :
    s.bellTail c value = s.bump 0x3150 4 1 := by
  unfold State.bellTail
  split
  · rfl
  next x hx => rw [h x hx]; rfl

theorem State.bellTail_same {s : State} {c value : Nat} {x : Ctx} (hx : s.ctx? c = some x) (h : bellAction x.queue value = 1) :
    s.bellTail c value = s := by
  simp only [State.bellTail, hx, h]

theorem State.bellTail_set {s : State} {c value : Nat} {x : Ctx} (hx : s.ctx? c = some x) (h : bellAction x.queue value = 2) :
    s.bellTail c value = s.setQueue c (fun q => { q with tail := value % 2 ^ 32 }) := by
  simp only [State.bellTail, hx, h]

/-- A doorbell of 64 bits fetches the descriptor where that is needed, and then acts on Tail. -/
theorem exec_newTail_wide (s : State) (c value : Nat) : exec (.newTail c 8 value) s = .next ((s.bellFetch c).bellTail c value) := rfl

/-- Settles O8: the tail's move by the four ranges of its distances, then the writes that are ignored. -/
theorem newTailActs : Obligations.NewTailActs := by
  unfold Obligations.NewTailActs
  refine ⟨?_, ?_, ?_, ?_⟩
  · intro s c value x hx hv
    have hx' : (s.bellFetch c).ctx? c = some x := by rw [State.bellFetch_ctx?, hx]
    have ignored (h : bellAction x.queue value = 0) :
        (s.bellFetch c).bellTail c value = (s.bellFetch c).bump 0x3150 4 1 :=
      State.bellTail_ignored fun y hy => by rw [hx'] at hy; cases hy; exact h
    simp only [exec_newTail_wide]
    have act := bellAction_tail x.queue hv
    refine ⟨fun h0 => ?_, fun h1 h2 h3 => ?_, fun h1 h2 h3 => ?_, fun h1 => ?_⟩
    · rw [State.bellTail_same hx' (by rw [act, if_pos h0])]
    · rw [State.bellTail_set hx' (by rw [act, if_neg (by omega), if_pos ⟨h2, h3⟩])]
    · rw [ignored (by rw [act, if_neg (by omega), if_neg (by omega)])]
    · rw [ignored (by rw [act, if_neg (by omega), if_neg (by omega)])]
  · intro s c value h hw
    rw [exec_newTail_wide, State.bellTail_ignored]
    intro x hx
    rw [State.bellFetch_ctx?] at hx
    rcases h with hnone | hlarge
    · rw [hnone] at hx
      cases hx
    · exact bellAction_reserved x.queue hlarge hw
  · intro s c width value hwidth
    have hne : (width == 8) = false := by simpa using hwidth
    show Host.Outcome.next (if width == 8 then _ else s.bellIgnored) = _
    rw [hne]
    rfl
  · intro s c
    refine ⟨State.bellFetch_of_ctx_none, fun h => ?_⟩
    obtain ⟨x, hx⟩ := Option.ne_none_iff_exists'.mp h
    exact ⟨_, Nat.mod_lt _ (by decide), State.bellFetch_of_ctx_some hx⟩

/-- Settles O9: the Resume part of a legal doorbell write, and what it makes of each state of the queue. -/
theorem resumeActsOnHaltedQueue : Obligations.ResumeActsOnHaltedQueue := by
  unfold Obligations.ResumeActsOnHaltedQueue
  intro s c value x hx hbit hact
  have hx' : (s.bellFetch c).ctx? c = some x := by rw [State.bellFetch_ctx?, hx]
  have hres : (s.bellFetch c).bellResume c value = (s.bellFetch c).setCtx c Ctx.resume := by
    simp [State.bellResume, hx', hbit, hact]
  refine ⟨?_, fun h => ?_, fun h => ?_, fun h => ?_⟩
  · rw [← hres]
    rfl
  · simp only [Ctx.resume, h]
  · simp only [Ctx.resume, h]
  · rcases h with h | h <;> simp only [Ctx.resume, h]

end Sys2Proof.Machine
end

section
/-! What a module answers to the remote requests of others (10 R254, R256, R582, 03 R76). -/

namespace Sys2Proof.Machine
open Sys2Proof

/-- How many bytes a remote read or write moves. -/
def accessBytes (r : RemoteReq) : Nat := if r.kind == 1 then r.data.length else r.len

/-- Why a remote read or write is refused, 0 where it is served; one of no bytes always is. -/
def State.accessCode (s : State) (r : RemoteReq) : Nat :=
  if accessBytes r == 0 then 0 else s.remoteCode (r.kind == 1) r.addr (accessBytes r)

theorem State.accessCode_eq_zero {s : State} {r : RemoteReq} (h : 0 < accessBytes r → s.remoteCode (r.kind == 1) r.addr (accessBytes r) = 0) :
    s.accessCode r = 0 := by
  by_cases hn : accessBytes r = 0
  · simp [State.accessCode, hn]
  · simpa [State.accessCode, hn] using h (Nat.pos_of_ne_zero hn)

/-- A remote read or write that R256 refuses is refused, and changes no byte. -/
theorem execRemoteAccess_refused {s : State} {r : RemoteReq} (hk : r.kind ≠ 2) (hc : s.accessCode r ≠ 0) :
    execRemoteAccess r s = .next (s.refuseRequest (s.homePart r.addr) r.src (s.accessCode r)) := by
  have hcode : (s.accessCode r != 0) = true := by simpa using hc
  unfold execRemoteAccess
  refine congrArg Host.Outcome.next ?_
  exact (if_neg (by simpa using hk)).trans (if_pos hcode)

/-- A remote write that R256 lets through is made and acknowledged. -/
theorem execRemoteAccess_write {s : State} {r : RemoteReq} (hk : r.kind = 1) (hc : s.accessCode r = 0) :
    execRemoteAccess r s =
      .next ((s.writeBytes r.addr r.data).respond (s.homePart r.addr) r.src r.postmark (beBytes 4 r.tag)) := by
  have hcode : ¬ (s.accessCode r != 0) = true := by simpa using hc
  unfold execRemoteAccess
  refine congrArg Host.Outcome.next ?_
  exact (if_neg (by simp [hk])).trans ((if_neg hcode).trans (if_pos (by simp [hk])))

/-- A remote read that R256 lets through is answered with its uncorrectable units and its bytes. -/
theorem execRemoteAccess_read {s : State} {r : RemoteReq} (hk : r.kind = 0) (hc : s.accessCode r = 0) :
    let us := s.mem.poisonIn r.addr r.len
    execRemoteAccess r s = .next (((if us = [] then s else s.sawPoison us).readRuns [(r.addr, r.len)]).respond (s.homePart r.addr)
      r.src r.postmark (beBytes 4 r.tag ++ beBytes 2 us.length ++ us.flatMap (fun u => beBytes 8 u) ++ s.readBytes r.addr r.len)) := by
  have hcode : ¬ (s.accessCode r != 0) = true := by simpa using hc
  unfold execRemoteAccess
  refine congrArg Host.Outcome.next ?_
  refine (if_neg (by simp [hk])).trans ((if_neg hcode).trans ((if_neg (by simp [hk])).trans ?_))
  simp [hk]

/-- A free of a live object's base drops the object; its granules wait to be zeroed. -/
theorem execRemoteAccess_free {s : State} {r : RemoteReq} (hk : r.kind = 2) (hp : s.board.phase = .serving)
    (hw : s.board.power ≠ 2) {o : Obj} (ho : s.mem.localObjs.find? (fun o => o.base == r.addr) = some o) :
    execRemoteAccess r s = .next ((s.dropObj o).respond o.set r.src r.postmark (beBytes 4 r.tag)) := by
  simp [execRemoteAccess, hk, hp, hw, ho]

/-- A free of any other address is refused with 0x0185. -/
theorem execRemoteAccess_free_none {s : State} {r : RemoteReq} (hk : r.kind = 2) (hp : s.board.phase = .serving)
    (hw : s.board.power ≠ 2) (ho : s.mem.localObjs.find? (fun o => o.base == r.addr) = none) :
    execRemoteAccess r s = .next (s.refuse (s.homePart r.addr) r.src 0x0185) := by
  simp [execRemoteAccess, hk, hp, hw, ho]

/-- The operations of a SIGNAL, written out (03 R77, R78). -/
theorem State.semApply_eq (s : State) (a op v : Nat) :
    s.semApply a op v = if op % 4 = 0 ∧ v = 0 then s
      else s.writeBytes a (leBytes 8 (
        if op % 4 = 0 then (leNat (s.readBytes a 8) + v) % 2 ^ 64
        else if op % 4 = 1 then v
        else max (leNat (s.readBytes a 8)) v)) := by
  unfold State.semApply signalOp
  simp only [Bool.and_eq_true, beq_iff_eq]
  congr 3
  split
  next h => simp [h]
  next h => simp [h]
  next h0 h1 => rw [if_neg h0, if_neg h1]

/-- A remote SIGNAL on an aligned semaphore of the window that R256 lets through is applied and answered. -/
theorem execRemoteSignal_served {s : State} {src post addr op v : Nat} (hc : s.remoteCode true addr 8 = 0) (ha : addr % 8 = 0)
    (hw : addr + 8 ≤ s.mem.windowBytes) (hop : op % 4 < 3) (hv : v < 2 ^ 64) :
    execRemoteSignal src post addr op v s = .next ((s.semApply addr op v).respond (s.homePart addr) src post []) := by
  have hw' : ¬ s.mem.windowBytes < addr + 8 := by omega
  have hop' : op % 4 ≠ 3 := by omega
  simp only [execRemoteSignal, Nat.mod_eq_of_lt hv]
  simp [hc, ha, hw', hop']

theorem State.makeRoom_of_le {s : State} {n : Nat} (h : n ≤ s.freeBytesPool) (fuel : Nat) : s.makeRoom n fuel = s := by
  cases fuel with
  | zero => rfl
  | succ f => simp only [State.makeRoom, h, if_true]

/-- Without a place in its set's pool an allocation is refused. -/
theorem State.allocHere_of_place_none {s : State} {p size client : Nat} (h : s.place p (roundUp size 4096) true = none) :
    (s.allocHere p size client).2.1 ≠ 0 := by
  simp only [State.allocHere, h]
  split <;> decide

/-- With a place and room enough, nothing is evicted: the object is listed, and its bytes read as zero. -/
theorem State.allocHere_of_place {s : State} {p size client a : Nat} (h : s.place p (roundUp size 4096) true = some a)
    (hroom : roundUp size 4096 ≤ s.freeBytesPool) :
    s.allocHere p size client =
      let v := s.clearRun a (roundUp size 4096)
      ({ v with mem := { v.mem with
          objects := v.mem.objects ++ [⟨a, roundUp size 4096, client, 0xFFFF, false, p⟩] } }, 0, a) := by
  have hlt : ¬ s.freeBytesPool < roundUp size 4096 := by omega
  simp only [State.allocHere, State.allocRoom, State.makeRoom_of_le hroom, h, hlt, if_false]

/-- The first number below `n` that a test picks is found. -/
theorem find?_range_eq_some {n p : Nat} {test : Nat → Bool} (hp : p < n) (ht : test p = true) (hlow : ∀ q < p, test q = false) :
    (List.range n).find? test = some p := by
  rw [List.find?_range_eq_some]
  exact ⟨ht, List.mem_range.mpr hp, fun q hq => by simp [hlow q hq]⟩

/-- A cache partition can grant an allocation. -/
def State.grants (s : State) (n p : Nat) : Bool := s.role p == 3 && (s.allocHere p n 0).2.1 == 0

theorem State.grants_of_place_none {s : State} {n p : Nat} (h : s.role p = 3 → s.place p (roundUp n 4096) true = none) :
    s.grants n p = false := by
  by_cases hr : s.role p = 3
  · simpa [State.grants, hr] using State.allocHere_of_place_none (h hr)
  · simp [State.grants, hr]

/-- An allocation is granted by the first partition that can. -/
theorem execRemoteAlloc_granted {s : State} (src post : Nat) (record : Bytes) (hp : s.board.phase = .serving)
    (hw : s.board.power ≠ 2) {p : Nat} (hfirst : (List.range s.nParts).find? (s.grants (leAt record 0 8)) = some p) :
    execRemoteAlloc src post record s =
      .next ((s.allocHere p (leAt record 0 8) (leAt record 8 2)).1.respond p src post
        (beBytes 8 (s.allocHere p (leAt record 0 8) (leAt record 8 2)).2.2)) := by
  unfold State.grants at hfirst
  simp only [execRemoteAlloc, hp, bne_self_eq_false, Bool.false_eq_true, if_false, beq_iff_eq, hw, hfirst]

/-- An allocation that no partition can grant is answered with none. -/
theorem execRemoteAlloc_none {s : State} (src post : Nat) (record : Bytes) (hp : s.board.phase = .serving)
    (hw : s.board.power ≠ 2) (hnone : (List.range s.nParts).find? (s.grants (leAt record 0 8)) = none) :
    execRemoteAlloc src post record s = .next (s.respond 0 src post []) := by
  unfold State.grants at hnone
  simp only [execRemoteAlloc, hp, bne_self_eq_false, Bool.false_eq_true, if_false, beq_iff_eq, hw, hnone]

/-- Settles O23: each kind of request by its own law, and the allocation by the first partition that grants it. -/
theorem remoteRequestsServed : Obligations.RemoteRequestsServed := by
  unfold Obligations.RemoteRequestsServed
  refine ⟨?_, ?_, ?_, ?_, ?_, ?_⟩
  · intro s r hk hc
    exact execRemoteAccess_write hk (State.accessCode_eq_zero (by simpa [accessBytes, hk] using hc))
  · intro s r hk hc
    exact execRemoteAccess_read hk (State.accessCode_eq_zero (by simpa [accessBytes, hk] using hc))
  · intro s r hk hp hw
    exact ⟨fun o ho => execRemoteAccess_free hk hp hw ho, fun ho => execRemoteAccess_free_none hk hp hw ho⟩
  · intro s src post addr op v hc ha hin hop hv
    rw [← State.semApply_eq]
    exact execRemoteSignal_served hc ha hin hop hv
  · intro s src post record hp hw
    refine ⟨fun hnone => ?_, fun p a hroom hlt hrole hplace hlow => ?_⟩
    · have hno : (List.range s.nParts).find? (s.grants (leAt record 0 8)) = none :=
        List.find?_eq_none.mpr fun q hq => by
          simp [State.grants_of_place_none (hnone q (List.mem_range.mp hq))]
      exact execRemoteAlloc_none src post record hp hw hno
    · have hgrant : s.grants (leAt record 0 8) p = true := by
        simp [State.grants, hrole, State.allocHere_of_place hplace hroom]
      have hfirst : (List.range s.nParts).find? (s.grants (leAt record 0 8)) = some p :=
        find?_range_eq_some hlt hgrant fun q hq => State.grants_of_place_none (hlow q hq)
      show execRemoteAlloc src post record s = _
      rw [execRemoteAlloc_granted src post record hp hw hfirst, State.allocHere_of_place hplace hroom]
  · intro s r hk n code hn hc
    have hsize : accessBytes r = n := by simp [accessBytes, n]
    have hcode : s.accessCode r = code := by
      have hne : (n == 0) = false := by simpa using Nat.ne_of_gt hn
      simp [State.accessCode, hsize, hne, code]
    show execRemoteAccess r s = _
    rw [execRemoteAccess_refused (by omega) (hcode ▸ hc), hcode]
    simp [State.refuseRequest]

end Sys2Proof.Machine
end

section
/-! How the answers to a module's own remote requests end them (03 R78, R82, R91, 10 R258, R261, 19 R504). -/

namespace Sys2Proof.Machine
open Sys2Proof

theorem State.req?_id {s : State} {id : Nat} {q : Req} (h : s.req? id = some q) : q.id = id := by
  have := List.find?_some h
  simp only [Bool.and_eq_true, beq_iff_eq] at this
  exact this.1

/-- An acknowledgement is taken by the request that waits for it. -/
theorem execRemoteAck_of_req {s : State} {id : Nat} {q : Req} (h : s.req? id = some q) (hk : q.kind.ackOnly = true)
    (hr : q.kind ≠ .result) : execRemoteAck id s = .next (s.acked q) := by
  simp [execRemoteAck, h, hk, hr]

/-- A request that is not a write-back fails with 0x0703 as its time is up. -/
theorem execRemoteAckTimeout_of_req {s : State} {id : Nat} {q : Req} (h : s.req? id = some q) (hk : q.kind ≠ .writeBack) :
    execRemoteAckTimeout id s = .next (s.failReq q 0x0703) := by
  simp [execRemoteAckTimeout, h, hk]

theorem execRefuseReceive_of_req {s : State} {id : Nat} {q : Req} (h : s.req? id = some q) (code : Nat) :
    execRefuseReceive id code s = .next (s.failReq q (refusedCode q.kind code)) := by
  simp [execRefuseReceive, h]

theorem execWriteBackTimeout_of_req {s : State} {id : Nat} {q : Req} (h : s.req? id = some q) (hk : q.kind = .writeBack) :
    execWriteBackTimeout id s = .next ((s.bump 0x31C0 0xF 1).failReq q 0x0703) := by
  simp [execWriteBackTimeout, h, hk]

theorem execResponseReceive_of_req {s : State} {id : Nat} {q : Req} (h : s.req? id = some q) (poisoned : List Nat) (data : Bytes) :
    execResponseReceive id (s.postmark q.partition) poisoned data s = .next (s.answered q poisoned data) := by
  simp [execResponseReceive, h]

/-- The answer of request `id` is held for the instruction that asked. -/
def State.holdAnswer (s : State) (id : Nat) (poisoned : List Nat) (data : Bytes) : State :=
  { s with cs := { s.cs with
      reqs := modifyWhere (fun r => r.id == id)
        (fun (r : Req) => { r with answered := true, data := fit r.len data, poisoned := poisoned }) s.cs.reqs } }

/-- A read's answer is held, and its instruction goes on. -/
theorem State.answered_read (s : State) {q : Req} (hk : q.kind = .read) (poisoned : List Nat) (data : Bytes) :
    s.answered q poisoned data = (s.holdAnswer q.id poisoned data).resumeRun q.ctx q.idx := by
  simp only [State.answered, hk, State.holdAnswer]

/-- A response that echoes another postmark is dropped and counted (19 R504). -/
theorem execResponseReceive_stale {s : State} {id : Nat} {q : Req} (h : s.req? id = some q) {postmark : Nat}
    (hp : postmark ≠ s.postmark q.partition) (poisoned : List Nat) (data : Bytes) :
    execResponseReceive id postmark poisoned data s = .next (s.bump 0x4003 5 1) := by
  simp [execResponseReceive, h, hp]

theorem State.acked_write (s : State) {q : Req} (hk : q.kind = .write) : s.acked q = s.dropReqs (fun r => r.id == q.id) := by
  simp only [State.acked, hk]

theorem State.acked_signal (s : State) {q : Req} (hk : q.kind = .signal) :
    s.acked q = (s.dropReqs (fun r => r.id == q.id)).setFlight q.ctx q.idx (fun f => f.end_ 0) := by
  simp only [State.acked, hk]

theorem State.failReq_write (s : State) {q : Req} (code : Nat) (hk : q.kind = .write) :
    s.failReq q code = (s.dropReqs (fun r => r.id == q.id)).chargeWrite q.ctx code := by
  simp only [State.failReq, hk]

theorem State.failReq_signal (s : State) {q : Req} (code : Nat) (hk : q.kind = .signal) :
    s.failReq q code = (s.dropReqs (fun r => r.id == q.id)).setFlight q.ctx q.idx (fun f => f.end_ code) := by
  simp only [State.failReq, hk]

/-- The read of an instruction's operands fails its instruction. -/
theorem State.failReq_read (s : State) {q : Req} (code : Nat) (hk : q.kind = .read) (hs : q.seq = 0) :
    s.failReq q code = (s.dropReqs (fun r => r.id == q.id)).failInstr q.ctx q.idx code := by
  simp [State.failReq, hk, hs]

theorem State.failReq_free (s : State) {q : Req} (code : Nat) (hk : q.kind = .free) :
    s.failReq q code = (s.dropReqs (fun r => r.id == q.id)).reply q.session q.seq code 0 0 := by
  simp only [State.failReq, hk]

theorem State.failReq_writeBack (s : State) {q : Req} (code : Nat) (hk : q.kind = .writeBack) :
    s.failReq q code = (s.dropReqs (fun r => r.id == q.id)).lostBack q.node q.addr code := by
  simp only [State.failReq, hk]

/-- Charging several queues with a failed write lists each of them, in order. -/
theorem State.foldl_chargeWrite (l : List Nat) (code : Nat) (s : State) :
    l.foldl (fun s w => s.chargeWrite w code) s =
      { s with cs := { s.cs with failedWrites := s.cs.failedWrites ++ l.map (fun w => (w, returnable code)) } } := by
  induction l generalizing s with
  | nil => simp
  | cons w l ih => rw [List.foldl_cons, ih]; simp [State.chargeWrite]

/-- A copy whose write-back has failed is kept: it stays dirty, and each of its writers is charged (10 R261). -/
theorem State.lostBack_of_find {s : State} {node addr code : Nat} {c : Copy}
    (h : s.mem.copies.find? (fun c => c.node == node && c.addr == addr) = some c) :
    s.lostBack node addr code = { s with
      cs := { s.cs with failedWrites := s.cs.failedWrites ++ c.writers.map (fun w => (w, returnable code)) }
      mem := { s.mem with
        copies := modifyWhere (fun x => x.node == node && x.addr == addr) (fun x => { x with failed := true, leaving := false })
          s.mem.copies } } := by
  simp only [State.lostBack, h, State.foldl_chargeWrite]

/-- A write-back whose time is up leaves its copy dirty and charges its writers with 0x0703. -/
theorem execWriteBackTimeout_keeps_copy {s : State} {id : Nat} {q : Req} {c : Copy} (h : s.req? id = some q) (hk : q.kind = .writeBack)
    (hc : s.mem.copies.find? (fun c => c.node == q.node && c.addr == q.addr) = some c) :
    ∃ t, execWriteBackTimeout id s = .next t ∧ t.cs.reqs = (s.dropReqs (fun r => r.id == id)).cs.reqs ∧
      t.cs.failedWrites = s.cs.failedWrites ++ c.writers.map (fun w => (w, 0x0703)) ∧
      t.mem = { s.mem with
        copies := modifyWhere (fun x => x.node == q.node && x.addr == q.addr) (fun x => { x with failed := true, leaving := false })
          s.mem.copies } ∧
      t.count 0x31C0 0xF = (s.count 0x31C0 0xF + 1) % 2 ^ 64 := by
  have hlost := State.lostBack_of_find (s := (s.bump 0x31C0 0xF 1).dropReqs (fun r => r.id == q.id)) (code := 0x0703) hc
  refine ⟨_, execWriteBackTimeout_of_req h hk, ?_⟩
  rw [State.failReq_writeBack _ _ hk, hlost, State.req?_id h]
  exact ⟨rfl, rfl, rfl, State.count_bump_self s 0x31C0 0xF 1⟩

/-- A refusal's code is one of R78's, but for an allocation, a free and a result (log entry 144). -/
theorem refusedCode_of_access {k : ReqKind} (ha : k ≠ .alloc) (hf : k ≠ .free) (hr : k ≠ .result) (code : Nat) :
    refusedCode k code = if code = 0x0701 ∨ code = 0x0381 ∨ code = 0x07FC then code else 0x0702 := by
  simp [refusedCode, ha, hf, hr]

/-- Settles O24: the request that an answer names is the one found, and each kind of it ends by its own law. -/
theorem remoteAnswersTaken : Obligations.RemoteAnswersTaken := by
  unfold Obligations.RemoteAnswersTaken
  refine ⟨fun s id q hq => ?_, fun k code ha hf hr => refusedCode_of_access ha hf hr code⟩
  have hid : q.id = id := State.req?_id hq
  have timeout (hk : q.kind ≠ .writeBack) : exec (.remoteAckTimeout id) s = .next (s.failReq q 0x0703) :=
    execRemoteAckTimeout_of_req hq hk
  have refused (code : Nat) : exec (.refuseReceive id code) s = .next (s.failReq q (refusedCode q.kind code)) :=
    execRefuseReceive_of_req hq code
  refine ⟨fun hk => ?_, fun hk => ?_, fun hk => ?_, fun hk => ?_, fun hk hs => ?_, fun code => ?_, fun c hk hc => ?_,
    fun postmark poisoned data hp => ?_, fun poisoned data hk => ?_⟩
  · rw [← hid, ← State.acked_write s hk]
    exact execRemoteAck_of_req (hid ▸ hq) (by rw [hk]; rfl) (by rw [hk]; decide)
  · rw [← hid, ← State.acked_signal s hk]
    exact execRemoteAck_of_req (hid ▸ hq) (by rw [hk]; rfl) (by rw [hk]; decide)
  · rw [timeout (by rw [hk]; decide), State.failReq_write s _ hk, hid]
  · rw [timeout (by rw [hk]; decide), State.failReq_signal s _ hk, hid]
  · rw [timeout (by rw [hk]; decide), State.failReq_read s _ hk hs, hid]
  · refine ⟨fun hk => ?_, fun hk => ?_, fun hk hs => ?_, fun hk => ?_⟩
    · rw [refused, State.failReq_write s _ hk, hid]
    · rw [refused, State.failReq_signal s _ hk, hid]
    · rw [refused, State.failReq_read s _ hk hs, hid]
    · rw [refused, State.failReq_free s _ hk, hid]
  · exact execWriteBackTimeout_keeps_copy hq hk hc
  · exact execResponseReceive_stale hq hp poisoned data
  · refine ⟨s.holdAnswer id poisoned data, ?_, rfl, rfl⟩
    refine (execResponseReceive_of_req hq poisoned data).trans ?_
    rw [State.answered_read s hk, hid]

end Sys2Proof.Machine
end

section
/-! What reading and writing memory, and sending requests over the fabric, can change of the module: each operation's frame, said once
as a relation between the states before and after it. -/

namespace Sys2Proof.Machine
open Sys2Proof

/-! ### Folds -/

/-- A relation that each step of a fold keeps to, and that chains, holds from end to end. -/
theorem foldl_related {α β : Type} {R : α → α → Prop} (hrefl : ∀ s, R s s) (htrans : ∀ {s t u}, R s t → R t u → R s u)
    {f : α → β → α} (hf : ∀ s b, R s (f s b)) (l : List β) (s : α) : R s (l.foldl f s) := by
  induction l generalizing s with
  | nil => exact hrefl s
  | cons b l ih => exact htrans (hf s b) (ih (f s b))

/-! ### Steps of memory -/

/-- Nothing but memory, the counters and the free values drawn has changed. -/
def State.memoryStep (s t : State) : Prop := ∃ epoch tele mem, t = { s with epoch := epoch, tele := tele, mem := mem }

theorem State.memoryStep.refl (s : State) : s.memoryStep s := ⟨_, _, _, rfl⟩

theorem State.memoryStep.trans {s t u : State} (h : s.memoryStep t) (h' : t.memoryStep u) : s.memoryStep u := by
  obtain ⟨_, _, _, rfl⟩ := h
  obtain ⟨_, _, _, rfl⟩ := h'
  exact ⟨_, _, _, rfl⟩

theorem State.memoryStep.cs {s t : State} (h : s.memoryStep t) : t.cs = s.cs := by
  obtain ⟨_, _, _, rfl⟩ := h
  rfl

theorem State.memoryStep.office {s t : State} (h : s.memoryStep t) : t.office = s.office := by
  obtain ⟨_, _, _, rfl⟩ := h
  rfl

theorem State.memoryStep.fabric {s t : State} (h : s.memoryStep t) : t.fabric = s.fabric := by
  obtain ⟨_, _, _, rfl⟩ := h
  rfl

theorem State.memoryStep.faults {s t : State} (h : s.memoryStep t) : t.faults = s.faults := by
  obtain ⟨_, _, _, rfl⟩ := h
  rfl

theorem State.memoryStep.intake {s t : State} (h : s.memoryStep t) : t.intake = s.intake := by
  obtain ⟨_, _, _, rfl⟩ := h
  rfl

theorem State.bump_memoryStep (s : State) (i j n : Nat) : s.memoryStep (s.bump i j n) := ⟨_, _, _, rfl⟩

theorem State.drew_memoryStep (s : State) : s.memoryStep s.drew := ⟨_, _, _, rfl⟩

theorem State.bumps_memoryStep (s : State) (l : List (Nat × Nat)) : s.memoryStep (s.bumps l) :=
  foldl_related (f := fun s (e : Nat × Nat) => s.bump (e.1 / 256) (e.1 % 256) e.2) State.memoryStep.refl State.memoryStep.trans
    (fun s e => s.bump_memoryStep _ _ e.2) l s

@[simp] theorem State.bumps_mem (s : State) (l : List (Nat × Nat)) : (s.bumps l).mem = s.mem :=
  foldl_related (R := fun s t : State => t.mem = s.mem) (f := fun s (e : Nat × Nat) => s.bump (e.1 / 256) (e.1 % 256) e.2)
    (fun _ => rfl) (fun h h' => h'.trans h) (fun _ _ => rfl) l s

theorem State.storeByte_memoryStep (s : State) (a : Nat) (v : Byte) : s.memoryStep (s.storeByte a v) := by
  unfold State.storeByte
  split
  · split
    · split <;> exact ⟨_, _, _, rfl⟩
    · exact ⟨_, _, _, rfl⟩
  · exact .refl s

theorem State.storeBytes_memoryStep (s : State) (a : Nat) (bs : Bytes) : s.memoryStep (s.storeBytes a bs) := by
  induction bs generalizing s a with
  | nil => exact .refl s
  | cons b bs ih => exact (s.storeByte_memoryStep a b).trans (ih _ _)

theorem State.mergeLine_memoryStep (s : State) (line : Nat) (addrs : List Nat) : s.memoryStep (s.mergeLine line addrs) := by
  unfold State.mergeLine
  dsimp only
  split
  · exact ⟨_, _, _, rfl⟩
  · split
    · split
      · exact ⟨_, _, _, rfl⟩
      · split <;> exact ⟨_, _, _, rfl⟩
    · split
      · exact ⟨_, _, _, rfl⟩
      · split
        · exact ⟨_, _, _, rfl⟩
        · split <;> exact ⟨_, _, _, rfl⟩

theorem State.mergeLines_memoryStep (s : State) (a n fuel : Nat) : s.memoryStep (s.mergeLines a n fuel) := by
  induction fuel generalizing s a n with
  | zero => exact .refl s
  | succ fuel ih =>
    unfold State.mergeLines
    split
    · exact .refl s
    · exact (s.mergeLine_memoryStep _ _).trans (ih _ _ _)

/-- A write first spoils what reads its bytes, and then changes memory. -/
theorem State.writeBytes_memoryStep (s : State) (a : Nat) (bs : Bytes) : (s.spoil a bs.length).memoryStep (s.writeBytes a bs) := by
  unfold State.writeBytes
  dsimp only
  have store := (s.spoil a bs.length).storeBytes_memoryStep a bs
  split
  · exact (store.trans (State.mergeLines_memoryStep _ _ _ _)).trans (State.bump_memoryStep _ _ _ _)
  · exact store.trans ⟨_, _, _, rfl⟩

theorem State.readRuns_memoryStep (s : State) (l : List (Nat × Nat)) : s.memoryStep (s.readRuns l) := by
  have counted : s.memoryStep ((((s.bumps (s.readEvents (s.gddrBytes l))).bump 0x31C0 1 (s.gddrBytes l)).drew)) :=
    ((s.bumps_memoryStep _).trans (State.bump_memoryStep _ _ _ _)).trans (State.drew_memoryStep _)
  unfold State.readRuns
  dsimp only
  split
  · exact ⟨_, _, _, rfl⟩
  · exact counted.trans ⟨_, _, _, rfl⟩

/-- Reading changes memory in the age of its local copies alone. -/
theorem State.readRuns_mem (s : State) (l : List (Nat × Nat)) : (s.readRuns l).mem = s.mem.touch l := by
  unfold State.readRuns
  dsimp only
  split
  · rfl
  · simp only [State.drew_keeps_mem, State.bump_keeps_mem, State.bumps_mem]

/-! ### What a write does to memory depends on memory and the layout alone -/

theorem State.setOf_congr {s t : State} (hm : s.mem = t.mem) (ho : s.office.layout = t.office.layout) (a : Nat) :
    s.setOf a = t.setOf a := by
  have hp : s.partOfChan = t.partOfChan := by
    funext c
    simp only [State.partOfChan, State.partOfRegion, ho]
  unfold State.setOf
  rw [hm, ho, hp]

theorem State.chanOf_congr {s t : State} (hm : s.mem = t.mem) (ho : s.office.layout = t.office.layout) (a : Nat) :
    s.chanOf a = t.chanOf a := by
  simp only [State.chanOf, State.setOf_congr hm ho]

theorem State.trainingOwner_congr {s t : State} (hm : s.mem = t.mem) (ho : s.office.layout = t.office.layout) (a : Nat) :
    s.trainingOwner a = t.trainingOwner a := by
  simp only [State.trainingOwner, State.chanOf_congr hm ho, hm]

theorem State.storeByte_mem_congr {s t : State} (hm : s.mem = t.mem) (ho : s.office.layout = t.office.layout) (a : Nat) (v : Byte) :
    (s.storeByte a v).mem = (t.storeByte a v).mem := by
  unfold State.storeByte State.chan
  rw [State.trainingOwner_congr hm ho a, hm]
  split
  · split
    · split <;> simp only [State.setChan, State.bump_keeps_mem, hm]
    · rfl
  · exact hm

theorem State.storeBytes_mem_congr {s t : State} (hm : s.mem = t.mem) (ho : s.office.layout = t.office.layout) (a : Nat) (bs : Bytes) :
    (s.storeBytes a bs).mem = (t.storeBytes a bs).mem := by
  induction bs generalizing s t a with
  | nil => exact hm
  | cons b bs ih =>
    refine ih (State.storeByte_mem_congr hm ho a b) ?_ (a + 1)
    rw [(s.storeByte_memoryStep a b).office, (t.storeByte_memoryStep a b).office, ho]

theorem State.mergeLine_mem_congr {s t : State} (hm : s.mem = t.mem) (ho : s.office.layout = t.office.layout) (line : Nat)
    (addrs : List Nat) : (s.mergeLine line addrs).mem = (t.mergeLine line addrs).mem := by
  unfold State.mergeLine State.chan
  rw [State.trainingOwner_congr hm ho, State.chanOf_congr hm ho, hm]
  dsimp only
  split
  · rfl
  · split
    · split
      · rfl
      · split <;> rfl
    · split
      · rfl
      · split
        · simp only [hm]
        · split <;> simp only [State.retireWcb, State.bump_keeps_mem, hm]

theorem State.mergeLines_mem_congr {s t : State} (hm : s.mem = t.mem) (ho : s.office.layout = t.office.layout) (a n fuel : Nat) :
    (s.mergeLines a n fuel).mem = (t.mergeLines a n fuel).mem := by
  induction fuel generalizing s t a n with
  | zero => exact hm
  | succ fuel ih =>
    unfold State.mergeLines
    split
    · exact hm
    · refine ih (State.mergeLine_mem_congr hm ho _ _) ?_ _ _
      rw [(s.mergeLine_memoryStep _ _).office, (t.mergeLine_memoryStep _ _).office, ho]

/-- Two states of the same memory and layout have the same memory after the same write. -/
theorem State.writeBytes_mem_congr {s t : State} (hm : s.mem = t.mem) (ho : s.office.layout = t.office.layout) (a : Nat) (bs : Bytes) :
    (s.writeBytes a bs).mem = (t.writeBytes a bs).mem := by
  have hm' : (s.spoil a bs.length).mem = (t.spoil a bs.length).mem := hm
  have ho' : (s.spoil a bs.length).office.layout = (t.spoil a bs.length).office.layout := ho
  have stored := State.storeBytes_mem_congr hm' ho' a bs
  unfold State.writeBytes
  dsimp only
  rw [hm']
  split
  · refine State.mergeLines_mem_congr stored ?_ _ _ _
    rw [(State.storeBytes_memoryStep _ a bs).office, (State.storeBytes_memoryStep _ a bs).office, ho']
  · simp only [stored]

/-! ### Steps of the fabric -/

/-- Nothing but memory, the counters, the fabric, and the requests and write failures of the command streams has changed. -/
def State.fabricStep (s t : State) : Prop := ∃ tele mem fabric reqs nextReq failed,
  t = { s with
    tele := tele
    mem := mem
    fabric := fabric
    cs := { s.cs with reqs := reqs, nextReq := nextReq, failedWrites := failed } }

theorem State.fabricStep.refl (s : State) : s.fabricStep s := ⟨_, _, _, _, _, _, rfl⟩

theorem State.fabricStep.trans {s t u : State} (h : s.fabricStep t) (h' : t.fabricStep u) : s.fabricStep u := by
  obtain ⟨_, _, _, _, _, _, rfl⟩ := h
  obtain ⟨_, _, _, _, _, _, rfl⟩ := h'
  exact ⟨_, _, _, _, _, _, rfl⟩

theorem foldl_fabricStep {α : Type} {f : State → α → State} (hf : ∀ (s : State) (a : α), s.fabricStep (f s a)) (l : List α) (s : State) :
    s.fabricStep (l.foldl f s) :=
  foldl_related State.fabricStep.refl State.fabricStep.trans hf l s

theorem State.routeFlit_fabricStep (s : State) (f : Flit) : s.fabricStep (s.routeFlit f) := by
  unfold State.routeFlit
  dsimp only
  split
  · unfold State.freePlace
    split <;> exact ⟨_, _, _, _, _, _, rfl⟩
  · split <;> exact ⟨_, _, _, _, _, _, rfl⟩

theorem State.request_fabricStep (s : State) (kind : ReqKind) (ctx idx part node addr len : Nat) (data : Bytes) (session seq : Nat) :
    s.fabricStep (s.request kind ctx idx part node addr len data session seq) :=
  State.fabricStep.trans ⟨_, _, _, _, _, _, rfl⟩ (foldl_fabricStep State.routeFlit_fabricStep _ _)

theorem State.chargeWrite_fabricStep (s : State) (ctx code : Nat) : s.fabricStep (s.chargeWrite ctx code) := ⟨_, _, _, _, _, _, rfl⟩

theorem State.lostBack_fabricStep (s : State) (node addr code : Nat) : s.fabricStep (s.lostBack node addr code) := by
  unfold State.lostBack
  split
  · exact .refl s
  · exact (foldl_fabricStep (fun s w => s.chargeWrite_fabricStep w code) _ s).trans ⟨_, _, _, _, _, _, rfl⟩

theorem State.lostFetch_fabricStep (s : State) (node addr code : Nat) : s.fabricStep (s.lostFetch node addr code) :=
  (foldl_fabricStep (fun s (c : Copy) => foldl_fabricStep (fun s w => s.chargeWrite_fabricStep w code) c.writers s) _ s).trans
    ⟨_, _, _, _, _, _, rfl⟩

theorem State.writeBack_fabricStep (s : State) (c : Copy) : s.fabricStep (s.writeBack c) := by
  unfold State.writeBack
  split
  · exact .refl s
  · split
    · exact s.lostBack_fabricStep _ _ _
    · exact s.request_fabricStep _ _ _ _ _ _ _ _ _ _

theorem State.evict_fabricStep (s : State) (c : Copy) : s.fabricStep (s.evict c) := by
  unfold State.evict
  split
  · exact State.fabricStep.trans ⟨_, _, _, _, _, _, rfl⟩ (State.writeBack_fabricStep _ c)
  · exact ⟨_, _, _, _, _, _, rfl⟩

theorem State.makeRoom_fabricStep (s : State) (n fuel : Nat) : s.fabricStep (s.makeRoom n fuel) := by
  induction fuel generalizing s with
  | zero => exact .refl s
  | succ fuel ih =>
    unfold State.makeRoom
    split
    · exact .refl s
    · split
      · exact (s.evict_fabricStep _).trans (ih _)
      · exact .refl s

theorem State.copyWrite_fabricStep (s : State) (ctx g : Nat) (bs : Bytes) : s.fabricStep (s.copyWrite ctx g bs).1 := by
  unfold State.copyWrite
  dsimp only
  split
  · exact ⟨_, _, _, _, _, _, rfl⟩
  · have room : s.fabricStep s.copyRoom.1 := s.makeRoom_fabricStep _ _
    split
    · refine room.trans ?_
      split
      · exact ⟨_, _, _, _, _, _, rfl⟩
      · split
        · exact State.fabricStep.trans ⟨_, _, _, _, _, _, rfl⟩ (State.lostFetch_fabricStep _ _ _ _)
        · exact State.fabricStep.trans ⟨_, _, _, _, _, _, rfl⟩ (State.request_fabricStep _ _ _ _ _ _ _ _ _ _ _)
    · exact room

/-- The write of one granule of another node's memory. -/
theorem State.writeGranule_fabricStep (s : State) (ctx idx part : Nat) (x : Nat × Bytes) :
    s.fabricStep (if s.unreachable (gNode x.1) != 0 then s.chargeWrite ctx (s.unreachable (gNode x.1))
      else s.request .write ctx idx part (gNode x.1) (gLocal x.1) x.2.length x.2 0 0) := by
  split
  · exact s.chargeWrite_fabricStep _ _
  · exact s.request_fabricStep _ _ _ _ _ _ _ _ _ _

/-- A write to a global address is one of local memory, or one to local copies and homes. -/
theorem State.writeGlobal_cases (s : State) (ctx idx part : Nat) (w : Nat × Bytes) :
    s.writeGlobal ctx idx part w = s.writeBytes (gAddr (w.1 % 2 ^ 64)) w.2 ∨ s.fabricStep (s.writeGlobal ctx idx part w) := by
  unfold State.writeGlobal
  dsimp only
  split
  · exact .inl rfl
  · refine .inr (foldl_fabricStep (fun s x => ?_) _ s)
    split
    · split
      · exact s.copyWrite_fabricStep _ _ _
      · exact (s.copyWrite_fabricStep _ _ _).trans (State.writeGranule_fabricStep _ _ _ _ _)
    · exact s.writeGranule_fabricStep _ _ _ _

/-! ### The instructions in flight -/

/-- The context and index of each instruction in flight, in order. -/
def State.flightKeys (s : State) : List (Nat × Nat) := s.cs.flight.map (fun f => (f.ctx, f.idx))

theorem State.flight?_eq_none_iff (s : State) (c i : Nat) : s.flight? c i = none ↔ (c, i) ∉ s.flightKeys := by
  simp [State.flight?, State.flightKeys, List.find?_eq_none]

theorem State.mem_flightKeys_of_flight? {s : State} {c i : Nat} {f : InFlight} (h : s.flight? c i = some f) : (c, i) ∈ s.flightKeys := by
  by_contra hn
  rw [(s.flight?_eq_none_iff c i).mpr hn] at h
  cases h

theorem State.flight?_key {s : State} {c i : Nat} {f : InFlight} (h : s.flight? c i = some f) : f.ctx = c ∧ f.idx = i := by
  simpa using List.find?_some h

/-- An entry changed in place keeps its place: the entry found is the one changed. -/
theorem State.flight?_setFlight (s : State) (c i : Nat) {g : InFlight → InFlight}
    (hg : ∀ f, f.ctx = c → f.idx = i → (g f).ctx = c ∧ (g f).idx = i) : (s.setFlight c i g).flight? c i = (s.flight? c i).map g := by
  have pick (l : List InFlight) : (modifyWhere (fun x => x.ctx == c && x.idx == i) g l).find? (fun f => f.ctx == c && f.idx == i) =
      (l.find? (fun f => f.ctx == c && f.idx == i)).map g := by
    induction l with
    | nil => rfl
    | cons f l ih =>
      unfold modifyWhere at ih ⊢
      by_cases hf : f.ctx = c ∧ f.idx = i
      · obtain ⟨h1, h2⟩ := hg f hf.1 hf.2
        simp [hf.1, hf.2, h1, h2]
      · have hb : (f.ctx == c && f.idx == i) = false := by simpa using hf
        simp only [List.map_cons, List.find?_cons, hb, Bool.false_eq_true, if_false]
        exact ih
  exact pick s.cs.flight

theorem State.memoryStep.flightKeys {s t : State} (h : s.memoryStep t) : t.flightKeys = s.flightKeys := by
  obtain ⟨_, _, _, rfl⟩ := h
  rfl

theorem State.fabricStep.flightKeys {s t : State} (h : s.fabricStep t) : t.flightKeys = s.flightKeys := by
  obtain ⟨_, _, _, _, _, _, rfl⟩ := h
  rfl

theorem State.fabricStep.faults {s t : State} (h : s.fabricStep t) : t.faults = s.faults := by
  obtain ⟨_, _, _, _, _, _, rfl⟩ := h
  rfl

/-- Marks set on some of the instructions leave their places. -/
theorem modifyWhere_flightKeys (p : InFlight → Bool) (g : InFlight → InFlight) (hg : ∀ f, ((g f).ctx, (g f).idx) = (f.ctx, f.idx))
    (l : List InFlight) : (modifyWhere p g l).map (fun f => (f.ctx, f.idx)) = l.map (fun f => (f.ctx, f.idx)) := by
  unfold modifyWhere
  rw [List.map_map]
  refine List.map_congr_left fun f _ => ?_
  simp only [Function.comp_apply]
  split
  · exact hg f
  · rfl

@[simp] theorem State.spoil_flightKeys (s : State) (a n : Nat) : (s.spoil a n).flightKeys = s.flightKeys :=
  modifyWhere_flightKeys _ (fun f => { f with spoiled := true }) (fun _ => rfl) s.cs.flight

@[simp] theorem State.writeBytes_flightKeys (s : State) (a : Nat) (bs : Bytes) : (s.writeBytes a bs).flightKeys = s.flightKeys := by
  rw [(s.writeBytes_memoryStep a bs).flightKeys, State.spoil_flightKeys]

@[simp] theorem State.writeBytes_faults (s : State) (a : Nat) (bs : Bytes) : (s.writeBytes a bs).faults = s.faults :=
  (s.writeBytes_memoryStep a bs).faults

@[simp] theorem State.writeGlobal_flightKeys (s : State) (ctx idx part : Nat) (w : Nat × Bytes) :
    (s.writeGlobal ctx idx part w).flightKeys = s.flightKeys := by
  rcases s.writeGlobal_cases ctx idx part w with h | h
  · rw [h, State.writeBytes_flightKeys]
  · exact h.flightKeys

@[simp] theorem State.writeGlobal_faults (s : State) (ctx idx part : Nat) (w : Nat × Bytes) :
    (s.writeGlobal ctx idx part w).faults = s.faults := by
  rcases s.writeGlobal_cases ctx idx part w with h | h
  · rw [h, State.writeBytes_faults]
  · exact h.faults

end Sys2Proof.Machine
end

section
/-! The state in which an instruction starts (10 R272), and WAIT, SIGNAL, FENCE and NOP (03 R76 to R78, R81, R82). -/

namespace Sys2Proof.Machine
open Sys2Proof

/-! ### The state in which an instruction starts -/

theorem State.slotSeen_memoryStep (s : State) (m : Macro) (x : Ctx) (idx : Nat) : s.memoryStep (s.slotSeen m x idx) :=
  s.readRuns_memoryStep _

theorem State.slotSeen_mem (s : State) (m : Macro) (x : Ctx) (idx : Nat) : ∃ l, (s.slotSeen m x idx).mem = s.mem.touch l :=
  ⟨_, s.readRuns_mem _⟩

@[simp] theorem State.slotSeen_cs (s : State) (m : Macro) (x : Ctx) (idx : Nat) : (s.slotSeen m x idx).cs = s.cs :=
  (s.slotSeen_memoryStep m x idx).cs

@[simp] theorem State.slotSeen_fabric (s : State) (m : Macro) (x : Ctx) (idx : Nat) : (s.slotSeen m x idx).fabric = s.fabric :=
  (s.slotSeen_memoryStep m x idx).fabric

@[simp] theorem State.slotSeen_chans (s : State) (m : Macro) (x : Ctx) (idx : Nat) : (s.slotSeen m x idx).mem.chans = s.mem.chans := by
  obtain ⟨l, hl⟩ := s.slotSeen_mem m x idx
  rw [hl]
  rfl

/-- Which global addresses a module serves is a matter of its node id alone. -/
theorem State.gHere_congr {s t : State} (h : s.fabric = t.fabric) (g : Nat) : s.gHere g = t.gHere g := by
  simp only [State.gHere, State.node, h]

@[simp] theorem State.slotSeen_gHere (s : State) (m : Macro) (x : Ctx) (idx g : Nat) : (s.slotSeen m x idx).gHere g = s.gHere g :=
  State.gHere_congr (s.slotSeen_fabric m x idx) g

theorem State.any_marked_of_noneMarked {s : State} (h : s.noneMarked) : s.mem.chans.any (fun c => c.marked) = false := by
  rw [List.any_eq_false]
  intro ch hch
  simp [h ch hch]

/-- Only a channel marked for fencing fails an access for want of service. -/
theorem State.unserved_of_any_marked {s : State} (h : s.mem.chans.any (fun c => c.marked) = false) (l : List (Nat × Nat)) :
    s.unserved l = false := by
  simp only [State.unserved, h, Bool.false_and]

theorem State.unserved_of_noneMarked {s : State} (h : s.noneMarked) (l : List (Nat × Nat)) : s.unserved l = false :=
  State.unserved_of_any_marked (State.any_marked_of_noneMarked h) l

theorem State.slotSeen_noneMarked {s : State} (h : s.noneMarked) (m : Macro) (x : Ctx) (idx : Nat) : (s.slotSeen m x idx).noneMarked := by
  unfold State.noneMarked
  rw [State.slotSeen_chans]
  exact h

/-! ### WAIT -/

/-- A WAIT whose semaphore can be read ends at once where its condition is met. -/
theorem startWait_met {s : State} {e : Env} (f : InFlight) (hb : s.mem.poisonIn (gAddr (e.W 1)) 8 = []) (hn : s.noneMarked)
    (hc : condMet (e.W 3) (s.semRead (e.W 1)) (e.W 2) = true) : startWait s e f = s.addFlight (f.end_ 0) := by
  simp [startWait, hb, State.unserved_of_noneMarked hn, hc]

/-- A WAIT whose condition is not met waits. -/
theorem startWait_unmet {s : State} {e : Env} (f : InFlight) (hb : s.mem.poisonIn (gAddr (e.W 1)) 8 = []) (hn : s.noneMarked)
    (hc : condMet (e.W 3) (s.semRead (e.W 1)) (e.W 2) = false) : startWait s e f = s.addFlight { f with phase := .waiting } := by
  simp [startWait, hb, State.unserved_of_noneMarked hn, hc]

/-- A waiting WAIT whose semaphore can be read ends with success where its condition is met, and waits on otherwise. -/
theorem State.waitRead_eq {s : State} {f : InFlight} (hn : s.noneMarked) (hb : s.mem.poisonIn (gAddr (leAt f.slot 32 8)) 8 = []) :
    s.waitRead f =
      if condMet (leAt f.slot 48 8) (s.semRead (leAt f.slot 32 8)) (leAt f.slot 40 8) = true then some 0 else none := by
  simp [State.waitRead, hb, State.unserved_of_noneMarked hn]

/-- Where its semaphore could be read and no channel is marked, a WAIT's end draws and counts nothing. -/
theorem State.endWait_eq {s : State} {f : InFlight} (hn : s.noneMarked) (hb : s.mem.poisonIn (gAddr (leAt f.slot 32 8)) 8 = [])
    (code : Nat) : s.endWait f code = (s.setFlight f.ctx f.idx (fun f => f.end_ code)).complete f.ctx f.idx := by
  simp [State.endWait, hb, State.any_marked_of_noneMarked hn]

theorem execWaitSatisfied_met {s : State} {c idx : Nat} {f : InFlight} (hf : s.waiting? c idx = some f) (hr : s.waitRead f = some 0) :
    execWaitSatisfied c idx s = .next (s.endWait f 0) := by
  simp only [execWaitSatisfied, hf, hr]

theorem execWaitTimeout_unmet {s : State} {c idx : Nat} {f : InFlight} (hf : s.waiting? c idx = some f) (hr : s.waitRead f = none)
    (ht : bits (leAt f.slot 48 8) 32 24 ≠ 0) :
    execWaitTimeout c idx s = .next (((s.bump 0x3150 5 1).setFlight c idx (fun f => f.end_ 0x0401)).complete c idx) := by
  have ht' : (bits (leAt f.slot 48 8) 32 24 == 0) = false := by simpa using ht
  simp only [execWaitTimeout, hf, hr, ht', Bool.false_eq_true, if_false]

/-! ### SIGNAL and FENCE -/

/-- A queue with no failed write takes none. -/
theorem State.takeFailed_of_none {s : State} {c : Nat} (h : s.cs.failedWrites.find? (fun w => w.1 == c) = none) :
    s.takeFailed c = (0, s) := by
  have keep : s.cs.failedWrites.filter (fun w => w.1 != c) = s.cs.failedWrites := by
    rw [List.filter_eq_self]
    intro w hw
    simpa [bne] using List.find?_eq_none.mp h w hw
  simp only [State.takeFailed, h, keep, Option.map_none, Option.getD_none]

/-- A SIGNAL of a queue with no failed write, on a local semaphore that can be read, applies its operation and ends. -/
theorem startSignal_here {s : State} {e : Env} {f : InFlight} (hw : s.cs.failedWrites.find? (fun w => w.1 == f.ctx) = none)
    (hg : s.gHere (e.W 1) = true) (hb : s.mem.poisonIn (gAddr (e.W 1)) 8 = []) (hn : s.noneMarked) :
    startSignal s e f = (s.semApply (gAddr (e.W 1)) (e.W 3) (e.W 2)).addFlight (f.end_ 0) := by
  simp [startSignal, State.takeFailed_of_none hw, hg, hb, State.unserved_of_noneMarked hn]

/-- A FENCE of a queue with no failed write ends, whatever its Scope. -/
theorem startFence_of_none {s : State} {f : InFlight} (e : Env) (hw : s.cs.failedWrites.find? (fun w => w.1 == f.ctx) = none) :
    startFence s e f = s.addFlight (f.end_ 0) := by
  unfold startFence
  rw [State.takeFailed_of_none hw]
  split <;> rfl

/-- A row with a start of its own does that start, once it is accepted. -/
theorem State.startMacro_own {s : State} {m : Macro} {c idx : Nat} {x : Ctx} {go : State → Env → InFlight → State}
    (hx : s.ctx? c = some x) (hc : x.number = c) (ha : s.accepts m x idx = true) (hl : opcodeListed m.opcode = true)
    (hs : m.start = some go) :
    s.startMacro m c idx = go (s.slotSeen m x idx) (s.slotEnv x idx) (s.slotFlight m x idx) := by
  rw [State.startMacro_accepts s m c idx x hx hc ha hl, hs]

/-- Settles O11: each of the four rows by its own start, and a waiting WAIT by what is read of its semaphore. -/
theorem synchronisationRowsAct : Obligations.SynchronisationRowsAct := by
  unfold Obligations.SynchronisationRowsAct
  refine ⟨?_, ?_, ?_, ?_⟩
  · intro s c idx x hx hc ha hn e r hb
    have hr : r.noneMarked := State.slotSeen_noneMarked hn mWait x idx
    have start : exec (.wait c idx) s = .next (startWait r e (s.slotFlight mWait x idx)) :=
      congrArg Host.Outcome.next (State.startMacro_own hx hc ha rfl rfl)
    exact ⟨fun hmet => by rw [start, startWait_met _ hb hr hmet], fun hmet => by rw [start, startWait_unmet _ hb hr hmet]⟩
  · intro s c idx f hf hfc hfi hn g met hb
    have hread := State.waitRead_eq (f := f) hn hb
    refine ⟨fun hmet => ?_, fun hmet ht => ?_⟩
    · have done : s.waitRead f = some 0 := by rw [hread]; exact if_pos hmet
      refine (execWaitSatisfied_met hf done).trans ?_
      rw [State.endWait_eq hn hb, hfc, hfi]
    · have open_ : s.waitRead f = none := by rw [hread]; exact if_neg (by simpa [met] using hmet)
      exact execWaitTimeout_unmet hf open_ ht
  · intro s c idx x hx hc ha hn e r a hw hg hb
    have hr : r.noneMarked := State.slotSeen_noneMarked hn mSignal x idx
    have hw' : r.cs.failedWrites.find? (fun w => w.1 == (s.slotFlight mSignal x idx).ctx) = none := by
      have hctx : (s.slotFlight mSignal x idx).ctx = c := hc
      rw [hctx, State.slotSeen_cs]
      exact hw
    have hg' : r.gHere (e.W 1) = true := by rw [State.slotSeen_gHere]; exact hg
    rw [← State.semApply_eq]
    refine Eq.trans ?_ (congrArg Host.Outcome.next (startSignal_here hw' hg' hb hr))
    exact congrArg Host.Outcome.next (State.startMacro_own hx hc ha rfl rfl)
  · intro s c idx x hx hc
    refine ⟨fun ha => congrArg Host.Outcome.next (State.startMacro_own hx hc ha rfl rfl), fun ha hw => ?_⟩
    have hw' : (s.slotSeen mFence x idx).cs.failedWrites.find? (fun w => w.1 == (s.slotFlight mFence x idx).ctx) = none := by
      have hctx : (s.slotFlight mFence x idx).ctx = c := hc
      rw [hctx, State.slotSeen_cs, List.find?_eq_none]
      intro w hmem
      simpa using hw w hmem
    refine Eq.trans ?_ (congrArg Host.Outcome.next (startFence_of_none (s.slotEnv x idx) hw'))
    exact congrArg Host.Outcome.next (State.startMacro_own hx hc ha rfl rfl)

end Sys2Proof.Machine
end

section
/-! INSTRUCTION_COMPLETE (03 R79, R88 to R90): what a completion writes, what it takes away, and what follows in its queue. -/

namespace Sys2Proof.Machine
open Sys2Proof

/-! ### The error log -/

/-- Nothing but the counters, the store, the fault records and the free values drawn has changed. -/
def State.logStep (s t : State) : Prop := ∃ epoch tele store faults,
  t = { s with epoch := epoch, tele := tele, store := store, faults := faults }

theorem State.logStep.refl (s : State) : s.logStep s := ⟨_, _, _, _, rfl⟩

theorem State.logStep.trans {s t u : State} (h : s.logStep t) (h' : t.logStep u) : s.logStep u := by
  obtain ⟨_, _, _, _, rfl⟩ := h
  obtain ⟨_, _, _, _, rfl⟩ := h'
  exact ⟨_, _, _, _, rfl⟩

theorem State.logStep.mem {s t : State} (h : s.logStep t) : t.mem = s.mem := by
  obtain ⟨_, _, _, _, rfl⟩ := h
  rfl

theorem State.logStep.flightKeys {s t : State} (h : s.logStep t) : t.flightKeys = s.flightKeys := by
  obtain ⟨_, _, _, _, rfl⟩ := h
  rfl

theorem State.wearLevel_logStep (s : State) : s.logStep s.wearLevel := by
  unfold State.wearLevel
  dsimp only
  split
  · split <;> exact ⟨_, _, _, _, rfl⟩
  · exact .refl s

theorem State.commitWith_logStep (s : State) (extra : List Rec) : s.logStep (s.commitWith extra) := by
  unfold State.commitWith
  dsimp only
  split
  · exact .refl s
  · split <;> exact State.logStep.trans ⟨_, _, _, _, rfl⟩ (State.wearLevel_logStep _)

theorem State.commitIf_logStep (s : State) (b : Bool) : s.logStep (if b then s.commitWith [] else s) := by
  split
  · exact s.commitWith_logStep []
  · exact .refl s

theorem State.journal_logStep (s : State) (must : Bool) (r : Rec) : s.logStep (s.journal must r) := by
  unfold State.journal
  by_cases hc : s.store.condition = 2
  · rw [if_pos (by simpa using hc)]
    exact .refl s
  · rw [if_neg (by simpa using hc)]
    refine State.logStep.trans ?_ (State.commitIf_logStep _ _)
    exact (s.commitIf_logStep _).trans ⟨_, _, _, _, rfl⟩

theorem State.log_logStep (s : State) (unit status severity part detail : Nat) : s.logStep (s.log unit status severity part detail) := by
  unfold State.log
  dsimp only
  split
  · exact ⟨_, _, _, _, rfl⟩
  · split
    · exact ⟨_, _, _, _, rfl⟩
    · exact State.logStep.trans ⟨_, _, _, _, rfl⟩ (State.journal_logStep _ _ _)

/-! ### What a completion leaves of the stream -/

/-- Retired moves on by changing the queue, and what is done and stalled. -/
theorem State.retire_eq (s : State) (c fuel : Nat) : ∃ office done stalled,
    s.retire c fuel = { s with office := office, cs := { s.cs with done := done, stalled := stalled } } := by
  induction fuel generalizing s with
  | zero => exact ⟨_, _, _, rfl⟩
  | succ fuel ih =>
    unfold State.retire
    split
    · exact ⟨_, _, _, rfl⟩
    · dsimp only
      split
      · obtain ⟨_, _, _, h⟩ := ih (State.setQueue _ c _)
        rw [h]
        exact ⟨_, _, _, rfl⟩
      · exact ⟨_, _, _, rfl⟩

@[simp] theorem State.retire_mem (s : State) (c fuel : Nat) : (s.retire c fuel).mem = s.mem := by
  obtain ⟨_, _, _, h⟩ := s.retire_eq c fuel
  rw [h]

@[simp] theorem State.retire_flightKeys (s : State) (c fuel : Nat) : (s.retire c fuel).flightKeys = s.flightKeys := by
  obtain ⟨_, _, _, h⟩ := s.retire_eq c fuel
  rw [h]
  rfl

theorem State.countWork_memoryStep (s : State) (f : InFlight) : s.memoryStep (s.countWork f) := by
  unfold State.countWork
  split
  · exact s.bumps_memoryStep _
  · split
    · exact .refl s
    · exact (s.bumps_memoryStep _).trans (State.drew_memoryStep _)

@[simp] theorem State.countWork_mem (s : State) (f : InFlight) : (s.countWork f).mem = s.mem := by
  unfold State.countWork
  split
  · exact s.bumps_mem _
  · split
    · rfl
    · rw [State.drew_keeps_mem, State.bumps_mem]

@[simp] theorem State.unspoil_flightKeys (s t : State) (f : InFlight) : (s.unspoil t f).flightKeys = t.flightKeys := by
  unfold State.unspoil
  split
  · rfl
  · refine (List.map_map ..).trans (List.map_congr_left fun g _ => ?_)
    simp only [Function.comp_apply]
    split <;> rfl

@[simp] theorem State.unspoil_faults (s t : State) (f : InFlight) : (s.unspoil t f).faults = t.faults := by
  unfold State.unspoil
  split <;> rfl

@[simp] theorem State.putResult_flightKeys (s : State) (f : InFlight) (w : Nat × Bytes) : (s.putResult f w).flightKeys = s.flightKeys := by
  unfold State.putResult
  dsimp only
  split
  · rw [State.unspoil_flightKeys, State.writeGlobal_flightKeys]
  · exact s.writeGlobal_flightKeys _ _ _ _

@[simp] theorem State.putResult_faults (s : State) (f : InFlight) (w : Nat × Bytes) : (s.putResult f w).faults = s.faults := by
  unfold State.putResult
  dsimp only
  split
  · rw [State.unspoil_faults, State.writeGlobal_faults]
  · exact s.writeGlobal_faults _ _ _ _

/-- An instruction that has left the stream is in flight no more. -/
theorem State.leaveStream_not_mem (s : State) (f : InFlight) : (f.ctx, f.idx) ∉ (s.leaveStream f).flightKeys := by
  simp only [State.flightKeys, State.leaveStream, List.mem_map, List.mem_filter, not_exists, not_and, Prod.mk.injEq]
  intro g hg hctx
  simpa [hctx] using hg.2

/-! ### What a completion does -/

/-- The state of a completing instruction whose results stand in memory (log entry 4). -/
def State.resultsPut (s : State) (f : InFlight) : State :=
  ((s.leaveStream f).results f).foldl (fun s w => s.putResult f w) (s.leaveStream f)

/-- The state of a completing instruction whose results and counters are up to date. -/
def State.workCounted (s : State) (f : InFlight) : State := ((s.resultsPut f).countWork f).bump 0x3190 6 f.compat

/-- A record is owed: one was asked for, or the status is not plain success (03 R88). -/
def InFlight.owesRecord (f : InFlight) : Bool := bit f.flags 0 || f.status != 0

/-- The state of a completing instruction whose record is written where one is owed. -/
def State.recordPut (s : State) (x : Ctx) (f : InFlight) : State :=
  if f.owesRecord then (s.workCounted f).writeBytes (x.queue.compBase + 16 * (f.idx % 2 ^ x.queue.ringLog2)) (s.recordOf f)
  else s.workCounted f

theorem State.resultsPut_flightKeys (s : State) (f : InFlight) : (s.resultsPut f).flightKeys = (s.leaveStream f).flightKeys :=
  foldl_related (R := fun s t : State => t.flightKeys = s.flightKeys) (fun _ => rfl) (fun h h' => h'.trans h)
    (fun s w => s.putResult_flightKeys f w) _ _

theorem State.resultsPut_faults (s : State) (f : InFlight) : (s.resultsPut f).faults = s.faults :=
  foldl_related (R := fun s t : State => t.faults = s.faults) (fun _ => rfl) (fun h h' => h'.trans h)
    (fun s w => s.putResult_faults f w) _ (s.leaveStream f)

/-- An instruction with no result leaves the stream and writes nothing. -/
theorem State.resultsPut_of_nil {s : State} {f : InFlight} (h : f.endWrites = []) : s.resultsPut f = s.leaveStream f := by
  have none : (s.leaveStream f).results f = [] := by
    unfold State.results
    rw [h]
    split <;> rfl
  rw [State.resultsPut, none]
  rfl

theorem State.workCounted_memoryStep (s : State) (f : InFlight) : (s.resultsPut f).memoryStep (s.workCounted f) :=
  (State.countWork_memoryStep _ f).trans (State.bump_memoryStep _ _ _ _)

theorem State.workCounted_mem (s : State) (f : InFlight) : (s.workCounted f).mem = (s.resultsPut f).mem := by
  rw [State.workCounted, State.bump_keeps_mem, State.countWork_mem]

/-- The record shows the postmark that the partition has before the completion, which is the one that it has after. -/
theorem State.recordOf_workCounted (s : State) (f : InFlight) : (s.workCounted f).recordOf f = s.recordOf f := by
  simp only [State.recordOf, State.postmark, (s.workCounted_memoryStep f).faults, s.resultsPut_faults f]

/-- A completion: results, counters and record; then Retired, the job's status, and a failure's entry in the log. -/
theorem State.settle_eq (s : State) (x : Ctx) (f : InFlight) : s.settle x f =
    let t := (((s.recordPut x f).bump 0x3150 (completionCounter f) 1).retire f.ctx 16).setJob f.ctx
      (fun j => { j with status := joinStatus j.status f.status })
    if isSuccess f.status then t else t.log (t.partUnit f.partition) f.status 1 f.partition (f.ctx + 2 ^ 32 * f.idx) := by
  unfold State.recordPut
  rw [← s.recordOf_workCounted f]
  rfl

/-- After its record a completion neither changes memory nor puts an instruction in flight. -/
theorem State.settle_mem (s : State) (x : Ctx) (f : InFlight) : (s.settle x f).mem = (s.recordPut x f).mem := by
  rw [State.settle_eq]
  dsimp only
  split
  · simp only [State.setJob_keeps_mem, State.retire_mem, State.bump_keeps_mem]
  · rw [(State.log_logStep _ _ _ _ _ _).mem]
    simp only [State.setJob_keeps_mem, State.retire_mem, State.bump_keeps_mem]

theorem State.settle_flightKeys (s : State) (x : Ctx) (f : InFlight) : (s.settle x f).flightKeys = (s.leaveStream f).flightKeys := by
  have record : (s.recordPut x f).flightKeys = (s.leaveStream f).flightKeys := by
    have counted : (s.workCounted f).flightKeys = (s.leaveStream f).flightKeys := by
      rw [(s.workCounted_memoryStep f).flightKeys, s.resultsPut_flightKeys]
    unfold State.recordPut
    split
    · rw [State.writeBytes_flightKeys, counted]
    · exact counted
  have retired (t : State) (g : Job → Job) : (((t.bump 0x3150 (completionCounter f) 1).retire f.ctx 16).setJob f.ctx g).flightKeys =
      t.flightKeys := State.retire_flightKeys _ f.ctx 16
  rw [State.settle_eq]
  dsimp only
  split
  · rw [retired, record]
  · rw [(State.log_logStep _ _ _ _ _ _).flightKeys, retired, record]

/-- A completed instruction is in flight no more. -/
theorem State.settle_flight? (s : State) (x : Ctx) (f : InFlight) : (s.settle x f).flight? f.ctx f.idx = none := by
  rw [State.flight?_eq_none_iff, State.settle_flightKeys]
  exact s.leaveStream_not_mem f

/-- Memory after a completion that owes a record: the results, then the record at its place. -/
theorem State.settle_mem_of_record {s : State} {x : Ctx} {f : InFlight} (h : f.owesRecord = true) :
    (s.settle x f).mem =
      ((s.resultsPut f).writeBytes (x.queue.compBase + 16 * (f.idx % 2 ^ x.queue.ringLog2)) (s.recordOf f)).mem := by
  rw [State.settle_mem, State.recordPut, if_pos h]
  refine State.writeBytes_mem_congr (s.workCounted_mem f) ?_ _ _
  rw [(s.workCounted_memoryStep f).office]

/-- Memory after a completion that owes no record: the results alone. -/
theorem State.settle_mem_of_no_record {s : State} {x : Ctx} {f : InFlight} (h : f.owesRecord = false) :
    (s.settle x f).mem = (s.resultsPut f).mem := by
  rw [State.settle_mem, State.recordPut, h, if_neg (by decide), State.workCounted_mem]

/-- A ready instruction with no task left completes. -/
theorem State.complete_of_ready {s : State} {c idx : Nat} {x : Ctx} {f : InFlight} (hx : s.ctx? c = some x)
    (hf : s.flight? c idx = some f) (hr : f.ready = true) (ht : s.tasksLeft f = false) (he : x.state ≠ .ending)
    (hs : s.office.stopped.contains x.partition = false) : s.complete c idx = s.completeNow x f := by
  have he' : (x.state != .ending) = true := by simpa using he
  simp only [State.complete, hx, hf, hr, ht, he', hs, Bool.not_false, Bool.and_self, if_true]

/-! ### What the record of a blurred instruction shows (04 R114, R115) -/

theorem State.blurred_of_clean {s : State} {f : InFlight} (h : f.spoiled = false) : s.blurred f = f := by
  simp [State.blurred, h]

/-- Only the rung and the detail of a spoiled instruction are undefined. -/
theorem State.blurred_eq (s : State) (f : InFlight) : s.blurred f =
    { f with rung := (s.blurred f).rung, detail := (s.blurred f).detail } := by
  unfold State.blurred
  split <;> rfl

theorem State.blurred_rung {s : State} {f : InFlight} (h : ladderOpcode f.opcode = false) : (s.blurred f).rung = f.rung := by
  unfold State.blurred
  split
  · simp [h]
  · rfl

theorem State.blurred_detail {s : State} {f : InFlight} (h : f.status ≠ 0x0010) : (s.blurred f).detail = f.detail := by
  unfold State.blurred
  split
  · simp [h]
  · rfl

/-- Settles O12: a completion by its parts, over the entry that the record shows. -/
theorem completionWritesRecord : Obligations.CompletionWritesRecord := by
  unfold Obligations.CompletionWritesRecord
  intro s c idx x f hx hf hr ht he hs g u
  obtain ⟨rfl, rfl⟩ := State.flight?_key hf
  have hg : g = { f with rung := g.rung, detail := g.detail } := s.blurred_eq f
  have hstatus : g.status = f.status := by rw [hg]
  have hflags : g.flags = f.flags := by rw [hg]
  have hctx : g.ctx = f.ctx := by rw [hg]
  have hidx : g.idx = f.idx := by rw [hg]
  have hends : g.endWrites = f.endWrites := by rw [hg]
  have howes : g.owesRecord = f.owesRecord := by rw [hg]; rfl
  have hrecord : s.recordOf g = leBytes 2 f.status ++ leBytes 2 f.tag ++ leBytes 4 f.idx ++ leBytes 1 f.opcode ++ leBytes 1 g.rung ++
      leBytes 2 (s.postmark f.partition % 1024) ++ leBytes 4 g.detail := by rw [hg]; rfl
  refine ⟨?_, ?_, fun h => State.blurred_of_clean h, ⟨hstatus, ?_, ?_, hflags, hends, fun h => State.blurred_rung h,
    fun h => State.blurred_detail h⟩, fun hnil howed => ?_, fun hnil hflag hok => ?_⟩
  · refine (congrArg Host.Outcome.next (State.complete_of_ready hx hf hr ht he hs)).trans ?_
    show Host.Outcome.next (((if isSuccess g.status || bit g.flags 3 then u else u.haltQueue g.ctx (s.recordOf g)).serveTasks).finishJob
      g.ctx) = _
    rw [hstatus, hflags, hctx]
    simp only [Bool.or_eq_true]
  · rw [← hctx, ← hidx]
    exact s.settle_flight? x g
  · rw [hg]
  · rw [hg]
  · have owed : g.owesRecord = true := by
      rw [howes]
      simpa [InFlight.owesRecord] using howed
    have left : (s.leaveStream g).mem = s.mem := rfl
    calc u.mem = ((s.resultsPut g).writeBytes (x.queue.compBase + 16 * (g.idx % 2 ^ x.queue.ringLog2)) (s.recordOf g)).mem :=
          State.settle_mem_of_record owed
      _ = ((s.leaveStream g).writeBytes (x.queue.compBase + 16 * (g.idx % 2 ^ x.queue.ringLog2)) (s.recordOf g)).mem := by
          rw [State.resultsPut_of_nil (hends.trans hnil)]
      _ = (s.writeBytes (x.queue.compBase + 16 * (g.idx % 2 ^ x.queue.ringLog2)) (s.recordOf g)).mem :=
          State.writeBytes_mem_congr left rfl _ _
      _ = _ := by rw [hidx, hrecord]
  · have free : g.owesRecord = false := by
      rw [howes]
      simp [InFlight.owesRecord, hflag, hok]
    rw [State.settle_mem_of_no_record free, State.resultsPut_of_nil (hends.trans hnil)]
    rfl

end Sys2Proof.Machine
end

section
/-! Jobs of the intake engine (14 R353 to R355, R359): how they start, and how they end. -/

namespace Sys2Proof.Machine
open Sys2Proof

theorem State.unservedRuns_of_any_marked {s : State} (h : s.mem.chans.any (fun c => c.marked) = false) (l : List (Nat × Nat)) :
    s.unservedRuns l = false :=
  State.unserved_of_any_marked h _

/-- What an INTK lists: its job block, the dictionary of its slot, and none of its slots taken. -/
def State.intakeQueued (s : State) (e : Env) (f : InFlight) : State :=
  let t := (s.readRuns (e.intkStartReads e.intkBlock)).addFlight f
  { t with intake := { t.intake with jobs := t.intake.jobs ++
      [⟨f.ctx, f.idx, e.intkBlock, t.dictSlot (intkSlot e.intkBlock), e.intkSamples e.intkBlock, 0, [], [], []⟩] } }

/-- An INTK whose results stand on this module starts as a job, or ends at once where its batch of text is empty. -/
theorem startIntk_here {s : State} {e : Env} (f : InFlight) (hg : (opIntk.outs e).all (fun r => s.gHere (r.1 % 2 ^ 64)) = true)
    (hn : s.noneMarked) :
    startIntk s e f =
      if intkKind e.intkBlock = 0 ∧ intkBatch e.intkBlock = 0 then s.addFlight (f.end_ 0) else s.intakeQueued e f := by
  have near : (opIntk.outs e).any (fun r => !s.gHere (r.1 % 2 ^ 64)) = false := by
    rw [List.any_eq_false]
    intro r hr
    simpa using List.all_eq_true.mp hg r hr
  simp only [startIntk, near, Bool.and_false, Bool.false_eq_true, if_false, bne_self_eq_false, Bool.and_eq_true, beq_iff_eq,
    State.unservedRuns_of_any_marked (State.any_marked_of_noneMarked hn)]
  rfl

/-- A row of INTK, once accepted, does its start. -/
theorem State.startMacro_intk {s : State} {m : Macro} {c idx : Nat} {x : Ctx} (hx : s.ctx? c = some x) (hc : x.number = c)
    (ha : s.accepts m x idx = true) (hs : m.start = some startIntk) (hl : opcodeListed m.opcode = true) (hn : s.noneMarked)
    (hg : (opIntk.outs (s.slotEnv x idx)).all (fun r => s.gHere (r.1 % 2 ^ 64)) = true) :
    s.startMacro m c idx =
      if intkKind (s.slotEnv x idx).intkBlock = 0 ∧ intkBatch (s.slotEnv x idx).intkBlock = 0 then
        (s.slotSeen m x idx).addFlight ((s.slotFlight m x idx).end_ 0)
      else (s.slotSeen m x idx).intakeQueued (s.slotEnv x idx) (s.slotFlight m x idx) := by
  rw [State.startMacro_own hx hc ha hl hs]
  refine startIntk_here _ ?_ (State.slotSeen_noneMarked hn m x idx)
  simpa only [State.slotSeen_gHere] using hg

/-- The row of an accepted instruction is its own. -/
theorem State.accepts_mine {s : State} {m : Macro} {x : Ctx} {idx : Nat} (h : s.accepts m x idx = true) :
    m.mine (s.slotEnv x idx) = true := by
  simp only [State.accepts, Bool.and_eq_true] at h
  obtain ⟨⟨⟨⟨⟨⟨⟨_, hmine⟩, _⟩, _⟩, _⟩, _⟩, _⟩, _⟩ := h
  exact hmine

/-- An accepted INTK that is not an empty batch of text is listed as a job. -/
theorem State.startMacro_intk_listed {s : State} {m : Macro} {c idx : Nat} {x : Ctx} (hx : s.ctx? c = some x) (hc : x.number = c)
    (ha : s.accepts m x idx = true) (hs : m.start = some startIntk) (hl : opcodeListed m.opcode = true) (hn : s.noneMarked)
    (hg : (opIntk.outs (s.slotEnv x idx)).all (fun r => s.gHere (r.1 % 2 ^ 64)) = true)
    (hk : ¬(intkKind (s.slotEnv x idx).intkBlock = 0 ∧ intkBatch (s.slotEnv x idx).intkBlock = 0)) :
    s.startMacro m c idx = s.intakeListed m x idx := by
  rw [State.startMacro_intk hx hc ha hs hl hn hg, if_neg hk]
  rfl

/-- The mask and the status that a job writes leave the instructions in flight where they are. -/
theorem State.foldl_writeGlobal_flightKeys (c idx part : Nat) (l : List (Nat × Bytes)) (s : State) :
    (l.foldl (fun s w => s.writeGlobal c idx part w) s).flightKeys = s.flightKeys :=
  foldl_related (R := fun s t : State => t.flightKeys = s.flightKeys) (fun _ => rfl) (fun h h' => h'.trans h)
    (fun s w => s.writeGlobal_flightKeys c idx part w) l s

/-- A job whose slots are all finished writes its mask and status, leaves the engine, and ends its instruction. -/
theorem State.intkEnd_of_finished {s : State} {c idx : Nat} {j : IntakeJob} {e : Env} {f : InFlight} (hj : s.intkJob c idx = some j)
    (he : s.intkEnv c idx = some (e, f)) (hb : intkBatch j.block ≤ j.results.length) :
    s.intkEnd c idx =
      ((((e.endWrites j.block j.results).foldl (fun s w => s.writeGlobal c idx f.partition w) s).dropIntk c idx).setFlight c idx
        (fun f => f.end_ (if j.results.any (fun r => r.2 != 0) then 0x00C0 else 0))) := by
  simp only [State.intkEnd, hj, he, hb, if_true]

@[simp] theorem State.dropIntk_intkJob (s : State) (c idx : Nat) : (s.dropIntk c idx).intkJob c idx = none := by
  simp only [State.intkJob, State.dropIntk, List.find?_eq_none, List.mem_filter]
  intro j hj
  simpa [Decidable.imp_iff_not_or] using hj.2

/-- The instruction of a job that has an environment is in flight. -/
theorem State.flight?_of_intkEnv {s : State} {c idx : Nat} {e : Env} {f : InFlight} (h : s.intkEnv c idx = some (e, f)) :
    s.flight? c idx = some f := by
  unfold State.intkEnv at h
  split at h
  next x g hx hg =>
    rw [hg]
    exact congrArg some (Prod.mk.inj (Option.some.inj h)).2
  · cases h

/-- Settles O15: the rows by their common start, and the end of a job by its last write, its removal and its status. -/
theorem intakeJobsStart : Obligations.IntakeJobsStart := by
  unfold Obligations.IntakeJobsStart
  refine ⟨?_, ?_⟩
  · intro s c idx x hx hc hn e b hg
    refine ⟨fun ha hk => ?_, fun ha hk hb => ?_, fun ha => ?_, fun ha => ?_⟩
    · exact congrArg Host.Outcome.next (State.startMacro_intk_listed hx hc ha rfl rfl hn hg (not_and_or.mpr hk))
    · refine congrArg Host.Outcome.next ((State.startMacro_intk hx hc ha rfl rfl hn hg).trans ?_)
      exact if_pos ⟨hk, hb⟩
    · have hk : intkKind b = 1 := by simpa [mIntkImage] using State.accepts_mine ha
      exact congrArg Host.Outcome.next (State.startMacro_intk_listed hx hc ha rfl rfl hn hg fun h => absurd (hk.symm.trans h.1) (by decide))
    · have hk : intkKind b = 2 := by simpa [mIntkInstall] using State.accepts_mine ha
      exact congrArg Host.Outcome.next (State.startMacro_intk_listed hx hc ha rfl rfl hn hg fun h => absurd (hk.symm.trans h.1) (by decide))
  · intro s c idx j e f hj he _ _ hb t
    have ht := State.intkEnd_of_finished hj he hb
    refine ⟨?_, ?_, ?_⟩
    · show (s.intkEnd c idx).intkJob c idx = none
      rw [ht]
      exact State.dropIntk_intkJob _ c idx
    · show (s.intkEnd c idx).mem = _
      rw [ht, State.setFlight_keeps_mem, State.dropIntk_keeps_mem]
    · have there : (c, idx) ∈ ((e.endWrites j.block j.results).foldl (fun s w => s.writeGlobal c idx f.partition w) s).flightKeys := by
        rw [State.foldl_writeGlobal_flightKeys]
        exact State.mem_flightKeys_of_flight? (State.flight?_of_intkEnv he)
      show ((s.intkEnd c idx).flight? c idx).map _ = _
      rw [ht, State.flight?_setFlight _ c idx (g := fun f => f.end_ _) fun _ hc hi => ⟨hc, hi⟩]
      obtain ⟨g, hg⟩ : ∃ g, (((e.endWrites j.block j.results).foldl (fun s w => s.writeGlobal c idx f.partition w) s).dropIntk c
          idx).flight? c idx = some g := by
        rw [← Option.ne_none_iff_exists']
        exact fun hnone => (State.flight?_eq_none_iff _ c idx).mp hnone there
      rw [hg]
      cases j.results.any (fun r => r.2 != 0) <;> rfl

end Sys2Proof.Machine
end

section
/-! The instructions that run on operands (03 R68, R79, R84, R86, R90): how one starts whose operands are here. -/

namespace Sys2Proof.Machine
open Sys2Proof

/-! ### The rows -/

/-- The rows that run on operands have no start of their own, are listed in R68, and end as their tasks do. -/
theorem runMacros_launch : ∀ m ∈ runMacros, m.start = none ∧ opcodeListed m.opcode = true ∧ ownEnd m.opcode = false := by
  simp only [runMacros, List.forall_mem_cons]
  repeat' constructor
  simp

/-- Only ATTF and LATX read history. -/
theorem Env.history_of_opcode {e : Env} (h5 : e.opcode ≠ 0x05) (h7 : e.opcode ≠ 0x07) : e.history = none := by
  simp [Env.history, h5, h7]

theorem Env.history_latx_empty {e : Env} (h : e.opcode = 0x07) (hi : (e.desc (e.S 4)).empty = true) : e.history = none := by
  simp [Env.history, h, hi]

theorem Env.history_attf_empty {e : Env} (h : e.opcode = 0x05) (hi : e.attfEmpty = true) : e.history = none := by
  simp [Env.history, h, hi]

/-- A zero length reads no history. -/
theorem runMacros_idle_history : ∀ m ∈ runMacros, ∀ e : Env, e.opcode = m.opcode → m.op.idle e = true → e.history = none := by
  have other (m : Macro) (h5 : m.opcode ≠ 0x05) (h7 : m.opcode ≠ 0x07) (e : Env) (ho : e.opcode = m.opcode)
      (_ : m.op.idle e = true) : e.history = none := Env.history_of_opcode (ho ▸ h5) (ho ▸ h7)
  simp only [runMacros, List.forall_mem_cons]
  exact ⟨other mMma (by decide) (by decide), other mMmas (by decide) (by decide), other mConv (by decide) (by decide),
    other mPool (by decide) (by decide), fun _ => Env.history_attf_empty, other mAttb (by decide) (by decide),
    fun _ => Env.history_latx_empty, other mKvap (by decide) (by decide), other mSfn (by decide) (by decide),
    other mNorm (by decide) (by decide), other mSmax (by decide) (by decide), other mSamp (by decide) (by decide),
    other mRand (by decide) (by decide), other mQnt (by decide) (by decide), other mRoute (by decide) (by decide),
    other mGath (by decide) (by decide), other mScat (by decide) (by decide), other mCopy (by decide) (by decide),
    other mStill (by decide) (by decide), other mArgmx (by decide) (by decide), by simp⟩

/-! ### What accepts and allHere say -/

theorem State.accepts_opcode {s : State} {m : Macro} {x : Ctx} {idx : Nat} (h : s.accepts m x idx = true) :
    (s.slotEnv x idx).opcode = m.opcode := by
  simp only [State.accepts, Bool.and_eq_true, beq_iff_eq] at h
  obtain ⟨⟨⟨⟨⟨⟨⟨⟨_, hop⟩, _⟩, _⟩, _⟩, _⟩, _⟩, _⟩, _⟩ := h
  exact hop

/-- A run of operands asks nothing of another node. -/
def State.near (s : State) (r : Nat × Nat) : Bool := s.gHere (r.1 % 2 ^ 64) || r.2 == 0

/-- What allHere says, part by part: every run of the guide, of what is fetched and of the results is near, and every history block has
its path, none of which fails. -/
theorem State.allHere_iff (s : State) (m : Macro) (x : Ctx) (idx : Nat) : s.allHere m x idx = true ↔
    ((∀ r ∈ m.op.guide (s.startEnv m x idx), s.near r = true) ∧ (∀ r ∈ m.op.fetch (s.startEnv m x idx), s.near r = true) ∧
      ∀ r ∈ m.op.outs (s.startEnv m x idx), s.near r = true) ∧
    (s.slotSeen m x idx).histPlan (s.slotEnv x idx) = ([], []) ∧ (s.startEnv m x idx).hist.any (fun b => b.2 == 4) = false := by
  simp only [State.allHere, Bool.and_eq_true, beq_iff_eq, Bool.not_eq_true', List.all_append, List.all_eq_true, State.near, and_assoc]

/-- Near runs lack nothing. -/
theorem State.lacking_of_near {s : State} (e : Env) (f : InFlight) {l : List (Nat × Nat)} (h : ∀ r ∈ l, s.near r = true) :
    s.lacking e f l = [] := by
  have none : l.filter (fun r => !s.gHere (r.1 % 2 ^ 64) && r.2 != 0 && !e.unread.contains r && !s.copied r &&
      !s.cs.reqs.any (fun q => q.answered && q.brings f r)) = [] := by
    rw [List.filter_eq_nil_iff]
    intro r hr
    have hn : (!s.gHere (r.1 % 2 ^ 64) && r.2 != 0) = false := by
      have := h r hr
      revert this
      unfold State.near
      cases s.gHere (r.1 % 2 ^ 64) <;> simp
    simp only [hn, Bool.false_and, Bool.false_eq_true, not_false_eq_true]
  simp only [State.lacking, none, List.eraseDups_nil]

theorem State.needs_of_near {s : State} {o : Op} {e : Env} (f : InFlight) (hg : ∀ r ∈ o.guide e, s.near r = true)
    (hf : ∀ r ∈ o.fetch e, s.near r = true) : s.needs o e f = [] := by
  simp only [State.needs, State.lacking_of_near e f hg, State.lacking_of_near e f hf]

/-- An instruction whose runs are all near needs no node id. -/
theorem State.noNode_of_near {s : State} {o : Op} {e : Env} (hg : ∀ r ∈ o.guide e, s.near r = true)
    (hf : ∀ r ∈ o.fetch e, s.near r = true) (ho : ∀ r ∈ o.outs e, s.near r = true) : s.noNode o e = false := by
  have none : (o.guide e ++ o.fetch e ++ o.outs e).any (fun r => !s.gHere (r.1 % 2 ^ 64) && r.2 != 0) = false := by
    rw [List.any_eq_false]
    intro r hr
    have hn : s.near r = true := by
      rcases List.mem_append.mp hr with hr | hr
      · rcases List.mem_append.mp hr with hr | hr
        · exact hg r hr
        · exact hf r hr
      · exact ho r hr
    revert hn
    unfold State.near
    cases s.gHere (r.1 % 2 ^ 64) <;> simp
  simp only [State.noNode, none, Bool.and_false]

theorem State.near_congr {s t : State} (h : s.fabric = t.fabric) (r : Nat × Nat) : s.near r = t.near r := by
  simp only [State.near, State.gHere_congr h]

/-! ### Counting the paths of history -/

theorem State.countPath_memoryStep (s : State) (deadline : Bool) (path : Nat) : s.memoryStep (s.countPath deadline path) := by
  unfold State.countPath
  split
  · split
    · exact s.bump_memoryStep _ _ _
    · exact .refl s
  · exact s.bump_memoryStep _ _ _
  · exact s.bump_memoryStep _ _ _
  · exact s.bump_memoryStep _ _ _
  · exact .refl s

@[simp] theorem State.countPath_mem (s : State) (deadline : Bool) (path : Nat) : (s.countPath deadline path).mem = s.mem := by
  unfold State.countPath
  split
  · split <;> rfl
  · rfl
  · rfl
  · rfl
  · rfl

/-- With no block lost, deciding the paths of history counts them. -/
theorem State.startPaths_nil_memoryStep (s : State) (e : Env) (f : InFlight) : s.memoryStep (s.startPaths e f []) := by
  unfold State.startPaths
  split
  · exact .refl s
  · exact foldl_related State.memoryStep.refl State.memoryStep.trans
      (f := fun (s : State) (b : Nat × Nat) => s.countPath (e.hasDeadline _) b.2) (fun s b => s.countPath_memoryStep _ b.2) f.hist s

@[simp] theorem State.startPaths_nil_mem (s : State) (e : Env) (f : InFlight) : (s.startPaths e f []).mem = s.mem := by
  unfold State.startPaths
  split
  · rfl
  · exact foldl_related (R := fun s t : State => t.mem = s.mem) (f := fun (s : State) (b : Nat × Nat) => s.countPath (e.hasDeadline _) b.2)
      (fun _ => rfl) (fun h h' => h'.trans h) (fun s b => s.countPath_mem _ b.2) f.hist s

/-! ### The start -/

/-- An instruction as it starts its work: its slot's fields and extents, with the paths of its history blocks. -/
def State.startFlight (s : State) (m : Macro) (x : Ctx) (idx : Nat) : InFlight :=
  { s.slotFlight m x idx with hist := (s.startEnv m x idx).hist }

/-- The state in which an instruction does its work: its slot has been read, and it is in flight. -/
def State.atStart (s : State) (m : Macro) (x : Ctx) (idx : Nat) : State :=
  ((s.slotSeen m x idx).startPaths (s.startEnv m x idx) (s.startFlight m x idx) []).addFlight (s.startFlight m x idx)

theorem State.started_eq (s : State) (m : Macro) (x : Ctx) (idx : Nat) :
    s.started m x idx = (s.atStart m x idx).finishRun m.op (s.startEnv m x idx) (s.startFlight m x idx) := rfl

/-- A zero length starts with no history, and so with no path to count. -/
theorem State.launch_of_idle {s : State} {m : Macro} {x : Ctx} {idx : Nat} (hi : m.op.idle (s.slotEnv x idx) = true)
    (hh : (s.slotEnv x idx).history = none) :
    (s.slotSeen m x idx).launch m.op (s.slotEnv x idx) (s.slotFlight m x idx) = s.started m x idx := by
  have henv : s.startEnv m x idx = s.slotEnv x idx := by
    simp only [State.startEnv, hh, Option.map_none, Option.getD_none]
    rfl
  have hflight : s.startFlight m x idx = s.slotFlight m x idx := by
    simp only [State.startFlight, henv]
    rfl
  have hpaths (f : InFlight) : (s.slotSeen m x idx).startPaths (s.slotEnv x idx) f [] = s.slotSeen m x idx := by
    simp only [State.startPaths, hh]
  rw [State.started_eq, State.atStart, henv, hflight, hpaths]
  simp only [State.launch, State.launchTo, hi, if_true]
  rfl

/-- An instruction whose operands are all here does its work as it starts. -/
theorem State.launch_of_allHere {s : State} {m : Macro} {x : Ctx} {idx : Nat} (hi : m.op.idle (s.slotEnv x idx) = false)
    (h : s.allHere m x idx = true) :
    (s.slotSeen m x idx).launch m.op (s.slotEnv x idx) (s.slotFlight m x idx) = s.started m x idx := by
  obtain ⟨⟨hg, hf, ho⟩, hplan, hfail⟩ := (s.allHere_iff m x idx).mp h
  have henv : ({ s.slotEnv x idx with hist := ((s.slotEnv x idx).history.map (fun h => (s.slotEnv x idx).mapped h [] [])).getD [] } : Env) =
      s.startEnv m x idx := by
    simp only [State.startEnv, hplan]
  have hflight : ({ s.slotFlight m x idx with
      hist := ((s.slotEnv x idx).history.map (fun h => (s.slotEnv x idx).mapped h [] [])).getD [], histWait := [] } : InFlight) =
      s.startFlight m x idx := by
    simp only [State.startFlight, State.startEnv, hplan]
    rfl
  have hfab (u : State) (hu : (s.slotSeen m x idx).memoryStep u) {l : List (Nat × Nat)} (hl : ∀ r ∈ l, s.near r = true) :
      ∀ r ∈ l, u.near r = true := fun r hr => by
    rw [State.near_congr (hu.fabric.trans (s.slotSeen_fabric m x idx)) r]
    exact hl r hr
  have hnode : (s.slotSeen m x idx).noNode m.op (s.startEnv m x idx) = false :=
    State.noNode_of_near (hfab _ (.refl _) hg) (hfab _ (.refl _) hf) (hfab _ (.refl _) ho)
  have hneeds : ((s.slotSeen m x idx).startPaths (s.startEnv m x idx) (s.startFlight m x idx) []).needs m.op (s.startEnv m x idx)
      (s.startFlight m x idx) = [] :=
    State.needs_of_near _ (hfab _ (State.startPaths_nil_memoryStep _ _ _) hg) (hfab _ (State.startPaths_nil_memoryStep _ _ _) hf)
  have hhist : ((s.slotEnv x idx).history.map (fun h => (s.slotEnv x idx).mapped h [] [])).getD [] = (s.startEnv m x idx).hist := by
    simp only [State.startEnv, hplan]
  unfold State.launch State.launchTo
  rw [if_neg (by rw [hi]; decide)]
  simp only [hplan, hflight]
  rw [henv, hhist, if_neg (by rw [hnode]; decide), if_neg (by rw [hfail]; decide), if_pos (by rw [hneeds]; decide)]
  rfl

end Sys2Proof.Machine
end

section
/-! The work of an instruction that runs on operands (03 R84, R90, 04 R107): what it leaves in flight, what it has changed, and its completion. -/

namespace Sys2Proof.Machine
open Sys2Proof

/-! ### Trouble that is counted and announced leaves the stream alone -/

theorem State.logStep.cs {s t : State} (h : s.logStep t) : t.cs = s.cs := by
  obtain ⟨_, _, _, _, rfl⟩ := h
  rfl

@[simp] theorem State.flushEmergency_cs (s : State) : s.flushEmergency.cs = s.cs := by
  unfold State.flushEmergency
  split
  · split <;> rfl
  · rfl

@[simp] theorem State.emergency_cs (s : State) (bitNo status : Nat) : (s.emergency bitNo status).cs = s.cs := by
  unfold State.emergency
  split
  · dsimp only
    split
    · exact State.flushEmergency_cs _
    · rfl
  · rfl

@[simp] theorem State.raise_cs (s : State) (bitNo status : Nat) : (s.raise bitNo status).cs = s.cs := by
  unfold State.raise
  split
  · rfl
  · exact State.emergency_cs _ _ _

/-- A fold whose steps leave the stream alone leaves it alone. -/
theorem foldl_cs {α : Type} {f : State → α → State} (hf : ∀ (s : State) (a : α), (f s a).cs = s.cs) (l : List α) (s : State) :
    (l.foldl f s).cs = s.cs :=
  foldl_related (R := fun s t : State => t.cs = s.cs) (fun _ => rfl) (fun h h' => h'.trans h) hf l s

@[simp] theorem State.watch_cs (s : State) (status : Nat) : (s.watch status).cs = s.cs := by
  refine foldl_cs (fun s i => ?_) _ _
  split
  · exact State.emergency_cs _ _ _
  · rfl

theorem State.forceCommit_logStep (s : State) : s.logStep s.forceCommit := by
  unfold State.forceCommit
  split
  · exact .refl s
  · exact State.logStep.trans ⟨_, _, _, _, rfl⟩ (State.commitWith_logStep _ [])

theorem State.post_logStep (s : State) (unit event status detail : Nat) : s.logStep (s.post unit event status detail) := ⟨_, _, _, _, rfl⟩

@[simp] theorem State.putFence_cs (s : State) (unit state origin cause : Nat) : (s.putFence unit state origin cause).cs = s.cs := by
  unfold State.putFence
  dsimp only
  rw [State.watch_cs, (State.log_logStep _ _ _ _ _ _).cs, (State.post_logStep _ _ _ _ _).cs, (State.forceCommit_logStep _).cs,
    (State.journal_logStep _ _ _).cs]
  rfl

@[simp] theorem State.markChannel_cs (s : State) (n origin cause : Nat) : (s.markChannel n origin cause).cs = s.cs := by
  unfold State.markChannel
  split
  · rfl
  · exact State.putFence_cs _ _ _ _ _

@[simp] theorem State.badReads_cs (s : State) (n k : Nat) : (s.badReads n k).cs = s.cs := by
  unfold State.badReads
  dsimp only
  split
  · exact State.markChannel_cs _ _ _ _
  · rfl

/-- Uncorrectable units that were read are counted and announced; no instruction is touched. -/
@[simp] theorem State.sawPoison_cs (s : State) (us : List Nat) : (s.sawPoison us).cs = s.cs := by
  have counted : (us.foldl (fun s u => if s.mem.window (16 * u) == 1 then s.badReads (s.chanOf (16 * u)) 1 else s)
      (s.bump 0x31C0 4 us.length)).cs = s.cs := by
    refine foldl_cs (fun s u => ?_) us _
    split
    · exact State.badReads_cs _ _ _
    · rfl
  unfold State.sawPoison
  dsimp only
  split <;> split <;> simp only [State.raise_cs, counted]

/-! ### The tasks of an instruction -/

/-- Nothing but the office and the counters has changed. -/
def State.officeStep (s t : State) : Prop := ∃ tele office, t = { s with tele := tele, office := office }

theorem State.officeStep.refl (s : State) : s.officeStep s := ⟨_, _, rfl⟩

theorem State.officeStep.trans {s t u : State} (h : s.officeStep t) (h' : t.officeStep u) : s.officeStep u := by
  obtain ⟨_, _, rfl⟩ := h
  obtain ⟨_, _, rfl⟩ := h'
  exact ⟨_, _, rfl⟩

theorem State.officeStep.cs {s t : State} (h : s.officeStep t) : t.cs = s.cs := by
  obtain ⟨_, _, rfl⟩ := h
  rfl

theorem State.cellTake_officeStep (s : State) (cell fuel : Nat) : s.officeStep (s.cellTake cell fuel) := by
  induction fuel generalizing s with
  | zero => exact .refl s
  | succ fuel ih =>
    unfold State.cellTake
    split
    · exact .refl s
    · split
      · exact .refl s
      · exact State.officeStep.trans ⟨_, _, rfl⟩ (ih _)

theorem State.serveTasks_officeStep (s : State) : s.officeStep s.serveTasks :=
  State.officeStep.trans (t := s.postAll) ⟨_, _, rfl⟩
    (foldl_related State.officeStep.refl State.officeStep.trans (fun (s : State) c => s.cellTake_officeStep c 2) _ _)

theorem State.deal_officeStep (s : State) (c idx prio : Nat) (l : List (Nat × Nat × Nat × Nat)) (done : Nat → Nat → Option Progress) :
    s.officeStep (s.deal c idx prio l done) :=
  State.officeStep.trans ⟨_, _, rfl⟩ (State.serveTasks_officeStep _)

/-! ### finishRun in parts -/

/-- The runs that an instruction at work reads. -/
def Op.readsOf (o : Op) (e : Env) : List (Nat × Nat) := (o.run e).reads.getD (o.ins e)

/-- The code of an instruction's work: the first failure found, 0 where there is none. -/
def State.runCode (s : State) (o : Op) (e : Env) (f : InFlight) : Nat :=
  let r := o.run e
  if r.fail == 0x0440 || r.fail == 0x0340 then r.fail
  else if (o.readsOf e).flatMap s.badLocal != [] || (o.readsOf e).any (s.badRemote (s.arrived f.ctx f.idx)) then 0x0302
  else if s.unservedRuns (o.readsOf e ++ if o.idle e then [] else o.outs e) then 0x0381
  else if r.draws && r.tasks.any (fun t => decide (16 ≤ (s.cell t.2.2.2).deferred)) then 0x0570
  else r.fail

/-- The work's results are kept: it has no failure, or one of the opcode's own that keeps them. -/
def State.runKeeps (s : State) (o : Op) (e : Env) (f : InFlight) : Bool :=
  s.runCode o e f == 0 || (s.runCode o e f == (o.run e).fail && (o.run e).failKeeps)

/-- The operands have been read and counted. -/
def State.runRead (s : State) (o : Op) (e : Env) : State :=
  let bad := (o.readsOf e).flatMap s.badLocal
  let t := if bad == [] then s else s.sawPoison bad.eraseDups
  ((t.bump 0x31C0 4 (total ((o.readsOf e).map t.copiedUnits))).readRuns (o.readsOf e)).bumps (o.run e).events

/-- The bytes that are written as the work begins have been written. -/
def State.runBegun (s : State) (o : Op) (e : Env) (f : InFlight) : State :=
  (s.runRead o e).unspoil ((o.run e).begins.foldl (fun s w => s.writeBytes w.1 w.2) (s.runRead o e)) f

/-- The work is done, its sheets held. -/
def State.runDone (s : State) (o : Op) (e : Env) (f : InFlight) : State :=
  (if s.runKeeps o e f then (s.runBegun o e f).drew else (s.runBegun o e f).scramble f).holdSheets f.ctx (o.run e).sheets

/-- What the work leaves in flight. -/
def State.runEntry (s : State) (o : Op) (e : Env) (f : InFlight) : InFlight :=
  let r := o.run e
  { f with
    phase := .running
    status := if s.runCode o e f != 0 then s.runCode o e f else topNote r.notes
    detail := if s.runCode o e f == r.fail then r.detail else 0xFFFFFFFF
    rung := r.rung
    counts := r.counts ++ (if r.draws then [tick 0x31B0 6 ((s.runDone o e f).free (2 ^ 86))] else [])
    draws := r.paneDraws
    carryThen := if ladderOpcode e.opcode && e.prec.carryEn && !o.idle e then some (e.carryUsable, e.carryGone) else none
    reads := (s.runDone o e f).homeRuns (o.readsOf e)
    endWrites := (if s.runKeeps o e f then r.writes else []) ++ (if s.runCode o e f == 0 then r.endWrites else []) }

/-- The entry stands in flight, its work done. -/
def State.runEntered (s : State) (o : Op) (e : Env) (f : InFlight) : State :=
  (s.runDone o e f).setFlight f.ctx f.idx (fun _ => s.runEntry o e f)

/-- finishRun enters the work's outcome, keeps the grid, and deals the tasks. -/
theorem State.finishRun_eq (s : State) (o : Op) (e : Env) (f : InFlight) : ∃ prio done,
    s.finishRun o e f = ((s.runEntered o e f).setGrid f.ctx f.idx (o.run e).tasks).deal f.ctx f.idx prio (o.run e).tasks done :=
  ⟨_, _, rfl⟩

/-! ### What is left in flight -/

theorem State.runRead_cs (s : State) (o : Op) (e : Env) : (s.runRead o e).cs = s.cs := by
  unfold State.runRead
  dsimp only
  rw [(State.bumps_memoryStep _ _).cs, (State.readRuns_memoryStep _ _).cs]
  split
  · rfl
  · exact State.sawPoison_cs s _

theorem foldl_writeBytes_flightKeys {α : Type} {a : α → Nat} {b : α → Bytes} (l : List α) (s : State) :
    (l.foldl (fun s x => s.writeBytes (a x) (b x)) s).flightKeys = s.flightKeys :=
  foldl_related (R := fun s t : State => t.flightKeys = s.flightKeys) (f := fun s x => s.writeBytes (a x) (b x)) (fun _ => rfl)
    (fun h h' => h'.trans h) (fun s x => s.writeBytes_flightKeys (a x) (b x)) l s

@[simp] theorem State.scramble_flightKeys (s : State) (f : InFlight) : (s.scramble f).flightKeys = s.flightKeys := by
  have outs (l : List (Nat × Nat)) : (l.foldl (fun s x => if s.gHere (x.1 % 2 ^ 64) then
      s.writeBytes (gAddr (x.1 % 2 ^ 64)) (s.freeBytes (2 ^ 80 + x.1) x.2) else s) s).flightKeys = s.flightKeys := by
    refine foldl_related (R := fun s t : State => t.flightKeys = s.flightKeys) (fun _ => rfl) (fun h h' => h'.trans h)
      (fun s x => ?_) l s
    split
    · exact s.writeBytes_flightKeys _ _
    · rfl
  unfold State.scramble
  dsimp only
  rw [(State.drew_memoryStep _).flightKeys, foldl_writeBytes_flightKeys]
  split
  · exact outs f.outs
  · rw [foldl_writeBytes_flightKeys, outs]

@[simp] theorem State.holdSheets_flightKeys (s : State) (c : Nat) (l : Option (List SheetSet)) :
    (s.holdSheets c l).flightKeys = s.flightKeys := by
  unfold State.holdSheets
  split <;> rfl

theorem State.runBegun_flightKeys (s : State) (o : Op) (e : Env) (f : InFlight) : (s.runBegun o e f).flightKeys = s.flightKeys := by
  rw [State.runBegun, State.unspoil_flightKeys, foldl_writeBytes_flightKeys, State.flightKeys, s.runRead_cs]
  rfl

theorem State.runDone_flightKeys (s : State) (o : Op) (e : Env) (f : InFlight) : (s.runDone o e f).flightKeys = s.flightKeys := by
  unfold State.runDone
  rw [State.holdSheets_flightKeys]
  split
  · rw [(State.drew_memoryStep _).flightKeys, State.runBegun_flightKeys]
  · rw [State.scramble_flightKeys, State.runBegun_flightKeys]

/-- After the work of an instruction in flight its entry is the work's outcome. -/
theorem State.finishRun_flight? {s : State} (o : Op) (e : Env) {f : InFlight} (h : (f.ctx, f.idx) ∈ s.flightKeys) :
    (s.finishRun o e f).flight? f.ctx f.idx = some (s.runEntry o e f) := by
  obtain ⟨prio, done, heq⟩ := s.finishRun_eq o e f
  have hcs := (State.deal_officeStep ((s.runEntered o e f).setGrid f.ctx f.idx (o.run e).tasks) f.ctx f.idx prio (o.run e).tasks done).cs
  have hset : (s.finishRun o e f).flight? f.ctx f.idx = (s.runEntered o e f).flight? f.ctx f.idx := by
    rw [heq, State.flight?, hcs]
    rfl
  rw [hset, State.runEntered, State.flight?_setFlight (g := fun _ => s.runEntry o e f) _ f.ctx f.idx fun _ _ _ => ⟨rfl, rfl⟩]
  obtain ⟨g, hg⟩ : ∃ g, (s.runDone o e f).flight? f.ctx f.idx = some g := by
    rw [← Option.ne_none_iff_exists']
    intro hnone
    rw [State.flight?_eq_none_iff, State.runDone_flightKeys] at hnone
    exact hnone h
  rw [hg]
  rfl

/-! ### Work that meets no trouble -/

/-- Work without trouble has no code of failure. -/
theorem State.runCode_clean {s : State} {o : Op} {e : Env} {f : InFlight} (hfail : (o.run e).fail = 0)
    (hlocal : (o.readsOf e).flatMap s.badLocal = []) (hremote : (o.readsOf e).any (s.badRemote (s.arrived f.ctx f.idx)) = false)
    (hmark : s.mem.chans.any (fun c => c.marked) = false)
    (hdry : ((o.run e).draws && (o.run e).tasks.any (fun t => decide (16 ≤ (s.cell t.2.2.2).deferred))) = false) :
    s.runCode o e f = 0 := by
  simp [State.runCode, hfail, hlocal, hremote, State.unservedRuns_of_any_marked hmark, hdry]

theorem State.runKeeps_of_code {s : State} {o : Op} {e : Env} {f : InFlight} (h : s.runCode o e f = 0) : s.runKeeps o e f = true := by
  simp [State.runKeeps, h]

/-- Nothing but memory, the office, the stream, the intake jobs' marks, the counters and the free values drawn has changed. -/
def State.workStep (s t : State) : Prop := ∃ epoch tele mem office cs intake,
  t = { s with epoch := epoch, tele := tele, mem := mem, office := office, cs := cs, intake := intake }

theorem State.workStep.refl (s : State) : s.workStep s := ⟨_, _, _, _, _, _, rfl⟩

theorem State.workStep.trans {s t u : State} (h : s.workStep t) (h' : t.workStep u) : s.workStep u := by
  obtain ⟨_, _, _, _, _, _, rfl⟩ := h
  obtain ⟨_, _, _, _, _, _, rfl⟩ := h'
  exact ⟨_, _, _, _, _, _, rfl⟩

theorem State.workStep.eq {s t : State} (h : s.workStep t) :
    t = { s with epoch := t.epoch, tele := t.tele, mem := t.mem, office := t.office, cs := t.cs, intake := t.intake } := by
  obtain ⟨_, _, _, _, _, _, rfl⟩ := h
  rfl

theorem State.memoryStep.work {s t : State} (h : s.memoryStep t) : s.workStep t := by
  obtain ⟨_, _, _, rfl⟩ := h
  exact ⟨_, _, _, _, _, _, rfl⟩

theorem State.officeStep.work {s t : State} (h : s.officeStep t) : s.workStep t := by
  obtain ⟨_, _, rfl⟩ := h
  exact ⟨_, _, _, _, _, _, rfl⟩

theorem State.writeBytes_workStep (s : State) (a : Nat) (bs : Bytes) : s.workStep (s.writeBytes a bs) :=
  State.workStep.trans ⟨_, _, _, _, _, _, rfl⟩ (s.writeBytes_memoryStep a bs).work

@[simp] theorem State.writeBytes_sheets (s : State) (a : Nat) (bs : Bytes) : (s.writeBytes a bs).cs.sheets = s.cs.sheets := by
  rw [(s.writeBytes_memoryStep a bs).cs]
  rfl

theorem State.unspoil_workStep {s t : State} (h : s.workStep t) (f : InFlight) : s.workStep (s.unspoil t f) := by
  unfold State.unspoil
  split
  · exact h
  · exact h.trans ⟨_, _, _, _, _, _, rfl⟩

@[simp] theorem State.unspoil_sheets (s t : State) (f : InFlight) : (s.unspoil t f).cs.sheets = t.cs.sheets := by
  unfold State.unspoil
  split <;> rfl

theorem State.holdSheets_workStep (s : State) (c : Nat) (l : Option (List SheetSet)) : s.workStep (s.holdSheets c l) := by
  unfold State.holdSheets
  split <;> exact ⟨_, _, _, _, _, _, rfl⟩

theorem State.runRead_clean {s : State} {o : Op} {e : Env} (h : (o.readsOf e).flatMap s.badLocal = []) :
    s.runRead o e =
      ((s.bump 0x31C0 4 (total ((o.readsOf e).map s.copiedUnits))).readRuns (o.readsOf e)).bumps (o.run e).events := by
  unfold State.runRead
  simp only [h, beq_self_eq_true, if_true]

theorem State.runRead_memoryStep {s : State} {o : Op} {e : Env} (h : (o.readsOf e).flatMap s.badLocal = []) :
    s.memoryStep (s.runRead o e) := by
  rw [State.runRead_clean h]
  exact ((s.bump_memoryStep _ _ _).trans (State.readRuns_memoryStep _ _)).trans (State.bumps_memoryStep _ _)

/-- Without an uncorrectable operand, the work changes memory, the stream's marks and counters alone as it begins. -/
theorem State.runBegun_workStep {s : State} {o : Op} {e : Env} (f : InFlight) (h : (o.readsOf e).flatMap s.badLocal = []) :
    s.workStep (s.runBegun o e f) := by
  have begins : (s.runRead o e).workStep ((o.run e).begins.foldl (fun s w => s.writeBytes w.1 w.2) (s.runRead o e)) :=
    foldl_related (f := fun (s : State) (w : Nat × Bytes) => s.writeBytes w.1 w.2) State.workStep.refl State.workStep.trans
      (fun s w => s.writeBytes_workStep w.1 w.2) _ _
  rw [State.runBegun]
  exact (State.runRead_memoryStep h).work.trans (State.unspoil_workStep begins f)

theorem State.runBegun_sheets (s : State) (o : Op) (e : Env) (f : InFlight) : (s.runBegun o e f).cs.sheets = s.cs.sheets := by
  have begins : ((o.run e).begins.foldl (fun s w => s.writeBytes w.1 w.2) (s.runRead o e)).cs.sheets = (s.runRead o e).cs.sheets :=
    foldl_related (R := fun s t : State => t.cs.sheets = s.cs.sheets) (f := fun (s : State) (w : Nat × Bytes) => s.writeBytes w.1 w.2)
      (fun _ => rfl) (fun h h' => h'.trans h) (fun s w => s.writeBytes_sheets w.1 w.2) _ _
  rw [State.runBegun, State.unspoil_sheets, begins, s.runRead_cs]

/-- The sheets that a context keeps after an instruction: those that it leaves, in place of its earlier ones (04 R107). -/
def heldSheets (c : Nat) (old : List SheetSet) : Option (List SheetSet) → List SheetSet
  | none => old
  | some l => old.filter (fun h => h.ctx != c) ++ l

theorem State.holdSheets_sheets (s : State) (c : Nat) (l : Option (List SheetSet)) :
    (s.holdSheets c l).cs.sheets = heldSheets c s.cs.sheets l := by
  cases l <;> rfl

theorem State.runDone_of_code {s : State} {o : Op} {e : Env} {f : InFlight} (h : s.runCode o e f = 0) :
    s.runDone o e f = (s.runBegun o e f).drew.holdSheets f.ctx (o.run e).sheets := by
  rw [State.runDone, State.runKeeps_of_code h, if_pos rfl]

/-- What work without trouble has changed. -/
theorem State.finishRun_workStep {s : State} {o : Op} {e : Env} {f : InFlight} (hc : s.runCode o e f = 0)
    (h : (o.readsOf e).flatMap s.badLocal = []) : s.workStep (s.finishRun o e f) := by
  obtain ⟨prio, done, heq⟩ := s.finishRun_eq o e f
  have entered : (s.runDone o e f).workStep (s.runEntered o e f) := ⟨_, _, _, _, _, _, rfl⟩
  have grid : (s.runEntered o e f).workStep ((s.runEntered o e f).setGrid f.ctx f.idx (o.run e).tasks) := ⟨_, _, _, _, _, _, rfl⟩
  have done' : s.workStep (s.runDone o e f) := by
    rw [State.runDone_of_code hc]
    exact ((State.runBegun_workStep f h).trans (State.drew_memoryStep _).work).trans (State.holdSheets_workStep _ _ _)
  rw [heq]
  exact ((done'.trans entered).trans grid).trans (State.deal_officeStep _ _ _ _ _ _).work

theorem State.finishRun_sheets {s : State} {o : Op} {e : Env} {f : InFlight} (hc : s.runCode o e f = 0) :
    (s.finishRun o e f).cs.sheets = heldSheets f.ctx s.cs.sheets (o.run e).sheets := by
  obtain ⟨prio, done, heq⟩ := s.finishRun_eq o e f
  have entered : (s.runEntered o e f).cs.sheets = (s.runDone o e f).cs.sheets := rfl
  rw [heq, (State.deal_officeStep _ _ _ _ _ _).cs]
  show (s.runEntered o e f).cs.sheets = _
  rw [entered, State.runDone_of_code hc, State.holdSheets_sheets, (State.drew_memoryStep _).cs, State.runBegun_sheets]

end Sys2Proof.Machine
end

section
/-! O10: an instruction that runs on operands, from its start to its completion (03 R79, R84, R86, R90). -/

namespace Sys2Proof.Machine
open Sys2Proof

/-! ### What the reading of a slot leaves as it was -/

/-- A stable split of a list by `q` keeps the first element that meets `p`, where those that meet `p` agree on `q`. -/
theorem find?_split {α : Type} {p q : α → Bool} {l : List α} (h : ∀ a ∈ l, ∀ b ∈ l, p a = true → p b = true → q a = q b) :
    (l.filter (fun a => !q a) ++ l.filter q).find? p = l.find? p := by
  have all (r : α → Bool) (hr : ∀ a ∈ l, p a = true → r a = true) : (l.filter r).find? p = l.find? p := by
    rw [List.find?_filter]
    refine List.find?_congr fun a ha => ?_
    cases hp : p a <;> simp [hr a ha, hp]
  have gone (r : α → Bool) (hr : ∀ a ∈ l, p a = true → r a = false) : (l.filter r).find? p = none := by
    rw [List.find?_eq_none]
    intro a ha hp
    obtain ⟨hm, hra⟩ := List.mem_filter.mp ha
    rw [hr a hm hp] at hra
    exact Bool.false_ne_true hra
  rw [List.find?_append]
  cases hx : l.find? p with
  | none =>
    have none' (r : α → Bool) : (l.filter r).find? p = none :=
      gone r fun a ha hp => absurd hp (List.find?_eq_none.mp hx a ha)
    rw [none', none']
    rfl
  | some x =>
    have hxl := List.mem_of_find?_eq_some hx
    have hpx := List.find?_some hx
    cases hq : q x with
    | true =>
      rw [gone _ fun a ha hp => by rw [h a ha x hxl hp hpx, hq]; rfl, all _ fun a ha hp => by rw [h a ha x hxl hp hpx, hq], hx]
      rfl
    | false =>
      rw [all _ fun a ha hp => by rw [h a ha x hxl hp hpx, hq]; rfl, hx]
      rfl

/-- Which copy stands of an address does not hang on the order of access. -/
@[simp] theorem MemSys.touch_copyOf (m : MemSys) (l : List (Nat × Nat)) (g : Nat) : (m.touch l).copyOf g = m.copyOf g := by
  refine find?_split fun a _ b _ ha hb => ?_
  obtain ⟨han, haa⟩ := Bool.and_eq_true_iff.mp ha
  obtain ⟨hbn, hba⟩ := Bool.and_eq_true_iff.mp hb
  rw [beq_iff_eq.mp han, beq_iff_eq.mp haa, beq_iff_eq.mp hbn, beq_iff_eq.mp hba]

@[simp] theorem MemSys.touch_copyByte (m : MemSys) (l : List (Nat × Nat)) (g : Nat) : (m.touch l).copyByte g = m.copyByte g := by
  unfold MemSys.copyByte
  rw [MemSys.touch_copyOf]

/-- A test of the copies, one by one, does not hang on the order of access. -/
theorem MemSys.touch_copies_any (m : MemSys) (l : List (Nat × Nat)) (p : Copy → Bool) : (m.touch l).copies.any p = m.copies.any p := by
  refine Bool.eq_iff_iff.mpr ?_
  have mem_iff (c : Copy) : c ∈ (m.touch l).copies ↔ c ∈ m.copies := by
    simp only [MemSys.touch, List.mem_append, List.mem_filter, ← and_or_left, Bool.not_eq_true']
    exact and_iff_left (Bool.eq_false_or_eq_true _).symm
  simp only [List.any_eq_true, mem_iff]

/-! ### The state in which an instruction does its work -/

/-- Before it is put in flight, an instruction has read its slot and counted the paths of its history. -/
def State.beforeStart (s : State) (m : Macro) (x : Ctx) (idx : Nat) : State :=
  (s.slotSeen m x idx).startPaths (s.startEnv m x idx) (s.startFlight m x idx) []

theorem State.beforeStart_memoryStep (s : State) (m : Macro) (x : Ctx) (idx : Nat) : s.memoryStep (s.beforeStart m x idx) :=
  (s.slotSeen_memoryStep m x idx).trans (State.startPaths_nil_memoryStep _ _ _)

theorem State.atStart_mem (s : State) (m : Macro) (x : Ctx) (idx : Nat) : ∃ l, (s.atStart m x idx).mem = s.mem.touch l := by
  obtain ⟨l, hl⟩ := s.slotSeen_mem m x idx
  exact ⟨l, (State.startPaths_nil_mem _ _ _).trans hl⟩

theorem State.atStart_workStep (s : State) (m : Macro) (x : Ctx) (idx : Nat) : s.workStep (s.atStart m x idx) :=
  (s.beforeStart_memoryStep m x idx).work.trans ⟨_, _, _, _, _, _, rfl⟩

theorem State.atStart_office (s : State) (m : Macro) (x : Ctx) (idx : Nat) : (s.atStart m x idx).office = s.office :=
  (s.beforeStart_memoryStep m x idx).office

theorem State.atStart_fabric (s : State) (m : Macro) (x : Ctx) (idx : Nat) : (s.atStart m x idx).fabric = s.fabric :=
  (s.beforeStart_memoryStep m x idx).fabric

theorem State.atStart_cs (s : State) (m : Macro) (x : Ctx) (idx : Nat) :
    (s.atStart m x idx).cs = { s.cs with flight := s.cs.flight ++ [s.startFlight m x idx] } := by
  rw [← (s.beforeStart_memoryStep m x idx).cs]
  rfl

theorem State.atStart_mem_flightKeys (s : State) (m : Macro) (x : Ctx) (idx : Nat) :
    (x.number, idx) ∈ (s.atStart m x idx).flightKeys := by
  rw [State.flightKeys, State.atStart_cs, List.map_append]
  exact List.mem_append_right _ (List.mem_singleton.mpr rfl)

theorem State.atStart_gHere (s : State) (m : Macro) (x : Ctx) (idx g : Nat) : (s.atStart m x idx).gHere g = s.gHere g :=
  State.gHere_congr (s.atStart_fabric m x idx) g

theorem State.atStart_badLocal (s : State) (m : Macro) (x : Ctx) (idx : Nat) : (s.atStart m x idx).badLocal = s.badLocal := by
  obtain ⟨l, hl⟩ := s.atStart_mem m x idx
  funext r
  simp only [State.badLocal, State.atStart_gHere, hl]
  rfl

theorem State.atStart_badRemote (s : State) (m : Macro) (x : Ctx) (idx c i : Nat) :
    (s.atStart m x idx).badRemote ((s.atStart m x idx).arrived c i) = s.badRemote (s.arrived c i) := by
  obtain ⟨l, hl⟩ := s.atStart_mem m x idx
  have arrived : (s.atStart m x idx).arrived c i = s.arrived c i := by rw [State.arrived, State.atStart_cs]; rfl
  funext r
  simp only [State.badRemote, State.copiedBad, arrived, hl, MemSys.touch_copyByte, MemSys.touch_copies_any, State.atStart_gHere]

theorem State.atStart_cell (s : State) (m : Macro) (x : Ctx) (idx i : Nat) : (s.atStart m x idx).cell i = s.cell i := by
  rw [State.cell, State.atStart_office]
  rfl

theorem State.atStart_chans (s : State) (m : Macro) (x : Ctx) (idx : Nat) : (s.atStart m x idx).mem.chans = s.mem.chans := by
  obtain ⟨l, hl⟩ := s.atStart_mem m x idx
  rw [hl]
  rfl

/-! ### The start -/

/-- An instruction that runs on operands starts its work at once where they are here. -/
theorem State.startMacro_of_allHere {s : State} {m : Macro} {c idx : Nat} {x : Ctx} (hm : m ∈ runMacros) (hx : s.ctx? c = some x)
    (hc : x.number = c) (ha : s.accepts m x idx = true) (hh : s.allHere m x idx = true) : s.startMacro m c idx = s.started m x idx := by
  obtain ⟨hstart, hlisted, -⟩ := runMacros_launch m hm
  have launched : s.startMacro m c idx = (s.slotSeen m x idx).launch m.op (s.slotEnv x idx) (s.slotFlight m x idx) := by
    rw [State.startMacro_accepts s m c idx x hx hc ha hlisted, hstart]
  rw [launched]
  cases hi : m.op.idle (s.slotEnv x idx) with
  | true => exact State.launch_of_idle hi (runMacros_idle_history m hm _ (State.accepts_opcode ha) hi)
  | false => exact State.launch_of_allHere hi hh

/-! ### What is in flight afterwards -/

/-- What a started instruction leaves in flight. -/
def State.startEntry (s : State) (m : Macro) (x : Ctx) (idx : Nat) : InFlight :=
  (s.atStart m x idx).runEntry m.op (s.startEnv m x idx) (s.startFlight m x idx)

theorem State.started_flight? (s : State) (m : Macro) (x : Ctx) (idx : Nat) :
    (s.started m x idx).flight? x.number idx = some (s.startEntry m x idx) :=
  State.finishRun_flight? m.op (s.startEnv m x idx) (s.atStart_mem_flightKeys m x idx)

/-- What a started instruction leaves in flight may complete, unless its opcode ends in a way of its own. -/
theorem State.startEntry_ready {s : State} {m : Macro} {x : Ctx} {idx : Nat} (h : ownEnd (s.startEntry m x idx).opcode = false) :
    (s.startEntry m x idx).ready = true := by
  have running : (s.startEntry m x idx).phase = .running := rfl
  have going : (s.startEntry m x idx).stopped = false := rfl
  simp [InFlight.ready, running, going, h]

/-! ### Work that meets no trouble -/

/-- What runsClean says, part by part. -/
theorem State.runsClean_iff (s : State) (m : Macro) (x : Ctx) (idx : Nat) : s.runsClean m x idx = true ↔
    (m.op.run (s.startEnv m x idx)).fail = 0 ∧ (m.op.readsOf (s.startEnv m x idx)).flatMap s.badLocal = [] ∧
      (m.op.readsOf (s.startEnv m x idx)).any (s.badRemote (s.arrived x.number idx)) = false ∧
      s.mem.chans.any (fun c => c.marked) = false ∧
      ((m.op.run (s.startEnv m x idx)).draws &&
        (m.op.run (s.startEnv m x idx)).tasks.any (fun t => decide (16 ≤ (s.cell t.2.2.2).deferred))) = false := by
  simp only [State.runsClean, Bool.and_eq_true, beq_iff_eq, Bool.not_eq_true', and_assoc]
  rfl

theorem State.runsClean_badLocal {s : State} {m : Macro} {x : Ctx} {idx : Nat} (h : s.runsClean m x idx = true) :
    (m.op.readsOf (s.startEnv m x idx)).flatMap (s.atStart m x idx).badLocal = [] := by
  rw [State.atStart_badLocal]
  exact ((s.runsClean_iff m x idx).mp h).2.1

/-- A clean run has no code of failure. -/
theorem State.runsClean_code {s : State} {m : Macro} {x : Ctx} {idx : Nat} (h : s.runsClean m x idx = true) :
    (s.atStart m x idx).runCode m.op (s.startEnv m x idx) (s.startFlight m x idx) = 0 := by
  obtain ⟨hfail, -, hremote, hmark, hdry⟩ := (s.runsClean_iff m x idx).mp h
  refine State.runCode_clean hfail (State.runsClean_badLocal h) ?_ ?_ ?_
  · rw [State.atStart_badRemote]
    exact hremote
  · rw [State.atStart_chans]
    exact hmark
  · simp only [State.atStart_cell]
    exact hdry

/-- A clean run's entry carries its success or note, its record's fields and all its results. -/
theorem State.startEntry_clean {s : State} {m : Macro} {x : Ctx} {idx : Nat} (h : s.runsClean m x idx = true) :
    let r := m.op.run (s.startEnv m x idx)
    (s.startEntry m x idx).status = topNote r.notes ∧ (s.startEntry m x idx).detail = r.detail ∧
      (s.startEntry m x idx).rung = r.rung ∧ (s.startEntry m x idx).endWrites = r.writes ++ r.endWrites := by
  have hcode := State.runsClean_code h
  have hfail := ((s.runsClean_iff m x idx).mp h).1
  simp [State.startEntry, State.runEntry, State.runKeeps_of_code hcode, hcode, hfail]

/-- A clean run has changed memory, tasks, the stream, counters and free values only. -/
theorem State.started_workStep {s : State} {m : Macro} {x : Ctx} {idx : Nat} (h : s.runsClean m x idx = true) :
    s.workStep (s.started m x idx) :=
  (s.atStart_workStep m x idx).trans (State.finishRun_workStep (State.runsClean_code h) (State.runsClean_badLocal h))

theorem State.started_sheets {s : State} {m : Macro} {x : Ctx} {idx : Nat} (h : s.runsClean m x idx = true) :
    (s.started m x idx).cs.sheets = heldSheets x.number s.cs.sheets (m.op.run (s.startEnv m x idx)).sheets := by
  rw [State.started_eq, State.finishRun_sheets (State.runsClean_code h), State.atStart_cs]
  rfl

/-! ### The completion -/

/-- Success and every note are of class 0x00. -/
theorem isSuccess_topNote (l : List Nat) : isSuccess (topNote l) = true := by
  have ranked : ∀ n ∈ noteRanks, isSuccess n = true := by decide
  unfold topNote
  cases h : noteRanks.find? (fun n => l.contains n) with
  | none => rfl
  | some n => exact ranked n (List.mem_of_find?_eq_some h)

/-- An instruction that ends well, its inputs untouched, completes with its results and its record. -/
theorem State.complete_of_success {u : State} {c idx : Nat} {y : Ctx} {g : InFlight} (hy : u.ctx? c = some y)
    (hg : u.flight? c idx = some g) (hr : g.ready = true) (ht : u.tasksLeft g = false) (he : y.state ≠ .ending)
    (hs : u.office.stopped.contains y.partition = false) (hclean : g.spoiled = false) (hok : isSuccess g.status = true) :
    u.complete c idx = ((u.settle y g).serveTasks).finishJob c := by
  obtain ⟨rfl, -⟩ := State.flight?_key hg
  rw [State.complete_of_ready hy hg hr ht he hs]
  simp only [State.completeNow, State.blurred_of_clean hclean, hok, Bool.true_or, if_true]

/-- The results of an instruction whose inputs were left alone are those of its entry. -/
theorem State.resultsPut_of_clean (u : State) {g : InFlight} (h : g.spoiled = false) :
    u.resultsPut g = g.endWrites.foldl (fun s w => s.putResult g w) (u.leaveStream g) := by
  simp only [State.resultsPut, State.results, h, Bool.false_eq_true, if_false]

/-- Each row's step is its start, where its operands are here. -/
theorem runMacros_start {s : State} {c idx : Nat} {x : Ctx} (hx : s.ctx? c = some x) (hc : x.number = c) :
    ∀ m ∈ runMacros, s.accepts m x idx = true → s.allHere m x idx = true →
      (.next (s.startMacro m c idx) : Host.Outcome State Fault Refusal) = .next (s.started m x idx) :=
  fun _ hm ha hh => congrArg Host.Outcome.next (State.startMacro_of_allHere hm hx hc ha hh)

/-- Settles O10: the start by its launch, the entry by the parts of finishRun, the completion by those of settle. -/
theorem macroInstructionsRun : Obligations.MacroInstructionsRun := by
  unfold Obligations.MacroInstructionsRun
  intro s c idx x hx hc
  have rows := runMacros_start (idx := idx) hx hc
  simp only [runMacros, List.forall_mem_cons] at rows
  obtain ⟨mma, mmas, conv, pool, attf, attb, latx, kvap, sfn, norm, smax, samp, rand, qnt, route, gath, scat, copy, still, argmx, -⟩ := rows
  refine ⟨mma, mmas, conv, pool, attf, attb, latx, kvap, sfn, norm, smax, samp, rand, qnt, route, gath, scat, copy, still, argmx,
    fun m hm ha _ => ?_⟩
  subst hc
  refine ⟨s.startEntry m x idx, s.started_flight? m x idx, rfl, State.accepts_opcode ha, rfl, rfl, fun hclean => ?_⟩
  obtain ⟨hstatus, hdetail, hrung, hends⟩ := State.startEntry_clean hclean
  have hsheets := State.started_sheets hclean
  have hready : (s.startEntry m x idx).ready = true := by
    have hop : (s.startEntry m x idx).opcode = m.opcode := State.accepts_opcode ha
    have hend := (runMacros_launch m hm).2.2
    rw [← hop] at hend
    exact State.startEntry_ready hend
  have hunspoiled : (s.startEntry m x idx).spoiled = false := rfl
  refine ⟨hstatus, hdetail, hrung, hends, (State.started_workStep hclean).eq, ?_,
    fun u y hy hg ht he hs => ⟨congrArg Host.Outcome.next ?_, ?_, fun howed => ?_, fun hflag hok => ?_⟩⟩
  · rw [hsheets]
    cases (m.op.run (s.startEnv m x idx)).sheets <;> rfl
  · refine State.complete_of_success hy hg hready ht he hs hunspoiled ?_
    rw [hstatus]
    exact isSuccess_topNote _
  · exact u.settle_flight? y (s.startEntry m x idx)
  · rw [State.settle_mem_of_record (by simpa [InFlight.owesRecord] using howed), State.resultsPut_of_clean u hunspoiled, hends]
    rfl
  · rw [State.settle_mem_of_no_record (by simp [InFlight.owesRecord, hflag, hok]), State.resultsPut_of_clean u hunspoiled, hends]

end Sys2Proof.Machine
end

section
/-! The choice among notes (03 R93) and what a job makes of its instructions' codes. -/

namespace Sys2Proof.Machine
open Sys2Proof

/-- Of the notes in a list, the one that stands first among the ranks is chosen. -/
theorem topNote_eq_of_first {l : List Nat} {i n : Nat} (hi : noteRanks[i]? = some n) (hn : n ∈ l)
    (hfirst : ∀ j m : Nat, j < i → noteRanks[j]? = some m → m ∉ l) : topNote l = n := by
  obtain ⟨hlt, hget⟩ := List.getElem?_eq_some_iff.mp hi
  have hfind : noteRanks.find? (fun n => l.contains n) = some n := by
    refine List.find?_eq_some_iff_getElem.mpr ⟨by simpa using hn, i, hlt, hget, fun j hj => ?_⟩
    simpa using hfirst j _ hj (List.getElem?_eq_getElem (hj.trans hlt))
  rw [topNote, hfind, Option.getD_some]

theorem topNote_eq_zero {l : List Nat} (h : ∀ n ∈ noteRanks, n ∉ l) : topNote l = 0 := by
  have hfind : noteRanks.find? (fun n => l.contains n) = none := List.find?_eq_none.mpr fun n hn => by simpa using h n hn
  rw [topNote, hfind, Option.getD_none]

theorem joinStatus_of_failed {x : Nat} (y : Nat) (hx : isSuccess x = false) : joinStatus x y = x := by simp [joinStatus, hx]

theorem joinStatus_of_first_failure {x y : Nat} (hx : isSuccess x = true) (hy : isSuccess y = false) : joinStatus x y = y := by
  simp [joinStatus, hx, hy]

theorem joinStatus_of_successes {x y : Nat} (hx : isSuccess x = true) (hy : isSuccess y = true) :
    joinStatus x y = topNote [x, y] := by
  simp [joinStatus, hx, hy]

/-- Settles O13: the choice by the first rank that is among the notes, and a job's code by which of the two codes is a failure. -/
theorem notesRankAsListed : Obligations.NotesRankAsListed := by
  unfold Obligations.NotesRankAsListed
  exact ⟨fun l => ⟨fun _ _ hi hn hfirst => topNote_eq_of_first hi hn hfirst, topNote_eq_zero⟩,
    fun _ y => ⟨joinStatus_of_failed y, joinStatus_of_first_failure, joinStatus_of_successes⟩⟩

end Sys2Proof.Machine
end

section
/-! How instructions that fail together end: each with the code, and every other as it was (03 R90, R93). -/

namespace Sys2Proof.Machine
open Sys2Proof

/-- The key of each instruction in flight with its phase and status, in order. -/
def State.outcomes (s : State) : List ((Nat × Nat) × Phase × Nat) := s.cs.flight.map (fun f => ((f.ctx, f.idx), f.phase, f.status))

theorem State.flight?_outcome (s : State) (c i : Nat) :
    (s.flight? c i).map (fun g => (g.phase, g.status)) = (s.outcomes.find? (fun o => o.1 == (c, i))).map (fun o => o.2) := by
  rw [State.outcomes, List.find?_map, Option.map_map]
  rfl

theorem State.memoryStep.outcomes {s t : State} (h : s.memoryStep t) : t.outcomes = s.outcomes := by
  rw [State.outcomes, h.cs, State.outcomes]

@[simp] theorem State.spoil_outcomes (s : State) (a n : Nat) : (s.spoil a n).outcomes = s.outcomes := by
  refine (List.map_map ..).trans (List.map_congr_left fun f _ => ?_)
  simp only [Function.comp_apply]
  split <;> rfl

@[simp] theorem State.writeBytes_outcomes (s : State) (a : Nat) (bs : Bytes) : (s.writeBytes a bs).outcomes = s.outcomes := by
  rw [(s.writeBytes_memoryStep a bs).outcomes, State.spoil_outcomes]

/-- Leaving outputs undefined is a row of writes, so what every write keeps to it keeps to. -/
theorem State.scramble_related {R : State → State → Prop} (hrefl : ∀ s, R s s) (htrans : ∀ {s t u}, R s t → R t u → R s u)
    (hwrite : ∀ (s : State) a bs, R s (s.writeBytes a bs)) (hdrew : ∀ s : State, R s s.drew) (s : State) (f : InFlight) :
    R s (s.scramble f) := by
  have writes (l : List (Nat × Bytes)) (s : State) : R s (l.foldl (fun s x => s.writeBytes x.1 x.2) s) :=
    foldl_related hrefl htrans (fun s (x : Nat × Bytes) => hwrite s x.1 x.2) l s
  have undefined : R s (f.outs.foldl (fun s x => if s.gHere (x.1 % 2 ^ 64) then
      s.writeBytes (gAddr (x.1 % 2 ^ 64)) (s.freeBytes (2 ^ 80 + x.1) x.2) else s) s) := by
    refine foldl_related hrefl htrans (fun s x => ?_) f.outs s
    split
    · exact hwrite s _ _
    · exact hrefl s
  unfold State.scramble
  refine htrans (htrans ?_ (writes _ _)) (hdrew _)
  split
  · exact undefined
  · exact htrans undefined (writes _ _)

@[simp] theorem State.scramble_outcomes (s : State) (f : InFlight) : (s.scramble f).outcomes = s.outcomes :=
  State.scramble_related (R := fun s t => t.outcomes = s.outcomes) (fun _ => rfl) (fun h h' => h'.trans h)
    (fun s a bs => s.writeBytes_outcomes a bs) (fun s => s.drew_memoryStep.outcomes) s f

/-- What a failure makes of an outcome: ended, with the first failure for its status (03 R93). -/
def failOutcome (code : Nat) (o : Phase × Nat) : Phase × Nat := (.ended, if isSuccess o.2 then returnable code else o.2)

/-- A second failure of the same code changes nothing. -/
theorem failOutcome_idem (code : Nat) (o : Phase × Nat) : failOutcome code (failOutcome code o) = failOutcome code o := by
  unfold failOutcome
  dsimp only
  split
  · exact congrArg _ (ite_self _)
  · rfl

/-- The outcomes once the instructions whose keys stand in `l` have failed. -/
def failOutcomes (code : Nat) (l : List (Nat × Nat)) (os : List ((Nat × Nat) × Phase × Nat)) : List ((Nat × Nat) × Phase × Nat) :=
  os.map (fun o => if o.1 ∈ l then (o.1, failOutcome code o.2) else o)

theorem failOutcomes_cons (code : Nat) (k : Nat × Nat) (l : List (Nat × Nat)) (os : List ((Nat × Nat) × Phase × Nat)) :
    failOutcomes code l (failOutcomes code [k] os) = failOutcomes code (k :: l) os := by
  refine (List.map_map ..).trans (List.map_congr_left fun o _ => ?_)
  by_cases hk : o.1 = k
  · by_cases hl : k ∈ l <;> simp [hk, hl, failOutcome_idem]
  · simp [hk]

/-- The entry found under a key that has failed is the one found before, failed. -/
theorem find?_failOutcomes (code : Nat) {l : List (Nat × Nat)} {k : Nat × Nat} (hk : k ∈ l) (os : List ((Nat × Nat) × Phase × Nat)) :
    ((failOutcomes code l os).find? (fun o => o.1 == k)).map (fun o => o.2) =
      (os.find? (fun o => o.1 == k)).map (fun o => failOutcome code o.2) := by
  have keys : (fun o : (Nat × Nat) × Phase × Nat => o.1 == k) ∘ (fun o => if o.1 ∈ l then (o.1, failOutcome code o.2) else o) =
      fun o => o.1 == k := by
    funext o
    simp only [Function.comp_apply]
    split <;> rfl
  rw [failOutcomes, List.find?_map, keys, Option.map_map]
  refine Option.map_congr fun o ho => ?_
  have hkey : o.1 = k := by simpa using List.find?_some ho
  simp [hkey, hk]

/-- An entry changed in place changes its own outcome alone. -/
theorem State.setFlight_outcomes (s : State) (c i code : Nat) {g : InFlight → InFlight}
    (hg : ∀ f, ((g f).ctx, (g f).idx) = (f.ctx, f.idx) ∧ ((g f).phase, (g f).status) = failOutcome code (f.phase, f.status)) :
    (s.setFlight c i g).outcomes = failOutcomes code [(c, i)] s.outcomes := by
  refine (List.map_map ..).trans (Eq.trans (List.map_congr_left fun f _ => ?_) (List.map_map ..).symm)
  obtain ⟨hkey, hout⟩ := hg f
  by_cases hf : f.ctx = c ∧ f.idx = i
  · simp only [Function.comp_apply, hf, BEq.rfl, Bool.and_self, if_true, List.mem_singleton, hkey, hout]
  · simp [hf]

/-- A failure of the instruction under a key ends it, and leaves every other as it was. -/
theorem State.failInstr_outcomes (s : State) (c i code : Nat) :
    (s.failInstr c i code).outcomes = failOutcomes code [(c, i)] s.outcomes := by
  unfold State.failInstr
  split
  next hnone =>
    have absent := (s.flight?_eq_none_iff c i).mp hnone
    refine ((List.map_congr_left fun o ho => if_neg ?_).trans (List.map_id' _)).symm
    obtain ⟨f, hf, rfl⟩ := List.mem_map.mp ho
    exact fun hkey => absent (List.mem_map.mpr ⟨f, hf, List.mem_singleton.mp hkey⟩)
  next f hf =>
    refine (State.setFlight_outcomes _ c i code ?_).trans (congrArg _ (s.scramble_outcomes f))
    exact fun _ => ⟨rfl, rfl⟩

/-- Instructions that fail together: those named end with the code, and every other is as it was. -/
theorem State.foldl_failInstr_outcomes (code : Nat) (l : List InFlight) (s : State) :
    (l.foldl (fun s f => s.failInstr f.ctx f.idx code) s).outcomes = failOutcomes code (l.map (fun f => (f.ctx, f.idx))) s.outcomes := by
  induction l generalizing s with
  | nil => simp [failOutcomes]
  | cons f l ih => rw [List.foldl_cons, ih, State.failInstr_outcomes, failOutcomes_cons, List.map_cons]

end Sys2Proof.Machine
end

section
/-! The hops of a gather chain (04 R103, R105, R112, R113, R118) and the reseeds of a cell's generator (09 R223, R224). -/

namespace Sys2Proof.Machine
open Sys2Proof

/-! ### Sorting numbers -/

theorem insertBy_perm {α : Type} (before : α → α → Bool) (x : α) (l : List α) : (insertBy before x l).Perm (x :: l) := by
  induction l with
  | nil => exact .refl _
  | cons y l ih =>
    unfold insertBy
    split
    · exact .refl _
    · exact (ih.cons y).trans (.swap x y l)

theorem mem_of_mem_sortBy {α : Type} (before : α → α → Bool) {l : List α} {x : α} (h : x ∈ sortBy before l) : x ∈ l := by
  refine List.foldlRecOn (motive := fun acc => ∀ x ∈ acc, x ∈ l) l _ (by simp) (fun acc hacc y hy z hz => ?_) x h
  rcases List.mem_cons.mp ((insertBy_perm before y acc).mem_iff.mp hz) with rfl | hz
  · exact hy
  · exact hacc z hz

theorem insertBy_pairwise_le (x : Nat) {l : List Nat} (h : l.Pairwise (· ≤ ·)) :
    (insertBy (fun x y => decide (x < y)) x l).Pairwise (· ≤ ·) := by
  induction l with
  | nil => exact List.pairwise_singleton _ x
  | cons y l ih =>
    obtain ⟨hy, hl⟩ := List.pairwise_cons.mp h
    unfold insertBy
    split
    next hlt =>
      have hxy : x ≤ y := (of_decide_eq_true hlt).le
      refine List.pairwise_cons.mpr ⟨fun z hz => ?_, h⟩
      rcases List.mem_cons.mp hz with rfl | hz
      · exact hxy
      · exact hxy.trans (hy z hz)
    next hge =>
      have hyx : y ≤ x := by simpa using hge
      refine List.pairwise_cons.mpr ⟨fun z hz => ?_, ih hl⟩
      rcases List.mem_cons.mp ((insertBy_perm _ x l).mem_iff.mp hz) with rfl | hz
      · exact hyx
      · exact hy z hz

theorem sortBy_pairwise_le (l : List Nat) : (sortBy (fun x y => decide (x < y)) l).Pairwise (· ≤ ·) :=
  List.foldlRecOn l _ List.Pairwise.nil fun _ h x _ => insertBy_pairwise_le x h

/-! ### Chains -/

theorem State.chainOf_pairwise_le (s : State) (c idx cell : Nat) : (s.chainOf c idx cell).Pairwise (fun x y => x ≤ y) := by
  unfold State.chainOf
  split
  · exact .nil
  · exact sortBy_pairwise_le _

/-- The members of a chain lie in one region. -/
theorem State.chainOf_region {s : State} {c idx cell k : Nat} (h : k ∈ s.chainOf c idx cell) : k / 64 = cell / 64 := by
  unfold State.chainOf at h
  split at h
  · cases h
  · obtain ⟨g, hg, rfl⟩ := List.mem_map.mp (mem_of_mem_sortBy _ h)
    obtain ⟨-, hcond⟩ := List.mem_filter.mp hg
    simp only [Bool.and_eq_true, beq_iff_eq] at hcond
    exact hcond.2

/-- The member of a chain that has no hop of a kind: its last forwards no chunk, its head waits for none (04 R112). -/
def chainEnd (fwd : Bool) (l : List Nat) : Option Nat := if fwd then l.getLast? else l.head?

/-- A member has left its chain. -/
def State.leaveChain (s : State) (c idx cell : Nat) : State :=
  { s with cs := { s.cs with chainLeft := s.cs.chainLeft ++ [(c, idx, cell)] } }

/-- A hop that is not there times out for nothing. -/
theorem chainHopTimeout_of_no_hop {s : State} {c idx cell : Nat} {fwd : Bool} {f : InFlight} (hf : s.flight? c idx = some f)
    (h : s.chained f = false ∨ chainEnd fwd (s.chainOf c idx cell) = some cell) :
    exec (.chainHopTimeout c idx cell fwd) s = .next s := by
  refine congrArg Host.Outcome.next ?_
  rw [hf]
  refine if_pos ?_
  rcases h with h | h
  · simp [h]
  · simp only [chainEnd] at h
    simp [h]

/-- A member that a hop's deadline takes out of its chain is counted, and one that waited reads what remains (04 R113). -/
theorem chainHopTimeout_of_hop {s : State} {c idx cell : Nat} {fwd : Bool} {f : InFlight} (hf : s.flight? c idx = some f)
    (hchain : s.chained f = true) (hrun : f.phase = .running) (hmem : cell ∈ s.chainOf c idx cell)
    (hleft : (c, idx, cell) ∉ s.cs.chainLeft) (hend : chainEnd fwd (s.chainOf c idx cell) ≠ some cell) :
    exec (.chainHopTimeout c idx cell fwd) s =
      .next (let t := (s.leaveChain c idx cell).bump 0x3160 4 1
        if fwd then t else (t.bump 0x3160 5 (t.fallbackBytes f cell)).drew) := by
  refine congrArg Host.Outcome.next ?_
  rw [hf]
  refine if_neg ?_
  simp only [chainEnd] at hend
  simp [hchain, hrun, hmem, hleft, hend]

/-! ### Reseeds -/

theorem reseed_of_cell {s : State} {cell : Nat} (h : cell < 256) : exec (.reseed cell) s = .next (s.reseedCell cell) :=
  congrArg Host.Outcome.next (if_neg h.not_ge)

theorem State.reseedCell_of_trng {s : State} (cell : Nat) (h : s.sec.trngFail = false) :
    s.reseedCell cell = (s.setCell cell (fun c => { c with deferred := 0 })).bump 0x31B0 4 1 := by
  simp only [State.reseedCell, h, Bool.false_eq_true, if_false]

theorem State.reseedCell_of_trngFail {s : State} (cell : Nat) (h : s.sec.trngFail = true) :
    s.reseedCell cell = ((s.setCell cell (fun c => { c with deferred := c.deferred + 1 })).bump 0x31B0 5 1).failDry := by
  simp only [State.reseedCell, h, if_true]

/-- What draws from a dry generator is at work, and has not failed. -/
theorem State.isSuccess_of_dry {s : State} {f : InFlight} (h : s.dry f = true) : isSuccess f.status = true := by
  simp only [State.dry, Bool.and_eq_true] at h
  obtain ⟨⟨-, hok⟩, -⟩ := h
  exact hok

/-- An instruction that draws from a dry generator ends with 0x0570 (09 R224). -/
theorem State.failDry_flight? {s : State} {c idx : Nat} {f : InFlight} (hf : s.flight? c idx = some f) (hdry : s.dry f = true) :
    (s.failDry.flight? c idx).map (fun g => (g.phase, g.status)) = some (.ended, 0x0570) := by
  have hkey : (c, idx) ∈ (s.cs.flight.filter s.dry).map (fun f => (f.ctx, f.idx)) := by
    obtain ⟨rfl, rfl⟩ := State.flight?_key hf
    exact List.mem_map.mpr ⟨f, List.mem_filter.mpr ⟨List.mem_of_find?_eq_some hf, hdry⟩, rfl⟩
  have hfail : failOutcome 0x0570 (f.phase, f.status) = (.ended, 0x0570) := by
    simp only [failOutcome, State.isSuccess_of_dry hdry, if_true]
    rfl
  calc (s.failDry.flight? c idx).map (fun g => (g.phase, g.status))
      = ((s.flight? c idx).map (fun g => (g.phase, g.status))).map (failOutcome 0x0570) := by
        rw [State.flight?_outcome, State.failDry, State.foldl_failInstr_outcomes, find?_failOutcomes _ hkey, State.flight?_outcome,
          Option.map_map]
        rfl
    _ = some (.ended, 0x0570) := by rw [hf, Option.map_some, Option.map_some, hfail]

/-- Settles O19: the hops that are there and those that are not, the chain's own form, and the failures by their common law. -/
theorem chainHopsAndReseeds : Obligations.ChainHopsAndReseeds := by
  unfold Obligations.ChainHopsAndReseeds
  refine ⟨fun s c idx cell fwd f hf => ⟨fun h => ?_, fun h => ?_, fun h => ?_, fun hc hr hm hl => ⟨fun h => ?_, fun h => ?_⟩, ?_, ?_⟩,
    fun s cell hcell => ⟨fun h => ?_, fun h => ?_⟩, fun s c idx f => State.failDry_flight?⟩
  · exact chainHopTimeout_of_no_hop hf (.inl h)
  · exact chainHopTimeout_of_no_hop hf (.inr h)
  · exact chainHopTimeout_of_no_hop hf (.inr h)
  · exact chainHopTimeout_of_hop (fwd := true) hf hc hr hm hl h
  · exact chainHopTimeout_of_hop (fwd := false) hf hc hr hm hl h
  · exact s.chainOf_pairwise_le c idx cell
  · exact fun k => State.chainOf_region
  · rw [reseed_of_cell hcell, State.reseedCell_of_trng cell h]
  · rw [reseed_of_cell hcell, State.reseedCell_of_trngFail cell h]

end Sys2Proof.Machine
end

section
/-! How a history block's path is decided (06 R173, R174): by its first fetch, or by its deadline. -/

namespace Sys2Proof.Machine
open Sys2Proof

/-! ### What deciding a block leaves -/

/-- Two states with the same instructions in flight, sorting office and memory: they may differ in requests, counts and logs. -/
def State.sameWork (s t : State) : Prop := t.cs.flight = s.cs.flight ∧ t.office = s.office ∧ t.mem = s.mem

theorem State.sameWork.refl (s : State) : s.sameWork s := ⟨rfl, rfl, rfl⟩

theorem State.sameWork.trans {s t u : State} (h : s.sameWork t) (h' : t.sameWork u) : s.sameWork u := by
  obtain ⟨hflight, hoffice, hmem⟩ := h
  obtain ⟨hflight', hoffice', hmem'⟩ := h'
  exact ⟨hflight'.trans hflight, hoffice'.trans hoffice, hmem'.trans hmem⟩

theorem State.dropReqs_sameWork (s : State) (p : Req → Bool) : s.sameWork (s.dropReqs p) := ⟨rfl, rfl, rfl⟩

theorem State.post_sameWork (s : State) (unit event status detail : Nat) : s.sameWork (s.post unit event status detail) :=
  ⟨rfl, rfl, rfl⟩

theorem State.countPath_sameWork (s : State) (deadline : Bool) (path : Nat) : s.sameWork (s.countPath deadline path) := by
  have step := s.countPath_memoryStep deadline path
  exact ⟨by rw [step.cs], step.office, s.countPath_mem deadline path⟩

theorem State.holdBlock_sameWork (s : State) (f : InFlight) (runs : List (Nat × Nat)) (data : Bytes) :
    s.sameWork (s.holdBlock f runs data) := by
  induction runs generalizing s data with
  | nil => exact .refl s
  | cons r l ih => exact .trans ⟨rfl, rfl, rfl⟩ (ih _ _)

/-- A block's path is noted: a miss writes a last-post event, the path is counted, and the instruction holds it (06 R173, R179). -/
def State.notePath (s : State) (f : InFlight) (block path : Nat) : State :=
  ((if path == 1 then s else s.post (s.partUnit f.partition) 8 0 s.anyDetail).countPath true path).setFlight f.ctx f.idx
    (fun g => { g with
      hist := kvSet block path g.hist
      histWait := g.histWait.filter (fun b => b != block) })

/-- In `u` the block of the instruction under a key has its path, and the work of `s` is otherwise unchanged. -/
def State.pathDecided (s u : State) (c idx block path : Nat) : Prop :=
  u.cs.flight = modifyWhere (fun x => x.ctx == c && x.idx == idx)
    (fun g => { g with
      hist := kvSet block path g.hist
      histWait := g.histWait.filter (fun b => b != block) }) s.cs.flight ∧ u.office = s.office ∧ u.mem = s.mem

theorem State.sameWork.notePath {s t : State} (h : s.sameWork t) (f : InFlight) (block path : Nat) :
    s.pathDecided (t.notePath f block path) f.ctx f.idx block path := by
  have noted : t.sameWork (if path == 1 then t else t.post (t.partUnit f.partition) 8 0 t.anyDetail) := by
    split
    · exact .refl t
    · exact t.post_sameWork _ _ _ _
  obtain ⟨hflight, hoffice, hmem⟩ := (h.trans noted).trans (State.countPath_sameWork _ true path)
  exact ⟨congrArg _ hflight, hoffice, hmem⟩

/-- A block on the fail path ends its instruction with 0x0440 (06 R173). -/
theorem State.decideBlock_fail (s : State) (f : InFlight) (block : Nat) :
    s.decideBlock f block 4 = (s.notePath f block 4).failInstr f.ctx f.idx 0x0440 := rfl

theorem State.decideBlock_of_ne_fail (s : State) (f : InFlight) (block : Nat) {path : Nat} (h : path ≠ 4) :
    s.decideBlock f block path = (s.notePath f block path).resumeRun f.ctx f.idx :=
  if_neg (by simpa using h)

/-- A block that misses takes the path that its store resolves: the fail path ends the instruction, and any other lets it go on. -/
theorem State.sameWork.decideBlock_miss {s t : State} (hs : s.sameWork t) (f : InFlight) (block : Nat) (h : Hist) :
    (h.path = 3 → ∃ u : State, t.decideBlock f block h.missPath = u.failInstr f.ctx f.idx 0x0440 ∧
      s.pathDecided u f.ctx f.idx block 4) ∧
    (h.path ≠ 3 → ∃ u : State, t.decideBlock f block h.missPath = u.resumeRun f.ctx f.idx ∧
      s.pathDecided u f.ctx f.idx block (h.path + 1)) := by
  unfold Hist.missPath
  refine ⟨fun hfail => ⟨t.notePath f block 4, ?_, hs.notePath f block 4⟩, fun hgo => ⟨t.notePath f block (h.path + 1), ?_,
    hs.notePath f block (h.path + 1)⟩⟩
  · rw [hfail, State.decideBlock_fail]
  · exact t.decideBlock_of_ne_fail f block (by omega)

/-! ### The fetch and the deadline -/

section
variable {s : State} {c idx block : Nat} {f : InFlight}

/-- What comes for a block that is decided is late: it is counted, and the block is fetched no more (06 R174). -/
theorem historyFetchArrival_of_decided (hf : s.flight? c idx = some f) (hdone : block ∉ f.histWait) (ok : Bool) (data : Bytes) :
    exec (.historyFetchArrival c idx block ok data) s = .next ((s.dropReqs (Req.fetches c idx block)).bump 0x3180 5 1) := by
  refine congrArg Host.Outcome.next ?_
  unfold State.historyArrival
  rw [hf]
  exact if_pos (by simpa using hdone)

theorem historyDeadline_of_decided (hf : s.flight? c idx = some f) (hdone : block ∉ f.histWait) :
    exec (.historyDeadline c idx block) s = .next s := by
  refine congrArg Host.Outcome.next ?_
  unfold State.historyLate
  rw [hf]
  exact if_pos (by simpa using hdone)

/-- A fetch that ends decides a block that waits: with all its bytes they are held and it is on its own path, else it misses. -/
theorem historyFetchArrival_of_waiting {h : Hist} (hf : s.flight? c idx = some f) (hwait : block ∈ f.histWait)
    (hhist : s.historyOf f = some h) (ok : Bool) (data : Bytes) :
    exec (.historyFetchArrival c idx block ok data) s =
      .next (if ok && data.length == total ((h.store.blockRuns block).map (fun r => r.2))
        then ((s.dropReqs (Req.fetches c idx block)).holdBlock f (h.store.blockRuns block) data).decideBlock f block 1
        else (s.dropReqs (Req.fetches c idx block)).decideBlock f block h.missPath) := by
  refine congrArg Host.Outcome.next ?_
  unfold State.historyArrival
  rw [hf]
  refine (if_neg (by simpa using hwait)).trans ?_
  rw [hhist]

/-- The deadline decides a block that waits: it misses (06 R173). -/
theorem historyDeadline_of_waiting {h : Hist} (hf : s.flight? c idx = some f) (hwait : block ∈ f.histWait)
    (hhist : s.historyOf f = some h) :
    exec (.historyDeadline c idx block) s = .next (s.decideBlock f block h.missPath) := by
  refine congrArg Host.Outcome.next ?_
  unfold State.historyLate
  rw [hf]
  refine (if_neg (by simpa using hwait)).trans ?_
  rw [hhist]

/-- A fetch that fails leaves its block to the path that its store resolves. -/
theorem historyFetchArrival_of_failed {h : Hist} (hf : s.flight? c idx = some f) (hwait : block ∈ f.histWait)
    (hhist : s.historyOf f = some h) (data : Bytes) :
    exec (.historyFetchArrival c idx block false data) s =
      .next ((s.dropReqs (Req.fetches c idx block)).decideBlock f block h.missPath) := by
  rw [historyFetchArrival_of_waiting hf hwait hhist, Bool.false_and, if_neg Bool.false_ne_true]

/-- A fetch with all its bytes puts its block on its own path, and the instruction goes on. -/
theorem historyFetchArrival_of_bytes {h : Hist} (hf : s.flight? c idx = some f) (hwait : block ∈ f.histWait)
    (hhist : s.historyOf f = some h) {data : Bytes} (hlen : data.length = total ((h.store.blockRuns block).map (fun r => r.2))) :
    exec (.historyFetchArrival c idx block true data) s =
      .next ((((s.dropReqs (Req.fetches c idx block)).holdBlock f (h.store.blockRuns block) data).notePath f block 1).resumeRun
        f.ctx f.idx) := by
  rw [historyFetchArrival_of_waiting hf hwait hhist, if_pos (by simp [hlen]), State.decideBlock_of_ne_fail _ _ _ (by decide)]

end

/-- Settles O20: a late arrival and a late deadline by their own laws; a block that waits by what its fetch or its deadline decides. -/
theorem historyBlocksDecided : Obligations.HistoryBlocksDecided := by
  unfold Obligations.HistoryBlocksDecided
  intro s c idx block f hf
  refine ⟨fun hdone => ⟨historyFetchArrival_of_decided hf hdone, historyDeadline_of_decided hf hdone⟩, ?_⟩
  rintro h hwait hhist rfl rfl
  have dropped := s.dropReqs_sameWork (Req.fetches f.ctx f.idx block)
  obtain ⟨fetchFails, fetchGoesOn⟩ := dropped.decideBlock_miss f block h
  obtain ⟨deadlineFails, deadlineGoesOn⟩ := (State.sameWork.refl s).decideBlock_miss f block h
  rw [historyDeadline_of_waiting hf hwait hhist]
  simp only [historyFetchArrival_of_failed hf hwait hhist, Host.Outcome.next.injEq]
  exact ⟨fun data hlen => ⟨_, historyFetchArrival_of_bytes hf hwait hhist hlen,
      (dropped.trans (State.holdBlock_sameWork _ f _ data)).notePath f block 1⟩,
    fun hp _ => fetchFails hp, fun hp _ => fetchGoesOn hp, deadlineFails, deadlineGoesOn⟩

end Sys2Proof.Machine
end

section
/-! The canonical form of memory (log entry 7): a step keeps it in the cells of memory and in the memory of the EtherCAT controller,
whichever command it runs. -/

namespace Sys2Proof.Machine
open Sys2Proof

/-- The form of the whole dispatch, in memory: each row's meaning keeps it by that command's own law. -/
theorem exec_cellsOk (i : Instr) (s t : State) (hnext : exec i s = .next t) (hcells : Memory.wf s.mem.cells = true) :
    Memory.wf t.mem.cells = true := by
  cases i with
  | newTail ctx width value => exact execNewTail_cellsOk ctx width value s t hnext hcells
  | resume ctx value => exact execResume_cellsOk ctx value s t hnext hcells
  | mma ctx idx => exact execMma_cellsOk ctx idx s t hnext hcells
  | mmas ctx idx => exact execMmas_cellsOk ctx idx s t hnext hcells
  | conv ctx idx => exact execConv_cellsOk ctx idx s t hnext hcells
  | pool ctx idx => exact execPool_cellsOk ctx idx s t hnext hcells
  | attf ctx idx => exact execAttf_cellsOk ctx idx s t hnext hcells
  | attb ctx idx => exact execAttb_cellsOk ctx idx s t hnext hcells
  | latx ctx idx => exact execLatx_cellsOk ctx idx s t hnext hcells
  | kvap ctx idx => exact execKvap_cellsOk ctx idx s t hnext hcells
  | sfn ctx idx => exact execSfn_cellsOk ctx idx s t hnext hcells
  | norm ctx idx => exact execNorm_cellsOk ctx idx s t hnext hcells
  | smax ctx idx => exact execSmax_cellsOk ctx idx s t hnext hcells
  | samp ctx idx => exact execSamp_cellsOk ctx idx s t hnext hcells
  | rand ctx idx => exact execRand_cellsOk ctx idx s t hnext hcells
  | qnt ctx idx => exact execQnt_cellsOk ctx idx s t hnext hcells
  | route ctx idx => exact execRoute_cellsOk ctx idx s t hnext hcells
  | gath ctx idx => exact execGath_cellsOk ctx idx s t hnext hcells
  | scat ctx idx => exact execScat_cellsOk ctx idx s t hnext hcells
  | copy ctx idx => exact execCopy_cellsOk ctx idx s t hnext hcells
  | coll ctx idx => exact execColl_cellsOk ctx idx s t hnext hcells
  | post ctx idx => exact execPost_cellsOk ctx idx s t hnext hcells
  | wait ctx idx => exact execWait_cellsOk ctx idx s t hnext hcells
  | signal ctx idx => exact execSignal_cellsOk ctx idx s t hnext hcells
  | fence ctx idx => exact execFence_cellsOk ctx idx s t hnext hcells
  | still ctx idx => exact execStill_cellsOk ctx idx s t hnext hcells
  | argmx ctx idx => exact execArgmx_cellsOk ctx idx s t hnext hcells
  | nop ctx idx => exact execNop_cellsOk ctx idx s t hnext hcells
  | codecOpenEncoder ctx idx => exact execCodecOpenEncoder_cellsOk ctx idx s t hnext hcells
  | codecOpenDecoder ctx idx => exact execCodecOpenDecoder_cellsOk ctx idx s t hnext hcells
  | codecEncode ctx idx => exact execCodecEncode_cellsOk ctx idx s t hnext hcells
  | codecDecode ctx idx => exact execCodecDecode_cellsOk ctx idx s t hnext hcells
  | codecClose ctx idx => exact execCodecClose_cellsOk ctx idx s t hnext hcells
  | intkText ctx idx => exact execIntkText_cellsOk ctx idx s t hnext hcells
  | intkImage ctx idx => exact execIntkImage_cellsOk ctx idx s t hnext hcells
  | intkInstall ctx idx => exact execIntkInstall_cellsOk ctx idx s t hnext hcells
  | instructionComplete ctx idx => exact execInstructionComplete_cellsOk ctx idx s t hnext hcells
  | waitSatisfied ctx idx => exact execWaitSatisfied_cellsOk ctx idx s t hnext hcells
  | waitTimeout ctx idx => exact execWaitTimeout_cellsOk ctx idx s t hnext hcells
  | remoteAck req => exact execRemoteAck_cellsOk req s t hnext hcells
  | remoteAckTimeout req => exact execRemoteAckTimeout_cellsOk req s t hnext hcells
  | refuseReceive req code => exact execRefuseReceive_cellsOk req code s t hnext hcells
  | taskTake cell which => exact execTaskTake_cellsOk cell which s t hnext hcells
  | chainHopTimeout ctx idx cell fwd => exact execChainHopTimeout_cellsOk ctx idx cell fwd s t hnext hcells
  | historyFetchArrival ctx idx block ok data => exact execHistoryFetchArrival_cellsOk ctx idx block ok data s t hnext hcells
  | historyDeadline ctx idx block => exact execHistoryDeadline_cellsOk ctx idx block s t hnext hcells
  | reseed cell => exact execReseed_cellsOk cell s t hnext hcells
  | scrub channel corrected bad => exact execScrub_cellsOk channel corrected bad s t hnext hcells
  | wcbAgeRetire channel => exact execWcbAgeRetire_cellsOk channel s t hnext hcells
  | unmappedAccess addr write => exact execUnmappedAccess_cellsOk addr write s t hnext hcells
  | remoteAccess r => exact execRemoteAccess_cellsOk r s t hnext hcells
  | remoteSignal src postmark addr op operand => exact execRemoteSignal_cellsOk src postmark addr op operand s t hnext hcells
  | remoteAlloc src postmark record => exact execRemoteAlloc_cellsOk src postmark record s t hnext hcells
  | writeBackTimeout req => exact execWriteBackTimeout_cellsOk req s t hnext hcells
  | granuleZeroing granule => exact execGranuleZeroing_cellsOk granule s t hnext hcells
  | retrainDue channel => exact execRetrainDue_cellsOk channel s t hnext hcells
  | retrainRequest value => exact execRetrainRequest_cellsOk value s t hnext hcells
  | retrainTimeout channel => exact execRetrainTimeout_cellsOk channel s t hnext hcells
  | submit d => exact execSubmit_cellsOk d s t hnext hcells
  | slotGrant => exact execSlotGrant_cellsOk s t hnext hcells
  | preemptWaitExpiry cell ctx idx task => exact execPreemptWaitExpiry_cellsOk cell ctx idx task s t hnext hcells
  | suspendContext value => exact execSuspendContext_cellsOk value s t hnext hcells
  | suspendPartition value => exact execSuspendPartition_cellsOk value s t hnext hcells
  | resumeContext value => exact execResumeContext_cellsOk value s t hnext hcells
  | saveComplete ctx => exact execSaveComplete_cellsOk ctx s t hnext hcells
  | restore ctx => exact execRestore_cellsOk ctx s t hnext hcells
  | quotaCommit value => exact execQuotaCommit_cellsOk value s t hnext hcells
  | flitTransmit port => exact execFlitTransmit_cellsOk port s t hnext hcells
  | flitReceive port fecOk bytes => exact execFlitReceive_cellsOk port fecOk bytes s t hnext hcells
  | nakReceive port ackSeq => exact execNakReceive_cellsOk port ackSeq s t hnext hcells
  | replayTimeout port => exact execReplayTimeout_cellsOk port s t hnext hcells
  | signalDetect port lanes => exact execSignalDetect_cellsOk port lanes s t hnext hcells
  | bringUpTimeout port => exact execBringUpTimeout_cellsOk port s t hnext hcells
  | helloReceive port hello => exact execHelloReceive_cellsOk port hello s t hnext hcells
  | helloTimer port => exact execHelloTimer_cellsOk port s t hnext hcells
  | helloTimeout port => exact execHelloTimeout_cellsOk port s t hnext hcells
  | laneFault port lane cause => exact execLaneFault_cellsOk port lane cause s t hnext hcells
  | laneRetrainDue port lane => exact execLaneRetrainDue_cellsOk port lane s t hnext hcells
  | laneRetrainRequest value => exact execLaneRetrainRequest_cellsOk value s t hnext hcells
  | laneRetrainDone port => exact execLaneRetrainDone_cellsOk port s t hnext hcells
  | laneRetrainTimeout port => exact execLaneRetrainTimeout_cellsOk port s t hnext hcells
  | nodeCommit value => exact execNodeCommit_cellsOk value s t hnext hcells
  | routeCommit value => exact execRouteCommit_cellsOk value s t hnext hcells
  | routeDefaults value => exact execRouteDefaults_cellsOk value s t hnext hcells
  | routerReset value => exact execRouterReset_cellsOk value s t hnext hcells
  | portEnable value => exact execPortEnable_cellsOk value s t hnext hcells
  | portDownLimit port => exact execPortDownLimit_cellsOk port s t hnext hcells
  | responseReceive req postmark poisoned data => exact execResponseReceive_cellsOk req postmark poisoned data s t hnext hcells
  | chunkReceive group ord src sender sig head residue data =>
    exact execChunkReceive_cellsOk group ord src sender sig head residue data s t hnext hcells
  | collTimeout ctx idx => exact execCollTimeout_cellsOk ctx idx s t hnext hcells
  | postcardReceive group ord axis pos sender sig payload =>
    exact execPostcardReceive_cellsOk group ord axis pos sender sig payload s t hnext hcells
  | ctrlBroadcast initiator payload => exact execCtrlBroadcast_cellsOk initiator payload s t hnext hcells
  | ctrlSnapshot initiator others => exact execCtrlSnapshot_cellsOk initiator others s t hnext hcells
  | ctrlGroupReset initiator group => exact execCtrlGroupReset_cellsOk initiator group s t hnext hcells
  | sampleTake pipe => exact execSampleTake_cellsOk pipe s t hnext hcells
  | sampleComplete pipe => exact execSampleComplete_cellsOk pipe s t hnext hcells
  | sampleBudgetExpiry pipe => exact execSampleBudgetExpiry_cellsOk pipe s t hnext hcells
  | dictReplace slot => exact execDictReplace_cellsOk slot s t hnext hcells
  | frameTake pipe => exact execFrameTake_cellsOk pipe s t hnext hcells
  | frameComplete pipe => exact execFrameComplete_cellsOk pipe s t hnext hcells
  | frameBudgetExpiry pipe => exact execFrameBudgetExpiry_cellsOk pipe s t hnext hcells
  | invalidDatagram d => exact execInvalidDatagram_cellsOk d s t hnext hcells
  | openSession d => exact execOpenSession_cellsOk d s t hnext hcells
  | closeSession d => exact execCloseSession_cellsOk d s t hnext hcells
  | ack d => exact execAck_cellsOk d s t hnext hcells
  | alloc d => exact execAlloc_cellsOk d s t hnext hcells
  | free d => exact execFree_cellsOk d s t hnext hcells
  | write d => exact execWrite_cellsOk d s t hnext hcells
  | read d => exact execRead_cellsOk d s t hnext hcells
  | importJob d => exact execImportJob_cellsOk d s t hnext hcells
  | controlDoorbell d => exact execControlDoorbell_cellsOk d s t hnext hcells
  | controlSuspend d => exact execControlSuspend_cellsOk d s t hnext hcells
  | controlResume d => exact execControlResume_cellsOk d s t hnext hcells
  | controlCancel d => exact execControlCancel_cellsOk d s t hnext hcells
  | controlExport d => exact execControlExport_cellsOk d s t hnext hcells
  | controlRebind d => exact execControlRebind_cellsOk d s t hnext hcells
  | controlQuery d => exact execControlQuery_cellsOk d s t hnext hcells
  | arpRequest port target senderIp senderMac => exact execArpRequest_cellsOk port target senderIp senderMac s t hnext hcells
  | neighbourSolicitation port target senderIp senderMac =>
    exact execNeighbourSolicitation_cellsOk port target senderIp senderMac s t hnext hcells
  | echoRequest port v6 dst src payload => exact execEchoRequest_cellsOk port v6 dst src payload s t hnext hcells
  | retransmitTimeout session => exact execRetransmitTimeout_cellsOk session s t hnext hcells
  | ackTimer session => exact execAckTimer_cellsOk session s t hnext hcells
  | resultRequest r => exact execResultRequest_cellsOk r s t hnext hcells
  | resultHoldExpiry result => exact execResultHoldExpiry_cellsOk result s t hnext hcells
  | haltLimitExpiry ctx => exact execHaltLimitExpiry_cellsOk ctx s t hnext hcells
  | portLinkLoss port => exact execPortLinkLoss_cellsOk port s t hnext hcells
  | ethercatFrame port dgs => exact execEthercatFrame_cellsOk port dgs s t hnext hcells
  | ethercatLinkLoss port => exact execEthercatLinkLoss_cellsOk port s t hnext hcells
  | alStateRequest state => exact execAlStateRequest_cellsOk state s t hnext hcells
  | sdoDownload index sub complete bytes => exact execSdoDownload_cellsOk index sub complete bytes s t hnext hcells
  | sdoUpload index sub complete => exact execSdoUpload_cellsOk index sub complete s t hnext hcells
  | sdoInformation op index sub => exact execSdoInformation_cellsOk op index sub s t hnext hcells
  | sdoTransferTimeout => exact execSdoTransferTimeout_cellsOk s t hnext hcells
  | mailboxUnsupported protocol => exact execMailboxUnsupported_cellsOk protocol s t hnext hcells
  | sm2Watchdog => exact execSm2Watchdog_cellsOk s t hnext hcells
  | pdoRefresh => exact execPdoRefresh_cellsOk s t hnext hcells
  | pdoMapping index entries => exact execPdoMapping_cellsOk index entries s t hnext hcells
  | storeAll value => exact execStoreAll_cellsOk value s t hnext hcells
  | restoreDefaults value => exact execRestoreDefaults_cellsOk value s t hnext hcells
  | layoutCommit value => exact execLayoutCommit_cellsOk value s t hnext hcells
  | dictWrite index sub bytes => exact execDictWrite_cellsOk index sub bytes s t hnext hcells
  | foeWriteFirmware password readBack image => exact execFoeWriteFirmware_cellsOk password readBack image s t hnext hcells
  | foeRead password name => exact execFoeRead_cellsOk password name s t hnext hcells
  | activateFirmware value => exact execActivateFirmware_cellsOk value s t hnext hcells
  | faultClear value => exact execFaultClear_cellsOk value s t hnext hcells
  | fenceUnit value => exact execFenceUnit_cellsOk value s t hnext hcells
  | clearFence value => exact execClearFence_cellsOk value s t hnext hcells
  | resetPartition value => exact execResetPartition_cellsOk value s t hnext hcells
  | resetChip value => exact execResetChip_cellsOk value s t hnext hcells
  | resetChipCullet value => exact execResetChipCullet_cellsOk value s t hnext hcells
  | resetPowerCycle value => exact execResetPowerCycle_cellsOk value s t hnext hcells
  | raiseSecurityVersion value blowOk => exact execRaiseSecurityVersion_cellsOk value blowOk s t hnext hcells
  | challenge => exact execChallenge_cellsOk s t hnext hcells
  | challengeLockoutEnd => exact execChallengeLockoutEnd_cellsOk s t hnext hcells
  | unlockObserve token => exact execUnlockObserve_cellsOk token s t hnext hcells
  | unlockFull token => exact execUnlockFull_cellsOk token s t hnext hcells
  | toField token blowOk => exact execToField_cellsOk token blowOk s t hnext hcells
  | toReturned token blowOk => exact execToReturned_cellsOk token blowOk s t hnext hcells
  | toScrapped token blowOk => exact execToScrapped_cellsOk token blowOk s t hnext hcells
  | revoke token blowOk => exact execRevoke_cellsOk token blowOk s t hnext hcells
  | provision value blowOk => exact execProvision_cellsOk value blowOk s t hnext hcells
  | provisionScrap value blowOk => exact execProvisionScrap_cellsOk value blowOk s t hnext hcells
  | rotateIdentity value => exact execRotateIdentity_cellsOk value s t hnext hcells
  | attestNonce nonce => exact execAttestNonce_cellsOk nonce s t hnext hcells
  | attestReportReady => exact execAttestReportReady_cellsOk s t hnext hcells
  | relock value => exact execRelock_cellsOk value s t hnext hcells
  | debugDataRead => exact execDebugDataRead_cellsOk s t hnext hcells
  | debugDataWrite data => exact execDebugDataWrite_cellsOk data s t hnext hcells
  | powerFull value => exact execPowerFull_cellsOk value s t hnext hcells
  | powerTrim value => exact execPowerTrim_cellsOk value s t hnext hcells
  | powerHold value => exact execPowerHold_cellsOk value s t hnext hcells
  | extest boundary => exact execExtest_cellsOk boundary s t hnext hcells
  | idcode => exact execIdcode_cellsOk s t hnext hcells
  | samplePreload boundary => exact execSamplePreload_cellsOk boundary s t hnext hcells
  | scanread unit => exact execScanread_cellsOk unit s t hnext hcells
  | scanwrite unit data => exact execScanwrite_cellsOk unit data s t hnext hcells
  | corehalt core halt => exact execCorehalt_cellsOk core halt s t hnext hcells
  | bypass code tdi => exact execBypass_cellsOk code tdi s t hnext hcells
  | tapReset => exact execTapReset_cellsOk s t hnext hcells
  | trngHealthFail => exact execTrngHealthFail_cellsOk s t hnext hcells
  | trngResume => exact execTrngResume_cellsOk s t hnext hcells
  | commitTimer => exact execCommitTimer_cellsOk s t hnext hcells
  | allowanceTick => exact execAllowanceTick_cellsOk s t hnext hcells
  | powerFall => exact execPowerFall_cellsOk s t hnext hcells
  | powerReturn => exact execPowerReturn_cellsOk s t hnext hcells
  | powerOn nandOk failedChannels => exact execPowerOn_cellsOk nandOk failedChannels s t hnext hcells
  | nandScrub block finding => exact execNandScrub_cellsOk block finding s t hnext hcells
  | windowRoll => exact execWindowRoll_cellsOk s t hnext hcells
  | fenceWindow region => exact execFenceWindow_cellsOk region s t hnext hcells
  | cellWatchdog cell => exact execCellWatchdog_cellsOk cell s t hnext hcells
  | engineWatchdog unit => exact execEngineWatchdog_cellsOk unit s t hnext hcells
  | partitionWatchdog region => exact execPartitionWatchdog_cellsOk region s t hnext hcells
  | coreWatchdog core => exact execCoreWatchdog_cellsOk core s t hnext hcells
  | uncorrectableCellState cell laneGroup => exact execUncorrectableCellState_cellsOk cell laneGroup s t hnext hcells
  | engineResetOverrun unit => exact execEngineResetOverrun_cellsOk unit s t hnext hcells
  | annealComplete partition => exact execAnnealComplete_cellsOk partition s t hnext hcells
  | annealOverrun partition => exact execAnnealOverrun_cellsOk partition s t hnext hcells
  | chipResetTimeout => exact execChipResetTimeout_cellsOk s t hnext hcells
  | perst => exact execPerst_cellsOk s t hnext hcells
  | perstRelease => exact execPerstRelease_cellsOk s t hnext hcells
  | refclk156Loss => exact execRefclk156Loss_cellsOk s t hnext hcells
  | refclk156Return => exact execRefclk156Return_cellsOk s t hnext hcells
  | refclk100Loss => exact execRefclk100Loss_cellsOk s t hnext hcells
  | thermalWarning die device => exact execThermalWarning_cellsOk die device s t hnext hcells
  | throttleStep die device power => exact execThrottleStep_cellsOk die device power s t hnext hcells
  | thermalTrip die device => exact execThermalTrip_cellsOk die device s t hnext hcells
  | channelTrainingDone channel => exact execChannelTrainingDone_cellsOk channel s t hnext hcells
  | portAligned port lanes => exact execPortAligned_cellsOk port lanes s t hnext hcells
  | dataPortLinkUp port => exact execDataPortLinkUp_cellsOk port s t hnext hcells
  | ethercatLinkUp port => exact execEthercatLinkUp_cellsOk port s t hnext hcells
  | inputVoltageOutOfRange millivolts => exact execInputVoltageOutOfRange_cellsOk millivolts s t hnext hcells

theorem escOk_of_same {s t : State} (hsame : t.ecat.esc = s.ecat.esc) (hesc : Memory.wf s.ecat.esc = true) :
    Memory.wf t.ecat.esc = true := hsame ▸ hesc

/-- The form of the whole dispatch, in the EtherCAT controller: a frame, a refresh of process data and a power-on write its memory and
keep the form; every other row leaves that memory as it is. -/
theorem exec_escOk (i : Instr) (s t : State) (hnext : exec i s = .next t) (hesc : Memory.wf s.ecat.esc = true) :
    Memory.wf t.ecat.esc = true := by
  cases i with
  | newTail ctx width value => exact escOk_of_same (execNewTail_esc ctx width value s t hnext) hesc
  | resume ctx value => exact escOk_of_same (execResume_esc ctx value s t hnext) hesc
  | mma ctx idx => exact escOk_of_same (execMma_esc ctx idx s t hnext) hesc
  | mmas ctx idx => exact escOk_of_same (execMmas_esc ctx idx s t hnext) hesc
  | conv ctx idx => exact escOk_of_same (execConv_esc ctx idx s t hnext) hesc
  | pool ctx idx => exact escOk_of_same (execPool_esc ctx idx s t hnext) hesc
  | attf ctx idx => exact escOk_of_same (execAttf_esc ctx idx s t hnext) hesc
  | attb ctx idx => exact escOk_of_same (execAttb_esc ctx idx s t hnext) hesc
  | latx ctx idx => exact escOk_of_same (execLatx_esc ctx idx s t hnext) hesc
  | kvap ctx idx => exact escOk_of_same (execKvap_esc ctx idx s t hnext) hesc
  | sfn ctx idx => exact escOk_of_same (execSfn_esc ctx idx s t hnext) hesc
  | norm ctx idx => exact escOk_of_same (execNorm_esc ctx idx s t hnext) hesc
  | smax ctx idx => exact escOk_of_same (execSmax_esc ctx idx s t hnext) hesc
  | samp ctx idx => exact escOk_of_same (execSamp_esc ctx idx s t hnext) hesc
  | rand ctx idx => exact escOk_of_same (execRand_esc ctx idx s t hnext) hesc
  | qnt ctx idx => exact escOk_of_same (execQnt_esc ctx idx s t hnext) hesc
  | route ctx idx => exact escOk_of_same (execRoute_esc ctx idx s t hnext) hesc
  | gath ctx idx => exact escOk_of_same (execGath_esc ctx idx s t hnext) hesc
  | scat ctx idx => exact escOk_of_same (execScat_esc ctx idx s t hnext) hesc
  | copy ctx idx => exact escOk_of_same (execCopy_esc ctx idx s t hnext) hesc
  | coll ctx idx => exact escOk_of_same (execColl_esc ctx idx s t hnext) hesc
  | post ctx idx => exact escOk_of_same (execPost_esc ctx idx s t hnext) hesc
  | wait ctx idx => exact escOk_of_same (execWait_esc ctx idx s t hnext) hesc
  | signal ctx idx => exact escOk_of_same (execSignal_esc ctx idx s t hnext) hesc
  | fence ctx idx => exact escOk_of_same (execFence_esc ctx idx s t hnext) hesc
  | still ctx idx => exact escOk_of_same (execStill_esc ctx idx s t hnext) hesc
  | argmx ctx idx => exact escOk_of_same (execArgmx_esc ctx idx s t hnext) hesc
  | nop ctx idx => exact escOk_of_same (execNop_esc ctx idx s t hnext) hesc
  | codecOpenEncoder ctx idx => exact escOk_of_same (execCodecOpenEncoder_esc ctx idx s t hnext) hesc
  | codecOpenDecoder ctx idx => exact escOk_of_same (execCodecOpenDecoder_esc ctx idx s t hnext) hesc
  | codecEncode ctx idx => exact escOk_of_same (execCodecEncode_esc ctx idx s t hnext) hesc
  | codecDecode ctx idx => exact escOk_of_same (execCodecDecode_esc ctx idx s t hnext) hesc
  | codecClose ctx idx => exact escOk_of_same (execCodecClose_esc ctx idx s t hnext) hesc
  | intkText ctx idx => exact escOk_of_same (execIntkText_esc ctx idx s t hnext) hesc
  | intkImage ctx idx => exact escOk_of_same (execIntkImage_esc ctx idx s t hnext) hesc
  | intkInstall ctx idx => exact escOk_of_same (execIntkInstall_esc ctx idx s t hnext) hesc
  | instructionComplete ctx idx => exact escOk_of_same (execInstructionComplete_esc ctx idx s t hnext) hesc
  | waitSatisfied ctx idx => exact escOk_of_same (execWaitSatisfied_esc ctx idx s t hnext) hesc
  | waitTimeout ctx idx => exact escOk_of_same (execWaitTimeout_esc ctx idx s t hnext) hesc
  | remoteAck req => exact escOk_of_same (execRemoteAck_esc req s t hnext) hesc
  | remoteAckTimeout req => exact escOk_of_same (execRemoteAckTimeout_esc req s t hnext) hesc
  | refuseReceive req code => exact escOk_of_same (execRefuseReceive_esc req code s t hnext) hesc
  | taskTake cell which => exact escOk_of_same (execTaskTake_esc cell which s t hnext) hesc
  | chainHopTimeout ctx idx cell fwd => exact escOk_of_same (execChainHopTimeout_esc ctx idx cell fwd s t hnext) hesc
  | historyFetchArrival ctx idx block ok data =>
    exact escOk_of_same (execHistoryFetchArrival_esc ctx idx block ok data s t hnext) hesc
  | historyDeadline ctx idx block => exact escOk_of_same (execHistoryDeadline_esc ctx idx block s t hnext) hesc
  | reseed cell => exact escOk_of_same (execReseed_esc cell s t hnext) hesc
  | scrub channel corrected bad => exact escOk_of_same (execScrub_esc channel corrected bad s t hnext) hesc
  | wcbAgeRetire channel => exact escOk_of_same (execWcbAgeRetire_esc channel s t hnext) hesc
  | unmappedAccess addr write => exact escOk_of_same (execUnmappedAccess_esc addr write s t hnext) hesc
  | remoteAccess r => exact escOk_of_same (execRemoteAccess_esc r s t hnext) hesc
  | remoteSignal src postmark addr op operand =>
    exact escOk_of_same (execRemoteSignal_esc src postmark addr op operand s t hnext) hesc
  | remoteAlloc src postmark record => exact escOk_of_same (execRemoteAlloc_esc src postmark record s t hnext) hesc
  | writeBackTimeout req => exact escOk_of_same (execWriteBackTimeout_esc req s t hnext) hesc
  | granuleZeroing granule => exact escOk_of_same (execGranuleZeroing_esc granule s t hnext) hesc
  | retrainDue channel => exact escOk_of_same (execRetrainDue_esc channel s t hnext) hesc
  | retrainRequest value => exact escOk_of_same (execRetrainRequest_esc value s t hnext) hesc
  | retrainTimeout channel => exact escOk_of_same (execRetrainTimeout_esc channel s t hnext) hesc
  | submit d => exact escOk_of_same (execSubmit_esc d s t hnext) hesc
  | slotGrant => exact escOk_of_same (execSlotGrant_esc s t hnext) hesc
  | preemptWaitExpiry cell ctx idx task => exact escOk_of_same (execPreemptWaitExpiry_esc cell ctx idx task s t hnext) hesc
  | suspendContext value => exact escOk_of_same (execSuspendContext_esc value s t hnext) hesc
  | suspendPartition value => exact escOk_of_same (execSuspendPartition_esc value s t hnext) hesc
  | resumeContext value => exact escOk_of_same (execResumeContext_esc value s t hnext) hesc
  | saveComplete ctx => exact escOk_of_same (execSaveComplete_esc ctx s t hnext) hesc
  | restore ctx => exact escOk_of_same (execRestore_esc ctx s t hnext) hesc
  | quotaCommit value => exact escOk_of_same (execQuotaCommit_esc value s t hnext) hesc
  | flitTransmit port => exact escOk_of_same (execFlitTransmit_esc port s t hnext) hesc
  | flitReceive port fecOk bytes => exact escOk_of_same (execFlitReceive_esc port fecOk bytes s t hnext) hesc
  | nakReceive port ackSeq => exact escOk_of_same (execNakReceive_esc port ackSeq s t hnext) hesc
  | replayTimeout port => exact escOk_of_same (execReplayTimeout_esc port s t hnext) hesc
  | signalDetect port lanes => exact escOk_of_same (execSignalDetect_esc port lanes s t hnext) hesc
  | bringUpTimeout port => exact escOk_of_same (execBringUpTimeout_esc port s t hnext) hesc
  | helloReceive port hello => exact escOk_of_same (execHelloReceive_esc port hello s t hnext) hesc
  | helloTimer port => exact escOk_of_same (execHelloTimer_esc port s t hnext) hesc
  | helloTimeout port => exact escOk_of_same (execHelloTimeout_esc port s t hnext) hesc
  | laneFault port lane cause => exact escOk_of_same (execLaneFault_esc port lane cause s t hnext) hesc
  | laneRetrainDue port lane => exact escOk_of_same (execLaneRetrainDue_esc port lane s t hnext) hesc
  | laneRetrainRequest value => exact escOk_of_same (execLaneRetrainRequest_esc value s t hnext) hesc
  | laneRetrainDone port => exact escOk_of_same (execLaneRetrainDone_esc port s t hnext) hesc
  | laneRetrainTimeout port => exact escOk_of_same (execLaneRetrainTimeout_esc port s t hnext) hesc
  | nodeCommit value => exact escOk_of_same (execNodeCommit_esc value s t hnext) hesc
  | routeCommit value => exact escOk_of_same (execRouteCommit_esc value s t hnext) hesc
  | routeDefaults value => exact escOk_of_same (execRouteDefaults_esc value s t hnext) hesc
  | routerReset value => exact escOk_of_same (execRouterReset_esc value s t hnext) hesc
  | portEnable value => exact escOk_of_same (execPortEnable_esc value s t hnext) hesc
  | portDownLimit port => exact escOk_of_same (execPortDownLimit_esc port s t hnext) hesc
  | responseReceive req postmark poisoned data =>
    exact escOk_of_same (execResponseReceive_esc req postmark poisoned data s t hnext) hesc
  | chunkReceive group ord src sender sig head residue data =>
    exact escOk_of_same (execChunkReceive_esc group ord src sender sig head residue data s t hnext) hesc
  | collTimeout ctx idx => exact escOk_of_same (execCollTimeout_esc ctx idx s t hnext) hesc
  | postcardReceive group ord axis pos sender sig payload =>
    exact escOk_of_same (execPostcardReceive_esc group ord axis pos sender sig payload s t hnext) hesc
  | ctrlBroadcast initiator payload => exact escOk_of_same (execCtrlBroadcast_esc initiator payload s t hnext) hesc
  | ctrlSnapshot initiator others => exact escOk_of_same (execCtrlSnapshot_esc initiator others s t hnext) hesc
  | ctrlGroupReset initiator group => exact escOk_of_same (execCtrlGroupReset_esc initiator group s t hnext) hesc
  | sampleTake pipe => exact escOk_of_same (execSampleTake_esc pipe s t hnext) hesc
  | sampleComplete pipe => exact escOk_of_same (execSampleComplete_esc pipe s t hnext) hesc
  | sampleBudgetExpiry pipe => exact escOk_of_same (execSampleBudgetExpiry_esc pipe s t hnext) hesc
  | dictReplace slot => exact escOk_of_same (execDictReplace_esc slot s t hnext) hesc
  | frameTake pipe => exact escOk_of_same (execFrameTake_esc pipe s t hnext) hesc
  | frameComplete pipe => exact escOk_of_same (execFrameComplete_esc pipe s t hnext) hesc
  | frameBudgetExpiry pipe => exact escOk_of_same (execFrameBudgetExpiry_esc pipe s t hnext) hesc
  | invalidDatagram d => exact escOk_of_same (execInvalidDatagram_esc d s t hnext) hesc
  | openSession d => exact escOk_of_same (execOpenSession_esc d s t hnext) hesc
  | closeSession d => exact escOk_of_same (execCloseSession_esc d s t hnext) hesc
  | ack d => exact escOk_of_same (execAck_esc d s t hnext) hesc
  | alloc d => exact escOk_of_same (execAlloc_esc d s t hnext) hesc
  | free d => exact escOk_of_same (execFree_esc d s t hnext) hesc
  | write d => exact escOk_of_same (execWrite_esc d s t hnext) hesc
  | read d => exact escOk_of_same (execRead_esc d s t hnext) hesc
  | importJob d => exact escOk_of_same (execImportJob_esc d s t hnext) hesc
  | controlDoorbell d => exact escOk_of_same (execControlDoorbell_esc d s t hnext) hesc
  | controlSuspend d => exact escOk_of_same (execControlSuspend_esc d s t hnext) hesc
  | controlResume d => exact escOk_of_same (execControlResume_esc d s t hnext) hesc
  | controlCancel d => exact escOk_of_same (execControlCancel_esc d s t hnext) hesc
  | controlExport d => exact escOk_of_same (execControlExport_esc d s t hnext) hesc
  | controlRebind d => exact escOk_of_same (execControlRebind_esc d s t hnext) hesc
  | controlQuery d => exact escOk_of_same (execControlQuery_esc d s t hnext) hesc
  | arpRequest port target senderIp senderMac =>
    exact escOk_of_same (execArpRequest_esc port target senderIp senderMac s t hnext) hesc
  | neighbourSolicitation port target senderIp senderMac =>
    exact escOk_of_same (execNeighbourSolicitation_esc port target senderIp senderMac s t hnext) hesc
  | echoRequest port v6 dst src payload => exact escOk_of_same (execEchoRequest_esc port v6 dst src payload s t hnext) hesc
  | retransmitTimeout session => exact escOk_of_same (execRetransmitTimeout_esc session s t hnext) hesc
  | ackTimer session => exact escOk_of_same (execAckTimer_esc session s t hnext) hesc
  | resultRequest r => exact escOk_of_same (execResultRequest_esc r s t hnext) hesc
  | resultHoldExpiry result => exact escOk_of_same (execResultHoldExpiry_esc result s t hnext) hesc
  | haltLimitExpiry ctx => exact escOk_of_same (execHaltLimitExpiry_esc ctx s t hnext) hesc
  | portLinkLoss port => exact escOk_of_same (execPortLinkLoss_esc port s t hnext) hesc
  | ethercatFrame port dgs => exact execEthercatFrame_escWf port dgs s t hnext hesc
  | ethercatLinkLoss port => exact escOk_of_same (execEthercatLinkLoss_esc port s t hnext) hesc
  | alStateRequest state => exact escOk_of_same (execAlStateRequest_esc state s t hnext) hesc
  | sdoDownload index sub complete bytes => exact escOk_of_same (execSdoDownload_esc index sub complete bytes s t hnext) hesc
  | sdoUpload index sub complete => exact escOk_of_same (execSdoUpload_esc index sub complete s t hnext) hesc
  | sdoInformation op index sub => exact escOk_of_same (execSdoInformation_esc op index sub s t hnext) hesc
  | sdoTransferTimeout => exact escOk_of_same (execSdoTransferTimeout_esc s t hnext) hesc
  | mailboxUnsupported protocol => exact escOk_of_same (execMailboxUnsupported_esc protocol s t hnext) hesc
  | sm2Watchdog => exact escOk_of_same (execSm2Watchdog_esc s t hnext) hesc
  | pdoRefresh => exact execPdoRefresh_escWf s t hnext hesc
  | pdoMapping index entries => exact escOk_of_same (execPdoMapping_esc index entries s t hnext) hesc
  | storeAll value => exact escOk_of_same (execStoreAll_esc value s t hnext) hesc
  | restoreDefaults value => exact escOk_of_same (execRestoreDefaults_esc value s t hnext) hesc
  | layoutCommit value => exact escOk_of_same (execLayoutCommit_esc value s t hnext) hesc
  | dictWrite index sub bytes => exact escOk_of_same (execDictWrite_esc index sub bytes s t hnext) hesc
  | foeWriteFirmware password readBack image =>
    exact escOk_of_same (execFoeWriteFirmware_esc password readBack image s t hnext) hesc
  | foeRead password name => exact escOk_of_same (execFoeRead_esc password name s t hnext) hesc
  | activateFirmware value => exact escOk_of_same (execActivateFirmware_esc value s t hnext) hesc
  | faultClear value => exact escOk_of_same (execFaultClear_esc value s t hnext) hesc
  | fenceUnit value => exact escOk_of_same (execFenceUnit_esc value s t hnext) hesc
  | clearFence value => exact escOk_of_same (execClearFence_esc value s t hnext) hesc
  | resetPartition value => exact escOk_of_same (execResetPartition_esc value s t hnext) hesc
  | resetChip value => exact escOk_of_same (execResetChip_esc value s t hnext) hesc
  | resetChipCullet value => exact escOk_of_same (execResetChipCullet_esc value s t hnext) hesc
  | resetPowerCycle value => exact escOk_of_same (execResetPowerCycle_esc value s t hnext) hesc
  | raiseSecurityVersion value blowOk => exact escOk_of_same (execRaiseSecurityVersion_esc value blowOk s t hnext) hesc
  | challenge => exact escOk_of_same (execChallenge_esc s t hnext) hesc
  | challengeLockoutEnd => exact escOk_of_same (execChallengeLockoutEnd_esc s t hnext) hesc
  | unlockObserve token => exact escOk_of_same (execUnlockObserve_esc token s t hnext) hesc
  | unlockFull token => exact escOk_of_same (execUnlockFull_esc token s t hnext) hesc
  | toField token blowOk => exact escOk_of_same (execToField_esc token blowOk s t hnext) hesc
  | toReturned token blowOk => exact escOk_of_same (execToReturned_esc token blowOk s t hnext) hesc
  | toScrapped token blowOk => exact escOk_of_same (execToScrapped_esc token blowOk s t hnext) hesc
  | revoke token blowOk => exact escOk_of_same (execRevoke_esc token blowOk s t hnext) hesc
  | provision value blowOk => exact escOk_of_same (execProvision_esc value blowOk s t hnext) hesc
  | provisionScrap value blowOk => exact escOk_of_same (execProvisionScrap_esc value blowOk s t hnext) hesc
  | rotateIdentity value => exact escOk_of_same (execRotateIdentity_esc value s t hnext) hesc
  | attestNonce nonce => exact escOk_of_same (execAttestNonce_esc nonce s t hnext) hesc
  | attestReportReady => exact escOk_of_same (execAttestReportReady_esc s t hnext) hesc
  | relock value => exact escOk_of_same (execRelock_esc value s t hnext) hesc
  | debugDataRead => exact escOk_of_same (execDebugDataRead_esc s t hnext) hesc
  | debugDataWrite data => exact escOk_of_same (execDebugDataWrite_esc data s t hnext) hesc
  | powerFull value => exact escOk_of_same (execPowerFull_esc value s t hnext) hesc
  | powerTrim value => exact escOk_of_same (execPowerTrim_esc value s t hnext) hesc
  | powerHold value => exact escOk_of_same (execPowerHold_esc value s t hnext) hesc
  | extest boundary => exact escOk_of_same (execExtest_esc boundary s t hnext) hesc
  | idcode => exact escOk_of_same (execIdcode_esc s t hnext) hesc
  | samplePreload boundary => exact escOk_of_same (execSamplePreload_esc boundary s t hnext) hesc
  | scanread unit => exact escOk_of_same (execScanread_esc unit s t hnext) hesc
  | scanwrite unit data => exact escOk_of_same (execScanwrite_esc unit data s t hnext) hesc
  | corehalt core halt => exact escOk_of_same (execCorehalt_esc core halt s t hnext) hesc
  | bypass code tdi => exact escOk_of_same (execBypass_esc code tdi s t hnext) hesc
  | tapReset => exact escOk_of_same (execTapReset_esc s t hnext) hesc
  | trngHealthFail => exact escOk_of_same (execTrngHealthFail_esc s t hnext) hesc
  | trngResume => exact escOk_of_same (execTrngResume_esc s t hnext) hesc
  | commitTimer => exact escOk_of_same (execCommitTimer_esc s t hnext) hesc
  | allowanceTick => exact escOk_of_same (execAllowanceTick_esc s t hnext) hesc
  | powerFall => exact escOk_of_same (execPowerFall_esc s t hnext) hesc
  | powerReturn => exact escOk_of_same (execPowerReturn_esc s t hnext) hesc
  | powerOn nandOk failedChannels => exact execPowerOn_escWf nandOk failedChannels s t hnext hesc
  | nandScrub block finding => exact escOk_of_same (execNandScrub_esc block finding s t hnext) hesc
  | windowRoll => exact escOk_of_same (execWindowRoll_esc s t hnext) hesc
  | fenceWindow region => exact escOk_of_same (execFenceWindow_esc region s t hnext) hesc
  | cellWatchdog cell => exact escOk_of_same (execCellWatchdog_esc cell s t hnext) hesc
  | engineWatchdog unit => exact escOk_of_same (execEngineWatchdog_esc unit s t hnext) hesc
  | partitionWatchdog region => exact escOk_of_same (execPartitionWatchdog_esc region s t hnext) hesc
  | coreWatchdog core => exact escOk_of_same (execCoreWatchdog_esc core s t hnext) hesc
  | uncorrectableCellState cell laneGroup => exact escOk_of_same (execUncorrectableCellState_esc cell laneGroup s t hnext) hesc
  | engineResetOverrun unit => exact escOk_of_same (execEngineResetOverrun_esc unit s t hnext) hesc
  | annealComplete partition => exact escOk_of_same (execAnnealComplete_esc partition s t hnext) hesc
  | annealOverrun partition => exact escOk_of_same (execAnnealOverrun_esc partition s t hnext) hesc
  | chipResetTimeout => exact escOk_of_same (execChipResetTimeout_esc s t hnext) hesc
  | perst => exact escOk_of_same (execPerst_esc s t hnext) hesc
  | perstRelease => exact escOk_of_same (execPerstRelease_esc s t hnext) hesc
  | refclk156Loss => exact escOk_of_same (execRefclk156Loss_esc s t hnext) hesc
  | refclk156Return => exact escOk_of_same (execRefclk156Return_esc s t hnext) hesc
  | refclk100Loss => exact escOk_of_same (execRefclk100Loss_esc s t hnext) hesc
  | thermalWarning die device => exact escOk_of_same (execThermalWarning_esc die device s t hnext) hesc
  | throttleStep die device power => exact escOk_of_same (execThrottleStep_esc die device power s t hnext) hesc
  | thermalTrip die device => exact escOk_of_same (execThermalTrip_esc die device s t hnext) hesc
  | channelTrainingDone channel => exact escOk_of_same (execChannelTrainingDone_esc channel s t hnext) hesc
  | portAligned port lanes => exact escOk_of_same (execPortAligned_esc port lanes s t hnext) hesc
  | dataPortLinkUp port => exact escOk_of_same (execDataPortLinkUp_esc port s t hnext) hesc
  | ethercatLinkUp port => exact escOk_of_same (execEthercatLinkUp_esc port s t hnext) hesc
  | inputVoltageOutOfRange millivolts => exact escOk_of_same (execInputVoltageOutOfRange_esc millivolts s t hnext) hesc

theorem State.memOk_iff (s : State) : s.memOk = true ↔ Memory.wf s.mem.cells = true ∧ Memory.wf s.ecat.esc = true :=
  Bool.and_eq_true_iff

theorem exec_memOk (i : Instr) (s t : State) (hs : s.memOk = true) (hnext : exec i s = .next t) : t.memOk = true := by
  obtain ⟨hcells, hesc⟩ := s.memOk_iff.mp hs
  exact t.memOk_iff.mpr ⟨exec_cellsOk i s t hnext hcells, exec_escOk i s t hnext hesc⟩

/-- Settles O7: an empty queue changes nothing, and the queue is no part of the form, so the front command keeps it. -/
theorem stepKeepsMemoryForm : Obligations.StepKeepsMemoryForm := by
  unfold Obligations.StepKeepsMemoryForm
  intro s t hs hstep
  cases hq : s.pending with
  | nil =>
    rw [step_of_pending_nil s hq] at hstep
    cases hstep
    exact hs
  | cons c rest =>
    rw [step_of_pending_cons s c rest hq] at hstep
    exact exec_memOk c { s with pending := rest } t hs hstep

end Sys2Proof.Machine
end

section
/-! A master's write of local memory (10 R245, R251, R252): what it leaves of memory, and what is read back while no channel trains. -/

namespace Sys2Proof.Machine
open Sys2Proof

/-! ### What a byte read depends on -/

/-- The windows are those of the channels. -/
theorem MemSys.window_congr {m m' : MemSys} (hchans : m'.chans = m.chans) (a : Nat) : m'.window a = m.window a := by
  have hbytes : m'.windowBytes = m.windowBytes := by
    simp only [MemSys.windowBytes, MemSys.activeChans, hchans]
  unfold MemSys.window
  rw [hbytes]

/-- A byte is that of a detour, of a held write or of the cells. -/
theorem MemSys.byte_congr {m m' : MemSys} (hcells : m'.cells = m.cells) (hchans : m'.chans = m.chans) (a : Nat) :
    m'.byte a = m.byte a := by
  unfold MemSys.byte
  rw [hcells, hchans]

theorem State.readByte_congr {s t : State} (hcells : t.mem.cells = s.mem.cells) (hchans : t.mem.chans = s.mem.chans) (a : Nat) :
    t.readByte a = s.readByte a := by
  rw [State.readByte, State.readByte, MemSys.window_congr hchans, MemSys.byte_congr hcells hchans]

theorem windowReadable_of_writable {w : Nat} (h : windowWritable w = true) : windowReadable w = true := by
  simp only [windowWritable, windowReadable, Bool.or_eq_true, Bool.and_eq_true, decide_eq_true_eq, beq_iff_eq] at h ⊢
  exact h.imp_right And.left

/-- No channel trains, and none has bytes in its detour or held back. -/
def MemSys.quiet (m : MemSys) : Prop := ∀ c ∈ m.chans, c.session = 0 ∧ c.detour = [] ∧ c.heldWrites = []

theorem MemSys.quiet.byte {m : MemSys} (h : m.quiet) (a : Nat) : m.byte a = memGet a m.cells := by
  have hnone : m.chans.findSome? (fun c => layGet a (c.detour ++ c.heldWrites)) = none := by
    refine List.findSome?_eq_none_iff.mpr fun c hc => ?_
    obtain ⟨-, hdetour, hheld⟩ := h c hc
    rw [hdetour, hheld]
    rfl
  rw [MemSys.byte, hnone]

theorem State.trainingOwner_of_quiet {s : State} (h : s.mem.quiet) (a : Nat) : s.trainingOwner a = none := by
  have hnone : s.mem.chans.find? (fun c => c.session != 0 && c.id == s.chanOf a) = none := by
    refine List.find?_eq_none.mpr fun c hc => ?_
    simp [(h c hc).1]
  rw [State.trainingOwner, hnone]
  split <;> rfl

/-! ### Bytes put in place -/

theorem State.storeByte_of_quiet {s : State} (h : s.mem.quiet) (a : Nat) (v : Byte) :
    s.storeByte a v = if windowWritable (s.mem.window a) = true
      then { s with mem := { s.mem with cells := memPut a v s.mem.cells } } else s := by
  rw [State.storeByte, State.trainingOwner_of_quiet h]

/-- While no channel trains, bytes stored change the cells alone. -/
theorem State.storeBytes_mem_of_quiet {s : State} (h : s.mem.quiet) (a : Nat) (bs : Bytes) :
    ∃ cells, (s.storeBytes a bs).mem = { s.mem with cells := cells } := by
  induction bs generalizing s a with
  | nil => exact ⟨_, rfl⟩
  | cons b bs ih =>
    rw [State.storeBytes, State.storeByte_of_quiet h]
    split
    · exact ih (s := { s with mem := { s.mem with cells := memPut a b s.mem.cells } }) h (a + 1)
    · exact ih h (a + 1)

/-- The cell of every address after a run of bytes is stored: its own byte where it lies in the run and can be written. -/
theorem State.memGet_storeBytes {s : State} (h : s.mem.quiet) (hwf : Memory.wf s.mem.cells = true) (a : Nat) (bs : Bytes) (x : Nat) :
    memGet x (s.storeBytes a bs).mem.cells =
      if a ≤ x ∧ x < a + bs.length ∧ windowWritable (s.mem.window x) = true then bs.getD (x - a) 0 else memGet x s.mem.cells := by
  induction bs generalizing s a with
  | nil =>
    rw [if_neg (by simp only [List.length_nil]; omega)]
    rfl
  | cons b bs ih =>
    have hquiet : (s.storeByte a b).mem.quiet := by
      rw [State.storeByte_of_quiet h]
      split <;> exact h
    have hwindow : (s.storeByte a b).mem.window x = s.mem.window x := by
      rw [State.storeByte_of_quiet h]
      split <;> rfl
    have first : memGet x (s.storeByte a b).mem.cells =
        if x = a ∧ windowWritable (s.mem.window x) = true then b else memGet x s.mem.cells := by
      rw [State.storeByte_of_quiet h]
      by_cases hx : x = a
      · subst hx
        split
        · simp [memGet_memPut_self _ _ _ hwf, *]
        · simp [*]
      · rw [if_neg (c := x = a ∧ _) fun hin => hx hin.1]
        split
        · exact memGet_memPut_other a x b s.mem.cells hx
        · rfl
    rw [State.storeBytes, ih hquiet (State.storeByte_cellsOk s a b hwf), hwindow, first, List.length_cons]
    by_cases hx : x = a
    · subst hx
      simp
    · by_cases hin : a ≤ x ∧ x < a + (bs.length + 1) ∧ windowWritable (s.mem.window x) = true
      · obtain ⟨hlo, hhi, hw⟩ := hin
        rw [if_pos ⟨by omega, by omega, hw⟩, if_pos ⟨hlo, hhi, hw⟩, show x - a = (x - (a + 1)) + 1 by omega, List.getD_cons_succ]
      · rw [if_neg fun ⟨hlo, hhi, hw⟩ => hin ⟨by omega, by omega, hw⟩, if_neg fun h => hx h.1, if_neg hin]

/-! ### What write combining adds -/

/-- Memory after writes are combined: nothing but the waiting entries and the uncorrectable units differs (10 R251). -/
def MemSys.combined (m m' : MemSys) : Prop := ∃ wcb poison, m' = { m with wcb := wcb, poison := poison }

theorem MemSys.combined.refl (m : MemSys) : m.combined m := ⟨_, _, rfl⟩

theorem MemSys.combined.trans {m m' m'' : MemSys} (h : m.combined m') (h' : m'.combined m'') : m.combined m'' := by
  obtain ⟨_, _, rfl⟩ := h
  obtain ⟨_, _, rfl⟩ := h'
  exact ⟨_, _, rfl⟩

theorem MemSys.combined.cells {m m' : MemSys} (h : m.combined m') : m'.cells = m.cells := by
  obtain ⟨_, _, rfl⟩ := h
  rfl

theorem MemSys.combined.chans {m m' : MemSys} (h : m.combined m') : m'.chans = m.chans := by
  obtain ⟨_, _, rfl⟩ := h
  rfl

theorem State.mergeLine_combined (s : State) (line : Nat) (addrs : List Nat) : s.mem.combined (s.mergeLine line addrs).mem := by
  unfold State.mergeLine
  dsimp only
  split
  · exact ⟨_, _, rfl⟩
  · split
    · split
      · exact ⟨_, _, rfl⟩
      · split <;> exact ⟨_, _, rfl⟩
    · split
      · exact ⟨_, _, rfl⟩
      · split
        · exact ⟨_, _, rfl⟩
        · split <;> exact ⟨_, _, rfl⟩

theorem State.mergeLines_combined (s : State) (a n fuel : Nat) : s.mem.combined (s.mergeLines a n fuel).mem := by
  induction fuel generalizing s a n with
  | zero => exact .refl _
  | succ fuel ih =>
    unfold State.mergeLines
    split
    · exact .refl _
    · exact (s.mergeLine_combined _ _).trans (ih _ _ _)

/-- A write is its bytes put in place, and then combined with what waits. -/
theorem State.writeBytes_combined (s : State) (a : Nat) (bs : Bytes) : (s.storeBytes a bs).mem.combined (s.writeBytes a bs).mem := by
  have spoiled : ((s.spoil a bs.length).storeBytes a bs).mem = (s.storeBytes a bs).mem :=
    State.storeBytes_mem_congr (s := s.spoil a bs.length) (t := s) rfl rfl a bs
  rw [← spoiled]
  unfold State.writeBytes
  dsimp only
  split
  · exact State.mergeLines_combined _ _ _ _
  · exact ⟨_, _, rfl⟩

/-- Settles O21: what a write combines leaves cells and channels alone, so a byte is read back from the cell that it was stored in. -/
theorem writtenBytesReadBack : Obligations.WrittenBytesReadBack := by
  unfold Obligations.WrittenBytesReadBack
  intro s a bs hwf (hquiet : s.mem.quiet) x
  have written := s.writeBytes_combined a bs
  obtain ⟨cells, hmem⟩ := State.storeBytes_mem_of_quiet hquiet a bs
  have stored := State.memGet_storeBytes hquiet hwf a bs x
  rw [State.readByte_congr written.cells written.chans, State.readByte, State.readByte]
  rw [hmem] at stored ⊢
  have hquiet' : ({ s.mem with cells := cells } : MemSys).quiet := hquiet
  have hwindow : ({ s.mem with cells := cells } : MemSys).window x = s.mem.window x := rfl
  rw [hwindow, hquiet'.byte, hquiet.byte, stored]
  by_cases hin : a ≤ x ∧ x < a + bs.length ∧ windowWritable (s.mem.window x) = true
  · rw [if_pos hin, if_pos hin, if_pos (windowReadable_of_writable hin.2.2)]
  · rw [if_neg hin, if_neg hin]

end Sys2Proof.Machine
end

section
/-! The rows that memory itself has (10 R242, R245, R251, R255): scrubbing, write combining, unmapped accesses and zeroing, and what they
leave of the bytes. -/

namespace Sys2Proof.Machine
open Sys2Proof

/-! ### Trouble that is counted, logged and announced -/

/-- Nothing but the counters, the store, the fault records, the mailbox and the free values drawn has changed. -/
def State.noticeStep (s t : State) : Prop := ∃ epoch tele ecat store faults,
  t = { s with epoch := epoch, tele := tele, ecat := ecat, store := store, faults := faults }

theorem State.noticeStep.refl (s : State) : s.noticeStep s := ⟨_, _, _, _, _, rfl⟩

theorem State.noticeStep.trans {s t u : State} (h : s.noticeStep t) (h' : t.noticeStep u) : s.noticeStep u := by
  obtain ⟨_, _, _, _, _, rfl⟩ := h
  obtain ⟨_, _, _, _, _, rfl⟩ := h'
  exact ⟨_, _, _, _, _, rfl⟩

theorem State.noticeStep.mem {s t : State} (h : s.noticeStep t) : t.mem = s.mem := by
  obtain ⟨_, _, _, _, _, rfl⟩ := h
  rfl

theorem State.logStep.notice {s t : State} (h : s.logStep t) : s.noticeStep t := by
  obtain ⟨_, _, _, _, rfl⟩ := h
  exact ⟨_, _, _, _, _, rfl⟩

theorem State.flushEmergency_noticeStep (s : State) : s.noticeStep s.flushEmergency := by
  unfold State.flushEmergency
  split
  · split
    · exact .refl s
    · exact ⟨_, _, _, _, _, rfl⟩
  · exact .refl s

theorem State.emergency_noticeStep (s : State) (bitNo status : Nat) : s.noticeStep (s.emergency bitNo status) := by
  unfold State.emergency
  split
  · dsimp only
    split
    · exact State.noticeStep.trans ⟨_, _, _, _, _, rfl⟩ (State.flushEmergency_noticeStep _)
    · exact ⟨_, _, _, _, _, rfl⟩
  · exact .refl s

theorem State.raise_noticeStep (s : State) (bitNo status : Nat) : s.noticeStep (s.raise bitNo status) := by
  unfold State.raise
  split
  · exact .refl s
  · exact State.noticeStep.trans ⟨_, _, _, _, _, rfl⟩ (State.emergency_noticeStep _ _ _)

theorem foldl_noticeStep {α : Type} {f : State → α → State} (hf : ∀ (s : State) (a : α), s.noticeStep (f s a)) (l : List α)
    (s : State) : s.noticeStep (l.foldl f s) :=
  foldl_related State.noticeStep.refl State.noticeStep.trans hf l s

theorem State.watch_noticeStep (s : State) (status : Nat) : s.noticeStep (s.watch status) := by
  refine State.noticeStep.trans ⟨_, _, _, _, _, rfl⟩ (foldl_noticeStep (fun s i => ?_) _ _)
  split
  · exact s.emergency_noticeStep _ _
  · exact .refl s

theorem State.putFence_noticeStep (s : State) (unit state origin cause : Nat) : s.noticeStep (s.putFence unit state origin cause) := by
  unfold State.putFence
  dsimp only
  refine State.noticeStep.trans (State.logStep.notice ?_) (State.watch_noticeStep _ _)
  refine State.logStep.trans ?_ (State.log_logStep _ _ _ _ _ _)
  refine State.logStep.trans ?_ (State.post_logStep _ _ _ _ _)
  refine State.logStep.trans ?_ (State.forceCommit_logStep _)
  exact State.logStep.trans ⟨_, _, _, _, rfl⟩ (State.journal_logStep _ _ _)

/-- Marking a channel changes memory in that channel's record alone. -/
theorem State.markChannel_mem (s : State) (n origin cause : Nat) :
    ∃ chans, (s.markChannel n origin cause).mem = { s.mem with chans := chans } := by
  unfold State.markChannel
  split
  · exact ⟨_, rfl⟩
  · rw [(State.putFence_noticeStep _ _ _ _ _).mem]
    exact ⟨_, rfl⟩

/-- Counting uncorrectable reads changes memory in the channel's record alone. -/
theorem State.badReads_mem (s : State) (n k : Nat) : ∃ chans, (s.badReads n k).mem = { s.mem with chans := chans } := by
  unfold State.badReads
  dsimp only
  split
  · obtain ⟨chans, h⟩ := State.markChannel_mem
      (s.setChan n (fun c => { c with uncorrectableReads := c.uncorrectableReads + k })) n 0 0x0302
    exact ⟨chans, h⟩
  · exact ⟨_, rfl⟩

/-! ### Scrubbing (10 R242) -/

theorem mem_insertNat {x y : Nat} {l : List Nat} : x ∈ insertNat y l ↔ x = y ∨ x ∈ l := by
  induction l with
  | nil => simp [insertNat]
  | cons z l ih =>
    unfold insertNat
    split
    · simp
    · split
      next h =>
        have : y = z := by simpa using h
        simp [this]
      · simp only [List.mem_cons, ih]
        tauto

theorem mem_foldl_insertNat {x : Nat} (us l : List Nat) : x ∈ us.foldl (fun l u => insertNat u l) l ↔ x ∈ us ∨ x ∈ l := by
  induction us generalizing l with
  | nil => simp
  | cons u us ih =>
    rw [List.foldl_cons, ih, mem_insertNat, List.mem_cons]
    tauto

/-- The units of a channel among those that a scrub finds uncorrectable. -/
def State.scrubUnits (s : State) (channel : Nat) (bad : List Nat) : List Nat :=
  (bad.filter (fun u => s.mem.window (16 * u) == 1 && s.chanOf (16 * u) == channel)).eraseDups

theorem State.mem_scrubUnits {s : State} {channel : Nat} {bad : List Nat} {u : Nat} :
    u ∈ s.scrubUnits channel bad ↔ u ∈ bad ∧ s.mem.window (16 * u) = 1 ∧ s.chanOf (16 * u) = channel := by
  simp [State.scrubUnits, List.mem_filter]

/-- The corrected codewords of a scrub, counted and logged. -/
def State.scrubCorrected (s : State) (channel corrected : Nat) : State :=
  let s := (s.bump 0x31C0 3 corrected).bump 0x31C1 (channel + 1) corrected
  if corrected == 0 then s else s.log (unitChan channel) 0 0 (s.partOfUnit (unitChan channel)) corrected

theorem State.scrubCorrected_logStep (s : State) (channel corrected : Nat) : s.logStep (s.scrubCorrected channel corrected) := by
  have counted : s.logStep ((s.bump 0x31C0 3 corrected).bump 0x31C1 (channel + 1) corrected) := ⟨_, _, _, _, rfl⟩
  unfold State.scrubCorrected
  dsimp only
  split
  · exact counted
  · exact counted.trans (State.log_logStep _ _ _ _ _ _)

/-- Units found uncorrectable: they join those of memory, are counted, raise FaultSummary bit 6, and are logged. -/
def State.scrubFound (s : State) (channel : Nat) (us : List Nat) : State :=
  let s : State := { s with mem := { s.mem with poison := us.foldl (fun l u => insertNat u l) s.mem.poison } }
  let s := ((s.bump 0x31C0 4 us.length).raise 6 0x0302).badReads channel us.length
  us.foldl (fun s u => s.log (unitChan channel) 0x0302 1 (s.partOfUnit (unitChan channel)) (16 * u)) s

theorem State.scrubFound_mem (s : State) (channel : Nat) (us : List Nat) : ∃ chans,
    (s.scrubFound channel us).mem = { s.mem with poison := us.foldl (fun l u => insertNat u l) s.mem.poison, chans := chans } := by
  unfold State.scrubFound
  dsimp only
  rw [(foldl_noticeStep (fun s u => (s.log_logStep _ _ _ _ _).notice) us _).mem]
  obtain ⟨chans, h⟩ := State.badReads_mem ((State.bump { s with mem := { s.mem with
    poison := us.foldl (fun l u => insertNat u l) s.mem.poison } } 0x31C0 4 us.length).raise 6 0x0302) channel us.length
  rw [h, (State.raise_noticeStep _ _ _).mem]
  exact ⟨chans, rfl⟩

theorem State.logStep.scrubUnits {s t : State} (h : s.logStep t) (channel : Nat) (bad : List Nat) :
    t.scrubUnits channel bad = s.scrubUnits channel bad := by
  obtain ⟨_, _, _, _, rfl⟩ := h
  rfl

theorem exec_scrub {s : State} {channel : Nat} (hc : channel < 24) (ha : (s.chan channel).active = true) (hp : s.board.power ≠ 2)
    (corrected : Nat) (bad : List Nat) :
    exec (.scrub channel corrected bad) s = .next (if s.scrubUnits channel bad = [] then s.scrubCorrected channel corrected
      else (s.scrubCorrected channel corrected).scrubFound channel (s.scrubUnits channel bad)) := by
  refine congrArg Host.Outcome.next ?_
  rw [if_neg (by simpa [ha] using ⟨hc, hp⟩), ← (s.scrubCorrected_logStep channel corrected).scrubUnits channel bad]
  simp only [← beq_iff_eq (b := ([] : List Nat))]
  rfl

/-- What a scrub leaves of memory: every byte, and the units found uncorrectable beside those that were. -/
theorem exec_scrub_mem {s : State} {channel : Nat} (hc : channel < 24) (ha : (s.chan channel).active = true)
    (hp : s.board.power ≠ 2) (corrected : Nat) (bad : List Nat) : ∃ t chans, exec (.scrub channel corrected bad) s = .next t ∧
      t.mem = { s.mem with
        poison := (s.scrubUnits channel bad).foldl (fun l u => insertNat u l) s.mem.poison
        chans := chans } := by
  have corr := (s.scrubCorrected_logStep channel corrected).mem
  by_cases hnone : s.scrubUnits channel bad = []
  · rw [exec_scrub hc ha hp, if_pos hnone, hnone]
    exact ⟨_, _, rfl, corr⟩
  · rw [exec_scrub hc ha hp, if_neg hnone]
    obtain ⟨chans, hmem⟩ := (s.scrubCorrected channel corrected).scrubFound_mem channel (s.scrubUnits channel bad)
    exact ⟨_, chans, rfl, by rw [hmem, corr]⟩

/-- A scrub keeps every byte and every uncorrectable unit, and one that finds nothing is counted alone. -/
theorem scrub_keeps_bytes {s : State} {channel : Nat} (hc : channel < 24) (ha : (s.chan channel).active = true)
    (hp : s.board.power ≠ 2) (corrected : Nat) (bad : List Nat) :
    ∃ t, exec (.scrub channel corrected bad) s = .next t ∧ t.mem.cells = s.mem.cells ∧
      (∀ u ∈ s.mem.poison, u ∈ t.mem.poison) ∧
      (∀ u ∈ bad, s.mem.window (16 * u) = 1 → s.chanOf (16 * u) = channel → u ∈ t.mem.poison) ∧
      (corrected = 0 → (∀ u ∈ bad, s.chanOf (16 * u) ≠ channel) → t = (s.bump 0x31C0 3 0).bump 0x31C1 (channel + 1) 0) := by
  obtain ⟨t, chans, hexec, hmem⟩ := exec_scrub_mem hc ha hp corrected bad
  refine ⟨t, hexec, by rw [hmem], fun u hu => ?_, fun u hu hw hch => ?_, fun hcor hother => ?_⟩
  · rw [hmem]
    exact (mem_foldl_insertNat _ _).mpr (.inr hu)
  · rw [hmem]
    exact (mem_foldl_insertNat _ _).mpr (.inl (State.mem_scrubUnits.mpr ⟨hu, hw, hch⟩))
  · have hnone : s.scrubUnits channel bad = [] :=
      List.eq_nil_iff_forall_not_mem.mpr fun u hu => hother u (State.mem_scrubUnits.mp hu).1 (State.mem_scrubUnits.mp hu).2.2
    rw [exec_scrub hc ha hp, if_pos hnone, hcor] at hexec
    cases hexec
    rfl

/-! ### Write combining and unmapped accesses (10 R245, R251) -/

theorem State.retireWcb_mem (s : State) (e : Wcb) :
    (s.retireWcb e).mem = { s.mem with wcb := s.mem.wcb.filter (fun x => x.line != e.line) } := rfl

theorem State.retireWcb_count (s : State) (e : Wcb) : (s.retireWcb e).count 0x31C0 8 = (s.count 0x31C0 8 + 1) % 2 ^ 64 := by
  unfold State.retireWcb
  dsimp only
  rw [State.count_bump_other _ _ _ _ _ _ (by decide), State.count_bump_self]
  rfl

theorem exec_wcbAgeRetire {s : State} {channel : Nat} {e : Wcb} (h : s.mem.wcb.find? (fun e => e.channel == channel) = some e) :
    exec (.wcbAgeRetire channel) s = .next (s.retireWcb e) := by
  refine congrArg Host.Outcome.next ?_
  rw [h]

/-! ### Zeroing (10 R255) -/

/-- The cells of a list that lie outside a run of addresses. -/
def outsideRun (a n : Nat) (l : List Host.Cell) : List Host.Cell := l.filter (fun c => decide (c.1 < a) || decide (a + n ≤ c.1))

theorem layGet_outsideRun (a n x : Nat) (l : List Host.Cell) :
    layGet x (outsideRun a n l) = if a ≤ x ∧ x < a + n then none else layGet x l := by
  unfold layGet outsideRun
  rw [List.find?_filter]
  split
  next h =>
    rw [List.find?_eq_none.mpr]
    · rfl
    · intro c _
      simp
      omega
  next h =>
    congr 2
    funext c
    by_cases hc : c.1 = x
    · simp [hc]
      omega
    · simp [hc]

theorem memGet_eq_layGet (x : Nat) (l : List Host.Cell) : memGet x l = (layGet x l).getD 0 := by
  induction l with
  | nil => rfl
  | cons c l ih =>
    by_cases hc : c.1 = x
    · simp [memGet, layGet, hc]
    · rw [memGet, if_neg (by simpa using hc), ih, layGet, layGet, List.find?_cons_of_neg (by simpa using hc)]

theorem State.clearRun_mem (s : State) (a n : Nat) : (s.clearRun a n).mem = { s.mem with
    cells := outsideRun a n s.mem.cells
    poison := s.mem.poison.filter (fun u => decide (16 * u < a) || decide (a + n ≤ 16 * u))
    chans := s.mem.chans.map (fun c => { c with detour := outsideRun a n c.detour, heldWrites := outsideRun a n c.heldWrites }) } := rfl

/-- A cleared run reads as zero, and every other byte as before. -/
theorem State.clearRun_byte (s : State) (a n x : Nat) :
    (s.clearRun a n).mem.byte x = if a ≤ x ∧ x < a + n then 0 else s.mem.byte x := by
  have lay (c : Chan) : layGet x (outsideRun a n c.detour ++ outsideRun a n c.heldWrites) =
      if a ≤ x ∧ x < a + n then none else layGet x (c.detour ++ c.heldWrites) := by
    rw [← layGet_outsideRun, outsideRun, outsideRun, outsideRun, List.filter_append]
  rw [State.clearRun_mem, MemSys.byte, MemSys.byte]
  simp only [List.findSome?_map, Function.comp_def, lay]
  by_cases h : a ≤ x ∧ x < a + n
  · have hnone : s.mem.chans.findSome? (fun _ => (none : Option Byte)) = none := List.findSome?_eq_none_iff.mpr fun _ _ => rfl
    simp only [if_pos h, hnone, memGet_eq_layGet, layGet_outsideRun]
    rfl
  · simp only [if_neg h, memGet_eq_layGet, layGet_outsideRun]

/-- What is left of runs that wait to be zeroed does not hold the granule that was cut out. -/
theorem cutGranule_excludes {a : Nat} {r q : Nat × Nat} (h : q ∈ cutGranule a r) : ¬(q.1 ≤ a ∧ a < q.1 + q.2) := by
  unfold cutGranule at h
  split at h
  next hin =>
    simp only [Bool.and_eq_true, decide_eq_true_eq] at hin
    rcases List.mem_append.mp h with h | h
    · split at h
      · rw [List.mem_singleton.mp h]
        dsimp only
        omega
      · cases h
    · split at h
      · rw [List.mem_singleton.mp h]
        dsimp only
        omega
      · cases h
  next hout =>
    rw [List.mem_singleton.mp h]
    simpa using hout

theorem exec_granuleZeroing {s : State} {g : Nat} (h : ∃ r ∈ s.mem.unzeroed, r.1 ≤ 4096 * g ∧ 4096 * g < r.1 + r.2) :
    exec (.granuleZeroing g) s = .next { s.clearRun (4096 * g) 4096 with
      mem := { (s.clearRun (4096 * g) 4096).mem with unzeroed := s.mem.unzeroed.flatMap (cutGranule (4096 * g)) } } := by
  refine congrArg Host.Outcome.next ?_
  exact if_pos (by simpa using h)

theorem granuleZeroing_zeroes {s : State} {g : Nat} (h : ∃ r ∈ s.mem.unzeroed, r.1 ≤ 4096 * g ∧ 4096 * g < r.1 + r.2) :
    ∃ t, exec (.granuleZeroing g) s = .next t ∧
      (∀ a, t.mem.byte a = if 4096 * g ≤ a ∧ a < 4096 * g + 4096 then 0 else s.mem.byte a) ∧
      (∀ u ∈ t.mem.poison, u ∈ s.mem.poison ∧ ¬(4096 * g ≤ 16 * u ∧ 16 * u < 4096 * g + 4096)) ∧
      (∀ r ∈ t.mem.unzeroed, ¬(r.1 ≤ 4096 * g ∧ 4096 * g < r.1 + r.2)) ∧
      t = { s with mem := { s.mem with
        cells := t.mem.cells
        poison := t.mem.poison
        unzeroed := t.mem.unzeroed
        chans := t.mem.chans } } := by
  refine ⟨_, exec_granuleZeroing h, fun a => ?_, fun u hu => ?_, fun r hr => ?_, rfl⟩
  · exact (MemSys.byte_congr rfl rfl a).trans (s.clearRun_byte (4096 * g) 4096 a)
  · obtain ⟨hmem, hout⟩ := List.mem_filter.mp hu
    simp only [Bool.or_eq_true, decide_eq_true_eq] at hout
    exact ⟨hmem, by omega⟩
  · obtain ⟨q, -, hcut⟩ := List.mem_flatMap.mp hr
    exact cutGranule_excludes hcut

/-- Settles O22: a scrub, a retirement and an unmapped access by what each leaves of memory, and the zeroing by the run that it clears. -/
theorem memoryRowsKeepBytes : Obligations.MemoryRowsKeepBytes := by
  unfold Obligations.MemoryRowsKeepBytes
  refine ⟨⟨fun s channel corrected bad hc ha hp => scrub_keeps_bytes hc ha hp corrected bad, fun s channel e he => ?_,
    fun s addr write => rfl⟩, fun s g h => granuleZeroing_zeroes h⟩
  exact ⟨_, exec_wcbAgeRetire he, s.retireWcb_mem e, s.retireWcb_count e⟩

end Sys2Proof.Machine
end

section
/-! Live retraining (10 R266 to R268): how a session starts and drains, how it ends, and what is counted and kept of it. -/

namespace Sys2Proof.Machine
open Sys2Proof

/-! ### The record of a channel -/

theorem modifyAt_eq_modify {α : Type} (f : α → α) (i : Nat) (l : List α) : modifyAt f i l = l.modify i f := by
  induction l generalizing i with
  | nil => cases i <;> rfl
  | cons a l ih =>
    cases i with
    | zero => rfl
    | succ i => rw [modifyAt, ih, List.modify_succ_cons]

theorem State.chan_congr {s t : State} (h : t.mem.chans = s.mem.chans) (i : Nat) : t.chan i = s.chan i := by
  rw [State.chan, State.chan, h]

theorem State.chan_setChan_self {s : State} {i : Nat} (h : i < s.mem.chans.length) (f : Chan → Chan) :
    (s.setChan i f).chan i = f (s.chan i) := by
  simp [State.chan, State.setChan, modifyAt_eq_modify, List.getD_eq_getElem?_getD, h]

/-- What an update of channels leaves alone stays so, for every channel. -/
theorem State.chan_setChan_keeps {α : Type} {p : Chan → α} {f : Chan → Chan} (hf : ∀ c, p (f c) = p c) (s : State) (i j : Nat) :
    p ((s.setChan i f).chan j) = p (s.chan j) := by
  simp only [State.chan, State.setChan, modifyAt_eq_modify, List.getD_eq_getElem?_getD, List.getElem?_modify]
  cases s.mem.chans[j]? with
  | none => rfl
  | some c =>
    by_cases h : i = j
    · simp [h, hf]
    · simp [h]

/-- A channel in training. -/
def Chan.train (viaReset : Bool) (c : Chan) : Chan := { c with session := 4, viaReset := viaReset, due := false }

/-- A channel whose session has ended. -/
def Chan.close (c : Chan) : Chan := { c with session := 0, viaReset := false, detour := [], heldWrites := [] }

/-- A channel with the values of a training that succeeded. -/
def Chan.learn (v : Nat) (c : Chan) : Chan := { c with trainingPrev := c.training, training := v, failedRow := 0 }

/-- A channel whose session failed, in a row or in a reset. -/
def Chan.fail (viaReset : Bool) (c : Chan) : Chan :=
  if viaReset then { c with failedResets := c.failedResets + 1 } else { c with failedRow := c.failedRow + 1 }

/-- The failures of a channel that stand, in a row and in resets. -/
def Chan.failures (c : Chan) : Nat × Nat := (c.failedRow, c.failedResets)

/-- A channel outside the list is as after reset, so one with a session is in the list. -/
theorem State.chan_lt_of_session {s : State} {n : Nat} (h : (s.chan n).session ≠ 0) : n < s.mem.chans.length := by
  by_contra hout
  exact h (by rw [State.chan, List.getD_eq_default _ _ (by omega)]; rfl)

theorem State.session_of_idle {s : State} (h : s.sessionRunning = false) (n : Nat) : (s.chan n).session = 0 := by
  by_contra hrun
  have hmem : s.chan n ∈ s.mem.chans := by
    rw [State.chan, List.getD_eq_getElem _ _ (State.chan_lt_of_session hrun)]
    exact List.getElem_mem _
  simpa [hrun] using List.any_eq_false.mp h _ hmem

/-! ### The start of a session (10 R266, R267) -/

theorem State.foldl_retireWcb_mem (l : List Wcb) (s : State) :
    (l.foldl (fun s e => s.retireWcb e) s).mem = { s.mem with wcb := s.mem.wcb.filter (fun x => l.all (fun e => x.line != e.line)) } := by
  induction l generalizing s with
  | nil => simp
  | cons e l ih =>
    rw [List.foldl_cons, ih, State.retireWcb_mem, List.filter_filter]
    simp only [List.all_cons, Bool.and_comm]

/-- A session drains the entries of its controller, and its channel is in training. -/
theorem State.startSession_mem (s : State) (n : Nat) (viaReset : Bool) : (s.startSession n viaReset).mem = { s.mem with
    wcb := s.mem.wcb.filter (fun x => (s.mem.wcb.filter (fun e => e.channel == n)).all (fun e => x.line != e.line))
    chans := modifyAt (Chan.train viaReset) n s.mem.chans } := by
  unfold State.startSession
  dsimp only
  rw [(State.post_logStep _ _ _ _ _).mem, State.setChan, State.foldl_retireWcb_mem]
  rfl

theorem State.startSession_chan (s : State) (n : Nat) (viaReset : Bool) (i : Nat) :
    (s.startSession n viaReset).chan i = (s.setChan n (Chan.train viaReset)).chan i :=
  State.chan_congr (by rw [State.startSession_mem]; rfl) i

theorem State.startSession_drains {s : State} {n : Nat} {viaReset : Bool} {e : Wcb} (h : e ∈ (s.startSession n viaReset).mem.wcb) :
    e.channel ≠ n := by
  rw [State.startSession_mem] at h
  intro hch
  obtain ⟨hmem, hall⟩ := List.mem_filter.mp h
  have own := List.all_eq_true.mp hall e (List.mem_filter.mpr ⟨hmem, by simpa using hch⟩)
  simp at own

theorem State.dueSession_starts {s : State} {n : Nat} (hn : n < 24) (ha : (s.chan n).active = true) (hp : s.board.power ≠ 2)
    (ht : s.trainable n = true) (hidle : s.sessionRunning = false) (viaReset : Bool) :
    s.dueSession n viaReset = s.startSession n viaReset := by
  unfold State.dueSession
  rw [if_neg (by simpa [ha] using hn), if_neg (by simp [State.session_of_idle hidle]), if_neg (by simp [hidle, ht, hp])]

theorem State.dueSession_waits {s : State} {n : Nat} (hn : n < 24) (ha : (s.chan n).active = true) (hs : (s.chan n).session = 0)
    (hrun : s.sessionRunning = true) (viaReset : Bool) :
    s.dueSession n viaReset = s.setChan n (fun c => { c with due := true, viaReset := viaReset }) := by
  unfold State.dueSession
  rw [if_neg (by simpa [ha] using hn), if_neg (by simp [hs]), if_pos (by simp [hrun])]

/-- A request is judged by whether the channel can train (10 R266, R270). -/
theorem exec_retrainRequest {s : State} (hup : s.mailboxUp = true) {n : Nat} (hn : n < 24) :
    exec (.retrainRequest n) s = .next (s.answerWrite 0x2340 6 false (applyRetrain n s)) :=
  congrArg Host.Outcome.next (s.trigger_up _ _ _ _ _ _ _ hup (Nat.zero_le n) (by omega))

/-! ### The end of a session (10 R267) -/

theorem State.closeSession_mem (s : State) (n : Nat) : ∃ poison, (s.closeSession n).mem = { s.mem with
    cells := ((s.chan n).detour ++ (s.chan n).heldWrites).foldl (fun m x => memPut x.1 x.2 m) s.mem.cells
    poison := poison
    chans := modifyAt Chan.close n s.mem.chans } := by
  have drained : ∃ poison, (s.drainDetour n).mem = { s.mem with
      cells := ((s.chan n).detour ++ (s.chan n).heldWrites).foldl (fun m x => memPut x.1 x.2 m) s.mem.cells
      poison := poison
      chans := modifyAt Chan.close n s.mem.chans } := by
    unfold State.drainDetour
    dsimp only
    split <;> exact ⟨_, rfl⟩
  exact drained

theorem State.closeSession_chan (s : State) (n i : Nat) : (s.closeSession n).chan i = (s.setChan n Chan.close).chan i := by
  obtain ⟨_, h⟩ := s.closeSession_mem n
  exact State.chan_congr (by rw [h]; rfl) i

/-- Training that succeeds records its values, and no failure stands any more. -/
theorem State.trained_mem (s : State) (n : Nat) : ∃ v, (s.trained n).mem = { s.mem with
    chans := modifyAt (Chan.learn v) n s.mem.chans } := by
  unfold State.trained
  dsimp only
  rw [State.bump_keeps_mem, (State.journal_logStep _ _ _).mem]
  exact ⟨_, rfl⟩

theorem State.trained_closeSession_cells (s : State) (n : Nat) : ((s.trained n).closeSession n).mem.cells =
    ((s.chan n).detour ++ (s.chan n).heldWrites).foldl (fun m x => memPut x.1 x.2 m) s.mem.cells := by
  obtain ⟨v, htrained⟩ := s.trained_mem n
  have hchan : (s.trained n).chan n = (s.setChan n (Chan.learn v)).chan n := State.chan_congr (by rw [htrained]; rfl) n
  have hdetour := State.chan_setChan_keeps (p := Chan.detour) (f := Chan.learn v) (fun _ => rfl) s n n
  have hheld := State.chan_setChan_keeps (p := Chan.heldWrites) (f := Chan.learn v) (fun _ => rfl) s n n
  obtain ⟨poison, hclosed⟩ := (s.trained n).closeSession_mem n
  rw [hclosed, hchan, hdetour, hheld, htrained]

theorem exec_channelTrainingDone {s : State} {n : Nat} (hn : n < 24) (hs : (s.chan n).session ≠ 0) :
    exec (.channelTrainingDone n) s = .next ((s.trained n).endSession n) :=
  congrArg Host.Outcome.next (if_neg (by simpa using ⟨hn, hs⟩))

/-! ### A session that fails (10 R268) -/

/-- The end of a session, and the start of the next one, leave the failures of every channel as they are. -/
theorem State.endSession_failures (s : State) (n i : Nat) : ((s.endSession n).chan i).failures = (s.chan i).failures := by
  have closed : ((s.closeSession n).chan i).failures = (s.chan i).failures := by
    rw [State.closeSession_chan]
    exact State.chan_setChan_keeps (p := Chan.failures) (f := Chan.close) (fun _ => rfl) s n i
  unfold State.endSession
  dsimp only
  split
  next c _ =>
    rw [← closed, State.startSession_chan]
    exact State.chan_setChan_keeps (p := Chan.failures) (f := Chan.train c.viaReset) (fun _ => rfl) (s.closeSession n) c.id i
  · exact closed

theorem bit_setBit_self (v i : Nat) : bit (setBit v i true) i = true := by
  by_cases h : bit v i = true
  · exact bit_setBit_true v i i h
  · have h0 : v / 2 ^ i % 2 = 0 := by
      have : ¬v / 2 ^ i % 2 = 1 := by simpa [bit] using h
      omega
    have hset : setBit v i true = v + 2 ^ i := by simp [setBit, setBits, bits, h0]
    rw [hset, bit, Nat.add_div_right _ (by positivity), beq_iff_eq]
    omega

@[simp] theorem State.flushEmergency_faults (s : State) : s.flushEmergency.faults = s.faults := by
  unfold State.flushEmergency
  split
  · split <;> rfl
  · rfl

@[simp] theorem State.emergency_faults (s : State) (bitNo status : Nat) : (s.emergency bitNo status).faults = s.faults := by
  unfold State.emergency
  split
  · dsimp only
    split
    · exact State.flushEmergency_faults _
    · rfl
  · rfl

theorem State.raise_latched (s : State) (bitNo status : Nat) : bit (s.raise bitNo status).faults.latched bitNo = true := by
  unfold State.raise
  split
  · assumption
  · rw [State.emergency_faults]
    exact bit_setBit_self _ _

/-- A session that times out: its failure is counted, it ends, and FaultSummary bit 21 is raised. -/
def State.timedOut (s : State) (n : Nat) : State :=
  (((s.setChan n (Chan.fail (s.chan n).viaReset)).bump 0x31C0 0xA 1).endSession n).raise 21 0

theorem State.timedOut_failures {s : State} {n : Nat} (h : n < s.mem.chans.length) : ((s.timedOut n).chan n).failures =
    ((s.chan n).failedRow + (if (s.chan n).viaReset = true then 0 else 1),
      (s.chan n).failedResets + (if (s.chan n).viaReset = true then 1 else 0)) := by
  have counted : ((s.setChan n (Chan.fail (s.chan n).viaReset)).bump 0x31C0 0xA 1).chan n = Chan.fail (s.chan n).viaReset (s.chan n) :=
    State.chan_setChan_self h _
  rw [State.timedOut, State.chan_congr (congrArg MemSys.chans (State.raise_noticeStep _ _ _).mem), State.endSession_failures, counted]
  cases (s.chan n).viaReset <;> rfl

theorem exec_retrainTimeout {s : State} {n : Nat} (hn : n < 24) (hs : (s.chan n).session ≠ 0) :
    exec (.retrainTimeout n) s = .next (
      if 2 ≤ ((s.timedOut n).chan n).failedRow ∨ 2 ≤ ((s.timedOut n).chan n).failedResets then (s.timedOut n).markChannel n 0 0
      else s.timedOut n) := by
  refine congrArg Host.Outcome.next ((if_neg (by simpa using ⟨hn, hs⟩)).trans ?_)
  simp only [← Bool.decide_or, decide_eq_true_eq]
  rfl

/-- Settles O25: a session by its start, its success and its failure, each from what it leaves of memory and of its channel's record. -/
theorem channelSessionsRun : Obligations.ChannelSessionsRun := by
  unfold Obligations.ChannelSessionsRun
  refine ⟨fun s n hn ha hp ht hidle => ?_, fun s n hn ha hs hrun => ?_, fun s n hup hn => ?_, fun s n hn hs => ?_,
    fun s n hn hlen hs => ?_⟩
  · refine ⟨s.startSession n false, ?_, fun hlen => ?_, ?_, fun e he => State.startSession_drains he⟩
    · rw [← State.dueSession_starts hn ha hp ht hidle]
      rfl
    · rw [State.startSession_chan, State.chan_setChan_self hlen]
      exact ⟨rfl, rfl⟩
    · rw [State.startSession_mem]
  · rw [← State.dueSession_waits hn ha hs hrun]
    rfl
  · rw [exec_retrainRequest hup hn, applyRetrain]
    refine ⟨fun ht => by rw [if_pos ht], fun ht => ?_⟩
    rw [if_neg (by simp [ht]), State.answerWrite_refused _ _ _ _ _ _ (by decide)]
    rfl
  · exact ⟨exec_channelTrainingDone hn hs, s.trained_closeSession_cells n⟩
  · obtain ⟨hrow, hresets⟩ := Prod.mk.inj (State.timedOut_failures hlen)
    rw [exec_retrainTimeout hn hs]
    exact ⟨s.timedOut n, fun h1 h2 => by rw [if_neg (by omega)], fun h => by rw [if_pos h], hrow, hresets,
      State.raise_latched _ _ _⟩

end Sys2Proof.Machine
end

section
/-! Debug (20 R545, R547, 10 R245): how a debug access is judged, and the read or write that it then is. -/

namespace Sys2Proof.Machine
open Sys2Proof

section
variable {s : State}

/-! ### How an access is judged -/

theorem State.debugCode_locked {level : Nat} (h : s.sec.level < level) : s.debugCode level = 0x05FE := by
  simp [State.debugCode, firstCode, rule, h]

theorem State.debugCode_high {level : Nat} (h : level ≤ s.sec.level) (hlo : 2 ^ 40 ≤ s.dget 0x5031 1) (hhi : s.dget 0x5031 1 < 2 ^ 64) :
    s.debugCode level = 0x01FC := by
  have hbits : bits (s.dget 0x5031 1) 40 24 ≠ 0 := by
    unfold bits
    omega
  simp [State.debugCode, firstCode, rule, hbits, Nat.not_lt.mpr h]

theorem State.debugCode_granted {level : Nat} (h : level ≤ s.sec.level) (ha : s.dget 0x5031 1 < 2 ^ 40)
    (halign : s.dget 0x5031 1 % 64 = 0) (hext : s.extestOn = false) : s.debugCode level = 0 := by
  have hbits : bits (s.dget 0x5031 1) 40 24 = 0 := by
    unfold bits
    omega
  simp [State.debugCode, firstCode, rule, hbits, halign, hext, Nat.not_lt.mpr h]

/-! ### Relock -/

theorem exec_relock (hup : s.mailboxUp = true) : exec (.relock 1) s = .next (s.answerWrite 0x5030 2 false (applyRelock s)) :=
  congrArg Host.Outcome.next (s.trigger_up _ _ _ _ _ _ _ hup (Nat.le_refl 1) (Nat.le_refl 1))

/-! ### Reads -/

theorem exec_debugDataRead_refused (hup : s.mailboxUp = true) (hc : s.debugCode 1 ≠ 0) :
    exec .debugDataRead s = .next (s.abort 0x5031 2 (abortCode false (s.debugCode 1)) (s.debugCode 1)) := by
  refine congrArg Host.Outcome.next ((if_neg (by simp [hup])).trans ?_)
  exact if_pos (by simpa using hc)

/-- A read of a unit that is off, or outside every window, is zero and counted (10 R245). -/
theorem exec_debugDataRead_zero (hup : s.mailboxUp = true) (hc : s.debugCode 1 = 0)
    (h : s.darkAt (s.dget 0x5031 1) = true ∨ s.unmapped (s.dget 0x5031 1) false = true) :
    exec .debugDataRead s = .next ((s.bump 0x31C0 0x10 1).upload 0x5031 2 (List.replicate 64 0)) := by
  refine congrArg Host.Outcome.next ((if_neg (by simp [hup])).trans ((if_neg (by simp [hc])).trans ?_))
  by_cases hd : s.darkAt (s.dget 0x5031 1) = true
  · exact if_pos hd
  · exact (if_neg hd).trans (if_pos (h.resolve_left hd))

theorem exec_debugDataRead_bytes (hup : s.mailboxUp = true) (hc : s.debugCode 1 = 0) (hd : s.darkAt (s.dget 0x5031 1) = false)
    (hm : s.unmapped (s.dget 0x5031 1) false = false) (hp : s.mem.poisonIn (s.dget 0x5031 1) 64 = []) :
    exec .debugDataRead s = .next ((s.bump 0x31C0 1 (if s.mem.window (s.dget 0x5031 1) = 1 then 64 else 0)).upload 0x5031 2
      (s.readBytes (s.dget 0x5031 1) 64)) := by
  refine congrArg Host.Outcome.next ((if_neg (by simp [hup])).trans ((if_neg (by simp [hc])).trans ?_))
  refine (if_neg (by simp [hd])).trans ((if_neg (by simp [hm])).trans ((if_neg (by simp [hp])).trans ?_))
  simp only [beq_iff_eq]

/-! ### Writes -/

theorem exec_debugDataWrite (hup : s.mailboxUp = true) {data : Bytes} (hlen : data.length = 64) :
    exec (.debugDataWrite data) s = .next (s.answerWrite 0x5031 2 false (applyDebugWrite data s)) :=
  congrArg Host.Outcome.next ((if_neg (by simp [hup])).trans (if_neg (by simp [hlen])))

theorem applyDebugWrite_refused (data : Bytes) (hc : s.debugCode 2 ≠ 0) : applyDebugWrite data s = (s, s.debugCode 2) :=
  if_pos (by simpa using hc)

theorem applyDebugWrite_ignored (data : Bytes) (hc : s.debugCode 2 = 0)
    (h : s.darkAt (s.dget 0x5031 1) = true ∨ s.unmapped (s.dget 0x5031 1) true = true) :
    applyDebugWrite data s = (s.bump 0x31C0 0x10 1, 0) :=
  (if_neg (by simp [hc])).trans (if_pos (by simpa using h))

theorem applyDebugWrite_bytes (data : Bytes) (hc : s.debugCode 2 = 0) (hd : s.darkAt (s.dget 0x5031 1) = false)
    (hm : s.unmapped (s.dget 0x5031 1) true = false) (hw : s.mem.window (s.dget 0x5031 1) ≠ 4) :
    applyDebugWrite data s = (s.writeBytes (s.dget 0x5031 1) data, 0) :=
  (if_neg (by simp [hc])).trans ((if_neg (by simp [hd, hm])).trans (if_neg (by simpa using hw)))

end

/-- Settles O40: Relock by its level, and each access by the code that it is judged with and the place that it meets. -/
theorem debugAccessesMemory : Obligations.DebugAccessesMemory := by
  unfold Obligations.DebugAccessesMemory
  intro s hup a
  refine ⟨fun h0 => ?_, fun hlev => ?_, fun h0 => ?_, fun h2 data hlen => ?_, fun h1 hlo hhi => ?_, fun h1 ha halign hext => ?_⟩
  · rw [exec_relock hup, applyRelock, if_pos (by simp [h0]), State.answerWrite_refused _ _ _ _ _ _ (by decide)]
    rfl
  · rw [exec_relock hup, applyRelock, if_neg (by simpa using hlev)]
    simp only [beq_iff_eq]
  · have hcode : s.debugCode 1 = 0x05FE := State.debugCode_locked (by omega)
    rw [exec_debugDataRead_refused hup (by rw [hcode]; decide), hcode]
    rfl
  · have hcode : s.debugCode 2 = 0x05FE := State.debugCode_locked h2
    rw [exec_debugDataWrite hup hlen, applyDebugWrite_refused data (by rw [hcode]; decide), hcode,
      State.answerWrite_refused _ _ _ _ _ _ (by decide)]
    rfl
  · have hcode : s.debugCode 1 = 0x01FC := State.debugCode_high h1 hlo hhi
    rw [exec_debugDataRead_refused hup (by rw [hcode]; decide), hcode]
    rfl
  · have hread : s.debugCode 1 = 0 := State.debugCode_granted h1 ha halign hext
    refine ⟨exec_debugDataRead_zero hup hread, exec_debugDataRead_bytes hup hread, fun data hlen h2 => ?_⟩
    have hwrite : s.debugCode 2 = 0 := State.debugCode_granted (by omega) ha halign hext
    rw [exec_debugDataWrite hup hlen]
    exact ⟨fun h => by rw [applyDebugWrite_ignored data hwrite h], fun hd hm hw => by rw [applyDebugWrite_bytes data hwrite hd hm hw]⟩

end Sys2Proof.Machine
end

section
/-! The messages of a courier session (16 R412 to R417): which of them acts, and what CLOSE, ACK, WRITE, READ, ALLOC and FREE then do. -/

namespace Sys2Proof.Machine
open Sys2Proof

/-! ### Reception -/

/-- A datagram brings a message of type `type`, whose header is legal, on an open session (16 R412). -/
def State.carries (s : State) (d : Dgram) (type : Nat) (x : Session) : Prop :=
  s.dataPort d.port = true ∧ dgramBad d.bytes = false ∧ (Msg.parse d.bytes).headerBad = false ∧ (Msg.parse d.bytes).type = type ∧
    s.session? (Msg.parse d.bytes).session = some x

theorem State.brings_iff {s : State} {d : Dgram} {type : Nat} {x : Session} : s.brings d type x ↔ s.carries d type x ∧
    bodyOk type (Msg.parse d.bytes).body = true ∧ (sequenced type = true → (Msg.parse d.bytes).seq = x.rxNext) := by
  simp only [State.brings, State.carries, and_assoc]

theorem ne_open_of_sequenced {type : Nat} (h : sequenced type = true) : type ≠ 0x01 := by
  rintro rfl
  cases h

section
variable {s : State} {d : Dgram} {type : Nat} {x : Session} {mine : Bytes → Bool} {handle : State → Session → Nat → Bytes → State}

/-- A message that its row may handle is received: its Ack and Window are taken, and then its Seq and its body are looked at. -/
theorem State.courier_of_carries (h : s.carries d type x) (htype : type ≠ 0x01)
    (hmine : bodyOk type (Msg.parse d.bytes).body = true → mine (Msg.parse d.bytes).body = true) :
    s.courier d type mine handle =
      if sequenced type = true ∧ (Msg.parse d.bytes).seq ≠ x.rxNext then (s.accept d x (Msg.parse d.bytes)).sendAck x.id
      else if bodyOk type (Msg.parse d.bytes).body = true
        then handle (s.received d x) x (Msg.parse d.bytes).seq (Msg.parse d.bytes).body
        else (s.received d x).reply x.id (Msg.parse d.bytes).seq 0x01E2 0 0 := by
  obtain ⟨hport, hbytes, hheader, rfl, hsession⟩ := h
  have hrow : (bodyOk (Msg.parse d.bytes).type (Msg.parse d.bytes).body && !mine (Msg.parse d.bytes).body) = false := by
    cases hok : bodyOk (Msg.parse d.bytes).type (Msg.parse d.bytes).body with
    | false => rfl
    | true => simp [hmine hok]
  unfold State.courier
  rw [if_neg (by simp [hport]), if_neg (by simp [hbytes])]
  dsimp only
  rw [hsession]
  dsimp only
  rw [if_neg (by simpa using htype), if_neg (by simp [hheader]), if_neg (by simp), if_neg (by simp [hrow])]
  cases hseq : sequenced (Msg.parse d.bytes).type with
  | false => simp [State.received, hseq]
  | true => simp [State.received, hseq]

/-- A repeated or early message is acknowledged and discarded (16 R414). -/
theorem State.courier_out_of_order (h : s.carries d type x) (hseq : sequenced type = true)
    (hmine : bodyOk type (Msg.parse d.bytes).body = true → mine (Msg.parse d.bytes).body = true)
    (hnext : (Msg.parse d.bytes).seq ≠ x.rxNext) :
    s.courier d type mine handle = (s.accept d x (Msg.parse d.bytes)).sendAck x.id := by
  rw [State.courier_of_carries h (ne_open_of_sequenced hseq) hmine, if_pos ⟨hseq, hnext⟩]

/-- The next message whose body is of the wrong form is answered with 0x01E2 (16 R412). -/
theorem State.courier_wrong_body (h : s.carries d type x) (hseq : sequenced type = true) (hnext : (Msg.parse d.bytes).seq = x.rxNext)
    (hbody : bodyOk type (Msg.parse d.bytes).body = false) :
    s.courier d type mine handle = (s.received d x).reply x.id (Msg.parse d.bytes).seq 0x01E2 0 0 := by
  rw [State.courier_of_carries h (ne_open_of_sequenced hseq) (by simp [hbody]), if_neg (by simp [hnext]), if_neg (by simp [hbody])]

/-- The next message acts. -/
theorem State.courier_of_brings (h : s.brings d type x) (htype : type ≠ 0x01) (hmine : mine (Msg.parse d.bytes).body = true) :
    s.courier d type mine handle = handle (s.received d x) x (Msg.parse d.bytes).seq (Msg.parse d.bytes).body := by
  obtain ⟨hcarries, hbody, hnext⟩ := State.brings_iff.mp h
  rw [State.courier_of_carries hcarries htype (fun _ => hmine), if_neg (by simpa using hnext), if_pos hbody]

end

/-- The rows whose messages are sequenced and handled whatever their bodies say: CLOSE, ALLOC, FREE, WRITE and READ. -/
def payloadRows : List ((Dgram → Instr) × Nat) :=
  [(.closeSession, 0x02), (.alloc, 0x10), (.free, 0x11), (.write, 0x12), (.read, 0x13)]

theorem payloadRows_courier : ∀ row ∈ payloadRows, sequenced row.2 = true ∧ ∃ handle, ∀ d s,
    exec (row.1 d) s = .next (s.courier d row.2 (fun _ => true) handle) := by
  simp only [payloadRows, List.forall_mem_cons, List.not_mem_nil, false_imp_iff, implies_true, and_true]
  exact ⟨⟨rfl, _, fun _ _ => rfl⟩, ⟨rfl, _, fun _ _ => rfl⟩, ⟨rfl, _, fun _ _ => rfl⟩, ⟨rfl, _, fun _ _ => rfl⟩,
    ⟨rfl, _, fun _ _ => rfl⟩⟩

/-! ### What each message does -/

section
variable {s : State} {d : Dgram} {x : Session}

theorem exec_closeSession (h : s.brings d 0x02 x) : exec (.closeSession d) s =
    .next ((((s.received d x).sendAck x.id).setSession x.id (fun x => { x with closing := true })).endClosing x.id) :=
  congrArg Host.Outcome.next (State.courier_of_brings h (by decide) rfl)

theorem exec_ack (h : s.brings d 0x03 x) : exec (.ack d) s = .next (s.received d x) :=
  congrArg Host.Outcome.next (State.courier_of_brings h (by decide) rfl)

theorem exec_alloc (h : s.brings d 0x10 x) : exec (.alloc d) s =
    .next ((s.received d x).allocate x.id (Msg.parse d.bytes).seq (Msg.parse d.bytes).body) :=
  congrArg Host.Outcome.next (State.courier_of_brings h (by decide) rfl)

theorem exec_free (h : s.brings d 0x11 x) : exec (.free d) s =
    .next ((s.received d x).freeObj x.id (Msg.parse d.bytes).seq (beNat (Msg.parse d.bytes).body)) :=
  congrArg Host.Outcome.next (State.courier_of_brings h (by decide) rfl)

theorem exec_read (h : s.brings d 0x13 x) : exec (.read d) s = .next ((s.received d x).readFor x.id (Msg.parse d.bytes).seq
    (beAt (Msg.parse d.bytes).body 0 8) (beAt (Msg.parse d.bytes).body 8 4)) :=
  congrArg Host.Outcome.next (State.courier_of_brings h (by decide) rfl)

/-- A payload written at an address, on behalf of a session's message (16 R416, R417). -/
def State.writeFor (s : State) (sess seq a : Nat) (b : Bytes) : State :=
  if !s.courierRange a b.length then s.reply sess seq 0x01E6 0 0
  else if s.unserved [(a, b.length)] then s.reply sess seq 0x0381 0 0
  else s.writeBytes a b

theorem exec_write (h : s.brings d 0x12 x) : exec (.write d) s = .next ((s.received d x).writeFor x.id (Msg.parse d.bytes).seq
    (beAt (Msg.parse d.bytes).body 0 8) ((Msg.parse d.bytes).body.drop 16)) :=
  congrArg Host.Outcome.next (State.courier_of_brings h (by decide) rfl)

end

section
variable (u : State) (sess seq : Nat)

theorem State.courierRange_iff {a n : Nat} : u.courierRange a n = true ↔ a + n ≤ u.mem.reserveBase := decide_eq_true_iff

theorem State.writeFor_inside {a : Nat} {b : Bytes} (h : a + b.length ≤ u.mem.reserveBase) : u.writeFor sess seq a b =
    if u.unserved [(a, b.length)] = true then u.reply sess seq 0x0381 0 0 else u.writeBytes a b :=
  if_neg (by simpa using u.courierRange_iff.mpr h)

theorem State.writeFor_outside {a : Nat} {b : Bytes} (h : u.mem.reserveBase < a + b.length) :
    u.writeFor sess seq a b = u.reply sess seq 0x01E6 0 0 :=
  if_pos (by simpa using mt u.courierRange_iff.mp (by omega))

theorem State.readFor_outside {a n : Nat} (h : u.mem.reserveBase < a + n) : u.readFor sess seq a n = u.reply sess seq 0x01E6 0 0 :=
  if_pos (by simpa using mt u.courierRange_iff.mp (by omega))

theorem State.readFor_poisoned {a n : Nat} (h : a + n ≤ u.mem.reserveBase) (hp : u.mem.poisonIn a n ≠ []) :
    u.readFor sess seq a n = (u.sawPoison (u.mem.poisonIn a n)).reply sess seq 0x0302 0 0 :=
  (if_neg (by simpa using u.courierRange_iff.mpr h)).trans (if_pos (by simpa using hp))

theorem State.readFor_clean {a n : Nat} (h : a + n ≤ u.mem.reserveBase) (hp : u.mem.poisonIn a n = []) : u.readFor sess seq a n =
    if u.unserved [(a, n)] = true then u.reply sess seq 0x0381 0 0
    else ((u.readRuns [(a, n)]).sendData sess seq 0 (chunks 8912 (u.readBytes a n))).reply sess seq 0 0 0 :=
  (if_neg (by simpa using u.courierRange_iff.mpr h)).trans (if_neg (by simp [hp]))

theorem State.allocate_refused {r : Bytes} (h : u.checkAlloc r ≠ 0) : u.allocate sess seq r = u.reply sess seq (u.checkAlloc r) 0 0 :=
  if_pos (by simpa using h)

/-- An allocation of the local tiers that has room is placed, cleared and listed (10 R254, R255). -/
theorem State.allocate_placed {r : Bytes} {a : Nat} (hc : u.checkAlloc r = 0) (ht : bits (leAt r 8 4) 16 2 ≠ 2)
    (hfree : roundUp (leAt r 0 8) 4096 ≤ u.freeBytesPool)
    (hplace : u.place (bits (leAt r 8 4) 19 2) (roundUp (leAt r 0 8) 4096) true = some a) :
    u.allocate sess seq r = ({ u.clearRun a (roundUp (leAt r 0 8) 4096) with
      mem := { (u.clearRun a (roundUp (leAt r 0 8) 4096)).mem with
        objects := (u.clearRun a (roundUp (leAt r 0 8) 4096)).mem.objects ++
          [⟨a, roundUp (leAt r 0 8) 4096, leAt r 8 2, 0xFFFF, false, bits (leAt r 8 4) 19 2⟩] } } : State).reply sess seq 0 0 a := by
  have here := State.allocHere_of_place (client := leAt r 8 2) hplace hfree
  unfold State.allocate
  dsimp only
  rw [if_neg (by simp [hc]), if_neg (by simpa using ht), here, if_pos (by rfl)]

theorem State.freeObj_here {g : Nat} {o : Obj} (hg : u.gHere g = true)
    (ho : u.mem.localObjs.find? (fun o => o.base == gAddr g) = some o) :
    u.freeObj sess seq g = (u.dropObj o).reply sess seq 0 0 0 := by
  rw [State.freeObj, if_pos hg, ho]

theorem State.freeObj_none {g : Nat} (hg : u.gHere g = true) (ho : u.mem.localObjs.find? (fun o => o.base == gAddr g) = none) :
    u.freeObj sess seq g = u.reply sess seq 0x0185 0 0 := by
  rw [State.freeObj, if_pos hg, ho]

end

/-- Settles O46: the order of messages by reception alone, and each message that acts by what its row does in the state received. -/
theorem courierMessagesActInOrder : Obligations.CourierMessagesActInOrder := by
  unfold Obligations.CourierMessagesActInOrder
  intro s d x m u
  refine ⟨fun row hrow hport hbytes hheader htype hsession => ?_, exec_closeSession, exec_ack, fun h => ?_, fun h => ?_, fun h => ?_,
    fun h => ?_⟩
  · obtain ⟨hseq, handle, hexec⟩ := payloadRows_courier row hrow
    have hcarries : s.carries d row.2 x := ⟨hport, hbytes, hheader, htype, hsession⟩
    rw [hexec]
    exact ⟨fun hne => congrArg _ (State.courier_out_of_order hcarries hseq (fun _ => rfl) hne),
      fun hnext hbody => congrArg _ (State.courier_wrong_body hcarries hseq hnext hbody)⟩
  · rw [exec_write h]
    exact ⟨fun hin => congrArg _ (u.writeFor_inside _ _ hin), fun hout => congrArg _ (u.writeFor_outside _ _ hout)⟩
  · rw [exec_read h]
    exact ⟨fun hin hp => congrArg _ (u.readFor_clean _ _ hin hp), fun hin hp => congrArg _ (u.readFor_poisoned _ _ hin hp),
      fun hout => congrArg _ (u.readFor_outside _ _ hout)⟩
  · rw [exec_alloc h]
    refine ⟨fun code hcode hne => ?_, fun a hc ht hfree hplace => congrArg _ (u.allocate_placed _ _ hc ht hfree hplace)⟩
    subst hcode
    exact congrArg _ (u.allocate_refused _ _ hne)
  · rw [exec_free h]
    exact ⟨fun o hg ho => congrArg _ (u.freeObj_here _ _ hg ho), fun hg ho => congrArg _ (u.freeObj_none _ _ hg ho)⟩

end Sys2Proof.Machine
end

section
/-! The module right after its start (10 R255, 12 R319, R323, 18 R470, 20 R545): the forms that steps keep, and the start values. -/

namespace Sys2Proof.Machine
open Sys2Proof

theorem State.reset_quiet : State.reset.mem.quiet := by
  intro c hc
  obtain ⟨i, -, rfl⟩ := List.mem_map.mp hc
  exact ⟨rfl, rfl, rfl⟩

/-- Memory reads as zero at every address (10 R255). -/
theorem State.reset_readByte (a : Nat) : State.reset.readByte a = 0 := by
  rw [State.readByte, State.reset_quiet.byte]
  split <;> rfl

/-- Every port is Down (12 R323). -/
theorem State.reset_port {i : Nat} (h : i < 12) : (State.reset.port i).st = .down := by
  have hlen : i < State.reset.fabric.ports.length := h
  rw [State.port, List.getD_eq_getElem _ _ hlen]
  simp [State.reset, Router.init, Port.init]

/-- The security engine is Locked, in a lifecycle after Blank, with nothing revoked or refused (20 R545). -/
theorem State.reset_sec_ok : State.reset.sec.ok := by
  refine ⟨?_, ?_, ?_, ?_, ?_, ?_⟩ <;> decide

/-- Settles O17: bytes, ports and the security engine by their lemmas, and the other values by evaluation. -/
theorem resetMeetsForms : Obligations.ResetMeetsForms := by
  unfold Obligations.ResetMeetsForms
  have window : State.reset.mem.unzeroed = [(0, State.reset.mem.windowBytes)] := by decide
  have reserve : State.reset.dget 0x2350 1 = 65536 := by decide
  exact ⟨State.reset_sec_ok, rfl, rfl, rfl, step_of_pending_nil _ rfl, fun _ => State.reset_port, rfl, rfl, rfl, rfl,
    State.reset_readByte, window, rfl, rfl, rfl, reserve, rfl, rfl⟩

end Sys2Proof.Machine
end

section
/-! Contexts as they are found by their numbers (11 R273). -/

namespace Sys2Proof.Machine
open Sys2Proof

theorem State.ctx?_congr {s t : State} (h : t.office.ctxs = s.office.ctxs) (c : Nat) : t.ctx? c = s.ctx? c := by
  rw [State.ctx?, h, State.ctx?]

theorem State.number_of_ctx? {s : State} {c : Nat} {x : Ctx} (h : s.ctx? c = some x) : x.number = c := by
  simpa using List.find?_some h

theorem State.ctx?_eq_none_iff (s : State) (c : Nat) : s.ctx? c = none ↔ ∀ y ∈ s.office.ctxs, y.number ≠ c := by
  simp [State.ctx?, List.find?_eq_none]

/-- A context changed in place keeps its place: the context found is the one changed. -/
theorem State.ctx?_setCtx {s : State} {c : Nat} {x : Ctx} (h : s.ctx? c = some x) {f : Ctx → Ctx} (hf : ∀ y, (f y).number = y.number) :
    (s.setCtx c f).ctx? c = some (f x) := by
  have numbers : (fun y : Ctx => y.number == c) ∘ (fun y => if y.number == c then f y else y) = fun y => y.number == c := by
    funext y
    simp only [Function.comp_apply]
    split
    · rw [hf]
    · rfl
  have hx : (x.number == c) = true := by simpa using State.number_of_ctx? h
  unfold State.ctx? at h ⊢
  rw [State.setCtx, modifyWhere, List.find?_map, numbers, h, Option.map_some, if_pos hx]

/-- A change that leaves every context of its number as it is changes nothing. -/
theorem State.setCtx_eq_self {s : State} {c : Nat} {f : Ctx → Ctx} (h : ∀ y ∈ s.office.ctxs, y.number = c → f y = y) :
    s.setCtx c f = s := by
  have same : modifyWhere (fun y => y.number == c) f s.office.ctxs = s.office.ctxs := by
    refine (List.map_congr_left fun y hy => ?_).trans (List.map_id _)
    split
    next hc => exact h y hy (eq_of_beq hc)
    next => rfl
  rw [State.setCtx, same]

end Sys2Proof.Machine
end

section
/-! Tile tasks (11 R283, R284): what posting and taking them leaves, and which one a cell takes next. -/

namespace Sys2Proof.Machine
open Sys2Proof

/-! ### What serving tasks leaves -/

@[simp] theorem State.cellTake_ctxs (s : State) (cell fuel : Nat) : (s.cellTake cell fuel).office.ctxs = s.office.ctxs := by
  induction fuel generalizing s with
  | zero => rfl
  | succ fuel ih =>
    unfold State.cellTake
    split
    · rfl
    · split
      · rfl
      · exact ih _

@[simp] theorem State.serveTasks_ctxs (s : State) : s.serveTasks.office.ctxs = s.office.ctxs :=
  foldl_related (R := fun s t : State => t.office.ctxs = s.office.ctxs) (fun _ => rfl) (fun h h' => h'.trans h)
    (fun s c => s.cellTake_ctxs c 2) _ s.postAll

theorem State.officeStep.mem {s t : State} (h : s.officeStep t) : t.mem = s.mem := by
  obtain ⟨_, _, rfl⟩ := h
  rfl

@[simp] theorem State.serveTasks_mem (s : State) : s.serveTasks.mem = s.mem := s.serveTasks_officeStep.mem

/-! ### The task that ends -/

/-- A task of a cell has ended: it is gone, and the cell's free count of cycles is charged to its context. -/
def State.taskEnded (s : State) (k : Task) : State :=
  ({ s.drew with office := { s.office with tasks := s.office.tasks.filter (fun x => x != k) } } : State).setCtx k.ctx
    (fun x => { x with cellCycles := (x.cellCycles + s.cycle) % 2 ^ 64 })

theorem exec_taskTake {s : State} {cell which : Nat} {k : Task} (hcell : cell < 256) (hk : (s.runningIn cell)[which]? = some k) :
    exec (.taskTake cell which) s = .next (s.taskEnded k).serveTasks := by
  refine congrArg Host.Outcome.next ((if_neg hcell.not_ge).trans ?_)
  rw [hk]
  rfl

/-! ### The task that is next -/

/-- The first number found from the top is the highest that passes. -/
theorem le_of_find?_reverse_range {n p q : Nat} {test : Nat → Bool} (h : (List.range n).reverse.find? test = some p) (hq : q < n)
    (ht : test q = true) : q ≤ p := by
  induction n with
  | zero => omega
  | succ n ih =>
    rw [List.range_succ, List.reverse_append, List.reverse_singleton, List.singleton_append, List.find?_cons] at h
    split at h
    next =>
      cases h
      omega
    next hfail =>
      have hne : q ≠ n := by
        rintro rfl
        rw [ht] at hfail
        cases hfail
      exact ih h (by omega)

/-- What the choice of the next task says of it: its cell, its phase, and that the higher pigeonholes of the cell are empty and the older
places of its sequence in its own pigeonhole too (11 R284). -/
theorem State.nextTask_spec {s : State} {cell : Nat} {k : Task} (h : s.nextTask cell = some k) :
    (k ∈ s.office.tasks ∧ k.cell = cell ∧ k.phase = .posted) ∧
      (∀ v ∈ s.office.tasks, v.cell = cell → v.phase = .posted → v.prio < 8 → v.prio ≤ k.prio) ∧
      ∀ v ∈ s.office.tasks, v.cell = cell → v.phase = .posted → v.prio = k.prio → s.slotOfCtx v.ctx = s.slotOfCtx k.ctx →
        k.order ≤ v.order := by
  unfold State.nextTask at h
  dsimp only at h
  split at h
  · cases h
  next p hp =>
    split at h
    · cases h
    next q hq =>
      have hmem := List.mem_of_find?_eq_some h
      have hold := List.find?_some h
      simp only [List.mem_filter, Bool.and_eq_true, beq_iff_eq] at hmem
      obtain ⟨⟨⟨htask, hcell, hphase⟩, hprio⟩, hslot⟩ := hmem
      refine ⟨⟨htask, hcell, hphase⟩, fun v hv hvcell hvphase hlt => ?_, fun v hv hvcell hvphase hvprio hvslot => ?_⟩
      · rw [hprio]
        refine le_of_find?_reverse_range hp hlt (List.any_eq_true.mpr ⟨v, ?_, beq_self_eq_true _⟩)
        simpa using ⟨hv, hvcell, hvphase⟩
      · refine of_decide_eq_true (List.all_eq_true.mp hold v ?_)
        simp only [List.mem_filter, Bool.and_eq_true, beq_iff_eq]
        exact ⟨⟨⟨hv, hvcell, hvphase⟩, hvprio.trans hprio⟩, hvslot.trans hslot⟩

/-- Settles O18: the task that ends by the row's equation, and the next one by what its choice says. -/
theorem taskTakeServesHighest : Obligations.TaskTakeServesHighest := by
  unfold Obligations.TaskTakeServesHighest
  refine ⟨fun s cell which k hcell hk => ⟨s.taskEnded k, exec_taskTake hcell hk, rfl, rfl, rfl, rfl⟩, fun s cell k h => ?_⟩
  obtain ⟨⟨htask, hcell, hphase⟩, hhigh, hold⟩ := State.nextTask_spec h
  exact ⟨htask, hcell, hphase, hhigh, hold⟩

end Sys2Proof.Machine
end

section
/-! The commits of the quota and layout pairs, and restored defaults (11 R280, 17 R449, R451, R452). -/

namespace Sys2Proof.Machine
open Sys2Proof

/-! ### Persistent values (17 R448) -/

theorem State.logStep.office {s t : State} (h : s.logStep t) : t.office = s.office := by
  obtain ⟨_, _, _, _, rfl⟩ := h
  rfl

theorem State.logStep.dict {s t : State} (h : s.logStep t) : t.dict = s.dict := by
  obtain ⟨_, _, _, _, rfl⟩ := h
  rfl

@[simp] theorem State.keep_office (s : State) (idx sub width v : Nat) : (s.keep idx sub width v).office = s.office :=
  (State.journal_logStep _ _ _).office

theorem State.keep_dict (s : State) (idx sub width v : Nat) : (s.keep idx sub width v).dict = kvSet (dkey idx sub) v s.dict :=
  (State.journal_logStep _ _ _).dict

theorem State.keep_dget_self (s : State) (idx sub width v : Nat) : (s.keep idx sub width v).dget idx sub = v := by
  rw [State.dget, State.keep_dict, kvGet_kvSet_self]

theorem State.keep_dget_of_ne (s : State) {idx sub i j : Nat} (h : dkey i j ≠ dkey idx sub) (width v : Nat) :
    (s.keep idx sub width v).dget i j = s.dget i j := by
  rw [State.dget, State.keep_dict, kvGet_kvSet_other _ _ _ _ _ h, State.dget]

/-- The subindices of an entry kept one after another. -/
def State.keepSubs (s : State) (idx width n : Nat) (v : Nat → Nat) : State :=
  (List.range n).foldl (fun t i => t.keep idx (1 + i) width (v (1 + i))) s

theorem State.keepSubs_succ (s : State) (idx width n : Nat) (v : Nat → Nat) :
    s.keepSubs idx width (n + 1) v = (s.keepSubs idx width n v).keep idx (1 + n) width (v (1 + n)) := by
  rw [State.keepSubs, List.range_succ, List.foldl_append]
  rfl

@[simp] theorem State.keepSubs_office (s : State) (idx width n : Nat) (v : Nat → Nat) : (s.keepSubs idx width n v).office = s.office := by
  induction n with
  | zero => rfl
  | succ n ih => rw [State.keepSubs_succ, State.keep_office, ih]

theorem State.keepSubs_dget (s : State) (idx width : Nat) (v : Nat → Nat) {n k : Nat} (hlo : 1 ≤ k) (hhi : k ≤ n) :
    (s.keepSubs idx width n v).dget idx k = v k := by
  induction n with
  | zero => omega
  | succ n ih =>
    rw [State.keepSubs_succ]
    by_cases hlast : k = 1 + n
    · rw [hlast, State.keep_dget_self]
    · have hkey : dkey idx k ≠ dkey idx (1 + n) := by
        unfold dkey
        omega
      rw [State.keep_dget_of_ne _ hkey, ih (by omega)]

/-! ### The quota pair (11 R280) -/

theorem exec_quotaCommit {s : State} (hup : s.mailboxUp = true) :
    exec (.quotaCommit 1) s = .next (s.answerWrite 0x2351 3 true (applyQuota s)) :=
  congrArg Host.Outcome.next (s.trigger_up _ _ _ _ _ _ _ hup (le_refl 1) (le_refl 1))

/-- The staged quota pair is kept: its members, and the record of its client's explicit quota. -/
def State.quotaKept (s : State) : State :=
  ((s.keep 0x2351 1 2 (s.staging 0x2351 1)).keep 0x2351 2 4 (s.staging 0x2351 2)).journal false
    ⟨1, quotaKey (s.staging 0x2351 1), leBytes 4 (s.staging 0x2351 2)⟩

@[simp] theorem State.quotaKept_office (s : State) : s.quotaKept.office = s.office := by
  rw [State.quotaKept, (State.journal_logStep _ _ _).office, State.keep_office, State.keep_office]

/-- The pair is kept, and the table of explicit quotas changed. -/
def State.withQuotas (s : State) (g : KV → KV) : State :=
  { s.quotaKept with office := { s.quotaKept.office with quotas := g s.quotaKept.office.quotas } }

theorem State.withQuotas_office (s : State) (g : KV → KV) : (s.withQuotas g).office = { s.office with quotas := g s.office.quotas } := by
  rw [State.withQuotas, State.quotaKept_office]

theorem applyQuota_illegal {s : State} (hlo : 0x100000 < s.staging 0x2351 2) (hne : s.staging 0x2351 2 ≠ 0xFFFFFFFF) :
    applyQuota s = (s, 0x0192) :=
  if_pos (by simp [hlo, hne])

theorem applyQuota_set {s : State} (hkeep : s.keepRefused = 0) (hle : s.staging 0x2351 2 ≤ 0x100000)
    (hroom : kvHas (s.staging 0x2351 1) s.office.quotas = true ∨ s.office.quotas.length < 4096) :
    applyQuota s = (s.withQuotas (kvSet (s.staging 0x2351 1) (s.staging 0x2351 2)), 0) := by
  have hfull : ¬((!kvHas (s.staging 0x2351 1) s.office.quotas && decide (4096 ≤ s.office.quotas.length)) = true) := by
    rcases hroom with h | h <;> simp [h]
  unfold applyQuota
  dsimp only
  rw [if_neg (by simp; omega), if_neg (by simp [hkeep]), if_neg (by simp; omega), if_neg hfull]
  simp only [State.withQuotas, State.quotaKept]

theorem applyQuota_deleted {s : State} (hkeep : s.keepRefused = 0) (hall : s.staging 0x2351 2 = 0xFFFFFFFF) :
    applyQuota s = (s.withQuotas (kvDel (s.staging 0x2351 1)), 0) := by
  unfold applyQuota
  dsimp only
  rw [if_neg (by simp [hall]), if_neg (by simp [hkeep]), if_pos (by simp [hall])]
  simp only [State.withQuotas, State.quotaKept]

/-! ### The layout pair (17 R451, R452) -/

theorem exec_layoutCommit {s : State} (hup : s.mailboxUp = true) :
    exec (.layoutCommit 1) s = .next (s.answerWrite 0x2300 6 true (applyLayout s)) :=
  congrArg Host.Outcome.next (s.trigger_up _ _ _ _ _ _ _ hup (le_refl 1) (le_refl 1))

theorem applyLayout_disagrees {s : State} (h : s.layoutAgrees = false) : applyLayout s = (s, 0x01F1) := if_pos (by simp [h])

theorem applyLayout_kept {s : State} (h : s.layoutAgrees = true) (hkeep : s.keepRefused = 0) :
    applyLayout s = (s.keepSubs 0x2300 1 5 (s.staging 0x2300), 0) :=
  (if_neg (by simp [h])).trans (if_neg (by simp [hkeep]))

/-! ### Restored defaults and StoreAll (17 R449) -/

theorem exec_restoreDefaults {s : State} (hup : s.mailboxUp = true) {v : Nat} (hv : v < 2 ^ 32) :
    exec (.restoreDefaults v) s = .next (s.answerWrite 0x1011 1 false (applyRestore v s)) :=
  congrArg Host.Outcome.next (s.trigger_up _ _ _ _ _ _ _ hup (Nat.zero_le v) (by omega))

theorem applyRestore_refused {s : State} {v : Nat} (h : v ≠ 0x64616F6C) : applyRestore v s = (s, 0x01F3) := if_pos (by simpa using h)

theorem exec_storeAll {s : State} (hup : s.mailboxUp = true) {v : Nat} (hv : v < 2 ^ 32) :
    exec (.storeAll v) s = .next (s.answerWrite 0x1010 1 false (applyStoreAll v s)) :=
  congrArg Host.Outcome.next (s.trigger_up _ _ _ _ _ _ _ hup (Nat.zero_le v) (by omega))

theorem applyStoreAll_refused {s : State} {v : Nat} (h : v ≠ 0x65766173) : applyStoreAll v s = (s, 0x01F3) := if_pos (by simpa using h)

/-- A write that its action refuses with a code is answered with an abort. -/
theorem State.answerWrite_code (s : State) (idx sub : Nat) (commit : Bool) {r : Applied} {u : State} {d : Nat} (h : r = (u, d))
    (hd : d ≠ 0) : s.answerWrite idx sub commit r = s.abort idx sub (abortCode commit d) d := by
  rw [h, State.answerWrite_refused _ _ _ _ _ _ hd]

/-- Settles O31: each pair and trigger by its own row and its action's cases. -/
theorem pairsTakeEffect : Obligations.PairsTakeEffect := by
  unfold Obligations.PairsTakeEffect
  intro s hup client jobs
  rw [exec_quotaCommit hup, exec_layoutCommit hup]
  refine ⟨fun hlo hne => ?_, fun hkeep hle hroom => ⟨_, by rw [applyQuota_set hkeep hle hroom], s.withQuotas_office _, ?_⟩,
    fun hkeep hall => ⟨_, by rw [applyQuota_deleted hkeep hall], s.withQuotas_office _⟩, fun h => ?_,
    fun h hkeep => ⟨_, by rw [applyLayout_kept h hkeep], s.keepSubs_office _ _ _ _, fun k => s.keepSubs_dget _ _ _⟩,
    exec_restoreDefaults hup (by decide), fun v hv hne => ?_, fun v hv hne => ?_⟩
  · rw [State.answerWrite_code _ _ _ _ (applyQuota_illegal hlo hne) (by decide)]
    rfl
  · rw [State.quota, State.withQuotas_office, kvGet_kvSet_self]
  · rw [State.answerWrite_code _ _ _ _ (applyLayout_disagrees h) (by decide)]
    rfl
  · rw [exec_restoreDefaults hup hv, State.answerWrite_code _ _ _ _ (applyRestore_refused hne) (by decide)]
    rfl
  · rw [exec_storeAll hup hv, State.answerWrite_code _ _ _ _ (applyStoreAll_refused hne) (by decide)]
    rfl

end Sys2Proof.Machine
end

section
/-! Suspensions and resumes that the dictionary asks for (11 R286, R287, R290, R295, R299). -/

namespace Sys2Proof.Machine
open Sys2Proof

/-! ### The start of a suspension (11 R287) -/

/-- A context whose suspension has begun in save slot `i`. -/
def Ctx.suspendIn (x : Ctx) (i : Nat) (held : Bool) : Ctx :=
  { x with
    wasHalted := x.queue.qs == .halted
    suspending := true
    held := held
    saveSlot := some i
    queue := { x.queue with qs := .preempted } }

section
variable {s : State} {c i : Nat} {x : Ctx} (hx : s.ctx? c = some x) (hi : s.freeSlot x.partition = some i) (held : Bool)
include hx hi

theorem State.suspendStart_ctx? : (s.suspendStart c held).ctx? c = some (x.suspendIn i held) := by
  unfold State.suspendStart
  rw [hx]
  dsimp only
  rw [hi]
  exact State.ctx?_setCtx (f := fun y => y.suspendIn i held) hx fun _ => rfl

theorem State.suspendStart_saveUsed : (s.suspendStart c held).office.saveUsed = s.office.saveUsed ++ [(x.partition, i)] := by
  unfold State.suspendStart
  rw [hx]
  dsimp only
  rw [hi]
  rfl

/-- The tasks of the context leave the cells: those at work stopped, the others withdrawn. -/
theorem State.suspendStart_tasks {k : Task} (hk : k ∈ (s.suspendStart c held).office.tasks) (hc : k.ctx = c) :
    k.phase = .stopped ∨ k.phase = .withdrawn := by
  unfold State.suspendStart at hk
  rw [hx] at hk
  dsimp only at hk
  rw [hi] at hk
  obtain ⟨t, -, rfl⟩ := List.mem_map.mp hk
  by_cases ht : t.ctx = c
  · by_cases hrun : t.phase = .running <;> simp [ht, hrun]
  · simp [ht] at hc

end

@[simp] theorem State.suspendStart_mem (s : State) (c : Nat) (held : Bool) : (s.suspendStart c held).mem = s.mem := by
  unfold State.suspendStart
  split
  · rfl
  · split <;> rfl

/-! ### Requests (11 R299) -/

section
variable {s : State} (hup : s.mailboxUp = true)
include hup

theorem exec_suspendContext {c : Nat} (hc : c < 2 ^ 32) :
    exec (.suspendContext c) s = .next (s.answerWrite 0x2350 4 false (s.suspendReq c)) :=
  congrArg Host.Outcome.next (s.trigger_up _ _ _ _ _ _ _ hup (Nat.zero_le c) (by omega))

theorem exec_resumeContext {c : Nat} (hc : c < 2 ^ 32) :
    exec (.resumeContext c) s = .next (s.answerWrite 0x2350 5 false (s.resumeReq c)) :=
  congrArg Host.Outcome.next (s.trigger_up _ _ _ _ _ _ _ hup (Nat.zero_le c) (by omega))

theorem exec_suspendPartition {p : Nat} (hp : p < 4) :
    exec (.suspendPartition p) s = .next (s.answerWrite 0x2350 6 false (s.suspendPart p)) :=
  congrArg Host.Outcome.next (s.trigger_up _ _ _ _ _ _ _ hup (Nat.zero_le p) (by omega))

end

section
variable {s : State} {c : Nat} {x : Ctx} (hx : s.ctx? c = some x)
include hx

theorem State.suspendReq_not_live (h : x.state ≠ .live) : s.suspendReq c = (s, 0x0191) := by
  rw [State.suspendReq, hx]
  exact if_pos (by simpa using h)

theorem State.suspendReq_no_slot (h : x.state = .live) (hs : x.suspending = false) (hfree : s.freeSlot x.partition = none) :
    s.suspendReq c = (s, 0x0292) := by
  rw [State.suspendReq, hx]
  simp [h, hs, hfree]

theorem State.suspendReq_starts {i : Nat} (h : x.state = .live) (hs : x.suspending = false) (hfree : s.freeSlot x.partition = some i) :
    s.suspendReq c = (s.suspendStart c true, 0) := by
  rw [State.suspendReq, hx]
  simp [h, hs, hfree]

theorem State.resumeReq_not_suspended (h : x.state ≠ .suspended) : s.resumeReq c = (s, 0x0191) := by
  rw [State.resumeReq, hx]
  exact if_pos (by simpa using h)

theorem State.resumeReq_suspended (h : x.state = .suspended) :
    s.resumeReq c = (s.setCtx c (fun x => { x with held := false }), 0) := by
  rw [State.resumeReq, hx]
  exact if_neg (by simp [h])

end

/-! ### A whole partition (11 R286) -/

/-- The Live contexts of a partition. -/
def State.liveIn (s : State) (p : Nat) : List Ctx := s.office.ctxs.filter (fun x => x.partition == p && x.state == .live)

/-- The free save slots of a partition. -/
def State.freeSlots (s : State) (p : Nat) : List Nat := (List.range s.mem.saveSlots).filter (s.slotFree p)

section
variable {s : State} {p : Nat}

theorem State.suspendPart_absent (h : s.partExists p = false) : s.suspendPart p = (s, 0x01F0) := if_pos (by simp [h])

theorem State.suspendPart_no_room (h : s.partExists p = true) (hroom : (s.freeSlots p).length < (s.liveIn p).length) :
    s.suspendPart p = (s, 0x0292) :=
  (if_neg (by simp [h])).trans (if_pos hroom)

/-- Where there is room and none is suspending yet, each Live context's suspension starts. -/
theorem State.suspendPart_starts (h : s.partExists p = true) (hs : ∀ x ∈ s.liveIn p, x.suspending = false)
    (hroom : (s.liveIn p).length ≤ (s.freeSlots p).length) :
    s.suspendPart p = ((s.liveIn p).foldl (fun s x => s.suspendStart x.number true) s, 0) := by
  refine (if_neg (by simp [h])).trans ((if_neg hroom.not_gt).trans (congrArg (·, 0) ?_))
  exact List.foldl_ext _ _ _ fun t x hx => if_neg (by simp [hs x hx])

end

/-- Settles O33: the requests on a context and on a partition, each by the cases of its request. -/
theorem suspensionsBegin : Obligations.SuspensionsBegin := by
  unfold Obligations.SuspensionsBegin
  refine ⟨fun s c i x hup hc hx => ?_, fun s p hup hp => ?_⟩
  · rw [exec_suspendContext hup hc, exec_resumeContext hup hc]
    refine ⟨fun h => ?_, fun h hs hfree => ?_, fun h hs hfree => ⟨s.suspendStart c true, ?_, State.suspendStart_ctx? hx hfree true,
      State.suspendStart_saveUsed hx hfree true, fun k => State.suspendStart_tasks hx hfree true, s.suspendStart_mem c true⟩,
      fun h => ?_, fun h => ?_⟩
    · rw [State.answerWrite_code _ _ _ _ (State.suspendReq_not_live hx h) (by decide)]
      rfl
    · rw [State.answerWrite_code _ _ _ _ (State.suspendReq_no_slot hx h hs hfree) (by decide)]
      rfl
    · rw [State.suspendReq_starts hx h hs hfree]
    · rw [State.answerWrite_code _ _ _ _ (State.resumeReq_not_suspended hx h) (by decide)]
      rfl
    · rw [State.resumeReq_suspended hx h]
  · rw [exec_suspendPartition hup hp]
    refine ⟨fun h => ?_, fun h _ hroom => ?_, fun h hnone => ?_, fun h hs hroom => ?_⟩
    · rw [State.answerWrite_code _ _ _ _ (State.suspendPart_absent h) (by decide)]
      rfl
    · rw [State.answerWrite_code _ _ _ _ (State.suspendPart_no_room h hroom) (by decide)]
      rfl
    · have hlive : s.liveIn p = [] := hnone
      rw [State.suspendPart_starts h (by simp [hlive]) (by simp [hlive]), hlive]
      rfl
    · rw [State.suspendPart_starts h hs hroom]
      rfl

end Sys2Proof.Machine
end

section
/-! What a module sends and notes of itself (16 R409 to R415, R424, 19 R511): the frame of replies, reports and entries of states. -/

namespace Sys2Proof.Machine
open Sys2Proof

/-- Nothing but the counters, the courier, the store, the fault records and the free values drawn has changed. -/
def State.reportStep (s t : State) : Prop := ∃ epoch tele net store faults,
  t = { s with epoch := epoch, tele := tele, net := net, store := store, faults := faults }

theorem State.reportStep.refl (s : State) : s.reportStep s := ⟨_, _, _, _, _, rfl⟩

theorem State.reportStep.trans {s t u : State} (h : s.reportStep t) (h' : t.reportStep u) : s.reportStep u := by
  obtain ⟨_, _, _, _, _, rfl⟩ := h
  obtain ⟨_, _, _, _, _, rfl⟩ := h'
  exact ⟨_, _, _, _, _, rfl⟩

theorem State.reportStep.mem {s t : State} (h : s.reportStep t) : t.mem = s.mem := by
  obtain ⟨_, _, _, _, _, rfl⟩ := h
  rfl

theorem State.reportStep.office {s t : State} (h : s.reportStep t) : t.office = s.office := by
  obtain ⟨_, _, _, _, _, rfl⟩ := h
  rfl

theorem State.reportStep.cs {s t : State} (h : s.reportStep t) : t.cs = s.cs := by
  obtain ⟨_, _, _, _, _, rfl⟩ := h
  rfl

theorem State.logStep.report {s t : State} (h : s.logStep t) : s.reportStep t := by
  obtain ⟨_, _, _, _, rfl⟩ := h
  exact ⟨_, _, _, _, _, rfl⟩

theorem State.bump_reportStep (s : State) (i j n : Nat) : s.reportStep (s.bump i j n) := ⟨_, _, _, _, _, rfl⟩

theorem State.emit_reportStep (s : State) (x : Session) (m : SentMsg) : s.reportStep (s.emit x m) := by
  unfold State.emit State.putDgram
  split <;> exact ⟨_, _, _, _, _, rfl⟩

theorem State.sendMsg_reportStep (s : State) (id type status post : Nat) (body : Bytes) :
    s.reportStep (s.sendMsg id type status post body) := by
  unfold State.sendMsg
  split
  · exact .refl s
  · dsimp only
    split
    · exact State.reportStep.trans ⟨_, _, _, _, _, rfl⟩ (State.emit_reportStep _ _ _)
    · exact ⟨_, _, _, _, _, rfl⟩

theorem State.endClosing_reportStep (s : State) (id : Nat) : s.reportStep (s.endClosing id) := by
  unfold State.endClosing
  split
  · exact .refl s
  · split
    · exact ⟨_, _, _, _, _, rfl⟩
    · exact .refl s

theorem State.reply_reportStep (s : State) (id seq status post value : Nat) : s.reportStep (s.reply id seq status post value) :=
  (s.sendMsg_reportStep _ _ _ _ _).trans (State.endClosing_reportStep _ _)

theorem State.progress_reportStep (s : State) (c : Nat) : s.reportStep (s.progress c) := by
  unfold State.progress
  split
  · exact .refl s
  · split
    · exact .refl s
    · exact s.sendMsg_reportStep _ _ _ _ _

/-- A context that enters a state changes in that alone, and the rest is report. -/
theorem State.enter_reportStep (s : State) (c : Nat) (st : CtxState) :
    (s.setCtx c (fun x => { x with state := st })).reportStep (s.enter c st) := by
  unfold State.enter
  split
  next hnone =>
    rw [State.setCtx_eq_self fun y hy hc => absurd hc ((s.ctx?_eq_none_iff c).mp hnone y hy)]
    exact .refl s
  next => exact (State.post_logStep _ _ _ _ _).report.trans (State.progress_reportStep _ _)

theorem State.enter_ctx? {s : State} {c : Nat} {x : Ctx} (h : s.ctx? c = some x) (st : CtxState) :
    (s.enter c st).ctx? c = some { x with state := st } := by
  rw [State.ctx?_congr (congrArg Office.ctxs (s.enter_reportStep c st).office)]
  exact State.ctx?_setCtx h fun _ => rfl

@[simp] theorem State.enter_mem (s : State) (c : Nat) (st : CtxState) : (s.enter c st).mem = s.mem := (s.enter_reportStep c st).mem

end Sys2Proof.Machine
end

section
/-! Jobs that ask for a context (11 R275, R279, R297, 16 R419, R420), and the sequence that a free slot goes to (11 R281, R282). -/

namespace Sys2Proof.Machine
open Sys2Proof

/-! ### The first code of several checks -/

theorem firstCode_ne {d : Nat} (hd : d ≠ 0) {l : List Nat} (h : ∀ c ∈ l, c ≠ d) : firstCode l ≠ d := by
  induction l with
  | nil => exact hd.symm
  | cons c l ih =>
    unfold firstCode
    split
    · exact ih fun c' hc' => h c' (List.mem_cons_of_mem _ hc')
    · exact h c List.mem_cons_self

theorem rule_ne {d code : Nat} (hd : d ≠ 0) (hcode : code ≠ d) (broken : Bool) : rule broken code ≠ d := by
  unfold rule
  split
  · exact hcode
  · exact hd.symm

/-- The checks of a record itself never answer that a quota is used up. -/
theorem State.checkRecord_ne_quota (s : State) (imported : Bool) (client : Nat) (r : JobRec) :
    s.checkRecord imported client r ≠ 0x0290 := by
  refine firstCode_ne (by decide) ?_
  simp only [List.mem_cons, List.not_mem_nil, or_false, forall_eq_or_imp, forall_eq]
  exact ⟨rule_ne (by decide) (by decide) _, rule_ne (by decide) (by decide) _, rule_ne (by decide) (by decide) _,
    rule_ne (by decide) (by decide) _⟩

section
variable {s : State} {client : Nat}

theorem State.checkQuota_full (h : s.quota client ≤ s.jobsInFlight client) : s.checkQuota client = 0x0290 := by
  simp [State.checkQuota, firstCode, rule, h]

theorem State.checkQuota_room {n : Nat} (h : s.jobsInFlight client < s.quota client) (hn : s.freeCtxNumber = some n) :
    s.checkQuota client = 0 := by
  simp [State.checkQuota, firstCode, rule, h.not_ge, hn]

/-- The number that a new job takes is no context's. -/
theorem State.ctx?_freeCtxNumber {n : Nat} (h : s.freeCtxNumber = some n) : s.ctx? n = none := by
  unfold State.freeCtxNumber at h
  split at h
  · cases h
  · simpa using List.find?_some h

end

theorem State.refuseJob_quota (s : State) (sess seq : Nat) :
    s.refuseJob sess seq 0x0290 = (s.bump 0x31D0 2 1).reply sess seq 0x0290 0 0 := rfl

theorem State.refuseJob_of_ne (s : State) (sess seq : Nat) {code : Nat} (h : code ≠ 0x0290) :
    s.refuseJob sess seq code = s.reply sess seq code 0 0 := by
  rw [State.refuseJob, if_neg (by simpa using h)]

/-! ### A job taken into a context -/

/-- A context is listed as the last accepted. -/
def State.listed (s : State) (x : Ctx) : State :=
  { s with office := { s.office with ctxs := s.office.ctxs ++ [x], accepts := s.office.accepts + 1 } }

@[simp] theorem State.listed_mem (s : State) (x : Ctx) : (s.listed x).mem = s.mem := rfl
@[simp] theorem State.listed_ctxs (s : State) (x : Ctx) : (s.listed x).office.ctxs = s.office.ctxs ++ [x] := rfl
@[simp] theorem State.listed_saveUsed (s : State) (x : Ctx) : (s.listed x).office.saveUsed = s.office.saveUsed := rfl

/-- A context whose number was Free is listed, and the rest is report. -/
theorem State.acceptCtx_reportStep {s : State} (sess seq : Nat) {x : Ctx} (h : s.ctx? x.number = none) :
    (s.listed x).reportStep (s.acceptCtx sess seq x) := by
  have answered : (s.listed x).reportStep
      (((s.listed x).bump 0x31D0 1 1).reply sess seq 0 ((s.listed x).postmark x.partition) x.number) :=
    (State.bump_reportStep _ _ _ _).trans (State.reply_reportStep _ _ _ _ _ _)
  refine answered.trans ?_
  have entered := State.enter_reportStep (((s.listed x).bump 0x31D0 1 1).reply sess seq 0 ((s.listed x).postmark x.partition) x.number)
    x.number x.state
  rwa [State.setCtx_eq_self] at entered
  intro y hy hnumber
  rw [answered.office] at hy
  rcases List.mem_append.mp hy with hold | hnew
  · exact absurd hnumber ((s.ctx?_eq_none_iff _).mp h y hold)
  · rw [List.mem_singleton.mp hnew]

/-! ### SUBMIT -/

theorem exec_submit {s : State} {d : Dgram} {x : Session} (h : s.brings d 0x20 x)
    (hp : s.partStopped (JobRec.parse (Msg.parse d.bytes).body).partition = false) : exec (.submit d) s =
      .next ((s.received d x).submitJob x.id x.client (Msg.parse d.bytes).seq (Msg.parse d.bytes).body) := by
  have taken : ¬s.notTaken d 0x20 false = true := by simp [State.notTaken, hp]
  exact congrArg Host.Outcome.next ((if_neg taken).trans (State.courier_of_brings h (by decide) rfl))

/-- What refuses a submitted job: 0 where it passes every check. -/
def State.submitCode (s : State) (client : Nat) (r : JobRec) : Nat :=
  firstCode [s.checkRecord false client r, s.checkQuota client, s.checkQueue r.ringLog2 r.ringBase r.compBase,
    rule (!s.canJoin (s.jobCountRec client)) 0x02F6]

/-- A job of a client is counted in its lifetime (11 R279). -/
def State.jobCounted (s : State) (client : Nat) : State :=
  ({ s with office := { s.office with
    lifetime := kvSet client (kvGet client 0 s.office.lifetime + 1) s.office.lifetime } } : State).journal false (s.jobCountRec client)

theorem State.jobCounted_office (s : State) (client : Nat) : (s.jobCounted client).office =
    { s.office with lifetime := kvSet client (kvGet client 0 s.office.lifetime + 1) s.office.lifetime } :=
  (State.journal_logStep _ _ _).office

theorem State.jobCounted_ctxs (s : State) (client : Nat) : (s.jobCounted client).office.ctxs = s.office.ctxs := by
  rw [State.jobCounted_office]

theorem State.jobCounted_mem (s : State) (client : Nat) : (s.jobCounted client).mem = s.mem := (State.journal_logStep _ _ _).mem

/-- The context that a submitted job takes: Waiting, its queue Idle (log entry 37). -/
def JobRec.waiting (r : JobRec) (n client order sess : Nat) : Ctx :=
  ⟨n, .waiting, r.priority, false, r.partition, false, client, r.seqTag, r.jobId, none, 0, 0, 0, order, false,
    ⟨r.ringBase, r.ringLog2, r.compBase, r.tail, 0, r.descBase, .idle⟩, r.job sess⟩

section
variable (s : State) (sess client seq : Nat) (body : Bytes)

theorem State.submitJob_refused (h : s.submitCode client (JobRec.parse body) ≠ 0) :
    s.submitJob sess client seq body = s.refuseJob sess seq (s.submitCode client (JobRec.parse body)) :=
  if_pos (bne_iff_ne.mpr h)

theorem State.submitJob_accepted {n : Nat} (h : s.submitCode client (JobRec.parse body) = 0) (hn : s.freeCtxNumber = some n) :
    s.submitJob sess client seq body = ((s.jobCounted client).acceptCtx sess seq
      ((JobRec.parse body).waiting n client s.office.accepts sess)).startCtx n := by
  refine (if_neg fun hne => bne_iff_ne.mp hne h).trans ?_
  have horder : (s.jobCounted client).office.accepts = s.office.accepts := by rw [State.jobCounted_office]
  rw [hn, ← horder]
  rfl

end

/-! ### IMPORT -/

theorem exec_importJob {s : State} {d : Dgram} {x : Session} (h : s.brings d 0x22 x)
    (hp : s.partStopped (JobRec.parse (Msg.parse d.bytes).body).partition = false) : exec (.importJob d) s =
      .next ((s.received d x).importCtx x.id x.client (Msg.parse d.bytes).seq (Msg.parse d.bytes).body) := by
  have taken : ¬s.notTaken d 0x22 true = true := by simp [State.notTaken, hp]
  exact congrArg Host.Outcome.next ((if_neg taken).trans (State.courier_of_brings h (by decide) rfl))

/-- The length that the header of a save area gives. -/
def State.areaLen (s : State) (a : Nat) : Nat := leAt (s.readBytes a 64) 8 8

/-- A save area as it stands in memory. -/
def State.areaAt (s : State) (a : Nat) : Bytes := s.readBytes a (s.areaLen a)

/-- The queue that a save area's queue block holds, Pre-empted (11 R290). -/
def savedQueue (area : Bytes) : Queue :=
  let qb := leAt area 128 32
  ⟨bits qb 0 40, bits qb 40 5, bits qb 64 40, bits qb 128 32, bits qb 160 32, bits qb 192 40, .preempted⟩

/-- What refuses a job for its save area's contents: 0 where they are good. -/
def State.areaCode (s : State) (area : Bytes) : Nat :=
  firstCode [rule (!areaGood area) 0x0390, rule (!recordsGood area) 0x0190,
    s.checkQueue (savedQueue area).ringLog2 (savedQueue area).ringBase (savedQueue area).compBase]

/-- A save area at `a` is copied into save slot `i` of a partition, which context `n` claims (11 R297). -/
def State.areaPlaced (s : State) (a p n i : Nat) : State :=
  let t := ((s.readRuns [(a, s.areaLen a)]).writeBytes (s.slotAddr p i) (s.areaAt a)).bump 0x31D0 5 (s.areaLen a)
  { t with office := { t.office with
      saveUsed := t.office.saveUsed ++ [(p, i)]
      saveSums := kvSet n (leAt (s.areaAt a) 60 4) t.office.saveSums
      saveBases := kvSet n (t.slotAddr p i) t.office.saveBases } }

theorem State.writeBytes_office (s : State) (a : Nat) (bs : Bytes) : (s.writeBytes a bs).office = s.office :=
  (s.writeBytes_memoryStep a bs).office

theorem State.areaCopied_office (s : State) (l : List (Nat × Nat)) (a : Nat) (bs : Bytes) :
    ((s.readRuns l).writeBytes a bs).office = s.office := by
  rw [State.writeBytes_office, (s.readRuns_memoryStep l).office]

theorem State.areaPlaced_ctxs (s : State) (a p n i : Nat) : (s.areaPlaced a p n i).office.ctxs = s.office.ctxs := by
  simp only [State.areaPlaced, State.bump_keeps_office, State.areaCopied_office]

theorem State.areaPlaced_saveUsed (s : State) (a p n i : Nat) :
    (s.areaPlaced a p n i).office.saveUsed = s.office.saveUsed ++ [(p, i)] := by
  simp only [State.areaPlaced, State.bump_keeps_office, State.areaCopied_office]

theorem State.areaPlaced_mem (s : State) (a p n i : Nat) : (s.areaPlaced a p n i).mem =
    ((s.readRuns [(a, s.areaLen a)]).writeBytes (s.slotAddr p i) (s.areaAt a)).mem := by
  simp only [State.areaPlaced, State.bump_keeps_mem]

/-- The context that an imported job takes: Suspended in save slot `i`. -/
def JobRec.imported (r : JobRec) (area : Bytes) (n i len client order sess : Nat) : Ctx :=
  ⟨n, .suspended, r.priority, false, r.partition, bit (leAt area 67 1) 6, client, r.seqTag, r.jobId, some i, len, leAt area 92 4,
    leAt area 160 8, order, false, savedQueue area, r.job sess⟩

section
variable {s : State} {client n i : Nat} {body : Bytes} (sess seq : Nat) (hr : s.checkRecord true client (JobRec.parse body) = 0)
  (hq : s.jobsInFlight client < s.quota client) (hn : s.freeCtxNumber = some n)
  (hi : s.freeSlot (JobRec.parse body).partition = some i) (hhead : beAt body 64 8 + 64 ≤ s.mem.windowBytes)
  (hend : beAt body 64 8 + s.areaLen (beAt body 64 8) ≤ s.mem.windowBytes) (hpoison : s.mem.poisonIn (beAt body 64 8) 64 = [])
  (hpoison' : s.mem.poisonIn (beAt body 64 8) (s.areaLen (beAt body 64 8)) = [])
  (hlegal : headerIllegal (s.readBytes (beAt body 64 8) 64) (s.slotBytes (JobRec.parse body).partition) = false)
include hr hq hn hi hhead hend hpoison hpoison' hlegal

/-- An import whose record, place and header are good is judged by its area's contents. -/
theorem State.importCtx_by_area : s.importCtx sess client seq body =
    if s.areaCode (s.areaAt (beAt body 64 8)) != 0 then s.refuseJob sess seq (s.areaCode (s.areaAt (beAt body 64 8)))
    else (s.areaPlaced (beAt body 64 8) (JobRec.parse body).partition n i).acceptCtx sess seq
      ((JobRec.parse body).imported (s.areaAt (beAt body 64 8)) n i (s.areaLen (beAt body 64 8)) client
        (s.areaPlaced (beAt body 64 8) (JobRec.parse body).partition n i).office.accepts sess) := by
  have hlen : leAt (s.readBytes (beAt body 64 8) 64) 8 8 = s.areaLen (beAt body 64 8) := rfl
  have harea : s.readBytes (beAt body 64 8) (s.areaLen (beAt body 64 8)) = s.areaAt (beAt body 64 8) := rfl
  have hcode (l : List Nat) : firstCode (s.checkRecord true client (JobRec.parse body) :: s.checkQuota client ::
      rule (some i).isNone 0x0292 :: rule false 0x0190 :: l) = firstCode l := by
    simp [hr, State.checkQuota_room hq hn, firstCode, rule]
  unfold State.importCtx
  simp only [decide_eq_true hhead, if_true, hlen, decide_eq_true hend, harea, Bool.and_self, hpoison, hpoison', hlegal,
    decide_eq_false hend.not_gt, bne_self_eq_false, Bool.not_true, Bool.or_self, Bool.false_or, hcode, hi, hn,
    Option.getD_some, State.areaPlaced, State.areaCode, JobRec.imported, savedQueue]
  rfl

theorem State.importCtx_refused {code : Nat} (h : s.areaCode (s.areaAt (beAt body 64 8)) = code) (hne : code ≠ 0)
    (hquota : code ≠ 0x0290) : s.importCtx sess client seq body = s.reply sess seq code 0 0 := by
  rw [State.importCtx_by_area sess seq hr hq hn hi hhead hend hpoison hpoison' hlegal, h,
    if_pos (bne_iff_ne.mpr hne), State.refuseJob_of_ne _ _ _ hquota]

/-- An import that passes every check copies its area into the save slot it claims, and lists its context (11 R297). -/
theorem State.importCtx_accepted (h : s.areaCode (s.areaAt (beAt body 64 8)) = 0) :
    (s.importCtx sess client seq body).mem = ((s.readRuns [(beAt body 64 8, s.areaLen (beAt body 64 8))]).writeBytes
      (s.slotAddr (JobRec.parse body).partition i) (s.areaAt (beAt body 64 8))).mem ∧
    (s.importCtx sess client seq body).office.saveUsed = s.office.saveUsed ++ [((JobRec.parse body).partition, i)] ∧
    ∃ order, (s.importCtx sess client seq body).office.ctxs = s.office.ctxs ++
      [(JobRec.parse body).imported (s.areaAt (beAt body 64 8)) n i (s.areaLen (beAt body 64 8)) client order sess] := by
  rw [State.importCtx_by_area sess seq hr hq hn hi hhead hend hpoison hpoison' hlegal, h, if_neg (by simp)]
  have hnew : (s.areaPlaced (beAt body 64 8) (JobRec.parse body).partition n i).ctx? n = none := by
    rw [State.ctx?_congr (State.areaPlaced_ctxs _ _ _ _ _), State.ctx?_freeCtxNumber hn]
  generalize (s.areaPlaced (beAt body 64 8) (JobRec.parse body).partition n i).office.accepts = order
  have taken := State.acceptCtx_reportStep sess seq (x := (JobRec.parse body).imported (s.areaAt (beAt body 64 8)) n i
    (s.areaLen (beAt body 64 8)) client order sess) hnew
  refine ⟨?_, ?_, order, ?_⟩
  · rw [taken.mem, State.listed_mem, State.areaPlaced_mem]
  · rw [taken.office, State.listed_saveUsed, State.areaPlaced_saveUsed]
  · rw [taken.office, State.listed_ctxs, State.areaPlaced_ctxs]

end

/-! ### SLOT_GRANT -/

/-- The context whose sequence takes a free slot next competes for it, and goes before every other that does (11 R281, R282). -/
theorem State.nextSequence_spec {s : State} {y : Ctx} (h : s.nextSequence = some y) :
    s.competes y = true ∧ ∀ z ∈ s.office.ctxs, s.competes z = true → y.before z = true := by
  unfold State.nextSequence at h
  dsimp only at h
  have hall := List.find?_some h
  refine ⟨(List.mem_filter.mp (List.mem_of_find?_eq_some h)).2, fun z hz hcompetes => ?_⟩
  exact List.all_eq_true.mp hall z (List.mem_filter.mpr ⟨hz, hcompetes⟩)

/-- The lowest free slot is given to a context's sequence. -/
def State.slotGiven (s : State) (y : Ctx) : State :=
  { s with office := { s.office with
      seqSlots := modifyAt (fun _ => some (y.client, y.seqTag)) (s.office.seqSlots.idxOf none) s.office.seqSlots } }

theorem exec_slotGrant {s : State} {y : Ctx} (hfree : s.office.seqSlots.contains none = true) (hy : s.nextSequence = some y) :
    exec .slotGrant s = .next ((s.office.ctxs.filter (fun z => z.client == y.client && z.seqTag == y.seqTag && z.state == .waiting)).foldl
      (fun s z => s.startCtx z.number) (s.slotGiven y)) := by
  refine congrArg Host.Outcome.next ?_
  rw [State.grantSlot, if_neg (by simpa using hfree), hy]
  rfl

/-- Settles O48: submitted jobs by their code, imported ones by their area's, and the slot by the choice of its sequence. -/
theorem jobsAreAccepted : Obligations.JobsAreAccepted := by
  unfold Obligations.JobsAreAccepted
  refine ⟨fun s d x n => ?_, fun s d x n i => ?_, fun s y hfree hy => ⟨State.nextSequence_spec hy, s.slotGiven y, rfl,
    exec_slotGrant hfree hy⟩⟩
  · intro m r u hb hp
    rw [exec_submit hb hp]
    refine ⟨fun code hcode hne => ?_, fun hr hfull => ?_, fun hr hroom hn hq hj => ?_⟩
    · have hfirst : u.submitCode x.client r = code := by simp [State.submitCode, firstCode, hcode, hne]
      have hquota : code ≠ 0x0290 := hcode ▸ u.checkRecord_ne_quota false x.client r
      rw [State.submitJob_refused _ _ _ _ _ (hfirst.trans_ne hne), hfirst, State.refuseJob_of_ne _ _ _ hquota]
    · have hfirst : u.submitCode x.client r = 0x0290 := by simp [State.submitCode, firstCode, hr, State.checkQuota_full hfull]
      rw [State.submitJob_refused _ _ _ _ _ (hfirst.trans_ne (by decide)), hfirst, State.refuseJob_quota]
    · have hfirst : u.submitCode x.client r = 0 := by
        simp [State.submitCode, firstCode, rule, hr, State.checkQuota_room hroom hn, hq, hj]
      have hnew : (u.jobCounted x.client).ctx? n = none := by
        rw [State.ctx?_congr (u.jobCounted_ctxs x.client), State.ctx?_freeCtxNumber hn]
      have taken := State.acceptCtx_reportStep x.id m.seq (x := r.waiting n x.client u.office.accepts x.id) hnew
      refine ⟨_, congrArg _ (State.submitJob_accepted _ _ _ _ _ hfirst hn), ?_, ?_, ?_⟩
      · rw [taken.office, State.listed_ctxs, State.jobCounted_ctxs]
        rfl
      · exact taken.mem.trans (u.jobCounted_mem x.client)
      · rw [taken.office, State.listed, State.jobCounted_office, kvGet_kvSet_self]
  · intro m r u a k area qb hb hp hr hroom hn hi hhead hend hpoison hpoison' hlegal
    rw [exec_importJob hb hp]
    refine ⟨fun hbad => ?_, fun hgood hbad => ?_, fun hgood hrecords hq => ?_⟩
    · have hfirst : u.areaCode area = 0x0390 := by simp [State.areaCode, firstCode, rule, hbad]
      exact congrArg _ (State.importCtx_refused x.id m.seq hr hroom hn hi hhead hend hpoison hpoison' hlegal hfirst (by decide)
        (by decide))
    · have hfirst : u.areaCode area = 0x0190 := by simp [State.areaCode, firstCode, rule, hgood, hbad]
      exact congrArg _ (State.importCtx_refused x.id m.seq hr hroom hn hi hhead hend hpoison hpoison' hlegal hfirst (by decide)
        (by decide))
    · have hqueue : u.checkQueue (savedQueue area).ringLog2 (savedQueue area).ringBase (savedQueue area).compBase = 0 := hq
      have hfirst : u.areaCode area = 0 := by simp [State.areaCode, firstCode, rule, hgood, hrecords, hqueue]
      obtain ⟨hmem, hused, _, hctxs⟩ :=
        State.importCtx_accepted x.id m.seq hr hroom hn hi hhead hend hpoison hpoison' hlegal hfirst
      exact ⟨_, rfl, hmem, hused, _, hctxs, rfl, rfl, rfl, rfl, rfl⟩

end Sys2Proof.Machine
end

section
/-! How a suspension comes to its end in a save area (11 R286, R287). -/

namespace Sys2Proof.Machine
open Sys2Proof

/-! ### A wait that a priority trigger ends -/

theorem exec_preemptWaitExpiry {s : State} {cell c idx task v : Nat} {k : Task} {x : Ctx}
    (hk : s.office.tasks.find? (fun t => t.cell == cell && t.ctx == c && t.idx == idx && t.pane == task && t.phase == .posted) = some k)
    (hwait : s.dget 0x2350 1 ≠ 0xFFFFFFFF) (hv : s.victim cell k.prio = some v) (hx : s.ctx? v = some x) (hlive : x.state = .live)
    (hs : x.suspending = false) (hfirst : ∀ g ∈ s.office.triggers, g.2 ≠ v) :
    exec (.preemptWaitExpiry cell c idx task) s = .next (
      if (s.freeSlot x.partition).isSome then s.suspendStart v false
      else { s with office := { s.office with triggers := s.office.triggers ++ [(x.partition, v)] } }) := by
  have hnew : s.office.triggers.any (fun g => g.2 == v) = false := by simpa using hfirst
  refine congrArg Host.Outcome.next ?_
  rw [hk]
  dsimp only
  rw [if_neg (by simpa using hwait), hv]
  dsimp only
  rw [hx]
  exact if_neg (by simp [hlive, hs, hnew])

/-! ### The save area -/

@[simp] theorem State.stopTasks_ctxs (s : State) (x : Ctx) : (s.stopTasks x).office.ctxs = s.office.ctxs := by
  unfold State.stopTasks
  refine foldl_related (R := fun s t : State => t.office.ctxs = s.office.ctxs) (fun _ => rfl) (fun h h' => h'.trans h) ?_ _ s
  exact fun _ _ => rfl

/-- The records that a suspension of a context leaves, its tasks where they came to. -/
def State.recordsLeft (s : State) (x : Ctx) : List (Bytes × Bool) := (s.stopTasks x).savedRecords x

/-- The save area that a suspension of a context writes. -/
def State.areaLeft (s : State) (x : Ctx) : Bytes := (s.stopTasks x).saveArea x ((s.recordsLeft x).map (fun r => r.1))

/-- The units of a save area that are written as uncorrectable (11 R298). -/
def State.unitsLost (s : State) (x : Ctx) (i : Nat) : List Nat :=
  (s.stopTasks x).unsavedUnits ((s.stopTasks x).slotAddr x.partition i) (s.recordsLeft x) (s.areaLeft x).length

/-- The save area of a context is written to its slot. -/
def State.areaWritten (s : State) (x : Ctx) (i : Nat) : State :=
  (s.stopTasks x).writeBytes ((s.stopTasks x).slotAddr x.partition i) (s.areaLeft x)

/-- The save area of a context stands in its slot, what could not be saved marked. -/
def State.areaSaved (s : State) (x : Ctx) (i : Nat) : State :=
  if s.unitsLost x i = [] then s.areaWritten x i else (s.areaWritten x i).poisonUnits (s.unitsLost x i)

theorem State.areaSaved_ctxs (s : State) (x : Ctx) (i : Nat) : (s.areaSaved x i).office.ctxs = s.office.ctxs := by
  have written : (s.areaWritten x i).office.ctxs = s.office.ctxs := by
    rw [State.areaWritten, State.writeBytes_office, State.stopTasks_ctxs]
  unfold State.areaSaved
  split
  · exact written
  · exact written

/-! ### The end of the suspension -/

@[simp] theorem State.dropSlot_ctxs (s : State) (x : Ctx) : (s.dropSlot x).office.ctxs = s.office.ctxs := by
  unfold State.dropSlot
  dsimp only
  split <;> rfl

@[simp] theorem State.dropSlot_mem (s : State) (x : Ctx) : (s.dropSlot x).mem = s.mem := by
  unfold State.dropSlot
  dsimp only
  split <;> rfl

/-- A context whose save area of `n` bytes is written: its suspension is over, and counted. -/
def Ctx.saved (x : Ctx) (n : Nat) : Ctx := { x with suspending := false, saveBytes := n, preemptions := x.preemptions + 1 }

@[simp] theorem State.post_ctx? (s : State) (unit event status detail c : Nat) : (s.post unit event status detail).ctx? c = s.ctx? c :=
  rfl

@[simp] theorem State.bump_ctx? (s : State) (i j n c : Nat) : (s.bump i j n).ctx? c = s.ctx? c := rfl

/-- A suspension is whole once its context's units are quiet: its area is written, its context says so and enters Suspended, and its slot
and the cells go to others (11 R287 steps 4 and 6). -/
theorem State.saveDone_of_quiet {s : State} {c i : Nat} {x : Ctx} (hx : s.ctx? c = some x) (hi : x.saveSlot = some i)
    (hlive : x.state = .live) (hs : x.suspending = true) (hquiet : s.quiet c = true) :
    ∃ t : State, s.saveDone c = ((t.enter c .suspended).dropSlot x).serveTasks ∧ t.mem = (s.areaSaved x i).mem ∧
      t.ctx? c = some (x.saved (s.areaLeft x).length) := by
  unfold State.saveDone
  simp -zeta only [hx, hi]
  rw [if_neg (by simp [hs, hlive, hquiet])]
  extract_lets v recs area a bad w w' office' noted changed counted
  have hsaved : w' = (s.areaSaved x i).drew := congrArg State.drew (if_congr beq_iff_eq rfl rfl)
  have hmem : w'.mem = (s.areaSaved x i).mem := by rw [hsaved, State.drew_keeps_mem]
  have hctxs : w'.office.ctxs = s.office.ctxs := by rw [hsaved, State.drew_keeps_office, State.areaSaved_ctxs]
  clear_value w'
  refine ⟨counted, rfl, hmem, ?_⟩
  rw [State.post_ctx?, State.bump_ctx?, State.bump_ctx?]
  exact State.ctx?_setCtx ((State.ctx?_congr (t := noted) hctxs c).trans hx) fun _ => rfl

end Sys2Proof.Machine
end

section
/-! How a restore goes on from a save area (11 R295 to R298). -/

namespace Sys2Proof.Machine
open Sys2Proof

/-! ### Instructions that a suspension stopped -/

/-- The instructions of a context that its suspension stopped. -/
def State.stoppedIn (s : State) (c : Nat) : List InFlight := s.cs.flight.filter (fun f => f.ctx == c && f.stopped)

/-- No instruction of a context stands stopped. -/
def State.noneStopped (s : State) (c : Nat) : Prop := ∀ f ∈ s.cs.flight, f.ctx = c → f.stopped = false

theorem State.takeArea_stoppedIn (s : State) (c : Nat) (area : Bytes) :
    ((s.takeArea c area).stoppedIn c).map (fun f => f.idx) = (s.stoppedIn c).map (fun f => f.idx) := by
  unfold State.stoppedIn State.takeArea modifyWhere
  dsimp only
  rw [List.filter_map, List.map_map]
  refine congrArg₂ List.map ?_ (List.filter_congr fun f _ => ?_)
  · funext f
    simp only [Function.comp_apply]
    split <;> rfl
  · simp only [Function.comp_apply]
    split <;> rfl

theorem State.takeArea_ctxs (s : State) (c : Nat) (area : Bytes) : (s.takeArea c area).office.ctxs = s.office.ctxs := rfl

/-- A step for the index of each instruction of a list is a fold over the indices. -/
theorem foldl_congr_idx {α : Type} {l l' : List InFlight} (h : l.map (fun f => f.idx) = l'.map (fun f => f.idx))
    (g : α → Nat → α) (a : α) :
    l.foldl (fun a f => g a f.idx) a = l'.foldl (fun a f => g a f.idx) a := by
  rw [← List.foldl_map (f := fun f : InFlight => f.idx) (g := g), h, List.foldl_map]

/-- An instruction set going again. -/
def InFlight.going (f : InFlight) : InFlight := { f with stopped := false }

/-- Once each of a context's stopped instructions is set going, none stands stopped. -/
theorem State.foldl_going (c : Nat) (l : List InFlight) {s : State}
    (h : ∀ f ∈ s.cs.flight, f.ctx = c → f.stopped = true → f.idx ∈ l.map (fun f => f.idx)) :
    (l.foldl (fun s f => s.setFlight c f.idx InFlight.going) s).noneStopped c := by
  induction l generalizing s with
  | nil =>
    intro f hf hc
    by_contra hs
    simpa using h f hf hc (by simpa using hs)
  | cons g l ih =>
    refine ih fun f hf hc hs => ?_
    obtain ⟨f', hf', rfl⟩ := List.mem_map.mp hf
    by_cases hg : f'.ctx = c ∧ f'.idx = g.idx
    · simp [hg, InFlight.going] at hs
    · have hkeep : ¬(f'.ctx == c && f'.idx == g.idx) = true := by simpa using hg
      simp only [if_neg hkeep] at hc hs ⊢
      rcases List.mem_cons.mp (h f' hf' hc hs) with hidx | hrest
      · exact absurd ⟨hc, hidx⟩ hg
      · exact hrest

/-! ### The tasks dealt again -/

@[simp] theorem State.deal_ctxs (s : State) (c idx prio : Nat) (l : List (Nat × Nat × Nat × Nat))
    (done : Nat → Nat → Option Progress) : (s.deal c idx prio l done).office.ctxs = s.office.ctxs := by
  rw [State.deal, State.serveTasks_ctxs]
  rfl

theorem State.redealAll_ctxs (s : State) (x : Ctx) (recs : List Loaded) (f : InFlight) :
    (s.redealAll x recs f).office.ctxs = s.office.ctxs := by
  unfold State.redealAll
  split
  · rfl
  · exact State.deal_ctxs _ _ _ _ _ _

theorem State.redealAll_flight (s : State) (x : Ctx) (recs : List Loaded) (f : InFlight) :
    (s.redealAll x recs f).cs.flight = s.cs.flight := by
  unfold State.redealAll
  split
  · rfl
  · exact (congrArg Stream.flight (State.deal_officeStep _ _ _ _ _ _).cs).trans rfl

/-- The tasks of some instructions are dealt again (11 R295 steps 2 to 4). -/
def State.redealt (s : State) (x : Ctx) (recs : List Loaded) (l : List InFlight) : State := l.foldl (fun s f => s.redealAll x recs f) s

theorem State.redealt_ctxs (s : State) (x : Ctx) (recs : List Loaded) (l : List InFlight) :
    (s.redealt x recs l).office.ctxs = s.office.ctxs :=
  foldl_related (R := fun s t : State => t.office.ctxs = s.office.ctxs) (fun _ => rfl) (fun h h' => h'.trans h)
    (fun s f => s.redealAll_ctxs x recs f) l s

theorem State.redealt_flight (s : State) (x : Ctx) (recs : List Loaded) (l : List InFlight) :
    (s.redealt x recs l).cs.flight = s.cs.flight :=
  foldl_related (R := fun s t : State => t.cs.flight = s.cs.flight) (fun _ => rfl) (fun h h' => h'.trans h)
    (fun s f => s.redealAll_flight x recs f) l s

/-- A context's instructions are set going. -/
def State.setGoing (s : State) (c : Nat) (l : List InFlight) : State := l.foldl (fun s f => s.setFlight c f.idx InFlight.going) s

theorem State.setGoing_ctxs (s : State) (c : Nat) (l : List InFlight) : (s.setGoing c l).office.ctxs = s.office.ctxs :=
  foldl_related (R := fun s t : State => t.office.ctxs = s.office.ctxs) (fun _ => rfl) (fun h h' => h'.trans h)
    (f := fun s (f : InFlight) => s.setFlight c f.idx InFlight.going) (fun _ _ => rfl) l s

/-- Dealt again and set going, none of a context's instructions stands stopped. -/
theorem State.redealt_noneStopped (s : State) (c : Nat) (x : Ctx) (recs : List Loaded) :
    ((s.redealt x recs (s.stoppedIn c)).setGoing c (s.stoppedIn c)).noneStopped c := by
  refine State.foldl_going c _ fun f hf hc hs => List.mem_map.mpr ⟨f, ?_, rfl⟩
  rw [State.redealt_flight] at hf
  exact List.mem_filter.mpr ⟨hf, by simp [hc, hs]⟩

/-! ### The context Live again -/

@[simp] theorem State.dropSave_cs (s : State) (c : Nat) : (s.dropSave c).cs = s.cs := by
  unfold State.dropSave
  split
  · rfl
  · split <;> rfl

theorem State.dropSave_ctx? {s : State} {c i : Nat} {x : Ctx} (hx : s.ctx? c = some x) (hi : x.saveSlot = some i) :
    (s.dropSave c).ctx? c = some { x with saveSlot := none, saveBytes := 0 } := by
  unfold State.dropSave
  rw [hx]
  dsimp only
  rw [hi]
  exact State.ctx?_setCtx (x := x) hx fun _ => rfl

/-- A restored context: Live, its save slot given up, its queue Running or Halted as it was. -/
def Ctx.restored (x : Ctx) : Ctx :=
  { x with
    state := .live
    wasHalted := false
    saveSlot := none
    saveBytes := 0
    queue := { x.queue with qs := if x.wasHalted then .halted else .running } }

/-! ### Failures leave the marks of a suspension -/

/-- The context of each instruction in flight with its mark of a suspension, in order. -/
def State.marks (s : State) : List (Nat × Bool) := s.cs.flight.map (fun f => (f.ctx, f.stopped))

theorem State.noneStopped_iff (s : State) (c : Nat) : s.noneStopped c ↔ (c, true) ∉ s.marks := by
  simp only [State.noneStopped, State.marks, List.mem_map, Prod.mk.injEq, not_exists, not_and, Bool.not_eq_true]

theorem modifyWhere_marks (p : InFlight → Bool) {g : InFlight → InFlight} (hg : ∀ f, ((g f).ctx, (g f).stopped) = (f.ctx, f.stopped))
    (l : List InFlight) : (modifyWhere p g l).map (fun f => (f.ctx, f.stopped)) = l.map (fun f => (f.ctx, f.stopped)) := by
  refine (List.map_map ..).trans (List.map_congr_left fun f _ => ?_)
  simp only [Function.comp_apply]
  split
  · exact hg f
  · rfl

theorem State.setFlight_marks (s : State) (c i : Nat) {g : InFlight → InFlight}
    (hg : ∀ f, ((g f).ctx, (g f).stopped) = (f.ctx, f.stopped)) : (s.setFlight c i g).marks = s.marks :=
  modifyWhere_marks _ hg _

theorem State.spoil_marks (s : State) (a n : Nat) : (s.spoil a n).marks = s.marks :=
  modifyWhere_marks _ (g := fun f => { f with spoiled := true }) (fun _ => rfl) _

/-- Nothing is said of a context anew: the office and the marks of suspensions are as they were. -/
def State.sameMarks (s t : State) : Prop := t.office = s.office ∧ t.marks = s.marks

theorem State.sameMarks.refl (s : State) : s.sameMarks s := ⟨rfl, rfl⟩

theorem State.sameMarks.trans {s t u : State} (h : s.sameMarks t) (h' : t.sameMarks u) : s.sameMarks u :=
  ⟨h'.1.trans h.1, h'.2.trans h.2⟩

theorem State.writeBytes_sameMarks (s : State) (a : Nat) (bs : Bytes) : s.sameMarks (s.writeBytes a bs) := by
  refine ⟨s.writeBytes_office a bs, ?_⟩
  rw [State.marks, (s.writeBytes_memoryStep a bs).cs, ← State.marks, State.spoil_marks]

theorem State.failInstr_sameMarks (s : State) (c idx code : Nat) : s.sameMarks (s.failInstr c idx code) := by
  unfold State.failInstr
  split
  · exact .refl s
  next f _ =>
    refine (State.scramble_related State.sameMarks.refl State.sameMarks.trans State.writeBytes_sameMarks (fun _ => ⟨rfl, rfl⟩) s
      f).trans
      ⟨rfl, (State.setFlight_marks _ c idx ?_).trans rfl⟩
    exact fun _ => rfl

theorem State.failDry_sameMarks (s : State) : s.sameMarks s.failDry :=
  foldl_related State.sameMarks.refl State.sameMarks.trans (fun (s : State) (f : InFlight) => s.failInstr_sameMarks f.ctx f.idx 0x0570) _ s

/-! ### RESTORE -/

section
variable {s : State} {c i : Nat} {x : Ctx} (hx : s.ctx? c = some x) (hi : x.saveSlot = some i)
include hx hi

/-- A context whose sequence holds no slot is not restored. -/
theorem State.restoreCtx_no_slot (h : s.holdsSlot x = false) : s.restoreCtx c = s := by
  unfold State.restoreCtx
  rw [hx]
  dsimp only
  rw [hi]
  exact if_pos (by simp [h])

/-- A context that is held back gives its sequence's slot up (11 R282). -/
theorem State.restoreCtx_yields (h : s.holdsSlot x = true) (hp : s.partStopped x.partition = false) (hy : s.yields x = true) :
    s.restoreCtx c = s.dropSlot x := by
  have hwaits : x.state = .suspended ∧ x.held = false := by
    simp only [State.yields, Bool.and_eq_true, beq_iff_eq, Bool.not_eq_true'] at hy
    obtain ⟨⟨⟨hstate, hheld⟩, -⟩, -⟩ := hy
    exact ⟨hstate, hheld⟩
  unfold State.restoreCtx
  rw [hx]
  dsimp only
  rw [hi]
  exact (if_neg (by simp [h, hp, hwaits])).trans (if_pos hy)

section
variable (hstate : x.state = .suspended) (hheld : x.held = false) (h : s.holdsSlot x = true) (hy : s.yields x = false)
  (hp : s.partStopped x.partition = false)
  (hpoison : (s.readRuns [(s.savedAt x i, x.saveBytes)]).mem.poisonIn (s.savedAt x i) x.saveBytes = [])
include hstate hheld h hy hp hpoison

/-- A damaged area ends the job with 0x0391 (log entry 78). -/
theorem State.restoreCtx_damaged
    (hbad : areaGood ((s.readRuns [(s.savedAt x i, x.saveBytes)]).readBytes (s.savedAt x i) x.saveBytes) = false) :
    s.restoreCtx c = ((((s.readRuns [(s.savedAt x i, x.saveBytes)]).setJob c (fun j =>
      { j with status := joinStatus j.status 0x0391 })).setQueue c (fun q => { q with qs := .halted })).abortCtx c 0x0391 true) := by
  unfold State.restoreCtx
  simp -zeta only [hx, hi]
  rw [if_neg (by simp [hstate, hheld, h, hp]), if_neg (by simp [hy])]
  extract_lets a r t
  have ht : t = r := if_pos (by simp [a, r, hpoison])
  rw [if_pos (by simp [a, r, hbad]), ht]

/-- A good area is gone on from: the context is Live again, and what its suspension stopped goes on. -/
theorem State.restoreCtx_good
    (hgood : areaGood ((s.readRuns [(s.savedAt x i, x.saveBytes)]).readBytes (s.savedAt x i) x.saveBytes) = true) : ∃ u : State,
    s.restoreCtx c = (((s.stoppedIn c).foldl (fun s f => (s.askHistory c f.idx).resumeRun c f.idx) u).serveTasks.finishJob
      c).runTriggers ∧ u.noneStopped c ∧ u.ctx? c = some x.restored := by
  unfold State.restoreCtx
  simp -zeta only [hx, hi]
  rw [if_neg (by simp [hstate, hheld, h, hp]), if_neg (by simp [hy])]
  extract_lets a r t area taken stopped dealt going office' eager live noted entered gone
  rw [if_neg (by simp [a, r, hgood, hpoison])]
  have hidx : stopped.map (fun f => f.idx) = (s.stoppedIn c).map (fun f => f.idx) := by
    refine (r.takeArea_stoppedIn c area).trans ?_
    rw [State.stoppedIn, (s.readRuns_memoryStep _).cs, ← State.stoppedIn]
  have hnone : going.noneStopped c := taken.redealt_noneStopped c x (areaRecords c area)
  have hctx : going.ctx? c = some x := by
    refine Eq.trans (State.ctx?_congr ?_ c) hx
    exact (State.setGoing_ctxs _ c stopped).trans ((taken.redealt_ctxs x (areaRecords c area) stopped).trans
      ((r.takeArea_ctxs c area).trans (congrArg Office.ctxs (s.readRuns_memoryStep _).office)))
  clear_value going
  have hgone : gone = (s.stoppedIn c).foldl (fun s f => (s.askHistory c f.idx).resumeRun c f.idx) entered.failDry :=
    foldl_congr_idx hidx (fun (s : State) idx => (s.askHistory c idx).resumeRun c idx) _
  have hcs : entered.cs = going.cs := (noted.enter_reportStep c .live).cs.trans (eager.dropSave_cs c)
  refine ⟨entered.failDry, by rw [hgone], ?_, ?_⟩
  · rw [State.noneStopped_iff, entered.failDry_sameMarks.2, State.marks, hcs, ← State.marks, ← State.noneStopped_iff]
    exact hnone
  · rw [State.ctx?_congr (congrArg Office.ctxs entered.failDry_sameMarks.1)]
    refine (State.enter_ctx? (x := { x.restored with state := x.state }) ?_ .live).trans rfl
    rw [State.post_ctx?, State.bump_ctx?]
    exact State.ctx?_setCtx (State.dropSave_ctx? (s := eager) hctx hi) fun _ => rfl

end

end

end Sys2Proof.Machine
end

section
/-! Results that wait for their session (16 R421, R423), and a context's way from its suspension to its restore. -/

namespace Sys2Proof.Machine
open Sys2Proof

/-! ### A queue Halted too long (16 R423) -/

theorem exec_haltLimitExpiry {s : State} {c : Nat} {x : Ctx} (hx : s.ctx? c = some x) (hlimit : s.dget 0x23A0 5 ≠ 0)
    (hlive : x.state = .live) (hq : x.queue.qs = .halted) : exec (.haltLimitExpiry c) s = .next (s.abortCtx c 0x0403 true) := by
  refine congrArg Host.Outcome.next ?_
  rw [hx]
  exact if_pos (by simp [hlimit, hlive, hq])

/-! ### Results (16 R421) -/

/-- A result whose session is not open is not delivered. -/
theorem State.deliver_of_no_session {s : State} {r : Result} (h : s.session? r.session = none) : s.deliver r = s := by
  rw [State.deliver, h]

theorem exec_resultRequest {s : State} {r : ResultReq} (hp : s.board.phase = .serving) (hpower : s.board.power ≠ 2)
    (h : s.session? r.session = none) : exec (.resultRequest r) s = .next { s with net := { s.net with
      results := s.net.results ++ [⟨s.net.nextResult, r.node, 0, r.client, r.jobId, r.session, r.ref, r.status, none⟩]
      nextResult := s.net.nextResult + 1 } } := by
  refine congrArg Host.Outcome.next ?_
  rw [if_neg (by simp [hp]), if_neg (by simpa using hpower)]
  exact State.deliver_of_no_session h

theorem exec_resultHoldExpiry {s : State} {id : Nat} {r : Result} (hr : s.net.results.find? (fun r => r.id == id) = some r)
    (h : s.session? r.session = none) : exec (.resultHoldExpiry id) s = .next (s.failDelivery r) := by
  refine congrArg Host.Outcome.next ?_
  rw [hr]
  dsimp only
  rw [h]

/-! ### What a failed delivery leaves of the results -/

@[simp] theorem State.sendMsg_results (s : State) (id type status post : Nat) (body : Bytes) :
    (s.sendMsg id type status post body).net.results = s.net.results := by
  unfold State.sendMsg State.emit State.putDgram
  split
  · rfl
  · dsimp only
    split
    · split <;> rfl
    · rfl

@[simp] theorem State.progress_results (s : State) (c : Nat) : (s.progress c).net.results = s.net.results := by
  unfold State.progress
  split
  · rfl
  · split
    · rfl
    · exact s.sendMsg_results _ _ _ _ _

@[simp] theorem State.suspendStart_net (s : State) (c : Nat) (held : Bool) : (s.suspendStart c held).net = s.net := by
  unfold State.suspendStart
  split
  · rfl
  · split <;> rfl

theorem State.runTriggersOf_net (l : List (Nat × Nat)) (s : State) : (s.runTriggersOf l).net = s.net := by
  induction l generalizing s with
  | nil => rfl
  | cons t l ih =>
    unfold State.runTriggersOf
    split
    · exact ih s
    · split
      · exact ih s
      · split
        · exact (ih _).trans (s.suspendStart_net _ _)
        · exact ih _

@[simp] theorem State.dropSave_net (s : State) (c : Nat) : (s.dropSave c).net = s.net := by
  unfold State.dropSave
  split
  · rfl
  · split <;> rfl

@[simp] theorem State.freeCtx_net (s : State) (c : Nat) : (s.freeCtx c).net = s.net :=
  (State.runTriggersOf_net _ _).trans (s.dropSave_net c)

theorem State.fabricStep.net {s t : State} (h : s.fabricStep t) : t.net = s.net := by
  obtain ⟨_, _, _, _, _, _, rfl⟩ := h
  rfl

@[simp] theorem State.refuse_net (s : State) (part dest code : Nat) : (s.refuse part dest code).net = s.net :=
  (foldl_fabricStep (fun s f => s.routeFlit_fabricStep f) _ s).net

/-- A result is taken from those that are held. -/
def State.resultDropped (s : State) (r : Result) : State :=
  { s with net := { s.net with results := s.net.results.filter (fun x => x.id != r.id) } }

theorem State.failDelivery_remote {s : State} {r : Result} (h : r.node ≠ 0xFFFF) :
    s.failDelivery r = ((s.resultDropped r).bump 0x3240 6 1).refuse 0 r.node 0x07E0 := if_neg (by simpa using h)

theorem State.failDelivery_own {s : State} {r : Result} (h : r.node = 0xFFFF) :
    s.failDelivery r = (((s.resultDropped r).bump 0x3240 6 1).progress r.ctx).freeCtx r.ctx := if_pos (by simpa using h)

/-- A delivery that has failed leaves every other result held. -/
theorem State.failDelivery_results (s : State) (r : Result) :
    (s.failDelivery r).net.results = s.net.results.filter (fun x => x.id != r.id) := by
  by_cases h : r.node = 0xFFFF
  · rw [State.failDelivery_own h, State.freeCtx_net, State.progress_results]
    rfl
  · rw [State.failDelivery_remote h, State.refuse_net]
    rfl

/-- Settles O49: the expiry by its row, the save and the restore by their cases, and a result by what its session is. -/
theorem contextsAreSavedAndRestored : Obligations.ContextsAreSavedAndRestored := by
  unfold Obligations.ContextsAreSavedAndRestored
  refine ⟨fun s cell c idx task k x hk hwait v hv hx hlive hs hfirst => ?_, fun s c i x hx hi => ⟨?_, ?_, ?_, ?_⟩,
    fun s c x hx hlimit hlive hq => exec_haltLimitExpiry hx hlimit hlive hq, fun s r hp hpower h => exec_resultRequest hp hpower h,
    fun s id r hr h => ?_⟩
  · rw [exec_preemptWaitExpiry hk hwait hv hx hlive hs hfirst]
    exact ⟨fun hfree => by rw [if_pos hfree], fun hfull => by rw [if_neg (by simp [hfull])]⟩
  · intro hlive hs hquiet v recs area bad w
    obtain ⟨t, hdone, hmem, hctx⟩ := State.saveDone_of_quiet hx hi hlive hs hquiet
    refine ⟨_, congrArg Host.Outcome.next hdone, ?_, ?_⟩
    · rw [State.serveTasks_mem, State.dropSlot_mem, State.enter_mem]
      exact hmem
    · rw [State.ctx?_congr (State.serveTasks_ctxs _), State.ctx?_congr (State.dropSlot_ctxs _ _)]
      exact State.enter_ctx? hctx .suspended
  · intro hstate hheld h hy hp a r stopped hpoison
    refine ⟨fun hbad => congrArg _ (State.restoreCtx_damaged hx hi hstate hheld h hy hp hpoison hbad), fun hgood => ?_⟩
    obtain ⟨u, hrestore, hnone, hctx⟩ := State.restoreCtx_good hx hi hstate hheld h hy hp hpoison hgood
    exact ⟨u, congrArg Host.Outcome.next hrestore, hnone, hctx⟩
  · exact fun h hp hy => congrArg _ (State.restoreCtx_yields hx hi h hp hy)
  · exact fun h => congrArg _ (State.restoreCtx_no_slot hx hi h)
  · have hid : r.id = id := by simpa using List.find?_some hr
    subst hid
    exact ⟨exec_resultHoldExpiry hr h, s.failDelivery_results r, State.failDelivery_remote⟩

end Sys2Proof.Machine
end

section
/-! Ports of the fabric (12 R302 to R317): the record of a port under an update, and what the operations on ports change of the module,
said once as relations between the states before and after. -/

namespace Sys2Proof.Machine
open Sys2Proof

/-! ### The record of a port -/

theorem State.port_congr {s t : State} (h : t.fabric.ports = s.fabric.ports) (i : Nat) : t.port i = s.port i := by
  rw [State.port, State.port, h]

@[simp] theorem State.setPort_length (s : State) (i : Nat) (f : Port → Port) :
    (s.setPort i f).fabric.ports.length = s.fabric.ports.length := by
  simp [State.setPort, modifyAt_eq_modify]

theorem State.port_setPort_self {s : State} {i : Nat} (h : i < s.fabric.ports.length) (f : Port → Port) :
    (s.setPort i f).port i = f (s.port i) := by
  simp [State.port, State.setPort, modifyAt_eq_modify, List.getD_eq_getElem?_getD, h]

theorem State.port_setPort_of_ne {i j : Nat} (h : j ≠ i) (s : State) (f : Port → Port) : (s.setPort i f).port j = s.port j := by
  simp [State.port, State.setPort, modifyAt_eq_modify, List.getD_eq_getElem?_getD, List.getElem?_modify_ne _ _ h.symm]

/-- A port after an update is as it was, or it is the one updated. -/
theorem State.port_setPort_cases (s : State) (i j : Nat) (f : Port → Port) :
    (s.setPort i f).port j = s.port j ∨ (j = i ∧ (s.setPort i f).port j = f (s.port j)) := by
  by_cases hj : j = i
  · subst hj
    by_cases h : j < s.fabric.ports.length
    · exact .inr ⟨rfl, State.port_setPort_self h f⟩
    · left
      rw [State.port, State.port, List.getD_eq_default _ _ (by simpa using h), List.getD_eq_default _ _ (by simpa using h)]
  · exact .inl (State.port_setPort_of_ne hj s f)

/-- What an update of ports leaves alone stays so, for every port. -/
theorem State.port_setPort_keeps {α : Type} {p : Port → α} {f : Port → Port} (hf : ∀ q, p (f q) = p q) (s : State) (i j : Nat) :
    p ((s.setPort i f).port j) = p (s.port j) := by
  rcases s.port_setPort_cases i j f with h | ⟨-, h⟩
  · rw [h]
  · rw [h, hf]

/-- An update by a value made of the port is an update by the function that makes it. -/
theorem State.setPort_port (s : State) (i : Nat) (f : Port → Port) : s.setPort i (fun _ => f (s.port i)) = s.setPort i f := by
  have same : modifyAt (fun _ => f (s.port i)) i s.fabric.ports = modifyAt f i s.fabric.ports := by
    simp only [modifyAt_eq_modify]
    refine List.ext_getElem? fun j => ?_
    rw [List.getElem?_modify, List.getElem?_modify]
    by_cases h : i = j
    · subst h
      cases hi : s.fabric.ports[i]? <;> simp [State.port, List.getD_eq_getElem?_getD, hi]
    · simp [h]
  rw [State.setPort, State.setPort, same]

/-- A port outside the list is as after its reset, so one that is not Down is in the list. -/
theorem State.port_lt_of_st {s : State} {i : Nat} (h : (s.port i).st ≠ .down) : i < s.fabric.ports.length := by
  by_contra hout
  exact h (by rw [State.port, List.getD_eq_default _ _ (by omega)]; rfl)

theorem Port.carries_iff {p : Port} : p.carries = true ↔ p.st = .active ∨ p.st = .changing := by
  simp [Port.carries]

theorem State.port_lt_of_carries {s : State} {i : Nat} (h : (s.port i).carries = true) : i < s.fabric.ports.length := by
  refine State.port_lt_of_st fun hdown => ?_
  simp [Port.carries, hdown] at h

theorem State.port_lt_of_up {s : State} {i : Nat} (h : (s.port i).carries = true ∨ (s.port i).st = .exchanging) :
    i < s.fabric.ports.length := by
  rcases h with h | h
  · exact State.port_lt_of_carries h
  · exact State.port_lt_of_st (by simp [h])

theorem State.port_lt_of_retrain {s : State} {i lane : Nat} (h : (s.port i).retrain = some lane) : i < s.fabric.ports.length := by
  by_contra hout
  rw [State.port, List.getD_eq_default _ _ (by omega)] at h
  simp [Port.init] at h

/-! ### What announcing trouble leaves alone -/

theorem State.noticeStep.fabric {s t : State} (h : s.noticeStep t) : t.fabric = s.fabric := by
  obtain ⟨_, _, _, _, _, rfl⟩ := h
  rfl

theorem State.noticeStep.port {s t : State} (h : s.noticeStep t) (i : Nat) : t.port i = s.port i :=
  State.port_congr (congrArg Router.ports h.fabric) i

@[simp] theorem State.watch_fabric (s : State) (status : Nat) : (s.watch status).fabric = s.fabric := (s.watch_noticeStep status).fabric

@[simp] theorem State.watch_port (s : State) (status i : Nat) : (s.watch status).port i = s.port i := (s.watch_noticeStep status).port i

@[simp] theorem State.bump_port (s : State) (i j n k : Nat) : (s.bump i j n).port k = s.port k := rfl

/-- A look at the level bits notes them, and leaves every other fault record. -/
theorem State.watch_faults (s : State) (status : Nat) : (s.watch status).faults = { s.faults with levels := s.levels } := by
  unfold State.watch
  refine foldl_related (R := fun s t : State => t.faults = s.faults) (fun _ => rfl) (fun h h' => h'.trans h) (fun s i => ?_) _ _
  split
  · exact State.emergency_faults _ _ _
  · rfl

theorem State.clearLanes_noticeStep (s : State) (port : Nat) : s.noticeStep (s.clearLanes port) := by
  refine foldl_noticeStep (fun s i => ?_) _ s
  split
  · split
    · unfold State.dropFence
      split
      · exact .refl s
      · refine State.noticeStep.trans (State.logStep.notice ?_) (State.watch_noticeStep _ _)
        refine State.logStep.trans ?_ (State.forceCommit_logStep _)
        exact State.logStep.trans ⟨_, _, _, _, rfl⟩ (State.journal_logStep _ _ _)
    · exact .refl s
  · exact .refl s

theorem State.fenceLane_noticeStep (s : State) (port lane : Nat) : s.noticeStep (s.fenceLane port lane) := by
  unfold State.fenceLane
  split
  · exact .refl s
  · exact State.putFence_noticeStep _ _ _ _ _

/-! ### Credits and queues: what sending and routing change of the ports -/

/-- Every port is as it was, but for the credits that it owes. -/
def State.creditStep (s t : State) : Prop := ∀ i, ∃ owed, t.port i = { s.port i with owed := owed }

theorem State.creditStep.refl (s : State) : s.creditStep s := fun _ => ⟨_, rfl⟩

theorem State.creditStep.trans {s t u : State} (h : s.creditStep t) (h' : t.creditStep u) : s.creditStep u := fun i => by
  obtain ⟨_, ht⟩ := h i
  obtain ⟨owed, hu⟩ := h' i
  exact ⟨owed, by rw [hu, ht]⟩

theorem State.creditStep.of_ports {s t : State} (h : t.fabric.ports = s.fabric.ports) : s.creditStep t :=
  fun i => ⟨_, State.port_congr h i⟩

/-- What no owed credit changes is the same at every port. -/
theorem State.creditStep.keeps {α : Type} {p : Port → α} (hp : ∀ q owed, p { q with owed := owed } = p q) {s t : State}
    (h : s.creditStep t) (i : Nat) : p (t.port i) = p (s.port i) := by
  obtain ⟨owed, ht⟩ := h i
  rw [ht, hp]

theorem State.setPort_creditStep {f : Port → Port} (hf : ∀ q, ∃ owed, f q = { q with owed := owed }) (s : State) (i : Nat) :
    s.creditStep (s.setPort i f) := fun j => by
  rcases s.port_setPort_cases i j f with h | ⟨-, h⟩
  · exact ⟨_, h⟩
  · obtain ⟨owed, hq⟩ := hf (s.port j)
    exact ⟨owed, h.trans hq⟩

/-- A port once its next flit has returned credits. -/
def Port.credited (p : Port) : Port := p.giveCredits.2.2

theorem Port.credited_eq (p : Port) : ∃ owed, p.credited = { p with owed := owed } := by
  unfold Port.credited Port.giveCredits
  split <;> exact ⟨_, rfl⟩

/-- A flit as a port puts it on the wire. -/
def Port.stamped (p : Port) (f : Flit) : Flit :=
  { f with ackSeq := p.ackSeq, creditBuf := p.giveCredits.1, creditCount := p.giveCredits.2.1 }

theorem State.sendFlit_eq (s : State) (port : Nat) (f : Flit) :
    s.sendFlit port f = (s.setPort port Port.credited).wire port ((s.port port).stamped f) := by
  rw [← State.setPort_port s port Port.credited]
  rfl

theorem State.sendFlit_creditStep (s : State) (port : Nat) (f : Flit) : s.creditStep (s.sendFlit port f) := by
  rw [State.sendFlit_eq]
  exact (State.setPort_creditStep Port.credited_eq s port).trans (.of_ports rfl)

/-- Flits sent again, and counted (12 R310). -/
def State.resent (s : State) (port : Nat) (l : List Flit) : State := (l.foldl (fun s f => s.sendFlit port f) s).bump 0x3210 2 l.length

theorem State.resent_creditStep (s : State) (port : Nat) (l : List Flit) : s.creditStep (s.resent port l) :=
  (foldl_related State.creditStep.refl State.creditStep.trans (fun s f => s.sendFlit_creditStep port f) l s).trans (.of_ports rfl)

theorem State.freePlace_creditStep (s : State) (f : Flit) : s.creditStep (s.freePlace f) := by
  unfold State.freePlace
  split
  · exact .refl s
  · exact State.setPort_creditStep (fun _ => ⟨_, rfl⟩) s _

/-- Every port is as it was, but for the credits that it owes and the flits that it is to send. -/
def State.queueStep (s t : State) : Prop := ∀ i, ∃ owed sendQ, t.port i = { s.port i with owed := owed, sendQ := sendQ }

theorem State.queueStep.refl (s : State) : s.queueStep s := fun _ => ⟨_, _, rfl⟩

theorem State.queueStep.trans {s t u : State} (h : s.queueStep t) (h' : t.queueStep u) : s.queueStep u := fun i => by
  obtain ⟨_, _, ht⟩ := h i
  obtain ⟨owed, sendQ, hu⟩ := h' i
  exact ⟨owed, sendQ, by rw [hu, ht]⟩

theorem State.creditStep.queue {s t : State} (h : s.creditStep t) : s.queueStep t := fun i => by
  obtain ⟨owed, ht⟩ := h i
  exact ⟨owed, (s.port i).sendQ, ht⟩

theorem State.noticeStep.queue {s t : State} (h : s.noticeStep t) : s.queueStep t := fun i => ⟨_, _, h.port i⟩

theorem State.routeFlit_queueStep (s : State) (f : Flit) : s.queueStep (s.routeFlit f) := by
  unfold State.routeFlit
  dsimp only
  split
  · exact (s.freePlace_creditStep f).queue
  · split
    · exact fun _ => ⟨_, _, rfl⟩
    · intro j
      rcases s.port_setPort_cases _ j _ with h | ⟨-, h⟩ <;> exact ⟨_, _, h⟩

theorem State.rerouteHeld_queueStep (s : State) : s.queueStep s.rerouteHeld :=
  State.queueStep.trans (fun _ => ⟨_, _, rfl⟩) (foldl_related State.queueStep.refl State.queueStep.trans
    (fun s f => s.routeFlit_queueStep f) _ _)

/-! ### What the operations on ports leave of the module -/

theorem State.dget_congr {s t : State} (h : t.dict = s.dict) (idx sub : Nat) : t.dget idx sub = s.dget idx sub := by
  rw [State.dget, State.dget, h]

/-- Nothing but the ports, what the fabric holds and has sent, the removals of lanes that are counted, the counters, the store, the fault
records, the mailbox and the free values drawn has changed. -/
def State.linkStep (s t : State) : Prop := ∃ epoch tele ecat store faults ports removals held out,
  ports.length = s.fabric.ports.length ∧ t = { s with
    epoch := epoch
    tele := tele
    ecat := ecat
    store := store
    faults := faults
    fabric := { s.fabric with ports := ports, laneRemovals := removals, held := held, out := out } }

theorem State.linkStep.refl (s : State) : s.linkStep s := ⟨_, _, _, _, _, _, _, _, _, rfl, rfl⟩

theorem State.linkStep.trans {s t u : State} (h : s.linkStep t) (h' : t.linkStep u) : s.linkStep u := by
  obtain ⟨_, _, _, _, _, _, _, _, _, hlen, rfl⟩ := h
  obtain ⟨_, _, _, _, _, _, _, _, _, hlen', rfl⟩ := h'
  exact ⟨_, _, _, _, _, _, _, _, _, hlen'.trans hlen, rfl⟩

section
variable {s t : State} (h : s.linkStep t)
include h

theorem State.linkStep.mem : t.mem = s.mem := by
  obtain ⟨_, _, _, _, _, _, _, _, _, -, rfl⟩ := h
  rfl

theorem State.linkStep.dict : t.dict = s.dict := by
  obtain ⟨_, _, _, _, _, _, _, _, _, -, rfl⟩ := h
  rfl

theorem State.linkStep.dget (idx sub : Nat) : t.dget idx sub = s.dget idx sub := State.dget_congr h.dict idx sub

theorem State.linkStep.ports_length : t.fabric.ports.length = s.fabric.ports.length := by
  obtain ⟨_, _, _, _, _, _, _, _, _, hlen, rfl⟩ := h
  exact hlen

/-- The node pair in force and the committed one, the routes and the failures of lanes stay. -/
theorem State.linkStep.pair : t.fabric.nodeInForce = s.fabric.nodeInForce ∧ t.fabric.torusInForce = s.fabric.torusInForce ∧
    t.fabric.committed = s.fabric.committed ∧ t.fabric.laneFailures = s.fabric.laneFailures := by
  obtain ⟨_, _, _, _, _, _, _, _, _, -, rfl⟩ := h
  exact ⟨rfl, rfl, rfl, rfl⟩

end

theorem State.noticeStep.link {s t : State} (h : s.noticeStep t) : s.linkStep t := by
  obtain ⟨_, _, _, _, _, rfl⟩ := h
  exact .trans (.refl s) ⟨_, _, _, _, _, _, _, _, _, rfl, rfl⟩

theorem foldl_linkStep {α : Type} {f : State → α → State} (hf : ∀ (s : State) (a : α), s.linkStep (f s a)) (l : List α)
    (s : State) : s.linkStep (l.foldl f s) :=
  foldl_related State.linkStep.refl State.linkStep.trans hf l s

theorem State.bump_linkStep (s : State) (i j n : Nat) : s.linkStep (s.bump i j n) := ⟨_, _, _, _, _, _, _, _, _, rfl, rfl⟩

theorem State.watch_linkStep (s : State) (status : Nat) : s.linkStep (s.watch status) := (s.watch_noticeStep status).link

theorem State.setPort_linkStep (s : State) (i : Nat) (f : Port → Port) : s.linkStep (s.setPort i f) :=
  ⟨_, _, _, _, _, _, _, _, _, s.setPort_length i f, rfl⟩

theorem State.sendFlit_linkStep (s : State) (port : Nat) (f : Flit) : s.linkStep (s.sendFlit port f) :=
  (s.setPort_linkStep port _).trans ⟨_, _, _, _, _, _, _, _, _, rfl, rfl⟩

theorem State.resent_linkStep (s : State) (port : Nat) (l : List Flit) : s.linkStep (s.resent port l) :=
  (foldl_linkStep (fun s f => s.sendFlit_linkStep port f) l s).trans (State.bump_linkStep _ _ _ _)

theorem State.freePlace_linkStep (s : State) (f : Flit) : s.linkStep (s.freePlace f) := by
  unfold State.freePlace
  split
  · exact .refl s
  · exact s.setPort_linkStep _ _

theorem State.routeFlit_linkStep (s : State) (f : Flit) : s.linkStep (s.routeFlit f) := by
  unfold State.routeFlit
  dsimp only
  split
  · exact (s.freePlace_linkStep f).trans (State.bump_linkStep _ _ _ _)
  · split
    · exact ⟨_, _, _, _, _, _, _, _, _, rfl, rfl⟩
    · exact s.setPort_linkStep _ _

theorem State.rerouteHeld_linkStep (s : State) : s.linkStep s.rerouteHeld :=
  State.linkStep.trans ⟨_, _, _, _, _, _, _, _, _, rfl, rfl⟩ (foldl_linkStep (fun s f => s.routeFlit_linkStep f) _ _)

theorem State.portFall_linkStep (s : State) (port : Nat) : s.linkStep (s.portFall port) := by
  refine State.linkStep.trans (State.linkStep.trans ?_ (State.setPort_linkStep _ port _)) (State.watch_linkStep _ 0)
  split
  · exact s.bump_linkStep _ _ _
  · exact .refl s

theorem State.startLane_linkStep (s : State) (port lane : Nat) : s.linkStep (s.startLane port lane) :=
  (s.setPort_linkStep port _).trans (State.watch_linkStep _ 0)

theorem State.nextLane_linkStep (s : State) : s.linkStep s.nextLane := by
  unfold State.nextLane
  split
  · exact .refl s
  · split
    · exact s.startLane_linkStep _ _
    · exact .refl s

theorem State.checkPort_linkStep (s : State) (port : Nat) : s.linkStep (s.checkPort port) := by
  unfold State.checkPort
  dsimp only
  split
  · exact .refl s
  · split
    · refine State.linkStep.trans ?_ (State.watch_linkStep _ 0)
      refine State.linkStep.trans ?_ (State.rerouteHeld_linkStep _)
      refine State.linkStep.trans ?_ (State.resent_linkStep _ port _)
      exact (s.setPort_linkStep port _).trans (State.bump_linkStep _ _ _ _)
    · exact (s.setPort_linkStep port _).trans (State.watch_linkStep _ 0)

theorem State.recheckPorts_linkStep (s : State) : s.linkStep s.recheckPorts := foldl_linkStep (fun s i => s.checkPort_linkStep i) _ s

/-! ### A port that falls -/

/-- A port that falls goes to Down (12 R315). -/
theorem State.portFall_port {s : State} {port : Nat} (h : port < s.fabric.ports.length) :
    (s.portFall port).port port = (s.port port).fallen := by
  unfold State.portFall
  rw [State.watch_port]
  split
  · exact State.port_setPort_self (s := s.bump 0x3210 8 1) h _
  · exact State.port_setPort_self h _

theorem State.portFall_port_of_ne {port i : Nat} (h : i ≠ port) (s : State) : (s.portFall port).port i = s.port i := by
  unfold State.portFall
  rw [State.watch_port, State.port_setPort_of_ne h]
  split <;> rfl

end Sys2Proof.Machine
end

section
/-! Writes to the router's entries (12 R319 to R325): the node pair and the router's reset, routes, and the enable mask of ports. -/

namespace Sys2Proof.Machine
open Sys2Proof

/-! ### The node pair (12 R319) -/

@[simp] theorem State.keep_fabric (s : State) (idx sub width v : Nat) : (s.keep idx sub width v).fabric = s.fabric :=
  (State.journal_logStep _ _ _).notice.fabric

theorem exec_nodeCommit {s : State} (hup : s.mailboxUp = true) :
    exec (.nodeCommit 1) s = .next (s.answerWrite 0x2360 3 true (applyNode s)) :=
  congrArg Host.Outcome.next (s.trigger_up _ _ _ _ _ _ _ hup (le_refl 1) (le_refl 1))

/-- A staged pair that 12 R319 refuses. -/
def State.pairIllegal (s : State) : Bool :=
  bit (s.staging 0x2360 2) 15 || (s.staging 0x2360 1 != 0xFFFF &&
    (bit (s.staging 0x2360 1) 15 || !inTorus (s.staging 0x2360 2) (s.staging 0x2360 1)))

/-- The staged node pair is kept. -/
def State.pairKept (s : State) : State :=
  (s.keep 0x2360 1 2 (s.staging 0x2360 1)).keep 0x2360 2 2 (s.staging 0x2360 2)

@[simp] theorem State.pairKept_fabric (s : State) : s.pairKept.fabric = s.fabric := by
  rw [State.pairKept, State.keep_fabric, State.keep_fabric]

theorem State.pairKept_dget (s : State) :
    s.pairKept.dget 0x2360 1 = s.staging 0x2360 1 ∧ s.pairKept.dget 0x2360 2 = s.staging 0x2360 2 := by
  constructor
  · rw [State.pairKept, State.keep_dget_of_ne _ (by decide), State.keep_dget_self]
  · rw [State.pairKept, State.keep_dget_self]

/-- A node pair comes into force. -/
def State.putPair (s : State) (node dims : Nat) : State :=
  { s with fabric := { s.fabric with nodeInForce := node, torusInForce := dims, routes := [], committed := none } }

/-- A node pair waits for the router's reset. -/
def State.awaitPair (s : State) (node dims : Nat) : State := { s with fabric := { s.fabric with committed := some (node, dims) } }

theorem State.putPair_dict (s : State) (node dims : Nat) : (s.putPair node dims).dict = s.dict := rfl

theorem State.awaitPair_dict (s : State) (node dims : Nat) : (s.awaitPair node dims).dict = s.dict := rfl

/-- The kept pair comes into force. -/
def State.pairInForce (s : State) : State := s.pairKept.putPair (s.staging 0x2360 1) (s.staging 0x2360 2)

/-- The kept pair waits. -/
def State.pairWaits (s : State) : State := s.pairKept.awaitPair (s.staging 0x2360 1) (s.staging 0x2360 2)

/-- Every port is checked again, and the next retraining that can run starts. -/
def State.pairTaken (s : State) : State := (s.pairInForce.recheckPorts.watch 0).nextLane

theorem State.pairInForce_dget (s : State) (idx sub : Nat) : s.pairInForce.dget idx sub = s.pairKept.dget idx sub :=
  State.dget_congr (s.pairKept.putPair_dict _ _) idx sub

theorem State.pairWaits_dget (s : State) (idx sub : Nat) : s.pairWaits.dget idx sub = s.pairKept.dget idx sub :=
  State.dget_congr (s.pairKept.awaitPair_dict _ _) idx sub

theorem State.pairTaken_linkStep (s : State) : s.pairInForce.linkStep s.pairTaken :=
  (s.pairInForce.recheckPorts_linkStep.trans (State.watch_linkStep _ 0)).trans (State.nextLane_linkStep _)

theorem applyNode_illegal {s : State} (h : s.pairIllegal = true) : applyNode s = (s, 0x01A0) := if_pos h

theorem applyNode_first {s : State} (h : s.pairIllegal = false) (hkeep : s.keepRefused = 0) (hnode : s.node = 0xFFFF) :
    applyNode s = (s.pairTaken, 0) := by
  refine (if_neg (by rw [← State.pairIllegal, h]; simp)).trans ((if_neg (by simp [hkeep])).trans ?_)
  have hkept : s.pairKept.node = 0xFFFF := by rw [State.node, State.pairKept_fabric]; exact hnode
  refine (if_pos (by simpa [State.pairKept] using hkept)).trans ?_
  simp only [State.pairTaken, State.pairInForce, State.putPair, State.pairKept]

theorem applyNode_later {s : State} (h : s.pairIllegal = false) (hkeep : s.keepRefused = 0) (hnode : s.node ≠ 0xFFFF) :
    applyNode s = (s.pairWaits, 0) := by
  refine (if_neg (by rw [← State.pairIllegal, h]; simp)).trans ((if_neg (by simp [hkeep])).trans ?_)
  have hkept : s.pairKept.node ≠ 0xFFFF := by rw [State.node, State.pairKept_fabric]; exact hnode
  refine (if_neg (by simpa [State.pairKept] using hkept)).trans ?_
  simp only [State.pairWaits, State.awaitPair, State.pairKept]

/-! ### The router's reset (12 R323) -/

theorem exec_routerReset {s : State} (hup : s.mailboxUp = true) :
    exec (.routerReset 1) s = .next (s.answerWrite 0x2360 7 false (s.resetRouter, 0)) :=
  congrArg Host.Outcome.next (s.trigger_up _ _ _ _ _ _ _ hup (le_refl 1) (le_refl 1))

theorem State.lostFlit_of_none {s : State} {f : Flit} (h : s.req? f.req = none) : s.lostFlit f = s := by
  rw [State.lostFlit, h]

theorem State.lostFlits_of_none {s : State} {l : List Flit} (h : ∀ f ∈ l, s.req? f.req = none) : s.lostFlits l = s := by
  unfold State.lostFlits
  induction l with
  | nil => rfl
  | cons f l ih =>
    rw [List.foldl_cons, State.lostFlit_of_none (h f List.mem_cons_self)]
    exact ih fun g hg => h g (List.mem_cons_of_mem f hg)

/-- The router as its reset leaves it. -/
def State.routerAnew (s : State) : Router :=
  Router.fresh (s.dget 0x2360 1) (s.dget 0x2360 2) (if s.fabricOn then s.dget 0x2362 4 else 0)

/-- A reset whose flits belong to no request of this module changes the router alone, and what the module knows of others. -/
theorem State.resetRouter_of_none {s : State} (h : ∀ f ∈ s.fabric.waiting, s.req? f.req = none) :
    s.resetRouter.fabric = { s.routerAnew with out := s.fabric.out } ∧ s.resetRouter.faults.postmarks = [0, 0, 0, 0] ∧
      s.resetRouter.mem = s.mem := by
  unfold State.resetRouter
  dsimp only
  rw [State.lostFlits_of_none (by exact h), State.watch_fabric, State.watch_faults, (State.watch_noticeStep _ 0).mem]
  exact ⟨rfl, rfl, rfl⟩

/-- A port of a fresh router: Down where it is enabled, with nothing held. -/
theorem Router.fresh_port (node dims enable : Nat) {i : Nat} (h : i < 12) :
    (Router.fresh node dims enable).ports.getD i (Port.init i) = { Port.init i with st := if bit enable i then .down else .disabled } := by
  simp [Router.fresh, List.getD_eq_getElem?_getD, List.getElem?_range h]

theorem bit_zero (i : Nat) : bit 0 i = false := by simp [bit]

/-- Settles O28: the pair by the cases of its commit, and the reset by the router that it leaves. -/
theorem nodePairTakesEffect : Obligations.NodePairTakesEffect := by
  unfold Obligations.NodePairTakesEffect
  intro s hup node dims
  rw [exec_nodeCommit hup]
  refine ⟨fun h => ?_, fun hdims hnode hkeep => ?_, exec_routerReset hup, fun h => ?_⟩
  · have illegal : s.pairIllegal = true := by simpa [State.pairIllegal] using h
    rw [State.answerWrite_code _ _ _ _ (applyNode_illegal illegal) (by decide)]
    rfl
  · have legal : s.pairIllegal = false := by
      rcases hnode with hnone | ⟨hbit, hin⟩
      · simpa [State.pairIllegal, node, dims, hnone] using hdims
      · simpa [State.pairIllegal, node, dims, hbit, hin] using hdims
    by_cases hfirst : s.node = 0xFFFF
    · have taken := s.pairTaken_linkStep
      obtain ⟨hn, ht, hc, -⟩ := taken.pair
      refine ⟨s.pairTaken, by rw [applyNode_first legal hkeep hfirst], ?_, ?_, fun _ => ⟨hn, ht, hc⟩, fun h => absurd hfirst h⟩
      · rw [taken.dget, s.pairInForce_dget, s.pairKept_dget.1]
      · rw [taken.dget, s.pairInForce_dget, s.pairKept_dget.2]
    · refine ⟨s.pairWaits, by rw [applyNode_later legal hkeep hfirst], ?_, ?_, fun h => absurd h hfirst, fun _ => ?_⟩
      · rw [s.pairWaits_dget, s.pairKept_dget.1]
      · rw [s.pairWaits_dget, s.pairKept_dget.2]
      · rw [State.pairWaits, State.awaitPair, s.pairKept_fabric]
  · intro u
    obtain ⟨hfabric, hmarks, hmem⟩ := State.resetRouter_of_none h
    have port : ∀ i, i < 12 → u.port i =
        { Port.init i with st := if s.fabricOn = true ∧ bit (s.dget 0x2362 4) i = true then .down else .disabled } := by
      intro i hi
      have fresh := Router.fresh_port (s.dget 0x2360 1) (s.dget 0x2360 2) (if s.fabricOn then s.dget 0x2362 4 else 0) hi
      rw [State.port, hfabric]
      refine fresh.trans ?_
      cases s.fabricOn <;> simp [bit_zero]
    rw [State.node, hfabric]
    refine ⟨rfl, rfl, rfl, rfl, fun i hi => ?_, hmarks, hmem⟩
    rw [port i hi]
    exact ⟨rfl, rfl, rfl⟩

/-! ### Routes (12 R320, R321) -/

theorem exec_routeCommit {s : State} (hup : s.mailboxUp = true) :
    exec (.routeCommit 1) s = .next (s.answerWrite 0x2361 3 true (applyRoute s)) :=
  congrArg Host.Outcome.next (s.trigger_up _ _ _ _ _ _ _ hup (le_refl 1) (le_refl 1))

theorem exec_routeDefaults {s : State} (hup : s.mailboxUp = true) :
    exec (.routeDefaults 1) s = .next (s.answerWrite 0x2361 4 false (applyRouteDefaults s)) :=
  congrArg Host.Outcome.next (s.trigger_up _ _ _ _ _ _ _ hup (le_refl 1) (le_refl 1))

/-- A mask of ports names one along an axis of length 1. -/
def State.namesThin (s : State) (mask : Nat) : Bool :=
  (List.range 12).any (fun p => bit mask p && axisLen s.fabric.torusInForce (p / 4) == 1)

theorem State.namesThin_iff (s : State) (mask : Nat) :
    s.namesThin mask = true ↔ ∃ p, p < 12 ∧ bit mask p = true ∧ axisLen s.fabric.torusInForce (p / 4) = 1 := by
  simp [State.namesThin, List.any_eq_true]

/-- A routing entry that 12 R321 refuses. -/
def State.routeIllegal (s : State) (node mask : Nat) : Bool :=
  !inTorus s.fabric.torusInForce node || decide (4096 ≤ mask) || (node == s.node && mask != 0) || s.namesThin mask

theorem applyRoute_illegal {s : State} (h : s.routeIllegal (s.staging 0x2361 1) (s.staging 0x2361 2) = true) :
    applyRoute s = (s, 0x01A1) := if_pos h

/-- The staged entry is in force and takes the place of its node's. -/
def State.routeSet (s : State) : State :=
  { (s.dset 0x2361 1 (s.staging 0x2361 1)).dset 0x2361 2 (s.staging 0x2361 2) with
    fabric := { s.fabric with routes := kvSet (s.staging 0x2361 1) (s.staging 0x2361 2) s.fabric.routes } }

theorem applyRoute_legal {s : State} (h : s.routeIllegal (s.staging 0x2361 1) (s.staging 0x2361 2) = false) :
    applyRoute s = (s.routeSet.rerouteHeld, 0) := if_neg (by rw [← State.namesThin, ← State.routeIllegal, h]; simp)

theorem State.routeSet_dict (s : State) : s.routeSet.dict =
    kvSet (dkey 0x2361 2) (s.staging 0x2361 2) (kvSet (dkey 0x2361 1) (s.staging 0x2361 1) s.dict) := rfl

theorem State.routeSet_dget (s : State) :
    s.routeSet.dget 0x2361 1 = s.staging 0x2361 1 ∧ s.routeSet.dget 0x2361 2 = s.staging 0x2361 2 := by
  constructor
  · rw [State.dget, State.routeSet_dict, kvGet_kvSet_other _ _ _ _ _ (by decide), kvGet_kvSet_self]
  · rw [State.dget, State.routeSet_dict, kvGet_kvSet_self]

/-- Settles O29: a refused entry and a legal one by the check of the pair, and the defaults by the table that they empty. -/
theorem routesAreWritten : Obligations.RoutesAreWritten := by
  unfold Obligations.RoutesAreWritten
  intro s hup node mask thin
  rw [exec_routeCommit hup, exec_routeDefaults hup]
  refine ⟨fun h => ?_, fun hin hmask hown hthin => ?_, _, rfl, rfl, fun n => rfl⟩
  · have illegal : s.routeIllegal node mask = true := by
      simp only [State.routeIllegal, Bool.or_eq_true, s.namesThin_iff]
      simpa [or_assoc] using h
    rw [State.answerWrite_code _ _ _ _ (applyRoute_illegal illegal) (by decide)]
    rfl
  · have notThin : s.namesThin mask = false := by
      rw [Bool.eq_false_iff, Ne, s.namesThin_iff]
      exact hthin
    have legal : s.routeIllegal node mask = false := by
      simpa [State.routeIllegal, hin, notThin, hmask] using hown
    exact ⟨s.routeSet, by rw [applyRoute_legal legal], rfl, kvGet_kvSet_self _ _ _ _,
      fun n hn => kvGet_kvSet_other _ _ _ _ _ hn, s.routeSet_dget.1, s.routeSet_dget.2⟩

/-! ### Ports enabled and lanes to retrain (12 R317, R325) -/

theorem exec_portEnable {s : State} (hup : s.mailboxUp = true) {v : Nat} (hv : v < 65536) :
    exec (.portEnable v) s = .next (s.answerWrite 0x2362 4 false (applyPortEnable v s)) :=
  congrArg Host.Outcome.next (s.trigger_up _ _ _ _ _ _ _ hup (Nat.zero_le v) (by omega))

theorem exec_laneRetrainRequest {s : State} (hup : s.mailboxUp = true) {v : Nat} (hv : v < 48) :
    exec (.laneRetrainRequest v) s = .next (s.answerWrite 0x2362 3 false (applyLaneRetrain v s)) :=
  congrArg Host.Outcome.next (s.trigger_up _ _ _ _ _ _ _ hup (Nat.zero_le v) (by omega))

/-- A port under a mask of the ports that are enabled. -/
def Port.enabledBy (v : Nat) (p : Port) : Port :=
  if bit v p.id = false then { p.fallen with st := .disabled } else if p.st = .disabled then { p with st := .down } else p

theorem State.setEnable_ports {s : State} (hon : s.fabricOn = true) (v : Nat) :
    (s.setEnable v).fabric.ports = s.fabric.ports.map (Port.enabledBy v) := by
  have off (p : Port) : (!bit v p.id || !s.fabricOn) = !bit v p.id := by simp [hon]
  unfold State.setEnable
  rw [State.watch_fabric]
  refine List.map_congr_left fun p _ => ?_
  simp only [off, Port.enabledBy, Bool.not_eq_true', beq_iff_eq]

theorem State.setEnable_dget (s : State) (v idx sub : Nat) : (s.setEnable v).dget idx sub = s.dget idx sub :=
  (State.watch_linkStep _ 0).dget idx sub

theorem applyPortEnable_illegal {s : State} {v : Nat} (hlo : 4096 ≤ v) (hhi : v < 65536) : applyPortEnable v s = (s, 0x01A3) := by
  refine if_pos ?_
  have : v / 4096 % 16 ≠ 0 := by omega
  simpa [bits] using this

theorem applyPortEnable_kept {s : State} {v : Nat} (h : v < 4096) (hkeep : s.keepRefused = 0) :
    applyPortEnable v s = ((s.keep 0x2362 4 2 v).setEnable v, 0) := by
  have legal : bits v 12 4 = 0 := by
    unfold bits
    omega
  exact (if_neg (by simp [legal])).trans (if_neg (by simp [hkeep]))

theorem applyLaneRetrain_due {s : State} {v : Nat} (hv : v < 48) (h : s.laneCan (v / 4) (v % 4) = true) :
    applyLaneRetrain v s = (s.dueLane (v / 4) (v % 4), 0) := (if_neg (by omega)).trans (if_pos h)

theorem applyLaneRetrain_refused {s : State} {v : Nat} (hv : v < 48) (h : s.laneCan (v / 4) (v % 4) = false) :
    applyLaneRetrain v s = (s, 0x01A2) := (if_neg (by omega)).trans (if_neg (by simp [h]))

theorem State.dueLane_starts {s : State} {port lane : Nat} (hcan : s.laneCan port lane = true) (hidle : s.laneBusy = false) :
    s.dueLane port lane = s.startLane port lane := if_pos (by simp [hcan, hidle])

theorem State.dueLane_waits {s : State} {port lane : Nat} (h : s.laneCan port lane = false ∨ s.laneBusy = true) :
    s.dueLane port lane = s.setPort port (fun p => { p with retrainDue := insertNat lane p.retrainDue }) :=
  if_neg (by rcases h with h | h <;> simp [h])

/-- Settles O30: the mask by what it makes of each port, and a retraining that is asked for by whether its lane can run. -/
theorem portWritesTakeEffect : Obligations.PortWritesTakeEffect := by
  unfold Obligations.PortWritesTakeEffect
  intro s v hup
  refine ⟨fun hv hkeep hon => ?_, fun hlo hhi => ?_, fun hv hcan => ?_, fun hv hcan => ?_⟩
  · have kept : (s.keep 0x2362 4 2 v).fabricOn = true := by
      rw [State.fabricOn, State.keep_sec]
      exact hon
    refine ⟨(s.keep 0x2362 4 2 v).setEnable v, ?_, ?_, ?_⟩
    · rw [exec_portEnable hup (by omega), applyPortEnable_kept hv hkeep]
    · rw [State.setEnable_dget, State.keep_dget_self]
    · rw [State.setEnable_ports kept, State.keep_fabric]
      rfl
  · rw [exec_portEnable hup hhi, State.answerWrite_code _ _ _ _ (applyPortEnable_illegal hlo hhi) (by decide)]
    rfl
  · rw [exec_laneRetrainRequest hup hv, applyLaneRetrain_due hv hcan]
    cases hbusy : s.laneBusy with
    | false => rw [State.dueLane_starts hcan hbusy, if_neg (by simp)]
    | true => rw [State.dueLane_waits (.inr hbusy), if_pos rfl]
  · rw [exec_laneRetrainRequest hup hv, State.answerWrite_code _ _ _ _ (applyLaneRetrain_refused hv hcan) (by decide)]
    rfl

end Sys2Proof.Machine
end

section
/-! Lanes of a port (12 R316, R317, 19 R513, R517): how one is removed, how both ends agree on a width, and how a retraining runs and
ends. -/

namespace Sys2Proof.Machine
open Sys2Proof

/-! ### What the journal leaves of counters and fault records -/

/-- The counters of the fabric's ports (12 R327) stand. -/
def State.samePortCounts (s t : State) : Prop := ∀ sub, sub < 256 → t.count 0x3210 sub = s.count 0x3210 sub

theorem State.samePortCounts.refl (s : State) : s.samePortCounts s := fun _ _ => rfl

theorem State.samePortCounts.trans {s t u : State} (h : s.samePortCounts t) (h' : t.samePortCounts u) : s.samePortCounts u :=
  fun sub hsub => (h' sub hsub).trans (h sub hsub)

theorem State.samePortCounts.of_tele {s t : State} (h : t.tele = s.tele) : s.samePortCounts t := fun sub _ => by
  rw [State.count, State.count, h]

theorem State.bump_samePortCounts {i j : Nat} (hi : i ≠ 0x3210) (hj : j < 256) (s : State) (n : Nat) : s.samePortCounts (s.bump i j n) :=
  fun sub hsub => State.count_bump_other _ _ _ _ _ _ (by unfold dkey; omega)

theorem State.wearLevel_samePortCounts (s : State) : s.samePortCounts s.wearLevel := by
  unfold State.wearLevel
  dsimp only
  split
  · split
    · exact .trans (.of_tele rfl) (State.bump_samePortCounts (by decide) (by decide) _ 1)
    · exact .refl s
  · exact .refl s

theorem State.commitWith_samePortCounts (s : State) (extra : List Rec) : s.samePortCounts (s.commitWith extra) := by
  have once (t : State) : t.samePortCounts (t.bump 0x5111 1 1) := State.bump_samePortCounts (by decide) (by decide) t 1
  unfold State.commitWith
  dsimp only
  split
  · exact .refl s
  · split
    · refine .trans ?_ (State.wearLevel_samePortCounts _)
      refine .trans ?_ (once _)
      exact .trans (.trans (.of_tele rfl) (once _)) (.of_tele rfl)
    · exact .trans (.trans (.of_tele rfl) (once _)) (State.wearLevel_samePortCounts _)

theorem State.journal_samePortCounts (s : State) (must : Bool) (r : Rec) : s.samePortCounts (s.journal must r) := by
  have commitIf (t : State) (b : Bool) : t.samePortCounts (if b then t.commitWith [] else t) := by
    split
    · exact t.commitWith_samePortCounts []
    · exact .refl t
  unfold State.journal
  by_cases hc : s.store.condition = 2
  · rw [if_pos (by simpa using hc)]
    exact .refl s
  · rw [if_neg (by simpa using hc)]
    refine .trans ?_ (commitIf _ _)
    exact .trans (commitIf s _) (.of_tele rfl)

theorem State.emergency_samePortCounts (s : State) (bitNo status : Nat) : s.samePortCounts (s.emergency bitNo status) := by
  have flush (t : State) : t.samePortCounts t.flushEmergency := by
    unfold State.flushEmergency
    split
    · split
      · exact .refl t
      · exact .trans (.of_tele rfl) (State.bump_samePortCounts (by decide) (by decide) _ 1)
    · exact .refl t
  unfold State.emergency
  split
  · dsimp only
    split
    · exact .trans (.of_tele rfl) (flush _)
    · exact State.bump_samePortCounts (by decide) (by decide) s 1
  · exact .refl s

theorem State.watch_samePortCounts (s : State) (status : Nat) : s.samePortCounts (s.watch status) := by
  refine State.samePortCounts.trans (.of_tele rfl) (foldl_related State.samePortCounts.refl State.samePortCounts.trans (fun s i => ?_) _ _)
  split
  · exact s.emergency_samePortCounts _ _
  · exact .refl s

/-- The latched bits of FaultSummary stand. -/
def State.sameLatched (s t : State) : Prop := t.faults.latched = s.faults.latched

theorem State.commitWith_faults (s : State) (extra : List Rec) : (s.commitWith extra).faults = s.faults := by
  have wear (t : State) : t.wearLevel.faults = t.faults := by
    unfold State.wearLevel
    dsimp only
    split
    · split <;> rfl
    · rfl
  unfold State.commitWith
  dsimp only
  split
  · rfl
  · split <;> rw [wear] <;> rfl

theorem State.journal_faults (s : State) (must : Bool) (r : Rec) : (s.journal must r).faults = s.faults := by
  have commitIf (t : State) (b : Bool) : (if b then t.commitWith [] else t).faults = t.faults := by
    split
    · exact t.commitWith_faults []
    · rfl
  unfold State.journal
  by_cases hc : s.store.condition = 2
  · rw [if_pos (by simpa using hc)]
  · rw [if_neg (by simpa using hc)]
    exact (commitIf _ _).trans (commitIf s _)

theorem State.log_sameLatched (s : State) (unit status severity part detail : Nat) :
    s.sameLatched (s.log unit status severity part detail) := by
  unfold State.log State.sameLatched
  dsimp only
  split
  · rw [State.drew_keeps_faults]
  · split
    · simp only [State.bump_keeps_faults, State.drew_keeps_faults]
    · simp only [State.journal_faults, State.drew_keeps_faults]

theorem State.post_sameLatched (s : State) (unit event status detail : Nat) : s.sameLatched (s.post unit event status detail) := rfl

theorem State.putFence_sameLatched (s : State) (unit state origin cause : Nat) :
    s.sameLatched (s.putFence unit state origin cause) := by
  have force (t : State) : t.forceCommit.faults = t.faults := by
    unfold State.forceCommit
    split
    · rfl
    · exact State.commitWith_faults _ _
  unfold State.putFence State.sameLatched
  dsimp only
  rw [State.watch_faults]
  rw [State.log_sameLatched, State.post_sameLatched, force, State.journal_faults]
  simp only [State.drew_keeps_faults]

theorem State.fenceLane_sameLatched (s : State) (port lane : Nat) : s.sameLatched (s.fenceLane port lane) := by
  unfold State.fenceLane
  split
  · rfl
  · exact State.putFence_sameLatched _ _ _ _ _

/-! ### A lane that is removed (12 R316) -/

/-- A port without one of its lanes. -/
def Port.without (lane : Nat) (p : Port) : Port :=
  { p with removed := setBit p.removed lane true, aligned := setBit p.aligned lane false }

/-- The removal of a lane is counted in its fence window. -/
def State.removalCounted (s : State) (k : Nat) : State :=
  { s with fabric := { s.fabric with laneRemovals := kvSet k (kvGet k 0 s.fabric.laneRemovals + 1) s.fabric.laneRemovals } }

/-- A lane is removed, before anything is said of it. -/
def State.laneCut (s : State) (port lane : Nat) : State := (s.removalCounted (4 * port + lane)).setPort port (Port.without lane)

theorem State.laneCut_port {s : State} {port : Nat} (h : port < s.fabric.ports.length) (lane : Nat) :
    (s.laneCut port lane).port port = (s.port port).without lane :=
  State.port_setPort_self (s := s.removalCounted (4 * port + lane)) h (Port.without lane)

theorem State.removeLane_noticeStep (s : State) (port lane : Nat) : (s.laneCut port lane).noticeStep (s.removeLane port lane) := by
  have counted : (s.laneCut port lane).noticeStep
      (((s.laneCut port lane).bump 0x3210 6 1).post (unitFabric port lane) 1 0 ((s.laneCut port lane).bump 0x3210 6 1).anyDetail) :=
    State.noticeStep.trans ⟨_, _, _, _, _, rfl⟩ (State.post_logStep _ _ _ _ _).notice
  unfold State.removeLane
  dsimp only
  split
  · exact counted.trans (State.fenceLane_noticeStep _ _ _)
  · exact counted

theorem State.removeLane_linkStep (s : State) (port lane : Nat) : s.linkStep (s.removeLane port lane) :=
  State.linkStep.trans (t := s.laneCut port lane) ⟨_, _, _, _, _, _, _, _, _, State.setPort_length s port (Port.without lane), rfl⟩
    (s.removeLane_noticeStep port lane).link

theorem State.removeLane_port {s : State} {port : Nat} (h : port < s.fabric.ports.length) (lane : Nat) :
    (s.removeLane port lane).port port = (s.port port).without lane := by
  rw [(s.removeLane_noticeStep port lane).port, State.laneCut_port h]

theorem bit_setBit_false (v i : Nat) : bit (setBit v i false) i = false := by
  have hle : v / 2 ^ i % 2 * 2 ^ i ≤ v := (Nat.mul_le_mul_right _ (Nat.mod_le _ _)).trans (Nat.div_mul_le_self v _)
  have hset : setBit v i false = v - v / 2 ^ i % 2 * 2 ^ i := by simp [setBit, setBits, bits]
  have hdiv : (v - v / 2 ^ i % 2 * 2 ^ i) / 2 ^ i = v / 2 ^ i - v / 2 ^ i % 2 := by
    rw [Nat.mul_comm, Nat.sub_mul_div_of_le]
    rwa [Nat.mul_comm]
  rw [hset, bit, hdiv, beq_eq_false_iff_ne]
  omega

/-! ### The width that is left (12 R303, R316) -/

theorem chooseLanes_of_none {mask : Nat} (h : (chooseLanes mask).1 = 0) : chooseLanes mask = (0, 0) := by
  revert h
  unfold chooseLanes
  split
  · simp
  · split
    · simp
    · split
      · simp
      · split <;> simp

/-- A port that goes on with the lanes given, which its neighbour is told of. -/
def Port.resized (w : Nat × Nat) (p : Port) : Port :=
  { p with
    width := w.1
    lanes := w.2
    retrain := none
    agreeing := p.carries
    ctlDue := p.ctlDue || p.carries
    st := if p.carries then .changing else p.st }

theorem State.reWidth_none {mask : Nat} (h : (chooseLanes mask).1 = 0) (s : State) (port : Nat) : s.reWidth port mask = s.portFall port :=
  if_pos (by simpa using h)

/-- With a lane left, the port is resized, its flits are sent again, and the counters and the level bits follow. -/
theorem State.reWidth_some {mask : Nat} (h : (chooseLanes mask).1 ≠ 0) (s : State) (port : Nat) :
    (s.setPort port (Port.resized (chooseLanes mask))).creditStep (s.reWidth port mask) ∧ s.linkStep (s.reWidth port mask) := by
  have sent (v : State) : v.creditStep ((if (v.port port).carries then v.resent port (v.port port).replay else v).watch 0) ∧
      v.linkStep ((if (v.port port).carries then v.resent port (v.port port).replay else v).watch 0) := by
    split
    · exact ⟨(v.resent_creditStep _ _).trans (.of_ports (by rw [State.watch_fabric])),
        (v.resent_linkStep _ _).trans (State.watch_linkStep _ 0)⟩
    · exact ⟨.of_ports (by rw [State.watch_fabric]), v.watch_linkStep 0⟩
  have sized (b : State) (hb : b.fabric = s.fabric) :
      (s.setPort port (Port.resized (chooseLanes mask))).creditStep (b.setPort port (Port.resized (chooseLanes mask))) :=
    .of_ports (by simp only [State.setPort, hb])
  unfold State.reWidth
  dsimp only
  rw [if_neg (by simpa using h)]
  by_cases hr : (s.port port).retrain.isSome = true
  · rw [if_pos hr]
    have counted := (s.bump_linkStep 0x3210 8 1).trans (State.setPort_linkStep _ port (Port.resized (chooseLanes mask)))
    exact ⟨(sized (s.bump 0x3210 8 1) (s.bump_keeps_fabric _ _ _)).trans (sent _).1, counted.trans (sent _).2⟩
  · rw [if_neg hr]
    exact ⟨(sized s rfl).trans (sent _).1, (s.setPort_linkStep _ _).trans (sent _).2⟩

theorem State.reWidth_linkStep (s : State) (port mask : Nat) : s.linkStep (s.reWidth port mask) := by
  by_cases h : (chooseLanes mask).1 = 0
  · rw [State.reWidth_none h]
    exact s.portFall_linkStep port
  · exact (State.reWidth_some h s port).2

/-- A carrying port that loses a lane takes the width that the lanes of both ends allow. -/
theorem State.laneLost_carrying {s : State} {port lane : Nat} (hc : (s.port port).carries = true) (hr : (s.port port).retrain = none)
    (hlane : lane < 4) (hbit : bit (s.port port).aligned lane = true) :
    s.laneLost port lane = (s.removeLane port lane).reWidth port
      (((s.port port).without lane).aligned &&& (s.port port).peerLanes) := by
  have up : (s.port port).st ≠ .down ∧ (s.port port).st ≠ .disabled := by
    rcases Port.carries_iff.mp hc with h | h <;> simp [h]
  unfold State.laneLost
  dsimp only
  rw [if_neg (by simpa [hbit, up.1, up.2] using hlane), if_neg (by simp [hc]), if_neg (by simp [hr]), if_pos hc,
    State.removeLane_port (State.port_lt_of_carries hc)]

/-- A lane that a carrying port loses leaves it with a width that both ends allow, or takes it Down with no lane left. -/
theorem State.laneLost_port {s : State} {port lane : Nat} (hc : (s.port port).carries = true) (hr : (s.port port).retrain = none)
    (hlane : lane < 4) (hbit : bit (s.port port).aligned lane = true) :
    let w := chooseLanes (((s.port port).without lane).aligned &&& (s.port port).peerLanes)
    (w.1 = 0 → (s.laneLost port lane).port port = ((s.port port).without lane).fallen) ∧
      (w.1 ≠ 0 → ∃ owed, (s.laneLost port lane).port port = { ((s.port port).without lane).resized w with owed := owed }) := by
  have hlt := State.port_lt_of_carries hc
  have hlt' : port < (s.removeLane port lane).fabric.ports.length := by rwa [(s.removeLane_linkStep port lane).ports_length]
  intro w
  rw [State.laneLost_carrying hc hr hlane hbit]
  refine ⟨fun hw => ?_, fun hw => ?_⟩
  · rw [State.reWidth_none hw, State.portFall_port hlt', State.removeLane_port hlt]
  · obtain ⟨owed, h⟩ := (State.reWidth_some hw (s.removeLane port lane) port).1 port
    exact ⟨owed, by rw [h, State.port_setPort_self hlt', State.removeLane_port hlt]⟩

theorem State.laneLost_linkStep {s : State} {port lane : Nat} (hc : (s.port port).carries = true) (hr : (s.port port).retrain = none)
    (hlane : lane < 4) (hbit : bit (s.port port).aligned lane = true) : s.linkStep (s.laneLost port lane) := by
  rw [State.laneLost_carrying hc hr hlane hbit]
  exact (s.removeLane_linkStep port lane).trans (State.reWidth_linkStep _ _ _)

/-! ### The width that both ends agree on (12 R316) -/

/-- A port that goes on with a width that both ends have agreed on. -/
def Port.agreed (theirs : Nat) (w : Nat × Nat) (p : Port) : Port :=
  { p with
    peerLanes := theirs
    width := w.1
    lanes := w.2
    agreeing := false
    ctlDue := !p.agreeing
    st := .active }

section
variable {s : State} {port theirs : Nat} {payload : Bytes} (hc : (s.port port).carries = true) (hr : (s.port port).retrain = none)
  (ht : bits (beAt payload 3 1) 0 4 = theirs)
include hc hr ht

/-- The Control flit of a neighbour that leaves a port no lane. -/
theorem State.gotControl_none (hw : (chooseLanes ((s.port port).aligned &&& theirs)).1 = 0) :
    s.gotControl port payload = s.portFall port := by
  unfold State.gotControl
  simp [hr, hc, ht, hw]

/-- The Control flit of a neighbour, at a carrying port that retrains no lane. -/
theorem State.gotControl_some (hw : (chooseLanes ((s.port port).aligned &&& theirs)).1 ≠ 0) : s.gotControl port payload =
    (s.setPort port (Port.agreed theirs (chooseLanes ((s.port port).aligned &&& theirs)))).watch 0 := by
  rw [← State.setPort_port]
  unfold State.gotControl
  simp only [hr, hc, ht, hw, Option.isSome_none, Bool.and_false, Bool.false_and, Bool.false_eq_true, if_false, Bool.not_true,
    Bool.or_false, beq_iff_eq, Port.agreed]

end

/-! ### A retraining (12 R317) -/

theorem exec_laneRetrainDue {port lane : Nat} (hp : port < 12) (hl : lane < 4) (s : State) :
    exec (.laneRetrainDue port lane) s = .next (s.dueLane port lane) :=
  congrArg Host.Outcome.next (if_neg (by simpa using ⟨hp, hl⟩))

theorem State.laneCan_active {s : State} {port lane : Nat} (h : s.laneCan port lane = true) : (s.port port).st = .active := by
  simp only [State.laneCan, Bool.and_eq_true, beq_iff_eq] at h
  exact h.1.2

/-- A port that runs on the other pair while a lane is retrained. -/
def Port.trying (lane : Nat) (p : Port) : Port :=
  { p with
    st := .changing
    width := 2
    lanes := otherPair lane
    retrain := some lane
    agreeing := true
    ctlDue := true
    retrainDue := p.retrainDue.filter (fun l => l != lane) }

theorem State.startLane_port {s : State} {port : Nat} (h : port < s.fabric.ports.length) (lane : Nat) :
    (s.startLane port lane).port port = (s.port port).trying lane := by
  rw [State.startLane, State.watch_port]
  exact State.port_setPort_self h (Port.trying lane)

/-- A port with all its lanes. -/
def Port.whole (p : Port) : Port :=
  { p with
    st := .active
    width := 4
    lanes := 15
    aligned := 15
    removed := 0
    peerLanes := 15
    ctlDue := true
    agreeing := false
    retrain := none }

/-- The failures of a lane in a row, as a number of them or none. -/
def State.withFailures (s : State) (g : KV → KV) : State :=
  { s with fabric := { s.fabric with laneFailures := g s.fabric.laneFailures } }

/-- A retraining has succeeded: the pair is whole, and that is counted. -/
def State.laneBack (s : State) (port lane : Nat) : State :=
  ((s.withFailures (kvDel (4 * port + lane))).setPort port Port.whole).bump 0x3210 7 1

/-- Its values are recorded (18 R467). -/
def State.laneTrained (s : State) (port lane : Nat) : State :=
  let t := s.laneBack port lane
  (t.journal true ⟨4, 0x100 + 4 * port + lane, leBytes 4 (t.free 4)⟩).drew.watch 0

theorem exec_laneRetrainDone {s : State} {port lane : Nat} (h : (s.port port).retrain = some lane) :
    exec (.laneRetrainDone port) s = .next (s.laneTrained port lane).nextLane := by
  show execLaneRetrainDone port s = _
  unfold execLaneRetrainDone
  rw [h]
  rfl

theorem State.laneTrained_port {s : State} {port : Nat} (h : port < s.fabric.ports.length) (lane : Nat) :
    (s.laneTrained port lane).port port = (s.port port).whole := by
  have back : (s.laneBack port lane).port port = (s.port port).whole :=
    State.port_setPort_self (s := s.withFailures (kvDel (4 * port + lane))) h Port.whole
  rw [State.laneTrained, State.watch_port, ← back]
  exact (State.journal_logStep _ _ _).notice.port port

theorem State.laneTrained_count (s : State) (port lane : Nat) :
    (s.laneTrained port lane).count 0x3210 7 = (s.count 0x3210 7 + 1) % 2 ^ 64 := by
  have back : (s.laneBack port lane).count 0x3210 7 = (s.count 0x3210 7 + 1) % 2 ^ 64 := State.count_bump_self _ _ _ _
  rw [State.laneTrained, State.watch_samePortCounts _ 0 7 (by decide), ← back]
  exact State.journal_samePortCounts _ _ _ 7 (by decide)

/-- A port whose retraining has ended. -/
def Port.untried (p : Port) : Port := { p with st := .active, retrain := none, agreeing := false, ctlDue := true }

/-- A retraining has failed, and that is counted. -/
def State.laneTried (s : State) (port lane : Nat) : State :=
  let k := 4 * port + lane
  ((s.withFailures (kvSet k (kvGet k 0 s.fabric.laneFailures + 1))).setPort port Port.untried).bump 0x3210 8 1

/-- Its lane is removed, FaultSummary bit 22 is raised, and the second failure in a row fences the lane (19 R517). -/
def State.laneGivenUp (s : State) (port lane : Nat) : State :=
  let t := ((s.laneTried port lane).removeLane port lane).raise 22 0
  (if 2 ≤ kvGet (4 * port + lane) 0 s.fabric.laneFailures + 1 then t.fenceLane port lane else t).watch 0

theorem exec_laneRetrainTimeout {s : State} {port lane : Nat} (h : (s.port port).retrain = some lane) :
    exec (.laneRetrainTimeout port) s = .next (s.laneGivenUp port lane).nextLane := by
  show execLaneRetrainTimeout port s = _
  unfold execLaneRetrainTimeout
  rw [h]
  rfl

theorem State.laneGivenUp_noticeStep (s : State) (port lane : Nat) :
    ((s.laneTried port lane).laneCut port lane).noticeStep (s.laneGivenUp port lane) := by
  have raised := (State.removeLane_noticeStep (s.laneTried port lane) port lane).trans (State.raise_noticeStep _ 22 0)
  unfold State.laneGivenUp
  dsimp only
  refine State.noticeStep.trans (raised.trans ?_) (State.watch_noticeStep _ 0)
  split
  · exact State.fenceLane_noticeStep _ _ _
  · exact .refl _

theorem State.laneGivenUp_latched (s : State) (port lane : Nat) : bit (s.laneGivenUp port lane).faults.latched 22 = true := by
  unfold State.laneGivenUp
  dsimp only
  rw [State.watch_faults]
  split
  · rw [State.fenceLane_sameLatched]
    exact State.raise_latched _ _ _
  · exact State.raise_latched _ _ _

theorem State.laneGivenUp_port {s : State} {port : Nat} (h : port < s.fabric.ports.length) (lane : Nat) :
    (s.laneGivenUp port lane).port port = (s.port port).untried.without lane := by
  have tried : (s.laneTried port lane).port port = (s.port port).untried :=
    State.port_setPort_self (s := s.withFailures _) h Port.untried
  have hlt : port < (s.laneTried port lane).fabric.ports.length := (State.setPort_length _ _ _).symm ▸ h
  rw [(s.laneGivenUp_noticeStep port lane).port, State.laneCut_port hlt, tried]

theorem State.laneGivenUp_failures (s : State) (port lane : Nat) :
    kvGet (4 * port + lane) 0 (s.laneGivenUp port lane).fabric.laneFailures = kvGet (4 * port + lane) 0 s.fabric.laneFailures + 1 := by
  rw [(s.laneGivenUp_noticeStep port lane).fabric]
  exact kvGet_kvSet_self _ _ _ _

/-- Settles O52: a lane that is lost by the width that is left, the neighbour's answer by the lanes that it offers, and a retraining by
its start, its success and its failure. -/
theorem lanesAreRemovedAndRetrained : Obligations.LanesAreRemovedAndRetrained := by
  unfold Obligations.LanesAreRemovedAndRetrained
  refine ⟨fun s port lane cause hc hr hlane hbit => ?_, fun s port payload hc hr => ?_,
    fun s port lane hport hlane => ⟨fun hcan hidle => ?_, fun h => ?_⟩, fun s port lane hr hlane => ⟨?_, ?_⟩⟩
  · obtain ⟨hnone, hsome⟩ := State.laneLost_port hc hr hlane hbit
    refine ⟨s.laneLost port lane, rfl, ?_⟩
    rw [(State.laneLost_linkStep hc hr hlane hbit).mem]
    by_cases hw : (chooseLanes (((s.port port).without lane).aligned &&& (s.port port).peerLanes)).1 = 0
    · rw [hnone hw]
      refine ⟨bit_setBit_false _ _, rfl, ?_⟩
      simp [Port.fallen, chooseLanes_of_none hw]
    · have hc' : ((s.port port).without lane).carries = true := hc
      obtain ⟨owed, hport⟩ := hsome hw
      rw [hport]
      refine ⟨bit_setBit_false _ _, rfl, rfl, ?_⟩
      simp [Port.resized, hw, hc']
  · refine ⟨State.gotControl_none hc hr rfl, fun hw => ?_⟩
    rw [State.gotControl_some hc hr rfl hw, State.watch_port, State.port_setPort_self (State.port_lt_of_carries hc)]
    exact ⟨rfl, rfl, rfl, rfl, rfl⟩
  · have hlt := State.port_lt_of_st (by rw [State.laneCan_active hcan]; decide)
    rw [exec_laneRetrainDue hport hlane, State.dueLane_starts hcan hidle, State.startLane_port hlt]
    exact ⟨rfl, rfl, rfl, rfl⟩
  · rw [exec_laneRetrainDue hport hlane, State.dueLane_waits h]
  · refine ⟨s.laneTrained port lane, exec_laneRetrainDone hr, ?_⟩
    rw [State.laneTrained_port (State.port_lt_of_retrain hr)]
    exact ⟨rfl, rfl, rfl, rfl, s.laneTrained_count port lane⟩
  · refine ⟨s.laneGivenUp port lane, exec_laneRetrainTimeout hr, ?_⟩
    rw [State.laneGivenUp_port (State.port_lt_of_retrain hr)]
    exact ⟨rfl, rfl, bit_setBit_false _ _, s.laneGivenUp_latched port lane, s.laneGivenUp_failures port lane⟩

end Sys2Proof.Machine
end

section
/-! Bring-up of ports (12 R312 to R315, R318, R321): from the first signal to Active, and what is discarded of a port that stays down. -/

namespace Sys2Proof.Machine
open Sys2Proof

/-! ### Signal and alignment (12 R313 steps 1 to 4) -/

/-- A port that trains the lanes on which it has found a signal. -/
def Port.found (good : Nat) (p : Port) : Port :=
  { p with
    st := .training
    aligned := good
    removed := 0
    lanes := 0
    width := 0
    miswired := false
    neighbour := 0xFFFF
    neighbourPort := 0xFFFF }

theorem exec_signalDetect {s : State} {port lanes : Nat} (hdown : (s.port port).st = .down)
    (hgood : (s.clearLanes port).goodLanes port lanes ≠ 0) (hon : s.fabricOn = true) (hserdes : s.serdesUp = true) :
    exec (.signalDetect port lanes) s =
      .next ((s.clearLanes port).setPort port (Port.found ((s.clearLanes port).goodLanes port lanes))) :=
  congrArg Host.Outcome.next (if_neg (by simp [hdown, hgood, hon, hserdes]))

/-- The lanes of a port that did not align. -/
def Port.failing (p : Port) (lanes : Nat) : List Nat := (List.range 4).filter (fun i => bit p.aligned i && !bit lanes i)

theorem Port.failing_of_all {p : Port} {lanes : Nat} (h : ∀ i, i < 4 → bit p.aligned i = true → bit lanes i = true) :
    p.failing lanes = [] := by
  refine List.filter_eq_nil_iff.mpr fun i hi => ?_
  simpa using h i (List.mem_range.mp hi)

/-- The lanes of a port that did not align are removed. -/
def State.lanesCut (s : State) (port lanes : Nat) : State :=
  ((s.port port).failing lanes).foldl (fun s i => s.removeLane port i) s

theorem State.lanesCut_linkStep (s : State) (port lanes : Nat) : s.linkStep (s.lanesCut port lanes) :=
  foldl_linkStep (fun s i => s.removeLane_linkStep port i) _ s

/-- A port that exchanges Hellos over the lanes chosen, or is Down with none. -/
def Port.settled (w : Nat × Nat) (p : Port) : Port :=
  { p with
    width := w.1
    lanes := w.2
    st := if w.1 == 0 then .down else .exchanging
    ctlDue := w.1 != 0 }

theorem exec_portAligned {s : State} {port : Nat} (h : (s.port port).st = .training ∨ (s.port port).st = .aligning) (lanes : Nat) :
    exec (.portAligned port lanes) s =
      .next (((s.lanesCut port lanes).setPort port (Port.settled (chooseLanes ((s.lanesCut port lanes).port port).aligned))).watch 0) :=
  congrArg Host.Outcome.next (if_neg (by rcases h with h | h <;> simp [h]))

theorem exec_bringUpTimeout {s : State} {port : Nat} (h : (s.port port).st = .training ∨ (s.port port).st = .aligning) :
    exec (.bringUpTimeout port) s = .next ((s.setPort port (fun p => { p with st := .down })).watch 0) :=
  congrArg Host.Outcome.next (if_pos (by rcases h with h | h <;> simp [h]))

/-! ### Hellos (12 R313 steps 5 to 7) -/

theorem exec_helloTimer {s : State} {port : Nat} (h : (s.port port).st = .exchanging) :
    exec (.helloTimer port) s = .next (s.setPort port (fun p => { p with ctlDue := true })) :=
  congrArg Host.Outcome.next (if_pos (by simp [h]))

theorem exec_helloTimeout {s : State} {port : Nat} (h : (s.port port).st = .exchanging) :
    exec (.helloTimeout port) s = .next (s.portFall port) :=
  congrArg Host.Outcome.next (if_pos (by simp [h]))

/-- A port that has taken an AckSeq. -/
def Port.takeAck (a : Nat) (p : Port) : Port :=
  let rest := p.replay.filter (fun f => !acked16 a f.seq)
  { p with replay := rest, ackIn := a, replays := if rest.length == p.replay.length then p.replays else 0 }

/-- A port that knows its neighbour, and the width agreed with it. -/
def Port.met (h : Hello) (w : Nat × Nat) (p : Port) : Port :=
  { p with
    neighbour := h.node
    neighbourPort := h.port
    peerLanes := h.lanes % 16
    width := w.1
    lanes := w.2
    credits := (List.range 8).map (fun i => h.credits.getD i 0) }

/-- A port that holds no flit from earlier goes on at the Seq that its neighbour expects. -/
def Port.meetSeq (n : Nat) (p : Port) : Port := if p.replay == [] then { p with nextSeq := n } else p

theorem Port.meetSeq_eq (n : Nat) (p : Port) : ∃ nextSeq, p.meetSeq n = { p with nextSeq := nextSeq } := by
  unfold Port.meetSeq
  split <;> exact ⟨_, rfl⟩

/-- The last Seq that a Hello acknowledges. -/
def helloAck (h : Hello) : Nat := (h.expectSeq + 2 ^ 16 - 1) % 2 ^ 16

/-- What a Hello says is taken, before the neighbour is checked. -/
def State.helloTaken (s : State) (port : Nat) (h : Hello) (w : Nat × Nat) : State :=
  ((s.setPort port (Port.met h w)).setPort port (Port.takeAck (helloAck h))).setPort port
    (Port.meetSeq h.expectSeq)

section
variable {s : State} {port : Nat} {h : Hello} (hx : (s.port port).st = .exchanging)
include hx

theorem exec_helloReceive_none (hw : (chooseLanes ((s.port port).aligned &&& h.lanes)).1 = 0) :
    exec (.helloReceive port h) s = .next (s.portFall port) :=
  congrArg Host.Outcome.next ((if_neg (by simp [hx])).trans (if_pos (by simpa using hw)))

theorem exec_helloReceive_some (hw : (chooseLanes ((s.port port).aligned &&& h.lanes)).1 ≠ 0) : exec (.helloReceive port h) s =
    .next ((s.helloTaken port h (chooseLanes ((s.port port).aligned &&& h.lanes))).checkPort port).nextLane :=
  congrArg Host.Outcome.next ((if_neg (by simp [hx])).trans (if_neg (by simpa using hw)))

end

theorem State.helloTaken_linkStep (s : State) (port : Nat) (h : Hello) (w : Nat × Nat) : s.linkStep (s.helloTaken port h w) :=
  ((s.setPort_linkStep port _).trans (State.setPort_linkStep _ port _)).trans (State.setPort_linkStep _ port _)

/-- What a Hello leaves of its port, but for the Seq at which the port goes on. -/
theorem State.helloTaken_port {s : State} {port : Nat} (hlt : port < s.fabric.ports.length) (h : Hello) (w : Nat × Nat) :
    ∃ nextSeq, (s.helloTaken port h w).port port =
      { ((s.port port).met h w).takeAck (helloAck h) with nextSeq := nextSeq } := by
  rw [State.helloTaken, State.port_setPort_self (by simpa using hlt), State.port_setPort_self (by simpa using hlt),
    State.port_setPort_self hlt]
  exact Port.meetSeq_eq _ _

/-! ### The check of the neighbour (12 R314) -/

/-- A port that is Active: the flits it resumes take places that the Hello stated as free. -/
def Port.activated (p : Port) : Port :=
  { p with
    st := .active
    miswired := false
    replays := 0
    credits := p.replay.foldl (fun l f => modifyAt (fun k => k - 1) f.buf l) p.credits }

section
variable {s : State} {port : Nat} (hx : (s.port port).st = .exchanging) (hn : s.fabric.bothNamed (s.port port) = true)
include hx hn

/-- A port whose neighbour agrees is Active, and resumes; only credits and queues change besides. -/
theorem State.checkPort_agrees (hok : s.fabric.neighbourOk (s.port port) = true) :
    (s.setPort port Port.activated).queueStep (s.checkPort port) := by
  unfold State.checkPort
  dsimp only
  rw [if_neg (by simp [hx, hn]), if_pos hok]
  have counted : (s.setPort port Port.activated).creditStep ((s.setPort port Port.activated).bump 0x3210 9 1) := .of_ports rfl
  have resumed := counted.trans (State.resent_creditStep _ port (s.port port).replay)
  exact (resumed.queue.trans (State.rerouteHeld_queueStep _)).trans (State.watch_noticeStep _ 0).queue

theorem State.checkPort_disagrees (hok : s.fabric.neighbourOk (s.port port) = false) :
    s.checkPort port = (s.setPort port (fun p => { p with miswired := true })).watch 0 := by
  unfold State.checkPort
  dsimp only
  rw [if_neg (by simp [hx, hn]), if_neg (by simp [hok])]

end

/-! ### What has waited too long (12 R318, R321) -/

/-- What is overdue leaves the router, and the queue of a port that does not carry. -/
def State.overdueOut (s : State) (port : Nat) : State :=
  let t : State := { s with fabric := { s.fabric with held := s.fabric.held.filter (fun f => !(s.overdue port).contains f) } }
  if (s.port port).carries = true then t else t.setPort port (fun p => { p with sendQ := [] })

theorem exec_portDownLimit_none {s : State} {port : Nat} (h : s.overdue port = []) : exec (.portDownLimit port) s = .next s :=
  congrArg Host.Outcome.next (if_pos (by simp [h]))

theorem exec_portDownLimit_some {s : State} {port : Nat} (h : s.overdue port ≠ []) :
    exec (.portDownLimit port) s = .next ((s.overdueOut port).discard (s.overdue port)) :=
  congrArg Host.Outcome.next (if_neg (by simpa using h))

/-- What is queued at a port that does not carry is overdue, and so is what waits for it alone. -/
theorem State.mem_overdue {s : State} {port : Nat} (h : (s.port port).carries = false) {f : Flit} : f ∈ s.overdue port ↔
    f ∈ (s.port port).sendQ ∨ (f ∈ s.fabric.held ∧ s.fabric.openPorts f.dest = [] ∧
      (bit (s.fabric.entry f.dest) port = true ∨ s.fabric.entry f.dest = 0)) := by
  simp [State.overdue, h]

/-- A flit that holds no place in a receive buffer frees none. -/
theorem State.freePlace_of_none {f : Flit} (h : f.place = none) (s : State) : s.freePlace f = s := by
  rw [State.freePlace, h]

theorem State.discard_one {f : Flit} (h : f.place = none) (s : State) : s.discard [f] = (s.lostFlit f).bump 0x3210 5 1 := by
  have one : s.discard [f] = ((s.freePlace f).lostFlit f).bump 0x3210 5 1 := rfl
  rw [one, State.freePlace_of_none h]

theorem State.lostFlit_of_req {s : State} {f : Flit} {q : Req} (h : s.req? f.req = some q) (hk : q.kind ≠ .history) :
    s.lostFlit f = s.failReq q 0x0701 := by
  simp [State.lostFlit, h, hk]

/-- Settles O51: each command by what it makes of its port, the limit by what is overdue, and the check by whether the neighbour agrees. -/
theorem portsComeUp : Obligations.PortsComeUp := by
  unfold Obligations.PortsComeUp
  refine ⟨fun s port lanes hdown hgood hon hserdes hlt => ?_,
    fun s port hlt => ⟨fun hst => ⟨?_, fun lanes => ?_⟩, fun hx => ?_, ?_⟩,
    fun s port => ⟨exec_portDownLimit_none, exec_portDownLimit_some, fun hc => ?_⟩,
    fun s f hplace => ⟨fun hq => ?_, fun q hq => ?_⟩,
    fun s port hx hn => ⟨fun hok => ?_, fun hok => ?_⟩⟩
  · have cleared := s.clearLanes_noticeStep port
    have hlt' : port < (s.clearLanes port).fabric.ports.length := by rwa [cleared.fabric]
    refine ⟨_, exec_signalDetect hdown hgood hon hserdes, ?_⟩
    rw [State.port_setPort_self hlt']
    exact ⟨rfl, rfl, rfl, rfl, cleared.mem⟩
  · refine ⟨_, exec_bringUpTimeout hst, ?_, fun q hq => ?_⟩
    · rw [State.watch_port, State.port_setPort_self hlt]
    · rw [State.watch_port, State.port_setPort_of_ne hq]
  · have hlt' : port < (s.lanesCut port lanes).fabric.ports.length := by rwa [(s.lanesCut_linkStep port lanes).ports_length]
    refine ⟨_, exec_portAligned hst lanes, ?_⟩
    rw [State.watch_port, State.port_setPort_self hlt']
    refine ⟨rfl, ?_, fun hall => ?_⟩
    · simp [Port.settled]
    · have whole : s.lanesCut port lanes = s := by rw [State.lanesCut, Port.failing_of_all hall, List.foldl_nil]
      rw [whole]
      rfl
  · refine ⟨exec_helloTimer hx, exec_helloTimeout hx, fun h => ⟨exec_helloReceive_none hx, fun hw => ?_⟩⟩
    obtain ⟨_, hport⟩ := State.helloTaken_port hlt h (chooseLanes ((s.port port).aligned &&& h.lanes))
    refine ⟨_, exec_helloReceive_some hx hw, ?_⟩
    rw [hport]
    exact ⟨rfl, rfl, rfl, rfl, hx, (s.helloTaken_linkStep port h _).mem⟩
  · rw [State.portFall_port hlt]
    exact ⟨rfl, rfl, rfl, fun q hq => State.portFall_port_of_ne hq s⟩
  · exact ⟨fun f hf => (State.mem_overdue hc).mpr (.inl hf),
      fun f hf hbit hopen => (State.mem_overdue hc).mpr (.inr ⟨hf, hopen, .inl hbit⟩)⟩
  · rw [State.discard_one hplace, State.lostFlit_of_none hq]
  · refine ⟨fun hk => ?_, fun hk => ?_⟩
    · rw [State.discard_one hplace, State.lostFlit_of_req hq (by simp [hk]), State.failReq_write s _ hk]
    · rw [State.discard_one hplace, State.lostFlit_of_req hq (by simp [hk]), State.failReq_signal s _ hk]
  · obtain ⟨owed, sendQ, hport⟩ := State.checkPort_agrees hx hn hok port
    rw [hport, State.port_setPort_self (State.port_lt_of_up (.inr hx))]
    exact ⟨rfl, rfl⟩
  · rw [State.checkPort_disagrees hx hn hok, State.watch_port, State.port_setPort_self (State.port_lt_of_up (.inr hx))]
    exact ⟨hx, rfl⟩

end Sys2Proof.Machine
end

section
/-! The bytes of a flit (12 R306, R307): numbers as bytes, the bound of a CRC, and the fields of a header read back. -/

namespace Sys2Proof.Machine
open Sys2Proof

/-! ### Numbers as bytes (00 R5) -/

@[simp] theorem leBytes_length (n v : Nat) : (leBytes n v).length = n := by
  induction n generalizing v with
  | zero => rfl
  | succ n ih => rw [leBytes, List.length_cons, ih]

@[simp] theorem beBytes_length (n v : Nat) : (beBytes n v).length = n := by rw [beBytes, List.length_reverse, leBytes_length]

theorem leNat_leBytes (n v : Nat) : leNat (leBytes n v) = v % 256 ^ n := by
  induction n generalizing v with
  | zero => simp [leBytes, leNat, Nat.mod_one]
  | succ n ih => rw [leBytes, leNat, ih, BitVec.toNat_ofNat, pow_succ' 256 n, Nat.mod_mul (a := 256)]

theorem beNat_reverse (bs : Bytes) : beNat bs.reverse = leNat bs := by
  rw [beNat, List.foldl_reverse]
  induction bs with
  | nil => rfl
  | cons b bs ih => rw [List.foldr_cons, ih, leNat, Nat.add_comm]

theorem beNat_beBytes (n v : Nat) : beNat (beBytes n v) = v % 256 ^ n := by rw [beBytes, beNat_reverse, leNat_leBytes]

theorem fit_length (n : Nat) (bs : Bytes) : (fit n bs).length = n := by
  rw [fit, List.length_append, List.length_take, List.length_replicate]
  omega

theorem fit_of_le {n : Nat} {bs : Bytes} (h : bs.length ≤ n) : fit n bs = bs ++ List.replicate (n - bs.length) 0 := by
  rw [fit, List.take_of_length_le h]

/-! ### CRC-32C -/

theorem crcShift_lt (n : Nat) {c : Nat} (h : c < 2 ^ 32) : crcShift n c < 2 ^ 32 := by
  induction n generalizing c with
  | zero => exact h
  | succ n ih =>
    rw [crcShift]
    refine ih ?_
    split
    · exact Nat.xor_lt_two_pow (by omega) (by decide)
    · omega

theorem crc32c_lt (bs : Bytes) : crc32c bs < 2 ^ 32 := by
  have step (l : Bytes) : ∀ c < 2 ^ 32, l.foldl (fun c b => crcShift 8 (c ^^^ b.toNat)) c < 2 ^ 32 := by
    induction l with
    | nil => exact fun c h => h
    | cons b l ih => exact fun c h => ih _ (crcShift_lt 8 (Nat.xor_lt_two_pow h (b.isLt.trans (by decide))))
  exact Nat.xor_lt_two_pow (step bs _ (by decide)) (by decide)

/-! ### The header (12 R306) -/

/-- The fields of a flit are in range. -/
def Flit.fits (f : Flit) : Prop :=
  f.type ≤ 4 ∧ f.cls < 4 ∧ f.vlane < 2 ∧ f.seq < 2 ^ 16 ∧ f.ackSeq < 2 ^ 16 ∧ f.creditBuf < 8 ∧ f.creditCount < 256 ∧
    f.dest < 2 ^ 15 ∧ f.src < 2 ^ 15 ∧ f.postmark < 1024 ∧ f.payload.length ≤ 236

/-- The number that a flit's header spells. -/
def Flit.head (f : Flit) : Nat :=
  f.type % 16 * 2 ^ 124 + f.cls % 4 * 2 ^ 122 + f.vlane % 2 * 2 ^ 121 + (if f.last then 2 ^ 120 else 0) +
    f.seq % 2 ^ 16 * 2 ^ 104 + f.ackSeq % 2 ^ 16 * 2 ^ 88 + f.creditBuf % 8 * 2 ^ 85 + f.creditCount % 256 * 2 ^ 77 +
    f.payload.length % 256 * 2 ^ 69 + f.dest % 2 ^ 15 * 2 ^ 54 + f.src % 2 ^ 15 * 2 ^ 39 + f.postmark % 1024 * 2 ^ 29

/-- A header below 2^128 gives back each field where R306 puts it: the fields overlap nowhere, which is linear arithmetic over their
bounds. -/
theorem Flit.head_fields {f : Flit} (h : f.fits) : f.head < 2 ^ 128 ∧ bits f.head 124 4 = f.type ∧ bits f.head 122 2 = f.cls ∧
    bits f.head 121 1 = f.vlane ∧ bit f.head 120 = f.last ∧ bits f.head 104 16 = f.seq ∧ bits f.head 88 16 = f.ackSeq ∧
    bits f.head 85 3 = f.creditBuf ∧ bits f.head 77 8 = f.creditCount ∧ bits f.head 69 8 = f.payload.length ∧
    bits f.head 54 15 = f.dest ∧ bits f.head 39 15 = f.src ∧ bits f.head 29 10 = f.postmark ∧ bits f.head 0 29 = 0 := by
  obtain ⟨htype, hcls, hvlane, hseq, hack, hbuf, hcount, hdest, hsrc, hmark, hlen⟩ := h
  have hhead : f.head = f.type * 2 ^ 124 + f.cls * 2 ^ 122 + f.vlane * 2 ^ 121 + f.last.toNat * 2 ^ 120 + f.seq * 2 ^ 104 +
      f.ackSeq * 2 ^ 88 + f.creditBuf * 2 ^ 85 + f.creditCount * 2 ^ 77 + f.payload.length * 2 ^ 69 + f.dest * 2 ^ 54 +
      f.src * 2 ^ 39 + f.postmark * 2 ^ 29 := by
    have lastBit : (if f.last then 2 ^ 120 else 0) = f.last.toNat * 2 ^ 120 := by cases f.last <;> rfl
    rw [Flit.head, lastBit]
    omega
  have hlast : f.last.toNat < 2 := f.last.toNat_lt
  rw [hhead]
  simp only [bits, bit]
  refine ⟨by omega, by omega, by omega, by omega, ?_, by omega, by omega, by omega, by omega, by omega, by omega, by omega, by omega,
    by omega⟩
  rw [show _ % 2 = f.last.toNat by omega]
  cases f.last <;> rfl

/-! ### The 256 bytes -/

/-- A flit's bytes before its CRC. -/
def Flit.body (f : Flit) : Bytes := beBytes 16 f.head ++ fit 236 f.payload

theorem Flit.bytes_eq (f : Flit) : f.bytes = f.body ++ beBytes 4 (crc32c f.body) := rfl

@[simp] theorem Flit.body_length (f : Flit) : f.body.length = 252 := by
  rw [Flit.body, List.length_append, beBytes_length, fit_length]

@[simp] theorem Flit.bytes_length (f : Flit) : f.bytes.length = 256 := by
  rw [Flit.bytes_eq, List.length_append, Flit.body_length, beBytes_length]

theorem Flit.bytes_header {f : Flit} (h : f.fits) : beNat (f.bytes.take 16) = f.head := by
  have header : f.bytes.take 16 = beBytes 16 f.head := by
    rw [Flit.bytes_eq, Flit.body, List.append_assoc, List.take_left' (beBytes_length 16 f.head)]
  rw [header, beNat_beBytes, Nat.mod_eq_of_lt ((Flit.head_fields h).1.trans_le (by norm_num))]

theorem Flit.bytes_payload {f : Flit} (h : f.payload.length ≤ 236) : (f.bytes.drop 16).take f.payload.length = f.payload := by
  rw [Flit.bytes_eq, Flit.body, List.append_assoc, List.drop_left' (beBytes_length 16 f.head), fit_of_le h, List.append_assoc,
    List.take_left' rfl]

theorem Flit.bytes_crc (f : Flit) : beAt f.bytes 252 4 = crc32c (f.bytes.take 252) := by
  have hbody : f.bytes.take 252 = f.body := by rw [Flit.bytes_eq, List.take_left' f.body_length]
  rw [hbody, beAt, sub, Flit.bytes_eq, List.drop_left' f.body_length, List.take_of_length_le (by simp), beNat_beBytes,
    Nat.mod_eq_of_lt ((crc32c_lt _).trans_le (by norm_num))]

/-- A flit in range is none that R307 discards. -/
theorem Flit.bytes_good {f : Flit} (h : f.fits) : flitBad f.bytes = false := by
  obtain ⟨-, htype, -, -, -, -, -, -, -, hlen, -, -, -, hres⟩ := Flit.head_fields h
  unfold flitBad
  dsimp only
  rw [Flit.bytes_header h, Flit.bytes_length, htype, hlen, hres, f.bytes_crc]
  obtain ⟨h4, -, -, -, -, -, -, -, -, -, h236⟩ := h
  simpa using ⟨h4, h236⟩

/-- The fields of a flit in range are read back from its bytes. -/
theorem Flit.parse_bytes {f : Flit} (h : f.fits) : Flit.parse f.bytes = { f with place := none, req := 0 } := by
  have header := Flit.bytes_header h
  obtain ⟨-, htype, hcls, hvlane, hlast, hseq, hack, hbuf, hcount, hlen, hdest, hsrc, hmark, -⟩ := Flit.head_fields h
  obtain ⟨-, -, -, -, -, -, -, -, -, -, h236⟩ := h
  unfold Flit.parse
  dsimp only
  rw [header, htype, hcls, hvlane, hlast, hseq, hack, hbuf, hcount, hlen, hdest, hsrc, hmark, Nat.min_eq_right h236,
    Flit.bytes_payload h236]

end Sys2Proof.Machine
end

section
/-! Flits between ports (12 R306 to R310): what a port sends, what it accepts, and what it sends again. -/

namespace Sys2Proof.Machine
open Sys2Proof

/-! ### Sending (12 R308, R309) -/

theorem State.sendFlit_out (s : State) (port : Nat) (f : Flit) :
    (s.sendFlit port f).fabric.out = s.fabric.out ++ [(port, ((s.port port).stamped f).bytes)] := by
  rw [State.sendFlit_eq]
  rfl

theorem State.sendFlit_tele (s : State) (port : Nat) (f : Flit) : (s.sendFlit port f).tele = s.tele := rfl

theorem State.freePlace_out (s : State) (f : Flit) : (s.freePlace f).fabric.out = s.fabric.out := by
  unfold State.freePlace
  split <;> rfl

theorem State.freePlace_tele (s : State) (f : Flit) : (s.freePlace f).tele = s.tele := by
  unfold State.freePlace
  split <;> rfl

/-- A port that sends a flit of its queue, and keeps it as `g` until it is acknowledged. -/
def Port.sent (f g : Flit) (p : Port) : Port :=
  { p with
    nextSeq := (p.nextSeq + 1) % 2 ^ 16
    sendQ := p.sendQ.erase f
    replay := p.replay ++ [g]
    credits := modifyAt (fun k => k - 1) f.buf p.credits
    rr := if f.cls == 0 then p.rr else f.cls % 3 }

/-- A flit of a port's queue leaves it, and is counted. -/
def State.flitTaken (s : State) (port : Nat) (f g : Flit) : State := ((s.freePlace f).setPort port (Port.sent f g)).bump 0x3210 1 1

theorem State.flitTaken_port {s : State} {port : Nat} (hlt : port < s.fabric.ports.length) (f g : Flit) :
    ∃ owed, (s.flitTaken port f g).port port = { (s.port port).sent f g with owed := owed } := by
  have hlt' : port < (s.freePlace f).fabric.ports.length := by rwa [(s.freePlace_linkStep f).ports_length]
  obtain ⟨owed, hfree⟩ := s.freePlace_creditStep f port
  refine ⟨owed, ?_⟩
  rw [State.flitTaken, State.bump_port, State.port_setPort_self hlt', hfree]
  rfl

theorem State.flitTaken_out (s : State) (port : Nat) (f g : Flit) : (s.flitTaken port f g).fabric.out = s.fabric.out :=
  s.freePlace_out f

theorem State.flitTaken_count (s : State) (port : Nat) (f g : Flit) :
    (s.flitTaken port f g).count 0x3210 1 = (s.count 0x3210 1 + 1) % 2 ^ 64 := by
  rw [State.flitTaken, State.count_bump_self, State.count, State.setPort_keeps_tele, s.freePlace_tele]
  rfl

/-- A port at which nothing comes before the flits of its queue. -/
def Port.free (p : Port) : Prop := p.nakDue = false ∧ p.ctlDue = false ∧ p.carries = true

section
variable {s : State} {port : Nat} (hup : (s.port port).carries = true ∨ (s.port port).st = .exchanging)
include hup

/-- A port that carries or exchanges Hellos does what it has to. -/
theorem State.port_works : ¬(!(s.port port).carries && (s.port port).st != .exchanging) = true := by
  rcases hup with h | h <;> simp [h]

theorem State.transmit_nak (h : (s.port port).nakDue = true) :
    s.transmit port = (s.sendFlit port (Flit.bare 3 s.node [])).setPort port (fun p => { p with nakDue := false }) :=
  (if_neg (State.port_works hup)).trans (if_pos h)

theorem State.transmit_control (h : (s.port port).nakDue = false) (hctl : (s.port port).ctlDue = true) :
    s.transmit port = (s.sendFlit port (Flit.bare 4 s.node (s.helloBody (s.port port)))).setPort port (fun q =>
      { q with ctlDue := false, owed := if (s.port port).st = .exchanging then List.replicate 8 0 else q.owed }) := by
  refine (if_neg (State.port_works hup)).trans ((if_neg (by simp [h])).trans ((if_pos hctl).trans ?_))
  simp only [beq_iff_eq]

end

theorem State.transmit_idle {s : State} {port : Nat} (h : (s.port port).free) (hnone : (s.port port).nextFlit = none) :
    s.transmit port = s.sendFlit port (Flit.bare 0 s.node []) := by
  obtain ⟨hnak, hctl, hc⟩ := h
  unfold State.transmit
  simp [hnak, hctl, hc, hnone]

/-- A flit as a port keeps it until it is acknowledged. -/
def Port.keeping (p : Port) (f : Flit) : Flit := { f with seq := p.nextSeq, place := none }

theorem State.transmit_next {s : State} {port : Nat} (h : (s.port port).free) {f : Flit} (hf : (s.port port).nextFlit = some f) :
    s.transmit port = (s.flitTaken port f ((s.port port).keeping f)).sendFlit port ((s.port port).keeping f) := by
  obtain ⟨hnak, hctl, hc⟩ := h
  unfold State.transmit
  simp only [hnak, hctl, hc, hf, Bool.not_true, Bool.false_and, Bool.false_eq_true, if_false]
  rfl

/-! ### Reception (12 R307, R310) -/

/-- A port that a flit has returned credits to. -/
def Port.creditTaken (f : Flit) (p : Port) : Port := { p with credits := modifyAt (fun k => k + f.creditCount) f.creditBuf p.credits }

/-- The acknowledgement and the credits of a flit are taken. -/
def State.flitRead (s : State) (port : Nat) (f : Flit) : State := (s.takeAckSeq port f.ackSeq).setPort port (Port.creditTaken f)

theorem State.flitRead_linkStep (s : State) (port : Nat) (f : Flit) : s.linkStep (s.flitRead port f) :=
  (s.setPort_linkStep port (Port.takeAck f.ackSeq)).trans (State.setPort_linkStep _ port _)

theorem State.flitRead_lt {s : State} {port : Nat} (hlt : port < s.fabric.ports.length) (f : Flit) :
    port < (s.flitRead port f).fabric.ports.length := by
  rwa [(s.flitRead_linkStep port f).ports_length]

theorem State.flitRead_port {s : State} {port : Nat} (hlt : port < s.fabric.ports.length) (f : Flit) :
    (s.flitRead port f).port port = ((s.port port).takeAck f.ackSeq).creditTaken f := by
  have hack : (s.takeAckSeq port f.ackSeq).port port = (s.port port).takeAck f.ackSeq :=
    State.port_setPort_self hlt (Port.takeAck f.ackSeq)
  have hlt' : port < (s.takeAckSeq port f.ackSeq).fabric.ports.length := by rwa [State.takeAckSeq, State.setPort_length]
  rw [State.flitRead, State.port_setPort_self hlt', hack]

theorem State.flitRead_expectSeq (s : State) (port : Nat) (f : Flit) :
    ((s.flitRead port f).port port).expectSeq = (s.port port).expectSeq := by
  rw [State.flitRead, State.port_setPort_keeps (p := Port.expectSeq) (f := Port.creditTaken f) (fun _ => rfl)]
  exact State.port_setPort_keeps (p := Port.expectSeq) (f := Port.takeAck f.ackSeq) (fun _ => rfl) s port port

/-- A port that accepts a flit expects the next one. -/
def Port.accepted (p : Port) : Port := { p with expectSeq := (p.expectSeq + 1) % 2 ^ 16, nakSent := false }

/-- A port that owes a Nak. -/
def Port.nakOwed (p : Port) : Port := if p.nakSent then p else { p with nakSent := true, nakDue := true }

theorem Port.nakOwed_sent (p : Port) : p.nakOwed.nakSent = true ∧ p.nakOwed.expectSeq = p.expectSeq := by
  unfold Port.nakOwed
  split
  next h => exact ⟨h, rfl⟩
  next => exact ⟨rfl, rfl⟩

section
variable {s : State} {port : Nat} {f : Flit}

theorem Flit.sequenced_iff : f.sequenced = true ↔ f.type = 1 ∨ f.type = 2 := by simp [Flit.sequenced]

/-- A sequenced flit is no Nak and no Control flit: it is accepted at its turn, and else a Nak is owed. -/
theorem State.gotFlit_sequenced (h : f.sequenced = true) : s.gotFlit port f =
    if f.seq = (s.port port).expectSeq then (s.flitRead port f).acceptFlit port f
    else (s.flitRead port f).setPort port Port.nakOwed := by
  have hkind : (f.type == 3) = false ∧ (f.type == 4) = false := by
    rcases Flit.sequenced_iff.mp h with ht | ht <;> simp [ht]
  rw [← State.flitRead_expectSeq s port f]
  unfold State.gotFlit
  simp only [hkind, h, Bool.not_true, Bool.false_eq_true, if_false, beq_iff_eq]
  rfl

/-- A flit that a port accepts is for this node, or in transit. -/
theorem State.acceptFlit_eq (s : State) (port : Nat) (f : Flit) : s.acceptFlit port f =
    if f.dest = s.node then (s.setPort port Port.accepted).takeFlit port f
    else (s.setPort port Port.accepted).routeFlit { f with place := some (port, f.buf) } := by
  unfold State.acceptFlit
  simp only [beq_iff_eq]
  rfl

theorem State.gotFlit_idle (h : f.type = 0) : s.gotFlit port f = s.flitRead port f := by
  unfold State.gotFlit
  simp only [h, Flit.sequenced]
  rfl

theorem State.gotFlit_control (h : f.type = 4) : s.gotFlit port f = (s.flitRead port f).gotControl port f.payload := by
  unfold State.gotFlit
  simp only [h]
  rfl

end

/-- What orders the flits that a port receives, and those that it keeps, is the same. -/
def Port.sameOrder (p q : Port) : Prop := q.ackIn = p.ackIn ∧ q.expectSeq = p.expectSeq ∧ q.replay = p.replay

/-- A Control flit changes nothing, takes its port Down, or changes the port's link; none of them changes its order. -/
theorem State.gotControl_cases (s : State) (port : Nat) (payload : Bytes) : s.gotControl port payload = s ∨
    s.gotControl port payload = s.portFall port ∨
    ∃ q, (s.port port).sameOrder q ∧ s.gotControl port payload = (s.setPort port (fun _ => q)).watch 0 := by
  unfold State.gotControl
  extract_lets p theirs late q mine w
  have order : p.sameOrder q := by
    unfold q
    split <;> exact ⟨rfl, rfl, rfl⟩
  split
  · exact .inl rfl
  · split
    · exact .inr (.inl rfl)
    · refine .inr (.inr ⟨_, ?_, rfl⟩)
      exact order

theorem State.gotControl_order {s : State} {port : Nat} (hlt : port < s.fabric.ports.length) (payload : Bytes) :
    (s.port port).sameOrder ((s.gotControl port payload).port port) := by
  rcases s.gotControl_cases port payload with h | h | ⟨q, horder, h⟩
  · rw [h]
    exact ⟨rfl, rfl, rfl⟩
  · rw [h, State.portFall_port hlt]
    exact ⟨rfl, rfl, rfl⟩
  · rw [h, State.watch_port, State.port_setPort_self hlt]
    exact horder

section
variable {s : State} {port : Nat} (hup : (s.port port).carries = true ∨ (s.port port).st = .exchanging) (bytes : Bytes)
include hup

theorem exec_flitReceive_uncorrected : exec (.flitReceive port false bytes) s = .next ((s.bump 0x3210 4 1).oweNak port) :=
  congrArg Host.Outcome.next ((if_neg (State.port_works hup)).trans (if_pos rfl))

theorem exec_flitReceive_bad (h : flitBad bytes = true) : exec (.flitReceive port true bytes) s = .next ((s.bump 0x3210 3 1).oweNak port) :=
  congrArg Host.Outcome.next ((if_neg (State.port_works hup)).trans ((if_neg (by decide)).trans (if_pos h)))

theorem exec_flitReceive_good (h : flitBad bytes = false) :
    exec (.flitReceive port true bytes) s = .next (s.gotFlit port (Flit.parse bytes)) :=
  congrArg Host.Outcome.next ((if_neg (State.port_works hup)).trans ((if_neg (by decide)).trans (if_neg (by simp [h]))))

end

/-! ### Replay (12 R310) -/

theorem exec_nakReceive {s : State} {port a : Nat} (hc : (s.port port).carries = true) (ha : a < 2 ^ 16) :
    exec (.nakReceive port a) s = .next ((s.takeAckSeq port a).replayPort port) :=
  congrArg Host.Outcome.next ((if_pos hc).trans (by rw [Nat.mod_eq_of_lt ha]))

theorem exec_replayTimeout {s : State} {port : Nat} (hc : (s.port port).carries = true) :
    exec (.replayTimeout port) s = .next (s.replayPort port) :=
  congrArg Host.Outcome.next (if_pos hc)

theorem State.resend_out_length (port : Nat) (l : List Flit) (s : State) :
    (l.foldl (fun s f => s.sendFlit port f) s).fabric.out.length = s.fabric.out.length + l.length := by
  induction l generalizing s with
  | nil => rfl
  | cons f l ih =>
    rw [List.foldl_cons, ih, State.sendFlit_out, List.length_append, List.length_cons, List.length_cons, List.length_nil]
    omega

theorem State.resend_tele (port : Nat) (l : List Flit) (s : State) : (l.foldl (fun s f => s.sendFlit port f) s).tele = s.tele :=
  foldl_related (R := fun s t : State => t.tele = s.tele) (fun _ => rfl) (fun h h' => h'.trans h) (fun s f => s.sendFlit_tele port f) l s

theorem State.resent_count (s : State) (port : Nat) (l : List Flit) :
    (s.resent port l).count 0x3210 2 = (s.count 0x3210 2 + l.length) % 2 ^ 64 := by
  rw [State.resent, State.count_bump_self, State.count, State.resend_tele]
  rfl

/-- A port that replays once more without an advance. -/
def Port.replaying (p : Port) : Port := { p with replays := p.replays + 1 }

section
variable {s : State} {port : Nat} (hne : (s.port port).replay ≠ [])
include hne

theorem State.replayPort_falls (h : 8 ≤ (s.port port).replays) :
    s.replayPort port = (s.portFall port).setPort port (fun p => { p with replays := 0 }) :=
  (if_neg (by simpa using hne)).trans (if_pos h)

theorem State.replayPort_resends (h : (s.port port).replays < 8) :
    s.replayPort port = (s.setPort port Port.replaying).resent port (s.port port).replay :=
  (if_neg (by simpa using hne)).trans (if_neg (by omega))

end

/-- Settles O50: a flit's fields by its header, and sending, reception and replay each by the cases of what is due or has come. -/
theorem flitsKeepOrder : Obligations.FlitsKeepOrder := by
  unfold Obligations.FlitsKeepOrder
  refine ⟨fun f htype hcls hvlane hseq hack hbuf hcount hdest hsrc hmark hlen => ?_, fun s port hup => ⟨?_, ?_, ?_⟩,
    fun s port bytes hup => ⟨?_, ?_, ?_, ?_, ?_⟩, fun s port a hc ha => ⟨exec_nakReceive hc ha, exec_replayTimeout hc⟩,
    fun s port hne hlt => ⟨fun h => ?_, fun h => ?_⟩⟩
  · have fits : f.fits := ⟨htype, hcls, hvlane, hseq, hack, hbuf, hcount, hdest, hsrc, hmark, hlen⟩
    exact ⟨f.bytes_length, Flit.bytes_good fits, Flit.parse_bytes fits⟩
  · exact fun hnak => congrArg Host.Outcome.next (State.transmit_nak hup hnak)
  · exact fun hnak hctl => congrArg Host.Outcome.next (State.transmit_control hup hnak hctl)
  · intro hnak hctl hc
    have free : (s.port port).free := ⟨hnak, hctl, hc⟩
    refine ⟨fun hnone => congrArg Host.Outcome.next (State.transmit_idle free hnone), fun f hf => ?_⟩
    obtain ⟨_, htaken⟩ := State.flitTaken_port (State.port_lt_of_carries hc) f ((s.port port).keeping f)
    obtain ⟨_, hsent⟩ := State.sendFlit_creditStep (s.flitTaken port f ((s.port port).keeping f)) port ((s.port port).keeping f) port
    refine ⟨_, ((s.flitTaken port f ((s.port port).keeping f)).port port).stamped ((s.port port).keeping f),
      congrArg Host.Outcome.next (State.transmit_next free hf), ?_, rfl, ?_, rfl, rfl, rfl, rfl, rfl, ?_⟩
    · rw [State.sendFlit_out, State.flitTaken_out]
    · rw [htaken]
      rfl
    · rw [hsent, htaken]
      exact ⟨rfl, rfl, rfl, s.flitTaken_count port f _⟩
  · exact exec_flitReceive_uncorrected hup bytes
  · exact exec_flitReceive_bad hup bytes
  · intro hgood hs hne
    have hlt := State.flitRead_lt (State.port_lt_of_up hup) (Flit.parse bytes)
    have hread := State.flitRead_port (State.port_lt_of_up hup) (Flit.parse bytes)
    refine ⟨_, exec_flitReceive_good hup bytes hgood, ?_⟩
    rw [State.gotFlit_sequenced hs, if_neg hne, State.port_setPort_self hlt, hread]
    exact ⟨(Port.nakOwed_sent _).2, (Port.nakOwed_sent _).1, rfl⟩
  · intro hgood hs heq
    have hlt := State.flitRead_lt (State.port_lt_of_up hup) (Flit.parse bytes)
    have hread := State.flitRead_port (State.port_lt_of_up hup) (Flit.parse bytes)
    refine ⟨(s.flitRead port (Flit.parse bytes)).setPort port Port.accepted, ?_, ?_⟩
    · rw [exec_flitReceive_good hup bytes hgood, State.gotFlit_sequenced hs, if_pos heq, State.acceptFlit_eq]
      rfl
    · rw [State.port_setPort_self hlt, hread]
      exact ⟨rfl, rfl, rfl⟩
  · intro hgood hkind
    have hlt := State.flitRead_lt (State.port_lt_of_up hup) (Flit.parse bytes)
    have hread := State.flitRead_port (State.port_lt_of_up hup) (Flit.parse bytes)
    refine ⟨_, exec_flitReceive_good hup bytes hgood, ?_⟩
    rcases hkind with h0 | h4
    · rw [State.gotFlit_idle h0, hread]
      exact ⟨rfl, rfl, rfl⟩
    · obtain ⟨hack, hexpect, hreplay⟩ := State.gotControl_order hlt (Flit.parse bytes).payload
      rw [State.gotFlit_control h4, hack, hexpect, hreplay, hread]
      exact ⟨rfl, rfl, rfl⟩
  · rw [State.replayPort_falls hne h]
    have hlt' : port < (s.portFall port).fabric.ports.length := by rwa [(s.portFall_linkStep port).ports_length]
    rw [State.port_setPort_self hlt', State.portFall_port hlt]
    exact ⟨rfl, rfl, rfl, rfl⟩
  · have hport : (s.setPort port Port.replaying).port port = (s.port port).replaying := State.port_setPort_self hlt _
    obtain ⟨_, hsent⟩ := (s.setPort port Port.replaying).resent_creditStep port (s.port port).replay port
    rw [State.replayPort_resends hne h, hsent, hport]
    exact ⟨State.resend_out_length port _ _, rfl, State.resent_count _ port _⟩

end Sys2Proof.Machine
end

section
/-! What a failing collective leaves of the collectives in flight (13 R330, R350), and what packets that are sent leave of them. -/

namespace Sys2Proof.Machine
open Sys2Proof

/-! ### Steps that touch no collective -/

theorem State.memoryStep.coll {s t : State} (h : s.memoryStep t) : t.coll = s.coll := by
  obtain ⟨_, _, _, rfl⟩ := h
  rfl

theorem State.fabricStep.coll {s t : State} (h : s.fabricStep t) : t.coll = s.coll := by
  obtain ⟨_, _, _, _, _, _, rfl⟩ := h
  rfl

theorem State.fabricStep.board {s t : State} (h : s.fabricStep t) : t.board = s.board := by
  obtain ⟨_, _, _, _, _, _, rfl⟩ := h
  rfl

theorem State.writeBytes_coll (s : State) (a : Nat) (bs : Bytes) : (s.writeBytes a bs).coll = s.coll :=
  (s.writeBytes_memoryStep a bs).coll.trans (s.spoil_keeps_coll a bs.length)

theorem State.scramble_coll (s : State) (f : InFlight) : (s.scramble f).coll = s.coll :=
  State.scramble_related (R := fun s t => t.coll = s.coll) (fun _ => rfl) (fun h h' => h'.trans h)
    State.writeBytes_coll State.drew_keeps_coll s f

theorem State.sendPacket_fabricStep (s : State) (cls dest post : Nat) (payload : Bytes) :
    s.fabricStep (s.sendPacket cls dest post payload) :=
  foldl_fabricStep State.routeFlit_fabricStep _ s

theorem State.sendCard_fabricStep (s : State) (g : Group) (k : Card) (post q : Nat) : s.fabricStep (s.sendCard g k post q) :=
  s.sendPacket_fabricStep _ _ _ _

theorem State.relayCard_board (s : State) (k : Card) (post : Nat) : (s.relayCard k post).board = s.board := by
  unfold State.relayCard
  dsimp only
  split
  · rfl
  · rw [State.bump_keeps_board, (s.sendCard_fabricStep _ _ _ _).board]

/-! ### Collectives that end -/

theorem State.coll?_key {s : State} {c idx : Nat} {x : Coll} (h : s.coll? c idx = some x) : x.ctx = c ∧ x.idx = idx := by
  simpa using List.find?_some h

theorem State.coll?_dropColl (s : State) (c idx : Nat) : (s.dropColl c idx).coll? c idx = none :=
  List.find?_eq_none.mpr fun _ hx => by simpa [imp_iff_not_or] using (List.mem_filter.mp hx).2

theorem State.dropColl_dropColl (s : State) (c idx : Nat) : (s.dropColl c idx).dropColl c idx = s.dropColl c idx := by
  simp only [State.dropColl, List.filter_filter, Bool.and_self]

/-- An instruction that fails takes at most its own collective out of flight. -/
theorem State.failInstr_coll (s : State) (c idx code : Nat) :
    (s.failInstr c idx code).coll = s.coll ∨ (s.failInstr c idx code).coll = (s.dropColl c idx).coll := by
  unfold State.failInstr
  split
  · exact .inl rfl
  next f _ =>
    refine .inr ?_
    change ({ (s.scramble f).coll with flight := _ } : Collectives) = _
    rw [State.scramble_coll]
    rfl

/-- A collective that fails leaves flight, and nothing else of the collectives changes. -/
theorem State.failColl_coll (s : State) (c idx code : Nat) : (s.failColl c idx code).coll = (s.dropColl c idx).coll := by
  unfold State.failColl
  dsimp only
  split
  · rfl
  · rcases (s.dropColl c idx).failInstr_coll c idx code with h | h
    · exact h
    · rw [h, State.dropColl_dropColl]

theorem State.coll?_failColl (s : State) (c idx code : Nat) : (s.failColl c idx code).coll? c idx = none := by
  rw [State.coll?, State.failColl_coll]
  exact s.coll?_dropColl c idx

/-- Collectives that fail together leave flight, and nothing else of the collectives changes. -/
theorem State.foldl_failColl_coll (code : Nat) (l : List Coll) (s : State) :
    (l.foldl (fun s x => s.failColl x.ctx x.idx code) s).coll =
      { s.coll with flight := s.coll.flight.filter (fun x => l.all (fun y => x.ctx != y.ctx || x.idx != y.idx)) } := by
  induction l generalizing s with
  | nil => simp
  | cons y l ih =>
    rw [List.foldl_cons, ih, State.failColl_coll]
    simp [State.dropColl, List.filter_filter, Bool.and_comm]

end Sys2Proof.Machine
end

section
/-! Packets of bulk collectives and postcards (13 R330, R335 to R348): a packet by its postmark and kind, a chunk by what its collective
holds, a postcard by its tree. Packets are the model's own (log entry 52), and so are the repeated acknowledgement (96) and the relay of a
postcard ahead of its postmark's check (99). -/

namespace Sys2Proof.Machine
open Sys2Proof

/-! ### Packets of a bulk collective -/

/-- A packet's postmark is known, to the node and to the collective that it came for. -/
def State.heard (s : State) (x : Coll) (k : Chunk) : State :=
  (s.knowMark k.src k.part k.postmark).setColl x.ctx x.idx
    (fun y => { y with marks := kvSet (peerKey k.src k.part) k.postmark y.marks })

section
variable {s : State} {k : Chunk}

theorem State.bulk_early (hx : s.collOf k.group k.ord = none) (hmark : s.peerMark [] k.src k.part k.postmark ≠ 1) (residue : Bool) :
    s.bulk k residue = if k.kind = 0 ∧ kvGet k.group 0 s.coll.orders < k.ord
      then { s with coll := { s.coll with calls := s.coll.calls ++ [k] } } else s := by
  simp [State.bulk, hx, hmark]

theorem State.bulk_early_stale (hx : s.collOf k.group k.ord = none) (hmark : s.peerMark [] k.src k.part k.postmark = 1) (residue : Bool) :
    s.bulk k residue = s.bump 0x3230 6 1 := by
  simp [State.bulk, hx, hmark]

variable {x : Coll} (hx : s.collOf k.group k.ord = some x)
include hx

theorem State.bulk_stale (hmark : s.peerMark x.marks k.src k.part k.postmark = 1) (residue : Bool) :
    s.bulk k residue = s.bump 0x3230 6 1 := by
  simp [State.bulk, hx, hmark]

theorem State.bulk_changed (hmark : s.peerMark x.marks k.src k.part k.postmark = 2) (residue : Bool) :
    s.bulk k residue = s.failColl x.ctx x.idx 0x07B2 := by
  simp [State.bulk, hx, hmark]

variable {y : Coll} {e : Env} {f : InFlight} (hmark : s.peerMark x.marks k.src k.part k.postmark = 0)
  (hy : (s.heard x k).coll? x.ctx x.idx = some y) (he : (s.heard x k).collEnv x.ctx x.idx = some (e, f))
include hmark hy he

theorem State.bulk_call (hkind : k.kind = 0) (residue : Bool) : s.bulk k residue = (s.heard x k).gotCall y k := by
  unfold State.heard at hy he ⊢
  simp [State.bulk, hx, hmark, hy, he, hkind]

theorem State.bulk_chunk (hkind : k.kind = 1) (residue : Bool) : s.bulk k residue = (s.heard x k).gotChunk y e f k residue := by
  unfold State.heard at hy he ⊢
  simp [State.bulk, hx, hmark, hy, he, hkind]

/-- An acknowledged chunk leaves its buffer, the next ones go, and the collective goes on. -/
theorem State.bulk_acknowledged (hkind : k.kind = 2) (residue : Bool) :
    s.bulk k residue = (((s.heard x k).setColl x.ctx x.idx (fun z => { z with
        parcels := z.parcels.filter
          (fun p => !(p.sent && (p.dest == k.src && p.stage == k.stage && p.neg == k.neg && p.number == k.number))) })).pump f x.ctx
        x.idx).runColl x.ctx x.idx e.coll.fuel := by
  obtain ⟨hctx, hidx⟩ := State.coll?_key hy
  unfold State.heard at hy he ⊢
  simp [State.bulk, hx, hmark, hy, he, hkind, hctx, hidx]

end

/-! ### Exchanges and chunks of a collective in flight -/

theorem State.gotCall_disagrees {y : Coll} {k : Chunk} (h : k.sig ≠ y.sig) (s : State) :
    s.gotCall y k = s.failColl y.ctx y.idx 0x07B1 :=
  if_pos (by simpa using h)

theorem State.gotCall_agrees {y : Coll} {k : Chunk} (h : k.sig = y.sig) (s : State) :
    s.gotCall y k = (s.setColl y.ctx y.idx (fun z => { z with met := insertNat k.src z.met })).beginColl y.ctx y.idx :=
  if_neg (by simpa using h)

/-- A collective has had a chunk already: its stage is over, or the chunk is kept. -/
def Coll.hasHad (y : Coll) (k : Chunk) : Prop :=
  k.stage < y.stage ∨ ∃ c ∈ y.inbox, c.stage = k.stage ∧ c.neg = k.neg ∧ c.number = k.number

theorem Coll.hasHad_iff (y : Coll) (k : Chunk) : y.hasHad k ↔
    (decide (k.stage < y.stage) || y.inbox.any (fun c => c.stage == k.stage && c.neg == k.neg && c.number == k.number)) = true := by
  simp [Coll.hasHad, and_assoc]

section
variable {y : Coll} {e : Env} {k : Chunk} {h : Hop} (hh : e.coll.hops[k.stage]? = some h)
include hh

theorem State.gotChunk_again (had : y.hasHad k) (s : State) (f : InFlight) (residue : Bool) :
    s.gotChunk y e f k residue = s.ackChunk f y k := by
  unfold State.gotChunk
  dsimp only
  rw [hh]
  exact if_pos ((y.hasHad_iff k).mp had)

variable (hnew : ¬ y.hasHad k) {residue : Bool}
include hnew

theorem State.gotChunk_good (hcode : y.chunkBad e.coll h k residue = 0) (s : State) (f : InFlight) :
    let kept := s.setColl y.ctx y.idx (fun z => { z with inbox := z.inbox ++ [e.coll.open h k] })
    s.gotChunk y e f k residue =
      if y.begun = true ∧ k.stage = y.stage then (kept.ackChunk f y k).runColl y.ctx y.idx e.coll.fuel else kept := by
  unfold State.gotChunk
  dsimp only
  rw [hh]
  refine (if_neg (mt (y.hasHad_iff k).mpr hnew)).trans ?_
  simp [hcode]

theorem State.gotChunk_bad (hcode : y.chunkBad e.coll h k residue ≠ 0) (s : State) (f : InFlight) :
    s.gotChunk y e f k residue = s.badChunk f y k (y.chunkBad e.coll h k residue) := by
  unfold State.gotChunk
  dsimp only
  rw [hh]
  refine (if_neg (mt (y.hasHad_iff k).mpr hnew)).trans (if_pos ?_)
  simpa using hcode

end

/-! ### A collective without progress -/

theorem exec_collTimeout {s : State} {c idx : Nat} {x : Coll} (hc : c ≠ ctrlCtx) (hx : s.coll? c idx = some x) :
    exec (.collTimeout c idx) s = .next (s.failColl c idx 0x04B0) := by
  refine congrArg Host.Outcome.next ((if_neg (by simpa using hc)).trans ?_)
  rw [hx]

/-- This node's own control collective has failed for want of progress. -/
def State.ctrlStalled (s : State) : State := { s with coll := { s.coll with ctrlState := 3, ctrlCode := 0x04B0 } }

theorem exec_collTimeout_ctrl {s : State} (hrun : s.coll.ctrlState = 1) (idx : Nat) :
    exec (.collTimeout ctrlCtx idx) s =
      .next (s.ctrlStalled.ctrlOver (s.ctrlSig s.node (s.dget 0x2371 3) (s.dget 0x2371 2))) :=
  congrArg Host.Outcome.next ((if_pos (BEq.rfl)).trans (if_pos (by simpa using hrun)))

theorem State.ctrl?_ctrlOver (s : State) (sig : Nat) : (s.ctrlOver sig).ctrl? sig = none := by
  simp [State.ctrl?, State.ctrlOver]

/-! ### Postcards -/

/-- A postcard of another member of its group's axis, at a node with an id, is for this node. -/
theorem exec_postcardReceive {s : State} {gid axis pos sig : Nat} (hnode : s.node ≠ 0xFFFF)
    (hbox : (s.group (sig % 2 ^ 64)).bad = false) (haxis : axis < 3) (hlen : pos < (s.group (sig % 2 ^ 64)).len axis)
    (hpos : (s.group (sig % 2 ^ 64)).pos axis ≠ pos) (hid : (s.group (sig % 2 ^ 64)).id = gid)
    (ord part post : Nat) (payload : Bytes) :
    let k : Card := ⟨gid, ord, axis, pos, part, sig, payload⟩
    exec (.postcardReceive gid ord axis pos ⟨part, post⟩ sig payload) s = .next
      (if isCtrl sig = true then s.takeCtrl k post
      else if s.board.phase = .serving then (s.relayCard k post).takeCard k post
      else s.relayCard k post) := by
  refine congrArg Host.Outcome.next ((if_neg ?_).trans ?_)
  · simp [hnode, hbox, haxis, hlen, hpos, hid, -Nat.reducePow]
  · simp [State.relayCard_board]

/-- A postcard whose POST is still to come here is kept for it. -/
theorem State.takeCard_kept {s : State} {k : Card} {post : Nat} (hpost : s.postOf k.group k.order = none)
    (hord : kvGet k.group 0 s.coll.orders < k.order)
    (hmark : s.peerMark [] ((s.group (k.sig % 2 ^ 64)).nodeAt k.axis k.pos) k.part post = 0) :
    (s.takeCard k post).coll.cards = s.coll.cards ++ [k] := by
  unfold State.takeCard
  dsimp only
  rw [hpost, Option.map_none, Option.getD_none, hmark, if_neg (by decide), if_neg (by decide), if_neg]
  · rfl
  · exact fun h => Nat.not_le.mpr hord (of_decide_eq_true h)

/-- Settles O53: a packet by its postmark and kind, a chunk by what its collective has had and by its check, a limit by whose
collective it is, and a postcard by what it belongs to. -/
theorem collectivesProgress : Obligations.CollectivesProgress := by
  unfold Obligations.CollectivesProgress
  refine ⟨fun s k residue hx => ⟨fun hmark => ?_, fun hmark => ?_⟩,
    fun s k residue x hx => ⟨fun hmark => ?_, fun hmark => ?_, ?_⟩,
    fun s c idx x hc hx => ⟨exec_collTimeout hc hx, s.coll?_failColl c idx 0x04B0⟩,
    fun s idx hrun => ⟨_, exec_collTimeout_ctrl hrun idx, rfl, rfl, rfl, State.ctrl?_ctrlOver _ _⟩, ?_⟩
  · exact congrArg Host.Outcome.next (State.bulk_early_stale hx hmark residue)
  · exact congrArg Host.Outcome.next (State.bulk_early hx hmark residue)
  · exact congrArg Host.Outcome.next (State.bulk_stale hx hmark residue)
  · exact congrArg Host.Outcome.next (State.bulk_changed hx hmark residue)
  · intro hmark y e f hy he
    refine ⟨fun hkind hsig => ?_, fun hkind hsig => ?_, fun hkind h hh => ?_, fun hkind => ?_⟩
    · exact congrArg Host.Outcome.next ((State.bulk_call hx hmark hy he hkind residue).trans (State.gotCall_disagrees hsig _))
    · exact congrArg Host.Outcome.next ((State.bulk_call hx hmark hy he hkind residue).trans (State.gotCall_agrees hsig _))
    · have got := State.bulk_chunk hx hmark hy he hkind residue
      refine ⟨fun had => ?_, fun hnew hcode => ?_, fun hnew hcode hfirst => ?_, fun hnew hcode hsecond => ?_⟩
      · exact congrArg Host.Outcome.next (got.trans (State.gotChunk_again hh had _ f residue))
      · exact congrArg Host.Outcome.next (got.trans (State.gotChunk_good hh hnew hcode _ f))
      · exact congrArg Host.Outcome.next
          ((got.trans (State.gotChunk_bad hh hnew hcode _ f)).trans (if_neg (by rw [hfirst]; exact Bool.false_ne_true)))
      · exact congrArg Host.Outcome.next ((got.trans (State.gotChunk_bad hh hnew hcode _ f)).trans (if_pos hsecond))
    · exact congrArg Host.Outcome.next (State.bulk_acknowledged hx hmark hy he hkind residue)
  · intro s gid ord axis pos part post sig payload g k hnode hbox haxis hlen hpos hid
    have received := exec_postcardReceive hnode hbox haxis hlen hpos hid ord part post payload
    refine ⟨fun hctrl hphase => ?_, fun hctrl hphase => ?_, fun hctrl => ?_,
      fun hpost hord hmark => State.takeCard_kept (k := k) hpost hord hmark⟩
    · simpa [hctrl, hphase] using received
    · simpa [hctrl, hphase] using received
    · simpa [hctrl] using received

end Sys2Proof.Machine
end

section
/-! Control collectives as they complete at this node (13 R346 to R348, log entry 98). -/

namespace Sys2Proof.Machine
open Sys2Proof

/-! ### Broadcast and Snapshot -/

/-- A broadcast's payload and initiator stand where the host reads them, and it is counted. -/
def State.delivered (s : State) (n : Nat) (payload : Bytes) : State :=
  ({ s with coll := { s.coll with ctrlResult := fit 64 payload, ctrlSource := n % 2 ^ 16 } } : State).bump 0x3230 7 1

section
variable {s : State} (hnode : s.node ≠ 0xFFFF)
include hnode

theorem exec_ctrlBroadcast_reset (hphase : s.board.phase ≠ .serving) (n : Nat) (payload : Bytes) :
    exec (.ctrlBroadcast n payload) s = .next ((s.ctrlOver (s.ctrlSig n 1 0)).bump 0x3230 8 1) :=
  congrArg Host.Outcome.next ((if_neg (by simpa using hnode)).trans (if_pos (by simpa using hphase)))

theorem exec_ctrlBroadcast_other (hphase : s.board.phase = .serving) {n : Nat} (hn : n ≠ s.node) (payload : Bytes) :
    exec (.ctrlBroadcast n payload) s = .next ((s.ctrlOver (s.ctrlSig n 1 0)).delivered n payload) :=
  congrArg Host.Outcome.next ((if_neg (by simpa using hnode)).trans ((if_neg (by simp [hphase])).trans (if_neg (by simpa using hn))))

theorem exec_ctrlBroadcast_own (hphase : s.board.phase = .serving) (hrun : s.ctrlRuns 1 = true) (payload : Bytes) :
    exec (.ctrlBroadcast s.node payload) s =
      .next ((s.ctrlOver (s.ctrlSig s.node 1 0)).delivered s.node (leBytes 64 (s.dget 0x2371 1))).ctrlDone :=
  congrArg Host.Outcome.next ((if_neg (by simpa using hnode)).trans ((if_neg (by simp [hphase])).trans
    ((if_pos BEq.rfl).trans (if_pos hrun))))

/-- A Snapshot's joined records stand where the host reads them. -/
theorem exec_ctrlSnapshot {n : Nat} (hrun : n = s.node → s.ctrlRuns 2 = true) (others : Bytes) :
    let sig := s.ctrlSig n 2 0
    let t := (({ s with coll := { s.coll with ctrlResult := s.snapshotOf sig others } } : State).ctrlOver sig).bump 0x3230 7 1
    exec (.ctrlSnapshot n others) s = .next (if n = s.node then t.ctrlDone else t) := by
  refine congrArg Host.Outcome.next ((if_neg ?_).trans ?_)
  · simpa [hnode] using hrun
  · simp

end

/-! ### GroupReset -/

theorem State.ctrlDone_if_coll (p : Prop) [Decidable p] (t : State) :
    (if p then t.ctrlDone else t).coll = { t.coll with ctrlState := if p then 2 else t.coll.ctrlState } := by
  split <;> rfl

theorem kvHas_kvDel_self (k : Nat) (m : KV) : kvHas k (kvDel k m) = false := by
  simp [kvHas, kvDel]

/-- A GroupReset leaves the collectives of other groups and the control collectives' postcards. -/
theorem State.groupReset_clears (s : State) (id : Nat) :
    (∀ x ∈ (s.groupReset id).coll.flight, x.group ≠ id) ∧
    (∀ k ∈ (s.groupReset id).coll.cards, k.group ≠ id ∨ isCtrl k.sig = true) ∧
    (∀ k ∈ (s.groupReset id).coll.calls, k.group ≠ id) ∧ kvHas id (s.groupReset id).coll.orders = false ∧
    (s.groupReset id).coll.ctrlState = s.coll.ctrlState := by
  unfold State.groupReset
  simp only [State.foldl_failColl_coll]
  refine ⟨fun x hx hid => ?_, fun k hk => ?_, fun k hk => ?_, kvHas_kvDel_self id _, trivial⟩
  · obtain ⟨hin, hnone⟩ := List.mem_filter.mp hx
    have hown := List.all_eq_true.mp hnone x (List.mem_filter.mpr ⟨hin, by simpa using hid⟩)
    simp at hown
  · simpa using (List.mem_filter.mp hk).2
  · simpa using (List.mem_filter.mp hk).2

/-- The group whose collectives a GroupReset ends: the initiator's own register names it there. -/
def State.resetGroup (s : State) (n g : Nat) : Nat := if n = s.node then s.dget 0x2371 2 else g

theorem exec_ctrlGroupReset {s : State} (hnode : s.node ≠ 0xFFFF) {n : Nat} (hrun : n = s.node → s.ctrlRuns 3 = true) (g : Nat) :
    let id := s.resetGroup n g
    let t := ((s.ctrlOver (s.ctrlSig n 3 id)).groupReset id).bump 0x3230 7 1
    exec (.ctrlGroupReset n g) s = .next (if n = s.node then t.ctrlDone else t) := by
  refine congrArg Host.Outcome.next ((if_neg ?_).trans ?_)
  · simpa [hnode] using hrun
  · simp [State.resetGroup]

/-- Settles O54: each completion's state, by where the module stands and by whether this node is the initiator. -/
theorem controlCollectivesDeliver : Obligations.ControlCollectivesDeliver := by
  unfold Obligations.ControlCollectivesDeliver
  refine ⟨fun s n payload hnode hphase hn => ⟨fun hother => ?_, ?_⟩, fun s n payload hnode hphase =>
    exec_ctrlBroadcast_reset hnode hphase n payload, fun s n others hnode hrun => ?_, fun s n g hnode hrun => ?_⟩
  · exact ⟨_, exec_ctrlBroadcast_other hnode hphase hother payload, rfl, Nat.mod_eq_of_lt hn, rfl, State.count_bump_self _ _ _ _,
      s.ctrl?_ctrlOver _⟩
  · rintro rfl hrun
    exact ⟨_, exec_ctrlBroadcast_own hnode hphase hrun payload, rfl, Nat.mod_eq_of_lt hn, rfl⟩
  · refine ⟨_, exec_ctrlSnapshot hnode hrun others, ?_⟩
    split
    · exact ⟨rfl, rfl, s.ctrl?_ctrlOver _, rfl⟩
    · exact ⟨rfl, rfl, s.ctrl?_ctrlOver _, rfl⟩
  · refine ⟨_, exec_ctrlGroupReset hnode hrun g, ?_⟩
    obtain ⟨hflight, hcards, hcalls, horders, hstate⟩ :=
      (s.ctrlOver (s.ctrlSig n 3 (s.resetGroup n g))).groupReset_clears (s.resetGroup n g)
    rw [State.ctrlDone_if_coll, State.bump_keeps_coll, hstate]
    exact ⟨hflight, hcards, hcalls, horders, rfl⟩

end Sys2Proof.Machine
end

section
/-! Intake pipes (14 R353, R359, R366, R369, R376): what a pipe does with its sample, how a slot is finished, what is left of the engine's
pipes, jobs and dictionaries, and the install of a dictionary. -/

namespace Sys2Proof.Machine
open Sys2Proof

/-! ### What is left of the intake engine -/

theorem State.noticeStep.intake {s t : State} (h : s.noticeStep t) : t.intake = s.intake := by
  obtain ⟨_, _, _, _, _, rfl⟩ := h
  rfl

theorem State.fabricStep.intake {s t : State} (h : s.fabricStep t) : t.intake = s.intake := by
  obtain ⟨_, _, _, _, _, _, rfl⟩ := h
  rfl

@[simp] theorem State.markChannel_intake (s : State) (n origin cause : Nat) : (s.markChannel n origin cause).intake = s.intake := by
  unfold State.markChannel
  split
  · rfl
  · exact (State.putFence_noticeStep _ _ _ _ _).intake

@[simp] theorem State.badReads_intake (s : State) (n k : Nat) : (s.badReads n k).intake = s.intake := by
  unfold State.badReads
  dsimp only
  split
  · exact State.markChannel_intake _ _ _ _
  · rfl

/-- Uncorrectable units that were read are counted and announced; the intake engine is not touched. -/
@[simp] theorem State.sawPoison_intake (s : State) (us : List Nat) : (s.sawPoison us).intake = s.intake := by
  have counted : (us.foldl (fun s u => if s.mem.window (16 * u) == 1 then s.badReads (s.chanOf (16 * u)) 1 else s)
      (s.bump 0x31C0 4 us.length)).intake = s.intake := by
    refine foldl_related (R := fun s t : State => t.intake = s.intake) (fun _ => rfl) (fun h h' => h'.trans h) (fun s u => ?_) us _
    split
    · exact State.badReads_intake _ _ _
    · rfl
  unfold State.sawPoison
  dsimp only
  split <;> split <;> simp only [(State.raise_noticeStep _ _ _).intake, counted]

/-- The pipes of the intake engine are as they were, and each job has the results it had: a write may only mark slots whose sample bytes it
meets (14 R376). -/
def State.intakeStep (s t : State) : Prop :=
  t.intake.pipes = s.intake.pipes ∧
    ∀ c idx, (t.intkJob c idx).map (fun j => j.results) = (s.intkJob c idx).map (fun j => j.results)

theorem State.intakeStep.trans {s t u : State} (h : s.intakeStep t) (h' : t.intakeStep u) : s.intakeStep u := by
  obtain ⟨hpipes, hresults⟩ := h
  obtain ⟨hpipes', hresults'⟩ := h'
  exact ⟨hpipes'.trans hpipes, fun c idx => (hresults' c idx).trans (hresults c idx)⟩

theorem State.intakeStep.of_intake {s t : State} (h : t.intake = s.intake) : s.intakeStep t := by
  simp only [State.intakeStep, State.intkJob, h, implies_true, and_self]

theorem State.spoil_intakeStep (s : State) (a n : Nat) : s.intakeStep (s.spoil a n) := by
  refine ⟨rfl, fun c idx => ?_⟩
  simp only [State.intkJob, State.spoil, List.find?_map, Option.map_map]
  rfl

theorem State.writeBytes_intakeStep (s : State) (a : Nat) (bs : Bytes) : s.intakeStep (s.writeBytes a bs) :=
  (s.spoil_intakeStep a bs.length).trans (.of_intake (s.writeBytes_memoryStep a bs).intake)

theorem State.writeGlobal_intakeStep (s : State) (c idx part : Nat) (w : Nat × Bytes) : s.intakeStep (s.writeGlobal c idx part w) := by
  rcases s.writeGlobal_cases c idx part w with h | h
  · rw [h]
    exact s.writeBytes_intakeStep _ _
  · exact .of_intake h.intake

theorem State.foldl_writeGlobal_intakeStep (c idx part : Nat) (l : List (Nat × Bytes)) (s : State) :
    s.intakeStep (l.foldl (fun s w => s.writeGlobal c idx part w) s) :=
  foldl_related (R := State.intakeStep) (fun _ => .of_intake rfl) State.intakeStep.trans
    (fun s w => s.writeGlobal_intakeStep c idx part w) l s

/-! ### The job of an instruction -/

/-- An element changed in place keeps its place, where the change keeps what it is found by. -/
theorem find?_modifyWhere {α : Type} {p : α → Bool} {g : α → α} (hg : ∀ a, p (g a) = p a) (l : List α) :
    (modifyWhere p g l).find? p = (l.find? p).map g := by
  have hp : (p ∘ fun a => if p a then g a else a) = p := by
    funext a
    simp only [Function.comp_apply]
    split
    · exact hg a
    · rfl
  rw [modifyWhere, List.find?_map, hp]
  exact Option.map_congr fun a ha => if_pos (List.find?_some ha)

theorem State.intkJob_setIntk (s : State) (c idx : Nat) {g : IntakeJob → IntakeJob} (hg : ∀ j, ((g j).ctx, (g j).idx) = (j.ctx, j.idx)) :
    (s.setIntk c idx g).intkJob c idx = (s.intkJob c idx).map g :=
  find?_modifyWhere (fun j => by rw [(Prod.mk.inj (hg j)).1, (Prod.mk.inj (hg j)).2]) s.intake.jobs

/-! ### A slot that is finished (14 R363, R369, R375) -/

/-- A finished slot, counted as valid, with its tokens or pixels, or as void. -/
def State.slotScored (s : State) (e : Env) (j : IntakeJob) (slot code : Nat) : State :=
  let x := e.sample j.block slot
  if code == 0 then ((s.readRuns (e.sampleReads j.block slot x)).countSlot e j slot x).bump 0x31E0 2 1 else s.bump 0x31E0 3 1

/-- A finished slot that is counted, and so are the uncorrectable units of its sample. -/
def State.slotCounted (s : State) (e : Env) (j : IntakeJob) (slot code : Nat) : State :=
  let x := e.sample j.block slot
  let t := s.slotScored e j slot code
  let bad := t.badLocal (x.addr, x.len)
  if code == 0x06C7 && bad != [] then t.sawPoison bad.eraseDups else t

/-- A finished slot whose bytes stand in memory. -/
def State.slotWritten (s : State) (e : Env) (f : InFlight) (j : IntakeJob) (c idx slot code : Nat) : State :=
  let t := s.slotCounted e j slot code
  (t.slotResults e j slot code (e.sample j.block slot)).foldl (fun s w => s.writeGlobal c idx f.partition w) t

/-- A job with a slot's code among its results. -/
def IntakeJob.score (slot code : Nat) (j : IntakeJob) : IntakeJob := { j with results := kvSet slot code j.results }

/-- A finished slot whose pipe is free, and whose code stands among its job's results. -/
def State.slotFinished (s : State) (pipe : Nat) (e : Env) (f : InFlight) (j : IntakeJob) (c idx slot code : Nat) : State :=
  (((s.slotWritten e f j c idx slot code).dropReqs (fun r => r.ctx == c && r.idx == idx && r.kind == .read && r.seq == slot + 1)).setIntkPipe
    pipe (fun p => { p with job := none })).setIntk c idx (IntakeJob.score slot code)

theorem State.slotDone_eq {s : State} {c idx : Nat} {j : IntakeJob} {e : Env} {f : InFlight} (hj : s.intkJob c idx = some j)
    (he : s.intkEnv c idx = some (e, f)) (pipe slot code : Nat) :
    s.slotDone pipe c idx slot code = (s.slotFinished pipe e f j c idx slot code).intkEnd c idx := by
  unfold State.slotDone
  rw [hj, he]
  rfl

theorem State.countSlot_intake (s : State) (e : Env) (j : IntakeJob) (slot : Nat) (x : Sample) :
    (s.countSlot e j slot x).intake = s.intake := by
  unfold State.countSlot
  dsimp only
  split <;> rfl

theorem State.slotScored_intake (s : State) (e : Env) (j : IntakeJob) (slot code : Nat) :
    (s.slotScored e j slot code).intake = s.intake := by
  unfold State.slotScored
  dsimp only
  split
  · rw [State.bump_keeps_intake, State.countSlot_intake, (s.readRuns_memoryStep _).intake]
  · rfl

theorem State.slotCounted_intake (s : State) (e : Env) (j : IntakeJob) (slot code : Nat) :
    (s.slotCounted e j slot code).intake = s.intake := by
  unfold State.slotCounted
  dsimp only
  split
  · rw [State.sawPoison_intake, State.slotScored_intake]
  · exact s.slotScored_intake e j slot code

theorem State.slotWritten_intakeStep (s : State) (e : Env) (f : InFlight) (j : IntakeJob) (c idx slot code : Nat) :
    s.intakeStep (s.slotWritten e f j c idx slot code) :=
  .trans (.of_intake (s.slotCounted_intake e j slot code)) (State.foldl_writeGlobal_intakeStep _ _ _ _ _)

theorem State.slotFinished_pipes (s : State) (pipe : Nat) (e : Env) (f : InFlight) (j : IntakeJob) (c idx slot code : Nat) :
    (s.slotFinished pipe e f j c idx slot code).intake.pipes = modifyAt (fun p => { p with job := none }) pipe s.intake.pipes :=
  congrArg (modifyAt _ pipe) (s.slotWritten_intakeStep e f j c idx slot code).1

theorem State.slotFinished_results {s : State} {c idx : Nat} {j : IntakeJob} (hj : s.intkJob c idx = some j) (pipe : Nat) (e : Env)
    (f : InFlight) (slot code : Nat) :
    ((s.slotFinished pipe e f j c idx slot code).intkJob c idx).map (fun y => y.results) = some (kvSet slot code j.results) := by
  have kept : ((s.slotWritten e f j c idx slot code).intkJob c idx).map (fun y => y.results) = some j.results := by
    rw [(s.slotWritten_intakeStep e f j c idx slot code).2, hj]
    rfl
  unfold State.slotFinished
  rw [State.intkJob_setIntk _ c idx (g := IntakeJob.score slot code) fun _ => rfl, Option.map_map]
  calc
    _ = (((s.slotWritten e f j c idx slot code).intkJob c idx).map (fun y => y.results)).map (kvSet slot code) := (Option.map_map ..).symm
    _ = some (kvSet slot code j.results) := by rw [kept]; rfl

/-! ### A sample that has been judged (14 R366, R376) -/

/-- The dictionary of a judged text was sought in its slot's place, which cannot be read. -/
def State.dictUnread (s : State) (j : IntakeJob) (code : Nat) : Prop :=
  intkKind j.block = 0 ∧ (code = 0 ∨ code = 0x06C4) ∧
    s.mem.poisonIn (s.dictPlace (intkSlot j.block)).1 (s.dictPlace (intkSlot j.block)).2 ≠ []

theorem State.slotJudged_read {s : State} {j : IntakeJob} {code : Nat} (h : ¬ s.dictUnread j code) (pipe slot : Nat) :
    s.slotJudged pipe j slot code = s.slotDone pipe j.ctx j.idx slot code :=
  if_neg (by simpa [State.dictUnread] using h)

theorem State.slotJudged_unread {s : State} {j : IntakeJob} {code : Nat} (h : s.dictUnread j code) (pipe slot : Nat) :
    s.slotJudged pipe j slot code = s.dictLost j :=
  if_pos (by simpa [State.dictUnread, and_assoc] using h)

/-- The engine without a text job whose dictionary cannot be read: the dictionary's slot is empty, and no pipe has a sample of the job. -/
def State.dictEmptied (s : State) (j : IntakeJob) : State :=
  let k := intkSlot j.block
  let t := s.sawPoison (s.mem.poisonIn (s.dictPlace k).1 (s.dictPlace k).2)
  let u : State := { t with intake := { t.intake with
    dicts := modifyAt (fun _ => DictSlot.empty) k t.intake.dicts
    pipes := t.intake.pipes.map (fun p => if p.job.any (fun w => w.1 == j.ctx && w.2.1 == j.idx) then { p with job := none } else p) } }
  u.dropIntk j.ctx j.idx

theorem State.dictLost_eq (s : State) (j : IntakeJob) : s.dictLost j = (s.dictEmptied j).failInstr j.ctx j.idx 0x03C0 := rfl

theorem State.dictEmptied_dicts (s : State) (j : IntakeJob) :
    (s.dictEmptied j).intake.dicts = modifyAt (fun _ => DictSlot.empty) (intkSlot j.block) s.intake.dicts :=
  congrArg (fun i : Intake => modifyAt (fun _ => DictSlot.empty) (intkSlot j.block) i.dicts) (s.sawPoison_intake _)

theorem State.slotJudged_empties {s : State} {j : IntakeJob} {code : Nat} (h : s.dictUnread j code) (pipe slot : Nat) :
    ∃ v : State, s.slotJudged pipe j slot code = v.failInstr j.ctx j.idx 0x03C0 ∧ v.intkJob j.ctx j.idx = none ∧
      v.intake.dicts = modifyAt (fun _ => DictSlot.empty) (intkSlot j.block) s.intake.dicts :=
  ⟨s.dictEmptied j, (State.slotJudged_unread h pipe slot).trans (s.dictLost_eq j), State.dropIntk_intkJob _ _ _, s.dictEmptied_dicts j⟩

/-! ### A pipe takes a sample (14 R353, R366) -/

/-- A pipe has taken a slot's sample: its row of the table is read, its job goes on, and it is counted. -/
def State.sampleTaken (s : State) (pipe : Nat) (j : IntakeJob) (e : Env) (slot : Nat) : State :=
  (((s.readRuns [((e.intkTableRun j.block).1 + 32 * slot, 32)]).setIntk j.ctx j.idx IntakeJob.advance).bump 0x31E0 1 1).setIntkPipe
    pipe (fun p => { p with job := some (j.ctx, j.idx, slot) })

section
variable {s : State} {pipe slot : Nat} {p : Pipe} {j : IntakeJob} {e : Env} {f : InFlight} (hpipe : s.intake.pipes[pipe]? = some p)
  (hfenced : p.fenced = false) (hidle : p.job = none) (hphase : s.board.phase = .serving) (hnext : s.intkNext pipe = some j)
  (hslot : j.slot = some slot) (henv : s.intkEnv j.ctx j.idx = some (e, f))
  (hrow : s.mem.poisonIn ((e.intkTableRun j.block).1 + 32 * slot) 32 = [])
include hpipe hfenced hidle hphase hnext hslot henv hrow

/-- A sample that a check of its row or its geometry fails is void. -/
theorem State.takeSample_checked (hcode : e.sampleCheck j.block (e.sample j.block slot) ≠ 0) :
    s.takeSample pipe =
      (s.sampleTaken pipe j e slot).slotDone pipe j.ctx j.idx slot (e.sampleCheck j.block (e.sample j.block slot)) := by
  simp only [State.takeSample, hpipe, hfenced, hidle, hphase, hnext, hslot, henv, hrow, Option.isSome_none, Bool.or_self,
    bne_self_eq_false, Bool.false_eq_true, if_false, bne_iff_ne, ne_eq, hcode, not_false_eq_true, if_true]
  rfl

/-- A sample that passes those checks and stands on this module is judged by its bytes. -/
theorem State.takeSample_here (hcode : e.sampleCheck j.block (e.sample j.block slot) = 0)
    (hhere : s.gHere ((e.sample j.block slot).addr % 2 ^ 64) = true) :
    s.takeSample pipe =
      if e.sampleJudge j.block j.dict slot (e.sample j.block slot) = 0 then s.sampleTaken pipe j e slot
      else (s.sampleTaken pipe j e slot).slotJudged pipe j slot (e.sampleJudge j.block j.dict slot (e.sample j.block slot)) := by
  simp only [State.takeSample, hpipe, hfenced, hidle, hphase, hnext, hslot, henv, hrow, hcode, hhere, Option.isSome_none, Bool.or_self,
    bne_self_eq_false, Bool.not_true, Bool.false_eq_true, if_false, bne_iff_ne, ne_eq, ite_not]
  rfl
end

/-! ### A pipe ends a sample (14 R363, R366, R367) -/

section
variable {s : State} {pipe c idx slot : Nat} {j : IntakeJob} {e : Env} {f : InFlight}
  (hwork : (s.intake.pipes.getD pipe (Pipe.init pipe)).job = some (c, idx, slot))
include hwork

theorem exec_sampleComplete (hj : s.intkJob c idx = some j) (he : s.intkEnv c idx = some (e, f)) (hhere : s.sampleHere c idx slot = true) :
    exec (.sampleComplete pipe) s =
      .next ((s.slotJudged pipe j slot (e.sampleJudge j.block j.dict slot (e.sample j.block slot))).takeSample pipe) := by
  show execSampleComplete pipe s = _
  simp only [execSampleComplete, hwork, hhere, hj, he, Bool.not_true, Bool.false_eq_true, if_false]

theorem exec_sampleBudgetExpiry :
    exec (.sampleBudgetExpiry pipe) s = .next (((s.bump 0x31E0 4 1).slotDone pipe c idx slot 0x06C6).takeSample pipe) := by
  show execSampleBudgetExpiry pipe s = _
  simp only [execSampleBudgetExpiry, hwork]
end

/-! ### The install of a dictionary (14 R359) -/

/-- A run has no uncorrectable unit once its units are taken from those of memory. -/
theorem MemSys.poisonIn_cleared (m : MemSys) (a n : Nat) :
    ({ m with poison := m.poison.filter (fun u => !(m.poisonIn a n).contains u) } : MemSys).poisonIn a n = [] := by
  by_cases hn : n = 0
  · simp [MemSys.poisonIn, hn]
  · simp only [MemSys.poisonIn, beq_iff_eq, hn, if_false, List.filter_filter, List.filter_eq_nil_iff]
    intro u hu
    simp +contextual [hu]

/-- The dictionary of an install stands in its slot, written anew. -/
def State.dictInstalled (s : State) (k : Nat) (d : DictSlot) : State :=
  { s with
    mem := { s.mem with
      poison := s.mem.poison.filter (fun u => !(s.mem.poisonIn (s.dictPlace k).1 (s.dictPlace k).2).contains u) }
    intake := { s.intake with dicts := modifyAt (fun _ => d) k s.intake.dicts } }

/-- The oldest install into a slot has taken effect, and its instruction ends. -/
def State.dictReplaced (s : State) (k : Nat) (j : IntakeJob) (e : Env) : State :=
  (((s.dictInstalled k (e.dictOf (e.obj (intkAux j.block)) (intkWord j.block))).dropIntk j.ctx j.idx).setFlight j.ctx j.idx
    (fun f => f.end_ 0)).bump 0x31E0 7 1

theorem exec_dictReplace {s : State} {k : Nat} {j : IntakeJob} {e : Env} {f : InFlight}
    (hidle : ∀ y ∈ s.intake.jobs, intkSlot y.block = k → intkKind y.block ≠ 0)
    (hfirst : (s.intake.jobs.filter (fun j => intkSlot j.block == k)).find? (fun j => intkKind j.block == 2 &&
      (s.flight? j.ctx j.idx).any (fun f => !f.stopped)) = some j)
    (he : s.intkEnv j.ctx j.idx = some (e, f)) : exec (.dictReplace k) s = .next (s.dictReplaced k j e) := by
  have unused : (s.intake.jobs.filter (fun j => intkSlot j.block == k)).any (fun j => intkKind j.block == 0) = false := by
    simpa using hidle
  show execDictReplace k s = _
  simp only [execDictReplace, unused, hfirst, he, Bool.false_eq_true, if_false]
  rfl

theorem State.dictReplaced_poisonIn (s : State) (k : Nat) (j : IntakeJob) (e : Env) :
    (s.dictReplaced k j e).mem.poisonIn (s.dictPlace k).1 (s.dictPlace k).2 = [] :=
  s.mem.poisonIn_cleared _ _

theorem State.dictReplaced_flight? {s : State} {j : IntakeJob} {e : Env} {f : InFlight} (he : s.intkEnv j.ctx j.idx = some (e, f))
    (k : Nat) : (s.dictReplaced k j e).flight? j.ctx j.idx = some (f.end_ 0) := by
  have found : ((s.dictInstalled k (e.dictOf (e.obj (intkAux j.block)) (intkWord j.block))).dropIntk j.ctx j.idx).flight? j.ctx j.idx =
      some f := State.flight?_of_intkEnv (s := s) he
  show (State.setFlight _ _ _ _).flight? j.ctx j.idx = _
  rw [State.flight?_setFlight _ _ _ (g := fun f => f.end_ 0) fun _ hc hi => ⟨hc, hi⟩, found]
  rfl

theorem State.dictReplaced_count (s : State) (k : Nat) (j : IntakeJob) (e : Env) :
    (s.dictReplaced k j e).count 0x31E0 7 = (s.count 0x31E0 7 + 1) % 2 ^ 64 :=
  State.count_bump_self _ _ _ _

end Sys2Proof.Machine
end

section
/-! Codec pipes (15 R385, R386, R397, R400 to R402): the frame that a pipe takes, and how its stream goes on as the frame ends. -/

namespace Sys2Proof.Machine
open Sys2Proof

/-! ### A pipe takes a frame (15 R385, R386, R401, R402) -/

/-- A pipe has taken the next frame of a job into slot `k` of its stream; a switch to another stream is counted, not the first frame of a
pipe (log entry 104). -/
def State.frameTaken (s : State) (pipe : Nat) (p : Pipe) (j : CodecJob) (x : Codec) (k : Nat) : State :=
  ((if p.lastStream == x.id || p.lastStream == 0xFFFF then s else s.bump 0x31F0 8 1).setCdcPipe pipe
    (fun p => { p with job := some (j.ctx, j.idx, j.framesDone), lastStream := x.id })).setStream x.id
    (fun x => { x with current := some k })

section
variable {s : State} {pipe : Nat} {p : Pipe} {j : CodecJob} {x : Codec} (hpipe : s.codec.pipes[pipe]? = some p)
  (hfenced : p.fenced = false) (hidle : p.job = none) (hphase : s.board.phase = .serving) (hnext : s.cdcNext pipe = some j)
  (hstream : s.stream? (cdcStream j.block) = some x)
include hpipe hfenced hidle hphase hnext hstream

theorem State.takeFrame_unread (hbad : s.streamBad x.id ≠ []) :
    s.takeFrame pipe = (s.sawPoison (s.streamBad x.id)).failCdc j 0x03D0 := by
  simp only [State.takeFrame, hpipe, hfenced, hidle, hphase, hnext, hstream, Option.isSome_none, Bool.or_self, bne_self_eq_false,
    Bool.false_eq_true, if_false, bne_iff_ne, ne_eq, hbad, not_false_eq_true, if_true]

theorem State.takeFrame_full (hbad : s.streamBad x.id = []) (hfull : x.freeSlot = none) : s.takeFrame pipe = s.failCdc j 0x06D4 := by
  simp only [State.takeFrame, hpipe, hfenced, hidle, hphase, hnext, hstream, hbad, hfull, Option.isSome_none, Bool.or_self,
    bne_self_eq_false, Bool.false_eq_true, if_false]

theorem State.takeFrame_free (hbad : s.streamBad x.id = []) {k : Nat} (hfree : x.freeSlot = some k) :
    s.takeFrame pipe = s.frameTaken pipe p j x k := by
  simp only [State.takeFrame, hpipe, hfenced, hidle, hphase, hnext, hstream, hbad, hfree, Option.isSome_none, Bool.or_self,
    bne_self_eq_false, Bool.false_eq_true, if_false]
  rfl
end

theorem State.frameTaken_pipes (s : State) (pipe : Nat) (p : Pipe) (j : CodecJob) (x : Codec) (k : Nat) :
    (s.frameTaken pipe p j x k).codec.pipes =
      modifyAt (fun p => { p with job := some (j.ctx, j.idx, j.framesDone), lastStream := x.id }) pipe s.codec.pipes := by
  unfold State.frameTaken
  split <;> rfl

theorem State.frameTaken_streams (s : State) (pipe : Nat) (p : Pipe) (j : CodecJob) (x : Codec) (k : Nat) :
    (s.frameTaken pipe p j x k).codec.streams =
      modifyWhere (fun y => y.id == x.id) (fun y => { y with current := some k }) s.codec.streams := by
  unfold State.frameTaken
  split <;> rfl

theorem State.frameTaken_count (s : State) (pipe : Nat) (p : Pipe) (j : CodecJob) (x : Codec) (k : Nat) :
    (s.frameTaken pipe p j x k).count 0x31F0 8 =
      if p.lastStream = x.id ∨ p.lastStream = 0xFFFF then s.count 0x31F0 8 else (s.count 0x31F0 8 + 1) % 2 ^ 64 := by
  have same : (s.frameTaken pipe p j x k).count 0x31F0 8 =
      (if p.lastStream == x.id || p.lastStream == 0xFFFF then s else s.bump 0x31F0 8 1).count 0x31F0 8 := rfl
  rw [same]
  simp only [Bool.or_eq_true, beq_iff_eq]
  split
  · rfl
  · exact State.count_bump_self _ _ _ _

/-! ### A frame ends (15 R397, R400, R401) -/

section
variable {s : State} {pipe c idx n : Nat} {j : CodecJob} {e : Env} {f : InFlight} {x : Codec}
  (hwork : (s.codec.pipes.getD pipe (Pipe.init pipe)).job = some (c, idx, n)) (hj : s.cdcJob c idx = some j)
  (he : s.cdcEnv c idx = some (e, f)) (hstream : s.stream? (cdcStream j.block) = some x)
include hwork hj he hstream

/-- An encode goes on as its frame ends; it has no budget. -/
theorem State.frameDone_encode (hkind : cdcKind j.block = 2) (late : Bool) :
    s.frameDone pipe late = if late then s else
      ((s.setCdcPipe pipe (fun p => { p with job := none })).encodeNext x j e f.partition).encodeOn c idx := by
  simp only [State.frameDone, hwork, hj, he, hstream, hkind, beq_self_eq_true, if_true]

/-- A decode goes on as its frame ends, or passes its budget, which is counted. -/
theorem State.frameDone_decode (hkind : cdcKind j.block ≠ 2) (late : Bool) :
    s.frameDone pipe late =
      State.decodeOn (State.decodeNext (if late then (s.setCdcPipe pipe (fun p => { p with job := none })).bump 0x31F0 5 1
        else s.setCdcPipe pipe (fun p => { p with job := none })) x j e late) c idx
        ((e.desc (cdcBit j.block)).dim 0 + x.held.length + 3) := by
  simp only [State.frameDone, hwork, hj, he, hstream, beq_iff_eq, hkind, if_false]
end

/-- Settles O55: a sample by the checks that it meets, a finished slot by what its writes leave of the engine, an install by the state that
it leaves, and a frame by its stream's slots and its job's kind. -/
theorem pipesWorkOnSamplesAndFrames : Obligations.PipesWorkOnSamplesAndFrames := by
  unfold Obligations.PipesWorkOnSamplesAndFrames
  refine ⟨⟨?samples, ?slots, ?installs⟩, ?frames, ?ends⟩
  case samples =>
    intro s pipe slot p j e f hpipe hfenced hidle hphase hnext hslot henv hrow x u
    refine ⟨?_, fun hcheck hhere => ?_⟩
    · rintro code rfl hcode
      exact congrArg Host.Outcome.next (State.takeSample_checked hpipe hfenced hidle hphase hnext hslot henv hrow hcode)
    · have taken := State.takeSample_here hpipe hfenced hidle hphase hnext hslot henv hrow hcheck hhere
      refine ⟨fun hjudge => congrArg Host.Outcome.next (taken.trans (if_pos hjudge)), ?_⟩
      rintro code rfl hcode
      exact congrArg Host.Outcome.next (taken.trans (if_neg hcode))
  case slots =>
    intro s pipe c idx slot j e f hwork hj he
    refine ⟨exec_sampleComplete hwork hj he, exec_sampleBudgetExpiry hwork, fun code => ⟨?_, fun hread => ?_, fun hseen => ?_⟩⟩
    · exact ⟨_, State.slotDone_eq hj he pipe slot code, s.slotFinished_pipes pipe e f j c idx slot code,
        State.slotFinished_results hj pipe e f slot code⟩
    · exact State.slotJudged_read hread pipe slot
    · exact State.slotJudged_empties hseen pipe slot
  case installs =>
    intro s k j e f hidle hfirst he
    refine ⟨s.dictReplaced k j e, exec_dictReplace hidle hfirst he, rfl, s.dictReplaced_poisonIn k j e, ?_, s.dictReplaced_count k j e⟩
    rw [State.dictReplaced_flight? he]
    rfl
  case frames =>
    intro s pipe k p j x hpipe hfenced hidle hphase hnext hstream
    refine ⟨fun hbad => ?_, fun hbad hfull => ?_, fun hbad hfree => ⟨s.frameTaken pipe p j x k, ?_, ?_⟩⟩
    · exact congrArg Host.Outcome.next (State.takeFrame_unread hpipe hfenced hidle hphase hnext hstream hbad)
    · exact congrArg Host.Outcome.next (State.takeFrame_full hpipe hfenced hidle hphase hnext hstream hbad hfull)
    · exact congrArg Host.Outcome.next (State.takeFrame_free hpipe hfenced hidle hphase hnext hstream hbad hfree)
    · exact ⟨s.frameTaken_pipes pipe p j x k, s.frameTaken_streams pipe p j x k, s.frameTaken_count pipe p j x k⟩
  case ends =>
    intro s pipe c idx n j e f x hwork hj he hstream t due
    refine ⟨fun hkind => ?_, fun hkind => ?_⟩
    · have done := State.frameDone_encode hwork hj he hstream hkind
      exact ⟨congrArg Host.Outcome.next (done false), congrArg Host.Outcome.next (done true)⟩
    · have done := State.frameDone_decode hwork hj he hstream hkind
      exact ⟨congrArg Host.Outcome.next (done false), congrArg Host.Outcome.next (done true)⟩

end Sys2Proof.Machine
end

section
/-! The codec rows (15 R383, R384, R386, R389, R392, R397): how an open makes its stream, how a job of the codec complex starts, and how it
ends. -/

namespace Sys2Proof.Machine
open Sys2Proof

/-! ### What a start leaves of the codec complex -/

theorem State.memoryStep.codec {s t : State} (h : s.memoryStep t) : t.codec = s.codec := by
  obtain ⟨_, _, _, rfl⟩ := h
  rfl

/-- Reading changes no stream. -/
theorem State.memoryStep.stream? {s t : State} (h : s.memoryStep t) (i : Nat) : t.stream? i = s.stream? i := by
  simp only [State.stream?, h.codec]

/-! ### An open (15 R383, R384, R389) -/

/-- An open whose parameters can be read makes its stream, of the direction that the Kind says. -/
theorem startOpen_slotSeen {s : State} (hn : s.noneMarked) (m : Macro) (x : Ctx) (idx : Nat) :
    startOpen (s.slotSeen m x idx) (s.slotEnv x idx) (s.slotFlight m x idx) =
      s.streamOpened m x idx (cdcKind (s.slotEnv x idx).cdcBlock == 0) := by
  have served : (s.slotSeen m x idx).unservedRuns (cdcIns (s.slotEnv x idx)) = false :=
    State.unservedRuns_of_any_marked (State.any_marked_of_noneMarked (State.slotSeen_noneMarked hn m x idx)) _
  simp only [startOpen, served, Bool.false_eq_true, if_false]
  rfl

/-- A row of CODEC, once accepted, does its start. -/
theorem State.startMacro_codec {s : State} {mine : Nat → Bool} {c idx : Nat} {x : Ctx} (hx : s.ctx? c = some x) (hc : x.number = c)
    (ha : s.accepts (cdcMacro mine) x idx = true) :
    s.startMacro (cdcMacro mine) c idx =
      startCodec (s.slotSeen (cdcMacro mine) x idx) (s.slotEnv x idx) (s.slotFlight (cdcMacro mine) x idx) :=
  State.startMacro_own hx hc ha rfl rfl

theorem State.startMacro_codec_open {s : State} {mine : Nat → Bool} {c idx : Nat} {x : Ctx} (hx : s.ctx? c = some x) (hc : x.number = c)
    (hn : s.noneMarked) (ha : s.accepts (cdcMacro mine) x idx = true) (hk : cdcKind (s.slotEnv x idx).cdcBlock < 2) :
    s.startMacro (cdcMacro mine) c idx =
      s.streamOpened (cdcMacro mine) x idx (cdcKind (s.slotEnv x idx).cdcBlock == 0) := by
  rw [State.startMacro_codec hx hc ha, startCodec, if_pos hk, startOpen_slotSeen hn]

/-- The Kind of an accepted instruction is its row's. -/
theorem State.accepts_cdcKind {s : State} {k : Nat} {x : Ctx} {idx : Nat} (ha : s.accepts (cdcMacro (fun n => n == k)) x idx = true) :
    cdcKind (s.slotEnv x idx).cdcBlock = k := by
  simpa [cdcMacro] using State.accepts_mine ha

/-! ### A job starts (15 R386, R393, R397) -/

/-- An instruction with no history and every run near does its work as it starts. -/
theorem State.launchTo_of_near {s : State} {o : Op} {e : Env} {f : InFlight} (go : State → InFlight → State) (hi : o.idle e = false)
    (hh : e.history = none) (he : e.hist = []) (hf : f.hist = [] ∧ f.histWait = []) (hguide : ∀ r ∈ o.guide e, s.near r = true)
    (hfetch : ∀ r ∈ o.fetch e, s.near r = true) (houts : ∀ r ∈ o.outs e, s.near r = true) :
    s.launchTo o e f go = go (s.addFlight f) f := by
  have same_env : ({ e with hist := [] } : Env) = e := by rw [← he]
  have same_entry : ({ f with hist := [], histWait := [] } : InFlight) = f := by
    obtain ⟨h1, h2⟩ := hf
    rw [← h1, ← h2]
  have plan : s.histPlan e = ([], []) := by simp only [State.histPlan, hh]
  have paths : s.startPaths e f [] = s := by simp only [State.startPaths, hh]
  have needs := State.needs_of_near f hguide hfetch
  have node := State.noNode_of_near hguide hfetch houts
  simp only [State.launchTo, hi, hh, plan, Option.map_none, Option.getD_none, same_entry, same_env, node, paths, needs, List.any_nil,
    Bool.false_eq_true, if_false, beq_self_eq_true, Bool.and_self, if_true]

/-- The job that a CODEC instruction becomes: nothing of it is done. -/
def Env.codecJob (e : Env) (f : InFlight) : CodecJob := ⟨f.ctx, f.idx, e.cdcBlock, 0, 0, 0, 0, 0, []⟩

/-- A CODEC instruction in flight has become a job of the codec complex, its operands read. -/
def State.codecListed (s : State) (e : Env) (f : InFlight) : State :=
  (({ s with codec := { s.codec with jobs := s.codec.jobs ++ [e.codecJob f] } } : State).setFlight f.ctx f.idx
    (fun f => { f with phase := .running })).readRuns (cdcIns e)

theorem State.codecListed_stream? (s : State) (e : Env) (f : InFlight) (i : Nat) : (s.codecListed e f).stream? i = s.stream? i :=
  (State.readRuns_memoryStep _ (cdcIns e)).stream? i

/-- Where nothing keeps a job of an open stream, it goes on by its Kind: an encode waits for its pipes, an encoder's close codes what is
held, and a decode or a decoder's close outputs what is due. -/
theorem State.goCodec_of_ready {s : State} {e : Env} {f : InFlight} {y : Codec} (hlocal : (cdcIns e).flatMap s.badLocal = [])
    (hremote : (cdcIns e).any (s.badRemote (s.arrived f.ctx f.idx)) = false) (hmark : s.mem.chans.any (fun c => c.marked) = false)
    (hplace : s.streamBad (cdcStream e.cdcBlock) = []) (hy : s.stream? (cdcStream e.cdcBlock) = some y) :
    s.goCodec e f =
      if cdcKind e.cdcBlock = 2 then s.codecListed e f
      else if cdcKind e.cdcBlock = 4 ∧ y.encoder = true then (s.codecListed e f).closeEncoder y (e.codecJob f) e f.partition
      else State.decodeOn (if cdcKind e.cdcBlock = 4 then
          (s.codecListed e f).setStream (cdcStream e.cdcBlock) (fun z => { z with due := z.held.length })
        else s.codecListed e f) f.ctx f.idx ((e.desc (cdcBit e.cdcBlock)).dim 0 + y.held.length + 2) := by
  have stream := (s.codecListed_stream? e f (cdcStream e.cdcBlock)).trans hy
  have readable : ((cdcIns e).flatMap s.badLocal != [] || (cdcIns e).any (s.badRemote (s.arrived f.ctx f.idx))) = false := by
    rw [hlocal, hremote]
    rfl
  have served := State.unservedRuns_of_any_marked hmark (cdcIns e ++ cdcOuts e)
  unfold State.goCodec
  refine (if_neg (ne_true_of_eq_false readable)).trans ((if_neg (ne_true_of_eq_false served)).trans
    ((if_neg (ne_true_of_eq_false ?_)).trans ?_))
  · exact (bne_eq_false_iff_eq (a := s.streamBad (cdcStream e.cdcBlock)) (b := [])).mpr hplace
  · simp only [State.codecListed, Env.codecJob] at stream ⊢
    simp only [stream, beq_iff_eq, Bool.and_eq_true]

/-- CODEC reads no history. -/
theorem State.accepts_codec_history {s : State} {mine : Nat → Bool} {x : Ctx} {idx : Nat} (ha : s.accepts (cdcMacro mine) x idx = true) :
    (s.slotEnv x idx).history = none := by
  have hop : (s.slotEnv x idx).opcode = 0x1A := State.accepts_opcode ha
  exact Env.history_of_opcode (by rw [hop]; decide) (by rw [hop]; decide)

/-- The operands of a CODEC job that is ready are near as its slot has been read. -/
theorem State.slotSeen_codec_near {s : State} {mine : Nat → Bool} {x : Ctx} {idx : Nat} (ha : s.accepts (cdcMacro mine) x idx = true)
    (hh : s.allHere (cdcMacro mine) x idx = true) :
    (∀ r ∈ cdcIns (s.slotEnv x idx), (s.slotSeen (cdcMacro mine) x idx).near r = true) ∧
      ∀ r ∈ cdcOuts (s.slotEnv x idx), (s.slotSeen (cdcMacro mine) x idx).near r = true := by
  obtain ⟨⟨-, hfetch, houts⟩, -⟩ := (s.allHere_iff (cdcMacro mine) x idx).mp hh
  have henv : s.startEnv (cdcMacro mine) x idx = s.slotEnv x idx := by
    simp only [State.startEnv, State.accepts_codec_history ha, Option.map_none, Option.getD_none]
    rfl
  rw [henv] at hfetch houts
  simp only [State.near_congr (s.slotSeen_fabric (cdcMacro mine) x idx)]
  exact ⟨hfetch, houts⟩

/-- A job of an open stream that is accepted and ready starts, and goes on by its Kind. -/
theorem State.startMacro_codec_job {s : State} {mine : Nat → Bool} {c idx : Nat} {x : Ctx} {y : Codec} (hx : s.ctx? c = some x)
    (hc : x.number = c) (ha : s.accepts (cdcMacro mine) x idx = true) (hr : s.codecReady (cdcMacro mine) x idx)
    (hk : 2 ≤ cdcKind (s.slotEnv x idx).cdcBlock) (hy : s.stream? (cdcStream (s.slotEnv x idx).cdcBlock) = some y) :
    let e := s.slotEnv x idx
    let b := e.cdcBlock
    let t := s.codecStarted (cdcMacro mine) x idx
    s.startMacro (cdcMacro mine) c idx =
      if cdcKind b = 2 then t
      else if cdcKind b = 4 ∧ y.encoder = true then t.closeEncoder y ⟨c, idx, b, 0, 0, 0, 0, 0, []⟩ e x.partition
      else State.decodeOn (if cdcKind b = 4 then t.setStream (cdcStream b) (fun z => { z with due := z.held.length }) else t) c idx
        ((e.desc (cdcBit b)).dim 0 + y.held.length + 2) := by
  subst hc
  obtain ⟨hhere, hlocal, hremote, hn, hplace⟩ := hr
  obtain ⟨hins, houts⟩ := State.slotSeen_codec_near ha hhere
  have stream := ((s.slotSeen_memoryStep (cdcMacro mine) x idx).stream? _).trans hy
  have launched := State.launchTo_of_near (o := opCodec) (f := s.slotFlight (cdcMacro mine) x idx)
    (fun u f => u.goCodec (s.slotEnv x idx) f) rfl (State.accepts_codec_history ha) rfl ⟨rfl, rfl⟩ (fun _ h => nomatch h) hins houts
  rw [State.startMacro_codec hx rfl ha, startCodec, if_neg (Nat.not_lt.mpr hk), launched]
  exact State.goCodec_of_ready hlocal hremote (State.any_marked_of_noneMarked (State.slotSeen_noneMarked hn _ x idx)) hplace stream

/-! ### A job ends (15 R392, R397) -/

/-- The result record of a job has been written. -/
def State.cdcRecorded (s : State) (c idx : Nat) (j : CodecJob) (e : Env) (f : InFlight) : State :=
  s.writeGlobal c idx f.partition
    (e.obj (cdcResult j.block), j.record ((s.stream? (cdcStream j.block)).elim 0 (fun x => x.held.length)))

/-- A job's status is the highest of its notes. -/
def CodecJob.status (j : CodecJob) : Nat :=
  topNote (j.notes ++ (if j.damaged ≠ 0 then [0x00D0] else []) ++ (if j.skipped ≠ 0 then [0x00D1] else []))

/-- A job that ends leaves the complex and its pipes once its record is written, and its instruction ends with its status. -/
def State.cdcEnded (s : State) (c idx : Nat) (j : CodecJob) (e : Env) (f : InFlight) : State :=
  (((s.cdcRecorded c idx j e f).dropCdc c idx).idleCdc c idx).setFlight c idx (fun f => f.end_ j.status)

/-- A stream is Closed: its context is free. -/
def State.streamFreed (s : State) (i : Nat) : State :=
  { s with codec := { s.codec with streams := s.codec.streams.filter (fun x => x.id != i) } }

theorem State.streamFreed_stream? (s : State) (i : Nat) : (s.streamFreed i).stream? i = none := by
  simp [State.stream?, State.streamFreed]

section
variable {s : State} {c idx : Nat} {j : CodecJob} {e : Env} {f : InFlight} (hj : s.cdcJob c idx = some j)
  (he : s.cdcEnv c idx = some (e, f)) (closed : Bool)
include hj he

theorem State.endCdc_eq : s.endCdc c idx closed =
    if closed then (s.cdcEnded c idx j e f).streamFreed (cdcStream j.block) else s.cdcEnded c idx j e f := by
  simp only [State.endCdc, hj, he, bne_iff_ne]
  rfl

/-- A stream freed or not, the jobs, memory and the command streams are the same. -/
theorem State.endCdc_keeps : (s.endCdc c idx closed).codec.jobs = (s.cdcEnded c idx j e f).codec.jobs ∧
    (s.endCdc c idx closed).mem = (s.cdcEnded c idx j e f).mem ∧ (s.endCdc c idx closed).cs = (s.cdcEnded c idx j e f).cs := by
  rw [State.endCdc_eq hj he]
  cases closed <;> exact ⟨rfl, rfl, rfl⟩
end

@[simp] theorem State.dropCdc_cdcJob (s : State) (c idx : Nat) : (s.dropCdc c idx).cdcJob c idx = none := by
  simp only [State.cdcJob, State.dropCdc, List.find?_eq_none, List.mem_filter]
  intro j hj
  simpa [Decidable.imp_iff_not_or] using hj.2

theorem State.cdcEnded_cdcJob (s : State) (c idx : Nat) (j : CodecJob) (e : Env) (f : InFlight) :
    (s.cdcEnded c idx j e f).cdcJob c idx = none :=
  (s.cdcRecorded c idx j e f).dropCdc_cdcJob c idx

/-- The instruction of a job that has an environment is in flight. -/
theorem State.flight?_of_cdcEnv {s : State} {c idx : Nat} {e : Env} {f : InFlight} (h : s.cdcEnv c idx = some (e, f)) :
    s.flight? c idx = some f := by
  unfold State.cdcEnv at h
  split at h
  next x g hx hg =>
    rw [hg]
    exact congrArg some (Prod.mk.inj (Option.some.inj h)).2
  · cases h

/-- Success and every note may be returned as they are. -/
theorem returnable_topNote (l : List Nat) : returnable (topNote l) = topNote l := by
  have class0 : topNote l < 0x100 := of_decide_eq_true (isSuccess_topNote l)
  exact if_pos (class0.trans (by decide))

/-- The instruction of a job that ends is in flight still, Ended with the job's status. -/
theorem State.cdcEnded_flight? {s : State} {c idx : Nat} {f : InFlight} (hf : s.flight? c idx = some f) (j : CodecJob) (e : Env) :
    ((s.cdcEnded c idx j e f).flight? c idx).map (fun g => (g.phase, g.status)) = some (.ended, j.status) := by
  have there : (c, idx) ∈ (s.cdcRecorded c idx j e f).flightKeys := by
    rw [State.cdcRecorded, State.writeGlobal_flightKeys]
    exact State.mem_flightKeys_of_flight? hf
  obtain ⟨g, hg⟩ := Option.ne_none_iff_exists'.mp fun hnone => (State.flight?_eq_none_iff _ c idx).mp hnone there
  have kept : (((s.cdcRecorded c idx j e f).dropCdc c idx).idleCdc c idx).flight? c idx = some g := hg
  rw [State.cdcEnded, State.flight?_setFlight _ c idx (g := fun f => f.end_ j.status) fun _ hc hi => ⟨hc, hi⟩, kept]
  exact congrArg (fun n => some (Phase.ended, n)) (returnable_topNote _)

/-- Settles O14: an open by its own start, a job by what it goes on with for its Kind, and the end of a job by its last write, its removal
and its status. -/
theorem codecRowsStart : Obligations.CodecRowsStart := by
  unfold Obligations.CodecRowsStart
  refine ⟨?opens, ?jobs, ?ends⟩
  case opens =>
    intro s c idx x hx hc hn m0 m1
    refine ⟨fun ha hk => congrArg Host.Outcome.next ?_, fun ha => congrArg Host.Outcome.next ?_⟩
    · refine (State.startMacro_codec_open hx hc hn ha (by rw [hk]; decide)).trans ?_
      rw [hk]
      rfl
    · have hk := State.accepts_cdcKind ha
      refine (State.startMacro_codec_open hx hc hn ha (by rw [hk]; decide)).trans ?_
      rw [hk]
      rfl
  case jobs =>
    intro s c idx x y hx hc e b i fuel m2 m3 m4 hy
    have start {k : Nat} (hk : 2 ≤ k) (ha : s.accepts (cdcMacro (fun n => n == k)) x idx = true)
        (hr : s.codecReady (cdcMacro (fun n => n == k)) x idx) :=
      State.startMacro_codec_job hx hc ha hr (by rw [State.accepts_cdcKind ha]; exact hk) hy
    refine ⟨fun ha hr => congrArg Host.Outcome.next ?_, fun ha hr => congrArg Host.Outcome.next ?_,
      fun ha hr hdec => congrArg Host.Outcome.next ?_, fun ha hr henc => congrArg Host.Outcome.next ?_⟩
    · simpa [State.accepts_cdcKind ha] using start (by decide) ha hr
    · simpa [State.accepts_cdcKind ha] using start (by decide) ha hr
    · simpa [State.accepts_cdcKind ha, hdec] using start (by decide) ha hr
    · simpa [State.accepts_cdcKind ha, henc] using start (by decide) ha hr
  case ends =>
    intro s c idx j e f closed hj he _ _ t held
    obtain ⟨hjobs, hmem, hcs⟩ := State.endCdc_keeps hj he closed
    refine ⟨?_, hmem.trans rfl, ?_, ?_⟩
    · show (s.endCdc c idx closed).cdcJob c idx = none
      rw [State.cdcJob, hjobs]
      exact s.cdcEnded_cdcJob c idx j e f
    · show ((s.endCdc c idx closed).flight? c idx).map _ = _
      rw [State.flight?, hcs]
      exact State.cdcEnded_flight? (State.flight?_of_cdcEnv he) j e
    · rintro rfl
      show (s.endCdc c idx true).stream? _ = none
      rw [State.endCdc_eq hj he, if_pos rfl]
      exact State.streamFreed_stream? _ _

end Sys2Proof.Machine
end

section
/-! What a command may do to the security engine: fuses that only blow, and the form that every step keeps (20 R527, R528, R533, R537,
R538, R545). -/

namespace Sys2Proof.Machine
open Sys2Proof

/-- What the whole dispatch may do to the security engine: most rows leave it alone, and each other by its own command's law. -/
theorem exec_leads (i : Instr) (s t : State) (hnext : exec i s = .next t) : s.sec.leads t.sec := by
  cases i with
  | newTail ctx width value => exact Security.leads_of_eq (execNewTail_sec ctx width value s t hnext)
  | resume ctx value => exact Security.leads_of_eq (execResume_sec ctx value s t hnext)
  | mma ctx idx => exact Security.leads_of_eq (execMma_sec ctx idx s t hnext)
  | mmas ctx idx => exact Security.leads_of_eq (execMmas_sec ctx idx s t hnext)
  | conv ctx idx => exact Security.leads_of_eq (execConv_sec ctx idx s t hnext)
  | pool ctx idx => exact Security.leads_of_eq (execPool_sec ctx idx s t hnext)
  | attf ctx idx => exact Security.leads_of_eq (execAttf_sec ctx idx s t hnext)
  | attb ctx idx => exact Security.leads_of_eq (execAttb_sec ctx idx s t hnext)
  | latx ctx idx => exact Security.leads_of_eq (execLatx_sec ctx idx s t hnext)
  | kvap ctx idx => exact Security.leads_of_eq (execKvap_sec ctx idx s t hnext)
  | sfn ctx idx => exact Security.leads_of_eq (execSfn_sec ctx idx s t hnext)
  | norm ctx idx => exact Security.leads_of_eq (execNorm_sec ctx idx s t hnext)
  | smax ctx idx => exact Security.leads_of_eq (execSmax_sec ctx idx s t hnext)
  | samp ctx idx => exact Security.leads_of_eq (execSamp_sec ctx idx s t hnext)
  | rand ctx idx => exact Security.leads_of_eq (execRand_sec ctx idx s t hnext)
  | qnt ctx idx => exact Security.leads_of_eq (execQnt_sec ctx idx s t hnext)
  | route ctx idx => exact Security.leads_of_eq (execRoute_sec ctx idx s t hnext)
  | gath ctx idx => exact Security.leads_of_eq (execGath_sec ctx idx s t hnext)
  | scat ctx idx => exact Security.leads_of_eq (execScat_sec ctx idx s t hnext)
  | copy ctx idx => exact Security.leads_of_eq (execCopy_sec ctx idx s t hnext)
  | coll ctx idx => exact Security.leads_of_eq (execColl_sec ctx idx s t hnext)
  | post ctx idx => exact Security.leads_of_eq (execPost_sec ctx idx s t hnext)
  | wait ctx idx => exact Security.leads_of_eq (execWait_sec ctx idx s t hnext)
  | signal ctx idx => exact Security.leads_of_eq (execSignal_sec ctx idx s t hnext)
  | fence ctx idx => exact Security.leads_of_eq (execFence_sec ctx idx s t hnext)
  | still ctx idx => exact Security.leads_of_eq (execStill_sec ctx idx s t hnext)
  | argmx ctx idx => exact Security.leads_of_eq (execArgmx_sec ctx idx s t hnext)
  | nop ctx idx => exact Security.leads_of_eq (execNop_sec ctx idx s t hnext)
  | codecOpenEncoder ctx idx => exact Security.leads_of_eq (execCodecOpenEncoder_sec ctx idx s t hnext)
  | codecOpenDecoder ctx idx => exact Security.leads_of_eq (execCodecOpenDecoder_sec ctx idx s t hnext)
  | codecEncode ctx idx => exact Security.leads_of_eq (execCodecEncode_sec ctx idx s t hnext)
  | codecDecode ctx idx => exact Security.leads_of_eq (execCodecDecode_sec ctx idx s t hnext)
  | codecClose ctx idx => exact Security.leads_of_eq (execCodecClose_sec ctx idx s t hnext)
  | intkText ctx idx => exact Security.leads_of_eq (execIntkText_sec ctx idx s t hnext)
  | intkImage ctx idx => exact Security.leads_of_eq (execIntkImage_sec ctx idx s t hnext)
  | intkInstall ctx idx => exact Security.leads_of_eq (execIntkInstall_sec ctx idx s t hnext)
  | instructionComplete ctx idx => exact Security.leads_of_eq (execInstructionComplete_sec ctx idx s t hnext)
  | waitSatisfied ctx idx => exact Security.leads_of_eq (execWaitSatisfied_sec ctx idx s t hnext)
  | waitTimeout ctx idx => exact Security.leads_of_eq (execWaitTimeout_sec ctx idx s t hnext)
  | remoteAck req => exact Security.leads_of_eq (execRemoteAck_sec req s t hnext)
  | remoteAckTimeout req => exact Security.leads_of_eq (execRemoteAckTimeout_sec req s t hnext)
  | refuseReceive req code => exact Security.leads_of_eq (execRefuseReceive_sec req code s t hnext)
  | taskTake cell which => exact Security.leads_of_eq (execTaskTake_sec cell which s t hnext)
  | chainHopTimeout ctx idx cell fwd => exact Security.leads_of_eq (execChainHopTimeout_sec ctx idx cell fwd s t hnext)
  | historyFetchArrival ctx idx block ok data => exact Security.leads_of_eq (execHistoryFetchArrival_sec ctx idx block ok data s t hnext)
  | historyDeadline ctx idx block => exact Security.leads_of_eq (execHistoryDeadline_sec ctx idx block s t hnext)
  | reseed cell => exact Security.leads_of_eq (execReseed_sec cell s t hnext)
  | scrub channel corrected bad => exact Security.leads_of_eq (execScrub_sec channel corrected bad s t hnext)
  | wcbAgeRetire channel => exact Security.leads_of_eq (execWcbAgeRetire_sec channel s t hnext)
  | unmappedAccess addr write => exact Security.leads_of_eq (execUnmappedAccess_sec addr write s t hnext)
  | remoteAccess r => exact Security.leads_of_eq (execRemoteAccess_sec r s t hnext)
  | remoteSignal src postmark addr op operand => exact Security.leads_of_eq (execRemoteSignal_sec src postmark addr op operand s t hnext)
  | remoteAlloc src postmark record => exact Security.leads_of_eq (execRemoteAlloc_sec src postmark record s t hnext)
  | writeBackTimeout req => exact Security.leads_of_eq (execWriteBackTimeout_sec req s t hnext)
  | granuleZeroing granule => exact Security.leads_of_eq (execGranuleZeroing_sec granule s t hnext)
  | retrainDue channel => exact Security.leads_of_eq (execRetrainDue_sec channel s t hnext)
  | retrainRequest value => exact Security.leads_of_eq (execRetrainRequest_sec value s t hnext)
  | retrainTimeout channel => exact Security.leads_of_eq (execRetrainTimeout_sec channel s t hnext)
  | submit d => exact Security.leads_of_eq (execSubmit_sec d s t hnext)
  | slotGrant => exact Security.leads_of_eq (execSlotGrant_sec s t hnext)
  | preemptWaitExpiry cell ctx idx task => exact Security.leads_of_eq (execPreemptWaitExpiry_sec cell ctx idx task s t hnext)
  | suspendContext value => exact Security.leads_of_eq (execSuspendContext_sec value s t hnext)
  | suspendPartition value => exact Security.leads_of_eq (execSuspendPartition_sec value s t hnext)
  | resumeContext value => exact Security.leads_of_eq (execResumeContext_sec value s t hnext)
  | saveComplete ctx => exact Security.leads_of_eq (execSaveComplete_sec ctx s t hnext)
  | restore ctx => exact Security.leads_of_eq (execRestore_sec ctx s t hnext)
  | quotaCommit value => exact Security.leads_of_eq (execQuotaCommit_sec value s t hnext)
  | flitTransmit port => exact Security.leads_of_eq (execFlitTransmit_sec port s t hnext)
  | flitReceive port fecOk bytes => exact Security.leads_of_eq (execFlitReceive_sec port fecOk bytes s t hnext)
  | nakReceive port ackSeq => exact Security.leads_of_eq (execNakReceive_sec port ackSeq s t hnext)
  | replayTimeout port => exact Security.leads_of_eq (execReplayTimeout_sec port s t hnext)
  | signalDetect port lanes => exact Security.leads_of_eq (execSignalDetect_sec port lanes s t hnext)
  | bringUpTimeout port => exact Security.leads_of_eq (execBringUpTimeout_sec port s t hnext)
  | helloReceive port hello => exact Security.leads_of_eq (execHelloReceive_sec port hello s t hnext)
  | helloTimer port => exact Security.leads_of_eq (execHelloTimer_sec port s t hnext)
  | helloTimeout port => exact Security.leads_of_eq (execHelloTimeout_sec port s t hnext)
  | laneFault port lane cause => exact Security.leads_of_eq (execLaneFault_sec port lane cause s t hnext)
  | laneRetrainDue port lane => exact Security.leads_of_eq (execLaneRetrainDue_sec port lane s t hnext)
  | laneRetrainRequest value => exact Security.leads_of_eq (execLaneRetrainRequest_sec value s t hnext)
  | laneRetrainDone port => exact Security.leads_of_eq (execLaneRetrainDone_sec port s t hnext)
  | laneRetrainTimeout port => exact Security.leads_of_eq (execLaneRetrainTimeout_sec port s t hnext)
  | nodeCommit value => exact Security.leads_of_eq (execNodeCommit_sec value s t hnext)
  | routeCommit value => exact Security.leads_of_eq (execRouteCommit_sec value s t hnext)
  | routeDefaults value => exact Security.leads_of_eq (execRouteDefaults_sec value s t hnext)
  | routerReset value => exact Security.leads_of_eq (execRouterReset_sec value s t hnext)
  | portEnable value => exact Security.leads_of_eq (execPortEnable_sec value s t hnext)
  | portDownLimit port => exact Security.leads_of_eq (execPortDownLimit_sec port s t hnext)
  | responseReceive req postmark poisoned data => exact Security.leads_of_eq (execResponseReceive_sec req postmark poisoned data s t hnext)
  | chunkReceive group ord src sender sig head residue data => exact Security.leads_of_eq (execChunkReceive_sec group ord src sender sig head residue data s t hnext)
  | collTimeout ctx idx => exact Security.leads_of_eq (execCollTimeout_sec ctx idx s t hnext)
  | postcardReceive group ord axis pos sender sig payload => exact Security.leads_of_eq (execPostcardReceive_sec group ord axis pos sender sig payload s t hnext)
  | ctrlBroadcast initiator payload => exact Security.leads_of_eq (execCtrlBroadcast_sec initiator payload s t hnext)
  | ctrlSnapshot initiator others => exact Security.leads_of_eq (execCtrlSnapshot_sec initiator others s t hnext)
  | ctrlGroupReset initiator group => exact Security.leads_of_eq (execCtrlGroupReset_sec initiator group s t hnext)
  | sampleTake pipe => exact Security.leads_of_eq (execSampleTake_sec pipe s t hnext)
  | sampleComplete pipe => exact Security.leads_of_eq (execSampleComplete_sec pipe s t hnext)
  | sampleBudgetExpiry pipe => exact Security.leads_of_eq (execSampleBudgetExpiry_sec pipe s t hnext)
  | dictReplace slot => exact Security.leads_of_eq (execDictReplace_sec slot s t hnext)
  | frameTake pipe => exact Security.leads_of_eq (execFrameTake_sec pipe s t hnext)
  | frameComplete pipe => exact Security.leads_of_eq (execFrameComplete_sec pipe s t hnext)
  | frameBudgetExpiry pipe => exact Security.leads_of_eq (execFrameBudgetExpiry_sec pipe s t hnext)
  | invalidDatagram d => exact Security.leads_of_eq (execInvalidDatagram_sec d s t hnext)
  | openSession d => exact Security.leads_of_eq (execOpenSession_sec d s t hnext)
  | closeSession d => exact Security.leads_of_eq (execCloseSession_sec d s t hnext)
  | ack d => exact Security.leads_of_eq (execAck_sec d s t hnext)
  | alloc d => exact Security.leads_of_eq (execAlloc_sec d s t hnext)
  | free d => exact Security.leads_of_eq (execFree_sec d s t hnext)
  | write d => exact Security.leads_of_eq (execWrite_sec d s t hnext)
  | read d => exact Security.leads_of_eq (execRead_sec d s t hnext)
  | importJob d => exact Security.leads_of_eq (execImportJob_sec d s t hnext)
  | controlDoorbell d => exact Security.leads_of_eq (execControlDoorbell_sec d s t hnext)
  | controlSuspend d => exact Security.leads_of_eq (execControlSuspend_sec d s t hnext)
  | controlResume d => exact Security.leads_of_eq (execControlResume_sec d s t hnext)
  | controlCancel d => exact Security.leads_of_eq (execControlCancel_sec d s t hnext)
  | controlExport d => exact Security.leads_of_eq (execControlExport_sec d s t hnext)
  | controlRebind d => exact Security.leads_of_eq (execControlRebind_sec d s t hnext)
  | controlQuery d => exact Security.leads_of_eq (execControlQuery_sec d s t hnext)
  | arpRequest port target senderIp senderMac => exact Security.leads_of_eq (execArpRequest_sec port target senderIp senderMac s t hnext)
  | neighbourSolicitation port target senderIp senderMac => exact Security.leads_of_eq (execNeighbourSolicitation_sec port target senderIp senderMac s t hnext)
  | echoRequest port v6 dst src payload => exact Security.leads_of_eq (execEchoRequest_sec port v6 dst src payload s t hnext)
  | retransmitTimeout session => exact Security.leads_of_eq (execRetransmitTimeout_sec session s t hnext)
  | ackTimer session => exact Security.leads_of_eq (execAckTimer_sec session s t hnext)
  | resultRequest r => exact Security.leads_of_eq (execResultRequest_sec r s t hnext)
  | resultHoldExpiry result => exact Security.leads_of_eq (execResultHoldExpiry_sec result s t hnext)
  | haltLimitExpiry ctx => exact Security.leads_of_eq (execHaltLimitExpiry_sec ctx s t hnext)
  | portLinkLoss port => exact Security.leads_of_eq (execPortLinkLoss_sec port s t hnext)
  | ethercatFrame port dgs => exact Security.leads_of_eq (execEthercatFrame_sec port dgs s t hnext)
  | ethercatLinkLoss port => exact Security.leads_of_eq (execEthercatLinkLoss_sec port s t hnext)
  | alStateRequest state => exact Security.leads_of_eq (execAlStateRequest_sec state s t hnext)
  | sdoDownload index sub complete bytes => exact execSdoDownload_leads index sub complete bytes s t hnext
  | sdoUpload index sub complete => exact execSdoUpload_leads index sub complete s t hnext
  | sdoInformation op index sub => exact Security.leads_of_eq (execSdoInformation_sec op index sub s t hnext)
  | sdoTransferTimeout => exact Security.leads_of_eq (execSdoTransferTimeout_sec s t hnext)
  | mailboxUnsupported protocol => exact Security.leads_of_eq (execMailboxUnsupported_sec protocol s t hnext)
  | sm2Watchdog => exact Security.leads_of_eq (execSm2Watchdog_sec s t hnext)
  | pdoRefresh => exact Security.leads_of_eq (execPdoRefresh_sec s t hnext)
  | pdoMapping index entries => exact Security.leads_of_eq (execPdoMapping_sec index entries s t hnext)
  | storeAll value => exact Security.leads_of_eq (execStoreAll_sec value s t hnext)
  | restoreDefaults value => exact Security.leads_of_eq (execRestoreDefaults_sec value s t hnext)
  | layoutCommit value => exact Security.leads_of_eq (execLayoutCommit_sec value s t hnext)
  | dictWrite index sub bytes => exact execDictWrite_leads index sub bytes s t hnext
  | foeWriteFirmware password readBack image => exact Security.leads_of_eq (execFoeWriteFirmware_sec password readBack image s t hnext)
  | foeRead password name => exact Security.leads_of_eq (execFoeRead_sec password name s t hnext)
  | activateFirmware value => exact Security.leads_of_eq (execActivateFirmware_sec value s t hnext)
  | faultClear value => exact Security.leads_of_eq (execFaultClear_sec value s t hnext)
  | fenceUnit value => exact Security.leads_of_eq (execFenceUnit_sec value s t hnext)
  | clearFence value => exact Security.leads_of_eq (execClearFence_sec value s t hnext)
  | resetPartition value => exact execResetPartition_leads value s t hnext
  | resetChip value => exact execResetChip_leads value s t hnext
  | resetChipCullet value => exact execResetChipCullet_leads value s t hnext
  | resetPowerCycle value => exact execResetPowerCycle_leads value s t hnext
  | raiseSecurityVersion value blowOk => exact execRaiseSecurityVersion_leads value blowOk s t hnext
  | challenge => exact execChallenge_leads s t hnext
  | challengeLockoutEnd => exact execChallengeLockoutEnd_leads s t hnext
  | unlockObserve token => exact execUnlockObserve_leads token s t hnext
  | unlockFull token => exact execUnlockFull_leads token s t hnext
  | toField token blowOk => exact execToField_leads token blowOk s t hnext
  | toReturned token blowOk => exact execToReturned_leads token blowOk s t hnext
  | toScrapped token blowOk => exact execToScrapped_leads token blowOk s t hnext
  | revoke token blowOk => exact execRevoke_leads token blowOk s t hnext
  | provision value blowOk => exact execProvision_leads value blowOk s t hnext
  | provisionScrap value blowOk => exact execProvisionScrap_leads value blowOk s t hnext
  | rotateIdentity value => exact execRotateIdentity_leads value s t hnext
  | attestNonce nonce => exact execAttestNonce_leads nonce s t hnext
  | attestReportReady => exact execAttestReportReady_leads s t hnext
  | relock value => exact execRelock_leads value s t hnext
  | debugDataRead => exact Security.leads_of_eq (execDebugDataRead_sec s t hnext)
  | debugDataWrite data => exact Security.leads_of_eq (execDebugDataWrite_sec data s t hnext)
  | powerFull value => exact Security.leads_of_eq (execPowerFull_sec value s t hnext)
  | powerTrim value => exact Security.leads_of_eq (execPowerTrim_sec value s t hnext)
  | powerHold value => exact Security.leads_of_eq (execPowerHold_sec value s t hnext)
  | extest boundary => exact execExtest_leads boundary s t hnext
  | idcode => exact execIdcode_leads s t hnext
  | samplePreload boundary => exact execSamplePreload_leads boundary s t hnext
  | scanread unit => exact execScanread_leads unit s t hnext
  | scanwrite unit data => exact execScanwrite_leads unit data s t hnext
  | corehalt core halt => exact execCorehalt_leads core halt s t hnext
  | bypass code tdi => exact execBypass_leads code tdi s t hnext
  | tapReset => exact execTapReset_leads s t hnext
  | trngHealthFail => exact execTrngHealthFail_leads s t hnext
  | trngResume => exact execTrngResume_leads s t hnext
  | commitTimer => exact Security.leads_of_eq (execCommitTimer_sec s t hnext)
  | allowanceTick => exact Security.leads_of_eq (execAllowanceTick_sec s t hnext)
  | powerFall => exact Security.leads_of_eq (execPowerFall_sec s t hnext)
  | powerReturn => exact execPowerReturn_leads s t hnext
  | powerOn nandOk failedChannels => exact execPowerOn_leads nandOk failedChannels s t hnext
  | nandScrub block finding => exact Security.leads_of_eq (execNandScrub_sec block finding s t hnext)
  | windowRoll => exact Security.leads_of_eq (execWindowRoll_sec s t hnext)
  | fenceWindow region => exact Security.leads_of_eq (execFenceWindow_sec region s t hnext)
  | cellWatchdog cell => exact Security.leads_of_eq (execCellWatchdog_sec cell s t hnext)
  | engineWatchdog unit => exact Security.leads_of_eq (execEngineWatchdog_sec unit s t hnext)
  | partitionWatchdog region => exact Security.leads_of_eq (execPartitionWatchdog_sec region s t hnext)
  | coreWatchdog core => exact execCoreWatchdog_leads core s t hnext
  | uncorrectableCellState cell laneGroup => exact Security.leads_of_eq (execUncorrectableCellState_sec cell laneGroup s t hnext)
  | engineResetOverrun unit => exact Security.leads_of_eq (execEngineResetOverrun_sec unit s t hnext)
  | annealComplete partition => exact Security.leads_of_eq (execAnnealComplete_sec partition s t hnext)
  | annealOverrun partition => exact execAnnealOverrun_leads partition s t hnext
  | chipResetTimeout => exact execChipResetTimeout_leads s t hnext
  | perst => exact execPerst_leads s t hnext
  | perstRelease => exact Security.leads_of_eq (execPerstRelease_sec s t hnext)
  | refclk156Loss => exact Security.leads_of_eq (execRefclk156Loss_sec s t hnext)
  | refclk156Return => exact Security.leads_of_eq (execRefclk156Return_sec s t hnext)
  | refclk100Loss => exact Security.leads_of_eq (execRefclk100Loss_sec s t hnext)
  | thermalWarning die device => exact Security.leads_of_eq (execThermalWarning_sec die device s t hnext)
  | throttleStep die device power => exact Security.leads_of_eq (execThrottleStep_sec die device power s t hnext)
  | thermalTrip die device => exact Security.leads_of_eq (execThermalTrip_sec die device s t hnext)
  | channelTrainingDone channel => exact Security.leads_of_eq (execChannelTrainingDone_sec channel s t hnext)
  | portAligned port lanes => exact Security.leads_of_eq (execPortAligned_sec port lanes s t hnext)
  | dataPortLinkUp port => exact Security.leads_of_eq (execDataPortLinkUp_sec port s t hnext)
  | ethercatLinkUp port => exact Security.leads_of_eq (execEthercatLinkUp_sec port s t hnext)
  | inputVoltageOutOfRange millivolts => exact Security.leads_of_eq (execInputVoltageOutOfRange_sec millivolts s t hnext)

theorem step_leads {s t : State} (hstep : step s = .next t) : s.sec.leads t.sec := by
  cases hq : s.pending with
  | nil =>
    rw [step_of_pending_nil s hq] at hstep
    cases hstep
    exact Security.leads_refl _
  | cons c rest =>
    rw [step_of_pending_cons s c rest hq] at hstep
    exact exec_leads c { s with pending := rest } t hstep

/-- Settles O4: the form is kept wherever the engine is led. -/
theorem stepKeepsSecurityForm : Obligations.StepKeepsSecurityForm := by
  unfold Obligations.StepKeepsSecurityForm
  intro s t hok hstep
  exact (step_leads hstep).2 hok

/-- Settles O5: the fuses grow wherever the engine is led. -/
theorem fusesOnlyBlow : Obligations.FusesOnlyBlow := by
  unfold Obligations.FusesOnlyBlow
  intro s t hstep
  exact (step_leads hstep).1

end Sys2Proof.Machine
end

section
/-! The lifecycle and the tokens (20 R533 to R538): what a chip reset leaves of the security engine, what a token's checks decide, and
what each operation then does. -/

namespace Sys2Proof.Machine
open Sys2Proof

/-! ### The security engine through a chip reset (19 R501) -/

/-- The security engine as a chip reset leaves it: its fuses and its identity stay, its session ends, and the level is the lifecycle's. -/
def Security.restarted (x : Security) : Security := { x with
  challenge := none
  tokenState := 0
  tokenResult := 0
  level := if x.fuses.lifecycle == 0 then 2 else 0
  attState := 0
  attNonce := []
  attReport := []
  scan := []
  coreHalted := [] }

theorem State.unitsReset_sec (s : State) : s.unitsReset.sec = s.sec.restarted := by
  unfold State.unitsReset
  dsimp only
  split <;> simp [apply_ite State.sec, Security.restarted]

/-- A freeze leaves the security engine alone, but a hung one reads identity and rotations back from the store. -/
theorem State.freeze_sec (s : State) (cause unit severity : Nat) (record hung : Bool) :
    (s.freeze cause unit severity record hung).sec = if hung then s.reload.sec else s.sec := by
  unfold State.freeze
  cases hung <;> cases record <;> simp

theorem State.chipReset_sec (s : State) (cause unit : Nat) (fault record hung : Bool) :
    (s.chipReset cause unit fault record hung).sec =
      (if hung then (if fault then s.raise 3 cause else s).reload.sec else s.sec).restarted := by
  have ended : ∀ r x : State, x.sec = (r.freeze cause unit 5 record hung).sec →
      (x.unitsReset.startUp []).sec = (if hung then r.reload.sec else r.sec).restarted := by
    intro r x hx
    rw [State.startUp_sec, State.unitsReset_sec, hx, State.freeze_sec]
  have raised : (if fault then s.raise 3 cause else s).sec = s.sec := by
    cases fault
    · rfl
    · exact State.raise_sec _ _ _
  unfold State.chipReset
  refine (ended (if fault then s.raise 3 cause else s) _ ?_).trans (by rw [raised])
  exact State.bump_sec ((if fault then s.raise 3 cause else s).freeze cause unit 5 record hung) 0x4003 4 1

theorem State.chipReset_fuses (s : State) (cause unit : Nat) (fault record hung : Bool) :
    (s.chipReset cause unit fault record hung).sec.fuses = s.sec.fuses := by
  have reloaded (t : State) : t.reload.sec.fuses = t.sec.fuses := rfl
  have raised : (if fault then s.raise 3 cause else s).sec.fuses = s.sec.fuses := by
    cases fault
    · rfl
    · rw [if_pos rfl, State.raise_sec]
  rw [State.chipReset_sec]
  cases hung
  · rfl
  · rw [if_pos rfl]
    exact (reloaded _).trans raised

/-! ### Changes of the lifecycle (20 R538) -/

theorem State.eraseIdentity_identity (s : State) : s.eraseIdentity.sec.identity = none := by
  unfold State.eraseIdentity
  simp

theorem State.changeLife_lifecycle (s : State) (new : Nat) : (s.changeLife new).sec.fuses.lifecycle = new := by
  unfold State.changeLife
  dsimp only
  rw [State.chipReset_fuses]
  split <;> simp

/-- From Returned on the module has no identity. -/
theorem State.changeLife_identity (s : State) {new : Nat} (h : 3 ≤ new) : (s.changeLife new).sec.identity = none := by
  unfold State.changeLife
  dsimp only
  rw [if_pos h, State.chipReset_sec]
  exact State.eraseIdentity_identity _

theorem State.changeLife_scrapped (s : State) : (s.changeLife 4).sec.fuses.secretKilled = true := by
  unfold State.changeLife
  dsimp only
  rw [State.chipReset_fuses]
  simp

/-! ### What a token's checks decide (20 R533 to R535) -/

theorem tokenOf_eq_true {op : Nat} {b : Bytes} (h : tokenOf op b = true) : b.length = 384 ∧ leAt b 4 1 = op := by
  simpa [tokenOf] using h

/-- A token that fails a check is refused with its code. -/
theorem State.token_refused {s : State} {op : Nat} {b : Bytes} (hup : s.mailboxUp = true) (hb : tokenOf op b = true)
    (hc : s.tokenCode b ≠ 0) (blowOk : Bool) (f : State → State) :
    s.token op b blowOk f = s.attempted.refuseToken (s.tokenCode b) := by
  obtain ⟨hlen, hop⟩ := tokenOf_eq_true hb
  unfold State.token
  simp only [hup, hlen, hop, bne_self_eq_false, Bool.not_true, Bool.false_and, Bool.false_eq_true, if_false]
  rw [if_pos (by simpa using hc)]
  rfl

/-- A token that passes has its operation's effect. -/
theorem State.token_accepted {s : State} {op : Nat} {b : Bytes} (hup : s.mailboxUp = true) (hb : tokenOf op b = true)
    (hc : s.tokenCode b = 0) (f : State → State) : s.token op b true f = f s.attempted.acceptToken := by
  obtain ⟨hlen, hop⟩ := tokenOf_eq_true hb
  unfold State.token
  simp only [hup, hlen, hop, hc, bne_self_eq_false, Bool.not_true, Bool.false_and, Bool.false_eq_true, if_false]
  rfl

theorem State.attempted_sec (s : State) : s.attempted.sec = { s.sec with challenge := none } := by simp [State.attempted]

/-- The lifecycle from which a token that passes moves the module on (20 R536). -/
theorem State.tokenCode_life {s : State} {op : Nat} {b : Bytes} (hb : tokenOf op b = true) (hc : s.tokenCode b = 0) :
    tokenAllowed op s.sec.fuses.lifecycle = true := by
  obtain ⟨-, hop⟩ := tokenOf_eq_true hb
  exact hop ▸ (State.tokenCode_zero hc).2

/-! ### The rows -/

/-- The six token rows, each with its operation's number. -/
def tokenRows (b : Bytes) : List (Nat × Instr) :=
  [(1, .unlockObserve b), (2, .unlockFull b), (3, .toField b true), (4, .toReturned b true), (5, .toScrapped b true), (6, .revoke b true)]

theorem exec_tokenRow {b : Bytes} {row : Nat × Instr} (h : row ∈ tokenRows b) (s : State) :
    ∃ f, exec row.2 s = .next (s.token row.1 b true f) := by
  simp only [tokenRows, List.mem_cons, List.not_mem_nil, or_false] at h
  rcases h with rfl | rfl | rfl | rfl | rfl | rfl <;> exact ⟨_, rfl⟩

/-- A row whose token passes does what its operation does. -/
theorem exec_accepted {s : State} {op : Nat} {b : Bytes} {i : Instr} {f : State → State} (hexec : exec i s = .next (s.token op b true f))
    (hup : s.mailboxUp = true) (hb : tokenOf op b = true) (hc : s.tokenCode b = 0) :
    exec i s = .next (f s.attempted.acceptToken) := by
  rw [hexec, State.token_accepted hup hb hc]

/-- Settles O36: refusals by the checks, and each accepted operation by its own effect. -/
theorem tokensAct : Obligations.TokensAct := by
  unfold Obligations.TokensAct
  intro s b hup u ok
  have hsec : u.sec = { s.sec with challenge := none } := s.attempted_sec
  refine ⟨fun row hrow hb hc => ?_, fun hc => ⟨
    fun hb => exec_accepted (f := fun s => { s with sec := { s.sec with level := 1 } }) rfl hup hb hc,
    fun hb => exec_accepted (f := fun s => { s with sec := { s.sec with level := 2 } }) rfl hup hb hc, fun hb => ?_, fun hb => ?_, fun hb => ?_,
    fun hb => ?_⟩, rfl, ?_, rfl, ?_⟩
  · obtain ⟨f, hf⟩ := exec_tokenRow hrow s
    refine ⟨by rw [hf, State.token_refused hup hb hc], ?_, rfl, ?_⟩ <;> simp [State.refuseToken, hsec]
  · exact ⟨_, exec_accepted rfl hup hb hc, rfl, State.changeLife_lifecycle _ _⟩
  · exact ⟨_, exec_accepted rfl hup hb hc, rfl, State.changeLife_lifecycle _ _, State.changeLife_identity _ (by decide)⟩
  · exact ⟨_, exec_accepted rfl hup hb hc, rfl, State.changeLife_lifecycle _ _, State.changeLife_scrapped _,
      State.changeLife_identity _ (by decide)⟩
  · refine ⟨_, exec_accepted rfl hup hb hc, rfl, ?_⟩
    have hfuses : u.acceptToken.sec.fuses = s.sec.fuses := by rw [State.acceptToken_fuses, hsec]
    show ({ u.acceptToken.sec.fuses with revoked := _ } : Fuses) = _
    rw [hfuses]
  · simp [ok, State.acceptToken, hsec]
  · simp [ok, hsec]

/-! ### The chain of the lifecycle (20 R537) -/

theorem exec_provision {s : State} (hup : s.mailboxUp = true) (hok : (s.provisioned true).2 ≠ 0x03FC) :
    exec (.provision 1 true) s = .next (s.answerWrite 0x5001 6 false (s.provisioned true)) := by
  show Host.Outcome.next _ = _
  have h : (s.mailboxUp && (1 : Nat) == 1 && (s.provisioned true).2 == 0x03FC) = false := by simpa [hup] using hok
  simp only [h, Bool.false_eq_true, if_false]
  rw [State.trigger_up _ _ _ _ _ _ _ _ hup (by decide) (by decide)]
  rfl

/-- A blank module with a TRNG is provisioned: its identity is new, and the lifecycle and the level move on. -/
theorem State.provisioned_blank {s : State} (hlife : s.sec.fuses.lifecycle = 0) (htrng : s.sec.trngFail = false) :
    ∃ u : State, s.provisioned true = (u, 0) ∧
      u.sec = { s.sec with identity := some (s.makeIdentity 1), fuses := { s.sec.fuses with lifecycle := 1 }, level := 0 } := by
  unfold State.provisioned
  simp only [hlife, htrng, bne_self_eq_false, Bool.false_eq_true, if_false, Bool.not_true]
  refine ⟨_, rfl, ?_⟩
  simp [State.commitBlob, htrng]

theorem exec_provision_blank {s : State} (hup : s.mailboxUp = true) (hlife : s.sec.fuses.lifecycle = 0) (htrng : s.sec.trngFail = false) :
    ∃ u : State, exec (.provision 1 true) s = .next (s.answerWrite 0x5001 6 false (u, 0)) ∧
      u.sec = { s.sec with identity := some (s.makeIdentity 1), fuses := { s.sec.fuses with lifecycle := 1 }, level := 0 } := by
  obtain ⟨u, hu, hsec⟩ := State.provisioned_blank hlife htrng
  exact ⟨u, by rw [exec_provision hup (by simp [hu]), hu], hsec⟩

theorem exec_provisionScrap_blank {s : State} (hup : s.mailboxUp = true) (hlife : s.sec.fuses.lifecycle = 0) :
    exec (.provisionScrap 2 true) s = .next ((s.answerWrite 0x5001 6 false (s, 0)).changeLife 4) := by
  show execProvisionScrap 2 true s = _
  simp [execProvisionScrap, hup, hlife]

/-- Settles O6: no command lowers the lifecycle, and each step of the chain is its command's. -/
theorem lifecycleMovesForward : Obligations.LifecycleMovesForward := by
  unfold Obligations.LifecycleMovesForward
  refine ⟨fun s t hstep => ?_, fun s hup hlife => ⟨fun htrng => ?_, ?_⟩, fun s b hup hc => ⟨fun hb => ?_, fun hb => ?_, fun hb => ?_⟩⟩
  · obtain ⟨⟨-, -, -, hle, -⟩, -⟩ := step_leads hstep
    exact hle
  · obtain ⟨u, hexec, hsec⟩ := exec_provision_blank hup hlife htrng
    refine ⟨_, hexec, ?_⟩
    simp [State.answerWrite, hsec]
  · exact ⟨_, exec_provisionScrap_blank hup hlife, State.changeLife_lifecycle _ _⟩
  · exact ⟨by simpa [tokenAllowed] using State.tokenCode_life hb hc, _, exec_accepted rfl hup hb hc, State.changeLife_lifecycle _ _⟩
  · exact ⟨by simpa [tokenAllowed] using State.tokenCode_life hb hc, _, exec_accepted rfl hup hb hc, State.changeLife_lifecycle _ _⟩
  · exact ⟨tokenAllowed_life (State.tokenCode_life hb hc), _, exec_accepted rfl hup hb hc, State.changeLife_lifecycle _ _⟩

end Sys2Proof.Machine
end

section
/-! What the store and the mailbox do to the counters and to the image in force (17 R438, 18 R468 to R478, 19 R506 to R514): the frame of
everything that is counted, logged and announced. -/

namespace Sys2Proof.Machine
open Sys2Proof

/-! ### Counters -/

/-- The counters stand, but for those of the store and of the mailbox (17 R438, 18 R470). -/
def State.sameCounts (s t : State) : Prop :=
  ∀ idx sub, idx ≠ 0x5111 → idx ≠ 0x3250 → sub < 256 → t.count idx sub = s.count idx sub

theorem State.sameCounts.refl (s : State) : s.sameCounts s := fun _ _ _ _ _ => rfl

theorem State.sameCounts.trans {s t u : State} (h : s.sameCounts t) (h' : t.sameCounts u) : s.sameCounts u :=
  fun idx sub h1 h2 h3 => (h' idx sub h1 h2 h3).trans (h idx sub h1 h2 h3)

theorem State.sameCounts.of_tele {s t : State} (h : t.tele = s.tele) : s.sameCounts t := fun _ _ _ _ _ => by
  rw [State.count, State.count, h]

theorem State.bump_sameCounts {i j : Nat} (hi : i = 0x5111 ∨ i = 0x3250) (hj : j < 256) (s : State) (n : Nat) : s.sameCounts (s.bump i j n) :=
  fun idx sub h1 h2 hsub => State.count_bump_other _ _ _ _ _ _ (by unfold dkey; omega)

theorem State.wearLevel_sameCounts (s : State) : s.sameCounts s.wearLevel := by
  unfold State.wearLevel
  dsimp only
  split
  · split
    · exact .trans (.of_tele rfl) (State.bump_sameCounts (by decide) (by decide) _ 1)
    · exact .refl s
  · exact .refl s

theorem State.commitWith_sameCounts (s : State) (extra : List Rec) : s.sameCounts (s.commitWith extra) := by
  have once (t : State) : t.sameCounts (t.bump 0x5111 1 1) := State.bump_sameCounts (by decide) (by decide) t 1
  unfold State.commitWith
  dsimp only
  split
  · exact .refl s
  · split
    · refine .trans ?_ (State.wearLevel_sameCounts _)
      refine .trans ?_ (once _)
      exact .trans (.trans (.of_tele rfl) (once _)) (.of_tele rfl)
    · exact .trans (.trans (.of_tele rfl) (once _)) (State.wearLevel_sameCounts _)

theorem State.commitIf_sameCounts (s : State) (b : Bool) : s.sameCounts (if b then s.commitWith [] else s) := by
  split
  · exact s.commitWith_sameCounts []
  · exact .refl s

theorem State.journal_sameCounts (s : State) (must : Bool) (r : Rec) : s.sameCounts (s.journal must r) := by
  unfold State.journal
  by_cases hc : s.store.condition = 2
  · rw [if_pos (by simpa using hc)]
    exact .refl s
  · rw [if_neg (by simpa using hc)]
    refine .trans ?_ (State.commitIf_sameCounts _ _)
    exact .trans (s.commitIf_sameCounts _) (.of_tele rfl)

theorem State.forceCommit_sameCounts (s : State) : s.sameCounts s.forceCommit := by
  unfold State.forceCommit
  split
  · exact .refl s
  · exact .trans (State.bump_sameCounts (by decide) (by decide) _ 1) (State.commitWith_sameCounts _ [])

/-! ### What the store holds -/

/-- The image that runs, the bytes of the one that the anchor names, and the cullets and last posts that are kept stand. -/
structure Store.sameHoldings (t u : Store) : Prop where
  running : u.running = t.running
  image : u.image.map (fun i => i.bytes) = t.image.map (fun i => i.bytes)
  cullets : u.cullets.map (fun x => x.id) = t.cullets.map (fun x => x.id)
  lastPosts : u.lastPosts.map (fun x => x.id) = t.lastPosts.map (fun x => x.id)

/-- Pages are written, moved and given back: what the store holds and the records that wait stand. -/
structure Store.pagesMove (t u : Store) : Prop where
  holdings : t.sameHoldings u
  pending : u.pending = t.pending

theorem Store.sameHoldings.refl (t : Store) : t.sameHoldings t := ⟨rfl, rfl, rfl, rfl⟩

theorem Store.sameHoldings.trans {t u v : Store} (h : t.sameHoldings u) (h' : u.sameHoldings v) : t.sameHoldings v :=
  ⟨h'.running.trans h.running, h'.image.trans h.image, h'.cullets.trans h.cullets, h'.lastPosts.trans h.lastPosts⟩

theorem Store.pagesMove.refl (t : Store) : t.pagesMove t := ⟨.refl t, rfl⟩

theorem Store.pagesMove.trans {t u v : Store} (h : t.pagesMove u) (h' : u.pagesMove v) : t.pagesMove v :=
  ⟨h.holdings.trans h'.holdings, h'.pending.trans h.pending⟩

theorem Store.pagesMove.of_eq {t u : Store} (hr : u.running = t.running) (hi : u.image = t.image) (hc : u.cullets = t.cullets)
    (hl : u.lastPosts = t.lastPosts) (hp : u.pending = t.pending) : t.pagesMove u := ⟨⟨hr, by rw [hi], by rw [hc], by rw [hl]⟩, hp⟩

theorem foldl_pagesMove {α : Type} {f : Store → α → Store} (hf : ∀ (t : Store) (a : α), t.pagesMove (f t a)) (l : List α) (t : Store) :
    t.pagesMove (l.foldl f t) :=
  foldl_related Store.pagesMove.refl Store.pagesMove.trans hf l t

theorem Store.take_pagesMove (t : Store) (area : Nat) : t.pagesMove (t.take area) := by
  unfold Store.take
  split <;> exact ⟨⟨rfl, rfl, rfl, rfl⟩, rfl⟩

theorem Store.program_pagesMove (t : Store) (block kind extent index : Nat) (data : Bytes) :
    t.pagesMove (t.program block kind extent index data) := by
  unfold Store.program
  split <;> exact ⟨⟨rfl, rfl, rfl, rfl⟩, rfl⟩

theorem Store.giveBack_pagesMove (t : Store) (ids : List Nat) : t.pagesMove (t.giveBack ids) := ⟨⟨rfl, rfl, rfl, rfl⟩, rfl⟩

theorem Store.putExtent_pagesMove (t : Store) (area extent : Nat) (pages : List Bytes) :
    t.pagesMove (t.putExtent area extent pages).2 := by
  have taken (n : Nat) : t.pagesMove (t.takeBlocks area n).2 := foldl_pagesMove (fun t (_ : Nat) => t.take_pagesMove area) (List.range n) t
  have placed (u : Store) (place : Nat → Option Nat) : u.pagesMove (u.programExtent area extent place pages) :=
    foldl_pagesMove (fun t (x : Bytes × Nat) => t.program_pagesMove _ _ _ _ _) pages.zipIdx u
  unfold Store.putExtent
  dsimp only
  exact (taken _).trans (placed _ _)

theorem Store.journalPage_pagesMove (t : Store) (data : Bytes) : t.pagesMove (t.journalPage data) := by
  refine .trans ?_ (Store.program_pagesMove _ _ _ _ _ _)
  split
  · exact .refl t
  · exact t.take_pagesMove 2

theorem Store.writeCommit_pagesMove (t : Store) (recs : List Rec) : t.pagesMove (t.writeCommit recs) :=
  .trans (foldl_pagesMove Store.journalPage_pagesMove (packRecs (recs ++ [t.commitRec recs])) t) (.of_eq rfl rfl rfl rfl rfl)

theorem Store.writeAnchor_pagesMove (t : Store) : t.pagesMove t.writeAnchor := by
  unfold Store.writeAnchor
  dsimp only
  refine .trans (u := Store.program _ _ _ _ _ _) ?_ (.of_eq rfl rfl rfl rfl rfl)
  refine .trans ?_ (Store.program_pagesMove _ _ _ _ _ _)
  split
  · exact .refl t
  · exact .of_eq rfl rfl rfl rfl rfl

theorem Store.snapshot_pagesMove (t : Store) : t.pagesMove t.snapshot := by
  have put := t.putExtent_pagesMove 3 t.nextExtent (packRecs t.durable)
  unfold Store.snapshot
  dsimp only
  generalize (t.putExtent 3 t.nextExtent (packRecs t.durable)).2 = u at put ⊢
  have next : u.pagesMove { u with nextExtent := u.nextExtent + 1 } := .of_eq rfl rfl rfl rfl rfl
  have written := put.trans (next.trans (Store.writeCommit_pagesMove _ [⟨0xC, 0, leBytes 4 u.nextExtent ++ leBytes 4 0 ++
    leBytes 8 u.commitSeq⟩]))
  generalize Store.writeCommit _ _ = v at written ⊢
  refine .trans ?_ (Store.writeAnchor_pagesMove _)
  exact written.trans (.of_eq rfl rfl rfl rfl rfl)

theorem Store.relocate_pagesMove (t : Store) (id : Nat) : t.pagesMove (t.relocate id) := by
  unfold Store.relocate
  split
  next b n _ _ =>
    have moved := (t.take_pagesMove b.area).trans <| (Store.giveBack_pagesMove _ [id]).trans <|
      foldl_pagesMove (fun u (p : NPage) => u.program_pagesMove n p.kind p.extent p.index p.data) (t.nand.filter (fun p => p.block == id)) _
    obtain ⟨⟨hrun, himage, hcullets, hposts⟩, hpending⟩ := moved
    exact ⟨⟨hrun, by simpa [Function.comp_def] using himage, by simpa [Function.comp_def] using hcullets,
      by simpa [Function.comp_def] using hposts⟩, hpending⟩
  next => exact .refl t

theorem State.wearLevel_pagesMove (s : State) : s.store.pagesMove s.wearLevel.store := by
  unfold State.wearLevel
  dsimp only
  split
  · split
    · exact Store.relocate_pagesMove _ _
    · exact .refl _
  · exact .refl _

/-- A commit leaves nothing pending, and of what the store holds everything. -/
theorem State.commitWith_written {s : State} (h : s.store.condition ≠ 2) (extra : List Rec) :
    s.store.sameHoldings (s.commitWith extra).store ∧ (s.commitWith extra).store.pending = [] := by
  have written := (s.store.writeCommit_pagesMove (extra ++ s.countRecs ++ s.store.pending)).holdings
  have moved {u v : Store} (hu : s.store.sameHoldings u) (hnil : u.pending = []) (hv : u.pagesMove v) :
      s.store.sameHoldings v ∧ v.pending = [] := ⟨hu.trans hv.holdings, hv.pending.trans hnil⟩
  have emptied : s.store.sameHoldings { s.store.writeCommit (extra ++ s.countRecs ++ s.store.pending) with pending := [] } :=
    written.trans ⟨rfl, rfl, rfl, rfl⟩
  unfold State.commitWith
  rw [if_neg (by simpa using h)]
  dsimp only
  split
  · refine moved emptied rfl (.trans ?_ (State.wearLevel_pagesMove _))
    exact Store.snapshot_pagesMove _
  · refine moved emptied rfl ?_
    exact State.wearLevel_pagesMove (({ s with store := _ } : State).bump 0x5111 1 1)

theorem State.commitWith_sameHoldings (s : State) (extra : List Rec) : s.store.sameHoldings (s.commitWith extra).store := by
  by_cases h : s.store.condition = 2
  · rw [State.commitWith, if_pos (by simpa using h)]
    exact .refl _
  · exact (State.commitWith_written h extra).1

theorem State.commitIf_sameHoldings (s : State) (b : Bool) : s.store.sameHoldings (if b then s.commitWith [] else s).store := by
  split
  · exact s.commitWith_sameHoldings []
  · exact .refl _

theorem State.journal_sameHoldings (s : State) (must : Bool) (r : Rec) : s.store.sameHoldings (s.journal must r).store := by
  unfold State.journal
  by_cases hc : s.store.condition = 2
  · rw [if_pos (by simpa using hc)]
    exact .refl _
  · rw [if_neg (by simpa using hc)]
    refine .trans ?_ (State.commitIf_sameHoldings _ _)
    exact .trans (s.commitIf_sameHoldings _) (⟨rfl, rfl, rfl, rfl⟩)

theorem State.log_sameHoldings (s : State) (unit status severity part detail : Nat) :
    s.store.sameHoldings (s.log unit status severity part detail).store := by
  unfold State.log
  dsimp only
  split
  · rw [State.drew_keeps_store]
    exact .refl _
  · split
    · rw [State.bump_keeps_store, State.drew_keeps_store]
      exact .refl _
    · have journalled (t : State) (h : t.store = s.store) (must : Bool) (r : Rec) : s.store.sameHoldings (t.journal must r).store :=
        h ▸ t.journal_sameHoldings must r
      refine journalled _ ?_ _ _
      rfl

end Sys2Proof.Machine
end

section
/-! Challenges, identity, attestation and the security version (20 R526, R528, R532, R533, R538 to R544). -/

namespace Sys2Proof.Machine
open Sys2Proof

/-! ### Challenges (20 R526, R533) -/

theorem State.freeBytes_length (s : State) (i n : Nat) : (s.freeBytes i n).length = n := by
  induction n generalizing i with
  | zero => rfl
  | succ n ih => rw [State.freeBytes, List.length_cons, ih]

theorem State.noticeStep.office {s t : State} (h : s.noticeStep t) : t.office = s.office := by
  obtain ⟨_, _, _, _, _, rfl⟩ := h
  rfl

/-- Settles O37: a challenge is read, withheld or locked out by the engine's own flags. -/
theorem challengesAreFresh : Obligations.ChallengesAreFresh := by
  unfold Obligations.ChallengesAreFresh
  have noted (s : State) (b : Bool) (u : State) (hu : u = { s with sec := { s.sec with trngFail := b } }) :
      (u.watch 0).sec = { s.sec with trngFail := b } ∧ (u.watch 0).mem = s.mem ∧ (u.watch 0).office = s.office := by
    have quiet := u.watch_noticeStep 0
    rw [State.watch_sec, quiet.mem, quiet.office, hu]
    exact ⟨rfl, rfl, rfl⟩
  refine ⟨fun s hup => ⟨fun hlock => ?_, fun hlock htrng => ?_, fun hlock htrng => ?_⟩, fun s => rfl,
    fun s => ⟨_, rfl, noted s true _ rfl⟩, fun s => ⟨_, rfl, noted s false _ rfl⟩, fun s hseven => ?_⟩
  · show execChallenge s = _
    simp [execChallenge, hup, hlock]
  · show execChallenge s = _
    simp [execChallenge, hup, hlock, htrng]
  · refine ⟨{ s.drew with sec := { s.sec with challenge := some (s.freeBytes 0 32) } }, s.freeBytes 0 32, ?_, s.freeBytes_length 0 32,
      rfl, rfl, rfl⟩
    show execChallenge s = _
    simp only [execChallenge, hup, hlock, htrng, Bool.not_true, Bool.false_eq_true, if_false]
  · simp [State.refuseToken, hseven]

/-! ### Rotation (20 R541, R542) -/

/-- The identity that a rotation makes. -/
def State.nextIdentity (s : State) (old : Identity) : Identity := s.makeIdentity ((old.generation + 1) % 2 ^ 16)

/-- A key that the TRNG gives takes the place of the old one, which signs its record. -/
theorem State.rotated_eq {s : State} {d : Nat} {old : Identity} (hkey : s.usableKey = some d) (hold : s.sec.identity = some old)
    (hidle : s.sec.attState ≠ 1) (htrng : s.sec.trngFail = false) (hstore : s.store.condition ≠ 2) :
    ∃ u : State, s.rotated = (u, 0) ∧ u.sec.identity = some (s.nextIdentity old) ∧
      u.sec.rotations = newestOf 16 (s.sec.rotations ++
        [((s.nextIdentity old).generation, rotationRecord (s.nextIdentity old) d (s.freshKey 200))]) ∧
      u.count 0x5050 4 = (s.count 0x5050 4 + 1) % 2 ^ 64 := by
  unfold State.rotated
  simp only [hkey, hold, htrng, Bool.false_eq_true, if_false, beq_iff_eq, hidle, hstore]
  refine ⟨_, rfl, ?_, ?_, ?_⟩
  · simp [State.nextIdentity]
  · simp [State.nextIdentity]
  · have kept (u : State) (hu : u.tele = s.tele) (a b : Rec) :
        (((u.journal true a).journal true b).forceCommit).count 0x5050 4 = s.count 0x5050 4 :=
      ((State.sameCounts.of_tele hu).trans <| (u.journal_sameCounts true a).trans <| (State.journal_sameCounts _ true b).trans <|
        State.forceCommit_sameCounts _) 0x5050 4 (by decide) (by decide) (by decide)
    refine (State.count_bump_self _ _ _ _).trans ?_
    rw [kept]
    rfl

theorem exec_rotateIdentity {s : State} (hup : s.mailboxUp = true) :
    exec (.rotateIdentity 1) s = .next (s.answerWrite 0x5001 3 false s.rotated) :=
  congrArg Host.Outcome.next (s.trigger_up _ _ _ _ _ _ _ hup (le_refl 1) (le_refl 1))

theorem State.rotated_busy {s : State} {d : Nat} {old : Identity} (hkey : s.usableKey = some d) (hold : s.sec.identity = some old)
    (hbusy : s.sec.attState = 1) : s.rotated = (s, 0x02FC) := by
  simp [State.rotated, hkey, hold, hbusy]

/-! ### Attestation (20 R543, R544) -/

theorem exec_attestNonce {s : State} {nonce : Bytes} (hup : s.mailboxUp = true) (hlen : nonce.length = 32) :
    exec (.attestNonce nonce) s = .next (s.answerWrite 0x5002 1 false (applyNonce nonce s)) := by
  show execAttestNonce nonce s = _
  simp [execAttestNonce, hup, hlen]

/-- The report of a nonce: its head, the head's signature, and zeros. -/
theorem exec_attestReportReady {s : State} {x : Identity} {d : Nat} (hx : s.sec.identity = some x)
    (hd : s.sec.fuses.unwrapKey x = some d) (hatt : s.sec.attState = 1) (hphase : s.board.phase = .serving) :
    exec .attestReportReady s = .next (({ s with sec := { s.sec with
      attState := 2
      attReport := s.reportHead x ++ beBytes 66 (ecdsaSign d (s.reportHead x)).1 ++ beBytes 66 (ecdsaSign d (s.reportHead x)).2 ++
        leBytes 44 0 } } : State).bump 0x5050 3 1) := by
  have hkey : s.sec.identity.bind s.sec.fuses.unwrapKey = some d := by rw [hx, Option.bind_some, hd]
  have hready : (s.sec.attState != 1 || s.board.phase != .serving) = false := by simp [hatt, hphase]
  show execAttestReportReady s = _
  unfold execAttestReportReady
  rw [hkey, hx]
  dsimp only
  rw [if_neg (by simp [hready])]

theorem exec_provision_used {s : State} (hup : s.mailboxUp = true) (hlife : s.sec.fuses.lifecycle ≠ 0) :
    exec (.provision 1 true) s = .next (s.abort 0x5001 6 0x06090030 0x01FD) := by
  have hcode : s.provisioned true = (s, 0x01FD) := if_pos (by simpa using hlife)
  rw [exec_provision hup (by simp [hcode]), State.answerWrite_code _ _ _ _ hcode (by decide)]
  rfl

theorem exec_provisionScrap_used {s : State} (hup : s.mailboxUp = true) (hlife : s.sec.fuses.lifecycle ≠ 0) :
    exec (.provisionScrap 2 true) s = .next (s.abort 0x5001 6 0x06090030 0x01FD) := by
  have hexec : exec (.provisionScrap 2 true) s = .next (s.answerWrite 0x5001 6 false (s, 0x01FD)) := by
    show execProvisionScrap 2 true s = _
    unfold execProvisionScrap
    rw [if_neg (by simp [hup]), if_neg (by decide), if_pos (by simpa using hlife)]
  rw [hexec, State.answerWrite_code _ _ _ _ rfl (by decide)]
  rfl

/-- Settles O38: provisioning from Blank alone, rotation by its generation, and a nonce by its report. -/
theorem identityIsKept : Obligations.IdentityIsKept := by
  unfold Obligations.IdentityIsKept
  refine ⟨fun s hup => ⟨fun hlife => ⟨exec_provision_used hup hlife, exec_provisionScrap_used hup hlife⟩, fun hlife htrng => ?_,
    fun hlife => ⟨_, exec_provisionScrap_blank hup hlife, rfl, State.changeLife_lifecycle _ _, State.changeLife_scrapped _⟩⟩,
    fun s d old hup hkey hold => ⟨fun hbusy => ?_, fun hidle htrng hstore => ?_⟩,
    fun s nonce hup hlen => ⟨fun hkey => ?_, fun d hkey hidle => ?_⟩, fun s x d hx hd hatt hphase => ?_⟩
  · obtain ⟨u, hexec, hsec⟩ := exec_provision_blank hup hlife htrng
    exact ⟨u, hexec, by rw [hsec], by rw [hsec], by rw [hsec]⟩
  · rw [exec_rotateIdentity hup, State.answerWrite_code _ _ _ _ (State.rotated_busy hkey hold hbusy) (by decide)]
    rfl
  · obtain ⟨u, hu, hid, hrot, hcount⟩ := State.rotated_eq hkey hold hidle htrng hstore
    exact ⟨u, s.nextIdentity old, by rw [exec_rotateIdentity hup, hu], hid, rfl, hrot, hcount⟩
  · have hcode : applyNonce nonce s = (s, 0x05FF) := if_pos (by simp [hkey])
    rw [exec_attestNonce hup hlen, State.answerWrite_code _ _ _ _ hcode (by decide)]
    rfl
  · have happly : applyNonce nonce s = ({ s with sec := { s.sec with attState := 1, attNonce := nonce, attReport := [] } }, 0) := by
      simp [applyNonce, hkey, hidle]
    rw [exec_attestNonce hup hlen, happly]
  · exact exec_attestReportReady hx hd hatt hphase

/-! ### The security version (20 R528, R532) -/

theorem exec_raiseSecurityVersion {s : State} {ok : Bool} (hup : s.mailboxUp = true) (hok : (s.raiseVersion ok).2 ≠ 0x03FC) :
    exec (.raiseSecurityVersion 1 ok) s = .next (s.answerWrite 0x5000 8 false (s.raiseVersion ok)) := by
  have h : (s.mailboxUp && (1 : Nat) == 1 && (s.raiseVersion ok).2 == 0x03FC) = false := by simpa [hup] using hok
  show Host.Outcome.next _ = _
  simp only [h, Bool.false_eq_true, if_false]
  rw [State.trigger_up _ _ _ _ _ _ _ _ hup (by decide) (by decide)]

/-- A blow that fails is logged, and the write is then refused. -/
theorem exec_raiseSecurityVersion_failed {s : State} {ok : Bool} (hup : s.mailboxUp = true) (hok : (s.raiseVersion ok).2 = 0x03FC) :
    exec (.raiseSecurityVersion 1 ok) s = .next (s.blowFailed.trigger 0x5000 8 false 1 1 1 (fun s => s.raiseVersion ok)) := by
  have h : (s.mailboxUp && (1 : Nat) == 1 && (s.raiseVersion ok).2 == 0x03FC) = true := by simp [hup, hok]
  show Host.Outcome.next _ = _
  simp only [h, if_true]

theorem State.logStep.mailboxUp {s t : State} (h : s.logStep t) : t.mailboxUp = s.mailboxUp := by
  obtain ⟨_, _, _, _, rfl⟩ := h
  rfl

section
variable {s : State} {i : Image} (hi : s.store.image = some i)
include hi

theorem State.raiseVersion_lower (hlow : imgSecVer i.bytes < imgSecVer s.store.running) (ok : Bool) :
    s.raiseVersion ok = (s, 0x01FD) := by
  unfold State.raiseVersion
  simp [hi, hlow]

theorem State.raiseVersion_idle (hle : imgSecVer s.store.running ≤ imgSecVer i.bytes)
    (hnone : imgSecVer s.store.running ≤ s.sec.fuses.secVer) (ok : Bool) : s.raiseVersion ok = (s, 0) := by
  unfold State.raiseVersion
  simp [hi, Nat.not_lt.mpr hle, hnone]

theorem State.raiseVersion_blown (hle : imgSecVer s.store.running ≤ imgSecVer i.bytes)
    (hmore : s.sec.fuses.secVer < imgSecVer s.store.running) : s.raiseVersion true =
      ({ s with sec := { s.sec with fuses := { s.sec.fuses with secVer := imgSecVer s.store.running } } }, 0) := by
  unfold State.raiseVersion
  simp [hi, Nat.not_lt.mpr hle, Nat.not_le.mpr hmore]

theorem State.raiseVersion_failed (hle : imgSecVer s.store.running ≤ imgSecVer i.bytes)
    (hmore : s.sec.fuses.secVer < imgSecVer s.store.running) : s.raiseVersion false = (s, 0x03FC) := by
  unfold State.raiseVersion
  simp [hi, Nat.not_lt.mpr hle, Nat.not_le.mpr hmore]

/-- The log of a blow that failed leaves the images that the write is judged by. -/
theorem State.blowFailed_image : ∃ j, s.blowFailed.store.image = some j ∧ j.bytes = i.bytes ∧
    s.blowFailed.store.running = s.store.running := by
  obtain ⟨hrun, himage, -, -⟩ := s.log_sameHoldings (unitChip 0) 0x03FC 3 0xFF 0
  rw [hi] at himage
  obtain ⟨j, hj, hbytes⟩ := Option.map_eq_some_iff.mp himage
  exact ⟨j, hj, hbytes, hrun⟩

end

/-- Settles O39: the write's cases, and a failed blow by its log entry. -/
theorem securityVersionIsRaised : Obligations.SecurityVersionIsRaised := by
  unfold Obligations.SecurityVersionIsRaised
  intro s i ok hup hi now
  refine ⟨fun hlow => ?_, fun hle hnone => ?_, fun hle hmore => ⟨?_, s.blowFailed, ?_, State.blowFailed_sec s⟩⟩
  · have hcode := State.raiseVersion_lower hi hlow ok
    rw [exec_raiseSecurityVersion hup (by simp [hcode]), State.answerWrite_code _ _ _ _ hcode (by decide)]
    rfl
  · have hcode := State.raiseVersion_idle hi hle hnone ok
    rw [exec_raiseSecurityVersion hup (by simp [hcode]), hcode]
  · have hcode := State.raiseVersion_blown hi hle hmore
    rw [exec_raiseSecurityVersion hup (by simp [hcode]), hcode]
  · obtain ⟨j, hj, hbytes, hrun⟩ := State.blowFailed_image hi
    have hup' : s.blowFailed.mailboxUp = true := (s.log_logStep _ _ _ _ _).mailboxUp.trans hup
    have hcode : s.blowFailed.raiseVersion false = (s.blowFailed, 0x03FC) := by
      refine State.raiseVersion_failed hj ?_ ?_
      · rw [hrun, hbytes]
        exact hle
      · rw [hrun, State.blowFailed_sec]
        exact hmore
    rw [exec_raiseSecurityVersion_failed hup (by rw [State.raiseVersion_failed hi hle hmore]),
      State.trigger_up _ _ _ _ _ _ _ _ hup' (by decide) (by decide), State.answerWrite_code _ _ _ _ hcode (by decide)]
    rfl

end Sys2Proof.Machine
end

section
/-! How the dictionary and the file service answer (17 R435, R444 to R447, R456, R457). -/

namespace Sys2Proof.Machine
open Sys2Proof

@[simp] theorem State.placeSm1_count (s : State) (m : Bytes) (idx sub : Nat) : (s.placeSm1 m).count idx sub = s.count idx sub := rfl

@[simp] theorem State.post_count (s : State) (unit event status detail idx sub : Nat) :
    (s.post unit event status detail).count idx sub = s.count idx sub := rfl

/-- The answer leaves everything but the mailbox, the counters, the faults' records and the drawn entropy (17 R435). -/
theorem State.answerWrite_answeredFrom (s u : State) (idx sub : Nat) (commit : Bool) :
    u.answeredFrom (s.answerWrite idx sub commit (u, 0)) := by
  simp only [State.answeredFrom]
  refine ⟨?_, ?_, ?_, ?_, ?_, ?_, ?_, ?_, ?_, ?_, ?_, ?_, ?_⟩ <;> rfl

theorem State.abort_answeredFrom (s : State) (idx sub code detail : Nat) : s.answeredFrom (s.abort idx sub code detail) := by
  simp only [State.answeredFrom]
  refine ⟨?_, ?_, ?_, ?_, ?_, ?_, ?_, ?_, ?_, ?_, ?_, ?_, ?_⟩ <;> rfl

theorem State.answerWrite_done_count (s u : State) (idx sub : Nat) (commit : Bool) :
    (s.answerWrite idx sub commit (u, 0)).count 0x3250 1 = (u.count 0x3250 1 + 1) % 2 ^ 64 := by
  show (((u.post (unitChip 4) 9 0 (dkey idx sub)).bump 0x3250 1 1).placeSm1 _).count 0x3250 1 = _
  rw [State.placeSm1_count, State.count_bump_self, State.post_count]

theorem State.abort_count (s : State) (idx sub code detail : Nat) :
    (s.abort idx sub code detail).count 0x3250 2 = (s.count 0x3250 2 + 1) % 2 ^ 64 := by
  unfold State.abort
  rw [State.placeSm1_count, State.count_bump_self, State.count_bump_other _ _ _ _ _ _ (by decide)]
  rfl

/-- Settles O26: success by the parts of the answer, a refusal by those of the abort. -/
theorem writesAreAnswered : Obligations.WritesAreAnswered := by
  unfold Obligations.WritesAreAnswered
  intro s u idx sub commit
  refine ⟨⟨rfl, State.answerWrite_done_count s u idx sub commit, State.answerWrite_answeredFrom s u idx sub commit⟩, fun detail hne => ?_⟩
  dsimp only
  rw [State.answerWrite_refused s u idx sub commit detail hne]
  exact ⟨rfl, rfl, rfl, State.abort_count .., State.abort_answeredFrom ..⟩

/-! ### Ranges -/

/-- A write that triggers an action keeps its range: nothing while the mailbox is not served, 0x01F0 for a value outside (17 R450). -/
theorem State.trigger_keepsRange (s : State) (idx sub : Nat) (commit : Bool) (lo hi v : Nat) (f : State → Applied) :
    (s.mailboxUp = false → Host.Outcome.next (s.trigger idx sub commit lo hi v f) = (Host.Outcome.next s : Out)) ∧
      (s.mailboxUp = true → (v < lo ∨ hi < v) →
        Host.Outcome.next (s.trigger idx sub commit lo hi v f) = (Host.Outcome.next (s.abort idx sub 0x06090030 0x01F0) : Out)) := by
  refine ⟨fun h => congrArg _ (s.trigger_down idx sub commit lo hi v f h), fun h hv => ?_⟩
  rw [s.trigger_range idx sub commit lo hi v f h hv, s.answerWrite_refused s idx sub commit _ (by decide)]
  cases commit <;> rfl

/-- Settles O27: each row of the list is a trigger with the row's entry and range. -/
theorem rangesAreKept : Obligations.RangesAreKept := by
  unfold Obligations.RangesAreKept
  simp only [triggerRows, List.forall_mem_cons, List.not_mem_nil, false_implies, implies_true, and_true]
  refine ⟨?_, ?_, ?_, ?_, ?_, ?_, ?_, ?_, ?_, ?_, ?_, ?_, ?_, ?_, ?_⟩ <;> exact fun s v => s.trigger_keepsRange _ _ _ _ _ v _

/-! ### Files (17 R444, R445, 18 R484) -/

theorem State.noticeStep.board {s t : State} (h : s.noticeStep t) : t.board = s.board := by
  obtain ⟨_, _, _, _, _, rfl⟩ := h
  rfl

theorem State.serving_of_mailboxUp {s : State} (h : s.mailboxUp = true) : s.board.phase = .serving := by
  simp only [State.mailboxUp, Bool.and_eq_true, beq_iff_eq] at h
  exact h.1

/-- Messages placed in SM1 one after another. -/
theorem foldl_placeSm1 (l : List Bytes) (s : State) :
    (l.foldl (fun s m => s.placeSm1 m) s).ecat.sm1 = s.ecat.sm1 ++ l ∧ (l.foldl (fun s m => s.placeSm1 m) s).tele = s.tele ∧
      (l.foldl (fun s m => s.placeSm1 m) s).store = s.store := by
  induction l generalizing s with
  | nil => exact ⟨by simp, rfl, rfl⟩
  | cons m l ih =>
    obtain ⟨hsm, htele, hstore⟩ := ih (s.placeSm1 m)
    exact ⟨by rw [List.foldl_cons, hsm, State.placeSm1_sm1, List.append_assoc, List.singleton_append], htele, hstore⟩

theorem State.noticeStep.withStore {s t : State} (h : s.noticeStep t) (st : Store) : s.noticeStep { t with store := st } := by
  obtain ⟨_, _, _, _, _, rfl⟩ := h
  exact ⟨_, _, _, _, _, rfl⟩

theorem State.bump_noticeStep (s : State) (i j n : Nat) : s.noticeStep (s.bump i j n) := ⟨_, _, _, _, _, rfl⟩

theorem State.placeSm1_noticeStep (s : State) (m : Bytes) : s.noticeStep (s.placeSm1 m) := ⟨_, _, _, _, _, rfl⟩

theorem State.growBad_noticeStep (s : State) (ids : List Nat) : s.noticeStep (s.growBad ids) := by
  unfold State.growBad
  refine .trans ?_ (State.watch_noticeStep _ 0)
  refine .trans ?_ (foldl_noticeStep (f := fun t n => t.journal true ⟨9, n, []⟩) (fun t n => (t.journal_logStep true ⟨9, n, []⟩).notice) ids _)
  exact State.noticeStep.withStore (.refl s) _

theorem State.placeImage_noticeStep (b : Bytes) (fuel tries : Nat) (s : State) : s.noticeStep (s.placeImage b fuel tries).1 := by
  induction fuel generalizing s tries with
  | zero => exact .refl s
  | succ fuel ih =>
    unfold State.placeImage
    dsimp only
    split
    · refine .trans (.trans ?_ (State.growBad_noticeStep _ _)) (ih _ _)
      exact State.noticeStep.withStore (.refl s) _
    · have committed (u : State) (h : s.noticeStep u) (r : Rec) : s.noticeStep (u.journal true r).forceCommit :=
        h.trans ((State.journal_logStep _ _ _).trans (State.forceCommit_logStep _)).notice
      exact .trans (.withStore (committed _ (State.noticeStep.withStore (.refl s) _) _) _) (State.watch_noticeStep _ 0)

/-- Without a read-back that fails, an image is placed at the first try. -/
theorem State.placeImage_placed (b : Bytes) (fuel : Nat) (s : State) : (s.placeImage b (fuel + 1) 0).2 = 0 := by
  rw [State.placeImage]
  rfl

/-- A machine that serves takes an image beside its work: a read-back that fails twice is told, else the image waits (18 R484). -/
theorem State.takeImage_serving {s : State} (hs : s.board.phase = .serving) (b : Bytes) (tries : Nat) :
    s.noticeStep (s.takeImage b tries) ∧ (tries = 0 → (s.takeImage b tries).store.pendingImage = some b) := by
  unfold State.takeImage
  dsimp only
  have counted (w : Nat × Nat × Nat) : s.noticeStep { s with store := { s.store with windowCounts := w } } := .withStore (.refl s) _
  have placed (w : Nat × Nat × Nat) := (counted w).trans (State.placeImage_noticeStep b 2 tries _)
  have first (w : Nat × Nat × Nat) (h : tries = 0) : ({ s with store := { s.store with windowCounts := w } }.placeImage b 2 tries).2 = 0 := by
    rw [h, State.placeImage_placed]
  generalize (s.store.windowCounts.1, s.store.windowCounts.2.1, s.store.windowCounts.2.2 + 1) = w
  specialize placed w
  specialize first w
  generalize State.placeImage _ b 2 tries = r at placed first ⊢
  have stands : ((r.1.bump 0x3250 5 b.length).placeSm1 (foeMailbox 4 (b.length / 1012 + 1) [])).board.phase ≠ .bootstrap := by
    rw [State.placeSm1_keeps_board, State.bump_keeps_board, placed.board, hs]
    decide
  split
  next h => exact ⟨(placed.trans (State.bump_noticeStep _ _ _ _)).trans (State.placeSm1_noticeStep _ _), fun h0 => absurd (first h0) (by simpa using h)⟩
  next h =>
    rw [if_neg (by simpa using stands)]
    exact ⟨.withStore ((placed.trans (State.bump_noticeStep _ _ _ _)).trans (State.placeSm1_noticeStep _ _)) _, fun _ => rfl⟩

/-- Settles O44: the checks in the order of R444 and R484; a file's packets are placed one after another. -/
theorem filesAreServed : Obligations.FilesAreServed := by
  unfold Obligations.FilesAreServed
  refine ⟨fun s pw name hup => ⟨fun hpw => ?_, fun hname hfile => ?_, fun b hname hfile => ?_⟩,
    fun s pw rb image hup => ⟨fun hpw => ?_, fun hbad => ?_, fun hok => ?_⟩⟩
  · simp [exec, execFoeRead, hup, hpw]
  · have hs := State.serving_of_mailboxUp hup
    simp [exec, execFoeRead, hup, hname, hfile, hs]
  · have hs := State.serving_of_mailboxUp hup
    obtain ⟨hsm, htele, hstore⟩ := foldl_placeSm1 (foePackets b) s
    refine ⟨((foePackets b).foldl (fun (s : State) m => s.placeSm1 m) s).bump 0x3250 5 b.length, by simp [exec, execFoeRead, hup, hname, hfile, hs],
      hsm, ?_, hstore⟩
    rw [State.count_bump_self, State.count, htele, State.count]
  · simp [exec, execFoeWriteFirmware, hup, hpw]
  · simp [exec, execFoeWriteFirmware, hup, hbad]
  · obtain ⟨hstep, hpending⟩ := State.takeImage_serving (State.serving_of_mailboxUp hup) image rb
    exact ⟨_, by simp [exec, execFoeWriteFirmware, hup, hok], rfl, hstep.office, hstep.mem, hpending⟩

end Sys2Proof.Machine
end

section
/-! What is told of an event (19 R506 to R514): the logs, rings, latched bits and announcements, and nothing of the machine's work. -/

namespace Sys2Proof.Machine
open Sys2Proof

/-- The fault records but for the logs, the rings and the bits of FaultSummary, of which none that is latched clears. -/
def Faults.told (f g : Faults) : Prop := (∃ latched levels log logNext memLog rings,
  g = { f with latched := latched, levels := levels, log := log, logNext := logNext, memLog := memLog, rings := rings }) ∧
    ∀ i, bit f.latched i = true → bit g.latched i = true

theorem Faults.told.refl (f : Faults) : f.told f := ⟨⟨_, _, _, _, _, _, rfl⟩, fun _ h => h⟩

theorem Faults.told.trans {f g h : Faults} (hg : f.told g) (hh : g.told h) : f.told h := by
  obtain ⟨⟨_, _, _, _, _, _, rfl⟩, hl⟩ := hg
  obtain ⟨⟨_, _, _, _, _, _, rfl⟩, hl'⟩ := hh
  exact ⟨⟨_, _, _, _, _, _, rfl⟩, fun i h => hl' i (hl i h)⟩

/-- The logs, the rings and the level bits are told. -/
theorem Faults.told_logs (f : Faults) (levels : Nat) (log : List LogEntry) (logNext : Nat) (memLog : List LogEntry)
    (rings : List (List PostEvent)) :
    f.told { f with levels := levels, log := log, logNext := logNext, memLog := memLog, rings := rings } :=
  ⟨⟨_, _, _, _, _, _, rfl⟩, fun _ h => h⟩

theorem Faults.told.of_eq {f g : Faults} (h : g = f) : f.told g := h ▸ .refl f

/-- A step that only tells of something: the log, the store, the mailbox and their counters move, and nothing else. -/
structure State.tells (s t : State) : Prop where
  step : s.noticeStep t
  counts : s.sameCounts t
  faults : s.faults.told t.faults

theorem State.tells.refl (s : State) : s.tells s := ⟨.refl s, .refl s, .refl _⟩

theorem State.tells.trans {s t u : State} (h : s.tells t) (h' : t.tells u) : s.tells u :=
  ⟨h.step.trans h'.step, h.counts.trans h'.counts, h.faults.trans h'.faults⟩

theorem State.commitWith_tells (s : State) (extra : List Rec) : s.tells (s.commitWith extra) :=
  ⟨(s.commitWith_logStep extra).notice, s.commitWith_sameCounts extra, .of_eq (s.commitWith_faults extra)⟩

theorem State.commit_tells (s : State) : s.tells s.commit := by
  unfold State.commit
  split
  · exact .refl s
  · exact s.commitWith_tells []

theorem State.journal_tells (s : State) (must : Bool) (r : Rec) : s.tells (s.journal must r) :=
  ⟨(s.journal_logStep must r).notice, s.journal_sameCounts must r, .of_eq (s.journal_faults must r)⟩

theorem State.forceCommit_faults (s : State) : s.forceCommit.faults = s.faults := by
  unfold State.forceCommit
  split
  · rfl
  · rw [State.commitWith_faults, State.bump_keeps_faults]

theorem State.forceCommit_tells (s : State) : s.tells s.forceCommit :=
  ⟨s.forceCommit_logStep.notice, s.forceCommit_sameCounts, .of_eq s.forceCommit_faults⟩

theorem State.post_tells (s : State) (unit event status detail : Nat) : s.tells (s.post unit event status detail) :=
  ⟨(s.post_logStep unit event status detail).notice, .of_tele rfl, Faults.told_logs _ _ _ _ _ _⟩

theorem State.drew_tells (s : State) : s.tells s.drew := ⟨⟨_, _, _, _, _, rfl⟩, .of_tele rfl, .refl _⟩

/-- The bookkeeping of the store and of the mailbox is counted (17 R438, 18 R470). -/
theorem State.bump_tells {i j : Nat} (hi : i = 0x5111 ∨ i = 0x3250) (hj : j < 256) (s : State) (n : Nat) : s.tells (s.bump i j n) :=
  ⟨s.bump_noticeStep i j n, State.bump_sameCounts hi hj s n, .refl _⟩

/-- What is written into the logs and bits alone is told. -/
theorem State.withFaults_tells (s : State) {f : Faults} (h : s.faults.told f) : s.tells { s with faults := f } :=
  ⟨⟨_, _, _, _, _, rfl⟩, .of_tele rfl, h⟩

theorem State.log_tells (s : State) (unit status severity part detail : Nat) : s.tells (s.log unit status severity part detail) := by
  unfold State.log
  dsimp only
  split
  · exact s.drew_tells
  · split
    · refine (s.drew_tells).trans ?_
      exact .trans (State.withFaults_tells _ (Faults.told_logs _ _ _ _ _ _)) (State.bump_tells (.inl rfl) (by decide) _ 1)
    · refine (s.drew_tells).trans (.trans ?_ (State.journal_tells _ _ _))
      exact State.withFaults_tells _ (Faults.told_logs _ _ _ _ _ _)

theorem State.flushEmergency_tells (s : State) : s.tells s.flushEmergency := by
  unfold State.flushEmergency
  split
  · split
    · exact .refl s
    · refine .trans ?_ (State.bump_tells (.inr rfl) (by decide) _ 1)
      exact ⟨⟨_, _, _, _, _, rfl⟩, .of_tele rfl, .refl _⟩
  · exact .refl s

theorem State.emergency_tells (s : State) (bitNo status : Nat) : s.tells (s.emergency bitNo status) := by
  unfold State.emergency
  split
  · dsimp only
    split
    · refine .trans ?_ (State.flushEmergency_tells _)
      exact ⟨⟨_, _, _, _, _, rfl⟩, .of_tele rfl, .refl _⟩
    · exact State.bump_tells (.inr rfl) (by decide) s 1
  · exact .refl s

theorem State.raise_tells (s : State) (bitNo status : Nat) : s.tells (s.raise bitNo status) := by
  unfold State.raise
  split
  · exact .refl s
  · refine .trans (State.withFaults_tells s ?_) (State.emergency_tells _ _ _)
    exact ⟨⟨_, _, _, _, _, _, rfl⟩, fun i h => bit_setBit_true _ _ _ h⟩

theorem State.watch_tells (s : State) (status : Nat) : s.tells (s.watch status) := by
  unfold State.watch
  refine .trans (State.withFaults_tells s (Faults.told_logs _ _ _ _ _ _)) (foldl_related State.tells.refl State.tells.trans (fun s i => ?_) _ _)
  split
  · exact State.emergency_tells _ _ _
  · exact .refl s

/-! ### A partition that is reset (19 R500) -/

/-- Partition `p` stops and discards the tasks of its contexts that are not Suspended. -/
def State.partHalted (s : State) (p cause : Nat) : State :=
  let live := (s.office.ctxs.filter (fun x => x.partition == p && x.state != .suspended)).map (fun x => x.number)
  { s with
    office := { s.office with
      stopped := insertNat p s.office.stopped
      tasks := s.office.tasks.filter (fun t => !live.contains t.ctx) }
    faults := { s.faults with
      postmarks := modifyAt (fun n => (n + 1) % 1024) p s.faults.postmarks
      annealing := insertNat p s.faults.annealing
      lastCause := cause } }

theorem State.resetPart_tells {s : State} {p : Nat} (hp : s.partExists p = true) (hs : s.office.stopped.contains p = false) (cause : Nat) :
    ((s.partHalted p cause).bump 0x4003 3 1).tells (s.resetPart p cause) := by
  unfold State.resetPart
  rw [if_neg (by rw [hp, hs]; decide)]
  exact .trans (.trans (State.raise_tells _ _ _) (State.post_tells _ _ _ _ _)) (State.log_tells _ _ _ _ _ _)

/-- Settles O35: the request is answered, and each reset is the one that its value names. -/
theorem resetsAreRequested : Obligations.ResetsAreRequested := by
  unfold Obligations.ResetsAreRequested
  intro s hup answered
  have asked {v : Nat} (h : s.resetLegal v = true) : s.writeReset v =
      if v == 0x20 then answered.chipReset 0 (unitCore 0) false false false
      else if v == 0x21 then answered.chipReset 0 (unitCore 0) false true false
      else if v == 0x30 then answered.powerCycle 0
      else answered.resetPart (v - 0x10) 0 := by
    unfold State.writeReset
    rw [if_neg (by simp [hup]), if_neg (by simp [h])]
  have own : ∀ w, w = 0x20 ∨ w = 0x21 ∨ w = 0x30 → s.resetLegal w = true := by
    rintro w (rfl | rfl | rfl) <;> simp [State.resetLegal]
  refine ⟨fun p hp hex => ⟨?_, fun hst => ?_⟩, ?_, ?_, ⟨answered.powerCycle 0, ?_, rfl, rfl, rfl⟩, fun v hv hbad => ?_⟩
  · have legal : s.resetLegal (0x10 + p) = true := by
      have low : decide (0x10 ≤ 0x10 + p) = true := by simp
      have high : decide (0x10 + p ≤ 0x13) = true := by rw [decide_eq_true_eq]; omega
      rw [State.resetLegal, low, high, Nat.add_sub_cancel_left, hex]
      rfl
    have away (w : Nat) (hw : 0x20 ≤ w) : ¬ (0x10 + p == w) = true := by rw [beq_iff_eq]; omega
    show Host.Outcome.next (if _ then _ else _) = _
    rw [if_neg (by simp only [Bool.or_eq_true, not_or]; exact ⟨⟨away _ (by decide), away _ (by decide)⟩, away _ (by decide)⟩), asked legal,
      if_neg (away _ (by decide)), if_neg (away _ (by decide)), if_neg (away _ (by decide)), Nat.add_sub_cancel_left]
  · exact congrArg Office.stopped (State.resetPart_tells (s := answered) hex hst 0).step.office
  · have row : exec (.resetChip 0x20) s = .next (s.writeReset 0x20) := rfl
    rw [row, asked (own _ (by decide)), if_pos (by decide)]
  · have row : exec (.resetChipCullet 0x21) s = .next (s.writeReset 0x21) := rfl
    rw [row, asked (own _ (by decide)), if_neg (by decide), if_pos (by decide)]
  · have row : exec (.resetPowerCycle 0x30) s = .next (s.writeReset 0x30) := rfl
    rw [row, asked (own _ (by decide)), if_neg (by decide), if_neg (by decide), if_pos (by decide)]
  · have away (w : Nat) (hw : s.resetLegal w = true) : ¬ (v == w) = true := by
      rw [beq_iff_eq]
      rintro rfl
      exact absurd (hbad.symm.trans hw) (by decide)
    show Host.Outcome.next (if _ then _ else s.writeReset v) = _
    unfold State.writeReset
    rw [if_neg (by simp only [Bool.or_eq_true, not_or]; exact ⟨⟨away _ (own _ (by decide)), away _ (own _ (by decide))⟩, away _ (own _ (by decide))⟩),
      if_neg (by simp [hup]), if_pos (by simp [hbad]), State.answerWrite_refused _ _ _ _ _ _ (by decide)]
    rfl

end Sys2Proof.Machine
end

section
/-! The store's commands and upkeep (17 R449, 18 R462 to R485, 19 R514) and the fence pair (19 R517, R518). -/

namespace Sys2Proof.Machine
open Sys2Proof

/-! ### Bits that are cleared -/

theorem bit_succ (v i : Nat) : bit v (i + 1) = bit (v / 2) i := by
  rw [bit, bit, Nat.pow_succ', ← Nat.div_div_eq_div_mul]

theorem and_mod_two (x y : Nat) : (x &&& y) % 2 = x % 2 * (y % 2) := by
  have h := Nat.testBit_and x y 0
  simp only [Nat.testBit_zero] at h
  rcases Nat.mod_two_eq_zero_or_one x with hx | hx <;> rcases Nat.mod_two_eq_zero_or_one y with hy | hy <;>
    rcases Nat.mod_two_eq_zero_or_one (x &&& y) with hxy | hxy <;> simp [hx, hy, hxy] at h ⊢

/-- Taking away the bits that a mask names leaves the others (19 R514). -/
theorem bit_sub_and (x y i : Nat) : bit (x - (x &&& y)) i = (bit x i && !bit y i) := by
  induction i generalizing x y with
  | zero =>
    have low := and_mod_two x y
    have hle := Nat.and_le_left (n := x) (m := y)
    simp only [bit, Nat.pow_zero, Nat.div_one]
    rcases Nat.mod_two_eq_zero_or_one x with hx | hx <;> rcases Nat.mod_two_eq_zero_or_one y with hy | hy <;>
      rw [hx, hy] at low <;> simp [hx, hy] <;> omega
  | succ i ih =>
    have half : (x - (x &&& y)) / 2 = x / 2 - (x / 2 &&& y / 2) := by
      have low := and_mod_two x y
      have hle := Nat.and_le_left (n := x) (m := y)
      rw [← Nat.and_div_two]
      rcases Nat.mod_two_eq_zero_or_one x with hx | hx <;> rcases Nat.mod_two_eq_zero_or_one y with hy | hy <;>
        rw [hx, hy] at low <;> omega
    rw [bit_succ, bit_succ, bit_succ, half, ih]

/-! ### Commands of the store -/

theorem State.tells.dict {s t : State} (h : s.tells t) : t.dict = s.dict := by
  obtain ⟨_, _, _, _, _, rfl⟩ := h.step
  rfl

theorem State.condition_of_keepRefused {s : State} (h : s.keepRefused = 0) : s.store.condition ≠ 2 := by
  intro hc
  simp [State.keepRefused, hc] at h

theorem State.forceCommit_storePending {s : State} (h : s.store.condition ≠ 2) : s.forceCommit.store.pending = [] := by
  rw [State.forceCommit, if_neg (by simpa using h)]
  exact (State.commitWith_written (s := s.bump 0x5111 2 1) h []).2

theorem State.commit_storePending {s : State} (h : s.store.condition ≠ 2) : s.commit.store.pending = [] := by
  unfold State.commit
  split
  next hidle =>
    simp only [Bool.and_eq_true, beq_iff_eq] at hidle
    exact hidle.1
  next => exact (State.commitWith_written h []).2

/-- The placed image runs, after everything that waits is committed (18 R485). -/
def State.activated (s : State) (b : Bytes) : State :=
  { s.commit with store := { s.commit.store with running := b, pendingImage := none } }

theorem applyActivate_none {s : State} (h : s.store.pendingImage = none) : applyActivate s = (s, 0x01F5) := by
  unfold applyActivate
  rw [h]

theorem applyActivate_foreign {s : State} {b : Bytes} (h : s.store.pendingImage = some b)
    (hf : ¬(imgLiveFrom b ≤ imgState s.store.running ∧ imgState s.store.running ≤ imgState b)) : applyActivate s = (s, 0x01F6) := by
  unfold applyActivate
  rw [h]
  exact if_pos (by simp only [Bool.not_eq_true', Bool.and_eq_false_iff, decide_eq_false_iff_not]; omega)

theorem applyActivate_agrees {s : State} {b : Bytes} (h : s.store.pendingImage = some b)
    (hlo : imgLiveFrom b ≤ imgState s.store.running) (hhi : imgState s.store.running ≤ imgState b) :
    applyActivate s = (s.activated b, 0) := by
  unfold applyActivate
  rw [h]
  exact if_neg (by simp [hlo, hhi])

theorem exec_activateFirmware {s : State} (hup : s.mailboxUp = true) :
    exec (.activateFirmware 1) s = .next (s.answerWrite 0x5100 1 false (applyActivate s)) :=
  congrArg Host.Outcome.next (s.trigger_up _ _ _ _ _ _ _ hup (by decide) (by decide))

/-- Settles O32: everything that waits is committed, the placed image runs, and the mask's bits go. -/
theorem commandsOfKeeping : Obligations.CommandsOfKeeping := by
  unfold Obligations.CommandsOfKeeping
  intro s hup
  refine ⟨fun hkeep => ⟨s.forceCommit, ?_, State.forceCommit_storePending (State.condition_of_keepRefused hkeep),
      s.forceCommit_tells.step.mem, s.forceCommit_tells.step.office, s.forceCommit_tells.dict⟩,
    fun hnone => ?_, fun b hb => ⟨fun hf => ?_, fun hlo hhi => ⟨s.activated b, ?_, rfl, rfl, ?_⟩⟩,
    fun v hv => ⟨(applyFaultClear v s).1, ?_, fun i => bit_sub_and _ _ i, rfl, rfl⟩⟩
  · have applied : applyStoreAll 0x65766173 s = (s.forceCommit, 0) := by
      unfold applyStoreAll
      rw [if_neg (by decide), if_neg (by simp [hkeep])]
    rw [exec_storeAll hup (by decide), applied]
  · rw [exec_activateFirmware hup, State.answerWrite_code _ _ _ _ (applyActivate_none hnone) (by decide)]
    rfl
  · rw [exec_activateFirmware hup, State.answerWrite_code _ _ _ _ (applyActivate_foreign hb hf) (by decide)]
    rfl
  · rw [exec_activateFirmware hup, applyActivate_agrees hb hlo hhi]
  · obtain ⟨_, _, _, _, _, h⟩ := s.commit_tells.step
    unfold State.activated
    rw [h]
    exact ⟨rfl, rfl, rfl, rfl, rfl⟩
  · exact congrArg Host.Outcome.next (s.trigger_up _ _ _ _ _ _ _ hup (Nat.zero_le v) (by omega))

/-! ### The fence pair -/

/-- A unit's fence record is put, before anything is said of it (19 R519). -/
def State.fenceNoted (s : State) (unit state origin cause : Nat) : State :=
  { s.drew with faults := { s.faults with
    fences := s.faults.fences.filter (fun x => x.unit != unit) ++ [⟨unit, state, origin, cause, s.cycle, s.tod⟩] } }

theorem State.putFence_tells (s : State) (unit state origin cause : Nat) :
    (s.fenceNoted unit state origin cause).tells (s.putFence unit state origin cause) := by
  unfold State.putFence
  refine .trans ?_ (State.watch_tells _ _)
  refine .trans ?_ (State.log_tells _ _ _ _ _ _)
  refine .trans ?_ (State.post_tells _ _ _ _ _)
  exact .trans (State.journal_tells _ _ _) (State.forceCommit_tells _)

theorem State.tells.fenceOf {s t : State} (h : s.tells t) (unit : Nat) : t.fenceOf unit = s.fenceOf unit := by
  obtain ⟨⟨_, _, _, _, _, _, hf⟩, -⟩ := h.faults
  rw [State.fenceOf, State.fenceOf, hf]

theorem State.fenceNoted_fenceOf_self (s : State) (unit state origin cause : Nat) :
    (s.fenceNoted unit state origin cause).fenceOf unit = some ⟨unit, state, origin, cause, s.cycle, s.tod⟩ := by
  have gone : (s.faults.fences.filter (fun x => x.unit != unit)).find? (fun x => x.unit == unit) = none := by simp
  rw [State.fenceOf, State.fenceNoted, List.find?_append, gone]
  simp

theorem State.putFence_fenceOf_self (s : State) (unit state origin cause : Nat) :
    (s.putFence unit state origin cause).fenceOf unit = some ⟨unit, state, origin, cause, s.cycle, s.tod⟩ := by
  rw [(s.putFence_tells unit state origin cause).fenceOf, State.fenceNoted_fenceOf_self]

theorem State.putFence_isFenced (s : State) (unit : Nat) {state : Nat} (h : state ≠ 2) (origin cause : Nat) :
    (s.putFence unit state origin cause).isFenced unit = true := by
  rw [State.isFenced, State.putFence_fenceOf_self]
  simpa using h

theorem State.fenceNow_engine {s : State} {unit : Nat} (h : unit / 4096 = 4) (hf : s.isFenced unit = false) (origin cause : Nat) :
    s.fenceNow unit origin cause = s.putFence unit 1 origin cause := by
  unfold State.fenceNow
  rw [hf, h]
  rfl

/-- The pair as it is read. -/
def State.pairRead (s : State) : State := (s.dset 0x4010 1 (s.staging 0x4010 1)).dset 0x4010 2 (s.staging 0x4010 2)

section
variable {s : State}

theorem applyFence_illegal (h : fenceable (s.staging 0x4010 1) = false ∨ (s.staging 0x4010 2 ≠ 1 ∧ s.staging 0x4010 2 ≠ 2)) :
    applyFence s = (s, 0x01F8) := by
  unfold applyFence
  exact if_pos (by simpa using h)

theorem applyFence_last (hact : s.staging 0x4010 2 = 1) (hunit : fenceable (s.staging 0x4010 1) = true)
    (hf : s.isFenced (s.staging 0x4010 1) = false) (hlast : s.lastChannel (s.staging 0x4010 1) = true) :
    applyFence s = (s, 0x02F8) := by
  unfold applyFence
  dsimp only
  rw [if_neg (by simp [hact, hunit]), if_pos (by simp [hact, hf, hlast])]

theorem applyFence_fences (hact : s.staging 0x4010 2 = 1) (hunit : fenceable (s.staging 0x4010 1) = true) (hkeep : s.keepRefused = 0)
    (h : s.isFenced (s.staging 0x4010 1) = true ∨ s.lastChannel (s.staging 0x4010 1) = false) :
    applyFence s = (s.pairRead.fenceNow (s.staging 0x4010 1) 1 0, 0) := by
  unfold applyFence
  dsimp only
  rw [if_neg (by simp [hact, hunit]), if_neg (by rcases h with h | h <;> simp [h]), if_neg (by simp [hkeep]), if_pos (by simp [hact])]
  rfl

theorem applyFence_clears (hact : s.staging 0x4010 2 = 2) (hunit : fenceable (s.staging 0x4010 1) = true) (hkeep : s.keepRefused = 0) :
    applyFence s = match s.fenceOf (s.staging 0x4010 1) with
      | some f => if f.state == 1 then (s.pairRead.putFence (s.staging 0x4010 1) 3 1 0, 0) else (s.pairRead, 0)
      | none => (s.pairRead, 0) := by
  unfold applyFence
  dsimp only
  rw [if_neg (by simp [hact, hunit]), if_neg (by simp [hact]), if_neg (by simp [hkeep]), if_neg (by simp [hact])] <;> rfl

theorem exec_fenceUnit (hup : s.mailboxUp = true) (hact : s.staging 0x4010 2 ≠ 2) :
    exec (.fenceUnit 1) s = .next (s.answerWrite 0x4010 3 true (applyFence s)) := by
  show Host.Outcome.next (if _ then _ else _) = _
  rw [if_neg (by simpa using hact), s.trigger_up _ _ _ _ _ _ _ hup (by decide) (by decide)]

theorem exec_clearFence (hup : s.mailboxUp = true) (hact : s.staging 0x4010 2 = 2) :
    exec (.clearFence 1) s = .next (s.answerWrite 0x4010 3 true (applyFence s)) := by
  show Host.Outcome.next (if _ then _ else _) = _
  rw [if_pos (by simpa using hact), s.trigger_up _ _ _ _ _ _ _ hup (by decide) (by decide)]

end

theorem State.fenceNow_fenced {s : State} {unit : Nat} (h : s.isFenced unit = true) (origin cause : Nat) :
    s.fenceNow unit origin cause = s := if_pos h

/-- Settles O34: the pair's checks in their order, and the record that a fence or a clear puts. -/
theorem fencePairTakesEffect : Obligations.FencePairTakesEffect := by
  unfold Obligations.FencePairTakesEffect
  intro s hup unit act noted
  have read : s.pairRead = noted := rfl
  refine ⟨fun hne hbad => ?_, fun hact hunit hf hlast => ?_, fun hact hunit hkeep => ⟨fun hf => ?_, fun hf hlast => ⟨?_, fun hengine => ?_⟩⟩,
    fun hact hunit => ?_, fun hact hunit hkeep => ⟨fun hnone => ?_, fun f hsome hstate => ⟨noted.putFence unit 3 1 0, ?_, rfl, ?_, ?_⟩⟩⟩
  · rw [exec_fenceUnit hup hne, State.answerWrite_code _ _ _ _ (applyFence_illegal (hbad.imp id (fun h => ⟨h, hne⟩))) (by decide)]
    rfl
  · rw [exec_fenceUnit hup (by show act ≠ 2; omega), State.answerWrite_code _ _ _ _ (applyFence_last hact hunit hf hlast) (by decide)]
    rfl
  · rw [exec_fenceUnit hup (by show act ≠ 2; omega), applyFence_fences hact hunit hkeep (.inl hf), read,
      State.fenceNow_fenced (s := noted) hf]
  · rw [exec_fenceUnit hup (by show act ≠ 2; omega), applyFence_fences hact hunit hkeep (.inr hlast), read]
  · rw [State.fenceNow_engine (s := noted) hengine hf]
    exact State.putFence_isFenced noted unit (by decide) 1 0
  · rw [exec_clearFence hup hact, State.answerWrite_code _ _ _ _ (applyFence_illegal (.inl hunit)) (by decide)]
    rfl
  · rw [exec_clearFence hup hact, applyFence_clears hact hunit hkeep, hnone, read]
  · rw [exec_clearFence hup hact, applyFence_clears hact hunit hkeep, hsome, read]
    simp only [hstate, beq_self_eq_true, if_true]
    rfl
  · exact State.putFence_isFenced noted unit (by decide) 1 0
  · rw [State.putFence_fenceOf_self]
    rfl

end Sys2Proof.Machine
end

section
/-! Pages, upkeep and scrubs of the store (18 R462, R463, R468 to R470, R479, R481). -/

namespace Sys2Proof.Machine
open Sys2Proof

/-! ### Fields of a byte string -/

theorem sub_of_append {b pre mid post : Bytes} {o n : Nat} (h : b = pre ++ (mid ++ post)) (ho : pre.length = o) (hn : mid.length = n) :
    sub b o n = mid := by
  rw [h, sub, ← ho, List.drop_left, ← hn, List.take_left]

theorem leAt_of_append {b pre post : Bytes} {o n v : Nat} (h : b = pre ++ (leBytes n v ++ post)) (ho : pre.length = o) :
    leAt b o n = v % 256 ^ n := by
  rw [leAt, sub_of_append h ho (leBytes_length n v), leNat_leBytes]

/-! ### Pages (18 R462, R463) -/

theorem checkBytes_length (b : Bytes) : (checkBytes b).length = 2 * (b.length / 16) := by
  simp [checkBytes, List.length_flatMap, Nat.mul_comm]

theorem NPage.main_length {p : NPage} (h : p.data.length ≤ 16384) : p.main.length = 16384 := by
  rw [NPage.main, List.length_append, List.length_replicate]
  omega

/-- The fields of a tag before the checksum of the data. -/
def NPage.tagFront (p : NPage) : Bytes :=
  leBytes 1 p.kind ++ [1, 0, 0] ++ leBytes 8 p.seq ++ leBytes 4 p.erases ++ leBytes 4 p.extent ++ leBytes 4 p.index

/-- A tag without its own checksum. -/
def NPage.tagBody (p : NPage) : Bytes := p.tagFront ++ (leBytes 4 (crc32c p.main) ++ List.replicate 32 0)

theorem NPage.tagFront_length (p : NPage) : p.tagFront.length = 24 := by simp [NPage.tagFront]

theorem NPage.tagBody_length (p : NPage) : p.tagBody.length = 60 := by simp [NPage.tagBody, NPage.tagFront_length]

theorem NPage.tag_eq (p : NPage) : p.tag = p.tagBody ++ leBytes 4 (crc32c p.tagBody) := by
  have body : leBytes 1 p.kind ++ [1, 0, 0] ++ leBytes 8 p.seq ++ leBytes 4 p.erases ++ leBytes 4 p.extent ++ leBytes 4 p.index ++
      leBytes 4 (crc32c p.main) ++ List.replicate 32 0 = p.tagBody := by simp only [NPage.tagBody, NPage.tagFront, List.append_assoc]
  rw [NPage.tag, body]

theorem NPage.tag_length (p : NPage) : p.tag.length = 64 := by simp [NPage.tag_eq, NPage.tagBody_length]

theorem NPage.tag_take (p : NPage) : p.tag.take 60 = p.tagBody := by rw [NPage.tag_eq, ← p.tagBody_length, List.take_left]

theorem crc32c_mod (b : Bytes) : crc32c b % 256 ^ 4 = crc32c b := Nat.mod_eq_of_lt ((crc32c_lt b).trans_le (by norm_num))

theorem NPage.tag_dataCrc (p : NPage) : leAt p.tag 24 4 = crc32c p.main := by
  rw [leAt_of_append (pre := p.tagFront) (v := crc32c p.main) (by rw [NPage.tag_eq, NPage.tagBody, List.append_assoc, List.append_assoc])
    p.tagFront_length, crc32c_mod]

theorem NPage.tag_crc (p : NPage) : leAt p.tag 60 4 = crc32c (p.tag.take 60) := by
  rw [p.tag_take, leAt_of_append (pre := p.tagBody) (post := []) (v := crc32c p.tagBody) (by rw [NPage.tag_eq, List.append_nil])
    p.tagBody_length, crc32c_mod]

theorem NPage.tag_kind {p : NPage} (h : p.kind ≤ 6) : leAt p.tag 0 1 = p.kind := by
  have front : p.tag = [] ++ (leBytes 1 p.kind ++ p.tag.drop 1) := by
    simp only [NPage.tag_eq, NPage.tagBody, NPage.tagFront]
    rfl
  rw [leAt_of_append front List.length_nil, Nat.mod_eq_of_lt (by omega)]

theorem NPage.tag_format (p : NPage) : leAt p.tag 1 1 = 1 := by
  rw [leAt_of_append (pre := leBytes 1 p.kind) (v := 1) (post := p.tag.drop 2) ?_ (leBytes_length _ _)]
  · rfl
  · simp only [NPage.tag_eq, NPage.tagBody, NPage.tagFront]
    rfl

/-- Where each field of a page stands: data, marker, tag, check bytes of the tag, zeros, check bytes of the data. -/
theorem NPage.bytes_fields {p : NPage} (h : p.data.length ≤ 16384) :
    p.bytes.length = 18688 ∧ p.bytes.take 16384 = p.main ∧ sub p.bytes 16384 2 = [0xFF, 0xFF] ∧ sub p.bytes 16386 64 = p.tag ∧
      sub p.bytes 16450 8 = checkBytes p.tag ∧ sub p.bytes 16458 182 = List.replicate 182 0 ∧
      sub p.bytes 16640 2048 = checkBytes p.main := by
  have hmain := NPage.main_length h
  have htag := p.tag_length
  have hcheck : (checkBytes p.tag).length = 8 := by rw [checkBytes_length, htag]
  have hdata : (checkBytes p.main).length = 2048 := by rw [checkBytes_length, hmain]
  refine ⟨?_, ?_, ?_, ?_, ?_, ?_, ?_⟩
  · simp only [NPage.bytes, NPage.spare, List.length_append, List.length_cons, List.length_nil, List.length_replicate, hmain, htag, hcheck, hdata]
  · rw [NPage.bytes, ← hmain, List.take_left]
  · exact sub_of_append (pre := p.main) (post := p.tag ++ (checkBytes p.tag ++ (List.replicate 182 0 ++ checkBytes p.main)))
      (by simp only [NPage.bytes, NPage.spare, List.append_assoc]) hmain rfl
  · exact sub_of_append (pre := p.main ++ [0xFF, 0xFF]) (post := checkBytes p.tag ++ (List.replicate 182 0 ++ checkBytes p.main))
      (by simp only [NPage.bytes, NPage.spare, List.append_assoc]) (by simp [hmain]) htag
  · exact sub_of_append (pre := p.main ++ ([0xFF, 0xFF] ++ p.tag)) (post := List.replicate 182 0 ++ checkBytes p.main)
      (by simp only [NPage.bytes, NPage.spare, List.append_assoc]) (by simp [hmain, htag]) hcheck
  · exact sub_of_append (pre := p.main ++ ([0xFF, 0xFF] ++ (p.tag ++ checkBytes p.tag))) (post := checkBytes p.main)
      (by simp only [NPage.bytes, NPage.spare, List.append_assoc]) (by simp [hmain, htag, hcheck]) (List.length_replicate)
  · exact sub_of_append (pre := p.main ++ ([0xFF, 0xFF] ++ (p.tag ++ (checkBytes p.tag ++ List.replicate 182 0)))) (post := [])
      (by simp only [NPage.bytes, NPage.spare, List.append_assoc, List.append_nil])
      (by simp only [List.length_append, List.length_cons, List.length_nil, List.length_replicate, hmain, htag, hcheck]) hdata

theorem NPage.bytes_valid {p : NPage} (h : p.data.length ≤ 16384) (hlo : 1 ≤ p.kind) (hhi : p.kind ≤ 6) : pageValid p.bytes = true := by
  obtain ⟨-, hmain, -, htag, hcheck, -, hdata⟩ := NPage.bytes_fields h
  simp only [pageValid, hmain, htag, hcheck, hdata, p.tag_dataCrc, p.tag_crc, NPage.tag_kind hhi, p.tag_format, beq_self_eq_true,
    Bool.true_and, decide_eq_true hlo, decide_eq_true hhi]

/-! ### Upkeep -/

theorem State.freeExtents_keeps (s : State) (l : List Extent) :
    s.tells (s.freeExtents l) ∧ s.store.sameHoldings (s.freeExtents l).store := by
  refine foldl_related (R := fun s t : State => s.tells t ∧ s.store.sameHoldings t.store) (fun s => ⟨.refl s, .refl _⟩)
    (fun h h' => ⟨h.1.trans h'.1, h.2.trans h'.2⟩) (fun s x => ?_) l s
  have given : s.tells { s with store := s.store.giveBack x.blocks } := ⟨⟨_, _, _, _, _, rfl⟩, .of_tele rfl, .refl _⟩
  have kept : s.store.sameHoldings ({ s with store := s.store.giveBack x.blocks } : State).store :=
    (s.store.giveBack_pagesMove x.blocks).holdings
  exact ⟨given.trans (State.journal_tells _ true ⟨8, x.id, []⟩), kept.trans (State.journal_sameHoldings _ true ⟨8, x.id, []⟩)⟩

theorem State.tells.withStore {s t : State} (h : s.tells t) (st : Store) : s.tells { t with store := st } :=
  ⟨h.step.withStore st, h.counts, h.faults⟩

/-- The extents with an uncorrectable page in block `b` are no longer listed (18 R479). -/
def State.extentsLost (s : State) (b : Nat) : State :=
  { s with store := { s.store with
    cullets := s.store.cullets.filter (fun x => !x.blocks.contains b)
    lastPosts := s.store.lastPosts.filter (fun x => !x.blocks.contains b) } }

theorem State.pageLost_extents {s : State} {b : NBlock} (h : b.area = 5 ∨ b.area = 6) :
    (s.extentsLost b.id).tells (s.pageLost b) ∧ (s.extentsLost b.id).store.sameHoldings (s.pageLost b).store := by
  unfold State.pageLost
  rw [if_neg (by rcases h with h | h <;> simp [h]), if_neg (by rcases h with h | h <;> simp [h]), if_pos (by rcases h with h | h <;> simp [h])]
  obtain ⟨htells, hkeeps⟩ := State.freeExtents_keeps (s.extentsLost b.id)
    ((s.store.cullets ++ s.store.lastPosts).filter (fun x => x.blocks.contains b.id))
  exact ⟨htells.trans (State.log_tells _ _ _ _ _ _), hkeeps.trans (State.log_sameHoldings _ _ _ _ _ _)⟩

/-- Settles O58: the page's fields by their lengths, each upkeep command by its own row. -/
theorem storeIsKept : Obligations.StoreIsKept := by
  unfold Obligations.StoreIsKept
  refine ⟨fun p hp => ?_, fun t block kind extent index data b hb => ?_, fun s hs => ?_⟩
  · obtain ⟨hlen, hmain, hmarker, htag, hcheck, hzero, hdata⟩ := NPage.bytes_fields hp
    refine ⟨hlen, hmain, hmarker, htag, hcheck, hzero, hdata.trans ?_, p.tag_dataCrc.trans ?_, p.tag_crc, NPage.bytes_valid hp⟩
    · rw [hmain]
    · rw [hmain]
  · unfold Store.program
    rw [hb]
    exact ⟨rfl, rfl⟩
  · have up : s.storeUp = true := by rw [State.storeUp, hs]; rfl
    refine ⟨fun hc => ⟨s.commit, ?_, State.commit_storePending hc, s.commit_tells.step.mem, s.commit_tells.dict⟩, ?_, ?_,
      fun id b hb => ?_⟩
    · exact congrArg Host.Outcome.next (if_pos up)
    · exact congrArg Host.Outcome.next (if_pos up)
    · exact congrArg Host.Outcome.next (if_pos up)
    · have row (finding : Nat) : exec (.nandScrub id finding) s = .next (
          if !s.storeUp || finding == 0 then s
          else if finding == 1 then s.bump 0x5111 5 1
          else if finding == 2 || finding == 3 then
            let s := s.bump 0x5111 (if finding == 2 then 5 else 6) 1
            if b.area == 1 || s.store.condition == 2 || s.store.pick.isNone then s
            else ({ s with store := s.store.relocate id } : State).bump 0x5111 7 1
          else s.pageLost b) := by
        show Host.Outcome.next (match s.store.blocks.find? _ with | none => _ | some _ => _) = _
        rw [hb]
      refine ⟨?_, ?_, fun harea hc hpick => ?_, fun harea => ?_⟩
      · rw [row, if_pos (by simp)]
      · rw [row, if_neg (by simp [up]), if_pos (by decide)]
      · have moves (sub : Nat) :
            (let u := s.bump 0x5111 sub 1
             if b.area == 1 || u.store.condition == 2 || u.store.pick.isNone then u
              else ({ u with store := u.store.relocate id } : State).bump 0x5111 7 1) =
            ({ s.bump 0x5111 sub 1 with store := s.store.relocate id } : State).bump 0x5111 7 1 :=
          if_neg (by simpa [harea, hc] using hpick)
        have two : exec (.nandScrub id 2) s = .next (({ s.bump 0x5111 5 1 with store := s.store.relocate id } : State).bump 0x5111 7 1) := by
          rw [row, if_neg (by simp [up]), if_neg (by decide), if_pos (by decide)]
          exact congrArg _ (moves 5)
        have three : exec (.nandScrub id 3) s = .next (({ s.bump 0x5111 6 1 with store := s.store.relocate id } : State).bump 0x5111 7 1) := by
          rw [row, if_neg (by simp [up]), if_neg (by decide), if_pos (by decide)]
          exact congrArg _ (moves 6)
        refine ⟨⟨_, two, rfl, ?_, ?_⟩, ⟨_, three, rfl, ?_⟩⟩
        · rw [State.count_bump_other _ _ _ _ _ _ (by decide)]
          exact State.count_bump_self s _ _ _
        · rw [State.count_bump_self]
          exact congrArg (fun n => (n + 1) % 2 ^ 64) (State.count_bump_other s _ _ _ _ _ (by decide))
        · rw [State.count_bump_other _ _ _ _ _ _ (by decide)]
          exact State.count_bump_self s _ _ _
      · obtain ⟨htells, hkeeps⟩ := State.pageLost_extents (s := s) harea
        exact ⟨_, by rw [row, if_neg (by simp [up]), if_neg (by decide), if_neg (by decide)], htells.step.mem, hkeeps.cullets,
          hkeeps.lastPosts⟩

end Sys2Proof.Machine
end

section
/-! Controls on jobs (16 R422), and how sessions and data ports answer (16 R408, R412 to R415, R425). -/

namespace Sys2Proof.Machine
open Sys2Proof

/-! ### Controls -/

section
variable {s : State} {d : Dgram} {x : Session} {c : Ctx} {k v : Nat} {f : State → Ctx → Nat → Controlled}

theorem State.control_of_brings (h : s.brings d 0x21 x) (hk : beAt (Msg.parse d.bytes).body 4 1 = k) :
    s.control d k f = match (s.received d x).jobOf x.client (beAt (Msg.parse d.bytes).body 0 4) with
      | none => (s.received d x).reply x.id (Msg.parse d.bytes).seq 0x01E5 0 0
      | some c =>
        if beAt (Msg.parse d.bytes).body 4 1 != k || (c.state == .ending && k != 6 && k != 7) then
          (s.received d x).reply x.id (Msg.parse d.bytes).seq 0x01E5 0 0
        else
          let r := f (s.received d x) c (beAt (Msg.parse d.bytes).body 8 8)
          r.1.reply x.id (Msg.parse d.bytes).seq r.2.1 ((s.received d x).postmark c.partition) r.2.2 := by
  unfold State.control
  exact State.courier_of_brings h (by decide) (by simp [hk])

theorem State.control_jobless (h : s.brings d 0x21 x) (hk : beAt (Msg.parse d.bytes).body 4 1 = k)
    (hnone : (s.received d x).jobOf x.client (beAt (Msg.parse d.bytes).body 0 4) = none) :
    s.control d k f = (s.received d x).reply x.id (Msg.parse d.bytes).seq 0x01E5 0 0 := by
  rw [State.control_of_brings h hk, hnone]

/-- A job that is ending takes no action but a rebind and a query (16 R422). -/
theorem State.control_ending (h : s.controls d k x c v) (hst : c.state = .ending) (hk : k < 6) :
    s.control d k f = (s.received d x).reply x.id (Msg.parse d.bytes).seq 0x01E5 0 0 := by
  obtain ⟨hbrings, haction, hjob, -⟩ := h
  rw [State.control_of_brings hbrings haction, hjob]
  have h6 : k ≠ 6 := by omega
  have h7 : k ≠ 7 := by omega
  exact if_pos (by simp [hst, h6, h7])

theorem State.control_acts (h : s.controls d k x c v) (hst : c.state ≠ .ending ∨ 6 ≤ k ∧ k ≤ 7) :
    s.control d k f = (f (s.received d x) c v).1.reply x.id (Msg.parse d.bytes).seq (f (s.received d x) c v).2.1
      ((s.received d x).postmark c.partition) (f (s.received d x) c v).2.2 := by
  obtain ⟨hbrings, haction, hjob, rfl⟩ := h
  rw [State.control_of_brings hbrings haction, hjob]
  refine if_neg ?_
  rcases hst with hst | ⟨hlo, hhi⟩
  · simp [haction, hst]
  · simp only [haction, bne_self_eq_false, Bool.false_or, Bool.and_eq_true, bne_iff_ne, ne_eq]
    omega

end

/-- Each Control row is a Control of its action (16 R422). -/
theorem controlRows_control : ∀ row ∈ controlRows, ∃ f : Dgram → State → Ctx → Nat → Controlled,
    ∀ d s, exec (row.1 d) s = .next (s.control d row.2 (f d)) := by
  simp only [controlRows, List.forall_mem_cons, List.not_mem_nil, false_imp_iff, implies_true, and_true]
  exact ⟨⟨_, fun _ _ => rfl⟩, ⟨_, fun _ _ => rfl⟩, ⟨_, fun _ _ => rfl⟩, ⟨_, fun _ _ => rfl⟩, ⟨_, fun _ _ => rfl⟩, ⟨_, fun _ _ => rfl⟩,
    ⟨_, fun _ _ => rfl⟩⟩

/-- What a doorbell Control leaves of the job's context, and how it is answered (16 R422, 03 R56, R57). -/
def State.bellControl (s : State) (c : Ctx) (v : Nat) : Controlled :=
  let bell := setBit v 33 false
  let sealed := bit v 33 && bellAction c.queue bell != 0
  let s := ((s.bellFetch c.number).bellTail c.number bell).bellResume c.number bell
  let s := if sealed then s.setJob c.number (fun j => { j with isSealed := true }) else s
  let code := if bellAction c.queue bell != 0 then 0 else if bits bell 33 31 != 0 then 0x01E2 else 0x01E5
  (s.finishJob c.number, code, 0)

theorem State.bellResume_tail {s : State} {c v : Nat} (h : v < 2 ^ 32) : s.bellResume c v = s := by
  have high : bit v 32 = false := by rw [bit, Nat.div_eq_of_lt h]; rfl
  unfold State.bellResume
  split
  · rfl
  · simp [high]

theorem State.bellTail_moves {s : State} {c v : Nat} {y : Ctx} (hy : s.ctx? c = some y) (ha : bellAction y.queue v = 2) (hv : v < 2 ^ 32) :
    s.bellTail c v = s.setQueue c (fun q => { q with tail := v }) := by
  unfold State.bellTail
  rw [hy]
  dsimp only
  rw [ha, Nat.mod_eq_of_lt hv]
  rfl

/-- A NewTail alone, which the queue takes, moves the tail. -/
theorem State.bellControl_tail {s : State} {c y : Ctx} {v : Nat} (hy : s.ctx? c.number = some y) (hq : y.queue = c.queue)
    (hv : v < 2 ^ 32) (ha : bellAction c.queue v = 2) :
    s.bellControl c v = (((s.bellFetch c.number).setQueue c.number (fun q => { q with tail := v })).finishJob c.number, 0, 0) := by
  have low : bit v 33 = false := by rw [bit, Nat.div_eq_of_lt (hv.trans (by norm_num))]; rfl
  have bell : setBit v 33 false = v := by
    rw [setBit, setBits, bits, Nat.div_eq_of_lt (hv.trans (by norm_num))]
    simp
  have fetched : (s.bellFetch c.number).ctx? c.number = some y := by
    rw [State.bellFetch, hy]
    exact hy
  unfold State.bellControl
  dsimp only
  rw [bell, low, ha, State.bellTail_moves fetched (by rw [hq, ha]) hv, State.bellResume_tail hv]
  rfl

/-- Settles O47: each row acts through the Control that its action names. -/
theorem controlsActOnJobs : Obligations.ControlsActOnJobs := by
  unfold Obligations.ControlsActOnJobs
  intro s d x c v m u pm
  refine ⟨fun row hrow hb hk hnone => ?_, fun row hrow hc hst hk => ?_, fun y hc hst hy hq hv ha => ?_, fun y i hc hst hy hy' hsus hslot => ?_,
    fun y hc hst hy hy' => ?_, fun hc hst => ?_, fun i hc hst hsave hstream => ?_, fun hc hres => ?_, fun hc => ?_⟩
  · obtain ⟨f, hf⟩ := controlRows_control row hrow
    rw [hf, State.control_jobless hb hk hnone]
  · obtain ⟨f, hf⟩ := controlRows_control row hrow
    rw [hf, State.control_ending hc hst hk]
  · have row : exec (.controlDoorbell d) s = .next (s.control d 1 State.bellControl) := rfl
    rw [row, State.control_acts hc (.inl hst), State.bellControl_tail hy hq hv ha]
  · have row : exec (.controlSuspend d) s = .next (s.control d 2 (fun s c _ => controlled (s.suspendReq c.number))) := rfl
    have taken : u.suspendReq c.number = (u.suspendStart c.number true, 0) := by
      unfold State.suspendReq
      rw [hy]
      dsimp only
      rw [if_neg (by simp [hy']), if_neg (by simp [hsus]), if_neg (by simp [hslot])]
    rw [row, State.control_acts hc (.inl (by simp [hst]))]
    rw [taken]
    rfl
  · have row : exec (.controlResume d) s = .next (s.control d 3 (fun s c _ => controlled (s.resumeReq c.number))) := rfl
    have taken : u.resumeReq c.number = (u.setCtx c.number (fun x => { x with held := false }), 0) := by
      unfold State.resumeReq
      rw [hy]
      dsimp only
      rw [if_neg (by simp [hy'])]
    rw [row, State.control_acts hc (.inl (by simp [hst]))]
    rw [taken]
    rfl
  · have row : exec (.controlCancel d) s = .next (s.control d 4 (fun s c _ => (s.abortCtx c.number 0x0403 false, 0, 0))) := rfl
    rw [row, State.control_acts hc (.inl hst)]
  · have row : exec (.controlExport d) s = .next (s.control d 5 (fun s c _ => s.exportReq c)) := rfl
    have taken : u.exportReq c = ((u.setCtx c.number (fun x => { x with held := true })).dropSlot c, 0, u.savedAt c i) := by
      unfold State.exportReq
      rw [hsave]
      dsimp only
      rw [if_neg (by simp [hst]), if_neg (by simp [hstream])]
    rw [row, State.control_acts hc (.inl (by simp [hst]))]
    rw [taken]
  · have row : exec (.controlRebind d) s = .next (s.control d 6 (fun s c v => (s.rebind m.session c v, 0, 0))) := rfl
    have taken : u.rebind m.session c v = u.setJob c.number (fun j => { j with
        resultSession := v % 2 ^ 32
        submitSession := if j.submitSession == 0 then m.session else j.submitSession }) := by
      have hres' : (u.setJob c.number (fun j => { j with
          resultSession := v % 2 ^ 32
          submitSession := if j.submitSession == 0 then m.session else j.submitSession })).net.results.find? (fun r =>
            r.node == 0xFFFF && r.ctx == c.number && r.endSeq.isNone) = none := hres
      unfold State.rebind
      dsimp only
      rw [hres']
    rw [row, State.control_acts hc (.inr (by decide))]
    dsimp only
    rw [taken]
  · have row : exec (.controlQuery d) s = .next (s.control d 7 (fun s c _ => (s.progress c.number, 0, 0))) := rfl
    rw [row, State.control_acts hc (.inr (by decide))]

end Sys2Proof.Machine
end

section
/-! Sessions and data ports (16 R408, R412 to R415, R425). -/

namespace Sys2Proof.Machine
open Sys2Proof

/-! ### A session's record -/

theorem State.session?_id {s : State} {id : Nat} {x : Session} (h : s.session? id = some x) : x.id = id := by
  simpa using List.find?_some h

theorem State.session?_setSession (s : State) (id : Nat) {f : Session → Session} (hf : ∀ x, (f x).id = x.id) :
    (s.setSession id f).session? id = (s.session? id).map f := by
  exact find?_modifyWhere (fun x => by rw [hf x]) s.net.sessions

@[simp] theorem State.putDgram_session? (s : State) (d : OutDgram) (id : Nat) : (s.putDgram d).session? id = s.session? id := by
  unfold State.putDgram
  split <;> rfl

@[simp] theorem State.putDgram_tele (s : State) (d : OutDgram) : (s.putDgram d).tele = s.tele := by
  unfold State.putDgram
  split <;> rfl

theorem State.emit_session? (s : State) (x : Session) (m : SentMsg) :
    (s.emit x m).session? x.id = (s.session? x.id).map (fun y => { y with owed := 0 }) := by
  rw [State.emit, State.session?_setSession _ _ (f := fun y => { y with owed := 0 }) (fun _ => rfl), State.putDgram_session?]

theorem State.emit_tele (s : State) (x : Session) (m : SentMsg) : (s.emit x m).tele = s.tele :=
  (congrArg (fun t : State => t.tele) rfl).trans (State.putDgram_tele s _)

/-- Messages of a session that go out leave it its resends and what it has sent, and count nothing. -/
theorem State.emits_session? (x : Session) (l : List SentMsg) (s : State) :
    ((l.foldl (fun s m => s.emit x m) s).session? x.id).map (fun y => (y.resends, y.sent)) =
        (s.session? x.id).map (fun y => (y.resends, y.sent)) ∧
      (l.foldl (fun s m => s.emit x m) s).tele = s.tele := by
  induction l generalizing s with
  | nil => exact ⟨rfl, rfl⟩
  | cons m l ih =>
    obtain ⟨hsession, htele⟩ := ih (s.emit x m)
    refine ⟨?_, htele.trans (s.emit_tele x m)⟩
    rw [List.foldl_cons, hsession, State.emit_session?, Option.map_map]
    rfl

theorem State.sendAck_owed {s : State} {id : Nat} {x : Session} (h : s.session? id = some x) :
    ((s.sendAck id).session? id).map (fun y => y.owed) = some 0 := by
  obtain rfl := State.session?_id h
  unfold State.sendAck State.sendLoose
  rw [h]
  show ((s.emit x _).session? x.id).map _ = _
  rw [State.emit_session?, h]
  rfl

/-! ### Resends (16 R415) -/

section
variable {s : State} {id : Nat} {x : Session}

theorem State.resend_again (h : s.session? id = some x) (hsent : x.sent ≠ []) (hr : x.resends < s.dget 0x23A0 4) :
    s.resend id = (x.sent.foldl (fun s m => s.emit x m) (s.setSession id (fun x => { x with resends := x.resends + 1 }))).bump 0x3240 3
      x.sent.length := by
  unfold State.resend
  rw [h]
  dsimp only
  rw [if_neg (by simpa using hsent), if_neg (by omega)]

theorem State.resend_lost (h : s.session? id = some x) (hsent : x.sent ≠ []) (hr : s.dget 0x23A0 4 ≤ x.resends) :
    s.resend id = ({ s with net := { s.net with
      sessions := s.net.sessions.filter (fun y => y.id != id)
      results := undelivered (fun y => y.id == id) s.net.sessions s.net.results } } : State).bump 0x3240 5 1 := by
  unfold State.resend
  rw [h]
  dsimp only
  rw [if_neg (by simpa using hsent), if_pos hr]

end

/-! ### Opens (16 R413) -/

section
variable {s : State} {d : Dgram}

theorem exec_openSession (hport : s.dataPort d.port = true) (hbytes : dgramBad d.bytes = false)
    (hheader : (Msg.parse d.bytes).headerBad = false) (htype : (Msg.parse d.bytes).type = 0x01) (hid : (Msg.parse d.bytes).session = 0) :
    exec (.openSession d) s = .next (s.openFor d (Msg.parse d.bytes)) :=
  congrArg Host.Outcome.next (if_pos (by simp [hport, hbytes, hheader, htype, hid]))

theorem State.openFor_malformed {m : Msg} (h : m.body.length ≠ 8) : s.openFor d m = s.replyRaw d 0 m.seq 0x01E2 :=
  if_pos (by simp [h])

theorem State.openFor_legal {m : Msg} (h : m.body.length = 8) (hz : beAt m.body 2 2 = 0) :
    s.openFor d m = match s.reopened d (beAt m.body 4 4) with
      | some x => (s.bump 0x3240 1 1).replyRaw d x.id m.seq 0
      | none =>
        if 1024 ≤ s.net.sessions.length then (s.bump 0x3240 1 1).replyRaw d 0 m.seq 0x02E0
        else
          let s := s.bump 0x3240 1 1
          let id := s.net.nextSession
          let x : Session := ⟨id, beAt m.body 0 2, d.port, d.ip, d.udp, d.mac, d.ip, d.udp, beAt m.body 4 4, 1, 1, 0, m.window,
            0, 0, false, false, [], []⟩
          ({ s with net := { s.net with sessions := s.net.sessions ++ [x], nextSession := id % 0xFFFFFFFF + 1 } } : State).replyRaw d id m.seq 0 := by
  unfold State.openFor
  rw [if_neg (by simp [h, hz])] <;> rfl

end

/-- Settles O45: each row by its own cases. -/
theorem sessionsAndPorts : Obligations.SessionsAndPorts := by
  unfold Obligations.SessionsAndPorts
  refine ⟨fun s d hport => congrArg Host.Outcome.next (if_pos hport), fun s d => ?_, fun s id x hx => ?_,
    fun s port => ⟨rfl, fun hup => congrArg Host.Outcome.next (if_pos hup)⟩, fun s port a src mac hport ha => ?_⟩
  · intro m hport hbytes hheader htype hid
    rw [exec_openSession hport hbytes hheader htype hid]
    refine ⟨fun hlen => by rw [State.openFor_malformed hlen], fun hlen hz => ?_⟩
    rw [State.openFor_legal hlen hz]
    refine ⟨fun x hx => by rw [hx], fun hnone hfull => ?_, fun hnone hroom => ?_⟩
    · rw [hnone]
      exact congrArg Host.Outcome.next (if_pos hfull)
    · rw [hnone]
      exact ⟨_, congrArg Host.Outcome.next (if_neg (by omega)), rfl, rfl⟩
  · refine ⟨fun hsent hr => ⟨s.resend id, rfl, ?_⟩, fun hsent hr => ⟨s.resend id, rfl, ?_⟩, fun how => ⟨s.sendAck id, ?_, State.sendAck_owed hx⟩⟩
    · obtain rfl := State.session?_id hx
      obtain ⟨hsession, htele⟩ := State.emits_session? x x.sent (s.setSession x.id (fun x => { x with resends := x.resends + 1 }))
      rw [State.resend_again hx hsent hr]
      refine ⟨hsession.trans ?_, ?_⟩
      · rw [State.session?_setSession _ _ (f := fun y => { y with resends := y.resends + 1 }) (fun _ => rfl), hx]
        rfl
      · rw [State.count_bump_self, State.count, htele]
        rfl
    · rw [State.resend_lost hx hsent hr]
      refine ⟨?_, State.count_bump_self _ _ _ _⟩
      show (s.net.sessions.filter (fun y => y.id != id)).find? (fun y => y.id == id) = none
      simp
    · show Host.Outcome.next (match s.session? id with | some x => if x.owed == 0 then s else s.sendAck id | none => s) = _
      rw [hx]
      exact congrArg Host.Outcome.next (if_neg (by simpa using how))
  · have other {own : Nat} (h : a ≠ own) {b t : State} : (if !s.dataPort port || own == 0 || a != own then b else t) = b :=
      if_pos (by simp [h])
    have answers {own : Nat} (h : a = own) {b t : State} : (if !s.dataPort port || own == 0 || a != own then b else t) = t :=
      if_neg (by simp [hport, ← h, ha])
    refine ⟨fun h => ⟨_, congrArg Host.Outcome.next (answers h)⟩, fun h => congrArg Host.Outcome.next (other h),
      fun h => ⟨_, congrArg Host.Outcome.next (answers h)⟩, fun h => congrArg Host.Outcome.next (other h),
      fun payload => ⟨fun h => congrArg Host.Outcome.next (answers h), fun h => ?_⟩⟩
    rw [h]
    exact congrArg Host.Outcome.next (h ▸ answers h)

end Sys2Proof.Machine
end

section
/-! The SubDevice (17 R429 to R432, R439, R443). -/

namespace Sys2Proof.Machine
open Sys2Proof

/-! ### Registers -/

theorem State.escGets_congr {s t : State} (h : ∀ a, t.escByte a = s.escByte a) (n a : Nat) : t.escGets a n = s.escGets a n := by
  induction n generalizing a with
  | zero => rfl
  | succ n ih => rw [State.escGets, State.escGets, h, ih]

/-- A write of the ESC memory changes registers, and nothing else. -/
theorem State.escPut_eq (s : State) (a : Nat) (v : Byte) : ∃ esc station, s.escPut a v =
    { s with ecat := { s.ecat with esc := esc, station := station } } := by
  unfold State.escPut
  dsimp only
  split
  · exact ⟨_, _, rfl⟩
  · split <;> exact ⟨_, _, rfl⟩

theorem State.escPuts_eq (l : Bytes) (a : Nat) (s : State) : ∃ esc station, s.escPuts a l =
    { s with ecat := { s.ecat with esc := esc, station := station } } := by
  induction l generalizing a s with
  | nil => exact ⟨_, _, rfl⟩
  | cons b l ih =>
    obtain ⟨esc, station, h⟩ := s.escPut_eq a b
    obtain ⟨esc', station', h'⟩ := ih (a + 1) (s.escPut a b)
    exact ⟨esc', station', by rw [State.escPuts, h', h]⟩

theorem State.escPut_self {s : State} {a : Nat} (h : escReadOnly a = false) (hwf : Memory.wf s.ecat.esc = true) (v : Byte) :
    memGet a (s.escPut a v).ecat.esc = v := by
  have put : (s.escPut a v).ecat.esc = memPut a v s.ecat.esc := by
    unfold State.escPut
    rw [if_neg (by simp [h])]
    dsimp only
    split <;> rfl
  rw [put]
  exact memGet_memPut_self _ _ _ hwf

/-! ### What an access completes -/

/-- A run of no bytes completes nothing. -/
theorem State.escWritten_nothing (s : State) (a : Nat) : s.escWritten a 0 = s := by
  have none (x : Nat) : (decide (a ≤ x) && decide (x < a + 0)) = false := by
    rw [Bool.and_eq_false_iff, decide_eq_false_iff_not, decide_eq_false_iff_not]
    omega
  unfold State.escWritten
  simp only [none, Bool.and_false]
  rfl

theorem State.escRead_nothing (s : State) (a : Nat) : s.escRead a 0 = s := by
  refine if_neg ?_
  simp only [Bool.and_eq_true, decide_eq_true_eq]
  omega

theorem State.flushEmergency_frame (s : State) : s.flushEmergency.ecat.replies = s.ecat.replies ∧
    s.flushEmergency.ecat.forwarded = s.ecat.forwarded ∧ s.flushEmergency.mem = s.mem := by
  unfold State.flushEmergency
  split
  · split <;> exact ⟨rfl, rfl, rfl⟩
  · exact ⟨rfl, rfl, rfl⟩

/-- A read, and the mailbox that it takes, leave the answers, the count of frames and the memory. -/
theorem State.escRead_frame (s : State) (a n : Nat) : (s.escRead a n).ecat.replies = s.ecat.replies ∧
    (s.escRead a n).ecat.forwarded = s.ecat.forwarded ∧ (s.escRead a n).mem = s.mem := by
  unfold State.escRead
  split
  · unfold State.mailboxOut
    split
    · exact ⟨rfl, rfl, rfl⟩
    · exact State.flushEmergency_frame _
  · exact ⟨rfl, rfl, rfl⟩

theorem State.repeatMailbox_other (s : State) {a : Nat} (h : a ≠ 0x80F) :
    memGet a s.repeatMailbox.ecat.esc = memGet a s.ecat.esc ∧ s.repeatMailbox.mem = s.mem := by
  unfold State.repeatMailbox
  dsimp only
  split
  · exact ⟨rfl, rfl⟩
  · exact ⟨memGet_memPut_other _ _ _ _ h, rfl⟩

/-- What a written byte completes leaves the byte itself. -/
theorem State.escWritten_byte (s : State) (a : Nat) :
    memGet a (s.escWritten a 1).ecat.esc = memGet a s.ecat.esc ∧ (s.escWritten a 1).mem = s.mem := by
  have downloaded (t : State) : t.mailboxIn.ecat.esc = t.ecat.esc ∧ t.mailboxIn.mem = t.mem := by
    unfold State.mailboxIn
    dsimp only
    split <;> exact ⟨rfl, rfl⟩
  have applied (t : State) : t.outputIn.ecat.esc = t.ecat.esc ∧ t.outputIn.mem = t.mem := by
    unfold State.outputIn
    dsimp only
    split <;> exact ⟨rfl, rfl⟩
  have perhaps {b : Bool} {t u : State} (hu : u.ecat.esc = t.ecat.esc ∧ u.mem = t.mem) :
      (if b then u else t).ecat.esc = t.ecat.esc ∧ (if b then u else t).mem = t.mem := by
    split
    · exact hu
    · exact ⟨rfl, rfl⟩
  have before (b c : Bool) : (if c then (if b then s.mailboxIn else s).outputIn else (if b then s.mailboxIn else s)).ecat.esc = s.ecat.esc ∧
      (if c then (if b then s.mailboxIn else s).outputIn else (if b then s.mailboxIn else s)).mem = s.mem :=
    ⟨(perhaps (applied _)).1.trans (perhaps (downloaded s)).1, (perhaps (applied _)).2.trans (perhaps (downloaded s)).2⟩
  unfold State.escWritten
  dsimp only
  split
  next h =>
    simp only [Bool.and_eq_true, decide_eq_true_eq] at h
    obtain ⟨hesc, hmem⟩ := State.repeatMailbox_other (a := a) _ (by omega)
    exact ⟨hesc.trans (congrArg (memGet a) (before _ _).1), hmem.trans (before _ _).2⟩
  next => exact ⟨congrArg (memGet a) (before _ _).1, (before _ _).2⟩

/-! ### Frames -/

/-- A frame that the first port processes has been counted, and has no answers yet. -/
def State.frameIn (s : State) : State := { s with ecat := { s.ecat with forwarded := s.ecat.forwarded + 1, replies := [] } }

theorem exec_ethercatFrame {s : State} (h : s.ecatPort 0 = true) (g : EscDgram) : exec (.ethercatFrame 0 [g]) s =
    .next (s.frameIn.datagram g) := by
  show Host.Outcome.next (if _ then _ else _) = _
  rw [if_neg (by simp [h])]
  rfl

/-- A datagram to all is read, written and completed in this order (17 R429). -/
theorem State.datagram_broadcast (s : State) (adp a n : Nat) (data : Bytes) : s.datagram ⟨2, adp, a, data, n⟩ =
    let t := (((s.escPuts a data).escWritten a data.length).escRead a n)
    { t with ecat := { t.ecat with replies := t.ecat.replies ++ [s.escGets a n] } } := rfl

/-! ### The AL state machine (17 R432) -/

section
variable {s : State} {al : Nat}

theorem exec_alStateRequest_refused (hs : s.board.phase = .serving) (h : s.alRefusal al ≠ 0) :
    exec (.alStateRequest al) s = .next { s with ecat := { s.ecat with alStatus := s.alRefusal al } } := by
  show Host.Outcome.next (if _ then _ else _) = _
  rw [if_neg (by simp [hs])]
  exact congrArg _ (if_pos (by simpa using h))

theorem exec_alStateRequest_made (hs : s.board.phase = .serving) (h : s.alRefusal al = 0) :
    exec (.alStateRequest al) s = .next (if al == 1 then { s with ecat := { s.ecat with
      al := al, alStatus := 0, sm1 := [], emergencies := [], segmented := none } } else { s with ecat := { s.ecat with
      al := al, alStatus := 0 } }) := by
  show Host.Outcome.next (if _ then _ else _) = _
  rw [if_neg (by simp [hs])]
  exact congrArg _ (if_neg (by simpa using h))

theorem State.alRefusal_working (hs : s.board.phase = .serving) (hlife : s.sec.fuses.lifecycle ≠ 4) (hal : s.ecat.al ≠ 3)
    (hdest : al = 1 ∨ al = 2 ∨ al = 4 ∨ al = 8) : s.alRefusal al = if alStep s.ecat.al al then 0 else 0x0011 := by
  unfold State.alRefusal
  rcases hdest with rfl | rfl | rfl | rfl <;> simp [hs, hlife, hal]

end

/-- Settles O56: each row by its cases; a frame's datagram by what its access completes. -/
theorem subDeviceServes : Obligations.SubDeviceServes := by
  unfold Obligations.SubDeviceServes
  refine ⟨fun s dgs hport => ?_, fun s adp a n v hport => ⟨?_, fun hrw hwf => ?_⟩, fun s port => ⟨rfl, fun hon hext => ?_⟩,
    fun s al hs => ⟨fun code hcode hne => ?_, fun h0 => ?_, fun hlife => ?_⟩, fun s hal => ?_, fun s p hup h3 h4 => ?_, fun s hal => ?_⟩
  · show Host.Outcome.next (if _ then _ else _) = _
    rw [if_neg (by simp [hport])]
    rfl
  · obtain ⟨hreplies, hforwarded, hmem⟩ := s.frameIn.escRead_frame a n
    rw [exec_ethercatFrame hport, State.datagram_broadcast]
    refine ⟨_, rfl, ?_⟩
    simp only [State.escPuts, List.length_nil, State.escWritten_nothing]
    refine ⟨?_, hforwarded, hmem⟩
    rw [hreplies, State.escGets_congr (t := s.frameIn) (s := s) (fun _ => rfl)]
    rfl
  · have put := State.escPut_self (s := s.frameIn) hrw hwf v
    obtain ⟨hesc, hmem⟩ := (s.frameIn.escPut a v).escWritten_byte a
    obtain ⟨_, _, heq⟩ := s.frameIn.escPut_eq a v
    rw [exec_ethercatFrame hport, State.datagram_broadcast]
    refine ⟨_, rfl, ?_⟩
    simp only [State.escPuts, List.length_cons, List.length_nil, State.escRead_nothing]
    exact ⟨hesc.trans put, hmem.trans (by rw [heq]; rfl)⟩
  · show Host.Outcome.next (if _ then _ else _) = _
    rw [if_neg (by simp [hon, hext])]
  · rw [exec_alStateRequest_refused hs (hcode ▸ hne), hcode]
  · rw [exec_alStateRequest_made hs h0]
    refine ⟨_, rfl, ?_⟩
    split
    · exact ⟨rfl, rfl, fun _ => rfl, rfl⟩
    next h => exact ⟨rfl, rfl, fun h1 => absurd h1 (by simpa using h), rfl⟩
  · refine ⟨fun h1 h2 => ?_, fun h2 h4 => ?_, fun h4 h8 => ?_, fun h1 h48 => ?_⟩
    · rw [State.alRefusal_working hs hlife (by omega) (by omega), h1, h2]
      rfl
    · rw [State.alRefusal_working hs hlife (by omega) (by omega), h2, h4]
      rfl
    · rw [State.alRefusal_working hs hlife (by omega) (by omega), h4, h8]
      rfl
    · rw [State.alRefusal_working hs hlife (by omega) (by omega), h1]
      rcases h48 with rfl | rfl <;> rfl
  · exact congrArg Host.Outcome.next (if_neg (by simp [hal]))
  · show Host.Outcome.next (if _ then _ else if _ then _ else _) = _
    rw [if_neg (by simp [hup]), if_neg (by simp [h3, h4])]
  · have row : exec .pdoRefresh s = .next (({ s with ecat := { s.ecat with
        sm3 := if s.board.phase == .serving then s.inputBytes else clearFirmwareUp s.inputWords s.ecat.sm3 } } : State).escPuts
          (s.ecat.smRun 3).1 ((if s.board.phase == .serving then s.inputBytes else clearFirmwareUp s.inputWords s.ecat.sm3).take
            (s.ecat.smRun 3).2)) :=
      congrArg Host.Outcome.next (if_neg (by rcases hal with h | h <;> simp [h]))
    obtain ⟨_, _, heq⟩ := State.escPuts_eq _ (s.ecat.smRun 3).1 _
    refine ⟨_, row, ?_⟩
    rw [heq]
    exact ⟨by simp, rfl, rfl⟩

end Sys2Proof.Machine
end

section
/-! The object dictionary's services (17 R434 to R436, R439, R440, R446 to R450, R456). -/

namespace Sys2Proof.Machine
open Sys2Proof

/-- An entry that is found stands at its index and subindex. -/
theorem findEntry_key {idx sub : Nat} {e : Entry} (h : findEntry idx sub = some e) : e.idx = idx ∧ e.sub = sub := by
  simpa using List.find?_some h

/-! ### Writes -/

/-- A register that is written, with its journal record where it is kept. -/
def State.registerWritten (s : State) (e : Entry) (v : Nat) : State :=
  if e.keep then s.keep e.idx e.sub e.width v else s.dset e.idx e.sub v

section
variable {s : State} {e : Entry} {b : Bytes}

theorem State.quietWrite_range (h : s.outOfRange e (leNat b) = true) : s.quietWrite e b = (s, 0x01F0) := if_pos h

theorem State.quietWrite_plain (h : s.outOfRange e (leNat b) = false) (hown : e.own = .plain) (hkeep : e.keep = true → s.keepRefused = 0) :
    s.quietWrite e b = (s.registerWritten e (leNat b), 0) := by
  unfold State.quietWrite State.registerWritten
  dsimp only
  rw [if_neg (by simp [h]), hown]
  dsimp only
  cases hk : e.keep with
  | false => simp
  | true => simp [hkeep hk]

theorem State.quietWrite_member (h : s.outOfRange e (leNat b) = false) (hown : e.own = .member) :
    s.quietWrite e b = ({ s with staged := kvSet (dkey e.idx e.sub) (leNat b) s.staged }, 0) := by
  unfold State.quietWrite
  dsimp only
  rw [if_neg (by simp [h]), hown]

theorem State.registerWritten_self (s : State) (e : Entry) (v : Nat) : (s.registerWritten e v).dget e.idx e.sub = v := by
  unfold State.registerWritten
  split
  · exact State.keep_dget_self _ _ _ _ _
  · exact State.dget_dset_self _ _ _ _

theorem State.registerWritten_other {i j : Nat} (h : dkey i j ≠ dkey e.idx e.sub) (v : Nat) :
    (s.registerWritten e v).dget i j = s.dget i j := by
  unfold State.registerWritten
  split
  · exact State.keep_dget_of_ne _ h _ _
  · exact kvGet_kvSet_other _ _ _ _ _ h

theorem State.registerWritten_mem (s : State) (e : Entry) (v : Nat) : (s.registerWritten e v).mem = s.mem := by
  unfold State.registerWritten
  split
  · exact (State.journal_logStep _ _ _).mem
  · rfl

end

/-! ### Downloads and uploads -/

section
variable {s : State} {idx sub : Nat} {b : Bytes} {e : Entry}

theorem exec_sdoDownload (hup : s.mailboxUp = true) (hpdo : s.pdoObject idx = none) :
    exec (.sdoDownload idx sub false b) s = .next (s.download idx sub b) := by
  show Host.Outcome.next (if _ then _ else (match s.pdoObject idx with | some (w, l) => _ | none => _)) = _
  rw [if_neg (by simp [hup]), hpdo] <;> rfl

theorem exec_sdoUpload (hup : s.mailboxUp = true) (hpdo : s.pdoObject idx = none) :
    exec (.sdoUpload idx sub false) s = .next (s.uploadOne idx sub) := by
  show Host.Outcome.next (if _ then _ else (match s.pdoObject idx with | some (w, l) => _ | none => _)) = _
  rw [if_neg (by simp [hup]), hpdo] <;> rfl

/-- A write to an entry without a row of its own is a download (17 R446). -/
theorem exec_dictWrite (hup : s.mailboxUp = true) (hpdo : s.pdoObject idx = none) (he : findEntry idx sub = some e)
    (hrow : e.acc = .ro ∨ e.own ≠ .trigger) : exec (.dictWrite idx sub b) s = .next (s.download idx sub b) := by
  show Host.Outcome.next (if _ then _ else (match findEntry idx sub with | some e => _ | none => _)) = _
  rw [if_neg (by simp [hup, hpdo]), he]
  exact congrArg _ (if_neg (by rcases hrow with h | h <;> simp [h]))

theorem State.download_readOnly (he : findEntry idx sub = some e) (hacc : e.acc = .ro) :
    s.download idx sub b = s.abort idx sub 0x06010002 0 := by
  unfold State.download
  rw [he]
  exact if_pos (by simp [hacc])

theorem State.download_length (he : findEntry idx sub = some e) (hacc : e.acc ≠ .ro) (hlen : b.length ≠ e.width) :
    s.download idx sub b = s.abort idx sub 0x06070010 0 := by
  unfold State.download
  rw [he]
  dsimp only
  rw [if_neg (by simp [hacc]), if_pos (by simp [hlen])]

theorem State.download_quiet (he : findEntry idx sub = some e) (hacc : e.acc ≠ .ro) (hlen : b.length = e.width) (hown : e.own ≠ .trigger) :
    s.download idx sub b = s.answerWrite idx sub false (s.quietWrite e b) := by
  unfold State.download
  rw [he]
  dsimp only
  rw [if_neg (by simp [hacc]), if_neg (by simp [hlen]), if_neg (by simp [hown])]

theorem noEntry_of_none (he : findEntry idx sub = none) (hsub : sub ≠ 0) :
    noEntry idx sub = if entriesOf idx = [] then 0x06020000 else 0x06090011 := by
  unfold noEntry
  simp [he, hsub]

theorem State.uploadOne_readable (he : findEntry idx sub = some e) (hacc : e.acc ≠ .wo) (hch : dkey idx sub ≠ dkey 0x5020 1)
    (hdbg : dkey idx sub ≠ dkey 0x5031 2) (hread : (s.readEntry e).2 = 0) : s.uploadOne idx sub = s.upload idx sub (s.readEntry e).1 := by
  have apart {i j : Nat} (h : dkey idx sub ≠ dkey i j) : ¬ (idx == i && sub == j) = true := by
    simp only [Bool.and_eq_true, beq_iff_eq]
    rintro ⟨rfl, rfl⟩
    exact h rfl
  unfold State.uploadOne
  rw [he]
  dsimp only
  rw [if_neg (by simp [hacc]), if_neg (apart hch), if_neg (apart hdbg), if_neg (by simp [hread])]

end

/-! ### Mappings -/

section
variable {s : State} {l : List Nat}

theorem exec_pdoMapping (hup : s.mailboxUp = true) : exec (.pdoMapping 0x1A01 l) s = .next (s.writePdo 0x1A01 0 l) :=
  congrArg Host.Outcome.next (if_neg (by simp [hup]))

theorem State.writePdo_flaw {idx : Nat} (h : pdoFlaw idx l ≠ 0) : s.writePdo idx 0 l = s.abort idx 0 (pdoFlaw idx l) 0x01F2 :=
  if_pos (by simpa using h)

theorem State.writePdo_state {idx : Nat} (h : pdoFlaw idx l = 0) (hal : s.ecat.al ≠ 2) : s.writePdo idx 0 l = s.abort idx 0 0x08000022 0 := by
  unfold State.writePdo
  dsimp only
  rw [if_neg (by simp [h]), if_pos (by simpa using hal)]

theorem State.writePdo_legal (h : pdoFlaw 0x1A01 l = 0) (hal : s.ecat.al = 2) : s.writePdo 0x1A01 0 l =
    s.answerWrite 0x1A01 0 false ({ s with ecat := { s.ecat with pdo1A01 := l } }, 0) := by
  unfold State.writePdo
  dsimp only
  rw [if_neg (by simp [h]), if_neg (by simp [hal])]
  rfl

end

/-! ### Information -/

theorem exec_sdoInformation_object {s : State} (hup : s.mailboxUp = true) (idx sub : Nat) : exec (.sdoInformation 3 idx sub) s =
    .next (match describeObject idx (s.pdoObject idx) with
      | some b => s.placeSm1 (infoMailbox 4 b)
      | none => s.placeSm1 (infoMailbox 7 (leBytes 4 0x06020000))) := by
  show Host.Outcome.next (if _ then _ else if _ then _ else if _ then _ else _) = _
  rw [if_neg (by simp [hup]), if_neg (by decide), if_pos (by decide)] <;> rfl

theorem exec_sdoInformation_entry {s : State} (hup : s.mailboxUp = true) {idx sub : Nat} {b : Bytes}
    (h : describeEntry idx sub (s.pdoObject idx) = some b) : exec (.sdoInformation 5 idx sub) s = .next (s.placeSm1 (infoMailbox 6 b)) := by
  show Host.Outcome.next (if _ then _ else if _ then _ else if _ then _ else if _ then _ else _) = _
  rw [if_neg (by simp [hup]), if_neg (by decide), if_neg (by decide), if_pos (by decide), h]

theorem exec_sdoInformation_list {s : State} (hup : s.mailboxUp = true) {idx sub : Nat} (hlo : 1 ≤ idx) (hhi : idx ≤ 5) :
    exec (.sdoInformation 1 idx sub) s =
      .next (s.placeSm1 (infoMailbox 2 (leBytes 2 idx ++ (indexList idx).flatMap (leBytes 2)))) := by
  show Host.Outcome.next (if _ then _ else if _ then (if _ then _ else if _ then _ else _) else _) = _
  rw [if_neg (by simp [hup]), if_pos (by decide), if_neg (by rw [beq_iff_eq]; omega), if_neg (by omega)]

/-- Settles O57: each service by the entry that it names. -/
theorem dictionaryServes : Obligations.DictionaryServes := by
  unfold Obligations.DictionaryServes
  refine ⟨fun s idx sub b e hup hpdo he => ⟨fun hacc => ?_, fun hacc hlen => ?_, fun hacc hlen hown => ?_, fun hacc => ?_,
      fun hacc hch hdbg hread => ?_⟩, fun s idx sub b hup hpdo he hsub => ?_, fun s idx sub hup hseg => ?_, fun s l hup => ?_,
    fun s idx sub b hup => ⟨fun h => ?_, fun h => ?_, fun h => exec_sdoInformation_entry hup h, fun hlo hhi => exec_sdoInformation_list hup hlo hhi⟩⟩
  · rw [exec_sdoDownload hup hpdo, exec_dictWrite hup hpdo he (.inl hacc), State.download_readOnly he hacc]
    exact ⟨rfl, rfl⟩
  · rw [exec_sdoDownload hup hpdo, State.download_length he hacc hlen]
  · obtain ⟨rfl, rfl⟩ := findEntry_key he
    rw [exec_sdoDownload hup hpdo, exec_dictWrite hup hpdo he (.inr hown), State.download_quiet he hacc hlen hown]
    refine ⟨fun hrange => ?_, fun hrange hplain hkeep => ⟨s.registerWritten e (leNat b), ?_, ?_, s.registerWritten_self e _,
      s.registerWritten_mem e _, fun i j hne => State.registerWritten_other hne _⟩, fun hrange hmember =>
      ⟨{ s with staged := kvSet (dkey e.idx e.sub) (leNat b) s.staged }, ?_, ?_, rfl, rfl⟩⟩
    · rw [State.quietWrite_range hrange, State.answerWrite_refused _ _ _ _ _ _ (by decide)]
      rfl
    · rw [State.quietWrite_plain hrange hplain hkeep]
    · rw [State.quietWrite_plain hrange hplain hkeep]
    · rw [State.quietWrite_member hrange hmember]
    · exact kvGet_kvSet_self _ _ _ _
  · rw [exec_sdoUpload hup hpdo]
    unfold State.uploadOne
    rw [he]
    exact congrArg _ (if_pos (by simp [hacc]))
  · rw [exec_sdoUpload hup hpdo, State.uploadOne_readable he hacc hch hdbg hread]
  · have code := noEntry_of_none he hsub
    have nonzero : (noEntry idx sub == 0) = false := by
      rw [code]
      split <;> rfl
    rw [exec_sdoDownload hup hpdo, exec_sdoUpload hup hpdo]
    unfold State.download State.uploadOne
    rw [he]
    dsimp only
    rw [nonzero, code]
    exact ⟨rfl, rfl⟩
  · show Host.Outcome.next (match s.ecat.segmented with | some (idx, sub) => _ | none => s) = _
    rw [hseg]
    exact congrArg _ (if_pos hup)
  · rw [exec_pdoMapping hup]
    refine ⟨fun code hcode hne => ?_, fun h hal => ?_, fun h hal => ?_⟩
    · rw [State.writePdo_flaw (hcode ▸ hne), hcode]
    · rw [State.writePdo_state h hal]
    · rw [State.writePdo_legal h hal]
  · rw [exec_sdoInformation_object hup, h]
  · rw [exec_sdoInformation_object hup, h]

end Sys2Proof.Machine
end

section
/-! What the work of cells and pipes leaves alone when it is moved, restarted or failed (04 R110, 19 R499): the
fault records and the standing of the cells. -/

namespace Sys2Proof.Machine
open Sys2Proof

/-! ### The books -/

/-- What resets and fences keep of a cell (19 R517). -/
def Cell.standing (c : Cell) : Nat × Bool × Nat × Nat × KV := (c.id, c.fenced, c.lanesFenced, c.resets, c.laneErrors)

/-- What the ladder of recovery keeps books of: the fault records, the cells and the counters of resets. -/
def State.books (s : State) :
    Faults × List (Nat × Bool × Nat × Nat × KV) × (Nat → Nat) :=
  (s.faults, s.office.cells.map Cell.standing, fun sub => s.count 0x4003 (sub % 256))

theorem State.faults_of_books {s t : State} (h : t.books = s.books) : t.faults = s.faults := congrArg (fun b => b.1) h

theorem State.cells_of_books {s t : State} (h : t.books = s.books) :
    t.office.cells.map Cell.standing = s.office.cells.map Cell.standing := congrArg (fun b => b.2.1) h

theorem State.count_of_books {s t : State} (h : t.books = s.books) {sub : Nat} (hsub : sub < 256) :
    t.count 0x4003 sub = s.count 0x4003 sub := by
  have := congrFun (congrArg (fun b => b.2.2) h) sub
  simpa only [State.books, Nat.mod_eq_of_lt hsub] using this

theorem foldl_books {α : Type} {f : State → α → State} (hf : ∀ (s : State) (a : α), (f s a).books = s.books) (l : List α) (s : State) :
    (l.foldl f s).books = s.books :=
  foldl_related (R := fun s t : State => t.books = s.books) (fun _ => rfl) (fun h h' => h'.trans h) hf l s

theorem ite_books {c : Prop} [Decidable c] {s t u : State} (ht : t.books = s.books) (hu : u.books = s.books) :
    (if c then t else u).books = s.books := by
  split
  · exact ht
  · exact hu

/-! ### Counters and fields -/

theorem State.bump_books {i j : Nat} (hi : i ≠ 0x4003) (hj : j < 256) (s : State) (n : Nat) : (s.bump i j n).books = s.books := by
  have counts : (fun sub => (s.bump i j n).count 0x4003 (sub % 256)) = fun sub => s.count 0x4003 (sub % 256) := by
    funext sub
    exact State.count_bump_other _ _ _ _ _ _ (by unfold dkey; omega)
  show (_, _, _) = (_, _, _)
  rw [counts]
  rfl

theorem modifyAt_standing {g : Cell → Cell} (hg : ∀ c, (g c).standing = c.standing) (n : Nat) (l : List Cell) :
    (modifyAt g n l).map Cell.standing = l.map Cell.standing := by
  induction l generalizing n with
  | nil => cases n <;> rfl
  | cons c l ih =>
    cases n with
    | zero => simp [modifyAt, hg]
    | succ n => simp [modifyAt, ih]

theorem State.setCell_books {g : Cell → Cell} (hg : ∀ c, (g c).standing = c.standing) (s : State) (n : Nat) : (s.setCell n g).books = s.books := by
  show (_, _, _) = (_, _, _)
  rw [show (s.setCell n g).office.cells.map Cell.standing = s.office.cells.map Cell.standing from modifyAt_standing hg n _]
  rfl

/-! ### Writes of memory -/

@[simp] theorem State.drew_books (s : State) : s.drew.books = s.books := rfl

@[simp] theorem State.setChan_books (s : State) (n : Nat) (f : Chan → Chan) : (s.setChan n f).books = s.books := rfl

theorem State.storeByte_books (s : State) (a : Nat) (v : Byte) : (s.storeByte a v).books = s.books := by
  unfold State.storeByte
  split
  · split
    · split
      · rw [State.bump_books (by decide) (by decide), State.setChan_books]
      · exact s.setChan_books _ _
    · rfl
  · rfl

theorem State.storeBytes_books (s : State) (a : Nat) (bs : Bytes) : (s.storeBytes a bs).books = s.books := by
  induction bs generalizing s a with
  | nil => rfl
  | cons b bs ih => rw [State.storeBytes, ih, State.storeByte_books]

theorem State.retireWcb_books (s : State) (e : Wcb) : (s.retireWcb e).books = s.books := by
  unfold State.retireWcb
  rw [State.bump_books (by decide) (by decide), State.bump_books (by decide) (by decide)]
  rfl

theorem State.mergeLine_books (s : State) (line : Nat) (addrs : List Nat) : (s.mergeLine line addrs).books = s.books := by
  have full (t : State) (h : t.books = s.books) : (t.bump 0x31C0 7 1).books = s.books := by
    rw [State.bump_books (by decide) (by decide), h]
  have retired (l : List Wcb) (n : Nat) : (if n < 128 then s else match l with | [] => s | e :: _ => s.retireWcb e).books = s.books := by
    split
    · rfl
    · split
      · rfl
      · exact s.retireWcb_books _
  unfold State.mergeLine
  dsimp only
  split
  · rfl
  · split
    · split
      · rfl
      · split <;> exact full _ rfl
    · split
      · rfl
      · exact (show _ = _ from rfl).trans (retired _ _)

theorem State.mergeLines_books (s : State) (a n fuel : Nat) : (s.mergeLines a n fuel).books = s.books := by
  induction fuel generalizing s a n with
  | zero => rfl
  | succ fuel ih =>
    rw [State.mergeLines]
    split
    · rfl
    · exact (ih _ _ _).trans (s.mergeLine_books _ _)

theorem State.writeBytes_books (s : State) (a : Nat) (bs : Bytes) : (s.writeBytes a bs).books = s.books := by
  have stored : ((s.spoil a bs.length).storeBytes a bs).books = s.books := State.storeBytes_books _ _ _
  unfold State.writeBytes
  dsimp only
  split
  · rw [State.bump_books (by decide) (by decide), State.mergeLines_books, stored]
  · exact stored

/-! ### Instructions that fail -/

@[simp] theorem State.setFlight_books (s : State) (c i : Nat) (f : InFlight → InFlight) : (s.setFlight c i f).books = s.books := rfl

theorem State.scramble_books (s : State) (f : InFlight) : (s.scramble f).books = s.books := by
  have written (l : List (Nat × Bytes)) (t : State) : (l.foldl (fun s w => s.writeBytes w.1 w.2) t).books = t.books :=
    foldl_books (fun s w => s.writeBytes_books _ _) l t
  unfold State.scramble
  dsimp only
  rw [State.drew_books, written]
  have outs (l : List (Nat × Nat)) (g : State → Nat × Nat → Bytes) : (l.foldl (fun s x => if s.gHere (x.1 % 2 ^ 64) then
      s.writeBytes (gAddr (x.1 % 2 ^ 64)) (g s x) else s) s).books = s.books :=
    foldl_books (fun s x => ite_books (s.writeBytes_books _ _) rfl) l s
  split
  · exact outs _ (fun s x => s.freeBytes (2 ^ 80 + x.1) x.2)
  · exact (written _ _).trans (outs _ (fun s x => s.freeBytes (2 ^ 80 + x.1) x.2))

theorem State.failInstr_books (s : State) (c idx code : Nat) : (s.failInstr c idx code).books = s.books := by
  unfold State.failInstr
  split
  · rfl
  · exact (show _ = _ from rfl).trans (s.scramble_books _)

theorem State.failDry_books (s : State) : s.failDry.books = s.books := foldl_books (fun s _ => s.failInstr_books _ _ _) _ s

/-! ### Cells -/

theorem State.reseedCell_books (s : State) (cell : Nat) : (s.reseedCell cell).books = s.books := by
  unfold State.reseedCell
  split
  · rw [State.failDry_books, State.bump_books (by decide) (by decide)]
    exact State.setCell_books (fun _ => by rfl) s cell
  · rw [State.bump_books (by decide) (by decide)]
    exact State.setCell_books (fun _ => by rfl) s cell

theorem State.clearCell_books (s : State) (cell : Nat) : (s.clearCell cell).books = s.books := State.reseedCell_books _ _

theorem State.cellTake_books (s : State) (cell fuel : Nat) : (s.cellTake cell fuel).books = s.books := by
  induction fuel generalizing s with
  | zero => rfl
  | succ fuel ih =>
    rw [State.cellTake]
    split
    · rfl
    · split
      · rfl
      · rw [ih, State.bump_books (by decide) (by decide), State.bump_books (by decide) (by decide)]
        exact (State.setCell_books (fun _ => by rfl) _ cell).trans rfl

theorem State.serveTasks_books (s : State) : s.serveTasks.books = s.books :=
  (foldl_books (fun s c => s.cellTake_books c 2) _ s.postAll).trans rfl

theorem State.redealColumn_books (s : State) (cell fault : Nat) (g : Nat × Nat × Nat) (ts : List Task) :
    (s.redealColumn cell fault g ts).books = s.books := by
  unfold State.redealColumn
  dsimp only
  rw [State.failDry_books]
  rw [State.setFlight_books, State.bump_books (by decide) (by decide), State.bump_books (by decide) (by decide),
    State.bump_books (by decide) (by decide)]
  rfl

theorem State.redealCell_books (s : State) (cell fault : Nat) : (s.redealCell cell fault).books = s.books :=
  foldl_books (fun s g => s.redealColumn_books cell fault g _) _ s

theorem State.metAgain_books (s : State) (cell fault : Nat) : (s.metAgain cell fault).books = s.books := by
  unfold State.metAgain
  refine foldl_books (fun s t => ?_) _ s
  exact (show _ = (s.failInstr t.ctx t.idx 0x0402).books from rfl).trans (s.failInstr_books _ _ _)

theorem State.leaveChains_books (s : State) (cell : Nat) : (s.leaveChains cell).books = s.books := by
  unfold State.leaveChains
  refine foldl_books (fun s f => ?_) _ s
  rw [State.bump_books (by decide) (by decide)]
  rfl

theorem State.checkBarren_books (s : State) (p : Nat) : (s.checkBarren p).books = s.books := ite_books rfl rfl

/-! ### Pipes -/

theorem State.restartFrame_books (s : State) (pipe : Nat) : (s.restartFrame pipe).books = s.books := by
  unfold State.restartFrame
  split
  · rfl
  · dsimp only
    split
    · rfl
    · exact (State.bump_books (i := 0x31F0) (by decide) (by decide) _ _).trans rfl

theorem State.failCdc_books (s : State) (j : CodecJob) (code : Nat) : (s.failCdc j code).books = s.books := State.failInstr_books _ _ _ _

theorem State.cdcStarved_books (s : State) : s.cdcStarved.books = s.books := foldl_books (fun s j => s.failCdc_books j 0x02D3) _ s

theorem State.restartSample_books (s : State) (pipe : Nat) : (s.restartSample pipe).books = s.books := by
  unfold State.restartSample
  split
  · rfl
  · exact (State.bump_books (i := 0x31E0) (by decide) (by decide) _ _).trans rfl

theorem State.intkStarved_books (s : State) : s.intkStarved.books = s.books := by
  unfold State.intkStarved
  refine foldl_books (fun s j => ?_) _ s
  exact State.failInstr_books (s.dropIntk j.ctx j.idx) j.ctx j.idx 0x02C1

end Sys2Proof.Machine
end

section
/-! Units that are reset and fenced (19 R494 to R499, R517). -/

namespace Sys2Proof.Machine
open Sys2Proof

/-! ### What goes on around a reset -/

/-- The cells' standing, the fences and the counters of resets stand, and no latched bit clears. -/
structure State.goesPast (s t : State) : Prop where
  cells : t.office.cells.map Cell.standing = s.office.cells.map Cell.standing
  ladder : ∀ sub, sub < 256 → t.count 0x4003 sub = s.count 0x4003 sub
  faults : s.faults.told t.faults

theorem State.goesPast.refl (s : State) : s.goesPast s := ⟨rfl, fun _ _ => rfl, .refl _⟩

theorem State.goesPast.trans {s t u : State} (h : s.goesPast t) (h' : t.goesPast u) : s.goesPast u :=
  ⟨h'.cells.trans h.cells, fun sub hsub => (h'.ladder sub hsub).trans (h.ladder sub hsub), h.faults.trans h'.faults⟩

theorem State.goesPast.of_tells {s t : State} (h : s.tells t) : s.goesPast t :=
  ⟨by rw [h.step.office], fun sub hsub => h.counts 0x4003 sub (by decide) (by decide) hsub, h.faults⟩

theorem State.goesPast.of_books {s t : State} (h : t.books = s.books) : s.goesPast t :=
  ⟨State.cells_of_books h, fun _ hsub => State.count_of_books h hsub, .of_eq (State.faults_of_books h)⟩

theorem State.goesPast.standing {s t : State} (h : s.goesPast t) {n : Nat} (hn : n < s.office.cells.length) :
    (t.cell n).standing = (s.cell n).standing := by
  have hlen : t.office.cells.length = s.office.cells.length := by simpa using congrArg List.length h.cells
  have hget : (t.office.cells.map Cell.standing)[n]? = (s.office.cells.map Cell.standing)[n]? := by rw [h.cells]
  rw [State.cell, State.cell, List.getD_eq_getElem _ _ (hlen ▸ hn), List.getD_eq_getElem _ _ hn]
  simpa [hlen, hn] using hget

theorem State.goesPast.cells_length {s t : State} (h : s.goesPast t) : t.office.cells.length = s.office.cells.length := by
  simpa using congrArg List.length h.cells

theorem State.goesPast.isFenced {s t : State} (h : s.goesPast t) (unit : Nat) : t.isFenced unit = s.isFenced unit := by
  obtain ⟨⟨_, _, _, _, _, _, hf⟩, -⟩ := h.faults
  rw [State.isFenced, State.isFenced, State.fenceOf, State.fenceOf, hf]

theorem State.goesPast.counts {s t : State} (h : s.goesPast t) : t.faults.counts = s.faults.counts := by
  obtain ⟨⟨_, _, _, _, _, _, hf⟩, -⟩ := h.faults
  rw [hf]

theorem State.cell_setCell_self {s : State} {n : Nat} (h : n < s.office.cells.length) (f : Cell → Cell) :
    (s.setCell n f).cell n = f (s.cell n) := by
  simp [State.cell, State.setCell, modifyAt_eq_modify, List.getD_eq_getElem?_getD, h]

/-! ### A cell that is fenced -/

/-- A cell leaves its chains and is fenced. -/
def State.cellFenced (s : State) (n : Nat) : State := (s.leaveChains n).setCell n (fun c => { c with fenced := true })

/-- A task of a cell that is being saved. -/
def State.saves (s : State) (n : Nat) (t : Task) : Bool := t.cell == n && t.phase == .stopped && (match s.ctx? t.ctx with
  | some x => x.suspending
  | none => false)

/-- What a cell held of tasks that are being saved is withdrawn (11 R298). -/
def State.stoppedLost (s : State) (n : Nat) : State :=
  { s with office := { s.office with
    tasks := modifyWhere (s.saves n) (fun t => { t with phase := .withdrawn, done := none }) s.office.tasks } }

theorem State.stoppedLost_books (s : State) (n : Nat) : (s.stoppedLost n).books = s.books := rfl

section
variable {s : State} {unit : Nat} (hf : s.isFenced unit = false) (origin cause : Nat)
include hf

theorem State.fenceNow_cell_eq (h : unit / 4096 = 1) : s.fenceNow unit origin cause =
    ((((((s.cellFenced (unit % 4096)).putFence unit 1 origin cause).redealCell (unit % 4096) 0).stoppedLost (unit % 4096)).checkBarren
      ((((s.cellFenced (unit % 4096)).putFence unit 1 origin cause).redealCell (unit % 4096) 0).partOfCell
        (unit % 4096))).serveTasks).watch cause := by
  unfold State.fenceNow
  rw [if_neg (by simp [hf])]
  dsimp only
  split <;> [rfl; omega; omega; omega; omega; omega; omega; exact absurd h (by assumption)]

theorem State.fenceNow_lane_eq (h : unit / 4096 = 2) : s.fenceNow unit origin cause = (s.setCell (unit % 4096 / 4) (fun c =>
    { c with lanesFenced := setBit c.lanesFenced (unit % 4096 % 4) true })).putFence unit 1 origin cause := by
  unfold State.fenceNow
  rw [if_neg (by simp [hf])]
  dsimp only
  split <;> [omega; rfl; omega; omega; omega; omega; omega; exact absurd h (by assumption)]

theorem State.fenceNow_codec_eq (h : unit / 4096 = 0xA) : s.fenceNow unit origin cause =
    (((s.setCodecPipe (unit % 4096) (fun p => { p with fenced := true })).putFence unit 1 origin cause).restartFrame
      (unit % 4096)).cdcStarved := by
  unfold State.fenceNow
  rw [if_neg (by simp [hf])]
  dsimp only
  split <;> [omega; omega; omega; omega; omega; rfl; omega; exact absurd h (by assumption)]

theorem State.fenceNow_intake_eq (h : unit / 4096 = 0xB) : s.fenceNow unit origin cause =
    (((s.setIntakePipe (unit % 4096) (fun p => { p with fenced := true })).putFence unit 1 origin cause).restartSample
      (unit % 4096)).intkStarved := by
  unfold State.fenceNow
  rw [if_neg (by simp [hf])]
  dsimp only
  split <;> [omega; omega; omega; omega; omega; omega; rfl; exact absurd h (by assumption)]

theorem State.fenceNow_cell (h : unit / 4096 = 1) :
    ((s.cellFenced (unit % 4096)).fenceNoted unit 1 origin cause).goesPast (s.fenceNow unit origin cause) := by
  rw [State.fenceNow_cell_eq hf origin cause h]
  refine .trans (.trans (.of_tells (State.putFence_tells _ _ _ _ _)) (.of_books ?_)) (.of_tells (State.watch_tells _ cause))
  rw [State.serveTasks_books, State.checkBarren_books, State.stoppedLost_books, State.redealCell_books]

end

/-- A unit of its own, not of a lane or a channel, that is fenced reads as fenced (19 R517). -/
theorem State.fenceNow_isFenced {s : State} {unit : Nat} (h : unit / 4096 = 1 ∨ unit / 4096 = 4 ∨ unit / 4096 = 0xA ∨ unit / 4096 = 0xB)
    (origin cause : Nat) : (s.fenceNow unit origin cause).isFenced unit = true := by
  have noted (t : State) : (t.fenceNoted unit 1 origin cause).isFenced unit = true := by
    rw [State.isFenced, State.fenceNoted_fenceOf_self]
    rfl
  cases hf : s.isFenced unit with
  | true => rw [State.fenceNow_fenced hf, hf]
  | false =>
    rcases h with h | h | h | h
    · rw [(State.fenceNow_cell hf origin cause h).isFenced, noted]
    · rw [State.fenceNow_engine h hf, State.putFence_isFenced _ _ (by decide)]
    · rw [State.fenceNow_codec_eq hf origin cause h,
        (State.goesPast.of_books ((State.cdcStarved_books _).trans (State.restartFrame_books _ _))).isFenced,
        State.putFence_isFenced _ _ (by decide)]
    · rw [State.fenceNow_intake_eq hf origin cause h,
        (State.goesPast.of_books ((State.intkStarved_books _).trans (State.restartSample_books _ _))).isFenced,
        State.putFence_isFenced _ _ (by decide)]

/-! ### An engine reset (19 R499) -/

/-- A reset is counted on the ladder. -/
def State.resetCounted (s : State) : State := s.bump 0x4003 2 1

/-- The announcement of an engine reset: latched in FaultSummary, posted and logged. -/
def State.resetTold (s : State) (unit cause : Nat) : State :=
  let s := ((s.bump 0x4003 2 1).raise 1 cause).post unit 3 cause s.anyDetail
  s.log unit cause 3 (s.partOfUnit unit) 0

theorem State.resetTold_tells (s : State) (unit cause : Nat) : s.resetCounted.tells (s.resetTold unit cause) := by
  unfold State.resetTold
  refine .trans ?_ (State.log_tells _ _ _ _ _ _)
  exact .trans (State.raise_tells _ 1 cause) (State.post_tells _ _ _ _ _)

theorem State.resetTold_latched (s : State) (unit cause : Nat) : bit (s.resetTold unit cause).faults.latched 1 = true := by
  unfold State.resetTold
  refine (State.log_tells _ _ _ _ _ _).faults.2 1 ?_
  exact (State.post_tells _ _ _ _ _).faults.2 1 (State.raise_latched _ 1 cause)

/-- The fence that a third reset in a window brings. -/
def State.thirdReset (unit cause : Nat) (r : State × Nat) : State := if 3 ≤ r.2 then r.1.fenceNow unit 0 cause else r.1

/-- The reset of a unit that is no pipe and no channel: its work is restarted, and its reset counted. -/
theorem State.engineReset_eq {s : State} {unit : Nat} (h : unit / 4096 ≠ 7) (ha : unit / 4096 ≠ 0xA) (hb : unit / 4096 ≠ 0xB) (cause : Nat) :
    s.engineReset unit cause = State.thirdReset unit cause (((s.resetTold unit cause).resetWork unit cause).countReset unit) := by
  unfold State.engineReset
  dsimp only
  have whole : (unit / 4096 == 0xA || unit / 4096 == 0xB) = false := by simp [ha, hb]
  rw [whole, Bool.false_and, if_neg Bool.false_ne_true, if_neg (by simpa using h)]
  rfl

theorem State.resetWork_cell {s : State} {unit : Nat} (h : unit / 4096 = 1) (cause : Nat) : (s.resetWork unit cause).books = s.books := by
  have eq : s.resetWork unit cause = (((s.metAgain (unit % 4096) cause).redealCell (unit % 4096) cause).clearCell (unit % 4096)).serveTasks := by
    unfold State.resetWork
    rw [h]
    rfl
  rw [eq, State.serveTasks_books, State.clearCell_books, State.redealCell_books, State.metAgain_books]

theorem State.resetWork_engine {s : State} {unit : Nat} (h : unit / 4096 = 4) (cause : Nat) : s.resetWork unit cause = s := by
  unfold State.resetWork
  rw [h]
  rfl

/-- A cell with one more reset. -/
def Cell.resetOnce (c : Cell) : Cell := { c with resets := c.resets + 1 }

/-- A cell that is fenced. -/
def Cell.fence (c : Cell) : Cell := { c with fenced := true }

theorem Cell.standing_resetOnce {c d : Cell} (h : c.standing = d.standing) : c.resetOnce.standing = d.resetOnce.standing := by
  simp only [Cell.standing, Cell.resetOnce, Prod.mk.injEq] at h ⊢
  simp [h]

theorem Cell.standing_fence {c d : Cell} (h : c.standing = d.standing) : c.fence.standing = d.fence.standing := by
  simp only [Cell.standing, Cell.fence, Prod.mk.injEq] at h ⊢
  simp [h]

theorem Cell.resets_of_standing {c d : Cell} (h : c.standing = d.standing) : c.resets = d.resets := congrArg (fun x => x.2.2.2.1) h

theorem Cell.fenced_of_standing {c d : Cell} (h : c.standing = d.standing) : c.fenced = d.fenced := congrArg (fun x => x.2.1) h

theorem State.setCell_length (s : State) (n : Nat) (f : Cell → Cell) : (s.setCell n f).office.cells.length = s.office.cells.length := by
  simp [State.setCell, modifyAt_eq_modify]

/-- A cell that is fenced stands as it did, fenced; the counters of resets stand and no latched bit clears. -/
theorem State.fenceNow_cell_standing {s : State} {unit : Nat} (h : unit / 4096 = 1) (hlen : unit % 4096 < s.office.cells.length)
    (hf : s.isFenced unit = false) (origin cause : Nat) :
    ((s.fenceNow unit origin cause).cell (unit % 4096)).standing = (s.cell (unit % 4096)).fence.standing ∧
      (∀ sub, sub < 256 → (s.fenceNow unit origin cause).count 0x4003 sub = s.count 0x4003 sub) ∧
      ∀ i, bit s.faults.latched i = true → bit (s.fenceNow unit origin cause).faults.latched i = true := by
  have chains := State.goesPast.of_books (s.leaveChains_books (unit % 4096))
  have chained : unit % 4096 < (s.leaveChains (unit % 4096)).office.cells.length := chains.cells_length ▸ hlen
  have fenced : (s.cellFenced (unit % 4096)).cell (unit % 4096) = ((s.leaveChains (unit % 4096)).cell (unit % 4096)).fence :=
    State.cell_setCell_self chained _
  have past := State.fenceNow_cell hf origin cause h
  refine ⟨?_, fun sub hsub => (past.ladder sub hsub).trans (chains.ladder sub hsub), fun i hi => past.faults.2 i (chains.faults.2 i hi)⟩
  rw [past.standing (n := unit % 4096) (show unit % 4096 < (State.setCell _ _ _).office.cells.length from (State.setCell_length _ _ _).symm ▸ chained)]
  exact (congrArg Cell.standing fenced).trans (Cell.standing_fence (chains.standing hlen))

/-- The reset of a cell: counted, latched, and the cell fenced with its third (19 R499, R517). -/
theorem State.engineReset_cell {s : State} {n : Nat} (hn : n < 256) (hlen : n < s.office.cells.length)
    (hf : s.isFenced (unitCell n) = false) (cause : Nat) :
    (s.engineReset (unitCell n) cause).count 0x4003 2 = (s.count 0x4003 2 + 1) % 2 ^ 64 ∧
      bit (s.engineReset (unitCell n) cause).faults.latched 1 = true ∧
      ((s.engineReset (unitCell n) cause).cell n).standing =
        (if 2 ≤ (s.cell n).resets then (s.cell n).resetOnce.fence else (s.cell n).resetOnce).standing := by
  have kind : unitCell n / 4096 = 1 := by unfold unitCell; omega
  have own : unitCell n % 4096 = n := by unfold unitCell; omega
  rw [State.engineReset_eq (by omega) (by omega) (by omega)]
  have worked := State.goesPast.of_books (State.resetWork_cell (s := s.resetTold (unitCell n) cause) kind cause)
  have past := (State.goesPast.of_tells (s.resetTold_tells (unitCell n) cause)).trans worked
  have latched := worked.faults.2 1 (s.resetTold_latched (unitCell n) cause)
  generalize (s.resetTold (unitCell n) cause).resetWork (unitCell n) cause = w at past latched ⊢
  have stands : (w.cell n).standing = (s.cell n).standing := past.standing (s := s.resetCounted) hlen
  have counted : w.count 0x4003 2 = (s.count 0x4003 2 + 1) % 2 ^ 64 :=
    (past.ladder 2 (by decide)).trans (State.count_bump_self s _ _ _)
  have unfenced : w.isFenced (unitCell n) = false := (past.isFenced _).trans hf
  have long : n < w.office.cells.length := by rw [past.cells_length]; exact hlen
  have reset : w.countReset (unitCell n) = (w.setCell n Cell.resetOnce, (w.cell n).resets + 1) := by
    unfold State.countReset
    rw [kind, own]
    rfl
  have again : ((w.setCell n Cell.resetOnce).cell n) = (w.cell n).resetOnce := State.cell_setCell_self long _
  have resets := Cell.resets_of_standing stands
  rw [reset, State.thirdReset]
  dsimp only
  by_cases hthird : 2 ≤ (s.cell n).resets
  · rw [if_pos (by omega), if_pos hthird]
    obtain ⟨hcell, hcount, hlatch⟩ := State.fenceNow_cell_standing (s := w.setCell n Cell.resetOnce) kind
      (by rw [own, State.setCell_length]; exact long) unfenced 0 cause
    rw [own, again] at hcell
    exact ⟨(hcount 2 (by decide)).trans counted, hlatch 1 latched, hcell.trans (Cell.standing_fence (Cell.standing_resetOnce stands))⟩
  · rw [if_neg (by omega), if_neg hthird, again]
    exact ⟨counted, latched, Cell.standing_resetOnce stands⟩

/-- The reset of a stream engine: counted in its window and latched, and the engine fenced with its third. -/
theorem State.engineReset_engine {s : State} {unit : Nat} (h : unit / 4096 = 4) (hf : s.isFenced unit = false) (cause : Nat) :
    ((s.engineReset unit cause).isFenced unit = true ↔ 2 ≤ kvGet unit 0 s.faults.counts) ∧
      kvGet unit 0 (s.engineReset unit cause).faults.counts = kvGet unit 0 s.faults.counts + 1 ∧
      bit (s.engineReset unit cause).faults.latched 1 = true := by
  rw [State.engineReset_eq (by omega) (by omega) (by omega), State.resetWork_engine h]
  have past := State.goesPast.of_tells (s.resetTold_tells unit cause)
  have latched := s.resetTold_latched unit cause
  generalize s.resetTold unit cause = w at past latched ⊢
  have counts : w.faults.counts = s.faults.counts := past.counts
  have unfenced : w.isFenced unit = false := (past.isFenced unit).trans hf
  have reset : w.countReset unit = ({ w with faults := { w.faults with
      counts := kvSet unit (kvGet unit 0 w.faults.counts + 1) w.faults.counts } }, kvGet unit 0 w.faults.counts + 1) := by
    unfold State.countReset
    rw [h]
    rfl
  rw [reset, State.thirdReset, counts]
  dsimp only
  by_cases hthird : 2 ≤ kvGet unit 0 s.faults.counts
  · rw [if_pos (by omega), State.fenceNow_engine (s := { w with faults := { w.faults with
      counts := kvSet unit (kvGet unit 0 s.faults.counts + 1) s.faults.counts } }) h unfenced]
    have put := State.goesPast.of_tells (State.putFence_tells { w with faults := { w.faults with
      counts := kvSet unit (kvGet unit 0 s.faults.counts + 1) s.faults.counts } } unit 1 0 cause)
    refine ⟨iff_of_true (State.putFence_isFenced _ _ (by decide) _ _) hthird, ?_, put.faults.2 1 latched⟩
    rw [put.counts]
    exact kvGet_kvSet_self _ _ _ _
  · rw [if_neg (by omega)]
    have still : ({ w with faults := { w.faults with
      counts := kvSet unit (kvGet unit 0 s.faults.counts + 1) s.faults.counts } } : State).isFenced unit = false := unfenced
    exact ⟨iff_of_false (by rw [still]; exact Bool.false_ne_true) hthird, kvGet_kvSet_self _ _ _ _, latched⟩

/-! ### A cell's uncorrectable state (19 R498) -/

/-- An error of a lane group is counted, and the group fenced with its second. -/
def State.laneFailed (s : State) (n g : Nat) : State :=
  if 4 ≤ g then s
  else
    let k := kvGet g 0 (s.cell n).laneErrors + 1
    let s := s.setCell n (fun c => { c with laneErrors := kvSet g k c.laneErrors })
    if 2 ≤ k then s.fenceNow (unitLane n g) 0 0x03F8 else s

theorem State.cell_setCell_laneErrors {s : State} {n : Nat} (hlen : n < s.office.cells.length) (m : Nat) {f : Cell → Cell}
    (hf : ∀ c, (f c).laneErrors = c.laneErrors) : ((s.setCell m f).cell n).laneErrors = (s.cell n).laneErrors := by
  by_cases h : m = n
  · subst h
    rw [State.cell_setCell_self hlen, hf]
  · have other : (s.setCell m f).cell n = s.cell n := by
      simp [State.cell, State.setCell, modifyAt_eq_modify, List.getD_eq_getElem?_getD, h]
    rw [other]

/-- The fence of a lane group leaves what the cells counted, and the group is fenced. -/
theorem State.fenceNow_lane {s : State} {n g : Nat} (hn : n < 256) (hg : g < 4) (hlen : n < s.office.cells.length) (cause : Nat) :
    ((s.fenceNow (unitLane n g) 0 cause).cell n).laneErrors = (s.cell n).laneErrors ∧
      (∀ i, bit s.faults.latched i = true → bit (s.fenceNow (unitLane n g) 0 cause).faults.latched i = true) ∧
      (s.fenceNow (unitLane n g) 0 cause).isFenced (unitLane n g) = true := by
  cases hf : s.isFenced (unitLane n g) with
  | true =>
    rw [State.fenceNow_fenced hf]
    exact ⟨rfl, fun _ hi => hi, hf⟩
  | false =>
    rw [State.fenceNow_lane_eq hf 0 cause (by unfold unitLane; omega)]
    have put := State.putFence_tells (s.setCell (unitLane n g % 4096 / 4) (fun c =>
      { c with lanesFenced := setBit c.lanesFenced (unitLane n g % 4096 % 4) true })) (unitLane n g) 1 0 cause
    refine ⟨?_, fun i hi => put.faults.2 i hi, State.putFence_isFenced _ _ (by decide) _ _⟩
    rw [State.cell, put.step.office]
    exact State.cell_setCell_laneErrors hlen _ (fun _ => rfl)

theorem State.laneFailed_spec {s : State} {n g : Nat} (hn : n < 256) (hg : g < 4) (hlen : n < s.office.cells.length) :
    kvGet g 0 ((s.laneFailed n g).cell n).laneErrors = kvGet g 0 (s.cell n).laneErrors + 1 ∧
      (∀ i, bit s.faults.latched i = true → bit (s.laneFailed n g).faults.latched i = true) ∧
      (1 ≤ kvGet g 0 (s.cell n).laneErrors → (s.laneFailed n g).isFenced (unitLane n g) = true) := by
  rw [State.laneFailed, if_neg (by omega)]
  dsimp only
  have counted : kvGet g 0 ((s.setCell n (fun c => { c with
      laneErrors := kvSet g (kvGet g 0 (s.cell n).laneErrors + 1) c.laneErrors })).cell n).laneErrors =
      kvGet g 0 (s.cell n).laneErrors + 1 := by
    rw [State.cell_setCell_self hlen]
    exact kvGet_kvSet_self _ _ _ _
  by_cases again : 1 ≤ kvGet g 0 (s.cell n).laneErrors
  · rw [if_pos (by omega)]
    obtain ⟨hcell, hlatch, hfence⟩ := State.fenceNow_lane hn hg ((State.setCell_length s n _).symm ▸ hlen) 0x03F8
    exact ⟨by rw [hcell, counted], hlatch, fun _ => hfence⟩
  · rw [if_neg (by omega)]
    exact ⟨counted, fun _ hi => hi, fun h => absurd h again⟩

/-- The announcement of a cell's uncorrectable state: posted, counted and latched. -/
def State.cellBad (s : State) (n : Nat) : State :=
  ((s.post (unitCell n) 1 0x03F8 s.anyDetail).bump 0x31C0 4 1).raise 7 0x03F8

theorem State.cellBad_office (s : State) (n : Nat) : (s.cellBad n).office = s.office := by
  unfold State.cellBad
  rw [(State.raise_tells _ 7 0x03F8).step.office]
  exact (State.post_tells s (unitCell n) 1 0x03F8 s.anyDetail).step.office

/-! ### Settling the obligation -/

theorem execEngineWatchdog_busy {s : State} {unit : Nat} (can : fenceable unit = true) (hf : s.isFenced unit = false)
    (serving : s.board.phase = .serving)
    (busy : (unit / 4096 = 4 ∧ s.powered (unit % 4096 / 8) = true) ∨
      (unit / 4096 = 7 ∧ s.board.power ≠ 2 ∧ (s.chan (unit % 4096)).active = true) ∨
      (unit / 4096 = 0xA ∧ (s.codec.pipes.getD (unit % 4096) (Pipe.init (unit % 4096))).job.isSome = true) ∨
      (unit / 4096 = 0xB ∧ (s.intake.pipes.getD (unit % 4096) (Pipe.init (unit % 4096))).job.isSome = true)) :
    execEngineWatchdog unit s = .next ((s.post unit 2 0x04F8 s.anyDetail).engineReset unit 0x04F8) := by
  unfold execEngineWatchdog
  dsimp only
  rcases busy with ⟨h, hp⟩ | ⟨h, hp, ha⟩ | ⟨h, hj⟩ | ⟨h, hj⟩
  · simp only [h, can, hf, hp, Bool.not_true, Bool.or_false, Bool.false_eq_true, if_false]
  · simp [h, can, hf, hp, ha, serving]
  · simp only [h, can, hf, hj, serving, beq_self_eq_true, Bool.and_true, Bool.not_true, Bool.or_false, Bool.false_eq_true, if_false]
  · simp only [h, can, hf, hj, serving, beq_self_eq_true, Bool.and_true, Bool.not_true, Bool.or_false, Bool.false_eq_true, if_false]

theorem execUncorrectableCellState_works {s : State} {n : Nat} (hn : n < 256) (hf : (s.cell n).fenced = false)
    (powered : s.powered (n / 64) = true) (runs : s.office.stopped.contains (s.partOfCell n) = false) (g : Nat) :
    execUncorrectableCellState n g s = .next ((((s.cellBad n).laneFailed n g).marTasks n).engineReset (unitCell n) 0x03F8) := by
  unfold execUncorrectableCellState
  rw [if_neg (by simp only [hf, powered, runs]; simpa using hn)]
  rfl

/-- Settles O59: what a reset announces and restarts leaves the standing of the cells and the fences. -/
theorem unitsAreResetAndFenced : Obligations.UnitsAreResetAndFenced := by
  unfold Obligations.UnitsAreResetAndFenced
  refine ⟨?_, ?_, ?_, ?_, ?_, ?_⟩
  · intro s n hn hlen hf powered runs busy unfenced
    have posted := State.goesPast.of_tells (s.post_tells (unitCell n) 2 0x04F8 s.anyDetail)
    obtain ⟨counted, latched, stands⟩ := State.engineReset_cell hn (posted.cells_length.symm ▸ hlen)
      ((posted.isFenced (unitCell n)).trans unfenced) 0x04F8
    have before := posted.standing hlen
    refine ⟨_, ?_, counted.trans (by rw [posted.ladder 2 (by decide)]), latched, ?_, ?_⟩
    · show execCellWatchdog n s = _
      unfold execCellWatchdog
      rw [if_neg (by simp only [hf, powered, runs]; simpa [busy] using hn)]
    · rw [Cell.resets_of_standing stands, ← Cell.resets_of_standing before]
      split <;> rfl
    · rw [Cell.fenced_of_standing stands, ← Cell.resets_of_standing before]
      split
      · next h => exact (decide_eq_true h).symm
      · next h => exact ((Cell.fenced_of_standing before).trans hf).trans (decide_eq_false h).symm
  · exact fun s unit can hf serving busy => execEngineWatchdog_busy can hf serving busy
  · exact fun s unit cause h hf => State.engineReset_engine h hf cause
  · intro s n g hn hlen hg hf powered runs
    have bad := s.cellBad_office n
    have cells : (s.cellBad n).cell n = s.cell n := by rw [State.cell, State.cell, bad]
    obtain ⟨errors, latched, fenced⟩ := State.laneFailed_spec hn hg (bad.symm ▸ hlen)
    rw [cells] at errors fenced
    exact ⟨_, execUncorrectableCellState_works hn hf powered runs g, latched 7 (State.raise_latched _ 7 0x03F8), errors, fenced⟩
  · intro s unit can lane port serving
    have kinds : unit / 4096 ≠ 7 → unit / 4096 = 1 ∨ unit / 4096 = 4 ∨ unit / 4096 = 0xA ∨ unit / 4096 = 0xB := by
      intro chan
      unfold fenceable at can
      dsimp only at can
      split at can <;> [omega; omega; omega; omega; omega; omega; omega; exact absurd can Bool.false_ne_true]
    refine ⟨?_, fun chan => State.fenceNow_isFenced (kinds chan) 0 0x04F8⟩
    show execEngineResetOverrun unit s = _
    unfold execEngineResetOverrun
    rw [if_neg (by simp [can, lane, port, serving])]
  · intro s r
    constructor
    · intro hr
      refine ⟨_, congrArg Host.Outcome.next (if_pos hr), ?_, ?_, rfl⟩
      · rintro c hc hregion
        obtain ⟨d, -, rfl⟩ := List.mem_map.mp hc
        by_cases hd : (d.id / 64 == r) = true
        · rw [if_pos hd]
          exact ⟨rfl, rfl⟩
        · rw [if_neg hd] at hregion
          exact absurd (beq_iff_eq.mpr hregion) hd
      · intro k hk
        simpa using (List.mem_filter.mp hk).2
    · intro hr
      refine ⟨_, congrArg Host.Outcome.next (if_neg (by omega)), rfl, rfl, ?_, ?_, rfl⟩
      · intro c hc
        obtain ⟨d, -, rfl⟩ := List.mem_map.mp hc
        exact ⟨rfl, rfl, rfl⟩
      · intro p hp
        rcases List.mem_append.mp hp with hp | hp <;> obtain ⟨q, -, rfl⟩ := List.mem_map.mp hp <;> rfl

end Sys2Proof.Machine
end

section
/-! How the module stands while jobs end, results go out and memory is written: its supply, its links and the partitions that stand
are as before, and where it has no session, no collective and no stream it comes to none. -/

namespace Sys2Proof.Machine
open Sys2Proof

/-- What of the module no work changes: its supply, its links, how far each port is up, the resets that run and the partitions that
stand. -/
def State.rails (s : State) : Board × List Bool × List PState × List Nat × Nat × List Nat :=
  (s.board, s.net.linkUp, s.fabric.ports.map (fun p => p.st), s.faults.annealing, s.faults.lastCause, s.office.stopped)

/-- `s` stands as `w` does: on the same rails, and without a session, a collective or a stream where `w` has none. -/
def State.stands (w s : State) : Prop :=
  s.rails = w.rails ∧ (w.net.sessions = [] → s.net.sessions = []) ∧ (w.coll.flight = [] → s.coll.flight = []) ∧
    (w.codec.streams = [] → s.codec.streams = [])

theorem State.stands.refl (s : State) : s.stands s := ⟨rfl, id, id, id⟩

theorem State.stands.trans {s t u : State} (h : s.stands t) (h' : t.stands u) : s.stands u :=
  ⟨h'.1.trans h.1, h'.2.1 ∘ h.2.1, h'.2.2.1 ∘ h.2.2.1, h'.2.2.2 ∘ h.2.2.2⟩

theorem State.stands.board {w s : State} (h : w.stands s) : s.board = w.board := congrArg Prod.fst h.1

theorem State.stands.linkUp {w s : State} (h : w.stands s) : s.net.linkUp = w.net.linkUp := congrArg (fun x => x.2.1) h.1

theorem State.stands.ports {w s : State} (h : w.stands s) :
    s.fabric.ports.map (fun p => p.st) = w.fabric.ports.map (fun p => p.st) := congrArg (fun x => x.2.2.1) h.1

theorem State.stands.annealing {w s : State} (h : w.stands s) : s.faults.annealing = w.faults.annealing :=
  congrArg (fun x => x.2.2.2.1) h.1

theorem State.stands.lastCause {w s : State} (h : w.stands s) : s.faults.lastCause = w.faults.lastCause :=
  congrArg (fun x => x.2.2.2.2.1) h.1

theorem State.stands.stopped {w s : State} (h : w.stands s) : s.office.stopped = w.office.stopped :=
  congrArg (fun x => x.2.2.2.2.2) h.1

theorem foldl_stands {α : Type} {f : State → α → State} {w : State} (hf : ∀ (s : State) (a : α), w.stands s → w.stands (f s a))
    (l : List α) {s : State} (h : w.stands s) : w.stands (l.foldl f s) := by
  induction l generalizing s with
  | nil => exact h
  | cons a l ih => exact ih (hf s a h)

theorem ite_stands {w s t : State} {c : Prop} [Decidable c] (hs : w.stands s) (ht : w.stands t) : w.stands (if c then s else t) := by
  split
  · exact hs
  · exact ht

/-- What only notes faults and tells of them leaves the module standing. -/
theorem State.stands.tells {w s t : State} (h : w.stands s) (h' : s.tells t) : w.stands t := by
  obtain ⟨⟨_, _, _, _, _, he⟩, -, ⟨⟨_, _, _, _, _, _, hf⟩, -⟩⟩ := h'
  subst he
  cases hf
  exact h.trans ⟨rfl, id, id, id⟩

theorem modifyAt_st {f : Port → Port} (hf : ∀ p, (f p).st = p.st) (i : Nat) (l : List Port) :
    (modifyAt f i l).map (fun p => p.st) = l.map (fun p => p.st) := by
  induction l generalizing i with
  | nil => cases i <;> rfl
  | cons p l ih =>
    cases i with
    | zero => simp [modifyAt, hf]
    | succ i => simp [modifyAt, ih]

section
variable {w s : State} (h : w.stands s)
include h

/-! ### Single writes -/

theorem State.stands.bump (idx sub n : Nat) : w.stands (s.bump idx sub n) := h
theorem State.stands.drew : w.stands s.drew := h
theorem State.stands.setCell (i : Nat) (f : Cell → Cell) : w.stands (s.setCell i f) := h
theorem State.stands.setChan (i : Nat) (f : Chan → Chan) : w.stands (s.setChan i f) := h
theorem State.stands.retireWcb (e : Wcb) : w.stands (s.retireWcb e) := h
theorem State.stands.spoil (a n : Nat) : w.stands (s.spoil a n) := h
theorem State.stands.poisonUnits (us : List Nat) : w.stands (s.poisonUnits us) := h
theorem State.stands.clearRun (a n : Nat) : w.stands (s.clearRun a n) := h
theorem State.stands.dropReqs (p : Req → Bool) : w.stands (s.dropReqs p) := h
theorem State.stands.dropCopy (c : Copy) : w.stands (s.dropCopy c) := h
theorem State.stands.chargeWrite (ctx code : Nat) : w.stands (s.chargeWrite ctx code) := h
theorem State.stands.setCtx (c : Nat) (f : Ctx → Ctx) : w.stands (s.setCtx c f) := h
theorem State.stands.setQueue (c : Nat) (f : Queue → Queue) : w.stands (s.setQueue c f) := h
theorem State.stands.setJob (c : Nat) (f : Job → Job) : w.stands (s.setJob c f) := h
theorem State.stands.setFlight (c i : Nat) (f : InFlight → InFlight) : w.stands (s.setFlight c i f) := h
theorem State.stands.keepRead (e : Env) (id : Nat) (q : Nat × Nat) : w.stands (s.keepRead e id q) := h
theorem State.stands.postAll : w.stands s.postAll := h
theorem State.stands.leaveStream (f : InFlight) : w.stands (s.leaveStream f) := h
theorem State.stands.setGrid (c idx : Nat) (l : List (Nat × Nat × Nat × Nat)) : w.stands (s.setGrid c idx l) := h
theorem State.stands.setIntk (c idx : Nat) (f : IntakeJob → IntakeJob) : w.stands (s.setIntk c idx f) := h
theorem State.stands.dropIntk (c idx : Nat) : w.stands (s.dropIntk c idx) := h
theorem State.stands.setIntkPipe (p : Nat) (f : Pipe → Pipe) : w.stands (s.setIntkPipe p f) := h
theorem State.stands.setCdc (c idx : Nat) (f : CodecJob → CodecJob) : w.stands (s.setCdc c idx f) := h
theorem State.stands.dropCdc (c idx : Nat) : w.stands (s.dropCdc c idx) := h
theorem State.stands.idleCdc (c idx : Nat) : w.stands (s.idleCdc c idx) := h

theorem State.stands.withMem (m : MemSys) : w.stands { s with mem := m } := h
theorem State.stands.withCs (c : Stream) : w.stands { s with cs := c } := h
theorem State.stands.withResults (l : List Result) (n : Nat) :
    w.stands { s with net := { s.net with results := l, nextResult := n } } := h

theorem State.stands.bumps (l : List (Nat × Nat)) : w.stands (s.bumps l) := by
  unfold State.bumps
  refine foldl_stands (fun _ e hs => ?_) l h
  exact hs.bump _ _ e.2

/-! ### Notices -/

theorem State.stands.commitWith (l : List Rec) : w.stands (s.commitWith l) := h.tells (s.commitWith_tells l)
theorem State.stands.journal (must : Bool) (r : Rec) : w.stands (s.journal must r) := h.tells (s.journal_tells must r)
theorem State.stands.forceCommit : w.stands s.forceCommit := h.tells s.forceCommit_tells
theorem State.stands.post (unit event status detail : Nat) : w.stands (s.post unit event status detail) :=
  h.tells (s.post_tells unit event status detail)
theorem State.stands.log (unit status severity part detail : Nat) : w.stands (s.log unit status severity part detail) :=
  h.tells (s.log_tells unit status severity part detail)
theorem State.stands.flushEmergency : w.stands s.flushEmergency := h.tells s.flushEmergency_tells
theorem State.stands.raise (bitNo status : Nat) : w.stands (s.raise bitNo status) := h.tells (s.raise_tells bitNo status)
theorem State.stands.watch (status : Nat) : w.stands (s.watch status) := h.tells (s.watch_tells status)

theorem State.stands.putFence (unit state origin cause : Nat) : w.stands (s.putFence unit state origin cause) :=
  State.stands.tells (s := s.fenceNoted unit state origin cause) h (s.putFence_tells unit state origin cause)

theorem State.stands.dropFence (unit : Nat) : w.stands (s.dropFence unit) := by
  unfold State.dropFence
  split
  · exact h
  · exact ((State.stands.journal (s := { s with faults := { s.faults with
      fences := s.faults.fences.filter (fun x => x.unit != unit) } }) h _ _).forceCommit).watch 0

theorem State.stands.markChannel (n origin cause : Nat) : w.stands (s.markChannel n origin cause) :=
  ite_stands h ((h.setChan n _).putFence _ _ _ _)

theorem State.stands.badReads (n k : Nat) : w.stands (s.badReads n k) :=
  ite_stands ((h.setChan n _).markChannel n 0 0x0302) (h.setChan n _)

theorem State.stands.keep (idx sub width v : Nat) : w.stands (s.keep idx sub width v) :=
  State.stands.journal (s := s.dset idx sub v) h _ _

/-! ### Memory -/

theorem State.stands.storeByte (a : Nat) (v : Byte) : w.stands (s.storeByte a v) := by
  unfold State.storeByte
  refine ite_stands ?_ h
  split
  · exact ite_stands ((h.setChan _ _).bump _ _ _) (h.setChan _ _)
  · exact h

theorem State.stands.mergeLine (line : Nat) (addrs : List Nat) : w.stands (s.mergeLine line addrs) := by
  unfold State.mergeLine
  refine ite_stands h ?_
  split
  · exact ite_stands h (ite_stands h h)
  · refine ite_stands h ?_
    dsimp only
    split
    · exact h
    · split
      · exact h
      · next e _ _ => exact h.retireWcb e

end

theorem State.stands.storeBytes {w s : State} (h : w.stands s) (a : Nat) (bs : Bytes) : w.stands (s.storeBytes a bs) := by
  induction bs generalizing s a with
  | nil => exact h
  | cons b bs ih => exact ih (h.storeByte a b) (a + 1)

theorem State.stands.mergeLines {w s : State} (h : w.stands s) (a n f : Nat) : w.stands (s.mergeLines a n f) := by
  induction f generalizing s a n with
  | zero => exact h
  | succ f ih => exact ite_stands h (ih (h.mergeLine _ _) _ _)

section
variable {w s : State} (h : w.stands s)
include h

theorem State.stands.writeBytes (a : Nat) (bs : Bytes) : w.stands (s.writeBytes a bs) :=
  ite_stands ((((h.spoil _ _).storeBytes a bs).mergeLines a _ _).bump _ _ _) ((h.spoil _ _).storeBytes a bs)

theorem State.stands.readRuns (l : List (Nat × Nat)) : w.stands (s.readRuns l) := by
  unfold State.readRuns
  exact ite_stands (t := (((s.bumps (s.readEvents (s.gddrBytes l))).bump 0x31C0 1 (s.gddrBytes l)).drew)) h
    ((h.bumps _).bump _ _ _).drew

end

end Sys2Proof.Machine
end

section
/-! The module stands while messages go out and jobs end (11 R276, R286, 16 R421). -/

namespace Sys2Proof.Machine
open Sys2Proof

section
variable {w s : State} (h : w.stands s)
include h

/-! ### Wire -/

theorem State.stands.setPort (i : Nat) {f : Port → Port} (hf : ∀ p, (f p).st = p.st) : w.stands (s.setPort i f) :=
  h.trans ⟨by simp only [State.rails, State.setPort, modifyAt_st hf], id, id, id⟩

theorem State.stands.freePlace (f : Flit) : w.stands (s.freePlace f) := by
  unfold State.freePlace
  split
  · exact h
  · exact h.setPort _ (fun _ => rfl)

theorem State.stands.routeFlit (f : Flit) : w.stands (s.routeFlit f) :=
  ite_stands ((h.freePlace f).bump _ _ _) (ite_stands h (h.setPort _ (fun _ => rfl)))

theorem State.stands.routeFlits (l : List Flit) : w.stands (l.foldl (fun s f => s.routeFlit f) s) :=
  foldl_stands (fun _ f hs => hs.routeFlit f) l h

theorem State.stands.sendPacket (cls dest post : Nat) (payload : Bytes) : w.stands (s.sendPacket cls dest post payload) :=
  h.routeFlits _

theorem State.stands.refuse (part dest code : Nat) : w.stands (s.refuse part dest code) := h.routeFlits _

theorem State.stands.request (kind : ReqKind) (ctx idx part node addr len : Nat) (data : Bytes) (session seq : Nat) :
    w.stands (s.request kind ctx idx part node addr len data session seq) := by
  unfold State.request
  exact (h.withCs _).routeFlits _

/-! ### Copies of far granules -/

theorem State.stands.chargeWrites (l : List Nat) (code : Nat) : w.stands (l.foldl (fun s w => s.chargeWrite w code) s) :=
  foldl_stands (fun _ _ hs => hs.chargeWrite _ _) l h

theorem State.stands.lostBack (node addr code : Nat) : w.stands (s.lostBack node addr code) := by
  unfold State.lostBack
  split
  · exact h
  · exact h.chargeWrites _ code

theorem State.stands.lostFetch (node addr code : Nat) : w.stands (s.lostFetch node addr code) := by
  unfold State.lostFetch
  exact foldl_stands (fun _ _ hs => hs.chargeWrites _ code) (s.mem.copies.filter (fun c => c.node == node && c.addr == addr)) h

theorem State.stands.writeBack (c : Copy) : w.stands (s.writeBack c) :=
  ite_stands h (ite_stands (h.lostBack _ _ _) (h.request _ _ _ _ _ _ _ _ _ _))

theorem State.stands.evict (c : Copy) : w.stands (s.evict c) := by
  unfold State.evict
  exact ite_stands ((h.withMem _).writeBack c) ((h.dropCopy c).bump _ _ _)

end

theorem State.stands.makeRoom {w s : State} (h : w.stands s) (n f : Nat) : w.stands (s.makeRoom n f) := by
  induction f generalizing s with
  | zero => exact h
  | succ f ih =>
    unfold State.makeRoom
    refine ite_stands h ?_
    split
    · exact ih (h.evict _)
    · exact h

section
variable {w s : State} (h : w.stands s)
include h

theorem State.stands.copyWrite (ctx g : Nat) (bs : Bytes) : w.stands (s.copyWrite ctx g bs).1 := by
  have room : w.stands s.copyRoom.1 := h.makeRoom _ _
  unfold State.copyWrite
  dsimp only
  split
  · exact h
  · split
    · refine ite_stands room (ite_stands ?_ ?_)
      · exact (room.withMem _).lostFetch _ _ _
      · exact (room.withMem _).request _ _ _ _ _ _ _ _ _ _
    · exact room

theorem State.stands.writeGlobal (ctx idx part : Nat) (b : Nat × Bytes) : w.stands (s.writeGlobal ctx idx part b) := by
  unfold State.writeGlobal
  refine ite_stands (h.writeBytes _ _) (foldl_stands (fun t x ht => ?_) _ h)
  have direct : ∀ {u : State}, w.stands u → w.stands (if u.unreachable (gNode x.1) != 0
      then u.chargeWrite ctx (u.unreachable (gNode x.1))
      else u.request .write ctx idx part (gNode x.1) (gLocal x.1) x.2.length x.2 0 0) :=
    fun hu => ite_stands (hu.chargeWrite _ _) (hu.request _ _ _ _ _ _ _ _ _ _)
  exact ite_stands (ite_stands (ht.copyWrite _ _ _) (direct (ht.copyWrite _ _ _))) (direct ht)

theorem State.stands.writeGlobals (ctx idx part : Nat) (l : List (Nat × Bytes)) :
    w.stands (l.foldl (fun s b => s.writeGlobal ctx idx part b) s) :=
  foldl_stands (fun _ b hs => hs.writeGlobal ctx idx part b) l h

/-! ### Sessions -/

theorem State.stands.setSession (id : Nat) (f : Session → Session) : w.stands (s.setSession id f) :=
  h.trans ⟨rfl, fun none => by rw [State.setSession, none]; rfl, fun e => e, fun e => e⟩

theorem State.stands.putDgram (d : OutDgram) : w.stands (s.putDgram d) := ite_stands h h

theorem State.stands.emit (x : Session) (m : SentMsg) : w.stands (s.emit x m) := (h.putDgram _).setSession _ _

theorem State.stands.sendMsg (id type status post : Nat) (body : Bytes) : w.stands (s.sendMsg id type status post body) := by
  unfold State.sendMsg
  split
  · exact h
  · have counted := (h.setSession id (fun x => { x with txNext := (x.txNext + 1) % 2 ^ 32 })).bump 0x3240 2 1
    exact ite_stands ((counted.setSession _ _).emit _ _) (counted.setSession _ _)

theorem State.stands.endClosing (id : Nat) : w.stands (s.endClosing id) := by
  unfold State.endClosing
  split
  · exact h
  · refine ite_stands (h.trans ⟨rfl, fun none => ?_, fun e => e, fun e => e⟩) h
    dsimp only
    rw [none]
    rfl

theorem State.stands.reply (id seq status post value : Nat) : w.stands (s.reply id seq status post value) :=
  (h.sendMsg _ _ _ _ _).endClosing id

theorem State.stands.progress (c : Nat) : w.stands (s.progress c) := by
  unfold State.progress
  split
  · exact h
  · exact ite_stands h (h.sendMsg _ _ _ _ _)

theorem State.stands.enter (c : Nat) (st : CtxState) : w.stands (s.enter c st) := by
  unfold State.enter
  split
  · exact h
  · exact ((h.setCtx c (fun x => { x with state := st })).post _ _ _ _).progress c

/-! ### Contexts -/

theorem State.stands.dropSlot (x : Ctx) : w.stands (s.dropSlot x) := ite_stands h h

theorem State.stands.goLive (c : Nat) : w.stands (s.goLive c) := (h.setQueue c _).enter c .live

theorem State.stands.dropSave (c : Nat) : w.stands (s.dropSave c) := by
  unfold State.dropSave
  split
  · exact h
  · split
    · exact h
    · exact h

theorem State.stands.suspendStart (c : Nat) (held : Bool) : w.stands (s.suspendStart c held) := by
  unfold State.suspendStart
  split
  · exact h
  · split
    · exact h
    · exact h

end

theorem State.stands.runTriggersOf {w s : State} (h : w.stands s) (l : List (Nat × Nat)) : w.stands (s.runTriggersOf l) := by
  induction l generalizing s with
  | nil => exact h
  | cons t l ih =>
    unfold State.runTriggersOf
    split
    · exact ih h
    · exact ite_stands (ih h) (ite_stands (ih (h.suspendStart _ _)) (ih h))

section
variable {w s : State} (h : w.stands s)
include h

theorem State.stands.runTriggers : w.stands s.runTriggers :=
  State.stands.runTriggersOf (s := { s with office := { s.office with triggers := [] } }) h _

theorem State.stands.endCopies (c : Nat) : w.stands (s.endCopies c) := by
  unfold State.endCopies
  exact foldl_stands (fun _ x hs => hs.writeBack x) (s.mem.copies.filter (fun x => x.job == c && x.dirty)) h

theorem State.stands.dropWork (c : Nat) : w.stands (s.dropWork c) := by
  refine h.trans ⟨rfl, fun e => e, fun none => ?_, fun none => ?_⟩
  · rw [State.dropWork, none]
    rfl
  · rw [State.dropWork, none]
    rfl

theorem State.stands.dropStreams (p : Codec → Bool) :
    w.stands { s with codec := { s.codec with streams := s.codec.streams.filter p } } :=
  h.trans ⟨rfl, fun e => e, fun e => e, fun none => by dsimp only; rw [none]; rfl⟩

theorem State.stands.freeCtx (c : Nat) : w.stands (s.freeCtx c) := by
  unfold State.freeCtx
  refine State.stands.runTriggers ?_
  exact ((h.dropSave c).dropWork c).dropStreams (fun x => x.ctx != c)

/-! ### Results (16 R423) -/

theorem State.stands.failDelivery (r : Result) : w.stands (s.failDelivery r) := by
  unfold State.failDelivery
  have dropped : w.stands (({ s with net := { s.net with
    results := s.net.results.filter (fun x => x.id != r.id) } } : State).bump 0x3240 6 1) := h
  exact ite_stands ((dropped.progress _).freeCtx _) (dropped.refuse _ _ _)

end

theorem State.stands.sendResults {w s : State} (h : w.stands s) (sess job post off : Nat) (l : List Bytes) :
    w.stands (s.sendResults sess job post off l) := by
  induction l generalizing s off with
  | nil => exact h
  | cons b l ih => exact ih (h.sendMsg _ _ _ _ _) _

/-- The result of a job that ended goes to who submitted it, or is lost with its node. -/
def State.resultOut (s : State) (c : Nat) (x : Ctx) (status : Nat) : State :=
  let j := x.job
  let n := if isSuccess status then c else 2 ^ 32 + x.partition
  if j.resultNode == 0xFFFF || j.resultNode == s.node then
    s.holdResult 0xFFFF n x.client x.jobId j.resultSession j.resultRef status
  else if s.unreachable j.resultNode != 0 then ((s.bump 0x3240 6 1).progress c).freeCtx c
  else s.request .result n 0 x.partition j.resultNode 0 0 (beBytes 2 x.client ++ beBytes 4 x.jobId ++
    beBytes 4 j.resultSession ++ beBytes 5 j.resultRef ++ beBytes 2 status) 0 0

section
variable {w s : State} (h : w.stands s)
include h

theorem State.stands.sendResult (r : Result) (stream : Bytes) : w.stands (s.sendResult r stream) := by
  unfold State.sendResult
  split
  · exact h
  · exact (h.sendResults r.session r.jobId _ 0 (chunks 8912 stream)).sendMsg _ _ _ _ _

theorem State.stands.deliver (r : Result) : w.stands (s.deliver r) := by
  unfold State.deliver
  split
  · exact h
  · refine ite_stands h (ite_stands (h.sendResult _ _) ?_)
    dsimp only
    refine ite_stands (h.failDelivery r) (ite_stands (h.failDelivery r) (ite_stands ((h.readRuns _).sendResult _ _)
      (ite_stands (h.failDelivery r) ?_)))
    refine foldl_stands (fun _ q hs => hs.request _ _ _ _ _ _ _ _ _ _) _ ?_
    exact foldl_stands (fun _ q hs => hs.keepRead _ _ q) _ (h.readRuns _)

theorem State.stands.holdResult (node ctx client job sess ref status : Nat) :
    w.stands (s.holdResult node ctx client job sess ref status) := by
  unfold State.holdResult
  exact (h.withResults _ _).deliver _

theorem State.stands.resultOut (c : Nat) (x : Ctx) (status : Nat) : w.stands (s.resultOut c x status) :=
  ite_stands (h.holdResult _ _ _ _ _ _ _) (ite_stands (((h.bump _ _ _).progress c).freeCtx c) (h.request _ _ _ _ _ _ _ _ _ _))

theorem State.stands.endJob (c status : Nat) : w.stands (s.endJob c status) := by
  unfold State.endJob
  split
  · exact h
  · next x _ =>
    have ending := (((h.setJob c (fun j => { j with delivering := true, status := status })).enter c .ending).endCopies c).dropSlot x
    exact ite_stands h (ite_stands (ending.resultOut c x status) ((ending.resultOut c x status).freeCtx c))

theorem State.stands.finishJob (c : Nat) : w.stands (s.finishJob c) := by
  unfold State.finishJob
  split
  · exact h
  · exact ite_stands (h.endJob _ _) h

theorem State.stands.startCtx (c : Nat) : w.stands (s.startCtx c) := by
  unfold State.startCtx
  split
  · exact h
  · exact ite_stands ((h.goLive c).finishJob c) h

theorem State.stands.checkBarren (p : Nat) : w.stands (s.checkBarren p) := ite_stands h h

end

end Sys2Proof.Machine
end

section
/-! The module stands while instructions are run, failed and settled, and while pipes, streams and collectives work. -/

namespace Sys2Proof.Machine
open Sys2Proof

/-! ### Instructions that end -/

section
variable {w s : State} (h : w.stands s)
include h

theorem State.stands.writeAll (l : List (Nat × Bytes)) : w.stands (l.foldl (fun s b => s.writeBytes b.1 b.2) s) :=
  foldl_stands (fun _ b hs => hs.writeBytes b.1 b.2) l h

theorem State.stands.scramble (f : InFlight) : w.stands (s.scramble f) := by
  unfold State.scramble
  refine State.stands.drew (State.stands.writeAll (ite_stands ?_ (State.stands.writeAll ?_ _)) _)
  all_goals exact foldl_stands (fun _ x hs => ite_stands (hs.writeBytes _ _) hs) f.outs h

theorem State.stands.dropColl (c idx : Nat) : w.stands (s.dropColl c idx) :=
  h.trans ⟨rfl, fun e => e, fun none => by rw [State.dropColl, none]; rfl, fun e => e⟩

theorem State.stands.failInstr (c idx code : Nat) : w.stands (s.failInstr c idx code) := by
  unfold State.failInstr
  split
  · exact h
  · exact (((h.scramble _).dropColl c idx).dropReqs _).setFlight c idx _

theorem State.stands.failDry : w.stands s.failDry := by
  unfold State.failDry
  exact foldl_stands (fun _ f hs => hs.failInstr _ _ _) (s.cs.flight.filter s.dry) h

theorem State.stands.reseedCell (cell : Nat) : w.stands (s.reseedCell cell) :=
  ite_stands ((h.setCell cell _).bump _ _ _).failDry ((h.setCell cell _).bump _ _ _)

theorem State.stands.clearCell (cell : Nat) : w.stands (s.clearCell cell) := (h.clearRun _ _).reseedCell cell

theorem State.stands.countWork (f : InFlight) : w.stands (s.countWork f) := ite_stands (h.bumps _) (ite_stands h (h.bumps _).drew)

theorem State.stands.unspoil (u : State) (f : InFlight) : w.stands (u.unspoil s f) := ite_stands h h

theorem State.stands.putResult (f : InFlight) (b : Nat × Bytes) : w.stands (s.putResult f b) :=
  ite_stands ((h.writeGlobal f.ctx f.idx f.partition b).unspoil s f) (h.writeGlobal f.ctx f.idx f.partition b)

end

theorem State.stands.retire {w s : State} (h : w.stands s) (c f : Nat) : w.stands (s.retire c f) := by
  induction f generalizing s with
  | zero => exact h
  | succ f ih =>
    unfold State.retire
    split
    · exact h
    · exact ite_stands (ih ((h.withCs _).setQueue c _)) h

section
variable {w s : State} (h : w.stands s)
include h

theorem State.stands.settle (x : Ctx) (f : InFlight) : w.stands (s.settle x f) := by
  unfold State.settle
  have put := foldl_stands (fun _ b hs => State.stands.putResult hs f b) ((s.leaveStream f).results f) (h.leaveStream f)
  have counted := (put.countWork f).bump 0x3190 6 f.compat
  refine ite_stands ?_ (State.stands.log ?_ _ _ _ _ _)
  all_goals exact (((ite_stands (counted.writeBytes _ _) counted).bump _ _ _).retire f.ctx 16).setJob f.ctx _

theorem State.stands.endAll (c code : Nat) (copies : Bool) : w.stands (s.endAll c code copies) := by
  unfold State.endAll
  split
  · exact h
  · next x _ =>
    exact foldl_stands (fun _ f hs => ite_stands (hs.settle x f) ((hs.scramble f).settle x _))
      (s.cs.flight.filter (fun f => f.ctx == c)) h

theorem State.stands.mapStreams (p : Codec → Bool) (f : Codec → Codec) :
    w.stands { s with codec := { s.codec with streams := modifyWhere p f s.codec.streams } } :=
  h.trans ⟨rfl, fun e => e, fun e => e, fun none => by dsimp only; rw [none]; rfl⟩

theorem State.stands.errorStreams (c : Nat) : w.stands (s.errorStreams c) := h.mapStreams _ _

/-! ### Poison and tasks -/

theorem State.stands.sawPoison (us : List Nat) : w.stands (s.sawPoison us) := by
  have seen := foldl_stands (fun t u ht => ite_stands (c := (t.mem.window (16 * u) == 1) = true)
    (State.stands.badReads ht (t.chanOf (16 * u)) 1) ht) us (h.bump 0x31C0 4 us.length)
  have raised := ite_stands (c := (us.any (fun u => (us.foldl (fun s u => if s.mem.window (16 * u) == 1 then
    s.badReads (s.chanOf (16 * u)) 1 else s) (s.bump 0x31C0 4 us.length)).mem.window (16 * u) == 1)) = true) (seen.raise 6 0x0302) seen
  exact ite_stands (raised.raise 7 0x0302) raised

end

theorem State.stands.cellTake {w s : State} (h : w.stands s) (cell f : Nat) : w.stands (s.cellTake cell f) := by
  induction f generalizing s with
  | zero => exact h
  | succ f ih =>
    unfold State.cellTake
    refine ite_stands h ?_
    split
    · exact h
    · exact ih (((State.stands.setCell (s := { s with office := { s.office with tasks := modifyWhere _ _ s.office.tasks } })
        h cell _).bump _ _ _).bump _ _ _)

section
variable {w s : State} (h : w.stands s)
include h

theorem State.stands.serveTasks : w.stands s.serveTasks := by
  unfold State.serveTasks
  exact foldl_stands (fun _ c hs => State.stands.cellTake hs c 2) _ h.postAll

theorem State.stands.withTasks (l : List Task) : w.stands { s with office := { s.office with tasks := l } } := h

theorem State.stands.deal (c idx prio : Nat) (l : List (Nat × Nat × Nat × Nat)) (done : Nat → Nat → Option Progress) :
    w.stands (s.deal c idx prio l done) := by
  unfold State.deal
  exact ((h.withTasks _).bump _ _ _).serveTasks

theorem State.stands.holdSheets (c : Nat) (l : Option (List SheetSet)) : w.stands (s.holdSheets c l) := by
  unfold State.holdSheets
  split
  · exact h
  · exact h

/-! ### Work of intake pipes (14 R359) -/

theorem State.stands.intkEnd (c idx : Nat) : w.stands (s.intkEnd c idx) := by
  unfold State.intkEnd
  split
  · refine ite_stands ?_ h
    exact ((h.writeGlobals _ _ _ _).dropIntk c idx).setFlight c idx _
  · exact h

theorem State.stands.countSlot (e : Env) (j : IntakeJob) (slot : Nat) (x : Sample) : w.stands (s.countSlot e j slot x) :=
  ite_stands (h.bump _ _ _) (h.bump _ _ _)

theorem State.stands.slotDone (pipe c idx slot code : Nat) : w.stands (s.slotDone pipe c idx slot code) := by
  unfold State.slotDone
  split
  · refine State.stands.intkEnd (State.stands.setIntk (State.stands.setIntkPipe (State.stands.dropReqs
      (State.stands.writeGlobals (ite_stands (State.stands.sawPoison ?_ _) ?_) _ _ _ _) _) _ _) _ _ _) _ _
    all_goals exact ite_stands (((h.readRuns _).countSlot _ _ _ _).bump _ _ _) (h.bump _ _ _)
  · exact h

theorem State.stands.sampleLost (c idx slot : Nat) : w.stands (s.sampleLost c idx slot) := by
  unfold State.sampleLost
  split
  · exact h.slotDone _ _ _ _ _
  · exact h

/-! ### Work of streams (15 R394 to R402) -/

theorem State.stands.setStream (i : Nat) (f : Codec → Codec) : w.stands (s.setStream i f) := h.mapStreams _ _

theorem State.stands.failCdc (j : CodecJob) (code : Nat) : w.stands (s.failCdc j code) :=
  (((h.dropCdc _ _).idleCdc _ _).setStream _ _).failInstr _ _ code

theorem State.stands.endCdc (c idx : Nat) (closed : Bool) : w.stands (s.endCdc c idx closed) := by
  unfold State.endCdc
  split
  · refine ite_stands (State.stands.dropStreams ?_ _) ?_
    all_goals exact (((h.writeGlobal _ _ _ _).dropCdc c idx).idleCdc c idx).setFlight c idx _
  · exact h

theorem State.stands.putCoded (e : Env) (j : CodecJob) (part : Nat) (l : List Bytes) : w.stands (s.putCoded e j part l) := by
  unfold State.putCoded
  refine State.stands.bump (State.stands.bump (State.stands.setCdc (ite_stands (h.writeGlobal _ _ _ _) ?_) _ _ _) _ _ _) _ _ _
  exact foldl_stands (fun _ i hs => ite_stands (State.stands.writeGlobal hs _ _ _ _) hs) (List.range l.length) (h.writeGlobal _ _ _ _)

theorem State.stands.outputFrame (x : Codec) (j : CodecJob) (e : Env) (part : Nat) (g : Frame) :
    w.stands (s.outputFrame x j e part g) := by
  unfold State.outputFrame
  have out := h.writeGlobals j.ctx j.idx part (e.frameWrites x.params (e.desc (cdcPixel j.block)) j.framesDone g)
  have noted := (ite_stands (c := (cdcStatus j.block == 0 || cdcKind j.block != 3) = true) out
    (out.writeGlobal j.ctx j.idx part ((e.desc (cdcStatus j.block)).base + 2 * j.framesDone, leBytes 2 g.status))).bump 0x31F0 2 1
  exact ((ite_stands (noted.bump _ _ _) (ite_stands (noted.bump _ _ _) noted)).setCdc _ _ _).setStream _ _

end

theorem State.stands.decodeOn {w s : State} (h : w.stands s) (c idx fuel : Nat) : w.stands (s.decodeOn c idx fuel) := by
  induction fuel generalizing s with
  | zero => exact h
  | succ fuel ih =>
    unfold State.decodeOn
    split
    · dsimp only
      split
      · exact h
      · have stop := (h.setCdc c idx (fun j => { j with notes := j.notes ++ [0x00D3] })).endCdc c idx false
        split
        · exact ite_stands stop (ih (h.outputFrame _ _ _ _ _))
        · exact ite_stands (h.endCdc c idx true) (ite_stands (h.endCdc c idx false) (ite_stands (h.failCdc _ _)
            (ite_stands (ih (((h.setStream _ _).setCdc c idx _).bump _ _ _)) (ite_stands stop h))))
    · exact h

section
variable {w s : State} (h : w.stands s)
include h

theorem State.stands.closeEncoder (x : Codec) (j : CodecJob) (e : Env) (part : Nat) : w.stands (s.closeEncoder x j e part) :=
  ite_stands ((h.setCdc _ _ _).endCdc _ _ false)
    ((((((h.putCoded e j part _).writeGlobal _ _ _ _).setCdc _ _ _).bump _ _ _).setStream x.id _).endCdc _ _ true)

theorem State.stands.goCodec (e : Env) (f : InFlight) : w.stands (s.goCodec e f) := by
  unfold State.goCodec
  have begun : w.stands (({ s with codec := { s.codec with jobs := s.codec.jobs ++ [⟨f.ctx, f.idx, e.cdcBlock, 0, 0, 0, 0, 0, []⟩] } }
    : State).setFlight f.ctx f.idx (fun f => { f with phase := .running })) := h
  have fed := begun.readRuns (cdcIns e)
  refine ite_stands ((begun.sawPoison _).failCdc _ _) (ite_stands (begun.failCdc _ _)
    (ite_stands ((begun.sawPoison _).failCdc _ _) ?_))
  dsimp only
  split
  · exact fed
  · refine ite_stands fed (ite_stands (fed.closeEncoder _ _ _ _) ?_)
    exact (ite_stands (fed.setStream _ _) fed).decodeOn _ _ _

end

end Sys2Proof.Machine
end

section
/-! The module stands while collectives run and while lost requests and flits fail what waited for them (12 R317, 13 R330). -/

namespace Sys2Proof.Machine
open Sys2Proof

/-! ### Collectives -/

section
variable {w s : State} (h : w.stands s)
include h

theorem State.stands.setColl (c idx : Nat) (f : Coll → Coll) : w.stands (s.setColl c idx f) :=
  h.trans ⟨rfl, fun e => e, fun none => by rw [State.setColl, none]; rfl, fun e => e⟩

theorem State.stands.failColl (c idx code : Nat) : w.stands (s.failColl c idx code) :=
  ite_stands ((h.dropColl c idx).setFlight c idx _) ((h.dropColl c idx).failInstr c idx code)

theorem State.stands.endColl (x : Coll) (e : Env) (f : InFlight) (writes : List (Nat × Bytes)) : w.stands (s.endColl x e f writes) := by
  unfold State.endColl
  have dropped := (h.writeGlobals f.ctx f.idx f.partition writes).dropColl x.ctx x.idx
  have noted := ite_stands (c := x.discard = true) (dropped.bump 0x3140 7 1) dropped
  exact (ite_stands noted (noted.bump _ _ _)).setFlight x.ctx x.idx _

theorem State.stands.narrowElems (x : Coll) (e : Env) (b : Bulk) (es : List Nat) : w.stands (s.narrowElems x e b es).1 :=
  ((h.setColl x.ctx x.idx _).bump _ _ _).bump _ _ _

theorem State.stands.sendBulk (f : InFlight) (x : Coll) (node kind stage : Nat) (neg : Bool) (number : Nat) (last : Bool)
    (data : Bytes) : w.stands (s.sendBulk f x node kind stage neg number last data) := h.sendPacket _ _ _ _

theorem State.stands.pump (f : InFlight) (c idx : Nat) : w.stands (s.pump f c idx) := by
  unfold State.pump
  split
  · exact h
  · next x _ =>
    refine foldl_stands (fun t p ht => ?_) _ (h.setColl c idx _)
    exact (ht.sendBulk f x p.dest 1 p.stage p.neg p.number p.last p.data).bump _ _ _

theorem State.stands.sendHop (c idx : Nat) (e : Env) (b : Bulk) (p : Hop) (neg : Bool) : w.stands (s.sendHop c idx e b p neg) := by
  unfold State.sendHop
  split
  · exact h
  · refine ite_stands h (State.stands.setColl ?_ c idx _)
    split
    · exact h.narrowElems _ _ _ _
    · exact h

theorem State.stands.narrowOwn (c idx : Nat) (e : Env) (b : Bulk) : w.stands (s.narrowOwn c idx e b) := by
  unfold State.narrowOwn
  split
  · exact h
  · exact ite_stands (h.narrowElems _ _ _ _) h

theorem State.stands.ackChunk (f : InFlight) (x : Coll) (k : Chunk) : w.stands (s.ackChunk f x k) := h.sendBulk _ _ _ _ _ _ _ _ _

theorem State.stands.openStage (c idx : Nat) (e : Env) (f : InFlight) (b : Bulk) (x : Coll) : w.stands (s.openStage c idx e f b x) := by
  unfold State.openStage
  refine State.stands.pump ?_ f c idx
  have opened := h.setColl c idx (fun x => { x with opened := true })
  have own := ite_stands (c := (x.stage == b.hops.findIdx (fun h => h.gather)) = true) (opened.narrowOwn c idx e b) opened
  dsimp only
  split
  · next p _ =>
    refine foldl_stands (fun t k ht => ?_) _ (ite_stands own ?_)
    · exact ht.ackChunk f x k
    · exact (own.sendHop c idx e b p false).sendHop c idx e b p true
  · exact ite_stands (own.setColl c idx _) own

end

theorem State.stands.runColl {w s : State} (h : w.stands s) (c idx fuel : Nat) : w.stands (s.runColl c idx fuel) := by
  induction fuel generalizing s with
  | zero => exact h
  | succ fuel ih =>
    unfold State.runColl
    split
    · next e f x _ _ =>
      refine ite_stands h ?_
      have opened := ite_stands (c := x.opened = true) h (h.openStage c idx e f e.coll x)
      dsimp only
      split
      · exact opened
      · split
        · exact ite_stands (ih (opened.setColl c idx _)) opened
        · exact ite_stands (opened.endColl _ e f _) opened
    · exact h

theorem State.stands.sendCards {w s : State} (h : w.stands s) (f : InFlight) (x : Coll) (g : Group) (a : Nat) (payload : Bytes) :
    w.stands (s.sendCards f x g a payload) := by
  unfold State.sendCards State.sendCard
  exact foldl_stands (fun _ q hs => State.stands.sendPacket hs _ _ _ _) (g.firstHops a) h

theorem State.stands.withCards {w s : State} (h : w.stands s) (l : List Card) : w.stands { s with coll := { s.coll with cards := l } } := h

theorem State.stands.runPost {w s : State} (h : w.stands s) (c idx fuel : Nat) : w.stands (s.runPost c idx fuel) := by
  induction fuel generalizing s with
  | zero => exact h
  | succ fuel ih =>
    unfold State.runPost
    split
    · next x e f _ _ =>
      refine ite_stands h ?_
      split
      · exact h.endColl x e f _
      · refine ite_stands (h.failColl c idx _) (ite_stands (ih ?_) h)
        split
        · exact ((h.withCards _).setColl c idx _).sendCards _ _ _ _ _
        · exact (h.withCards _).setColl c idx _
    · exact h

section
variable {w s : State} (h : w.stands s)
include h

theorem State.stands.beginColl (c idx : Nat) : w.stands (s.beginColl c idx) := by
  unfold State.beginColl
  split
  · exact ite_stands h (((h.writeAll _).setColl c idx _).runColl c idx _)
  · exact h

theorem State.stands.goColl (e : Env) (f : InFlight) : w.stands (s.goColl e f) :=
  ite_stands ((h.sawPoison _).failInstr _ _ _) (ite_stands (h.failInstr _ _ _)
    ((((h.readRuns _).setColl _ _ _).setFlight _ _ _).beginColl _ _))

theorem State.stands.goPost (e : Env) (f : InFlight) : w.stands (s.goPost e f) := by
  unfold State.goPost
  refine ite_stands ((h.sawPoison _).failInstr _ _ _) (ite_stands (h.failInstr _ _ _) ?_)
  have ready := ((h.readRuns (opPost.ins e)).setColl f.ctx f.idx (fun x =>
    { x with ready := true, begun := true, buf := e.postOwn })).setFlight f.ctx f.idx (fun f => { f with phase := .running })
  dsimp only
  split
  · exact ready
  · refine State.stands.runPost ?_ f.ctx f.idx 4
    split
    · exact ready.sendCards _ _ _ _ _
    · exact ready

/-! ### Runs (03 R64, 06 R174) -/

theorem State.stands.finishRun (o : Op) (e : Env) (f : InFlight) : w.stands (s.finishRun o e f) := by
  unfold State.finishRun
  refine State.stands.deal (State.stands.setGrid (State.stands.setFlight (State.stands.holdSheets (ite_stands (State.stands.drew ?_)
    (State.stands.scramble ?_ _)) _ _) _ _ _) _ _ _) _ _ _ _ _
  all_goals exact State.stands.unspoil (State.stands.writeAll (State.stands.bumps (State.stands.readRuns
    (State.stands.bump (ite_stands h (h.sawPoison _)) _ _ _) _) _) _) _ f

theorem State.stands.goOn (o : Op) (e : Env) (f : InFlight) : w.stands (s.goOn o e f) :=
  ite_stands (h.goColl e f) (ite_stands (h.goPost e f) (ite_stands (h.goCodec e f) (h.finishRun o e f)))

theorem State.stands.bring (o : Op) (e : Env) (f : InFlight) {go : State → InFlight → State} (hgo : w.stands (go s f)) :
    w.stands (s.bring o e f go) := by
  unfold State.bring
  split
  · exact ite_stands hgo h
  · exact ite_stands (h.failInstr _ _ _) (foldl_stands (fun _ r hs => State.stands.request hs _ _ _ _ _ _ _ _ _ _) _ h)

theorem State.stands.resumeRun (c idx : Nat) : w.stands (s.resumeRun c idx) := by
  unfold State.resumeRun
  split
  · split
    · exact h
    · exact ite_stands (h.bring _ _ _ (h.goOn _ _ _)) h
  · exact h

theorem State.stands.countPath (deadline : Bool) (path : Nat) : w.stands (s.countPath deadline path) := by
  unfold State.countPath
  split
  · exact ite_stands (h.bump _ _ _) h
  · exact h.bump _ _ _
  · exact h.bump _ _ _
  · exact h.bump _ _ _
  · exact h

theorem State.stands.decideBlock (f : InFlight) (block path : Nat) : w.stands (s.decideBlock f block path) := by
  unfold State.decideBlock
  refine ite_stands (State.stands.failInstr ?_ _ _ _) (State.stands.resumeRun ?_ _ _)
  all_goals exact State.stands.setFlight (State.stands.countPath (ite_stands h (h.post _ _ _ _)) true path) f.ctx f.idx _

end

theorem State.stands.holdBlock {w s : State} (h : w.stands s) (f : InFlight) (runs : List (Nat × Nat)) (data : Bytes) :
    w.stands (s.holdBlock f runs data) := by
  induction runs generalizing s data with
  | nil => exact h
  | cons r l ih =>
    unfold State.holdBlock
    exact ih (h.withCs _) _

section
variable {w s : State} (h : w.stands s)
include h

theorem State.stands.historyArrival (c idx block : Nat) (ok reply : Bool) (data : Bytes) :
    w.stands (s.historyArrival c idx block ok reply data) := by
  unfold State.historyArrival
  have gone := h.dropReqs (Req.fetches c idx block)
  have late := ite_stands (c := reply = true) (gone.bump 0x3180 5 1) gone
  dsimp only
  split
  · exact ite_stands late (ite_stands (h.bump _ _ _) h)
  · refine ite_stands late ?_
    split
    · exact h
    · exact ite_stands ((gone.holdBlock _ _ _).decideBlock _ _ _) (gone.decideBlock _ _ _)

end

/-! ### Requests that are lost -/

theorem State.stands.askPeer {w s : State} (h : w.stands s) (sess seq : Nat) (record : Bytes) (answered : Bool) (k f : Nat) :
    w.stands (s.askPeer sess seq record answered k f) := by
  induction f generalizing k with
  | zero => exact h
  | succ f ih =>
    unfold State.askPeer
    exact ite_stands (h.reply _ _ _ _ _) (ite_stands (ih _) (h.request _ _ _ _ _ _ _ _ _ _))

section
variable {w s : State} (h : w.stands s)
include h

theorem State.stands.failReq (q : Req) (code : Nat) : w.stands (s.failReq q code) := by
  have gone := h.dropReqs (fun r => r.id == q.id)
  unfold State.failReq
  dsimp only
  split
  · exact ite_stands (gone.failInstr _ _ _) (gone.sampleLost _ _ _)
  · exact gone.historyArrival _ _ _ _ _ _
  · exact gone.chargeWrite _ _
  · exact gone.setFlight _ _ _
  · exact gone.askPeer _ _ _ _ _ _
  · exact gone.reply _ _ _ _ _
  · exact gone.lostBack _ _ _
  · exact gone.lostFetch _ _ _
  · refine ite_stands (((gone.bump _ _ _).progress _).freeCtx _) ?_
    split
    · exact (gone.dropReqs _).failDelivery _
    · exact gone.dropReqs _

theorem State.stands.lostFlit (f : Flit) : w.stands (s.lostFlit f) := by
  unfold State.lostFlit
  split
  · exact h
  · exact ite_stands (h.historyArrival _ _ _ _ _ _) (h.failReq _ _)

theorem State.stands.discard (l : List Flit) : w.stands (s.discard l) :=
  (foldl_stands (fun _ f hs => (State.stands.freePlace hs f).lostFlit f) l h).bump _ _ _

/-! ### Training, resets and starts -/

theorem State.stands.trained (n : Nat) : w.stands (s.trained n) := by
  unfold State.trained
  exact ((h.drew.setChan n _).journal true _).bump _ _ _

theorem State.stands.drainDetour (n : Nat) : w.stands (s.drainDetour n) := by
  unfold State.drainDetour
  exact ite_stands ((h.setChan n _).withMem _) (((h.setChan n _).withMem _).poisonUnits _)

theorem State.stands.closeSession (n : Nat) : w.stands (s.closeSession n) := by
  have closed : w.stands ((s.drainDetour n).post (unitChan n) 7 0 (s.drainDetour n).anyDetail) := (h.drainDetour n).post _ _ _ _
  exact closed

theorem State.stands.logLost (l : List Copy) : w.stands (s.logLost l) := by
  unfold State.logLost
  exact foldl_stands (fun _ g hs => State.stands.log hs _ _ _ _ _) _ (((h.bump _ _ _).raise 24 0).log _ _ _ _ _)

theorem State.stands.freeExtents (l : List Extent) : w.stands (s.freeExtents l) := by
  unfold State.freeExtents
  refine foldl_stands (fun t x ht => ?_) l h
  exact State.stands.journal (s := { t with store := t.store.giveBack x.blocks }) ht _ _

theorem State.stands.storePosts (regions : List Nat) (n : Nat) : w.stands (s.storePosts regions n) := by
  unfold State.storePosts
  refine ite_stands ((h.bump _ _ _).raise 12 0) (State.stands.commitWith (State.stands.journal (State.stands.freeExtents ?_ _) _ _) _)
  exact h

theorem State.stands.annealCtx (c : Nat) : w.stands (s.annealCtx c) := by
  unfold State.annealCtx
  exact (((((h.endAll c 0x0404 false).errorStreams c).dropWork c).dropSave c).setCtx c _).endJob c 0x0404

theorem State.stands.settleFences : w.stands s.settleFences := by
  unfold State.settleFences
  refine foldl_stands (fun t f ht => ?_) s.faults.fences h
  exact ite_stands (ht.putFence _ _ _ _) (ite_stands (ht.dropFence _) ht)

theorem State.stands.flagFences : w.stands s.flagFences := h

theorem State.stands.layOut (failed : List Nat) : w.stands (s.layOut failed).1 := h

theorem State.stands.restoreNow : w.stands s.restoreNow := by
  unfold State.restoreNow
  have dflt := foldl_stands (f := fun (t : State) (e : Entry) =>
      let t : State := { t with dict := kvDel (dkey e.idx e.sub) t.dict }
      if e.keep then t.journal false ⟨1, dkey e.idx e.sub, leBytes e.width e.dflt⟩ else t)
    (fun t e ht => ite_stands (State.stands.journal (s := { t with dict := kvDel (dkey e.idx e.sub) t.dict }) ht _ _) ht)
    (dictTable.filter (fun e => e.restored && kvHas (dkey e.idx e.sub) s.dict)) h
  exact foldl_stands (fun t q ht => State.stands.journal ht _ _) _ dflt

theorem State.stands.trainFailed (n : Nat) : w.stands (s.trainFailed n) := by
  unfold State.trainFailed
  have failed := ((h.setChan n (fun c => { c with failedRow := c.failedRow + 1 })).bump 0x31C0 0xA 1).raise 21 0
  exact ite_stands (failed.markChannel n 0 0) failed

theorem State.stands.endLost (lost : Bool) : w.stands (s.endLost lost) := by
  unfold State.endLost
  refine foldl_stands (fun t x ht => ?_) _ h
  exact ((ht.endAll _ _ _).dropSave _).endJob _ _

end

end Sys2Proof.Machine
end

section
/-! The rungs of the ladder of recovery (19 R495 to R502). -/

namespace Sys2Proof.Machine
open Sys2Proof

/-! ### What a chip reset ends -/

/-- No session, collective or stream goes on, and `cause` is remembered. -/
def State.ended (s : State) (cause : Nat) : Prop :=
  s.faults.lastCause = cause ∧ s.net.sessions = [] ∧ s.coll.flight = [] ∧ s.codec.streams = []

theorem State.ended.stands {s t : State} {cause : Nat} (h : s.ended cause) (h' : s.stands t) : t.ended cause :=
  ⟨h'.lastCause.trans h.1, h'.2.1 h.2.1, h'.2.2.1 h.2.2.1, h'.2.2.2 h.2.2.2⟩

section
variable {s : State} {cause : Nat} (h : s.ended cause)
include h

theorem State.ended.trainedAll (l : List Nat) : (l.foldl (fun s n => s.trained n) s).ended cause :=
  h.stands (foldl_stands (fun _ n ht => State.stands.trained ht n) l (State.stands.refl s))

theorem State.ended.watch (status : Nat) : (s.watch status).ended cause := h.stands ((State.stands.refl s).watch status)

theorem State.ended.logLost (l : List Copy) : (s.logLost l).ended cause := h.stands ((State.stands.refl s).logLost l)

theorem State.ended.reseedAll (l : List Nat) : (l.foldl (fun s i => s.reseedCell i) s).ended cause :=
  h.stands (foldl_stands (fun _ i ht => State.stands.reseedCell ht i) l (State.stands.refl s))

theorem State.ended.restore : (if s.store.restorePending then s.restoreNow else s).ended cause :=
  h.stands (ite_stands (State.stands.refl s).restoreNow (State.stands.refl s))

theorem State.ended.layOut (failed : List Nat) : (s.settleFences.flagFences.layOut failed).1.ended cause :=
  h.stands (((State.stands.refl s).settleFences.flagFences).layOut failed)

theorem State.ended.trainFails (l : List Nat) : (l.foldl (fun s n => s.trainFailed n) s).ended cause :=
  h.stands (foldl_stands (fun _ n ht => State.stands.trainFailed ht n) l (State.stands.refl s))

theorem State.ended.withBoard (b : Board) : ({ s with board := b } : State).ended cause := h

theorem State.ended.keep (idx sub width v : Nat) : (s.keep idx sub width v).ended cause :=
  h.stands ((State.stands.refl s).keep idx sub width v)

theorem State.ended.firmwareUp (l : List Nat) (port : Nat) (store : Store) (forced : Bool) (board : Board) :
    ({ s with
      office := { s.office with notStarted := l }
      net := { s.net with udpPort := port }
      store := store
      faults := { s.faults with alertForced := forced }
      board := board } : State).ended cause := h

theorem State.ended.endLost (lost : Bool) : ((s.endLost lost).watch 0).flushEmergency.ended cause :=
  h.stands (((State.stands.refl s).endLost lost).watch 0).flushEmergency

end

section
variable {s : State} {cause : Nat} (h : s.ended cause)
include h

theorem State.ended.startPower : s.startPower.ended cause := by
  unfold State.startPower
  split
  · exact ((h.keep 0x5040 1 1 0).keep 0x5040 2 1 0).withBoard _
  · exact h.withBoard _

theorem State.ended.serve (failed : List Nat) : (s.serve failed).ended cause := by
  have powered := ((h.restore.layOut failed).trainFails failed).startPower
  unfold State.serve
  exact (powered.firmwareUp _ _ _ _ _).endLost _

theorem State.ended.startUp (failed : List Nat) : (s.startUp failed).ended cause := by
  have seeded := h.reseedAll (List.range 256)
  unfold State.startUp
  dsimp only
  generalize (List.range 256).foldl (fun s i => s.reseedCell i) s = t at seeded ⊢
  split
  · exact seeded
  · split
    · exact seeded.serve failed
    · split
      · exact seeded.serve failed
      · exact seeded

end

/-- Each channel that was in a session drains its detour before the units are reset. -/
theorem State.drainAll_stands (s : State) : s.stands (s.mem.chans.foldl (fun s c =>
    if c.session != 0 || c.detour != [] || c.heldWrites != [] then s.drainDetour c.id else s) s) := by
  refine foldl_stands (fun t c ht => ?_) _ (.refl s)
  exact ite_stands (ht.drainDetour _) ht

theorem State.unitsReset_ended (s : State) : s.unitsReset.ended s.faults.lastCause := by
  have drained := s.drainAll_stands
  unfold State.unitsReset
  dsimp only
  split
  · refine State.ended.watch (State.ended.trainedAll ?_ _) 0
    exact ⟨drained.lastCause, rfl, rfl, rfl⟩
  · refine State.ended.logLost (State.ended.watch (State.ended.trainedAll ?_ _) 0) _
    exact ⟨drained.lastCause, rfl, rfl, rfl⟩

/-- A chip reset ends every session, collective and stream, and keeps its cause (19 R501). -/
theorem State.chipReset_ended (s : State) (cause unit : Nat) (fault record hung : Bool) :
    (s.chipReset cause unit fault record hung).ended cause := by
  unfold State.chipReset
  refine State.ended.startUp ?_ []
  exact State.unitsReset_ended _

/-! ### A partition that starts again -/

/-- Partition `p` stands again, with the role that was committed for it. -/
def State.partBack (s : State) (p : Nat) : State :=
  let roles := if s.dget 0x2300 1 == s.office.layout then modifyAt (fun _ => s.dget 0x2300 (2 + p)) p s.office.roles
    else s.office.roles
  { s with
    office := { s.office with
      roles := roles
      stopped := s.office.stopped.filter (fun q => q != p)
      notStarted := s.office.notStarted.filter (fun q => q != p) }
    faults := { s.faults with annealing := s.faults.annealing.filter (fun q => q != p) } }

theorem State.restartPart_stands (s : State) (p : Nat) : (s.partBack p).stands (s.restartPart p) := by
  unfold State.restartPart
  exact State.stands.watch (foldl_stands (fun _ x ht => State.stands.startCtx ht x.number) _
    (State.stands.checkBarren (s := s.partBack p) (.refl _) p)) 0

theorem State.restartPart_up (s : State) (p : Nat) :
    (s.restartPart p).faults.annealing.contains p = false ∧ (s.restartPart p).office.stopped.contains p = false := by
  have back := s.restartPart_stands p
  rw [back.annealing, back.stopped]
  constructor <;> exact Bool.eq_false_iff.mpr (fun hc => by simp [State.partBack] at hc)

/-! ### Settling the obligation -/

theorem execPartitionWatchdog_resets {s : State} {r : Nat} (hr : r < 4) (hp : s.powered r = true) :
    execPartitionWatchdog r s = .next ((s.post (unitPart r) 2 0x04F8 s.anyDetail).resetPart (s.partOfRegion r) 0x04F8) := by
  unfold execPartitionWatchdog
  rw [if_neg (by rw [hp]; simpa using hr)]

/-- The count of chip resets that did not serve. -/
def State.withTries (s : State) (n : Nat) : State := { s with faults := { s.faults with resetTries := n } }

theorem State.withTries_resetTries (s : State) (n : Nat) : (s.withTries n).faults.resetTries = n := rfl

theorem State.withTries_lastCause (s : State) (n : Nat) : (s.withTries n).faults.lastCause = s.faults.lastCause := rfl

theorem execChipResetTimeout_once {s : State} (once : s.faults.resetTries = 1) (serving : s.board.phase = .serving) :
    execChipResetTimeout s = .next ((s.chipReset s.faults.lastCause (unitCore 0) true true false).withTries 2) := by
  unfold execChipResetTimeout
  rw [if_neg (by rw [once, serving]; decide), if_pos (by rw [once]; decide)]
  rfl

theorem execChipResetTimeout_again {s : State} (more : 2 ≤ s.faults.resetTries) (serving : s.board.phase = .serving) :
    execChipResetTimeout s = .next ((s.powerCycle 0x04FB).withTries 0) := by
  have none : (s.faults.resetTries == 0) = false := by rw [beq_eq_false_iff_ne]; omega
  have once : (s.faults.resetTries == 1) = false := by rw [beq_eq_false_iff_ne]; omega
  unfold execChipResetTimeout
  rw [if_neg (by rw [none, serving]; decide), if_neg (by rw [once]; decide)]
  rfl

/-- Settles O60: each rung is what its row calls, and what a start does leaves the module standing. -/
theorem resetsClimbTheRungs : Obligations.ResetsClimbTheRungs := by
  unfold Obligations.ResetsClimbTheRungs
  refine ⟨?_, ?_, ?_, ?_, ?_⟩
  · intro s r hr hp hex hst p
    have told := State.resetPart_tells (s := s.post (unitPart r) 2 0x04F8 s.anyDetail) (p := p) hex hst 0x04F8
    obtain ⟨⟨_, _, _, _, _, _, hf⟩, -⟩ := told.faults
    refine ⟨_, execPartitionWatchdog_resets hr hp, congrArg Office.stopped told.step.office, ?_, ?_, ?_, ?_⟩
    · rw [hf]
      rfl
    · rw [hf]
      rfl
    · rw [hf]
      rfl
    · exact (told.counts 0x4003 3 (by decide) (by decide) (by decide)).trans (State.count_bump_self s 0x4003 3 1)
  · intro s p ha serving
    have guard : (s.faults.annealing.contains p && s.board.phase == .serving) = true := by rw [ha, serving]; rfl
    constructor
    · refine ⟨s.anneal p, ?_, rfl, State.restartPart_up _ p⟩
      show execAnnealComplete p s = _
      unfold execAnnealComplete
      rw [if_pos guard]
    · show execAnnealOverrun p s = _
      unfold execAnnealOverrun
      rw [if_pos guard]
  · intro s core hcore running serving
    show execCoreWatchdog core s = _
    unfold execCoreWatchdog
    rw [if_neg (by rw [running, serving]; simpa using hcore)]
  · intro s serving
    constructor
    · intro once
      refine ⟨_, execChipResetTimeout_once once serving, State.withTries_resetTries _ _, ?_⟩
      rw [State.withTries_lastCause]
      exact (State.chipReset_ended s s.faults.lastCause (unitCore 0) true true false).1
    · intro more
      exact ⟨_, execChipResetTimeout_again more serving, rfl, rfl⟩
  · intro s cause unit fault record hung
    dsimp only
    obtain ⟨hcause, hsessions, hflight, hstreams⟩ := s.chipReset_ended cause unit fault record hung
    have sec := State.chipReset_sec s cause unit fault record hung
    have fuses := State.chipReset_fuses s cause unit fault record hung
    refine ⟨hcause, hsessions, hflight, hstreams, ?_, ?_, fuses, ?_⟩
    · rw [sec]
      rfl
    · rw [← fuses, sec]
      simp only [Security.restarted, beq_iff_eq]
    · rw [sec]
      rfl

end Sys2Proof.Machine
end

section
/-! The power states (20 R549, R550). -/

namespace Sys2Proof.Machine
open Sys2Proof

/-- The module is in power state `target`, trimmed by `trim`, and where `held` says so its sessions and links are gone. -/
def State.inPower (s : State) (target trim : Nat) (held : Prop) : Prop :=
  s.board.power = target ∧ s.board.trim = trim ∧ (held → s.net.sessions = [] ∧ s.net.linkUp = [false, false])

theorem State.inPower.stands {s t : State} {target trim : Nat} {held : Prop} (h : s.inPower target trim held) (h' : s.stands t) :
    t.inPower target trim held :=
  ⟨h'.board ▸ h.1, h'.board ▸ h.2.1, fun on => ⟨h'.2.1 (h.2.2 on).1, h'.linkUp.trans (h.2.2 on).2⟩⟩

theorem State.inPower.restartPart {s : State} {target trim : Nat} {held : Prop} (h : s.inPower target trim held) (p : Nat) :
    (s.restartPart p).inPower target trim held :=
  State.inPower.stands (s := s.partBack p) h (s.restartPart_stands p)

theorem State.inPower.restartParts {s : State} {target trim : Nat} {held : Prop} (h : s.inPower target trim held) (l : List Nat) :
    (l.foldl (fun s p => s.restartPart p) s).inPower target trim held := by
  induction l generalizing s with
  | nil => exact h
  | cons p l ih => exact ih (h.restartPart p)

theorem State.enterHold_sessions (s : State) : s.enterHold.net.sessions = [] ∧ s.enterHold.net.linkUp = [false, false] := ⟨rfl, rfl⟩

theorem State.regionsOff_stands (s : State) (l : List Nat) : s.stands (l.foldl (fun s r => s.regionOff r) s) :=
  foldl_stands (fun _ _ ht => (State.stands.clearRun ht _ _).clearRun _ _) l (.refl s)

/-- The state that is taken is the one asked for; who enters Hold ends every session (20 R550). -/
theorem State.setPower_inPower (s : State) (target trim : Nat) :
    (s.setPower target trim).inPower target trim (target = 2 ∧ s.board.power ≠ 2) := by
  unfold State.setPower
  refine State.inPower.restartParts ⟨rfl, rfl, fun ⟨hold, from_⟩ => ?_⟩ _
  dsimp only
  rw [if_pos (by simp [hold, from_])]
  have off := s.enterHold.regionsOff_stands ((List.range 4).filter (fun r =>
    regionOn s.board.power s.board.trim r && !regionOn target trim r))
  exact ⟨off.2.1 s.enterHold_sessions.1, off.linkUp.trans s.enterHold_sessions.2⟩

/-! ### The commit of the power pair -/

section
variable {s : State} {mode : Nat} (staged : s.staging 0x5040 1 = mode)
include staged

theorem State.writePower_triggers (hup : s.mailboxUp = true) :
    s.writePower mode 1 = s.answerWrite 0x5040 3 true (applyPower s) := by
  unfold State.writePower
  dsimp only
  rw [if_neg (by simp [staged]), State.trigger_up _ _ _ _ _ _ _ _ hup (by decide) (by decide)]

theorem applyPower_disagrees (h : s.powerAgrees mode (s.staging 0x5040 2) = false) : applyPower s = (s, 0x01F1) := by
  unfold applyPower
  dsimp only
  rw [staged, if_pos (by simp [h])]

theorem applyPower_busy (h : s.powerAgrees mode (s.staging 0x5040 2) = true) (busy : s.powerBusy mode (s.staging 0x5040 2) = true) :
    applyPower s = (s, 0x02FC) := by
  unfold applyPower
  dsimp only
  rw [staged, if_neg (by simp [h]), if_pos busy]

theorem applyPower_fits (h : s.powerAgrees mode (s.staging 0x5040 2) = true) (free : s.powerBusy mode (s.staging 0x5040 2) = false)
    (kept : s.keepRefused = 0) : applyPower s =
      (((s.keep 0x5040 1 1 mode).keep 0x5040 2 1 (s.staging 0x5040 2)).setPower mode (s.staging 0x5040 2), 0) := by
  unfold applyPower
  dsimp only
  rw [staged, if_neg (by simp [h]), if_neg (by simp [free]), if_neg (by simp [kept])]

/-- A commit of the power pair: refused where it disagrees or takes the power of a context, and else in force (20 R549, R550). -/
theorem State.writePower_cases (hup : s.mailboxUp = true) :
    let trim := s.staging 0x5040 2
    (s.powerAgrees mode trim = false → s.writePower mode 1 = s.abort 0x5040 3 0x06040043 0x01F1) ∧
      (s.powerAgrees mode trim = true → s.powerBusy mode trim = true → s.writePower mode 1 = s.abort 0x5040 3 0x08000020 0x02FC) ∧
      (s.powerAgrees mode trim = true ∧ s.powerBusy mode trim = false ∧ s.keepRefused = 0 → ∃ u : State,
        s.writePower mode 1 = s.answerWrite 0x5040 3 true (u, 0) ∧ u.inPower mode trim (mode = 2 ∧ s.board.power ≠ 2)) := by
  intro trim
  rw [State.writePower_triggers staged hup]
  refine ⟨fun h => ?_, fun h busy => ?_, fun ⟨h, free, kept⟩ => ⟨_, by rw [applyPower_fits staged h free kept], ?_⟩⟩
  · rw [applyPower_disagrees staged h, State.answerWrite_refused _ _ _ _ _ _ (by decide)]
    rfl
  · rw [applyPower_busy staged h busy, State.answerWrite_refused _ _ _ _ _ _ (by decide)]
    rfl
  · have keeps := ((State.stands.refl s).keep 0x5040 1 1 mode).keep 0x5040 2 1 trim
    have taken := State.setPower_inPower ((s.keep 0x5040 1 1 mode).keep 0x5040 2 1 trim) mode trim
    rwa [keeps.board] at taken

end

/-- Settles O42: the three rows are one write, each for its own target. -/
theorem powerPairComesIntoForce : Obligations.PowerPairComesIntoForce := by
  unfold Obligations.PowerPairComesIntoForce
  intro s hup trim kept fit
  have row {mode : Nat} (staged : s.staging 0x5040 1 = mode) {i : Instr} (hi : exec i s = .next (s.writePower mode 1)) :
      (s.powerAgrees mode trim = false → exec i s = .next (s.abort 0x5040 3 0x06040043 0x01F1)) ∧
        (s.powerAgrees mode trim = true → s.powerBusy mode trim = true → exec i s = .next (s.abort 0x5040 3 0x08000020 0x02FC)) ∧
        (fit mode → ∃ u : State, exec i s = .next (s.answerWrite 0x5040 3 true (u, 0)) ∧ kept mode u) := by
    obtain ⟨disagrees, busy, fits⟩ := State.writePower_cases staged hup
    rw [hi]
    refine ⟨fun h => by rw [disagrees h], fun h hb => by rw [busy h hb], fun h => ?_⟩
    obtain ⟨u, hu, hpower, htrim, hheld⟩ := fits h
    exact ⟨u, by rw [hu], hpower, htrim, fun hold from_ => hheld ⟨hold, from_⟩⟩
  exact ⟨fun staged => row staged rfl, fun staged => row staged rfl, fun staged => row staged rfl⟩

end Sys2Proof.Machine
end

section
/-! The test access port (20 R545, R546), and links that go down. -/

namespace Sys2Proof.Machine
open Sys2Proof

/-! ### Every port goes down (12 R317) -/

/-- No port is further up than Down. -/
def State.allDown (s : State) : Prop := ∀ p ∈ s.fabric.ports, p.st = .disabled ∨ p.st = .down

theorem State.allDown.stands {s t : State} (h : s.allDown) (h' : s.stands t) : t.allDown := by
  intro p hp
  have : p.st ∈ s.fabric.ports.map (fun p => p.st) := h'.ports ▸ List.mem_map_of_mem hp
  obtain ⟨q, hq, hst⟩ := List.mem_map.mp this
  exact hst ▸ h q hq

/-- The ports as they are when every one that is enabled has begun again. -/
def State.portsFresh (s : State) : State :=
  { s with fabric := { s.fabric with ports := s.fabric.ports.map (fun (p : Port) =>
      if p.st == .disabled then p else { Port.init p.id with retrainDue := p.retrainDue, fecErrs := p.fecErrs }) } }

theorem State.portsFresh_allDown (s : State) : s.portsFresh.allDown := by
  intro p hp
  obtain ⟨q, -, rfl⟩ := List.mem_map.mp hp
  split
  · next off => exact .inl (by simpa using off)
  · exact .inr rfl

theorem State.portsDown_stands (s : State) : s.portsFresh.stands s.portsDown := by
  have fresh : s.portsFresh.stands ((s.bump 0x3210 8 ((s.fabric.ports.filter (fun p => p.st != .disabled)).filter
    (fun p => p.retrain.isSome)).length).portsFresh) := (State.stands.refl s.portsFresh).bump _ _ _
  unfold State.portsDown
  exact ((fresh.discard _).bump _ _ _).watch 0

theorem State.portsDown_allDown (s : State) : s.portsDown.allDown := s.portsFresh_allDown.stands s.portsDown_stands

theorem State.portsDown_linkUp (s : State) : s.portsDown.net.linkUp = s.net.linkUp := s.portsDown_stands.linkUp

theorem State.portsDown_board (s : State) : s.portsDown.board = s.board := s.portsDown_stands.board

/-! ### The port's instructions -/

theorem State.tap_granted {s : State} (on : s.tapOn = true) {code : Nat} (can : s.granted? code = true) (f : State → State) :
    s.tap code f = f { s with sec := { s.sec with tapIr := code } } := by
  unfold State.tap
  rw [if_neg (by simp [on]), if_pos can]

theorem State.tap_other {s : State} (on : s.tapOn = true) {code : Nat} (cannot : s.granted? code = false) (f : State → State) :
    s.tap code f = s.bypass code false := by
  unfold State.tap
  rw [if_neg (by simp [on]), if_neg (by simp [cannot])]

theorem execExtest_granted {s : State} (on : s.tapOn = true) (can : s.granted? 0x00 = true) (v : Nat) :
    ∃ t, execExtest v s = .next t ∧ t.sec.tapIr = 0 ∧ t.sec.boundary = v ∧ t.extestOn = true ∧ t.net.linkUp = [false, false] ∧
      ∀ p ∈ t.fabric.ports, p.st = .disabled ∨ p.st = .down := by
  unfold execExtest
  rw [State.tap_granted on can]
  refine ⟨_, rfl, ?_, ?_, ?_, State.portsDown_linkUp _, State.portsDown_allDown _⟩
  · rw [State.linksDown_sec]
    rfl
  · rw [State.linksDown_sec]
    rfl
  · unfold State.extestOn
    rw [State.linksDown_sec]
    exact can

theorem State.scanData_of_some {s : State} {unit : Nat} {d : Bytes} (h : s.sec.scan.find? (fun x => x.1 == unit) = some (unit, d)) :
    s.scanData unit = d := by
  unfold State.scanData
  rw [h]

theorem execScanread_granted {s : State} (on : s.tapOn = true) (can : s.granted? 0x10 = true) {unit : Nat}
    (known : scanUnits.contains unit = true) (free : s.isFenced unit = false) :
    ∃ t, execScanread unit s = .next t ∧ t.sec.tapIr = 0x10 ∧ t.mem = s.mem ∧ t.office = s.office ∧
      ∀ d, s.sec.scan.find? (fun x => x.1 == unit) = some (unit, d) → t.sec.tapOut = d := by
  unfold execScanread
  rw [State.tap_granted on can]
  refine ⟨_, rfl, rfl, rfl, rfl, fun d hd => ?_⟩
  refine (if_pos ?_).trans (State.scanData_of_some hd)
  rw [known]
  exact congrArg Bool.not free

theorem execScanwrite_granted {s : State} (on : s.tapOn = true) (can : s.granted? 0x11 = true) {unit : Nat}
    (known : scanUnits.contains unit = true) (free : s.isFenced unit = false) (data : Bytes) :
    execScanwrite unit data s = .next { s with sec := { s.sec with
      tapIr := 0x11
      scan := s.sec.scan.filter (fun x => x.1 != unit) ++ [(unit, data)] } } := by
  unfold execScanwrite
  rw [State.tap_granted on can]
  refine congrArg Host.Outcome.next (if_pos ?_)
  rw [known]
  exact congrArg Bool.not free

/-- The cores that are halted after one is halted or released. -/
def haltedCores (core : Nat) (halt : Bool) (l : List Nat) : List Nat :=
  if halt then insertNat core l else l.filter (fun c => c != core)

theorem mem_haltedCores (core : Nat) (halt : Bool) (l : List Nat) (c : Nat) :
    c ∈ haltedCores core halt l ↔ if c = core then halt = true else c ∈ l := by
  unfold haltedCores
  by_cases h : c = core <;> cases halt <;> simp [h, mem_insertNat]

theorem execCorehalt_granted {s : State} (on : s.tapOn = true) (can : s.granted? 0x12 = true) {core : Nat} (h : core < 4) (halt : Bool) :
    execCorehalt core halt s = .next { s with sec := { s.sec with
      tapIr := 0x12
      coreHalted := haltedCores core halt s.sec.coreHalted } } := by
  unfold execCorehalt
  rw [State.tap_granted on can]
  exact congrArg Host.Outcome.next (if_neg (by omega))

/-- Settles O41: each row is its instruction on the port, and the port grants by level and lifecycle. -/
theorem tapInstructionsAct : Obligations.TapInstructionsAct := by
  unfold Obligations.TapInstructionsAct
  refine ⟨?_, ?_, fun _ => rfl, ?_⟩
  · intro row hrow s on cannot
    have other {code : Nat} {f : State → State} {i : Instr} (hi : exec i s = .next (s.tap code f)) (hc : s.granted? code = false) :
        exec i s = .next (s.bypass code false) := by rw [hi, State.tap_other on hc]
    simp only [tapRows, List.mem_cons, List.not_mem_nil, or_false] at hrow
    rcases hrow with rfl | rfl | rfl | rfl | rfl | rfl <;> exact other rfl cannot
  · intro s on
    refine ⟨?_, fun code tdi cannot => ?_, fun v can => ?_, fun v can => execExtest_granted on can v,
      fun unit can known free => execScanread_granted on can known free,
      fun unit data can known free => execScanwrite_granted on can known free data, fun core halt can h => ?_⟩
    · exact congrArg Host.Outcome.next (State.tap_granted on (code := 1) rfl _)
    · show execBypass code tdi s = _
      unfold execBypass
      rw [if_neg (by rw [on, cannot]; decide)]
      rfl
    · exact ⟨_, _, congrArg Host.Outcome.next (State.tap_granted on can _), rfl, rfl, rfl⟩
    · exact ⟨_, execCorehalt_granted on can h halt, fun c => mem_haltedCores core halt _ c, rfl⟩
  · intro s
    refine ⟨fun h => ?_, fun h => ?_, fun h => ?_, fun h => ?_⟩
    · have : (s.sec.level == 2 && s.sec.fuses.lifecycle != 4) = true := h
      simp only [Bool.and_eq_true, beq_iff_eq] at this
      exact this.1
    · have : (s.sec.level == 2 && s.sec.fuses.lifecycle != 4) = true := h
      simp only [Bool.and_eq_true, beq_iff_eq] at this
      exact this.1
    · have : (decide (1 ≤ s.sec.level) && s.sec.fuses.lifecycle != 4) = true := h
      simp only [Bool.and_eq_true, decide_eq_true_eq] at this
      exact this.1
    · have : (s.sec.level == 2 && (s.sec.fuses.lifecycle == 0 || s.sec.fuses.lifecycle == 3)) = true := h
      simpa only [Bool.and_eq_true, Bool.or_eq_true, beq_iff_eq] using this

end Sys2Proof.Machine
end

section
/-! The supply, PERST_N and the reference clocks (18 R472, 21 R568 to R571). -/

namespace Sys2Proof.Machine
open Sys2Proof

/-! ### What announcements leave of the store -/

theorem State.flushEmergency_store (s : State) : s.flushEmergency.store = s.store := by
  unfold State.flushEmergency
  split
  · split
    · rfl
    · rfl
  · rfl

theorem State.emergency_store (s : State) (bitNo status : Nat) : (s.emergency bitNo status).store = s.store := by
  unfold State.emergency
  split
  · dsimp only
    split
    · exact State.flushEmergency_store _
    · rfl
  · rfl

theorem State.raise_store (s : State) (bitNo status : Nat) : (s.raise bitNo status).store = s.store := by
  unfold State.raise
  split
  · rfl
  · exact State.emergency_store _ bitNo status

theorem State.watch_store (s : State) (status : Nat) : (s.watch status).store = s.store := by
  unfold State.watch
  refine foldl_related (R := fun s t : State => t.store = s.store) (fun _ => rfl) (fun h h' => h'.trans h) (fun t i => ?_) _
    { s with faults := { s.faults with levels := s.levels } }
  split
  · exact State.emergency_store _ _ _
  · rfl

theorem State.noticeStep.cs {s t : State} (h : s.noticeStep t) : t.cs = s.cs := by
  obtain ⟨_, _, _, _, _, rfl⟩ := h
  rfl

theorem State.noticeStep.pending {s t : State} (h : s.noticeStep t) : t.pending = s.pending := by
  obtain ⟨_, _, _, _, _, rfl⟩ := h
  rfl

/-! ### The reset of PERST_N (21 R570) -/

/-- A module in reset: the supply as it was, the cause, no session, and no request that waits for an answer. -/
def State.resetDone (s : State) (board : Board) (cause : Nat) : Prop :=
  s.board = board ∧ s.faults.lastCause = cause ∧ s.net.sessions = [] ∧ ∀ r ∈ s.cs.reqs, r.answered = true

theorem State.resetDone.tells {s t : State} {board : Board} {cause : Nat} (h : s.resetDone board cause) (h' : s.tells t) :
    t.resetDone board cause := by
  have stands := (State.stands.refl s).tells h'
  exact ⟨stands.board.trans h.1, stands.lastCause.trans h.2.1, stands.2.1 h.2.2.1, h'.step.cs ▸ h.2.2.2⟩

theorem State.resetDone.bump {s : State} {board : Board} {cause : Nat} (h : s.resetDone board cause) (idx sub n : Nat) :
    (s.bump idx sub n).resetDone board cause := h

theorem State.resetDone.trained {s : State} {board : Board} {cause : Nat} (h : s.resetDone board cause) (n : Nat) :
    (s.trained n).resetDone board cause := by
  unfold State.trained
  refine State.resetDone.bump (State.resetDone.tells ?_ (State.journal_tells _ true _)) _ _ _
  exact h

theorem State.resetDone.trainedAll {s : State} {board : Board} {cause : Nat} (h : s.resetDone board cause) (l : List Nat) :
    (l.foldl (fun s n => s.trained n) s).resetDone board cause := by
  induction l generalizing s with
  | nil => exact h
  | cons n l ih => exact ih (h.trained n)

theorem State.logAll_tells {α : Type} (l : List α) (s : State) (detail : α → Nat) :
    s.tells (l.foldl (fun s g => s.log (unitChip 5) 0 5 0xFF (detail g)) s) :=
  foldl_related State.tells.refl State.tells.trans (fun s _ => s.log_tells _ _ _ _ _) l s

theorem State.resetDone.logLost {s : State} {board : Board} {cause : Nat} (h : s.resetDone board cause) (l : List Copy) :
    (s.logLost l).resetDone board cause := by
  unfold State.logLost
  have raised := State.resetDone.tells (s := s.bump 0x31C0 0xE l.length) h (State.raise_tells _ 24 0)
  have logged := raised.tells (State.log_tells _ (unitChip 5) 0 5 0xFF l.length)
  exact logged.tells (State.logAll_tells _ _ _)

theorem State.unitsReset_resetDone (s : State) : s.unitsReset.resetDone s.board s.faults.lastCause := by
  have drained := s.drainAll_stands
  have answered (reqs : List Req) (held : Req → Bool) :
      ∀ r ∈ reqs.filter (fun r => r.answered && r.kind == .read && held r), r.answered = true := by
    intro r hr
    have kept := (List.mem_filter.mp hr).2
    simp only [Bool.and_eq_true] at kept
    exact kept.1.1
  unfold State.unitsReset
  dsimp only
  split
  · refine State.resetDone.tells (State.resetDone.trainedAll ?_ _) (State.watch_tells _ 0)
    exact ⟨drained.board, drained.lastCause, rfl, answered _ _⟩
  · refine State.resetDone.logLost (State.resetDone.tells (State.resetDone.trainedAll ?_ _) (State.watch_tells _ 0)) _
    exact ⟨drained.board, drained.lastCause, rfl, answered _ _⟩

theorem State.req?_of_answered {s : State} (h : ∀ r ∈ s.cs.reqs, r.answered = true) (id : Nat) : s.req? id = none := by
  rw [State.req?, List.find?_eq_none]
  intro r hr
  simp [h r hr]

theorem kvGet_filter_of_false {p : Nat × Nat → Bool} {k : Nat} (hp : ∀ v, p (k, v) = false) (d : Nat) (m : KV) :
    kvGet k d (m.filter p) = d := by
  induction m with
  | nil => rfl
  | cons e m ih =>
    by_cases hk : e.1 = k
    · obtain ⟨j, v⟩ := e
      rw [List.filter_cons_of_neg (by rw [show j = k from hk, hp]; decide)]
      exact ih
    · by_cases he : p e = true
      · rw [List.filter_cons_of_pos he]
        unfold kvGet
        rw [if_neg (by simpa using hk)]
        exact ih
      · rw [List.filter_cons_of_neg he]
        exact ih

/-- A reset of the router where no flit is waited for: the router, the collectives' tables and the router's counts begin again. -/
theorem State.resetRouter_eq {s : State} (h : ∀ f ∈ s.fabric.waiting, s.req? f.req = none) : ∃ fabric coll postmarks,
    s.resetRouter = ({ s with
      fabric := fabric
      coll := coll
      faults := { s.faults with postmarks := postmarks }
      tele := s.tele.filter (fun e => e.1 / 256 != 0x3210 && !(e.1 / 256 == 0x3230 && decide (5 ≤ e.1 % 256))) } : State).watch 0 := by
  unfold State.resetRouter
  dsimp only
  rw [State.lostFlits_of_none (by exact h)]
  exact ⟨_, _, _, rfl⟩

theorem routerCounts_forget (v : Nat) : (fun e : Nat × Nat => e.1 / 256 != 0x3210 && !(e.1 / 256 == 0x3230 && decide (5 ≤ e.1 % 256)))
    (dkey 0x3210 5, v) = false := by
  have own : dkey 0x3210 5 / 256 = 0x3210 := by
    unfold dkey
    omega
  dsimp only
  rw [own, bne_self_eq_false, Bool.false_and]

theorem State.resetRouter_resetDone {s : State} {board : Board} {cause : Nat} (h : s.resetDone board cause) :
    s.resetRouter.resetDone board cause ∧ s.resetRouter.count 0x3210 5 = 0 := by
  obtain ⟨hboard, hcause, hsessions, answered⟩ := h
  obtain ⟨fabric, coll, postmarks, heq⟩ := State.resetRouter_eq (fun f _ => State.req?_of_answered answered f.req)
  rw [heq]
  constructor
  · refine State.resetDone.tells ?_ (State.watch_tells _ 0)
    exact ⟨hboard, hcause, hsessions, answered⟩
  · rw [(State.watch_tells _ 0).counts 0x3210 5 (by decide) (by decide) (by decide)]
    exact kvGet_filter_of_false routerCounts_forget 0 s.tele

/-- What the store gives back when it is read again. -/
theorem State.reload_eq (s : State) : ∃ dict tele chans lifetime quotas fences log logNext identity rotations, s.reload = { s with
    dict := dict
    staged := []
    tele := tele
    mem := { s.mem with chans := chans }
    office := { s.office with lifetime := lifetime, quotas := quotas }
    store := { s.store with pending := [] }
    faults := { s.faults with fences := fences, log := log, logNext := logNext }
    sec := { s.sec with identity := identity, rotations := rotations } } := ⟨_, _, _, _, _, _, _, _, _, _, rfl⟩

theorem State.reload_stands (s : State) : s.stands s.reload := by
  obtain ⟨_, _, _, _, _, _, _, _, _, _, h⟩ := s.reload_eq
  rw [h]
  exact ⟨rfl, fun e => e, fun e => e, fun e => e⟩

theorem State.retireAll_stands (s : State) (l : List Wcb) : s.stands (l.foldl (fun s e => s.retireWcb e) s) :=
  foldl_stands (fun _ e ht => State.stands.retireWcb ht e) l (.refl s)

/-- A freeze that keeps no cullet leaves the module standing. -/
theorem State.freeze_stands (s : State) (cause unit severity : Nat) (hung : Bool) :
    s.stands (s.freeze cause unit severity false hung) := by
  unfold State.freeze
  have read : s.stands (if hung = true then s.reload else s) := ite_stands s.reload_stands (.refl s)
  have noted := (read.post unit 3 cause (State.anyDetail (if hung = true then s.reload else s))).log unit cause severity 0xFF 0
  have written := ite_stands (c := hung = true) noted (noted.tells (State.commit_tells _))
  exact written.trans (State.retireAll_stands _ _)

theorem State.perstReset_held (s : State) :
    s.perstReset.board = { s.board with phase := .heldInReset } ∧ s.perstReset.count 0x3210 5 = 0 ∧
      s.perstReset.faults.lastCause = 0 ∧ s.perstReset.net.sessions = [] := by
  have frozen := s.freeze_stands 0 (unitCore 0) 5 (s.board.phase != .serving)
  generalize hf : s.freeze 0 (unitCore 0) 5 false (s.board.phase != .serving) = f at frozen
  have reset := State.unitsReset_resetDone { (f.bump 0x4003 4 1) with
    faults := { (f.bump 0x4003 4 1).faults with lastCause := 0, resetTries := 1 } }
  obtain ⟨⟨hboard, hcause, hsessions, -⟩, hcount⟩ := State.resetRouter_resetDone reset
  unfold State.perstReset
  dsimp only
  rw [hf]
  refine ⟨?_, hcount, hcause, hsessions⟩
  rw [hboard]
  exact congrArg (fun b => { b with phase := PowerPhase.heldInReset }) frozen.board

end Sys2Proof.Machine
end

section
/-! The sensors (21 R557, R573), and what the supply and the references do to the module (18 R472, R474, 21 R568 to R571). -/

namespace Sys2Proof.Machine
open Sys2Proof

/-! ### The level bits of FaultSummary (19 R513) -/

theorem bit_eq_testBit (v i : Nat) : bit v i = v.testBit i := by
  rw [Nat.testBit_eq_decide_div_mod_eq, bit]
  rfl

theorem bit_or (a b i : Nat) : bit (a ||| b) i = (bit a i || bit b i) := by
  rw [bit_eq_testBit, bit_eq_testBit, bit_eq_testBit, Nat.testBit_or]

/-- A power above all that was summed so far adds its own bit. -/
theorem bit_add_ite {v k i : Nat} (hv : v < 2 ^ k) (b : Bool) : bit (v + if b then 2 ^ k else 0) i = (bit v i || (k == i && b)) := by
  cases b with
  | false => simp
  | true =>
    have joined := Nat.two_pow_add_eq_or_of_lt hv 1
    rw [Nat.mul_one] at joined
    rw [if_pos rfl, Nat.add_comm, joined, bit_or, bit_eq_testBit (2 ^ k), Nat.testBit_two_pow, Bool.or_comm, Bool.and_true]
    rfl

/-- Where the bits rise, a sum of their powers has each bit that is set, and what stood below. -/
theorem bit_foldl_add (l : List (Nat × Bool)) {v k i : Nat} (hv : v < 2 ^ k) (hk : ∀ b ∈ l, k ≤ b.1)
    (hl : l.Pairwise (fun a b => a.1 < b.1)) :
    bit ((l.map (fun b => if b.2 then 2 ^ b.1 else 0)).foldl (· + ·) v) i = (bit v i || l.any (fun b => b.1 == i && b.2)) := by
  induction l generalizing v k with
  | nil => simp
  | cons b l ih =>
    obtain ⟨hfirst, hrest⟩ := List.pairwise_cons.mp hl
    have low : v < 2 ^ b.1 := hv.trans_le (Nat.pow_le_pow_right (by decide) (hk b List.mem_cons_self))
    have next : (v + if b.2 then 2 ^ b.1 else 0) < 2 ^ (b.1 + 1) := by
      rw [Nat.pow_succ]
      split <;> omega
    rw [List.map_cons, List.foldl_cons, ih next (fun c hc => hfirst c hc) hrest, bit_add_ite low, List.any_cons, Bool.or_assoc]

theorem State.bit_levels (s : State) (i : Nat) : bit s.levels i = s.levelBits.any (fun b => b.1 == i && b.2) := by
  have rising : s.levelBits.Pairwise (fun a b => a.1 < b.1) := by simp [State.levelBits]
  rw [State.levels, total, bit_foldl_add s.levelBits (k := 0) (by decide) (fun _ _ => Nat.zero_le _) rising]
  simp [bit]

/-- The level bit of the thermal warning (21 R573). -/
theorem State.bit_levels_warned (s : State) : bit s.levels 17 = s.board.warned := by
  rw [State.bit_levels]
  simp [State.levelBits]

/-- The level bit of the input voltage (21 R557). -/
theorem State.bit_levels_voltage (s : State) :
    bit s.levels 18 = (decide (s.board.millivolts < 36000) || decide (48000 < s.board.millivolts)) := by
  rw [State.bit_levels]
  simp [State.levelBits]

/-! ### Temperatures and voltage -/

/-- Whether the thermal warning stands with new temperatures. -/
def warns (was : Bool) (die device : Nat) : Bool :=
  if decide (degrees 95 < die) || decide (degrees 95 < device) then true
  else if decide (die < degrees 92) && decide (device < degrees 92) then false else was

theorem warns_iff (was : Bool) (die device : Nat) :
    warns was die device = true ↔ 1520 < die ∨ 1520 < device ∨ (was = true ∧ (1472 ≤ die ∨ 1472 ≤ device)) := by
  have hot : (decide (degrees 95 < die) || decide (degrees 95 < device)) = true ↔ 1520 < die ∨ 1520 < device := by
    rw [Bool.or_eq_true, decide_eq_true_eq, decide_eq_true_eq]
    rfl
  have cool : (decide (die < degrees 92) && decide (device < degrees 92)) = true ↔ die < 1472 ∧ device < 1472 := by
    rw [Bool.and_eq_true, decide_eq_true_eq, decide_eq_true_eq]
    rfl
  rw [warns]
  by_cases h : 1520 < die ∨ 1520 < device
  · rw [if_pos (hot.mpr h)]
    exact iff_of_true rfl (h.imp_right .inl)
  · rw [if_neg (mt hot.mp h)]
    by_cases hc : die < 1472 ∧ device < 1472
    · rw [if_pos (cool.mpr hc)]
      exact iff_of_false (by decide) (by omega)
    · rw [if_neg (mt cool.mp hc)]
      constructor
      · exact fun hwas => .inr (.inr ⟨hwas, by omega⟩)
      · rintro (hd | hd | ⟨hwas, -⟩)
        · exact absurd (.inl hd) h
        · exact absurd (.inr hd) h
        · exact hwas

theorem State.sense_noticeStep (s : State) (die device : Nat) : State.noticeStep { s with board := { s.board with
    dieTemp := die, deviceTemp := device, warned := warns s.board.warned die device } } (s.sense die device) :=
  State.watch_noticeStep _ 0

theorem State.sense_board (s : State) (die device : Nat) : (s.sense die device).board = { s.board with
    dieTemp := die, deviceTemp := device, warned := warns s.board.warned die device } :=
  (s.sense_noticeStep die device).board

theorem State.sense_latched (s : State) (die device : Nat) : (s.sense die device).faults.latched = s.faults.latched := by
  unfold State.sense
  rw [State.watch_faults]

theorem execThrottleStep_spec (s : State) (die dev watts : Nat) : ∃ t, execThrottleStep die dev watts s = .next t ∧ t.board.watts = watts ∧
    (1600 < die ∨ 1600 < dev ∨ 1500 < watts → t.board.clockSteps = min 8 (s.board.clockSteps + 1)) ∧
    (die ≤ 1600 → dev ≤ 1600 → watts ≤ 1500 →
      t.board.clockSteps = if die < 1568 then s.board.clockSteps - 1 else s.board.clockSteps) := by
  have steps : (s.sense die dev).board.clockSteps = s.board.clockSteps := by rw [State.sense_board]
  have beyond_iff : (decide (degrees 100 < die) || decide (degrees 100 < dev) || decide (1500 < watts)) = true ↔
      1600 < die ∨ 1600 < dev ∨ 1500 < watts := by
    rw [Bool.or_eq_true, Bool.or_eq_true, decide_eq_true_eq, decide_eq_true_eq, decide_eq_true_eq, or_assoc]
    rfl
  refine ⟨_, rfl, rfl, fun beyond => ?_, fun hdie hdev hwatts => ?_⟩
  · exact (if_pos (beyond_iff.mpr beyond)).trans (by rw [steps])
  · exact (if_neg (mt beyond_iff.mp (by omega))).trans (by rw [steps]; rfl)

theorem execThermalTrip_trips {s : State} {die dev : Nat} (hot : 1760 < die ∨ 1680 < dev) (serving : s.board.phase = .serving) :
    ∃ t, execThermalTrip die dev s = .next t ∧ t.board.phase = .tripped ∧ t.net.linkUp = [false, false] ∧
      ∀ p ∈ t.fabric.ports, p.st = .disabled ∨ p.st = .down := by
  have trip : (!(decide (degrees 110 < die) || decide (degrees 105 < dev))) = false := by
    rw [Bool.not_eq_false', Bool.or_eq_true, decide_eq_true_eq, decide_eq_true_eq]
    exact hot
  unfold execThermalTrip
  dsimp only
  rw [trip, if_neg Bool.false_ne_true, serving]
  refine ⟨_, rfl, ?_, State.portsDown_linkUp _, State.portsDown_allDown _⟩
  rw [State.portsDown_board]

/-! ### The references -/

/-- Ports that hold nothing to send go down without a request failing. -/
theorem State.portsDown_idle {s : State} (h : ∀ p ∈ s.fabric.ports, p.st ≠ .disabled → p.sendQ = []) :
    s.portsDown.mem = s.mem ∧ s.portsDown.office = s.office := by
  have none : ((s.fabric.ports.filter (fun p => p.st != .disabled)).flatMap (fun p => p.sendQ)) = [] := by
    rw [List.flatMap_eq_nil_iff]
    intro p hp
    obtain ⟨hmem, hst⟩ := List.mem_filter.mp hp
    exact h p hmem (by simpa using hst)
  unfold State.portsDown
  dsimp only
  rw [none, (State.watch_noticeStep _ 0).mem, (State.watch_noticeStep _ 0).office]
  exact ⟨rfl, rfl⟩

/-! ### The supply -/

theorem execPowerFall_serving {s : State} (serving : s.board.phase = .serving) : ∃ t u : State, execPowerFall s = .next t ∧
    t.store = u.powerLost.store ∧ u.store = s.store ∧ u.mem = s.mem ∧ t.board.phase = .powerLoss ∧ t.board.millivolts < 33000 ∧
    t.net.linkUp = [false, false] := by
  let low : State := { s with board := { s.board with millivolts := s.free 0 % 33000 } }
  let u : State := ((low.drew.watch 0).bump 0x5111 3 1).raise 26 0
  have told : low.stands u := (((State.stands.refl low).drew.watch 0).bump 0x5111 3 1).raise 26 0
  have lost : low.stands u.powerLost := by
    unfold State.powerLost
    exact (told.drew.commitWith _).storePosts _ _
  have row : execPowerFall s = .next { u.powerLost with
      board := { u.powerLost.board with phase := .powerLoss }
      net := { u.powerLost.net with linkUp := [false, false] } } := by
    unfold execPowerFall
    rw [serving]
  refine ⟨_, u, row, rfl, ?_, ?_, rfl, ?_, rfl⟩
  · exact (State.raise_store _ 26 0).trans (State.watch_store low.drew 0)
  · exact (State.raise_noticeStep _ 26 0).mem.trans (State.watch_noticeStep low.drew 0).mem
  · dsimp only
    rw [lost.board]
    exact Nat.mod_lt _ (by decide)

theorem execPowerReturn_resets {s : State} (lost : s.board.phase = .powerLoss) (high : s.board.perstLow = false) : ∃ u : State,
    execPowerReturn s = .next (u.chipReset 0 (unitCore 0) false false false) ∧ u.board.phase = .serving ∧ u.store = s.store ∧
      u.mem = s.mem := by
  unfold execPowerReturn
  rw [if_neg (by simp [lost])]
  dsimp only
  rw [if_neg (by simp [high])]
  exact ⟨_, rfl, rfl, rfl, rfl⟩

/-- The cold module that starts: what power has just brought up (21 R569). -/
def State.awake (s : State) (ok : Bool) : State :=
  let t := ((s.drew.coldState ok).reload).routerStart
  ({ t with
    board := { t.board with millivolts := 36000 + s.free 0 % 12001 }
    ecat := { t.ecat with stationAlias := t.dget 0x2011 1 } } : State).watch 0

theorem execPowerOn_off {s : State} (off : s.board.phase = .off) (ok : Bool) (bad : List Nat) :
    execPowerOn ok bad s = .next ((s.awake ok).coldStart ((bad.filter (fun n => decide (n < 24))).eraseDups)) := by
  unfold execPowerOn
  rw [if_neg (by rw [off]; decide)]
  rfl

theorem State.awake_kept (s : State) (ok : Bool) : (s.awake ok).sec.level = (if s.sec.fuses.lifecycle = 0 then 2 else 0) ∧
    (s.awake ok).sec.fuses = s.sec.fuses ∧ (s.awake ok).mem.cells = [] ∧ (s.awake ok).office.ctxs = [] ∧
    (s.awake ok).pending = s.pending ∧ (s.awake ok).store.answers = ok := by
  obtain ⟨_, _, _, _, _, _, _, _, _, _, h⟩ := (s.drew.coldState ok).reload_eq
  unfold State.awake State.routerStart
  dsimp only
  rw [h, State.watch_sec, (State.watch_noticeStep _ 0).mem, (State.watch_noticeStep _ 0).office, (State.watch_noticeStep _ 0).pending,
    State.watch_store]
  refine ⟨?_, rfl, rfl, rfl, rfl, rfl⟩
  simp only [State.coldState, State.drew, beq_iff_eq]

theorem execPerst_resets {s : State} (on : s.board.phase = .serving ∨ s.board.phase = .stopped ∨ s.board.phase = .bootstrap)
    (high : s.board.perstLow = false) : ∃ t, execPerst s = .next t ∧ t.board.phase = .heldInReset ∧ t.board.perstLow = true ∧
      t.count 0x3210 5 = 0 ∧ t.faults.lastCause = 0 ∧ t.net.sessions = [] := by
  obtain ⟨hboard, hcount, hcause, hsessions⟩ :=
    State.perstReset_held { s with board := { s.board with perstLow := true } }
  refine ⟨_, ?_, by rw [hboard], by rw [hboard], hcount, hcause, hsessions⟩
  unfold execPerst
  rw [high]
  rcases on with h | h | h <;> rw [h] <;> rfl

theorem execPerstRelease_starts {s : State} (held : s.board.phase = .heldInReset) (answers : s.store.answers = true) : ∃ u : State,
    execPerstRelease s = .next (u.startUp []) ∧ u = { s with board := { s.board with perstLow := false, ref100 := true } } := by
  refine ⟨_, ?_, rfl⟩
  unfold execPerstRelease
  dsimp only
  rw [if_neg (by rw [held]; decide), if_neg (by rw [answers]; simp)]

/-- Settles O43: each event by its own command, and what follows it leaves the module standing. -/
theorem supplyAndSensorsMoveTheModule : Obligations.SupplyAndSensorsMoveTheModule := by
  unfold Obligations.SupplyAndSensorsMoveTheModule
  refine ⟨⟨fun s serving => execPowerFall_serving serving, fun s l h => (State.commitWith_written h l).2,
    fun s lost high => execPowerReturn_resets lost high, fun s ok bad off high => ?_, fun s on high => execPerst_resets on high,
    fun s held answers => execPerstRelease_starts held answers, fun s => ?_, fun s => rfl, fun s serving => ?_⟩,
    fun s die dev => ?_, fun s die dev watts => execThrottleStep_spec s die dev watts,
    fun s die dev hot serving => execThermalTrip_trips hot serving, fun s mv hmv => ?_⟩
  · exact ⟨s.awake ok, execPowerOn_off off ok bad, s.awake_kept ok⟩
  · refine ⟨_, rfl, ?_, State.portsDown_linkUp _, State.portsDown_allDown _, fun idle => State.portsDown_idle idle⟩
    rw [State.portsDown_board]
  · show execRefclk100Loss s = _
    unfold execRefclk100Loss
    rw [serving]
  · refine ⟨_, rfl, ?_, ?_, ?_, ?_, ?_, ?_⟩
    · rw [State.sense_board]
    · rw [State.sense_board]
    · rw [State.sense_board]
      exact warns_iff _ _ _
    · rw [State.faultSummary, bit_or, State.bit_levels_warned, State.sense_latched]
    · exact (s.sense_noticeStep die dev).mem
    · exact (s.sense_noticeStep die dev).office
  · refine ⟨_, congrArg Host.Outcome.next (if_neg (by omega)), ?_, fun out => ?_, ?_⟩
    · rw [(State.watch_noticeStep _ 0).board]
    · rw [State.faultSummary, bit_or, State.bit_levels_voltage, (State.watch_noticeStep _ 0).board]
      simp [out]
    · exact (State.watch_noticeStep _ 0).mem

end Sys2Proof.Machine
end
